-- ==== Sys2Proof/Word.lean ====
section
/-! DEFINITION. The word types of the Syngor S9 and their plainest arithmetic (R4, R5, R241, R262). -/

namespace Sys2Proof

/-- A scalar register, an address or a 64-bit field (R262). -/
abbrev Word := BitVec 64

/-- One byte of memory (R5: bit 0 is the least significant). -/
abbrev Byte := BitVec 8

/-- An instruction word (R8, R272). -/
abbrev IWord := BitVec 32

/-- A five-bit register field: s0 to s31 or v0 to v31 (R262, R272). -/
abbrev RegNo := BitVec 5

/-- A vector register: VLEN is 1,024 in the S9 (R265). -/
abbrev VReg := BitVec 1024

/-- VLEN of the S9 (R2, R265). -/
def vlenBits : Nat := 1024

/-- The word 1 when the proposition's test holds, else 0 (the comparisons of Table 11.1). -/
def boolWord (b : Bool) : Word := if b then 1#64 else 0#64

end Sys2Proof
end

