-- ==== Sys2Proof/Syntax.lean ====
section
/-! DEFINITION. The syntax of Damros and of the device's steps: one constructor for each row of spec/opcode_table.json.
The 291 encoded instructions carry the fields of their words; the 165 events carry what comes from outside the step
(a message's contents, a sensor's value, the unit concerned). -/

namespace Sys2Proof

/-- A context by its place: die, core (0 to 63; 64 and 65 are the die's supervisor cores), turn, bank (R139, R140). -/
structure CtxId where
  die : Nat
  core : Nat
  turn : Nat
  reserve : Bool
deriving DecidableEq, Repr, Inhabited

/-- A unit that faults are counted against (Table 4.1), by its physical number; a supervisor core is of the die-shared class.  A package is
a unit of the vote of R103 only. -/
inductive FUnit where
  | core (die core : Nat)
  | supCore (die core : Nat)
  | dieShared (die : Nat)
  | hbmRow (stack bank row : Nat)
  | stack (stack : Nat)
  | lane (port : Nat) (rx : Bool) (lane : Nat)
  | portDir (port : Nat) (rx : Bool)
  | serviceProcessor (x : Nat)
  | hostController (x : Nat)
  | package (pkg : BitVec 12)
deriving DecidableEq, Repr, Inhabited

/-- The kind of a fault event, by its detector (R82, R84, R89). -/
inductive FKind where
  | corrected | uncorrectable | residue | timing | timingReplay | linkCrc | replay | lane | fec | thermal | selfTest
  | droppedWrite | droppedPacket | credit | noResponse | rowRemap | portDown | silent | baseDie
deriving DecidableEq, Repr, Inhabited

/-- One verdict of a vote or of a service processor (R102, R103). -/
inductive Verdict where
  | retire | keep | abstain
deriving DecidableEq, Repr, Inhabited

/-- The outcome of an ECC check of one granule (R59). -/
inductive Ecc where
  | clean | corrected | uncorrectable
deriving DecidableEq, Repr, Inhabited

/-- A fabric packet (R47, Table 2.4), its payload as bytes. -/
structure Packet where
  hcrc : BitVec 32
  hseq : BitVec 16
  hack : BitVec 16
  ecrc : BitVec 32
  group : BitVec 32
  addr : BitVec 56
  cvp : Bool
  opx : BitVec 7
  dpkg : BitVec 12
  ddie : BitVec 4
  spkg : BitVec 12
  sdie : BitVec 4
  txn : BitVec 16
  len : BitVec 5
  vc : BitVec 3
  typ : BitVec 8
  payload : List Byte
deriving DecidableEq, Repr, Inhabited

/-- A routine-table entry (Table 3.3): V, WB and COUNT of the header, and the words from byte 8 on.  The reserved bits of the header
read zero whatever is written to them (R7). -/
structure Routine where
  valid : Bool := false
  wb : Bool := false
  count : BitVec 6 := 0#6
  words : List IWord := []
deriving DecidableEq, Repr, Inhabited

/-- The head of a host command: session, tenant field, queue field, tag (Table 5.1). -/
structure CmdHead where
  session : Nat
  tenant : Nat
  queue : Nat
  ctag : BitVec 32
  seq : Nat
deriving DecidableEq, Repr, Inhabited

/-- What the supervisor chooses for a window (R430: the choice is not part of the architecture, so it comes with the event): the first
physical page, the page size in bits (12, 21 or 30), the pages it takes beyond the window's length, as destinations of migrations (R209), and
for a stitched window the id of its stitch group (R108). -/
structure Placement where
  base : Nat
  bits : Nat
  spare : Nat
  group : BitVec 16
deriving DecidableEq, Repr, Inhabited

/-- The fields of MAPWIN (Table 5.2). -/
structure MapBody where
  window : Nat
  va : Word
  length : Word
  perms : BitVec 3
  tier : BitVec 2
  pkg : BitVec 12
  dieMask : BitVec 16
  handle : BitVec 44
  homeCore : Bool
  slice : BitVec 6
  mask : Word
  ship : Bool
  stitch : Bool
  data : Nat
  parity : Nat
  members : List (BitVec 12)
deriving DecidableEq, Repr, Inhabited

/-- A weir group as GROUP CREATE gives it (Table 14.4). -/
structure GroupBody where
  key : Word
  n : Nat
  k : Nat
  lag : Nat
  rule : Nat
  op : Nat
  count : Nat
  reserved : Bool
  weights : List (BitVec 16)
  members : List (BitVec 12 × Nat)
deriving DecidableEq, Repr, Inhabited

/-- An exact element of a weir contribution: a fixed-point sum with LSB 2^-171 and flags NaN, +infinity, -infinity; for fmax
the largest product so far, whether one takes part, and whether it is -0 (R414). -/
structure Exact where
  sum : Int
  nan : Bool
  pinf : Bool
  ninf : Bool
  live : Bool
  negZero : Bool
deriving DecidableEq, Repr, Inhabited

/-- A partial that reaches the root from another package (R412): its member die, tag, and for each rank its exact unweighted
elements. -/
structure RemotePartial where
  pkg : BitVec 12
  die : Nat
  tag : BitVec 32
  ranks : List Nat
  data : List (List Exact)
deriving DecidableEq, Repr, Inhabited

/-- One shard of a checkpoint: its name, its length in bytes, and the packages that hold it (R111, R112). -/
structure Shard where
  name : Word
  length : Nat
  replicas : List (BitVec 12)
deriving DecidableEq, Repr, Inhabited

/-- The fields of CKPT (R111). -/
structure CkptBody where
  step : Nat
  members : List (BitVec 12)
  q : Nat
  shards : List Shard
deriving DecidableEq, Repr, Inhabited

/-- What the packages of a checkpoint report to the supervisor: for each shard the copy of each replica, and whether every unit, parity unit
and attest has been acknowledged by every member (R112, R113). -/
structure CkptReport where
  copies : List (List (List Byte))
  acked : Bool
deriving DecidableEq, Repr, Inhabited

/-- A host command with its fields (Table 5.2). -/
inductive Cmd where
  | openTenant (tenant queues evcount evdelay store : Nat) (debug : Bool)
  | close
  | mapwin (b : MapBody)
  | templates (first : Nat) (images : List (List Word))
  | routines (first : Nat) (entries : List Routine)
  | launch (body : List Byte)
  | cntsetSet (va value : Word)
  | cntsetDec (va value : Word)
  | copyin (va : Word) (bytes : List Byte)
  | copyout (va : Word) (length : Nat)
  | waitev (mask : Word) (max timeout : Nat)
  | groupCreate (b : GroupBody)
  | groupPoison (handle : BitVec 32)
  | ckpt (b : CkptBody)
  | restore (members : List (BitVec 12)) (replacements : List (Nat × BitVec 12))
  | reset (tenant : Nat) (closing : Bool)
  | attest (nonce : BitVec 256)
  | powercap (watts : Nat)
  | pagedata (handle : BitVec 44) (offset : Nat) (bytes : List Byte) (last : Bool)
  | pageout (handle : BitVec 44) (offset length : Nat) (last : Bool)
deriving DecidableEq, Repr, Inhabited

/-- A UDP datagram that arrives at the host port (R116, R118): the length of its Ethernet frame, whether that is a pause frame, its
destination MAC and IP address, whether IP fragmented it, its destination port, and its payload. -/
structure Datagram where
  frame : Nat
  pause : Bool
  mac : BitVec 48
  v6 : Bool
  ip : BitVec 128
  fragment : Bool
  port : Nat
  bytes : List Byte
deriving DecidableEq, Repr, Inhabited

/-- A firmware image in a slot of a flash device, with the header that the boot ROM checks (R29): its bytes, its security version number,
the signing key it was signed with, and the signature. -/
structure Image where
  bytes : List Byte
  version : Word
  key : BitVec 776
  sig : List Byte
deriving DecidableEq, Repr, Inhabited

/-- A package of the fabric configuration (R42): the SHA-384 of its identity public key, its id, its tray, whether it is a spare, and its
constraints: the checkpoint groups and the stitch groups it may be a member of. -/
structure FabEntry where
  keyHash : BitVec 384
  id : BitVec 12
  tray : Nat
  spare : Bool
  ckptGroups : List Nat
  stitchGroups : List Nat
deriving DecidableEq, Repr, Inhabited

/-- An entry of the admission list (R120): a host's static public key, whether its role is OPERATOR, and whether it holds the DEBUG
grant. -/
structure Admit where
  key : BitVec 776
  operator : Bool
  debug : Bool
deriving DecidableEq, Repr, Inhabited

/-- The signed supervisor firmware configuration (R42, R120): the fabric configuration and the admission list. -/
structure FwConfig where
  fabric : List FabEntry
  admission : List Admit
deriving DecidableEq, Repr, Inhabited

/-- A MAINT greeting as it arrives (R42): the far end's package id and port, its nonce, its identity public key with the certificate's
signature over it, and the signature over both ends' nonces. -/
structure Greeting where
  pkg : BitVec 12
  port : Nat
  nonce : BitVec 256
  pub : BitVec 776
  certSig : List Byte
  sig : List Byte
deriving DecidableEq, Repr, Inhabited

/-- What the units named by the current reset step report when the step finishes (R16, R34): for each physical die its cores that passed
self-test and how many of its supervisor cores did, the physical stacks that passed, and the firmware's start and trap entry. -/
structure BootReport where
  dieTests : List (Nat × List Nat × Nat)
  stackTests : List Nat
  start : Word
  trapEntry : Word
deriving DecidableEq, Repr, Inhabited

/-- The values of a change of the die maps (R44): entries of DIEMAP, STKMAP and GUEST, the id taken by ALIAS, and for each local physical die
that realises a foreign identity the owning package's sr.cycle with the measured delay of its message (R27). -/
structure MapChange where
  diemap : List (Nat × BitVec 32)
  stkmap : List (Nat × BitVec 32)
  guest : List (Nat × BitVec 32)
  apkg : Option (BitVec 12)
  loads : List (Nat × Word × Nat)
deriving DecidableEq, Repr, Inhabited

/-- A cross-die read that waits at its home or arrives there (R196, R222): a context's, or one that came as a READ packet with the CVEC packet
that precedes it. -/
inductive ReadReq where
  | ctx (c : CtxId)
  | packet (cv : Option Packet) (p : Packet)
deriving DecidableEq, Repr, Inhabited

/-- Who writes a control register (R39, R81). -/
inductive Writer where
  | serviceProcessor
  | supervisor (die core : Nat)
deriving DecidableEq, Repr, Inhabited

/-- A write to a register that has no row of its own (R7): a control register; a measurement register 5 to 7, which Asnor extends with a hash
on request of the supervisor firmware (R30); or THRESH and WINDOW of a unit class, which the firmware sets through Asnor (R83). -/
inductive RegWrite where
  | ctl (addr : Nat) (value : BitVec 32) (who : Writer)
  | meas (i : Nat) (hash : BitVec 384)
  | param (cls thresh window : Nat)
deriving DecidableEq, Repr, Inhabited

/-- What a fault event carries to a vote (R102): its kind and the sr.cycle value at its detection (R82). -/
abbrev Evidence := List (FKind × Nat)

/-- A ballot of R103: the verdicts of the two nearest peer pairs on a unit of this package; or a proposal of another package, with its unit,
the fault events behind it and the unit's THRESH and WINDOW in cycles, on which this package's pair casts its vote. -/
inductive Ballot where
  | cast (u : FUnit) (a b : Verdict)
  | asked (pkg : BitVec 12) (u : FUnit) (events : Evidence) (thresh window : Nat)
deriving DecidableEq, Repr, Inhabited

/-- What a rebuilding base die has read of a sector (R110): from each surviving data package, by its index, and from each surviving parity
holder, by its index. -/
structure RebuildReads where
  data : List (Nat × List Byte)
  parity : List (Nat × List Byte)
deriving DecidableEq, Repr, Inhabited

/-- The instructions and steps of the Syngor S9: one constructor for each row of the opcode table. -/
inductive Instr where
  /-- COLD_RESET (R33). -/
  | coldReset 
  /-- WARM_PACKAGE_RESET (R33). -/
  | warmPackageReset 
  /-- RESET_SEQUENCE_STEP_DONE (R34). -/
  | resetSequenceStepDone (r : BootReport)
  /-- SECURITY_VERSION_ADVANCE (R32). -/
  | securityVersionAdvance (version : Word)
  /-- THERMAL_SENSOR_SAMPLE (R24). -/
  | thermalSensorSample (stack : Bool) (unit milliC : Nat)
  /-- POWER_WINDOW_CHECK (R22). -/
  | powerWindowCheck (watts : Nat) (hottest : List Nat)
  /-- AVS_RATE_CHECK (R21). -/
  | avsRateCheck (die : Nat)
  /-- MATRIX_ENGINE_RAMP (R23). -/
  | matrixEngineRamp (die : Nat)
  /-- GUEST_TIMEBASE_CORRECTION (R27). -/
  | guestTimebaseCorrection (pdie : Nat) (owning : Word)
  /-- MAINT_GREETING (R42). -/
  | maintGreeting (port : Nat) (g : Greeting)
  /-- PORT_LIST_FLOOD (R42). -/
  | portListFlood (pkg : BitVec 12) (ports : List (Nat × BitVec 12 × Nat))
  /-- PORT_LIST_FLOOD_TIMER (R42). -/
  | portListFloodTimer 
  /-- ROUTE_PACKET (R43). -/
  | routePacket (router : Nat) (p : Packet) (owner : Option CtxId)
  /-- UNMAPPED_RESPONSE (R43). -/
  | unmappedResponse (p : Packet)
  /-- ROUTE_HOLD_RELEASE (R38). -/
  | routeHoldRelease (line : Nat)
  /-- HOP_PACKET_RECEIVE (R50). -/
  | hopPacketReceive (port : Nat) (p : Packet)
  /-- RECOVERY_NAK_TIMEOUT (R50). -/
  | recoveryNakTimeout (port : Nat)
  /-- HOP_ACK_TIMER (R50). -/
  | hopAckTimer (port : Nat)
  /-- ACK_RECEIVED (R50). -/
  | ackReceived (port : Nat) (hack : BitVec 16)
  /-- NAK_RECEIVED (R50). -/
  | nakReceived (port : Nat) (hseq : BitVec 16)
  /-- REPLAY_TIMEOUT (R50). -/
  | replayTimeout (port : Nat)
  /-- E2E_NAK (R51). -/
  | e2eNak (p : Packet)
  /-- LANE_LOCK_TIMEOUT (R52). -/
  | laneLockTimeout (port lane : Nat)
  /-- LANE_FAIL (R52). -/
  | laneFail (port : Nat) (mask : BitVec 16) (target : BitVec 4)
  /-- TRAIN_COMPLETE (R52). -/
  | trainComplete (port : Nat) (rx : Bool)
  /-- TRAIN_TIMEOUT (R52). -/
  | trainTimeout (port : Nat) (rx : Bool)
  /-- PORT_DOWN_REROUTE (R96). -/
  | portDownReroute (port : Nat)
  /-- PORT_RETRAIN_RETRY (R96). -/
  | portRetrainRetry (port : Nat)
  /-- CREDIT_TIMEOUT (R44). -/
  | creditTimeout (port waitedUs : Nat)
  /-- QUIESCE_NOTICE (R44). -/
  | quiesceNotice (pkg : BitVec 12) (limitUs : Nat)
  /-- RESUME_NOTICE (R44). -/
  | resumeNotice (pkg : BitVec 12)
  /-- DIE_MAP_CHANGE (R44). -/
  | dieMapChange (m : MapChange) (readbackOk : Bool)
  /-- COMPLETION_ANNOUNCEMENT_TIMER (R219). -/
  | completionAnnouncementTimer (die : Nat)
  /-- COMPLETION_ANNOUNCEMENT (R219). -/
  | completionAnnouncement (die : Nat) (p : Packet)
  /-- CAUSAL_WRITE_PERFORM (R220). -/
  | causalWritePerform (id : Nat)
  /-- CROSS_DIE_READ_PERFORM (R220). -/
  | crossDieReadPerform (r : ReadReq)
  /-- RDC_STAMP_AGE_DROP (R224). -/
  | rdcStampAgeDrop (die line : Nat)
  /-- HOME_ATOMIC (R234). -/
  | homeAtomic (cv : Option Packet) (p : Packet)
  /-- HOME_CNTDEC (R157). -/
  | homeCntdec (cv : Option Packet) (p : Packet)
  /-- HOME_WRITE (R218). -/
  | homeWrite (cv : Option Packet) (p : Packet)
  /-- STORE_ACK (R183). -/
  | storeAck (id : Nat)
  /-- LOAD_DATA_RETURN (R182). -/
  | loadDataReturn (c : CtxId)
  /-- LONG_OP_COMPLETE (R181). -/
  | longOpComplete (c : CtxId) (answer : Option Word)
  /-- BASE_DIE_READ (R64). -/
  | baseDieRead (stack : Nat) (p : Packet) (ecc : List (Nat × Ecc))
  /-- REFRESH_WINDOW_START (R72). -/
  | refreshWindowStart (stack : Nat)
  /-- BASE_DIE_WRITE (R63). -/
  | baseDieWrite (stack : Nat) (p : Packet)
  /-- VICTIM_WRITE (R69). -/
  | victimWrite (stack : Nat) (p : Packet)
  /-- OVERFLOW_FLUSH (R70). -/
  | overflowFlush (stack : Nat) (p : Packet)
  /-- OVERFLOW_DISCARD (R70). -/
  | overflowDiscard (stack : Nat) (p : Packet)
  /-- WRITE_MASKED (R66). -/
  | writeMasked (stack : Nat) (p : Packet)
  /-- MASKED_MERGE_COMPLETE (R66). -/
  | maskedMergeComplete (stack granule : Nat) (ecc : Ecc)
  /-- SHIP_ROUTINE (R76). -/
  | shipRoutine (stack : Nat) (p : Packet)
  /-- STITCH_WRITE (R79). -/
  | stitchWrite (stack : Nat) (p : Packet) (rebuilt : Option (Option (List Byte)))
  /-- REQUESTER_REPLY (R62). -/
  | requesterReply (p : Packet)
  /-- BASE_DIE_PORT_LOSS (R67). -/
  | baseDiePortLoss (stack : Nat) (portB : Bool)
  /-- PATROL_SCRUB (R59). -/
  | patrolScrub (stack granule : Nat) (ecc : Ecc)
  /-- OCCTL_WRITE (R71). -/
  | occtlWrite (stack : Nat) (en : Bool)
  /-- OVERFLOW_DRAIN_DONE (R71). -/
  | overflowDrainDone (stack : Nat)
  /-- ROUTINE_TABLE_WRITE (R75). -/
  | routineTableWrite (stack index : Nat) (r : Routine)
  /-- REGISTER_WRITE (R7). -/
  | registerWrite (r : RegWrite)
  /-- FAULT_EVENT (R83). -/
  | faultEvent (u : FUnit) (kind : FKind) (loc : Option Nat)
  /-- PROBE_TIMEOUT (R84). -/
  | probeTimeout (u : FUnit)
  /-- TIMING_DETECTOR_REPLAY (R88). -/
  | timingDetectorReplay (c : CtxId) (again : Bool)
  /-- RETIREMENT_PROPOSAL (R102). -/
  | retirementProposal (u : FUnit) (silent : Bool) (proposer : Nat) (answers : Bool)
  /-- VOTE_ANSWER_TIMEOUT (R102). -/
  | voteAnswerTimeout (u : FUnit)
  /-- PEER_VOTE (R103). -/
  | peerVote (b : Ballot)
  /-- PEER_VOTE_TIMEOUT (R103). -/
  | peerVoteTimeout (u : FUnit) (first : Bool)
  /-- GRACEFUL_CORE_RETIREMENT (R93). -/
  | gracefulCoreRetirement (die core spare : Nat)
  /-- ABRUPT_CORE_RETIREMENT (R94). -/
  | abruptCoreRetirement (die core spare : Nat)
  /-- STACK_RETIREMENT (R97). -/
  | stackRetirement (stack spare : Nat) (answers : Bool)
  /-- STACK_REBUILD_SECTOR (R110). -/
  | stackRebuildSector (sector : Nat) (reads : RebuildReads)
  /-- STACK_REBUILD_DONE (R97). -/
  | stackRebuildDone (stack : Nat)
  /-- DIE_SUBSTITUTION_LOCAL (R98). -/
  | dieSubstitutionLocal (die spare : Nat) (answers selfTestOk : Bool)
  /-- DIE_SUBSTITUTION_REMOTE (R99). -/
  | dieSubstitutionRemote (die : Nat) (pkg : BitVec 12) (pdie : Nat) (selfTestOk : Bool)
  /-- HEARTBEAT_TIMER (R101). -/
  | heartbeatTimer 
  /-- HEARTBEAT_MISS (R101). -/
  | heartbeatMiss (pkg : BitVec 12) (missed : Bool)
  /-- PACKAGE_LOSS (R101). -/
  | packageLoss (pkg : BitVec 12) (a b : Verdict)
  /-- STITCH_DELTA_RECEIVE (R109). -/
  | stitchDeltaReceive (group : BitVec 16) (p : Packet)
  /-- STITCH_RESEND_TIMEOUT (R109). -/
  | stitchResendTimeout (die core slot : Nat)
  /-- STITCH_UNIT_DELTA (R390). -/
  | stitchUnitDelta (die core line : Nat) (mask : BitVec 4) (delta : List Byte) (group : BitVec 16) (dom : BitVec 32)
  /-- STITCH_ACK_RECEIVE (R390). -/
  | stitchAckReceive (die core slot : Nat) (holder : BitVec 12)
  /-- SCP_HELLO (R120). -/
  | scpHello (d : Datagram)
  /-- SCP_AUTH (R120). -/
  | scpAuth (d : Datagram)
  /-- SCP_ACK (R121). -/
  | scpAck (d : Datagram)
  /-- SCP_BYE (R121). -/
  | scpBye (d : Datagram)
  /-- SCP_COMMAND_RECEIVE (R124). -/
  | scpCommandReceive (d : Datagram)
  /-- SCP_DISCARD (R118). -/
  | scpDiscard (d : Datagram)
  /-- SCP_ACK_TIMER (R121). -/
  | scpAckTimer (session : Nat)
  /-- SCP_RESEND_TIMER (R121). -/
  | scpResendTimer (session seq : Nat)
  /-- SCP_IDLE_TIMEOUT (R121). -/
  | scpIdleTimeout (session : Nat)
  /-- PORT_FAILOVER (R117). -/
  | portFailover 
  /-- HOST_LINK_DOWN_TIMEOUT (R117). -/
  | hostLinkDownTimeout (probeOk : Bool)
  /-- OPEN (R122). -/
  | openTenant (h : CmdHead) (tenant queues evcount evdelay store : Nat) (debug : Bool)
  /-- CLOSE (R122). -/
  | close (h : CmdHead)
  /-- MAPWIN (R430). -/
  | mapwin (h : CmdHead) (b : MapBody) (pl : Placement)
  /-- TEMPLATES (R125). -/
  | templates (h : CmdHead) (first : Nat) (images : List (List Word))
  /-- ROUTINES (R74). -/
  | routines (h : CmdHead) (first : Nat) (entries : List Routine)
  /-- LAUNCH (R129). -/
  | launch (h : CmdHead) (body : List Byte)
  /-- CNTSET_SET (R128). -/
  | cntsetSet (h : CmdHead) (va value : Word)
  /-- CNTSET_DEC (R128). -/
  | cntsetDec (h : CmdHead) (va value : Word)
  /-- COPYIN (R125). -/
  | copyin (h : CmdHead) (va : Word) (bytes : List Byte)
  /-- COPYOUT (R125). -/
  | copyout (h : CmdHead) (va : Word) (length : Nat)
  /-- WAITEV (R134). -/
  | waitev (h : CmdHead) (mask : Word) (max timeout : Nat)
  /-- WAITEV_TIMEOUT (R134). -/
  | waitevTimeout (h : CmdHead)
  /-- GROUP_CREATE (R410). -/
  | groupCreate (h : CmdHead) (b : GroupBody)
  /-- GROUP_POISON (R419). -/
  | groupPoison (h : CmdHead) (handle : BitVec 32)
  /-- CKPT (R111). -/
  | ckpt (h : CmdHead) (b : CkptBody) (r : CkptReport)
  /-- RESTORE (R115). -/
  | restore (h : CmdHead) (members : List (BitVec 12)) (replacements : List (Nat × BitVec 12))
  /-- RESET (R137). -/
  | reset (h : CmdHead) (tenant : Nat) (closing : Bool)
  /-- ATTEST (R138). -/
  | attest (h : CmdHead) (nonce : BitVec 256)
  /-- POWERCAP (R138). -/
  | powercap (h : CmdHead) (watts : Nat)
  /-- PAGEDATA (R210). -/
  | pagedata (h : CmdHead) (handle : BitVec 44) (offset : Nat) (bytes : List Byte) (last : Bool)
  /-- PAGEOUT (R210). -/
  | pageout (h : CmdHead) (handle : BitVec 44) (offset length : Nat) (last : Bool)
  /-- EVENT_DELAY_EXPIRY (R134). -/
  | eventDelayExpiry (tenant : Nat)
  /-- WAITER_POOL_ENTRY_FREE (R156). -/
  | waiterPoolEntryFree (die : Nat)
  /-- TRAP_RESOLUTION (R135). -/
  | trapResolution
  /-- SUPERVISOR_TRAP (R335). -/
  | supervisorTrap (die core : Nat) (cause : BitVec 8) (tval : Word)
  /-- PAGE_EVICTION (R210). -/
  | pageEviction (tenant : Nat) (va : Word) (handle : BitVec 44)
  /-- PAGE_MIGRATION: the page and the window of the tenant whose frame `dst` takes it (R209, R211). -/
  | pageMigration (tenant : Nat) (va : Word) (window : Nat) (dst : BitVec 44)
  /-- MIGRATION_SWITCH (R211). -/
  | migrationSwitch (index : Nat)
  /-- MIGRATION_ABORT (R213). -/
  | migrationAbort (index : Nat) (addr : Nat)
  /-- SPOUT_BIND (R145). -/
  | spoutBind (c : CtxId)
  /-- PREEMPTION_TIMER (R159). -/
  | preemptionTimer (die : Nat)
  /-- SPILL_START (R160). -/
  | spillStart (c : CtxId)
  /-- HARVEST_UNPARK (R167). -/
  | harvestUnpark (c : CtxId)
  /-- DOMAIN_FAULT (R176). -/
  | domainFault (dom : BitVec 32) (cause : BitVec 8) (addr : Word)
  /-- DOMAIN_RESTART (R168). -/
  | domainRestart (dom : BitVec 32)
  /-- PAGE_WALK_COMPLETE (R202). -/
  | pageWalkComplete (c : CtxId) (va : Word)
  /-- RUNAHEAD_END (R207). -/
  | runaheadEnd (c : CtxId)
  /-- MONITOR_FIRE (R323). -/
  | monitorFire (c : CtxId)
  /-- MONITOR_TIMEOUT (R323). -/
  | monitorTimeout (c : CtxId)
  /-- HOLD_VIOLATION_REMOTE (R319). -/
  | holdViolationRemote (c : CtxId) (va : Word)
  /-- START (R383). -/
  | start (data : Word)
  /-- COPY_ACCEPT (R386). -/
  | copyAccept (die core chan : Nat)
  /-- COPY_COMPLETE (R386). -/
  | copyComplete (die core chan : Nat)
  /-- COPY_SUSPEND (R387). -/
  | copySuspend (die core chan : Nat) (offset : Nat) (va : Word)
  /-- COPY_RESUME (R387). -/
  | copyResume (die core chan : Nat)
  /-- COPY_FAULT_END (R387). -/
  | copyFaultEnd (die core chan : Nat) (code : BitVec 8) (offset : Nat)
  /-- SCOREBOARD_ENTRY_FREE (R190). -/
  | scoreboardEntryFree (die core entry : Nat)
  /-- MATRIX_OP_START (R375). -/
  | matrixOpStart (die core : Nat)
  /-- MATRIX_BLOCK_END (R377). -/
  | matrixBlockEnd (die core : Nat) (residue parity : Bool)
  /-- MATRIX_COMMIT (R375). -/
  | matrixCommit (die core : Nat)
  /-- WEIR_PARTIAL_FORWARD (R412). -/
  | weirPartialForward (die : Nat) (handle : BitVec 32)
  /-- WEIR_PARTIAL_ARRIVAL (R413). -/
  | weirPartialArrival (handle : BitVec 32) (remote : Option (Packet × RemotePartial))
  /-- WEIR_VERDICT (R416). -/
  | weirVerdict (c : CtxId) (remote : Option (Packet × Nat × BitVec 32))
  /-- WEIR_RECORD_RECEIVE (R417). -/
  | weirRecordReceive (die : Nat) (handle : BitVec 32) (tag : BitVec 32) (remote : Option (Packet × List Byte))
  /-- SEND (R421). -/
  | send (die slot : Nat)
  /-- RECV (R421). -/
  | recv (die slot : Nat)
  /-- RRS (R421). -/
  | rrs (die slot : Nat)
  /-- STEP_COPY (R421). -/
  | stepCopy (die slot : Nat)
  /-- STEP_WAIT (R421). -/
  | stepWait (die slot : Nat)
  /-- STEP_LOOP (R421). -/
  | stepLoop (die slot : Nat)
  /-- STEP_ENDLOOP (R421). -/
  | stepEndloop (die slot : Nat)
  /-- QROUND (R421). -/
  | qround (die slot : Nat)
  /-- STEP_END (R421). -/
  | stepEnd (die slot : Nat)
  /-- STEP_PROGRAM_FAULT (R422). -/
  | stepProgramFault (die slot : Nat) (code : BitVec 8)
  /-- LOOP_END_CHECK (R317). -/
  | loopEndCheck 
  /-- FULL_EMPTY_CHANGE (R321). -/
  | fullEmptyChange (die core word : Nat) (full : Bool)
  /-- UNASSIGNED_ENCODING (R280). -/
  | unassignedEncoding (word : IWord)
  /-- RESERVED_HINT_KIND (R275). -/
  | reservedHintKind (word : IWord)
  /-- INSTRUCTION_FETCH (R281). -/
  | instructionFetch 
  /-- CREDIT_RETURN (R44). -/
  | creditReturn (port vc credits : Nat)
  /-- STEP_MESSAGE_WRITTEN (R421). -/
  | stepMessageWritten (die : Nat) (handle : BitVec 32) (src dst : Nat) (bytes : List Byte) (remote : Option Packet)
  /-- SUPERVISOR_CORE_RESTART (R332). -/
  | supervisorCoreRestart (die core : Nat) (pc : Word)
  /-- DIRECTED_REFRESH_DONE (R73). -/
  | directedRefreshDone (stack bank : Nat)
  /-- ADD (R306). -/
  | add (d : RegNo) (a : RegNo) (b : RegNo)
  /-- SUB (R306). -/
  | sub (d : RegNo) (a : RegNo) (b : RegNo)
  /-- AND (R306). -/
  | and (d : RegNo) (a : RegNo) (b : RegNo)
  /-- OR (R306). -/
  | or (d : RegNo) (a : RegNo) (b : RegNo)
  /-- XOR (R306). -/
  | xor (d : RegNo) (a : RegNo) (b : RegNo)
  /-- ANDN (R306). -/
  | andn (d : RegNo) (a : RegNo) (b : RegNo)
  /-- SLL (R306). -/
  | sll (d : RegNo) (a : RegNo) (b : RegNo)
  /-- SRL (R306). -/
  | srl (d : RegNo) (a : RegNo) (b : RegNo)
  /-- SRA (R306). -/
  | sra (d : RegNo) (a : RegNo) (b : RegNo)
  /-- ROL (R306). -/
  | rol (d : RegNo) (a : RegNo) (b : RegNo)
  /-- ROR (R306). -/
  | ror (d : RegNo) (a : RegNo) (b : RegNo)
  /-- SLT (R306). -/
  | slt (d : RegNo) (a : RegNo) (b : RegNo)
  /-- SLTU (R306). -/
  | sltu (d : RegNo) (a : RegNo) (b : RegNo)
  /-- MIN (R306). -/
  | min (d : RegNo) (a : RegNo) (b : RegNo)
  /-- MAX (R306). -/
  | max (d : RegNo) (a : RegNo) (b : RegNo)
  /-- MINU (R306). -/
  | minu (d : RegNo) (a : RegNo) (b : RegNo)
  /-- MAXU (R306). -/
  | maxu (d : RegNo) (a : RegNo) (b : RegNo)
  /-- CLZ (R306). -/
  | clz (d : RegNo) (a : RegNo)
  /-- CTZ (R306). -/
  | ctz (d : RegNo) (a : RegNo)
  /-- POPC (R306). -/
  | popc (d : RegNo) (a : RegNo)
  /-- SEXTB (R306). -/
  | sextb (d : RegNo) (a : RegNo)
  /-- SEXTH (R306). -/
  | sexth (d : RegNo) (a : RegNo)
  /-- SEXTW (R306). -/
  | sextw (d : RegNo) (a : RegNo)
  /-- ZEXTW (R306). -/
  | zextw (d : RegNo) (a : RegNo)
  /-- ADDW (R306). -/
  | addw (d : RegNo) (a : RegNo) (b : RegNo)
  /-- SUBW (R306). -/
  | subw (d : RegNo) (a : RegNo) (b : RegNo)
  /-- SLLW (R306). -/
  | sllw (d : RegNo) (a : RegNo) (b : RegNo)
  /-- SRLW (R306). -/
  | srlw (d : RegNo) (a : RegNo) (b : RegNo)
  /-- SRAW (R306). -/
  | sraw (d : RegNo) (a : RegNo) (b : RegNo)
  /-- MULW (R306). -/
  | mulw (d : RegNo) (a : RegNo) (b : RegNo)
  /-- MUL (R306). -/
  | mul (d : RegNo) (a : RegNo) (b : RegNo)
  /-- MULH (R306). -/
  | mulh (d : RegNo) (a : RegNo) (b : RegNo)
  /-- MULHU (R306). -/
  | mulhu (d : RegNo) (a : RegNo) (b : RegNo)
  /-- MULHSU (R306). -/
  | mulhsu (d : RegNo) (a : RegNo) (b : RegNo)
  /-- DIV (R307). -/
  | div (d : RegNo) (a : RegNo) (b : RegNo)
  /-- DIVU (R307). -/
  | divu (d : RegNo) (a : RegNo) (b : RegNo)
  /-- REM (R307). -/
  | rem (d : RegNo) (a : RegNo) (b : RegNo)
  /-- REMU (R307). -/
  | remu (d : RegNo) (a : RegNo) (b : RegNo)
  /-- DIVW (R307). -/
  | divw (d : RegNo) (a : RegNo) (b : RegNo)
  /-- DIVUW (R307). -/
  | divuw (d : RegNo) (a : RegNo) (b : RegNo)
  /-- REMW (R307). -/
  | remw (d : RegNo) (a : RegNo) (b : RegNo)
  /-- REMUW (R307). -/
  | remuw (d : RegNo) (a : RegNo) (b : RegNo)
  /-- ADDI (R309). -/
  | addi (d : RegNo) (a : RegNo) (i : BitVec 15)
  /-- ANDI (R309). -/
  | andi (d : RegNo) (a : RegNo) (i : BitVec 15)
  /-- ORI (R309). -/
  | ori (d : RegNo) (a : RegNo) (i : BitVec 15)
  /-- XORI (R309). -/
  | xori (d : RegNo) (a : RegNo) (i : BitVec 15)
  /-- SLTI (R309). -/
  | slti (d : RegNo) (a : RegNo) (i : BitVec 15)
  /-- SLTIU (R309). -/
  | sltiu (d : RegNo) (a : RegNo) (i : BitVec 15)
  /-- SLLI (R309). -/
  | slli (d : RegNo) (a : RegNo) (s : BitVec 6)
  /-- SRLI (R309). -/
  | srli (d : RegNo) (a : RegNo) (s : BitVec 6)
  /-- SRAI (R309). -/
  | srai (d : RegNo) (a : RegNo) (s : BitVec 6)
  /-- RORI (R309). -/
  | rori (d : RegNo) (a : RegNo) (s : BitVec 6)
  /-- MOVI (R309). -/
  | movi (d : RegNo) (i : BitVec 15)
  /-- ADDPC (R309). -/
  | addpc (d : RegNo) (i : BitVec 15)
  /-- ADDIW (R309). -/
  | addiw (d : RegNo) (a : RegNo) (i : BitVec 15)
  /-- FADD (R312). -/
  | fadd (d : RegNo) (a : RegNo) (b : RegNo) (f : BitVec 1)
  /-- FSUB (R312). -/
  | fsub (d : RegNo) (a : RegNo) (b : RegNo) (f : BitVec 1)
  /-- FMUL (R312). -/
  | fmul (d : RegNo) (a : RegNo) (b : RegNo) (f : BitVec 1)
  /-- FDIV (R312). -/
  | fdiv (d : RegNo) (a : RegNo) (b : RegNo) (f : BitVec 1)
  /-- FSQRT (R312). -/
  | fsqrt (d : RegNo) (a : RegNo) (f : BitVec 1)
  /-- FMIN (R312). -/
  | fmin (d : RegNo) (a : RegNo) (b : RegNo) (f : BitVec 1)
  /-- FMAX (R312). -/
  | fmax (d : RegNo) (a : RegNo) (b : RegNo) (f : BitVec 1)
  /-- FEQ (R312). -/
  | feq (d : RegNo) (a : RegNo) (b : RegNo) (f : BitVec 1)
  /-- FLT (R312). -/
  | flt (d : RegNo) (a : RegNo) (b : RegNo) (f : BitVec 1)
  /-- FLE (R312). -/
  | fle (d : RegNo) (a : RegNo) (b : RegNo) (f : BitVec 1)
  /-- FCLASS (R312). -/
  | fclass (d : RegNo) (a : RegNo) (f : BitVec 1)
  /-- FABS (R312). -/
  | fabs (d : RegNo) (a : RegNo) (f : BitVec 1)
  /-- FNEG (R312). -/
  | fneg (d : RegNo) (a : RegNo) (f : BitVec 1)
  /-- FCVT (R314). -/
  | fcvt (d : RegNo) (a : RegNo) (c : BitVec 5) (s : RegNo)
  /-- FMAC (R313). -/
  | fmac (d : RegNo) (a : RegNo) (b : RegNo) (f : BitVec 1)
  /-- FMSAC (R313). -/
  | fmsac (d : RegNo) (a : RegNo) (b : RegNo) (f : BitVec 1)
  /-- LOOP (R317). -/
  | loop (n : BitVec 1) (a : RegNo) (l : BitVec 15)
  /-- BEQ (R315). -/
  | beq (a : RegNo) (b : RegNo) (o : BitVec 15)
  /-- BNE (R315). -/
  | bne (a : RegNo) (b : RegNo) (o : BitVec 15)
  /-- BLT (R315). -/
  | blt (a : RegNo) (b : RegNo) (o : BitVec 15)
  /-- BGE (R315). -/
  | bge (a : RegNo) (b : RegNo) (o : BitVec 15)
  /-- BLTU (R315). -/
  | bltu (a : RegNo) (b : RegNo) (o : BitVec 15)
  /-- BGEU (R315). -/
  | bgeu (a : RegNo) (b : RegNo) (o : BitVec 15)
  /-- JAL (R316). -/
  | jal (d : RegNo) (o : BitVec 20)
  /-- JALR (R316). -/
  | jalr (d : RegNo) (a : RegNo) (i : BitVec 15)
  /-- LDB (R318). -/
  | ldb (d : RegNo) (a : RegNo) (w : BitVec 2) (o : BitVec 13)
  /-- LDBU (R318). -/
  | ldbu (d : RegNo) (a : RegNo) (w : BitVec 2) (o : BitVec 13)
  /-- LDH (R318). -/
  | ldh (d : RegNo) (a : RegNo) (w : BitVec 2) (o : BitVec 13)
  /-- LDHU (R318). -/
  | ldhu (d : RegNo) (a : RegNo) (w : BitVec 2) (o : BitVec 13)
  /-- LDW (R318). -/
  | ldw (d : RegNo) (a : RegNo) (w : BitVec 2) (o : BitVec 13)
  /-- LDWU (R318). -/
  | ldwu (d : RegNo) (a : RegNo) (w : BitVec 2) (o : BitVec 13)
  /-- LDD (R318). -/
  | ldd (d : RegNo) (a : RegNo) (w : BitVec 2) (o : BitVec 13)
  /-- STB (R318). -/
  | stb (d : RegNo) (a : RegNo) (w : BitVec 2) (o : BitVec 13)
  /-- STH (R318). -/
  | sth (d : RegNo) (a : RegNo) (w : BitVec 2) (o : BitVec 13)
  /-- STW (R318). -/
  | stw (d : RegNo) (a : RegNo) (w : BitVec 2) (o : BitVec 13)
  /-- STD (R318). -/
  | std (d : RegNo) (a : RegNo) (w : BitVec 2) (o : BitVec 13)
  /-- LDRO (R320). -/
  | ldro (d : RegNo) (a : RegNo) (o : BitVec 13)
  /-- LDF (R321). -/
  | ldf (d : RegNo) (a : RegNo) (m : BitVec 1) (o : BitVec 13)
  /-- STF (R321). -/
  | stf (d : RegNo) (a : RegNo) (m : BitVec 1) (o : BitVec 13)
  /-- FENCE (R231). -/
  | fence (m : BitVec 3)
  /-- ROINV (R322). -/
  | roinv (a : RegNo) (b : RegNo)
  /-- MWARM (R323). -/
  | mwarm (a : RegNo)
  /-- MWAIT (R323). -/
  | mwait (d : RegNo) (a : RegNo)
  /-- FESET (R322). -/
  | feset (a : RegNo)
  /-- FECLR (R322). -/
  | feclr (a : RegNo)
  /-- FEST (R322). -/
  | fest (d : RegNo) (a : RegNo)
  /-- CFLUSH (R324). -/
  | cflush (a : RegNo) (b : RegNo)
  /-- CINV (R324). -/
  | cinv (a : RegNo) (b : RegNo)
  /-- PREF (R324). -/
  | pref (a : RegNo)
  /-- AADD (R326). -/
  | aadd (d : RegNo) (a : RegNo) (b : RegNo) (w : BitVec 2) (z : BitVec 1)
  /-- AAND (R326). -/
  | aand (d : RegNo) (a : RegNo) (b : RegNo) (w : BitVec 2) (z : BitVec 1)
  /-- AOR (R326). -/
  | aor (d : RegNo) (a : RegNo) (b : RegNo) (w : BitVec 2) (z : BitVec 1)
  /-- AXOR (R326). -/
  | axor (d : RegNo) (a : RegNo) (b : RegNo) (w : BitVec 2) (z : BitVec 1)
  /-- AMIN (R326). -/
  | amin (d : RegNo) (a : RegNo) (b : RegNo) (w : BitVec 2) (z : BitVec 1)
  /-- AMAX (R326). -/
  | amax (d : RegNo) (a : RegNo) (b : RegNo) (w : BitVec 2) (z : BitVec 1)
  /-- AMINU (R326). -/
  | aminu (d : RegNo) (a : RegNo) (b : RegNo) (w : BitVec 2) (z : BitVec 1)
  /-- AMAXU (R326). -/
  | amaxu (d : RegNo) (a : RegNo) (b : RegNo) (w : BitVec 2) (z : BitVec 1)
  /-- ASWAP (R326). -/
  | aswap (d : RegNo) (a : RegNo) (b : RegNo) (w : BitVec 2) (z : BitVec 1)
  /-- ACAS (R326). -/
  | acas (d : RegNo) (a : RegNo) (b : RegNo) (w : BitVec 2) (z : BitVec 1)
  /-- AFADD (R326). -/
  | afadd (d : RegNo) (a : RegNo) (b : RegNo) (w : BitVec 2)
  /-- AFMAXABS (R261). -/
  | afmaxabs (d : RegNo) (a : RegNo) (b : RegNo) (w : BitVec 2)
  /-- AMAXRST (R261). -/
  | amaxrst (d : RegNo) (a : RegNo) (w : BitVec 2)
  /-- SHIP (R328). -/
  | ship (d : RegNo) (a : RegNo) (b : RegNo) (i : BitVec 10)
  /-- TRAP (R329). -/
  | trap (a : RegNo)
  /-- ERET (R329). -/
  | eret 
  /-- SRRD (R330). -/
  | srrd (d : RegNo) (i : BitVec 12)
  /-- SRWR (R330). -/
  | srwr (d : RegNo) (i : BitVec 12)
  /-- SRSET (R330). -/
  | srset (d : RegNo) (i : BitVec 12)
  /-- SRCLR (R330). -/
  | srclr (d : RegNo) (i : BitVec 12)
  /-- HALT (R332). -/
  | halt 
  /-- BKPT (R329). -/
  | bkpt 
  /-- IFENCE (R331). -/
  | ifence 
  /-- TLBINV (R333). -/
  | tlbinv (a : RegNo) (b : RegNo)
  /-- CTXRES (R334). -/
  | ctxres (d : RegNo) (a : RegNo) (b : RegNo)
  /-- WFE (R331). -/
  | wfe 
  /-- VSETL (R342). -/
  | vsetl (d : RegNo) (a : RegNo) (m : BitVec 1) (t : BitVec 1) (l : BitVec 3) (s : BitVec 3)
  /-- VSETLI (R342). -/
  | vsetli (d : RegNo) (u : BitVec 5) (m : BitVec 1) (t : BitVec 1) (l : BitVec 3) (s : BitVec 3)
  /-- VLD (R345). -/
  | vld (d : RegNo) (a : RegNo) (m : BitVec 1) (w : BitVec 2) (e : BitVec 2)
  /-- VLDS (R345). -/
  | vlds (d : RegNo) (a : RegNo) (b : RegNo) (m : BitVec 1) (w : BitVec 2) (e : BitVec 2)
  /-- VLDX (R345). -/
  | vldx (d : RegNo) (a : RegNo) (b : RegNo) (m : BitVec 1) (w : BitVec 2) (e : BitVec 2)
  /-- VLDFF (R347). -/
  | vldff (d : RegNo) (a : RegNo) (m : BitVec 1) (w : BitVec 2) (e : BitVec 2)
  /-- VST (R349). -/
  | vst (d : RegNo) (a : RegNo) (m : BitVec 1) (w : BitVec 2) (e : BitVec 2)
  /-- VSTS (R349). -/
  | vsts (d : RegNo) (a : RegNo) (b : RegNo) (m : BitVec 1) (w : BitVec 2) (e : BitVec 2)
  /-- VSTX (R349). -/
  | vstx (d : RegNo) (a : RegNo) (b : RegNo) (m : BitVec 1) (w : BitVec 2) (e : BitVec 2)
  /-- VADD_VV (R351). -/
  | vaddVv (d : RegNo) (a : RegNo) (b : RegNo) (m : BitVec 1)
  /-- VADD_VX (R351). -/
  | vaddVx (d : RegNo) (a : RegNo) (s : RegNo) (m : BitVec 1)
  /-- VSUB_VV (R351). -/
  | vsubVv (d : RegNo) (a : RegNo) (b : RegNo) (m : BitVec 1)
  /-- VSUB_VX (R351). -/
  | vsubVx (d : RegNo) (a : RegNo) (s : RegNo) (m : BitVec 1)
  /-- VRSUB_VV (R351). -/
  | vrsubVv (d : RegNo) (a : RegNo) (b : RegNo) (m : BitVec 1)
  /-- VRSUB_VX (R351). -/
  | vrsubVx (d : RegNo) (a : RegNo) (s : RegNo) (m : BitVec 1)
  /-- VMUL_VV (R351). -/
  | vmulVv (d : RegNo) (a : RegNo) (b : RegNo) (m : BitVec 1)
  /-- VMUL_VX (R351). -/
  | vmulVx (d : RegNo) (a : RegNo) (s : RegNo) (m : BitVec 1)
  /-- VMULH_VV (R351). -/
  | vmulhVv (d : RegNo) (a : RegNo) (b : RegNo) (m : BitVec 1) (u : BitVec 1)
  /-- VMULH_VX (R351). -/
  | vmulhVx (d : RegNo) (a : RegNo) (s : RegNo) (m : BitVec 1) (u : BitVec 1)
  /-- VMACC_VV (R351). -/
  | vmaccVv (d : RegNo) (a : RegNo) (b : RegNo) (m : BitVec 1)
  /-- VMACC_VX (R351). -/
  | vmaccVx (d : RegNo) (a : RegNo) (s : RegNo) (m : BitVec 1)
  /-- VNMSAC_VV (R351). -/
  | vnmsacVv (d : RegNo) (a : RegNo) (b : RegNo) (m : BitVec 1)
  /-- VNMSAC_VX (R351). -/
  | vnmsacVx (d : RegNo) (a : RegNo) (s : RegNo) (m : BitVec 1)
  /-- VAND_VV (R351). -/
  | vandVv (d : RegNo) (a : RegNo) (b : RegNo) (m : BitVec 1)
  /-- VAND_VX (R351). -/
  | vandVx (d : RegNo) (a : RegNo) (s : RegNo) (m : BitVec 1)
  /-- VOR_VV (R351). -/
  | vorVv (d : RegNo) (a : RegNo) (b : RegNo) (m : BitVec 1)
  /-- VOR_VX (R351). -/
  | vorVx (d : RegNo) (a : RegNo) (s : RegNo) (m : BitVec 1)
  /-- VXOR_VV (R351). -/
  | vxorVv (d : RegNo) (a : RegNo) (b : RegNo) (m : BitVec 1)
  /-- VXOR_VX (R351). -/
  | vxorVx (d : RegNo) (a : RegNo) (s : RegNo) (m : BitVec 1)
  /-- VSLL_VV (R351). -/
  | vsllVv (d : RegNo) (a : RegNo) (b : RegNo) (m : BitVec 1)
  /-- VSLL_VX (R351). -/
  | vsllVx (d : RegNo) (a : RegNo) (s : RegNo) (m : BitVec 1)
  /-- VSRL_VV (R351). -/
  | vsrlVv (d : RegNo) (a : RegNo) (b : RegNo) (m : BitVec 1)
  /-- VSRL_VX (R351). -/
  | vsrlVx (d : RegNo) (a : RegNo) (s : RegNo) (m : BitVec 1)
  /-- VSRA_VV (R351). -/
  | vsraVv (d : RegNo) (a : RegNo) (b : RegNo) (m : BitVec 1)
  /-- VSRA_VX (R351). -/
  | vsraVx (d : RegNo) (a : RegNo) (s : RegNo) (m : BitVec 1)
  /-- VMIN_VV (R351). -/
  | vminVv (d : RegNo) (a : RegNo) (b : RegNo) (m : BitVec 1)
  /-- VMIN_VX (R351). -/
  | vminVx (d : RegNo) (a : RegNo) (s : RegNo) (m : BitVec 1)
  /-- VMAX_VV (R351). -/
  | vmaxVv (d : RegNo) (a : RegNo) (b : RegNo) (m : BitVec 1)
  /-- VMAX_VX (R351). -/
  | vmaxVx (d : RegNo) (a : RegNo) (s : RegNo) (m : BitVec 1)
  /-- VMINU_VV (R351). -/
  | vminuVv (d : RegNo) (a : RegNo) (b : RegNo) (m : BitVec 1)
  /-- VMINU_VX (R351). -/
  | vminuVx (d : RegNo) (a : RegNo) (s : RegNo) (m : BitVec 1)
  /-- VMAXU_VV (R351). -/
  | vmaxuVv (d : RegNo) (a : RegNo) (b : RegNo) (m : BitVec 1)
  /-- VMAXU_VX (R351). -/
  | vmaxuVx (d : RegNo) (a : RegNo) (s : RegNo) (m : BitVec 1)
  /-- VSEQ_VV (R351). -/
  | vseqVv (d : RegNo) (a : RegNo) (b : RegNo) (m : BitVec 1)
  /-- VSEQ_VX (R351). -/
  | vseqVx (d : RegNo) (a : RegNo) (s : RegNo) (m : BitVec 1)
  /-- VSNE_VV (R351). -/
  | vsneVv (d : RegNo) (a : RegNo) (b : RegNo) (m : BitVec 1)
  /-- VSNE_VX (R351). -/
  | vsneVx (d : RegNo) (a : RegNo) (s : RegNo) (m : BitVec 1)
  /-- VSLT_VV (R351). -/
  | vsltVv (d : RegNo) (a : RegNo) (b : RegNo) (m : BitVec 1)
  /-- VSLT_VX (R351). -/
  | vsltVx (d : RegNo) (a : RegNo) (s : RegNo) (m : BitVec 1)
  /-- VSLTU_VV (R351). -/
  | vsltuVv (d : RegNo) (a : RegNo) (b : RegNo) (m : BitVec 1)
  /-- VSLTU_VX (R351). -/
  | vsltuVx (d : RegNo) (a : RegNo) (s : RegNo) (m : BitVec 1)
  /-- VSLE_VV (R351). -/
  | vsleVv (d : RegNo) (a : RegNo) (b : RegNo) (m : BitVec 1)
  /-- VSLE_VX (R351). -/
  | vsleVx (d : RegNo) (a : RegNo) (s : RegNo) (m : BitVec 1)
  /-- VMERGE_VV (R351). -/
  | vmergeVv (d : RegNo) (a : RegNo) (b : RegNo)
  /-- VMERGE_VX (R351). -/
  | vmergeVx (d : RegNo) (a : RegNo) (s : RegNo)
  /-- VMV_VV (R351). -/
  | vmvVv (d : RegNo) (a : RegNo) (m : BitVec 1)
  /-- VMV_VX (R351). -/
  | vmvVx (d : RegNo) (s : RegNo) (m : BitVec 1)
  /-- VSADD_VV (R351). -/
  | vsaddVv (d : RegNo) (a : RegNo) (b : RegNo) (m : BitVec 1) (u : BitVec 1)
  /-- VSADD_VX (R351). -/
  | vsaddVx (d : RegNo) (a : RegNo) (s : RegNo) (m : BitVec 1) (u : BitVec 1)
  /-- VSSUB_VV (R351). -/
  | vssubVv (d : RegNo) (a : RegNo) (b : RegNo) (m : BitVec 1) (u : BitVec 1)
  /-- VSSUB_VX (R351). -/
  | vssubVx (d : RegNo) (a : RegNo) (s : RegNo) (m : BitVec 1) (u : BitVec 1)
  /-- VNCLIP_VV (R353). -/
  | vnclipVv (d : RegNo) (a : RegNo) (b : RegNo) (m : BitVec 1) (u : BitVec 1)
  /-- VNCLIP_VX (R353). -/
  | vnclipVx (d : RegNo) (a : RegNo) (s : RegNo) (m : BitVec 1) (u : BitVec 1)
  /-- VWADD_VV (R352). -/
  | vwaddVv (d : RegNo) (a : RegNo) (b : RegNo) (m : BitVec 1) (u : BitVec 1)
  /-- VWADD_VX (R352). -/
  | vwaddVx (d : RegNo) (a : RegNo) (s : RegNo) (m : BitVec 1) (u : BitVec 1)
  /-- VWMUL_VV (R352). -/
  | vwmulVv (d : RegNo) (a : RegNo) (b : RegNo) (m : BitVec 1) (u : BitVec 1)
  /-- VWMUL_VX (R352). -/
  | vwmulVx (d : RegNo) (a : RegNo) (s : RegNo) (m : BitVec 1) (u : BitVec 1)
  /-- VEXT (R352). -/
  | vext (d : RegNo) (a : RegNo) (m : BitVec 1) (f : BitVec 2) (u : BitVec 1)
  /-- VFADD_VV (R356). -/
  | vfaddVv (d : RegNo) (a : RegNo) (b : RegNo) (m : BitVec 1)
  /-- VFADD_VX (R356). -/
  | vfaddVx (d : RegNo) (a : RegNo) (s : RegNo) (m : BitVec 1)
  /-- VFSUB_VV (R356). -/
  | vfsubVv (d : RegNo) (a : RegNo) (b : RegNo) (m : BitVec 1)
  /-- VFSUB_VX (R356). -/
  | vfsubVx (d : RegNo) (a : RegNo) (s : RegNo) (m : BitVec 1)
  /-- VFMUL_VV (R356). -/
  | vfmulVv (d : RegNo) (a : RegNo) (b : RegNo) (m : BitVec 1)
  /-- VFMUL_VX (R356). -/
  | vfmulVx (d : RegNo) (a : RegNo) (s : RegNo) (m : BitVec 1)
  /-- VFDIV_VV (R356). -/
  | vfdivVv (d : RegNo) (a : RegNo) (b : RegNo) (m : BitVec 1)
  /-- VFDIV_VX (R356). -/
  | vfdivVx (d : RegNo) (a : RegNo) (s : RegNo) (m : BitVec 1)
  /-- VFSQRT (R356). -/
  | vfsqrt (d : RegNo) (a : RegNo) (m : BitVec 1)
  /-- VFMIN_VV (R356). -/
  | vfminVv (d : RegNo) (a : RegNo) (b : RegNo) (m : BitVec 1)
  /-- VFMIN_VX (R356). -/
  | vfminVx (d : RegNo) (a : RegNo) (s : RegNo) (m : BitVec 1)
  /-- VFMAX_VV (R356). -/
  | vfmaxVv (d : RegNo) (a : RegNo) (b : RegNo) (m : BitVec 1)
  /-- VFMAX_VX (R356). -/
  | vfmaxVx (d : RegNo) (a : RegNo) (s : RegNo) (m : BitVec 1)
  /-- VFMACC_VV (R356). -/
  | vfmaccVv (d : RegNo) (a : RegNo) (b : RegNo) (m : BitVec 1)
  /-- VFMACC_VX (R356). -/
  | vfmaccVx (d : RegNo) (a : RegNo) (s : RegNo) (m : BitVec 1)
  /-- VFNMSAC_VV (R356). -/
  | vfnmsacVv (d : RegNo) (a : RegNo) (b : RegNo) (m : BitVec 1)
  /-- VFNMSAC_VX (R356). -/
  | vfnmsacVx (d : RegNo) (a : RegNo) (s : RegNo) (m : BitVec 1)
  /-- VFEQ_VV (R356). -/
  | vfeqVv (d : RegNo) (a : RegNo) (b : RegNo) (m : BitVec 1)
  /-- VFEQ_VX (R356). -/
  | vfeqVx (d : RegNo) (a : RegNo) (s : RegNo) (m : BitVec 1)
  /-- VFLT_VV (R356). -/
  | vfltVv (d : RegNo) (a : RegNo) (b : RegNo) (m : BitVec 1)
  /-- VFLT_VX (R356). -/
  | vfltVx (d : RegNo) (a : RegNo) (s : RegNo) (m : BitVec 1)
  /-- VFLE_VV (R356). -/
  | vfleVv (d : RegNo) (a : RegNo) (b : RegNo) (m : BitVec 1)
  /-- VFLE_VX (R356). -/
  | vfleVx (d : RegNo) (a : RegNo) (s : RegNo) (m : BitVec 1)
  /-- VFABS (R356). -/
  | vfabs (d : RegNo) (a : RegNo) (m : BitVec 1)
  /-- VFNEG (R356). -/
  | vfneg (d : RegNo) (a : RegNo) (m : BitVec 1)
  /-- VFSGNJ_VV (R356). -/
  | vfsgnjVv (d : RegNo) (a : RegNo) (b : RegNo) (m : BitVec 1)
  /-- VFSGNJ_VX (R356). -/
  | vfsgnjVx (d : RegNo) (a : RegNo) (s : RegNo) (m : BitVec 1)
  /-- VREDSUM (R357). -/
  | vredsum (d : RegNo) (a : RegNo) (b : RegNo) (m : BitVec 1)
  /-- VREDMAX (R357). -/
  | vredmax (d : RegNo) (a : RegNo) (b : RegNo) (m : BitVec 1) (u : BitVec 1)
  /-- VREDMIN (R357). -/
  | vredmin (d : RegNo) (a : RegNo) (b : RegNo) (m : BitVec 1) (u : BitVec 1)
  /-- VREDAND (R357). -/
  | vredand (d : RegNo) (a : RegNo) (b : RegNo) (m : BitVec 1)
  /-- VREDOR (R357). -/
  | vredor (d : RegNo) (a : RegNo) (b : RegNo) (m : BitVec 1)
  /-- VREDXOR (R357). -/
  | vredxor (d : RegNo) (a : RegNo) (b : RegNo) (m : BitVec 1)
  /-- VFREDOSUM (R358). -/
  | vfredosum (d : RegNo) (a : RegNo) (b : RegNo) (m : BitVec 1)
  /-- VFREDTSUM (R359). -/
  | vfredtsum (d : RegNo) (a : RegNo) (b : RegNo) (m : BitVec 1)
  /-- VFREDMAX (R357). -/
  | vfredmax (d : RegNo) (a : RegNo) (b : RegNo) (m : BitVec 1)
  /-- VFREDMIN (R357). -/
  | vfredmin (d : RegNo) (a : RegNo) (b : RegNo) (m : BitVec 1)
  /-- VFAMAX (R360). -/
  | vfamax (d : RegNo) (a : RegNo) (b : RegNo) (m : BitVec 1)
  /-- VSLIDEUP (R361). -/
  | vslideup (d : RegNo) (a : RegNo) (s : RegNo) (m : BitVec 1)
  /-- VSLIDEDN (R361). -/
  | vslidedn (d : RegNo) (a : RegNo) (s : RegNo) (m : BitVec 1)
  /-- VSLIDE1UP (R361). -/
  | vslide1up (d : RegNo) (a : RegNo) (s : RegNo) (m : BitVec 1)
  /-- VSLIDE1DN (R361). -/
  | vslide1dn (d : RegNo) (a : RegNo) (s : RegNo) (m : BitVec 1)
  /-- VGATH (R361). -/
  | vgath (d : RegNo) (a : RegNo) (b : RegNo) (m : BitVec 1)
  /-- VCOMPRESS (R361). -/
  | vcompress (d : RegNo) (a : RegNo) (b : RegNo)
  /-- VIOTA (R361). -/
  | viota (d : RegNo) (a : RegNo) (m : BitVec 1)
  /-- VID (R361). -/
  | vid (d : RegNo) (m : BitVec 1)
  /-- VMVXS (R361). -/
  | vmvxs (d : RegNo) (a : RegNo)
  /-- VMVSX (R361). -/
  | vmvsx (d : RegNo) (s : RegNo)
  /-- VMAND (R362). -/
  | vmand (d : RegNo) (a : RegNo) (b : RegNo)
  /-- VMOR (R362). -/
  | vmor (d : RegNo) (a : RegNo) (b : RegNo)
  /-- VMXOR (R362). -/
  | vmxor (d : RegNo) (a : RegNo) (b : RegNo)
  /-- VMANDN (R362). -/
  | vmandn (d : RegNo) (a : RegNo) (b : RegNo)
  /-- VMNOT (R362). -/
  | vmnot (d : RegNo) (a : RegNo)
  /-- VPOPC (R362). -/
  | vpopc (d : RegNo) (a : RegNo) (m : BitVec 1)
  /-- VFIRST (R362). -/
  | vfirst (d : RegNo) (a : RegNo) (m : BitVec 1)
  /-- VMSBF (R362). -/
  | vmsbf (d : RegNo) (a : RegNo) (m : BitVec 1)
  /-- VCVT (R365). -/
  | vcvt (d : RegNo) (a : RegNo) (s : RegNo) (m : BitVec 1) (c : BitVec 5)
  /-- MSHAPE (R370). -/
  | mshape (d : RegNo) (a : RegNo) (b : RegNo) (o : BitVec 2) (y : BitVec 3) (x : BitVec 3)
  /-- MMA (R373). -/
  | mma (d : RegNo) (a : RegNo) (b : RegNo) (h : BitVec 5)
  /-- MMAS (R373). -/
  | mmas (d : RegNo) (a : RegNo) (b : RegNo) (h : BitVec 5)
  /-- MMAT (R373). -/
  | mmat (d : RegNo) (a : RegNo) (b : RegNo) (h : BitVec 5)
  /-- MZERO (R380). -/
  | mzero (d : RegNo) (h : BitVec 5)
  /-- MSTAT (R381). -/
  | mstat (d : RegNo) (c : BitVec 1)
  /-- SPAWN (R396). -/
  | spawn (d : RegNo) (a : RegNo) (b : RegNo)
  /-- SPAWNC (R396). -/
  | spawnc (d : RegNo) (a : RegNo) (b : RegNo)
  /-- TWAIT (R397). -/
  | twait 
  /-- TEXIT (R398). -/
  | texit 
  /-- YIELD (R399). -/
  | yield 
  /-- CNTINIT (R395). -/
  | cntinit (d : RegNo) (a : RegNo) (b : RegNo)
  /-- CNTDEC (R395). -/
  | cntdec (a : RegNo) (b : RegNo)
  /-- CNTWAIT (R395). -/
  | cntwait (a : RegNo)
  /-- LAUNCHD (R400). -/
  | launchd (d : RegNo) (a : RegNo)
  /-- TSELF (R401). -/
  | tself (d : RegNo) (s : RegNo)
  /-- DBEGIN (R402). -/
  | dbegin (d : RegNo) (a : RegNo)
  /-- DPRES_SNAP (R403). -/
  | dpresSnap (a : RegNo) (b : RegNo)
  /-- DPRES_HOLD (R403). -/
  | dpresHold (a : RegNo) (b : RegNo)
  /-- DEND (R174). -/
  | dend 
  /-- DCHK (R405). -/
  | dchk (a : RegNo) (b : RegNo)
  /-- DABORT (R405). -/
  | dabort (a : RegNo)
  /-- DLEVEL (R406). -/
  | dlevel (d : RegNo) (s : RegNo)
  /-- LEND (R408). -/
  | lend (a : RegNo) (b : RegNo)
  /-- UNLEND (R408). -/
  | unlend (a : RegNo) (b : RegNo)
  /-- HSTAT (R409). -/
  | hstat (d : RegNo) (s : RegNo)
  /-- QPOST (R416). -/
  | qpost (d : RegNo) (a : RegNo)
  /-- QWAIT (R417). -/
  | qwait (d : RegNo) (a : RegNo) (b : RegNo)
  /-- QSTART (R422). -/
  | qstart (d : RegNo) (a : RegNo) (b : RegNo)
  /-- QSTAT (R418). -/
  | qstat (d : RegNo) (a : RegNo) (s : RegNo)
  /-- QRESYNC (R418). -/
  | qresync (d : RegNo) (a : RegNo) (b : RegNo)
  /-- IMMX (R274). -/
  | immx (p : BitVec 22)
  /-- HCACHE (R275). -/
  | hcache (p : BitVec 2)
  /-- HSCHED (R275). -/
  | hsched (o : BitVec 1)
  /-- HMOD (R275). -/
  | hmod (o : BitVec 2) (s : BitVec 1) (r : BitVec 1) (m : BitVec 2)
  /-- HNOP (R275). -/
  | hnop (p : BitVec 22)
deriving DecidableEq, Repr, Inhabited

end Sys2Proof
end

