-- ==== Sys2Proof/WellFormed.lean ====
section
/-! DEFINITION. The static checks on an instruction's fields that the encoding's field widths alone do not make
(R276 to R280, R310, R314, R322, R352, R363, R373, R392).  A term that fails one of them is no instruction: its word is
unassigned and traps ILLEGAL_INSTRUCTION, or is an ill-formed hint and traps ILLEGAL_HINT. -/

namespace Sys2Proof

/-- A conversion code names its scale register only when the conversion is scaled: 0x12 to 0x1D (R314, R363). -/
def scaledCode (c : BitVec 5) : Bool := decide (0x12 ≤ c.toNat) && decide (c.toNat ≤ 0x1D)

/-- FCVT and VCVT: a nonzero scale field with an unscaled code is unassigned (R314, R363). -/
def okConvert (c s : BitVec 5) : Bool := scaledCode c || s == 0#5

/-- A matrix multiply names four nonzero registers (R373). -/
def okMatrix (d a b h : BitVec 5) : Bool := d != 0#5 && a != 0#5 && b != 0#5 && h != 0#5

/-- An HMOD payload has no reserved ORD and no RM without RMO (R275). -/
def okHmod (o : BitVec 2) (r : BitVec 1) (m : BitVec 2) : Bool := o != 3#2 && (r == 1#1 || m == 0#2)

/-- A vector configuration names no reserved LMUL or SEW code (Table 10.6, R343). -/
def okConfig (l s : BitVec 3) : Bool := decide (l.toNat ≤ 3) && decide (s.toNat ≤ 3)

/-- The static well-formedness of an instruction. -/
def Instr.wf : Instr → Bool
  | .fcvt _ _ c s => okConvert c s
  | .vcvt _ _ s _ c => okConvert c s
  | .fence m => m != 0#3
  | .vext _ _ _ f _ => f != 0#2
  | .mma d a b h => okMatrix d a b h
  | .mmas d a b h => okMatrix d a b h
  | .mmat d a b h => okMatrix d a b h
  | .vsetl _ _ _ _ l s => okConfig l s
  | .vsetli _ _ _ _ l s => okConfig l s
  | .tself _ s => decide (s.toNat ≤ 3)
  | .dlevel _ s => decide (s.toNat ≤ 4)
  | .hstat _ s => decide (s.toNat ≤ 5)
  | .qstat _ _ s => decide (s.toNat ≤ 3)
  | .hmod o _ r m => okHmod o r m
  | _ => true

end Sys2Proof
end

