-- ==== Sys2Proof/Decode.lean ====
section
/-! DEFINITION. The decoder of Damros words (R272 to R280 and the encodings of chapters 11 to 14), total on any word and
rejecting by name, and the encoder written from the same encodings.
The decoder is marked noncomputable only because Lean's code generator stops at 244 constructors that carry fields; the
kernel evaluates it on numerals. -/

namespace Sys2Proof

/-- Why a word is no instruction (R275, R280). -/
inductive Reject where
  /-- The major opcode is not assigned. -/
  | major
  /-- The fn value is not one the major lists. -/
  | fn
  /-- A field that must be zero is not. -/
  | field
  /-- A sub-code or register field has a value that is not assigned. -/
  | subcode
  /-- A hint word of kind 5 to 7. -/
  | hintKind
  /-- A hint word with a reserved payload. -/
  | hintPayload
deriving DecidableEq, Repr, Inhabited

/-- The field of `n` bits of the word from bit `lo` up (R5, R272). -/
def fld (w : IWord) (lo n : Nat) : BitVec n := w.extractLsb' lo n

/-- The instruction, when the fields that must be zero are. -/
def must (c : Bool) (i : Instr) : Except Reject Instr := if c then .ok i else .error .field

/-- The hint, when the payload's reserved positions are zero (R275). -/
def mustHint (c : Bool) (i : Instr) : Except Reject Instr := if c then .ok i else .error .hintPayload

noncomputable section

/-- Major 0x00 (R279, Table 10.9a). -/
def decode00 (w : IWord) : Except Reject Instr :=
  match (fld w 0 10).toNat with
  | 1 => .ok (.add (fld w 20 5) (fld w 15 5) (fld w 10 5))
  | 2 => .ok (.sub (fld w 20 5) (fld w 15 5) (fld w 10 5))
  | 3 => .ok (.and (fld w 20 5) (fld w 15 5) (fld w 10 5))
  | 4 => .ok (.or (fld w 20 5) (fld w 15 5) (fld w 10 5))
  | 5 => .ok (.xor (fld w 20 5) (fld w 15 5) (fld w 10 5))
  | 6 => .ok (.andn (fld w 20 5) (fld w 15 5) (fld w 10 5))
  | 7 => .ok (.sll (fld w 20 5) (fld w 15 5) (fld w 10 5))
  | 8 => .ok (.srl (fld w 20 5) (fld w 15 5) (fld w 10 5))
  | 9 => .ok (.sra (fld w 20 5) (fld w 15 5) (fld w 10 5))
  | 10 => .ok (.rol (fld w 20 5) (fld w 15 5) (fld w 10 5))
  | 11 => .ok (.ror (fld w 20 5) (fld w 15 5) (fld w 10 5))
  | 12 => .ok (.slt (fld w 20 5) (fld w 15 5) (fld w 10 5))
  | 13 => .ok (.sltu (fld w 20 5) (fld w 15 5) (fld w 10 5))
  | 14 => .ok (.min (fld w 20 5) (fld w 15 5) (fld w 10 5))
  | 15 => .ok (.max (fld w 20 5) (fld w 15 5) (fld w 10 5))
  | 16 => .ok (.minu (fld w 20 5) (fld w 15 5) (fld w 10 5))
  | 17 => .ok (.maxu (fld w 20 5) (fld w 15 5) (fld w 10 5))
  | 18 => must (fld w 10 5 == 0x0#5) (.clz (fld w 20 5) (fld w 15 5))
  | 19 => must (fld w 10 5 == 0x0#5) (.ctz (fld w 20 5) (fld w 15 5))
  | 20 => must (fld w 10 5 == 0x0#5) (.popc (fld w 20 5) (fld w 15 5))
  | 21 => must (fld w 10 5 == 0x0#5) (.sextb (fld w 20 5) (fld w 15 5))
  | 22 => must (fld w 10 5 == 0x0#5) (.sexth (fld w 20 5) (fld w 15 5))
  | 23 => must (fld w 10 5 == 0x0#5) (.sextw (fld w 20 5) (fld w 15 5))
  | 24 => must (fld w 10 5 == 0x0#5) (.zextw (fld w 20 5) (fld w 15 5))
  | _ => .error .fn

/-- Major 0x01 (R279, Table 10.9a). -/
def decode01 (w : IWord) : Except Reject Instr :=
  match (fld w 0 10).toNat with
  | 1 => .ok (.addw (fld w 20 5) (fld w 15 5) (fld w 10 5))
  | 2 => .ok (.subw (fld w 20 5) (fld w 15 5) (fld w 10 5))
  | 3 => .ok (.sllw (fld w 20 5) (fld w 15 5) (fld w 10 5))
  | 4 => .ok (.srlw (fld w 20 5) (fld w 15 5) (fld w 10 5))
  | 5 => .ok (.sraw (fld w 20 5) (fld w 15 5) (fld w 10 5))
  | 6 => .ok (.mulw (fld w 20 5) (fld w 15 5) (fld w 10 5))
  | _ => .error .fn

/-- Major 0x02 (R279, Table 10.9a). -/
def decode02 (w : IWord) : Except Reject Instr :=
  match (fld w 0 10).toNat with
  | 1 => .ok (.mul (fld w 20 5) (fld w 15 5) (fld w 10 5))
  | 2 => .ok (.mulh (fld w 20 5) (fld w 15 5) (fld w 10 5))
  | 3 => .ok (.mulhu (fld w 20 5) (fld w 15 5) (fld w 10 5))
  | 4 => .ok (.mulhsu (fld w 20 5) (fld w 15 5) (fld w 10 5))
  | 5 => .ok (.div (fld w 20 5) (fld w 15 5) (fld w 10 5))
  | 6 => .ok (.divu (fld w 20 5) (fld w 15 5) (fld w 10 5))
  | 7 => .ok (.rem (fld w 20 5) (fld w 15 5) (fld w 10 5))
  | 8 => .ok (.remu (fld w 20 5) (fld w 15 5) (fld w 10 5))
  | 517 => .ok (.divw (fld w 20 5) (fld w 15 5) (fld w 10 5))
  | 518 => .ok (.divuw (fld w 20 5) (fld w 15 5) (fld w 10 5))
  | 519 => .ok (.remw (fld w 20 5) (fld w 15 5) (fld w 10 5))
  | 520 => .ok (.remuw (fld w 20 5) (fld w 15 5) (fld w 10 5))
  | _ => .error .fn

/-- Major 0x04 (R279, Table 10.9a). -/
def decode04 (w : IWord) : Except Reject Instr :=
  .ok (.addi (fld w 20 5) (fld w 15 5) (fld w 0 15))

/-- Major 0x05 (R279, Table 10.9a). -/
def decode05 (w : IWord) : Except Reject Instr :=
  .ok (.andi (fld w 20 5) (fld w 15 5) (fld w 0 15))

/-- Major 0x06 (R279, Table 10.9a). -/
def decode06 (w : IWord) : Except Reject Instr :=
  .ok (.ori (fld w 20 5) (fld w 15 5) (fld w 0 15))

/-- Major 0x07 (R279, Table 10.9a). -/
def decode07 (w : IWord) : Except Reject Instr :=
  .ok (.xori (fld w 20 5) (fld w 15 5) (fld w 0 15))

/-- Major 0x08 (R279, Table 10.9a). -/
def decode08 (w : IWord) : Except Reject Instr :=
  .ok (.slti (fld w 20 5) (fld w 15 5) (fld w 0 15))

/-- Major 0x09 (R279, Table 10.9a). -/
def decode09 (w : IWord) : Except Reject Instr :=
  .ok (.sltiu (fld w 20 5) (fld w 15 5) (fld w 0 15))

/-- Major 0x0A (R279, Table 10.9a). -/
def decode0A (w : IWord) : Except Reject Instr :=
  match (fld w 12 3).toNat with
  | 0 => must (fld w 10 2 == 0x0#2 && fld w 9 1 == 0x0#1 && fld w 6 3 == 0x0#3) (.slli (fld w 20 5) (fld w 15 5) (fld w 0 6))
  | 1 => must (fld w 10 2 == 0x0#2 && fld w 9 1 == 0x0#1 && fld w 6 3 == 0x0#3) (.srli (fld w 20 5) (fld w 15 5) (fld w 0 6))
  | 2 => must (fld w 10 2 == 0x0#2 && fld w 9 1 == 0x0#1 && fld w 6 3 == 0x0#3) (.srai (fld w 20 5) (fld w 15 5) (fld w 0 6))
  | 3 => must (fld w 10 2 == 0x0#2 && fld w 9 1 == 0x0#1 && fld w 6 3 == 0x0#3) (.rori (fld w 20 5) (fld w 15 5) (fld w 0 6))
  | _ => .error .fn

/-- Major 0x0B (R279, Table 10.9a). -/
def decode0B (w : IWord) : Except Reject Instr :=
  must (fld w 15 5 == 0x0#5) (.movi (fld w 20 5) (fld w 0 15))

/-- Major 0x0C (R279, Table 10.9a). -/
def decode0C (w : IWord) : Except Reject Instr :=
  must (fld w 15 5 == 0x0#5) (.addpc (fld w 20 5) (fld w 0 15))

/-- Major 0x0D (R279, Table 10.9a). -/
def decode0D (w : IWord) : Except Reject Instr :=
  .ok (.addiw (fld w 20 5) (fld w 15 5) (fld w 0 15))

/-- Major 0x10 (R279, Table 10.9a). -/
def decode10 (w : IWord) : Except Reject Instr :=
  if fld w 9 1 == 1#1 then must (fld w 8 1 == 0#1 && fld w 0 3 == 0#3) (.fcvt (fld w 20 5) (fld w 15 5) (fld w 10 5) (fld w 3 5))
  else match (fld w 0 8).toNat with
  | 1 => .ok (.fadd (fld w 20 5) (fld w 15 5) (fld w 10 5) (fld w 8 1))
  | 2 => .ok (.fsub (fld w 20 5) (fld w 15 5) (fld w 10 5) (fld w 8 1))
  | 3 => .ok (.fmul (fld w 20 5) (fld w 15 5) (fld w 10 5) (fld w 8 1))
  | 4 => .ok (.fdiv (fld w 20 5) (fld w 15 5) (fld w 10 5) (fld w 8 1))
  | 5 => must (fld w 10 5 == 0x0#5) (.fsqrt (fld w 20 5) (fld w 15 5) (fld w 8 1))
  | 6 => .ok (.fmin (fld w 20 5) (fld w 15 5) (fld w 10 5) (fld w 8 1))
  | 7 => .ok (.fmax (fld w 20 5) (fld w 15 5) (fld w 10 5) (fld w 8 1))
  | 8 => .ok (.feq (fld w 20 5) (fld w 15 5) (fld w 10 5) (fld w 8 1))
  | 9 => .ok (.flt (fld w 20 5) (fld w 15 5) (fld w 10 5) (fld w 8 1))
  | 10 => .ok (.fle (fld w 20 5) (fld w 15 5) (fld w 10 5) (fld w 8 1))
  | 11 => must (fld w 10 5 == 0x0#5) (.fclass (fld w 20 5) (fld w 15 5) (fld w 8 1))
  | 12 => must (fld w 10 5 == 0x0#5) (.fabs (fld w 20 5) (fld w 15 5) (fld w 8 1))
  | 13 => must (fld w 10 5 == 0x0#5) (.fneg (fld w 20 5) (fld w 15 5) (fld w 8 1))
  | _ => .error .fn

/-- Major 0x11 (R279, Table 10.9a). -/
def decode11 (w : IWord) : Except Reject Instr :=
  must (fld w 9 1 == 0x0#1 && fld w 0 8 == 0x0#8) (.fmac (fld w 20 5) (fld w 15 5) (fld w 10 5) (fld w 8 1))

/-- Major 0x12 (R279, Table 10.9a). -/
def decode12 (w : IWord) : Except Reject Instr :=
  must (fld w 9 1 == 0x0#1 && fld w 0 8 == 0x0#8) (.fmsac (fld w 20 5) (fld w 15 5) (fld w 10 5) (fld w 8 1))

/-- Major 0x16 (R279, Table 10.9a). -/
def decode16 (w : IWord) : Except Reject Instr :=
  must (fld w 21 4 == 0x0#4) (.loop (fld w 20 1) (fld w 15 5) (fld w 0 15))

/-- Major 0x18 (R279, Table 10.9a). -/
def decode18 (w : IWord) : Except Reject Instr :=
  .ok (.beq (fld w 20 5) (fld w 15 5) (fld w 0 15))

/-- Major 0x19 (R279, Table 10.9a). -/
def decode19 (w : IWord) : Except Reject Instr :=
  .ok (.bne (fld w 20 5) (fld w 15 5) (fld w 0 15))

/-- Major 0x1A (R279, Table 10.9a). -/
def decode1A (w : IWord) : Except Reject Instr :=
  .ok (.blt (fld w 20 5) (fld w 15 5) (fld w 0 15))

/-- Major 0x1B (R279, Table 10.9a). -/
def decode1B (w : IWord) : Except Reject Instr :=
  .ok (.bge (fld w 20 5) (fld w 15 5) (fld w 0 15))

/-- Major 0x1C (R279, Table 10.9a). -/
def decode1C (w : IWord) : Except Reject Instr :=
  .ok (.bltu (fld w 20 5) (fld w 15 5) (fld w 0 15))

/-- Major 0x1D (R279, Table 10.9a). -/
def decode1D (w : IWord) : Except Reject Instr :=
  .ok (.bgeu (fld w 20 5) (fld w 15 5) (fld w 0 15))

/-- Major 0x1E (R279, Table 10.9a). -/
def decode1E (w : IWord) : Except Reject Instr :=
  .ok (.jal (fld w 20 5) (fld w 0 20))

/-- Major 0x1F (R279, Table 10.9a). -/
def decode1F (w : IWord) : Except Reject Instr :=
  .ok (.jalr (fld w 20 5) (fld w 15 5) (fld w 0 15))

/-- Major 0x20 (R279, Table 10.9a). -/
def decode20 (w : IWord) : Except Reject Instr :=
  .ok (.ldb (fld w 20 5) (fld w 15 5) (fld w 13 2) (fld w 0 13))

/-- Major 0x21 (R279, Table 10.9a). -/
def decode21 (w : IWord) : Except Reject Instr :=
  .ok (.ldbu (fld w 20 5) (fld w 15 5) (fld w 13 2) (fld w 0 13))

/-- Major 0x22 (R279, Table 10.9a). -/
def decode22 (w : IWord) : Except Reject Instr :=
  .ok (.ldh (fld w 20 5) (fld w 15 5) (fld w 13 2) (fld w 0 13))

/-- Major 0x23 (R279, Table 10.9a). -/
def decode23 (w : IWord) : Except Reject Instr :=
  .ok (.ldhu (fld w 20 5) (fld w 15 5) (fld w 13 2) (fld w 0 13))

/-- Major 0x24 (R279, Table 10.9a). -/
def decode24 (w : IWord) : Except Reject Instr :=
  .ok (.ldw (fld w 20 5) (fld w 15 5) (fld w 13 2) (fld w 0 13))

/-- Major 0x25 (R279, Table 10.9a). -/
def decode25 (w : IWord) : Except Reject Instr :=
  .ok (.ldwu (fld w 20 5) (fld w 15 5) (fld w 13 2) (fld w 0 13))

/-- Major 0x26 (R279, Table 10.9a). -/
def decode26 (w : IWord) : Except Reject Instr :=
  .ok (.ldd (fld w 20 5) (fld w 15 5) (fld w 13 2) (fld w 0 13))

/-- Major 0x27 (R279, Table 10.9a). -/
def decode27 (w : IWord) : Except Reject Instr :=
  .ok (.stb (fld w 20 5) (fld w 15 5) (fld w 13 2) (fld w 0 13))

/-- Major 0x28 (R279, Table 10.9a). -/
def decode28 (w : IWord) : Except Reject Instr :=
  .ok (.sth (fld w 20 5) (fld w 15 5) (fld w 13 2) (fld w 0 13))

/-- Major 0x29 (R279, Table 10.9a). -/
def decode29 (w : IWord) : Except Reject Instr :=
  .ok (.stw (fld w 20 5) (fld w 15 5) (fld w 13 2) (fld w 0 13))

/-- Major 0x2A (R279, Table 10.9a). -/
def decode2A (w : IWord) : Except Reject Instr :=
  .ok (.std (fld w 20 5) (fld w 15 5) (fld w 13 2) (fld w 0 13))

/-- Major 0x2B (R279, Table 10.9a). -/
def decode2B (w : IWord) : Except Reject Instr :=
  must (fld w 13 2 == 0x0#2) (.ldro (fld w 20 5) (fld w 15 5) (fld w 0 13))

/-- Major 0x2C (R279, Table 10.9a). -/
def decode2C (w : IWord) : Except Reject Instr :=
  must (fld w 14 1 == 0x0#1) (.ldf (fld w 20 5) (fld w 15 5) (fld w 13 1) (fld w 0 13))

/-- Major 0x2D (R279, Table 10.9a). -/
def decode2D (w : IWord) : Except Reject Instr :=
  must (fld w 14 1 == 0x0#1) (.stf (fld w 20 5) (fld w 15 5) (fld w 13 1) (fld w 0 13))

/-- Major 0x2E (R279, Table 10.9a). -/
def decode2E (w : IWord) : Except Reject Instr :=
  match (fld w 0 10).toNat with
  | 1 => must (fld w 20 5 == 0x0#5 && fld w 15 5 == 0x0#5 && fld w 13 2 == 0x0#2) (.fence (fld w 10 3))
  | 2 => must (fld w 20 5 == 0x0#5) (.roinv (fld w 15 5) (fld w 10 5))
  | 3 => must (fld w 20 5 == 0x0#5 && fld w 10 5 == 0x0#5) (.mwarm (fld w 15 5))
  | 4 => must (fld w 10 5 == 0x0#5) (.mwait (fld w 20 5) (fld w 15 5))
  | 5 => must (fld w 20 5 == 0x0#5 && fld w 10 5 == 0x0#5) (.feset (fld w 15 5))
  | 6 => must (fld w 20 5 == 0x0#5 && fld w 10 5 == 0x0#5) (.feclr (fld w 15 5))
  | 7 => must (fld w 10 5 == 0x0#5) (.fest (fld w 20 5) (fld w 15 5))
  | 8 => must (fld w 20 5 == 0x0#5) (.cflush (fld w 15 5) (fld w 10 5))
  | 9 => must (fld w 20 5 == 0x0#5) (.cinv (fld w 15 5) (fld w 10 5))
  | 10 => must (fld w 20 5 == 0x0#5 && fld w 10 5 == 0x0#5) (.pref (fld w 15 5))
  | _ => .error .fn

/-- Major 0x2F (R279, Table 10.9a). -/
def decode2F (w : IWord) : Except Reject Instr :=
  match (fld w 0 7).toNat with
  | 1 => .ok (.aadd (fld w 20 5) (fld w 15 5) (fld w 10 5) (fld w 8 2) (fld w 7 1))
  | 2 => .ok (.aand (fld w 20 5) (fld w 15 5) (fld w 10 5) (fld w 8 2) (fld w 7 1))
  | 3 => .ok (.aor (fld w 20 5) (fld w 15 5) (fld w 10 5) (fld w 8 2) (fld w 7 1))
  | 4 => .ok (.axor (fld w 20 5) (fld w 15 5) (fld w 10 5) (fld w 8 2) (fld w 7 1))
  | 5 => .ok (.amin (fld w 20 5) (fld w 15 5) (fld w 10 5) (fld w 8 2) (fld w 7 1))
  | 6 => .ok (.amax (fld w 20 5) (fld w 15 5) (fld w 10 5) (fld w 8 2) (fld w 7 1))
  | 7 => .ok (.aminu (fld w 20 5) (fld w 15 5) (fld w 10 5) (fld w 8 2) (fld w 7 1))
  | 8 => .ok (.amaxu (fld w 20 5) (fld w 15 5) (fld w 10 5) (fld w 8 2) (fld w 7 1))
  | 9 => .ok (.aswap (fld w 20 5) (fld w 15 5) (fld w 10 5) (fld w 8 2) (fld w 7 1))
  | 10 => .ok (.acas (fld w 20 5) (fld w 15 5) (fld w 10 5) (fld w 8 2) (fld w 7 1))
  | 11 => must (fld w 7 1 == 0x0#1) (.afadd (fld w 20 5) (fld w 15 5) (fld w 10 5) (fld w 8 2))
  | 12 => must (fld w 7 1 == 0x0#1) (.afmaxabs (fld w 20 5) (fld w 15 5) (fld w 10 5) (fld w 8 2))
  | 13 => must (fld w 10 5 == 0x0#5 && fld w 7 1 == 0x0#1) (.amaxrst (fld w 20 5) (fld w 15 5) (fld w 8 2))
  | _ => .error .fn

/-- Major 0x30 (R279, Table 10.9a). -/
def decode30 (w : IWord) : Except Reject Instr :=
  .ok (.ship (fld w 20 5) (fld w 15 5) (fld w 10 5) (fld w 0 10))

/-- Major 0x38 (R279, Table 10.9a). -/
def decode38 (w : IWord) : Except Reject Instr :=
  must (fld w 10 5 == 0x0#5 && fld w 9 1 == 0x0#1 && fld w 8 1 == 0x0#1) (.vsetl (fld w 20 5) (fld w 15 5) (fld w 7 1) (fld w 6 1) (fld w 3 3) (fld w 0 3))

/-- Major 0x39 (R279, Table 10.9a). -/
def decode39 (w : IWord) : Except Reject Instr :=
  must (fld w 10 5 == 0x0#5 && fld w 9 1 == 0x0#1 && fld w 8 1 == 0x0#1) (.vsetli (fld w 20 5) (fld w 15 5) (fld w 7 1) (fld w 6 1) (fld w 3 3) (fld w 0 3))

/-- Major 0x3A (R279, Table 10.9a). -/
def decode3A (w : IWord) : Except Reject Instr :=
  must (fld w 10 5 == 0x0#5 && fld w 0 5 == 0x0#5) (.vld (fld w 20 5) (fld w 15 5) (fld w 9 1) (fld w 7 2) (fld w 5 2))

/-- Major 0x3B (R279, Table 10.9a). -/
def decode3B (w : IWord) : Except Reject Instr :=
  must (fld w 0 5 == 0x0#5) (.vlds (fld w 20 5) (fld w 15 5) (fld w 10 5) (fld w 9 1) (fld w 7 2) (fld w 5 2))

/-- Major 0x3C (R279, Table 10.9a). -/
def decode3C (w : IWord) : Except Reject Instr :=
  must (fld w 0 5 == 0x0#5) (.vldx (fld w 20 5) (fld w 15 5) (fld w 10 5) (fld w 9 1) (fld w 7 2) (fld w 5 2))

/-- Major 0x3D (R279, Table 10.9a). -/
def decode3D (w : IWord) : Except Reject Instr :=
  must (fld w 10 5 == 0x0#5 && fld w 0 5 == 0x0#5) (.vldff (fld w 20 5) (fld w 15 5) (fld w 9 1) (fld w 7 2) (fld w 5 2))

/-- Major 0x3E (R279, Table 10.9a). -/
def decode3E (w : IWord) : Except Reject Instr :=
  must (fld w 10 5 == 0x0#5 && fld w 0 5 == 0x0#5) (.vst (fld w 20 5) (fld w 15 5) (fld w 9 1) (fld w 7 2) (fld w 5 2))

/-- Major 0x3F (R279, Table 10.9a). -/
def decode3F (w : IWord) : Except Reject Instr :=
  must (fld w 0 5 == 0x0#5) (.vsts (fld w 20 5) (fld w 15 5) (fld w 10 5) (fld w 9 1) (fld w 7 2) (fld w 5 2))

/-- Major 0x40 (R279, Table 10.9a). -/
def decode40 (w : IWord) : Except Reject Instr :=
  must (fld w 0 5 == 0x0#5) (.vstx (fld w 20 5) (fld w 15 5) (fld w 10 5) (fld w 9 1) (fld w 7 2) (fld w 5 2))

/-- Major 0x41 (R279, Table 10.9a). -/
def decode41 (w : IWord) : Except Reject Instr :=
  match (fld w 0 5).toNat with
  | 1 => must (fld w 5 4 == 0x0#4) (.vaddVv (fld w 20 5) (fld w 15 5) (fld w 10 5) (fld w 9 1))
  | 2 => must (fld w 5 4 == 0x0#4) (.vsubVv (fld w 20 5) (fld w 15 5) (fld w 10 5) (fld w 9 1))
  | 3 => must (fld w 5 4 == 0x0#4) (.vrsubVv (fld w 20 5) (fld w 15 5) (fld w 10 5) (fld w 9 1))
  | 4 => must (fld w 5 4 == 0x0#4) (.vmulVv (fld w 20 5) (fld w 15 5) (fld w 10 5) (fld w 9 1))
  | 5 => must (fld w 6 3 == 0x0#3) (.vmulhVv (fld w 20 5) (fld w 15 5) (fld w 10 5) (fld w 9 1) (fld w 5 1))
  | 6 => must (fld w 5 4 == 0x0#4) (.vmaccVv (fld w 20 5) (fld w 15 5) (fld w 10 5) (fld w 9 1))
  | 7 => must (fld w 5 4 == 0x0#4) (.vnmsacVv (fld w 20 5) (fld w 15 5) (fld w 10 5) (fld w 9 1))
  | 8 => must (fld w 5 4 == 0x0#4) (.vandVv (fld w 20 5) (fld w 15 5) (fld w 10 5) (fld w 9 1))
  | 9 => must (fld w 5 4 == 0x0#4) (.vorVv (fld w 20 5) (fld w 15 5) (fld w 10 5) (fld w 9 1))
  | 10 => must (fld w 5 4 == 0x0#4) (.vxorVv (fld w 20 5) (fld w 15 5) (fld w 10 5) (fld w 9 1))
  | 11 => must (fld w 5 4 == 0x0#4) (.vsllVv (fld w 20 5) (fld w 15 5) (fld w 10 5) (fld w 9 1))
  | 12 => must (fld w 5 4 == 0x0#4) (.vsrlVv (fld w 20 5) (fld w 15 5) (fld w 10 5) (fld w 9 1))
  | 13 => must (fld w 5 4 == 0x0#4) (.vsraVv (fld w 20 5) (fld w 15 5) (fld w 10 5) (fld w 9 1))
  | 14 => must (fld w 5 4 == 0x0#4) (.vminVv (fld w 20 5) (fld w 15 5) (fld w 10 5) (fld w 9 1))
  | 15 => must (fld w 5 4 == 0x0#4) (.vmaxVv (fld w 20 5) (fld w 15 5) (fld w 10 5) (fld w 9 1))
  | 16 => must (fld w 5 4 == 0x0#4) (.vminuVv (fld w 20 5) (fld w 15 5) (fld w 10 5) (fld w 9 1))
  | 17 => must (fld w 5 4 == 0x0#4) (.vmaxuVv (fld w 20 5) (fld w 15 5) (fld w 10 5) (fld w 9 1))
  | 18 => must (fld w 5 4 == 0x0#4) (.vseqVv (fld w 20 5) (fld w 15 5) (fld w 10 5) (fld w 9 1))
  | 19 => must (fld w 5 4 == 0x0#4) (.vsneVv (fld w 20 5) (fld w 15 5) (fld w 10 5) (fld w 9 1))
  | 20 => must (fld w 5 4 == 0x0#4) (.vsltVv (fld w 20 5) (fld w 15 5) (fld w 10 5) (fld w 9 1))
  | 21 => must (fld w 5 4 == 0x0#4) (.vsltuVv (fld w 20 5) (fld w 15 5) (fld w 10 5) (fld w 9 1))
  | 22 => must (fld w 5 4 == 0x0#4) (.vsleVv (fld w 20 5) (fld w 15 5) (fld w 10 5) (fld w 9 1))
  | 23 => must (fld w 9 1 == 0x1#1 && fld w 5 4 == 0x0#4) (.vmergeVv (fld w 20 5) (fld w 15 5) (fld w 10 5))
  | 24 => must (fld w 10 5 == 0x0#5 && fld w 5 4 == 0x0#4) (.vmvVv (fld w 20 5) (fld w 15 5) (fld w 9 1))
  | 25 => must (fld w 6 3 == 0x0#3) (.vsaddVv (fld w 20 5) (fld w 15 5) (fld w 10 5) (fld w 9 1) (fld w 5 1))
  | 26 => must (fld w 6 3 == 0x0#3) (.vssubVv (fld w 20 5) (fld w 15 5) (fld w 10 5) (fld w 9 1) (fld w 5 1))
  | 27 => must (fld w 6 3 == 0x0#3) (.vnclipVv (fld w 20 5) (fld w 15 5) (fld w 10 5) (fld w 9 1) (fld w 5 1))
  | 28 => must (fld w 6 3 == 0x0#3) (.vwaddVv (fld w 20 5) (fld w 15 5) (fld w 10 5) (fld w 9 1) (fld w 5 1))
  | 29 => must (fld w 6 3 == 0x0#3) (.vwmulVv (fld w 20 5) (fld w 15 5) (fld w 10 5) (fld w 9 1) (fld w 5 1))
  | 30 => must (fld w 10 5 == 0x0#5 && fld w 8 1 == 0x0#1) (.vext (fld w 20 5) (fld w 15 5) (fld w 9 1) (fld w 6 2) (fld w 5 1))
  | _ => .error .fn

/-- Major 0x42 (R279, Table 10.9a). -/
def decode42 (w : IWord) : Except Reject Instr :=
  match (fld w 0 5).toNat with
  | 1 => must (fld w 5 4 == 0x0#4) (.vaddVx (fld w 20 5) (fld w 15 5) (fld w 10 5) (fld w 9 1))
  | 2 => must (fld w 5 4 == 0x0#4) (.vsubVx (fld w 20 5) (fld w 15 5) (fld w 10 5) (fld w 9 1))
  | 3 => must (fld w 5 4 == 0x0#4) (.vrsubVx (fld w 20 5) (fld w 15 5) (fld w 10 5) (fld w 9 1))
  | 4 => must (fld w 5 4 == 0x0#4) (.vmulVx (fld w 20 5) (fld w 15 5) (fld w 10 5) (fld w 9 1))
  | 5 => must (fld w 6 3 == 0x0#3) (.vmulhVx (fld w 20 5) (fld w 15 5) (fld w 10 5) (fld w 9 1) (fld w 5 1))
  | 6 => must (fld w 5 4 == 0x0#4) (.vmaccVx (fld w 20 5) (fld w 15 5) (fld w 10 5) (fld w 9 1))
  | 7 => must (fld w 5 4 == 0x0#4) (.vnmsacVx (fld w 20 5) (fld w 15 5) (fld w 10 5) (fld w 9 1))
  | 8 => must (fld w 5 4 == 0x0#4) (.vandVx (fld w 20 5) (fld w 15 5) (fld w 10 5) (fld w 9 1))
  | 9 => must (fld w 5 4 == 0x0#4) (.vorVx (fld w 20 5) (fld w 15 5) (fld w 10 5) (fld w 9 1))
  | 10 => must (fld w 5 4 == 0x0#4) (.vxorVx (fld w 20 5) (fld w 15 5) (fld w 10 5) (fld w 9 1))
  | 11 => must (fld w 5 4 == 0x0#4) (.vsllVx (fld w 20 5) (fld w 15 5) (fld w 10 5) (fld w 9 1))
  | 12 => must (fld w 5 4 == 0x0#4) (.vsrlVx (fld w 20 5) (fld w 15 5) (fld w 10 5) (fld w 9 1))
  | 13 => must (fld w 5 4 == 0x0#4) (.vsraVx (fld w 20 5) (fld w 15 5) (fld w 10 5) (fld w 9 1))
  | 14 => must (fld w 5 4 == 0x0#4) (.vminVx (fld w 20 5) (fld w 15 5) (fld w 10 5) (fld w 9 1))
  | 15 => must (fld w 5 4 == 0x0#4) (.vmaxVx (fld w 20 5) (fld w 15 5) (fld w 10 5) (fld w 9 1))
  | 16 => must (fld w 5 4 == 0x0#4) (.vminuVx (fld w 20 5) (fld w 15 5) (fld w 10 5) (fld w 9 1))
  | 17 => must (fld w 5 4 == 0x0#4) (.vmaxuVx (fld w 20 5) (fld w 15 5) (fld w 10 5) (fld w 9 1))
  | 18 => must (fld w 5 4 == 0x0#4) (.vseqVx (fld w 20 5) (fld w 15 5) (fld w 10 5) (fld w 9 1))
  | 19 => must (fld w 5 4 == 0x0#4) (.vsneVx (fld w 20 5) (fld w 15 5) (fld w 10 5) (fld w 9 1))
  | 20 => must (fld w 5 4 == 0x0#4) (.vsltVx (fld w 20 5) (fld w 15 5) (fld w 10 5) (fld w 9 1))
  | 21 => must (fld w 5 4 == 0x0#4) (.vsltuVx (fld w 20 5) (fld w 15 5) (fld w 10 5) (fld w 9 1))
  | 22 => must (fld w 5 4 == 0x0#4) (.vsleVx (fld w 20 5) (fld w 15 5) (fld w 10 5) (fld w 9 1))
  | 23 => must (fld w 9 1 == 0x1#1 && fld w 5 4 == 0x0#4) (.vmergeVx (fld w 20 5) (fld w 15 5) (fld w 10 5))
  | 24 => must (fld w 15 5 == 0x0#5 && fld w 5 4 == 0x0#4) (.vmvVx (fld w 20 5) (fld w 10 5) (fld w 9 1))
  | 25 => must (fld w 6 3 == 0x0#3) (.vsaddVx (fld w 20 5) (fld w 15 5) (fld w 10 5) (fld w 9 1) (fld w 5 1))
  | 26 => must (fld w 6 3 == 0x0#3) (.vssubVx (fld w 20 5) (fld w 15 5) (fld w 10 5) (fld w 9 1) (fld w 5 1))
  | 27 => must (fld w 6 3 == 0x0#3) (.vnclipVx (fld w 20 5) (fld w 15 5) (fld w 10 5) (fld w 9 1) (fld w 5 1))
  | 28 => must (fld w 6 3 == 0x0#3) (.vwaddVx (fld w 20 5) (fld w 15 5) (fld w 10 5) (fld w 9 1) (fld w 5 1))
  | 29 => must (fld w 6 3 == 0x0#3) (.vwmulVx (fld w 20 5) (fld w 15 5) (fld w 10 5) (fld w 9 1) (fld w 5 1))
  | _ => .error .fn

/-- Major 0x43 (R279, Table 10.9a). -/
def decode43 (w : IWord) : Except Reject Instr :=
  match (fld w 0 9).toNat with
  | 1 => .ok (.vfaddVv (fld w 20 5) (fld w 15 5) (fld w 10 5) (fld w 9 1))
  | 2 => .ok (.vfsubVv (fld w 20 5) (fld w 15 5) (fld w 10 5) (fld w 9 1))
  | 3 => .ok (.vfmulVv (fld w 20 5) (fld w 15 5) (fld w 10 5) (fld w 9 1))
  | 4 => .ok (.vfdivVv (fld w 20 5) (fld w 15 5) (fld w 10 5) (fld w 9 1))
  | 5 => must (fld w 10 5 == 0x0#5) (.vfsqrt (fld w 20 5) (fld w 15 5) (fld w 9 1))
  | 6 => .ok (.vfminVv (fld w 20 5) (fld w 15 5) (fld w 10 5) (fld w 9 1))
  | 7 => .ok (.vfmaxVv (fld w 20 5) (fld w 15 5) (fld w 10 5) (fld w 9 1))
  | 8 => .ok (.vfmaccVv (fld w 20 5) (fld w 15 5) (fld w 10 5) (fld w 9 1))
  | 9 => .ok (.vfnmsacVv (fld w 20 5) (fld w 15 5) (fld w 10 5) (fld w 9 1))
  | 10 => .ok (.vfeqVv (fld w 20 5) (fld w 15 5) (fld w 10 5) (fld w 9 1))
  | 11 => .ok (.vfltVv (fld w 20 5) (fld w 15 5) (fld w 10 5) (fld w 9 1))
  | 12 => .ok (.vfleVv (fld w 20 5) (fld w 15 5) (fld w 10 5) (fld w 9 1))
  | 13 => must (fld w 10 5 == 0x0#5) (.vfabs (fld w 20 5) (fld w 15 5) (fld w 9 1))
  | 14 => must (fld w 10 5 == 0x0#5) (.vfneg (fld w 20 5) (fld w 15 5) (fld w 9 1))
  | 15 => .ok (.vfsgnjVv (fld w 20 5) (fld w 15 5) (fld w 10 5) (fld w 9 1))
  | _ => .error .fn

/-- Major 0x44 (R279, Table 10.9a). -/
def decode44 (w : IWord) : Except Reject Instr :=
  match (fld w 0 9).toNat with
  | 1 => .ok (.vfaddVx (fld w 20 5) (fld w 15 5) (fld w 10 5) (fld w 9 1))
  | 2 => .ok (.vfsubVx (fld w 20 5) (fld w 15 5) (fld w 10 5) (fld w 9 1))
  | 3 => .ok (.vfmulVx (fld w 20 5) (fld w 15 5) (fld w 10 5) (fld w 9 1))
  | 4 => .ok (.vfdivVx (fld w 20 5) (fld w 15 5) (fld w 10 5) (fld w 9 1))
  | 6 => .ok (.vfminVx (fld w 20 5) (fld w 15 5) (fld w 10 5) (fld w 9 1))
  | 7 => .ok (.vfmaxVx (fld w 20 5) (fld w 15 5) (fld w 10 5) (fld w 9 1))
  | 8 => .ok (.vfmaccVx (fld w 20 5) (fld w 15 5) (fld w 10 5) (fld w 9 1))
  | 9 => .ok (.vfnmsacVx (fld w 20 5) (fld w 15 5) (fld w 10 5) (fld w 9 1))
  | 10 => .ok (.vfeqVx (fld w 20 5) (fld w 15 5) (fld w 10 5) (fld w 9 1))
  | 11 => .ok (.vfltVx (fld w 20 5) (fld w 15 5) (fld w 10 5) (fld w 9 1))
  | 12 => .ok (.vfleVx (fld w 20 5) (fld w 15 5) (fld w 10 5) (fld w 9 1))
  | 15 => .ok (.vfsgnjVx (fld w 20 5) (fld w 15 5) (fld w 10 5) (fld w 9 1))
  | _ => .error .fn

/-- Major 0x45 (R279, Table 10.9a). -/
def decode45 (w : IWord) : Except Reject Instr :=
  match (fld w 0 5).toNat with
  | 1 => must (fld w 5 4 == 0x0#4) (.vredsum (fld w 20 5) (fld w 15 5) (fld w 10 5) (fld w 9 1))
  | 2 => must (fld w 6 3 == 0x0#3) (.vredmax (fld w 20 5) (fld w 15 5) (fld w 10 5) (fld w 9 1) (fld w 5 1))
  | 3 => must (fld w 6 3 == 0x0#3) (.vredmin (fld w 20 5) (fld w 15 5) (fld w 10 5) (fld w 9 1) (fld w 5 1))
  | 4 => must (fld w 5 4 == 0x0#4) (.vredand (fld w 20 5) (fld w 15 5) (fld w 10 5) (fld w 9 1))
  | 5 => must (fld w 5 4 == 0x0#4) (.vredor (fld w 20 5) (fld w 15 5) (fld w 10 5) (fld w 9 1))
  | 6 => must (fld w 5 4 == 0x0#4) (.vredxor (fld w 20 5) (fld w 15 5) (fld w 10 5) (fld w 9 1))
  | 7 => must (fld w 5 4 == 0x0#4) (.vfredosum (fld w 20 5) (fld w 15 5) (fld w 10 5) (fld w 9 1))
  | 8 => must (fld w 5 4 == 0x0#4) (.vfredtsum (fld w 20 5) (fld w 15 5) (fld w 10 5) (fld w 9 1))
  | 9 => must (fld w 5 4 == 0x0#4) (.vfredmax (fld w 20 5) (fld w 15 5) (fld w 10 5) (fld w 9 1))
  | 10 => must (fld w 5 4 == 0x0#4) (.vfredmin (fld w 20 5) (fld w 15 5) (fld w 10 5) (fld w 9 1))
  | 11 => must (fld w 5 4 == 0x0#4) (.vfamax (fld w 20 5) (fld w 15 5) (fld w 10 5) (fld w 9 1))
  | _ => .error .fn

/-- Major 0x46 (R279, Table 10.9a). -/
def decode46 (w : IWord) : Except Reject Instr :=
  match (fld w 0 9).toNat with
  | 1 => .ok (.vslideup (fld w 20 5) (fld w 15 5) (fld w 10 5) (fld w 9 1))
  | 2 => .ok (.vslidedn (fld w 20 5) (fld w 15 5) (fld w 10 5) (fld w 9 1))
  | 3 => .ok (.vslide1up (fld w 20 5) (fld w 15 5) (fld w 10 5) (fld w 9 1))
  | 4 => .ok (.vslide1dn (fld w 20 5) (fld w 15 5) (fld w 10 5) (fld w 9 1))
  | 5 => .ok (.vgath (fld w 20 5) (fld w 15 5) (fld w 10 5) (fld w 9 1))
  | 6 => must (fld w 9 1 == 0x0#1) (.vcompress (fld w 20 5) (fld w 15 5) (fld w 10 5))
  | 7 => must (fld w 10 5 == 0x0#5) (.viota (fld w 20 5) (fld w 15 5) (fld w 9 1))
  | 8 => must (fld w 15 5 == 0x0#5 && fld w 10 5 == 0x0#5) (.vid (fld w 20 5) (fld w 9 1))
  | 9 => must (fld w 10 5 == 0x0#5 && fld w 9 1 == 0x0#1) (.vmvxs (fld w 20 5) (fld w 15 5))
  | 10 => must (fld w 15 5 == 0x0#5 && fld w 9 1 == 0x0#1) (.vmvsx (fld w 20 5) (fld w 10 5))
  | _ => .error .fn

/-- Major 0x47 (R279, Table 10.9a). -/
def decode47 (w : IWord) : Except Reject Instr :=
  match (fld w 0 9).toNat with
  | 1 => must (fld w 9 1 == 0x0#1) (.vmand (fld w 20 5) (fld w 15 5) (fld w 10 5))
  | 2 => must (fld w 9 1 == 0x0#1) (.vmor (fld w 20 5) (fld w 15 5) (fld w 10 5))
  | 3 => must (fld w 9 1 == 0x0#1) (.vmxor (fld w 20 5) (fld w 15 5) (fld w 10 5))
  | 4 => must (fld w 9 1 == 0x0#1) (.vmandn (fld w 20 5) (fld w 15 5) (fld w 10 5))
  | 5 => must (fld w 10 5 == 0x0#5 && fld w 9 1 == 0x0#1) (.vmnot (fld w 20 5) (fld w 15 5))
  | 6 => must (fld w 10 5 == 0x0#5) (.vpopc (fld w 20 5) (fld w 15 5) (fld w 9 1))
  | 7 => must (fld w 10 5 == 0x0#5) (.vfirst (fld w 20 5) (fld w 15 5) (fld w 9 1))
  | 8 => must (fld w 10 5 == 0x0#5) (.vmsbf (fld w 20 5) (fld w 15 5) (fld w 9 1))
  | _ => .error .fn

/-- Major 0x48 (R279, Table 10.9a). -/
def decode48 (w : IWord) : Except Reject Instr :=
  must (fld w 5 4 == 0x0#4) (.vcvt (fld w 20 5) (fld w 15 5) (fld w 10 5) (fld w 9 1) (fld w 0 5))

/-- Major 0x50 (R279, Table 10.9a). -/
def decode50 (w : IWord) : Except Reject Instr :=
  must (fld w 9 1 == 0x0#1 && fld w 8 1 == 0x0#1) (.mshape (fld w 20 5) (fld w 15 5) (fld w 10 5) (fld w 6 2) (fld w 3 3) (fld w 0 3))

/-- Major 0x51 (R279, Table 10.9a). -/
def decode51 (w : IWord) : Except Reject Instr :=
  must (fld w 0 5 == 0x0#5) (.mma (fld w 20 5) (fld w 15 5) (fld w 10 5) (fld w 5 5))

/-- Major 0x52 (R279, Table 10.9a). -/
def decode52 (w : IWord) : Except Reject Instr :=
  must (fld w 0 5 == 0x0#5) (.mmas (fld w 20 5) (fld w 15 5) (fld w 10 5) (fld w 5 5))

/-- Major 0x53 (R279, Table 10.9a). -/
def decode53 (w : IWord) : Except Reject Instr :=
  must (fld w 0 5 == 0x0#5) (.mmat (fld w 20 5) (fld w 15 5) (fld w 10 5) (fld w 5 5))

/-- Major 0x54 (R279, Table 10.9a). -/
def decode54 (w : IWord) : Except Reject Instr :=
  must (fld w 15 5 == 0x0#5 && fld w 10 5 == 0x0#5 && fld w 0 5 == 0x0#5) (.mzero (fld w 20 5) (fld w 5 5))

/-- Major 0x55 (R279, Table 10.9a). -/
def decode55 (w : IWord) : Except Reject Instr :=
  must (fld w 15 5 == 0x0#5 && fld w 10 5 == 0x0#5 && fld w 9 1 == 0x0#1 && fld w 1 8 == 0x0#8) (.mstat (fld w 20 5) (fld w 0 1))

/-- Major 0x60 (R279, Table 10.9a). -/
def decode60 (w : IWord) : Except Reject Instr :=
  match (fld w 0 10).toNat with
  | 1 => .ok (.spawn (fld w 20 5) (fld w 15 5) (fld w 10 5))
  | 2 => .ok (.spawnc (fld w 20 5) (fld w 15 5) (fld w 10 5))
  | 3 => must (fld w 20 5 == 0x0#5 && fld w 15 5 == 0x0#5 && fld w 10 5 == 0x0#5) (.twait)
  | 4 => must (fld w 20 5 == 0x0#5 && fld w 15 5 == 0x0#5 && fld w 10 5 == 0x0#5) (.texit)
  | 5 => must (fld w 20 5 == 0x0#5 && fld w 15 5 == 0x0#5 && fld w 10 5 == 0x0#5) (.yield)
  | 6 => .ok (.cntinit (fld w 20 5) (fld w 15 5) (fld w 10 5))
  | 7 => must (fld w 20 5 == 0x0#5) (.cntdec (fld w 15 5) (fld w 10 5))
  | 8 => must (fld w 20 5 == 0x0#5 && fld w 10 5 == 0x0#5) (.cntwait (fld w 15 5))
  | 9 => must (fld w 10 5 == 0x0#5) (.launchd (fld w 20 5) (fld w 15 5))
  | 10 => must (fld w 15 5 == 0x0#5) (.tself (fld w 20 5) (fld w 10 5))
  | _ => .error .fn

/-- Major 0x64 (R279, Table 10.9a). -/
def decode64 (w : IWord) : Except Reject Instr :=
  match (fld w 0 10).toNat with
  | 1 => must (fld w 10 5 == 0x0#5) (.dbegin (fld w 20 5) (fld w 15 5))
  | 2 => must (fld w 20 5 == 0x0#5) (.dpresSnap (fld w 15 5) (fld w 10 5))
  | 3 => must (fld w 20 5 == 0x0#5) (.dpresHold (fld w 15 5) (fld w 10 5))
  | 4 => must (fld w 20 5 == 0x0#5 && fld w 15 5 == 0x0#5 && fld w 10 5 == 0x0#5) (.dend)
  | 5 => must (fld w 20 5 == 0x0#5) (.dchk (fld w 15 5) (fld w 10 5))
  | 6 => must (fld w 20 5 == 0x0#5 && fld w 10 5 == 0x0#5) (.dabort (fld w 15 5))
  | 7 => must (fld w 15 5 == 0x0#5) (.dlevel (fld w 20 5) (fld w 10 5))
  | _ => .error .fn

/-- Major 0x66 (R279, Table 10.9a). -/
def decode66 (w : IWord) : Except Reject Instr :=
  match (fld w 0 10).toNat with
  | 1 => must (fld w 20 5 == 0x0#5) (.lend (fld w 15 5) (fld w 10 5))
  | 2 => must (fld w 20 5 == 0x0#5) (.unlend (fld w 15 5) (fld w 10 5))
  | 3 => must (fld w 15 5 == 0x0#5) (.hstat (fld w 20 5) (fld w 10 5))
  | _ => .error .fn

/-- Major 0x68 (R279, Table 10.9a). -/
def decode68 (w : IWord) : Except Reject Instr :=
  match (fld w 0 10).toNat with
  | 1 => must (fld w 10 5 == 0x0#5) (.qpost (fld w 20 5) (fld w 15 5))
  | 2 => .ok (.qwait (fld w 20 5) (fld w 15 5) (fld w 10 5))
  | 3 => .ok (.qstart (fld w 20 5) (fld w 15 5) (fld w 10 5))
  | 4 => .ok (.qstat (fld w 20 5) (fld w 15 5) (fld w 10 5))
  | 5 => .ok (.qresync (fld w 20 5) (fld w 15 5) (fld w 10 5))
  | _ => .error .fn

/-- Major 0x70 (R279, Table 10.9a). -/
def decode70 (w : IWord) : Except Reject Instr :=
  match (fld w 0 8).toNat with
  | 1 => must (fld w 20 5 == 0x0#5 && fld w 10 5 == 0x0#5 && fld w 9 1 == 0x0#1 && fld w 8 1 == 0x0#1) (.trap (fld w 15 5))
  | 2 => must (fld w 20 5 == 0x0#5 && fld w 15 5 == 0x0#5 && fld w 10 5 == 0x0#5 && fld w 9 1 == 0x0#1 && fld w 8 1 == 0x0#1) (.eret)
  | 3 => .ok (.srrd (fld w 20 5) (fld w 8 12))
  | 4 => .ok (.srwr (fld w 20 5) (fld w 8 12))
  | 5 => .ok (.srset (fld w 20 5) (fld w 8 12))
  | 6 => .ok (.srclr (fld w 20 5) (fld w 8 12))
  | 7 => must (fld w 20 5 == 0x0#5 && fld w 15 5 == 0x0#5 && fld w 10 5 == 0x0#5 && fld w 9 1 == 0x0#1 && fld w 8 1 == 0x0#1) (.halt)
  | 8 => must (fld w 20 5 == 0x0#5 && fld w 15 5 == 0x0#5 && fld w 10 5 == 0x0#5 && fld w 9 1 == 0x0#1 && fld w 8 1 == 0x0#1) (.bkpt)
  | 9 => must (fld w 20 5 == 0x0#5 && fld w 15 5 == 0x0#5 && fld w 10 5 == 0x0#5 && fld w 9 1 == 0x0#1 && fld w 8 1 == 0x0#1) (.ifence)
  | 10 => must (fld w 20 5 == 0x0#5 && fld w 9 1 == 0x0#1 && fld w 8 1 == 0x0#1) (.tlbinv (fld w 15 5) (fld w 10 5))
  | 11 => must (fld w 9 1 == 0x0#1 && fld w 8 1 == 0x0#1) (.ctxres (fld w 20 5) (fld w 15 5) (fld w 10 5))
  | 12 => must (fld w 20 5 == 0x0#5 && fld w 15 5 == 0x0#5 && fld w 10 5 == 0x0#5 && fld w 9 1 == 0x0#1 && fld w 8 1 == 0x0#1) (.wfe)
  | _ => .error .fn

/-- Major 0x7F (R279, Table 10.9a). -/
def decode7F (w : IWord) : Except Reject Instr :=
  match (fld w 22 3).toNat with
  | 0 => .ok (.immx (fld w 0 22))
  | 1 => mustHint (fld w 20 2 == 0x0#2 && fld w 15 5 == 0x0#5 && fld w 10 5 == 0x0#5 && fld w 9 1 == 0x0#1 && fld w 2 7 == 0x0#7) (.hcache (fld w 0 2))
  | 2 => mustHint (fld w 20 2 == 0x0#2 && fld w 15 5 == 0x0#5 && fld w 10 5 == 0x0#5 && fld w 9 1 == 0x0#1 && fld w 1 8 == 0x0#8) (.hsched (fld w 0 1))
  | 3 => mustHint (fld w 20 2 == 0x0#2 && fld w 15 5 == 0x0#5 && fld w 10 5 == 0x0#5 && fld w 9 1 == 0x0#1 && fld w 6 3 == 0x0#3) (.hmod (fld w 4 2) (fld w 3 1) (fld w 2 1) (fld w 0 2))
  | 4 => .ok (.hnop (fld w 0 22))
  | _ => .error .hintKind

/-- The word by its major opcode, bits [31:25] (Table 10.9a). -/
def decodeMajor (w : IWord) : Except Reject Instr :=
  match (fld w 25 7).toNat with
  | 0 => decode00 w
  | 1 => decode01 w
  | 2 => decode02 w
  | 4 => decode04 w
  | 5 => decode05 w
  | 6 => decode06 w
  | 7 => decode07 w
  | 8 => decode08 w
  | 9 => decode09 w
  | 10 => decode0A w
  | 11 => decode0B w
  | 12 => decode0C w
  | 13 => decode0D w
  | 16 => decode10 w
  | 17 => decode11 w
  | 18 => decode12 w
  | 22 => decode16 w
  | 24 => decode18 w
  | 25 => decode19 w
  | 26 => decode1A w
  | 27 => decode1B w
  | 28 => decode1C w
  | 29 => decode1D w
  | 30 => decode1E w
  | 31 => decode1F w
  | 32 => decode20 w
  | 33 => decode21 w
  | 34 => decode22 w
  | 35 => decode23 w
  | 36 => decode24 w
  | 37 => decode25 w
  | 38 => decode26 w
  | 39 => decode27 w
  | 40 => decode28 w
  | 41 => decode29 w
  | 42 => decode2A w
  | 43 => decode2B w
  | 44 => decode2C w
  | 45 => decode2D w
  | 46 => decode2E w
  | 47 => decode2F w
  | 48 => decode30 w
  | 56 => decode38 w
  | 57 => decode39 w
  | 58 => decode3A w
  | 59 => decode3B w
  | 60 => decode3C w
  | 61 => decode3D w
  | 62 => decode3E w
  | 63 => decode3F w
  | 64 => decode40 w
  | 65 => decode41 w
  | 66 => decode42 w
  | 67 => decode43 w
  | 68 => decode44 w
  | 69 => decode45 w
  | 70 => decode46 w
  | 71 => decode47 w
  | 72 => decode48 w
  | 80 => decode50 w
  | 81 => decode51 w
  | 82 => decode52 w
  | 83 => decode53 w
  | 84 => decode54 w
  | 85 => decode55 w
  | 96 => decode60 w
  | 100 => decode64 w
  | 102 => decode66 w
  | 104 => decode68 w
  | 112 => decode70 w
  | 127 => decode7F w
  | _ => .error .major

/-- Whether the term is a hint word. -/
def Instr.isHint : Instr → Bool
  | .immx _ | .hcache _ | .hsched _ | .hmod _ _ _ _ | .hnop _ => true
  | _ => false

/-- The instruction that a word encodes, or why it encodes none. -/
def decodeWord (w : IWord) : Except Reject Instr :=
  match decodeMajor w with
  | .ok i => if i.wf then .ok i else if i.isHint then .error .hintPayload else .error .subcode
  | .error e => .error e

/-- What a context issues at a word: the instruction; or, where the word encodes none, the trap that R275 or R280 gives
it, as the step of that name. -/
def issueWord (w : IWord) : Instr :=
  match decodeWord w with
  | .ok i => i
  | .error .hintKind => .reservedHintKind w
  | .error .hintPayload => .reservedHintKind w
  | .error _ => .unassignedEncoding w

/-- A word from four bytes, the first the least significant (R5). -/
def wordOfBytes (b0 b1 b2 b3 : Byte) : IWord := b3 ++ b2 ++ b1 ++ b0

/-- Decoding of a byte list: the instruction of the first four bytes and the bytes after it. -/
def decodeBytes : List Byte → Option (Except Reject Instr × List Byte)
  | b0 :: b1 :: b2 :: b3 :: t => some (decodeWord (wordOfBytes b0 b1 b2 b3), t)
  | _ => none

end

/-- The word of ADD (R306). -/
def Enc.add (d : RegNo) (a : RegNo) (b : RegNo) : IWord :=
  0x0#7 ++ d ++ a ++ b ++ 0x1#10

/-- The word of SUB (R306). -/
def Enc.sub (d : RegNo) (a : RegNo) (b : RegNo) : IWord :=
  0x0#7 ++ d ++ a ++ b ++ 0x2#10

/-- The word of AND (R306). -/
def Enc.and (d : RegNo) (a : RegNo) (b : RegNo) : IWord :=
  0x0#7 ++ d ++ a ++ b ++ 0x3#10

/-- The word of OR (R306). -/
def Enc.or (d : RegNo) (a : RegNo) (b : RegNo) : IWord :=
  0x0#7 ++ d ++ a ++ b ++ 0x4#10

/-- The word of XOR (R306). -/
def Enc.xor (d : RegNo) (a : RegNo) (b : RegNo) : IWord :=
  0x0#7 ++ d ++ a ++ b ++ 0x5#10

/-- The word of ANDN (R306). -/
def Enc.andn (d : RegNo) (a : RegNo) (b : RegNo) : IWord :=
  0x0#7 ++ d ++ a ++ b ++ 0x6#10

/-- The word of SLL (R306). -/
def Enc.sll (d : RegNo) (a : RegNo) (b : RegNo) : IWord :=
  0x0#7 ++ d ++ a ++ b ++ 0x7#10

/-- The word of SRL (R306). -/
def Enc.srl (d : RegNo) (a : RegNo) (b : RegNo) : IWord :=
  0x0#7 ++ d ++ a ++ b ++ 0x8#10

/-- The word of SRA (R306). -/
def Enc.sra (d : RegNo) (a : RegNo) (b : RegNo) : IWord :=
  0x0#7 ++ d ++ a ++ b ++ 0x9#10

/-- The word of ROL (R306). -/
def Enc.rol (d : RegNo) (a : RegNo) (b : RegNo) : IWord :=
  0x0#7 ++ d ++ a ++ b ++ 0xA#10

/-- The word of ROR (R306). -/
def Enc.ror (d : RegNo) (a : RegNo) (b : RegNo) : IWord :=
  0x0#7 ++ d ++ a ++ b ++ 0xB#10

/-- The word of SLT (R306). -/
def Enc.slt (d : RegNo) (a : RegNo) (b : RegNo) : IWord :=
  0x0#7 ++ d ++ a ++ b ++ 0xC#10

/-- The word of SLTU (R306). -/
def Enc.sltu (d : RegNo) (a : RegNo) (b : RegNo) : IWord :=
  0x0#7 ++ d ++ a ++ b ++ 0xD#10

/-- The word of MIN (R306). -/
def Enc.min (d : RegNo) (a : RegNo) (b : RegNo) : IWord :=
  0x0#7 ++ d ++ a ++ b ++ 0xE#10

/-- The word of MAX (R306). -/
def Enc.max (d : RegNo) (a : RegNo) (b : RegNo) : IWord :=
  0x0#7 ++ d ++ a ++ b ++ 0xF#10

/-- The word of MINU (R306). -/
def Enc.minu (d : RegNo) (a : RegNo) (b : RegNo) : IWord :=
  0x0#7 ++ d ++ a ++ b ++ 0x10#10

/-- The word of MAXU (R306). -/
def Enc.maxu (d : RegNo) (a : RegNo) (b : RegNo) : IWord :=
  0x0#7 ++ d ++ a ++ b ++ 0x11#10

/-- The word of CLZ (R306). -/
def Enc.clz (d : RegNo) (a : RegNo) : IWord :=
  0x0#7 ++ d ++ a ++ 0x12#15

/-- The word of CTZ (R306). -/
def Enc.ctz (d : RegNo) (a : RegNo) : IWord :=
  0x0#7 ++ d ++ a ++ 0x13#15

/-- The word of POPC (R306). -/
def Enc.popc (d : RegNo) (a : RegNo) : IWord :=
  0x0#7 ++ d ++ a ++ 0x14#15

/-- The word of SEXTB (R306). -/
def Enc.sextb (d : RegNo) (a : RegNo) : IWord :=
  0x0#7 ++ d ++ a ++ 0x15#15

/-- The word of SEXTH (R306). -/
def Enc.sexth (d : RegNo) (a : RegNo) : IWord :=
  0x0#7 ++ d ++ a ++ 0x16#15

/-- The word of SEXTW (R306). -/
def Enc.sextw (d : RegNo) (a : RegNo) : IWord :=
  0x0#7 ++ d ++ a ++ 0x17#15

/-- The word of ZEXTW (R306). -/
def Enc.zextw (d : RegNo) (a : RegNo) : IWord :=
  0x0#7 ++ d ++ a ++ 0x18#15

/-- The word of ADDW (R306). -/
def Enc.addw (d : RegNo) (a : RegNo) (b : RegNo) : IWord :=
  0x1#7 ++ d ++ a ++ b ++ 0x1#10

/-- The word of SUBW (R306). -/
def Enc.subw (d : RegNo) (a : RegNo) (b : RegNo) : IWord :=
  0x1#7 ++ d ++ a ++ b ++ 0x2#10

/-- The word of SLLW (R306). -/
def Enc.sllw (d : RegNo) (a : RegNo) (b : RegNo) : IWord :=
  0x1#7 ++ d ++ a ++ b ++ 0x3#10

/-- The word of SRLW (R306). -/
def Enc.srlw (d : RegNo) (a : RegNo) (b : RegNo) : IWord :=
  0x1#7 ++ d ++ a ++ b ++ 0x4#10

/-- The word of SRAW (R306). -/
def Enc.sraw (d : RegNo) (a : RegNo) (b : RegNo) : IWord :=
  0x1#7 ++ d ++ a ++ b ++ 0x5#10

/-- The word of MULW (R306). -/
def Enc.mulw (d : RegNo) (a : RegNo) (b : RegNo) : IWord :=
  0x1#7 ++ d ++ a ++ b ++ 0x6#10

/-- The word of MUL (R306). -/
def Enc.mul (d : RegNo) (a : RegNo) (b : RegNo) : IWord :=
  0x2#7 ++ d ++ a ++ b ++ 0x1#10

/-- The word of MULH (R306). -/
def Enc.mulh (d : RegNo) (a : RegNo) (b : RegNo) : IWord :=
  0x2#7 ++ d ++ a ++ b ++ 0x2#10

/-- The word of MULHU (R306). -/
def Enc.mulhu (d : RegNo) (a : RegNo) (b : RegNo) : IWord :=
  0x2#7 ++ d ++ a ++ b ++ 0x3#10

/-- The word of MULHSU (R306). -/
def Enc.mulhsu (d : RegNo) (a : RegNo) (b : RegNo) : IWord :=
  0x2#7 ++ d ++ a ++ b ++ 0x4#10

/-- The word of DIV (R307). -/
def Enc.div (d : RegNo) (a : RegNo) (b : RegNo) : IWord :=
  0x2#7 ++ d ++ a ++ b ++ 0x5#10

/-- The word of DIVU (R307). -/
def Enc.divu (d : RegNo) (a : RegNo) (b : RegNo) : IWord :=
  0x2#7 ++ d ++ a ++ b ++ 0x6#10

/-- The word of REM (R307). -/
def Enc.rem (d : RegNo) (a : RegNo) (b : RegNo) : IWord :=
  0x2#7 ++ d ++ a ++ b ++ 0x7#10

/-- The word of REMU (R307). -/
def Enc.remu (d : RegNo) (a : RegNo) (b : RegNo) : IWord :=
  0x2#7 ++ d ++ a ++ b ++ 0x8#10

/-- The word of DIVW (R307). -/
def Enc.divw (d : RegNo) (a : RegNo) (b : RegNo) : IWord :=
  0x2#7 ++ d ++ a ++ b ++ 0x205#10

/-- The word of DIVUW (R307). -/
def Enc.divuw (d : RegNo) (a : RegNo) (b : RegNo) : IWord :=
  0x2#7 ++ d ++ a ++ b ++ 0x206#10

/-- The word of REMW (R307). -/
def Enc.remw (d : RegNo) (a : RegNo) (b : RegNo) : IWord :=
  0x2#7 ++ d ++ a ++ b ++ 0x207#10

/-- The word of REMUW (R307). -/
def Enc.remuw (d : RegNo) (a : RegNo) (b : RegNo) : IWord :=
  0x2#7 ++ d ++ a ++ b ++ 0x208#10

/-- The word of ADDI (R309). -/
def Enc.addi (d : RegNo) (a : RegNo) (i : BitVec 15) : IWord :=
  0x4#7 ++ d ++ a ++ i

/-- The word of ANDI (R309). -/
def Enc.andi (d : RegNo) (a : RegNo) (i : BitVec 15) : IWord :=
  0x5#7 ++ d ++ a ++ i

/-- The word of ORI (R309). -/
def Enc.ori (d : RegNo) (a : RegNo) (i : BitVec 15) : IWord :=
  0x6#7 ++ d ++ a ++ i

/-- The word of XORI (R309). -/
def Enc.xori (d : RegNo) (a : RegNo) (i : BitVec 15) : IWord :=
  0x7#7 ++ d ++ a ++ i

/-- The word of SLTI (R309). -/
def Enc.slti (d : RegNo) (a : RegNo) (i : BitVec 15) : IWord :=
  0x8#7 ++ d ++ a ++ i

/-- The word of SLTIU (R309). -/
def Enc.sltiu (d : RegNo) (a : RegNo) (i : BitVec 15) : IWord :=
  0x9#7 ++ d ++ a ++ i

/-- The word of SLLI (R309). -/
def Enc.slli (d : RegNo) (a : RegNo) (s : BitVec 6) : IWord :=
  0xA#7 ++ d ++ a ++ 0x0#9 ++ s

/-- The word of SRLI (R309). -/
def Enc.srli (d : RegNo) (a : RegNo) (s : BitVec 6) : IWord :=
  0xA#7 ++ d ++ a ++ 0x40#9 ++ s

/-- The word of SRAI (R309). -/
def Enc.srai (d : RegNo) (a : RegNo) (s : BitVec 6) : IWord :=
  0xA#7 ++ d ++ a ++ 0x80#9 ++ s

/-- The word of RORI (R309). -/
def Enc.rori (d : RegNo) (a : RegNo) (s : BitVec 6) : IWord :=
  0xA#7 ++ d ++ a ++ 0xC0#9 ++ s

/-- The word of MOVI (R309). -/
def Enc.movi (d : RegNo) (i : BitVec 15) : IWord :=
  0xB#7 ++ d ++ 0x0#5 ++ i

/-- The word of ADDPC (R309). -/
def Enc.addpc (d : RegNo) (i : BitVec 15) : IWord :=
  0xC#7 ++ d ++ 0x0#5 ++ i

/-- The word of ADDIW (R309). -/
def Enc.addiw (d : RegNo) (a : RegNo) (i : BitVec 15) : IWord :=
  0xD#7 ++ d ++ a ++ i

/-- The word of FADD (R312). -/
def Enc.fadd (d : RegNo) (a : RegNo) (b : RegNo) (f : BitVec 1) : IWord :=
  0x10#7 ++ d ++ a ++ b ++ 0x0#1 ++ f ++ 0x1#8

/-- The word of FSUB (R312). -/
def Enc.fsub (d : RegNo) (a : RegNo) (b : RegNo) (f : BitVec 1) : IWord :=
  0x10#7 ++ d ++ a ++ b ++ 0x0#1 ++ f ++ 0x2#8

/-- The word of FMUL (R312). -/
def Enc.fmul (d : RegNo) (a : RegNo) (b : RegNo) (f : BitVec 1) : IWord :=
  0x10#7 ++ d ++ a ++ b ++ 0x0#1 ++ f ++ 0x3#8

/-- The word of FDIV (R312). -/
def Enc.fdiv (d : RegNo) (a : RegNo) (b : RegNo) (f : BitVec 1) : IWord :=
  0x10#7 ++ d ++ a ++ b ++ 0x0#1 ++ f ++ 0x4#8

/-- The word of FSQRT (R312). -/
def Enc.fsqrt (d : RegNo) (a : RegNo) (f : BitVec 1) : IWord :=
  0x10#7 ++ d ++ a ++ 0x0#6 ++ f ++ 0x5#8

/-- The word of FMIN (R312). -/
def Enc.fmin (d : RegNo) (a : RegNo) (b : RegNo) (f : BitVec 1) : IWord :=
  0x10#7 ++ d ++ a ++ b ++ 0x0#1 ++ f ++ 0x6#8

/-- The word of FMAX (R312). -/
def Enc.fmax (d : RegNo) (a : RegNo) (b : RegNo) (f : BitVec 1) : IWord :=
  0x10#7 ++ d ++ a ++ b ++ 0x0#1 ++ f ++ 0x7#8

/-- The word of FEQ (R312). -/
def Enc.feq (d : RegNo) (a : RegNo) (b : RegNo) (f : BitVec 1) : IWord :=
  0x10#7 ++ d ++ a ++ b ++ 0x0#1 ++ f ++ 0x8#8

/-- The word of FLT (R312). -/
def Enc.flt (d : RegNo) (a : RegNo) (b : RegNo) (f : BitVec 1) : IWord :=
  0x10#7 ++ d ++ a ++ b ++ 0x0#1 ++ f ++ 0x9#8

/-- The word of FLE (R312). -/
def Enc.fle (d : RegNo) (a : RegNo) (b : RegNo) (f : BitVec 1) : IWord :=
  0x10#7 ++ d ++ a ++ b ++ 0x0#1 ++ f ++ 0xA#8

/-- The word of FCLASS (R312). -/
def Enc.fclass (d : RegNo) (a : RegNo) (f : BitVec 1) : IWord :=
  0x10#7 ++ d ++ a ++ 0x0#6 ++ f ++ 0xB#8

/-- The word of FABS (R312). -/
def Enc.fabs (d : RegNo) (a : RegNo) (f : BitVec 1) : IWord :=
  0x10#7 ++ d ++ a ++ 0x0#6 ++ f ++ 0xC#8

/-- The word of FNEG (R312). -/
def Enc.fneg (d : RegNo) (a : RegNo) (f : BitVec 1) : IWord :=
  0x10#7 ++ d ++ a ++ 0x0#6 ++ f ++ 0xD#8

/-- The word of FCVT (R314). -/
def Enc.fcvt (d : RegNo) (a : RegNo) (c : BitVec 5) (s : RegNo) : IWord :=
  0x10#7 ++ d ++ a ++ c ++ 0x2#2 ++ s ++ 0x0#3

/-- The word of FMAC (R313). -/
def Enc.fmac (d : RegNo) (a : RegNo) (b : RegNo) (f : BitVec 1) : IWord :=
  0x11#7 ++ d ++ a ++ b ++ 0x0#1 ++ f ++ 0x0#8

/-- The word of FMSAC (R313). -/
def Enc.fmsac (d : RegNo) (a : RegNo) (b : RegNo) (f : BitVec 1) : IWord :=
  0x12#7 ++ d ++ a ++ b ++ 0x0#1 ++ f ++ 0x0#8

/-- The word of LOOP (R317). -/
def Enc.loop (n : BitVec 1) (a : RegNo) (l : BitVec 15) : IWord :=
  0x160#11 ++ n ++ a ++ l

/-- The word of BEQ (R315). -/
def Enc.beq (a : RegNo) (b : RegNo) (o : BitVec 15) : IWord :=
  0x18#7 ++ a ++ b ++ o

/-- The word of BNE (R315). -/
def Enc.bne (a : RegNo) (b : RegNo) (o : BitVec 15) : IWord :=
  0x19#7 ++ a ++ b ++ o

/-- The word of BLT (R315). -/
def Enc.blt (a : RegNo) (b : RegNo) (o : BitVec 15) : IWord :=
  0x1A#7 ++ a ++ b ++ o

/-- The word of BGE (R315). -/
def Enc.bge (a : RegNo) (b : RegNo) (o : BitVec 15) : IWord :=
  0x1B#7 ++ a ++ b ++ o

/-- The word of BLTU (R315). -/
def Enc.bltu (a : RegNo) (b : RegNo) (o : BitVec 15) : IWord :=
  0x1C#7 ++ a ++ b ++ o

/-- The word of BGEU (R315). -/
def Enc.bgeu (a : RegNo) (b : RegNo) (o : BitVec 15) : IWord :=
  0x1D#7 ++ a ++ b ++ o

/-- The word of JAL (R316). -/
def Enc.jal (d : RegNo) (o : BitVec 20) : IWord :=
  0x1E#7 ++ d ++ o

/-- The word of JALR (R316). -/
def Enc.jalr (d : RegNo) (a : RegNo) (i : BitVec 15) : IWord :=
  0x1F#7 ++ d ++ a ++ i

/-- The word of LDB (R318). -/
def Enc.ldb (d : RegNo) (a : RegNo) (w : BitVec 2) (o : BitVec 13) : IWord :=
  0x20#7 ++ d ++ a ++ w ++ o

/-- The word of LDBU (R318). -/
def Enc.ldbu (d : RegNo) (a : RegNo) (w : BitVec 2) (o : BitVec 13) : IWord :=
  0x21#7 ++ d ++ a ++ w ++ o

/-- The word of LDH (R318). -/
def Enc.ldh (d : RegNo) (a : RegNo) (w : BitVec 2) (o : BitVec 13) : IWord :=
  0x22#7 ++ d ++ a ++ w ++ o

/-- The word of LDHU (R318). -/
def Enc.ldhu (d : RegNo) (a : RegNo) (w : BitVec 2) (o : BitVec 13) : IWord :=
  0x23#7 ++ d ++ a ++ w ++ o

/-- The word of LDW (R318). -/
def Enc.ldw (d : RegNo) (a : RegNo) (w : BitVec 2) (o : BitVec 13) : IWord :=
  0x24#7 ++ d ++ a ++ w ++ o

/-- The word of LDWU (R318). -/
def Enc.ldwu (d : RegNo) (a : RegNo) (w : BitVec 2) (o : BitVec 13) : IWord :=
  0x25#7 ++ d ++ a ++ w ++ o

/-- The word of LDD (R318). -/
def Enc.ldd (d : RegNo) (a : RegNo) (w : BitVec 2) (o : BitVec 13) : IWord :=
  0x26#7 ++ d ++ a ++ w ++ o

/-- The word of STB (R318). -/
def Enc.stb (d : RegNo) (a : RegNo) (w : BitVec 2) (o : BitVec 13) : IWord :=
  0x27#7 ++ d ++ a ++ w ++ o

/-- The word of STH (R318). -/
def Enc.sth (d : RegNo) (a : RegNo) (w : BitVec 2) (o : BitVec 13) : IWord :=
  0x28#7 ++ d ++ a ++ w ++ o

/-- The word of STW (R318). -/
def Enc.stw (d : RegNo) (a : RegNo) (w : BitVec 2) (o : BitVec 13) : IWord :=
  0x29#7 ++ d ++ a ++ w ++ o

/-- The word of STD (R318). -/
def Enc.std (d : RegNo) (a : RegNo) (w : BitVec 2) (o : BitVec 13) : IWord :=
  0x2A#7 ++ d ++ a ++ w ++ o

/-- The word of LDRO (R320). -/
def Enc.ldro (d : RegNo) (a : RegNo) (o : BitVec 13) : IWord :=
  0x2B#7 ++ d ++ a ++ 0x0#2 ++ o

/-- The word of LDF (R321). -/
def Enc.ldf (d : RegNo) (a : RegNo) (m : BitVec 1) (o : BitVec 13) : IWord :=
  0x2C#7 ++ d ++ a ++ 0x0#1 ++ m ++ o

/-- The word of STF (R321). -/
def Enc.stf (d : RegNo) (a : RegNo) (m : BitVec 1) (o : BitVec 13) : IWord :=
  0x2D#7 ++ d ++ a ++ 0x0#1 ++ m ++ o

/-- The word of FENCE (R231). -/
def Enc.fence (m : BitVec 3) : IWord :=
  0x2E000#19 ++ m ++ 0x1#10

/-- The word of ROINV (R322). -/
def Enc.roinv (a : RegNo) (b : RegNo) : IWord :=
  0x5C0#12 ++ a ++ b ++ 0x2#10

/-- The word of MWARM (R323). -/
def Enc.mwarm (a : RegNo) : IWord :=
  0x5C0#12 ++ a ++ 0x3#15

/-- The word of MWAIT (R323). -/
def Enc.mwait (d : RegNo) (a : RegNo) : IWord :=
  0x2E#7 ++ d ++ a ++ 0x4#15

/-- The word of FESET (R322). -/
def Enc.feset (a : RegNo) : IWord :=
  0x5C0#12 ++ a ++ 0x5#15

/-- The word of FECLR (R322). -/
def Enc.feclr (a : RegNo) : IWord :=
  0x5C0#12 ++ a ++ 0x6#15

/-- The word of FEST (R322). -/
def Enc.fest (d : RegNo) (a : RegNo) : IWord :=
  0x2E#7 ++ d ++ a ++ 0x7#15

/-- The word of CFLUSH (R324). -/
def Enc.cflush (a : RegNo) (b : RegNo) : IWord :=
  0x5C0#12 ++ a ++ b ++ 0x8#10

/-- The word of CINV (R324). -/
def Enc.cinv (a : RegNo) (b : RegNo) : IWord :=
  0x5C0#12 ++ a ++ b ++ 0x9#10

/-- The word of PREF (R324). -/
def Enc.pref (a : RegNo) : IWord :=
  0x5C0#12 ++ a ++ 0xA#15

/-- The word of AADD (R326). -/
def Enc.aadd (d : RegNo) (a : RegNo) (b : RegNo) (w : BitVec 2) (z : BitVec 1) : IWord :=
  0x2F#7 ++ d ++ a ++ b ++ w ++ z ++ 0x1#7

/-- The word of AAND (R326). -/
def Enc.aand (d : RegNo) (a : RegNo) (b : RegNo) (w : BitVec 2) (z : BitVec 1) : IWord :=
  0x2F#7 ++ d ++ a ++ b ++ w ++ z ++ 0x2#7

/-- The word of AOR (R326). -/
def Enc.aor (d : RegNo) (a : RegNo) (b : RegNo) (w : BitVec 2) (z : BitVec 1) : IWord :=
  0x2F#7 ++ d ++ a ++ b ++ w ++ z ++ 0x3#7

/-- The word of AXOR (R326). -/
def Enc.axor (d : RegNo) (a : RegNo) (b : RegNo) (w : BitVec 2) (z : BitVec 1) : IWord :=
  0x2F#7 ++ d ++ a ++ b ++ w ++ z ++ 0x4#7

/-- The word of AMIN (R326). -/
def Enc.amin (d : RegNo) (a : RegNo) (b : RegNo) (w : BitVec 2) (z : BitVec 1) : IWord :=
  0x2F#7 ++ d ++ a ++ b ++ w ++ z ++ 0x5#7

/-- The word of AMAX (R326). -/
def Enc.amax (d : RegNo) (a : RegNo) (b : RegNo) (w : BitVec 2) (z : BitVec 1) : IWord :=
  0x2F#7 ++ d ++ a ++ b ++ w ++ z ++ 0x6#7

/-- The word of AMINU (R326). -/
def Enc.aminu (d : RegNo) (a : RegNo) (b : RegNo) (w : BitVec 2) (z : BitVec 1) : IWord :=
  0x2F#7 ++ d ++ a ++ b ++ w ++ z ++ 0x7#7

/-- The word of AMAXU (R326). -/
def Enc.amaxu (d : RegNo) (a : RegNo) (b : RegNo) (w : BitVec 2) (z : BitVec 1) : IWord :=
  0x2F#7 ++ d ++ a ++ b ++ w ++ z ++ 0x8#7

/-- The word of ASWAP (R326). -/
def Enc.aswap (d : RegNo) (a : RegNo) (b : RegNo) (w : BitVec 2) (z : BitVec 1) : IWord :=
  0x2F#7 ++ d ++ a ++ b ++ w ++ z ++ 0x9#7

/-- The word of ACAS (R326). -/
def Enc.acas (d : RegNo) (a : RegNo) (b : RegNo) (w : BitVec 2) (z : BitVec 1) : IWord :=
  0x2F#7 ++ d ++ a ++ b ++ w ++ z ++ 0xA#7

/-- The word of AFADD (R326). -/
def Enc.afadd (d : RegNo) (a : RegNo) (b : RegNo) (w : BitVec 2) : IWord :=
  0x2F#7 ++ d ++ a ++ b ++ w ++ 0xB#8

/-- The word of AFMAXABS (R261). -/
def Enc.afmaxabs (d : RegNo) (a : RegNo) (b : RegNo) (w : BitVec 2) : IWord :=
  0x2F#7 ++ d ++ a ++ b ++ w ++ 0xC#8

/-- The word of AMAXRST (R261). -/
def Enc.amaxrst (d : RegNo) (a : RegNo) (w : BitVec 2) : IWord :=
  0x2F#7 ++ d ++ a ++ 0x0#5 ++ w ++ 0xD#8

/-- The word of SHIP (R328). -/
def Enc.ship (d : RegNo) (a : RegNo) (b : RegNo) (i : BitVec 10) : IWord :=
  0x30#7 ++ d ++ a ++ b ++ i

/-- The word of TRAP (R329). -/
def Enc.trap (a : RegNo) : IWord :=
  0xE00#12 ++ a ++ 0x1#15

/-- The word of ERET (R329). -/
def Enc.eret : IWord :=
  0xE0000002#32

/-- The word of SRRD (R330). -/
def Enc.srrd (d : RegNo) (i : BitVec 12) : IWord :=
  0x70#7 ++ d ++ i ++ 0x3#8

/-- The word of SRWR (R330). -/
def Enc.srwr (d : RegNo) (i : BitVec 12) : IWord :=
  0x70#7 ++ d ++ i ++ 0x4#8

/-- The word of SRSET (R330). -/
def Enc.srset (d : RegNo) (i : BitVec 12) : IWord :=
  0x70#7 ++ d ++ i ++ 0x5#8

/-- The word of SRCLR (R330). -/
def Enc.srclr (d : RegNo) (i : BitVec 12) : IWord :=
  0x70#7 ++ d ++ i ++ 0x6#8

/-- The word of HALT (R332). -/
def Enc.halt : IWord :=
  0xE0000007#32

/-- The word of BKPT (R329). -/
def Enc.bkpt : IWord :=
  0xE0000008#32

/-- The word of IFENCE (R331). -/
def Enc.ifence : IWord :=
  0xE0000009#32

/-- The word of TLBINV (R333). -/
def Enc.tlbinv (a : RegNo) (b : RegNo) : IWord :=
  0xE00#12 ++ a ++ b ++ 0xA#10

/-- The word of CTXRES (R334). -/
def Enc.ctxres (d : RegNo) (a : RegNo) (b : RegNo) : IWord :=
  0x70#7 ++ d ++ a ++ b ++ 0xB#10

/-- The word of WFE (R331). -/
def Enc.wfe : IWord :=
  0xE000000C#32

/-- The word of VSETL (R342). -/
def Enc.vsetl (d : RegNo) (a : RegNo) (m : BitVec 1) (t : BitVec 1) (l : BitVec 3) (s : BitVec 3) : IWord :=
  0x38#7 ++ d ++ a ++ 0x0#7 ++ m ++ t ++ l ++ s

/-- The word of VSETLI (R342). -/
def Enc.vsetli (d : RegNo) (u : BitVec 5) (m : BitVec 1) (t : BitVec 1) (l : BitVec 3) (s : BitVec 3) : IWord :=
  0x39#7 ++ d ++ u ++ 0x0#7 ++ m ++ t ++ l ++ s

/-- The word of VLD (R345). -/
def Enc.vld (d : RegNo) (a : RegNo) (m : BitVec 1) (w : BitVec 2) (e : BitVec 2) : IWord :=
  0x3A#7 ++ d ++ a ++ 0x0#5 ++ m ++ w ++ e ++ 0x0#5

/-- The word of VLDS (R345). -/
def Enc.vlds (d : RegNo) (a : RegNo) (b : RegNo) (m : BitVec 1) (w : BitVec 2) (e : BitVec 2) : IWord :=
  0x3B#7 ++ d ++ a ++ b ++ m ++ w ++ e ++ 0x0#5

/-- The word of VLDX (R345). -/
def Enc.vldx (d : RegNo) (a : RegNo) (b : RegNo) (m : BitVec 1) (w : BitVec 2) (e : BitVec 2) : IWord :=
  0x3C#7 ++ d ++ a ++ b ++ m ++ w ++ e ++ 0x0#5

/-- The word of VLDFF (R347). -/
def Enc.vldff (d : RegNo) (a : RegNo) (m : BitVec 1) (w : BitVec 2) (e : BitVec 2) : IWord :=
  0x3D#7 ++ d ++ a ++ 0x0#5 ++ m ++ w ++ e ++ 0x0#5

/-- The word of VST (R349). -/
def Enc.vst (d : RegNo) (a : RegNo) (m : BitVec 1) (w : BitVec 2) (e : BitVec 2) : IWord :=
  0x3E#7 ++ d ++ a ++ 0x0#5 ++ m ++ w ++ e ++ 0x0#5

/-- The word of VSTS (R349). -/
def Enc.vsts (d : RegNo) (a : RegNo) (b : RegNo) (m : BitVec 1) (w : BitVec 2) (e : BitVec 2) : IWord :=
  0x3F#7 ++ d ++ a ++ b ++ m ++ w ++ e ++ 0x0#5

/-- The word of VSTX (R349). -/
def Enc.vstx (d : RegNo) (a : RegNo) (b : RegNo) (m : BitVec 1) (w : BitVec 2) (e : BitVec 2) : IWord :=
  0x40#7 ++ d ++ a ++ b ++ m ++ w ++ e ++ 0x0#5

/-- The word of VADD_VV (R351). -/
def Enc.vaddVv (d : RegNo) (a : RegNo) (b : RegNo) (m : BitVec 1) : IWord :=
  0x41#7 ++ d ++ a ++ b ++ m ++ 0x1#9

/-- The word of VADD_VX (R351). -/
def Enc.vaddVx (d : RegNo) (a : RegNo) (s : RegNo) (m : BitVec 1) : IWord :=
  0x42#7 ++ d ++ a ++ s ++ m ++ 0x1#9

/-- The word of VSUB_VV (R351). -/
def Enc.vsubVv (d : RegNo) (a : RegNo) (b : RegNo) (m : BitVec 1) : IWord :=
  0x41#7 ++ d ++ a ++ b ++ m ++ 0x2#9

/-- The word of VSUB_VX (R351). -/
def Enc.vsubVx (d : RegNo) (a : RegNo) (s : RegNo) (m : BitVec 1) : IWord :=
  0x42#7 ++ d ++ a ++ s ++ m ++ 0x2#9

/-- The word of VRSUB_VV (R351). -/
def Enc.vrsubVv (d : RegNo) (a : RegNo) (b : RegNo) (m : BitVec 1) : IWord :=
  0x41#7 ++ d ++ a ++ b ++ m ++ 0x3#9

/-- The word of VRSUB_VX (R351). -/
def Enc.vrsubVx (d : RegNo) (a : RegNo) (s : RegNo) (m : BitVec 1) : IWord :=
  0x42#7 ++ d ++ a ++ s ++ m ++ 0x3#9

/-- The word of VMUL_VV (R351). -/
def Enc.vmulVv (d : RegNo) (a : RegNo) (b : RegNo) (m : BitVec 1) : IWord :=
  0x41#7 ++ d ++ a ++ b ++ m ++ 0x4#9

/-- The word of VMUL_VX (R351). -/
def Enc.vmulVx (d : RegNo) (a : RegNo) (s : RegNo) (m : BitVec 1) : IWord :=
  0x42#7 ++ d ++ a ++ s ++ m ++ 0x4#9

/-- The word of VMULH_VV (R351). -/
def Enc.vmulhVv (d : RegNo) (a : RegNo) (b : RegNo) (m : BitVec 1) (u : BitVec 1) : IWord :=
  0x41#7 ++ d ++ a ++ b ++ m ++ 0x0#3 ++ u ++ 0x5#5

/-- The word of VMULH_VX (R351). -/
def Enc.vmulhVx (d : RegNo) (a : RegNo) (s : RegNo) (m : BitVec 1) (u : BitVec 1) : IWord :=
  0x42#7 ++ d ++ a ++ s ++ m ++ 0x0#3 ++ u ++ 0x5#5

/-- The word of VMACC_VV (R351). -/
def Enc.vmaccVv (d : RegNo) (a : RegNo) (b : RegNo) (m : BitVec 1) : IWord :=
  0x41#7 ++ d ++ a ++ b ++ m ++ 0x6#9

/-- The word of VMACC_VX (R351). -/
def Enc.vmaccVx (d : RegNo) (a : RegNo) (s : RegNo) (m : BitVec 1) : IWord :=
  0x42#7 ++ d ++ a ++ s ++ m ++ 0x6#9

/-- The word of VNMSAC_VV (R351). -/
def Enc.vnmsacVv (d : RegNo) (a : RegNo) (b : RegNo) (m : BitVec 1) : IWord :=
  0x41#7 ++ d ++ a ++ b ++ m ++ 0x7#9

/-- The word of VNMSAC_VX (R351). -/
def Enc.vnmsacVx (d : RegNo) (a : RegNo) (s : RegNo) (m : BitVec 1) : IWord :=
  0x42#7 ++ d ++ a ++ s ++ m ++ 0x7#9

/-- The word of VAND_VV (R351). -/
def Enc.vandVv (d : RegNo) (a : RegNo) (b : RegNo) (m : BitVec 1) : IWord :=
  0x41#7 ++ d ++ a ++ b ++ m ++ 0x8#9

/-- The word of VAND_VX (R351). -/
def Enc.vandVx (d : RegNo) (a : RegNo) (s : RegNo) (m : BitVec 1) : IWord :=
  0x42#7 ++ d ++ a ++ s ++ m ++ 0x8#9

/-- The word of VOR_VV (R351). -/
def Enc.vorVv (d : RegNo) (a : RegNo) (b : RegNo) (m : BitVec 1) : IWord :=
  0x41#7 ++ d ++ a ++ b ++ m ++ 0x9#9

/-- The word of VOR_VX (R351). -/
def Enc.vorVx (d : RegNo) (a : RegNo) (s : RegNo) (m : BitVec 1) : IWord :=
  0x42#7 ++ d ++ a ++ s ++ m ++ 0x9#9

/-- The word of VXOR_VV (R351). -/
def Enc.vxorVv (d : RegNo) (a : RegNo) (b : RegNo) (m : BitVec 1) : IWord :=
  0x41#7 ++ d ++ a ++ b ++ m ++ 0xA#9

/-- The word of VXOR_VX (R351). -/
def Enc.vxorVx (d : RegNo) (a : RegNo) (s : RegNo) (m : BitVec 1) : IWord :=
  0x42#7 ++ d ++ a ++ s ++ m ++ 0xA#9

/-- The word of VSLL_VV (R351). -/
def Enc.vsllVv (d : RegNo) (a : RegNo) (b : RegNo) (m : BitVec 1) : IWord :=
  0x41#7 ++ d ++ a ++ b ++ m ++ 0xB#9

/-- The word of VSLL_VX (R351). -/
def Enc.vsllVx (d : RegNo) (a : RegNo) (s : RegNo) (m : BitVec 1) : IWord :=
  0x42#7 ++ d ++ a ++ s ++ m ++ 0xB#9

/-- The word of VSRL_VV (R351). -/
def Enc.vsrlVv (d : RegNo) (a : RegNo) (b : RegNo) (m : BitVec 1) : IWord :=
  0x41#7 ++ d ++ a ++ b ++ m ++ 0xC#9

/-- The word of VSRL_VX (R351). -/
def Enc.vsrlVx (d : RegNo) (a : RegNo) (s : RegNo) (m : BitVec 1) : IWord :=
  0x42#7 ++ d ++ a ++ s ++ m ++ 0xC#9

/-- The word of VSRA_VV (R351). -/
def Enc.vsraVv (d : RegNo) (a : RegNo) (b : RegNo) (m : BitVec 1) : IWord :=
  0x41#7 ++ d ++ a ++ b ++ m ++ 0xD#9

/-- The word of VSRA_VX (R351). -/
def Enc.vsraVx (d : RegNo) (a : RegNo) (s : RegNo) (m : BitVec 1) : IWord :=
  0x42#7 ++ d ++ a ++ s ++ m ++ 0xD#9

/-- The word of VMIN_VV (R351). -/
def Enc.vminVv (d : RegNo) (a : RegNo) (b : RegNo) (m : BitVec 1) : IWord :=
  0x41#7 ++ d ++ a ++ b ++ m ++ 0xE#9

/-- The word of VMIN_VX (R351). -/
def Enc.vminVx (d : RegNo) (a : RegNo) (s : RegNo) (m : BitVec 1) : IWord :=
  0x42#7 ++ d ++ a ++ s ++ m ++ 0xE#9

/-- The word of VMAX_VV (R351). -/
def Enc.vmaxVv (d : RegNo) (a : RegNo) (b : RegNo) (m : BitVec 1) : IWord :=
  0x41#7 ++ d ++ a ++ b ++ m ++ 0xF#9

/-- The word of VMAX_VX (R351). -/
def Enc.vmaxVx (d : RegNo) (a : RegNo) (s : RegNo) (m : BitVec 1) : IWord :=
  0x42#7 ++ d ++ a ++ s ++ m ++ 0xF#9

/-- The word of VMINU_VV (R351). -/
def Enc.vminuVv (d : RegNo) (a : RegNo) (b : RegNo) (m : BitVec 1) : IWord :=
  0x41#7 ++ d ++ a ++ b ++ m ++ 0x10#9

/-- The word of VMINU_VX (R351). -/
def Enc.vminuVx (d : RegNo) (a : RegNo) (s : RegNo) (m : BitVec 1) : IWord :=
  0x42#7 ++ d ++ a ++ s ++ m ++ 0x10#9

/-- The word of VMAXU_VV (R351). -/
def Enc.vmaxuVv (d : RegNo) (a : RegNo) (b : RegNo) (m : BitVec 1) : IWord :=
  0x41#7 ++ d ++ a ++ b ++ m ++ 0x11#9

/-- The word of VMAXU_VX (R351). -/
def Enc.vmaxuVx (d : RegNo) (a : RegNo) (s : RegNo) (m : BitVec 1) : IWord :=
  0x42#7 ++ d ++ a ++ s ++ m ++ 0x11#9

/-- The word of VSEQ_VV (R351). -/
def Enc.vseqVv (d : RegNo) (a : RegNo) (b : RegNo) (m : BitVec 1) : IWord :=
  0x41#7 ++ d ++ a ++ b ++ m ++ 0x12#9

/-- The word of VSEQ_VX (R351). -/
def Enc.vseqVx (d : RegNo) (a : RegNo) (s : RegNo) (m : BitVec 1) : IWord :=
  0x42#7 ++ d ++ a ++ s ++ m ++ 0x12#9

/-- The word of VSNE_VV (R351). -/
def Enc.vsneVv (d : RegNo) (a : RegNo) (b : RegNo) (m : BitVec 1) : IWord :=
  0x41#7 ++ d ++ a ++ b ++ m ++ 0x13#9

/-- The word of VSNE_VX (R351). -/
def Enc.vsneVx (d : RegNo) (a : RegNo) (s : RegNo) (m : BitVec 1) : IWord :=
  0x42#7 ++ d ++ a ++ s ++ m ++ 0x13#9

/-- The word of VSLT_VV (R351). -/
def Enc.vsltVv (d : RegNo) (a : RegNo) (b : RegNo) (m : BitVec 1) : IWord :=
  0x41#7 ++ d ++ a ++ b ++ m ++ 0x14#9

/-- The word of VSLT_VX (R351). -/
def Enc.vsltVx (d : RegNo) (a : RegNo) (s : RegNo) (m : BitVec 1) : IWord :=
  0x42#7 ++ d ++ a ++ s ++ m ++ 0x14#9

/-- The word of VSLTU_VV (R351). -/
def Enc.vsltuVv (d : RegNo) (a : RegNo) (b : RegNo) (m : BitVec 1) : IWord :=
  0x41#7 ++ d ++ a ++ b ++ m ++ 0x15#9

/-- The word of VSLTU_VX (R351). -/
def Enc.vsltuVx (d : RegNo) (a : RegNo) (s : RegNo) (m : BitVec 1) : IWord :=
  0x42#7 ++ d ++ a ++ s ++ m ++ 0x15#9

/-- The word of VSLE_VV (R351). -/
def Enc.vsleVv (d : RegNo) (a : RegNo) (b : RegNo) (m : BitVec 1) : IWord :=
  0x41#7 ++ d ++ a ++ b ++ m ++ 0x16#9

/-- The word of VSLE_VX (R351). -/
def Enc.vsleVx (d : RegNo) (a : RegNo) (s : RegNo) (m : BitVec 1) : IWord :=
  0x42#7 ++ d ++ a ++ s ++ m ++ 0x16#9

/-- The word of VMERGE_VV (R351). -/
def Enc.vmergeVv (d : RegNo) (a : RegNo) (b : RegNo) : IWord :=
  0x41#7 ++ d ++ a ++ b ++ 0x217#10

/-- The word of VMERGE_VX (R351). -/
def Enc.vmergeVx (d : RegNo) (a : RegNo) (s : RegNo) : IWord :=
  0x42#7 ++ d ++ a ++ s ++ 0x217#10

/-- The word of VMV_VV (R351). -/
def Enc.vmvVv (d : RegNo) (a : RegNo) (m : BitVec 1) : IWord :=
  0x41#7 ++ d ++ a ++ 0x0#5 ++ m ++ 0x18#9

/-- The word of VMV_VX (R351). -/
def Enc.vmvVx (d : RegNo) (s : RegNo) (m : BitVec 1) : IWord :=
  0x42#7 ++ d ++ 0x0#5 ++ s ++ m ++ 0x18#9

/-- The word of VSADD_VV (R351). -/
def Enc.vsaddVv (d : RegNo) (a : RegNo) (b : RegNo) (m : BitVec 1) (u : BitVec 1) : IWord :=
  0x41#7 ++ d ++ a ++ b ++ m ++ 0x0#3 ++ u ++ 0x19#5

/-- The word of VSADD_VX (R351). -/
def Enc.vsaddVx (d : RegNo) (a : RegNo) (s : RegNo) (m : BitVec 1) (u : BitVec 1) : IWord :=
  0x42#7 ++ d ++ a ++ s ++ m ++ 0x0#3 ++ u ++ 0x19#5

/-- The word of VSSUB_VV (R351). -/
def Enc.vssubVv (d : RegNo) (a : RegNo) (b : RegNo) (m : BitVec 1) (u : BitVec 1) : IWord :=
  0x41#7 ++ d ++ a ++ b ++ m ++ 0x0#3 ++ u ++ 0x1A#5

/-- The word of VSSUB_VX (R351). -/
def Enc.vssubVx (d : RegNo) (a : RegNo) (s : RegNo) (m : BitVec 1) (u : BitVec 1) : IWord :=
  0x42#7 ++ d ++ a ++ s ++ m ++ 0x0#3 ++ u ++ 0x1A#5

/-- The word of VNCLIP_VV (R353). -/
def Enc.vnclipVv (d : RegNo) (a : RegNo) (b : RegNo) (m : BitVec 1) (u : BitVec 1) : IWord :=
  0x41#7 ++ d ++ a ++ b ++ m ++ 0x0#3 ++ u ++ 0x1B#5

/-- The word of VNCLIP_VX (R353). -/
def Enc.vnclipVx (d : RegNo) (a : RegNo) (s : RegNo) (m : BitVec 1) (u : BitVec 1) : IWord :=
  0x42#7 ++ d ++ a ++ s ++ m ++ 0x0#3 ++ u ++ 0x1B#5

/-- The word of VWADD_VV (R352). -/
def Enc.vwaddVv (d : RegNo) (a : RegNo) (b : RegNo) (m : BitVec 1) (u : BitVec 1) : IWord :=
  0x41#7 ++ d ++ a ++ b ++ m ++ 0x0#3 ++ u ++ 0x1C#5

/-- The word of VWADD_VX (R352). -/
def Enc.vwaddVx (d : RegNo) (a : RegNo) (s : RegNo) (m : BitVec 1) (u : BitVec 1) : IWord :=
  0x42#7 ++ d ++ a ++ s ++ m ++ 0x0#3 ++ u ++ 0x1C#5

/-- The word of VWMUL_VV (R352). -/
def Enc.vwmulVv (d : RegNo) (a : RegNo) (b : RegNo) (m : BitVec 1) (u : BitVec 1) : IWord :=
  0x41#7 ++ d ++ a ++ b ++ m ++ 0x0#3 ++ u ++ 0x1D#5

/-- The word of VWMUL_VX (R352). -/
def Enc.vwmulVx (d : RegNo) (a : RegNo) (s : RegNo) (m : BitVec 1) (u : BitVec 1) : IWord :=
  0x42#7 ++ d ++ a ++ s ++ m ++ 0x0#3 ++ u ++ 0x1D#5

/-- The word of VEXT (R352). -/
def Enc.vext (d : RegNo) (a : RegNo) (m : BitVec 1) (f : BitVec 2) (u : BitVec 1) : IWord :=
  0x41#7 ++ d ++ a ++ 0x0#5 ++ m ++ 0x0#1 ++ f ++ u ++ 0x1E#5

/-- The word of VFADD_VV (R356). -/
def Enc.vfaddVv (d : RegNo) (a : RegNo) (b : RegNo) (m : BitVec 1) : IWord :=
  0x43#7 ++ d ++ a ++ b ++ m ++ 0x1#9

/-- The word of VFADD_VX (R356). -/
def Enc.vfaddVx (d : RegNo) (a : RegNo) (s : RegNo) (m : BitVec 1) : IWord :=
  0x44#7 ++ d ++ a ++ s ++ m ++ 0x1#9

/-- The word of VFSUB_VV (R356). -/
def Enc.vfsubVv (d : RegNo) (a : RegNo) (b : RegNo) (m : BitVec 1) : IWord :=
  0x43#7 ++ d ++ a ++ b ++ m ++ 0x2#9

/-- The word of VFSUB_VX (R356). -/
def Enc.vfsubVx (d : RegNo) (a : RegNo) (s : RegNo) (m : BitVec 1) : IWord :=
  0x44#7 ++ d ++ a ++ s ++ m ++ 0x2#9

/-- The word of VFMUL_VV (R356). -/
def Enc.vfmulVv (d : RegNo) (a : RegNo) (b : RegNo) (m : BitVec 1) : IWord :=
  0x43#7 ++ d ++ a ++ b ++ m ++ 0x3#9

/-- The word of VFMUL_VX (R356). -/
def Enc.vfmulVx (d : RegNo) (a : RegNo) (s : RegNo) (m : BitVec 1) : IWord :=
  0x44#7 ++ d ++ a ++ s ++ m ++ 0x3#9

/-- The word of VFDIV_VV (R356). -/
def Enc.vfdivVv (d : RegNo) (a : RegNo) (b : RegNo) (m : BitVec 1) : IWord :=
  0x43#7 ++ d ++ a ++ b ++ m ++ 0x4#9

/-- The word of VFDIV_VX (R356). -/
def Enc.vfdivVx (d : RegNo) (a : RegNo) (s : RegNo) (m : BitVec 1) : IWord :=
  0x44#7 ++ d ++ a ++ s ++ m ++ 0x4#9

/-- The word of VFSQRT (R356). -/
def Enc.vfsqrt (d : RegNo) (a : RegNo) (m : BitVec 1) : IWord :=
  0x43#7 ++ d ++ a ++ 0x0#5 ++ m ++ 0x5#9

/-- The word of VFMIN_VV (R356). -/
def Enc.vfminVv (d : RegNo) (a : RegNo) (b : RegNo) (m : BitVec 1) : IWord :=
  0x43#7 ++ d ++ a ++ b ++ m ++ 0x6#9

/-- The word of VFMIN_VX (R356). -/
def Enc.vfminVx (d : RegNo) (a : RegNo) (s : RegNo) (m : BitVec 1) : IWord :=
  0x44#7 ++ d ++ a ++ s ++ m ++ 0x6#9

/-- The word of VFMAX_VV (R356). -/
def Enc.vfmaxVv (d : RegNo) (a : RegNo) (b : RegNo) (m : BitVec 1) : IWord :=
  0x43#7 ++ d ++ a ++ b ++ m ++ 0x7#9

/-- The word of VFMAX_VX (R356). -/
def Enc.vfmaxVx (d : RegNo) (a : RegNo) (s : RegNo) (m : BitVec 1) : IWord :=
  0x44#7 ++ d ++ a ++ s ++ m ++ 0x7#9

/-- The word of VFMACC_VV (R356). -/
def Enc.vfmaccVv (d : RegNo) (a : RegNo) (b : RegNo) (m : BitVec 1) : IWord :=
  0x43#7 ++ d ++ a ++ b ++ m ++ 0x8#9

/-- The word of VFMACC_VX (R356). -/
def Enc.vfmaccVx (d : RegNo) (a : RegNo) (s : RegNo) (m : BitVec 1) : IWord :=
  0x44#7 ++ d ++ a ++ s ++ m ++ 0x8#9

/-- The word of VFNMSAC_VV (R356). -/
def Enc.vfnmsacVv (d : RegNo) (a : RegNo) (b : RegNo) (m : BitVec 1) : IWord :=
  0x43#7 ++ d ++ a ++ b ++ m ++ 0x9#9

/-- The word of VFNMSAC_VX (R356). -/
def Enc.vfnmsacVx (d : RegNo) (a : RegNo) (s : RegNo) (m : BitVec 1) : IWord :=
  0x44#7 ++ d ++ a ++ s ++ m ++ 0x9#9

/-- The word of VFEQ_VV (R356). -/
def Enc.vfeqVv (d : RegNo) (a : RegNo) (b : RegNo) (m : BitVec 1) : IWord :=
  0x43#7 ++ d ++ a ++ b ++ m ++ 0xA#9

/-- The word of VFEQ_VX (R356). -/
def Enc.vfeqVx (d : RegNo) (a : RegNo) (s : RegNo) (m : BitVec 1) : IWord :=
  0x44#7 ++ d ++ a ++ s ++ m ++ 0xA#9

/-- The word of VFLT_VV (R356). -/
def Enc.vfltVv (d : RegNo) (a : RegNo) (b : RegNo) (m : BitVec 1) : IWord :=
  0x43#7 ++ d ++ a ++ b ++ m ++ 0xB#9

/-- The word of VFLT_VX (R356). -/
def Enc.vfltVx (d : RegNo) (a : RegNo) (s : RegNo) (m : BitVec 1) : IWord :=
  0x44#7 ++ d ++ a ++ s ++ m ++ 0xB#9

/-- The word of VFLE_VV (R356). -/
def Enc.vfleVv (d : RegNo) (a : RegNo) (b : RegNo) (m : BitVec 1) : IWord :=
  0x43#7 ++ d ++ a ++ b ++ m ++ 0xC#9

/-- The word of VFLE_VX (R356). -/
def Enc.vfleVx (d : RegNo) (a : RegNo) (s : RegNo) (m : BitVec 1) : IWord :=
  0x44#7 ++ d ++ a ++ s ++ m ++ 0xC#9

/-- The word of VFABS (R356). -/
def Enc.vfabs (d : RegNo) (a : RegNo) (m : BitVec 1) : IWord :=
  0x43#7 ++ d ++ a ++ 0x0#5 ++ m ++ 0xD#9

/-- The word of VFNEG (R356). -/
def Enc.vfneg (d : RegNo) (a : RegNo) (m : BitVec 1) : IWord :=
  0x43#7 ++ d ++ a ++ 0x0#5 ++ m ++ 0xE#9

/-- The word of VFSGNJ_VV (R356). -/
def Enc.vfsgnjVv (d : RegNo) (a : RegNo) (b : RegNo) (m : BitVec 1) : IWord :=
  0x43#7 ++ d ++ a ++ b ++ m ++ 0xF#9

/-- The word of VFSGNJ_VX (R356). -/
def Enc.vfsgnjVx (d : RegNo) (a : RegNo) (s : RegNo) (m : BitVec 1) : IWord :=
  0x44#7 ++ d ++ a ++ s ++ m ++ 0xF#9

/-- The word of VREDSUM (R357). -/
def Enc.vredsum (d : RegNo) (a : RegNo) (b : RegNo) (m : BitVec 1) : IWord :=
  0x45#7 ++ d ++ a ++ b ++ m ++ 0x1#9

/-- The word of VREDMAX (R357). -/
def Enc.vredmax (d : RegNo) (a : RegNo) (b : RegNo) (m : BitVec 1) (u : BitVec 1) : IWord :=
  0x45#7 ++ d ++ a ++ b ++ m ++ 0x0#3 ++ u ++ 0x2#5

/-- The word of VREDMIN (R357). -/
def Enc.vredmin (d : RegNo) (a : RegNo) (b : RegNo) (m : BitVec 1) (u : BitVec 1) : IWord :=
  0x45#7 ++ d ++ a ++ b ++ m ++ 0x0#3 ++ u ++ 0x3#5

/-- The word of VREDAND (R357). -/
def Enc.vredand (d : RegNo) (a : RegNo) (b : RegNo) (m : BitVec 1) : IWord :=
  0x45#7 ++ d ++ a ++ b ++ m ++ 0x4#9

/-- The word of VREDOR (R357). -/
def Enc.vredor (d : RegNo) (a : RegNo) (b : RegNo) (m : BitVec 1) : IWord :=
  0x45#7 ++ d ++ a ++ b ++ m ++ 0x5#9

/-- The word of VREDXOR (R357). -/
def Enc.vredxor (d : RegNo) (a : RegNo) (b : RegNo) (m : BitVec 1) : IWord :=
  0x45#7 ++ d ++ a ++ b ++ m ++ 0x6#9

/-- The word of VFREDOSUM (R358). -/
def Enc.vfredosum (d : RegNo) (a : RegNo) (b : RegNo) (m : BitVec 1) : IWord :=
  0x45#7 ++ d ++ a ++ b ++ m ++ 0x7#9

/-- The word of VFREDTSUM (R359). -/
def Enc.vfredtsum (d : RegNo) (a : RegNo) (b : RegNo) (m : BitVec 1) : IWord :=
  0x45#7 ++ d ++ a ++ b ++ m ++ 0x8#9

/-- The word of VFREDMAX (R357). -/
def Enc.vfredmax (d : RegNo) (a : RegNo) (b : RegNo) (m : BitVec 1) : IWord :=
  0x45#7 ++ d ++ a ++ b ++ m ++ 0x9#9

/-- The word of VFREDMIN (R357). -/
def Enc.vfredmin (d : RegNo) (a : RegNo) (b : RegNo) (m : BitVec 1) : IWord :=
  0x45#7 ++ d ++ a ++ b ++ m ++ 0xA#9

/-- The word of VFAMAX (R360). -/
def Enc.vfamax (d : RegNo) (a : RegNo) (b : RegNo) (m : BitVec 1) : IWord :=
  0x45#7 ++ d ++ a ++ b ++ m ++ 0xB#9

/-- The word of VSLIDEUP (R361). -/
def Enc.vslideup (d : RegNo) (a : RegNo) (s : RegNo) (m : BitVec 1) : IWord :=
  0x46#7 ++ d ++ a ++ s ++ m ++ 0x1#9

/-- The word of VSLIDEDN (R361). -/
def Enc.vslidedn (d : RegNo) (a : RegNo) (s : RegNo) (m : BitVec 1) : IWord :=
  0x46#7 ++ d ++ a ++ s ++ m ++ 0x2#9

/-- The word of VSLIDE1UP (R361). -/
def Enc.vslide1up (d : RegNo) (a : RegNo) (s : RegNo) (m : BitVec 1) : IWord :=
  0x46#7 ++ d ++ a ++ s ++ m ++ 0x3#9

/-- The word of VSLIDE1DN (R361). -/
def Enc.vslide1dn (d : RegNo) (a : RegNo) (s : RegNo) (m : BitVec 1) : IWord :=
  0x46#7 ++ d ++ a ++ s ++ m ++ 0x4#9

/-- The word of VGATH (R361). -/
def Enc.vgath (d : RegNo) (a : RegNo) (b : RegNo) (m : BitVec 1) : IWord :=
  0x46#7 ++ d ++ a ++ b ++ m ++ 0x5#9

/-- The word of VCOMPRESS (R361). -/
def Enc.vcompress (d : RegNo) (a : RegNo) (b : RegNo) : IWord :=
  0x46#7 ++ d ++ a ++ b ++ 0x6#10

/-- The word of VIOTA (R361). -/
def Enc.viota (d : RegNo) (a : RegNo) (m : BitVec 1) : IWord :=
  0x46#7 ++ d ++ a ++ 0x0#5 ++ m ++ 0x7#9

/-- The word of VID (R361). -/
def Enc.vid (d : RegNo) (m : BitVec 1) : IWord :=
  0x46#7 ++ d ++ 0x0#10 ++ m ++ 0x8#9

/-- The word of VMVXS (R361). -/
def Enc.vmvxs (d : RegNo) (a : RegNo) : IWord :=
  0x46#7 ++ d ++ a ++ 0x9#15

/-- The word of VMVSX (R361). -/
def Enc.vmvsx (d : RegNo) (s : RegNo) : IWord :=
  0x46#7 ++ d ++ 0x0#5 ++ s ++ 0xA#10

/-- The word of VMAND (R362). -/
def Enc.vmand (d : RegNo) (a : RegNo) (b : RegNo) : IWord :=
  0x47#7 ++ d ++ a ++ b ++ 0x1#10

/-- The word of VMOR (R362). -/
def Enc.vmor (d : RegNo) (a : RegNo) (b : RegNo) : IWord :=
  0x47#7 ++ d ++ a ++ b ++ 0x2#10

/-- The word of VMXOR (R362). -/
def Enc.vmxor (d : RegNo) (a : RegNo) (b : RegNo) : IWord :=
  0x47#7 ++ d ++ a ++ b ++ 0x3#10

/-- The word of VMANDN (R362). -/
def Enc.vmandn (d : RegNo) (a : RegNo) (b : RegNo) : IWord :=
  0x47#7 ++ d ++ a ++ b ++ 0x4#10

/-- The word of VMNOT (R362). -/
def Enc.vmnot (d : RegNo) (a : RegNo) : IWord :=
  0x47#7 ++ d ++ a ++ 0x5#15

/-- The word of VPOPC (R362). -/
def Enc.vpopc (d : RegNo) (a : RegNo) (m : BitVec 1) : IWord :=
  0x47#7 ++ d ++ a ++ 0x0#5 ++ m ++ 0x6#9

/-- The word of VFIRST (R362). -/
def Enc.vfirst (d : RegNo) (a : RegNo) (m : BitVec 1) : IWord :=
  0x47#7 ++ d ++ a ++ 0x0#5 ++ m ++ 0x7#9

/-- The word of VMSBF (R362). -/
def Enc.vmsbf (d : RegNo) (a : RegNo) (m : BitVec 1) : IWord :=
  0x47#7 ++ d ++ a ++ 0x0#5 ++ m ++ 0x8#9

/-- The word of VCVT (R365). -/
def Enc.vcvt (d : RegNo) (a : RegNo) (s : RegNo) (m : BitVec 1) (c : BitVec 5) : IWord :=
  0x48#7 ++ d ++ a ++ s ++ m ++ 0x0#4 ++ c

/-- The word of MSHAPE (R370). -/
def Enc.mshape (d : RegNo) (a : RegNo) (b : RegNo) (o : BitVec 2) (y : BitVec 3) (x : BitVec 3) : IWord :=
  0x50#7 ++ d ++ a ++ b ++ 0x0#2 ++ o ++ y ++ x

/-- The word of MMA (R373). -/
def Enc.mma (d : RegNo) (a : RegNo) (b : RegNo) (h : BitVec 5) : IWord :=
  0x51#7 ++ d ++ a ++ b ++ h ++ 0x0#5

/-- The word of MMAS (R373). -/
def Enc.mmas (d : RegNo) (a : RegNo) (b : RegNo) (h : BitVec 5) : IWord :=
  0x52#7 ++ d ++ a ++ b ++ h ++ 0x0#5

/-- The word of MMAT (R373). -/
def Enc.mmat (d : RegNo) (a : RegNo) (b : RegNo) (h : BitVec 5) : IWord :=
  0x53#7 ++ d ++ a ++ b ++ h ++ 0x0#5

/-- The word of MZERO (R380). -/
def Enc.mzero (d : RegNo) (h : BitVec 5) : IWord :=
  0x54#7 ++ d ++ 0x0#10 ++ h ++ 0x0#5

/-- The word of MSTAT (R381). -/
def Enc.mstat (d : RegNo) (c : BitVec 1) : IWord :=
  0x55#7 ++ d ++ 0x0#19 ++ c

/-- The word of SPAWN (R396). -/
def Enc.spawn (d : RegNo) (a : RegNo) (b : RegNo) : IWord :=
  0x60#7 ++ d ++ a ++ b ++ 0x1#10

/-- The word of SPAWNC (R396). -/
def Enc.spawnc (d : RegNo) (a : RegNo) (b : RegNo) : IWord :=
  0x60#7 ++ d ++ a ++ b ++ 0x2#10

/-- The word of TWAIT (R397). -/
def Enc.twait : IWord :=
  0xC0000003#32

/-- The word of TEXIT (R398). -/
def Enc.texit : IWord :=
  0xC0000004#32

/-- The word of YIELD (R399). -/
def Enc.yield : IWord :=
  0xC0000005#32

/-- The word of CNTINIT (R395). -/
def Enc.cntinit (d : RegNo) (a : RegNo) (b : RegNo) : IWord :=
  0x60#7 ++ d ++ a ++ b ++ 0x6#10

/-- The word of CNTDEC (R395). -/
def Enc.cntdec (a : RegNo) (b : RegNo) : IWord :=
  0xC00#12 ++ a ++ b ++ 0x7#10

/-- The word of CNTWAIT (R395). -/
def Enc.cntwait (a : RegNo) : IWord :=
  0xC00#12 ++ a ++ 0x8#15

/-- The word of LAUNCHD (R400). -/
def Enc.launchd (d : RegNo) (a : RegNo) : IWord :=
  0x60#7 ++ d ++ a ++ 0x9#15

/-- The word of TSELF (R401). -/
def Enc.tself (d : RegNo) (s : RegNo) : IWord :=
  0x60#7 ++ d ++ 0x0#5 ++ s ++ 0xA#10

/-- The word of DBEGIN (R402). -/
def Enc.dbegin (d : RegNo) (a : RegNo) : IWord :=
  0x64#7 ++ d ++ a ++ 0x1#15

/-- The word of DPRES_SNAP (R403). -/
def Enc.dpresSnap (a : RegNo) (b : RegNo) : IWord :=
  0xC80#12 ++ a ++ b ++ 0x2#10

/-- The word of DPRES_HOLD (R403). -/
def Enc.dpresHold (a : RegNo) (b : RegNo) : IWord :=
  0xC80#12 ++ a ++ b ++ 0x3#10

/-- The word of DEND (R174). -/
def Enc.dend : IWord :=
  0xC8000004#32

/-- The word of DCHK (R405). -/
def Enc.dchk (a : RegNo) (b : RegNo) : IWord :=
  0xC80#12 ++ a ++ b ++ 0x5#10

/-- The word of DABORT (R405). -/
def Enc.dabort (a : RegNo) : IWord :=
  0xC80#12 ++ a ++ 0x6#15

/-- The word of DLEVEL (R406). -/
def Enc.dlevel (d : RegNo) (s : RegNo) : IWord :=
  0x64#7 ++ d ++ 0x0#5 ++ s ++ 0x7#10

/-- The word of LEND (R408). -/
def Enc.lend (a : RegNo) (b : RegNo) : IWord :=
  0xCC0#12 ++ a ++ b ++ 0x1#10

/-- The word of UNLEND (R408). -/
def Enc.unlend (a : RegNo) (b : RegNo) : IWord :=
  0xCC0#12 ++ a ++ b ++ 0x2#10

/-- The word of HSTAT (R409). -/
def Enc.hstat (d : RegNo) (s : RegNo) : IWord :=
  0x66#7 ++ d ++ 0x0#5 ++ s ++ 0x3#10

/-- The word of QPOST (R416). -/
def Enc.qpost (d : RegNo) (a : RegNo) : IWord :=
  0x68#7 ++ d ++ a ++ 0x1#15

/-- The word of QWAIT (R417). -/
def Enc.qwait (d : RegNo) (a : RegNo) (b : RegNo) : IWord :=
  0x68#7 ++ d ++ a ++ b ++ 0x2#10

/-- The word of QSTART (R422). -/
def Enc.qstart (d : RegNo) (a : RegNo) (b : RegNo) : IWord :=
  0x68#7 ++ d ++ a ++ b ++ 0x3#10

/-- The word of QSTAT (R418). -/
def Enc.qstat (d : RegNo) (a : RegNo) (s : RegNo) : IWord :=
  0x68#7 ++ d ++ a ++ s ++ 0x4#10

/-- The word of QRESYNC (R418). -/
def Enc.qresync (d : RegNo) (a : RegNo) (b : RegNo) : IWord :=
  0x68#7 ++ d ++ a ++ b ++ 0x5#10

/-- The word of IMMX (R274). -/
def Enc.immx (p : BitVec 22) : IWord :=
  0x3F8#10 ++ p

/-- The word of HCACHE (R275). -/
def Enc.hcache (p : BitVec 2) : IWord :=
  0x3F900000#30 ++ p

/-- The word of HSCHED (R275). -/
def Enc.hsched (o : BitVec 1) : IWord :=
  0x7F400000#31 ++ o

/-- The word of HMOD (R275). -/
def Enc.hmod (o : BitVec 2) (s : BitVec 1) (r : BitVec 1) (m : BitVec 2) : IWord :=
  0x3FB0000#26 ++ o ++ s ++ r ++ m

/-- The word of HNOP (R275). -/
def Enc.hnop (p : BitVec 22) : IWord :=
  0x3FC#10 ++ p

/-- The word of an instruction, from the encodings of chapters 10 to 14.  The steps without an encoding have the word 0,
which is no instruction's (R280); a word that encodes nothing stands for itself. -/
def encode : Instr → IWord
  | .add d a b => Enc.add d a b
  | .sub d a b => Enc.sub d a b
  | .and d a b => Enc.and d a b
  | .or d a b => Enc.or d a b
  | .xor d a b => Enc.xor d a b
  | .andn d a b => Enc.andn d a b
  | .sll d a b => Enc.sll d a b
  | .srl d a b => Enc.srl d a b
  | .sra d a b => Enc.sra d a b
  | .rol d a b => Enc.rol d a b
  | .ror d a b => Enc.ror d a b
  | .slt d a b => Enc.slt d a b
  | .sltu d a b => Enc.sltu d a b
  | .min d a b => Enc.min d a b
  | .max d a b => Enc.max d a b
  | .minu d a b => Enc.minu d a b
  | .maxu d a b => Enc.maxu d a b
  | .clz d a => Enc.clz d a
  | .ctz d a => Enc.ctz d a
  | .popc d a => Enc.popc d a
  | .sextb d a => Enc.sextb d a
  | .sexth d a => Enc.sexth d a
  | .sextw d a => Enc.sextw d a
  | .zextw d a => Enc.zextw d a
  | .addw d a b => Enc.addw d a b
  | .subw d a b => Enc.subw d a b
  | .sllw d a b => Enc.sllw d a b
  | .srlw d a b => Enc.srlw d a b
  | .sraw d a b => Enc.sraw d a b
  | .mulw d a b => Enc.mulw d a b
  | .mul d a b => Enc.mul d a b
  | .mulh d a b => Enc.mulh d a b
  | .mulhu d a b => Enc.mulhu d a b
  | .mulhsu d a b => Enc.mulhsu d a b
  | .div d a b => Enc.div d a b
  | .divu d a b => Enc.divu d a b
  | .rem d a b => Enc.rem d a b
  | .remu d a b => Enc.remu d a b
  | .divw d a b => Enc.divw d a b
  | .divuw d a b => Enc.divuw d a b
  | .remw d a b => Enc.remw d a b
  | .remuw d a b => Enc.remuw d a b
  | .addi d a i => Enc.addi d a i
  | .andi d a i => Enc.andi d a i
  | .ori d a i => Enc.ori d a i
  | .xori d a i => Enc.xori d a i
  | .slti d a i => Enc.slti d a i
  | .sltiu d a i => Enc.sltiu d a i
  | .slli d a s => Enc.slli d a s
  | .srli d a s => Enc.srli d a s
  | .srai d a s => Enc.srai d a s
  | .rori d a s => Enc.rori d a s
  | .movi d i => Enc.movi d i
  | .addpc d i => Enc.addpc d i
  | .addiw d a i => Enc.addiw d a i
  | .fadd d a b f => Enc.fadd d a b f
  | .fsub d a b f => Enc.fsub d a b f
  | .fmul d a b f => Enc.fmul d a b f
  | .fdiv d a b f => Enc.fdiv d a b f
  | .fsqrt d a f => Enc.fsqrt d a f
  | .fmin d a b f => Enc.fmin d a b f
  | .fmax d a b f => Enc.fmax d a b f
  | .feq d a b f => Enc.feq d a b f
  | .flt d a b f => Enc.flt d a b f
  | .fle d a b f => Enc.fle d a b f
  | .fclass d a f => Enc.fclass d a f
  | .fabs d a f => Enc.fabs d a f
  | .fneg d a f => Enc.fneg d a f
  | .fcvt d a c s => Enc.fcvt d a c s
  | .fmac d a b f => Enc.fmac d a b f
  | .fmsac d a b f => Enc.fmsac d a b f
  | .loop n a l => Enc.loop n a l
  | .beq a b o => Enc.beq a b o
  | .bne a b o => Enc.bne a b o
  | .blt a b o => Enc.blt a b o
  | .bge a b o => Enc.bge a b o
  | .bltu a b o => Enc.bltu a b o
  | .bgeu a b o => Enc.bgeu a b o
  | .jal d o => Enc.jal d o
  | .jalr d a i => Enc.jalr d a i
  | .ldb d a w o => Enc.ldb d a w o
  | .ldbu d a w o => Enc.ldbu d a w o
  | .ldh d a w o => Enc.ldh d a w o
  | .ldhu d a w o => Enc.ldhu d a w o
  | .ldw d a w o => Enc.ldw d a w o
  | .ldwu d a w o => Enc.ldwu d a w o
  | .ldd d a w o => Enc.ldd d a w o
  | .stb d a w o => Enc.stb d a w o
  | .sth d a w o => Enc.sth d a w o
  | .stw d a w o => Enc.stw d a w o
  | .std d a w o => Enc.std d a w o
  | .ldro d a o => Enc.ldro d a o
  | .ldf d a m o => Enc.ldf d a m o
  | .stf d a m o => Enc.stf d a m o
  | .fence m => Enc.fence m
  | .roinv a b => Enc.roinv a b
  | .mwarm a => Enc.mwarm a
  | .mwait d a => Enc.mwait d a
  | .feset a => Enc.feset a
  | .feclr a => Enc.feclr a
  | .fest d a => Enc.fest d a
  | .cflush a b => Enc.cflush a b
  | .cinv a b => Enc.cinv a b
  | .pref a => Enc.pref a
  | .aadd d a b w z => Enc.aadd d a b w z
  | .aand d a b w z => Enc.aand d a b w z
  | .aor d a b w z => Enc.aor d a b w z
  | .axor d a b w z => Enc.axor d a b w z
  | .amin d a b w z => Enc.amin d a b w z
  | .amax d a b w z => Enc.amax d a b w z
  | .aminu d a b w z => Enc.aminu d a b w z
  | .amaxu d a b w z => Enc.amaxu d a b w z
  | .aswap d a b w z => Enc.aswap d a b w z
  | .acas d a b w z => Enc.acas d a b w z
  | .afadd d a b w => Enc.afadd d a b w
  | .afmaxabs d a b w => Enc.afmaxabs d a b w
  | .amaxrst d a w => Enc.amaxrst d a w
  | .ship d a b i => Enc.ship d a b i
  | .trap a => Enc.trap a
  | .eret => Enc.eret
  | .srrd d i => Enc.srrd d i
  | .srwr d i => Enc.srwr d i
  | .srset d i => Enc.srset d i
  | .srclr d i => Enc.srclr d i
  | .halt => Enc.halt
  | .bkpt => Enc.bkpt
  | .ifence => Enc.ifence
  | .tlbinv a b => Enc.tlbinv a b
  | .ctxres d a b => Enc.ctxres d a b
  | .wfe => Enc.wfe
  | .vsetl d a m t l s => Enc.vsetl d a m t l s
  | .vsetli d u m t l s => Enc.vsetli d u m t l s
  | .vld d a m w e => Enc.vld d a m w e
  | .vlds d a b m w e => Enc.vlds d a b m w e
  | .vldx d a b m w e => Enc.vldx d a b m w e
  | .vldff d a m w e => Enc.vldff d a m w e
  | .vst d a m w e => Enc.vst d a m w e
  | .vsts d a b m w e => Enc.vsts d a b m w e
  | .vstx d a b m w e => Enc.vstx d a b m w e
  | .vaddVv d a b m => Enc.vaddVv d a b m
  | .vaddVx d a s m => Enc.vaddVx d a s m
  | .vsubVv d a b m => Enc.vsubVv d a b m
  | .vsubVx d a s m => Enc.vsubVx d a s m
  | .vrsubVv d a b m => Enc.vrsubVv d a b m
  | .vrsubVx d a s m => Enc.vrsubVx d a s m
  | .vmulVv d a b m => Enc.vmulVv d a b m
  | .vmulVx d a s m => Enc.vmulVx d a s m
  | .vmulhVv d a b m u => Enc.vmulhVv d a b m u
  | .vmulhVx d a s m u => Enc.vmulhVx d a s m u
  | .vmaccVv d a b m => Enc.vmaccVv d a b m
  | .vmaccVx d a s m => Enc.vmaccVx d a s m
  | .vnmsacVv d a b m => Enc.vnmsacVv d a b m
  | .vnmsacVx d a s m => Enc.vnmsacVx d a s m
  | .vandVv d a b m => Enc.vandVv d a b m
  | .vandVx d a s m => Enc.vandVx d a s m
  | .vorVv d a b m => Enc.vorVv d a b m
  | .vorVx d a s m => Enc.vorVx d a s m
  | .vxorVv d a b m => Enc.vxorVv d a b m
  | .vxorVx d a s m => Enc.vxorVx d a s m
  | .vsllVv d a b m => Enc.vsllVv d a b m
  | .vsllVx d a s m => Enc.vsllVx d a s m
  | .vsrlVv d a b m => Enc.vsrlVv d a b m
  | .vsrlVx d a s m => Enc.vsrlVx d a s m
  | .vsraVv d a b m => Enc.vsraVv d a b m
  | .vsraVx d a s m => Enc.vsraVx d a s m
  | .vminVv d a b m => Enc.vminVv d a b m
  | .vminVx d a s m => Enc.vminVx d a s m
  | .vmaxVv d a b m => Enc.vmaxVv d a b m
  | .vmaxVx d a s m => Enc.vmaxVx d a s m
  | .vminuVv d a b m => Enc.vminuVv d a b m
  | .vminuVx d a s m => Enc.vminuVx d a s m
  | .vmaxuVv d a b m => Enc.vmaxuVv d a b m
  | .vmaxuVx d a s m => Enc.vmaxuVx d a s m
  | .vseqVv d a b m => Enc.vseqVv d a b m
  | .vseqVx d a s m => Enc.vseqVx d a s m
  | .vsneVv d a b m => Enc.vsneVv d a b m
  | .vsneVx d a s m => Enc.vsneVx d a s m
  | .vsltVv d a b m => Enc.vsltVv d a b m
  | .vsltVx d a s m => Enc.vsltVx d a s m
  | .vsltuVv d a b m => Enc.vsltuVv d a b m
  | .vsltuVx d a s m => Enc.vsltuVx d a s m
  | .vsleVv d a b m => Enc.vsleVv d a b m
  | .vsleVx d a s m => Enc.vsleVx d a s m
  | .vmergeVv d a b => Enc.vmergeVv d a b
  | .vmergeVx d a s => Enc.vmergeVx d a s
  | .vmvVv d a m => Enc.vmvVv d a m
  | .vmvVx d s m => Enc.vmvVx d s m
  | .vsaddVv d a b m u => Enc.vsaddVv d a b m u
  | .vsaddVx d a s m u => Enc.vsaddVx d a s m u
  | .vssubVv d a b m u => Enc.vssubVv d a b m u
  | .vssubVx d a s m u => Enc.vssubVx d a s m u
  | .vnclipVv d a b m u => Enc.vnclipVv d a b m u
  | .vnclipVx d a s m u => Enc.vnclipVx d a s m u
  | .vwaddVv d a b m u => Enc.vwaddVv d a b m u
  | .vwaddVx d a s m u => Enc.vwaddVx d a s m u
  | .vwmulVv d a b m u => Enc.vwmulVv d a b m u
  | .vwmulVx d a s m u => Enc.vwmulVx d a s m u
  | .vext d a m f u => Enc.vext d a m f u
  | .vfaddVv d a b m => Enc.vfaddVv d a b m
  | .vfaddVx d a s m => Enc.vfaddVx d a s m
  | .vfsubVv d a b m => Enc.vfsubVv d a b m
  | .vfsubVx d a s m => Enc.vfsubVx d a s m
  | .vfmulVv d a b m => Enc.vfmulVv d a b m
  | .vfmulVx d a s m => Enc.vfmulVx d a s m
  | .vfdivVv d a b m => Enc.vfdivVv d a b m
  | .vfdivVx d a s m => Enc.vfdivVx d a s m
  | .vfsqrt d a m => Enc.vfsqrt d a m
  | .vfminVv d a b m => Enc.vfminVv d a b m
  | .vfminVx d a s m => Enc.vfminVx d a s m
  | .vfmaxVv d a b m => Enc.vfmaxVv d a b m
  | .vfmaxVx d a s m => Enc.vfmaxVx d a s m
  | .vfmaccVv d a b m => Enc.vfmaccVv d a b m
  | .vfmaccVx d a s m => Enc.vfmaccVx d a s m
  | .vfnmsacVv d a b m => Enc.vfnmsacVv d a b m
  | .vfnmsacVx d a s m => Enc.vfnmsacVx d a s m
  | .vfeqVv d a b m => Enc.vfeqVv d a b m
  | .vfeqVx d a s m => Enc.vfeqVx d a s m
  | .vfltVv d a b m => Enc.vfltVv d a b m
  | .vfltVx d a s m => Enc.vfltVx d a s m
  | .vfleVv d a b m => Enc.vfleVv d a b m
  | .vfleVx d a s m => Enc.vfleVx d a s m
  | .vfabs d a m => Enc.vfabs d a m
  | .vfneg d a m => Enc.vfneg d a m
  | .vfsgnjVv d a b m => Enc.vfsgnjVv d a b m
  | .vfsgnjVx d a s m => Enc.vfsgnjVx d a s m
  | .vredsum d a b m => Enc.vredsum d a b m
  | .vredmax d a b m u => Enc.vredmax d a b m u
  | .vredmin d a b m u => Enc.vredmin d a b m u
  | .vredand d a b m => Enc.vredand d a b m
  | .vredor d a b m => Enc.vredor d a b m
  | .vredxor d a b m => Enc.vredxor d a b m
  | .vfredosum d a b m => Enc.vfredosum d a b m
  | .vfredtsum d a b m => Enc.vfredtsum d a b m
  | .vfredmax d a b m => Enc.vfredmax d a b m
  | .vfredmin d a b m => Enc.vfredmin d a b m
  | .vfamax d a b m => Enc.vfamax d a b m
  | .vslideup d a s m => Enc.vslideup d a s m
  | .vslidedn d a s m => Enc.vslidedn d a s m
  | .vslide1up d a s m => Enc.vslide1up d a s m
  | .vslide1dn d a s m => Enc.vslide1dn d a s m
  | .vgath d a b m => Enc.vgath d a b m
  | .vcompress d a b => Enc.vcompress d a b
  | .viota d a m => Enc.viota d a m
  | .vid d m => Enc.vid d m
  | .vmvxs d a => Enc.vmvxs d a
  | .vmvsx d s => Enc.vmvsx d s
  | .vmand d a b => Enc.vmand d a b
  | .vmor d a b => Enc.vmor d a b
  | .vmxor d a b => Enc.vmxor d a b
  | .vmandn d a b => Enc.vmandn d a b
  | .vmnot d a => Enc.vmnot d a
  | .vpopc d a m => Enc.vpopc d a m
  | .vfirst d a m => Enc.vfirst d a m
  | .vmsbf d a m => Enc.vmsbf d a m
  | .vcvt d a s m c => Enc.vcvt d a s m c
  | .mshape d a b o y x => Enc.mshape d a b o y x
  | .mma d a b h => Enc.mma d a b h
  | .mmas d a b h => Enc.mmas d a b h
  | .mmat d a b h => Enc.mmat d a b h
  | .mzero d h => Enc.mzero d h
  | .mstat d c => Enc.mstat d c
  | .spawn d a b => Enc.spawn d a b
  | .spawnc d a b => Enc.spawnc d a b
  | .twait => Enc.twait
  | .texit => Enc.texit
  | .yield => Enc.yield
  | .cntinit d a b => Enc.cntinit d a b
  | .cntdec a b => Enc.cntdec a b
  | .cntwait a => Enc.cntwait a
  | .launchd d a => Enc.launchd d a
  | .tself d s => Enc.tself d s
  | .dbegin d a => Enc.dbegin d a
  | .dpresSnap a b => Enc.dpresSnap a b
  | .dpresHold a b => Enc.dpresHold a b
  | .dend => Enc.dend
  | .dchk a b => Enc.dchk a b
  | .dabort a => Enc.dabort a
  | .dlevel d s => Enc.dlevel d s
  | .lend a b => Enc.lend a b
  | .unlend a b => Enc.unlend a b
  | .hstat d s => Enc.hstat d s
  | .qpost d a => Enc.qpost d a
  | .qwait d a b => Enc.qwait d a b
  | .qstart d a b => Enc.qstart d a b
  | .qstat d a s => Enc.qstat d a s
  | .qresync d a b => Enc.qresync d a b
  | .immx p => Enc.immx p
  | .hcache p => Enc.hcache p
  | .hsched o => Enc.hsched o
  | .hmod o s r m => Enc.hmod o s r m
  | .hnop p => Enc.hnop p
  | .unassignedEncoding w => w
  | .reservedHintKind w => w
  | _ => 0#32

/-- The instruction that the decoder reads from the table's numbering of bits (one word of 32 bits: bit 0 the least
significant). -/
noncomputable def decodeTableWord (nbits w : Nat) : Option Instr :=
  if nbits ≤ 32 ∧ w < 2 ^ 32 then
    match decodeWord (BitVec.ofNat 32 w) with
    | .ok i => some i
    | .error _ => none
  else none

end Sys2Proof
end

