-- ==== Sys2Proof/Machine/Bits.lean ====
section
/-! DEFINITION. Bit-field, sign-extension and byte-order helpers (R5, R10). -/

namespace Sys2Proof.Machine

/-- Sign-extend the low `n` bits to 64 (Table 0.3). -/
def sextW (x : Word) (n : Nat) : Word := (x.setWidth n).signExtend 64

/-- Zero-extend the low `n` bits to 64 (Table 0.3). -/
def zextW (x : Word) (n : Nat) : Word := (x.setWidth n).setWidth 64

/-- The natural number in the bits `hi` down to `lo` of a word. -/
def bits (x : Word) (hi lo : Nat) : Nat := (x.toNat >>> lo) % 2 ^ (hi + 1 - lo)

/-- The bytes of a number, the least significant first (R5). -/
def bytesLE : Nat → Nat → List Byte
  | 0, _ => []
  | k + 1, x => BitVec.ofNat 8 x :: bytesLE k (x / 256)

/-- The number in a byte list, the least significant first (R5). -/
def ofBytes : List Byte → Nat
  | [] => 0
  | b :: t => b.toNat + 256 * ofBytes t

/-- The word in eight bytes of a list from position `i`. -/
def wordAt (l : List Byte) (i : Nat) : Word := BitVec.ofNat 64 (ofBytes ((l.drop i).take 8))

/-- The number in `n` bytes of a list from position `i`. -/
def natAt (l : List Byte) (i n : Nat) : Nat := ofBytes ((l.drop i).take n)

/-- Whether bit `i` of a number is set. -/
def bitN (x i : Nat) : Bool := x.testBit i

/-- How many of the bits below `n` of a number are set. -/
def popN (x n : Nat) : Nat := ((List.range n).filter (fun i => x.testBit i)).length

/-- The set bits below `n`, rising. -/
def setBits (x n : Nat) : List Nat := (List.range n).filter (fun i => x.testBit i)

/-- Signed value of a field of `n` bits. -/
def signedN (x n : Nat) : Int := (BitVec.ofNat n x).toInt

/-- The smallest multiple of `m` not below `x`. -/
def roundUp (x m : Nat) : Nat := (x + m - 1) / m * m

/-- Clamp an integer to a signed width (R10, R308). -/
def satInt (n : Nat) (x : Int) : Int :=
  if x < -(2 ^ (n - 1) : Nat) then -(2 ^ (n - 1) : Nat)
  else if x ≥ (2 ^ (n - 1) : Nat) then (2 ^ (n - 1) : Nat) - 1 else x

/-- Clamp an integer to an unsigned width. -/
def satNat (n : Nat) (x : Int) : Int :=
  if x < 0 then 0 else if x ≥ (2 ^ n : Nat) then (2 ^ n : Nat) - 1 else x

/-- Comparison of 32-bit serial numbers: a is at least b (R224). -/
def serialGe (a b : BitVec 32) : Bool := (a - b).toNat < 2 ^ 31

/-- The larger of two serial numbers (R223, R224). -/
def serialMax (a b : BitVec 32) : BitVec 32 := if serialGe a b then a else b

/-- The signed difference of two 32-bit tags (R413). -/
def tagDiff (a b : BitVec 32) : Int := (a - b).toInt

end Sys2Proof.Machine
end

