-- ==== Sys2Proof/Machine/Flags.lean ====
section
/-! DEFINITION. The arithmetic of chapter 9: exact values, one rounding into FP32 or BF16 with the flags it raises, the narrow
formats, every conversion of Table 9.6, integer division at its edges and the operations of Tables 11.3 and 11.6
(R10, R241 to R261). -/

namespace Sys2Proof.Machine

/-! ## Flags and rounding modes (R245, R246) -/

/-- NV, invalid. -/
def fNV : BitVec 5 := 0x10#5
/-- DZ, divide by zero. -/
def fDZ : BitVec 5 := 0x08#5
/-- OF, overflow. -/
def fOF : BitVec 5 := 0x04#5
/-- UF, underflow. -/
def fUF : BitVec 5 := 0x02#5
/-- NX, inexact. -/
def fNX : BitVec 5 := 0x01#5

/-- A rounding mode (R246). -/
inductive Rm where
  | rne | rtz | rdn | rup
deriving DecidableEq, Repr, Inhabited

/-- The mode of a code, RNE without one (R246). -/
def Rm.ofCode : Option (BitVec 2) → Rm
  | some 1#2 => .rtz
  | some 2#2 => .rdn
  | some 3#2 => .rup
  | _ => .rne

/-- An IEEE binary format of this device, by the number of bits of its significand: FP32 24, BF16 8 (R243). -/
structure Fmt where
  p : Nat
deriving DecidableEq, Repr, Inhabited

/-- FP32 (R243). -/
def fp32 : Fmt := ⟨24⟩
/-- BF16 (R243). -/
def bf16 : Fmt := ⟨8⟩

/-- The format a fmt bit selects (R311). -/
def fmtOf (f : BitVec 1) : Fmt := if f = 1#1 then bf16 else fp32

/-- The code of +infinity. -/
def Fmt.inf (f : Fmt) : Nat := 255 * 2 ^ (f.p - 1)
/-- The code of the largest finite value. -/
def Fmt.maxFin (f : Fmt) : Nat := f.inf - 1
/-- The sign bit's weight. -/
def Fmt.sign (f : Fmt) : Nat := 2 ^ (f.p + 7)
/-- The canonical NaN: 0x7FC0_0000, 0x7FC0 (R244). -/
def Fmt.nan (f : Fmt) : Nat := f.inf + 2 ^ (f.p - 2)
/-- The sign bit of a sign. -/
def Fmt.sgn (f : Fmt) (neg : Bool) : Nat := if neg then f.sign else 0
/-- The number of bits of a code. -/
def Fmt.bits (f : Fmt) : Nat := f.p + 8

/-- A decoded operand: a finite value is plus or minus m times 2^e. -/
inductive Fv where
  | nan (signalling : Bool)
  | inf (neg : Bool)
  | fin (neg : Bool) (m : Nat) (e : Int)
deriving DecidableEq, Repr, Inhabited

/-- Decode a code of a format; other bits are ignored (R243, R263). -/
def Fmt.dec (f : Fmt) (x : Nat) : Fv :=
  let c := x % 2 ^ f.bits
  let neg := decide (f.sign ≤ c)
  let a := c % f.sign
  let ex := a / 2 ^ (f.p - 1)
  let fr := a % 2 ^ (f.p - 1)
  if ex = 255 then if fr = 0 then .inf neg else .nan (decide (fr < 2 ^ (f.p - 2)))
  else if ex = 0 then .fin neg fr (-126 - (f.p - 1 : Nat))
  else .fin neg (fr + 2 ^ (f.p - 1)) ((ex : Int) - 127 - (f.p - 1 : Nat))

/-- Divide by 2^sh and round the quotient by a mode; whether anything was discarded. -/
def roundShift (rm : Rm) (neg : Bool) (m sh : Nat) : Nat × Bool :=
  let q := m / 2 ^ sh
  let r := m % 2 ^ sh
  let up : Bool := match rm with
    | .rne => decide (2 ^ sh < 2 * r) || (decide (2 * r = 2 ^ sh) && decide (q % 2 = 1))
    | .rtz => false
    | .rdn => neg && decide (r ≠ 0)
    | .rup => !neg && decide (r ≠ 0)
  (if up then q + 1 else q, decide (r ≠ 0))

/-- Round m times 2^e to a multiple of 2^q. -/
def roundTo (rm : Rm) (neg : Bool) (m : Nat) (e q : Int) : Nat × Bool :=
  if q ≤ e then (m * 2 ^ (e - q).toNat, false) else roundShift rm neg m (q - e).toNat

/-- What an overflow gives: infinity or the largest finite value, by mode and SAT (R244, R247, R252). -/
def Fmt.overflow (f : Fmt) (rm : Rm) (sat neg : Bool) : Nat :=
  let big := sat || (match rm with | .rne => false | .rtz => true | .rdn => !neg | .rup => neg)
  f.sgn neg + if big then f.maxFin else f.inf

/-- Round(x, fmt, rm) of an exact nonzero or zero magnitude with IEEE overflow and underflow, tininess after rounding; the code
and its flags (R10, R244, R247). -/
def Fmt.round (f : Fmt) (rm : Rm) (sat neg : Bool) (m : Nat) (e : Int) : Nat × BitVec 5 :=
  if m = 0 then (f.sgn neg, 0#5)
  else
    let lead : Int := e + (Nat.log2 m : Nat)
    let top : Int := max lead (-126)
    let r := roundTo rm neg m e (top - (f.p - 1 : Nat))
    let code := (top + 126).toNat * 2 ^ (f.p - 1) + r.1
    if f.inf ≤ code then (f.overflow rm sat neg, fOF ||| fNX)
    else
      let tiny := decide (lead < -127) ||
        (decide (lead = -127) && decide ((roundTo rm neg m e (lead - (f.p - 1 : Nat))).1 ≠ 2 ^ f.p))
      (f.sgn neg + code, if r.2 then (if tiny then fUF ||| fNX else fNX) else 0#5)

/-- NV where a NaN among the operands signals (R244). -/
def nvOf (l : List Fv) : BitVec 5 := if l.any (fun v => v == .nan true) then fNV else 0#5

/-- Whether an operand is a NaN. -/
def Fv.isNan : Fv → Bool
  | .nan _ => true
  | _ => false

/-- The sign of a value. -/
def Fv.neg : Fv → Bool
  | .nan _ => false
  | .inf n => n
  | .fin n _ _ => n

/-- The opposite value. -/
def Fv.negate : Fv → Fv
  | .nan s => .nan s
  | .inf n => .inf (!n)
  | .fin n m e => .fin (!n) m e

/-- The exact sum of two finite values as an integer times a power of two. -/
def exactSum (n1 : Bool) (m1 : Nat) (e1 : Int) (n2 : Bool) (m2 : Nat) (e2 : Int) : Int × Int :=
  let e := min e1 e2
  let a : Int := (m1 * 2 ^ (e1 - e).toNat : Nat)
  let b : Int := (m2 * 2 ^ (e2 - e).toNat : Nat)
  ((if n1 then -a else a) + (if n2 then -b else b), e)

/-- The result of an addition of two decoded values; an exact zero sum is +0 but for RDN, where it is -0 (R244). -/
def Fmt.addV (f : Fmt) (rm : Rm) (sat : Bool) (a b : Fv) : Nat × BitVec 5 :=
  match a, b with
  | .nan _, _ => (f.nan, nvOf [a, b])
  | _, .nan _ => (f.nan, nvOf [a, b])
  | .inf x, .inf y => if x = y then (f.sgn x + f.inf, 0#5) else (f.nan, fNV)
  | .inf x, _ => (f.sgn x + f.inf, 0#5)
  | _, .inf y => (f.sgn y + f.inf, 0#5)
  | .fin n1 m1 e1, .fin n2 m2 e2 =>
    let s := exactSum n1 m1 e1 n2 m2 e2
    if s.1 = 0 then
      (f.sgn (if m1 = 0 ∧ m2 = 0 ∧ n1 = n2 then n1 else decide (rm = .rdn)), 0#5)
    else f.round rm sat (decide (s.1 < 0)) s.1.natAbs s.2

/-- The exact product of two decoded values; none for infinity times zero or a NaN. -/
def mulExact (a b : Fv) : Option Fv :=
  match a, b with
  | .nan _, _ => none
  | _, .nan _ => none
  | .inf x, .inf y => some (.inf (x != y))
  | .inf x, .fin y m _ => if m = 0 then none else some (.inf (x != y))
  | .fin x m _, .inf y => if m = 0 then none else some (.inf (x != y))
  | .fin n1 m1 e1, .fin n2 m2 e2 => some (.fin (n1 != n2) (m1 * m2) (e1 + e2))

/-- The result of rounding a decoded value that is no NaN. -/
def Fmt.roundV (f : Fmt) (rm : Rm) (sat : Bool) : Fv → Nat × BitVec 5
  | .nan _ => (f.nan, 0#5)
  | .inf n => (f.sgn n + f.inf, 0#5)
  | .fin n m e => f.round rm sat n m e

/-- A code and the flags raised. -/
abbrev FRes := Nat × BitVec 5

/-- FADD (Table 11.3). -/
def Fmt.add (f : Fmt) (rm : Rm) (sat : Bool) (a b : Nat) : FRes := f.addV rm sat (f.dec a) (f.dec b)

/-- FSUB (Table 11.3). -/
def Fmt.sub (f : Fmt) (rm : Rm) (sat : Bool) (a b : Nat) : FRes := f.addV rm sat (f.dec a) (f.dec b).negate

/-- FMUL (Table 11.3). -/
def Fmt.mul (f : Fmt) (rm : Rm) (sat : Bool) (a b : Nat) : FRes :=
  let x := f.dec a
  let y := f.dec b
  if x.isNan || y.isNan then (f.nan, nvOf [x, y])
  else match mulExact x y with
    | none => (f.nan, fNV)
    | some v => f.roundV rm sat v

/-- A quotient of naturals as a dyadic whose last bit is sticky: a numerator of twice the quotient and one for a remainder. -/
def stickyDiv (m1 m2 : Nat) : Nat × Int :=
  let k := 70 + Nat.log2 m2
  let n := m1 * 2 ^ k
  (2 * (n / m2) + (if n % m2 = 0 then 0 else 1), -(k + 1 : Nat))

/-- FDIV (Table 11.3). -/
def Fmt.div (f : Fmt) (rm : Rm) (sat : Bool) (a b : Nat) : FRes :=
  match f.dec a, f.dec b with
  | .nan x, y => (f.nan, nvOf [.nan x, y])
  | x, .nan y => (f.nan, nvOf [x, .nan y])
  | .inf _, .inf _ => (f.nan, fNV)
  | .inf x, .fin y _ _ => (f.sgn (x != y) + f.inf, 0#5)
  | .fin x _ _, .inf y => (f.sgn (x != y), 0#5)
  | .fin x m1 e1, .fin y m2 e2 =>
    if m2 = 0 then if m1 = 0 then (f.nan, fNV) else (f.sgn (x != y) + f.inf, fDZ)
    else
      let q := stickyDiv m1 m2
      f.round rm sat (x != y) q.1 (e1 - e2 + q.2)

/-- The integer square root, bit by bit from bit `k` down. -/
def isqrt (n : Nat) : Nat → Nat → Nat
  | 0, r => r
  | k + 1, r => if (r + 2 ^ k) * (r + 2 ^ k) ≤ n then isqrt n k (r + 2 ^ k) else isqrt n k r

/-- FSQRT (Table 11.3): the root is found to 53 bits with a sticky last one, then rounded once. -/
def Fmt.sqrt (f : Fmt) (rm : Rm) (sat : Bool) (a : Nat) : FRes :=
  match f.dec a with
  | .nan x => (f.nan, nvOf [.nan x])
  | .inf n => if n then (f.nan, fNV) else (f.inf, 0#5)
  | .fin n m e =>
    if m = 0 then (f.sgn n, 0#5)
    else if n then (f.nan, fNV)
    else
      let odd : Nat := (e % 2).toNat
      let w := m * 2 ^ (80 + odd)
      let r := isqrt w 54 0
      f.round rm sat false (2 * r + if r * r = w then 0 else 1) ((e - odd) / 2 - 41)

/-- FMAC and FMSAC: c plus or minus a times b, rounded once (R313). -/
def Fmt.fma (f : Fmt) (rm : Rm) (sat sub : Bool) (c a b : Nat) : FRes :=
  let x := f.dec a
  let y := f.dec b
  let z := f.dec c
  if x.isNan || y.isNan then (f.nan, nvOf [x, y, z])
  else match mulExact x y with
    | none => (f.nan, fNV)
    | some v =>
      if z.isNan then (f.nan, nvOf [z])
      else f.addV rm sat z (if sub then v.negate else v)

/-- The order of two values that are no NaN: zeros equal. -/
def Fv.lt (a b : Fv) : Bool :=
  match a, b with
  | .inf x, .inf y => x && !y
  | .inf x, .fin _ _ _ => x
  | .fin _ _ _, .inf y => !y
  | .fin n1 m1 e1, .fin n2 m2 e2 => decide ((exactSum n1 m1 e1 (!n2) m2 e2).1 < 0)
  | _, _ => false

/-- FMIN and FMAX, minimumNumber and maximumNumber with -0 below +0 (Table 11.3). -/
def Fmt.minMax (f : Fmt) (big : Bool) (a b : Nat) : FRes :=
  let x := f.dec a
  let y := f.dec b
  let ca := a % 2 ^ f.bits
  let cb := b % 2 ^ f.bits
  let fl := nvOf [x, y]
  if x.isNan && y.isNan then (f.nan, fl)
  else if x.isNan then (cb, fl)
  else if y.isNan then (ca, fl)
  else
    let less := x.lt y || (!y.lt x && x.neg && !y.neg)
    (if less != big then ca else cb, fl)

/-- FEQ, quiet (Table 11.3). -/
def Fmt.feq (f : Fmt) (a b : Nat) : Bool × BitVec 5 :=
  let x := f.dec a
  let y := f.dec b
  (!x.isNan && !y.isNan && !x.lt y && !y.lt x, nvOf [x, y])

/-- FLT, signalling (Table 11.3). -/
def Fmt.flt (f : Fmt) (a b : Nat) : Bool × BitVec 5 :=
  let x := f.dec a
  let y := f.dec b
  if x.isNan || y.isNan then (false, fNV) else (x.lt y, 0#5)

/-- FLE, signalling (Table 11.3). -/
def Fmt.fle (f : Fmt) (a b : Nat) : Bool × BitVec 5 :=
  let x := f.dec a
  let y := f.dec b
  if x.isNan || y.isNan then (false, fNV) else (!y.lt x, 0#5)

/-- The class mask of FCLASS (R312). -/
def Fmt.classOf (f : Fmt) (a : Nat) : Nat :=
  match f.dec a with
  | .inf n => if n then 2 ^ 0 else 2 ^ 7
  | .nan s => if s then 2 ^ 8 else 2 ^ 9
  | .fin n m _ =>
    if m = 0 then if n then 2 ^ 3 else 2 ^ 4
    else if m < 2 ^ (f.p - 1) then if n then 2 ^ 2 else 2 ^ 5
    else if n then 2 ^ 1 else 2 ^ 6

/-- FABS and FNEG: a NaN gives the canonical NaN (Table 11.3). -/
def Fmt.signOp (f : Fmt) (negate : Bool) (a : Nat) : FRes :=
  let c := a % 2 ^ f.bits
  let x := f.dec a
  if x.isNan then (f.nan, nvOf [x])
  else (c % f.sign + f.sgn (negate && !x.neg), 0#5)

/-! ## Narrow formats (R248 to R253) -/

/-- A narrow format: exponent and mantissa widths, bias, and whether it has a sign (Table 9.2). -/
structure Narrow where
  ebits : Nat
  mbits : Nat
  bias : Int
  signed : Bool
  /-- Whether the code with sign 1 and all fields zero is a value (N4E2's -0.5); in N8E4 and N8E5 it is the NaN. -/
  negMin : Bool
deriving DecidableEq, Repr, Inhabited

/-- N8E4 (R248). -/
def n8e4 : Narrow := ⟨4, 3, 7, true, false⟩
/-- N8E5 (R248). -/
def n8e5 : Narrow := ⟨5, 2, 15, true, false⟩
/-- N4E2 (R249). -/
def n4e2 : Narrow := ⟨2, 1, 1, true, true⟩
/-- S8 (R251). -/
def s8 : Narrow := ⟨6, 2, 32, false, false⟩

/-- The largest magnitude code. -/
def Narrow.top (f : Narrow) : Nat := 2 ^ (f.ebits + f.mbits) - 1

/-- The value of a magnitude code that is not the zero code, as m times 2^e; codes beyond the largest continue the exponent
(R248, R252). -/
def Narrow.mag (f : Narrow) (c : Nat) : Nat × Int :=
  (c % 2 ^ f.mbits + 2 ^ f.mbits, (c / 2 ^ f.mbits : Nat) - f.bias - (f.mbits : Nat))

/-- dec(c) of a narrow code (R248 to R251). -/
def Narrow.dec (f : Narrow) (x : Nat) : Fv :=
  let a := x % 2 ^ (f.ebits + f.mbits)
  let neg := f.signed && x.testBit (f.ebits + f.mbits)
  if a = 0 then if neg then (if f.negMin then .fin true (f.mag 0).1 (f.mag 0).2 else .nan false) else .fin false 0 0
  else .fin neg (f.mag a).1 (f.mag a).2

/-- The value of a T2 code; the reserved code reads as zero (R250). -/
def t2dec (c : Nat) : Fv := if c % 4 = 1 then .fin false 1 0 else if c % 4 = 3 then .fin true 1 0 else .fin false 0 0

/-- Comparison of m1 times 2^e1 with m2 times 2^e2. -/
def magCmp (m1 : Nat) (e1 : Int) (m2 : Nat) (e2 : Int) : Ordering :=
  let e := min e1 e2
  compare (m1 * 2 ^ (e1 - e).toNat) (m2 * 2 ^ (e2 - e).toNat)

/-- Round(x, fmt, rm) of a finite exact value into a narrow format (R252). -/
def Narrow.round (f : Narrow) (rm : Rm) (neg : Bool) (m : Nat) (e : Int) : FRes :=
  if m = 0 then (0, 0#5)
  else
    let sg := if neg then 2 ^ (f.ebits + f.mbits) else 0
    let lead : Int := e + (Nat.log2 m : Nat)
    -- the smallest candidate's magnitude code; none below it but zero
    let least := if neg && f.negMin then 0 else 1
    -- the magnitude code at or below x, if any
    let low : Option Nat :=
      if lead < -f.bias then none
      else
        let c := (lead + f.bias).toNat * 2 ^ f.mbits + ((roundTo .rtz false m e (lead - (f.mbits : Nat))).1 - 2 ^ f.mbits)
        if c < least then none else some c
    let exact := match low with
      | some c => magCmp m e (f.mag c).1 (f.mag c).2 == .eq
      | none => false
    let high := match low with | some c => c + 1 | none => least
    -- twice x against the sum of the two neighbours
    let mid := match low with
      | none => magCmp (2 * m) e (f.mag high).1 (f.mag high).2
      | some c =>
        let s := exactSum false (f.mag c).1 (f.mag c).2 false (f.mag high).1 (f.mag high).2
        magCmp (2 * m) e s.1.natAbs s.2
    let lowEven := match low with | none => true | some c => decide (c % 2 = 0)
    let up : Bool := match rm with
      | .rne => mid == .gt || (mid == .eq && !lowEven)
      | .rtz => false
      | .rdn => neg
      | .rup => !neg
    let pick : Option Nat := if exact || !up then low else some high
    match pick with
    | none => (0, fUF ||| fNX)
    | some c => if f.top < c then (sg + f.top, fOF ||| fNX) else (sg + c, if exact then 0#5 else fNX)

/-- Round(x, T2, rm) (R253). -/
def t2round (rm : Rm) (neg : Bool) (m : Nat) (e : Int) : FRes :=
  let one := if neg then 3 else 1
  if m = 0 then (0, 0#5)
  else match magCmp m e 1 0 with
    | .gt => (one, fOF ||| fNX)
    | .eq => (one, 0#5)
    | .lt =>
      let up : Bool := match rm with
        | .rne => magCmp m e 1 (-1) == .gt
        | .rtz => false
        | .rdn => neg
        | .rup => !neg
      if up then (one, fNX) else (0, fUF ||| fNX)

/-! ## Conversions (R254, Table 9.6, Table 11.4) -/

/-- Integer to FP32 or BF16. -/
def Fmt.ofInt (f : Fmt) (rm : Rm) (sat : Bool) (x : Int) : FRes := f.round rm sat (decide (x < 0)) x.natAbs 0

/-- FP32 or BF16 to an integer of n bits: the value and flags (Table 9.6). -/
def Fmt.toInt (f : Fmt) (rm : Rm) (n : Nat) (signed : Bool) (a : Nat) : Int × BitVec 5 :=
  let lim (x : Int) : Int := if signed then satInt n x else satNat n x
  match f.dec a with
  | .nan _ => (0, fNV)
  | .inf neg => (lim (if neg then -(2 ^ 70 : Nat) else (2 ^ 70 : Nat)), fNV)
  | .fin neg m e =>
    let r := roundTo rm neg m e 0
    let x : Int := if neg then -(r.1 : Int) else r.1
    if lim x = x then (x, if r.2 then fNX else 0#5) else (lim x, fNV)

/-- Between FP32 and BF16 (Table 9.6). -/
def Fmt.convert (src dst : Fmt) (rm : Rm) (sat : Bool) (a : Nat) : FRes :=
  match src.dec a with
  | .nan x => (dst.nan, nvOf [.nan x])
  | .inf n => (dst.sgn n + dst.inf, 0#5)
  | .fin n m e => dst.round rm sat n m e

/-- A target of a narrowing conversion. -/
inductive NarrowT where
  | fmt (f : Narrow)
  | t2
deriving DecidableEq, Repr, Inhabited

/-- Special inputs of a narrowing conversion (Table 9.5). -/
def NarrowT.special : NarrowT → Fv → FRes
  | .fmt f, .nan sg =>
    if f.signed && !f.negMin then (2 ^ (f.ebits + f.mbits), if sg then fNV else 0#5) else (0, fNV)
  | .fmt f, .inf neg => (if neg then (if f.signed then 2 ^ (f.ebits + f.mbits) + f.top else 0) else f.top, fNV)
  | .fmt _, .fin _ _ _ => (0, fNV)
  | .t2, .inf neg => (if neg then 3 else 1, fNV)
  | .t2, _ => (0, fNV)

/-- The value of an S8 scale code other than zero (R251). -/
def s8val (c : Nat) : Nat × Int := s8.mag (c % 256)

/-- FP32 into a narrow format with a scale: the quotient is exact, held as a quotient with a sticky last bit, below every
candidate's and midpoint's grid (Table 9.6, R252). -/
def narrowOf (t : NarrowT) (rm : Rm) (scale a : Nat) : FRes :=
  if scale % 256 = 0 then (0, fNV)
  else match fp32.dec a with
    | .fin neg m e =>
      let s := s8val scale
      let q := stickyDiv m s.1
      match t with
      | .fmt f => f.round rm neg q.1 (e - s.2 + q.2)
      | .t2 => t2round rm neg q.1 (e - s.2 + q.2)
    | v => t.special v

/-- FP32 to S8 (Table 9.6, R253). -/
def s8Of (rm : Rm) (a : Nat) : FRes :=
  match fp32.dec a with
  | .fin neg m e => if neg && decide (m ≠ 0) then (0, fNV) else s8.round rm false m e
  | v => NarrowT.special (.fmt s8) v

/-- S8 to FP32 (Table 9.6). -/
def ofS8 (c : Nat) : FRes :=
  if c % 256 = 0 then (0, 0#5) else fp32.round .rne false false (s8val c).1 (s8val c).2

/-- A narrow code to FP32 or BF16 with a scale (Table 9.6). -/
def widen (f : Fmt) (t : NarrowT) (scale c : Nat) : FRes :=
  let fl := match t with | .t2 => if c % 4 = 2 then fNV else 0#5 | .fmt _ => 0#5
  let v := match t with | .fmt n => n.dec c | .t2 => t2dec c
  if scale % 256 = 0 then (0, fl)
  else match v with
    | .nan _ => (f.nan, fl)
    | .inf _ => (f.nan, fl)
    | .fin neg m e =>
      if m = 0 then (0, fl)
      else
        let s := s8val scale
        ((f.round .rne false neg (m * s.1) (e + s.2)).1, fl)

/-! ## Integers (R241, R242, R307, R308) -/

/-- DIV truncated, at the edges of Table 9.1, on n bits. -/
def divS (n : Nat) (a b : BitVec n) : BitVec n := if b = 0 then BitVec.ofInt n (-1) else BitVec.ofInt n (a.toInt.tdiv b.toInt)

/-- DIVU. -/
def divU (n : Nat) (a b : BitVec n) : BitVec n := if b = 0 then BitVec.ofInt n (-1) else BitVec.ofNat n (a.toNat / b.toNat)

/-- REM: the sign of the dividend. -/
def remS (n : Nat) (a b : BitVec n) : BitVec n := if b = 0 then a else BitVec.ofInt n (a.toInt.tmod b.toInt)

/-- REMU. -/
def remU (n : Nat) (a b : BitVec n) : BitVec n := if b = 0 then a else BitVec.ofNat n (a.toNat % b.toNat)

/-- An exact integer result at a width: wrapped, or clamped to the signed range under SAT (R241, R308). -/
def intRes (sat : Bool) (n : Nat) (x : Int) : BitVec n := BitVec.ofInt n (if sat then satInt n x else x)

/-- Leading zero bits of an n-bit number. -/
def clzN (n x : Nat) : Nat := if x = 0 then n else n - 1 - Nat.log2 x

/-- Trailing zero bits of an n-bit number. -/
def ctzN (n x : Nat) : Nat := ((List.range n).find? (fun i => x.testBit i)).getD n

/-! ## Atomics of the FP kind (R261, R326) -/

/-- AFADD's new value: rounded to nearest, a NaN canonical, no flag (Table 11.6). -/
def afadd (old x : Nat) : Nat := (fp32.add .rne false old x).1

/-- AFMAXABS's new value (R261). -/
def afmaxabs (old x : Nat) : Nat :=
  let o := fp32.dec old
  if o.isNan then old
  else if (fp32.dec x).isNan then fp32.nan
  else
    let ax := x % 2 ^ 31
    if o.neg || decide (old < ax) then ax else old

end Sys2Proof.Machine
end

