-- ==== Sys2Proof/Machine/Crypto.lean ====
section
/-! DEFINITION. The functions that the spec names by their standards: the CRCs of R49 and R51, SHA-384, HMAC and HKDF (R30, R120), AES-256-GCM
(R119), and ECDSA and ECDH over brainpoolP384r1 (R6).  The spec gives the CRCs' polynomials; the other definitions are those of FIPS 180-4,
RFC 2104, RFC 5869, FIPS 197, SP 800-38D, FIPS 186-5 and RFC 5639 (log entry 7). -/

namespace Sys2Proof.Machine.Crypto

/-! ## CRCs (R49, R51) -/

/-- The bits of a byte list in the order in which a CRC takes them: of each byte the least or the most significant first. -/
def crcBits (lsbFirst : Bool) (l : List Byte) : List Bool :=
  l.flatMap (fun b => (List.range 8).map (fun i => b.toNat.testBit (if lsbFirst then i else 7 - i)))

/-- One step of a 32-bit CRC with a polynomial. -/
def crcStep (poly r : BitVec 32) (b : Bool) : BitVec 32 :=
  if r.toNat.testBit 31 != b then (r <<< 1) ^^^ poly else r <<< 1

/-- A 32-bit CRC with initial value and final XOR 0xFFFF_FFFF; the register's bits are read out in the order in which bits went in. -/
def crc32 (poly : BitVec 32) (lsbFirst : Bool) (l : List Byte) : BitVec 32 :=
  let r := (crcBits lsbFirst l).foldl (crcStep poly) 0xFFFFFFFF#32
  (if lsbFirst then r.reverse else r) ^^^ 0xFFFFFFFF#32

/-! ## Byte strings, most significant byte first -/

/-- The `n` bytes of a number, the most significant first (R6). -/
def bytesBE (n x : Nat) : List Byte := (bytesLE n x).reverse

/-- The number in a byte string, the most significant byte first (R6). -/
def natBE (l : List Byte) : Nat := ofBytes l.reverse

/-- Cut a list into blocks of `n`; the first argument bounds how many. -/
def blocks {α : Type} : Nat → Nat → List α → List (List α)
  | 0, _, _ => []
  | _, _, [] => []
  | k + 1, n, l => l.take n :: blocks k n (l.drop n)

/-! ## SHA-384 (FIPS 180-4) -/

/-- The first 80 primes. -/
def primes80 : List Nat :=
  ((List.range 410).filter (fun n => decide (2 ≤ n) && (List.range 21).all (fun d => decide (d < 2) || decide (n ≤ d) || decide (n % d ≠ 0)))).take 80

/-- The largest number below 2^k whose e-th power is at most x. -/
def rootBits (e x : Nat) : Nat → Nat → Nat
  | 0, r => r
  | k + 1, r => if (r + 2 ^ k) ^ e ≤ x then rootBits e x k (r + 2 ^ k) else rootBits e x k r

/-- The 80 round constants: the first 64 bits of the fractional parts of the cube roots of the first 80 primes. -/
def shaK : List Word := primes80.map (fun p => BitVec.ofNat 64 (rootBits 3 (p * 2 ^ 192) 68 0))

/-- The initial hash value of SHA-384: the first 64 bits of the fractional parts of the square roots of the 9th to 16th primes. -/
def shaInit : List Word := ((primes80.drop 8).take 8).map (fun p => BitVec.ofNat 64 (rootBits 2 (p * 2 ^ 128) 68 0))

/-- The message schedule, extended to 80 words; the list is kept in order. -/
def shaSchedule : Nat → List Word → List Word
  | 0, w => w
  | k + 1, w =>
    let n := w.length
    let x := w.getD (n - 15) 0#64
    let y := w.getD (n - 2) 0#64
    let s0 := x.rotateRight 1 ^^^ x.rotateRight 8 ^^^ (x >>> 7)
    let s1 := y.rotateRight 19 ^^^ y.rotateRight 61 ^^^ (y >>> 6)
    shaSchedule k (w ++ [w.getD (n - 16) 0#64 + s0 + w.getD (n - 7) 0#64 + s1])

/-- One round on the eight working variables. -/
def shaRound (v : List Word) (kw : Word × Word) : List Word :=
  match v with
  | [a, b, c, d, e, f, g, h] =>
    let s1 := e.rotateRight 14 ^^^ e.rotateRight 18 ^^^ e.rotateRight 41
    let t1 := h + s1 + ((e &&& f) ^^^ (~~~e &&& g)) + kw.1 + kw.2
    let s0 := a.rotateRight 28 ^^^ a.rotateRight 34 ^^^ a.rotateRight 39
    let t2 := s0 + ((a &&& b) ^^^ (a &&& c) ^^^ (b &&& c))
    [t1 + t2, a, b, c, d + t1, e, f, g]
  | l => l

/-- One block of 128 bytes. -/
def shaBlock (h : List Word) (b : List Byte) : List Word :=
  let w := shaSchedule 64 ((List.range 16).map (fun i => BitVec.ofNat 64 (natBE ((b.drop (8 * i)).take 8))))
  List.zipWith (· + ·) h ((List.zip shaK w).foldl shaRound h)

/-- The padded message. -/
def shaPad (m : List Byte) : List Byte :=
  m ++ [0x80#8] ++ List.replicate ((239 - m.length % 128) % 128) 0#8 ++ bytesBE 16 (8 * m.length)

/-- The 48 bytes of SHA-384 of a message. -/
def sha384Bytes (m : List Byte) : List Byte :=
  let p := shaPad m
  ((blocks (p.length / 128) 128 p).foldl shaBlock shaInit).flatMap (fun w => bytesBE 8 w.toNat) |>.take 48

/-- SHA-384 as a number, its first byte the most significant. -/
def sha384 (m : List Byte) : BitVec 384 := BitVec.ofNat 384 (natBE (sha384Bytes m))

/-! ## HMAC and HKDF with SHA-384 (RFC 2104, RFC 5869) -/

/-- HMAC with SHA-384; a key beyond 128 bytes is hashed first. -/
def hmac (key m : List Byte) : List Byte :=
  let k0 := if 128 < key.length then sha384Bytes key else key
  let k := k0 ++ List.replicate (128 - k0.length) 0#8
  sha384Bytes (k.map (· ^^^ 0x5C#8) ++ sha384Bytes (k.map (· ^^^ 0x36#8) ++ m))

/-- HKDF with SHA-384 for at most 48 bytes. -/
def hkdf (salt secret info : List Byte) (n : Nat) : List Byte := (hmac (hmac salt secret) (info ++ [1#8])).take n

/-! ## AES-256 (FIPS 197) -/

/-- Doubling in GF(256) with the polynomial 0x11B. -/
def xtime (x : Byte) : Byte := if x.toNat.testBit 7 then (x <<< 1) ^^^ 0x1B#8 else x <<< 1

/-- The product in GF(256) with the polynomial 0x11B, over the bits of the first factor. -/
def gmul (x y : Byte) : Byte :=
  ((List.range 8).foldl (fun (a : Byte × Byte) i => (if x.toNat.testBit i then a.1 ^^^ a.2 else a.1, xtime a.2)) (0#8, y)).1

/-- The multiplicative inverse, x^254; 0 for 0. -/
def ginv (x : Byte) : Byte :=
  ((List.range 7).foldl (fun (a : Byte × Byte) _ => let s := gmul a.2 a.2; (gmul a.1 s, s)) (1#8, x)).1

/-- SubBytes of one byte. -/
def sbox (x : Byte) : Byte :=
  let i := ginv x
  i ^^^ i.rotateLeft 1 ^^^ i.rotateLeft 2 ^^^ i.rotateLeft 3 ^^^ i.rotateLeft 4 ^^^ 0x63#8

/-- The key schedule of AES-256: words of four bytes, extended one at a time from the eight of the key. -/
def aesExpand : Nat → Byte → List (List Byte) → List (List Byte)
  | 0, _, w => w
  | k + 1, rcon, w =>
    let i := w.length
    let t := w.getD (i - 1) []
    let u : List Byte :=
      if i % 8 = 0 then List.zipWith (· ^^^ ·) ((t.drop 1 ++ t.take 1).map sbox) [rcon, 0#8, 0#8, 0#8]
      else if i % 8 = 4 then t.map sbox else t
    aesExpand k (if i % 8 = 0 then xtime rcon else rcon) (w ++ [List.zipWith (· ^^^ ·) (w.getD (i - 8) []) u])

/-- The 15 round keys of a 32-byte key. -/
def aesKeys (key : List Byte) : List (List Byte) := blocks 15 16 (aesExpand 52 1#8 (blocks 8 4 key)).flatten

/-- ShiftRows: byte r of column c comes from column c + r. -/
def shiftRows (s : List Byte) : List Byte := (List.range 16).map (fun i => s.getD ((i + 4 * (i % 4)) % 16) 0#8)

/-- MixColumns. -/
def mixColumns (s : List Byte) : List Byte :=
  (List.range 16).map (fun i =>
    let c := i / 4 * 4
    let at_ (k : Nat) : Byte := s.getD (c + (i + k) % 4) 0#8
    gmul 2#8 (at_ 0) ^^^ gmul 3#8 (at_ 1) ^^^ at_ 2 ^^^ at_ 3)

/-- AES-256 of one block. -/
def aes (keys : List (List Byte)) (b : List Byte) : List Byte :=
  let s0 := List.zipWith (· ^^^ ·) b (keys.getD 0 [])
  let s1 := ((keys.drop 1).take 13).foldl (fun s k => List.zipWith (· ^^^ ·) (mixColumns (shiftRows (s.map sbox))) k) s0
  List.zipWith (· ^^^ ·) (shiftRows (s1.map sbox)) (keys.getD 14 [])

/-! ## Galois/Counter Mode (SP 800-38D) -/

/-- The product in GF(2^128) of GCM; bit 127 of a number is the coefficient of x^0. -/
def ghashMul (x y : BitVec 128) : BitVec 128 :=
  ((List.range 128).foldl (fun (a : BitVec 128 × BitVec 128) i =>
    (if x.toNat.testBit (127 - i) then a.1 ^^^ a.2 else a.1,
     if a.2.toNat.testBit 0 then (a.2 >>> 1) ^^^ (0xE1#128 <<< 120) else a.2 >>> 1)) (0#128, y)).1

/-- A byte string padded with zeros to whole blocks. -/
def padBlock (l : List Byte) : List Byte := l ++ List.replicate ((16 - l.length % 16) % 16) 0#8

/-- GHASH of associated data and ciphertext. -/
def ghash (h : BitVec 128) (ad c : List Byte) : BitVec 128 :=
  let l := padBlock ad ++ padBlock c ++ bytesBE 8 (8 * ad.length) ++ bytesBE 8 (8 * c.length)
  (blocks (l.length / 16) 16 l).foldl (fun y b => ghashMul (y ^^^ BitVec.ofNat 128 (natBE b)) h) 0#128

/-- The key stream from counter 2 on, over a text (its own inverse). -/
def gcmText (keys : List (List Byte)) (nonce text : List Byte) : List Byte :=
  List.zipWith (· ^^^ ·) text ((List.range ((text.length + 15) / 16)).flatMap (fun i => aes keys (nonce ++ bytesBE 4 (i + 2))))

/-- The 16-byte tag. -/
def gcmTag (keys : List (List Byte)) (nonce ad c : List Byte) : List Byte :=
  let h : BitVec 128 := BitVec.ofNat 128 (natBE (aes keys (List.replicate 16 0#8)))
  List.zipWith (· ^^^ ·) (bytesBE 16 (ghash h ad c).toNat) (aes keys (nonce ++ bytesBE 4 1))

/-- Authenticated encryption: ciphertext and tag. -/
def gcmSeal (key nonce ad text : List Byte) : List Byte × List Byte :=
  let keys := aesKeys key
  let c := gcmText keys nonce text
  (c, gcmTag keys nonce ad c)

/-- Authenticated decryption: the text, or none where the tag does not verify. -/
def gcmOpen (key nonce ad c tag : List Byte) : Option (List Byte) :=
  let keys := aesKeys key
  if gcmTag keys nonce ad c = tag then some (gcmText keys nonce c) else none

/-! ## brainpoolP384r1 (RFC 5639) -/

/-- The field's prime. -/
def bpP : Nat := 0x8CB91E82A3386D280F5D6F7E50E641DF152F7109ED5456B412B1DA197FB71123ACD3A729901D1A71874700133107EC53

/-- The coefficient A. -/
def bpA : Nat := 0x7BC382C63D8C150C3C72080ACE05AFA0C2BEA28E4FB22787139165EFBA91F90F8AA5814A503AD4EB04A8C7DD22CE2826

/-- The coefficient B. -/
def bpB : Nat := 0x04A8C7DD22CE28268B39B55416F0447C2FB77DE107DCD2A62E880EA53EEB62D57CB4390295DBC9943AB78696FA504C11

/-- The order of the base point. -/
def bpQ : Nat := 0x8CB91E82A3386D280F5D6F7E50E641DF152F7109ED5456B31F166E6CAC0425A7CF3AB6AF6B7FC3103B883202E9046565

/-- The base point. -/
def bpG : Nat × Nat :=
  (0x1D1C64F068CF45FFA2A63A81B7C13F6B8847A3E77EF14FE3DB7FCAFE0CBD10E8E826E03436D646AAEF87B2E247D4AF1E,
   0x8ABE1D7520F9C2A45CB1EB8E95CFD55262B70B29FEEC5864E19C054FF99129280E4646217791811142820341263C5315)

/-- x^e modulo m, over the low k bits of e from the top. -/
def powMod (m x e : Nat) : Nat → Nat → Nat
  | 0, acc => acc
  | k + 1, acc => let sq := acc * acc % m; powMod m x e k (if e.testBit k then sq * x % m else sq)

/-- The inverse modulo a 384-bit prime, by Fermat's theorem. -/
def invMod (m x : Nat) : Nat := powMod m (x % m) (m - 2) 384 1

/-- A point of the curve, none the point at infinity. -/
abbrev Point := Option (Nat × Nat)

/-- Whether coordinates are below p and satisfy the curve's equation. -/
def onCurve (x y : Nat) : Bool := decide (x < bpP) && decide (y < bpP) && decide (y * y % bpP = (x * x * x + bpA * x + bpB) % bpP)

/-- The sum of two points. -/
def padd (a b : Point) : Point :=
  match a, b with
  | none, b => b
  | a, none => a
  | some (x1, y1), some (x2, y2) =>
    if x1 = x2 ∧ (y1 + y2) % bpP = 0 then none
    else
      let l := if x1 = x2 then (3 * x1 * x1 + bpA) * invMod bpP (2 * y1) % bpP
        else (y2 + bpP - y1) * invMod bpP (x2 + bpP - x1) % bpP
      let x3 := (l * l + 2 * bpP - x1 - x2) % bpP
      some (x3, (l * (x1 + bpP - x3) + bpP - y1) % bpP)

/-- n times a point, over the low k bits of n from the top. -/
def pmul (n : Nat) (g : Point) : Nat → Point → Point
  | 0, acc => acc
  | k + 1, acc => let d := padd acc acc; pmul n g k (if n.testBit k then padd d g else d)

/-- n times a point. -/
def mulPoint (n : Nat) (g : Point) : Point := pmul n g 384 none

/-- The point of a 97-byte public key, most significant byte first: none where it does not begin with 0x04 or is no point of this curve,
so that a key on any other curve is refused (R6). -/
def decodePoint (k : BitVec 776) : Option (Nat × Nat) :=
  let x := k.toNat / 2 ^ 384 % 2 ^ 384
  let y := k.toNat % 2 ^ 384
  if k.toNat / 2 ^ 768 = 4 ∧ onCurve x y = true then some (x, y) else none

/-- The 97-byte public key of a point (R6). -/
def encodePoint (p : Nat × Nat) : BitVec 776 := BitVec.ofNat 776 (4 * 2 ^ 768 + p.1 * 2 ^ 384 + p.2)

/-- The 97 bytes of a public key as they travel (R6). -/
def keyBytes (k : BitVec 776) : List Byte := bytesBE 97 k.toNat

/-- ECDSA with SHA-384: r and s, each 48 bytes, most significant first (R6). -/
def ecdsaSign (d k : Nat) (m : List Byte) : List Byte :=
  let z := (sha384 m).toNat
  match mulPoint (k % bpQ) (some bpG) with
  | none => List.replicate 96 0#8
  | some (x, _) =>
    let r := x % bpQ
    bytesBE 48 r ++ bytesBE 48 (invMod bpQ k * (z + r * d) % bpQ)

/-- Whether a signature of 96 bytes over a message verifies under a public key (R6). -/
def ecdsaVerify (key : BitVec 776) (m sig : List Byte) : Bool :=
  let r := natBE (sig.take 48)
  let s := natBE (sig.drop 48)
  match decodePoint key with
  | none => false
  | some q =>
    if sig.length ≠ 96 ∨ r = 0 ∨ bpQ ≤ r ∨ s = 0 ∨ bpQ ≤ s then false
    else
      let w := invMod bpQ s
      match padd (mulPoint ((sha384 m).toNat * w % bpQ) (some bpG)) (mulPoint (r * w % bpQ) (some q)) with
      | none => false
      | some (x, _) => decide (x % bpQ = r)

/-- The public key of a private key. -/
def publicKey (d : Nat) : BitVec 776 := match mulPoint (d % bpQ) (some bpG) with | some p => encodePoint p | none => 0#776

/-- The ECDH shared secret: the x coordinate in 48 bytes; none for a key that is no point of the curve (R6, R120). -/
def ecdh (d : Nat) (key : BitVec 776) : Option (List Byte) :=
  match decodePoint key with
  | none => none
  | some q => (mulPoint (d % bpQ) (some q)).map (fun p => bytesBE 48 p.1)

end Sys2Proof.Machine.Crypto
end

