-- ==== Sys2Proof/Config.lean ====
section
/-! DEFINITION. What an implementation fixes and the spec leaves open: the free values, and functions the spec names but does
not spell out.  Nothing in Lean can evaluate an opaque constant of this file, so a statement that is proved holds whatever
it is. -/

namespace Sys2Proof.Config

/-- A free value: the n-th value that the spec calls undefined (R187, R194, R232, R236, R385, R416). -/
opaque freeWord : Nat → Word

/-- Whether the CRCs of R49 and R51 take each byte's least significant bit first: the spec gives polynomial, initial value and final XOR
and not the order of the bits. -/
opaque lsbFirst : Bool

/-- The private half of the device identity key, derived in the boot ROM from the identity seed; the derivation is not given (R28). -/
opaque identityKey : BitVec 384 → Nat

/-- Melran's public key under which identity certificates are signed (R28). -/
opaque melranKey : BitVec 776

/-- Melran's signature in the identity certificate of a device with that seed (R28). -/
opaque certSig : BitVec 384 → List Byte

/-- The n-th 32-byte nonce that the device draws (R42, R120). -/
opaque nonce : Nat → BitVec 256

/-- The n-th secret number that the device draws: an ephemeral private key, or the random number of an ECDSA signature (R6, R120). -/
opaque secret : Nat → Nat

/-- The virtual-channel set that Asnor assigns to a route at a router, by router and output port (R37). -/
opaque vcSet : Nat → Nat → Bool

/-- The hash by which a router picks one of the eligible ports (R37). -/
opaque routeHash : BitVec 12 → Nat → Nat

/-- Where the k-th reserve row of a stack lies, as bank and row (R58, R87; its place among the reserved offsets is not given). -/
opaque reserveRow : Nat → Nat × Nat

/-- The body of a COMMAND after its opcode, by opcode, for the commands whose body has no layout in the spec (all but LAUNCH and GROUP): the
command, or none where the body is malformed, a reserved byte is not zero or LEN disagrees with the fields (R126, Table 5.2). -/
opaque cmdBody : Nat → List Byte → Option Cmd

/-- The physical address where the supervisor builds a tenant's page tables, table 0 its root (R201; the choice of frames is
the supervisor's, R430). -/
def tableBase (tenant : Nat) : Nat := 31 * 2 ^ 36 + 0xD00000000 + tenant * 2 ^ 26

/-- The physical address of a tenant's trap area (R135, R136). -/
def trapAreaPa (tenant : Nat) : Nat := 31 * 2 ^ 36 + 0xE00000000 + tenant * 2 ^ 16

/-- The virtual address of a tenant's trap area, which the OPEN reply returns (R136). -/
def trapAreaVa : Word := 0x00007FFFFFF00000#64

/-- Pages that the supervisor takes for a window beyond its length where they are free, as destinations of migrations (R209, R430; the choice
is the supervisor's). -/
def spareFrames : Nat := 16

/-- The physical address of the supervisor's own root table (R39, R81). -/
def supervisorRoot : Nat := 31 * 2 ^ 36 + 0xE10000000

end Sys2Proof.Config
end

