-- ==== Sys2Proof/Machine/Store.lean ====
section
/-! DEFINITION. Sparse maps from Nat with a default, kept in one canonical form: keys strictly rising, no entry equal
to the default.  Memory, register files and every numbered table of the machine are of this form, so that equal
contents are equal data. -/

namespace Sys2Proof.Machine

/-- A sparse map: what is not listed reads as the default given to `look`. -/
abbrev SMap (α : Type) := List (Nat × α)

namespace SMap

/-- The value at `k`, or the default `d` where nothing is listed. -/
def look {α : Type} (d : α) : SMap α → Nat → α
  | [], _ => d
  | (j, x) :: t, k => if j = k then x else look d t k

/-- The map without any entry at `k`. -/
def drop {α : Type} (m : SMap α) (k : Nat) : SMap α := m.filter (fun e => e.1 != k)

/-- Write `v` at `k`, keeping the canonical form: writing the default removes the entry. -/
def put {α : Type} [DecidableEq α] (d : α) : SMap α → Nat → α → SMap α
  | [], k, v => if v = d then [] else [(k, v)]
  | (j, x) :: t, k, v =>
    if j < k then (j, x) :: put d t k v
    else if v = d then drop ((j, x) :: t) k
    else (k, v) :: drop ((j, x) :: t) k

/-- The canonical form: keys strictly rising and no entry equal to the default. -/
def wf {α : Type} [DecidableEq α] (d : α) : SMap α → Bool
  | [] => true
  | [(_, x)] => decide (x ≠ d)
  | (j, x) :: (k, y) :: t => decide (x ≠ d) && decide (j < k) && wf d ((k, y) :: t)

/-- Change the value at `k` by `f`. -/
def alter {α : Type} [DecidableEq α] (d : α) (m : SMap α) (k : Nat) (f : α → α) : SMap α :=
  put d m k (f (look d m k))

end SMap

/-- Append at the end of a queue (oldest first). -/
def enq {α : Type} (q : List α) (x : α) : List α := q ++ [x]

/-- A list without the entries that meet the test. -/
def without {α : Type} (q : List α) (p : α → Bool) : List α := q.filter (fun x => !p x)

/-- A sorted insertion of a number into a list without repeats. -/
def insNat : List Nat → Nat → List Nat
  | [], k => [k]
  | j :: t, k => if k < j then k :: j :: t else if k = j then j :: t else j :: insNat t k

end Sys2Proof.Machine
end

