-- ==== Sys2Proof/Machine/State.lean ====
section
/-! DEFINITION. The state of a Syngor S9: everything the spec gives the machine, as plain data; the faults and refusals of a
step; and the state right after reset.  A docstring in this file names the rule, the width and, after 'Reset', the value
after reset where it is not zero, empty or none. -/

namespace Sys2Proof.Machine

/-! ## Contexts -/

/-- One issued hint word of the pending hint state (R275, R278). -/
structure Hint where
  /-- Kind, 0 to 4 (R275; 3 bits). -/
  kind : BitVec 3
  /-- Payload (R275; 22 bits). -/
  payload : BitVec 22
  /-- Address of the hint word (R278; 64 bits). -/
  addr : Word
deriving DecidableEq, Repr, Inhabited

/-- The part of a bank that a spill record holds (R160, R184, R271). -/
structure Regs where
  /-- Scalar registers s0 to s31; s0 is never listed (R262; 32 x 64 bits). -/
  sregs : SMap Word := []
  /-- Vector registers v0 to v31 (R265; 32 x 1,024 bits). -/
  vregs : SMap VReg := []
  /-- Program counter, always a multiple of 4 (R184, R281; 64 bits). -/
  pc : Word := 0#64
  /-- Vector length (R266, R268; 14 bits of a 64-bit register). -/
  vl : Word := 0#64
  /-- Vector type (R266, R268; 8 bits of a 64-bit register). -/
  vtype : Word := 0#64
  /-- First element to process (R204, R268; 14 bits of a 64-bit register). -/
  vstart : Word := 0#64
  /-- Loop counter lc0 (R317; 64 bits). -/
  lc0 : Word := 0#64
  /-- Loop counter lc1 (R317; 64 bits). -/
  lc1 : Word := 0#64
  /-- Hidden start address of loop 0 (R317; 64 bits). -/
  lstart0 : Word := 0#64
  /-- Hidden end address of loop 0 (R317; 64 bits). -/
  lend0 : Word := 0#64
  /-- Hidden start address of loop 1 (R317; 64 bits). -/
  lstart1 : Word := 0#64
  /-- Hidden end address of loop 1 (R317; 64 bits). -/
  lend1 : Word := 0#64
  /-- sr.status.FFLAGS: NV, DZ, OF, UF, NX from bit 4 down (R245, R268; 5 bits). -/
  fflags : BitVec 5 := 0#5
  /-- sr.cause (R268, R283; 8 bits of a 64-bit register). -/
  cause : Word := 0#64
  /-- sr.tval (R267, R283; 64 bits). -/
  tval : Word := 0#64
  /-- sr.epc (R267, R278; 64 bits). -/
  epc : Word := 0#64
  /-- sr.task (R139; 64 bits). -/
  task : Word := 0#64
  /-- sr.dom, the innermost domain's id (R170; 64 bits, the upper 32 zero in task mode). -/
  dom : Word := 0#64
  /-- sr.status.DEPTH, 0 to 8 (R268; 4 bits). -/
  depth : Nat := 0
  /-- sr.engretry (R268; 3 bits). -/
  engretry : BitVec 3 := 0#3
  /-- Matrix status word (R381; 8 bits). -/
  mstat : BitVec 8 := 0#8
  /-- Pending hint state, oldest first (R278; up to five words). -/
  hints : List Hint := []
  /-- Live-children count (R397). -/
  children : Nat := 0
  /-- Entry-wise maximum of the vectors that children added at TEXIT since the last TWAIT (R397; 16 x 32 bits). -/
  joinVec : SMap (BitVec 32) := []
deriving DecidableEq, Repr, Inhabited

/-- What a task carries from its creation (R139, R145). -/
structure TaskAttr where
  /-- Tenant (R139; 6 bits). -/
  tenant : Nat := 0
  /-- Launch id (R129, R139; 63 bits). -/
  launch : Nat := 0
  /-- Class: 0 latency-critical, 1 normal, 2 harvest (R139; 2 bits). -/
  cls : Nat := 1
  /-- Priority 0 to 3 (R139; 2 bits). -/
  prio : Nat := 0
  /-- Placement mask (R139; 16 bits). -/
  place : BitVec 16 := 0xFFFF#16
  /-- Whether the launch is a cohort launch (R132; 1 bit). -/
  cohort : Bool := false
  /-- Identity as sr.task reads it (R139; 64 bits). -/
  task : Word := 0#64
  /-- Entry address (R145; 64 bits). -/
  entry : Word := 0#64
  /-- a0 to a7 (R145; 8 x 64 bits). -/
  args : List Word := []
  /-- Innermost enclosing domain at creation, 0 for none (R139, R172; 32 bits). -/
  dom : BitVec 32 := 0#32
  /-- The spawning task's sr.task, for a spawned task (R397). -/
  parent : Option Word := none
  /-- Stores of the spawner not yet acknowledged: the release of R153 waits for them. -/
  needs : List Nat := []
  /-- Place in the age order of its core's deque and overflow ring: the model's own number (R150). -/
  pushed : Nat := 0
  /-- The releasing die's vector, merged at bind (Table 8.2; 16 x 32 bits). -/
  vec : SMap (BitVec 32) := []
  /-- The cycle from which the entry is eligible (R159; 64 bits). -/
  since : Nat := 0
  /-- Whether the entry has already caused a pre-emption (R159; 1 bit). -/
  preempted : Bool := false
deriving DecidableEq, Repr, Inhabited

/-- A state of Table 6.1 (R140); halted is a supervisor core stopped by HALT (R332). -/
inductive CtxState where
  | idle | run | wait | trapped | parked | spilled | halted
deriving DecidableEq, Repr, Inhabited

/-- The condition a context out of the rotation waits on; when it may hold again the instruction issues again
(R160, R182). -/
inductive Why where
  /-- A basin word's full/empty bit, by its 8-byte word (R321). -/
  | basinWord (word : Nat)
  /-- The context's monitor (R323, R331). -/
  | monitor
  /-- An arrival counter, by location (R395). -/
  | counter (loc : Nat)
  /-- Acknowledgements of the context's own stores (R183, R217, R227, R231). -/
  | stores
  /-- A scoreboard entry, or the end of a conflicting one (R189, R190). -/
  | scoreboard
  /-- A place in the channel's queue of copies (R382). -/
  | channel
  /-- Direct children (R397). -/
  | children
  /-- A domain's members or stitch acknowledgements (R174). -/
  | domain
  /-- A free domain record on the die (R170). -/
  | domainRecord
  /-- A free entry of the overflow ring (R150). -/
  | overflowRing
  /-- A free waiter-pool entry on the die (R156). -/
  | waiterPool (die : Nat)
  /-- A weir record, in a QWAIT with that word (R417). -/
  | record (handle tag : BitVec 32) (word : IWord)
  /-- A weir verdict, in a QPOST with that word (R416). -/
  | verdict (handle : BitVec 32) (word : IWord)
  /-- The answer of a root on another package, for a rank's QRESYNC into a register (R418). -/
  | resync (handle : BitVec 32) (rank : Nat) (d : RegNo) (word : IWord)
  /-- The release of a TEXIT: its stores and the end of its step program (R398). -/
  | texit
  /-- The end of the entries of a LEND's tenant that name a newly lent page (R408). -/
  | lend
  /-- The matrix engine's operation of this context (R375). -/
  | matrix
  /-- A page under migration lock (R211). -/
  | migration
  /-- The home's completion vector or its young entries, for a cross-die read (R220, R222). -/
  | causal
  /-- A supervisor core's WFE: a queued item or the monitor (R331). -/
  | supervisorItem
  /-- A base die: a locked granule, a bank under directed refresh, or a free tag of the requester port (R62, R66, R73). -/
  | baseDie (stack : Nat)
  /-- A line held while its route changes (R38). -/
  | route (line : Nat)
  /-- A stitched sector of a lost stack that is not yet rebuilt (R97). -/
  | rebuild (sector : Nat)
deriving DecidableEq, Repr, Inhabited

/-- What a context in WAIT holds (R140, R182). -/
inductive Wait where
  /-- Not waiting. -/
  | none
  /-- A long operation in flight: the registers as they stand when it completes. -/
  | result (r : Regs)
  /-- A synchronising wait: the instruction at pc issues again. -/
  | retry (w : Why)
  /-- A page walk for an access (R202). -/
  | walk (va : Word)
  /-- A bound child whose spawner's release is not made (R153). -/
  | release (needs : List Nat)
deriving DecidableEq, Repr, Inhabited

/-- An armed monitor (R323). -/
structure Monitor where
  /-- The 128-byte sector: its location divided by 128 (R323). -/
  sector : Nat
  /-- Whether it has fired (R323; 1 bit). -/
  fired : Bool
  /-- The cycle at which an MWAIT or WFE began to wait on it (R323). -/
  since : Option Nat
deriving DecidableEq, Repr, Inhabited

/-- A runahead in progress, with its checkpoint (R205 to R207). -/
structure Runahead where
  /-- The checkpoint (R205). -/
  saved : Regs
  /-- Scalar registers marked invalid, 32 standing for vl (R206; 33 bits). -/
  invS : List Nat
  /-- Vector registers marked invalid (R206; 32 bits). -/
  invV : List Nat
  /-- Candidate pages in the order they arose (R207; up to 16). -/
  pages : List Word
  /-- Candidate pages whose walk found the entry not present or malformed, in order (R207; up to 16). -/
  missing : List Word
  /-- Instructions issued in runahead, 0 to 256 (R207). -/
  count : Nat
  /-- The original faulting address (R207; 64 bits). -/
  va : Word
  /-- Whether the faulting access was a write (R431; 1 bit). -/
  write : Bool
  /-- The word of the faulting instruction (R431; 32 bits). -/
  insn : IWord
  /-- Whether the run has ended and the record waits for the turn (R208; 1 bit). -/
  ended : Bool
deriving DecidableEq, Repr, Inhabited

/-- A context: the registers of its bank, what is reloaded from the tenant record, and its place in the machine's life. -/
structure Ctx where
  /-- The registers of the bank (R184). -/
  r : Regs := {}
  /-- sr.tenant (R268; 6 bits of a 64-bit register). -/
  tenant : Word := 0#64
  /-- sr.heapbase (R200; 64 bits, the low 12 read zero). -/
  heapbase : Word := 0#64
  /-- sr.heaplim (R200; 64 bits, the low 12 read zero). -/
  heaplim : Word := 0#64
  /-- sr.heapoff (R200; 64 bits, the low 12 read zero). -/
  heapoff : Word := 0#64
  /-- The state of Table 6.1 (R140). Reset IDLE. -/
  st : CtxState := .idle
  /-- What a waiting context waits for (R182). -/
  wait : Wait := .none
  /-- The bound task (R139, R145). -/
  bound : Option TaskAttr := none
  /-- The monitor (R323). -/
  monitor : Option Monitor := none
  /-- Own-die stores not yet acknowledged (R216, R217). -/
  pendOwn : Nat := 0
  /-- pend.d (R183; 6 bits). -/
  pendD : Nat := 0
  /-- pend.x (R183; 6 bits). -/
  pendX : Nat := 0
  /-- Traps to be taken at the next instruction boundary: cause and tval (R285, R319, R387). -/
  atBoundary : List (BitVec 8 × Word) := []
  /-- The runahead in progress (R205). -/
  ahead : Option Runahead := none
  /-- The tenant the bank last held (R146). -/
  lastTenant : Option Nat := none
  /-- The cycle of the bind (R159). -/
  boundAt : Nat := 0
  /-- The launch that reserves the bank (R132). -/
  reserved : Option Nat := none
  /-- Whether the turn is lent for the length of this wait by HSCHED (R275, R269; 1 bit). -/
  offered : Bool := false
  /-- The step program's slot on the die, while one is known (R420 to R422). -/
  program : Option Nat := none
  /-- Whether the instruction at pc has completed out of the rotation and its loop end check is to come (R317; 1 bit). -/
  ended : Bool := false
  /-- Pre-empted, for the waiting task named or by its own YIELD; the task named binds first to the freed bank (R159,
  R399). -/
  spill : Option (Option TaskAttr) := none
  /-- The instruction word fetched for this issue slot (R281; 32 bits). -/
  fetched : Option IWord := none
deriving DecidableEq, Repr, Inhabited

/-! ## Memory -/

/-- Memory as a sparse list of cells in canonical form: addresses strictly rising, no byte equal to 0, which every
unlisted location reads as (R34 step 7). -/
abbrev Memory := List Host.Cell

/-- What an unlisted location reads as: R34 step 7 zeroes every memory. -/
def memDefault : Byte := 0#8

/-- The canonical form of memory: addresses strictly rising, no entry equal to what an unlisted address reads as. -/
def Memory.wf (m : Memory) : Bool := SMap.wf memDefault m

/-! ## The core -/

/-- A scoreboard entry (R188): ranges are basin byte intervals. -/
structure SbEntry where
  /-- Its number, given in issue order (R189). -/
  id : Nat
  /-- The context whose command it is (R188). -/
  owner : CtxId
  /-- Read ranges, as start and length (Table 7.3; up to four ranges in all). -/
  reads : List (Nat × Nat)
  /-- Write range (Table 7.3). -/
  write : Option (Nat × Nat)
deriving DecidableEq, Repr, Inhabited

/-- A copy queued or running on a sluice channel (R382 to R387). -/
structure Copy where
  /-- The template's eight words, kept by the copy (R383, R384). -/
  words : List Word
  /-- The repeat count, 1 to 65,536 (R383). -/
  rep : Nat
  /-- The copy number (R382; 64 bits). -/
  number : Word
  /-- The issuing context (R387). -/
  owner : CtxId
  /-- The issuing task's identity kept with the copy: sr.task (R387; 64 bits). -/
  task : Word
  /-- The issuing task's launch id (R387; 64 bits). -/
  launch : Nat
  /-- The issuing task's sr.dom (R387; 32 bits). -/
  dom : BitVec 32
  /-- The issuing task's tenant (R387; 6 bits). -/
  tenant : Nat
  /-- The heap triple of the issuing context (R386; 3 x 64 bits). -/
  heap : Word × Word × Word
  /-- Whether the copy has been accepted and runs (R386; 1 bit). -/
  running : Bool
  /-- Whether the copy is suspended on a page (R387; 1 bit). -/
  suspended : Bool
  /-- Elements already moved (R386). -/
  done : Nat
  /-- Payload bytes charged to the counter (R155; 32 bits). -/
  charged : Nat
  /-- The counter's location, once checked (R386). -/
  counterLoc : Nat
  /-- The stamp's location, once checked (R386). -/
  stampLoc : Nat
  /-- Its scoreboard entry (R188). -/
  sb : Option Nat
  /-- Basin words that a context wrote while the copy ran, with their former values (R232). -/
  raced : List (Nat × Word)
deriving DecidableEq, Repr, Inhabited

/-- A sluice channel: SEQ, STATUS and the queue (R192, R382, R388). -/
structure Channel where
  /-- SEQ word (Table 7.4; 64 bits). -/
  seq : Word := 0#64
  /-- STATUS.STATE (R388; 4 bits). -/
  state : Nat := 0
  /-- STATUS.CODE (R388; 8 bits). -/
  code : BitVec 8 := 0#8
  /-- STATUS.OFFSET (R388; 40 bits). -/
  offset : Nat := 0
  /-- Copies queued or running, the head first; STATUS.QUEUED counts them (R382; up to 4). -/
  copies : List Copy := []
deriving DecidableEq, Repr, Inhabited

/-- The kind of an operation of the matrix engine (R373, R380). -/
inductive MKind where
  | mma | mmas | mmat | mzero
deriving DecidableEq, Repr, Inhabited

/-- An operation of the matrix engine, waiting or running (R373 to R378). -/
structure MatrixOp where
  /-- MMA, MMAS, MMAT or MZERO (R373, R380). -/
  kind : MKind
  /-- The issuing context (R375). -/
  owner : CtxId
  /-- Basin offset of A (R373; 20 bits). -/
  a : Nat
  /-- Basin offset of B (R373; 20 bits). -/
  b : Nat
  /-- Basin offset of C (R373; 20 bits). -/
  c : Nat
  /-- The shape word (R370; 64 bits). -/
  shape : Word
  /-- Replays left (R374, R377; 3 bits). -/
  retry : Nat
  /-- Scoreboard entry (R374). -/
  sb : Nat
  /-- Whether the engine has taken it (R375; 1 bit). -/
  started : Bool
  /-- Blocks ended so far (R375, R376). -/
  blocks : Nat
  /-- Staged results: the bytes of C, once computed (R375). -/
  staged : List Byte
  /-- Status flags to be ORed at commit (R381; 8 bits). -/
  flags : BitVec 8
  /-- Whether the operation has yielded and keeps its entry (R378; 1 bit). -/
  yielded : Bool
  /-- Basin words that a context wrote after the operation started, with their former values (R232). -/
  raced : List (Nat × Word)
deriving DecidableEq, Repr, Inhabited

/-- A sector of a core's read-only buffer (R198). -/
structure RoSector where
  /-- Tenant (R322; 6 bits). -/
  tenant : Nat
  /-- Virtual address divided by 128 (R322). -/
  va : Nat
  /-- Location divided by 128 (R198). -/
  sector : Nat
  /-- The buffered 128 bytes (R198). -/
  bytes : List Byte
deriving DecidableEq, Repr, Inhabited

/-- A window of a tenant (Table 7.8, R430). -/
structure Window where
  /-- V (R203; 1 bit). -/
  valid : Bool := false
  /-- PBASE, first physical page (R203; 44 bits). -/
  pbase : Nat := 0
  /-- PEND, page after the last (R203; 44 bits). -/
  pend : Nat := 0
  /-- PKG (R203; 12 bits). -/
  pkg : BitVec 12 := 0#12
  /-- SGRP (R203; 16 bits). -/
  sgrp : BitVec 16 := 0#16
  /-- SHIP (R203; 1 bit). -/
  ship : Bool := false
  /-- STITCH (R203; 1 bit). -/
  stitch : Bool := false
  /-- TIER (R203; 2 bits). -/
  tier : Nat := 0
  /-- X, W, R granted (R203; 3 bits). -/
  perms : BitVec 3 := 0#3
  /-- MASK (R203; 64 bits). -/
  mask : Word := 0#64
  /-- Virtual base, kept with the tenant record (R430; 64 bits). -/
  va : Word := 0#64
  /-- Length in bytes, kept with the tenant record (R430; 64 bits). -/
  length : Nat := 0
  /-- Host handle base of a T2 window (R210; 44 bits). -/
  handle : Nat := 0
  /-- HOME_CORE slice, or none for HASH (R194, R430; 6 bits). -/
  homeCore : Option Nat := none
  /-- The dies whose stacks hold the window's frames, 0 for any, kept with the tenant record (R430; 16 bits). -/
  dies : BitVec 16 := 0#16
  /-- The page size in bits, kept with the tenant record (R201, R210). Reset 12. -/
  bits : Nat := 12
deriving DecidableEq, Repr, Inhabited

/-- A TLB entry: a translation with the window that passed its check (R202, R203). -/
structure TlbEntry where
  /-- Tenant tag (R202; 6 bits). -/
  tenant : Nat
  /-- Virtual page base (R201; 64 bits). -/
  va : Nat
  /-- Page size in bits: 12, 21 or 30 (R201). -/
  bits : Nat
  /-- The leaf entry (Table 7.7; 64 bits). -/
  pte : Word
  /-- The window that contains the page (R203). -/
  win : Window
deriving DecidableEq, Repr, Inhabited

/-- A spilled context in its core's resume slot (R160). -/
structure Saved where
  /-- The record of 4,544 bytes (R160). -/
  r : Regs
  /-- The task it belongs to (R160). -/
  task : TaskAttr
  /-- The SEQ word of its channel (R160, R389; 64 bits). -/
  seq : Word
  /-- Whether a YIELD put it behind the waiting entries of its rank (R399; 1 bit). -/
  yielded : Bool
  /-- The slot of its step program on the die (R422, R423). -/
  program : Option Nat
deriving DecidableEq, Repr, Inhabited

/-- A delta slot of a stitch unit (R390). -/
structure DeltaSlot where
  /-- Line address (R79). -/
  line : Nat
  /-- Sector mask (R79; 4 bits). -/
  mask : BitVec 4
  /-- old XOR new of the sectors (R79). -/
  delta : List Byte
  /-- Stitch group (R390; 16 bits). -/
  group : BitVec 16
  /-- The domain the delta is credited to, 0 for none (R391; 32 bits). -/
  dom : BitVec 32
  /-- Holders that have not acknowledged (R390). -/
  waiting : List (BitVec 12)
  /-- Resends made (R109; 2 bits). -/
  resends : Nat
deriving DecidableEq, Repr, Inhabited

/-- A compute core with its engines and queues. -/
structure CoreSt where
  /-- Basin page table: page to 1 + the tenant that holds it, 0 for none (R185; 256 entries). -/
  pages : SMap Nat := []
  /-- Lent basin pages (R162; 256 bits). -/
  lentPages : List Nat := []
  /-- Lent turn mask (R162; 8 bits). -/
  lentTurns : BitVec 8 := 0#8
  /-- The default lends in force: launch, turns and pages (R164; 8-bit turn masks). -/
  defaultLends : List (Nat × BitVec 8 × List Nat) := []
  /-- Launches whose default lend here an explicit LEND or UNLEND has replaced (R164). -/
  replacedLends : List Nat := []
  /-- sr.hstat.HCYC (R268; 32 bits, saturating). -/
  hcyc : Nat := 0
  /-- sr.hstat.REVOKE (R268; 16 bits, saturating). -/
  revoke : Nat := 0
  /-- sr.hstat.PGRET (R268; 8 bits, saturating). -/
  pgret : Nat := 0
  /-- The harvest tenant (R163; 6 bits). -/
  harvestTenant : Option Nat := none
  /-- The harvest tenant before this one, for the change of R163 (6 bits). -/
  lastHarvest : Option Nat := none
  /-- Basin pages that hold data of a harvest context, with the context (R168). -/
  harvestData : List (Nat × CtxId) := []
  /-- The range-overlap scoreboard, oldest first (R188; 32 entries). -/
  sboard : List SbEntry := []
  /-- The 16 sluice channels (R192, R388). -/
  channels : SMap Channel := []
  /-- Operations waiting for or held by the matrix engine (R191, R375). -/
  engine : List MatrixOp := []
  /-- The hardware deque, oldest first (R148; 64 entries). -/
  deque : List TaskAttr := []
  /-- The overflow ring, oldest first (R150; 65,536 entries). -/
  overflow : List TaskAttr := []
  /-- The resume slot's tasks (R160). -/
  resume : List Saved := []
  /-- The read-only buffer, least recently filled first (R198; 128 lines). -/
  robuf : List RoSector := []
  /-- The L1 TLB, oldest first (R202; 64 entries). -/
  tlb : List TlbEntry := []
  /-- The stitch unit's slots (R390; 256). -/
  deltas : SMap (Option DeltaSlot) := []
deriving DecidableEq, Repr, Inhabited

/-! ## The die -/

/-- A line of an L2 slice (R193): its address / 512, its slice, and for each sector a valid and a dirty bit. -/
structure L2Line where
  /-- Line address: location divided by 512 (R193). -/
  line : Nat
  /-- Slice that holds it (R194; 6 bits). -/
  slice : Nat
  /-- Valid sectors (R193; 4 bits). -/
  valid : BitVec 4
  /-- Dirty sectors (R193; 4 bits). -/
  dirty : BitVec 4
  /-- Whether HCACHE KEEP marked it (R195; 1 bit). -/
  kept : Bool
deriving DecidableEq, Repr, Inhabited

/-- A STITCH packet of a base die that waits for a slot of a core's stitch unit (R79, R390). -/
structure StitchPkt where
  /-- The core whose slice sent the write (R79; 6 bits). -/
  core : Nat
  /-- Line address (R79). -/
  line : Nat
  /-- Sector mask (R79; 4 bits). -/
  mask : BitVec 4
  /-- old XOR new of the sectors (R79). -/
  delta : List Byte
  /-- Stitch group of the line's window (R390; 16 bits). -/
  group : BitVec 16
  /-- The domain it is credited to, 0 for none (R391; 32 bits). -/
  dom : BitVec 32
deriving DecidableEq, Repr, Inhabited

/-- A line of the remote-data cache, one entry per sector held (R196). -/
structure RdcSector where
  /-- Location of the sector divided by 128 (R196). -/
  sector : Nat
  /-- The data (R196; 128 bytes). -/
  bytes : List Byte
  /-- Poison bit (R196; 1 bit). -/
  poison : Bool
  /-- The causal stamp of its line (R196; 16 x 32 bits). -/
  stamp : SMap (BitVec 32)
  /-- The cycle of the fill (R224). -/
  filled : Nat
deriving DecidableEq, Repr, Inhabited

/-- A young entry of a slice (R221). -/
structure Young where
  /-- Slice (R221; 6 bits). -/
  slice : Nat
  /-- Sector (R221). -/
  sector : Nat
  /-- Source die (R221; 4 bits). -/
  src : Nat
  /-- Number of the causal write (R221; 32 bits). -/
  num : BitVec 32
deriving DecidableEq, Repr, Inhabited

/-- The last strong access to a word, kept to tell overlapping unordered ones apart (R236). -/
structure Strong where
  /-- Location of the access (R236). -/
  loc : Nat
  /-- Its size in bytes (R236). -/
  size : Nat
  /-- The die it came from (R236). -/
  src : Nat
  /-- Its number as a causal write of that die, for an access from another die (R218). -/
  num : Option (BitVec 32)
deriving DecidableEq, Repr, Inhabited

/-- A preserved range of a domain (R171). -/
structure DRange where
  /-- Whether it is a SNAP range; otherwise HOLD (R171; 1 bit). -/
  snap : Bool
  /-- Virtual address of the range (R403; 64 bits). -/
  va : Word
  /-- The locations of its bytes, page by page: start and length (R403). -/
  parts : List (Nat × Nat)
  /-- The copied bytes of a SNAP range (R171). -/
  bytes : List Byte
  /-- The full words of a basin SNAP range (R171). -/
  full : List Nat
deriving DecidableEq, Repr, Inhabited

/-- A deferred decrement (R173). -/
structure Deferred where
  /-- The counter's location (R173). -/
  loc : Nat
  /-- The counter's virtual address as its source named it (R174; 64 bits). -/
  va : Word
  /-- The amount (R173; 32 bits). -/
  amount : BitVec 32
deriving DecidableEq, Repr, Inhabited

/-- A domain record (R170). -/
structure DomRec where
  /-- The domain id (R170; 32 bits). -/
  id : BitVec 32
  /-- Tenant (R139; 6 bits). -/
  tenant : Nat
  /-- Parent id, 0 for none (R170; 32 bits). -/
  parent : BitVec 32
  /-- Depth, 1 to 8 (R170). -/
  depth : Nat
  /-- Creator context; none for a harvest launch's implicit root domain (R169, R170). -/
  creator : Option CtxId
  /-- The creator's task and launch, with which it is found after it has moved (R93, R160). -/
  creatorTask : Word × Nat
  /-- The creator's scalar snapshot, with FFLAGS, sr.engretry and the restart pc (R171, R176). -/
  snap : Regs
  /-- Preserved ranges (R170; up to 8). -/
  ranges : List DRange
  /-- Limit, 0 to 15 (R170; 4 bits). -/
  limit : Nat
  /-- Re-execution count (R170). -/
  count : Nat
  /-- Attempt number, all re-executions counted (R395). -/
  attempt : Nat
  /-- Last fault cause (R175; 8 bits). -/
  cause : BitVec 8
  /-- Address kept with the cause (R175; 64 bits). -/
  causeAddr : Word
  /-- Live member tasks other than the creator (R170). -/
  members : Nat
  /-- Outstanding stitch acknowledgements (R170). -/
  acks : Nat
  /-- Deferred decrements, oldest first (R170, R173; up to 64). -/
  deferred : List Deferred
  /-- Entry-wise maximum of the members' vectors at TEXIT (Table 8.2). -/
  joinVec : SMap (BitVec 32)
  /-- The launch whose implicit root domain this is (R169). -/
  root : Option Nat
  /-- TEXITs of member tasks in this attempt, by launch (Table 5.6). -/
  ran : SMap Nat
  /-- Packages on which a member wrote stitched memory (R391). -/
  stitched : List (BitVec 12)
  /-- Whether a restart waits for the creator's turn (R168; 1 bit). -/
  restart : Bool
deriving DecidableEq, Repr, Inhabited

/-- A running or ended step program of a die's weir (R420 to R422). -/
structure StepProg where
  /-- The context that started it (R422). -/
  owner : CtxId
  /-- Group handle (R422; 32 bits). -/
  handle : BitVec 32
  /-- Rank (R422; 10 bits). -/
  rank : Nat
  /-- Core whose basin it uses (R420; 6 bits). -/
  core : Nat
  /-- Step words, two a step (R420; up to 255 steps). -/
  steps : List (Word × Word)
  /-- Index of the next step (R421; 8 bits). -/
  index : Nat
  /-- Open loops, innermost first: first step, iteration, count (R421; up to 2). -/
  loops : List (Nat × Nat × Nat)
  /-- Next QROUND tag (R420; 32 bits). -/
  tag : BitVec 32
  /-- DONE offset (R420; 20 bits). -/
  doneOff : Nat
  /-- 1 running, 2 done, 3 faulted (R418). -/
  state : Nat
  /-- Fault code (R422; 8 bits). -/
  code : BitVec 8
  /-- How far a QROUND has come: 0 not posted, 1 its verdict is awaited, 2 its record is awaited (R421; 2 bits). -/
  posted : Nat
  /-- Basin interval the program can reach (R422). -/
  span : Nat × Nat
deriving DecidableEq, Repr, Inhabited

/-- A compute die. -/
structure DieSt where
  /-- N, the count of causal writes (R218; 32 bits). -/
  n : BitVec 32 := 0#32
  /-- V, the causal vector (R218; 16 x 32 bits). -/
  v : SMap (BitVec 32) := []
  /-- K, the completion vector (R218; 16 x 32 bits). -/
  k : SMap (BitVec 32) := []
  /-- Causal writes of this die not yet acknowledged, by number (R218). -/
  unacked : List (BitVec 32) := []
  /-- K as last announced (R219; 16 x 32 bits). -/
  kSent : SMap (BitVec 32) := []
  /-- Announcements on their way to this die, as CVEC packets, oldest first (R219). -/
  heard : List Packet := []
  /-- The cycle of the last announcement (R219). -/
  announcedAt : Nat := 0
  /-- The remote-data cache, oldest first (R196; 65,536 lines). -/
  rdc : List RdcSector := []
  /-- The shared TLB, oldest first (R202; 4,096 entries). -/
  tlb : List TlbEntry := []
  /-- Lines whose exported bit is set, as location / 512 (R218). -/
  exported : List Nat := []
  /-- Sectors whose foreign bit is set, as location / 128 (R221). -/
  foreign : List Nat := []
  /-- The slices' young tables (R221; 64 entries a slice). -/
  young : List Young := []
  /-- Contexts whose monitors the slices have registered, oldest first (R323; 64 a slice). -/
  monitors : List (Nat × CtxId) := []
  /-- The last strong access by 8-byte word, as location / 8 (R236). -/
  strong : SMap (Option Strong) := []
  /-- Stitched sectors tagged with a domain, oldest first: slice, sector, domain (R391; 1,024 a slice). -/
  tags : List (Nat × Nat × BitVec 32) := []
  /-- The lines of the 64 slices, least recently used first (R193, R195; 8,192 a slice, 16 a set). -/
  l2 : List L2Line := []
  /-- STITCH packets that wait for a slot of a stitch unit, oldest first (R390). -/
  stitchQ : List StitchPkt := []
  /-- Ready queues by cluster, oldest first; owner and harvest entries (R142). -/
  ready : SMap (List TaskAttr) := []
  /-- Domain records by index, with their SNAP copies (R170; 4,096).  The preservation store of their tenant holds the same, written through
  before the instruction that made them completes, so that the loss of the die loses none (R92). -/
  records : SMap (Option DomRec) := []
  /-- Record generations by index (R170; 12 bits). -/
  gens : SMap Nat := []
  /-- Launches waiting for a waiter-pool entry, oldest first (R130). -/
  poolQueue : List Nat := []
  /-- Step programs by slot (R422; 64). -/
  programs : SMap (Option StepProg) := []
  /-- Whether the supervisor has stopped the die for a quiesce (R44; 1 bit). -/
  quiesced : Bool := false
  /-- Core-rail voltage in millivolts (R20, R21). Reset 430 (R20, typical). -/
  millivolts : Nat := 430
  /-- Whether the power cap throttles matrix and sluice duty (R22; 1 bit). -/
  throttleCap : Bool := false
  /-- Whether temperature throttles it: 0 no, 1 as R22, 2 at most 25 % (R24; 2 bits). -/
  throttle : Nat := 0
  /-- Timing-detector replays counted for voltage control since `timingSince` (R21, R85). -/
  timingEvents : Nat := 0
  /-- The cycle from which they are counted (R21). -/
  timingSince : Nat := 0
  /-- The cycle at which the matrix ramp started (R23). -/
  rampStart : Option Nat := none
  /-- The cycle at which the last matrix operation of the die ended (R23). -/
  lastMatrix : Nat := 0
  /-- Lead of the die's count over its owning package's timebase (R27). -/
  lead : Int := 0
  /-- The owning package's count loaded into a guest die, with the cycle of the load (R27; 64 bits). -/
  guestBase : Option (Word × Nat) := none
deriving DecidableEq, Repr, Inhabited

/-! ## Counters, launches, tenants -/

/-- What the home keeps of an arrival counter besides its word (R154, R156, R395). -/
structure CounterSt where
  /-- Whether it fired at its last operation (R154; 1 bit). -/
  fired : Bool := false
  /-- Tasks bound by SPAWNC, in binding order (R154). -/
  bound : List TaskAttr := []
  /-- Contexts waiting in CNTWAIT (R154). -/
  waiters : List CtxId := []
  /-- Launches that hold an entry here (R130). -/
  launches : List Nat := []
  /-- Entry-wise maximum of the operations' vectors since it last fired (Table 8.2). -/
  vec : SMap (BitVec 32) := []
  /-- The innermost domain and attempt of its CNTINIT (R173, R395). -/
  tag : Option (BitVec 32 × Nat) := none
deriving DecidableEq, Repr, Inhabited

/-- A launch (R129 to R133). -/
structure LaunchSt where
  /-- Tenant (R129; 6 bits). -/
  tenant : Nat
  /-- ENTRY (R129; 64 bits). -/
  entry : Word
  /-- N (R129; 32 bits). -/
  n : Nat
  /-- CLASS (R129; 2 bits). -/
  cls : Nat
  /-- PRIO (R129; 2 bits). -/
  prio : Nat
  /-- COHORT, EVENT and FENCE (R129; 3 bits). -/
  flags : BitVec 3
  /-- LTURNS (R129; 8 bits). -/
  lturns : BitVec 8
  /-- LPAGES (R129; 16 bits). -/
  lpages : Nat
  /-- PLACE (R129; 16 bits). -/
  place : BitVec 16
  /-- ARGP and A4 to A7 (R129; 5 x 64 bits). -/
  args : List Word
  /-- Input counter locations not yet fired; their virtual addresses (R130). -/
  inputs : List (Nat × Word)
  /-- Input counters that wait for a pool entry, with their virtual addresses (R130). -/
  queued : List (Nat × Word)
  /-- Output counter virtual addresses (R131). -/
  outputs : List Word
  /-- 0 not ready, 1 ready or running, 2 over (R130 to R133). -/
  phase : Nat
  /-- Tasks that have not executed TEXIT (R131). -/
  live : Nat
  /-- Tasks whose TEXIT counted (Table 5.6). -/
  done : Nat
  /-- Spawn serial (R139; 32 bits). -/
  serial : Nat
  /-- The creator's innermost domain for a LAUNCHD launch (R400; 32 bits). -/
  dom : BitVec 32
  /-- The implicit root domain of a harvest launch (R169; 32 bits). -/
  rootDom : BitVec 32
  /-- The vector kept with the launch: the creating die's or the tenant's host vector (Table 8.2, R125). -/
  vec : SMap (BitVec 32)
  /-- Entry-wise maximum of the vectors of its tasks' dies at their TEXITs, which completion releases (Table 8.2, R131). -/
  outVec : SMap (BitVec 32) := []
  /-- The SCP queue and SEQ, or none for LAUNCHD (R132). -/
  origin : Option (Nat × Nat)
  /-- Flags collected for LAUNCH_DONE: UNDERFLOW and UNMAPPED (R131, R169; 8 bits). -/
  evflags : BitVec 8
deriving DecidableEq, Repr, Inhabited

/-- An event record (Table 5.5). -/
structure EventRec where
  /-- CODE (Table 5.6; 16 bits). -/
  code : BitVec 16
  /-- FLAGS (Table 5.5; 8 bits). -/
  flags : BitVec 8
  /-- TENANT (Table 5.5; 8 bits). -/
  tenant : Nat
  /-- CAUSE (Table 5.5; 32 bits). -/
  cause : BitVec 32
  /-- LAUNCH (Table 5.5; 64 bits). -/
  launch : Nat
  /-- CYCLE (Table 5.5; 64 bits). -/
  cycle : Word
  /-- DETAIL (Table 5.5; 64 bits). -/
  detail : Word
deriving DecidableEq, Repr, Inhabited

/-- A T2 page on its way between host and device (R210). -/
structure PageXfer where
  /-- The host page handle (R210; 44 bits). -/
  handle : Nat
  /-- The page's virtual address (R210; 64 bits). -/
  va : Word
  /-- The first frame that holds it (R210). -/
  frame : Nat
  /-- The page size in bits (R210). -/
  bits : Nat
deriving DecidableEq, Repr, Inhabited

/-- A WAITEV that has not returned (R134). -/
structure WaitEv where
  /-- The command (R124). -/
  head : CmdHead
  /-- Event mask (Table 5.2; 64 bits). -/
  mask : Word
  /-- Maximum records (Table 5.2). -/
  max : Nat
  /-- The cycle at which its timeout ends (R134; 64 bits). -/
  ends : Nat
deriving DecidableEq, Repr, Inhabited

/-- The supervisor's record of a tenant (R122, R123, R136, R145). -/
structure TenantSt where
  /-- The static key that opened it, by its number in the admission list (R122). -/
  key : Nat
  /-- Debug mode (R123; 1 bit). -/
  debug : Bool
  /-- Queue count, 1 to 8 (Table 5.2). -/
  queues : Nat
  /-- EVCOUNT (R134). -/
  evcount : Nat
  /-- EVDELAY in microseconds (R134). -/
  evdelay : Nat
  /-- Preservation store bytes (R403). -/
  store : Nat
  /-- Windows 0 to 15 (R203) and, at 16, the system window (R136). -/
  windows : SMap Window
  /-- Physical address of the root table (R201). -/
  root : Nat
  /-- Page-table frames taken so far by the supervisor (R201). -/
  tables : Nat
  /-- The heap triple of the tenant record (R145, R184; 3 x 64 bits). -/
  heap : Word × Word × Word
  /-- Copy templates by index; one never written reads as zero (R384; 4,096 x 8 x 64 bits). -/
  templates : SMap (List Word)
  /-- Event records not yet delivered, oldest first (R134; up to 4,096). -/
  events : List EventRec
  /-- Whether a record was dropped and the next carries DROPPED (R134; 1 bit). -/
  dropped : Bool
  /-- WAITEVs not returned (R134). -/
  waits : List WaitEv
  /-- Command queues, the head first (R124; 8 x 64 entries). -/
  cmds : SMap (List (CmdHead × Cmd))
  /-- Whether the tenant is resetting (R137; 1 bit). -/
  resetting : Bool
  /-- The host vector (R125; 16 x 32 bits). -/
  hostVec : SMap (BitVec 32)
  /-- Next trap-area slot (R135; 8 bits). -/
  trapSlot : Nat
  /-- Sessions attached by OPEN (R121, R122). -/
  attached : List Nat
  /-- The most recently authenticated of them that lives (R134). -/
  session : Option Nat
  /-- T2 pages being fetched (R210). -/
  fetches : List PageXfer
  /-- T2 pages being evicted (R210). -/
  evictions : List PageXfer
  /-- Pages marked poisoned by the lost-data rule, by page address (R95). -/
  marked : List Nat
deriving DecidableEq, Repr, Inhabited

/-! ## The weir -/

/-- Who waits for the verdict on a contribution (R416, R421). -/
inductive Poster where
  /-- A QPOST: its context, its rank, the register d names, and whether its contribution was in the partial already. -/
  | ctx (c : CtxId) (rank : Nat) (d : RegNo) (again : Bool)
  /-- A QROUND of the step program in a slot of the die, with its rank. -/
  | prog (slot rank : Nat)
deriving DecidableEq, Repr, Inhabited

/-- A partial on its way to the root (R412). -/
structure Partial where
  /-- The member die's package and die (R412). -/
  src : BitVec 12 × Nat
  /-- Round tag (R412; 32 bits). -/
  tag : BitVec 32
  /-- The ranks it combines (R412). -/
  ranks : List Nat
  /-- Unweighted contributions of each rank, exact (R414). -/
  data : List (List Exact)
  /-- Who waits for its verdict (R416). -/
  posters : List Poster
  /-- The sending die's vector (R54, R218; 16 x 32 bits). -/
  vec : SMap (BitVec 32)
  /-- Whether it has left the die for the root (R412; 1 bit). -/
  sent : Bool
  /-- The root's verdict: 0 ON_TIME, 1 FOLDED, 3 DROPPED, 4 LAGGED, and the round (R413, R416). -/
  verdict : Option (Nat × BitVec 32)
deriving DecidableEq, Repr, Inhabited

/-- The contributions of one round at the root (R413, R414). -/
structure Round where
  /-- On-time ranks (Table 14.5; 1,024 bits). -/
  mask : List Nat
  /-- Folds: rank, source tag, lag (Table 14.5; up to 256). -/
  folds : List (Nat × BitVec 32 × Nat)
  /-- The weighted exact elements (R414). -/
  accs : List Exact
  /-- The sum of the weights used, in units of 2^-22 (R414). -/
  wsum : Int
deriving DecidableEq, Repr, Inhabited

/-- A result record held by the member dies (Table 14.5). -/
structure ResultRec where
  /-- TAG (Table 14.5; 32 bits). -/
  tag : BitVec 32
  /-- The record's bytes (Table 14.5). -/
  bytes : List Byte
  /-- The delivering die's vector (Table 8.2; 16 x 32 bits). -/
  vec : SMap (BitVec 32)
deriving DecidableEq, Repr, Inhabited

/-- What a member die keeps of a group for its own ranks (R412, R415). -/
structure GroupDie where
  /-- Stale ranks (R412). -/
  stale : List Nat := []
  /-- Registered posts, newest first: rank, tag, landed, status (R412; 16 a rank). -/
  posts : List (Nat × BitVec 32 × BitVec 32 × Nat) := []
  /-- Partials awaiting their verdict, oldest first (R412). -/
  partials : List Partial := []
  /-- Records of closed rounds, oldest first (R415; L + 2). -/
  records : List ResultRec := []
deriving DecidableEq, Repr, Inhabited

/-- A weir group (R410 to R415). -/
structure Group where
  /-- Tenant (R410; 6 bits). -/
  tenant : Nat
  /-- Job key (R410; 64 bits). -/
  key : Word
  /-- n (R410). -/
  n : Nat
  /-- k (R410). -/
  k : Nat
  /-- L (R410; 4 bits). -/
  lag : Nat
  /-- RULE (R410; 2 bits). -/
  rule : Nat
  /-- OP (R410; 2 bits). -/
  op : Nat
  /-- COUNT (R410; 17 bits). -/
  count : Nat
  /-- WEIGHTS (R410; 16 x 16 bits). -/
  weights : List (BitVec 16)
  /-- Members by rank: package and logical die (R410). -/
  members : List (BitVec 12 × Nat)
  /-- Whether the group is poisoned (R416, R419; 1 bit). -/
  poisoned : Bool
  /-- o, the root's open round (R413; 32 bits). -/
  openRound : BitVec 32
  /-- The set of round o (R413). -/
  cur : Round
  /-- The set of round o + 1 (R413). -/
  next : Round
  /-- Partials that have reached the root and await its step (R413). -/
  arrived : List Partial
  /-- What each member die of this package keeps, by die (R412). -/
  dies : SMap GroupDie
  /-- Step-program messages in the weir buffers: source, destination rank and bytes, oldest first (R421). -/
  messages : List (Nat × Nat × List Byte)
  /-- Messages sent and not yet written at their receiver, oldest first (R421). -/
  flight : List (Nat × Nat × List Byte)
  /-- Records on their way to member dies of this package, oldest first (R413). -/
  sending : List (Nat × ResultRec)
deriving DecidableEq, Repr, Inhabited

/-! ## Stores and reads in flight -/

/-- A posted store, or another write, that its home has not performed or not acknowledged (R183, R218, R220). -/
structure NetWrite where
  /-- Its number in this list (R183). -/
  id : Nat
  /-- The issuing context, for a posted store (R183). -/
  owner : Option CtxId
  /-- Issuing die (R218; 4 bits). -/
  src : Nat
  /-- Home die of this package, or none for another package (R194, R197). -/
  home : Option Nat
  /-- Location of the first byte. -/
  loc : Nat
  /-- The bytes to be written. -/
  bytes : List Byte
  /-- The home slice the requester computed (R194; 6 bits). -/
  slice : Nat
  /-- Number as a causal write (R218; 32 bits). -/
  num : Option (BitVec 32)
  /-- The vector it carries (R220; 16 x 32 bits). -/
  vec : SMap (BitVec 32)
  /-- Its cache policy: 0 ALLOC, 1 STREAM, 2 NOALLOC, 3 KEEP (R195; 2 bits). -/
  pol : Nat := 0
  /-- Whether its home has performed it (R214; 1 bit). -/
  performed : Bool
  /-- Whether its home has refused it for a HOLD range (R319; 1 bit). -/
  refused : Bool
deriving DecidableEq, Repr, Inhabited

/-- A page migration in progress (R211 to R213). -/
structure Migration where
  /-- Tenant (R211; 6 bits). -/
  tenant : Nat
  /-- The page's virtual address (R211; 64 bits). -/
  va : Word
  /-- Location of the source frame (R211). -/
  src : Nat
  /-- Location of the destination frame (R211). -/
  dst : Nat
  /-- Page size in bytes (R211). -/
  size : Nat
  /-- The page's entry after the switch (R211; 64 bits). -/
  entry : Word
deriving DecidableEq, Repr, Inhabited

/-! ## Supervisor and messages -/

/-- A trap record with the supervisor (Table 10.10). -/
structure TrapRec where
  /-- The trapped context: CTX, CORE and DIE (R286). -/
  ctx : CtxId
  /-- CAUSE (R286; 8 bits). -/
  cause : BitVec 8
  /-- FLAGS: HARV, WRITE, EXEC (R286, R431; 8 bits). -/
  flags : BitVec 8
  /-- PAGES, up to 16 (R286). -/
  pages : List Word
  /-- TENANT (R286; 8 bits). -/
  tenant : Nat
  /-- EPC (R286; 64 bits). -/
  epc : Word
  /-- TVAL (R286; 64 bits). -/
  tval : Word
  /-- TASK (R286; 64 bits). -/
  task : Word
  /-- DOM (R286; 32 bits). -/
  dom : Word
  /-- VSTART (R286; 32 bits). -/
  vstart : Word
  /-- LAUNCH (R286; 64 bits). -/
  launch : Nat
  /-- CYCLE (R286; 64 bits). -/
  cycle : Word
  /-- INSN (R431; 32 bits). -/
  insn : IWord
deriving DecidableEq, Repr, Inhabited

/-- A message that leaves the modelled part: to a host, a peer package, a base die or another unit (R47, R118, R219). -/
inductive OutMsg where
  /-- A UDP datagram from port 5791 to the host of a session, 0 for one that has none: an SCP message (R118). -/
  | scp (session : Nat) (bytes : List Byte)
  /-- A shard that RESTORE hands to a replica (R115). -/
  | shard (dest : BitVec 12) (name : Word) (bytes : List Byte)
  /-- A fabric packet sent by a router, slice, port or base die (R47). -/
  | packet (p : Packet)
  /-- A packet sent on a chip-to-chip port (R50). -/
  | link (port : Nat) (p : Packet)
  /-- A fault event: unit, kind and sr.cycle at its detection (R82). -/
  | fault (u : FUnit) (kind : FKind) (cycle : Word)
  /-- The flooded list of live ports with their far packages and ports (R42). -/
  | portList (pkg : BitVec 12) (ports : List (Nat × BitVec 12 × Nat))
  /-- A greeting on a port: package id, port, nonce, identity public key, certificate and signature over both nonces (R42). -/
  | greeting (port : Nat) (g : Greeting)
  /-- A QUIESCE notice of this package to another, with its limit in microseconds (R44). -/
  | quiesce (dest : BitVec 12) (limitUs : Nat)
  /-- A proposal to a peer pair: the peer, the unit, its fault events and both local verdicts (R102, R103). -/
  | ballot (dest : BitVec 12) (u : FUnit) (events : Evidence) (own other : Verdict)
  /-- The vote of this package's pair on another package's proposal (R103). -/
  | vote (pkg : BitVec 12) (u : FUnit) (v : Verdict)
  /-- A packet that a router delivers to a unit: the physical die, 18 or 19 for an I/O die, or 32 + the stack
  of a base die; with the CVEC packet that precedes it (R42, R43, R48, R60). -/
  | deliver (unit : Nat) (cv : Option Packet) (p : Packet)
  /-- A control flit on a port: kind 0 ACK, 1 NAK, 2 LANE_FAIL, 3 a credit of a channel, with its value (R44, R50, R52). -/
  | control (port : Nat) (kind : Nat) (value : Nat)
  /-- A MAINT message between service processors: kind and a number (R42, R44, R101, R102). -/
  | maint (kind : String) (value : Nat)
  /-- A record to the service processors or to a supervisor core (R66, R213). -/
  | record (kind : String) (a b : Nat)
  /-- A partial for a root on another package, in a COLL packet (R54, R412): its header with the group handle and the job key, and
  what follows the key. -/
  | partialTo (h : Packet) (p : Partial)
  /-- A verdict for a member die of another package, in a COLL_RES packet (R54, R413): ranks, status and round. -/
  | verdictTo (h : Packet) (ranks : List Nat) (status : Nat) (landed : BitVec 32)
  /-- A record for a member die of another package, in a COLL_RES packet (R54, R413). -/
  | recordTo (h : Packet) (r : ResultRec)
  /-- A step-program message for a rank of another package (R421). -/
  | stepTo (h : Packet) (src dst : Nat) (bytes : List Byte)
deriving DecidableEq, Repr, Inhabited

/-! ## Stacks, fabric, package -/

/-- A bank of the row-activation tracker (R72). -/
structure RowTracker where
  /-- Sixteen entries, row and count, lowest number first (R72; 20-bit counts). -/
  entries : List (Option Nat × Nat) := []
  /-- The spill counter (R72; 20 bits). -/
  spill : Nat := 0
deriving DecidableEq, Repr, Inhabited

/-- A physical stack with its base die (R56 to R81). -/
structure StackSt where
  /-- Overflow-cache lines, least recently filled first: line address / 512 and dirty mask (R68; 65,536); OCCTL.DRAINED tells
  that there is none (R81). -/
  oc : List (Nat × BitVec 4) := []
  /-- OCCTL.EN (R81; 1 bit). Reset 1. -/
  ocEn : Bool := true
  /-- RATCFG.THRESH (R81; 16 bits). Reset 0x0400. -/
  thresh : Nat := 0x400
  /-- RATCNT (R81; 32 bits, saturating). -/
  ratcnt : Nat := 0
  /-- CECNT (R81; 32 bits, saturating). -/
  cecnt : Nat := 0
  /-- UECNT (R81; 32 bits, saturating). -/
  uecnt : Nat := 0
  /-- BDSTAT.PORTA (R81; 1 bit). Reset 1 after boot: the port is up. -/
  portA : Bool := true
  /-- BDSTAT.PORTB (R81; 1 bit). Reset 1 after boot: the port is up. -/
  portB : Bool := true
  /-- BDSTAT.SPARE (R81; 1 bit). Reset 1 for H32 and H33 (R17). -/
  spare : Bool := false
  /-- The row-activation tracker by bank (R72; 4,096 banks). -/
  tracker : SMap RowTracker := []
  /-- Banks held by a directed refresh-management command, with the rows it refreshes (R72, R73). -/
  refreshing : List (Nat × List Nat) := []
  /-- The open row of each bank, as row + 1 (R72). -/
  openRows : SMap Nat := []
  /-- The routine table (R74; 1,024 entries). -/
  routines : SMap Routine := []
  /-- Granules locked by a read-modify-write, as address / 32, with the WRITE_MASKED packet (R66). -/
  locks : List (Nat × Packet) := []
  /-- Requests that have arrived and wait for a lock, a refresh or an earlier one, oldest first (R65, R66, R73). -/
  queue : List Packet := []
  /-- Stitched writes held until the service processors have rebuilt their line, with the domain each is credited to (R80, R391). -/
  stitchHeld : List (Packet × BitVec 32) := []
  /-- Remapped rows, bank and row; the k-th lies in reserve row k (R58, R87; up to 4,096). -/
  remaps : List (Nat × Nat) := []
  /-- Whether the routine processor is halted (R19; 1 bit). Reset 1 for H32 and H33. -/
  halted : Bool := false
  /-- The retirements in the base die's record (R102). -/
  retired : Bool := false
  /-- Whether the stack has been lost and retired (R97; 1 bit). -/
  lost : Bool := false
  /-- The logical stack being rebuilt here and the next sector in address order (R97, R110). -/
  rebuild : Option (Nat × Nat) := none
  /-- Sectors beyond it that an access has had rebuilt already (R97). -/
  rebuilt : List Nat := []
deriving DecidableEq, Repr, Inhabited

/-- One direction of a chip-to-chip port (R45 to R53). -/
structure PortDir where
  /-- STATE (Table 2.6; 4 bits). -/
  state : Nat := 0
  /-- FAILED lane mask (Table 2.7; 16 bits). -/
  failed : BitVec 16 := 0#16
  /-- The state the training aims at (R52; 4 bits). -/
  target : Nat := 0
deriving DecidableEq, Repr, Inhabited

/-- A chip-to-chip port (R45 to R53). -/
structure PortSt where
  /-- Transmit direction: TXSTAT (R53). -/
  tx : PortDir := {}
  /-- Receive direction: RXSTAT (R53). -/
  rx : PortDir := {}
  /-- ERRCNT.REPLAY (R53; 16 bits, saturating). -/
  replay : Nat := 0
  /-- ERRCNT.HCRCF (R53; 16 bits, saturating). -/
  hcrcf : Nat := 0
  /-- Next HSEQ to send (R50; 16 bits). -/
  nextSeq : BitVec 16 := 0#16
  /-- The replay buffer: packets not acknowledged, with the times each was sent (R50; 8,192 flits). -/
  buffer : List (Packet × Nat) := []
  /-- Packets that wait for room or credit (R44, R50). -/
  stalled : List Packet := []
  /-- Expected HSEQ of the receiver (R50; 16 bits). -/
  expect : BitVec 16 := 0#16
  /-- Whether the receiver is in recovery (R50; 1 bit). -/
  recovery : Bool := false
  /-- Accepted packets not yet acknowledged (R50). -/
  unacked : Nat := 0
  /-- Credits by virtual channel (R44). -/
  credits : SMap Nat := []
  /-- Whether credits are withheld from the far side (R44; 1 bit). -/
  withhold : Bool := false
  /-- Credits withheld during a quiesce, by virtual channel (R44). -/
  owed : List (BitVec 3) := []
  /-- The greeted far end: package and port (R42). -/
  far : Option (BitVec 12 × Nat) := none
  /-- Whether the one retry of R96 has been made for the present loss (R96; 1 bit). -/
  retried : Bool := false
  /-- A CVEC packet received whose packet has not come yet, by virtual channel (R48). -/
  cvec : SMap (Option Packet) := []
  /-- The nonce of this end's last greeting (R42; 256 bits). -/
  nonce : BitVec 256 := 0#256
deriving DecidableEq, Repr, Inhabited

/-- A transaction of a source of this package that is not yet answered (R51). -/
structure Pend where
  /-- Its place: source die and tag, and for a base-die request the requester port (R51, R62). -/
  key : Nat
  /-- The source's own copy (R51). -/
  packet : Packet
  /-- The context it was issued for, where there is one (R51, R175). -/
  owner : Option CtxId
deriving DecidableEq, Repr, Inhabited

/-- What DRAM holds of a sector whose newer bytes are dirty in L2 or in an overflow cache (R69, R79). -/
structure Under where
  /-- The 128 bytes (R59, R79). -/
  bytes : List Byte
  /-- Poisoned granules among its four (R59; 4 bits). -/
  poison : BitVec 4
deriving DecidableEq, Repr, Inhabited

/-- The fabric of the package (R36 to R55). -/
structure Fabric where
  /-- Router control-block registers by physical address; an unlisted one holds its boot value (R39 to R41; 32 bits
  each).  Reset: DIEMAP entry k and STKMAP entry k valid and the k-th unit (R17), PKGID 0xFFF. -/
  regs : SMap (BitVec 32) := []
  /-- Route table: destination package to the mask of eligible ports (R37; 32 bits). -/
  routes : SMap (BitVec 32) := []
  /-- Live ports of each package with their far ends, as flooded (R42). -/
  floods : SMap (List (Nat × BitVec 12 × Nat)) := []
  /-- Ports: chip-to-chip ports J0 to J31 (R15), and from 32 on the ends of the on-package links (R36, R46). -/
  ports : SMap PortSt := []
  /-- Group tables of the routers: by router, the handles with a valid entry (R54). -/
  groupTables : SMap (List Nat) := []
  /-- Lost packages whose id a spare has taken: lost id to the spare's own id (R44, R101). -/
  aliases : SMap Nat := []
  /-- On-package links that the present route tables leave out, by port number (R37, R46). -/
  cut : List Nat := []
  /-- Lines whose new requests are held for a route change, as location / 512, with the number of the last write sent before (R38). -/
  heldLines : List (Nat × Nat) := []
  /-- Requests held for a route change: router, context, CVEC packet and packet, oldest first (R38). -/
  heldPackets : List (Nat × Option CtxId × Option Packet × Packet) := []
  /-- Logical stacks whose home slices hold every new request while their STKMAP entry changes (R44). -/
  heldStacks : List Nat := []
  /-- QUIESCE notices in force: package and limit in microseconds (R44). -/
  notices : List (Nat × Nat) := []
  /-- End-to-end resends made, by transaction, as in the list of those not answered (R51). -/
  resends : SMap Nat := []
  /-- Transactions of this package's sources not yet answered (R51). -/
  pending : List Pend := []
  /-- Requester-port tags in use: slice, stack and port, tag (R62). -/
  tags : List (Nat × Nat × Nat) := []
  /-- Base-die requests that wait for a tag of their requester port: router, context and packet, oldest first (R62). -/
  tagWait : List (Nat × Option CtxId × Packet) := []
  /-- SHIP requests of other dies and packages that a home slice passes on to a base die, by the transaction of its own request, 0 before it
  has one (R61). -/
  relays : List (Nat × Packet) := []
  /-- Requests that have arrived at their homes and wait there, oldest first (R211, R220, R222). -/
  waiting : List Instr := []
  /-- The die-map change in progress (R44, R107). -/
  change : Option MapChange := none
  /-- The logical die whose substitution that change is, and whether the failed die still answers (R98, R99). -/
  subst : Option (Nat × Bool) := none
  /-- Packets that cross no router before a change ends, and requests for a fenced unit: router, context, CVEC packet and packet, oldest
  first (R44, R105). -/
  parked : List (Nat × Option CtxId × Option Packet × Packet) := []
  /-- Lasting faults found during a change, oldest first, with whether the unit is silent (R107). -/
  queuedFaults : List (FUnit × Bool) := []
  /-- Domain faults raised during a change, oldest first: domain, cause and address (R107). -/
  queuedDomains : List (BitVec 32 × BitVec 8 × Word) := []
deriving DecidableEq, Repr, Inhabited

/-- A pending retirement proposal (R102 to R105). -/
structure Proposal where
  /-- The unit (R102). -/
  unit : FUnit
  /-- Whether it is silent, so fenced (R105; 1 bit). -/
  silent : Bool
  /-- The service processor that proposes (R102; 1 bit). -/
  proposer : Nat
  /-- The fault events behind it (R102). -/
  events : Evidence
  /-- The other service processor's answer: AGREE or DISAGREE (R102). -/
  answer : Option Bool
  /-- Whether it went to the peer vote (R102; 1 bit). -/
  peer : Bool
  /-- Peer pairs that have abstained by timeout, the first as 0 (R103). -/
  abstained : List Nat
deriving DecidableEq, Repr, Inhabited

/-- One service processor's count of a unit (R82, R83). -/
structure UnitCount where
  /-- The service processor that keeps it (R82; 1 bit). -/
  sp : Nat
  /-- The unit (R83). -/
  unit : FUnit
  /-- Window start (R83; 64 bits). -/
  start : Nat
  /-- Count (R83; 4 bits). -/
  count : Nat
  /-- The events counted in the window (R82, R102). -/
  events : Evidence
deriving DecidableEq, Repr, Inhabited

/-- A stitch group (R108). -/
structure StitchGroup where
  /-- Data packages, by index (R108; 2 to 16). -/
  data : List (BitVec 12)
  /-- Parity packages, by index (R108; 1 or 2). -/
  parity : List (BitVec 12)
deriving DecidableEq, Repr, Inhabited

/-- A unit of a stripe of a checkpoint step as a member holds it (R111). -/
structure CkptUnit where
  /-- Stripe (R111). -/
  stripe : Nat
  /-- Slot of the member that holds it (R111). -/
  slot : Nat
  /-- Data unit number within the stripe, or the parity index from G - q on (R111). -/
  index : Nat
  /-- Its 1 MiB (R111). -/
  bytes : List Byte
deriving DecidableEq, Repr, Inhabited

/-- A shard of a checkpoint step as its commit record and attests hold it (R112, R113). -/
structure ShardRec where
  /-- Name (R113; 64 bits). -/
  name : Word
  /-- Length in bytes (R113). -/
  length : Nat
  /-- SHA-384 of the shard its writer wrote (R112). -/
  hash : BitVec 384
  /-- The replica that wrote it (R112; 12 bits). -/
  writer : BitVec 12
  /-- The other replicas with their attests (R112). -/
  attests : List (BitVec 12 × BitVec 384)
deriving DecidableEq, Repr, Inhabited

/-- A checkpoint step in the step areas of its group's members (R111 to R114). -/
structure CkptStep where
  /-- Tenant (R111; 6 bits). -/
  tenant : Nat
  /-- Step number (R111). -/
  step : Nat
  /-- Members by slot (R111; 3 to 64). -/
  members : List (BitVec 12)
  /-- Parity count (R111). -/
  q : Nat
  /-- Shards in command order (R111). -/
  shards : List ShardRec
  /-- The units that live members hold (R111). -/
  units : List CkptUnit
  /-- Members that hold a commit record of the step, with the record's SHA-384 (R113). -/
  records : List (BitVec 12 × BitVec 384)
deriving DecidableEq, Repr, Inhabited

/-- Recovery: the service processors' counts, votes and records (R82 to R115). -/
structure Recovery where
  /-- Windowed counts, of each service processor its own (R82, R83). -/
  counts : List UnitCount := []
  /-- THRESH and WINDOW in milliseconds by unit class 0 to 5; unlisted ones are Table 4.1's (R83). -/
  params : SMap (Nat × Nat) := []
  /-- Retirements proposed (R102). -/
  proposals : List Proposal := []
  /-- Units with a lasting fault that do not answer (R84). -/
  silent : List FUnit := []
  /-- Fenced units (R105). -/
  fenced : List FUnit := []
  /-- Missed heartbeats by package (R101). -/
  missed : SMap Nat := []
  /-- Ports that have counted a credit timeout since they last had credit (R101). -/
  starved : List Nat := []
  /-- Packages lost (R101). -/
  lost : List (BitVec 12) := []
  /-- Peer packages' GUEST dies: local physical die, package, logical die (R44, R99). -/
  guests : List (Nat × BitVec 12 × Nat) := []
  /-- Stitch groups by id (R108). -/
  stitch : SMap (Option StitchGroup) := []
  /-- Sectors locked here as a parity holder by a rebuild, as group and sector (R110). -/
  parityLocks : List (Nat × Nat) := []
  /-- STITCH packets that wait for such a lock: group and packet, oldest first (R110). -/
  parityWait : List (BitVec 16 × Packet) := []
  /-- Checkpoint steps, oldest first (R111 to R114). -/
  ckpts : List CkptStep := []
  /-- Working service processors (R104; 2 bits). Reset both. -/
  sps : List Nat := [0, 1]
deriving DecidableEq, Repr, Inhabited

/-- An SCP message before it is sealed (Table 5.1). -/
structure ScpMsg where
  /-- KIND (Table 5.1; 8 bits). -/
  kind : Nat
  /-- TENANT, 0xFF for none (Table 5.1; 8 bits). -/
  tenant : Nat := 0xFF
  /-- QUEUE (Table 5.1; 8 bits). -/
  queue : Nat := 0
  /-- CTAG (Table 5.1; 32 bits). -/
  ctag : BitVec 32 := 0#32
  /-- The body (R118; up to 8,936 bytes). -/
  body : List Byte := []
deriving DecidableEq, Repr, Inhabited

/-- A message of this side that the peer has not acknowledged (R121). -/
structure Sent where
  /-- SEQ (R118; 64 bits). -/
  seq : Nat
  /-- The whole datagram as it was sent (R118). -/
  wire : List Byte
  /-- The cycle at which it was last sent (R121; 64 bits). -/
  at_ : Nat
  /-- Resends made (R121; 0 to 12). -/
  resends : Nat
  /-- The tenant whose event records it carries (R134; 6 bits). -/
  tenant : Nat
  /-- Those records (R134). -/
  records : List EventRec
deriving DecidableEq, Repr, Inhabited

/-- An SCP session (R118 to R121). -/
structure Session where
  /-- 0 greeted, 1 authenticated, 2 ended (R120). -/
  phase : Nat
  /-- The host's static key, by its number in the admission list, when it is listed (R120). -/
  key : Option Nat
  /-- Its place in the order of authentications (R134). -/
  auth : Nat
  /-- The host's static public key as sent (R120; 776 bits). -/
  pub : BitVec 776
  /-- Highest SEQ received in order (R118; 64 bits). -/
  ackn : Nat
  /-- SEQ values received beyond it (R118). -/
  sack : List Nat
  /-- SEQ of the last message sent (R118; 64 bits). -/
  sent : Nat
  /-- Messages not acknowledged by the peer, oldest first (R121). -/
  unacked : List Sent
  /-- Stored replies by COMMAND SEQ, oldest first: the datagrams (R121; 1,024). -/
  replies : List (Nat × List Byte)
  /-- The AES-256-GCM key from host to device (R119, R120; 32 bytes). -/
  h2d : List Byte := []
  /-- The key from device to host (R119, R120; 32 bytes). -/
  d2h : List Byte := []
  /-- The transcript that AUTH signs: HELLO, HELLO_RSP up to its signature, and the signature (R120). -/
  transcript : List Byte := []
  /-- The cycle of the last receipt (R121; 64 bits). -/
  heard : Nat := 0
  /-- Whether an acknowledgement is owed (R121; 1 bit). -/
  ackDue : Bool
deriving DecidableEq, Repr, Inhabited

/-- The host port and its sessions (R116 to R121). -/
structure HostPort where
  /-- Whether the link is up and SCP listens (R34 step 9; 1 bit). Reset 1. -/
  up : Bool := true
  /-- The controller that drives the lanes: 0 X0, 1 X1 (R116, R117; 1 bit). -/
  controller : Nat := 0
  /-- The MAC address of both controllers (R116; 48 bits). -/
  mac : BitVec 48 := 0#48
  /-- Their IPv6 address (R116; 128 bits). -/
  ip6 : BitVec 128 := 0#128
  /-- Their IPv4 address (R116; 32 bits). -/
  ip4 : BitVec 32 := 0#32
  /-- Sessions by id (R120; up to 256). -/
  sessions : SMap (Option Session) := []
  /-- Authentications so far (R134). -/
  auths : Nat := 0
  /-- Commands that name no tenant, and commands that wait without an entry of a queue, oldest first (R124). -/
  direct : List (CmdHead × Cmd) := []
  /-- Session ids given so far (R118). -/
  nextSid : Nat := 1
deriving DecidableEq, Repr, Inhabited

/-- A physical compute die (R13, R16, R19). -/
structure PDie where
  /-- The core map: the physical core of each logical core 0 to 63; an empty map is the identity (R16; 64 x 7 bits).  Reset the identity. -/
  map : List Nat := []
  /-- Usable cores that back no logical core (R1, R13; up to 4).  Reset 64 to 67. -/
  spares : List Nat := [64, 65, 66, 67]
  /-- Whether the core rail is on (R19; 1 bit).  Reset 1 for P0 to P15, 0 for the parked P16 and P17. -/
  rail : Bool := true
deriving DecidableEq, Repr, Inhabited

/-- The fuses of an I/O die (R28). -/
structure Fuses where
  /-- SHA-384 of the firmware signing public key (R28; 384 bits). -/
  keyHash : BitVec 384 := 0#384
  /-- The one-time security version counter (R28, R32; 64 bits). -/
  version : Word := 0#64
  /-- The repair record: retirements committed (R17, R28, R102). -/
  repair : List FUnit := []
  /-- The device's identity seed (R28; 384 bits). -/
  seed : BitVec 384 := 0#384
deriving DecidableEq, Repr, Inhabited

/-- The flash device of an I/O die (R15, R29): slots A and B, each with images 0 to 3, and the configuration that the supervisor
firmware image of the slot carries (R42, R120). -/
structure Flash where
  /-- Slot A's images (R29). -/
  slotA : List Image := []
  /-- Slot B's images (R29). -/
  slotB : List Image := []
  /-- The configuration in slot A's supervisor firmware (R42, R120). -/
  configA : FwConfig := ⟨[], []⟩
  /-- The configuration in slot B's supervisor firmware (R42, R120). -/
  configB : FwConfig := ⟨[], []⟩
deriving DecidableEq, Repr, Inhabited

/-- The package (R13 to R35). -/
structure Package where
  /-- Boot status code (R34; 8 bits). Reset 0x09 READY. -/
  boot : BitVec 8 := 0x09#8
  /-- Whether the rails are up (R24, R34; 1 bit). Reset 1. -/
  powered : Bool := true
  /-- Measurement registers 0 to 7 of both service processors, by 8 x + i (R30; 16 x 384 bits). Reset: the loaded images
  extend them. -/
  meas : SMap (BitVec 384) := []
  /-- The fuses of X0 (R28). -/
  fuse0 : Fuses := {}
  /-- The fuses of X1 (R28). -/
  fuse1 : Fuses := {}
  /-- The flash device of X0 (R15). -/
  flash0 : Flash := {}
  /-- The flash device of X1 (R15). -/
  flash1 : Flash := {}
  /-- The images that X0's service processor booted (R29, R32). -/
  booted0 : List Image := []
  /-- The images that X1's service processor booted (R29, R32). -/
  booted1 : List Image := []
  /-- The supervisor firmware configuration as Asnor read it at boot step 5 (R42, R120). -/
  config : FwConfig := ⟨[], []⟩
  /-- Physical compute dies by P number (R13). Reset P16 and P17 parked. -/
  pdies : SMap PDie := []
  /-- The two physical dies that each stack's ports A and B lead to, by H number (R14; 34 pairs).  Reset Hh at dies h / 2 and
  h / 2 + 1. -/
  attach : List (Nat × Nat) := []
  /-- Nonces and signatures made so far: the model's own counter. -/
  nonces : Nat := 0
  /-- Package power cap in watts (R22). Reset 8,000. -/
  cap : Nat := 8000
  /-- Spare physical dies left (R17, R19). Reset P16 and P17. -/
  spareDies : List Nat := [16, 17]
  /-- Spare physical stacks left (R17, R19). Reset H32 and H33. -/
  spareStacks : List Nat := [32, 33]
  /-- Supervisor trap entry address (R335; 64 bits). -/
  trapEntry : Word := 0#64
  /-- Temperature last read by die, in thousandths of a degree (R24). -/
  temps : SMap Nat := []
deriving DecidableEq, Repr, Inhabited

/-! ## The whole state -/

/-- The state of the package and of what it keeps of its peers. -/
structure State where
  /-- The issuing context's bank and the like, held apart from the other banks (R140). -/
  cx : Ctx := {}
  /-- Which context that is (R140). Reset die 0, core 0, turn 0, owner bank. -/
  cur : CtxId := ⟨0, 0, 0, false⟩
  /-- Every other context, by number (R140; 16 dies x 66 cores x 8 turns x 2 banks). -/
  banks : SMap Ctx := []
  /-- sr.cycle, the package timebase (R3, R26; 64 bits). -/
  cycle : Word := 0#64
  /-- Memory: HBM of this package, memory of other packages, basins (R57, R185, R201). -/
  mem : Memory := []
  /-- Full basin words, as location / 8, rising (R186). -/
  fe : List Nat := []
  /-- Poisoned 8-byte words, as location / 8, rising (R59, R91). -/
  poison : List Nat := []
  /-- Compute cores, by 66 x die + core (R13). -/
  cores : SMap CoreSt := []
  /-- Compute dies, by logical number (R13). -/
  dies : SMap DieSt := []
  /-- Arrival counters, by location (R154). -/
  counters : SMap CounterSt := []
  /-- Launches, by id (R129). -/
  launches : SMap (Option LaunchSt) := []
  /-- The last launch id given (R129). -/
  lastLaunch : Nat := 0
  /-- Tenants 0 to 63 (R122). -/
  tenants : SMap (Option TenantSt) := []
  /-- Weir groups, by handle (R410). -/
  groups : SMap (Option Group) := []
  /-- The last group handle given (R410; 32 bits). -/
  lastGroup : Nat := 0
  /-- Writes in flight, oldest first (R183, R220). -/
  net : List NetWrite := []
  /-- The last number given to a write in flight or a scoreboard entry. -/
  lastId : Nat := 0
  /-- Page migrations (R211). -/
  migrations : List Migration := []
  /-- Trap records with the supervisor, oldest first (R284). -/
  traps : List TrapRec := []
  /-- Trap records whose contexts wait for T2 pages (R210). -/
  fetching : List TrapRec := []
  /-- The stacks, by physical number (R1). -/
  hbm : SMap StackSt := []
  /-- The fabric (R36). -/
  fab : Fabric := {}
  /-- Recovery (R82). -/
  rcv : Recovery := {}
  /-- The host port (R116). -/
  host : HostPort := {}
  /-- The package (R13). -/
  pkg : Package := {}
  /-- Messages sent to the outside, oldest first (R118, R219). -/
  outbox : List OutMsg := []
  /-- What DRAM holds of the sectors whose newer bytes are dirty in L2 or in an overflow cache, by location / 128 (R69, R79). -/
  under : SMap (Option Under) := []
  /-- Happenings that wait to be taken, oldest first: those from outside, and packets on their way inside the package. -/
  inbox : List Instr := []
  /-- Which operations that leave the rotation stay out until their completing event: the model's own plan (R182). -/
  plan : List Bool := []
  /-- How many free values have been taken: the model's own counter. -/
  freeCtr : Nat := 0
deriving DecidableEq, Repr, Inhabited

/-- Why the machine stops with a fault. -/
inductive Fault where
  /-- An end-to-end failure that cannot be replayed, in a context in no domain: the spec names a domain fault only
  (R51, R175). Raised by the completion of an access; safe, for nothing is claimed of what follows. -/
  | transportLost
deriving DecidableEq, Repr, Inhabited

/-- Why the model gives no next state. -/
inductive Refusal where
  /-- An instruction without a meaning in this model, by its mnemonic; raised in Dispatch only; safe. -/
  | notModelled (mnemonic : String)
deriving DecidableEq, Repr, Inhabited

/-- Which dies the ports of the stacks lead to after reset: two different dies each, at most four stacks' ports a die (R14). -/
def attachReset : List (Nat × Nat) := (List.range 34).map (fun h => (h / 2, h / 2 + 1))

/-- The machine right after reset: the sequence of Table 1.4 has ended at READY; every memory byte reads zero, every
basin word is empty and every register reads zero (R34, R35).  BDSTAT of the two spare stacks reads SPARE and their routine
processors are halted; the two spare dies are parked (R17, R19, R81). -/
def State.reset : State :=
  { hbm := [(32, { spare := true, halted := true }), (33, { spare := true, halted := true })],
    pkg := { pdies := [(16, { rail := false }), (17, { rail := false })], attach := attachReset } }

end Sys2Proof.Machine
end

