-- ==== Sys2Proof/Machine/Ops.lean ====
section
/-! DEFINITION. The named operations over the state: its parts, registers, memory, the causal vectors, lending and parking,
taking an exception and returning from one, finishing an instruction, and address translation. -/

namespace Sys2Proof

/-- The number of a context among the banks (R140). -/
def CtxId.key (c : CtxId) : Nat := ((c.die * 66 + c.core) * 8 + c.turn) * 2 + (if c.reserve then 1 else 0)

/-- The owner bank of the same turn. -/
def CtxId.owner (c : CtxId) : CtxId := { c with reserve := false }

/-- The reserve bank of the same turn. -/
def CtxId.harvest (c : CtxId) : CtxId := { c with reserve := true }

/-- Whether the context is a supervisor core's (R13, R267). -/
def CtxId.isSup (c : CtxId) : Bool := decide (64 ≤ c.core)

/-- The identity with that number. -/
def CtxId.ofKey (k : Nat) : CtxId := ⟨k / 2 / 8 / 66, k / 2 / 8 % 66, k / 2 % 8, decide (k % 2 = 1)⟩

end Sys2Proof

namespace Sys2Proof.Machine

/-- The outcome of a step of this machine. -/
abbrev Res := Host.Outcome State Fault Refusal

/-! ## Parts of the state -/

/-- The context with that identity. -/
def State.ctx (s : State) (c : CtxId) : Ctx := if c = s.cur then s.cx else SMap.look {} s.banks c.key

/-- Replace a context. -/
def State.setCtx (s : State) (c : CtxId) (x : Ctx) : State :=
  if c = s.cur then { s with cx := x } else { s with banks := SMap.put {} s.banks c.key x }

/-- Change a context. -/
def State.onCtx (s : State) (c : CtxId) (f : Ctx → Ctx) : State := s.setCtx c (f (s.ctx c))

/-- Make a context the one held apart. -/
def State.select (s : State) (c : CtxId) : State :=
  if c = s.cur then s
  else { s with cx := SMap.look {} s.banks c.key, cur := c,
                banks := SMap.put {} (SMap.drop s.banks c.key) s.cur.key s.cx }

/-- Every context that is not in its reset condition, with its identity. -/
def State.allCtx (s : State) : List (CtxId × Ctx) :=
  (s.cur, s.cx) :: (s.banks.map (fun e => (CtxId.ofKey e.1, e.2))).filter (fun e => e.1 != s.cur)

/-- Change every context that meets a test. -/
def State.onAll (s : State) (p : CtxId → Ctx → Bool) (f : CtxId → Ctx → Ctx) : State :=
  s.allCtx.foldl (fun t e => if p e.1 e.2 then t.setCtx e.1 (f e.1 e.2) else t) s

/-- A die. -/
def State.die (s : State) (d : Nat) : DieSt := SMap.look {} s.dies d

/-- Change a die. -/
def State.onDie (s : State) (d : Nat) (f : DieSt → DieSt) : State := { s with dies := SMap.alter {} s.dies d f }

/-- A core by die and logical number. -/
def State.core (s : State) (d c : Nat) : CoreSt := SMap.look {} s.cores (66 * d + c)

/-- Change a core. -/
def State.onCore (s : State) (d c : Nat) (f : CoreSt → CoreSt) : State :=
  { s with cores := SMap.alter {} s.cores (66 * d + c) f }

/-- A tenant's record. -/
def State.tenant (s : State) (t : Nat) : Option TenantSt := SMap.look none s.tenants t

/-- Change a tenant's record, where there is one. -/
def State.onTenant (s : State) (t : Nat) (f : TenantSt → TenantSt) : State :=
  match s.tenant t with
  | none => s
  | some x => { s with tenants := SMap.put none s.tenants t (some (f x)) }

/-- A launch. -/
def State.launchOf (s : State) (l : Nat) : Option LaunchSt := SMap.look none s.launches l

/-- Change a launch, where there is one. -/
def State.onLaunch (s : State) (l : Nat) (f : LaunchSt → LaunchSt) : State :=
  match s.launchOf l with
  | none => s
  | some x => { s with launches := SMap.put none s.launches l (some (f x)) }

/-- A weir group. -/
def State.group (s : State) (h : BitVec 32) : Option Group := SMap.look none s.groups h.toNat

/-- Change a weir group, where there is one. -/
def State.onGroup (s : State) (h : BitVec 32) (f : Group → Group) : State :=
  match s.group h with
  | none => s
  | some x => { s with groups := SMap.put none s.groups h.toNat (some (f x)) }

/-- A counter's state at its home. -/
def State.counter (s : State) (loc : Nat) : CounterSt := SMap.look {} s.counters loc

/-- Change a counter's state at its home. -/
def State.onCounter (s : State) (loc : Nat) (f : CounterSt → CounterSt) : State :=
  { s with counters := SMap.alter {} s.counters loc f }

/-- A physical stack. -/
def State.stack (s : State) (h : Nat) : StackSt := SMap.look {} s.hbm h

/-- Change a physical stack. -/
def State.onStack (s : State) (h : Nat) (f : StackSt → StackSt) : State := { s with hbm := SMap.alter {} s.hbm h f }

/-- A port after boot: a chip-to-chip port with no peer is DOWN; an end of an on-package link, numbered from 32 on, is up (R46, Table 2.6). -/
def portReset (j : Nat) : PortSt := if j < 32 then {} else { tx := { state := 2 }, rx := { state := 2 } }

/-- A port: a chip-to-chip port, or from 32 on an end of an on-package link (R15, R46). -/
def State.port (s : State) (j : Nat) : PortSt := SMap.look (portReset j) s.fab.ports j

/-- Change a port. -/
def State.onPort (s : State) (j : Nat) (f : PortSt → PortSt) : State :=
  { s with fab := { s.fab with ports := SMap.alter (portReset j) s.fab.ports j f } }

/-- A domain record by its id: the die and index are fields of the id, and the id must be the record's own (R170). -/
def State.domain (s : State) (id : BitVec 32) : Option DomRec :=
  if id = 0#32 then none
  else match SMap.look none (s.die (id.toNat / 2 ^ 28)).records (id.toNat % 4096) with
    | some d => if d.id = id then some d else none
    | none => none

/-- Write or free a domain record. -/
def State.setDomain (s : State) (id : BitVec 32) (r : Option DomRec) : State :=
  s.onDie (id.toNat / 2 ^ 28) (fun d => { d with records := SMap.put none d.records (id.toNat % 4096) r })

/-- Change a domain record, where there is one. -/
def State.onDomain (s : State) (id : BitVec 32) (f : DomRec → DomRec) : State :=
  match s.domain id with
  | none => s
  | some d => s.setDomain id (some (f d))

/-- Every domain record of the package. -/
def State.domains (s : State) : List DomRec := s.dies.flatMap (fun e => e.2.records.filterMap (fun r => r.2))

/-- Send a message out. -/
def State.send (s : State) (m : OutMsg) : State := { s with outbox := enq s.outbox m }

/-- The next free value (a value the spec calls undefined) and the state that has taken it. -/
def State.free (s : State) : Word × State := (Config.freeWord s.freeCtr, { s with freeCtr := s.freeCtr + 1 })

/-- The next entry of the plan: whether the operation now leaving the rotation stays out (R182). -/
def State.planned (s : State) : Bool := s.plan.headD false

/-- The state after the plan's entry has been used. -/
def State.replan (s : State) : State := { s with plan := s.plan.tail }

/-! ## Registers -/

/-- The value of a scalar register; s0 reads zero (R262). -/
def Regs.get (r : Regs) (n : RegNo) : Word := if n = 0#5 then 0#64 else SMap.look 0#64 r.sregs n.toNat

/-- Write a scalar register; a write to s0 is discarded (R262). -/
def Regs.set (r : Regs) (n : RegNo) (v : Word) : Regs :=
  if n = 0#5 then r else { r with sregs := SMap.put 0#64 r.sregs n.toNat v }

/-- The value of a vector register (R265). -/
def Regs.vget (r : Regs) (n : Nat) : VReg := SMap.look 0#1024 r.vregs n

/-- Write a vector register (R265). -/
def Regs.vset (r : Regs) (n : Nat) (v : VReg) : Regs := { r with vregs := SMap.put 0#1024 r.vregs n v }

/-- A scalar register of the issuing context. -/
def State.rd (s : State) (n : RegNo) : Word := s.cx.r.get n

/-- Replace the issuing context's registers. -/
def State.setR (s : State) (r : Regs) : State := { s with cx := { s.cx with r := r } }

/-- Bound die, core and die-local facts of the issuing context. -/
def State.myCore (s : State) : CoreSt := s.core s.cur.die s.cur.core

/-- The tenant number of the issuing context (R268). -/
def Ctx.tn (x : Ctx) : Nat := x.tenant.toNat % 64

/-! ## Routers and the units behind logical numbers (R16, R39 to R41) -/

/-- What a router register holds after boot, by offset (Tables 2.1 to 2.3, R17, R42): identity maps, no package id. -/
def routerReset (off : Nat) : BitVec 32 :=
  if off < 0x40 then 0x80FFF000#32 ||| BitVec.ofNat 32 (off / 4)
  else if off < 0xC0 then 0x80FFF000#32 ||| BitVec.ofNat 32 (off / 4 - 16)
  else if off = 0xC8 then 0xFFF#32 else 0#32

/-- First address of router k's control block (k = 18, 19 for X0, X1). -/
def routerBase (k : Nat) : Nat := 0x00FFE00000000000 + k * 0x100000

/-- A register of a router. -/
def State.router (s : State) (k off : Nat) : BitVec 32 := SMap.look (routerReset off) s.fab.regs (routerBase k + off)

/-- The bits of a router register that are not reserved (Tables 2.2 and 2.3). -/
def routerMask (off : Nat) : BitVec 32 :=
  if off < 0x40 then 0xC0FFF01F#32
  else if off < 0xC0 then 0xC0FFF03F#32
  else if off = 0xC0 then 0xFFFFFFFF#32
  else if off = 0xC4 then 0x80000FFF#32
  else if off = 0xC8 then 0x00000FFF#32
  else if 0x100 ≤ off && off < 0x140 then 0x8FFFF01F#32 else 0#32

/-- Whether a package id is this package's own: PKGID, or the id that ALIAS names (R41, R43). -/
def State.ownsId (s : State) (pkg : BitVec 12) : Bool :=
  pkg == (s.router 0 0xC8).setWidth 12 || ((s.router 0 0xC4).toNat.testBit 31 && (s.router 0 0xC4).setWidth 12 == pkg)

/-- Write a register of one router. -/
def State.setRouter (s : State) (k off : Nat) (v : BitVec 32) : State :=
  { s with fab := { s.fab with regs := SMap.put (routerReset off) s.fab.regs (routerBase k + off) (v &&& routerMask off) } }

/-- Write a register of every router of the package (R44 step 4). -/
def State.setRouters (s : State) (off : Nat) (v : BitVec 32) : State :=
  (List.range 20).foldl (fun t k => t.setRouter k off v) s

/-- The physical stack behind a logical one (R40). -/
def State.physStack (s : State) (m : Nat) : Nat := (s.router 0 (0x40 + 4 * m)).toNat % 64

/-- The physical die behind a logical one (R40). -/
def State.physDie (s : State) (d : Nat) : Nat := (s.router 0 (4 * d)).toNat % 32

/-- A physical compute die of the package (R13). -/
def State.pdie (s : State) (p : Nat) : PDie := SMap.look {} s.pkg.pdies p

/-- Change a physical compute die. -/
def State.onPDie (s : State) (p : Nat) (f : PDie → PDie) : State :=
  { s with pkg := { s.pkg with pdies := SMap.alter {} s.pkg.pdies p f } }

/-- The physical core behind a logical one of a die (R16). -/
def PDie.core (p : PDie) (c : Nat) : Nat := p.map.getD c c

/-- The physical core behind a logical one (R16). -/
def State.physCore (s : State) (d c : Nat) : Nat := (s.pdie (s.physDie d)).core c

/-- The unit that events of a logical die's shared parts are counted against: its physical die (Table 4.1). -/
def State.dieUnit (s : State) (d : Nat) : FUnit := .dieShared (s.physDie d)

/-- The unit that events of a logical core are counted against: its physical die and core, or the supervisor core, which is a shared
unit of its die (Table 4.1). -/
def State.coreUnit (s : State) (d c : Nat) : FUnit :=
  if c < 64 then .core (s.physDie d) (s.physCore d c) else .supCore (s.physDie d) (c - 64)

/-- Whether the repair record holds a unit (R17, R102). -/
def State.retired (s : State) (u : FUnit) : Bool := s.pkg.fuse0.repair.contains u || s.pkg.fuse1.repair.contains u

/-- Whether a logical core is fenced, itself or its die (R105). -/
def State.fencedCore (s : State) (d c : Nat) : Bool :=
  s.rcv.fenced.contains (s.coreUnit d c) || s.rcv.fenced.contains (s.dieUnit d)

/-! ## Memory and locations -/

/-- This package's fabric id as its routers hold it: PKGID, whose boot value is 0xFFF (R41, R42). -/
def State.pkgid (s : State) : BitVec 12 :=
  (SMap.look 0xFFF#32 s.fab.regs (0x00FFE00000000000 + 0xC8)).setWidth 12

/-- The location of a physical address of this package. -/
def ownLoc (pa : Nat) : Nat := pa

/-- The location of a physical address of another package. -/
def pkgLoc (p : BitVec 12) (pa : Nat) : Nat := (p.toNat + 1) * 2 ^ 56 + pa

/-- The location of a basin byte (R185). -/
def basinLoc (die core off : Nat) : Nat := 2 ^ 72 + (die * 64 + core) * 2 ^ 20 + off

/-- Whether a location is basin memory. -/
def isBasin (loc : Nat) : Bool := decide (2 ^ 72 ≤ loc)

/-- Whether a location is HBM of this package (R57). -/
def isOwn (loc : Nat) : Bool := decide (loc < 2 ^ 56)

/-- The logical stack of an HBM address (R57). -/
def stackOf (pa : Nat) : Nat := pa / 2 ^ 36 % 32

/-- The logical die that homes a location: its stack's die, or the basin's own (R1, R185, R194); none for another
package. -/
def homeDie (loc : Nat) : Option Nat :=
  if isBasin loc then some ((loc - 2 ^ 72) / 2 ^ 26 % 16)
  else if isOwn loc then some (stackOf loc / 2) else none

/-- Whether stack offsets of an HBM address are the base die's own data (R58). -/
def reservedPa (pa : Nat) : Bool := decide (0xEE6B28000 ≤ pa % 2 ^ 36)

/-- One byte of memory. -/
def State.byteAt (s : State) (loc : Nat) : Byte := SMap.look memDefault s.mem loc

/-- `n` bytes of memory from a location. -/
def State.bytesAt (s : State) (loc n : Nat) : List Byte := (List.range n).map (fun i => s.byteAt (loc + i))

/-- The number in `n` bytes of memory, little-endian (R5). -/
def State.natAtLoc (s : State) (loc n : Nat) : Nat := ofBytes (s.bytesAt loc n)

/-- Write bytes to memory. -/
def writeMem : Memory → Nat → List Byte → Memory
  | m, _, [] => m
  | m, loc, b :: t => writeMem (SMap.put memDefault m loc b) (loc + 1) t

/-- Whether a basin word is full (R186). -/
def State.full (s : State) (word : Nat) : Bool := s.fe.contains word

/-- Set or clear a basin word's full/empty bit (Table 7.2). -/
def State.setFull (s : State) (word : Nat) (b : Bool) : State :=
  { s with fe := if b then insNat s.fe word else without s.fe (· == word) }

/-- The numbers of the 8-byte words that an access touches. -/
def wordsOf (loc n : Nat) : List Nat :=
  if n = 0 then [] else (List.range ((loc + n - 1) / 8 - loc / 8 + 1)).map (fun i => loc / 8 + i)

/-- Whether any byte of an access is poisoned (R91). -/
def State.poisoned (s : State) (loc n : Nat) : Bool := (wordsOf loc n).any (fun w => s.poison.contains w)

/-- Set or clear poison on the words of a range. -/
def State.setPoison (s : State) (loc n : Nat) (b : Bool) : State :=
  { s with poison := (wordsOf loc n).foldl (fun l w => if b then insNat l w else without l (· == w)) s.poison }

/-- The basin words that a write covers whole, whose poison it drops (R91). -/
def coveredWords (loc n : Nat) : List Nat :=
  (wordsOf loc n).filter (fun w => decide (loc ≤ 8 * w) && decide (8 * w + 8 ≤ loc + n))

/-! ## Causal vectors (R218 to R225) -/

/-- Entry of a vector. -/
def vecAt (v : SMap (BitVec 32)) (j : Nat) : BitVec 32 := SMap.look 0#32 v j

/-- Entry-wise maximum of two vectors (R196, R223). -/
def mergeVec (a b : SMap (BitVec 32)) : SMap (BitVec 32) :=
  b.foldl (fun m e => SMap.put 0#32 m e.1 (serialMax (vecAt m e.1) e.2)) a

/-- Raise one entry of a vector. -/
def raiseVec (a : SMap (BitVec 32)) (j : Nat) (n : BitVec 32) : SMap (BitVec 32) :=
  SMap.put 0#32 a j (serialMax (vecAt a j) n)

/-- Whether every entry of `a`, but that of die `skip`, is at least the entry of `b` (R196, R220). -/
def coversVec (a b : SMap (BitVec 32)) (skip : Option Nat) : Bool :=
  (List.range 16).all (fun j => skip == some j || serialGe (vecAt a j) (vecAt b j))

/-- Merge a vector into a die's V (R223, R230). -/
def State.mergeV (s : State) (d : Nat) (v : SMap (BitVec 32)) : State := s.onDie d (fun x => { x with v := mergeVec x.v v })

/-- K[d] of die d: one less than the oldest number not acknowledged, or N (R218). -/
def kOwn (n : BitVec 32) (unacked : List (BitVec 32)) : BitVec 32 :=
  match unacked with
  | [] => n
  | u :: _ => u - 1#32

/-- Give the next causal write of a die its number; it is not yet acknowledged (R218). -/
def State.bump (s : State) (d : Nat) : BitVec 32 × State :=
  let n := (s.die d).n + 1#32
  (n, s.onDie d (fun x => { x with n := n, v := SMap.put 0#32 x.v d n, unacked := enq x.unacked n }))

/-- A causal write of die `d` is acknowledged, or for a write of the second kind performed (R218). -/
def State.acked (s : State) (d : Nat) (n : BitVec 32) : State :=
  s.onDie d (fun x =>
    let u := x.unacked.filter (· != n)
    { x with unacked := u, k := SMap.put 0#32 x.k d (kOwn x.n u) })

/-- Young entries of a die that its K has not yet passed (R221). -/
def DieSt.liveYoung (x : DieSt) : List Young := x.young.filter (fun y => !serialGe (vecAt x.k y.src) y.num)

/-- Drop the young entries that have retired (R221). -/
def State.retireYoung (s : State) (d : Nat) : State := s.onDie d (fun x => { x with young := x.liveYoung })

/-! ## Lending and parking (R162 to R167) -/

/-- The turns lent on a core: by LEND, by default, or for a wait under HSCHED (R162, R269). -/
def State.lentMask (s : State) (d c : Nat) : Nat :=
  (List.range 8).foldl (fun m t =>
    if m.testBit t then m
    else if (s.ctx ⟨d, c, t, false⟩).offered then m + 2 ^ t else m) (s.core d c).lentTurns.toNat

/-- Whether a harvest context's turn is its to use: lent, and the owner out of the rotation (R165). -/
def State.turnFree (s : State) (c : CtxId) : Bool :=
  (s.lentMask c.die c.core).testBit c.turn && decide ((s.ctx c.owner).st ≠ .run)

/-- Give up a runahead: the checkpoint is restored (R208). -/
def Ctx.restore (x : Ctx) : Ctx :=
  match x.ahead with
  | none => x
  | some a => { x with r := a.saved, ahead := some { a with ended := true } }

/-- Park the harvest context of a turn, if it is in RUN (R166, R167). -/
def State.park (s : State) (c : CtxId) : State :=
  let h := c.harvest
  let x := s.ctx h
  if x.st = .run then
    (s.setCtx h { x.restore with st := .parked }).onCore c.die c.core
      (fun k => { k with revoke := min (k.revoke + 1) 0xFFFF })
  else s

/-- An owner becomes ready: it is in RUN, an offered turn is withdrawn, and its turn's harvest context parks (R166).  One that
is being pre-empted stops instead, until its spill starts (R160). -/
def State.ownerReady (s : State) (c : CtxId) : State :=
  if (s.ctx c).spill.isSome then s.onCtx c (fun x => { x with st := .wait, wait := .none, offered := false })
  else (s.onCtx c (fun x => { x with st := .run, offered := false })).park c

/-- A context becomes able to issue: RUN, or PARKED for a harvest context whose turn is not available (R141, R165). -/
def State.ready (s : State) (c : CtxId) : State :=
  if c.reserve then
    if s.turnFree c then s.onCtx c (fun x => { x with st := .run })
    else s.onCtx c (fun x => { x with st := .parked })
  else s.ownerReady c

/-- A context's wait ends; a synchronising wait's instruction issues again (R141, R160). -/
def State.wake (s : State) (c : CtxId) : State :=
  if (s.ctx c).st = .wait then (s.onCtx c (fun x => { x with wait := .none })).ready c else s

/-- Wake every context whose wait meets a test. -/
def State.wakeAll (s : State) (p : CtxId → Wait → Bool) : State :=
  s.allCtx.foldl (fun t e => if p e.1 e.2.wait then t.wake e.1 else t) s

/-- Wake the contexts that wait for `w`; a LEND waits for scoreboard entries too (R408). -/
def State.wakeWhy (s : State) (w : Why) : State :=
  s.wakeAll (fun _ x => x == .retry w || (w == .scoreboard && x == .retry .lend))

/-- Unpark the harvest contexts of a core whose turns are available (R141, R167). -/
def State.unparkCore (s : State) (d c : Nat) : State :=
  (List.range 8).foldl (fun t k =>
    let h : CtxId := ⟨d, c, k, true⟩
    let held := ((t.domain ((t.ctx h).r.dom.setWidth 32)).map (·.restart)).getD false
    if (t.ctx h).st = .parked && t.turnFree h && !held then t.onCtx h (fun x => { x with st := .run }) else t) s

/-- Whether the issuing context lends its turn for a wait: an owner with HSCHED OFFER whose turn is not lent (Table 10.7). -/
def State.offers (s : State) : Bool :=
  !s.cur.reserve && !s.cur.isSup && s.cx.r.hints.any (fun h => h.kind = 2#3 && h.payload = 1#22)
    && !(s.core s.cur.die s.cur.core).lentTurns.toNat.testBit s.cur.turn

/-- The counters of sr.hstat are cleared when a core begins to lend (R270). -/
def CoreSt.beginLend (k : CoreSt) : CoreSt := { k with hcyc := 0, revoke := 0, pgret := 0 }

/-- The issuing context leaves the rotation (R182).  An owner that OFFERs by HSCHED lends its turn for the wait, as by LEND
(R269, R270, Table 10.7). -/
def State.goWait (s : State) (w : Wait) : State :=
  let t := { s with cx := { s.cx with st := .wait, wait := w, offered := s.offers } }
  if s.offers then
    let begins := s.lentMask s.cur.die s.cur.core = 0 && (s.core s.cur.die s.cur.core).lentPages = []
    (if begins then t.onCore s.cur.die s.cur.core CoreSt.beginLend else t).unparkCore s.cur.die s.cur.core
  else t

/-- The issuing context leaves the rotation for a condition; its instruction issues again when it may hold (R182). -/
def State.waitOn (s : State) (w : Why) : State := s.goWait (.retry w)

/-! ## Finishing an instruction -/

/-- The loop end check of R317, made when the instruction at pc completes without redirecting the pc: the next pc and the
counters. -/
def Regs.loopEnd (r : Regs) : Regs :=
  let n := r.pc + 4#64
  if r.lc1 ≠ 0#64 ∧ r.lend1 = r.pc then
    let c := r.lc1 - 1#64
    if c ≠ 0#64 then { r with lc1 := c, pc := r.lstart1 }
    else
      if r.lc0 ≠ 0#64 ∧ r.lend0 = r.pc then
        let c0 := r.lc0 - 1#64
        if c0 ≠ 0#64 then { r with lc1 := c, lc0 := c0, pc := r.lstart0 } else { r with lc1 := c, lc0 := c0, pc := n }
      else { r with lc1 := c, pc := n }
  else if r.lc0 ≠ 0#64 ∧ r.lend0 = r.pc then
    let c0 := r.lc0 - 1#64
    if c0 ≠ 0#64 then { r with lc0 := c0, pc := r.lstart0 } else { r with lc0 := c0, pc := n }
  else { r with pc := n }

/-- An instruction completes without redirecting the pc: the pending hints are used up and the loop end check is made
(R275, R317). -/
def Regs.advance (r : Regs) : Regs := { r.loopEnd with hints := [] }

/-- A branch or jump completes: the pc is its target and no loop end check is made (R317). -/
def Regs.jump (r : Regs) (t : Word) : Regs := { r with pc := t, hints := [] }

/-- The issuing context's instruction completes within the rotation. -/
def State.finish (s : State) (r : Regs) : State := s.setR r.advance

/-- The instruction completes, writing one scalar register. -/
def State.finishSet (s : State) (d : RegNo) (v : Word) : State := s.finish (s.cx.r.set d v)

/-- An operation that leaves the rotation and whose condition holds: it completes in this step, or, where the plan says so,
stays out as an operation in flight until its completing event (R182). -/
def State.finishLong (s : State) (r : Regs) : State :=
  if s.planned then s.replan.goWait (.result r) else s.replan.finish r

/-! ## Taking an exception and returning from one (R284, R335) -/

/-- The address of the first word of the instruction's chain (R278). -/
def Regs.chainStart (r : Regs) : Word :=
  match r.hints with
  | [] => r.pc
  | h :: _ => h.addr

/-- The registers after a trap: sr.cause, sr.tval, sr.epc written, the pending hints gone, the pc at the chain's first word
(R278, R284). -/
def Regs.trapped (r : Regs) (cause : BitVec 8) (tval : Word) : Regs :=
  { r with cause := cause.setWidth 64, tval := tval, epc := r.chainStart, pc := r.chainStart, hints := [] }

/-- FLAGS of a trap record: HARV, WRITE, EXEC (Table 10.10). -/
def trapFlags (harv write exec : Bool) : BitVec 8 :=
  (if harv then 1#8 else 0#8) ||| (if write then 2#8 else 0#8) ||| (if exec then 4#8 else 0#8)

/-- The trap record of a context (Table 10.10). -/
def mkTrap (c : CtxId) (x : Ctx) (cause : BitVec 8) (tval : Word) (write exec : Bool) (pages : List Word) (insn : IWord)
    (now : Word) : TrapRec :=
  { ctx := c, cause := cause, flags := trapFlags c.reserve write exec, pages := pages, tenant := x.tn,
    epc := x.r.chainStart, tval := tval, task := x.r.task, dom := x.r.dom, vstart := x.r.vstart,
    launch := (x.bound.map (·.launch)).getD 0, cycle := now, insn := insn }

/-- An item is queued for the supervisor of a die: its cores that wait for one go on (R331). -/
def State.wakeSup (s : State) (d : Nat) : State :=
  [64, 65].foldl (fun t k =>
    let c : CtxId := ⟨d, k, 0, false⟩
    if (t.ctx c).wait = .retry .supervisorItem then t.onCtx c (fun x => { x with st := .run, wait := .none }) else t) s

/-- A command is queued: the supervisor cores of every die that wait for an item go on (R331). -/
def State.wakeSups (s : State) : State := (List.range 16).foldl State.wakeSup s

/-- A message of the service processors reaches the supervisor cores of every die: a WFE that waits for an item completes (R331). -/
def State.tellSups (s : State) : State :=
  (List.range 16).foldl (fun t d => [64, 65].foldl (fun u k =>
    let c : CtxId := ⟨d, k, 0, false⟩
    if (u.ctx c).wait = .retry .supervisorItem then
      u.onCtx c (fun x => { x with st := .run, wait := .none, monitor := none, r := x.r.advance }) else u) t) s

/-- A context takes a trap: a compute-core context is TRAPPED and a record goes to its die's supervisor, whose cores it wakes (R284,
R331); a supervisor core enters its firmware at the trap entry and writes no record (R335).  A record of the context that was
not served concerned a task that is gone. -/
def State.takeTrap (s : State) (c : CtxId) (cause : BitVec 8) (tval : Word) (write exec : Bool) (pages : List Word)
    (insn : IWord) : State :=
  let x := s.ctx c
  if c.isSup then
    s.setCtx c { x with r := { x.r.trapped cause tval with pc := s.pkg.trapEntry }, st := .run, wait := .none }
  else
    let stale (r : TrapRec) : Bool := r.ctx == c
    ({ s.setCtx c { x with r := x.r.trapped cause tval, st := .trapped, wait := .none, offered := false, ahead := none } with
      traps := enq (without s.traps stale) (mkTrap c x cause tval write exec pages insn s.cycle),
      fetching := without s.fetching stale } : State).wakeSup c.die

/-- The issuing context's instruction traps (R11, R284). -/
def State.trap (s : State) (w : IWord) (cause : BitVec 8) (tval : Word) (write : Bool := false) : Res :=
  .next (s.takeTrap s.cur cause tval write false (if cause = 0x04#8 then [tval &&& ~~~0xFFF#64] else []) w)

/-- ILLEGAL_INSTRUCTION with tval the instruction word (R280). -/
def State.illegal (s : State) (w : IWord) : Res := s.trap w 0x01#8 (w.setWidth 64)

/-- PRIVILEGE with tval the instruction word (R282). -/
def State.privilege (s : State) (w : IWord) : Res := s.trap w 0x0E#8 (w.setWidth 64)

/-- The return from an exception on a supervisor core: pc := sr.epc, pending hint state cleared (R329). -/
def State.eret (s : State) : State := s.setR { s.cx.r with pc := s.cx.r.epc, hints := [] }

/-- A trapped context is resumed at sr.epc (R334). -/
def State.resume (s : State) (c : CtxId) : State :=
  (s.onCtx c (fun x => { x with r := { x.r with pc := x.r.epc, hints := [] }, wait := .none })).ready c

/-! ## Hints (R275 to R277) -/

/-- Whether the vector-integer fn codes include saturation: VADD, VSUB, VRSUB, VMUL, VMACC (Table 10.8). -/
def satFn (fn : Nat) : Bool := fn = 1 || fn = 2 || fn = 3 || fn = 4 || fn = 6

/-- The majors that accept HMOD RMO (Table 10.8). -/
def rmoOk (op fn : Nat) : Bool :=
  op = 0x10 || op = 0x11 || op = 0x12 || op = 0x43 || op = 0x44 || op = 0x48 || (op = 0x45 && (fn % 32 = 7 || fn % 32 = 8))

/-- Whether the instruction of a word accepts a hint (R276, Table 10.8). -/
def acceptsHint (w : IWord) (h : Hint) : Bool :=
  let op := w.toNat / 2 ^ 25
  let fn := w.toNat % 1024
  match h.kind.toNat with
  | 0 => (decide (0x04 ≤ op) && decide (op ≤ 0x09)) || (decide (0x0B ≤ op) && decide (op ≤ 0x0D)) || op = 0x16
      || (decide (0x18 ≤ op) && decide (op ≤ 0x2D))
  | 1 => (decide (0x20 ≤ op) && decide (op ≤ 0x2B)) || op = 0x2F || (decide (0x3A ≤ op) && decide (op ≤ 0x40))
      || (op = 0x2E && fn = 0x00A)
  | 2 => !((decide (0x18 ≤ op) && decide (op ≤ 0x1F)) || op = 0x16)
  | 3 =>
    let p := h.payload.toNat
    (p / 4 % 2 = 0 || rmoOk op fn)
      && (p / 8 % 2 = 0 || rmoOk op fn || (op = 0x00 && (fn = 1 || fn = 2)) || (op = 0x02 && fn = 1)
          || (op = 0x01 && (fn = 1 || fn = 2 || fn = 6)) || op = 0x04 || op = 0x0D
          || ((op = 0x41 || op = 0x42) && satFn (fn % 32)))
      && (p / 16 % 4 = 0 || (decide (0x3A ≤ op) && decide (op ≤ 0x40)))
  | _ => true

/-- The first hint of the chain that the instruction does not accept (R277). -/
def badHint (w : IWord) (l : List Hint) : Option Hint := l.find? (fun h => !acceptsHint w h)

/-- The payload of a pending hint of a kind. -/
def Regs.hint (r : Regs) (k : BitVec 3) : Option (BitVec 22) := (r.hints.find? (fun h => h.kind = k)).map (·.payload)

/-- Whether an HMOD with SAT is pending (R247, R308). -/
def Regs.sat (r : Regs) : Bool := match r.hint 3#3 with | some p => p.toNat.testBit 3 | none => false

/-- The rounding override of a pending HMOD, if RMO is set (R246). -/
def Regs.rmo (r : Regs) : Option (BitVec 2) :=
  match r.hint 3#3 with
  | some p => if p.toNat.testBit 2 then some (p.setWidth 2) else none
  | none => none

/-- The cache policy of a pending HCACHE, ALLOC without one (R195). -/
def Regs.cachePolicy (r : Regs) : Nat := match r.hint 1#3 with | some p => p.toNat % 4 | none => 0

/-- An immediate field, sign-extended, widened by a pending IMMX (R273, R274). -/
def Regs.imm (r : Regs) (n : Nat) (f : BitVec n) : Int :=
  match r.hint 0#3 with
  | some p => (p ++ f).toInt
  | none => f.toInt

/-- A word from an integer, modulo 2^64. -/
def wordI (x : Int) : Word := BitVec.ofInt 64 x

end Sys2Proof.Machine
end

