-- ==== Sys2Proof/Machine/Dram.lean ====
section
/-! DEFINITION. Below the homes: rows and banks of a stack, the row-activation tracker, the overflow cache, the lines of the L2 slices
with their eviction and write-back, what DRAM holds under dirty sectors, and stitched write-backs (R56 to R73, R79, R87, R193, R195,
R391). -/

namespace Sys2Proof.Machine

/-! ## Ranges and sectors -/

/-- Whether a byte range meets another. -/
def overlaps (a n b m : Nat) : Bool := decide (a < b + m) && decide (b < a + n) && decide (0 < n) && decide (0 < m)

/-- The numbers of the 128-byte sectors that an access touches. -/
def sectorsOf (loc n : Nat) : List Nat :=
  if n = 0 then [] else (List.range ((loc + n - 1) / 128 - loc / 128 + 1)).map (fun i => loc / 128 + i)

/-- The sectors of a mask, rising. -/
def maskSectors (m : Nat) : List Nat := setBits m 4

/-- The mask bit of a sector of its line. -/
def sectorBit (c : Nat) : BitVec 4 := BitVec.ofNat 4 (2 ^ (c % 4))

/-- Whether any sector that an access touches holds poison: the poison unit of a READ and of L2 is the sector (R64, R91, R193). -/
def State.sectorPoisoned (s : State) (loc n : Nat) : Bool := (sectorsOf loc n).any (fun c => s.poisoned (c * 128) 128)

/-! ## Addresses, rows and the row-activation tracker (R57, R61, R72, R73, R87) -/

/-- Bank number within the stack, pseudo-channel and bank together, of an address (R57). -/
def bankOf (pa : Nat) : Nat := ((pa / 2 ^ 9 % 64) ^^^ (pa / 2 ^ 21 % 64)) * 64 + pa / 2 ^ 16 % 64

/-- Row of an address (R57). -/
def rowOf (pa : Nat) : Nat := pa / 2 ^ 22 % 2 ^ 14

/-- Whether the pseudo-channel is odd, so that port B serves it (R61). -/
def oddPc (pa : Nat) : Bool := decide (bankOf pa / 64 % 2 = 1)

/-- The bank and row that an address activates: its own, or the reserve row that the repair record gives (R87). -/
def StackSt.place (t : StackSt) (pa : Nat) : Nat × Nat :=
  match (t.remaps.zipIdx.filter (fun e => e.1 == (bankOf pa, rowOf pa))).getLast? with
  | some e => Config.reserveRow e.2
  | none => (bankOf pa, rowOf pa)

/-- The rows that a directed refresh-management command for row w refreshes: w-2, w-1, w+1 and w+2, those outside the bank skipped
(R56, R72). -/
def neighbours (w : Nat) : List Nat :=
  (if 2 ≤ w then [w - 2] else []) ++ (if 1 ≤ w then [w - 1] else []) ++ ([w + 1, w + 2].filter (· < 16384))

/-- An activation of a row: the tracker's algorithm; at the threshold one directed refresh-management command is issued for the row's
neighbours, which occupies the bank (R72, R73). -/
def StackSt.activate (t : StackSt) (b w : Nat) : StackSt :=
  let k := SMap.look {} t.tracker b
  let es := if k.entries.isEmpty then List.replicate 16 ((none, 0) : Option Nat × Nat) else k.entries
  let hit := es.findIdx? (fun e => e.1 == some w)
  let old := es.findIdx? (fun e => e.2 == k.spill)
  let r : List (Option Nat × Nat) × Nat × Option Nat := match hit, old with
    | some i, _ => (es.set i (some w, min ((es.getD i (none, 0)).2 + 1) 0xFFFFF), k.spill, some i)
    | none, some i => (es.set i (some w, min (k.spill + 1) 0xFFFFF), k.spill, some i)
    | none, none => (es, min (k.spill + 1) 0xFFFFF, none)
  let hot := match r.2.2 with
    | some i => decide (max t.thresh 64 ≤ (r.1.getD i (none, 0)).2)
    | none => false
  let es1 := match r.2.2 with
    | some i => if hot then r.1.set i ((r.1.getD i (none, 0)).1, r.2.1) else r.1
    | none => r.1
  let t1 := { t with tracker := SMap.put {} t.tracker b { entries := es1, spill := r.2.1 }, openRows := SMap.put 0 t.openRows b (w + 1) }
  if hot then { t1 with ratcnt := min (t1.ratcnt + 1) 0xFFFFFFFF, refreshing := enq t1.refreshing (b, neighbours w) } else t1

/-- A DRAM access to an address: it activates the row unless it is open (R72). -/
def StackSt.access (t : StackSt) (pa : Nat) : StackSt :=
  let p := t.place pa
  if SMap.look 0 t.openRows p.1 = p.2 + 1 then t else t.activate p.1 p.2

/-- Whether a granule of a range is locked by a read-modify-write or by a stitched write that is held (R66, R79, R80). -/
def StackSt.lockedRange (t : StackSt) (pa n : Nat) : Bool :=
  t.locks.any (fun l => overlaps pa n (l.1 * 32) 32)
    || t.stitchHeld.any (fun h => (maskSectors (h.1.opx.toNat % 16)).any (fun i =>
      overlaps pa n (h.1.addr.toNat % 2 ^ 41 / 512 * 512 + 128 * i) 128))

/-- Whether a bank is under directed refresh (R73). -/
def StackSt.inRefresh (t : StackSt) (pa : Nat) : Bool := t.refreshing.any (fun r => r.1 == (t.place pa).1)

/-! ## What DRAM holds (R69, R79) -/

/-- The bytes that DRAM holds of a sector. -/
def State.dramBytes (s : State) (c : Nat) : List Byte :=
  match SMap.look none s.under c with
  | some u => u.bytes
  | none => s.bytesAt (c * 128) 128

/-- The poisoned granules of a sector, of memory as it reads. -/
def State.granules (s : State) (c : Nat) : BitVec 4 :=
  BitVec.ofNat 4 ((List.range 4).foldl (fun m i => if s.poisoned (c * 128 + 32 * i) 32 then m + 2 ^ i else m) 0)

/-- Whether DRAM holds poison in a sector (R59). -/
def State.dramPoison (s : State) (c : Nat) : Bool :=
  match SMap.look none s.under c with
  | some u => u.poison != 0#4
  | none => s.poisoned (c * 128) 128

/-- A sector becomes dirty above DRAM: what DRAM holds of it is kept. -/
def State.keepUnder (s : State) (c : Nat) : State :=
  match SMap.look none s.under c with
  | some _ => s
  | none => { s with under := SMap.put none s.under c (some ⟨s.bytesAt (c * 128) 128, s.granules c⟩) }

/-- DRAM holds a sector as it reads now. -/
def State.dropUnder (s : State) (c : Nat) : State := { s with under := SMap.drop s.under c }

/-- Bytes of memory replaced, with poison as the argument says. -/
def State.putRaw (s : State) (loc : Nat) (b : List Byte) : State := { s with mem := writeMem s.mem loc b }

/-- A clean sector is dropped above DRAM: its bytes are DRAM's, and it is poisoned where DRAM is, an SRAM error's poison being gone
(R59, R91). -/
def State.settleSector (s : State) (c : Nat) : State :=
  match SMap.look none s.under c with
  | none => s
  | some u =>
    ((List.range 4).foldl (fun v i => if u.poison.toNat.testBit i then v.setPoison (c * 128 + 32 * i) 32 true else v)
      (s.setPoison (c * 128) 128 false)).dropUnder c

/-- A dirty sector is lost: it reads as DRAM holds it. -/
def State.revert (s : State) (c : Nat) : State :=
  match SMap.look none s.under c with
  | none => s
  | some u => (s.putRaw (c * 128) u.bytes).settleSector c

/-! ## The overflow cache (R68 to R71) -/

/-- The stack that serves an address (R57, R60). -/
def State.stackAt (s : State) (pa : Nat) : Nat := s.physStack (stackOf pa)

/-- The dirty mask of a line in the overflow cache. -/
def StackSt.ocMask (t : StackSt) (line : Nat) : Option (BitVec 4) := (t.oc.find? (fun e => e.1 == line)).map (·.2)

/-- Drop a line from the overflow cache. -/
def StackSt.ocDrop (t : StackSt) (line : Nat) : StackSt := { t with oc := without t.oc (fun e => e.1 == line) }

/-- Sectors of a line reach DRAM: one access to its row, where there is one at all, and nothing is kept under them. -/
def State.toDram (s : State) (h line : Nat) (m : BitVec 4) : State :=
  if m = 0#4 then s
  else (maskSectors m.toNat).foldl (fun t i => t.dropUnder (line * 4 + i)) (s.onStack h (·.access (line * 512)))

/-- Write the dirty sectors of an overflow line to DRAM, those of a mask left out, and drop it (R69 to R71). -/
def State.ocWriteBack (s : State) (h line : Nat) (skip : BitVec 4) : State :=
  match (s.stack h).ocMask line with
  | none => s
  | some d =>
    (maskSectors (~~~(d ||| skip)).toNat).foldl (fun t i => t.settleSector (line * 4 + i)) ((s.onStack h (·.ocDrop line)).toDram h line (d &&& ~~~skip))

/-- A line enters the overflow cache; the least recently filled line of a full set is written back and dropped (R68, R69).  While the cache
is disabled its dirty sectors go to DRAM (R71). -/
def State.ocFill (s : State) (h line : Nat) (dirty : BitVec 4) : State :=
  if !(s.stack h).ocEn then s.toDram h line dirty
  else
    let t := (s.stack h).ocDrop line
    let set := t.oc.filter (fun e => decide (e.1 % 4096 = line % 4096))
    let s1 := s.onStack h (·.ocDrop line)
    let s2 := match set with
      | e :: _ => if 16 ≤ set.length then s1.ocWriteBack h e.1 0#4 else s1
      | [] => s1
    s2.onStack h (fun t => { t with oc := enq t.oc (line, dirty) })

/-- Drop an overflow line without write-back: its dirty sectors read as DRAM holds them (Table 3.2). -/
def State.ocDiscard (s : State) (h line : Nat) : State :=
  match (s.stack h).ocMask line with
  | none => s
  | some _ => (List.range 4).foldl (fun t i => t.revert (line * 4 + i)) (s.onStack h (·.ocDrop line))

/-! ## Windows that cover a location (R194, R203) -/

/-- The package that a location belongs to (R203). -/
def locPkg (s : State) (loc : Nat) : BitVec 12 :=
  if isOwn loc then s.pkgid else BitVec.ofNat 12 (loc / 2 ^ 56 - 1)

/-- A valid window of a tenant that covers a location. -/
def State.windowOver (s : State) (loc : Nat) : Option Window :=
  let pa := loc % 2 ^ 56
  (s.tenants.flatMap (fun e => ((e.2.map (fun t => t.windows.map (·.2))).getD []))).find? (fun w =>
      w.valid && (w.pkg == locPkg s loc || (isOwn loc && s.ownsId w.pkg)) && decide (w.pbase * 4096 ≤ pa) && decide (pa < w.pend * 4096))

/-- Whether a location lies on a SHIP page, which no cache holds (R74 to R78). -/
def State.isShip (s : State) (loc : Nat) : Bool := ((s.windowOver loc).map (·.ship)).getD false

/-- The stitch group of the window over a location, where it is stitched (R203). -/
def State.stitchOf (s : State) (loc : Nat) : Option (BitVec 16) :=
  match s.windowOver loc with
  | some w => if w.stitch then some w.sgrp else none
  | none => none

/-! ## Stitched write-backs (R79, R80, R391) -/

/-- The domain that a stitched sector is tagged with at its home, 0 for none (R391). -/
def State.tagDomain (s : State) (c : Nat) : BitVec 32 :=
  match homeDie (c * 128) with
  | some h => (((s.die h).tags.find? (fun t => t.2.1 == c)).map (·.2.2)).getD 0#32
  | none => 0#32

/-- The WRITE with OPX[6] = 1 that a slice sends for sectors of a stitched line (Table 3.2). -/
def State.stitchPacket (s : State) (slice line : Nat) (m : BitVec 4) : Packet :=
  let die : BitVec 4 := BitVec.ofNat 4 (stackOf (line * 512) / 2)
  let data := (maskSectors m.toNat).flatMap (fun i => s.bytesAt (line * 512 + 128 * i) 128)
  { hcrc := 0#32, hseq := 0#16, hack := 0#16, ecrc := 0#32, group := 0#32, addr := BitVec.ofNat 56 (line * 512), cvp := false,
    opx := 0x40#7 ||| m.setWidth 7, dpkg := s.pkgid, ddie := die, spkg := s.pkgid, sdie := die, txn := BitVec.ofNat 16 (slice * 256),
    len := BitVec.ofNat 5 (data.length / 32), vc := 0#3, typ := 3#8, payload := data }

/-- The base die performs a stitched write against the old data given: the delta goes to the home die's stitch units, in order, and the new
data reaches DRAM (R79). -/
def State.stitchDelta (s : State) (h slice line : Nat) (m : BitVec 4) (dom : BitVec 32) (old new : List Byte) : State :=
  let q : StitchPkt := { core := slice, line := line, mask := m, delta := List.zipWith (fun a b => a ^^^ b) old new,
                         group := (s.stitchOf (line * 512)).getD 0#16, dom := dom }
  match homeDie (line * 512) with
  | some d => (s.toDram h line m).onDie d (fun x => { x with stitchQ := enq x.stitchQ q })
  | none => s

/-- A stitched write of a slice for sectors of one domain: its delta is taken against what DRAM holds; with poison there the write is held and
the line reported to the service processors, which rebuild it (R79, R80).  The domain owes one acknowledgement (R391). -/
def State.stitchWriteBack (s : State) (slice line : Nat) (m : BitVec 4) (dom : BitVec 32) : State :=
  let h := s.stackAt (line * 512)
  let l := maskSectors m.toNat
  let s1 := s.onDomain dom (fun d => { d with acks := d.acks + 1 })
  if l.any (fun i => s.dramPoison (line * 4 + i)) then
    (s1.onStack h (fun t => { t with stitchHeld := enq t.stitchHeld (s.stitchPacket slice line m, dom) })).send
      (.record "poisoned stitch line" line m.toNat)
  else
    s1.stitchDelta h slice line m dom (l.flatMap (fun i => s.dramBytes (line * 4 + i)))
      (l.flatMap (fun i => s.bytesAt (line * 512 + 128 * i) 128))

/-- The sectors of a mask split by the domain of their tags, in sector order (R391). -/
def State.byDomain (s : State) (line : Nat) (m : BitVec 4) : List (BitVec 32 × BitVec 4) :=
  (maskSectors m.toNat).foldl (fun (l : List (BitVec 32 × BitVec 4)) i =>
    let d := s.tagDomain (line * 4 + i)
    if l.any (fun e => e.1 == d) then l.map (fun e => if e.1 = d then (d, e.2 ||| BitVec.ofNat 4 (2 ^ i)) else e)
    else enq l (d, BitVec.ofNat 4 (2 ^ i))) []

/-! ## The lines of the L2 slices (R69, R193, R195) -/

/-- The entry of a line in a die's slices. -/
def State.l2Line (s : State) (d line : Nat) : Option L2Line := (s.die d).l2.find? (fun x => x.line == line)

/-- Replace the lines of a die's slices. -/
def State.setL2 (s : State) (d : Nat) (f : List L2Line → List L2Line) : State := s.onDie d (fun x => { x with l2 := f x.l2 })

/-- Write the dirty sectors of a mask of a line that a slice holds back to its stack: a stitched line by WRITE with OPX[6] = 1 (R69, R79);
the sectors are clean, and their tags gone. -/
def State.l2WriteBack (s : State) (d : Nat) (x : L2Line) (m : BitVec 4) : State :=
  let w := x.dirty &&& m
  let s1 : State := match s.stitchOf (x.line * 512) with
    | some _ => (s.byDomain x.line w).foldl (fun (t : State) e => t.stitchWriteBack x.slice x.line e.2 e.1) s
    | none => s.toDram (s.stackAt (x.line * 512)) x.line w
  s1.onDie d (fun k =>
    { k with l2 := k.l2.map (fun y => if y.line = x.line then { y with dirty := y.dirty &&& ~~~w } else y),
             tags := without k.tags (fun t => decide (t.2.1 / 4 = x.line) && w.toNat.testBit (t.2.1 % 4)) })

/-- Clean sectors of a line are dropped: one that an SRAM error had poisoned above DRAM reads as DRAM holds it (R91). -/
def State.dropClean (s : State) (line : Nat) (dirty : BitVec 4) : State :=
  (maskSectors (~~~dirty).toNat).foldl (fun t i => t.settleSector (line * 4 + i)) s

/-- A slice evicts a line: one whose four sectors are valid and whose page is not stitched goes to the overflow cache by a victim write;
otherwise the dirty sectors are written back and the clean ones dropped (R69). -/
def State.l2Evict (s : State) (d : Nat) (x : L2Line) : State :=
  let s1 :=
    if x.valid = 15#4 && (s.stitchOf (x.line * 512)).isNone then s.ocFill (s.stackAt (x.line * 512)) x.line x.dirty
    else (s.l2WriteBack d x 15#4).dropClean x.line x.dirty
  s1.setL2 d (fun l => without l (fun y => y.line == x.line))

/-- The lines of the set that a line belongs to, least recently used first: 512 sets a slice, chosen by pa[17:9] (R193). -/
def setOf (l : List L2Line) (slice line : Nat) : List L2Line :=
  l.filter (fun y => y.slice == slice && decide (y.line % 512 = line % 512))

/-- Put a line into its slice as most or least recently used; in a full set the first line that is not kept makes room, a kept one only when
all 16 are (R193, R195).  With `keep` the line is marked kept while fewer than 12 of its set are (Table 7.5). -/
def State.l2Put (s : State) (d : Nat) (x : L2Line) (lru keep : Bool) : State :=
  let set := setOf (s.die d).l2 x.slice x.line
  let others := without set (fun y => y.line == x.line)
  let s1 := if others.length < 16 then s else match others.find? (fun y => !y.kept), others with
    | some v, _ => s.l2Evict d v
    | none, v :: _ => s.l2Evict d v
    | none, [] => s
  let kept := x.kept || (keep && decide ((others.filter (·.kept)).length < 12))
  s1.setL2 d (fun l =>
    let r := without l (fun y => y.line == x.line)
    if lru then { x with kept := kept } :: r else enq r { x with kept := kept })

/-- A line of a slice before an access, an empty one where it is not held. -/
def State.l2Or (s : State) (d slice line : Nat) : L2Line := (s.l2Line d line).getD ⟨line, slice, 0#4, 0#4, false⟩

/-- The sectors of a line that a slice holds, among those an access needs; 1 is a hit on all of them. -/
def State.l2Misses (s : State) (d line : Nat) (need : BitVec 4) : Bool :=
  need &&& ~~~((s.l2Line d line).map (·.valid)).getD 0#4 != 0#4

/-- A READ of a slice at the base die: a line in the overflow cache leaves it whole with its dirty mask; otherwise DRAM is accessed (R64,
R70).  The sectors returned and those of them that are dirty. -/
def State.baseRead (s : State) (line : Nat) (need : BitVec 4) : BitVec 4 × BitVec 4 × State :=
  let h := s.stackAt (line * 512)
  match (s.stack h).ocMask line with
  | some d => (15#4, d, s.onStack h (·.ocDrop line))
  | none => (need, 0#4, s.onStack h (·.access (line * 512)))

/-- A read of sectors of a line at its home slice, under a cache policy of Table 7.5: 0 ALLOC, 1 STREAM, 2 NOALLOC, 3 KEEP.  A line that
the overflow cache gave up is installed whatever the policy, for R70 leaves it nowhere else. -/
def State.l2Read (s : State) (d slice line : Nat) (need : BitVec 4) (pol : Nat) : State :=
  let x := s.l2Or d slice line
  let miss := need &&& ~~~x.valid
  if miss = 0#4 then s.l2Put d x false (pol == 3)
  else
    let r := s.baseRead line miss
    if pol = 2 && r.1 = miss && r.2.1 = 0#4 then r.2.2
    else r.2.2.l2Put d { x with valid := x.valid ||| r.1, dirty := x.dirty ||| r.2.1 } (pol == 1 && x.valid == 0#4) (pol == 3)

/-- Whether a store of a sector goes to the base die without allocating: under NOALLOC, a sector that missed, of a page that is not
stitched (Table 7.5; a stitched sector is allocated, so that its write-back carries a delta by R79). -/
def State.bypasses (s : State) (d c pol : Nat) : Bool :=
  pol == 2 && s.l2Misses d (c / 4) (sectorBit c) && (s.stitchOf (c * 128)).isNone

/-- A store to a sector at its home slice: the sector is filled, if it missed, and becomes dirty (R193, Table 7.5). -/
def State.l2Write (s : State) (d slice c pol : Nat) : State :=
  let s1 := (s.l2Read d slice (c / 4) (sectorBit c) (if pol = 2 then 0 else pol)).keepUnder c
  s1.setL2 d (fun l => l.map (fun y => if y.line = c / 4 then { y with dirty := y.dirty ||| sectorBit c } else y))

/-- A part of a cached sector is written: a sector written whole loses its poison; a part of a poisoned one leaves the whole sector
poisoned, for the sector is L2's unit (R91). -/
def State.cachedPart (s : State) (c loc : Nat) (b : List Byte) : State :=
  let t := s.putRaw loc b
  if b.length = 128 then t.setPoison (c * 128) 128 false
  else if s.poisoned (c * 128) 128 then t.setPoison (c * 128) 128 true else t

/-- Bytes within one sector written at the base die by WRITE_MASKED, or by WRITE for a whole sector: a masked write of a poisoned granule
is not performed, and the service processors are told (R59, R63, R66).  A line in the overflow cache takes a masked write; a whole write
first sends its other dirty sectors to DRAM (R66, R70). -/
def State.basePart (s : State) (slice c loc : Nat) (b : List Byte) : State :=
  let h := s.stackAt (c * 128)
  if b.length = 128 then
    (((s.ocWriteBack h (c / 4) (sectorBit c)).onStack h (·.access (c * 128))).putRaw loc b).setPoison (c * 128) 128 false |>.dropUnder c
  else match (s.stack h).ocMask (c / 4) with
    | some d =>
      let oc (t : StackSt) : StackSt := { t with oc := t.oc.map (fun e => if e.1 = c / 4 then (e.1, d ||| sectorBit c) else e) }
      ((s.keepUnder c).onStack h oc).cachedPart c loc b
    | none =>
      let g := fun (t : State) (i : Nat) =>
        let lo := max loc (32 * i)
        let hi := min (loc + b.length) (32 * i + 32)
        if t.poisoned (32 * i) 32 then t.send (.record "poisoned granule" i slice)
        else t.putRaw lo ((b.drop (lo - loc)).take (hi - lo))
      ((List.range ((loc + b.length - 1) / 32 - loc / 32 + 1)).map (loc / 32 + ·)).foldl g (s.onStack h (·.access loc))

/-- The parts of a range of bytes by sector: sector, location and bytes. -/
def partsOf (loc : Nat) (b : List Byte) : List (Nat × Nat × List Byte) :=
  (sectorsOf loc b.length).map (fun c =>
    let lo := max loc (c * 128)
    let hi := min (loc + b.length) (c * 128 + 128)
    (c, lo, (b.drop (lo - loc)).take (hi - lo)))

/-- Write back, and where asked drop, the lines of a die's slices that meet a range; their stacks get FLUSH for each line, which writes back
and drops an overflow copy (R70, R211, R324). -/
def State.l2Clean (s : State) (d loc n : Nat) (inv : Bool) : State :=
  let hit (line : Nat) : Bool := overlaps loc n (line * 512) 512
  let lines := (s.die d).l2.filter (fun x => hit x.line)
  let s1 := lines.foldl (fun t x => t.l2WriteBack d x 15#4) s
  let s2 := if inv then (lines.foldl (fun (t : State) x => t.dropClean x.line x.dirty) s1).setL2 d (fun l => without l (fun x => hit x.line)) else s1
  ([2 * d, 2 * d + 1].map s2.physStack).foldl (fun t h =>
    ((t.stack h).oc.filter (fun e => hit e.1)).foldl (fun u e => u.ocWriteBack h e.1 0#4) t) s2

/-- Write every dirty line of a slice of a die, or of all of them, back and drop the lines; victims may go to the overflow cache (R69,
R93). -/
def State.l2Drain (s : State) (d : Nat) (slice : Option Nat) : State :=
  ((s.die d).l2.filter (fun x => match slice with | some k => x.slice == k | none => true)).foldl (fun t x => t.l2Evict d x) s

/-- What a slice of a die, or all of them, hold is gone: dirty sectors read as DRAM holds them (R94, R95). -/
def State.l2Lose (s : State) (d : Nat) (slice : Option Nat) : State :=
  let mine (k : Nat) : Bool := match slice with | some j => k == j | none => true
  let gone := (s.die d).l2.filter (fun x => mine x.slice)
  let s1 := gone.foldl (fun t x => (List.range 4).foldl (fun u i => u.revert (x.line * 4 + i)) t) s
  s1.onDie d (fun k => { k with l2 := without k.l2 (fun x => mine x.slice), tags := without k.tags (fun t => mine t.1) })

/-- An uncorrectable SRAM error in a sector that a slice holds poisons the sector there; DRAM below keeps what it holds (R91). -/
def State.poisonCached (s : State) (c : Nat) : State :=
  match homeDie (c * 128) with
  | some d => if s.l2Misses d (c / 4) (sectorBit c) then s else (s.keepUnder c).setPoison (c * 128) 128 true
  | none => s

/-! ## When a base die can serve (R62, R66, R73, R80, R97, R105) -/

/-- The requester port of a slice for an address: the stack, and whether its pseudo-channel is odd (R61). -/
def State.requester (s : State) (pa : Nat) : Nat := 2 * s.stackAt pa + (if oddPc pa then 1 else 0)

/-- Whether a request for an address goes to port B of its stack: port B serves odd pseudo-channels, and the port that is left serves all
(R61, R67). -/
def State.portB (s : State) (pa : Nat) : Bool :=
  let t := s.stack (s.stackAt pa)
  (oddPc pa && t.portB) || !t.portA

/-- The lowest free tag of a requester port (R62). -/
def State.freeTag (s : State) (slice port : Nat) : Option Nat :=
  (List.range 8).find? (fun k => !s.fab.tags.contains (slice, port, k))

/-- Whether a line has a request waiting at its base die, so that a later one waits behind it (R65). -/
def StackSt.queuedFor (t : StackSt) (pa n : Nat) : Bool :=
  t.queue.any (fun p => overlaps pa n (p.addr.toNat % 2 ^ 41 / 512 * 512) 512)

/-- Whether a request of a slice to the base die of an address must wait: a locked granule, a bank under directed refresh, an earlier request
that waits, or no free tag (R62, R65, R66, R73). -/
def State.baseWaits (s : State) (slice pa n : Nat) : Bool :=
  let t := s.stack (s.stackAt pa)
  t.lockedRange pa n || t.inRefresh pa || t.queuedFor pa n || (s.freeTag slice (s.requester pa)).isNone

/-- Whether a sector lies in a stitched page of a stack that a spare rebuilds and is not rebuilt yet (R97, R110). -/
def State.unrebuilt (s : State) (c : Nat) : Bool :=
  let t := s.stack (s.stackAt (c * 128))
  match t.rebuild with
  | some r => decide (r.1 = stackOf (c * 128)) && decide (r.2 ≤ c * 128 % 2 ^ 36 / 128) && !t.rebuilt.contains c
      && (s.stitchOf (c * 128)).isSome
  | none => false

/-- Whether a home slice is fenced, so that the routers deliver no new request to it (R105). -/
def State.fencedSlice (s : State) (d slice : Nat) : Bool := s.rcv.fenced != [] && s.fencedCore d slice

/-- Why an access to bytes that a slice homes must wait, if it must: its unit is fenced, or a request to the base die has to wait (R62, R65,
R66, R73, R97, R105). -/
def State.homeWait (s : State) (d slice loc n : Nat) : Option Why :=
  if s.fencedSlice d slice || (s.rcv.fenced != [] && s.rcv.fenced.contains (.stack (s.stackAt loc))) then some (.baseDie (s.stackAt loc)) else
  let miss := (sectorsOf loc n).filter (fun c => s.isShip loc || s.l2Misses d (c / 4) (sectorBit c))
  match miss.find? s.unrebuilt with
  | some c => some (.rebuild c)
  | none => if !miss.isEmpty && s.baseWaits slice loc n then some (.baseDie (s.stackAt loc)) else none

end Sys2Proof.Machine
end

