-- ==== Sys2Proof/Machine/Mem.lean ====
section
/-! DEFINITION. Address translation in the order of Table 7.6, and the performing of writes and reads at their homes
(R185 to R203, R216 to R223, R319, R323). -/

namespace Sys2Proof.Machine

/-- The kind of an access (Table 0.3). -/
inductive AccKind where
  | rd | wr | ex
deriving DecidableEq, Repr, Inhabited

/-- The permission bit an access needs: R bit 0, W bit 1, X bit 2 (Tables 7.7 and 7.8). -/
def AccKind.bit : AccKind → Nat
  | .rd => 0
  | .wr => 1
  | .ex => 2

/-- A translated access. -/
structure Access where
  /-- Location of its first byte. -/
  loc : Nat
  /-- The window that passed the check (R203). -/
  win : Window
  /-- Home slice (R194). -/
  slice : Nat
  /-- Whether the page is marked by the lost-data rule (R95). -/
  marked : Bool
  /-- The translation to be put into the TLBs (R202). -/
  fill : Option TlbEntry
deriving DecidableEq, Repr, Inhabited

/-- The outcome of the address checks (Table 7.6). -/
inductive Tr where
  /-- Translated. -/
  | ok (a : Access)
  /-- A fault taken at once, with its cause. -/
  | fault (cause : BitVec 8)
  /-- An address in the aperture: channel and offset (R192). -/
  | aperture (chan off : Nat)
  /-- The page is not present or malformed (R201). -/
  | absent
deriving DecidableEq, Repr, Inhabited

/-- First address of the basin window (R185). -/
def basinBase : Nat := 0xFFFF800000000000

/-- First address of the sluice aperture (R192). -/
def apertureBase : Nat := 0xFFFF800000100000

/-- Canonical form: bits 63 to 47 all equal (R199). -/
def canonical (va : Word) : Bool := decide (va.toNat < 2 ^ 47) || decide (2 ^ 64 - 2 ^ 47 ≤ va.toNat)

/-- Whether an address lies in the basin window (R185). -/
def inBasinWin (va : Word) : Bool := decide (basinBase ≤ va.toNat) && decide (va.toNat < basinBase + 2 ^ 20)

/-- Whether a context may reach a page of its core's basin (R185). -/
def State.basinPageOk (s : State) (c : CtxId) (tn page : Nat) : Bool :=
  let k := s.core c.die c.core
  if c.reserve then k.harvestTenant == some tn && k.lentPages.contains page
  else SMap.look 0 k.pages page == tn + 1 && !k.lentPages.contains page

/-- The slice of HASH with a mask (R194). -/
def hashSlice (pa : Nat) (mask : Word) : Nat :=
  let f := (pa / 2 ^ 9 ^^^ pa / 2 ^ 15 ^^^ pa / 2 ^ 21 ^^^ pa / 2 ^ 27 ^^^ pa / 2 ^ 33) % 64
  let m := if mask = 0#64 then setBits (2 ^ 64 - 1) 64 else setBits mask.toNat 64
  m.getD (f % m.length) 0

/-- The window of a tenant, or its system window, that contains a heap path's physical address and grants an access: the lowest-numbered one
(R136, R200). -/
def windowFor (ws : SMap Window) (pa : Nat) (k : AccKind) : Option Window :=
  (ws.map (·.2)).find? (fun w =>
    w.valid && decide (w.pbase * 4096 ≤ pa) && decide (pa < w.pend * 4096) && w.perms.toNat.testBit k.bit)

/-- The home slice of a location of this package: the home attribute is one for every mapping of a page, so that of the window that
covers it; HASH over all slices where none does (R194). -/
def State.homeSlice (s : State) (loc : Nat) : Nat :=
  let pa := loc % 2 ^ 56
  match s.windowOver loc with
  | some w => w.homeCore.getD (hashSlice pa w.mask)
  | none => hashSlice pa 0#64

/-- The page-table walk (R201): the present, well-formed leaf and its page size in bits. -/
def walkTable (s : State) (va : Nat) : Nat → List Nat → Option (Word × Nat)
  | _, [] => none
  | tbl, sh :: rest =>
    let e := s.natAtLoc (tbl + 8 * (va / 2 ^ sh % 512)) 8
    let w : Word := BitVec.ofNat 64 e
    if !e.testBit 63 then none
    else if bits w 59 56 ≠ 0 then none
    else if e.testBit 62 then
      if sh = 39 then none
      else if bits w 61 60 = 3 || bits w 5 4 = 3 || bits w 5 4 = 2 || e.testBit 3 then none
      else if (bits w 55 12 * 4096) % 2 ^ sh ≠ 0 then none
      else if bits w 5 4 = 1 && bits w 43 41 ≠ 0 then none
      else some (w, sh)
    else
      if sh = 12 then none
      else if bits w 61 60 ≠ 0 || bits w 11 0 ≠ 0 then none
      else walkTable s va (bits w 55 12 * 4096) rest

/-- Shifts of the four level indices (R201). -/
def levels : List Nat := [39, 30, 21, 12]

/-- A TLB lookup (R202). -/
def tlbFind (l : List TlbEntry) (tn : Nat) (va : Nat) : Option TlbEntry :=
  l.find? (fun e => e.tenant == tn && decide (e.va = va / 2 ^ e.bits * 2 ^ e.bits))

/-- The location a leaf gives to an address (Table 7.7). -/
def leafLoc (pte : Word) (b va : Nat) : Nat :=
  let low := va % 2 ^ b
  if bits pte 5 4 = 1 then pkgLoc (BitVec.ofNat 12 (bits pte 55 44)) (bits pte 40 12 * 4096 + low)
  else ownLoc (bits pte 55 12 * 4096 + low)

/-- The slice of a page's home attribute (R194, R201). -/
def leafSlice (pte : Word) (w : Window) (loc : Nat) : Nat :=
  match bits pte 61 60 with
  | 2 => bits pte 11 6
  | 1 => hashSlice (loc % 2 ^ 56) w.mask
  | _ => hashSlice (loc % 2 ^ 56) 0#64

/-- Steps 6 and 7 of Table 7.6 for a leaf already found: permission of the entry, then the window. -/
def leafAccess (s : State) (marked : List Nat) (e : TlbEntry) (fill : Bool) (k : AccKind) (va : Nat) : Tr :=
  let loc := leafLoc e.pte e.bits va
  if !e.pte.toNat.testBit k.bit then .fault 0x05#8
  else if !(e.win.valid && e.win.pkg == locPkg s loc && e.win.perms.toNat.testBit k.bit) then .fault 0x05#8
  else .ok { loc := loc, win := e.win, slice := leafSlice e.pte e.win loc,
             marked := marked.contains (va / 4096 * 4096), fill := if fill then some e else none }

/-- The window recorded with a translation: one that contains the page, with what all that contain it grant (R203). -/
def windowOf (ws : SMap Window) (p : BitVec 12) (pa : Nat) : Window :=
  match (ws.map (·.2)).filter (fun w => w.valid && w.pkg == p && decide (w.pbase * 4096 ≤ pa) && decide (pa < w.pend * 4096)) with
  | [] => {}
  | w :: l => { w with perms := l.foldl (fun m x => m ||| x.perms) w.perms }

/-- Page translation for a tenant: the core's TLB, the die's, then the walk (R201, R202). -/
def State.pageTr (s : State) (c : CtxId) (tn : Nat) (k : AccKind) (va : Nat) : Tr :=
  match s.tenant tn with
  | none => .absent
  | some t =>
    match tlbFind (s.core c.die c.core).tlb tn va with
    | some e => leafAccess s t.marked e false k va
    | none =>
      match tlbFind (s.die c.die).tlb tn va with
      | some e => leafAccess s t.marked e true k va
      | none =>
        match walkTable s va t.root levels with
        | none => .absent
        | some (pte, b) =>
          let loc := leafLoc pte b va
          leafAccess s t.marked
            { tenant := tn, va := va / 2 ^ b * 2 ^ b, bits := b, pte := pte,
              win := windowOf t.windows (locPkg s loc) (loc % 2 ^ 56) } true k va

/-- Supervisor-mode translation: the supervisor's own tables, with no window check (R39, R81). -/
def State.supTr (s : State) (k : AccKind) (va : Nat) : Tr :=
  match walkTable s va Config.supervisorRoot levels with
  | none => .absent
  | some (pte, b) =>
    if !pte.toNat.testBit k.bit then .fault 0x05#8
    else
      let loc := leafLoc pte b va
      .ok { loc := loc, win := { valid := true }, slice := leafSlice pte {} loc, marked := false, fill := none }

/-- The heap path: one addition, then the window check; package, tier, permissions and HASH mask are the window's (R200). -/
def State.heapTr (s : State) (sup : Bool) (tn : Nat) (off : Word) (k : AccKind) (va : Word) : Tr :=
  let pa := (va + off).toNat % 2 ^ 56
  if sup then .ok { loc := ownLoc pa, win := { valid := true }, slice := hashSlice pa 0#64, marked := false, fill := none }
  else
    match s.tenant tn with
    | none => .fault 0x05#8
    | some t =>
      match windowFor t.windows pa k with
      | none => .fault 0x05#8
      | some w => .ok { loc := if w.tier = 1 then pkgLoc w.pkg pa else ownLoc pa, win := w, slice := hashSlice pa w.mask,
                        marked := t.marked.contains (va.toNat / 4096 * 4096), fill := none }

/-- Steps 2 to 7 of Table 7.6 for an access of context `c` with a tenant and heap triple. -/
def State.xlate (s : State) (c : CtxId) (tn : Nat) (heap : Word × Word × Word) (k : AccKind) (va : Word) : Tr :=
  if !canonical va then .fault 0x05#8
  else if inBasinWin va && !c.isSup then
    let off := va.toNat - basinBase
    if s.basinPageOk c tn (off / 4096) then
      .ok { loc := basinLoc c.die c.core off, win := { valid := true, perms := 3#3 }, slice := 0, marked := false, fill := none }
    else .fault 0x05#8
  else if decide (apertureBase ≤ va.toNat) && decide (va.toNat < apertureBase + 1024) && !c.isSup then
    .aperture ((va.toNat - apertureBase) / 64) ((va.toNat - apertureBase) % 64)
  else if va.toNat.testBit 47 then .fault 0x05#8
  else if (va - heap.1).toNat < heap.2.1.toNat then s.heapTr c.isSup tn heap.2.2 k va
  else if c.isSup then s.supTr k va.toNat
  else s.pageTr c tn k va.toNat

/-- The address checks for an access of the issuing context. -/
def State.tr (s : State) (k : AccKind) (va : Word) : Tr :=
  s.xlate s.cur s.cx.tn (s.cx.heapbase, s.cx.heaplim, s.cx.heapoff) k va

/-- Put a translation into the L1 and die TLBs; the oldest entry makes room (R202). -/
def State.fillTlb (s : State) (c : CtxId) (e : Option TlbEntry) : State :=
  match e with
  | none => s
  | some e =>
    let s1 := s.onCore c.die c.core (fun k => { k with tlb := (enq (without k.tlb (· == e)) e).drop (k.tlb.length - 63) })
    s1.onDie c.die (fun d => if d.tlb.contains e then d else { d with tlb := (enq d.tlb e).drop (d.tlb.length - 4095) })

/-! ## Homes -/

/-- Whether an address of this package is control space: router, stack and port registers (R39, R53, R81). -/
def isCtl (loc : Nat) : Bool := decide (0x00FFE00000000000 ≤ loc) && decide (loc < 2 ^ 56)

/-- Whether an own address has no memory behind it: it is outside HBM, or the base die's own data (R57, R58). -/
def unmappedPa (loc : Nat) : Bool := isOwn loc && (decide (2 ^ 41 ≤ loc) || reservedPa loc)

/-- Whether bytes lie in a HOLD range of any domain of the package (R171, R319). -/
def State.held (s : State) (loc n : Nat) : Bool :=
  s.domains.any (fun d => d.ranges.any (fun r => !r.snap && r.parts.any (fun p => overlaps loc n p.1 p.2)))

/-- Whether a location is on a page under migration lock (R211). -/
def State.locked (s : State) (loc n : Nat) : Bool :=
  s.migrations.any (fun m => overlaps loc n m.src m.size)

/-- Fire the monitors whose sector a write touches, and wake the contexts that wait on them (R323). -/
def State.fireMonitors (s : State) (loc n : Nat) : State :=
  s.allCtx.foldl (fun t e =>
    match e.2.monitor with
    | some m =>
      if !m.fired && overlaps loc n (m.sector * 128) 128 then
        let t1 := t.onCtx e.1 (fun x => { x with monitor := some { m with fired := true } })
        if (t1.ctx e.1).wait = .retry .monitor || (t1.ctx e.1).wait = .retry .supervisorItem then t1.wake e.1 else t1
      else t
    | none => t) s

/-- Monitors whose registration is lost fire, and the contexts that wait on them go on (R323). -/
def State.loseMonitors (s : State) (p : CtxId → Monitor → Bool) : State :=
  s.allCtx.foldl (fun t e =>
    match e.2.monitor with
    | some m =>
      if !m.fired && p e.1 m then
        let t1 := t.onCtx e.1 (fun x => { x with monitor := some { m with fired := true } })
        if (t1.ctx e.1).wait = .retry .monitor || (t1.ctx e.1).wait = .retry .supervisorItem then t1.wake e.1 else t1
      else t
    | none => t) s

/-- Where a write of HBM memory comes from, for the home's causal state (R218, R221). -/
inductive WriteFrom where
  /-- The home die's own contexts or engines, another package, or a host command (R218). -/
  | local
  /-- Another die of the package, with its number (R221). -/
  | die (src : Nat) (num : BitVec 32)
deriving DecidableEq, Repr, Inhabited

/-- The home's causal bookkeeping for a write to one sector (R218, R221). -/
def State.noteWrite (s : State) (h slice sector : Nat) (f : WriteFrom) : State :=
  match f with
  | .local =>
    let s1 := s.onDie h (fun d => { d with foreign := without d.foreign (· == sector) })
    if (s.die h).exported.contains (sector / 4) then
      let b := s1.bump h
      (b.2.acked h b.1).onDie h (fun d => { d with exported := without d.exported (· == sector / 4) })
    else s1
  | .die src num =>
    s.onDie h (fun d => { d with foreign := insNat d.foreign sector,
                                 young := enq (without d.young (fun y => y.sector == sector)) ⟨slice, sector, src, num⟩ })

/-- A part of a write within one sector, at its home: SHIP pages and stores that allocate nothing go to the base die, others into the home
slice; memory of another package is written in a slice there (R74, R91, R193, R195, R197). -/
def State.writePart (s : State) (slice c loc : Nat) (b : List Byte) (f : WriteFrom) (pol : Nat) : State :=
  match homeDie (c * 128) with
  | none => s.cachedPart c loc b
  | some h =>
    let t := s.noteWrite h slice c f
    if t.isShip loc || t.bypasses h c pol then t.basePart slice c loc b
    else (t.l2Write h slice c pol).cachedPart c loc b

/-- A write is performed at its home: the bytes change, poison of units written whole is dropped, the home's causal state
and its caches advance, monitors fire (R91, R193, R214, R218, R221, R323). -/
def State.applyWrite (s : State) (loc : Nat) (b : List Byte) (slice : Nat) (f : WriteFrom) (pol : Nat := 0) : State :=
  let t :=
    if isBasin loc then { s.putRaw loc b with poison := (coveredWords loc b.length).foldl (fun l w => without l (· == w)) s.poison }
    else (partsOf loc b).foldl (fun (t : State) q => t.writePart slice q.1 q.2.1 q.2.2 f pol) s
  t.fireMonitors loc b.length

/-- Drop the sectors that a store or atomic of die `d` touches from the die's own RDC (R196). -/
def State.dropRdc (s : State) (d loc n : Nat) : State :=
  s.onDie d (fun x => { x with rdc := without x.rdc (fun r => overlaps loc n (r.sector * 128) 128) })

/-- Record that a harvest context has written a basin page (R168). -/
def State.noteHarvest (s : State) (c : CtxId) (loc : Nat) : State :=
  if isBasin loc && c.reserve then
    let p := loc % 2 ^ 20 / 4096
    s.onCore c.die c.core (fun k => if k.harvestData.contains (p, c) then k else { k with harvestData := enq k.harvestData (p, c) })
  else s

/-- A context writes basin words that a started, uncompleted engine command of the core may read or write: the words' former
values are kept with the command (R232). -/
def State.noteRace (s : State) (loc n : Nat) : State :=
  if !isBasin loc then s
  else
    let core := (loc - 2 ^ 72) / 2 ^ 20 % 64
    let die := (loc - 2 ^ 72) / 2 ^ 26 % 16
    let k := s.core die core
    if !(k.engine.any (·.started) || k.channels.any (fun e => e.2.copies.any (·.running))) then s
    else
      let old : List (Nat × Word) := (wordsOf loc n).map (fun w => (w, BitVec.ofNat 64 (s.natAtLoc (8 * w) 8)))
      let add (l : List (Nat × Word)) : List (Nat × Word) := l ++ old.filter (fun e => !l.any (fun q => q.1 == e.1))
      s.onCore die core (fun k => { k with
        engine := k.engine.map (fun o => if o.started then { o with raced := add o.raced } else o),
        channels := k.channels.map (fun e => (e.1, { e.2 with copies := e.2.copies.map (fun c =>
          if c.running then { c with raced := add c.raced } else c) })) })

/-- Whether the requests to a location are held for a change of its route (R38). -/
def State.routeHeld (s : State) (loc : Nat) : Bool := s.fab.heldLines.any (fun e => e.1 == loc / 512)

/-- Whether the young table of a slice has room for the sectors of a causal write: those that have an entry need no new one (R221). -/
def DieSt.youngRoom (d : DieSt) (slice loc n : Nat) : Bool :=
  let live := d.liveYoung
  let fresh := (sectorsOf loc n).filter (fun c => !live.any (fun y => y.sector == c))
  fresh.isEmpty || decide ((live.filter (fun y => y.slice == slice)).length + fresh.length ≤ 64)

/-- Whether die `h` may perform a causal write of die `src` with a vector now: K covers the vector but for the sender's own entry, and the
young table has room (R220, R221). -/
def State.causalMay (s : State) (h src slice loc n : Nat) (vec : SMap (BitVec 32)) : Bool :=
  coversVec (s.die h).k vec (some src) && (s.die h).youngRoom slice loc n

/-- Whether the home may perform a write now: its line is not held on the way and its base die can serve it; K covers the vector of another
die's but for the sender's own entry, and the young table has room (R38, R66, R73, R220, R221). -/
def State.mayPerform (s : State) (w : NetWrite) : Bool :=
  !s.locked w.loc w.bytes.length && !s.fab.heldLines.any (fun e => decide (e.1 = w.loc / 512) && decide (e.2 < w.id)) &&
  match homeDie w.loc with
  | none => true
  | some h =>
    (s.homeWait h w.slice w.loc w.bytes.length).isNone && (w.num.isNone || s.causalMay h w.src w.slice w.loc w.bytes.length w.vec)

/-- Whether a store of a context to a line of a range is in flight and not yet performed (R215, R217). -/
def unperformed (owner : Option CtxId) (loc n : Nat) (x : NetWrite) : Bool :=
  !x.performed && !x.refused && x.owner == owner && overlaps (x.loc / 512 * 512) 512 loc (max n 1)

/-- Whether an earlier store of the same context to a line of this one has not been performed: they take one path (R215, R217). -/
def State.behind (s : State) (w : NetWrite) : Bool :=
  (s.net.takeWhile (fun x => x.id != w.id)).any (unperformed w.owner w.loc w.bytes.length)

/-- Whether the issuing context has a store in flight, not yet performed, to a line of a range (R215, R217). -/
def State.ownBehind (s : State) (loc n : Nat) : Bool := s.net.any (unperformed (some s.cur) loc n)

/-- A write in flight is performed at its home (R214, R220). -/
def State.performNet (s : State) (w : NetWrite) : State :=
  let f := match w.num, homeDie w.loc with
    | some n, some h => if h = w.src then WriteFrom.local else WriteFrom.die w.src n
    | _, _ => WriteFrom.local
  let s0 := match homeDie w.loc with | some h => s.retireYoung h | none => s
  s0.applyWrite w.loc w.bytes w.slice f w.pol

/-- The context's counts of a class of stores, changed (R183): own die, other die, other package. -/
def Ctx.pend (x : Ctx) (own cross : Bool) (f : Nat → Nat) : Ctx :=
  if own then { x with pendOwn := f x.pendOwn }
  else if cross then { x with pendD := f x.pendD } else { x with pendX := f x.pendX }

/-- A child entry after a store of its spawner has been acknowledged: with the last one the release is made, which carries V of the
spawner's die as it stands (R153, R230). -/
def TaskAttr.heard (t : TaskAttr) (id : Nat) (v : SMap (BitVec 32)) : TaskAttr :=
  if t.needs.contains id then
    let l := t.needs.filter (· != id)
    { t with needs := l, vec := if l = [] then mergeVec t.vec v else t.vec }
  else t

/-- A store is acknowledged as far as children are concerned: entries that wait in queues, and bound children in WAIT, whose release it
completes go on with the releasing die's vector (R153, R230). -/
def State.releaseChildren (s : State) (id src : Nat) : State :=
  let v := (s.die src).v
  let f (t : TaskAttr) : TaskAttr := t.heard id v
  let s1 : State := { s with
    cores := s.cores.map (fun e => (e.1, { e.2 with deque := e.2.deque.map f, overflow := e.2.overflow.map f })),
    dies := s.dies.map (fun e => (e.1, { e.2 with ready := e.2.ready.map (fun q => (q.1, q.2.map f)) })),
    counters := s.counters.map (fun e => (e.1, { e.2 with bound := e.2.bound.map f })) }
  s1.allCtx.foldl (fun t e =>
    match e.2.wait with
    | .release l =>
      if l.contains id then
        let l' := l.filter (· != id)
        if l' = [] then (t.mergeV e.1.die v).wake e.1 else t.onCtx e.1 (fun x => { x with wait := .release l' })
      else t
    | _ => t) s1

/-- A store is acknowledged: the counts fall, the sender's own entry of K advances, and what waited on it goes on (R153, R183,
R218). -/
def State.ackNet (s : State) (w : NetWrite) : State :=
  let own := w.home == some w.src
  let cross := w.home.isSome
  let s1 : State := { s with net := without s.net (fun x => x.id == w.id) }
  let s2 : State := match w.owner with
    | some c => s1.onCtx c (fun x => x.pend own cross (fun n => n - 1))
    | none => s1
  let s3 : State := match w.num with | some n => s2.acked w.src n | none => s2
  let s4 : State := match w.owner with
    | some c => if (s3.ctx c).wait == .retry .stores || (s3.ctx c).wait == .retry .texit then s3.wake c else s3
    | none => s3
  s4.releaseChildren w.id w.src

/-- A posted store of the issuing context to memory beyond the basin: it is numbered as a causal write when it goes to
another die, and stays in flight only where the plan or the home's state says so (R183, R217, R218, R220). -/
def State.postStore (s : State) (a : Access) (b : List Byte) : State :=
  let src := s.cur.die
  let home := homeDie a.loc
  let own := home == some src
  let cross := home.isSome && !own
  let s1 := if own then s else s.dropRdc src a.loc b.length
  let nb := if cross then (some (s1.bump src).1, (s1.bump src).2) else (none, s1)
  let s2 := nb.2
  let w : NetWrite := { id := s2.lastId + 1, owner := some s.cur, src := src, home := home, loc := a.loc, bytes := b,
                        slice := a.slice, num := nb.1, vec := (s2.die src).v, pol := s.cx.r.cachePolicy, performed := false, refused := false }
  let s3 := { s2 with lastId := s2.lastId + 1, net := enq s2.net w,
                      cx := s2.cx.pend own home.isSome (fun n => n + 1) }
  if s3.planned then s3.replan
  else if !s3.behind w && s3.replan.mayPerform w then (s3.replan.performNet w).ackNet w else s3.replan

/-- The outcome of a read of memory. -/
inductive Rd where
  /-- The bytes, and the state after the read's merges. -/
  | val (b : List Byte) (s : State)
  /-- The read waits. -/
  | wait (w : Why)
  /-- Poison would be consumed (R91). -/
  | poison
  /-- No memory answers: an end-to-end failure that cannot be replayed (R43, R51). -/
  | lost

/-- The home slice reads sectors for a requester: from its lines, or from the base die; SHIP pages are never held (R74, R193). -/
def State.sliceRead (s : State) (h slice loc n pol : Nat) : State :=
  (sectorsOf loc n).foldl (fun (t : State) c =>
    if t.isShip loc then t.onStack (t.stackAt loc) (·.access (c * 128)) else t.l2Read h slice (c / 4) (sectorBit c) pol) s

/-- A read of the home die's own context: the merges of R223. -/
def State.ownRead (s : State) (h slice loc n pol : Nat) : State :=
  let d := s.die h
  let secs := sectorsOf loc n
  let v1 := d.liveYoung.foldl (fun v y => if secs.contains y.sector then raiseVec v y.src y.num else v) d.v
  let v2 := if secs.any (fun c => d.foreign.contains c) then mergeVec v1 d.k else v1
  (s.sliceRead h slice loc n pol).onDie h (fun x => { x with v := v2 })

/-- The RDC sector that serves a read: its line's stamp covers the die's vector (R196). -/
def State.rdcHit (s : State) (d loc n : Nat) : Option RdcSector :=
  (s.die d).rdc.find? (fun r => decide (r.sector * 128 ≤ loc) && decide (loc + n ≤ r.sector * 128 + 128)
    && coversVec r.stamp (s.die d).v none)

/-- Fill the RDC with a sector read at its home, under the home's K as stamp (R196). -/
def State.fillRdc (s : State) (d h slice loc pol : Nat) : State :=
  let c := loc / 128
  let k := (s.die h).k
  let r : RdcSector := { sector := c, bytes := s.bytesAt (c * 128) 128, poison := s.poisoned (c * 128) 128, stamp := k,
                         filled := s.cycle.toNat }
  let s1 := s.onDie d (fun x => { x with rdc := (enq (without x.rdc (fun q => q.sector / 4 == c / 4 && q.stamp != k || q.sector == c)) r).drop (x.rdc.length - 262143),
                                         v := mergeVec x.v k })
  (s1.sliceRead h slice (c * 128) 128 pol).onDie h (fun x => { x with exported := insNat x.exported (c / 4) })

/-- A read beyond the basin by a context or engine of die `d`, under a cache policy (R38, R66, R91, R196, R197, R216, R220, R222, R223,
R228). -/
def State.readFar (s : State) (d : Nat) (a : Access) (n : Nat) (atHome : Bool) (pol : Nat := 0) : Rd :=
  if unmappedPa a.loc then .lost
  else
    match homeDie a.loc with
    | none =>
      if s.net.any (fun w => w.src == d && overlaps a.loc n w.loc w.bytes.length && !w.performed) then .wait .stores
      else if s.routeHeld a.loc then .wait (.route (a.loc / 512))
      else if a.marked || s.sectorPoisoned a.loc n then .poison else .val (s.bytesAt a.loc n) s
    | some h =>
      if h = d then
        match s.homeWait h a.slice a.loc n with
        | some w => .wait w
        | none =>
          if a.marked || s.sectorPoisoned a.loc n then .poison else .val (s.bytesAt a.loc n) (s.ownRead h a.slice a.loc n pol)
      else
        match (if atHome || a.win.ship then none else s.rdcHit d a.loc n) with
        | some r =>
          if a.marked || r.poison then .poison
          else .val ((r.bytes.drop (a.loc - r.sector * 128)).take n) (s.mergeV d r.stamp)
        | none =>
          if s.routeHeld a.loc then .wait (.route (a.loc / 512))
          else if !coversVec (s.die h).k (s.die d).v none then .wait .causal
          else if ((s.die h).liveYoung.any (fun y => (sectorsOf a.loc n).contains y.sector)) then .wait .causal
          else
            match s.homeWait h a.slice a.loc n with
            | some w => .wait w
            | none =>
              if a.marked || s.sectorPoisoned a.loc n then .poison
              else .val (s.bytesAt a.loc n)
                (if a.win.ship then (s.sliceRead h a.slice a.loc n pol).mergeV d (s.die h).k
                 else (s.retireYoung h).fillRdc d h a.slice a.loc pol)

/-- A read of the issuing context (R187, R216, R318), under its pending HCACHE (R195). -/
def State.read (s : State) (a : Access) (n : Nat) (atHome : Bool) : Rd :=
  if isBasin a.loc then if s.poisoned a.loc n then .poison else .val (s.bytesAt a.loc n) s
  else if s.cx.pendOwn ≠ 0 then .wait .stores
  else s.readFar s.cur.die a n atHome s.cx.r.cachePolicy

end Sys2Proof.Machine
end

