-- ==== Sys2Proof/Machine/Sched.lean ====
section
/-! DEFINITION. Events to the host, ready queues, binding, arrival counters and the life of a launch
(R130 to R134, R142 to R157, R162 to R169). -/

namespace Sys2Proof.Machine

/-! ## Messages of a session (R118 to R121) -/

/-- Change a session. -/
def State.onSession (s : State) (sid : Nat) (f : Session → Session) : State :=
  match SMap.look none s.host.sessions sid with
  | some x => { s with host := { s.host with sessions := SMap.put none s.host.sessions sid (some (f x)) } }
  | none => s

/-- A session that can carry messages (R120). -/
def State.live (s : State) (sid : Nat) : Bool :=
  match SMap.look none s.host.sessions sid with
  | some x => x.phase == 1
  | none => false

/-- The header of a message (Table 5.1); KIND and LEN are fields of the message. -/
def ScpMsg.header (m : ScpMsg) (sid seq ackn sack len : Nat) : List Byte :=
  bytesLE 2 0x5347 ++ [1#8] ++ bytesLE 1 m.kind ++ bytesLE 4 sid ++ bytesLE 8 seq ++ bytesLE 8 ackn ++ bytesLE 8 sack ++ bytesLE 2 len
    ++ bytesLE 1 m.tenant ++ bytesLE 1 m.queue ++ bytesLE 4 m.ctag.toNat ++ bytesLE 8 0

/-- SACK: bit i tells that message ACKN + 2 + i was received (Table 5.1). -/
def Session.sackBits (x : Session) : Nat :=
  x.sack.foldl (fun n i => if x.ackn + 2 ≤ i ∧ i < x.ackn + 66 then n + 2 ^ (i - (x.ackn + 2)) else n) 0

/-- The 96-bit nonce: the direction, 0 from host to device, 1 from device to host, and SEQ (R119). -/
def scpNonce (dir seq : Nat) : List Byte := bytesLE 4 dir ++ bytesLE 8 seq

/-- The datagram of a message: the header, the sealed body and the tag, under the key from device to host (R118, R119). -/
def Session.seal (x : Session) (sid seq : Nat) (m : ScpMsg) : List Byte :=
  let h := m.header sid seq x.ackn x.sackBits m.body.length
  let c := Crypto.gcmSeal x.d2h (scpNonce 1 seq) h m.body
  h ++ c.1 ++ c.2

/-- A message of a session that takes the next SEQ, acknowledges what was received, and waits for its own acknowledgement (R118, R121). -/
def State.emit (s : State) (sid : Nat) (m : ScpMsg) (records : List EventRec) : State :=
  match SMap.look none s.host.sessions sid with
  | none => s
  | some x =>
    let wire := x.seal sid (x.sent + 1) m
    (s.send (.scp sid wire)).onSession sid (fun y => { y with
      sent := y.sent + 1, ackDue := false,
      unacked := enq y.unacked { seq := y.sent + 1, wire := wire, at_ := s.cycle.toNat, resends := 0, tenant := m.tenant, records := records } })

/-- The most recently authenticated live session of a list (R134). -/
def State.newest (s : State) (l : List Nat) : Option Nat :=
  ((l.filter s.live).foldl (fun (acc : Option (Nat × Nat)) i =>
    let a := ((SMap.look none s.host.sessions i).map (·.auth)).getD 0
    match acc with
    | some b => if b.1 < a then some (a, i) else acc
    | none => some (a, i)) none).map (·.2)

/-- Undelivered records of a tenant, of which one without a session keeps 4,096: beyond that the oldest is dropped, and the next record is
marked (R134). -/
def TenantSt.keepRecords (t : TenantSt) (l : List EventRec) : TenantSt :=
  if t.session.isNone && decide (4096 < l.length) then { t with events := l.drop (l.length - 4096), dropped := true } else { t with events := l }

/-- A session ends; its tenants stay, records it did not get acknowledged are undelivered again, its WAITEVs return to nobody, and the tenants'
events go to another attached session if one lives (R121, R134). -/
def State.endSession (s : State) (sid : Nat) : State :=
  let back : List Sent := ((SMap.look none s.host.sessions sid).map (·.unacked)).getD []
  let s1 := s.onSession sid (fun x => { x with phase := 2, unacked := [], ackDue := false })
  { s1 with tenants := s1.tenants.map (fun e => (e.1, e.2.map (fun t =>
      let a := without t.attached (· == sid)
      let u := { t with attached := a, session := s1.newest a, waits := without t.waits (fun w => w.head.session == sid) }
      u.keepRecords ((back.filter (fun m => m.tenant == e.1)).flatMap (·.records) ++ u.events)))) }

/-- A message of a live session; where its SEQ would pass 2^63 the session ends with BYE instead (R119). -/
def State.sendOn (s : State) (sid : Nat) (m : ScpMsg) (records : List EventRec) : State :=
  match SMap.look none s.host.sessions sid with
  | none => s
  | some x =>
    if x.phase ≠ 1 then s
    else if 2 ^ 63 ≤ x.sent then (s.emit sid { kind := 7 } []).endSession sid
    else s.emit sid m records

/-- The REPLY of a command, stored for duplicates among the last 1,024: opcode, status and results (R121, R126). -/
def State.answer (s : State) (h : CmdHead) (op status : Nat) (body : List Byte) : State :=
  let m : ScpMsg := { kind := 4, tenant := h.tenant, queue := h.queue, ctag := h.ctag, body := bytesLE 2 op ++ bytesLE 2 status ++ body }
  (s.sendOn h.session m []).onSession h.session (fun x => match x.unacked.getLast? with
    | some w => { x with replies := (enq x.replies (h.seq, w.wire)).drop (x.replies.length - 1023) }
    | none => x)

/-- A command leaves its queue (R124). -/
def State.leaveQueue (s : State) (h : CmdHead) : State :=
  let s1 := s.onTenant h.tenant (fun t => { t with cmds := t.cmds.map (fun q => (q.1, without q.2 (fun e => e.1 == h))) })
  { s1 with host := { s1.host with direct := without s1.host.direct (fun e => e.1 == h) } }

/-- A command has finished: it leaves its queue and its REPLY is sent (R124). -/
def State.finishCmd (s : State) (h : CmdHead) (op status : Nat) (body : List Byte) : State := (s.leaveQueue h).answer h op status body

/-! ## Event records (R134) -/

/-- Whether a record's code waits for coalescing: LAUNCH_DONE and CKPT_DONE (R134). -/
def coalesced (code : BitVec 16) : Bool := code = 0x0001#16 || code = 0x0004#16

/-- Bytes of an event record (Table 5.5). -/
def EventRec.bytes (e : EventRec) : List Byte :=
  bytesLE 2 e.code.toNat ++ bytesLE 1 e.flags.toNat ++ bytesLE 1 e.tenant ++ bytesLE 4 e.cause.toNat
    ++ bytesLE 8 e.launch ++ bytesLE 8 e.cycle.toNat ++ bytesLE 8 e.detail.toNat

/-- Records in messages of at most 279, which fill a body of 8,936 bytes (R118). -/
def eventMsgs : Nat → List EventRec → List (List EventRec)
  | 0, _ => []
  | k + 1, l => if l = [] then [] else l.take 279 :: eventMsgs k (l.drop 279)

/-- Send every undelivered record of a tenant to its session; they are delivered when acknowledged (R134). -/
def State.sendEvents (s : State) (t : Nat) : State :=
  match s.tenant t with
  | none => s
  | some x =>
    match x.session with
    | none => s
    | some sid =>
      (eventMsgs x.events.length x.events).foldl (fun u l =>
        u.sendOn sid { kind := 5, tenant := t, body := l.flatMap (·.bytes) } l) (s.onTenant t (fun y => { y with events := [] }))

/-- Return every WAITEV, oldest first, for which records wait that match its mask (R134, Table 5.2). -/
def State.serveWaits (s : State) (t : Nat) : State :=
  ((s.tenant t).map (·.waits)).getD [] |>.foldl (fun u w =>
    match u.tenant t with
    | none => u
    | some x =>
      let hit := (x.events.filter (fun e => w.mask.toNat.testBit (e.code.toNat % 64))).take w.max
      if hit = [] then u
      else (u.onTenant t (fun y => { y with waits := without y.waits (· == w), events := without y.events (hit.contains ·) })).answer w.head
        0x0A 0 (hit.flatMap (·.bytes))) s

/-- Whether a tenant's undelivered records are sent now: one of them may not wait, EVCOUNT of them wait, or the oldest has waited EVDELAY, at
4,000 cycles to the microsecond (R26, R134). -/
def TenantSt.eventsDue (t : TenantSt) (now : Nat) : Bool :=
  t.session.isSome && (t.events.any (fun e => !coalesced e.code) || decide (t.evcount ≤ t.events.length)
    || t.events.any (fun e => decide (e.cycle.toNat + 4000 * t.evdelay ≤ now)))

/-- The records of a tenant that are due are sent (R134). -/
def State.sendDue (s : State) (t : Nat) : State :=
  match s.tenant t with
  | none => s
  | some x => if x.events ≠ [] && x.eventsDue s.cycle.toNat then s.sendEvents t else s

/-- Post an event record of a tenant (R134). -/
def State.post (s : State) (t : Nat) (code : BitVec 16) (flags : BitVec 8) (cause : BitVec 32) (launch : Nat)
    (detail : Word) : State :=
  match s.tenant t with
  | none => s
  | some x =>
    let e : EventRec := { code := code, flags := if x.dropped then flags ||| 2#8 else flags, tenant := t, cause := cause,
                          launch := launch, cycle := s.cycle, detail := detail }
    ((s.onTenant t (fun y => ({ y with dropped := false } : TenantSt).keepRecords (enq y.events e))).serveWaits t).sendDue t

/-- Post an event to every tenant (R24, R117). -/
def State.postAll (s : State) (code : BitVec 16) (detail : Word) : State :=
  s.tenants.foldl (fun t e => t.post e.1 code 0#8 0#32 0 detail) s

/-- Trap cause in code space 1 of an event's CAUSE (Table 5.5). -/
def causeWord (cause : BitVec 8) : BitVec 32 := 0x100#32 ||| cause.setWidth 32

/-! ## Windows as the supervisor sees them (R125, R129, R430) -/

/-- The valid window of a tenant in whose virtual range an address lies (R430). -/
def TenantSt.windowAt (t : TenantSt) (va : Word) : Option Window :=
  (t.windows.map (·.2)).find? (fun w => w.valid && decide (w.va.toNat ≤ va.toNat) && decide (va.toNat < w.va.toNat + w.length))

/-- The first frame of page `j` of a window: its pages take the frames from PBASE on in order, on the stacks of its dies and below the base
dies' own data; the first argument bounds the stacks (R58, R430). -/
def frameFrom : Nat → BitVec 16 → Nat → Nat → Nat → Nat
  | 0, _, _, base, _ => base
  | k + 1, dies, unit, base, j =>
    let m := base / 2 ^ 24
    let room := if dies = 0#16 || dies.toNat.testBit (m % 32 / 2) then (0xEE6B28 - base % 2 ^ 24) / unit else 0
    if j < room then base + j * unit else frameFrom k dies unit ((m + 1) * 2 ^ 24) (j - room)

/-- The frames of a page of a window. -/
def Window.unit (w : Window) : Nat := 2 ^ (w.bits - 12)

/-- The first frame of page `j` of a window (R430). -/
def Window.frame (w : Window) (j : Nat) : Nat := frameFrom 33 w.dies w.unit w.pbase j

/-- The page of a window that an address lies in (R210, R430). -/
def Window.pageOf (w : Window) (va : Nat) : Nat := (va - w.va.toNat) / 2 ^ w.bits

/-- The location behind an address of a valid window: by its page's entry, and for a T0 or T1 page without one by the page's place in
the window. -/
def State.windowLoc (s : State) (t : TenantSt) (w : Window) (va : Word) : Option Nat :=
  match walkTable s va.toNat t.root levels with
  | some (pte, b) => some (leafLoc pte b va.toNat)
  | none =>
    if w.tier = 2 then none
    else
    let pa := w.frame (w.pageOf va.toNat) * 4096 + va.toNat % 2 ^ w.bits
    some (if w.tier = 1 then pkgLoc w.pkg pa else ownLoc pa)

/-- The location of an address for a host command or for launch completion, with the permission a window must grant. -/
def State.hostLoc (s : State) (tn : Nat) (va : Word) (k : AccKind) : Option Nat :=
  match s.tenant tn with
  | none => none
  | some t =>
    match t.windowAt va with
    | some w => if w.perms.toNat.testBit k.bit then s.windowLoc t w va else none
    | none => none

/-! ## Page tables as the supervisor writes them (R201, R210, R430) -/

/-- A leaf entry with a window's home attribute: PPN, tier and permissions given (Table 7.7). -/
def Window.leaf (w : Window) (ppn tier perms : Nat) : Word :=
  let home := match w.homeCore with | some _ => 2 | none => if w.mask = 0#64 then 0 else 1
  BitVec.ofNat 64 (2 ^ 63 + 2 ^ 62 + home * 2 ^ 60 + ppn * 4096 + (w.homeCore.getD 0 % 64) * 64 + tier * 16 + perms)

/-- The PPN of a frame of a window's package (Table 7.7). -/
def Window.ppn (w : Window) (f : Nat) : Nat := if w.tier = 1 then w.pkg.toNat * 2 ^ 32 + f % 2 ^ 29 else f % 2 ^ 44

/-- The leaf entry of a page of a window (Table 7.7, R430): home attribute, frame or handle, tier, permissions. -/
def Window.pte (w : Window) (va : Nat) : Word :=
  let j := w.pageOf va
  w.leaf (if w.tier = 2 then (w.handle + j) % 2 ^ 44 else w.ppn (w.frame j)) w.tier w.perms.toNat

/-- Write one page-table word of the package's own memory. -/
def State.putPte (s : State) (pa : Nat) (e : Nat) : State :=
  s.applyWrite (ownLoc pa) (bytesLE 8 e) (s.homeSlice (ownLoc pa)) .local

/-- The address of the leaf entry of a page, with the tables above it made where they are missing; frames for tables are taken
in order from the tenant's table area. -/
def State.leafSlot (s : State) (tn va size : Nat) : Nat → List Nat → State × Nat
  | tbl, [] => (s, tbl + 8 * (va / 2 ^ size % 512))
  | tbl, sh :: rest =>
    let at_ := tbl + 8 * (va / 2 ^ sh % 512)
    let e := s.natAtLoc (ownLoc at_) 8
    if e.testBit 63 && !e.testBit 62 then s.leafSlot tn va size (e / 4096 % 2 ^ 44 * 4096) rest
    else
      let n := ((s.tenant tn).map (·.tables)).getD 1
      let f := Config.tableBase tn + 4096 * n
      let t := (s.putPte at_ (2 ^ 63 + f)).onTenant tn (fun x => { x with tables := n + 1 })
      t.leafSlot tn va size f rest

/-- Write the leaf entry of a page of a tenant, at the level of its size (R201). -/
def State.mapPage (s : State) (tn va : Nat) (pte : Nat) (size : Nat := 12) : State :=
  match s.tenant tn with
  | none => s
  | some t =>
    let r := s.leafSlot tn va size t.root ([39, 30, 21].filter (fun k => decide (size < k)))
    r.1.putPte r.2 pte

/-- Whether a page has an entry in its tenant's tables, present or a T2 one. -/
def State.pteOf (s : State) (tn va : Nat) : Option Word :=
  (s.tenant tn).bind (fun t => (walkTable s va t.root levels).map (·.1))

/-- What touching a page of a tenant finds (R135, R430). -/
inductive Touch where
  /-- The page is present. -/
  | present
  /-- The supervisor has written its entry. -/
  | mapped (s : State)
  /-- It is a T2 page: its handle, and the frame that the window has for it. -/
  | t2 (handle frame : Nat)
  /-- The address lies in no valid window. -/
  | none

/-- The supervisor serves a TRANSLATION fault at an address: it writes the missing entry of a T0 or T1 page, and finds the handle
of a T2 page (R210, R430). -/
def State.touchPage (s : State) (tn : Nat) (va : Word) : Touch :=
  match s.tenant tn with
  | none => .none
  | some t =>
    match t.windowAt va with
    | none => .none
    | some w =>
      let page := va.toNat / 2 ^ w.bits * 2 ^ w.bits
      match s.pteOf tn page with
      | some _ => .present
      | none =>
        if w.tier = 2 then .t2 (bits (w.pte page) 55 12) (w.frame (w.pageOf page))
        else .mapped (s.mapPage tn page (w.pte page).toNat w.bits)

/-- The DETAIL of PAGE_FETCH and PAGE_EVICT: the handle and the page size (Table 5.6). -/
def xferDetail (handle size : Nat) : Word := BitVec.ofNat 64 (handle % 2 ^ 44 + (if size = 12 then 0 else if size = 21 then 1 else 2) * 2 ^ 44)

/-- Ask the host for a T2 page: a frame is taken, which reads zero, and PAGE_FETCH posted, unless the fetch is already out or the page is being
evicted (R210). -/
def State.fetchPage (s : State) (tn : Nat) (va : Word) (handle frame : Nat) : State :=
  match s.tenant tn with
  | none => s
  | some t =>
    if t.fetches.any (fun f => f.handle == handle) || t.evictions.any (fun e => e.handle == handle) then s
    else
      let size := ((t.windowAt va).map (·.bits)).getD 12
      let keep (loc : Nat) : Bool := !overlaps loc 1 (frame * 4096) (2 ^ size)
      let s0 : State := { s with mem := s.mem.filter (fun e => keep e.1), poison := s.poison.filter (fun w => keep (8 * w)) }
      ((s0.onTenant tn (fun x => { x with
        fetches := enq x.fetches ⟨handle, BitVec.ofNat 64 (va.toNat / 2 ^ size * 2 ^ size), frame, size⟩ }))).post tn 0x0018#16 0#8 0#32 0
        (xferDetail handle size)

/-- The cluster of the home slice of a location (R154). -/
def State.clusterOf (s : State) (loc : Nat) : Nat := s.homeSlice loc / 8

/-! ## Ready queues (R142, R143) -/

/-- The rank of an owner entry, 7 highest: latency-critical 3 to 0, then normal 3 to 0 (R142). -/
def TaskAttr.rank (t : TaskAttr) : Nat := (if t.cls = 0 then 4 else 0) + t.prio

/-- Put an entry into a cluster's ready queue (R142). -/
def State.pushReady (s : State) (die cluster : Nat) (t : TaskAttr) : State :=
  s.onDie die (fun d =>
    { d with ready := SMap.alter [] d.ready cluster (fun q => enq q { t with since := s.cycle.toNat }) })

/-- The dies of a placement mask, rising (R143). -/
def diesOf (p : BitVec 16) : List Nat := setBits p.toNat 16

/-- The root task of a launch with an index (R129, R139, R145). -/
def LaunchSt.root (l : LaunchSt) (id i : Nat) : TaskAttr :=
  { tenant := l.tenant, launch := id, cls := l.cls, prio := l.prio, place := l.place, cohort := l.flags.toNat.testBit 0,
    task := (BitVec.ofNat 64 (id % 2 ^ 31 * 2 ^ 33 + i)), entry := l.entry,
    args := [BitVec.ofNat 64 i, BitVec.ofNat 64 l.n, l.args.headD 0#64, BitVec.ofNat 64 id] ++ l.args.drop 1,
    dom := if l.cls = 2 then l.rootDom else l.dom, parent := none, needs := [], vec := l.vec }

/-- The tasks of die number `j` of a launch's dies (R143). -/
def share (n d j : Nat) : List Nat := (List.range ((j + 1) * n / d - j * n / d)).map (fun m => j * n / d + m)

/-- The root tasks of a ready non-cohort launch go to the ready queues (R143). -/
def State.distribute (s : State) (id : Nat) (l : LaunchSt) : State :=
  let ds := diesOf l.place
  (List.range ds.length).foldl (fun t j =>
    let sh := share l.n ds.length j
    (List.range sh.length).foldl (fun u m => u.pushReady (ds.getD j 0) (m % 8) (l.root id (sh.getD m 0))) t) s

/-! ## Deques (R148 to R150) -/

/-- Put an entry into a list in age order. -/
def insAge : List TaskAttr → TaskAttr → List TaskAttr
  | [], t => [t]
  | x :: l, t => if t.pushed < x.pushed then t :: x :: l else x :: insAge l t

/-- A core's deque and overflow ring as one sequence in age order, oldest first (R150). -/
def CoreSt.entries (k : CoreSt) : List TaskAttr := k.overflow.foldl insAge k.deque

/-- When the deque holds fewer than 16 entries, the oldest 32 overflow entries return (R150). -/
def CoreSt.refill (k : CoreSt) : CoreSt :=
  if k.deque.length < 16 ∧ k.overflow ≠ [] then
    { k with deque := (k.overflow.take 32).foldl insAge k.deque, overflow := k.overflow.drop 32 }
  else k

/-- A push at the new end of the deque; a full deque first moves its 32 oldest entries to the ring, and none where the ring has
no room for them (R149, R150). -/
def CoreSt.push (k : CoreSt) (t : TaskAttr) : Option CoreSt :=
  if k.deque.length < 64 then some { k with deque := enq k.deque t }
  else if 65536 < k.overflow.length + 32 then none
  else some { k with overflow := (k.deque.take 32).foldl insAge k.overflow, deque := enq (k.deque.drop 32) t }

/-! ## Lending pages and turns (R162 to R164, R407, R408) -/

/-- Zero a basin page and set its words empty (Table 7.2, R166). -/
def State.zeroPage (s : State) (d c p : Nat) : State :=
  let a := basinLoc d c (p * 4096)
  { s with mem := s.mem.filter (fun e => decide (e.1 < a) || decide (a + 4096 ≤ e.1)),
           fe := s.fe.filter (fun w => decide (w < a / 8) || decide (a / 8 + 512 ≤ w)),
           poison := s.poison.filter (fun w => decide (w < a / 8) || decide (a / 8 + 512 ≤ w)) }

/-- A change of lend state; the counters of sr.hstat are cleared when the core begins to lend (R270). -/
def State.setLend (s : State) (d c : Nat) (turns : BitVec 8) (pages : List Nat) : State :=
  s.onCore d c (fun k =>
    let begins := s.lentMask d c = 0 && k.lentPages = [] && (turns ≠ 0#8 || pages ≠ [])
    let k1 := if begins then k.beginLend else k
    { k1 with lentTurns := turns, lentPages := pages })

/-- Add turns and pages to the lend state; newly lent pages are zeroed and set empty (R408). -/
def State.addLend (s : State) (d c : Nat) (turns : BitVec 8) (pages : List Nat) : State :=
  let k := s.core d c
  let fresh := pages.filter (fun p => !k.lentPages.contains p)
  let s1 := fresh.foldl (fun t p => t.zeroPage d c p) s
  (s1.setLend d c (k.lentTurns ||| turns) (fresh.foldl insNat k.lentPages)).unparkCore d c

/-- Whether a tenant holds a basin page of a core (R185). -/
def CoreSt.holds (k : CoreSt) (tn p : Nat) : Bool := SMap.look 0 k.pages p == tn + 1

/-- The pages a tenant holds on a core, rising. -/
def CoreSt.heldPages (k : CoreSt) (tn : Nat) : List Nat := (k.pages.filter (fun e => e.2 == tn + 1)).map (·.1)

/-- Whether a bank is bound to no task and not run by firmware: IDLE, or SPILLED, whose bank is free (Table 6.1). -/
def Ctx.free (x : Ctx) : Bool := x.bound.isNone && (decide (x.st = .idle) || decide (x.st = .spilled))

/-- The default lend of a latency-critical launch, made at its first bind on a core (R164). -/
def State.defaultLend (s : State) (c : CtxId) (id : Nat) : State :=
  match s.launchOf id with
  | none => s
  | some l =>
    let k := s.core c.die c.core
    if l.cls ≠ 0 || (l.lturns = 0#8 && l.lpages = 0) || k.replacedLends.contains id
        || k.defaultLends.any (fun e => e.1 == id) then s
    else
      let turns := (List.range 8).foldl (fun m t =>
        let o := s.ctx ⟨c.die, c.core, t, false⟩
        if l.lturns.toNat.testBit t && (o.free || (o.bound.map (·.launch)) == some id) then m + 2 ^ t else m) 0
      let held := k.heldPages l.tenant
      let pages := held.drop (held.length - l.lpages)
      (s.onCore c.die c.core (fun k => { k with defaultLends := enq k.defaultLends (id, BitVec.ofNat 8 turns, pages) })).addLend
        c.die c.core (BitVec.ofNat 8 turns) pages

/-! ## Binding (R145, R146, R163) -/

/-- The registers of a freshly bound task (R145). -/
def boundRegs (t : TaskAttr) (depth : Nat) : Regs :=
  let r0 : Regs := { pc := t.entry, task := t.task, dom := t.dom.setWidth 64, depth := depth, engretry := 3#3 }
  (List.range 8).foldl (fun r i => r.set (BitVec.ofNat 5 (4 + i)) (t.args.getD i 0#64)) r0

/-- A spout binds a task to an IDLE context (R145). -/
def State.bindTask (s : State) (c : CtxId) (t : TaskAttr) : State :=
  let depth := ((s.domain t.dom).map (·.depth)).getD 0
  let heap := ((s.tenant t.tenant).map (·.heap)).getD (0#64, 0#64, 0#64)
  let lvec := ((s.launchOf t.launch).map (·.vec)).getD []
  let needs := t.needs.filter (fun n => s.net.any (fun w => w.id == n))
  let x : Ctx := { r := boundRegs t depth, tenant := BitVec.ofNat 64 t.tenant, heapbase := heap.1, heaplim := heap.2.1,
                   heapoff := heap.2.2, st := .idle, wait := .none, bound := some t, lastTenant := some t.tenant,
                   boundAt := s.cycle.toNat }
  let change := c.reserve && (s.core c.die c.core).harvestTenant.isNone && (s.core c.die c.core).lastHarvest != some t.tenant
  let s1 := if change then (s.core c.die c.core).lentPages.foldl (fun u p => u.zeroPage c.die c.core p) s else s
  let s2 := s1.onCore c.die c.core (fun k =>
    { k with robuf := k.robuf.filter (fun r => r.tenant == t.tenant),
             channels := SMap.put {} k.channels (c.turn + if c.reserve then 8 else 0) {},
             harvestTenant := if c.reserve then some t.tenant else k.harvestTenant,
             lastHarvest := if c.reserve then some t.tenant else k.lastHarvest,
             pages := if c.reserve then k.pages
               else (List.range 256).foldl (fun m p => if SMap.look 0 m p = 0 then SMap.put 0 m p (t.tenant + 1) else m) k.pages })
  let s3 := ((s2.setCtx c x).mergeV c.die t.vec).mergeV c.die lvec
  let s4 := if needs = [] then s3.ready c else s3.onCtx c (fun y => { y with st := .wait, wait := .release needs })
  if c.reserve then s4 else s4.defaultLend c t.launch

/-- Whether an owner bank is free for a cohort: bound to no task, not reserved, its channel holding no copy (R132). -/
def State.freeOwner (s : State) (c : CtxId) : Bool :=
  let x := s.ctx c
  let k := s.core c.die c.core
  x.free && x.reserved.isNone && !s.fencedCore c.die c.core && (SMap.look {} k.channels c.turn).copies = []

/-- The free owner contexts of a die in turn-major order (R144). -/
def State.freeOwners (s : State) (d : Nat) : List CtxId :=
  (List.range 8).flatMap (fun t => ((List.range 64).map (fun c => (⟨d, c, t, false⟩ : CtxId))).filter s.freeOwner)

/-- Tasks given cyclically, from a die on, to the dies that have room left. -/
def dealExcess (free : List Nat) (from_ : Nat) (lists : List (List Nat)) (excess : List Nat) : List (List Nat) :=
  (((List.range free.length).map (fun i => (from_ + 1 + i) % free.length)).foldl (fun (acc : List (List Nat) × List Nat) i =>
    let room := free.getD i 0 - (acc.1.getD i []).length
    (acc.1.set i (acc.1.getD i [] ++ acc.2.take room), acc.2.drop room)) (lists, excess)).1

/-- The task indices that each die of a cohort takes, ascending: of its share as many as it can, and what other dies could not take, which
goes on cyclically (R144). -/
def cohortDeal (shares : List (List Nat)) (free : List Nat) : List (List Nat) :=
  let base := (shares.zip free).map (fun e => e.1.take e.2)
  ((List.range shares.length).foldl (fun l j => dealExcess free j l ((shares.getD j []).drop (free.getD j 0))) base).map
    (fun l => l.foldl insNat [])

/-- Bind all tasks of a cohort that passed the check (R132, R144). -/
def State.bindCohort (s : State) (id : Nat) (l : LaunchSt) : State :=
  let ds := diesOf l.place
  let frees := ds.map s.freeOwners
  let deal := cohortDeal ((List.range ds.length).map (share l.n ds.length)) (frees.map (·.length))
  (List.range ds.length).foldl (fun t j =>
    ((frees.getD j []).zip (deal.getD j [])).foldl (fun u e => u.bindTask e.1 (l.root id e.2)) t) s

/-! ## Becoming idle, launch failure (R141, R133, R163, R164) -/

/-- Withdraw lent turns and pages (R166, R408): turns park, pages are zeroed and returned. -/
def State.takeLend (s : State) (d c : Nat) (turns : BitVec 8) (pages : List Nat) : State :=
  let k := s.core d c
  let back := pages.filter (k.lentPages.contains ·)
  let s0 := s.setLend d c (k.lentTurns &&& ~~~turns) (without k.lentPages (pages.contains ·))
  let s1 := (List.range 8).foldl (fun t i =>
    if k.lentTurns.toNat.testBit i && turns.toNat.testBit i && !t.turnFree ⟨d, c, i, true⟩ then t.park ⟨d, c, i, false⟩ else t) s0
  (back.foldl (fun t p => t.zeroPage d c p) s1).onCore d c (fun k =>
    { k with pgret := min (k.pgret + (back.filter (fun p => k.harvestData.any (·.1 == p))).length) 255,
             harvestData := without k.harvestData (fun e => back.contains e.1) })

/-- A context no longer waits at any counter, and its monitor is no longer registered; its waiter-pool entries free (R156,
R160, R323). -/
def State.leaveWaits (s : State) (c : CtxId) : State :=
  let cs := s.counters.map (fun e => (e.1, { e.2 with waiters := without e.2.waiters (· == c) }))
  let ds := s.dies.map (fun e => (e.1, { e.2 with monitors := without e.2.monitors (fun m => m.2 == c) }))
  { s with counters := cs.filter (fun e => e.2 != {}), dies := ds }

/-- The scoreboard entry of a context that waits to post to or to read from the weir: one that no copy and no matrix operation holds
(Table 7.3). -/
def CoreSt.loose (k : CoreSt) (c : CtxId) : Option SbEntry :=
  k.sboard.find? (fun e => e.owner == c && !k.engine.any (fun o => o.sb == e.id)
    && !k.channels.any (fun h => h.2.copies.any (fun q => q.sb == some e.id)))

/-- Free that entry; the contexts of the core that wait on the scoreboard go on (R190). -/
def State.dropLoose (s : State) (c : CtxId) : State :=
  match (s.core c.die c.core).loose c with
  | none => s
  | some e =>
    (s.onCore c.die c.core (fun k => { k with sboard := without k.sboard (fun x => x.id == e.id) })).wakeAll
      (fun x w => x.die == c.die && x.core == c.core && (w == .retry .scoreboard || w == .retry .lend))

/-- A context's task is gone: the context is IDLE and its turn's harvest tenancy follows (R141, R163). -/
def State.makeIdle (s : State) (c : CtxId) : State :=
  let x := s.ctx c
  let s1 := ((s.leaveWaits c).dropLoose c).setCtx c
    { x with st := .idle, wait := .none, bound := none, monitor := none, ahead := none, atBoundary := [], offered := false,
             ended := false, spill := none, r := { x.r with hints := [] } }
  if c.reserve then
    let s2 := s1.onCore c.die c.core (fun k => { k with harvestData := without k.harvestData (fun e => e.2 == c) })
    if (List.range 8).all (fun t => (s1.ctx ⟨c.die, c.core, t, true⟩).bound.isNone)
    then s2.onCore c.die c.core (fun k => { k with harvestTenant := none }) else s2
  else s1.unparkCore c.die c.core

/-- Remove queued tasks that meet a test from deques, rings, resume slots, ready queues and counters (R176, R137); deques refill, and a
SPAWN that waits for ring space goes on (R150). -/
def State.dropTasks (s : State) (p : TaskAttr → Bool) : State :=
  let u : State := { s with
    cores := s.cores.map (fun e => (e.1, ({ e.2 with deque := without e.2.deque p, overflow := without e.2.overflow p,
                                                     resume := without e.2.resume (fun r => p r.task) } : CoreSt).refill)),
    dies := s.dies.map (fun e => (e.1, { e.2 with ready := (e.2.ready.map (fun q => (q.1, without q.2 p))).filter (fun q => q.2 != []) })),
    counters := (s.counters.map (fun e => (e.1, { e.2 with bound := without e.2.bound p }))).filter (fun e => e.2 != {}) }
  u.wakeWhy .overflowRing

/-- Stop the operations of contexts that meet a test: their matrix operations end without a commit and free their entries
(R176, R379), and their step programs stop without writing DONE, so that peers receive nothing more from them (R423). -/
def State.dropEngine (s : State) (p : CtxId → Bool) : State :=
  let cores := s.cores.map (fun e =>
    let gone := (e.2.engine.filter (fun o => p o.owner)).map (·.sb)
      ++ (e.2.sboard.filter (fun b => p b.owner && (e.2.loose b.owner).any (fun x => x.id == b.id))).map (·.id)
    (e.1, { e.2 with engine := without e.2.engine (fun o => p o.owner),
                     sboard := without e.2.sboard (fun b => gone.contains b.id) }))
  let stops (q : Nat × Option StepProg) : Bool := (q.2.map (fun g => p g.owner && g.state == 1)).getD false
  let dies := s.dies.map (fun e => (e.1, { e.2 with programs := without e.2.programs stops }))
  let dead : List (BitVec 32 × Nat) := s.dies.flatMap (fun e => (e.2.programs.filter stops).filterMap (fun q => q.2.map (fun g => (g.handle, g.rank))))
  let groups := if dead.isEmpty then s.groups else s.groups.map (fun e => (e.1, e.2.map (fun (g : Group) =>
    { g with flight := without g.flight (fun m => dead.contains (BitVec.ofNat 32 e.1, m.1)) })))
  ({ s with cores := cores, dies := dies, groups := groups } : State).wakeWhy .scoreboard

/-- A launch is over and has failed: its tasks are discarded and LAUNCH_FAILED is posted (R133). -/
def State.failLaunch (s : State) (id : Nat) (cause : BitVec 32) (detail : Word) (tell : Bool) : State :=
  match s.launchOf id with
  | none => s
  | some l =>
    if l.phase = 2 then s
    else
      let mine : CtxId → Ctx → Bool := fun _ x => (x.bound.map (·.launch)) == some id
      let ids := (s.allCtx.filter (fun e => mine e.1 e.2)).map (·.1)
      let s1 := (s.dropTasks (fun t => t.launch == id)).dropEngine (ids.contains ·)
      let s2 := ids.foldl (fun t c => t.makeIdle c) s1
      let s3 : State := { (s2.onLaunch id (fun l => { l with phase := 2, live := 0 })) with
        counters := (s2.counters.map (fun e => (e.1, { e.2 with launches := without e.2.launches (· == id) }))).filter (fun e => e.2 != {}),
        dies := s2.dies.map (fun e => (e.1, { e.2 with
          poolQueue := without e.2.poolQueue (· == id),
          records := e.2.records.filter (fun q => !((q.2.map (fun d => d.root == some id || d.creatorTask.2 == id)).getD false)) })) }
      if tell then s3.post l.tenant 0x0002#16 0#8 cause id detail else s3

/-! ## Arrival counters and the life of a launch (R130, R131, R154, R173) -/

/-- Whether both fields of a counter word are zero. -/
def State.counterZero (s : State) (loc : Nat) : Bool := s.natAtLoc loc 8 == 0

/-- Entries of a die's waiter pool in use: bound tasks, waiters and launches of the counters it homes (R156). -/
def State.poolUsed (s : State) (d : Nat) : Nat :=
  s.counters.foldl (fun n e => if homeDie e.1 = some d then n + e.2.bound.length + e.2.waiters.length + e.2.launches.length else n) 0

/-- Write a counter word at its home (R154). -/
def State.setCounter (s : State) (loc v : Nat) (vec : SMap (BitVec 32)) (f : WriteFrom := .local) : State :=
  (s.applyWrite loc (bytesLE 8 v) (s.homeSlice loc) f).onCounter loc (fun c => { c with vec := mergeVec c.vec vec })

/-- Whether a counter's home can perform a write of a die to it now (R220, R221). -/
def State.counterMay (s : State) (src loc : Nat) : Bool :=
  match homeDie loc with
  | some h => decide (h = src) || s.causalMay h src (s.homeSlice loc) loc 8 (s.die src).v
  | none => true

/-- A charge, decrement or discharge by a die: to a counter homed on another die it goes as a packet, a causal write of that die, which the
home acknowledges (R157, R218). -/
def State.counterDec (s : State) (src loc v : Nat) (vec : SMap (BitVec 32)) : State :=
  match homeDie loc with
  | some h =>
    if h = src then s.setCounter loc v vec
    else
      let b := (s.dropRdc src loc 8).bump src
      ((b.2.retireYoung h).setCounter loc v vec (.die src b.1)).acked src b.1
  | none => s.setCounter loc v vec

/-- The key under which a die keeps the waiter-pool entries of launches whose input counter is mapped no more: such a counter never fires
(R130). -/
def deadCounter (die : Nat) : Nat := 2 ^ 90 + die * 2 ^ 26

/-- A list in the order of a key, by insertion. -/
def insBy {α : Type} (le : α → α → Bool) : List α → α → List α
  | [], x => [x]
  | y :: l, x => if le y x then y :: insBy le l x else x :: y :: l

/-- The keys of R132 for launches that become ready at one moment: tenant, SCP before LAUNCHD, queue, SEQ, id. -/
def LaunchSt.order (l : LaunchSt) (id : Nat) : List Nat :=
  match l.origin with
  | some o => [l.tenant, 0, o.1, o.2, id]
  | none => [l.tenant, 1, 0, 0, id]

/-- Lexicographic order of lists of numbers. -/
def lexLe : List Nat → List Nat → Bool
  | [], _ => true
  | _, [] => false
  | a :: s, b :: t => decide (a < b) || (a == b && lexLe s t)

/-- Launches in the order in which R132 takes those that become ready at one moment. -/
def State.inReadyOrder (s : State) (l : List Nat) : List Nat :=
  let key (i : Nat) : List Nat := ((s.launchOf i).map (fun x => x.order i)).getD [64, 1, 0, 0, i]
  l.foldl (insBy (fun a b => lexLe (key a) (key b))) []

/-- A deferred decrement of a domain, unless its record is full (R173). -/
def State.defer (s : State) (id : BitVec 32) (loc : Nat) (va : Word) (n : BitVec 32) : Option State :=
  match s.domain id with
  | none => none
  | some d => if d.deferred.length < 64 then some (s.setDomain id (some { d with deferred := enq d.deferred ⟨loc, va, n⟩ })) else none

/-- Whether a domain is one of another's, itself included: the chain of parents reaches it (R172). -/
def State.within (s : State) : Nat → BitVec 32 → BitVec 32 → Bool
  | 0, _, _ => false
  | k + 1, d, e => if d = e then true else
    match s.domain d with
    | some r => s.within k r.parent e
    | none => false

/-- Whether a counter was CNTINIT'd inside the same attempt of a domain or of one of its descendants (R173). -/
def State.counterLocal (s : State) (loc : Nat) (dom : BitVec 32) : Bool :=
  match (s.counter loc).tag with
  | none => false
  | some (t, a) => s.within 9 t dom && ((s.domain t).map (·.attempt)) == some a

/-- What follows from a happening. -/
inductive Todo where
  /-- A counter's fields may both be zero: it fires unless it had (R154). -/
  | fire (loc : Nat)
  /-- A launch may have become ready (R130). -/
  | ready (launch : Nat)
  /-- A launch may have completed (R131). -/
  | complete (launch : Nat)
  /-- A domain takes a fault for a deferred decrement too many (R173). -/
  | domainOver (id : BitVec 32)
deriving DecidableEq, Repr, Inhabited

/-- The operation that left a counter's word: remember whether it fires (R154). -/
def State.fireCounter (s : State) (loc : Nat) : State × List Todo :=
  if !s.counterZero loc then (s.onCounter loc (fun c => { c with fired := false }), [])
  else if (s.counter loc).fired then (s, [])
  else
    let c := s.counter loc
    let h := (homeDie loc).getD 0
    let s1 := s.onCounter loc (fun c => { c with fired := true, bound := [], waiters := [], launches := [], vec := [] })
    let s2 := c.bound.foldl (fun t k => t.pushReady h (s1.clusterOf loc) { k with vec := mergeVec k.vec c.vec }) s1
    let s3 := c.waiters.foldl (fun t w =>
      if (t.ctx w).wait = .retry (.counter loc) then ((t.mergeV w.die c.vec).onCtx w (fun x => { x with ended := true })).wake w
      else t) s2
    let s4 := c.launches.foldl (fun t l => t.onLaunch l (fun y => { y with inputs := without y.inputs (fun i => i.1 == loc),
                                                                           vec := mergeVec y.vec c.vec })) s3
    (s4, (s4.inReadyOrder c.launches).map .ready)

/-- Whether the stitch units or the base dies hold a delta outside any domain of a stitched window of a tenant (R131, R391). -/
def State.deltasOut (s : State) (tn : Nat) : Bool :=
  let mine (line : Nat) : Bool := match s.tenant tn with
    | some t => (t.windows.map (·.2)).any (fun w => w.valid && w.stitch && decide (w.pbase * 8 ≤ line) && decide (line < w.pend * 8))
    | none => false
  s.dies.any (fun e => e.2.stitchQ.any (fun q => q.dom == 0#32 && mine q.line))
    || s.cores.any (fun e => e.2.deltas.any (fun q => match q.2 with | some d => d.dom == 0#32 && mine d.line | none => false))

/-- Whether work of a launch is still outstanding: copies of its tasks, and stitch acknowledgements outside domains, which the model knows
by tenant only (R131 step 1, R389). -/
def State.launchBusy (s : State) (id : Nat) : Bool :=
  s.cores.any (fun e => e.2.channels.any (fun c => c.2.copies.any (fun x => x.launch == id)))
    || ((s.launchOf id).map (fun l => s.deltasOut l.tenant)).getD false

/-- What a decrement of launch completion finds at its address: a missing page is mapped first; none where the decrement must wait for the
page's fetch (R131, R210, R430). -/
def State.outLoc (s : State) (tn : Nat) (va : Word) : Option (State × Option Nat) :=
  match s.tenant tn with
  | none => some (s, none)
  | some t =>
    match t.windowAt va with
    | none => some (s, none)
    | some w =>
      if !w.perms.toNat.testBit 1 then some (s, none)
      else match s.touchPage tn va with
        | .mapped u => some (u, u.hostLoc tn va .wr)
        | .t2 _ _ => none
        | _ => some (s, s.hostLoc tn va .wr)

/-- One decrement of launch completion (R131 step 2, R173). -/
def State.outDec (s : State) (id : Nat) (l : LaunchSt) (va : Word) (loc : Option Nat) : State × List Todo :=
  match loc with
  | none => (s.onLaunch id (fun y => { y with evflags := y.evflags ||| 4#8 }), [])
  | some loc =>
    if l.dom ≠ 0#32 && l.cls ≠ 2 && (s.domain l.dom).isSome && !s.counterLocal loc l.dom then
      match s.defer l.dom loc va 1#32 with
      | some t => (t, [])
      | none => (s, [.domainOver l.dom])
    else
      let v := s.natAtLoc loc 8
      if v % 2 ^ 32 = 0 then (s.onLaunch id (fun y => { y with evflags := y.evflags ||| 1#8 }), [])
      else (s.setCounter loc (v - 1) (mergeVec l.vec l.outVec), [.fire loc])

/-- The decrements of launch completion in order; they stop, to go on later, at one whose T2 page must be fetched first (R131, R210). -/
def State.outDecs (id : Nat) (l : LaunchSt) : List Word → State → List Todo → State × List Todo × Bool
  | [], s, q => (s, q, true)
  | va :: rest, s, q =>
    match s.outLoc l.tenant va with
    | none =>
      let t := match s.touchPage l.tenant va with
        | .t2 handle frame => s.fetchPage l.tenant va handle frame
        | _ => s
      (t.onLaunch id (fun y => { y with outputs := va :: rest }), q, false)
    | some u =>
      let r := u.1.outDec id l va u.2
      State.outDecs id l rest r.1 (q ++ r.2)

/-- Tasks whose TEXIT counted for a launch: those final, and those of attempts that have not ended (Table 5.6). -/
def State.launchDone (s : State) (id : Nat) (l : LaunchSt) : Nat :=
  s.domains.foldl (fun n d => n + SMap.look 0 d.ran id) l.done

/-- A launch completes when no task is live and no copy outstanding, and for a harvest launch its implicit root domain has
committed: output decrements, then LAUNCH_DONE (R131, R169). -/
def State.completeLaunch (s : State) (id : Nat) : State × List Todo :=
  match s.launchOf id with
  | none => (s, [])
  | some l =>
    if l.phase ≠ 1 || l.live ≠ 0 || s.launchBusy id || (s.domain l.rootDom).isSome then (s, [])
    else
      let r := State.outDecs id l l.outputs s []
      if !r.2.2 then (r.1, r.2.1)
      else
        let s0 := r.1.onLaunch id (fun y => { y with phase := 2 })
        let fl := ((s0.launchOf id).map (·.evflags)).getD 0#8
        let s1 := if l.flags.toNat.testBit 1 then s0.post l.tenant 0x0001#16 fl 0#32 id (BitVec.ofNat 64 (s.launchDone id l)) else s0
        let s2 := if l.dom ≠ 0#32 && l.cls ≠ 2 then s1.wakeWhy .domain else s1
        (s2, r.2.1)

/-- A free domain record index of a die (R170). -/
def State.freeRecord (s : State) (d : Nat) : Option Nat :=
  (List.range 4096).find? (fun i => (SMap.look none (s.die d).records i).isNone)

/-- A new domain id: die, generation, index (R170). -/
def State.newDomainId (s : State) (d i : Nat) : BitVec 32 × State :=
  let g := (SMap.look 0 (s.die d).gens i + 1) % 4096
  (BitVec.ofNat 32 (d * 2 ^ 28 + g * 2 ^ 16 + i), s.onDie d (fun x => { x with gens := SMap.put 0 x.gens i g }))

/-- A harvest launch takes its implicit root domain's record on the lowest die of PLACE (R169). -/
def State.openRoot (s : State) (id : Nat) (l : LaunchSt) : Option State :=
  let d := (diesOf l.place).headD 0
  match s.freeRecord d with
  | none => none
  | some i =>
    let n := s.newDomainId d i
    let r : DomRec := { id := n.1, tenant := l.tenant, parent := 0#32, depth := 1, creator := none, creatorTask := (0#64, id),
                        snap := {}, ranges := [], limit := 15, count := 0, attempt := 0, cause := 0#8, causeAddr := 0#64,
                        members := l.n, acks := 0, deferred := [], joinVec := [], root := some id, ran := [],
                        stitched := [], restart := false }
    some ((n.2.setDomain n.1 (some r)).onLaunch id (fun y => { y with rootDom := n.1 }))

/-- A launch whose input counters have all fired becomes ready and places its tasks (R130, R132, R143, R169). -/
def State.readyLaunch (s : State) (id : Nat) : State × List Todo :=
  match s.launchOf id with
  | none => (s, [])
  | some l =>
    if l.phase ≠ 0 || l.inputs ≠ [] || l.queued ≠ [] then (s, [])
    else if l.flags.toNat.testBit 0 then
      let free := ((diesOf l.place).map (fun d => (s.freeOwners d).length)).foldl (· + ·) 0
      if l.n ≤ free then
        let s1 := (s.onLaunch id (fun y => { y with phase := 1 })).bindCohort id l
        (s1, if l.n = 0 then [.complete id] else [])
      else
        (((s.onLaunch id (fun y => { y with phase := 2 })).post l.tenant 0x0002#16 0#8 0x205#32 id 0#64), [])
    else if l.cls = 2 then
      match s.openRoot id l with
      | none => (s, [])
      | some t =>
        match t.launchOf id with
        | none => (t, [])
        | some l1 =>
          let u := (t.onLaunch id (fun y => { y with phase := 1 })).distribute id l1
          if l.n = 0 then (u.setDomain l1.rootDom none, [.complete id]) else (u, [])
    else ((s.onLaunch id (fun y => { y with phase := 1 })).distribute id l, if l.n = 0 then [.complete id] else [])

/-- One consequence. -/
def State.todo (s : State) : Todo → State × List Todo
  | .fire loc => s.fireCounter loc
  | .ready id => s.readyLaunch id
  | .complete id => s.completeLaunch id
  | .domainOver id => (s, [.domainOver id])

/-- Work off the consequences, oldest first; a domain that overflows is left in the answer (R173). -/
def State.work : Nat → State → List Todo → State × List (BitVec 32)
  | 0, s, _ => (s, [])
  | _, s, [] => (s, [])
  | k + 1, s, .domainOver d :: q => let r := State.work k s q; (r.1, d :: r.2)
  | k + 1, s, t :: q => let r := s.todo t; State.work k r.1 (q ++ r.2)

/-- Enough steps for every consequence: each launch completes once and has at most four output counters. -/
def State.workFuel (s : State) : Nat := 16 + 16 * s.launches.length

end Sys2Proof.Machine
end

