-- ==== Sys2Proof/Machine/Domain.lean ====
section
/-! DEFINITION. Containment domains: what a domain fault does, its restart and its escalation (R171 to R178), and the
consumption of poison (R91). -/

namespace Sys2Proof.Machine

/-- Whether a task or context is in a domain: its innermost domain is the domain or one of its descendants (R172). -/
def State.inDomain (s : State) (d id : BitVec 32) : Bool := s.within 9 d id

/-- A copy's charge is discharged at the counter's home, with the die's V (R155, R176, Table 8.2). -/
def State.discharge (s : State) (c : Copy) : State × List Todo :=
  if c.charged = 0 then (s, [])
  else
    let v := s.natAtLoc c.counterLoc 8
    (s.counterDec c.owner.die c.counterLoc (v - c.charged * 2 ^ 32) (s.die c.owner.die).v, [.fire c.counterLoc])

/-- Stop copies that meet a test at a packet boundary without a stamp, and with each the later copies of its channel: charges are
discharged, entries freed, the channel left in a state (R176, R382, R389). -/
def State.stopCopies (s : State) (p : Copy → Bool) (st : Nat) : State × List Todo :=
  let r := s.cores.foldl (fun acc e =>
    e.2.channels.foldl (fun acc2 ch =>
      let kept := ch.2.copies.takeWhile (fun c => !p c)
      let gone := ch.2.copies.dropWhile (fun c => !p c)
      if gone = [] then acc2
      else
        let t1 := { acc2.1 with cores := SMap.alter {} acc2.1.cores e.1 (fun k =>
          { k with sboard := without k.sboard (fun b => gone.any (fun c => c.sb == some b.id)),
                   channels := SMap.alter {} k.channels ch.1 (fun x =>
                     { x with copies := kept, state := st }) }) }
        gone.foldl (fun a c => let q := a.1.discharge c; (q.1, a.2 ++ q.2)) (t1, acc2.2)) acc) (s, [])
  (r.1.wakeWhy .scoreboard, r.2)

/-- Restore a SNAP range with its full/empty bits (R176 step 5). -/
def State.restoreRange (s : State) (r : DRange) : State :=
  if !r.snap then s
  else
    (r.parts.foldl (fun (acc : State × List Byte) p =>
      let b := acc.2.take p.2
      let t := acc.1.applyWrite p.1 b (s.homeSlice p.1) .local
      let u := if isBasin p.1 then (wordsOf p.1 p.2).foldl (fun x w => x.setFull w (r.full.contains w)) t else t
      (u, acc.2.drop p.2)) (s, r.bytes)).1

/-- Where a task now is among the contexts. -/
def State.findTask (s : State) (t : Word × Nat) : Option CtxId :=
  (s.allCtx.find? (fun e => (e.2.bound.map (fun b => (b.task, b.launch))) == some t)).map (·.1)

/-- The context that runs a domain's creator: where its task is bound, or the context itself where no task was bound. -/
def State.creatorCtx (s : State) (d : DomRec) : Option CtxId :=
  if d.creatorTask.2 = 0 then d.creator else s.findTask d.creatorTask

/-- Launches that wait only for a domain record take one (R169), and contexts that wait for one issue again (R170). -/
def State.recordsFreed (s : State) : State × List Todo :=
  (s.wakeWhy .domainRecord,
    s.launches.filterMap (fun e => match e.2 with
      | some l => if l.cls = 2 && l.phase = 0 && l.inputs = [] && l.queued = [] then some (.ready e.1) else none
      | none => none))

/-- The home drops the tags of a domain that commits or aborts (R395). -/
def State.dropTags (s : State) (id : BitVec 32) : State :=
  { s with counters := (s.counters.map (fun e =>
      if (e.2.tag.map (·.1)) == some id then (e.1, { e.2 with tag := none }) else e)).filter (fun e => e.2 != {}) }

/-- Steps 1 to 5 of R176: members stop, queued members are removed, copies stop, deferred decrements and child records go,
SNAP ranges are restored. -/
def State.abortMembers (s : State) (d : DomRec) : State :=
  let creator := s.creatorCtx d
  let mem : BitVec 32 → Bool := fun x => s.inDomain x d.id
  let ctxs := (s.allCtx.filter (fun e => mem (e.2.r.dom.setWidth 32) || (e.2.bound.map (fun b => mem b.dom)).getD false)).map (·.1)
  let others := ctxs.filter (fun c => creator != some c)
  let gone := others.filterMap (fun c => (s.ctx c).bound)
  let queued := s.cores.flatMap (fun e => (e.2.deque ++ e.2.overflow ++ e.2.resume.map (·.task)).filter (fun t => mem t.dom))
    ++ s.dies.flatMap (fun e => e.2.ready.flatMap (fun q => q.2.filter (fun t => mem t.dom)))
    ++ s.counters.flatMap (fun e => e.2.bound.filter (fun t => mem t.dom))
  let lost := gone ++ queued
  let kids := s.domains.filter (fun e => e.id != d.id && mem e.id)
  let s1 := (s.dropTasks (fun t => mem t.dom)).dropEngine (ctxs.contains ·)
  let r := s1.stopCopies (fun c => mem c.dom) 4
  let s2 := (State.work r.1.workFuel r.1 r.2).1
  let s3 := others.foldl (fun t c => t.makeIdle c) s2
  let s4 := kids.foldl (fun t e => t.setDomain e.id none) s3
  let s5 := lost.foldl (fun t k => t.onLaunch k.launch (fun l => { l with live := l.live - 1 })) s4
  let over_ : LaunchSt → Bool := fun l => decide (l.cls ≠ 2) && decide (l.dom ≠ 0#32) && mem l.dom && decide (l.phase ≠ 2)
  let dead := s5.launches.filterMap (fun e => if (e.2.map over_).getD false then some e.1 else none)
  let s6 : State := { s5 with
    launches := s5.launches.map (fun e => (e.1, e.2.map (fun l => if over_ l then { l with phase := 2, live := 0 } else l))),
    counters := (s5.counters.map (fun e => (e.1, { e.2 with launches := without e.2.launches (dead.contains ·) }))).filter (fun e => e.2 != {}),
    dies := s5.dies.map (fun e => (e.1, { e.2 with poolQueue := without e.2.poolQueue (dead.contains ·) })) }
  let s7 := match creator with
    | some c => s6.onCtx c (fun x => { x with r := { x.r with children := x.r.children - (lost.filter (fun k => k.parent == some d.creatorTask.1 && k.launch == d.creatorTask.2)).length } })
    | none => s6
  d.ranges.foldl (fun t r => t.restoreRange r) s7

/-- The registers of a restarted creator (R176 step 6): the snapshot; the task and the live-children count stay. -/
def restartRegs (d : DomRec) (r : Regs) : Regs := { d.snap with task := r.task, children := r.children, joinVec := r.joinVec }

/-- Restart the creator at the instruction after DBEGIN, or re-bind the root tasks of a harvest launch (R169, R176). -/
def State.restart (s : State) (d : DomRec) (revoked : Bool) : State :=
  match d.root with
  | some l =>
    match s.launchOf l with
    | some y => (s.onLaunch l (fun y => { y with live := y.n })).distribute l y
    | none => s
  | none =>
    match s.creatorCtx d with
    | some c =>
      let t := (s.leaveWaits c).onCtx c (fun x =>
        { x with r := restartRegs d x.r, wait := .none, ahead := none, atBoundary := [], st := .idle, ended := false, spill := none })
      if revoked then t.onCtx c (fun x => { x with st := .parked }) else t.ready c
    | none =>
      { s with cores := s.cores.map (fun e => (e.1, { e.2 with resume := e.2.resume.map (fun q =>
          if (q.task.task, q.task.launch) == d.creatorTask then { q with r := restartRegs d q.r } else q) })) }

/-- A domain fault of a domain with a cause and the address kept with it (R175 to R177).  The first argument bounds the
escalation: a chain of parents is at most 8 long. -/
def State.domainFaultN : Nat → State → BitVec 32 → BitVec 8 → Word → Bool → State
  | 0, s, _, _, _, _ => s
  | k + 1, s, id, cause, addr, atOnce =>
    match s.domain id with
    | none => s
    | some d0 =>
      let d := { d0 with cause := cause, causeAddr := addr, deferred := [] }
      let revoked := cause = 0x13#8
      if atOnce || (!revoked && d.limit < d.count + 1) then
        if d.parent ≠ 0#32 then
          (State.domainFaultN k (s.setDomain id (some d)) d.parent cause addr false).setDomain id none
        else
          let s1 := (s.abortMembers d).setDomain id none
          let l := match d.root with | some l => l | none => d.creatorTask.2
          s1.failLaunch l (causeWord cause) addr true
      else
        let s1 := s.abortMembers d
        let d1 := { d with count := if revoked then d.count else d.count + 1, attempt := d.attempt + 1,
                           members := if d.root.isSome then ((d.root.bind s.launchOf).map (·.n)).getD 0 else 0,
                           joinVec := [], ran := [], restart := revoked }
        ((s1.dropTags id).setDomain id (some d1)).restart d1 revoked

/-- A domain fault, without the default lends that end with its tasks (R176). -/
def State.faultCore (s : State) (id : BitVec 32) (cause : BitVec 8) (addr : Word) (atOnce : Bool) : State :=
  let r := (State.domainFaultN 9 s id cause addr atOnce).recordsFreed
  (State.work r.1.workFuel r.1 r.2).1

/-- Work off consequences, with the domain faults among them, without the default lends that end (R173). -/
def State.settleCore (s : State) (l : List Todo) : State :=
  let r := State.work s.workFuel s l
  r.2.foldl (fun t d => t.faultCore d 0x12#8 0#64 false) r.1

/-! ## Lent pages that return (R164, R166 to R168, R408) -/

/-- Whether a basin range of a core meets a page of a list. -/
def meetsPages (pages : List Nat) (off n : Nat) : Bool := pages.any (fun p => overlaps off n (p * 4096) 4096)

/-- The harvest contexts that a return of pages revokes: those whose data the pages hold, those with a matrix operation over them,
and those that wait on a word of them (R168, R321, Table 13.5). -/
def State.revokedBy (s : State) (d c : Nat) (pages : List Nat) : List CtxId :=
  let k := s.core d c
  let data := (k.harvestData.filter (fun e => pages.contains e.1)).map (·.2)
  let ops := (k.engine.filter (fun o => o.owner.reserve && k.sboard.any (fun e => e.id == o.sb
      && (e.reads.any (fun r => meetsPages pages r.1 r.2)
          || (match e.write with | some r => meetsPages pages r.1 r.2 | none => false))))).map (·.owner)
  let waits := ((List.range 8).map (fun t => (⟨d, c, t, true⟩ : CtxId))).filter (fun x =>
    match (s.ctx x).wait with
    | .retry (.basinWord w) => isBasin (8 * w) && pages.contains (8 * w % 2 ^ 20 / 4096)
    | _ => false)
  let progs := (s.die d).programs.filterMap (fun e => match e.2 with
    | some g => if g.state = 1 && g.owner.reserve && g.owner.core == c && meetsPages pages g.span.1 g.span.2 then some g.owner else none
    | none => none)
  (data ++ ops ++ waits ++ progs).eraseDups

/-- A step program ends with a fault: 0x2 with the code and the step index go to DONE, which is set full (R422). -/
def State.faultProgram (s : State) (d slot : Nat) (code : BitVec 8) : State :=
  match SMap.look none (s.die d).programs slot with
  | none => s
  | some g =>
    if g.state ≠ 1 then s
    else
      let loc := basinLoc d g.core g.doneOff
      let v := 2 + code.toNat * 2 ^ 8 + g.index * 2 ^ 16
      let t := (s.applyWrite loc (bytesLE 8 v) 0 .local).setFull (loc / 8) true
      let u := (t.wakeWhy (.basinWord (loc / 8))).onDie d (fun x =>
        { x with programs := SMap.put none x.programs slot (some { g with state := 3, code := code }) })
      if (u.ctx g.owner).wait = .retry .texit then u.wake g.owner else u

/-- Deliver DOMAIN_REVOKED to the harvest contexts that a return of pages meets; step programs over the pages end with code 6
(R168, R422). -/
def State.revokeData (s : State) (d c : Nat) (pages : List Nat) : State :=
  let hit := s.revokedBy d c pages
  let s0 := (s.die d).programs.foldl (fun t e => match e.2 with
    | some g => if g.owner.reserve && g.owner.core == c && meetsPages pages g.span.1 g.span.2 then t.faultProgram d e.1 6#8 else t
    | none => t) s
  hit.foldl (fun t h =>
    let x := t.ctx h
    let writes (id : Nat) : Bool := (t.core d c).sboard.any (fun b => b.id == id
      && (match b.write with | some q => meetsPages pages q.1 q.2 | none => false))
    let r := (t.onCore d c (fun k =>
        let gone := (k.engine.filter (fun o => o.owner == h && writes o.sb)).map (·.sb)
        { k with engine := without k.engine (fun o => gone.contains o.sb), sboard := without k.sboard (fun b => gone.contains b.id) })).stopCopies
      (fun k => k.owner == h && (match k.sb with | some b => writes b | none => false)) 4
    let u := r.1.settleCore r.2
    if x.bound.isSome then u.faultCore (x.r.dom.setWidth 32) 0x13#8 0#64 false else u) s0

/-- UNLEND of turns and pages: DOMAIN_REVOKED first, then the pages are zeroed and returned (R166 to R168, R408). -/
def State.unlend (s : State) (d c : Nat) (turns : BitVec 8) (pages : List Nat) : State :=
  let back := pages.filter ((s.core d c).lentPages.contains ·)
  let hold := (s.core d c).harvestData
  let s1 := s.setLend d c (s.core d c).lentTurns (without (s.core d c).lentPages (back.contains ·))
  let s2 := s1.revokeData d c back
  (s2.onCore d c (fun k => { k with lentPages := (s.core d c).lentPages, harvestData := hold })).takeLend d c turns back

/-- Withdraw the default lends whose launch has no task left on its core, as by UNLEND (R164). -/
def State.endLends (s : State) : State :=
  s.cores.foldl (fun t e =>
    let d := e.1 / 66
    let c := e.1 % 66
    let gone : List (Nat × BitVec 8 × List Nat) := e.2.defaultLends.filter (fun l =>
      !((List.range 8).any (fun i => ((t.ctx ⟨d, c, i, false⟩).bound.map (·.launch)) == some l.1)
        || e.2.resume.any (fun r => r.task.launch == l.1)))
    if gone.isEmpty then t
    else
      let kept := without e.2.defaultLends (gone.contains ·)
      let turns := (gone.foldl (fun m l => m ||| l.2.1) 0#8) &&& ~~~(kept.foldl (fun m l => m ||| l.2.1) 0#8)
      let pages := (gone.flatMap (·.2.2)).filter (fun p => !kept.any (fun l => l.2.2.contains p))
      (t.onCore d c (fun k => { k with defaultLends := kept })).unlend d c turns pages) s

/-! ## Domain faults and consequences as the rest of the machine uses them -/

/-- A domain fault (R176); one raised while the die map changes is delivered after resume (R107). -/
def State.domainFault (s : State) (id : BitVec 32) (cause : BitVec 8) (addr : Word) (atOnce : Bool := false) : State :=
  if s.fab.change.isSome && !atOnce then { s with fab := { s.fab with queuedDomains := enq s.fab.queuedDomains (id, cause, addr) } }
  else (s.faultCore id cause addr atOnce).endLends

/-- Work off consequences, with the domain faults among them (R173). -/
def State.settle (s : State) (l : List Todo) : State := (s.settleCore l).endLends

/-- A happening in a context that is a domain fault of its innermost domain, and in a context in no domain a trap
(R89 to R91, R175). -/
def State.faultOr (s : State) (w : IWord) (cause : BitVec 8) (tval : Word) : Res :=
  let id := s.cx.r.dom.setWidth 32
  if (s.domain id).isSome then .next (s.domainFault id cause s.cx.r.chainStart) else s.trap w cause tval

/-- Poison is consumed by an instruction of the issuing context (R91). -/
def State.consume (s : State) (w : IWord) (va : Word) : Res := s.faultOr w 0x06#8 va

/-- An end-to-end failure that cannot be replayed (R51, R175). -/
def State.lostAccess (s : State) : Res :=
  let id := s.cx.r.dom.setWidth 32
  if (s.domain id).isSome then .next (s.domainFault id 0x15#8 0#64) else .fault .transportLost

/-! ## Commit (R173, R174, R391) -/

/-- The stitch flush of a domain: every slice writes back the dirty sectors tagged with it and clears those tags; each write-back owes one
acknowledgement, and other packages on which a member wrote are told (R391). -/
def State.flushStitch (s : State) (id : BitVec 32) : State :=
  let s1 := s.dies.foldl (fun (t : State) e =>
    let tagged (x : L2Line) : BitVec 4 := e.2.tags.foldl (fun m q => if q.2.2 = id ∧ q.2.1 / 4 = x.line then m ||| sectorBit q.2.1 else m) 0#4
    let u := (e.2.l2.filter (fun x => tagged x &&& x.dirty != 0#4)).foldl (fun (v : State) x => v.l2WriteBack e.1 x (tagged x)) t
    u.onDie e.1 (fun k => { k with tags := without k.tags (fun q => q.2.2 == id) })) s
  let far := ((s1.domain id).map (·.stitched)).getD []
  far.foldl (fun t p => t.send (.record "stitch flush" id.toNat p.toNat)) (s1.onDomain id (fun d => { d with stitched := [] }))

/-- Deferred decrements performed at a commit, in the order recorded: one that would pass below zero is skipped (R174 step 5).
The state, what follows, and the addresses skipped. -/
def State.performDeferred (s : State) (src : Nat) (l : List Deferred) (vec : SMap (BitVec 32)) : State × List Todo × List Word :=
  l.foldl (fun acc e =>
    let v := acc.1.natAtLoc e.loc 8
    if v % 2 ^ 32 < e.amount.toNat then (acc.1, acc.2.1, acc.2.2 ++ [e.va])
    else if e.amount = 0#32 then acc
    else (acc.1.counterDec src e.loc (v - e.amount.toNat) vec, acc.2.1 ++ [.fire e.loc], acc.2.2)) (s, [], [])

/-- The members' exits of a committed domain move to its parent, or are final (Table 5.6). -/
def State.handExits (s : State) (d : DomRec) : State :=
  if (s.domain d.parent).isSome then
    s.onDomain d.parent (fun p => { p with ran := d.ran.foldl (fun m e => SMap.put 0 m e.1 (SMap.look 0 m e.1 + e.2)) p.ran })
  else d.ran.foldl (fun t e => t.onLaunch e.1 (fun l => { l with done := l.done + e.2 })) s

/-- The implicit root domain of a harvest launch commits once no member is left and every stitch acknowledgement has arrived:
decrements are performed, one that would underflow flags the launch, the record frees and launch completion follows (R169). -/
def State.rootCommit (s : State) (id : BitVec 32) : State × List Todo :=
  match s.domain id with
  | none => (s, [])
  | some d0 =>
    match d0.root with
    | none => (s, [])
    | some l =>
      if d0.members ≠ 0 then (s, [])
      else
        let s1 := s.flushStitch id
        match s1.domain id with
        | none => (s1, [])
        | some d =>
          if d.acks ≠ 0 then (s1, [])
          else
            let r := (s1.handExits d).performDeferred (d.id.toNat / 2 ^ 28) d.deferred d.joinVec
            let s2 := if r.2.2 = [] then r.1 else r.1.onLaunch l (fun y => { y with evflags := y.evflags ||| 1#8 })
            let f := ((s2.dropTags id).setDomain id none).recordsFreed
            (f.1, r.2.1 ++ [.complete l] ++ f.2)

/-- A record of a trap that killed its context goes to the trap area, and TRAP is posted (R135). -/
def TrapRec.bytes (t : TrapRec) : List Byte :=
  bytesLE 1 t.cause.toNat ++ bytesLE 1 t.flags.toNat ++ bytesLE 1 t.pages.length
    ++ bytesLE 1 (t.ctx.turn + if t.ctx.reserve then 8 else 0) ++ bytesLE 2 t.ctx.core ++ bytesLE 1 t.ctx.die
    ++ bytesLE 1 t.tenant ++ bytesLE 8 t.epc.toNat ++ bytesLE 8 t.tval.toNat ++ bytesLE 8 t.task.toNat
    ++ bytesLE 4 t.dom.toNat ++ bytesLE 4 t.vstart.toNat ++ bytesLE 8 t.launch ++ bytesLE 8 t.cycle.toNat
    ++ bytesLE 4 t.insn.toNat ++ bytesLE 4 0 ++ ((List.range 16).flatMap (fun i => bytesLE 8 (t.pages.getD i 0#64).toNat))
    ++ List.replicate 64 0#8

/-- Write a 256-byte record into the tenant's trap area and answer its index (R135, R136). -/
def State.trapArea (s : State) (tn : Nat) (b : List Byte) : Nat × State :=
  let i := ((s.tenant tn).map (·.trapSlot)).getD 0
  (i, (s.applyWrite (ownLoc (Config.trapAreaPa tn + 256 * i)) b (s.homeSlice (ownLoc (Config.trapAreaPa tn + 256 * i))) .local).onTenant tn (fun t => { t with trapSlot := (i + 1) % 256 }))

/-- Kill a trapped context: IDLE, its task discarded, its launch failed (R334, R133). -/
def State.kill (s : State) (c : CtxId) : State :=
  let x := s.ctx c
  let l := (x.bound.map (·.launch)).getD 0
  let s1 := s.failLaunch l (causeWord (x.r.cause.setWidth 8)) x.r.epc true
  let r := (s1.makeIdle c).recordsFreed
  r.1.settle r.2

end Sys2Proof.Machine
end

