-- ==== Sys2Proof/Machine/Ctl.lean ====
section
/-! DEFINITION. The windowed counting of fault events and what a lasting fault leads to (R82 to R87, R102, R105, R107), and the control
registers of routers, stacks and ports with the routine table (R39 to R41, R53, R74, R75, R81). -/

namespace Sys2Proof

/-- A kind that is a lasting fault at once, without counting (R84). -/
def FKind.atOnce : FKind → Bool
  | .selfTest | .noResponse | .portDown | .silent => true
  | _ => false

/-- Whether a kind is counted for a unit class of Table 4.1, with what R24, R39, R44, R81, R87 and R89 add to its rows. -/
def FKind.counts (k : FKind) (cls : Nat) : Bool :=
  match k with
  | .corrected => decide (cls ≤ 2)
  | .residue | .timing | .droppedWrite => decide (cls ≤ 1)
  | .thermal => decide (cls = 1)
  | .uncorrectable | .baseDie | .rowRemap => decide (cls = 3)
  | .fec => decide (cls = 4)
  | .linkCrc | .replay | .credit => decide (cls = 5)
  | _ => false

/-- Whether a fault of one unit includes that of another, whose class is lower (R86, Table 4.2). -/
def FUnit.includes : FUnit → FUnit → Bool
  | .dieShared d, .core e _ => d == e
  | .dieShared d, .supCore e _ => d == e
  | .package _, .core _ _ => true
  | .package _, .supCore _ _ => true
  | .package _, .dieShared _ => true
  | .package _, .stack _ => true
  | _, _ => false

end Sys2Proof

namespace Sys2Proof.Machine

/-! ## Windowed counting (R82, R83, Table 4.1) -/

/-- The class of a unit in Table 4.1: 0 core, 1 die-shared unit, 2 HBM row, 3 HBM stack, 4 lane, 5 port direction. -/
def unitClass : FUnit → Nat
  | .core _ _ => 0
  | .supCore _ _ => 1
  | .dieShared _ => 1
  | .serviceProcessor _ => 1
  | .hostController _ => 1
  | .hbmRow _ _ _ => 2
  | .stack _ => 3
  | .lane _ _ _ => 4
  | .portDir _ _ => 5
  | .package _ => 1

/-- THRESH and WINDOW in cycles of a unit's class (R83, Table 4.1; 4,000,000 cycles a millisecond). -/
def State.faultParams (s : State) (u : FUnit) : Nat × Nat :=
  let p := SMap.look (if unitClass u = 5 then (15, 10) else (3, 10)) s.rcv.params (unitClass u)
  (p.1, p.2 * 4000000)

/-- What a service processor keeps of a unit (R82). -/
def State.countOf (s : State) (sp : Nat) (u : FUnit) : UnitCount :=
  (s.rcv.counts.find? (fun e => e.sp == sp && e.unit == u)).getD ⟨sp, u, 0, 0, []⟩

/-- Replace it; an empty one is not listed. -/
def State.setCount (s : State) (c : UnitCount) : State :=
  let l := without s.rcv.counts (fun e => e.sp == c.sp && e.unit == c.unit)
  { s with rcv := { s.rcv with counts := if c.count = 0 && c.events = [] then l else enq l c } }

/-- A service processor hears of a fault event: the count of R83, with the events behind it; whether it diagnoses a lasting fault. -/
def UnitCount.hear (c : UnitCount) (k : FKind) (t thresh window : Nat) : UnitCount × Bool :=
  if !k.counts (unitClass c.unit) then ({ c with events := enq c.events (k, t) }, k.atOnce)
  else
    let fresh : Bool := c.count = 0 || decide (window ≤ t - c.start)
    let n := if fresh then 1 else c.count + 1
    let e := if fresh then [(k, t)] else enq c.events (k, t)
    if thresh ≤ n then (⟨c.sp, c.unit, if fresh then t else c.start, 0, e⟩, true) else (⟨c.sp, c.unit, if fresh then t else c.start, n, e⟩, false)

/-- A fault event reaches both service processors, each with its own counts; whether one of them diagnoses a lasting fault (R82, R83). -/
def State.countEvent (s : State) (u : FUnit) (k : FKind) : State × Bool :=
  let p := s.faultParams u
  s.rcv.sps.foldl (fun (acc : State × Bool) sp =>
    let r := (acc.1.countOf sp u).hear k s.cycle.toNat p.1 p.2
    (acc.1.setCount r.1, acc.2 || r.2)) (s, false)

/-- The record of a fault event, sent to both service processors (R82). -/
def State.tellFault (s : State) (u : FUnit) (kind : FKind) : State := s.send (.fault u kind s.cycle)

/-- Whether the evidence on a unit of a class meets R83 or R84 with a THRESH and a WINDOW in cycles: a kind that is lasting at once, as many
counted events as THRESH within one window, or row remaps exhausted (R97, R103). -/
def evidenceMeets (cls : Nat) (e : Evidence) (thresh window : Nat) : Bool :=
  e.any (fun x => x.1.atOnce || (x.1 == .rowRemap && decide (cls = 3)))
    || (e.filter (fun x => x.1.counts cls)).any (fun x =>
      decide (thresh ≤ (e.filter (fun y => y.1.counts cls && decide (x.2 ≤ y.2) && decide (y.2 < x.2 + window))).length))

/-- The same with this package's parameters (R83). -/
def State.meets (s : State) (u : FUnit) (e : Evidence) : Bool :=
  evidenceMeets (unitClass u) e (s.faultParams u).1 (s.faultParams u).2

/-! ## What a lasting fault leads to (R84 to R87, R97, R102, R105, R107) -/

/-- A retirement is proposed for a unit with a lasting fault, with the fault events behind it; while a die map changes it is queued (R84, R102,
R107).  A silent unit is fenced (R105).  Of two faults that belong together the one of the higher class is followed (R86). -/
def State.propose (s : State) (u : FUnit) (silent : Bool) (proposer : Nat) : State :=
  if s.fab.change.isSome then { s with fab := { s.fab with queuedFaults := enq s.fab.queuedFaults (u, silent) } }
  else if s.rcv.proposals.any (fun p => p.unit == u || p.unit.includes u) || s.retired u then s
  else
    let p : Proposal := { unit := u, silent := silent, proposer := proposer, events := (s.countOf proposer u).events, answer := none,
                          peer := false, abstained := [] }
    { s with rcv := { s.rcv with proposals := enq (without s.rcv.proposals (fun q => u.includes q.unit)) p,
                                 silent := if silent && !s.rcv.silent.contains u then enq s.rcv.silent u else s.rcv.silent,
                                 fenced := if silent && !s.rcv.fenced.contains u then enq s.rcv.fenced u else s.rcv.fenced } }

/-- An end-to-end failure that cannot be replayed: a domain fault of the issuing context's innermost domain (R51, R175).  A context with
no task in progress has nothing to fail. -/
def State.failIn (s : State) (c : CtxId) : Res :=
  let x := s.ctx c
  if x.st ≠ .run ∧ x.st ≠ .wait then .next s
  else if (s.domain (x.r.dom.setWidth 32)).isSome then .next (s.domainFault (x.r.dom.setWidth 32) 0x15#8 0#64)
  else .fault .transportLost

/-- The same for several contexts, in order. -/
def State.failEach (s : State) : List CtxId → Res
  | [] => .next s
  | c :: t => match s.failIn c with
    | .next u => u.failEach t
    | o => o

/-! ## Lane degrade and port loss (R52, R84, R96) -/

/-- The active lanes of a port state as first lane and number (Table 2.6). -/
def activeLanes (state : Nat) : Nat × Nat :=
  match state with
  | 2 => (0, 16)
  | 3 => (0, 8)
  | 4 => (8, 8)
  | 5 => (0, 4)
  | 6 => (4, 4)
  | 7 => (8, 4)
  | 8 => (12, 4)
  | _ => (0, 0)

/-- The state a degrade aims at: the largest aligned group within the active lanes without a failed lane, halves first, the lower group
on a tie; 0 where none remains (R52). -/
def degradeTarget (state : Nat) (failed : BitVec 16) : Nat :=
  let a := activeLanes state
  let inside (g : Nat × Nat) : Bool := decide (a.1 ≤ g.1) && decide (g.1 + g.2 ≤ a.1 + a.2) && decide (g.2 < a.2)
  let clean (g : Nat × Nat) : Bool := (List.range g.2).all (fun i => !failed.toNat.testBit (g.1 + i))
  (([3, 4, 5, 6, 7, 8] : List Nat).find? (fun k => inside (activeLanes k) && clean (activeLanes k))).getD 0

/-- Change one direction of a port. -/
def State.onDir (s : State) (port : Nat) (rx : Bool) (f : PortDir → PortDir) : State :=
  s.onPort port (fun p => if rx then { p with rx := f p.rx } else { p with tx := f p.tx })

/-- Whether a port carries packets and is counted live: neither direction is DOWN (R96, Table 2.6). -/
def PortSt.live (q : PortSt) : Bool := decide (q.tx.state ≠ 0) && decide (q.rx.state ≠ 0)

/-- The live chip-to-chip ports of this package with their far packages and ports (R42). -/
def State.links (s : State) : List (Nat × BitVec 12 × Nat) :=
  s.fab.ports.filterMap (fun e => if e.1 < 32 && e.2.live then e.2.far.map (fun f => (e.1, f)) else none)

/-- The list of live ports and their far ends that a package floods (R42). -/
def State.flood (s : State) : State := s.send (.portList s.pkgid s.links)

/-- A port direction goes DOWN, which is a lasting fault at once (R50, R52, R84). -/
def State.portDown (s : State) (port : Nat) (rx : Bool) : State :=
  ((s.onDir port rx (fun d => { d with state := 0, target := 0 })).tellFault (.portDir port rx) .portDown).flood

/-- A receiver declares a lane failed: LANE_FAIL is sent and both ends train towards the target state, or the direction goes DOWN where no
healthy group remains; a lane outside of the active ones is only marked (R52). -/
def State.laneFailed (s : State) (port lane : Nat) : State :=
  let d := (s.port port).rx
  let failed : BitVec 16 := d.failed ||| BitVec.ofNat 16 (2 ^ lane)
  let a := activeLanes d.state
  let s1 := (s.onDir port true (fun x => { x with failed := failed })).tellFault (.lane port true lane) .lane
  if a.1 ≤ lane ∧ lane < a.1 + a.2 then
    let target := degradeTarget d.state failed
    let s2 := s1.send (.control port 2 (failed.toNat * 16 + target))
    if target = 0 then s2.portDown port true else (s2.onDir port true (fun x => { x with state := 1, target := target })).flood
  else s1

/-- The row of a bank is remapped: its bytes are copied to the next reserve row, and the repair record of the base die has it; with no reserve
row free that is counted as a stack event, and the stack is lost (R87, R97). -/
def State.remapRow (s : State) (h b r : Nat) : State :=
  if (s.stack h).remaps.length < 4096 then
    (s.onStack h (fun t => { t with remaps := enq t.remaps (b, r) })).tellFault (.hbmRow h b r) .rowRemap
  else (((s.tellFault (.stack h) .rowRemap).countEvent (.stack h) .rowRemap).1).propose (.stack h) false (s.rcv.sps.headD 0)

/-- What a lasting fault of a unit leads to (Table 4.1): the vote on a retirement for cores, dies and stacks, a row remap, a lane degrade, a
port loss; a supervisor core is a shared unit of its die, which is what retires. -/
def State.lasting (s : State) (u : FUnit) (silent : Bool) : State :=
  match u with
  | .hbmRow h b r => s.remapRow h b r
  | .lane p rx l => if rx then s.laneFailed p l else s
  | .portDir p rx => s.portDown p rx
  | .supCore d _ => s.propose (.dieShared d) silent (s.rcv.sps.headD 0)
  | v => s.propose v silent (s.rcv.sps.headD 0)

/-- A fault event: its record, the counts, and what a lasting fault leads to; a unit that does not answer, or has gone silent, is silent (R82
to R84, Table 4.1). -/
def State.faultEvent (s : State) (u : FUnit) (k : FKind) : State :=
  let r := (s.tellFault u k).countEvent u k
  if r.2 then r.1.lasting u (k == .noResponse || k == .silent) else r.1

/-- The standby controller takes over the host port; every tenant is told (R117). -/
def State.failover (s : State) : State :=
  if s.host.controller = 1 then s else ({ s with host := { s.host with controller := 1 } } : State).postAll 0x0011#16 0#64

/-! ## The routine table (R74, R75, Table 3.3) -/

/-- The 256 bytes of a routine-table entry: header, instructions, zeros (R74, Table 3.3). -/
def routineBytes (r : Routine) : List Byte :=
  let b := bytesLE 8 ((if r.valid then 2 ^ 63 else 0) + (if r.wb then 2 ^ 8 else 0) + r.count.toNat)
    ++ (r.words.take 62).flatMap (fun w => bytesLE 4 w.toNat)
  b ++ List.replicate (256 - b.length) 0#8

/-- The entry that 256 bytes hold; reserved header bits are ignored (R7, Table 3.3). -/
def routineOf (b : List Byte) : Routine :=
  let h := ofBytes (b.take 8)
  { valid := h.testBit 63, wb := h.testBit 8, count := BitVec.ofNat 6 h,
    words := (((List.range 62).map (fun i => (BitVec.ofNat 32 (ofBytes ((b.drop (8 + 4 * i)).take 4)) : IWord))).reverse.dropWhile (· == 0#32)).reverse }

/-- A word that a routine may hold: an instruction of majors 0x00, 0x01, 0x02 and 0x04 to 0x0D other than ADDPC, or an IMMX, in a valid
encoding (R75). -/
def routineLegal (w : IWord) : Bool :=
  let fn := w.toNat % 1024
  match w.toNat / 2 ^ 25 with
  | 0x00 => (1 ≤ fn && fn ≤ 17) || (18 ≤ fn && fn ≤ 24 && fld w 10 5 == 0#5)
  | 0x01 => 1 ≤ fn && fn ≤ 6
  | 0x02 => (1 ≤ fn && fn ≤ 8) || (517 ≤ fn && fn ≤ 520)
  | 0x04 | 0x05 | 0x06 | 0x07 | 0x08 | 0x09 | 0x0D => true
  | 0x0A => fld w 6 6 == 0#6 && (fld w 12 3).toNat ≤ 3
  | 0x0B => fld w 15 5 == 0#5
  | 0x7F => fld w 22 3 == 0#3
  | _ => false

/-- Whether a routine's words form valid chains: an IMMX is followed by no second IMMX and by an instruction that accepts it. -/
def chainsOk : Option Hint → List IWord → Bool
  | _, [] => true
  | h, w :: t =>
    if w.toNat / 2 ^ 25 = 0x7F then h.isNone && chainsOk (some ⟨0#3, 0#22, 0#64⟩) t
    else (match h with | some x => acceptsHint w x | none => true) && chainsOk none t

/-- The check of an entry when it is written with V = 1 (R75): COUNT 1 to 32, every word allowed and valid. -/
def routineOk (r : Routine) : Bool :=
  let ws := (List.range r.count.toNat).map (r.words.getD · 0#32)
  decide (1 ≤ r.count.toNat) && decide (r.count.toNat ≤ 32) && ws.all routineLegal && chainsOk none ws

/-- A routine-table entry is written; one that the base die refuses leaves the entry with V = 0 (R75). -/
def StackSt.writeRoutine (t : StackSt) (index : Nat) (r : Routine) : StackSt :=
  if r.valid && !routineOk r then
    { t with routines := SMap.alter {} t.routines index (fun x => { x with valid := false }) }
  else { t with routines := SMap.put {} t.routines index r }

/-! ## Control registers -/

/-- Asnor refuses a STKMAP value with REM = 1 or another package (R40). -/
def State.badStkmap (s : State) (v : BitVec 32) : Bool :=
  v.toNat.testBit 30 || (v.toNat.testBit 31 && decide (v.toNat / 2 ^ 12 % 2 ^ 12 ≠ s.pkgid.toNat))

/-- Advance MAPGEN by 1 in every router (R44). -/
def State.bumpMapgen (s : State) : State := s.setRouters 0xC0 (s.router 0 0xC0 + 1#32)

/-- TXSTAT or RXSTAT of a port direction (Table 2.7). -/
def PortDir.stat (d : PortDir) : BitVec 32 := BitVec.ofNat 32 (d.state * 2 ^ 28 + d.failed.toNat * 2 ^ 12)

/-- A base-die register (Table 3.4), or a word of the routine table (R74, R81). -/
def StackSt.reg (t : StackSt) (off : Nat) : BitVec 32 :=
  if 0x40000 ≤ off && off < 0x80000 then
    BitVec.ofNat 32 (ofBytes (((routineBytes (SMap.look {} t.routines ((off - 0x40000) / 256))).drop (off % 256 / 4 * 4)).take 4))
  else match off with
  | 0x000 => BitVec.ofNat 32 ((if t.portA then 2 ^ 31 else 0) + (if t.portB then 2 ^ 30 else 0) + (if t.spare then 2 ^ 29 else 0))
  | 0x008 => BitVec.ofNat 32 t.thresh
  | 0x00C => BitVec.ofNat 32 t.ratcnt
  | 0x010 => BitVec.ofNat 32 ((if t.oc.isEmpty then 2 else 0) + (if t.ocEn then 1 else 0))
  | 0x018 => BitVec.ofNat 32 t.cecnt
  | 0x01C => BitVec.ofNat 32 t.uecnt
  | _ => 0#32

/-- Which control register an address names: a router's, a stack's, a port's, or none. -/
inductive CtlReg where
  | router (k off : Nat)
  | stack (h off : Nat)
  | port (j off : Nat)
  | none
deriving DecidableEq, Repr, Inhabited

/-- The control register at an address (R39, R53, R81). -/
def ctlReg (a : Nat) : CtlReg :=
  if 0x00FFE00000000000 ≤ a && a < 0x00FFE00000000000 + 20 * 0x100000 then
    .router ((a - 0x00FFE00000000000) / 0x100000) ((a - 0x00FFE00000000000) % 0x100000)
  else if 0x00FFE80000000000 ≤ a && a < 0x00FFE80000000000 + 34 * 0x100000 then
    .stack ((a - 0x00FFE80000000000) / 0x100000) ((a - 0x00FFE80000000000) % 0x100000)
  else if 0x00FFF00000010000 ≤ a && a < 0x00FFF00000010000 + 0x1000 then
    .port ((a - 0x00FFF00000010000) / 0x100) ((a - 0x00FFF00000010000) % 0x100)
  else if 0x00FFF10000010000 ≤ a && a < 0x00FFF10000010000 + 0x1000 then
    .port (16 + (a - 0x00FFF10000010000) / 0x100) ((a - 0x00FFF10000010000) % 0x100)
  else .none

/-- The value of a control register. -/
def State.ctlRead (s : State) (a : Nat) : BitVec 32 :=
  match ctlReg a with
  | .router k off => s.router k off
  | .stack h off => (s.stack h).reg off
  | .port j off =>
    let p := s.port j
    if off = 0 then p.tx.stat else if off = 4 then p.rx.stat
    else if off = 8 then BitVec.ofNat 32 (p.replay * 2 ^ 16 + p.hcrcf) else 0#32
  | .none => 0#32

/-- Bytes of control space: those of the registers they lie in (R5). -/
def State.ctlBytes (s : State) (a n : Nat) : List Byte :=
  (List.range n).map (fun i => BitVec.ofNat 8 ((s.ctlRead ((a + i) / 4 * 4)).toNat / 2 ^ (8 * ((a + i) % 4))))

/-- A supervisor core's write to a register that only the service processors write is dropped and counted against that core (R39, R81). -/
def State.dropWrite (s : State) (die core : Nat) : State := s.faultEvent (s.coreUnit die core) .droppedWrite

/-- The supervisor writes a word of the routine table; a word that sets V = 1 makes the base die check the entry (R74, R75, R81). -/
def State.writeTable (s : State) (h off : Nat) (v : BitVec 32) : State :=
  let i := (off - 0x40000) / 256
  let b := routineBytes (SMap.look {} (s.stack h).routines i)
  let at_ := off % 256 / 4 * 4
  s.onStack h (·.writeRoutine i (routineOf (b.take at_ ++ bytesLE 4 v.toNat ++ b.drop (at_ + 4))))

/-- A write to a control register updates its writable fields; router control blocks, RATCFG and OCCTL take writes of the service processors
only, the routine table those of the supervisor only; Asnor lets no bad STKMAP value through (R7, R39, R40, R53, R81). -/
def State.ctlWrite (s : State) (a : Nat) (v : BitVec 32) (who : Writer) : State :=
  match ctlReg a with
  | .router k off =>
    match who with
    | .serviceProcessor => if 0x40 ≤ off && off < 0xC0 && s.badStkmap v then s else s.setRouter k off v
    | .supervisor d c => s.dropWrite d c
  | .stack h off =>
    if 0x40000 ≤ off && off < 0x80000 then
      match who with
      | .serviceProcessor => s
      | .supervisor _ _ => s.writeTable h off v
    else match off, who with
    | 0x008, .supervisor d c => s.dropWrite d c
    | 0x010, .supervisor d c => s.dropWrite d c
    | 0x008, .serviceProcessor => s.onStack h (fun t => { t with thresh := v.toNat % 2 ^ 16 })
    | 0x010, .serviceProcessor => s.onStack h (fun t => { t with ocEn := v.toNat.testBit 0 })
    | 0x00C, _ => s.onStack h (fun t => { t with ratcnt := v.toNat })
    | 0x018, _ => s.onStack h (fun t => { t with cecnt := v.toNat })
    | 0x01C, _ => s.onStack h (fun t => { t with uecnt := v.toNat })
    | _, _ => s
  | .port j off =>
    if off = 8 then s.onPort j (fun p => { p with replay := v.toNat / 2 ^ 16, hcrcf := v.toNat % 2 ^ 16 }) else s
  | .none => s

/-- A store to control space writes the registers its bytes lie in, the lowest first (R5, R7). -/
def State.ctlStore (s : State) (a : Nat) (b : List Byte) (who : Writer) : State :=
  (List.range ((a + b.length - 1) / 4 - a / 4 + 1)).foldl (fun (t : State) i =>
    let r := (a / 4 + i) * 4
    let old := bytesLE 4 (t.ctlRead r).toNat
    let new := (List.range 4).map (fun k => if a ≤ r + k ∧ r + k < a + b.length then b.getD (r + k - a) 0#8 else old.getD k 0#8)
    t.ctlWrite r (BitVec.ofNat 32 (ofBytes new)) who) s

end Sys2Proof.Machine
end

