-- ==== Sys2Proof/Machine/Issue.lean ====
section
/-! DEFINITION. What issuing an instruction does before and around its own effect: the order of causes of R285, the hint
acceptance of R276, and runahead (R205 to R208). -/

namespace Sys2Proof.Machine

/-! ## Runahead (R205 to R208) -/

/-- The trap record of a finished runahead: the checkpoint is restored, the context TRAPPED with cause TRANSLATION (R207). -/
def State.endRunahead (s : State) (c : CtxId) : State :=
  match (s.ctx c).ahead with
  | none => s
  | some a =>
    (s.onCtx c (fun x => { x with r := a.saved, ahead := none })).takeTrap c 0x04#8 a.va a.write false a.missing a.insn

/-- Contexts of a core in runahead; a core has two checkpoints (R205). -/
def State.aheads (s : State) (d c : Nat) : Nat :=
  (s.allCtx.filter (fun e => decide (e.1.die = d) && decide (e.1.core = c) && e.2.ahead.isSome)).length

/-- The scalar registers a word's instruction reads (R302), for runahead (R206); 32 stands for vl. -/
def srcScalar (w : IWord) : List Nat :=
  let op := w.toNat / 2 ^ 25
  let d := w.toNat / 2 ^ 20 % 32
  let a := w.toNat / 2 ^ 15 % 32
  let b := w.toNat / 2 ^ 10 % 32
  let fn := w.toNat % 512
  if op ≤ 0x02 then [a, b]
  else if 0x04 ≤ op && op ≤ 0x0D then [a]
  else if op = 0x10 then if w.toNat / 512 % 2 = 1 then [a, w.toNat / 8 % 32] else [a, b]
  else if op = 0x11 || op = 0x12 then [d, a, b]
  else if op = 0x16 then [a]
  else if 0x18 ≤ op && op ≤ 0x1D then [d, a]
  else if op = 0x1F then [a]
  else if op = 0x38 then if a = 0 && d = 0 then [32] else [a]
  else if op = 0x42 || op = 0x44 || op = 0x48 then [b, 32]
  else if op = 0x46 then if (1 ≤ fn && fn ≤ 4) || fn = 0x00A then [b, 32] else [32]
  else if op = 0x41 || op = 0x43 || op = 0x45 || op = 0x47 then [32]
  else []

/-- The scalar registers a word's instruction writes, for runahead (R206); 32 stands for vl. -/
def dstScalar (w : IWord) : List Nat :=
  let op := w.toNat / 2 ^ 25
  let d := w.toNat / 2 ^ 20 % 32
  let fn := w.toNat % 512
  if op ≤ 0x12 || op = 0x1E || op = 0x1F then [d]
  else if op = 0x38 || op = 0x39 then [d, 32]
  else if (op = 0x46 && fn = 9) || (op = 0x47 && (fn = 6 || fn = 7)) then [d]
  else []

/-- The vector registers a word's instruction reads at LMUL = 1, the destination's old elements, the mask and the second register
of a pair among them. -/
def srcVector (w : IWord) : List Nat :=
  let op := w.toNat / 2 ^ 25
  let d := w.toNat / 2 ^ 20 % 32
  let a := w.toNat / 2 ^ 15 % 32
  if 0x41 ≤ op && op ≤ 0x48 then
    [d, a, 0] ++ (if op = 0x42 || op = 0x44 || op = 0x48 then [] else [w.toNat / 2 ^ 10 % 32])
      ++ (if (op = 0x41 || op = 0x42) && w.toNat % 32 = 0x1B then [a + 1] else [])
      ++ (if (op = 0x41 || op = 0x42) && (w.toNat % 32 = 0x1C || w.toNat % 32 = 0x1D) then [d + 1] else [])
  else []

/-- The vector registers a word's instruction writes at LMUL = 1. -/
def dstVector (w : IWord) : List Nat :=
  let op := w.toNat / 2 ^ 25
  let d := w.toNat / 2 ^ 20 % 32
  let fn := w.toNat % 512
  if 0x41 ≤ op && op ≤ 0x48 then
    if (op = 0x46 && fn = 9) || (op = 0x47 && (fn = 6 || fn = 7)) then []
    else if (op = 0x41 || op = 0x42) && (w.toNat % 32 = 0x1C || w.toNat % 32 = 0x1D) then [d, d + 1] else [d]
  else []

/-- Whether runahead follows the instruction: arithmetic, branches, LOOP, vector configuration and hint words
(Table 7.9). -/
def aheadRuns (w : IWord) : Bool :=
  let op := w.toNat / 2 ^ 25
  decide (op ≤ 0x1F) || op = 0x38 || op = 0x39 || (decide (0x41 ≤ op) && decide (op ≤ 0x48)) || op = 0x7F

/-- Whether a jump or branch, which ends the run when an operand is invalid (Table 7.9). -/
def aheadBranch (w : IWord) : Bool := let op := w.toNat / 2 ^ 25; op = 0x16 || (decide (0x18 ≤ op) && decide (op ≤ 0x1F))

/-- Mark or clear the invalid bits of scalar registers; s0 is never invalid. -/
def markInv (l : List Nat) (ds : List Nat) (bad : Bool) : List Nat :=
  ds.foldl (fun m d => if bad && d != 0 then insNat m d else without m (· == d)) l

/-- Mark or clear the invalid bits of vector registers. -/
def markVec (l : List Nat) (ds : List Nat) (bad : Bool) : List Nat :=
  ds.foldl (fun m d => if bad then insNat m d else without m (· == d)) l

/-- The registers after a load or store in runahead: a vector one starts the next at element 0 (R339). -/
def Regs.aheadPast (r : Regs) (w : IWord) : Regs :=
  let op := w.toNat / 2 ^ 25
  if 0x3A ≤ op && op ≤ 0x40 then { r with vstart := 0#64 }.advance else r.advance

/-- One instruction of arithmetic or control flow in runahead: computed on the checkpoint copy, invalid if an operand is
(R206); anything that would trap or leave the rotation ends the run (Table 7.9). -/
def State.aheadStep (s : State) (a : Runahead) (w : IWord) (body : State → Res) : Res :=
  let bad := (srcScalar w).any (fun n => a.invS.contains n) || (srcVector w).any (fun n => a.invV.contains n)
  if !aheadRuns w || (bad && aheadBranch w) then .next (s.endRunahead s.cur)
  else
    match body { s with cx := { s.cx with ahead := none }, plan := [true] } with
    | .next t =>
      if t.cx.st = .run then
        let a1 := { a with invS := markInv a.invS (dstScalar w) bad, invV := markVec a.invV (dstVector w) bad, count := a.count + 1 }
        let u := { s with cx := { s.cx with r := t.cx.r, ahead := some a1 } }
        .next (if a1.count < 256 then u else u.endRunahead s.cur)
      else .next (s.endRunahead s.cur)
    | _ => .next (s.endRunahead s.cur)

/-- The prefetch that a load in runahead sends: the home reads the sector and the die's caches take it, and the bytes go nowhere (Table 7.9). -/
def State.prefetch (s : State) (x : Access) : State :=
  if isBasin x.loc then s
  else match s.readFar s.cur.die x 1 false s.cx.r.cachePolicy with
    | .val _ t => t
    | _ => s

/-- One address of a load or store in runahead: a page not yet translated becomes a candidate; a translated load sends a prefetch (Table
7.9); none where the access would trap for another cause. -/
def State.aheadAddr (s : State) (a : Runahead) (k : AccKind) (va : Word) : Option (Runahead × State) :=
  let page := va &&& ~~~0xFFF#64
  let cand (miss : Bool) : Runahead :=
    if a.pages.contains page then a
    else { a with pages := enq a.pages page, missing := if miss then enq a.missing page else a.missing }
  match s.tr k va with
  | .ok x =>
    let t (u : State) : State := if k = .rd then u.prefetch x else u
    if x.fill.isSome then some (cand false, t (s.fillTlb s.cur x.fill)) else some (a, t s)
  | .absent => some (cand true, s)
  | _ => none

/-- A load or store in runahead: translated, nothing written, the result invalid; skipped with an invalid address
(Table 7.9). -/
def State.aheadMem (s : State) (w : IWord) (a : Runahead) (k : AccKind) (bases : List Nat) (vbases : List Nat) (ds vds : List Nat)
    (legal : Bool) (addrs : List Word) : Res :=
  if !legal then .next (s.endRunahead s.cur)
  else
    let bad := bases.any (fun n => a.invS.contains n) || vbases.any (fun n => a.invV.contains n)
    let r := if bad then some (a, s) else
      addrs.foldl (fun acc va => match acc with
        | some (x, t) => if x.pages.length < 16 then t.aheadAddr x k va else some (x, t)
        | none => none) (some (a, s))
    match r with
    | none => .next (s.endRunahead s.cur)
    | some (x, t) =>
      let x1 := { x with invS := markInv x.invS ds true, invV := markVec x.invV vds true, count := x.count + 1 }
      let u := { t with cx := { t.cx with r := t.cx.r.aheadPast w, ahead := some x1 } }
      .next (if x1.count < 256 ∧ x1.pages.length < 16 then u else u.endRunahead s.cur)

/-- A scalar or vector load or store takes a TRANSLATION fault: runahead starts, or with both checkpoints in use the context
traps at once with a batch of one page (R205). -/
def State.startRunahead (s : State) (w : IWord) (k : AccKind) (va : Word) (ds vds : List Nat) : Res :=
  let page := va &&& ~~~0xFFF#64
  if s.cur.isSup || 2 ≤ s.aheads s.cur.die s.cur.core then s.trap w 0x04#8 va (k == .wr)
  else
    let r := s.cx.r
    let a : Runahead := { saved := { r with pc := r.chainStart, hints := [] }, invS := markInv [] ds true,
                          invV := markVec [] vds true, pages := [page], missing := [page], count := 0, va := va,
                          write := k == .wr, insn := w, ended := false }
    .next { s with cx := { s.cx with r := r.aheadPast w, ahead := some a } }

/-! ## Issue (R285) -/

/-- Causes 2 and 3 of R285, then runahead, then the instruction's own checks and effect. -/
def State.issue (s : State) (w : IWord) (legal : Bool) (body : State → Res) : Res :=
  match s.cx.ahead with
  | some a => if legal && (badHint w s.cx.r.hints).isNone then s.aheadStep a w body else .next (s.endRunahead s.cur)
  | none =>
    if legal then
      match badHint w s.cx.r.hints with
      | some h => s.trap w 0x02#8 h.addr
      | none => body s
    else s.illegal w

/-- The same for a load or store, with what runahead needs of it: kind, address registers, destinations, addresses. -/
def State.issueMem (s : State) (w : IWord) (legal : Bool) (k : AccKind) (bases vbases ds vds : List Nat)
    (aligned : Bool) (addrs : List Word) (body : State → Res) : Res :=
  match s.cx.ahead with
  | some a =>
    s.aheadMem w a k bases vbases ds vds (legal && (badHint w s.cx.r.hints).isNone && aligned) addrs
  | none =>
    if legal then
      match badHint w s.cx.r.hints with
      | some h => s.trap w 0x02#8 h.addr
      | none => body s
    else s.illegal w

/-- A context leaves the rotation for a page walk (R182, R202). -/
def State.waitWalk (s : State) (va : Word) : State := s.goWait (.walk va)

/-- The address checks of an access from step 2 on (Table 7.6): a fault is taken at once; a TLB miss may keep the context out
until its walk ends (Table 7.1); the aperture and an absent page are the caller's. -/
def State.withAccess (s : State) (w : IWord) (k : AccKind) (va : Word) (onAbsent : State → Res)
    (onAperture : Nat → Nat → Res) (onOk : Access → State → Res) : Res :=
  match s.tr k va with
  | .ok a =>
    if a.fill.isSome then
      if s.planned then .next (s.replan.waitWalk va) else onOk a (s.replan.fillTlb s.cur a.fill)
    else onOk a s
  | .fault c => s.trap w c va (k == .wr)
  | .aperture c o => onAperture c o
  | .absent => if s.planned then .next (s.replan.waitWalk va) else onAbsent s.replan

/-- Whether the counts selected by a W field are zero (R227, Table 8.1). -/
def State.countsZero (s : State) (w : BitVec 2) : Bool :=
  (!w.toNat.testBit 0 || (s.cx.pendD == 0 && s.cx.pendOwn == 0)) && (!w.toNat.testBit 1 || s.cx.pendX == 0)

end Sys2Proof.Machine
end

