-- ==== Sys2Proof/Machine/Operands.lean ====
section
/-! DEFINITION. Every operand form: the addresses of memory operands, scalar loads and stores, the read-modify-write of an
atomic, and the basin word of LDF and STF (R192, R274, R318 to R328). -/

namespace Sys2Proof.Machine

/-! ## Addresses -/

/-- The address of a MEM operand: s[a] plus the offset scaled by the access size (R273, R274, R318). -/
def Regs.memAddr (r : Regs) (a : RegNo) (size : Nat) (off : BitVec 13) : Word := r.get a + wordI (size * r.imm 13 off)

/-- Whether a scalar access crosses a 128-byte sector (R199). -/
def crossesSector (va : Word) (n : Nat) : Bool := decide (128 < va.toNat % 128 + n)

/-- Whether an address is a multiple of n. -/
def alignedTo (va : Word) (n : Nat) : Bool := decide (va.toNat % n = 0)

/-! ## The aperture (R192, Table 7.4) -/

/-- The channel of a context's own bank (R192). -/
def ownChannel (c : CtxId) : Nat := c.turn + if c.reserve then 8 else 0

/-- STATUS word of a channel (Table 13.10). -/
def Channel.status (c : Channel) : Word :=
  BitVec.ofNat 64 (c.state * 2 ^ 60 + c.copies.length * 2 ^ 56 + c.code.toNat * 2 ^ 48 + c.offset % 2 ^ 40)

/-! ## Scalar loads (R318) -/

/-- The value of loaded bytes, sign- or zero-extended (R318). -/
def extend (signed : Bool) (n : Nat) (b : List Byte) : Word :=
  let x : Word := BitVec.ofNat 64 (ofBytes b)
  if signed then sextW x (8 * n) else x

/-- The bytes of a word's low n bytes. -/
def lowBytes (x : Word) (n : Nat) : List Byte := bytesLE n x.toNat

/-- A scalar load of the issuing context (R318): alignment, W field, address checks, the read, poison. -/
def State.load (s : State) (w : IWord) (d a : RegNo) (wf : BitVec 2) (off : BitVec 13) (n : Nat) (signed : Bool) : Res :=
  let va := s.cx.r.memAddr a n off
  s.issueMem w true .rd [a.toNat] [] [d.toNat] [] (!crossesSector va n) [va] (fun s =>
    if !s.countsZero wf then .next (s.waitOn .stores)
    else if crossesSector va n then s.trap w 0x03#8 va
    else s.withAccess w .rd va (fun s => s.startRunahead w .rd va [d.toNat] [])
      (fun c o =>
        if n = 8 && c == ownChannel s.cur && (o == 8 || o == 16) then
          let ch := SMap.look {} s.myCore.channels c
          .next (s.finishSet d (if o == 8 then ch.seq else ch.status))
        else s.trap w 0x05#8 va)
      (fun x s =>
        if isCtl x.loc then .next (s.finishSet d (extend signed n (s.ctlBytes x.loc n)))
        else match s.read x n (wf != 0#2) with
          | .val b t => .next (if isBasin x.loc then t.finishSet d (extend signed n b)
              else t.finishLong (t.cx.r.set d (extend signed n b)))
          | .wait y => .next (s.waitOn y)
          | .poison => s.consume w va
          | .lost => s.lostAccess))

/-! ## Scalar stores (R318, R319) -/

/-- Store bytes of the issuing context at a translated address (R183, R217, R319): basin writes are performed at once, other
stores are posted; none where the store must wait first. -/
def State.storeAt (s : State) (x : Access) (b : List Byte) : Option State :=
  if isBasin x.loc then
    some (((s.noteRace x.loc b.length).applyWrite x.loc b 0 .local).noteHarvest s.cur x.loc)
  else if 32 ≤ s.cx.pendOwn + s.cx.pendD + s.cx.pendX then none
  else if homeDie x.loc != some s.cur.die && s.cx.pendOwn != 0 then none
  else some (s.postStore x b)

/-- A slice with more than 1,024 tags writes back the sector of its oldest tag; that delta is credited to the tag's domain (R391). -/
def State.capTags (s : State) (h slice : Nat) : State :=
  let mine := (s.die h).tags.filter (fun t => t.1 == slice)
  if mine.length ≤ 1024 then s
  else match mine with
    | [] => s
    | t :: _ =>
      let s1 := match s.l2Line h (t.2.1 / 4) with
        | some x => s.l2WriteBack h x (sectorBit t.2.1)
        | none => s
      s1.onDie h (fun d => { d with tags := d.tags.erase t })

/-- Note that a member of a domain, 0 for none, or a copy of it, wrote a stitched page: the sector is tagged, another package is remembered
(R391). -/
def State.noteStitchOf (s : State) (id : BitVec 32) (x : Access) (n : Nat) : State :=
  if !x.win.stitch then s
  else
    match homeDie x.loc with
    | some h =>
      (s.onDie h (fun d =>
        let d1 := { d with tags := without d.tags (fun t => (sectorsOf x.loc n).contains t.2.1) }
        if id = 0#32 then d1
        else { d1 with tags := (sectorsOf x.loc n).foldl (fun l c => enq l (x.slice, c, id)) d1.tags })).capTags h x.slice
    | none => s.onDomain id (fun r => if r.stitched.contains x.win.pkg then r else { r with stitched := enq r.stitched x.win.pkg })

/-- The issuing context wrote a page: a stitched one is noted for its innermost domain (R391). -/
def State.noteStitch (s : State) (x : Access) (n : Nat) : State := s.noteStitchOf (s.cx.r.dom.setWidth 32) x n

/-- The data STD writes to the channel's START word; filled in by the sluice (R383). -/
abbrev StartFn := State → Word → Res

/-- A scalar store of the issuing context (R318, R319). -/
def State.store (s : State) (w : IWord) (d a : RegNo) (wf : BitVec 2) (off : BitVec 13) (n : Nat) (start : StartFn) : Res :=
  let va := s.cx.r.memAddr a n off
  s.issueMem w true .wr [a.toNat] [] [] [] (!crossesSector va n) [va] (fun s =>
    if !s.countsZero wf then .next (s.waitOn .stores)
    else if crossesSector va n then s.trap w 0x03#8 va true
    else s.withAccess w .wr va (fun s => s.startRunahead w .wr va [] [])
      (fun c o => if n = 8 && c == ownChannel s.cur && o == 0 then start s (s.rd d) else s.trap w 0x05#8 va true)
      (fun x s =>
        if isCtl x.loc then
          .next ((s.ctlStore x.loc (lowBytes (s.rd d) n) (.supervisor s.cur.die s.cur.core)).finish s.cx.r)
        else if unmappedPa x.loc then s.lostAccess
        else if x.marked then s.consume w va
        else if s.held x.loc n then s.trap w 0x09#8 va true
        else match s.storeAt x (lowBytes (s.rd d) n) with
          | some t => .next ((t.noteStitch x n).finish s.cx.r)
          | none => .next (s.waitOn .stores)))

/-! ## LDF, STF and the full/empty instructions (R321, R324) -/

/-- The checks of an access to an aligned word of the issuing core's basin (R321, R324, Table 7.6). -/
def State.basinWord (s : State) (w : IWord) (va : Word) (write : Bool) (k : Nat → Res) : Res :=
  if !alignedTo va 8 then s.trap w 0x03#8 va write
  else match s.tr (if write then .wr else .rd) va with
    | .ok x => if isBasin x.loc then k x.loc else s.trap w 0x05#8 va write
    | _ => s.trap w 0x05#8 va write

/-- Set a basin word's full/empty bit and wake the contexts that wait on it (R186, R321). -/
def State.fullEmpty (s : State) (loc : Nat) (b : Bool) : State :=
  (s.setFull (loc / 8) b).wakeWhy (.basinWord (loc / 8))

/-! ## Atomics (R234, R325 to R327) -/

/-- Overlapping strong accesses of different sizes that no rule orders (R236): the earlier one came from another die and
neither is at the home die with the other, and the accessor's V does not cover it; nothing orders those of another package, whose source
number is 16 + its id. -/
def State.unordered (s : State) (h src loc n : Nat) : Bool :=
  (wordsOf loc n).any (fun w =>
    match SMap.look none (s.die h).strong w with
    | some e => decide (e.size ≠ n) && overlaps loc n e.loc e.size && decide (e.src ≠ src)
        && (match e.num with
            | some m => !serialGe (vecAt (s.die src).v e.src) m
            | none => decide (src ≠ h) || decide (16 ≤ e.src))
    | none => false)

/-- Record a strong access at its home (R236). -/
def State.noteStrong (s : State) (h src loc n : Nat) (num : Option (BitVec 32)) : State :=
  s.onDie h (fun d => { d with strong := (wordsOf loc n).foldl (fun m w => SMap.put none m w (some ⟨loc, n, src, num⟩)) d.strong })

/-- Where an atomic of the issuing context stands: it may be performed, or waits. -/
inductive AtomState where
  /-- Performed: old value and state. -/
  | done (old : Nat) (s : State)
  /-- Waits. -/
  | wait (w : Why)
  /-- Poison (R91, R327). -/
  | poison
  /-- OVERLAP_STRONG in debug mode (R236). -/
  | strong
  /-- No memory answers (R51). -/
  | lost

/-- Whether the issuing context's tenant runs in debug mode (R123). -/
def State.debugMode (s : State) : Bool := ((s.tenant s.cx.tn).map (·.debug)).getD false

/-- An atomic performed at its home in one step (R234): the own die's slice, another die's as a causal write, another
package's, or the basin word. -/
def State.atomic (s : State) (x : Access) (n : Nat) (f : Nat → Option Nat) : AtomState :=
  let pol := s.cx.r.cachePolicy
  let put (t : State) (from_ : WriteFrom) (v : Option Nat) : State := match v with
    | some v => t.applyWrite x.loc (bytesLE n v) x.slice from_ pol
    | none => t
  let old := s.natAtLoc x.loc n
  if isBasin x.loc then
    if s.poisoned x.loc n then .poison
    else .done old ((put (s.noteRace x.loc n) .local (f old)).noteHarvest s.cur x.loc)
  else if s.cx.pendOwn ≠ 0 || s.ownBehind x.loc n then .wait .stores
  else if s.locked x.loc n then .wait .migration
  else if unmappedPa x.loc then .lost
  else
    let src := s.cur.die
    match homeDie x.loc with
    | none =>
      if s.routeHeld x.loc then .wait (.route (x.loc / 512))
      else if x.marked || s.sectorPoisoned x.loc n then .poison
      else .done old (put s .local (f old))
    | some h =>
      match (if h ≠ src ∧ s.routeHeld x.loc = true then some (Why.route (x.loc / 512)) else s.homeWait h x.slice x.loc n) with
      | some w => .wait w
      | none =>
        if x.marked || s.sectorPoisoned x.loc n then .poison
        else if s.unordered h src x.loc n && s.debugMode then .strong
        else
          let mix := s.unordered h src x.loc n
          let v := s.free
          let was := if mix then v.1.toNat % 2 ^ (8 * n) else old
          let new := if mix then some v.1.toNat else f old
          let s0 := if mix then v.2 else s
          if h = src then .done was ((put (s0.ownRead h x.slice x.loc n pol) .local new).noteStrong h src x.loc n none)
          else if !s.causalMay h src x.slice x.loc n (s.die src).v then .wait .causal
          else
            let b := (s0.dropRdc src x.loc n).bump src
            let d := s.die h
            let rsp := d.liveYoung.foldl (fun v y => if (sectorsOf x.loc n).contains y.sector then raiseVec v y.src y.num else v) d.k
            let t := put ((b.2.retireYoung h).sliceRead h x.slice x.loc n pol) (.die src b.1) new
            .done was (((t.noteStrong h src x.loc n (some b.1)).acked src b.1).mergeV src rsp)

/-- An atomic instruction (R326, R327): checks, W field, the operation at the home, the result placed by `ext`. -/
def State.atom (s : State) (w : IWord) (d a : RegNo) (wf : BitVec 2) (n : Nat) (f : Nat → Option Nat) (ext : Nat → Word) : Res :=
  let va := s.rd a
  s.issue w true (fun s =>
    if !s.countsZero wf then .next (s.waitOn .stores)
    else if !alignedTo va n then s.trap w 0x03#8 va true
    else s.withAccess w .wr va (fun s => s.trap w 0x04#8 va true) (fun _ _ => s.trap w 0x05#8 va true)
      (fun x s =>
        if x.win.ship || isCtl x.loc then s.trap w 0x05#8 va true
        else if s.held x.loc n then s.trap w 0x09#8 va true
        else match s.atomic x n f with
          | .done old t =>
            let r := t.cx.r.set d (ext old)
            .next (if isBasin x.loc then (t.noteStitch x n).finish r else (t.noteStitch x n).finishLong r)
          | .wait y => .next (s.waitOn y)
          | .poison => s.consume w va
          | .strong => s.trap w 0x0B#8 va true
          | .lost => s.lostAccess))

/-- Ext of R326: a 4-byte result sign-extended, an 8-byte one as it stands. -/
def extS (n : Nat) (x : Nat) : Word := if n = 4 then sextW (BitVec.ofNat 64 x) 32 else BitVec.ofNat 64 x

/-- Ext for AMINU and AMAXU and for the FP operations: zero-extended. -/
def extU (x : Nat) : Word := BitVec.ofNat 64 x

/-- The size in bytes of the size bit (R325). -/
def atomSize (z : BitVec 1) : Nat := if z = 1#1 then 8 else 4

end Sys2Proof.Machine
end

