-- ==== Sys2Proof/Machine/Alu.lean ====
section
/-! DEFINITION. Integer register-register instructions: majors 0x00, 0x01 and 0x02 (R305 to R308, Table 11.1). -/

namespace Sys2Proof.Machine

/-- An integer instruction that completes within its rotation and writes one scalar register (R303). -/
def State.alu (s : State) (w : IWord) (d : RegNo) (v : State → Word) : Res :=
  s.issue w true (fun s => .next (s.finishSet d (v s)))

/-- An integer instruction that leaves the rotation: the DIV class (R307, Table 7.1). -/
def State.aluLong (s : State) (w : IWord) (d : RegNo) (v : State → Word) : Res :=
  s.issue w true (fun s => .next (s.finishLong (s.cx.r.set d (v s))))

/-- The low 32 bits of a scalar register. -/
def State.rdW (s : State) (n : RegNo) : BitVec 32 := (s.rd n).setWidth 32

/-- A 32-bit result, sign-extended (Table 11.1). -/
def sxW (x : BitVec 32) : Word := x.signExtend 64

/-- An exact integer as an INT64 result, wrapped or with SAT clamped (R308). -/
def State.res64 (s : State) (x : Int) : Word := intRes s.cx.r.sat 64 x

/-- An exact integer as a sign-extended INT32 result, wrapped or with SAT clamped (R308). -/
def State.res32 (s : State) (x : Int) : Word := sxW (intRes s.cx.r.sat 32 x)


/-- ADD: s[d] := A + B (R306, Table 11.1). -/
def execAdd (d a b : RegNo) (s : State) : Res :=
  s.alu (Enc.add d a b) d (fun s => s.res64 ((s.rd a).toInt + (s.rd b).toInt))

/-- SUB: s[d] := A - B (R306, Table 11.1). -/
def execSub (d a b : RegNo) (s : State) : Res :=
  s.alu (Enc.sub d a b) d (fun s => s.res64 ((s.rd a).toInt - (s.rd b).toInt))

/-- AND: s[d] := A AND B (R306, Table 11.1). -/
def execAnd (d a b : RegNo) (s : State) : Res :=
  s.alu (Enc.and d a b) d (fun s => s.rd a &&& s.rd b)

/-- OR: s[d] := A OR B (R306, Table 11.1). -/
def execOr (d a b : RegNo) (s : State) : Res :=
  s.alu (Enc.or d a b) d (fun s => s.rd a ||| s.rd b)

/-- XOR: s[d] := A XOR B (R306, Table 11.1). -/
def execXor (d a b : RegNo) (s : State) : Res :=
  s.alu (Enc.xor d a b) d (fun s => s.rd a ^^^ s.rd b)

/-- ANDN: s[d] := A AND NOT B (R306, Table 11.1). -/
def execAndn (d a b : RegNo) (s : State) : Res :=
  s.alu (Enc.andn d a b) d (fun s => s.rd a &&& ~~~(s.rd b))

/-- SLL: s[d] := A shifted left by B[5:0] (R306, Table 11.1). -/
def execSll (d a b : RegNo) (s : State) : Res :=
  s.alu (Enc.sll d a b) d (fun s => (s.rd a) <<< ((s.rd b).toNat % 64))

/-- SRL: s[d] := A shifted right by B[5:0], zeros in (R306, Table 11.1). -/
def execSrl (d a b : RegNo) (s : State) : Res :=
  s.alu (Enc.srl d a b) d (fun s => (s.rd a) >>> ((s.rd b).toNat % 64))

/-- SRA: s[d] := A shifted right by B[5:0], copies of A[63] in (R306, Table 11.1). -/
def execSra (d a b : RegNo) (s : State) : Res :=
  s.alu (Enc.sra d a b) d (fun s => (s.rd a).sshiftRight ((s.rd b).toNat % 64))

/-- ROL: s[d] := A rotated left by B[5:0] (R306, Table 11.1). -/
def execRol (d a b : RegNo) (s : State) : Res :=
  s.alu (Enc.rol d a b) d (fun s => (s.rd a).rotateLeft ((s.rd b).toNat % 64))

/-- ROR: s[d] := A rotated right by B[5:0] (R306, Table 11.1). -/
def execRor (d a b : RegNo) (s : State) : Res :=
  s.alu (Enc.ror d a b) d (fun s => (s.rd a).rotateRight ((s.rd b).toNat % 64))

/-- SLT: s[d] := 1 if A < B signed (R306, Table 11.1). -/
def execSlt (d a b : RegNo) (s : State) : Res :=
  s.alu (Enc.slt d a b) d (fun s => boolWord ((s.rd a).slt (s.rd b)))

/-- SLTU: s[d] := 1 if A < B unsigned (R306, Table 11.1). -/
def execSltu (d a b : RegNo) (s : State) : Res :=
  s.alu (Enc.sltu d a b) d (fun s => boolWord ((s.rd a).ult (s.rd b)))

/-- MIN: s[d] := the smaller, signed (R306, Table 11.1). -/
def execMin (d a b : RegNo) (s : State) : Res :=
  s.alu (Enc.min d a b) d (fun s => if (s.rd a).slt (s.rd b) then s.rd a else s.rd b)

/-- MAX: s[d] := the larger, signed (R306, Table 11.1). -/
def execMax (d a b : RegNo) (s : State) : Res :=
  s.alu (Enc.max d a b) d (fun s => if (s.rd a).slt (s.rd b) then s.rd b else s.rd a)

/-- MINU: s[d] := the smaller, unsigned (R306, Table 11.1). -/
def execMinu (d a b : RegNo) (s : State) : Res :=
  s.alu (Enc.minu d a b) d (fun s => if (s.rd a).ult (s.rd b) then s.rd a else s.rd b)

/-- MAXU: s[d] := the larger, unsigned (R306, Table 11.1). -/
def execMaxu (d a b : RegNo) (s : State) : Res :=
  s.alu (Enc.maxu d a b) d (fun s => if (s.rd a).ult (s.rd b) then s.rd b else s.rd a)

/-- CLZ: s[d] := leading zero bits (R306, Table 11.1). -/
def execClz (d a : RegNo) (s : State) : Res :=
  s.alu (Enc.clz d a) d (fun s => BitVec.ofNat 64 (clzN 64 (s.rd a).toNat))

/-- CTZ: s[d] := trailing zero bits (R306, Table 11.1). -/
def execCtz (d a : RegNo) (s : State) : Res :=
  s.alu (Enc.ctz d a) d (fun s => BitVec.ofNat 64 (ctzN 64 (s.rd a).toNat))

/-- POPC: s[d] := set bits (R306, Table 11.1). -/
def execPopc (d a : RegNo) (s : State) : Res :=
  s.alu (Enc.popc d a) d (fun s => BitVec.ofNat 64 (popN (s.rd a).toNat 64))

/-- SEXTB: s[d] := sext(A, 8) (R306, Table 11.1). -/
def execSextb (d a : RegNo) (s : State) : Res :=
  s.alu (Enc.sextb d a) d (fun s => sextW (s.rd a) 8)

/-- SEXTH: s[d] := sext(A, 16) (R306, Table 11.1). -/
def execSexth (d a : RegNo) (s : State) : Res :=
  s.alu (Enc.sexth d a) d (fun s => sextW (s.rd a) 16)

/-- SEXTW: s[d] := sext(A, 32) (R306, Table 11.1). -/
def execSextw (d a : RegNo) (s : State) : Res :=
  s.alu (Enc.sextw d a) d (fun s => sextW (s.rd a) 32)

/-- ZEXTW: s[d] := zext(A, 32) (R306, Table 11.1). -/
def execZextw (d a : RegNo) (s : State) : Res :=
  s.alu (Enc.zextw d a) d (fun s => zextW (s.rd a) 32)

/-- ADDW: s[d] := sext((A + B)[31:0], 32) (R306, Table 11.1). -/
def execAddw (d a b : RegNo) (s : State) : Res :=
  s.alu (Enc.addw d a b) d (fun s => s.res32 ((s.rdW a).toInt + (s.rdW b).toInt))

/-- SUBW: s[d] := sext((A - B)[31:0], 32) (R306, Table 11.1). -/
def execSubw (d a b : RegNo) (s : State) : Res :=
  s.alu (Enc.subw d a b) d (fun s => s.res32 ((s.rdW a).toInt - (s.rdW b).toInt))

/-- SLLW: s[d] := the low word shifted left by B[4:0] (R306, Table 11.1). -/
def execSllw (d a b : RegNo) (s : State) : Res :=
  s.alu (Enc.sllw d a b) d (fun s => sxW ((s.rdW a) <<< ((s.rd b).toNat % 32)))

/-- SRLW: s[d] := the low word shifted right, zeros in (R306, Table 11.1). -/
def execSrlw (d a b : RegNo) (s : State) : Res :=
  s.alu (Enc.srlw d a b) d (fun s => sxW ((s.rdW a) >>> ((s.rd b).toNat % 32)))

/-- SRAW: s[d] := the low word shifted right, sign in (R306, Table 11.1). -/
def execSraw (d a b : RegNo) (s : State) : Res :=
  s.alu (Enc.sraw d a b) d (fun s => sxW ((s.rdW a).sshiftRight ((s.rd b).toNat % 32)))

/-- MULW: s[d] := the low word of the product (R306, Table 11.1). -/
def execMulw (d a b : RegNo) (s : State) : Res :=
  s.alu (Enc.mulw d a b) d (fun s => s.res32 ((s.rdW a).toInt * (s.rdW b).toInt))

/-- MUL: s[d] := (A * B)[63:0] (R306, Table 11.1). -/
def execMul (d a b : RegNo) (s : State) : Res :=
  s.alu (Enc.mul d a b) d (fun s => s.res64 ((s.rd a).toInt * (s.rd b).toInt))

/-- MULH: s[d] := bits [127:64], both signed (R306, Table 11.1). -/
def execMulh (d a b : RegNo) (s : State) : Res :=
  s.alu (Enc.mulh d a b) d (fun s => BitVec.ofInt 64 ((s.rd a).toInt * (s.rd b).toInt / 2 ^ 64))

/-- MULHU: s[d] := bits [127:64], both unsigned (R306, Table 11.1). -/
def execMulhu (d a b : RegNo) (s : State) : Res :=
  s.alu (Enc.mulhu d a b) d (fun s => BitVec.ofNat 64 ((s.rd a).toNat * (s.rd b).toNat / 2 ^ 64))

/-- MULHSU: s[d] := bits [127:64], A signed, B unsigned (R306, Table 11.1). -/
def execMulhsu (d a b : RegNo) (s : State) : Res :=
  s.alu (Enc.mulhsu d a b) d (fun s => BitVec.ofInt 64 ((s.rd a).toInt * ((s.rd b).toNat : Int) / 2 ^ 64))

/-- DIV: s[d] := quotient, signed (R242, R306, R307). -/
def execDiv (d a b : RegNo) (s : State) : Res :=
  s.aluLong (Enc.div d a b) d (fun s => divS 64 (s.rd a) (s.rd b))

/-- DIVU: s[d] := quotient, unsigned (R242, R306, R307). -/
def execDivu (d a b : RegNo) (s : State) : Res :=
  s.aluLong (Enc.divu d a b) d (fun s => divU 64 (s.rd a) (s.rd b))

/-- REM: s[d] := remainder of DIV (R242, R306, R307). -/
def execRem (d a b : RegNo) (s : State) : Res :=
  s.aluLong (Enc.rem d a b) d (fun s => remS 64 (s.rd a) (s.rd b))

/-- REMU: s[d] := remainder of DIVU (R242, R306, R307). -/
def execRemu (d a b : RegNo) (s : State) : Res :=
  s.aluLong (Enc.remu d a b) d (fun s => remU 64 (s.rd a) (s.rd b))

/-- DIVW: s[d] := sext of the 32-bit quotient, signed (R242, R306, R307). -/
def execDivw (d a b : RegNo) (s : State) : Res :=
  s.aluLong (Enc.divw d a b) d (fun s => sxW (divS 32 (s.rdW a) (s.rdW b)))

/-- DIVUW: s[d] := sext of the 32-bit quotient, unsigned (R242, R306, R307). -/
def execDivuw (d a b : RegNo) (s : State) : Res :=
  s.aluLong (Enc.divuw d a b) d (fun s => sxW (divU 32 (s.rdW a) (s.rdW b)))

/-- REMW: s[d] := sext of the 32-bit remainder, signed (R242, R306, R307). -/
def execRemw (d a b : RegNo) (s : State) : Res :=
  s.aluLong (Enc.remw d a b) d (fun s => sxW (remS 32 (s.rdW a) (s.rdW b)))

/-- REMUW: s[d] := sext of the 32-bit remainder, unsigned (R242, R306, R307). -/
def execRemuw (d a b : RegNo) (s : State) : Res :=
  s.aluLong (Enc.remuw d a b) d (fun s => sxW (remU 32 (s.rdW a) (s.rdW b)))

end Sys2Proof.Machine
end

