-- ==== Sys2Proof/Machine/Pages.lean ====
section
/-! DEFINITION. What the supervisor does to TLBs, caches and windows: TLB invalidation, write-back and drop of lines, and the removal of a
tenant's windows (R130, R202, R210, R430). -/

namespace Sys2Proof.Machine

/-- Drop TLB entries of every core and of the shared TLB, of the named dies, that meet a test (R202, R333). -/
def State.tlbDrop (s : State) (onDie : Nat → Bool) (p : TlbEntry → Bool) : State :=
  { s with cores := s.cores.map (fun e => if onDie (e.1 / 66) then (e.1, { e.2 with tlb := without e.2.tlb p }) else e),
           dies := s.dies.map (fun e => if onDie e.1 then (e.1, { e.2 with tlb := without e.2.tlb p }) else e) }

/-- TLBINV for one page of a tenant on every die (R210, R211). -/
def State.tlbPage (s : State) (tn va : Nat) : State :=
  s.tlbDrop (fun _ => true) (fun e => e.tenant == tn && decide (e.va ≤ va) && decide (va < e.va + 2 ^ e.bits))

/-- Write back and drop the lines of a range of this package, overflow copies included, as CINV does (R70, R324, R430). -/
def State.dropLines (s : State) (loc n : Nat) : State := (List.range 16).foldl (fun t d => t.l2Clean d loc n true) s

/-- Input counters of a tenant in a range of addresses are mapped no more: their launches keep their pool entries and nothing fires them
(R130). -/
def State.loseInputs (s : State) (tn : Nat) (inside : Nat → Bool) : State :=
  s.launches.foldl (fun t e => match e.2 with
    | some l =>
      if l.tenant ≠ tn || l.phase ≠ 0 then t
      else (l.inputs.filter (fun i => inside i.2.toNat)).foldl (fun (u : State) i =>
        let dead := deadCounter ((homeDie i.1).getD 0)
        ((u.onCounter i.1 (fun c => { c with launches := c.launches.erase e.1 })).onCounter dead (fun c =>
          { c with launches := enq c.launches e.1 })).onLaunch e.1 (fun y =>
            { y with inputs := y.inputs.map (fun x => if x = i then (dead, x.2) else x) })) t
    | none => t) s

/-- Drop a range from every RDC and read-only buffer of the package (R211 step 6). -/
def State.purge (s : State) (loc n : Nat) : State :=
  let hit (c : Nat) : Bool := overlaps loc n (c * 128) 128
  { s with dies := s.dies.map (fun e => (e.1, { e.2 with rdc := without e.2.rdc (fun r => hit r.sector) })),
           cores := s.cores.map (fun e => (e.1, { e.2 with robuf := without e.2.robuf (fun r => hit r.sector) })) }

/-- Remove a window of a tenant: its lines are written back and dropped; each of its page entries is left present without permission, so
that later accesses trap WINDOW_PROTECTION; its translations, its entry, its fetches, evictions and migrations go, and contexts TRAPPED on its
pages issue again (R210, R430). -/
def State.unmapWindow (s : State) (tn w : Nat) : State :=
  match s.tenant tn with
  | none => s
  | some t =>
    let x := SMap.look {} t.windows w
    if !x.valid then s
    else
      let n := x.pend - x.pbase
      let at_ : Nat := if x.pkg = s.pkgid then ownLoc (x.pbase * 4096) else pkgLoc x.pkg (x.pbase * 4096)
      let inside (va : Nat) : Bool := decide (x.va.toNat ≤ va) && decide (va < x.va.toNat + x.length)
      let s1 := ((s.loseInputs tn inside).dropLines at_ (n * 4096)).purge at_ (n * 4096)
      let s2 := (List.range (x.length / 2 ^ x.bits)).foldl (fun u i => u.mapPage tn (x.va.toNat + i * 2 ^ x.bits) (2 ^ 63 + 2 ^ 62) x.bits) s1
      let s3 := s2.tlbDrop (fun _ => true) (fun e => e.tenant == tn && inside e.va)
      let frames (f : Nat) : Bool := decide (x.pbase ≤ f) && decide (f < x.pend)
      let gone (m : Migration) : Bool := m.tenant == tn && inside m.va.toNat
      let s4 := (({ s3 with migrations := without s3.migrations gone } : State).wakeWhy .migration).onTenant tn (fun y =>
        { y with windows := SMap.put {} y.windows w {}, fetches := without y.fetches (fun f => x.tier == 2 && inside f.va.toNat),
                 evictions := without y.evictions (fun e => x.tier == 2 && frames e.frame), marked := without y.marked inside })
      let hit (r : TrapRec) : Bool := r.tenant == tn && (inside r.tval.toNat || r.pages.any (fun p => inside p.toNat))
      let open_ (r : TrapRec) : Bool := x.tier == 2 && r.cause == 0x04#8 && hit r
      (s4.fetching.filter hit ++ s4.traps.filter open_).foldl (fun u r => if (u.ctx r.ctx).st = .trapped then u.resume r.ctx else u)
        { s4 with fetching := without s4.fetching hit, traps := without s4.traps open_ }

end Sys2Proof.Machine
end

