-- ==== Sys2Proof/Machine/Sluice.lean ====
section
/-! DEFINITION. The sluice: the START store and its checks, copy templates and transforms, a copy's acceptance, payload, stamp,
completion, suspension and faults, and the scoreboard (R188 to R190, R382 to R389). -/

namespace Sys2Proof.Machine

/-! ## The scoreboard (R188 to R190) -/

/-- The smallest interval aligned to 128 bytes that covers a basin range (R188). -/
def sbRange (off n : Nat) : Nat × Nat := (off / 128 * 128, roundUp (off + n) 128 - off / 128 * 128)

/-- Whether two entries conflict: a write range of one meets a range of the other (R189). -/
def SbEntry.conflicts (a b : SbEntry) : Bool :=
  let meet (x y : Nat × Nat) : Bool := overlaps x.1 x.2 y.1 y.2
  let wr (x y : SbEntry) : Bool := match x.write with
    | none => false
    | some r => y.reads.any (meet r) || (match y.write with | some q => meet r q | none => false)
  wr a b || wr b a

/-- Whether no older live entry conflicts with an entry (R189). -/
def CoreSt.mayStart (k : CoreSt) (id : Nat) : Bool :=
  match k.sboard.find? (fun e => e.id == id) with
  | none => true
  | some e => !((k.sboard.takeWhile (fun x => x.id != id)).any (fun x => x.conflicts e))

/-- Whether a context may take an entry: 32 in all, 16 for harvest contexts (R188, R190). -/
def CoreSt.sbFree (k : CoreSt) (c : CtxId) : Bool :=
  decide (k.sboard.length < 32) && (!c.reserve || decide ((k.sboard.filter (fun e => e.owner.reserve)).length < 16))

/-- Take an entry (R188); its number is the machine's next. -/
def State.takeSb (s : State) (c : CtxId) (reads : List (Nat × Nat)) (write : Option (Nat × Nat)) : State × Nat :=
  let id := s.lastId + 1
  ({ s with lastId := id }.onCore c.die c.core (fun k => { k with sboard := enq k.sboard ⟨id, c, reads, write⟩ }), id)

/-- Free an entry and let the contexts of the core that wait on the scoreboard go on (R190). -/
def State.freeSb (s : State) (d c : Nat) (id : Nat) : State :=
  (s.onCore d c (fun k => { k with sboard := without k.sboard (fun e => e.id == id) })).wakeAll
    (fun x w => x.die == d && x.core == c && (w == .retry .scoreboard || w == .retry .lend))

/-! ## Templates (R384, Table 13.7) -/

/-- A template's fields. -/
structure Tmpl where
  src : Word
  dst : Word
  stamp : Word
  counter : Word
  xform : Nat
  esize : Nat
  e0 : Nat
  e1 : Nat
  e2 : Nat
  s0 : Int
  s1 : Int
  s2 : Int
  d0 : Int
  d1 : Int
  d2 : Int
  /-- Bits [63:53] of word 4. -/
  rsv : Nat
deriving DecidableEq, Repr, Inhabited

/-- The fields of a template image (Table 13.7). -/
def tmplOf (l : List Word) : Tmpl :=
  let w (i : Nat) : Word := l.getD i 0#64
  { src := w 0, dst := w 1, stamp := w 2, counter := w 3, xform := bits (w 4) 52 50, esize := 2 ^ bits (w 4) 49 48,
    e2 := bits (w 4) 47 32, e1 := bits (w 4) 31 16, e0 := bits (w 4) 15 0,
    s1 := signedN (bits (w 5) 63 32) 32, s0 := signedN (bits (w 5) 31 0) 32,
    d0 := signedN (bits (w 6) 63 32) 32, s2 := signedN (bits (w 6) 31 0) 32,
    d2 := signedN (bits (w 7) 63 32) 32, d1 := signedN (bits (w 7) 31 0) 32, rsv := bits (w 4) 63 53 }

/-- Validity of a template (R384, Table 13.8). -/
def Tmpl.valid (t : Tmpl) : Bool :=
  decide (t.e0 ≠ 0) && decide (t.e1 ≠ 0) && decide (t.e2 ≠ 0) && decide (t.xform ≤ 4) && decide (t.rsv = 0)
    && alignedTo t.stamp 8 && alignedTo t.counter 8
    && (match t.xform with
      | 2 => decide (t.esize ≤ 4) && decide (t.e1 % 8 = 0) && decide (t.d0 = 0) && decide (t.d1 = 0)
      | 3 => decide (t.esize ≤ 4) && decide (t.e0 % 8 = 0) && decide (t.d0 = 0) && decide (t.d1 = 0)
      | 4 => decide (t.d0 = t.esize) && decide ((t.e0 * t.esize : Nat) ≤ t.d1) && decide (t.d1 % t.esize = 0)
      | _ => true)

/-- Element alignment: SRC, DST and the strides the transform uses are multiples of the element size (R384). -/
def Tmpl.aligned (t : Tmpl) : Bool :=
  alignedTo t.src t.esize && alignedTo t.dst t.esize
    && [t.s0, t.s1, t.s2, t.d2].all (fun x => decide (x % t.esize = 0))
    && (t.xform = 2 || t.xform = 3 || [t.d0, t.d1].all (fun x => decide (x % t.esize = 0)))

/-- The block width of a reblocked operand (R385). -/
def Tmpl.blockW (t : Tmpl) : Nat := if t.esize = 1 then 16 else 8

/-- Offset of element (r, c) of a blocked operand with Q columns of blocks W wide, elements of n bytes (R367, R368). -/
def blockedOff (w q n r c : Nat) : Nat :=
  let qs := roundUp q w
  ((r / 8) * (qs / w) + c / w) * (8 * w * n) + ((r % 8) * w + c % w) * n

/-- One item of a copy's payload: an element moved, or pad bytes written zero; addresses relative to SRC and DST. -/
inductive Item where
  | move (src dst : Int)
  | pad (dst : Int)
deriving DecidableEq, Repr, Inhabited

/-- The destination offset of element (i0, i1, i2) (Table 13.8). -/
def Tmpl.dstOff (t : Tmpl) (i0 i1 i2 : Nat) : Int :=
  match t.xform with
  | 1 => i1 * t.d0 + i0 * t.d1 + i2 * t.d2
  | 2 => i2 * t.d2 + (blockedOff t.blockW t.e0 t.esize i1 i0 : Nat)
  | 3 => i2 * t.d2 + (blockedOff t.blockW t.e1 t.esize i0 i1 : Nat)
  | 4 => (i0 * t.esize : Nat) + i1 * t.d1 + i2 * t.d2
  | _ => i0 * t.d0 + i1 * t.d1 + i2 * t.d2

/-- Rows and columns of a reblocked operand (Table 13.8). -/
def Tmpl.shape (t : Tmpl) : Nat × Nat := if t.xform = 2 then (t.e1, t.e0) else (t.e0, t.e1)

/-- The pad items that follow row i1 of plane i2, or the whole plane (R385). -/
def Tmpl.padsRow (t : Tmpl) (i1 i2 : Nat) : List Item :=
  if t.xform = 4 then
    (List.range ((t.d1.toNat - t.e0 * t.esize) / t.esize)).map (fun j =>
      .pad ((t.e0 * t.esize + j * t.esize : Nat) + i1 * t.d1 + i2 * t.d2))
  else if (t.xform = 2 || t.xform = 3) && i1 + 1 = t.e1 then
    let rc := t.shape
    (List.range rc.1).flatMap (fun r =>
      (List.range (roundUp rc.2 t.blockW - rc.2)).map (fun j =>
        .pad (i2 * t.d2 + (blockedOff t.blockW rc.2 t.esize r (rc.2 + j) : Nat))))
  else []

/-- The payload of a copy in its order: i2, then i1, then i0, each row's pad after it (R385). -/
def Tmpl.items (t : Tmpl) (rep : Nat) : List Item :=
  (List.range (t.e2 * rep)).flatMap (fun (i2 : Nat) => (List.range t.e1).flatMap (fun (i1 : Nat) =>
    (List.range t.e0).map (fun (i0 : Nat) => Item.move (i0 * t.s0 + i1 * t.s1 + i2 * t.s2) (t.dstOff i0 i1 i2)) ++ t.padsRow i1 i2))

/-- The number of payload items: elements and pads. -/
def Tmpl.count (t : Tmpl) (rep : Nat) : Nat :=
  let rc := t.shape
  let pads := match t.xform with
    | 4 => (t.d1.toNat / t.esize - t.e0) * t.e1
    | 2 => (roundUp rc.2 t.blockW - rc.2) * rc.1
    | 3 => (roundUp rc.2 t.blockW - rc.2) * rc.1
    | _ => 0
  (t.e0 * t.e1 + pads) * (t.e2 * rep)

/-- Bytes of a copy's payload (R385). -/
def Tmpl.size (t : Tmpl) (rep : Nat) : Nat := t.count rep * t.esize

/-- Smallest and largest value of i * x for i below n. -/
def span (n : Nat) (x : Int) : Int × Int := if x < 0 then ((n - 1 : Nat) * x, 0) else (0, (n - 1 : Nat) * x)

/-- The bounding interval of the source, relative to SRC: first byte and length (R383). -/
def Tmpl.srcSpan (t : Tmpl) (rep : Nat) : Int × Nat :=
  let a := span t.e0 t.s0
  let b := span t.e1 t.s1
  let c := span (t.e2 * rep) t.s2
  (a.1 + b.1 + c.1, (a.2 + b.2 + c.2 - (a.1 + b.1 + c.1)).toNat + t.esize)

/-- The bounding interval of the destination, relative to DST (R383). -/
def Tmpl.dstSpan (t : Tmpl) (rep : Nat) : Int × Nat :=
  let c := span (t.e2 * rep) t.d2
  let ab : (Int × Int) := match t.xform with
    | 1 => let a := span t.e0 t.d1; let b := span t.e1 t.d0; (a.1 + b.1, a.2 + b.2 + t.esize)
    | 2 => (0, ((t.e1 * roundUp t.e0 t.blockW * t.esize : Nat) : Int))
    | 3 => (0, ((t.e0 * roundUp t.e1 t.blockW * t.esize : Nat) : Int))
    | 4 => (0, (t.e1 : Int) * t.d1)
    | _ => let a := span t.e0 t.d0; let b := span t.e1 t.d1; (a.1 + b.1, a.2 + b.2 + t.esize)
  (ab.1 + c.1, (ab.2 + c.2 - (ab.1 + c.1)).toNat)

/-- An address moved by a signed offset. -/
def offA (a : Word) (x : Int) : Word := a + BitVec.ofInt 64 x

/-- The first byte of an interval that a context may not reach in its core's basin, if any (R383, R185). -/
def State.basinHole (s : State) (c : CtxId) (tn : Nat) (va : Word) (n : Nat) : Option Word :=
  if !inBasinWin va then some va
  else
    let off := va.toNat - basinBase
    let lo := ((List.range ((off + n - 1) / 4096 - off / 4096 + 1)).map (fun i => off / 4096 + i)).find?
      (fun p => decide (256 ≤ p) || !s.basinPageOk c tn p)
    match lo with
    | none => none
    | some p => some (BitVec.ofNat 64 (basinBase + max off (p * 4096)))

/-! ## START (R192, R382, R383) -/

/-- The address of a channel's START word (R192). -/
def startAddr (chan : Nat) : Word := BitVec.ofNat 64 (apertureBase + 64 * chan)

/-- Change a channel of a core. -/
def State.onChannel (s : State) (d c chan : Nat) (f : Channel → Channel) : State :=
  s.onCore d c (fun k => { k with channels := SMap.alter {} k.channels chan f })

/-- The next START clears STATE 3 and 4 and sets CODE to zero (R388). -/
def Channel.cleared (x : Channel) : Channel :=
  { x with code := 0#8, state := if x.state = 3 ∨ x.state = 4 then 0 else x.state }

/-- A START that fails a check: STATUS.CODE records it and the context traps COPY_FAULT (R383). -/
def State.startFault (s : State) (w : IWord) (chan : Nat) (code : BitVec 8) : Res :=
  (s.onChannel s.cur.die s.cur.core chan (fun x => { x.cleared with code := code })).trap w 0x11#8 (startAddr chan)

/-- The START store of the issuing context (R382, R383): a full queue or scoreboard keeps the context out before the store. -/
def State.startCopy (s : State) (w : IWord) (data : Word) : Res :=
  let chan := ownChannel s.cur
  let ch := SMap.look {} s.myCore.channels chan
  if 4 ≤ ch.copies.length then .next (s.waitOn .channel)
  else if bits data 63 32 ≠ 0 then s.startFault w chan 1#8
  else if 4096 ≤ bits data 15 0 then s.startFault w chan 2#8
  else
    let img := SMap.look [] (((s.tenant s.cx.tn).map (·.templates)).getD []) (bits data 15 0)
    let t := tmplOf img
    let rep := bits data 31 16 + 1
    if !t.valid then s.startFault w chan 3#8
    else if !t.aligned then s.startFault w chan 9#8
    else
      let sp := t.srcSpan rep
      let dp := t.dstSpan rep
      let sIn := inBasinWin t.src
      let dIn := inBasinWin t.dst
      let hole := match (if sIn then s.basinHole s.cur s.cx.tn (offA t.src sp.1) sp.2 else none) with
        | some a => some (a, false)
        | none => (if dIn then s.basinHole s.cur s.cx.tn (offA t.dst dp.1) dp.2 else none).map (fun a => (a, true))
      match hole with
      | some (a, wr) => (s.onChannel s.cur.die s.cur.core chan (·.cleared)).trap w 0x05#8 a wr
      | none =>
        if (sIn || dIn) && !s.myCore.sbFree s.cur then .next (s.waitOn .scoreboard)
        else
          let reads := if sIn then [sbRange ((offA t.src sp.1).toNat - basinBase) sp.2] else []
          let write := if dIn then some (sbRange ((offA t.dst dp.1).toNat - basinBase) dp.2) else none
          let tk := if sIn || dIn then (let r := s.takeSb s.cur reads write; (r.1, some r.2)) else (s, none)
          let c : Copy :=
            { words := img, rep := rep, number := ch.seq + 1#64 + BitVec.ofNat 64 ch.copies.length, owner := s.cur,
              task := s.cx.r.task, launch := (s.cx.bound.map (·.launch)).getD 0, dom := s.cx.r.dom.setWidth 32, tenant := s.cx.tn,
              heap := (s.cx.heapbase, s.cx.heaplim, s.cx.heapoff), running := false, suspended := false, done := 0, charged := 0,
              counterLoc := 0, stampLoc := 0, sb := tk.2, raced := [] }
          .next ((tk.1.onChannel s.cur.die s.cur.core chan (fun x =>
            let y := x.cleared
            { y with copies := enq y.copies c, state := if y.state = 0 then 1 else y.state })).finish s.cx.r)

/-- The word at the issuing context's pc. -/
def State.pcWord (s : State) : IWord :=
  match s.tr .ex s.cx.r.pc with
  | .ok a => BitVec.ofNat 32 (s.natAtLoc a.loc 4)
  | _ => 0#32

/-- START: the issuing context's store of `data` to its channel's START word is performed (R383). -/
def execStart (data : Word) (s : State) : Res :=
  if s.cx.st = .run && s.cx.ahead.isNone then s.startCopy s.pcWord data else .next s

/-! ## Running a copy (R386, R387) -/

/-- The copy at the head of a channel. -/
def State.headCopy (s : State) (d c chan : Nat) : Option Copy := (SMap.look {} (s.core d c).channels chan).copies.head?

/-- Change the copy at the head of a channel. -/
def State.onHead (s : State) (d c chan : Nat) (f : Copy → Copy) : State :=
  s.onChannel d c chan (fun x => { x with copies := match x.copies with | [] => [] | h :: t => f h :: t })

/-- What a check of an address for a copy finds (R386, R387). -/
inductive CopyTr where
  | ok (a : Access)
  | absent
  | code (k : BitVec 8)
deriving DecidableEq, Repr, Inhabited

/-- The checks of Table 7.6 for an address of a copy.  A basin end has been checked at START and is reached with its page
permission; elsewhere step 3 does not apply, so an address in the basin window is refused by step 4 (R386). -/
def State.copyTr (s : State) (c : Copy) (basinEnd : Bool) (k : AccKind) (va : Word) : CopyTr :=
  match s.xlate c.owner c.tenant c.heap k va with
  | .ok a => if isBasin a.loc && !basinEnd then .code 6#8 else .ok a
  | .fault _ => .code 6#8
  | .aperture _ _ => .code 6#8
  | .absent => .absent

/-- A write of an engine of die `d` beyond the basin or within it (R218, R386): none where its home cannot perform it yet. -/
def State.engineWrite (s : State) (d : Nat) (a : Access) (b : List Byte) : Option State :=
  if isBasin a.loc then
    some ((wordsOf a.loc b.length).foldl (fun t w => (t.setFull w true).wakeWhy (.basinWord w)) (s.applyWrite a.loc b 0 .local))
  else
    if s.locked a.loc b.length then none
    else match homeDie a.loc with
    | none => if s.routeHeld a.loc then none else some (s.applyWrite a.loc b a.slice .local)
    | some h =>
      if h = d then
        if (s.homeWait h a.slice a.loc b.length).isSome then none else some (s.applyWrite a.loc b a.slice .local)
      else
        let nb := (s.dropRdc d a.loc b.length).bump d
        let w : NetWrite := { id := s.lastId + 1, owner := none, src := d, home := some h, loc := a.loc, bytes := b, slice := a.slice,
                              num := some nb.1, vec := (nb.2.die d).v, performed := false, refused := false }
        if nb.2.mayPerform w then some ((nb.2.performNet w).acked d nb.1) else none

/-- The bytes an engine reads from the basin: of a word that a context wrote while the command was started, the former or the
present value, a free choice (R232). -/
def State.engineRead (s : State) (raced : List (Nat × Word)) (loc n : Nat) : List Byte × State :=
  if (wordsOf loc n).all (fun w => !raced.any (fun e => e.1 == w)) then (s.bytesAt loc n, s)
  else
    let r := (wordsOf loc n).foldl (fun (acc : SMap Word × State) w =>
      match raced.find? (fun e => e.1 == w) with
      | some e => let f := acc.2.free; (if f.1.toNat.testBit 0 then acc.1 ++ [(w, e.2)] else acc.1, f.2)
      | none => acc) ([], s)
    ((List.range n).map (fun i =>
      match r.1.find? (fun e => e.1 == (loc + i) / 8) with
      | some e => BitVec.ofNat 8 (e.2.toNat >>> (8 * ((loc + i) % 8)))
      | none => s.byteAt (loc + i)), r.2)

/-- The bytes an engine leaves in the basin: a word that a context wrote meanwhile ends with the context's value or the
engine's, a free choice (R232). -/
def State.engineKeep (s : State) (raced : List (Nat × Word)) (loc : Nat) (b : List Byte) : List Byte × State :=
  if (wordsOf loc b.length).all (fun w => !raced.any (fun e => e.1 == w)) then (b, s)
  else
    let r := (wordsOf loc b.length).foldl (fun (acc : List Nat × State) w =>
      if raced.any (fun e => e.1 == w) then
        let f := acc.2.free
        (if f.1.toNat.testBit 0 then acc.1 ++ [w] else acc.1, f.2)
      else acc) ([], s)
    ((List.range b.length).map (fun i => if r.1.contains ((loc + i) / 8) then s.byteAt (loc + i) else b.getD i 0#8), r.2)

/-- How far a copy has come. -/
inductive CopyEnd where
  /-- The whole payload is performed. -/
  | done
  /-- It cannot go on in this step: a home has to catch up. -/
  | stalled
  /-- Suspended at an absent page. -/
  | suspend (va : Word)
  /-- Ended with a code. -/
  | fault (k : BitVec 8)
deriving DecidableEq, Repr, Inhabited

/-- Move payload items from `i` on.  A source byte that an earlier element of the copy has written reads as a free value (R385). -/
def State.moveItems (d : Nat) (c : Copy) (t : Tmpl) (earlierDst : List (Nat × Nat)) : State → Nat → List Item → State × Nat × CopyEnd
  | s, i, [] => (s, i, .done)
  | s, i, it :: rest =>
    let dIn := inBasinWin t.dst
    let dva := offA t.dst (match it with | .move _ x => x | .pad x => x)
    let get : State × CopyEnd × List Byte := match it with
      | .pad _ => (s, .done, List.replicate t.esize 0#8)
      | .move x _ =>
        match s.copyTr c (inBasinWin t.src) .rd (offA t.src x) with
        | .code k => (s, .fault k, [])
        | .absent => (s, .suspend (offA t.src x), [])
        | .ok a =>
          if earlierDst.any (fun e => overlaps a.loc t.esize e.1 e.2) then
            let f := s.free
            (f.2, .done, bytesLE t.esize f.1.toNat)
          else if isBasin a.loc then
            if s.poisoned a.loc t.esize then (s, .fault 7#8, [])
            else
              let q := s.engineRead c.raced a.loc t.esize
              (q.2, .done, q.1)
          else match s.readFar d a t.esize false with
            | .val b u => (u, .done, b)
            | .wait _ => (s, .stalled, [])
            | .poison => (s, .fault 7#8, [])
            | .lost => (s, .fault 6#8, [])
    match get with
    | (u, .done, b) =>
      match u.copyTr c dIn .wr dva with
      | .code k => (u, i, .fault k)
      | .absent => (u, i, .suspend dva)
      | .ok a =>
        if u.held a.loc t.esize then (u, i, .fault 8#8)
        else if unmappedPa a.loc then (u, i, .fault 6#8)
        else if a.marked then (u, i, .fault 7#8)
        else
          let kb := if isBasin a.loc then u.engineKeep c.raced a.loc b else (b, u)
          match kb.2.engineWrite d a kb.1 with
          | none => (u, i, .stalled)
          | some v => State.moveItems d c t ((a.loc, t.esize) :: earlierDst) ((v.noteStitchOf c.dom a t.esize).noteHarvest c.owner a.loc) (i + 1) rest
    | (u, e, _) => (u, i, e)

/-- The destinations of the items a copy has already moved. -/
def State.movedDst (s : State) (c : Copy) (t : Tmpl) (l : List Item) : List (Nat × Nat) :=
  (l.take c.done).filterMap (fun it =>
    match s.copyTr c (inBasinWin t.dst) .wr (offA t.dst (match it with | .move _ x => x | .pad x => x)) with
    | .ok a => some (a.loc, t.esize)
    | _ => none)

/-- COPY_FAULT reaches the issuing context at its next boundary, at once when it is in WAIT or PARKED; a bank rebound since gets
a record in the trap area and its launch fails (R387). -/
def State.copyTrap (s : State) (c : Copy) (chan : Nat) (code : BitVec 8) : State :=
  let x := s.ctx c.owner
  let bound := x.bound.isSome && x.r.task == c.task && (x.bound.map (·.launch)) == some c.launch
  if bound then
    if code = 7#8 && (s.domain (x.r.dom.setWidth 32)).isSome then s.domainFault (x.r.dom.setWidth 32) 0x11#8 x.r.chainStart
    else if x.st = .wait || x.st = .parked then s.takeTrap c.owner 0x11#8 (startAddr chan) false false [] 0#32
    else s.onCtx c.owner (fun y => { y with atBoundary := enq y.atBoundary (0x11#8, startAddr chan) })
  else
    let r : TrapRec := { ctx := c.owner, cause := 0x11#8, flags := trapFlags c.owner.reserve false false, pages := [],
                         tenant := c.tenant, epc := 0#64, tval := startAddr chan, task := c.task, dom := c.dom.setWidth 64,
                         vstart := 0#64, launch := c.launch, cycle := s.cycle, insn := 0#32 }
    let q := s.trapArea c.tenant r.bytes
    (q.2.post c.tenant 0x0003#16 0#8 (causeWord 0x11#8) c.launch (BitVec.ofNat 64 q.1)).failLaunch c.launch (causeWord 0x11#8) 0#64 true

/-- A copy ends by a code: it and the later copies of its channel are discarded, charges discharged, entries freed; STATE 3
(R382, R387). -/
def State.endCopy (s : State) (d c chan : Nat) (code : BitVec 8) (offset : Nat) : State :=
  match s.headCopy d c chan with
  | none => s
  | some cp =>
    let all := (SMap.look {} (s.core d c).channels chan).copies
    let s1 := s.onChannel d c chan (fun x => { x with copies := [], state := 3, code := code, offset := offset })
    let r := s1.discharge cp
    let s2 := (r.1.settle r.2)
    let s3 := all.foldl (fun t x => match x.sb with | some e => t.freeSb d c e | none => t) s2
    ((s3.copyTrap cp chan code).settle (all.map (fun x => Todo.complete x.launch))).wakeAll
      (fun k w => k == cp.owner && w == .retry .channel)

/-- Suspend a copy at a payload offset (R387). -/
def State.suspendCopy (s : State) (d c chan : Nat) (done offset : Nat) : State :=
  (s.onHead d c chan (fun x => { x with suspended := true, done := done })).onChannel d c chan
    (fun x => { x with state := 2, offset := offset })

/-- COUNTER and STAMP checked, the charge made (R155, R386 step 1): the accepted copy, or how it ends. -/
def State.acceptCopy (s : State) (d c chan : Nat) (cp : Copy) : State :=
  let t := tmplOf cp.words
  let chk (va : Word) (counter : Bool) : CopyTr :=
    if va = 0#64 then .ok { loc := 0, win := {}, slice := 0, marked := false, fill := none }
    else match s.copyTr cp true .wr va with
      | .ok a =>
        if counter && (isBasin a.loc || a.win.ship || isCtl a.loc) then .code 6#8
        else if s.held a.loc 8 then .code 8#8
        else if a.marked then .code 7#8 else .ok a
      | e => e
  match chk t.counter true with
  | .absent => s.suspendCopy d c chan 0 0
  | .code k => s.endCopy d c chan k 0
  | .ok ca =>
    match chk t.stamp false with
    | .absent => s.suspendCopy d c chan 0 0
    | .code k => s.endCopy d c chan k 0
    | .ok sa =>
      let size := t.size cp.rep
      let acc (u : State) (ch : Nat) : State :=
        (u.onHead d c chan (fun x => { x with running := true, suspended := false, charged := ch, counterLoc := ca.loc, stampLoc := sa.loc })).onChannel
          d c chan (fun x => { x with state := 1 })
      if t.counter = 0#64 then acc s 0
      else
        let v := s.natAtLoc ca.loc 8
        if !s.counterMay d ca.loc then s
        else if 2 ^ 32 ≤ v / 2 ^ 32 + size then s.endCopy d c chan 4#8 0
        else acc ((s.counterDec d ca.loc (v + size * 2 ^ 32) []).onCounter ca.loc (fun x => { x with fired := false })) size

/-- COPY_ACCEPT: the copy at the head of its channel is accepted (R386). -/
def execCopyAccept (die core chan : Nat) (s : State) : Res :=
  match s.headCopy die core chan with
  | none => .next s
  | some cp => if cp.running || cp.suspended then .next s else .next (s.acceptCopy die core chan cp)

/-- The stamp, then the completion of a copy whose payload is performed, as soon as the counter's home can take the discharge (R220, R233,
R386 steps 3 and 4, R389). -/
def State.finishCopy (s : State) (d c chan : Nat) (cp : Copy) (t : Tmpl) : State :=
  let stamped : State × CopyEnd :=
    if cp.charged ≠ 0 && !s.counterMay cp.owner.die cp.counterLoc then (s, .stalled)
    else if t.stamp = 0#64 then (s, .done)
    else match s.copyTr cp true .wr t.stamp with
      | .code k => (s, .fault k)
      | .absent => (s, .suspend t.stamp)
      | .ok a =>
        if s.held a.loc 8 then (s, .fault 8#8)
        else if a.marked then (s, .fault 7#8)
        else match s.engineWrite d a (bytesLE 8 cp.number.toNat) with
          | none => (s, .stalled)
          | some u => ((u.noteStitchOf cp.dom a 8).noteHarvest cp.owner a.loc, .done)
  match stamped with
  | (u, .done) =>
    let r := (u.onChannel d c chan (fun x =>
      let q := x.copies.tail
      { x with seq := cp.number, copies := q, state := if q = [] then 0 else 1, offset := 0 })).discharge cp
    let v := r.1.settle r.2
    let y := match cp.sb with | some e => v.freeSb d c e | none => v
    (y.settle [.complete cp.launch]).wakeAll (fun k w => k == cp.owner && w == .retry .channel)
  | (u, .stalled) => u
  | (u, .suspend _) => u.suspendCopy d c chan cp.done (t.size cp.rep)
  | (u, .fault k) => u.endCopy d c chan k (t.size cp.rep)

/-- Run the accepted copy at the head of a channel as far as it goes (R386, R387). -/
def State.runCopy (s : State) (d c chan : Nat) (cp : Copy) : State :=
  if (cp.sb.map (fun e => (s.core d c).mayStart e)).getD true then
    let t := tmplOf cp.words
    let l := t.items cp.rep
    let r := State.moveItems d cp t (s.movedDst cp t l) s cp.done (l.drop cp.done)
    let off := r.2.1 * t.esize
    let u := r.1.onHead d c chan (fun x => { x with done := r.2.1 })
    match r.2.2 with
    | .done => u.finishCopy d c chan { cp with done := r.2.1 } t
    | .stalled => u
    | .suspend _ => u.suspendCopy d c chan r.2.1 off
    | .fault k => u.endCopy d c chan k off
  else s

/-- COPY_COMPLETE: the payload of the running copy is moved, its stamp written and the copy completed (R386); a fault it meets
suspends or ends it (R387). -/
def execCopyComplete (die core chan : Nat) (s : State) : Res :=
  match s.headCopy die core chan with
  | none => .next s
  | some cp => if cp.running && !cp.suspended then .next (s.runCopy die core chan cp) else .next s

/-- COPY_SUSPEND: a running copy finds a page not present and suspends at a byte offset; a record goes to the supervisor (R387). -/
def execCopySuspend (die core chan : Nat) (offset : Nat) (va : Word) (s : State) : Res :=
  match s.headCopy die core chan with
  | none => .next s
  | some cp =>
    let t := tmplOf cp.words
    if cp.running && !cp.suspended && s.copyTr cp true .rd va == .absent then
      let l := t.items cp.rep
      let k := offset / t.esize - cp.done
      let r := State.moveItems die cp t (s.movedDst cp t l) s cp.done ((l.drop cp.done).take k)
      .next ((r.1.suspendCopy die core chan r.2.1 (r.2.1 * t.esize)).send (.record "COPY_SUSPEND" r.2.1 va.toNat))
    else .next s

/-- The address a suspended copy waits for, found by going on. -/
def State.suspendVa (s : State) (d : Nat) (cp : Copy) : Option Word :=
  let t := tmplOf cp.words
  let pre := [t.counter, t.stamp].find? (fun va => va != 0#64 && s.copyTr cp true .wr va == .absent)
  match pre with
  | some va => some va
  | none =>
    let l := t.items cp.rep
    match (State.moveItems d cp t (s.movedDst cp t l) s cp.done (l.drop cp.done)).2.2 with
    | .suspend va => some va
    | _ => none

/-- COPY_RESUME: the supervisor serves the record of a suspended copy as a TRANSLATION fault: it maps the page and the copy goes
on at its offset; a T2 page is asked of the host and the copy stays suspended; an address in no valid window ends the copy with
code 5 (R387, R430). -/
def execCopyResume (die core chan : Nat) (s : State) : Res :=
  match s.headCopy die core chan with
  | none => .next s
  | some cp =>
    if !cp.suspended then .next s
    else
      let go (u : State) : State := (u.onHead die core chan (fun x => { x with suspended := false })).onChannel die core chan
        (fun x => { x with state := 1 })
      match s.suspendVa die cp with
      | none => .next (go s)
      | some va =>
        match s.touchPage cp.tenant va with
        | .present => .next (go s)
        | .mapped u => .next (go u)
        | .t2 h f => .next (s.fetchPage cp.tenant va h f)
        | .none => .next (s.endCopy die core chan 5#8 (cp.done * (tmplOf cp.words).esize))

/-- COPY_FAULT_END: a running or suspended copy is ended by a code at a payload offset (R387). -/
def execCopyFaultEnd (die core chan : Nat) (code : BitVec 8) (offset : Nat) (s : State) : Res :=
  match s.headCopy die core chan with
  | none => .next s
  | some cp => if cp.running || cp.suspended then .next (s.endCopy die core chan code offset) else .next s

/-- SCOREBOARD_ENTRY_FREE: an entry's command has performed its last basin access; what waits for an entry goes on (R190). -/
def execScoreboardEntryFree (die core entry : Nat) (s : State) : Res := .next (s.freeSb die core entry)

end Sys2Proof.Machine
end

