-- ==== Sys2Proof/Machine/LoadStore.lean ====
section
/-! DEFINITION. Scalar loads and stores, LDRO, LDF and STF: majors 0x20 to 0x2D (R318 to R321). -/

namespace Sys2Proof.Machine

/-- LDB: a load of 1 byte, sign-extended (R318). -/
def execLdb (d a : RegNo) (w : BitVec 2) (o : BitVec 13) (s : State) : Res :=
  s.load (Enc.ldb d a w o) d a w o 1 true

/-- LDBU: a load of 1 byte, zero-extended (R318). -/
def execLdbu (d a : RegNo) (w : BitVec 2) (o : BitVec 13) (s : State) : Res :=
  s.load (Enc.ldbu d a w o) d a w o 1 false

/-- LDH: a load of 2 bytes, sign-extended (R318). -/
def execLdh (d a : RegNo) (w : BitVec 2) (o : BitVec 13) (s : State) : Res :=
  s.load (Enc.ldh d a w o) d a w o 2 true

/-- LDHU: a load of 2 bytes, zero-extended (R318). -/
def execLdhu (d a : RegNo) (w : BitVec 2) (o : BitVec 13) (s : State) : Res :=
  s.load (Enc.ldhu d a w o) d a w o 2 false

/-- LDW: a load of 4 bytes, sign-extended (R318). -/
def execLdw (d a : RegNo) (w : BitVec 2) (o : BitVec 13) (s : State) : Res :=
  s.load (Enc.ldw d a w o) d a w o 4 true

/-- LDWU: a load of 4 bytes, zero-extended (R318). -/
def execLdwu (d a : RegNo) (w : BitVec 2) (o : BitVec 13) (s : State) : Res :=
  s.load (Enc.ldwu d a w o) d a w o 4 false

/-- LDD: a load of 8 bytes, zero-extended (R318). -/
def execLdd (d a : RegNo) (w : BitVec 2) (o : BitVec 13) (s : State) : Res :=
  s.load (Enc.ldd d a w o) d a w o 8 false

/-- STB: a store of 1 byte (R318, R319). -/
def execStb (d a : RegNo) (w : BitVec 2) (o : BitVec 13) (s : State) : Res :=
  s.store (Enc.stb d a w o) d a w o 1 (fun s x => s.startCopy (Enc.stb d a w o) x)

/-- STH: a store of 2 bytes (R318, R319). -/
def execSth (d a : RegNo) (w : BitVec 2) (o : BitVec 13) (s : State) : Res :=
  s.store (Enc.sth d a w o) d a w o 2 (fun s x => s.startCopy (Enc.sth d a w o) x)

/-- STW: a store of 4 bytes (R318, R319). -/
def execStw (d a : RegNo) (w : BitVec 2) (o : BitVec 13) (s : State) : Res :=
  s.store (Enc.stw d a w o) d a w o 4 (fun s x => s.startCopy (Enc.stw d a w o) x)

/-- STD: a store of 8 bytes (R318, R319); an aligned store to the channel's START word starts a copy (R192, R383). -/
def execStd (d a : RegNo) (w : BitVec 2) (o : BitVec 13) (s : State) : Res :=
  s.store (Enc.std d a w o) d a w o 8 (fun s x => s.startCopy (Enc.std d a w o) x)

/-- The read-only buffer's sector that holds an address of a tenant, if any (R198). -/
def CoreSt.roHit (k : CoreSt) (tn : Nat) (va : Word) : Option RoSector :=
  k.robuf.find? (fun r => r.tenant == tn && r.va == va.toNat / 128)

/-- Fill the read-only buffer with a sector; the line least recently filled makes room (R198). -/
def State.fillRo (s : State) (tn : Nat) (va : Word) (loc : Nat) (b : List Byte) : State :=
  let r : RoSector := { tenant := tn, va := va.toNat / 128, sector := loc / 128, bytes := b }
  s.onCore s.cur.die s.cur.core (fun k =>
    let l := without k.robuf (fun q => q.tenant == r.tenant && q.va == r.va)
    let lines := (l.map (fun q => (q.tenant, q.va / 4))).eraseDups
    let l1 := if lines.contains (r.tenant, r.va / 4) || lines.length < 128 then l
      else match l.head? with
        | none => l
        | some o => without l (fun q => q.tenant == o.tenant && q.va / 4 == o.va / 4)
    { k with robuf := enq l1 r })

/-- LDRO: 8 bytes through the read-only buffer (R198, R320): a hit returns the buffered data with no check; a miss reads the
sector as an ordinary load would and fills it. -/
def execLdro (d a : RegNo) (o : BitVec 13) (s : State) : Res :=
  let va := s.cx.r.memAddr a 8 o
  let w := Enc.ldro d a o
  s.issueMem w true .rd [a.toNat] [] [d.toNat] [] (alignedTo va 8) [va] (fun s =>
    if !alignedTo va 8 then s.trap w 0x03#8 va
    else match s.myCore.roHit s.cx.tn va with
      | some r => .next (s.finishSet d (wordAt r.bytes (va.toNat % 128)))
      | none =>
        s.withAccess w .rd va (fun s => s.startRunahead w .rd va [d.toNat] []) (fun _ _ => s.trap w 0x05#8 va)
          (fun x s =>
            if isBasin x.loc || x.win.ship || isCtl x.loc then s.trap w 0x05#8 va
            else
              let base : Access := { x with loc := x.loc / 128 * 128 }
              match s.read x 8 false with
              | .val v t =>
                let sec := match s.read base 128 false with | .val q _ => q | _ => t.bytesAt base.loc 128
                let u := t.fillRo t.cx.tn va base.loc sec
                .next (u.finishLong (u.cx.r.set d (wordAt v 0)))
              | .wait y => .next (s.waitOn y)
              | .poison => s.consume w va
              | .lost => s.lostAccess))

/-- LDF: waits while the basin word is empty, then loads it; mode 01 sets it empty (R321). -/
def execLdf (d a : RegNo) (m : BitVec 1) (o : BitVec 13) (s : State) : Res :=
  let w := Enc.ldf d a m o
  s.issue w true (fun s =>
    let va := s.cx.r.memAddr a 8 o
    s.basinWord w va false (fun loc =>
      if !s.full (loc / 8) then .next (s.waitOn (.basinWord (loc / 8)))
      else if s.poisoned loc 8 then s.consume w va
      else
        let v : Word := BitVec.ofNat 64 (s.natAtLoc loc 8)
        .next ((if m = 1#1 then s.fullEmpty loc false else s).finishSet d v)))

/-- STF: mode 01 waits while the basin word is full; then the word is stored and set full (R319, R321). -/
def execStf (d a : RegNo) (m : BitVec 1) (o : BitVec 13) (s : State) : Res :=
  let w := Enc.stf d a m o
  s.issue w true (fun s =>
    let va := s.cx.r.memAddr a 8 o
    s.basinWord w va true (fun loc =>
      if m = 1#1 && s.full (loc / 8) then .next (s.waitOn (.basinWord (loc / 8)))
      else if s.held loc 8 then s.trap w 0x09#8 va true
      else
        let t := (((s.noteRace loc 8).applyWrite loc (lowBytes (s.rd d) 8) 0 .local).noteHarvest s.cur loc).fullEmpty loc true
        .next (t.finish t.cx.r)))

end Sys2Proof.Machine
end

