-- ==== Sys2Proof/Machine/Atomic.lean ====
section
/-! DEFINITION. Atomics: major 0x2F (R234, R261, R325 to R327, Table 11.6). -/

namespace Sys2Proof.Machine

/-- X of R326: the operand's low bytes. -/
def atomX (s : State) (b : RegNo) (n : Nat) : Nat := (s.rd b).toNat % 2 ^ (8 * n)

/-- The signed value of an operand of n bytes. -/
def atomI (n x : Nat) : Int := signedN x (8 * n)

/-- AADD: mem becomes old + X, modulo 2^size; s[d] the old value (R326). -/
def execAadd (d a b : RegNo) (w : BitVec 2) (z : BitVec 1) (s : State) : Res :=
  let n := atomSize z
  let x := atomX s b n
  s.atom (Enc.aadd d a b w z) d a w n (fun old => some ((old + x) % 2 ^ (8 * n))) (extS n)

/-- AAND: mem becomes old AND X; s[d] the old value (R326). -/
def execAand (d a b : RegNo) (w : BitVec 2) (z : BitVec 1) (s : State) : Res :=
  let n := atomSize z
  let x := atomX s b n
  s.atom (Enc.aand d a b w z) d a w n (fun old => some (old &&& x)) (extS n)

/-- AOR: mem becomes old OR X; s[d] the old value (R326). -/
def execAor (d a b : RegNo) (w : BitVec 2) (z : BitVec 1) (s : State) : Res :=
  let n := atomSize z
  let x := atomX s b n
  s.atom (Enc.aor d a b w z) d a w n (fun old => some (old ||| x)) (extS n)

/-- AXOR: mem becomes old XOR X; s[d] the old value (R326). -/
def execAxor (d a b : RegNo) (w : BitVec 2) (z : BitVec 1) (s : State) : Res :=
  let n := atomSize z
  let x := atomX s b n
  s.atom (Enc.axor d a b w z) d a w n (fun old => some (old ^^^ x)) (extS n)

/-- AMIN: mem becomes the smaller, signed; s[d] the old value (R326). -/
def execAmin (d a b : RegNo) (w : BitVec 2) (z : BitVec 1) (s : State) : Res :=
  let n := atomSize z
  let x := atomX s b n
  s.atom (Enc.amin d a b w z) d a w n (fun old => some (if atomI n old < atomI n x then old else x)) (extS n)

/-- AMAX: mem becomes the larger, signed; s[d] the old value (R326). -/
def execAmax (d a b : RegNo) (w : BitVec 2) (z : BitVec 1) (s : State) : Res :=
  let n := atomSize z
  let x := atomX s b n
  s.atom (Enc.amax d a b w z) d a w n (fun old => some (if atomI n old < atomI n x then x else old)) (extS n)

/-- AMINU: mem becomes the smaller, unsigned; s[d] the old value (R326). -/
def execAminu (d a b : RegNo) (w : BitVec 2) (z : BitVec 1) (s : State) : Res :=
  let n := atomSize z
  let x := atomX s b n
  s.atom (Enc.aminu d a b w z) d a w n (fun old => some (if old < x then old else x)) (extU)

/-- AMAXU: mem becomes the larger, unsigned; s[d] the old value (R326). -/
def execAmaxu (d a b : RegNo) (w : BitVec 2) (z : BitVec 1) (s : State) : Res :=
  let n := atomSize z
  let x := atomX s b n
  s.atom (Enc.amaxu d a b w z) d a w n (fun old => some (if old < x then x else old)) (extU)

/-- ASWAP: mem becomes X; s[d] the old value (R326). -/
def execAswap (d a b : RegNo) (w : BitVec 2) (z : BitVec 1) (s : State) : Res :=
  let n := atomSize z
  let x := atomX s b n
  s.atom (Enc.aswap d a b w z) d a w n (fun _ => some x) (extS n)

/-- ACAS: mem becomes X when it equals s[d], read before s[d] is written; a failed compare writes nothing (R326). -/
def execAcas (d a b : RegNo) (w : BitVec 2) (z : BitVec 1) (s : State) : Res :=
  let n := atomSize z
  let x := atomX s b n
  let e := atomX s d n
  s.atom (Enc.acas d a b w z) d a w n (fun old => if old = e then some x else none) (extS n)

/-- AFADD: mem becomes RoundNE(old + X, FP32); the old value is placed as FP32 (R263, R326). -/
def execAfadd (d a b : RegNo) (w : BitVec 2) (s : State) : Res :=
  let x := atomX s b 4
  s.atom (Enc.afadd d a b w) d a w 4 (fun old => some (afadd old x)) extU

/-- AFMAXABS: mem becomes the larger of old and |x|, NaN sticky (R238, R261). -/
def execAfmaxabs (d a b : RegNo) (w : BitVec 2) (s : State) : Res :=
  let x := atomX s b 4
  s.atom (Enc.afmaxabs d a b w) d a w 4 (fun old => some (afmaxabs old x)) extU

/-- AMAXRST: returns the old value and writes +0.0 (R238, R261). -/
def execAmaxrst (d a : RegNo) (w : BitVec 2) (s : State) : Res :=
  s.atom (Enc.amaxrst d a w) d a w 4 (fun _ => some 0) extU

end Sys2Proof.Machine
end

