-- ==== Sys2Proof/Machine/Fabric.lean ====
section
/-! DEFINITION. The fabric: headers and their CRCs, the on-package links and the chip-to-chip ports with hop protection, replay and lane
degrade, routing hop by hop and delivery, end-to-end resends, greetings, and the change of a die map (R36 to R55, R60 to R62, R96,
R106). -/

namespace Sys2Proof

/-- The header's 256 bits as a number (Table 2.4). -/
def Packet.header (p : Packet) : Nat :=
  p.hcrc.toNat * 2 ^ 224 + p.hseq.toNat * 2 ^ 208 + p.hack.toNat * 2 ^ 192 + p.ecrc.toNat * 2 ^ 160 + p.group.toNat * 2 ^ 128
    + p.addr.toNat * 2 ^ 72 + (if p.cvp then 2 ^ 71 else 0) + p.opx.toNat * 2 ^ 64 + p.dpkg.toNat * 2 ^ 52 + p.ddie.toNat * 2 ^ 48
    + p.spkg.toNat * 2 ^ 36 + p.sdie.toNat * 2 ^ 32 + p.txn.toNat * 2 ^ 16 + p.len.toNat * 2 ^ 11 + p.vc.toNat * 2 ^ 8 + p.typ.toNat

/-- The hop CRC of a packet: header bits 223 to 0, then the payload (R49). -/
def Packet.hopCrc (p : Packet) : BitVec 32 :=
  Machine.Crypto.crc32 0x04C11DB7#32 Config.lsbFirst (Machine.bytesLE 28 (p.header % 2 ^ 224) ++ p.payload)

/-- The end-to-end CRC of a packet: its fields in the order R51 names them, packed from bit 0 up, then the payload (R51). -/
def Packet.endCrc (p : Packet) : BitVec 32 :=
  let f : Nat := p.typ.toNat + p.len.toNat * 2 ^ 8 + p.txn.toNat * 2 ^ 13 + p.sdie.toNat * 2 ^ 29 + p.spkg.toNat * 2 ^ 33
    + p.ddie.toNat * 2 ^ 45 + p.dpkg.toNat * 2 ^ 49 + p.opx.toNat * 2 ^ 61 + (if p.cvp then 2 ^ 68 else 0) + p.addr.toNat * 2 ^ 69
    + p.group.toNat * 2 ^ 125
  Machine.Crypto.crc32 0x1EDC6F41#32 Config.lsbFirst (Machine.bytesLE 20 f ++ p.payload)

/-- A packet as its source sends it: with its end-to-end CRC (R51). -/
def Packet.sealed (p : Packet) : Packet := { p with ecrc := p.endCrc }

/-- Flits of a packet (R47). -/
def Packet.flits (p : Packet) : Nat := 1 + p.len.toNat

/-- Whether a TYPE and LEN are those of a packet (R48). -/
def Packet.wellTyped (p : Packet) : Bool := decide (1 ≤ p.typ.toNat) && decide (p.typ.toNat ≤ 0x12) && decide (p.len.toNat ≤ 16)

/-- Whether a packet asks for an answer: a request of Table 2.5. -/
def Packet.isRequest (p : Packet) : Bool := ([1, 3, 4, 6, 8, 0xA, 0xB, 0xE] : List Nat).contains p.typ.toNat

/-- Whether a packet answers a request (Table 2.5). -/
def Packet.isReply (p : Packet) : Bool := ([2, 5, 7, 9, 0xC, 0xF] : List Nat).contains p.typ.toNat

/-- A transaction whose fate must not be guessed at (R51). -/
def Packet.once (p : Packet) : Bool := ([6, 8, 0xA, 0xB] : List Nat).contains p.typ.toNat

/-- A collective packet, whose group a router checks (R54). -/
def Packet.collective (p : Packet) : Bool := ([0xB, 0xC, 0xD] : List Nat).contains p.typ.toNat

/-- A MAINT packet (Table 2.5). -/
def Packet.maint (p : Packet) : Bool := p.typ == 0x12#8

/-- A packet's line, without the home slice that a requester puts into ADDR[55:50] (R194). -/
def Packet.line (p : Packet) : Nat := p.addr.toNat % 2 ^ 50 / 512

/-- The package-local HBM address of a packet. -/
def Packet.pa (p : Packet) : Nat := p.addr.toNat % 2 ^ 41

/-- Whether a packet's source and destination are one die, as only those of a base die's traffic are (R60). -/
def Packet.ownDie (p : Packet) : Bool := p.spkg == p.dpkg && p.sdie == p.ddie

/-- The form of a base-die request (R60). -/
def Packet.baseForm (p : Packet) : Bool :=
  (p.typ == 1#8 || p.typ == 3#8 || p.typ == 4#8 || p.typ == 8#8) && p.vc.toNat % 4 == 0 && p.ownDie

/-- Size and offset within the granule of a WRITE_MASKED (Table 3.2). -/
def Packet.maskedAt (p : Packet) : Nat × Nat := (p.opx.toNat / 16 % 8 + 1, 2 * (p.opx.toNat % 16) + p.addr.toNat % 2)

/-- A WRITE_MASKED of a number of bytes at an offset of its granule (Table 3.2); the bytes stand first in the payload flit. -/
def Packet.masked (p : Packet) (off : Nat) (b : List Byte) : Packet :=
  { p with opx := BitVec.ofNat 7 ((b.length - 1) * 16 + off % 32 / 2), addr := BitVec.ofNat 56 (p.addr.toNat / 32 * 32 + off / 32 * 32 + off % 2),
           len := 1#5, payload := b ++ List.replicate (32 - b.length) 0#8 }

/-- The packets that a source sends for one WRITE_MASKED: two where its bytes cross a granule (R63). -/
def Packet.split (p : Packet) : List Packet :=
  let z := p.maskedAt
  if p.typ ≠ 4#8 || z.1 + z.2 ≤ 32 then [p]
  else
    let b := p.payload.take z.1
    [p.masked z.2 (b.take (32 - z.2)), p.masked 32 (b.drop (32 - z.2))]

/-- A packet from a base die: the home die's names, response channel (R60). -/
def Packet.answer (p : Packet) (typ : BitVec 8) (opx : BitVec 7) (addr : BitVec 56) (payload : List Byte) : Packet :=
  { p with hcrc := 0#32, hseq := 0#16, hack := 0#16, ecrc := 0#32, group := 0#32, addr := addr, cvp := false, opx := opx,
           len := BitVec.ofNat 5 ((payload.length + 31) / 32), vc := (p.vc &&& 4#3) ||| 1#3, typ := typ, payload := payload }

/-- An answer from a packet's destination to its source (R51, R54, R55). -/
def Packet.back (p : Packet) (typ : BitVec 8) (payload : List Byte) : Packet :=
  { p.answer typ 0#7 p.addr payload with dpkg := p.spkg, ddie := p.sdie, spkg := p.dpkg, sdie := p.ddie }

/-- A COLL_REJ keeps the group handle, and the job key in its one payload flit (R54, R55). -/
def Packet.reject (p : Packet) : Packet :=
  { p.back 0x0D#8 ((p.payload.take 8) ++ List.replicate 24 0#8) with addr := 0#56, group := p.group, vc := (p.vc &&& 4#3) ||| 2#3 }

end Sys2Proof

namespace Sys2Proof.Machine

open Crypto

/-! ## The units on the fabric and their links (R14, R36, R46)

A node is a compute die's router (0 to 17), an I/O die's (18, 19), or 20 + the stack of a base die. -/

/-- The mesh of 3 rows and 6 columns in ascending P order, row-major, and the links of X0 to column 0 and of X1 to column 5 (R36). -/
def routerLinks (a : Nat) : List Nat :=
  if a < 18 then
    (if 6 ≤ a then [a - 6] else []) ++ (if a % 6 = 0 then [18] else [a - 1]) ++ (if a % 6 = 5 then [19] else [a + 1])
      ++ (if a < 12 then [a + 6] else [])
  else if a = 18 then [0, 6, 12] else if a = 19 then [5, 11, 17] else []

/-- The physical die that port A or B of a stack leads to (R14). -/
def State.portDie (s : State) (h : Nat) (portB : Bool) : Nat :=
  let e := s.pkg.attach.getD h (0, 1)
  if portB then e.2 else e.1

/-- The number of node a's end of the link to node b. -/
def linkEnd (a b : Nat) : Nat := 32 + 64 * a + b

/-- The node a port belongs to: an I/O die for a chip-to-chip port (R15, R36). -/
def portNode (j : Nat) : Nat := if j < 16 then 18 else if j < 32 then 19 else (j - 32) / 64

/-- The other end of an on-package link. -/
def farEnd (j : Nat) : Nat := linkEnd ((j - 32) % 64) ((j - 32) / 64)

/-- The port under which a router's own units enter it. -/
def localEnd (a : Nat) : Nat := linkEnd a 63

/-- Whether a port carries packets: neither direction is DOWN (R46, R96, Table 2.6); an on-package link needs both of its ends. -/
def State.portLive (s : State) (j : Nat) : Bool :=
  (s.port j).live && (decide (j < 32) || (s.port (farEnd j)).live)

/-! ## Transmitting on a port (R44, R46, R50) -/

/-- A packet goes over the wires of a port: out of the package, or to the other end of the on-package link. -/
def State.wire (s : State) (j : Nat) (p : Packet) : State :=
  if j < 32 then s.send (.link j p) else { s with inbox := enq s.inbox (.hopPacketReceive (farEnd j) p) }

/-- A control flit on a port: 0 ACK, 1 NAK, 2 LANE_FAIL, 3 a credit (R44, R50, R52). -/
def State.control (s : State) (j kind value : Nat) : State :=
  if j < 32 then s.send (.control j kind value)
  else match kind with
    | 0 => { s with inbox := enq s.inbox (.ackReceived (farEnd j) (BitVec.ofNat 16 value)) }
    | 1 => { s with inbox := enq s.inbox (.nakReceived (farEnd j) (BitVec.ofNat 16 value)) }
    | _ => s

/-- A packet leaves on a port: it takes the next HSEQ, acknowledges the reverse direction, and stays in the replay buffer (R50). -/
def State.sendNow (s : State) (j : Nat) (p : Packet) : State :=
  let q := s.port j
  let p1 : Packet := { p with hseq := q.nextSeq, hack := q.expect - 1#16 }
  let p2 : Packet := { p1 with hcrc := p1.hopCrc }
  (s.onPort j (fun x =>
    { x with nextSeq := x.nextSeq + 1#16, unacked := 0, buffer := enq x.buffer (p2, 1),
             credits := SMap.put 0 x.credits p.vc.toNat (SMap.look 0 x.credits p.vc.toNat - 1) })).wire j p2

/-- Whether a port may send a packet now: the direction is up, its channel has a credit, the replay buffer has room and no earlier packet of
its channel waits (R44, R50); on-package links give no credits. -/
def PortSt.maySend (q : PortSt) (j : Nat) (p : Packet) : Bool :=
  let used := q.buffer.foldl (fun n e => n + e.1.flits) 0
  2 ≤ q.tx.state && (decide (32 ≤ j) || decide (0 < SMap.look 0 q.credits p.vc.toNat)) && decide (used + p.flits ≤ 8192)
    && !q.stalled.any (fun e => e.vc == p.vc)

/-- A packet is given to a port: it leaves, or waits behind those of its channel (R44, R50). -/
def State.transmit (s : State) (j : Nat) (p : Packet) : State :=
  if (s.port j).maySend j p then s.sendNow j p else s.onPort j (fun x => { x with stalled := enq x.stalled p })

/-- Packets that waited for credit, room or the port go on, in order (R44, R50). -/
def State.drainPort (s : State) (j : Nat) : State :=
  (s.port j).stalled.foldl (fun t p => t.transmit j p) (s.onPort j (fun x => { x with stalled := [] }))

/-- Resend from a place of the replay buffer onward, in order; a packet already sent 8 times brings the direction DOWN (R50). -/
def State.resendFrom (s : State) (j n : Nat) : State :=
  let late := (s.port j).buffer.drop n
  if late.any (fun e => decide (8 ≤ e.2)) then s.portDown j false
  else
    let bump (b : List (Packet × Nat)) : List (Packet × Nat) := (b.take n) ++ ((b.drop n).map (fun e => (e.1, e.2 + 1)))
    late.foldl (fun t e => t.wire j e.1) (s.onPort j (fun x => { x with buffer := bump x.buffer }))

/-- A replay from a place of the buffer: counted in ERRCNT and as a fault event, and sent at once unless the direction is in TRAIN, whose end
resends; at the replay limit nothing is replayed and the direction goes DOWN (R50, Table 2.8). -/
def State.replayPort (s : State) (j n : Nat) : State :=
  if ((s.port j).buffer.drop n).any (fun e => decide (8 ≤ e.2)) then s.portDown j false
  else
    let t := (s.onPort j (fun x => { x with replay := min (x.replay + 1) 0xFFFF })).faultEvent (.portDir j false) .replay
    if 2 ≤ (t.port j).tx.state then t.resendFrom j n else t

/-- A cumulative acknowledgement frees the packets up to its HSEQ (R50). -/
def State.ackPort (s : State) (j : Nat) (hack : BitVec 16) : State :=
  match (s.port j).buffer.findIdx? (fun e => e.1.hseq == hack) with
  | none => s
  | some i => (s.onPort j (fun x => { x with buffer := x.buffer.drop (i + 1) })).drainPort j

/-! ## Routes (R36, R37, R42, R43) -/

/-- Add the ports of one package to a list of packages with port masks. -/
def addMask (l : List (BitVec 12 × BitVec 32)) (p : BitVec 12) (m : BitVec 32) : List (BitVec 12 × BitVec 32) :=
  if l.any (fun e => e.1 == p) then l.map (fun e => if e.1 = p then (p, e.2 ||| m) else e) else enq l (p, m)

/-- Levels of a breadth-first search from this package: each package reached with its eligible ports and its distance (R37, R42). -/
def searchRoutes (floods : SMap (List (Nat × BitVec 12 × Nat))) : Nat → Nat → List (BitVec 12 × BitVec 32) →
    List (BitVec 12 × BitVec 32 × Nat) → List (BitVec 12 × BitVec 32 × Nat)
  | 0, _, _, found => found
  | k + 1, dist, level, found =>
    let found1 := found ++ level.map (fun e => (e.1, e.2, dist))
    let next := level.foldl (fun l e =>
      (SMap.look [] floods e.1.toNat).foldl (fun l2 f => if found1.any (fun x => x.1 == f.2.1) then l2 else addMask l2 f.2.1 e.2) l) []
    if next.isEmpty then found1 else searchRoutes floods k (dist + 1) next found1

/-- Every package reached over the flooded adjacency, with eligible ports and hops (R37, R42, R103). -/
def State.reach (s : State) : List (BitVec 12 × BitVec 32 × Nat) :=
  let first := s.links.foldl (fun l e => if e.2.1 = s.pkgid then l else addMask l e.2.1 (BitVec.ofNat 32 (2 ^ e.1))) []
  (searchRoutes s.fab.floods (s.fab.floods.length + 2) 1 first [(s.pkgid, 0#32, 0)]).filter (fun e => e.1 != s.pkgid)

/-- A package that lies nearer to another comes before it: fewest hops, then the lower id (R103). -/
def nearer (a b : BitVec 12 × Nat) : Bool := decide (a.2 < b.2) || (decide (a.2 = b.2) && decide (a.1.toNat ≤ b.1.toNat))

/-- The two nearest peer packages of a package, lost ones left out (R103). -/
def State.nearestTo (s : State) (pkg : BitVec 12) : List (BitVec 12) :=
  let fl := SMap.put [] s.fab.floods s.pkgid.toNat s.links
  let l := (searchRoutes fl (fl.length + 2) 0 [(pkg, 0#32)] []).map (fun e => (e.1, e.2.2))
  (((l.filter (fun e => e.1 != pkg && !s.rcv.lost.contains e.1)).foldl (insBy nearer) []).take 2).map (·.1)

/-- This package's pair has seen that a package is lost: the peers are told, and as one of its two nearest it votes RETIRE, where both of its
service processors work (R101, R103). -/
def State.seeLost (s : State) (pkg : BitVec 12) : State :=
  let t := s.send (.maint "package lost" pkg.toNat)
  if (s.nearestTo pkg).contains s.pkgid then t.send (.vote pkg (.package pkg) (if s.rcv.sps.length = 2 then .retire else .abstain)) else t

/-- The far package of a port is lost when every port to it is DOWN, or has counted a credit timeout (R101). -/
def State.checkFar (s : State) (port : Nat) : State :=
  match (s.port port).far with
  | none => s
  | some f =>
    let l := (s.fab.ports.filter (fun e => decide (e.1 < 32) && (e.2.far.map (·.1)) == some f.1)).map (·.1)
    if s.rcv.lost.contains f.1 then s
    else if l.all (fun j => !(s.port j).live) || l.all (fun j => s.rcv.starved.contains j) then s.seeLost f.1 else s

/-- The port a router picks for a destination package and a line (R37). -/
def pickPort (m : BitVec 32) (pkg : BitVec 12) (line : Nat) : Option Nat :=
  let l := setBits m.toNat 32
  l[Config.routeHash pkg line % l.length]?

/-- Levels of a breadth-first search over the routers: each router found with its hops from the start. -/
def searchHops (up : Nat → Nat → Bool) : Nat → Nat → List Nat → List (Nat × Nat) → List (Nat × Nat)
  | 0, _, _, found => found
  | k + 1, dist, level, found =>
    let found1 := found ++ level.map (fun a => (a, dist))
    let next := (level.flatMap (fun a => (routerLinks a).filter (fun b => up a b && !found1.any (fun e => e.1 == b)))).eraseDups
    if next.isEmpty then found1 else searchHops up k (dist + 1) next found1

/-- Every router's hops to router t over the on-package links that the tables use (R37). -/
def State.hopsTo (s : State) (t : Nat) : List (Nat × Nat) :=
  searchHops (fun a b => !s.fab.cut.contains (linkEnd a b) && !s.fab.cut.contains (linkEnd b a)) 20 0 [t] []

/-- Where a packet is bound for, seen from a router. -/
inductive Stop where
  /-- A physical die, or an I/O die. -/
  | unit (n : Nat)
  /-- A stack's base die (R60). -/
  | base (h : Nat)
  /-- Another package (R43). -/
  | away (pkg : BitVec 12)
  /-- Nowhere: an UNMAPPED response (R43). -/
  | nowhere
deriving DecidableEq, Repr, Inhabited

/-- The physical die of a GUEST entry of a router that matches a destination (R43). -/
def State.guestDie (s : State) (a : Nat) (p : Packet) : Option Nat :=
  (((List.range 16).map (fun g => (s.router a (0x100 + 4 * g)).setWidth 64)).find? (fun (r : Word) =>
    r.toNat.testBit 31 && bits r 27 16 == p.dpkg.toNat && bits r 15 12 == p.ddie.toNat)).map (fun r => r.toNat % 32)

/-- Whether a router takes a package id as its own: PKGID, or the id that ALIAS names (R43). -/
def State.answersTo (s : State) (a : Nat) (pkg : BitVec 12) : Bool :=
  pkg == (s.router a 0xC8).setWidth 12 || ((s.router a 0xC4).toNat.testBit 31 && (s.router a 0xC4).setWidth 12 == pkg)

/-- The steps of R43, with the test of R60 before them and MAINT packets aside, by the router's own registers (R42, R43, R60). -/
def State.stopAt (s : State) (a : Nat) (p : Packet) : Stop :=
  if p.maint then
    if p.dpkg = (s.router a 0xC8).setWidth 12 then .unit (18 + p.ddie.toNat % 2) else .away p.dpkg
  else if s.answersTo a p.dpkg then
    if p.baseForm then
      let h := (s.router a (0x40 + 4 * stackOf p.pa)).toNat % 64
      if h < 34 then .base h else .nowhere
    else
      let e := s.router a (4 * p.ddie.toNat)
      if !e.toNat.testBit 31 then .nowhere
      else if e.toNat.testBit 30 then .away (BitVec.ofNat 12 (bits (e.setWidth 64) 23 12))
      else if e.toNat % 32 < 18 then .unit (e.toNat % 32) else .nowhere
  else match (if p.baseForm then none else s.guestDie a p) with
    | some d => .unit d
    | none => .away p.dpkg

/-- What a router does with a packet. -/
inductive Hop where
  /-- It is for this unit. -/
  | deliver
  /-- It leaves on a port. -/
  | port (j : Nat)
  /-- There is no way. -/
  | lost
deriving DecidableEq, Repr, Inhabited

/-- The next link towards a router: one of those on a shortest way, picked by the hash of destination package and line (R37). -/
def State.toward (s : State) (a t : Nat) (p : Packet) : Hop :=
  if a = t then .deliver
  else
    let hops := s.hopsTo t
    let near (b : Nat) : Option Nat := (hops.find? (fun e => e.1 == b)).map (·.2)
    let l := match near a with
      | some n => (routerLinks a).filter (fun b => near b == some (n - 1) && !s.fab.cut.contains (linkEnd a b) && !s.fab.cut.contains (linkEnd b a))
      | none => []
    match l[Config.routeHash p.dpkg p.line % l.length]? with
    | some b => .port (linkEnd a b)
    | none => .lost

/-- What the node `a` does with a packet: a router by its route table, a base die by the port of the line's pseudo-channel (R37, R43, R60,
R61). -/
def State.hop (s : State) (a : Nat) (p : Packet) : Hop :=
  if 20 ≤ a then .port (linkEnd a (s.portDie (a - 20) (s.portB p.pa)))
  else match s.stopAt a p with
    | .unit n => s.toward a n p
    | .base h =>
      let d := s.portDie h (s.portB p.pa)
      if d = a then .port (linkEnd a (20 + h)) else s.toward a d p
    | .away q =>
      if s.pkgid = 0xFFF#12 && !p.maint then .lost
      else match pickPort (SMap.look 0#32 s.fab.routes q.toNat) q p.line with
        | some j => if portNode j = a then .port j else s.toward a (portNode j) p
        | none => .lost
    | .nowhere => .lost

/-- The ports a packet crosses from a node on, inside this package (R37, R38). -/
def State.path : Nat → State → Nat → Packet → List Nat
  | 0, _, _, _ => []
  | k + 1, s, a, p =>
    match s.hop a p with
    | .port j => j :: (if j < 32 || 20 ≤ (j - 32) % 64 then [] else State.path k s ((j - 32) % 64) p)
    | _ => []

/-- Whether a packet's source is a die of this package, or one that realises a foreign identity (R44). -/
def State.ownSource (s : State) (p : Packet) : Bool :=
  p.spkg == s.pkgid || s.rcv.guests.any (fun g => g.2.1 == p.spkg && g.2.2 == p.sdie.toNat)

/-- The router of the die with a logical identity, here or as a guest (R40, R44). -/
def State.sourceNode (s : State) (pkg : BitVec 12) (die : Nat) : Nat :=
  if pkg = s.pkgid then s.physDie die
  else ((s.rcv.guests.find? (fun g => g.2.1 == pkg && g.2.2 == die)).map (·.1)).getD 0

/-- A packet's line by its place, as a location / 512 (R37, R38). -/
def State.lineOf (s : State) (p : Packet) : Nat := if p.dpkg = s.pkgid then p.line else pkgLoc p.dpkg 0 / 512 + p.line

/-- The way that an access of a die to a location takes (R37, R38). -/
def State.wayOf (s : State) (src loc : Nat) : List Nat :=
  let die : BitVec 4 := BitVec.ofNat 4 (stackOf (loc % 2 ^ 56) / 2)
  let p : Packet := { (default : Packet) with dpkg := locPkg s loc, ddie := die, spkg := s.pkgid, sdie := BitVec.ofNat 4 src,
                                              addr := BitVec.ofNat 56 loc, vc := 0#3, typ := 4#8 }
  State.path 24 s (s.physDie src) p

/-- The route tables are computed anew: shortest ways to every package over the flooded adjacency, a lost id directed to the spare that
took it, and the on-package links that are up; lines whose path changed under a request not yet answered are held (R37, R38, R42,
R44). -/
def State.reroute (s : State) : State :=
  let found := s.reach.foldl (fun m e => SMap.put 0#32 m e.1.toNat e.2.1) ([] : SMap (BitVec 32))
  let routes := s.fab.aliases.foldl (fun m e => SMap.put 0#32 m e.1 (SMap.look 0#32 found e.2)) found
  let down := (s.fab.ports.map (·.1)).filter (fun j => decide (32 ≤ j) && !s.portLive j)
  let t : State := { s with fab := { s.fab with routes := routes, cut := down } }
  let moved := (s.fab.pending.filter (fun e =>
      let a := s.sourceNode e.packet.spkg e.packet.sdie.toNat
      State.path 24 s a e.packet != State.path 24 t a e.packet)).map (fun e => s.lineOf e.packet)
  let stores := (s.net.filter (fun w => !w.performed && !isBasin w.loc && s.wayOf w.src w.loc != t.wayOf w.src w.loc)).map (fun w => w.loc / 512)
  let hold (l : List (Nat × Nat)) (x : Nat) : List (Nat × Nat) := if l.any (fun e => e.1 == x) then l else enq l (x, s.lastId)
  { t with fab := { t.fab with heldLines := (moved ++ stores).foldl hold t.fab.heldLines } }

/-! ## Delivery (R43, R51, R54, R55, R60 to R62) -/

/-- The place of a transaction in the list of those not answered: its source, its tag, and for a base-die request the requester port (R51,
R62). -/
def State.txnKey (s : State) (pkg : BitVec 12) (die : Nat) (txn : BitVec 16) (base : Bool) (pa : Nat) : Nat :=
  (if pkg = s.pkgid then 0 else (pkg.toNat + 1) * 2 ^ 48) + (if base then (s.requester pa + 1) * 2 ^ 24 else 0) + die * 65536 + txn.toNat

/-- The key of a request. -/
def State.requestKey (s : State) (p : Packet) : Nat := s.txnKey p.spkg p.sdie.toNat p.txn p.baseForm p.pa

/-- The key of the request that a packet answers. -/
def State.replyKey (s : State) (p : Packet) : Nat := s.txnKey p.dpkg p.ddie.toNat p.txn p.ownDie p.pa

/-- The end of a transaction in the list of those not answered. -/
def State.dropPending (s : State) (key : Nat) : State :=
  { s with fab := { s.fab with pending := without s.fab.pending (fun e => e.key == key), resends := SMap.put 0 s.fab.resends key 0,
                               relays := without s.fab.relays (fun e => e.1 == key) } }

/-- An UNMAPPED response to a packet's source: one of this package hears of it at once (R43, R58). -/
def State.answerUnmapped (s : State) (p : Packet) : State :=
  if s.ownSource p then { s with inbox := enq s.inbox (.unmappedResponse p) } else s.send (.record "UNMAPPED" p.txn.toNat p.addr.toNat)

/-- Whether a router's group table accepts a collective packet: a valid entry, its job key, and the source among its members (R54). -/
def State.groupOk (s : State) (a : Nat) (p : Packet) : Bool :=
  (SMap.look [] s.fab.groupTables a).contains p.group.toNat &&
  (match s.group p.group with
    | some g => decide (1 ≤ p.len.toNat) && wordAt p.payload 0 == g.key && g.members.contains (p.spkg, p.sdie.toNat)
    | none => false)

/-- The unit that a packet reaches from a node in one more hop, if it is one that may be fenced (R105). -/
def State.fencedTarget (s : State) (a : Nat) (p : Packet) : Bool :=
  p.isRequest &&
  (match s.stopAt a p with
    | .unit n => n == a && (s.rcv.fenced.contains (.dieShared n) || s.rcv.fenced.contains (.core n ((s.pdie n).core (p.addr.toNat / 2 ^ 50))))
    | .base h => s.rcv.fenced.contains (.stack h)
    | _ => false)

/-- The event that a request is at its base die, by its TYPE and OPX (Table 3.2); a form that is not listed is answered there. -/
def baseEvent (h : Nat) (p : Packet) : Instr :=
  if p.typ = 4#8 then .writeMasked h p
  else if p.typ = 8#8 then .shipRoutine h p
  else if p.typ = 3#8 then
    match p.opx.toNat / 16 with
    | 1 => .victimWrite h p
    | 2 => .overflowFlush h p
    | 3 => .overflowDiscard h p
    | 4 => .stitchWrite h p none
    | _ => .baseDieWrite h p
  else .baseDieRead h p []

/-- A whole packet without CRC error reaches the die it is for: a reply ends its transaction; what this package's units do with the packet
is a happening of its own, and a packet for a weir or a context's reply is delivered as it is.  A SHIP of another die or package goes on
to the base die as a request of the home slice (R61, Table 2.5). -/
def State.hand (s : State) (a : Nat) (cv : Option Packet) (p : Packet) : State :=
  let ev (t : State) (i : Instr) : State := { t with inbox := enq t.inbox i }
  match p.typ.toNat with
  | 0x01 => ev s (.crossDieReadPerform (.packet cv p))
  | 0x03 => ev s (.homeWrite cv p)
  | 0x04 => ev s (.homeWrite cv p)
  | 0x06 => ev s (.homeAtomic cv p)
  | 0x0A => ev s (.homeCntdec cv p)
  | 0x0E => ev s (.stitchDeltaReceive (p.group.setWidth 16) p)
  | 0x0F => ev (s.dropPending (s.replyKey p)) (.stitchAckReceive p.ddie.toNat (p.txn.toNat / 256 % 64) (p.txn.toNat % 256) p.spkg)
  | 0x10 => ev s (.e2eNak p)
  | 0x11 => ev s (.completionAnnouncement p.ddie.toNat p)
  | 0x08 =>
    if stackOf p.pa / 2 = p.ddie.toNat then
      let q : Packet := { p with group := 0#32, cvp := false, spkg := s.pkgid, sdie := p.ddie, dpkg := s.pkgid, vc := 0#3,
                                 txn := BitVec.ofNat 16 (p.addr.toNat / 2 ^ 50 * 256) }
      ev { s with fab := { s.fab with relays := enq s.fab.relays (0, p) } } (.routePacket a q none)
    else s.answerUnmapped p
  | 0x0B => s.send (.deliver a cv p)
  | 0x0D => s.send (.deliver a cv p)
  | _ =>
    if p.ownDie then ev s (.requesterReply p) else (s.dropPending (s.replyKey p)).send (.deliver a cv p)

/-- A collective packet that a router does not accept: COLL_REJ to its source and a record to the supervisor; a COLL_REJ is dropped
(R55). -/
def collReply (p : Packet) : Option Packet := if p.typ = 0x0D#8 then none else some p.reject.sealed

/-- The answer of a package in STACKS_SHORT to a MAINT packet of a peer: its boot status, in the first byte of the payload (R18). -/
def probeAnswer (p : Packet) (boot : BitVec 8) : Packet := (p.back 0x12#8 (boot :: List.replicate 31 0#8)).sealed

/-- A packet stands whole at a node (R43, R49, R51, R54, R60): a router checks a collective's group, forwards it with its CVEC packet next to
it on the port and channel set that the tables give, or delivers it after the end-to-end check.  A bad request is answered E2E_NAK, a bad
reply makes the requester ask again at most twice, and any other bad packet is dropped without an answer.  A MAINT packet with no way is
dropped; any other is answered UNMAPPED.  The first argument bounds the resends and rejections within one call. -/
def State.enterNode : Nat → State → Nat → Option Packet → Packet → State
  | 0, s, _, _, _ => s
  | k + 1, s, a, cv, p =>
    if p.collective && a < 20 && !s.groupOk a p then
      match collReply p with
      | some r => State.enterNode k (s.send (.record "rejected contribution" p.group.toNat p.txn.toNat)) a none r
      | none => s
    else if a < 20 && s.fencedTarget a p then { s with fab := { s.fab with parked := enq s.fab.parked (a, none, cv, p) } }
    else match s.hop a p with
      | .port j =>
        let vc : BitVec 3 := (p.vc &&& 3#3) ||| (if Config.vcSet a j then 4#3 else 0#3)
        let t := match cv with
          | some v => s.transmit j { v with vc := vc }
          | none => s
        t.transmit j { p with vc := vc }
      | .lost => if p.maint then s else s.answerUnmapped p
      | .deliver =>
        if p.maint then
          let t := s.send (.deliver a none p)
          if s.pkg.boot = 0x83#8 then State.enterNode k t a none (probeAnswer p s.pkg.boot) else t
        else if p.ecrc = p.endCrc then s.hand a cv p
        else if p.isRequest then State.enterNode k s a none (p.back 0x10#8 []).sealed
        else if p.isReply then
          match s.fab.pending.find? (fun e => e.key == s.replyKey p) with
          | none => s
          | some r =>
            let n := SMap.look 0 s.fab.resends r.key
            if 2 ≤ n then { s with inbox := enq s.inbox (.unmappedResponse r.packet) }
            else State.enterNode k { s with fab := { s.fab with resends := SMap.put 0 s.fab.resends r.key (n + 1) } } a none r.packet
        else s

/-- A packet enters the fabric at a node: during a die-map change it waits, unless it is a MAINT packet; a request of this package joins the
list of those not answered, or waits while its line's path changes (R38, R44, R51). -/
def State.inject (s : State) (a : Nat) (owner : Option CtxId) (cv : Option Packet) (p : Packet) : State :=
  if s.fab.change.isSome && !p.maint then { s with fab := { s.fab with parked := enq s.fab.parked (a, owner, cv, p) } }
  else if s.ownSource p && p.isRequest then
    if s.fab.heldLines.any (fun e => e.1 == s.lineOf p) then { s with fab := { s.fab with heldPackets := enq s.fab.heldPackets (a, owner, cv, p) } }
    else
      let key := s.requestKey p
      let c := owner.or ((s.fab.pending.find? (fun e => e.key == key)).bind (·.owner))
      State.enterNode 4 { s with fab := { s.fab with pending := enq (without s.fab.pending (fun e => e.key == key)) ⟨key, p, c⟩ } } a cv p
  else State.enterNode 4 s a cv p

/-- The SHIP requests that slices pass on, once one of them has its own request: the first with its block and payload that has none yet
(R61). -/
def State.claimRelay (s : State) (q : Packet) : List (Nat × Packet) :=
  match (if q.typ = 8#8 then s.fab.relays.find? (fun e => e.1 == 0 && e.2.pa == q.pa && e.2.payload == q.payload) else none) with
  | some e => enq (s.fab.relays.erase e) (s.requestKey q, e.2)
  | none => s.fab.relays

/-- A base-die request of a slice takes the lowest free tag of its requester port, or waits for one; while the stack's STKMAP entry changes it
waits too (R44, R61, R62). -/
def State.sendBase (s : State) (a : Nat) (owner : Option CtxId) (p : Packet) : State :=
  let slice := p.txn.toNat / 256
  let port := s.requester p.pa
  let waits := s.fab.heldStacks.contains (stackOf p.pa)
    || s.fab.tagWait.any (fun e => decide (e.2.2.txn.toNat / 256 = slice) && decide (s.requester e.2.2.pa = port))
  match (if waits then none else s.freeTag slice port) with
  | none => { s with fab := { s.fab with tagWait := enq s.fab.tagWait (a, owner, p) } }
  | some k =>
    let q : Packet := { p with txn := BitVec.ofNat 16 (slice * 256 + k) }
    let t : State := { s with fab := { s.fab with tags := enq s.fab.tags (slice, port, k), relays := s.claimRelay q } }
    t.inject a owner none q.sealed

/-- Base-die requests that waited for a tag are tried again, in order (R62). -/
def State.drainTags (s : State) : State :=
  s.fab.tagWait.foldl (fun t e => t.sendBase e.1 e.2.1 e.2.2) { s with fab := { s.fab with tagWait := [] } }

/-- The reply to a base-die request has reached its slice: the tag is free and the transaction over (R62). -/
def State.freeBase (s : State) (p : Packet) (key : Nat) : State :=
  let tag := (p.txn.toNat / 256, s.requester p.pa, p.txn.toNat % 8)
  let t := s.dropPending key
  ({ t with fab := { t.fab with tags := without t.fab.tags (· == tag) } } : State).drainTags

/-- Packets that waited for the end of a die-map change, or at a fenced unit, go on, in order (R44, R105). -/
def State.unpark (s : State) : State :=
  s.fab.parked.foldl (fun t e => t.inject e.1 e.2.1 e.2.2.1 e.2.2.2) { s with fab := { s.fab with parked := [] } }

/-- ROUTE_PACKET: a source at a router sends a packet, for a context where it is one's (R43, R44, R48, R51, R60 to R63).  A CVEC packet waits
for the packet it precedes.  Only slices of the stack's home die send base-die requests. -/
def execRoutePacket (router : Nat) (p : Packet) (owner : Option CtxId) (s : State) : Res :=
  let j := localEnd router
  if 20 ≤ router then .next s
  else if !p.wellTyped then .next (s.tellFault (if router < 18 then .dieShared router else .serviceProcessor (router - 18)) .droppedPacket)
  else if p.typ = 0x11#8 && p.opx = 0#7 then
    .next (s.onPort j (fun q => { q with cvec := SMap.put none q.cvec (p.vc.toNat % 4) (some p.sealed) }))
  else if p.baseForm then
    if p.sdie.toNat ≠ stackOf p.pa / 2 then .next s
    else .next (p.split.foldl (fun t q => t.sendBase router owner q) s)
  else
    let cv := if p.cvp then SMap.look none (s.port j).cvec (p.vc.toNat % 4) else none
    let t := s.onPort j (fun q => { q with cvec := SMap.put none q.cvec (p.vc.toNat % 4) none })
    .next (t.inject router owner cv p.sealed)

/-- UNMAPPED_RESPONSE to a request of this package, or the third failure of its reply: an end-to-end failure that cannot be replayed, in
the context it was issued for (R43, R51). -/
def execUnmappedResponse (p : Packet) (s : State) : Res :=
  let key := s.requestKey p
  match s.fab.pending.find? (fun e => e.key == key) with
  | none => .next s
  | some r =>
    let s1 := if p.baseForm then s.freeBase p key else s.dropPending key
    let s2 := match s.fab.relays.find? (fun e => e.1 == key) with
      | some q => s1.answerUnmapped q.2
      | none => s1
    match r.owner with
    | some c => s2.failIn c
    | none => .next s2

/-- ROUTE_HOLD_RELEASE: every request sent on the line's old path has been answered, and those held go on, in order (R38). -/
def execRouteHoldRelease (line : Nat) (s : State) : Res :=
  match s.fab.heldLines.find? (fun e => e.1 == line) with
  | none => .next s
  | some h =>
    if s.fab.pending.any (fun e => s.lineOf e.packet == line) || s.net.any (fun w => decide (w.loc / 512 = line) && decide (w.id ≤ h.2)) then .next s
    else
      let mine := s.fab.heldPackets.filter (fun e => s.lineOf e.2.2.2 == line)
      let t : State := { s with fab := { s.fab with heldLines := without s.fab.heldLines (fun e => e.1 == line),
                                                    heldPackets := without s.fab.heldPackets (fun e => s.lineOf e.2.2.2 == line) } }
      .next ((mine.foldl (fun u e => u.inject e.1 e.2.1 e.2.2.1 e.2.2.2) t).wakeWhy (.route line))

/-! ## Hop protection (R42, R44, R48 to R50, R54) -/

/-- The receiver acknowledges what it has accepted (R50). -/
def State.ackBack (s : State) (j : Nat) : State :=
  (s.onPort j (fun q => { q with unacked := 0 })).control j 0 ((s.port j).expect - 1#16).toNat

/-- A packet without hop error is whole at the node of its port; a CVEC packet waits there for the packet it precedes, and the two go on
together (R48, R49).  What reaches a base die is a happening there (R60). -/
def State.arrive (s : State) (j : Nat) (p : Packet) : State :=
  let a := portNode j
  if p.typ = 0x11#8 && p.opx = 0#7 then s.onPort j (fun q => { q with cvec := SMap.put none q.cvec (p.vc.toNat % 4) (some p) })
  else
    let cv := if p.cvp then SMap.look none (s.port j).cvec (p.vc.toNat % 4) else none
    let t := if p.cvp then s.onPort j (fun q => { q with cvec := SMap.put none q.cvec (p.vc.toNat % 4) none }) else s
    if 20 ≤ a then { t with inbox := enq t.inbox (baseEvent (a - 20) p) }
    else if j < 32 && t.fab.change.isSome && !p.maint then { t with fab := { t.fab with parked := enq t.fab.parked (a, none, cv, p) } }
    else State.enterNode 4 t a cv p

/-- A packet that a port has accepted goes into the package: its credit is returned or withheld, a bad TYPE or LEN is dropped and counted,
and a package without an id takes only MAINT (R42, R44, R48). -/
def State.grantIn (s : State) (j : Nat) (p : Packet) : State :=
  let s1 := if (s.port j).withhold && p.vc.toNat % 4 ≠ 3 then s.onPort j (fun q => { q with owed := enq q.owed p.vc })
    else s.control j 3 p.vc.toNat
  if !p.wellTyped then
    (s1.onPort j (fun q => { q with hcrcf := min (q.hcrcf + 1) 0xFFFF })).tellFault (.portDir j true) .droppedPacket
  else if j < 32 && s.pkgid = 0xFFF#12 && !p.maint then s1
  else s1.arrive j p

/-- HOP_PACKET_RECEIVE (R49, R50): on-package receivers acknowledge each packet at once, chip-to-chip ports after 32. -/
def execHopPacketReceive (port : Nat) (p : Packet) (s : State) : Res :=
  let q := s.port port
  if q.rx.state < 2 then .next s
  else if p.hcrc ≠ p.hopCrc then
    if q.recovery then .next s
    else
      let t := s.onPort port (fun x => { x with hcrcf := min (x.hcrcf + 1) 0xFFFF, recovery := true })
      .next ((t.control port 1 q.expect.toNat).faultEvent (.portDir port true) .linkCrc)
  else if p.hseq ≠ q.expect then .next s
  else
    let s1 := s.onPort port (fun x => { x with expect := x.expect + 1#16, recovery := false, unacked := x.unacked + 1 })
    let s2 := s1.ackPort port p.hack
    let s3 := if 32 ≤ (s2.port port).unacked || 32 ≤ port then s2.ackBack port else s2
    .next (s3.grantIn port p)

/-- RECOVERY_NAK_TIMEOUT (R50). -/
def execRecoveryNakTimeout (port : Nat) (s : State) : Res :=
  if (s.port port).recovery then .next (s.control port 1 (s.port port).expect.toNat) else .next s

/-- HOP_ACK_TIMER (R50). -/
def execHopAckTimer (port : Nat) (s : State) : Res := .next (if 0 < (s.port port).unacked then s.ackBack port else s)

/-- ACK_RECEIVED (R50). -/
def execAckReceived (port : Nat) (hack : BitVec 16) (s : State) : Res := .next (s.ackPort port hack)

/-- NAK_RECEIVED (R50). -/
def execNakReceived (port : Nat) (hseq : BitVec 16) (s : State) : Res :=
  if (s.port port).tx.state = 0 then .next s
  else match (s.port port).buffer.findIdx? (fun e => e.1.hseq == hseq) with
    | none => .next s
    | some i => .next (s.replayPort port i)

/-- REPLAY_TIMEOUT (R50). -/
def execReplayTimeout (port : Nat) (s : State) : Res :=
  if (s.port port).buffer.isEmpty || (s.port port).tx.state < 2 then .next s else .next (s.replayPort port 0)

/-- E2E_NAK: the request it answers is resent from the source's copy at most twice; a third failure cannot be replayed (R51). -/
def execE2eNak (p : Packet) (s : State) : Res :=
  match s.fab.pending.find? (fun e => e.key == s.replyKey p) with
  | none => .next s
  | some r =>
    let n := SMap.look 0 s.fab.resends r.key
    if 2 ≤ n then execUnmappedResponse r.packet s
    else .next (State.enterNode 4 { s with fab := { s.fab with resends := SMap.put 0 s.fab.resends r.key (n + 1) } }
      (s.sourceNode r.packet.spkg r.packet.sdie.toNat) none r.packet)

/-! ## Greetings and adjacency (R42) -/

/-- The device identity key pair: its private and its public half (R28). -/
def State.identity (s : State) : Nat × BitVec 776 :=
  let d := Config.identityKey s.pkg.fuse0.seed
  (d, publicKey d)

/-- The entry of the fabric configuration for an identity key (R42). -/
def State.fabEntry (s : State) (pub : BitVec 776) : Option FabEntry :=
  let h := sha384 (keyBytes pub)
  s.pkg.config.fabric.find? (fun e => e.keyHash == h)

/-- What both ends sign: the signer's nonce and then the other end's. -/
def nonceBytes (own far : BitVec 256) : List Byte := bytesBE 32 own.toNat ++ bytesBE 32 far.toNat

/-- A greeting of this package on a port, with the signature given (R42). -/
def State.greeting (s : State) (j : Nat) (sig : List Byte) : Greeting :=
  { pkg := s.pkgid, port := j, nonce := (s.port j).nonce, pub := s.identity.2, certSig := Config.certSig s.pkg.fuse0.seed, sig := sig }

/-- A port has come up: a nonce is drawn and the far end greeted (R42). -/
def State.greet (s : State) (j : Nat) : State :=
  let n := Config.nonce s.pkg.nonces
  let t := { s with pkg := { s.pkg with nonces := s.pkg.nonces + 1 } }.onPort j (fun q => { q with nonce := n })
  t.send (.greeting j (t.greeting j []))

/-- Whether a far end's greeting holds: Melran's certificate of its key, its signature over both nonces, and the package id that the fabric
configuration gives that key; a key without an entry has no id (R28, R42). -/
def State.greetingOk (s : State) (j : Nat) (g : Greeting) : Bool :=
  ecdsaVerify Config.melranKey (keyBytes g.pub) g.certSig && ecdsaVerify g.pub (nonceBytes g.nonce (s.port j).nonce) g.sig
    && g.pkg == ((s.fabEntry g.pub).map (·.id)).getD 0xFFF#12

/-- MAINT_GREETING: a greeting that bears a nonce alone is answered with the signature over both; a signed one makes the far end known, or
brings the port DOWN (R42). -/
def execMaintGreeting (port : Nat) (g : Greeting) (s : State) : Res :=
  if 32 ≤ port || !s.portLive port then .next s
  else if g.sig = [] then
    let sig := ecdsaSign s.identity.1 (Config.secret s.pkg.nonces) (nonceBytes (s.port port).nonce g.nonce)
    let t : State := { s with pkg := { s.pkg with nonces := s.pkg.nonces + 1 } }
    .next (t.send (.greeting port (t.greeting port sig)))
  else if s.greetingOk port g then .next ((s.onPort port (fun q => { q with far := some (g.pkg, g.port) })).flood.reroute)
  else .next ((s.portDown port true).portDown port false).reroute

/-- PORT_LIST_FLOOD: another package's list of live ports and far ends; a list that is news goes on to the others (R42). -/
def execPortListFlood (pkg : BitVec 12) (ports : List (Nat × BitVec 12 × Nat)) (s : State) : Res :=
  if pkg = s.pkgid || SMap.look [] s.fab.floods pkg.toNat = ports then .next s
  else .next (({ s with fab := { s.fab with floods := SMap.put [] s.fab.floods pkg.toNat ports } } : State).send (.portList pkg ports)).reroute

/-- PORT_LIST_FLOOD_TIMER (R42). -/
def execPortListFloodTimer (s : State) : Res := .next s.flood

/-! ## Lanes, training, port loss (R46, R52, R67, R96) -/

/-- LANE_LOCK_TIMEOUT (R52). -/
def execLaneLockTimeout (port lane : Nat) (s : State) : Res :=
  if port < 32 ∧ 2 ≤ (s.port port).rx.state ∧ lane < 16 then .next (s.laneFailed port lane) else .next s

/-- LANE_FAIL: the transmitter trains towards the receiver's target, or goes DOWN (R52). -/
def execLaneFail (port : Nat) (mask : BitVec 16) (target : BitVec 4) (s : State) : Res :=
  if (s.port port).tx.state < 2 then .next s
  else
    let t := s.onDir port false (fun d => { d with failed := mask })
    if target = 0#4 then .next (t.portDown port false) else .next (t.onDir port false (fun d => { d with state := 1, target := target.toNat })).flood

/-- TRAIN_COMPLETE: the direction enters its target state; the transmitter resends what is not acknowledged and goes on; a chip-to-chip port
that is up again has its retry of R96 anew, and one whose far end is not known is greeted (R42, R52, R96). -/
def execTrainComplete (port : Nat) (rx : Bool) (s : State) : Res :=
  let d := if rx then (s.port port).rx else (s.port port).tx
  if d.state ≠ 1 then .next s
  else
    let s1 := s.onDir port rx (fun d => { d with state := d.target })
    let up := 2 ≤ (s1.port port).rx.state && 2 ≤ (s1.port port).tx.state
    let s2 := if up then s1.onPort port (fun q => { q with retried := false }) else s1
    let s3 := if port < 32 && up && (s2.port port).far.isNone then s2.greet port else s2
    let s4 := if rx then s3 else (s3.resendFrom port 0).drainPort port
    .next (s4.flood.reroute)

/-- TRAIN_TIMEOUT (Table 2.6). -/
def execTrainTimeout (port : Nat) (rx : Bool) (s : State) : Res :=
  let d := if rx then (s.port port).rx else (s.port port).tx
  if d.state = 1 then .next (s.portDown port rx) else .next s

/-- Both ends of a port lose what they hold. -/
def State.clearPort (s : State) (j : Nat) : State :=
  let f (q : PortSt) : PortSt := { q with buffer := [], stalled := [], cvec := [] }
  let t := s.onPort j f
  if j < 32 then t else t.onPort (farEnd j) f

/-- PORT_DOWN_REROUTE: the route tables are computed without a port of which a direction is DOWN; transactions cut off are resent on the new
route, those whose fate must not be guessed at fail in the contexts they were issued for, and packets that had not left yet take the
new route (R46, R51, R52, R67, R96). -/
def execPortDownReroute (port : Nat) (s : State) : Res :=
  if s.portLive port then .next s
  else
    let ends := if port < 32 then [port] else [port, farEnd port]
    let off := s.fab.pending.filter (fun e =>
      (State.path 24 s (s.sourceNode e.packet.spkg e.packet.sdie.toNat) e.packet).any (ends.contains ·))
    let left := ends.flatMap (fun j => (s.port j).stalled.map (fun p => (portNode j, p)))
    let s1 := ((s.clearPort port).flood).reroute
    let lost := (off.filter (fun e => e.packet.once)).map (fun e => Instr.unmappedResponse e.packet)
    let s2 : State := { s1 with inbox := s1.inbox ++ lost }
    let s3 := (off.filter (fun e => !e.packet.once)).foldl (fun t e =>
      State.enterNode 4 t (t.sourceNode e.packet.spkg e.packet.sdie.toNat) none e.packet) s2
    .next (((left.filter (fun e => !off.any (fun x => x.key == s.requestKey e.2))).foldl (fun t e => State.enterNode 4 t e.1 none e.2) s3).checkFar port)

/-- PORT_RETRAIN_RETRY: once after a port loss both ends are retrained whole, and the sequence numbers start anew; during a quiesce Asnor
retrains a port of less than full width the same way (R52, R96). -/
def execPortRetrainRetry (port : Nat) (s : State) : Res :=
  let q := s.port port
  let train (d : PortDir) : PortDir := { d with state := 1, target := 2, failed := 0#16 }
  if s.portLive port then
    if s.fab.change.isSome && (q.tx.state ≠ 2 || q.rx.state ≠ 2) then .next (s.onPort port (fun x => { x with tx := train x.tx, rx := train x.rx })).flood
    else .next s
  else if q.retried then .next s
  else
    let f (x : PortSt) : PortSt := { x with tx := train x.tx, rx := train x.rx, retried := true, nextSeq := 0#16, expect := 0#16, buffer := [],
                                            recovery := false, unacked := 0, far := none, cvec := [] }
    let t := s.onPort port f
    .next (if port < 32 then t else t.onPort (farEnd port) f).flood

/-! ## Credits and quiesce notices (R44) -/

/-- CREDIT_RETURN: credits of a virtual channel; what waited for them goes on (R44). -/
def execCreditReturn (port vc credits : Nat) (s : State) : Res :=
  if 8 ≤ vc then .next s
  else
    let t := s.onPort port (fun q => { q with credits := SMap.put 0 q.credits vc (SMap.look 0 q.credits vc + credits) })
    .next (({ t with rcv := { t.rcv with starved := without t.rcv.starved (fun j => j == port && decide (0 < credits)) } } : State).drainPort port)

/-- How long a port waits for credit, in microseconds: 10 ms, or the limit of a notice in force for its far package (R44). -/
def State.creditLimit (s : State) (port : Nat) : Nat :=
  match (s.port port).far with
  | some f => ((s.fab.notices.find? (fun e => e.1 == f.1.toNat)).map (fun e => min e.2 50000)).getD 10000
  | none => 10000

/-- CREDIT_TIMEOUT: packets have waited for credit beyond the limit: a port fault is counted (R44, R101). -/
def execCreditTimeout (port waitedUs : Nat) (s : State) : Res :=
  let q := s.port port
  if s.creditLimit port ≤ waitedUs ∧ q.stalled.any (fun p => SMap.look 0 q.credits p.vc.toNat == 0) then
    .next ((({ s with rcv := { s.rcv with starved := insNat s.rcv.starved port } } : State).faultEvent (.portDir port false) .credit).checkFar port)
  else .next s

/-- QUIESCE_NOTICE (R44). -/
def execQuiesceNotice (pkg : BitVec 12) (limitUs : Nat) (s : State) : Res :=
  .next { s with fab := { s.fab with notices := enq (without s.fab.notices (fun e => e.1 == pkg.toNat)) (pkg.toNat, limitUs) } }

/-- RESUME_NOTICE (R44). -/
def execResumeNotice (pkg : BitVec 12) (s : State) : Res :=
  .next { s with fab := { s.fab with notices := without s.fab.notices (fun e => e.1 == pkg.toNat) } }

/-! ## Change of the die map (R27, R44, R106, R107) -/

/-- Every write in flight is performed and acknowledged, in order, so that the fabric is empty (R44 step 2, R106). -/
def State.emptyNet (s : State) : State :=
  s.net.foldl (fun t w => (if w.performed || w.refused then t else t.performNet w).ackNet w) s

/-- The registers without the vectors that they keep (R106). -/
def Regs.rebased (r : Regs) : Regs := { r with joinVec := [] }

/-- A context without the vectors that it keeps (R106). -/
def Ctx.rebased (x : Ctx) : Ctx :=
  { x with r := x.r.rebased, bound := x.bound.map (fun t => { t with vec := [] }),
           wait := match x.wait with
             | .result r => .result r.rebased
             | w => w,
           ahead := x.ahead.map (fun a => { a with saved := a.saved.rebased }) }

/-- A weir group without the vectors that it keeps (R106). -/
def Group.rebased (g : Group) : Group :=
  { g with arrived := g.arrived.map (fun p => { p with vec := [] }),
           sending := g.sending.map (fun e => (e.1, { e.2 with vec := [] })),
           dies := g.dies.map (fun e => (e.1, { e.2 with partials := e.2.partials.map (fun p => { p with vec := [] }),
                                                         records := e.2.records.map (fun r => { r with vec := [] }) })) }

/-- The rebase of the causal vectors: every vector of the package, wherever it is kept, is zero, and the RDC is empty (R106). -/
def State.rebase (s : State) : State :=
  let task (t : TaskAttr) : TaskAttr := { t with vec := [] }
  { s with
    cx := s.cx.rebased,
    banks := (s.banks.map (fun e => (e.1, e.2.rebased))).filter (fun e => e.2 != {}),
    cores := (s.cores.map (fun e => (e.1, { e.2 with
      deque := e.2.deque.map task, overflow := e.2.overflow.map task,
      resume := e.2.resume.map (fun q => { q with task := task q.task, r := q.r.rebased }) }))).filter (fun e => e.2 != {}),
    dies := (s.dies.map (fun e => (e.1, { e.2 with
      n := 0#32, v := [], k := [], unacked := [], kSent := [], rdc := [], exported := [], foreign := [], young := [], strong := [], heard := [], monitors := [],
      ready := e.2.ready.map (fun q => (q.1, q.2.map task)),
      records := e.2.records.map (fun r => (r.1, r.2.map (fun d => { d with joinVec := [], snap := d.snap.rebased }))) }))).filter (fun e => e.2 != {}),
    counters := (s.counters.map (fun e => (e.1, { e.2 with vec := [], bound := e.2.bound.map task }))).filter (fun e => e.2 != {}),
    launches := s.launches.map (fun e => (e.1, e.2.map (fun l => { l with vec := [], outVec := [] }))),
    tenants := s.tenants.map (fun e => (e.1, e.2.map (fun t => { t with hostVec := [] }))),
    groups := s.groups.map (fun e => (e.1, e.2.map Group.rebased)) }

/-- The key under which a guest die's timebase is kept: its local physical number beyond the logical dies. -/
def guestKey (pdie : Nat) : Nat := 32 + pdie

/-- The GUEST entries of router 0: local physical die, package and logical die (R41, R44). -/
def State.guestEntries (s : State) : List (Nat × BitVec 12 × Nat) :=
  (List.range 16).filterMap (fun g =>
    let r : Word := (s.router 0 (0x100 + 4 * g)).setWidth 64
    if r.toNat.testBit 31 then some (r.toNat % 32, BitVec.ofNat 12 (bits r 27 16), bits r 15 12) else none)

/-- Write new map values into every router, advance MAPGEN, load the timebase of dies that realise foreign identities, and compute the route
tables anew (R27, R37, R44 step 4).  A spare that becomes a guest is a spare no more. -/
def State.writeMaps (s : State) (m : MapChange) : State :=
  let s1 := m.diemap.foldl (fun t e => t.setRouters (4 * (e.1 % 16)) e.2) s
  let s2 := m.stkmap.foldl (fun t e => t.setRouters (0x40 + 4 * (e.1 % 32)) e.2) s1
  let s3 := m.guest.foldl (fun t e => t.setRouters (0x100 + 4 * (e.1 % 16)) e.2) s2
  let s4 := match m.apkg with
    | some p => s3.setRouters 0xC4 (0x80000000#32 ||| p.setWidth 32)
    | none => s3
  let own := s4.guestEntries
  let s5 : State := { s4 with rcv := { s4.rcv with guests := own },
                              pkg := { s4.pkg with spareDies := without s4.pkg.spareDies (fun d => own.any (fun g => g.1 == d)) } }
  let s6 := own.foldl (fun t g => t.onPDie g.1 (fun d => { d with rail := true })) s5
  let s7 := m.loads.foldl (fun t e =>
    t.onDie (guestKey e.1) (fun d => { d with guestBase := some (e.2.1 + BitVec.ofNat 64 (e.2.2 + 2), t.cycle.toNat), lead := 0 })) s6
  s7.bumpMapgen.reroute

/-- The package resumes: withheld credits are returned, RESUME ends the notice, packets that waited go on, and the faults found meanwhile are
followed (R44 step 6, R107). -/
def State.resumePackage (s : State) : State :=
  let s1 := (List.range 32).foldl (fun t j =>
    ((t.port j).owed.foldl (fun u v => u.control j 3 v.toNat) t).onPort j (fun q => { q with withhold := false, owed := [] })) s
  let s2 := (List.range 16).foldl (fun t d => t.onDie d (fun x => { x with quiesced := false })) s1
  let faults := s2.fab.queuedFaults
  let doms := s2.fab.queuedDomains
  let s3 : State := { s2 with fab := { s2.fab with change := none, queuedFaults := [], queuedDomains := [] } }
  let s4 := (s3.links.map (·.2.1)).eraseDups.foldl (fun t q => t.send (.maint "RESUME" q.toNat)) s3
  let s5 := faults.foldl (fun t u => t.propose u.1 u.2 (t.rcv.sps.headD 0)) s4.unpark
  doms.foldl (fun t d => t.domainFault d.1 d.2.1 d.2.2) s5

/-- Whether every router of the package is empty: nothing waits or is on its way on an on-package link, and nothing but MAINT waits at a
chip-to-chip port (R44 step 2). -/
def State.drained (s : State) : Bool :=
  s.fab.ports.all (fun e =>
    if e.1 < 32 then e.2.stalled.all (·.maint) else e.2.stalled.isEmpty && e.2.buffer.isEmpty)
  && s.inbox.all (fun i => match i with
    | .hopPacketReceive j _ => decide (j < 32)
    | _ => true)

/-- The package is quiesced for a change: notices to its neighbours, spouts and engines stopped, credits withheld (R44 steps 2, 3). -/
def State.startChange (s : State) (m : MapChange) : State :=
  let s1 := ((s.links.map (·.2.1)).eraseDups.foldl (fun t q => t.send (.quiesce q 50000)) s).emptyNet
  let s2 := (List.range 16).foldl (fun t d => t.onDie d (fun x => { x with quiesced := true })) s1
  let s3 := (List.range 32).foldl (fun t j => t.onPort j (fun q => { q with withhold := true })) s2
  { s3 with fab := { s3.fab with change := some m } }

/-- Steps 4 to 6 of a change: maps, rebase, resume (R44, R106). -/
def State.endChange (s : State) (m : MapChange) : State :=
  (((s.writeMaps m).rebase).loseMonitors (fun _ m => !isBasin (m.sector * 128))).resumePackage

/-- A change of STKMAP entries alone: the home die's slices hold new requests to the stack until those sent are answered; then the entries
are written (R44). -/
def State.changeStacks (s : State) (m : MapChange) (ok : Bool) : State :=
  let l := m.stkmap.map (fun e => e.1 % 32)
  let s1 : State := { s with fab := { s.fab with heldStacks := l.foldl insNat s.fab.heldStacks } }
  if s1.fab.pending.any (fun r => r.packet.baseForm && l.contains (stackOf r.packet.pa)) || !ok then s1
  else
    let s2 := s1.writeMaps m
    let s3 := ({ s2 with fab := { s2.fab with heldStacks := without s2.fab.heldStacks (l.contains ·) } } : State).drainTags
    s3.wakeAll (fun _ w => match w with
      | .retry (.baseDie _) => true
      | _ => false)

end Sys2Proof.Machine
end

