-- ==== Sys2Proof/Machine/Imm.lean ====
section
/-! DEFINITION. Integer immediate instructions: majors 0x04 to 0x0D (R309, R310, Table 11.2). -/

namespace Sys2Proof.Machine

/-- I of Table 11.2: the immediate, sign-extended and widened by IMMX (R274). -/
def State.immI (s : State) (i : BitVec 15) : Int := s.cx.r.imm 15 i


/-- ADDI: s[d] := A + I (R309, R310). -/
def execAddi (d a : RegNo) (i : BitVec 15) (s : State) : Res :=
  s.alu (Enc.addi d a i) d (fun s => s.res64 ((s.rd a).toInt + s.immI i))

/-- ANDI: s[d] := A AND I (R309, R310). -/
def execAndi (d a : RegNo) (i : BitVec 15) (s : State) : Res :=
  s.alu (Enc.andi d a i) d (fun s => s.rd a &&& wordI (s.immI i))

/-- ORI: s[d] := A OR I (R309, R310). -/
def execOri (d a : RegNo) (i : BitVec 15) (s : State) : Res :=
  s.alu (Enc.ori d a i) d (fun s => s.rd a ||| wordI (s.immI i))

/-- XORI: s[d] := A XOR I (R309, R310). -/
def execXori (d a : RegNo) (i : BitVec 15) (s : State) : Res :=
  s.alu (Enc.xori d a i) d (fun s => s.rd a ^^^ wordI (s.immI i))

/-- SLTI: s[d] := 1 if A < I signed (R309, R310). -/
def execSlti (d a : RegNo) (i : BitVec 15) (s : State) : Res :=
  s.alu (Enc.slti d a i) d (fun s => boolWord (decide ((s.rd a).toInt < s.immI i)))

/-- SLTIU: s[d] := 1 if A < I unsigned (R309, R310). -/
def execSltiu (d a : RegNo) (i : BitVec 15) (s : State) : Res :=
  s.alu (Enc.sltiu d a i) d (fun s => boolWord ((s.rd a).ult (wordI (s.immI i))))

/-- ADDIW: s[d] := sext((A + I)[31:0], 32) (R309, R310). -/
def execAddiw (d a : RegNo) (i : BitVec 15) (s : State) : Res :=
  s.alu (Enc.addiw d a i) d (fun s => s.res32 ((s.rdW a).toInt + s.immI i))

/-- SLLI: s[d] := A shifted left by imm[5:0] (R309, R310). -/
def execSlli (d a : RegNo) (n : BitVec 6) (s : State) : Res :=
  s.alu (Enc.slli d a n) d (fun s => s.rd a <<< n.toNat)

/-- SRLI: s[d] := A shifted right, zeros in by imm[5:0] (R309, R310). -/
def execSrli (d a : RegNo) (n : BitVec 6) (s : State) : Res :=
  s.alu (Enc.srli d a n) d (fun s => s.rd a >>> n.toNat)

/-- SRAI: s[d] := A shifted right, sign in by imm[5:0] (R309, R310). -/
def execSrai (d a : RegNo) (n : BitVec 6) (s : State) : Res :=
  s.alu (Enc.srai d a n) d (fun s => (s.rd a).sshiftRight n.toNat)

/-- RORI: s[d] := A rotated right by imm[5:0] (R309, R310). -/
def execRori (d a : RegNo) (n : BitVec 6) (s : State) : Res :=
  s.alu (Enc.rori d a n) d (fun s => (s.rd a).rotateRight n.toNat)

/-- MOVI: s[d] := I (R309). -/
def execMovi (d : RegNo) (i : BitVec 15) (s : State) : Res := s.alu (Enc.movi d i) d (fun s => wordI (s.immI i))

/-- ADDPC: s[d] := pc + I, pc the address of the ADDPC word (R273, R309). -/
def execAddpc (d : RegNo) (i : BitVec 15) (s : State) : Res :=
  s.alu (Enc.addpc d i) d (fun s => s.cx.r.pc + wordI (s.immI i))

end Sys2Proof.Machine
end

