-- ==== Sys2Proof/Machine/Routine.lean ====
section
/-! DEFINITION. The routine processor of a base die: which words a routine may hold, and running a routine on a 64-byte block
(R74 to R78). -/

namespace Sys2Proof.Machine

/-- A pending IMMX of a routine (R75, R76). -/
def routineImmx (p : BitVec 22) (s : State) : Res :=
  .next (s.setR { s.cx.r with pc := s.cx.r.pc + 4#64, hints := enq s.cx.r.hints ⟨0#3, p, s.cx.r.pc⟩ })

/-- What a word does in a routine: majors 0x00, 0x01, 0x02 and 0x04 to 0x0D other than ADDPC, and IMMX, with their fields
valid; none for any other word (R75, Tables 11.1 and 11.2). -/
def routineWord (w : IWord) : Option (State → Res) :=
  let op := w.toNat / 2 ^ 25
  let d := fld w 20 5
  let a := fld w 15 5
  let b := fld w 10 5
  let i := fld w 0 15
  let sh := fld w 0 6
  match op with
  | 0x00 =>
    match w.toNat % 1024 with
    | 1 => some (execAdd d a b)
    | 2 => some (execSub d a b)
    | 3 => some (execAnd d a b)
    | 4 => some (execOr d a b)
    | 5 => some (execXor d a b)
    | 6 => some (execAndn d a b)
    | 7 => some (execSll d a b)
    | 8 => some (execSrl d a b)
    | 9 => some (execSra d a b)
    | 10 => some (execRol d a b)
    | 11 => some (execRor d a b)
    | 12 => some (execSlt d a b)
    | 13 => some (execSltu d a b)
    | 14 => some (execMin d a b)
    | 15 => some (execMax d a b)
    | 16 => some (execMinu d a b)
    | 17 => some (execMaxu d a b)
    | 18 => if b = 0#5 then some (execClz d a) else none
    | 19 => if b = 0#5 then some (execCtz d a) else none
    | 20 => if b = 0#5 then some (execPopc d a) else none
    | 21 => if b = 0#5 then some (execSextb d a) else none
    | 22 => if b = 0#5 then some (execSexth d a) else none
    | 23 => if b = 0#5 then some (execSextw d a) else none
    | 24 => if b = 0#5 then some (execZextw d a) else none
    | _ => none
  | 0x01 =>
    match w.toNat % 1024 with
    | 1 => some (execAddw d a b)
    | 2 => some (execSubw d a b)
    | 3 => some (execSllw d a b)
    | 4 => some (execSrlw d a b)
    | 5 => some (execSraw d a b)
    | 6 => some (execMulw d a b)
    | _ => none
  | 0x02 =>
    match w.toNat % 1024 with
    | 1 => some (execMul d a b)
    | 2 => some (execMulh d a b)
    | 3 => some (execMulhu d a b)
    | 4 => some (execMulhsu d a b)
    | 5 => some (execDiv d a b)
    | 6 => some (execDivu d a b)
    | 7 => some (execRem d a b)
    | 8 => some (execRemu d a b)
    | 517 => some (execDivw d a b)
    | 518 => some (execDivuw d a b)
    | 519 => some (execRemw d a b)
    | 520 => some (execRemuw d a b)
    | _ => none
  | 0x04 => some (execAddi d a i)
  | 0x05 => some (execAndi d a i)
  | 0x06 => some (execOri d a i)
  | 0x07 => some (execXori d a i)
  | 0x08 => some (execSlti d a i)
  | 0x09 => some (execSltiu d a i)
  | 0x0D => some (execAddiw d a i)
  | 0x0A =>
    if fld w 6 6 ≠ 0#6 then none
    else match (fld w 12 3).toNat with
      | 0 => some (execSlli d a sh)
      | 1 => some (execSrli d a sh)
      | 2 => some (execSrai d a sh)
      | 3 => some (execRori d a sh)
      | _ => none
  | 0x0B => if a = 0#5 then some (execMovi d i) else none
  | 0x7F => if fld w 22 3 = 0#3 then some (routineImmx (fld w 0 22)) else none
  | _ => none

/-- Run instruction words in order. -/
def runWords : List IWord → State → State
  | [], s => s
  | w :: t, s =>
    match routineWord w with
    | none => s
    | some f =>
      match f s with
      | .next u => runWords t u
      | _ => s

/-- A routine on a block: operands, offset in the block, its eight words; the reply and the words it leaves (R76). -/
def routineRun (r : Routine) (op0 op1 : Word) (off : Nat) (block : List Word) : Word × List Word :=
  let r0 : Regs := ((({} : Regs).set 4#5 op0).set 5#5 op1).set 6#5 (BitVec.ofNat 64 off)
  let r1 := (List.range 8).foldl (fun r i => r.set (BitVec.ofNat 5 (16 + i)) (block.getD i 0#64)) r0
  let s := runWords (r.words.take r.count.toNat) { ({} : State) with cx := { r := r1, st := .run } }
  (s.cx.r.get 4#5, if r.wb then (List.range 8).map (fun i => s.cx.r.get (BitVec.ofNat 5 (16 + i))) else block)

/-- SHIP at a base die (R76): status 0 OK, 1 NOROUTINE, 2 POISON; the reply; the block's bytes if it is written back. -/
def State.shipAt (s : State) (h loc : Nat) (op0 op1 : Word) (index : Nat) : Nat × Word × Option (List Byte) :=
  let b := loc / 64 * 64
  let r := SMap.look {} (s.stack h).routines index
  if s.poisoned b 64 then (2, 0#64, none)
  else if !r.valid then (1, 0#64, none)
  else
    let ws := (List.range 8).map (fun i => (BitVec.ofNat 64 (s.natAtLoc (b + 8 * i) 8) : Word))
    let q := routineRun r op0 op1 (loc % 64) ws
    (0, q.1, if r.wb then some (q.2.flatMap (fun w => bytesLE 8 w.toNat)) else none)

end Sys2Proof.Machine
end

