-- ==== Sys2Proof/Machine/Ship.lean ====
section
/-! DEFINITION. SHIP, major 0x30 (R76, R217, R220, R222, R234, R328). -/

namespace Sys2Proof.Machine

/-- SHIP performed at the home of a location, a causal write when the home is another die (R218, R220, R222). -/
def State.shipHome (s : State) (x : Access) (op0 op1 : Word) (index : Nat) : Nat × Word × State :=
  let h := s.physStack (stackOf (x.loc % 2 ^ 56))
  let q := s.shipAt h x.loc op0 op1 index
  let b := x.loc / 64 * 64
  let put (t : State) (f : WriteFrom) : State := match q.2.2 with
    | some l => t.applyWrite b l x.slice f
    | none => t
  match homeDie x.loc with
  | none => (q.1, q.2.1, put s .local)
  | some d =>
    if d = s.cur.die then (q.1, q.2.1, put (s.ownRead d x.slice b 64 0) .local)
    else
      let nb := s.bump s.cur.die
      let rsp := (s.die d).liveYoung.foldl (fun v y => if (sectorsOf b 64).contains y.sector then raiseVec v y.src y.num else v) (s.die d).k
      (q.1, q.2.1, ((put ((nb.2.retireYoung d).sliceRead d x.slice b 64 0) (.die s.cur.die nb.1)).acked s.cur.die nb.1).mergeV s.cur.die rsp)

/-- SHIP: runs a routine of the routine table on a SHIP page's block; status 1 traps ILLEGAL_INSTRUCTION, status 2 consumes
poison (R328). -/
def execShip (d a b : RegNo) (i : BitVec 10) (s : State) : Res :=
  let w := Enc.ship d a b i
  s.issue w true (fun s =>
    let va := s.rd a
    if !alignedTo va 8 then s.trap w 0x03#8 va true
    else s.withAccess w .wr va (fun s => s.trap w 0x04#8 va true) (fun _ _ => s.trap w 0x05#8 va true)
      (fun x s =>
        if !x.win.ship || isBasin x.loc then s.trap w 0x05#8 va true
        else if s.held (x.loc / 64 * 64) 64 then s.trap w 0x09#8 va true
        else if unmappedPa x.loc then s.lostAccess
        else if (homeDie x.loc != some s.cur.die && s.cx.pendOwn ≠ 0) || s.ownBehind (x.loc / 64 * 64) 64 then .next (s.waitOn .stores)
        else if s.locked x.loc 64 then .next (s.waitOn .migration)
        else if (match homeDie x.loc with
            | some h => h != s.cur.die && !s.causalMay h s.cur.die x.slice (x.loc / 64 * 64) 64 (s.die s.cur.die).v
            | none => false) then .next (s.waitOn .causal)
        else if homeDie x.loc != some s.cur.die && s.routeHeld x.loc then .next (s.waitOn (.route (x.loc / 512)))
        else if (match homeDie x.loc with
            | some h => (s.homeWait h x.slice (x.loc / 64 * 64) 64).isSome
            | none => false) then .next (s.waitOn (.baseDie (s.stackAt x.loc)))
        else if x.marked then s.consume w va
        else
          let q := s.shipHome x (s.rd b) (s.rd d) i.toNat
          if q.1 = 0 then .next (q.2.2.finishLong (q.2.2.cx.r.set d q.2.1))
          else if q.1 = 1 then q.2.2.illegal w
          else q.2.2.consume w va))

end Sys2Proof.Machine
end

