-- ==== Sys2Proof/Machine/BaseDie.lean ====
section
/-! DEFINITION. The base die: its requests with their order, locks and answers, the overflow cache, directed refresh, shipped routines,
stitched writes, the loss of a port, and patrol scrub (R56 to R81). -/

namespace Sys2Proof.Machine

/-! ## Order and answers (R58, R60 to R66) -/

/-- Whether a stack's base die is the one that the map names for an address (R60). -/
def State.atStack (s : State) (h : Nat) (p : Packet) : Bool := decide (s.physStack (stackOf p.pa) = h)

/-- A base die sends an answer (R60, R64). -/
def State.baseSend (s : State) (h : Nat) (p : Packet) : State := s.inject (20 + h) none none p.sealed

/-- A request of an unlisted form is answered with E2E_NAK (R64). -/
def State.badForm (s : State) (h : Nat) (p : Packet) : State := s.baseSend h (p.answer 0x10#8 0#7 p.addr [])

/-- The acknowledgement of a write; OPX[0] tells that it was not performed on poison (R64). -/
def State.writeAck (s : State) (h : Nat) (p : Packet) (poison : Bool) : State :=
  s.baseSend h (p.answer 5#8 (if poison then 1#7 else 0#7) p.addr [])

/-- The bytes of the stack that a request touches, as address and length (Table 3.2). -/
def touched (p : Packet) : List (Nat × Nat) :=
  let line := p.pa / 512 * 512
  if p.typ = 4#8 then [(p.pa / 32 * 32, 32)]
  else if p.typ = 8#8 then [(p.pa / 64 * 64, 64)]
  else if p.typ = 3#8 ∧ p.opx.toNat / 16 % 4 ≠ 0 then [(line, 512)]
  else (maskSectors (p.opx.toNat % 16)).map (fun i => (line + 128 * i, 128))

/-- Whether a request must wait at the base die: a locked granule, its bank under directed refresh, or an earlier request to the line that
waits (R65, R66, R73). -/
def StackSt.mustWait (t : StackSt) (p : Packet) : Bool :=
  (touched p).any (fun r => t.lockedRange r.1 r.2) || t.inRefresh p.pa || t.queuedFor (p.pa / 512 * 512) 512

/-! ## DRAM as the base die sees it (R59, R65) -/

/-- Whether the home slices hold a sector dirty, so that DRAM below differs from what is read. -/
def State.l2Dirty (s : State) (c : Nat) : Bool :=
  match homeDie (c * 128) with
  | some d => ((s.l2Line d (c / 4)).map (fun x => x.dirty &&& sectorBit c != 0#4)).getD false
  | none => false

/-- Bytes within a sector replaced in DRAM. -/
def State.dramWrite (s : State) (loc : Nat) (b : List Byte) : State :=
  let c := loc / 128
  match (if s.l2Dirty c then SMap.look none s.under c else none) with
  | some u =>
    let v := u.bytes.take (loc % 128) ++ b ++ u.bytes.drop (loc % 128 + b.length)
    let poison : BitVec 4 := if b.length = 128 then 0#4 else u.poison
    { s with under := SMap.put none s.under c (some ⟨v, poison⟩) }
  | none =>
    let t := s.putRaw loc b
    if b.length = 128 then (t.setPoison loc 128 false).dropUnder c else t

/-- Whether DRAM holds a granule as poison. -/
def State.granulePoison (s : State) (g : Nat) : Bool :=
  match SMap.look none s.under (g / 4) with
  | some u => u.poison.toNat.testBit (g % 4)
  | none => s.poisoned (g * 32) 32

/-- A granule is stored with the poison syndrome (R59). -/
def State.poisonGranule (s : State) (g : Nat) : State :=
  match SMap.look none s.under (g / 4) with
  | some u => { s with under := SMap.put none s.under (g / 4) (some { u with poison := u.poison ||| BitVec.ofNat 4 (2 ^ (g % 4)) }) }
  | none => s.setPoison (g * 32) 32 true

/-- The outcome of the check of a granule that was read from DRAM: a corrected one is counted in CECNT and reported; an uncorrectable one is
poisoned, counted in UECNT and reported (R59, Table 4.1). -/
def State.eccCheck (s : State) (h g : Nat) (e : Ecc) : State :=
  let r := (s.stack h).place (g * 32)
  match e with
  | .clean => s
  | .corrected => (s.onStack h (fun t => { t with cecnt := min (t.cecnt + 1) 0xFFFFFFFF })).faultEvent (.hbmRow h r.1 r.2) .corrected
  | .uncorrectable =>
    ((s.poisonGranule g).onStack h (fun t => { t with uecnt := min (t.uecnt + 1) 0xFFFFFFFF })).faultEvent (.stack h) .uncorrectable

/-- The outcomes of the checks of several granules. -/
def State.eccChecks (s : State) (h : Nat) (l : List (Nat × Ecc)) : State := l.foldl (fun t e => t.eccCheck h e.1 e.2) s

/-! ## The requests (R63 to R71, R76, R79, R80) -/

/-- READ: an overflow hit returns the whole line with its dirty mask and gives the line up; otherwise the named sectors are read from
DRAM (R64, R70). -/
def State.serveRead (s : State) (h : Nat) (p : Packet) : State :=
  let line := p.pa / 512
  let hit := ((s.stack h).ocMask line).isSome
  let r := s.baseRead line (BitVec.ofNat 4 (p.opx.toNat % 16))
  let secs := maskSectors r.1.toNat
  let poison (i : Nat) : Bool := if hit then s.poisoned (line * 512 + 128 * i) 128 else s.dramPoison (line * 4 + i)
  let mask := secs.foldl (fun m i => if poison i then m + 2 ^ i else m) 0
  let data := secs.flatMap (fun i => if hit then s.bytesAt (line * 512 + 128 * i) 128 else s.dramBytes (line * 4 + i))
  let addr : BitVec 56 := BitVec.ofNat 56 (p.addr.toNat / 512 * 512 + (if hit then 256 else 0) + r.2.1.toNat * 16 + mask)
  r.2.2.baseSend h (p.answer 2#8 (r.1.setWidth 7) addr data)

/-- The sectors of a mask from a payload written to DRAM. -/
def State.dramSectors (s : State) (line m : Nat) (payload : List Byte) : State :=
  ((maskSectors m).zipIdx).foldl (fun t e => t.dramWrite (line * 512 + 128 * e.1) ((payload.drop (128 * e.2)).take 128)) s

/-- A victim line: its dirty sectors carry new bytes, and the line enters the overflow cache (R69, R71). -/
def State.serveVictim (s : State) (h : Nat) (p : Packet) : State :=
  let line := p.pa / 512
  let m := p.opx.toNat % 16
  let t := (maskSectors m).foldl (fun (t : State) i =>
    ((t.keepUnder (line * 4 + i)).putRaw (line * 512 + 128 * i) ((p.payload.drop (128 * i)).take 128)).setPoison (line * 512 + 128 * i) 128 false) s
  (t.ocFill h line (BitVec.ofNat 4 m)).writeAck h p false

/-- WRITE_MASKED: merges into an overflow hit, or locks the granule for the read-modify-write (R66).  The bytes stand first in the payload
flit: the model's choice. -/
def State.serveMasked (s : State) (h : Nat) (p : Packet) : State :=
  let z := p.maskedAt
  let g := p.pa / 32
  let c := p.pa / 128
  match (s.stack h).ocMask (c / 4) with
  | some d =>
    let oc (t : StackSt) : StackSt := { t with oc := t.oc.map (fun e => if e.1 = c / 4 then (e.1, d ||| sectorBit c) else e) }
    (((s.keepUnder c).onStack h oc).cachedPart c (g * 32 + z.2) (p.payload.take z.1)).writeAck h p false
  | none => s.onStack h (fun t => { (t.access (g * 32)) with locks := enq t.locks (g, p) })

/-- SHIP: the routine runs on its block, and SHIP_RSP carries reply and status (R76). -/
def State.serveShip (s : State) (h : Nat) (p : Packet) : State :=
  let b := p.pa / 64 * 64
  let q := s.shipAt h p.pa (wordAt p.payload 0) (wordAt p.payload 8) (natAt p.payload 16 2)
  let s1 := s.onStack h (·.access b)
  let s2 := match q.2.2 with
    | some l => s1.dramWrite b l
    | none => s1
  s2.baseSend h (p.answer 9#8 0#7 p.addr (bytesLE 8 q.2.1.toNat ++ bytesLE 1 q.1 ++ List.replicate 23 0#8))

/-- The domain whose member wrote one of the sectors, by the home die's tags, 0 for none (R391). -/
def State.writerOf (s : State) (line m : Nat) : BitVec 32 :=
  (maskSectors m).foldl (fun d i => if d = 0#32 then s.tagDomain (line * 4 + i) else d) (0#32 : BitVec 32)

/-- A stitched write is performed against the old data given: the delta and then the acknowledgement go to the home die (R79). -/
def State.stitchPut (s : State) (h : Nat) (p : Packet) (dom : BitVec 32) (old : List Byte) : State :=
  let line := p.pa / 512
  let m := p.opx.toNat % 16
  ((s.stitchDelta h (p.txn.toNat / 256) line (BitVec.ofNat 4 m) dom old p.payload).dramSectors line m p.payload).writeAck h p false

/-- A stitched WRITE: an overflow copy of the line is given up; poison in the old data makes the base die hold the write and report the line
(R79, R80); otherwise it is performed.  Its domain owes one acknowledgement (R391). -/
def State.serveStitch (s : State) (h : Nat) (p : Packet) : State :=
  let line := p.pa / 512
  let m := p.opx.toNat % 16
  let dom := s.writerOf line m
  let s1 := (s.onDomain dom (fun d => { d with acks := d.acks + 1 })).ocWriteBack h line (BitVec.ofNat 4 m)
  if (maskSectors m).any (fun i => s1.dramPoison (line * 4 + i)) then
    (s1.onStack h (fun t => { t with stitchHeld := enq t.stitchHeld (p, dom) })).send (.record "poisoned stitch line" line m)
  else s1.stitchPut h p dom ((maskSectors m).flatMap (fun i => s1.dramBytes (line * 4 + i)))

/-- A request of a listed form is performed at its base die and answered (Table 3.2, R64). -/
def State.serve (s : State) (h : Nat) (p : Packet) : State :=
  let line := p.pa / 512
  let m := p.opx.toNat % 16
  match p.typ.toNat with
  | 1 => s.serveRead h p
  | 4 => s.serveMasked h p
  | 8 => s.serveShip h p
  | _ =>
    match p.opx.toNat / 16 with
    | 1 => s.serveVictim h p
    | 2 => (s.ocWriteBack h line 0#4).writeAck h p false
    | 3 => (s.ocDiscard h line).writeAck h p false
    | 4 => s.serveStitch h p
    | _ => (((s.ocWriteBack h line (BitVec.ofNat 4 m)).onStack h (·.access (line * 512))).dramSectors line m p.payload).writeAck h p false

/-- A request arrives: it is performed in its turn, or waits (R65, R66, R73, R77). -/
def State.baseArrive (s : State) (h : Nat) (p : Packet) : State :=
  if (s.stack h).mustWait p then s.onStack h (fun t => { t with queue := enq t.queue p }) else s.serve h p

/-- What waited for a lock, a refresh or a stitched write goes on in its order of arrival, and so do contexts (R65, R66, R73). -/
def State.baseDrain (s : State) (h : Nat) : State :=
  ((s.stack h).queue.foldl (fun t p => t.baseArrive h p) (s.onStack h (fun t => { t with queue := [] }))).wakeWhy (.baseDie h)

/-- A request at a base die: one that the map does not bring there is none; one to the base die's own data is answered UNMAPPED, one of an
unlisted form E2E_NAK (R58, R60, R64). -/
def State.baseRequest (s : State) (h : Nat) (p : Packet) (formOk : Bool) : Res :=
  if !s.atStack h p then .next s
  else if reservedPa p.pa then .next (s.answerUnmapped p)
  else if !formOk then .next (s.badForm h p)
  else .next (s.baseArrive h p)

/-- Whether a WRITE carries whole sectors of a nonzero mask (Table 3.2). -/
def wholeSectors (p : Packet) : Bool :=
  let m := p.opx.toNat % 16
  decide (m ≠ 0) && decide (p.len.toNat = 4 * (maskSectors m).length) && decide (p.payload.length = 32 * p.len.toNat)

/-- BASE_DIE_READ, with the outcomes of the checks of the granules it reads (R59, R63 to R65, R70). -/
def execBaseDieRead (stack : Nat) (p : Packet) (ecc : List (Nat × Ecc)) (s : State) : Res :=
  let mine := ecc.filter (fun e => decide (e.1 / 16 = p.pa / 512))
  let ok := p.typ = 1#8 && decide (p.opx.toNat < 16) && p.opx ≠ 0#7 && p.len = 0#5
  let t := if ok && s.atStack stack p && !reservedPa p.pa && ((s.stack stack).ocMask (p.pa / 512)).isNone then s.eccChecks stack mine else s
  t.baseRequest stack p ok

/-- BASE_DIE_WRITE: whole sectors go to DRAM; an overflow copy first gives up its other dirty sectors (R63 to R65, R70). -/
def execBaseDieWrite (stack : Nat) (p : Packet) (s : State) : Res :=
  s.baseRequest stack p (p.typ = 3#8 && decide (p.opx.toNat < 16) && wholeSectors p)

/-- VICTIM_WRITE: the line enters the overflow cache; while it is disabled the dirty sectors go to DRAM (R69, R71). -/
def execVictimWrite (stack : Nat) (p : Packet) (s : State) : Res :=
  s.baseRequest stack p (p.typ = 3#8 && decide (p.opx.toNat / 16 = 1) && p.len = 16#5 && decide (p.payload.length = 512))

/-- OVERFLOW_FLUSH: write back and drop the overflow copy of a line (Table 3.2, R70). -/
def execOverflowFlush (stack : Nat) (p : Packet) (s : State) : Res :=
  s.baseRequest stack p (p.typ = 3#8 && p.opx = 0x20#7 && p.len = 0#5)

/-- OVERFLOW_DISCARD: drop the overflow copy of a line without write-back (Table 3.2, R70). -/
def execOverflowDiscard (stack : Nat) (p : Packet) (s : State) : Res :=
  s.baseRequest stack p (p.typ = 3#8 && p.opx = 0x30#7 && p.len = 0#5)

/-- WRITE_MASKED: 1 to 8 bytes within one granule (R63, R66). -/
def execWriteMasked (stack : Nat) (p : Packet) (s : State) : Res :=
  s.baseRequest stack p (p.typ = 4#8 && p.len = 1#5 && decide (p.maskedAt.1 + p.maskedAt.2 ≤ 32) && decide (p.payload.length = 32))

/-- SHIP_ROUTINE: the routine runs at its place among the block's requests (R76, R77); the bits that R76 gives as zero must be so. -/
def execShipRoutine (stack : Nat) (p : Packet) (s : State) : Res :=
  s.baseRequest stack p (p.typ = 8#8 && p.opx = 0#7 && p.len = 1#5 && decide (p.payload.length = 32) && decide (natAt p.payload 16 2 < 1024)
    && (p.payload.drop 18).all (· == 0#8))

/-- MASKED_MERGE_COMPLETE: the bytes are merged, or a poisoned granule stays as it is and the service processors are told; the
acknowledgement is sent and the lock released (R59, R66). -/
def execMaskedMergeComplete (stack granule : Nat) (ecc : Ecc) (s : State) : Res :=
  match (s.stack stack).locks.find? (fun l => l.1 == granule) with
  | none => .next s
  | some l =>
    let p := l.2
    let s1 := (s.eccCheck stack granule ecc).onStack stack (fun t => { t with locks := without t.locks (fun x => x.1 == granule) })
    if s1.granulePoison granule then
      .next (((s1.writeAck stack p true).send (.record "poisoned granule" granule (p.txn.toNat / 256))).baseDrain stack)
    else .next (((s1.dramWrite (granule * 32 + p.maskedAt.2) (p.payload.take p.maskedAt.1)).writeAck stack p false).baseDrain stack)

/-- STITCH_WRITE: a stitched write arrives; or the service processors give the result of the rebuild for one that is held: the old sectors,
against which it is performed, or none, so that it is dropped and the writing domain faults (R79, R80). -/
def execStitchWrite (stack : Nat) (p : Packet) (rebuilt : Option (Option (List Byte))) (s : State) : Res :=
  match rebuilt with
  | none => s.baseRequest stack p (p.typ = 3#8 && decide (p.opx.toNat / 16 = 4) && wholeSectors p)
  | some r =>
    match (s.stack stack).stitchHeld.find? (fun e => e.1 == p) with
    | none => .next s
    | some e =>
      let secs := (maskSectors (p.opx.toNat % 16)).map (fun i => p.pa / 512 * 4 + i)
      let s1 := s.onStack stack (fun t => { t with stitchHeld := t.stitchHeld.erase e })
      match r with
      | some old =>
        if old.length = 128 * secs.length then .next ((s1.stitchPut stack p e.2 old).baseDrain stack) else .next s
      | none =>
        let s2 := (secs.foldl (fun (t : State) c => t.revert c) s1).onDomain e.2 (fun d => { d with acks := d.acks - 1 })
        .next (((s2.writeAck stack p true).domainFault e.2 0x06#8 0#64).baseDrain stack)

/-! ## The requester's side (R61, R62, R67, R70) -/

/-- The lines that a READ_RSP brings are installed in the slice, with the dirty state of an overflow hit; a SHIP page's are not kept (R64,
R70). -/
def State.install (s : State) (p : Packet) : State :=
  let line := p.pa / 512
  let d := stackOf p.pa / 2
  let a := p.addr.toNat
  let x := s.l2Or d (p.txn.toNat / 256) line
  if s.isShip (line * 512) then s
  else
    s.l2Put d { x with valid := x.valid ||| BitVec.ofNat 4 p.opx.toNat, dirty := x.dirty ||| (if a.testBit 8 then BitVec.ofNat 4 (a / 16) else 0#4) }
      false false

/-- REQUESTER_REPLY: a base die's reply reaches its slice: the tag is free, a READ's line is in the slice, and the answer of a SHIP that the
slice passed on goes to its requester (R61, R62, R70). -/
def execRequesterReply (p : Packet) (s : State) : Res :=
  let key := s.replyKey p
  match s.fab.pending.find? (fun e => e.key == key) with
  | none => .next s
  | some r =>
    let s1 := s.freeBase r.packet key
    let s2 := if p.typ = 2#8 then s1.install p else s1
    let s3 := match s.fab.relays.find? (fun e => e.1 == key) with
      | some q => s2.inject (s.physDie p.ddie.toNat) none none (q.2.back p.typ p.payload).sealed
      | none => s2
    .next (s3.wakeWhy (.baseDie (s.stackAt p.pa)))

/-- BASE_DIE_PORT_LOSS: the requester ports of the lost port re-aim at the other; their outstanding READs and WRITEs are resent with their
tags, and a SHIP's fate is unknown; a stack without ports has a lasting fault (R61, R67, R84). -/
def execBaseDiePortLoss (stack : Nat) (portB : Bool) (s : State) : Res :=
  let j := linkEnd (20 + stack) (s.portDie stack portB)
  let down (q : PortSt) : PortSt := { q with tx := { q.tx with state := 0 }, rx := { q.rx with state := 0 } }
  let s1 := (((s.onStack stack (fun t => if portB then { t with portB := false } else { t with portA := false })).onPort j down).onPort (farEnd j) down).reroute
  let mine (e : Pend) : Bool := e.packet.baseForm && s.stackAt e.packet.pa == stack && s.portB e.packet.pa == portB
  let off := s.fab.pending.filter mine
  let s2 : State := { s1 with inbox := s1.inbox ++ (off.filter (fun e => e.packet.typ == 8#8)).map (fun e => Instr.unmappedResponse e.packet) }
  let s3 := (off.filter (fun e => e.packet.typ != 8#8)).foldl (fun t e =>
    State.enterNode 4 t (t.sourceNode e.packet.spkg e.packet.sdie.toNat) none e.packet) s2
  let t := s3.stack stack
  .next (if t.portA || t.portB then s3 else s3.faultEvent (.stack stack) .portDown)

/-! ## Refresh, scrub, overflow control, the routine table (R59, R71 to R75) -/

/-- REFRESH_WINDOW_START: all counts, rows and spill counters are cleared (R72). -/
def execRefreshWindowStart (stack : Nat) (s : State) : Res := .next (s.onStack stack (fun t => { t with tracker := [] }))

/-- DIRECTED_REFRESH_DONE: the rows are refreshed and the bank serves requests again (R73). -/
def execDirectedRefreshDone (stack bank : Nat) (s : State) : Res :=
  .next ((s.onStack stack (fun t => { t with refreshing := without t.refreshing (fun r => r.1 == bank) })).baseDrain stack)

/-- PATROL_SCRUB: a granule, by its address / 32, is read by the scrubber with its ECC outcome (R59, R72). -/
def execPatrolScrub (stack granule : Nat) (ecc : Ecc) (s : State) : Res :=
  .next ((s.onStack stack (·.access (granule * 32))).eccCheck stack granule ecc)

/-- OCCTL_WRITE by the service processors: with EN = 0 dirty lines are written back and every line is dropped (R71, R81). -/
def execOcctlWrite (stack : Nat) (en : Bool) (s : State) : Res := .next (s.onStack stack (fun t => { t with ocEn := en }))

/-- OVERFLOW_DRAIN_DONE: a disabled overflow cache holds no line any more (R71). -/
def execOverflowDrainDone (stack : Nat) (s : State) : Res :=
  if (s.stack stack).ocEn then .next s
  else .next ((s.stack stack).oc.foldl (fun t e => t.ocWriteBack stack e.1 0#4) s)

/-- ROUTINE_TABLE_WRITE: an entry with V = 1 is checked; a refused one has V = 0 (R75). -/
def execRoutineTableWrite (stack index : Nat) (r : Routine) (s : State) : Res :=
  if 1024 ≤ index then .next s else .next (s.onStack stack (·.writeRoutine index r))

end Sys2Proof.Machine
end

