-- ==== Sys2Proof/Machine/Branch.lean ====
section
/-! DEFINITION. Branches, jumps and LOOP: majors 0x16 and 0x18 to 0x1F (R281, R315 to R317). -/

namespace Sys2Proof.Machine

/-- A branch: to pc + 4 * off when its condition holds, else to the next word (R315). -/
def State.branch (s : State) (w : IWord) (o : BitVec 15) (cond : State → Bool) : Res :=
  s.issue w true (fun s =>
    .next (if cond s then s.setR (s.cx.r.jump (s.cx.r.pc + wordI (4 * s.cx.r.imm 15 o))) else s.finish s.cx.r))


/-- BEQ: when s[a] = s[b] (R315). -/
def execBeq (a b : RegNo) (o : BitVec 15) (s : State) : Res :=
  s.branch (Enc.beq a b o) o (fun s => s.rd a == s.rd b)

/-- BNE: when s[a] differs from s[b] (R315). -/
def execBne (a b : RegNo) (o : BitVec 15) (s : State) : Res :=
  s.branch (Enc.bne a b o) o (fun s => s.rd a != s.rd b)

/-- BLT: when s[a] < s[b] signed (R315). -/
def execBlt (a b : RegNo) (o : BitVec 15) (s : State) : Res :=
  s.branch (Enc.blt a b o) o (fun s => (s.rd a).slt (s.rd b))

/-- BGE: when s[a] >= s[b] signed (R315). -/
def execBge (a b : RegNo) (o : BitVec 15) (s : State) : Res :=
  s.branch (Enc.bge a b o) o (fun s => !(s.rd a).slt (s.rd b))

/-- BLTU: when s[a] < s[b] unsigned (R315). -/
def execBltu (a b : RegNo) (o : BitVec 15) (s : State) : Res :=
  s.branch (Enc.bltu a b o) o (fun s => (s.rd a).ult (s.rd b))

/-- BGEU: when s[a] >= s[b] unsigned (R315). -/
def execBgeu (a b : RegNo) (o : BitVec 15) (s : State) : Res :=
  s.branch (Enc.bgeu a b o) o (fun s => !(s.rd a).ult (s.rd b))

/-- JAL: s[d] := pc + 4 and the pc goes to pc + 4 * off (R316). -/
def execJal (d : RegNo) (o : BitVec 20) (s : State) : Res :=
  s.issue (Enc.jal d o) true (fun s =>
    .next (s.setR ((s.cx.r.set d (s.cx.r.pc + 4#64)).jump (s.cx.r.pc + wordI (4 * s.cx.r.imm 20 o)))))

/-- JALR: the target s[a] + I must be a multiple of 4, or MISALIGNED; then s[d] := pc + 4 (R281, R316). -/
def execJalr (d a : RegNo) (i : BitVec 15) (s : State) : Res :=
  s.issue (Enc.jalr d a i) true (fun s =>
    let t := s.rd a + wordI (s.cx.r.imm 15 i)
    if t &&& 3#64 ≠ 0#64 then s.trap (Enc.jalr d a i) 0x03#8 t
    else .next (s.setR ((s.cx.r.set d (s.cx.r.pc + 4#64)).jump t)))

/-- The registers with a loop's counter and its hidden addresses set (R317). -/
def Regs.setLoop (r : Regs) (n : BitVec 1) (c : Word) (len : Int) : Regs :=
  if n = 1#1 then { r with lc1 := c, lstart1 := r.pc + 4#64, lend1 := r.pc + wordI (4 * len) }
  else { r with lc0 := c, lstart0 := r.pc + 4#64, lend0 := r.pc + wordI (4 * len) }

/-- LOOP: a length of zero or less is ILLEGAL_INSTRUCTION; a count of zero skips the body (R317).  Skipping redirects the
pc, and setting up completes as any instruction does. -/
def execLoop (n : BitVec 1) (a : RegNo) (l : BitVec 15) (s : State) : Res :=
  let len := s.cx.r.imm 15 l
  s.issue (Enc.loop n a l) (decide (0 < len)) (fun s =>
    if s.rd a = 0#64 then .next (s.setR (s.cx.r.jump (s.cx.r.pc + wordI (4 * (len + 1)))))
    else .next (s.finish (s.cx.r.setLoop n (s.rd a) len)))

end Sys2Proof.Machine
end

