-- ==== Sys2Proof/Machine/Launch.lean ====
section
/-! DEFINITION. Launches: the body of Table 5.4, the checks of R129, acceptance, and the waiter-pool entries of input counters
(R129, R130, R156). -/

namespace Sys2Proof.Machine

/-- A little-endian field of a byte string. -/
def fieldAt (b : List Byte) (o n : Nat) : Nat := ofBytes ((b.drop o).take n)

/-- The fields of a launch body (Table 5.4). -/
structure LaunchReq where
  /-- ENTRY. -/
  entry : Word
  /-- N. -/
  n : Nat
  /-- CLASS. -/
  cls : Nat
  /-- PRIO. -/
  prio : Nat
  /-- FLAGS: COHORT, EVENT, FENCE. -/
  flags : Nat
  /-- LTURNS. -/
  lturns : Nat
  /-- PLACE. -/
  place : BitVec 16
  /-- LPAGES. -/
  lpages : Nat
  /-- ARGP and A4 to A7. -/
  args : List Word
  /-- NIN. -/
  nin : Nat
  /-- NOUT. -/
  nout : Nat
  /-- INC0 to INC3. -/
  inc : List Word
  /-- OUTC0 to OUTC3. -/
  outc : List Word
  /-- Whether a reserved byte is not zero. -/
  reserved : Bool
deriving DecidableEq, Repr, Inhabited

/-- The fields of a launch body (Table 5.4). -/
def launchReq (b : List Byte) : LaunchReq :=
  let w (o : Nat) : Word := BitVec.ofNat 64 (fieldAt b o 8)
  { entry := w 0, n := fieldAt b 8 4, cls := fieldAt b 12 1, prio := fieldAt b 13 1, flags := fieldAt b 14 1,
    lturns := fieldAt b 15 1, place := BitVec.ofNat 16 (fieldAt b 16 2), lpages := fieldAt b 18 2,
    args := [w 24, w 32, w 40, w 48, w 56], nin := fieldAt b 64 1, nout := fieldAt b 65 1,
    inc := [w 72, w 80, w 88, w 96], outc := [w 104, w 112, w 120, w 128],
    reserved := decide (fieldAt b 20 4 ≠ 0) || decide (fieldAt b 66 6 ≠ 0) }

/-- BAD_FIELD: the checks of step 1 of R129. -/
def LaunchReq.bad (q : LaunchReq) : Bool :=
  decide (q.entry.toNat % 4 ≠ 0) || decide (2 < q.cls) || decide (3 < q.prio) || (q.cls == 2 && q.prio != 0)
    || decide (8 ≤ q.flags) || (q.cls != 0 && (q.lturns != 0 || q.lpages != 0)) || q.place == 0#16 || q.reserved
    || decide (4 < q.nin) || decide (4 < q.nout)
    || (q.inc ++ q.outc).any (fun a => decide (a.toNat % 8 ≠ 0))
    || (q.inc.drop q.nin).any (· != 0#64) || (q.outc.drop q.nout).any (· != 0#64)
    || (q.cls == 2 && q.flags.testBit 0)

/-- NOT_PERMITTED: the window checks of step 2 of R129. -/
def State.launchDenied (s : State) (tn : Nat) (q : LaunchReq) : Bool :=
  match s.tenant tn with
  | none => true
  | some t =>
    let counter (input : Bool) (a : Word) : Bool :=
      if a = 0#64 then false
      else match t.windowAt a with
        | none => true
        | some w => !(w.perms.toNat.testBit 0 && w.perms.toNat.testBit 1) || w.ship || decide (w.tier = 2)
            || (input && w.tier == 1 && w.pkg != s.pkgid)
    (match t.windowAt q.entry with
      | none => true
      | some w => !w.perms.toNat.testBit 2)
      || (q.inc.take q.nin).any (counter true) || (q.outc.take q.nout).any (counter false)

/-- COHORT_UNPLACEABLE at the request: step 3 of R129. -/
def LaunchReq.unplaceable (q : LaunchReq) : Bool := q.flags.testBit 0 && decide (512 * (diesOf q.place).length < q.n)

/-- An input counter takes a waiter-pool entry at its home or waits for one; a counter that reads zero when its entry is taken counts as
fired, and the entry is free again (R130). -/
def State.enroll (s : State) (id loc : Nat) (va : Word) : State :=
  let h := (homeDie loc).getD 0
  if 16384 ≤ s.poolUsed h then
    (s.onLaunch id (fun l => { l with queued := enq l.queued (loc, va) })).onDie h (fun d =>
      { d with poolQueue := if d.poolQueue.contains id then d.poolQueue else enq d.poolQueue id })
  else if s.counterZero loc then s
  else
    (s.onCounter loc (fun c => { c with launches := enq c.launches id })).onLaunch id (fun l =>
      { l with inputs := enq l.inputs (loc, va) })

/-- The location of an input counter that can never fire: its address lies in no window (R129 checks nonzero addresses only). -/
def nowhere : Nat := 2 ^ 90

/-- Acceptance: the launch id, the record, the domain's members and the input counters' entries; a launch with nothing to wait for is
ready at once (R129, R130, R400). -/
def State.acceptLaunch (s : State) (tn : Nat) (q : LaunchReq) (dom : BitVec 32) (vec : SMap (BitVec 32))
    (origin : Option (Nat × Nat)) : Nat × State :=
  let id := s.lastLaunch + 1
  let d := if q.cls = 2 then 0#32 else dom
  let l : LaunchSt :=
    { tenant := tn, entry := q.entry, n := q.n, cls := q.cls, prio := q.prio, flags := BitVec.ofNat 3 q.flags,
      lturns := BitVec.ofNat 8 q.lturns, lpages := q.lpages, place := q.place, args := q.args, inputs := [], queued := [],
      outputs := q.outc.take q.nout, phase := 0, live := q.n, done := 0, serial := 0, dom := d, rootDom := 0#32, vec := vec,
      origin := origin, evflags := 0#8 }
  let s1 := ({ s with lastLaunch := id, launches := SMap.put none s.launches id (some l) } : State).onDomain d
    (fun r => { r with members := r.members + q.n })
  let s2 := (q.inc.take q.nin).foldl (fun t va =>
    match t.hostLoc tn va .rd with
    | some loc => t.enroll id loc va
    | none => t.onLaunch id (fun l => { l with inputs := enq l.inputs (nowhere, va) })) s1
  (id, s2.settle [.ready id])

/-- The launches that wait for an entry of a die's pool take one while there is room (R130). -/
def State.takeEntries (s : State) (d : Nat) : State × List Todo :=
  (s.die d).poolQueue.foldl (fun acc id =>
    match acc.1.launchOf id with
    | none => (acc.1.onDie d (fun x => { x with poolQueue := without x.poolQueue (· == id) }), acc.2)
    | some l =>
      let mine := l.queued.filter (fun e => homeDie e.1 == some d)
      let t0 := (acc.1.onLaunch id (fun y => { y with queued := without y.queued (fun e => homeDie e.1 == some d) })).onDie d
        (fun x => { x with poolQueue := without x.poolQueue (· == id) })
      (mine.foldl (fun u e => u.enroll id e.1 e.2) t0, acc.2 ++ [.ready id])) (s, [])

/-- WAITER_POOL_ENTRY_FREE: contexts that wait for an entry of the die's pool issue again, and launches take entries (R130,
R156). -/
def execWaiterPoolEntryFree (die : Nat) (s : State) : Res :=
  if s.poolUsed die < 16384 then
    let r := (s.wakeWhy (.waiterPool die)).takeEntries die
    .next (r.1.settle r.2)
  else .next s

end Sys2Proof.Machine
end

