-- ==== Sys2Proof/Machine/Spout.lean ====
section
/-! DEFINITION. The spouts and the scheduler: which entry an IDLE context takes (R149 to R151), binding and reload, pre-emption and
spill (R158 to R160), unparking and the restart of a harvest domain (R167, R168), domain faults from outside (R176), and the
waiter pools (R130, R156). -/

namespace Sys2Proof.Machine

/-! ## Which entry a context takes (R151) -/

/-- Whether a context of a die and kind may take an entry: class and placement (R151). -/
def TaskAttr.eligible (t : TaskAttr) (die : Nat) (reserve : Bool) : Bool :=
  (decide (t.cls = 2) == reserve) && t.place.toNat.testBit die

/-- The rank among the entries considered; harvest entries have none (R142, R151). -/
def TaskAttr.rankFor (t : TaskAttr) (reserve : Bool) : Nat := if reserve then 0 else t.rank

/-- An entry with what orders it: rank, distance of its source, place within the source (R151). -/
structure Offer where
  /-- Rank, 7 highest. -/
  rank : Nat
  /-- Distance of the source; smaller is nearer. -/
  dist : Nat
  /-- Place within the source; smaller is taken first. -/
  pos : Nat
  /-- The entry. -/
  task : TaskAttr
deriving DecidableEq, Repr, Inhabited

/-- The eligible entries of one source. -/
def offersOf (die : Nat) (reserve : Bool) (dist : Nat) (l : List TaskAttr) : List Offer :=
  (l.zipIdx.filter (fun e => e.1.eligible die reserve)).map (fun e => ⟨e.1.rankFor reserve, dist, e.2, e.1⟩)

/-- The entries of its own die that a context considers, with the locality order of R151; a task that a YIELD spilled stands
behind every waiting entry of its rank (R399). -/
def State.offersNear (s : State) (c : CtxId) : List Offer :=
  let cl := c.core / 8
  let deq (core : Nat) : List TaskAttr := (s.core c.die core).entries
  let queue (k : Nat) : List TaskAttr := SMap.look [] (s.die c.die).ready k
  let own := if c.reserve then [] else (s.core c.die c.core).resume
  (own.filter (fun e => e.task.eligible c.die c.reserve)).zipIdx.map (fun e =>
      ⟨e.1.task.rankFor c.reserve, if e.1.yielded then 999 else 0, e.2, e.1.task⟩)
    ++ offersOf c.die c.reserve 1 (deq c.core).reverse
    ++ offersOf c.die c.reserve 2 (queue cl)
    ++ (List.range 7).flatMap (fun (i : Nat) => offersOf c.die c.reserve (3 + i) (deq (cl * 8 + (c.core % 8 + i + 1) % 8)))
    ++ (List.range 7).flatMap (fun (j : Nat) =>
        let k := (cl + j + 1) % 8
        offersOf c.die c.reserve (20 + 20 * j) (queue k)
          ++ (List.range 8).flatMap (fun (m : Nat) => offersOf c.die c.reserve (21 + 20 * j + m) (deq (k * 8 + m))))

/-- Hops between two logical dies over the mesh of 3 rows by 6 columns (R36). -/
def State.dieHops (s : State) (a b : Nat) : Nat :=
  let p := s.physDie a
  let q := s.physDie b
  (p / 6 - q / 6) + (q / 6 - p / 6) + ((p % 6 - q % 6) + (q % 6 - p % 6))

/-- The oldest eligible entry of another die, with the die's distance (R151 step 3). -/
def State.offersFar (s : State) (c : CtxId) : List Offer :=
  (List.range 16).flatMap (fun (d : Nat) =>
    if d = c.die then []
    else
      let all := ((s.die d).ready.flatMap (·.2) ++ (List.range 64).flatMap (fun k => (s.core d k).entries)).filter
        (fun t => t.eligible c.die c.reserve)
      match all with
      | [] => []
      | t :: l => [⟨0, 1000 + 16 * s.dieHops c.die d + d, 0, l.foldl (fun m x => if x.since < m.since then x else m) t⟩])

/-- Whether one offer goes ahead of another: rank, then nearness, then order (R151). -/
def Offer.before (a b : Offer) : Bool :=
  decide (b.rank < a.rank) || (a.rank == b.rank && (decide (a.dist < b.dist) || (a.dist == b.dist && decide (a.pos < b.pos))))

/-- The best of a list of offers. -/
def bestOffer : List Offer → Option Offer
  | [] => none
  | o :: l => some (l.foldl (fun m x => if x.before m then x else m) o)

/-- Whether a bank can be bound now: free, not reserved, its core and die not fenced, its channel without a copy, and for a
reserve bank its turn lent (R132, R145, R389). -/
def State.bankFree (s : State) (c : CtxId) : Bool :=
  let k := s.core c.die c.core
  (s.ctx c).free && (s.ctx c).reserved.isNone && !s.fencedCore c.die c.core
    && decide ((SMap.look {} k.channels (c.turn + if c.reserve then 8 else 0)).copies = [])
    && (!c.reserve || (s.lentMask c.die c.core).testBit c.turn)

/-- Whether the core's harvest tenancy lets a task into a reserve bank (R163). -/
def State.tenancyOk (s : State) (c : CtxId) (t : TaskAttr) : Bool :=
  !c.reserve || (s.core c.die c.core).harvestTenant.isNone || (s.core c.die c.core).harvestTenant == some t.tenant

/-- What an IDLE context takes: the task that pre-empted the bank's former one, else the best entry of its die, else a steal
(R151, R159). -/
def State.take (s : State) (c : CtxId) : Option Offer :=
  if !s.bankFree c then none
  else
    let near : List Offer := (s.offersNear c).filter (fun o => s.tenancyOk c o.task)
    let promised : Option Offer := match (s.ctx c).spill with
      | some (some t) => near.find? (fun o => o.task.task == t.task && o.task.launch == t.launch)
      | _ => none
    match promised with
    | some o => some { o with dist := 0 }
    | none =>
      match bestOffer near with
      | some o => some o
      | none => bestOffer ((s.offersFar c).filter (fun o => s.tenancyOk c o.task))

/-- Whether any task waits to be bound. -/
def State.tasksWait (s : State) : Bool :=
  s.cores.any (fun e => !e.2.deque.isEmpty || !e.2.overflow.isEmpty || !e.2.resume.isEmpty)
    || s.dies.any (fun e => e.2.ready.any (fun q => !q.2.isEmpty))

/-- Every bank of the compute cores, lowest die, core and turn first, owner banks before reserve banks. -/
def allBanks : List CtxId :=
  [false, true].flatMap (fun r => (List.range 16).flatMap (fun d => (List.range 64).flatMap (fun c =>
    (List.range 8).map (fun t => (⟨d, c, t, r⟩ : CtxId)))))

/-- The context that binds next: the one whose entry is nearest, the lowest core and turn among equals (R151, R427). -/
def State.nextBind (s : State) : Option CtxId :=
  if !s.tasksWait then none
  else
    (allBanks.foldl (fun (acc : Option (Nat × CtxId)) c =>
      match s.take c with
      | none => acc
      | some o => match acc with
        | some b => if o.dist < b.1 then some (o.dist, c) else acc
        | none => some (o.dist, c)) none).map (·.2)

/-! ## Binding and reload (R145, R160) -/

/-- An entry leaves its queue (R149). -/
def State.unqueue (s : State) (t : TaskAttr) : State := s.dropTasks (fun x => x.task == t.task && x.launch == t.launch)

/-- A step program goes on while its context is spilled; its owner is then no bank, and after the reload the new one (R423). -/
def State.ownProgram (s : State) (d slot : Nat) (old new : CtxId) : State :=
  s.onDie d (fun x => match SMap.look none x.programs slot with
    | some g => if g.owner = old then { x with programs := SMap.put none x.programs slot (some { g with owner := new }) } else x
    | none => x)

/-- A spilled task reloads into an owner bank of its core with every register as it was; SEQ goes to the new bank's channel
(R160, R389). -/
def State.reload (s : State) (c : CtxId) (v : Saved) : State :=
  let heap := ((s.tenant v.task.tenant).map (·.heap)).getD (0#64, 0#64, 0#64)
  let needs := v.task.needs.filter (fun n => s.net.any (fun w => w.id == n))
  let x : Ctx := { r := v.r, tenant := BitVec.ofNat 64 v.task.tenant, heapbase := heap.1, heaplim := heap.2.1, heapoff := heap.2.2,
                   bound := some v.task, lastTenant := some v.task.tenant, boundAt := s.cycle.toNat,
                   program := v.program }
  let s0 := match v.program with
    | some n => s.ownProgram c.die n { c with turn := 8 } c
    | none => s
  let s1 := (s0.setCtx c x).onCore c.die c.core (fun k =>
    { k with robuf := k.robuf.filter (fun r => r.tenant == v.task.tenant),
             channels := SMap.put {} k.channels c.turn { seq := v.seq } })
  if needs = [] then s1.ready c else s1.onCtx c (fun y => { y with st := .wait, wait := .release needs })

/-- SPOUT_BIND: an IDLE context takes its task, or reloads a spilled one (R145, R151, R160). -/
def execSpoutBind (c : CtxId) (s : State) : Res :=
  match s.take c with
  | none => .next s
  | some o =>
    match (s.core c.die c.core).resume.find? (fun v => v.task.task == o.task.task && v.task.launch == o.task.launch) with
    | some v => .next ((s.unqueue o.task).reload c v)
    | none => .next ((s.unqueue o.task).bindTask c { o.task with preempted := false })

/-! ## Pre-emption and spill (R158 to R160, R399) -/

/-- The owner entries that wait on a die: ready queues, deques and, with their core, resume slots. -/
def State.waitingOn (s : State) (d : Nat) : List (TaskAttr × Option Nat) :=
  let queued : List TaskAttr := (s.die d).ready.flatMap (fun q => q.2) ++ (List.range 64).flatMap (fun k => (s.core d k).entries)
  let spilled : List (TaskAttr × Option Nat) :=
    (List.range 64).flatMap (fun k => (s.core d k).resume.map (fun v => (v.task, some k)))
  (queued.map (fun t => (t, none)) ++ spilled).filter (fun e => e.1.eligible d false)

/-- Whether an IDLE owner context of the die can take an entry. -/
def State.hasTaker (s : State) (d : Nat) (e : TaskAttr × Option Nat) : Bool :=
  (List.range 64).any (fun c => (e.2.isNone || e.2 == some c) && (List.range 8).any (fun t => s.bankFree ⟨d, c, t, false⟩))

/-- The context a waiting task pre-empts: of strictly lower rank, the lowest rank present, the most recently bound (R159).  A TEXIT
that waits completes instead (Table 14.8). -/
def State.victim (s : State) (d : Nat) (e : TaskAttr × Option Nat) : Option CtxId :=
  let ok (x : CtxId × Ctx) : Bool :=
    decide (x.1.die = d) && !x.1.reserve && !x.1.isSup && (e.2.isNone || e.2 == some x.1.core)
      && (x.2.st == .run || x.2.st == .wait) && x.2.spill.isNone && decide (x.2.wait ≠ .retry .texit)
      && (match x.2.bound with | some v => !v.cohort && decide (v.rank < e.1.rank) | none => false)
  let rk (x : CtxId × Ctx) : Nat := (x.2.bound.map (·.rank)).getD 0
  match s.allCtx.filter ok with
  | [] => none
  | x :: l => some (l.foldl (fun m y => if rk y < rk m || (rk y == rk m && m.2.boundAt < y.2.boundAt) then y else m) x).1

/-- The waiting task that pre-empts now, with its victim: eligible for 4,096 cycles, no IDLE owner context able to take it; higher
rank first, then the longer wait (R159). -/
def State.preemption (s : State) (d : Nat) : Option (TaskAttr × CtxId) :=
  let l : List (TaskAttr × Option Nat) := (s.waitingOn d).filter (fun e => !e.1.preempted && decide (e.1.since + 4096 ≤ s.cycle.toNat) && !s.hasTaker d e)
  let m : List (TaskAttr × CtxId) := l.filterMap (fun e => (s.victim d e).map (fun v => (e.1, v)))
  match m with
  | [] => none
  | e :: r => some (r.foldl (fun a b => if a.1.rank < b.1.rank || (a.1.rank == b.1.rank && b.1.since < a.1.since) then b else a) e)

/-- A context is pre-empted: in RUN it stops before its next instruction, a synchronising wait is abandoned, an operation in flight
completes first, a runahead is given up (R160, R208). -/
def State.preempt (s : State) (c : CtxId) (why : Option TaskAttr) : State :=
  let x := s.ctx c
  let x1 := { x.restore with ahead := none, spill := some why }
  match x.st with
  | .run => (s.setCtx c { x1 with st := .wait, wait := .none }).unparkCore c.die c.core
  | .wait =>
    match x.wait with
    | .result _ | .walk _ | .retry .matrix | .retry (.verdict _ _) | .retry (.resync _ _ _ _) | .retry .lend => s.setCtx c x1
    | _ => ((s.leaveWaits c).dropLoose c).setCtx c { x1 with wait := .none, monitor := none }
  | _ => s

/-- PREEMPTION_TIMER: a task that has waited 4,096 cycles pre-empts; each causes at most one pre-emption (R159). -/
def execPreemptionTimer (die : Nat) (s : State) : Res :=
  match s.preemption die with
  | none => .next s
  | some (t, v) =>
    let mark (x : TaskAttr) : TaskAttr := if x.task == t.task && x.launch == t.launch then { x with preempted := true } else x
    let s1 : State := { s with
      cores := s.cores.map (fun e => (e.1, { e.2 with deque := e.2.deque.map mark, overflow := e.2.overflow.map mark,
                                                      resume := e.2.resume.map (fun v => { v with task := mark v.task }) })),
      dies := s.dies.map (fun e => (e.1, { e.2 with ready := e.2.ready.map (fun q => (q.1, q.2.map mark)) })) }
    .next (s1.preempt v (some t))

/-- Whether a pre-empted context's spill starts: it has stopped, its stores are acknowledged and its channel holds no copy
(R160). -/
def State.maySpill (s : State) (c : CtxId) : Bool :=
  let x := s.ctx c
  x.spill.isSome && decide (x.st = .wait) && decide (x.wait = .none) && x.bound.isSome
    && x.pendOwn == 0 && x.pendD == 0 && x.pendX == 0
    && decide ((SMap.look {} (s.core c.die c.core).channels c.turn).copies = [])

/-- SPILL_START: the bank's record goes to the save area, the task to its core's resume slot, and the bank is free (R160). -/
def execSpillStart (c : CtxId) (s : State) : Res :=
  if !s.maySpill c then .next s
  else
    let x := s.ctx c
    match x.bound with
    | none => .next s
    | some t =>
      let v : Saved := { r := if x.ended then x.r.advance else x.r, task := { t with since := s.cycle.toNat, preempted := false },
                         seq := (SMap.look {} (s.core c.die c.core).channels c.turn).seq, yielded := x.spill == some none, program := x.program }
      let s0 := match x.program with
        | some n => s.ownProgram c.die n c { c with turn := 8 }
        | none => s
      let s1 := (s0.onCore c.die c.core (fun k => { k with resume := enq k.resume v })).makeIdle c
      .next (s1.onCtx c (fun y => { y with st := .spilled, spill := match x.spill with | some (some t) => some (some t) | _ => none }))

/-! ## Harvest (R167, R168) -/

/-- HARVEST_UNPARK: a PARKED context whose turn is lent and whose owner is out of the rotation goes on (R141, R167). -/
def execHarvestUnpark (c : CtxId) (s : State) : Res :=
  let held := ((s.domain ((s.ctx c).r.dom.setWidth 32)).map (·.restart)).getD false
  if c.reserve && (s.ctx c).st = .parked && s.turnFree c && !held then .next (s.onCtx c (fun x => { x with st := .run })) else .next s

/-- DOMAIN_FAULT: a fault of a domain that no instruction raises here (R175, R176). -/
def execDomainFault (dom : BitVec 32) (cause : BitVec 8) (addr : Word) (s : State) : Res := .next (s.domainFault dom cause addr)

/-- Whether the re-execution of a revoked harvest domain may start: its creator's turn is lent, the owner is out and the lent page
range is not empty (R168 step 3). -/
def State.mayRestart (s : State) (d : DomRec) : Bool :=
  d.restart && (match s.creatorCtx d with
    | some c => s.turnFree c && !(s.core c.die c.core).lentPages.isEmpty
    | none => false)

/-- DOMAIN_RESTART (R168 step 3). -/
def execDomainRestart (dom : BitVec 32) (s : State) : Res :=
  match s.domain dom with
  | none => .next s
  | some d =>
    if !s.mayRestart d then .next s
    else
      match s.creatorCtx d with
      | none => .next s
      | some c => .next ((s.setDomain dom (some { d with restart := false })).ready c)

end Sys2Proof.Machine
end

