-- ==== Sys2Proof/Machine/Task.lean ====
section
/-! DEFINITION. The TASK group, major 0x60: spawning, joining and ending tasks, YIELD, arrival counters, LAUNCHD and TSELF
(R392 to R401, R148 to R157). -/

namespace Sys2Proof.Machine

/-! ## The issuing task -/

/-- What the issuing context's children inherit: its task's attributes, or its tenant's where no task is bound (R139). -/
def State.myAttr (s : State) : TaskAttr := s.cx.bound.getD { tenant := s.cx.tn }

/-- The issuing context's identity as tasks and domains name their creator: task and launch, 0 for none (R139). -/
def State.myTask (s : State) : Word × Nat :=
  match s.cx.bound with
  | some b => (b.task, b.launch)
  | none => (s.cx.r.task, 0)

/-- Whether a store of the issuing context is not acknowledged (R183, R230). -/
def State.storesOut (s : State) : Bool := s.cx.pendOwn != 0 || s.cx.pendD != 0 || s.cx.pendX != 0

/-- The issuing context's innermost domain, if its record exists (R170). -/
def State.myDomain (s : State) : Option DomRec := s.domain (s.cx.r.dom.setWidth 32)

/-- A child of the issuing context with an entry and two arguments (R139, R145, R396), and the state that has counted it. -/
def State.child (s : State) (entry a0 a1 : Word) : TaskAttr × State :=
  let p := s.myAttr
  let l := s.launchOf p.launch
  let serial := (l.map (·.serial)).getD 0
  let args := (l.map (·.args)).getD []
  let t : TaskAttr :=
    { p with task := BitVec.ofNat 64 (p.launch % 2 ^ 31 * 2 ^ 33 + 2 ^ 32 + serial), entry := entry,
             args := [a0, a1, args.headD 0#64, BitVec.ofNat 64 p.launch] ++ args.drop 1,
             dom := s.cx.r.dom.setWidth 32, parent := some s.cx.r.task,
             needs := (s.net.filter (fun w => w.owner == some s.cur)).map (·.id), vec := (s.die s.cur.die).v,
             pushed := s.lastId + 1, since := s.cycle.toNat, preempted := false }
  let s0 : State := { s with lastId := s.lastId + 1 }
  let s1 := s0.onLaunch p.launch (fun y => { y with live := y.live + 1, serial := (serial + 1) % 2 ^ 32 })
  let s2 := s1.onDomain (s.cx.r.dom.setWidth 32) (fun d => { d with members := d.members + 1 })
  (t, s2.setR { s2.cx.r with children := s2.cx.r.children + 1 })

/-- SPAWN: a child entry at the new end of the core's deque (R396). -/
def execSpawn (d a b : RegNo) (s : State) : Res :=
  let w := Enc.spawn d a b
  s.issue w true (fun s =>
    if !alignedTo (s.rd d) 4 then s.trap w 0x03#8 (s.rd d)
    else
      let c := s.child (s.rd d) (s.rd a) (s.rd b)
      match s.myCore.push c.1 with
      | none => .next (s.waitOn .overflowRing)
      | some k => .next ((c.2.onCore s.cur.die s.cur.core (fun _ => k)).finish c.2.cx.r))

/-! ## Arrival counters (R154 to R157, R394, R395) -/

/-- The checks of an instruction that names an arrival counter, steps 1 to 4 of R394. -/
def State.counterAt (s : State) (w : IWord) (va : Word) (write : Bool) (k : Access → State → Res) : Res :=
  if !alignedTo va 8 then s.trap w 0x03#8 va write
  else s.withAccess w (if write then .wr else .rd) va (fun s => s.trap w 0x04#8 va write) (fun _ _ => s.trap w 0x05#8 va write)
    (fun x s =>
      if isBasin x.loc || x.win.ship || isCtl x.loc then s.trap w 0x05#8 va write
      else if write && s.held x.loc 8 then s.trap w 0x09#8 va true
      else k x s)

/-- What an operation on a counter at its home answers, with the waits and faults of an atomic (R91, R236, R394). -/
def State.counterRmw (s : State) (w : IWord) (va : Word) (write : Bool) (x : Access) (f : Nat → Option Nat) (k : Nat → State → Res) :
    Res :=
  match s.atomic x 8 f with
  | .done old t => k old t
  | .wait y => .next (s.waitOn y)
  | .poison => s.consume w va
  | .strong => s.trap w 0x0B#8 va write
  | .lost => s.lostAccess

/-- CNTINIT: writes both fields, tags the counter with the innermost domain and attempt, and fires a counter left at zero (R154,
R395). -/
def execCntinit (d a b : RegNo) (s : State) : Res :=
  let w := Enc.cntinit d a b
  s.issue w true (fun s =>
    let va := s.rd a
    s.counterAt w va true (fun x s =>
      let tag := s.myDomain.map (fun r => (r.id, r.attempt))
      s.counterRmw w va true x (fun _ => some (s.rd b).toNat) (fun old t =>
        let u := t.onCounter x.loc (fun c => { c with tag := tag })
        .next ((u.finishLong (u.cx.r.set d (BitVec.ofNat 64 old))).settle [.fire x.loc]))))

/-- CNTDEC: subtracts from the arrival field, or records a deferred decrement; below zero it traps COUNTER_OVERFLOW (R173, R395).
Performed at the counter it is a release of the context's earlier stores (Table 8.2). -/
def execCntdec (a b : RegNo) (s : State) : Res :=
  let w := Enc.cntdec a b
  s.issue w true (fun s =>
    let va := s.rd a
    let n := (s.rd b).toNat % 2 ^ 32
    s.counterAt w va true (fun x s =>
      let dom : BitVec 32 := s.cx.r.dom.setWidth 32
      if s.myDomain.isSome && !s.counterLocal x.loc dom then
        match s.defer dom x.loc va (BitVec.ofNat 32 n) with
        | some t => .next (t.finish t.cx.r)
        | none => s.trap w 0x12#8 va
      else if s.storesOut then .next (s.waitOn .stores)
      else
        s.counterRmw w va true x (fun v => if v % 2 ^ 32 < n ∨ n = 0 then none else some (v - n)) (fun old t =>
          if old % 2 ^ 32 < n then t.trap w 0x12#8 va
          else if n = 0 then .next (t.finishLong t.cx.r)
          else
            let u := t.onCounter x.loc (fun c => { c with vec := mergeVec c.vec (t.die t.cur.die).v })
            .next ((u.finishLong u.cx.r).settle [.fire x.loc]))))

/-- CNTWAIT: completes on a counter that reads zero in both fields; otherwise takes a waiter-pool entry on the home die and waits
until the counter fires (R156, R394, R395). -/
def execCntwait (a : RegNo) (s : State) : Res :=
  let w := Enc.cntwait a
  s.issue w true (fun s =>
    let va := s.rd a
    s.counterAt w va false (fun x s =>
      match homeDie x.loc with
      | none => s.trap w 0x05#8 va
      | some h =>
        s.counterRmw w va false x (fun _ => none) (fun old t =>
          if old = 0 then .next (t.finishLong t.cx.r)
          else if 16384 ≤ t.poolUsed h then .next (t.waitOn (.waiterPool h))
          else .next ((t.onCounter x.loc (fun c => { c with waiters := enq c.waiters t.cur })).waitOn (.counter x.loc)))))

/-- SPAWNC: a child that the counter at s[a] releases: bound in the home's waiter pool, or ready at once where the counter reads zero
in both fields (R154, R156, R394, R396). -/
def execSpawnc (d a b : RegNo) (s : State) : Res :=
  let w := Enc.spawnc d a b
  s.issue w true (fun s =>
    let va := s.rd a
    s.counterAt w va false (fun x s =>
      match homeDie x.loc with
      | none => s.trap w 0x05#8 va
      | some h =>
        if !s.myAttr.place.toNat.testBit h then s.trap w 0x05#8 va
        else if !alignedTo (s.rd d) 4 then s.trap w 0x03#8 (s.rd d)
        else
          s.counterRmw w va false x (fun _ => none) (fun old t =>
            let c := t.child (s.rd d) (s.rd b) va
            if old = 0 then .next ((c.2.pushReady h (s.clusterOf x.loc) c.1).finishLong c.2.cx.r)
            else if 16384 ≤ t.poolUsed h then .next (t.waitOn (.waiterPool h))
            else .next ((c.2.onCounter x.loc (fun k => { k with bound := enq k.bound c.1 })).finishLong c.2.cx.r))))

/-! ## Joining and ending (R397, R398) -/

/-- TWAIT: until every direct child has executed TEXIT; with no task bound the context becomes IDLE (R397). -/
def execTwait (s : State) : Res :=
  s.issue Enc.twait true (fun s =>
    if s.cx.bound.isNone then .next (s.makeIdle s.cur)
    else if s.cx.r.children ≠ 0 then .next (s.waitOn .children)
    else
      let t := s.mergeV s.cur.die s.cx.r.joinVec
      .next (t.finish { t.cx.r with joinVec := [] }))

/-- A child's TEXIT reaches its parent: the live-children count falls and the child's vector joins; the parent is on a context or in a
resume slot (R397, R398). -/
def State.tellParent (s : State) (t : TaskAttr) (v : SMap (BitVec 32)) : State :=
  match t.parent with
  | none => s
  | some p =>
    let f (r : Regs) : Regs := { r with children := r.children - 1, joinVec := mergeVec r.joinVec v }
    match s.findTask (p, t.launch) with
    | some c =>
      let u := s.onCtx c (fun x => { x with r := f x.r, wait := match x.wait with | .result r => .result (f r) | w => w })
      if (u.ctx c).r.children = 0 && (u.ctx c).wait = .retry .children then u.wake c else u
    | none =>
      { s with cores := s.cores.map (fun e => (e.1, { e.2 with resume := e.2.resume.map (fun q =>
          if q.task.task == p && q.task.launch == t.launch then { q with r := f q.r } else q) })) }

/-- A member's TEXIT reaches its domain: the live-member count falls, the vector joins, the exit is counted for its launch
(R170, R398, Tables 5.6 and 8.2); a harvest launch's implicit root domain may commit (R169). -/
def State.tellDomain (s : State) (t : TaskAttr) (v : SMap (BitVec 32)) : State × List Todo :=
  match s.domain t.dom with
  | none => (s.onLaunch t.launch (fun l => { l with done := l.done + 1 }), [])
  | some d =>
    let d1 := { d with members := d.members - 1, joinVec := mergeVec d.joinVec v,
                       ran := SMap.put 0 d.ran t.launch (SMap.look 0 d.ran t.launch + 1) }
    let u := s.setDomain t.dom (some d1)
    let u1 := if d1.members = 0 then u.wakeWhy .domain else u
    if d1.root.isSome then u1.rootCommit t.dom else (u1, [])

/-- Whether the context's step program runs (R398, R422). -/
def State.programRuns (s : State) (c : CtxId) : Bool :=
  (s.die c.die).programs.any (fun e => (e.2.map (fun g => g.owner == c && g.state == 1)).getD false)

/-- TEXIT: DOMAIN_FAULT tval 2 for the creator of an uncommitted domain; then the release; then the joins, and the launch's completion
with its last live task (R131, R398). -/
def execTexit (s : State) : Res :=
  s.issue Enc.texit true (fun s =>
    let creator := match s.myDomain with
      | some d => d.root.isNone && d.creatorTask == s.myTask
      | none => false
    if creator then s.trap Enc.texit 0x0A#8 2#64
    else if s.storesOut || s.programRuns s.cur then .next (s.waitOn .texit)
    else
      match s.cx.bound with
      | none => .next (s.makeIdle s.cur)
      | some t =>
        let v := (s.die s.cur.die).v
        let s1 := (s.tellParent t v).onLaunch t.launch (fun l => { l with live := l.live - 1, outVec := mergeVec l.outVec v })
        let s2 := s1.makeIdle s.cur
        let r := s2.tellDomain t v
        .next (r.1.settle (r.2 ++ [.complete t.launch])))

/-- YIELD: an owner context of a non-cohort launch spills where an eligible owner entry of equal or higher rank waits on the die with no
IDLE owner context to take it; otherwise nothing (R399). -/
def execYield (s : State) : Res :=
  s.issue Enc.yield true (fun s =>
    let mine := s.myAttr
    let waits := (s.waitingOn s.cur.die).any (fun e =>
      (e.2.isNone || e.2 == some s.cur.core) && decide (mine.rank ≤ e.1.rank) && !s.hasTaker s.cur.die e)
    let t := s.finish s.cx.r
    if !s.cur.reserve && !s.cur.isSup && s.cx.bound.isSome && !mine.cohort && waits then .next (t.preempt s.cur none) else .next t)

/-! ## LAUNCHD and TSELF (R400, R401) -/

/-- A range of memory or basin read for an instruction's own use: translated and read word by word in address order, at its home
(Table 7.6, R400); the answer is the bytes, or how the instruction ends. -/
def State.readWords (s : State) (w : IWord) (va : Word) : Nat → Except Res (List Byte × State)
  | 0 => .ok ([], s)
  | k + 1 =>
    match s.tr .rd va with
    | .fault c => .error (s.trap w c va)
    | .aperture _ _ => .error (s.trap w 0x05#8 va)
    | .absent => .error (s.trap w 0x04#8 va)
    | .ok x =>
      match (s.fillTlb s.cur x.fill).read x 8 true with
      | .wait y => .error (.next (s.waitOn y))
      | .poison => .error (s.consume w va)
      | .lost => .error s.lostAccess
      | .val b t =>
        match t.readWords w (va + 8#64) k with
        | .error e => .error e
        | .ok r => .ok (b ++ r.1, r.2)

/-- The status of a launch that a context asks for: 0 where it is accepted (R129, R400). -/
def State.launchdStatus (s : State) (q : LaunchReq) : Nat :=
  if q.bad || q.flags.testBit 2 then 1
  else if (s.cur.reserve && q.cls < 2) || ((s.cx.bound.map (·.cls)) == some 1 && q.cls == 0) || s.launchDenied s.cx.tn q then 2
  else if q.unplaceable then 5 else 0

/-- LAUNCHD: waits for the context's stores, reads the 136-byte descriptor at its home and creates the launch; s[d] is the launch id, or
2^64 less the status (R400). -/
def execLaunchd (d a : RegNo) (s : State) : Res :=
  let w := Enc.launchd d a
  s.issue w true (fun s =>
    let va := s.rd a
    if !alignedTo va 8 then s.trap w 0x03#8 va
    else if s.storesOut then .next (s.waitOn .stores)
    else
      match s.readWords w va 17 with
      | .error e => e
      | .ok (b, t) =>
        let q := launchReq b
        let st := t.launchdStatus q
        if st ≠ 0 then .next (t.finishLong (t.cx.r.set d (BitVec.ofNat 64 (2 ^ 64 - st))))
        else
          let tn := t.cx.tn
          let vec := mergeVec (t.die t.cur.die).v (((t.tenant tn).map (·.hostVec)).getD [])
          let u := t.finishLong (t.cx.r.set d (BitVec.ofNat 64 (t.lastLaunch + 1)))
          .next (u.acceptLaunch tn q (t.cx.r.dom.setWidth 32) vec none).2)

/-- The value of TSELF (Table 14.3). -/
def State.selfWord (s : State) (sel : Nat) : Word :=
  let a := s.cx.bound
  match sel with
  | 0 => s.cx.r.task
  | 1 => BitVec.ofNat 64 ((a.map (·.launch)).getD 0)
  | 2 => BitVec.ofNat 64 (s.cur.turn % 8 + (if s.cur.reserve then 8 else 0) + s.cur.core % 64 * 2 ^ 4 + s.cur.die % 16 * 2 ^ 10
      + s.pkgid.toNat * 2 ^ 14)
  | _ =>
    match a with
    | some t => BitVec.ofNat 64 (t.place.toNat + t.cls % 4 * 2 ^ 16 + t.prio % 4 * 2 ^ 18 + if t.cohort then 2 ^ 20 else 0)
    | none => 0#64

/-- TSELF: s[d] := the selected word (R401). -/
def execTself (d : RegNo) (sel : BitVec 5) (s : State) : Res :=
  s.issue (Enc.tself d sel) (decide (sel.toNat < 4)) (fun s => .next (s.finishSet d (s.selfWord sel.toNat)))

end Sys2Proof.Machine
end

