-- ==== Sys2Proof/Machine/WeirSum.lean ====
section
/-! DEFINITION. The exact values of weir contributions, their weights, rounds and result records (R411, R413 to R415). -/

namespace Sys2Proof

open Sys2Proof.Machine

/-! ## Elements (R414) -/

/-- The element of nothing: no contribution takes part. -/
def Exact.zero : Exact := ⟨0, false, false, false, false, false⟩

/-- A decoded value times 2^171. -/
def fixed171 (neg : Bool) (m : Nat) (e : Int) : Int :=
  let x : Int := (m * 2 ^ (e + 171).toNat : Nat)
  if neg then -x else x

/-- One element of a contribution as an exact value, by OP: 0 fsum, 1 bsum, 2 isum, 3 fmax (R414, Table 14.4). -/
def exactOf (op : Nat) (code : Nat) : Exact :=
  if op = 2 then { Exact.zero with sum := signedN code 32 * 2 ^ 171, live := true }
  else
    match (if op = 1 then bf16.dec code else fp32.dec code) with
    | .nan _ => { Exact.zero with nan := true, live := true }
    | .inf n => { Exact.zero with pinf := !n, ninf := n, live := true }
    | .fin n m e => { Exact.zero with sum := fixed171 n m e, live := true, negZero := n && decide (m = 0) }

/-- The sum of two elements (R414). -/
def Exact.add (a b : Exact) : Exact :=
  { sum := a.sum + b.sum, nan := a.nan || b.nan, pinf := a.pinf || b.pinf, ninf := a.ninf || b.ninf, live := a.live || b.live,
    negZero := false }

/-- The class of an element's value for fmax: -infinity, finite, +infinity. -/
def Exact.level (a : Exact) : Nat := if a.pinf then 2 else if a.ninf then 0 else 1

/-- The larger of two elements, -0 below +0, a NaN sticky (R414). -/
def Exact.max (a b : Exact) : Exact :=
  if !a.live then b
  else if !b.live then a
  else
    let less := decide (a.level < b.level) ||
      (a.level == b.level && (decide (a.sum < b.sum) || (decide (a.sum = b.sum) && a.negZero && !b.negZero)))
    { (if less then b else a) with nan := a.nan || b.nan }

/-- Two elements combined, by OP. -/
def Exact.combine (op : Nat) (a b : Exact) : Exact := if op = 3 then a.max b else a.add b

/-- The product of an element and a weight W / 2^22; a weight of +0 contributes nothing (R414). -/
def Exact.weigh (a : Exact) (w : Nat) : Exact := if w = 0 then Exact.zero else { a with sum := a.sum * w / 2 ^ 22 }

/-- The result of an element at the close of its round, and its FLAGS: NaN 1, infinity 2, OVF 4 (R414, Table 14.5). -/
def Exact.result (op : Nat) (a : Exact) : Nat × Nat :=
  if op = 2 then
    let v := a.sum / 2 ^ 171
    ((BitVec.ofInt 32 v).toNat, if v < -(2 ^ 31 : Int) ∨ (2 ^ 31 : Int) ≤ v then 4 else 0)
  else if a.nan || (op != 3 && a.pinf && a.ninf) then (fp32.nan, 1)
  else if a.pinf then (fp32.inf, 2)
  else if a.ninf then (fp32.sign + fp32.inf, 2)
  else if a.sum = 0 then (fp32.sgn (op == 3 && a.live && a.negZero), 0)
  else
    let r := (fp32.round .rne false (decide (a.sum < 0)) a.sum.natAbs (-171)).1
    (r, if r % fp32.sign = fp32.inf then 2 else 0)

end Sys2Proof

namespace Sys2Proof.Machine

/-- The elements of a contribution's bytes. -/
def contribution (op count : Nat) (b : List Byte) : List Exact :=
  let size := if op = 1 then 2 else 4
  (List.range count).map (fun i => exactOf op (natAt b (i * size) size))

/-! ## Weights and rounds (R411, R413) -/

/-- The weight of a contribution with a lag, in units of 2^-22 (R411). -/
def Group.weight (g : Group) (lag : Nat) : Nat :=
  if g.op = 2 then 2 ^ 22
  else match g.rule with
    | 1 => 2 ^ (22 - lag)
    | 2 =>
      match bf16.dec (g.weights.getD lag 0#16).toNat with
      | .fin _ m e => m * 2 ^ (e + 22).toNat
      | _ => 0
    | _ => if g.rule = 3 && lag != 0 then 0 else 2 ^ 22

/-- A round that nothing has reached. -/
def Round.empty (count : Nat) : Round := { mask := [], folds := [], accs := List.replicate count Exact.zero, wsum := 0 }

/-- Ranks of a partial's contributions combined into a round's elements with a weight (R413, R414). -/
def Round.addData (r : Round) (op w : Nat) (data : List (List Exact)) : Round :=
  { r with accs := data.foldl (fun acc d => (acc.zip d).map (fun e => e.1.combine op (e.2.weigh w))) r.accs,
           wsum := r.wsum + (w * data.length : Nat) }

/-- On-time contributions of a partial (R413). -/
def Round.onTime (r : Round) (op w : Nat) (p : Partial) : Round :=
  { (r.addData op w p.data) with mask := p.ranks.foldl insNat r.mask }

/-- Late contributions of a partial, folded with a lag (R413). -/
def Round.fold (r : Round) (op w lag : Nat) (p : Partial) : Round :=
  { (r.addData op w p.data) with folds := r.folds ++ p.ranks.map (fun k => (k, p.tag, lag)) }

/-- Whether a fold goes before another in a record: ascending rank, then tag (Table 14.5). -/
def foldBefore (a b : Nat × BitVec 32 × Nat) : Bool :=
  decide (a.1 < b.1) || (a.1 == b.1 && decide (tagDiff a.2.1 b.2.1 < 0))

/-- Insert a fold into a sorted list. -/
def insFold (x : Nat × BitVec 32 × Nat) : List (Nat × BitVec 32 × Nat) → List (Nat × BitVec 32 × Nat)
  | [] => [x]
  | y :: t => if foldBefore x y then x :: y :: t else y :: insFold x t

/-- The bytes of a closed round's record (Table 14.5). -/
def Group.record (g : Group) (handle : BitVec 32) (tag : BitVec 32) (r : Round) : List Byte :=
  let res := r.accs.map (·.result g.op)
  let flags := res.foldl (fun m e => m ||| e.2) 0
  let wsum := (fp32.round .rne false false r.wsum.toNat (-22)).1
  let folds := r.folds.foldl (fun l x => insFold x l) []
  let entry (x : Nat × BitVec 32 × Nat) : Nat := x.2.1.toNat % 2 ^ 16 * 2 ^ 16 + x.2.2 % 16 * 2 ^ 12 + x.1 % 2 ^ 10
  bytesLE 4 handle.toNat ++ bytesLE 4 tag.toNat ++ bytesLE 2 r.mask.length ++ bytesLE 2 r.folds.length ++ bytesLE 4 wsum
    ++ bytesLE 4 flags ++ bytesLE 4 g.count ++ List.replicate 40 0#8
    ++ bytesLE 128 (r.mask.foldl (fun m k => m + 2 ^ k) 0)
    ++ (List.range 256).flatMap (fun i => bytesLE 4 ((folds[i]?.map entry).getD 0))
    ++ res.flatMap (fun e => bytesLE 4 e.1)

/-- What the root answers to a partial (R413, R416). -/
structure Verdict413 where
  /-- 0 ON_TIME, 1 FOLDED, 3 DROPPED, 4 LAGGED. -/
  status : Nat
  /-- The round it landed in. -/
  landed : BitVec 32
deriving DecidableEq, Repr, Inhabited

/-- Close the open round and, where the next one is full already, that one too (R413): the group and the records, oldest
first. -/
def Group.close (g : Group) (handle : BitVec 32) : Group × List (BitVec 32 × List Byte) :=
  let rec1 := (g.openRound, g.record handle g.openRound g.cur)
  let g1 := { g with openRound := g.openRound + 1#32, cur := g.next, next := Round.empty g.count }
  if g.k ≤ g1.cur.mask.length then
    ({ g1 with openRound := g1.openRound + 1#32, cur := Round.empty g.count },
      [rec1, (g1.openRound, g1.record handle g1.openRound g1.cur)])
  else (g1, [rec1])

/-- The root's step for one partial (R413, R415): the group, the verdict and the records of the rounds it closes. -/
def Group.take (g : Group) (handle : BitVec 32) (p : Partial) : Group × Verdict413 × List (BitVec 32 × List Byte) :=
  let o := g.openRound
  let d := tagDiff p.tag o
  if d = 0 then
    let g1 := { g with cur := g.cur.onTime g.op (g.weight 0) p }
    if g.k ≤ g1.cur.mask.length then
      let c := g1.close handle
      (c.1, ⟨0, o⟩, c.2)
    else (g1, ⟨0, o⟩, [])
  else if d = 1 then ({ g with next := g.next.onTime g.op (g.weight 0) p }, ⟨0, o + 1#32⟩, [])
  else if 1 < d ∨ d < -(g.lag : Int) then (g, ⟨4, o⟩, [])
  else
    let lag := (-d).toNat
    if g.rule = 3 then (g, ⟨3, o⟩, [])
    else if g.cur.folds.length + p.ranks.length ≤ 256 then
      ({ g with cur := g.cur.fold g.op (g.weight lag) lag p }, ⟨1, o⟩, [])
    else if lag + 1 ≤ g.lag && decide (g.next.folds.length + p.ranks.length ≤ 256) then
      ({ g with next := g.next.fold g.op (g.weight (lag + 1)) (lag + 1) p }, ⟨1, o + 1#32⟩, [])
    else (g, ⟨4, o⟩, [])

end Sys2Proof.Machine
end

