-- ==== Sys2Proof/Machine/Weir.lean ====
section
/-! DEFINITION. Weir groups at work: posts, partials, the root's step, verdicts and records (R412 to R419), and the WEIR group,
major 0x68, but for QSTART (R416 to R418). -/

namespace Sys2Proof.Machine

/-! ## The group at a die -/

/-- The root of a group: the package and die of rank 0. -/
def Group.root (g : Group) : BitVec 12 × Nat := g.members.headD (0#12, 0)

/-- The ranks that a die of this package holds, rising (R410). -/
def State.ranksOf (s : State) (g : Group) (d : Nat) : List Nat :=
  (List.range g.n).filter (fun r => g.members[r]? == some (s.pkgid, d))

/-- A handle's entry at a die for a tenant: none where the handle is absent or poisoned or another tenant's (R54, R416). -/
def State.weirEntry (s : State) (d tn : Nat) (h : BitVec 32) : Option Group :=
  match s.group h with
  | some g =>
    if (SMap.look [] s.fab.groupTables (s.physDie d)).contains h.toNat && !g.poisoned && g.tenant == tn && !(s.ranksOf g d).isEmpty then some g else none
  | none => none

/-- What a die keeps of a group. -/
def State.groupDie (s : State) (h : BitVec 32) (d : Nat) : GroupDie :=
  match s.group h with
  | some g => SMap.look {} g.dies d
  | none => {}

/-- Change what a die keeps of a group. -/
def State.onGroupDie (s : State) (h : BitVec 32) (d : Nat) (f : GroupDie → GroupDie) : State :=
  s.onGroup h (fun g => { g with dies := SMap.alter {} g.dies d f })

/-- The entry of a group is invalid in every router of the package (R54). -/
def State.clearGroup (s : State) (h : BitVec 32) : State :=
  { s with fab := { s.fab with
      groupTables := (s.fab.groupTables.map (fun e => (e.1, without e.2 (· == h.toNat)))).filter (fun e => e.2 != []) } }

/-- The entry of a group is valid in every router of the package (R54). -/
def State.bindGroup (s : State) (h : BitVec 32) : State :=
  (List.range 20).foldl (fun (t : State) k =>
    { t with fab := { t.fab with groupTables := SMap.alter [] t.fab.groupTables k (fun l => insNat l h.toNat) } }) s

/-- The header of a collective packet of a die of this package with its job key in the first payload flit; what follows the key has no layout
in the spec, and comes with the packet as data (R54). -/
def State.collHeader (s : State) (typ : BitVec 8) (h : BitVec 32) (key : Word) (src : Nat) (dst : BitVec 12 × Nat) : Packet :=
  ({ hcrc := 0#32, hseq := 0#16, hack := 0#16, ecrc := 0#32, group := h, addr := 0#56, cvp := false, opx := 0#7, dpkg := dst.1,
     ddie := BitVec.ofNat 4 dst.2, spkg := s.pkgid, sdie := BitVec.ofNat 4 src, txn := 0#16, len := 1#5, vc := 2#3, typ := typ,
     payload := bytesLE 8 key.toNat ++ List.replicate 24 0#8 } : Packet).sealed

/-- A group is poisoned: no record of it is delivered any more, the routers' entries are invalid, waiting instructions trap
WEIR_MISMATCH, its step programs end with code 5, and GROUP_POISONED is posted where told (R54, R416, R419). -/
def State.poisonGroup (s : State) (h : BitVec 32) (tell : Bool) : State :=
  match s.group h with
  | none => s
  | some g =>
    if g.poisoned then s
    else
      let s1 := s.onGroup h (fun g => { g with poisoned := true, arrived := [], messages := [], flight := [], sending := [],
                                               dies := g.dies.map (fun e => (e.1, { e.2 with partials := [] })) })
      let s2 := s1.clearGroup h
      let s3 := s2.allCtx.foldl (fun t e =>
        let hit : Option IWord := match e.2.wait with
          | .retry (.verdict k w) => if k = h then some w else none
          | .retry (.record k _ w) => if k = h then some w else none
          | .retry (.resync k _ _ w) => if k = h then some w else none
          | _ => none
        match hit with
        | some w => t.takeTrap e.1 0x0C#8 (h.setWidth 64) false false [] w
        | none => t) s2
      let s4 := s3.dies.foldl (fun t e => e.2.programs.foldl (fun u p => match p.2 with
        | some q => if q.handle = h then u.faultProgram e.1 p.1 5#8 else u
        | none => u) t) s3
      if tell then s4.post g.tenant 0x0007#16 0#8 0#32 0 (h.setWidth 64) else s4

/-! ## Partials (R412) -/

/-- A contribution joins the partial of its tag that has not left the die, or starts one; one whose rank and tag already wait for a
verdict adds nothing and is answered with that one's. -/
def GroupDie.join (x : GroupDie) (src : BitVec 12 × Nat) (rank : Nat) (tag : BitVec 32) (data : List Exact) (p : Poster) : GroupDie :=
  let dup (q : Partial) : Bool := q.tag == tag && q.ranks.contains rank
  if x.partials.any dup then
    let again : Poster := match p with
      | .ctx c r d _ => .ctx c r d true
      | .prog n r => .prog n r
    { x with partials := x.partials.map (fun q => if dup q then { q with posters := enq q.posters again } else q) }
  else if x.partials.any (fun q => q.tag == tag && !q.sent) then
    { x with partials := x.partials.map (fun q =>
        if q.tag == tag && !q.sent then { q with ranks := insNat q.ranks rank, data := enq q.data data, posters := enq q.posters p } else q) }
  else
    { x with partials := enq x.partials { src := src, tag := tag, ranks := [rank], data := [data], posters := [p], vec := [], sent := false,
                                          verdict := none } }

/-- The partial that may leave the die: one with no other of its tag awaiting its verdict. -/
def GroupDie.mayGo (x : GroupDie) : Option Partial :=
  x.partials.find? (fun q => !q.sent && !x.partials.any (fun r => r.sent && r.tag == q.tag))

/-- A partial leaves its die for the root; to another die of the package it is a causal write (R54, R218, R412). -/
def State.forwardPartial (s : State) (d : Nat) (h : BitVec 32) : State :=
  match s.group h with
  | none => s
  | some g =>
    match (SMap.look {} g.dies d).mayGo with
    | none => s
    | some p =>
      let near := g.root.1 == s.pkgid
      let s1 := if near && g.root.2 != d then (let b := s.bump d; b.2.acked d b.1) else s
      let q := { p with sent := true, vec := (s1.die d).v }
      let s2 := s1.onGroupDie h d (fun x => { x with partials := x.partials.map (fun r => if r = p then q else r) })
      if near then s2.onGroup h (fun g => { g with arrived := enq g.arrived { q with posters := [] } }) else s2.send (.partialTo (s.collHeader 0x0B#8 h g.key d g.root) q)

/-- WEIR_PARTIAL_FORWARD (R412). -/
def execWeirPartialForward (die : Nat) (handle : BitVec 32) (s : State) : Res := .next (s.forwardPartial die handle)

/-! ## The root (R413) -/

/-- Records of closed rounds go to every member die (R413). -/
def State.sendRecords (s : State) (h : BitVec 32) (g : Group) (recs : List (BitVec 32 × List Byte)) : State :=
  let vec := (s.die g.root.2).v
  recs.foldl (fun t e => g.members.eraseDups.foldl (fun u m =>
    if m.1 = s.pkgid then u.onGroup h (fun x => { x with sending := enq x.sending (m.2, ⟨e.1, e.2, vec⟩) })
    else u.send (.recordTo (s.collHeader 0x0C#8 h g.key g.root.2 m) ⟨e.1, e.2, []⟩)) t) s

/-- The root performs a partial as one step and its verdict goes back to the member die (R413). -/
def State.arrivePartial (s : State) (h : BitVec 32) (g : Group) (p : Partial) : State :=
  let r := g.take h p
  let s1 := (s.mergeV g.root.2 p.vec).onGroup h (fun _ => r.1)
  let s2 := s1.sendRecords h g r.2.2
  if p.src.1 = s.pkgid then
    s2.onGroupDie h p.src.2 (fun x => { x with partials := x.partials.map (fun q =>
      if q.sent && q.tag == p.tag then { q with verdict := some (r.2.1.status, r.2.1.landed) } else q) })
  else s2.send (.verdictTo (s.collHeader 0x0C#8 h g.key g.root.2 p.src) p.ranks r.2.1.status r.2.1.landed)

/-- Whether the root's die may perform a partial of another die of the package now: a COLL packet is a causal write (R218, R220). -/
def State.partialMay (s : State) (g : Group) (p : Partial) : Bool :=
  p.src.1 != s.pkgid || p.src.2 == g.root.2 || coversVec (s.die g.root.2).k p.vec (some p.src.2)

/-- Whether the router of a die accepts a collective packet of a type for its weir (R54). -/
def State.collOk (s : State) (die : Nat) (typ : BitVec 8) (handle : BitVec 32) (h : Packet) : Bool :=
  h.typ == typ && h.group == handle && h.dpkg == s.pkgid && h.ddie.toNat == die && s.groupOk (s.physDie die) h

/-- A contribution that is not accepted is discarded: COLL_REJ goes back with its TXN, and the supervisor hears of it (R55). -/
def State.refuseColl (s : State) (die : Nat) (h : Packet) : State :=
  (s.send (.record "rejected contribution" h.group.toNat h.txn.toNat)).inject (s.physDie die) none none h.reject.sealed

/-- WEIR_PARTIAL_ARRIVAL: the root takes the oldest partial that has reached it once its die may perform it, or one from another package in a COLL packet, which the
group check admits (R54, R55, R220, R413). -/
def execWeirPartialArrival (handle : BitVec 32) (remote : Option (Packet × RemotePartial)) (s : State) : Res :=
  match s.group handle with
  | none => match remote with
    | some (h, _) => .next (s.refuseColl h.ddie.toNat h)
    | none => .next s
  | some g =>
    match remote with
      | none =>
        if g.poisoned || g.root.1 != s.pkgid then .next s
        else match g.arrived with
        | [] => .next s
        | p :: l =>
          if !s.partialMay g p then .next s
          else .next ((s.onGroup handle (fun x => { x with arrived := l })).arrivePartial handle { g with arrived := l } p)
      | some (hd, r) =>
        if g.poisoned || g.root.1 != s.pkgid || !s.collOk g.root.2 0x0B#8 handle hd then .next (s.refuseColl hd.ddie.toNat hd)
        else if r.pkg != s.pkgid && hd.spkg == r.pkg && hd.sdie.toNat == r.die && r.ranks.all (fun k => g.members[k]? == some (r.pkg, r.die))
            && !r.ranks.isEmpty && r.data.length == r.ranks.length && r.data.all (fun l => l.length == g.count) then
          .next (s.arrivePartial handle g { src := (r.pkg, r.die), tag := r.tag, ranks := r.ranks, data := r.data, posters := [],
                                            vec := [], sent := true, verdict := none })
        else .next (s.refuseColl hd.ddie.toNat hd)

/-! ## Verdicts (R412, R416) -/

/-- A registered post: the last 16 of each rank are kept, newest first (R412). -/
def registerPost (l : List (Nat × BitVec 32 × BitVec 32 × Nat)) (rank : Nat) (tag landed : BitVec 32) (st : Nat) :
    List (Nat × BitVec 32 × BitVec 32 × Nat) :=
  ((rank, tag, landed, st) :: (l.filter (fun e => e.1 == rank)).take 15) ++ l.filter (fun e => e.1 != rank)

/-- A verdict reaches one poster: its context completes or traps WEIR_LAGGED; a step program goes on or ends with code 4
(R416, R422). -/
def State.tellPoster (s : State) (h : BitVec 32) (d : Nat) (st : Nat) (landed : BitVec 32) (p : Poster) : State :=
  match p with
  | .ctx c _ rd again =>
    match (s.ctx c).wait with
    | .retry (.verdict k w) =>
      if k ≠ h then s
      else if st = 4 then s.takeTrap c 0x0D#8 (h.setWidth 64) false false [] w
      else
        let v : Word := landed.setWidth 64 + BitVec.ofNat 64 ((if again then 2 else st) * 2 ^ 32)
        (s.onCtx c (fun x => { x with r := x.r.set rd v, ended := true })).wake c
    | _ => s
  | .prog n _ =>
    match SMap.look none (s.die d).programs n with
    | some g =>
      if g.state ≠ 1 || g.handle ≠ h || g.posted ≠ 1 then s
      else if st = 4 then s.faultProgram d n 4#8
      else s.onDie d (fun x => { x with programs := SMap.put none x.programs n (some { g with posted := 2 }) })
    | none => s

/-- A verdict reaches the member die: its ranks are registered, or stale where it is LAGGED, and its posters hear it (R412, R416). -/
def State.giveVerdict (s : State) (h : BitVec 32) (d : Nat) (p : Partial) (st : Nat) (landed : BitVec 32) : State :=
  let s1 := s.onGroupDie h d (fun x =>
    { x with partials := without x.partials (· == p),
             stale := if st = 4 then p.ranks.foldl insNat x.stale else x.stale,
             posts := if st = 4 then x.posts else p.ranks.foldl (fun l r => registerPost l r p.tag landed st) x.posts })
  p.posters.foldl (fun t q => t.tellPoster h d st landed q) s1

/-- Whether a context, or the step program it started, waits on a partial. -/
def State.posted (s : State) (c : CtxId) (p : Partial) : Bool :=
  p.posters.any (fun q => match q with
    | .ctx k _ _ _ => k == c
    | .prog n _ => ((SMap.look none (s.die c.die).programs n).map (fun g => g.owner == c)).getD false)

/-- The sent partial that a context waits on, with its group's handle. -/
def State.partialOf (s : State) (c : CtxId) : Option (BitVec 32 × Group × Partial) :=
  s.groups.findSome? (fun e => match e.2 with
    | some g => ((SMap.look {} g.dies c.die).partials.find? (fun p => p.sent && s.posted c p)).map (fun p => (BitVec.ofNat 32 e.1, g, p))
    | none => none)

/-- A partial has come back as COLL_REJ: its contributions are in no round; its contexts trap WEIR_MISMATCH and its step programs end with
code 5 (R55, R416; that a rejection is such a mismatch is read from the cause's place in R416). -/
def State.rejectPartial (s : State) (h : BitVec 32) (d : Nat) (p : Partial) : State :=
  p.posters.foldl (fun t q => match q with
    | .ctx c _ _ _ =>
      match (t.ctx c).wait with
      | .retry (.verdict k w) => if k = h then t.takeTrap c 0x0C#8 (h.setWidth 64) false false [] w else t
      | _ => t
    | .prog n _ => t.faultProgram d n 5#8) (s.onGroupDie h d (fun x => { x with partials := without x.partials (· == p) }))

/-- WEIR_VERDICT: the verdict on a context's partial reaches its die; from a root on another package it comes in a COLL_RES packet, or the
partial is rejected by COLL_REJ (R54, R55, R416). -/
def execWeirVerdict (c : CtxId) (remote : Option (Packet × Nat × BitVec 32)) (s : State) : Res :=
  match s.partialOf c with
  | none => .next s
  | some (h, g, p) =>
    if g.root.1 = s.pkgid then
      match p.verdict with
      | none => .next s
      | some v => .next (s.giveVerdict h c.die p v.1 v.2)
    else match remote with
      | none => .next s
      | some (hd, v) =>
        if s.collOk c.die 0x0C#8 h hd then .next (s.giveVerdict h c.die p v.1 v.2)
        else if s.collOk c.die 0x0D#8 h hd then .next (s.rejectPartial h c.die p)
        else .next s

/-! ## Records (R415, R417) -/

/-- The newest of a list of records. -/
def newestTag (l : List ResultRec) : Option (BitVec 32) :=
  match l with
  | [] => none
  | r :: t => some (t.foldl (fun m e => if 0 < tagDiff e.tag m then e.tag else m) r.tag)

/-- The records that a die keeps: those of the last L + 2 rounds (R415). -/
def keepRecords (lag : Nat) (l : List ResultRec) : List ResultRec :=
  match newestTag l with
  | none => l
  | some n => l.filter (fun e => decide (tagDiff n e.tag < (lag + 2 : Nat)))

/-- Whether a tag is older than the retained records (R417 check 4). -/
def tooOld (lag : Nat) (l : List ResultRec) (tag : BitVec 32) : Bool :=
  match newestTag l with
  | none => false
  | some n => decide ((lag + 2 : Nat) ≤ tagDiff n tag)

/-- The bytes of a group's record (R415). -/
def Group.recordSize (g : Group) : Nat := 1216 + 4 * g.count

/-- How a weir command of the issuing context stands with the scoreboard (R188, R189, Table 7.3). -/
inductive WeirSb where
  /-- No entry is free. -/
  | full
  /-- It holds its entry and an older one conflicts. -/
  | blocked (s : State)
  /-- It holds its entry and may go on. -/
  | ok (id : Nat) (s : State)

/-- A weir command takes its entry, or finds the one it has held since it first issued. -/
def State.weirSb (s : State) (reads : List (Nat × Nat)) (write : Option (Nat × Nat)) : WeirSb :=
  match s.myCore.loose s.cur with
  | some e => if s.myCore.mayStart e.id then .ok e.id s else .blocked s
  | none =>
    if !s.myCore.sbFree s.cur then .full
    else
      let t := s.takeSb s.cur reads write
      if t.1.myCore.mayStart t.2 then .ok t.2 t.1 else .blocked t.1

/-- A weir writes bytes into a core's basin, each word set full (Table 7.2). -/
def State.weirWrite (s : State) (c : CtxId) (off : Nat) (b : List Byte) : State :=
  let loc := basinLoc c.die c.core off
  (((wordsOf loc b.length).foldl (fun t w => (t.setFull w true).wakeWhy (.basinWord w)) (s.applyWrite loc b 0 .local))).noteHarvest c loc

/-- A record that arrives is written for a QWAIT that waits for it, where the scoreboard lets it; otherwise the QWAIT issues
again (R417). -/
def State.serveQwait (s : State) (c : CtxId) (n : Nat) (r : ResultRec) (w : IWord) : State :=
  let x := s.ctx c
  let dst := x.r.get ((w >>> 20).setWidth 5)
  let off := dst.toNat - basinBase
  let k := s.core c.die c.core
  let e : SbEntry := ⟨0, c, [], some (sbRange off n)⟩
  if (s.basinHole c x.tn dst n).isSome || s.held (basinLoc c.die c.core off) n || !k.sbFree c || k.sboard.any (fun o => o.conflicts e)
      || x.spill.isSome then s.wake c
  else (((s.weirWrite c off r.bytes).mergeV c.die r.vec).onCtx c (fun y => { y with ended := true })).wake c

/-- A record reaches a member die: it is kept, and the QWAITs that wait for it complete (R415, R417). -/
def State.takeRecord (s : State) (h : BitVec 32) (d : Nat) (r : ResultRec) : State :=
  match s.group h with
  | none => s
  | some g =>
    if g.poisoned then s
    else
      let s1 := s.onGroupDie h d (fun x => { x with records := keepRecords g.lag (enq x.records r) })
      s1.allCtx.foldl (fun t e =>
        match e.2.wait with
        | .retry (.record k tag w) => if k = h ∧ tag = r.tag ∧ e.1.die = d then t.serveQwait e.1 g.recordSize r w else t
        | _ => t) s1

/-- WEIR_RECORD_RECEIVE: a record on its way to a die, or one from a root on another package, arrives (R413, R417). -/
def execWeirRecordReceive (die : Nat) (handle tag : BitVec 32) (remote : Option (Packet × List Byte)) (s : State) : Res :=
  match s.group handle with
  | none => .next s
  | some g =>
    if g.root.1 = s.pkgid then
      match g.sending.find? (fun e => e.1 == die && e.2.tag == tag) with
      | none => .next s
      | some e => .next ((s.onGroup handle (fun x => { x with sending := without x.sending (· == e) })).takeRecord handle die e.2)
    else match remote with
      | none => .next s
      | some (hd, b) =>
        if s.collOk die 0x0C#8 handle hd && b.length = g.recordSize && !(s.ranksOf g die).isEmpty then .next (s.takeRecord handle die ⟨tag, b, []⟩) else .next s

/-- A post whose root is near and idle runs its whole way at once: forward, the root's step, the verdict, the records (R413). -/
def State.runPost (s : State) (h : BitVec 32) (d : Nat) : State :=
  let s1 := s.forwardPartial d h
  match s1.group h with
  | none => s1
  | some g =>
    match g.arrived with
    | [] => s1
    | p :: l =>
      if !s1.partialMay g p then s1
      else
      let s2 := (s1.onGroup h (fun x => { x with arrived := l })).arrivePartial h { g with arrived := l } p
      let s3 := match (s2.groupDie h d).partials.find? (fun q => q.sent && q.verdict.isSome) with
        | some q => (match q.verdict with | some v => s2.giveVerdict h d q v.1 v.2 | none => s2)
        | none => s2
      let out : List (Nat × ResultRec) := ((s3.group h).map (·.sending)).getD []
      out.foldl (fun t e => t.takeRecord h e.1 e.2) (s3.onGroup h (fun x => { x with sending := [] }))

/-- An instruction that has completed out of the rotation within the step that issued it retires at once (R317). -/
def State.retireEnded (s : State) : State :=
  if s.cx.ended && s.cx.st == .run then { s with cx := { s.cx with ended := false, r := s.cx.r.advance } } else s

/-! ## QPOST, QWAIT, QRESYNC, QSTAT -/

/-- The first poisoned byte address of a basin range (R91). -/
def State.poisonVa (s : State) (loc n : Nat) : Option Word :=
  ((wordsOf loc n).find? (fun w => s.poison.contains w)).map (fun w => BitVec.ofNat 64 (basinBase + 8 * w % 2 ^ 20))

/-- QPOST: the post block, the checks, the source read under its scoreboard entry, and the verdict (R416). -/
def execQpost (d a : RegNo) (s : State) : Res :=
  let w := Enc.qpost d a
  s.issue w true (fun s =>
    let bad (s : State) (cause : BitVec 8) (tval : Word) : Res := (s.dropLoose s.cur).trap w cause tval
    let va := s.rd a
    if !alignedTo va 8 then bad s 0x03#8 va
    else match s.readWords w va 4 with
    | .error e => e
    | .ok (b, s) =>
      let h : BitVec 32 := BitVec.ofNat 32 (natAt b 0 4)
      let tag : BitVec 32 := BitVec.ofNat 32 (natAt b 4 4)
      let src := wordAt b 8
      let w2 := wordAt b 16
      let rank := bits w2 57 48
      let die := s.cur.die
      match s.weirEntry die s.cx.tn h with
      | none => bad s 0x0C#8 (h.setWidth 64)
      | some g =>
        let size := if g.op = 1 then 2 else 4
        let n := g.count * size
        if !(s.ranksOf g die).contains rank || bits w2 47 36 != 0 || bits w2 63 58 != 0 || wordAt b 24 != 0#64
            || bits w2 31 0 != g.count || bits w2 35 32 != g.op then bad s 0x0C#8 (h.setWidth 64)
        else if !alignedTo src size then bad s 0x03#8 src
        else match s.basinHole s.cur s.cx.tn src n with
        | some v => bad s 0x05#8 v
        | none =>
          let gd := SMap.look {} g.dies die
          if gd.stale.contains rank then bad s 0x0D#8 (h.setWidth 64)
          else match gd.posts.find? (fun e => e.1 == rank && e.2.1 == tag) with
          | some e =>
            let t := s.dropLoose s.cur
            .next (t.finishLong (t.cx.r.set d (e.2.2.1.setWidth 64 + 0x200000000#64)))
          | none =>
            let off := src.toNat - basinBase
            let loc := basinLoc die s.cur.core off
            match s.weirSb [sbRange off n] none with
            | .full => .next (s.waitOn .scoreboard)
            | .blocked t => .next (t.waitOn .scoreboard)
            | .ok id t =>
              let u := t.freeSb die s.cur.core id
              match s.poisonVa loc n with
              | some v => u.consume w v
              | none =>
                let data := contribution g.op g.count (s.bytesAt loc n)
                let p := (u.onGroupDie h die (fun x => x.join (s.pkgid, die) rank tag data (.ctx s.cur rank d false))).waitOn (.verdict h w)
                if p.planned then .next p.replan
                else if g.root.1 = s.pkgid && g.arrived.isEmpty then .next ((p.replan.runPost h die).retireEnded)
                else .next (p.replan.forwardPartial die h))

/-- QWAIT: the record of a tag is delivered into the basin (R417). -/
def execQwait (d a b : RegNo) (s : State) : Res :=
  let w := Enc.qwait d a b
  s.issue w true (fun s =>
    let bad (s : State) (cause : BitVec 8) (tval : Word) (wr : Bool) : Res := (s.dropLoose s.cur).trap w cause tval wr
    let h : BitVec 32 := (s.rd a).setWidth 32
    let tag : BitVec 32 := (s.rd b).setWidth 32
    let dst := s.rd d
    let die := s.cur.die
    match s.weirEntry die s.cx.tn h with
    | none => bad s 0x0C#8 (h.setWidth 64) false
    | some g =>
      let n := g.recordSize
      if !alignedTo dst 64 then bad s 0x03#8 dst true
      else match s.basinHole s.cur s.cx.tn dst n with
      | some v => bad s 0x05#8 v true
      | none =>
        let off := dst.toNat - basinBase
        let recs := (SMap.look {} g.dies die).records
        if s.held (basinLoc die s.cur.core off) n then bad s 0x09#8 dst true
        else if tooOld g.lag recs tag then bad s 0x0D#8 (h.setWidth 64) false
        else match recs.find? (fun r => r.tag == tag) with
        | none => .next (s.waitOn (.record h tag w))
        | some r =>
          match s.weirSb [] (some (sbRange off n)) with
          | .full => .next (s.waitOn .scoreboard)
          | .blocked t => .next (t.waitOn .scoreboard)
          | .ok id t =>
            let u := ((t.weirWrite s.cur off r.bytes).freeSb die s.cur.core id).mergeV die r.vec
            .next (u.finishLong u.cx.r))

/-- The root's answer to a QRESYNC: s[d] := o, and the rank is no longer stale (R418). -/
def State.resynced (s : State) (c : CtxId) (h : BitVec 32) (rank : Nat) (d : RegNo) (o : Word) : State :=
  ((s.onGroupDie h c.die (fun x => { x with stale := without x.stale (· == rank) })).onCtx c
    (fun x => { x with r := x.r.set d o, ended := true })).wake c

/-- QRESYNC: asks the root for the open round (R418). -/
def execQresync (d a b : RegNo) (s : State) : Res :=
  let w := Enc.qresync d a b
  s.issue w true (fun s =>
    let h : BitVec 32 := (s.rd a).setWidth 32
    let rank := bits (s.rd b) 9 0
    match s.weirEntry s.cur.die s.cx.tn h with
    | none => s.trap w 0x0C#8 (h.setWidth 64)
    | some g =>
      if !(s.ranksOf g s.cur.die).contains rank then s.trap w 0x0C#8 (h.setWidth 64)
      else if g.root.1 = s.pkgid && !s.planned then
        let t := s.replan.onGroupDie h s.cur.die (fun x => { x with stale := without x.stale (· == rank) })
        .next (t.finishSet d (g.openRound.setWidth 64))
      else .next (s.replan.waitOn (.resync h rank d w)))

/-- The value of QSTAT (R418). -/
def State.qstatWord (s : State) (g : Group) (a : Word) (sel : Nat) : Word :=
  let gd := SMap.look {} g.dies s.cur.die
  match sel with
  | 0 => match newestTag gd.records with
    | some t => t.setWidth 64
    | none => 0xFFFFFFFFFFFFFFFF#64
  | 1 => BitVec.ofNat 64 (g.n + g.k * 2 ^ 11 + g.lag * 2 ^ 22 + g.rule * 2 ^ 26 + g.op * 2 ^ 28)
  | 2 =>
    let mine := (s.ranksOf g s.cur.die).drop (64 * bits a 35 32)
    BitVec.ofNat 64 ((List.range 64).foldl (fun m i => match mine[i]? with
      | some r => if gd.stale.contains r then m + 2 ^ i else m
      | none => m) 0)
  | _ =>
    match s.cx.program.bind (fun n => SMap.look none (s.die s.cur.die).programs n) with
    | some p => if p.owner = s.cur then BitVec.ofNat 64 (p.state + p.code.toNat * 2 ^ 4 + p.index * 2 ^ 12) else 0#64
    | none => 0#64

/-- QSTAT (R418). -/
def execQstat (d a sel : RegNo) (s : State) : Res :=
  let w := Enc.qstat d a sel
  s.issue w (decide (sel.toNat ≤ 3)) (fun s =>
    let h : BitVec 32 := (s.rd a).setWidth 32
    match s.weirEntry s.cur.die s.cx.tn h with
    | none => s.trap w 0x0C#8 (h.setWidth 64)
    | some g => .next (s.finishSet d (s.qstatWord g (s.rd a) sel.toNat)))

end Sys2Proof.Machine
end

