-- ==== Sys2Proof/Machine/Causal.lean ====
section
/-! DEFINITION. Causal vectors and homes: completion announcements, causal writes and reads that waited, requests that arrive at a home,
acknowledgements, and the ends of operations that left the rotation (R157, R181 to R183, R217 to R225, R234). -/

namespace Sys2Proof.Machine

/-! ## Completion announcements (R219, R224) -/

/-- The contexts that wait for a home's K or young entries issue again (R220, R222). -/
def State.wakeCausal (s : State) : State := s.wakeAll (fun _ w => w == .retry .causal)

/-- V[j] is raised to at least K[j] - 2^24 (R224). -/
def State.liftV (s : State) (die : Nat) : State :=
  s.onDie die (fun d => { d with v := d.k.foldl (fun v e => raiseVec v e.1 (e.2 - 0x01000000#32)) d.v })

/-- The vector as a CVEC packet carries it: entry j at byte 4j, little-endian (R48, R219). -/
def vectorBytes (v : SMap (BitVec 32)) : List Byte := (List.range 16).flatMap (fun j => bytesLE 4 (vecAt v j).toNat)

/-- The vector of a CVEC packet (R48, R219). -/
def Packet.vector (p : Packet) : SMap (BitVec 32) :=
  (List.range 16).foldl (fun (m : SMap (BitVec 32)) j => SMap.put 0#32 m j (BitVec.ofNat 32 (natAt p.payload (4 * j) 4))) []

/-- A CVEC packet that precedes another, with a vector (R48, R222). -/
def cvecOf (p : Packet) (v : SMap (BitVec 32)) : Packet :=
  ({ p with addr := 0#56, group := 0#32, cvp := false, opx := 0#7, len := 2#5, typ := 0x11#8, payload := vectorBytes v } : Packet).sealed

/-- The completion announcement of a die to another: a CVEC packet with LEN = 2, OPX = 1, CVP = 0 and ADDR = 0 (R219). -/
def State.announcement (s : State) (die dst : Nat) : Packet :=
  ({ hcrc := 0#32, hseq := 0#16, hack := 0#16, ecrc := 0#32, group := 0#32, addr := 0#56, cvp := false, opx := 1#7, dpkg := s.pkgid,
     ddie := BitVec.ofNat 4 dst, spkg := s.pkgid, sdie := BitVec.ofNat 4 die, txn := 0#16, len := 2#5, vc := 0#3, typ := 0x11#8,
     payload := vectorBytes (s.die die).k } : Packet).sealed

/-- COMPLETION_ANNOUNCEMENT_TIMER: K has changed and 32 cycles have passed, or 65,536 cycles have passed, since the last announcement; K is
announced to every other die of the package (R219). -/
def execCompletionAnnouncementTimer (die : Nat) (s : State) : Res :=
  let d := s.die die
  let t := s.cycle.toNat - d.announcedAt
  if 16 ≤ die || !((d.k != d.kSent && decide (32 ≤ t)) || decide (65536 ≤ t)) then .next s
  else
    let s1 := (s.onDie die (fun x => { x with kSent := x.k, announcedAt := s.cycle.toNat })).liftV die
    .next ((List.range 16).foldl (fun u j => if j = die then u else u.onDie j (fun x => { x with heard := enq x.heard (s.announcement die j) })) s1)

/-- COMPLETION_ANNOUNCEMENT: with OPX = 1 K is raised, young entries retire and V is raised with it; OPX = 0 is the vector before a request
or a reply; any other OPX is dropped and reported (R219, R221, R224). -/
def execCompletionAnnouncement (die : Nat) (p : Packet) (s : State) : Res :=
  if p.opx = 0#7 || 16 ≤ die then .next s
  else if p.opx ≠ 1#7 then .next (s.tellFault (s.dieUnit die) .droppedPacket)
  else
    let s1 := s.onDie die (fun d => { d with k := mergeVec d.k (Packet.vector p), heard := d.heard.erase p })
    .next ((s1.retireYoung die).liftV die).wakeCausal

/-! ## Writes in flight (R183, R214, R215, R220) -/

/-- A write in flight is marked performed. -/
def State.markPerformed (s : State) (id : Nat) : State :=
  { s with net := s.net.map (fun x => if x.id = id then { x with performed := true } else x) }

/-- CAUSAL_WRITE_PERFORM: a waiting causal write is performed once K covers its vector and the young table has room (R220, R221). -/
def execCausalWritePerform (id : Nat) (s : State) : Res :=
  match s.net.find? (fun w => w.id == id) with
  | none => .next s
  | some w =>
    if w.performed || w.refused || w.num.isNone || s.behind w || !s.mayPerform w then .next s
    else .next ((s.performNet w).markPerformed id)

/-- STORE_ACK: the home has performed the write, or refused it, and the acknowledgement reaches the core (R183, R217, R218). -/
def execStoreAck (id : Nat) (s : State) : Res :=
  match s.net.find? (fun w => w.id == id) with
  | none => .next s
  | some w =>
    if w.performed || w.refused then .next (s.ackNet w).wakeCausal
    else if w.num.isSome || s.behind w || !s.mayPerform w then .next s
    else .next ((s.performNet w).ackNet w).wakeCausal

/-- RDC_STAMP_AGE_DROP: a line whose stamp is more than 2^22 cycles old is dropped (R224). -/
def execRdcStampAgeDrop (die line : Nat) (s : State) : Res :=
  .next (s.onDie die (fun d =>
    { d with rdc := without d.rdc (fun r => r.sector / 4 == line && decide (r.filled + 2 ^ 22 < s.cycle.toNat)) }))

/-- HOLD_VIOLATION_REMOTE: another package's home has refused a store for a HOLD range; the context traps at its next instruction boundary
(R319). -/
def execHoldViolationRemote (c : CtxId) (va : Word) (s : State) : Res :=
  let x := s.ctx c
  match s.xlate c x.tn (x.heapbase, x.heaplim, x.heapoff) .wr va with
  | .ok a =>
    match s.net.find? (fun w => w.owner == some c && w.home.isNone && !isBasin w.loc && !w.performed && !w.refused
        && overlaps a.loc 1 w.loc w.bytes.length) with
    | some w =>
      let net := s.net.map (fun y => if y.id = w.id then { y with refused := true } else y)
      .next (({ s with net := net } : State).onCtx c (fun y => { y with atBoundary := enq y.atBoundary (0x09#8, va) }))
    | none => .next s
  | _ => .next s

/-! ## Requests from elsewhere at a home (R157, R218, R221, R222, R225, R234) -/

/-- F of an atomic by its operation (Table 11.6): none for an operation or size it does not list, else the new value if one is written. -/
def atomicOp (op : BitVec 7) (n x expected : Nat) : Option (Nat → Option Nat) :=
  match op.toNat with
  | 0x01 => some (fun old => some ((old + x) % 2 ^ (8 * n)))
  | 0x02 => some (fun old => some (old &&& x))
  | 0x03 => some (fun old => some (old ||| x))
  | 0x04 => some (fun old => some (old ^^^ x))
  | 0x05 => some (fun old => some (if signedN old (8 * n) < signedN x (8 * n) then old else x))
  | 0x06 => some (fun old => some (if signedN old (8 * n) < signedN x (8 * n) then x else old))
  | 0x07 => some (fun old => some (if old < x then old else x))
  | 0x08 => some (fun old => some (if old < x then x else old))
  | 0x09 => some (fun _ => some x)
  | 0x0A => some (fun old => if old = expected then some x else none)
  | 0x0B => if n = 4 then some (fun old => some (afadd old x)) else none
  | 0x0C => if n = 4 then some (fun old => some (afmaxabs old x)) else none
  | 0x0D => if n = 4 then some (fun _ => some 0) else none
  | _ => none

/-- The location that a request from elsewhere names: an HBM address without the slice that its requester put into ADDR[55:50] (R194). -/
def Packet.target (p : Packet) : Nat :=
  if p.addr.toNat % 2 ^ 50 < 2 ^ 41 then p.addr.toNat % 2 ^ 50 else p.addr.toNat

/-- The home slice that the requester computed (R194). -/
def Packet.atSlice (p : Packet) : Nat := p.addr.toNat / 2 ^ 50

/-- The packet of a happening that waits at its home. -/
def homeRequest : Instr → Option Packet
  | .homeWrite _ p => some p
  | .homeAtomic _ p => some p
  | .homeCntdec _ p => some p
  | .crossDieReadPerform (.packet _ p) => some p
  | _ => none

/-- A request that its home cannot perform yet waits there, in its place (R211, R220). -/
def State.waitHome (s : State) (i : Instr) : State :=
  if s.fab.waiting.contains i then s else { s with fab := { s.fab with waiting := enq s.fab.waiting i } }

/-- A request that waited is performed or refused. -/
def State.endWait (s : State) (i : Instr) : State := { s with fab := { s.fab with waiting := s.fab.waiting.erase i } }

/-- Whether no earlier request to the same line waits (R220: arrival order for each line). -/
def State.homeTurn (s : State) (i : Instr) (p : Packet) : Bool :=
  !(s.fab.waiting.takeWhile (· != i)).any (fun j => ((homeRequest j).map (fun q => decide (Packet.target q / 512 = Packet.target p / 512))).getD false)

/-- Whether a request comes from another die of this package, so that it is ordered by the causal vectors (R220, R225). -/
def State.fromDie (s : State) (h : Nat) (p : Packet) : Bool := p.spkg == s.pkgid && p.sdie.toNat != h

/-- The vector that a request carries: that of its CVEC packet, or its die's (R220). -/
def State.carried (s : State) (cv : Option Packet) (p : Packet) : SMap (BitVec 32) :=
  match cv with
  | some c => Packet.vector c
  | none => (s.die p.sdie.toNat).v

/-- A home answers a request; to another die of the package the vector given precedes the answer, and raises that die's V when it comes
(R222). -/
def State.homeAnswer (s : State) (h : Nat) (p r : Packet) (v : Option (SMap (BitVec 32))) : State :=
  match (if s.fromDie h p then v else none) with
  | some k =>
    let q : Packet := ({ r with cvp := true } : Packet).sealed
    (s.mergeV p.sdie.toNat k).inject (s.physDie h) none (some (cvecOf q k)) q
  | none => s.inject (s.physDie h) none none r.sealed

/-- What a request at its home meets first: no memory, a form that R63 does not know, its turn, a page under migration, a base die that cannot
serve, or the causal order (R58, R211, R220, R221). -/
def State.homeMeets (s : State) (i : Instr) (p : Packet) (parts : List (Nat × Nat)) (formOk write : Bool) (cv : Option Packet)
    (go : Nat → State → Res) : Res :=
  let loc := Packet.target p
  match homeDie loc with
  | none => .next ((s.endWait i).answerUnmapped p)
  | some h =>
    let d := s.die h
    let slice := Packet.atSlice p
    let late := s.fromDie h p &&
      (if write then parts.any (fun r => !s.causalMay h p.sdie.toNat slice r.1 r.2 (s.carried cv p))
       else !coversVec d.k (s.carried cv p) none || d.liveYoung.any (fun y => parts.any (fun r => (sectorsOf r.1 r.2).contains y.sector)))
    if isBasin loc || !isOwn loc || unmappedPa loc || parts.any (fun r => unmappedPa (r.1 + r.2 - 1)) then .next ((s.endWait i).answerUnmapped p)
    else if !formOk then .next ((s.endWait i).homeAnswer h p (p.back 0x10#8 []) none)
    else if !s.homeTurn i p || late || parts.any (fun r => s.locked r.1 r.2 || (s.homeWait h slice r.1 r.2).isSome) then .next (s.waitHome i)
    else go h (s.endWait i)

/-- The causal number of a write that a die of this package sends to another die: its next one (R218). -/
def State.writeFrom (s : State) (h : Nat) (p : Packet) : WriteFrom × State :=
  if s.fromDie h p then
    let b := s.bump p.sdie.toNat
    (.die p.sdie.toNat b.1, b.2.retireYoung h)
  else (.local, s)

/-- A causal write that its home has performed is acknowledged to its die (R218). -/
def State.ackFrom (s : State) : WriteFrom → State
  | .local => s
  | .die src n => s.acked src n

/-- A home refuses a write that meets a HOLD range; how the source hears of it has no packet in the spec (R319). -/
def State.refuseHome (s : State) (p : Packet) : State := s.send (.record "refused" p.txn.toNat (Packet.target p))

/-- The source of a request in the list of strong accesses: a die of this package, or 16 + the id of another (R236). -/
def State.strongSrc (s : State) (p : Packet) : Nat := if p.spkg = s.pkgid then p.sdie.toNat else 16 + p.spkg.toNat

/-- Whether a location lies in a window of a tenant of debug mode (R123, R236). -/
def State.debugAt (s : State) (loc : Nat) : Bool :=
  s.tenants.any (fun e => match e.2 with
    | some t => t.debug && t.windows.any (fun w => w.2.valid && s.ownsId w.2.pkg && decide (w.2.pbase * 4096 ≤ loc) && decide (loc < w.2.pend * 4096))
    | none => false)

/-- HOME_ATOMIC: an ATOMIC packet is performed at the home slice in one step; from another die of the package it is a causal write, whose
answer raises the requester's vector, and one that overlaps an unordered strong access yields and writes free values, or in debug mode is
not performed but refused as OVERLAP_STRONG (R218, R221, R222, R234, R236).  The operation is in OPX[5:0] and the size in OPX[6]; operand and comparison value are the first words of the
payload: the model's choice. -/
def execHomeAtomic (cv : Option Packet) (p : Packet) (s : State) : Res :=
  let n := if p.opx.toNat.testBit 6 then 8 else 4
  let mask (x : Word) : Nat := x.toNat % 2 ^ (8 * n)
  let loc := Packet.target p
  let op := atomicOp (p.opx &&& 0x3F#7) n (mask (wordAt p.payload 0)) (mask (wordAt p.payload 8))
  s.homeMeets (.homeAtomic cv p) p [(loc, n)] (op.isSome && decide (loc % n = 0) && !isCtl loc && p.len = 1#5) true cv (fun h s =>
    let slice := Packet.atSlice p
    let mix := s.unordered h (s.strongSrc p) loc n
    if s.held loc n then .next (s.refuseHome p)
    else if s.sectorPoisoned loc n then .next (s.send (.record "poison" p.txn.toNat loc))
    else if mix && s.debugAt loc then .next (s.send (.record "OVERLAP_STRONG" p.txn.toNat loc))
    else
      let fv := s.free
      let old := if mix then fv.1.toNat % 2 ^ (8 * n) else s.natAtLoc loc n
      let new := if mix then some fv.1.toNat else (op.getD (fun _ => none)) old
      let b := (if mix then fv.2 else s).writeFrom h p
      let v := (s.die h).liveYoung.foldl (fun v y => if y.sector = loc / 128 then raiseVec v y.src y.num else v) (s.die h).k
      let s1 := b.2.sliceRead h slice loc n 0
      let s2 := match new with
        | some x => s1.applyWrite loc (bytesLE n x) slice b.1
        | none => s1
      let num : Option (BitVec 32) := match b.1 with
        | .die _ k => some k
        | .local => none
      let s3 := s2.noteStrong h (s.strongSrc p) loc n num
      .next ((s3.ackFrom b.1).homeAnswer h p (p.back 7#8 (bytesLE 8 old ++ List.replicate 24 0#8)) (some v)))

/-- HOME_CNTDEC: a CNTDEC packet subtracts from both fields of a counter, or is refused for underflow; the WRITE_ACK tells that in OPX[0] and
that the counter fired in OPX[1] (R157).  From another die of the package it is a causal write (R48, R218). -/
def execHomeCntdec (cv : Option Packet) (p : Packet) (s : State) : Res :=
  let loc := Packet.target p
  let ack (r : Nat) : Packet := { p.back 5#8 [] with opx := BitVec.ofNat 7 r }
  let formOk := loc % 8 = 0 && p.len = 1#5 && (p.payload.drop 8).all (· == 0#8)
  s.homeMeets (.homeCntdec cv p) p [(loc, 8)] formOk true cv (fun h s =>
    let arrival := natAt p.payload 0 4
    let pending := natAt p.payload 4 4
    let v := s.natAtLoc loc 8
    if s.held loc 8 then .next (s.refuseHome p)
    else if s.sectorPoisoned loc 8 then .next (s.send (.record "poison" p.txn.toNat loc))
    else if v % 2 ^ 32 < arrival ∨ v / 2 ^ 32 < pending then .next (s.homeAnswer h p (ack 1) none)
    else if arrival = 0 ∧ pending = 0 then .next (s.homeAnswer h p (ack 0) none)
    else
      let u := v - arrival - pending * 2 ^ 32
      let b := s.writeFrom h p
      let vec := if s.fromDie h p then s.carried cv p else []
      .next (((b.2.setCounter loc u vec b.1).ackFrom b.1).settle [.fire loc] |>.homeAnswer h p (ack (if u = 0 then 2 else 0)) none))

/-- The sectors of a WRITE, or the bytes of a WRITE_MASKED, as locations with their bytes (Table 3.2). -/
def Packet.writes (p : Packet) : List (Nat × List Byte) :=
  if p.typ = 4#8 then
    let z := p.maskedAt
    if z.1 + z.2 ≤ 32 then [(Packet.target p / 32 * 32 + z.2, p.payload.take z.1)] else []
  else
    let l := maskSectors (p.opx.toNat % 16)
    if p.len.toNat = 4 * l.length ∧ p.payload.length = 128 * l.length then
      l.zipIdx.map (fun e => (Packet.target p / 512 * 512 + 128 * e.1, (p.payload.drop (128 * e.2)).take 128))
    else []

/-- HOME_WRITE: a WRITE or WRITE_MASKED of another die or package is performed at its home slice and acknowledged; one into a HOLD range is
refused (R218, R220, R225, R319).  Its form is taken to be that of Table 3.2. -/
def execHomeWrite (cv : Option Packet) (p : Packet) (s : State) : Res :=
  let l := Packet.writes p
  s.homeMeets (.homeWrite cv p) p (l.map (fun e => (e.1, e.2.length))) (!l.isEmpty && !isCtl (Packet.target p)) true cv (fun h s =>
    let slice := Packet.atSlice p
    if l.any (fun e => s.held e.1 e.2.length) then .next (s.refuseHome p)
    else
      let b := s.writeFrom h p
      .next (((l.foldl (fun (t : State) e => t.applyWrite e.1 e.2 slice b.1) b.2).ackFrom b.1).homeAnswer h p (p.back 5#8 []) none))

/-- A READ packet at its home: the sectors are returned with their poison mask; to another die of the package the line's exported bit is set
and K precedes the answer (R64, R218, R220, R222). -/
def State.homeRead (s : State) (cv : Option Packet) (p : Packet) : Res :=
  let m := p.opx.toNat % 16
  let line := Packet.target p / 512
  let secs := maskSectors m
  s.homeMeets (.crossDieReadPerform (.packet cv p)) p (secs.map (fun i => (line * 512 + 128 * i, 128))) (m ≠ 0 && p.len = 0#5 && !isCtl (line * 512))
    false cv (fun h s =>
    let slice := Packet.atSlice p
    let poison := secs.foldl (fun x i => if s.sectorPoisoned (line * 512 + 128 * i) 128 then x + 2 ^ i else x) 0
    let data := secs.flatMap (fun i => s.bytesAt (line * 512 + 128 * i) 128)
    let k := (s.die h).k
    let s1 := secs.foldl (fun (t : State) i => t.sliceRead h slice (line * 512 + 128 * i) 128 0) (s.retireYoung h)
    let s2 := if s.fromDie h p then s1.onDie h (fun x => { x with exported := insNat x.exported line }) else s1
    let r : Packet := { p.back 2#8 data with opx := BitVec.ofNat 7 m, addr := BitVec.ofNat 56 (line * 512 + poison) }
    .next (s2.homeAnswer h p r (some k)))

/-- CROSS_DIE_READ_PERFORM: a cross-die READ that waited for K or a young entry is tried again at its home, or one arrives as a packet
(R220, R222). -/
def execCrossDieReadPerform (r : ReadReq) (s : State) : Res :=
  match r with
  | .ctx c => .next (if (s.ctx c).wait = .retry .causal then s.wake c else s)
  | .packet cv p => s.homeRead cv p

/-! ## Operations that left the rotation (R181, R182) -/

/-- The operation of a waiting context completes: its result is written and the context rejoins its turn. -/
def State.completeOp (s : State) (c : CtxId) : State :=
  match (s.ctx c).wait with
  | .result r => if (s.ctx c).st = .wait then (s.onCtx c (fun x => { x with r := r, ended := true })).wake c else s
  | _ => s

/-- LOAD_DATA_RETURN: all data of a load has returned (R182). -/
def execLoadDataReturn (c : CtxId) (s : State) : Res := .next (s.completeOp c)

/-- LONG_OP_COMPLETE: any other operation of Table 7.1 has its result; a QRESYNC has its root's answer, which from a root on
another package comes with the event (R182, R418). -/
def execLongOpComplete (c : CtxId) (answer : Option Word) (s : State) : Res :=
  match (s.ctx c).wait with
  | .retry (.resync h rank d _) =>
    match s.group h with
    | none => .next s
    | some g =>
      match (if g.root.1 = s.pkgid then some (g.openRound.setWidth 64) else answer) with
      | some o => .next (s.resynced c h rank d o)
      | none => .next s
  | _ => .next (s.completeOp c)

end Sys2Proof.Machine
end

