-- ==== Sys2Proof/Machine/Power.lean ====
section
/-! DEFINITION. Reset and the reset sequence (R16 to R19, R28 to R35), power, voltage and temperature (R20 to R24), the timebase of
a guest die (R27), and writes to registers that have no row of their own (R7, R30, R83). -/

namespace Sys2Proof

/-- A happening inside the package that a reset ends: what is on its way between its routers, slices and base dies (R35). -/
def Instr.inFlight : Instr → Bool
  | .hopPacketReceive j _ => decide (32 ≤ j)
  | .ackReceived j _ => decide (32 ≤ j)
  | .nakReceived j _ => decide (32 ≤ j)
  | .unmappedResponse _ => true
  | .e2eNak _ => true
  | .completionAnnouncement _ _ => true
  | .crossDieReadPerform _ => true
  | .homeAtomic _ _ => true
  | .homeCntdec _ _ => true
  | .homeWrite _ _ => true
  | .baseDieRead _ _ _ => true
  | .baseDieWrite _ _ => true
  | .victimWrite _ _ => true
  | .overflowFlush _ _ => true
  | .overflowDiscard _ _ => true
  | .writeMasked _ _ => true
  | .shipRoutine _ _ => true
  | .stitchWrite _ _ _ => true
  | .requesterReply _ => true
  | .stitchDeltaReceive _ _ => true
  | .stitchAckReceive _ _ _ _ => true
  | _ => false

end Sys2Proof

namespace Sys2Proof.Machine

open Crypto

/-! ## Reset (R33, R35) -/

/-- The router registers before boot step 5 fills them: every entry zero (Tables 2.2 and 2.3). -/
def State.clearRouters (s : State) : State :=
  (List.range 48).foldl (fun t i => t.setRouters (4 * i) 0#32) s

/-- Whether a location is memory of another package, which this package's reset leaves alone (Table 1.3). -/
def isForeign (loc : Nat) : Bool := !isOwn loc && !isBasin loc

/-- The parts of the checkpoint steps that other members hold: this package's step areas lie in its HBM, which a reset zeroes (R35, R114,
Table 1.3). -/
def State.ckptsElsewhere (s : State) : List CkptStep :=
  s.rcv.ckpts.map (fun c =>
    { c with units := c.units.filter (fun u => c.members[u.slot]? != some s.pkgid), records := c.records.filter (fun r => r.1 != s.pkgid) })

/-- The start of the reset sequence: what fuses, flash and the base-die records hold survives, and what other packages hold; everything else
is as after power-on (R28, R33, R35, Table 1.3).  Messages already sent and the model's own input and plan stay. -/
def State.startReset (s : State) : State :=
  let sps := ([0, 1] : List Nat).filter (fun x => !s.retired (.serviceProcessor x))
  let t : State := { State.reset with
    pkg := { State.reset.pkg with boot := 0x01#8, fuse0 := s.pkg.fuse0, fuse1 := s.pkg.fuse1, flash0 := s.pkg.flash0, flash1 := s.pkg.flash1,
                                  pdies := [], attach := s.pkg.attach, nonces := s.pkg.nonces, spareDies := [], spareStacks := [] },
    rcv := { State.reset.rcv with ckpts := s.ckptsElsewhere, sps := sps },
    host := { State.reset.host with mac := s.host.mac, ip6 := s.host.ip6, ip4 := s.host.ip4, up := false, controller := if sps.contains 0 && !s.retired (.hostController 0) then 0 else 1 },
    hbm := (List.range 34).map (fun h =>
      (h, ({ remaps := (s.stack h).remaps, retired := (s.stack h).retired, portA := false, portB := false } : StackSt))),
    mem := s.mem.filter (fun c => isForeign c.1), poison := s.poison.filter (fun w => isForeign (8 * w)),
    lastId := s.lastId, outbox := s.outbox, inbox := s.inbox.filter (fun i => !i.inFlight), plan := s.plan, freeCtr := s.freeCtr }
  t.clearRouters

/-- COLD_RESET (R33). -/
def execColdReset (s : State) : Res := .next s.startReset

/-- WARM_PACKAGE_RESET; a package that tripped stays off until a cold reset (R24, R33, R35). -/
def execWarmPackageReset (s : State) : Res := .next (if s.pkg.powered then s.startReset else s)

/-! ## Measured boot (R28 to R32) -/

/-- Whether the boot ROM accepts an image: its signature verifies under a key whose hash is fused, and its security version is at least the
fused counter (R29).  The signature covers the eight bytes of the version, least significant first, and then the image. -/
def imageOk (f : Fuses) (m : Image) : Bool :=
  sha384 (keyBytes m.key) == f.keyHash && ecdsaVerify m.key (bytesLE 8 m.version.toNat ++ m.bytes) m.sig && decide (f.version.toNat ≤ m.version.toNat)

/-- The slot that the boot ROM takes: A, or B as a whole, or none (R29). -/
def slotOf (d : Flash) (f : Fuses) : Option (List Image × FwConfig) :=
  let ok (l : List Image) : Bool := decide (l.length = 4) && l.all (imageOk f)
  if ok d.slotA then some (d.slotA, d.configA) else if ok d.slotB then some (d.slotB, d.configB) else none

/-- The slot of an I/O die's service processor (R29). -/
def State.slotAt (s : State) (x : Nat) : Option (List Image × FwConfig) :=
  if x = 0 then slotOf s.pkg.flash0 s.pkg.fuse0 else slotOf s.pkg.flash1 s.pkg.fuse1

/-- meas[i] := SHA-384(meas[i] || hash) (R30). -/
def State.extendMeas (s : State) (x i : Nat) (h : BitVec 384) : State :=
  let old := SMap.look 0#384 s.pkg.meas (8 * x + i)
  { s with pkg := { s.pkg with meas := SMap.put 0#384 s.pkg.meas (8 * x + i) (sha384 (bytesBE 48 old.toNat ++ bytesBE 48 h.toNat)) } }

/-- The images that a service processor booted. -/
def State.booted (s : State) (x : Nat) : List Image := if x = 0 then s.pkg.booted0 else s.pkg.booted1

/-- A service processor boots: its images are measured into registers 0 to 3 (R29, R30). -/
def State.bootOne (s : State) (x : Nat) (l : List Image) : State :=
  let t := (l.zipIdx).foldl (fun (u : State) e => u.extendMeas x e.2 (sha384 e.1.bytes)) s
  { t with pkg := if x = 0 then { t.pkg with booted0 := l } else { t.pkg with booted1 := l } }

/-- Step 2 ends: every working service processor has verified and measured images 0 to 3, or one stops with IMAGE_REJECTED (R29, R30). -/
def State.bootImages (s : State) : State :=
  if s.rcv.sps.any (fun x => (s.slotAt x).isNone) then { s with pkg := { s.pkg with boot := 0x80#8 } }
  else
    let t := s.rcv.sps.foldl (fun u x => u.bootOne x (((s.slotAt x).map (·.1)).getD [])) s
    { t with pkg := { t.pkg with boot := 0x03#8 } }

/-- Step 3 ends: registers 0 to 3 of both service processors are compared (R31). -/
def State.bootCompare (s : State) : State :=
  let same := (List.range 4).all (fun i => SMap.look 0#384 s.pkg.meas i == SMap.look 0#384 s.pkg.meas (8 + i))
  { s with pkg := { s.pkg with boot := if same || decide (s.rcv.sps.length < 2) then 0x04#8 else 0x81#8 } }

/-! ## Binding (R16 to R19) -/

/-- The cores of a physical die that passed self-test and are not retired, in ascending order (R16, R17). -/
def State.goodCores (s : State) (r : BootReport) (p : Nat) : List Nat :=
  let l := ((r.dieTests.find? (fun e => e.1 == p)).map (·.2.1)).getD []
  (List.range 68).filter (fun q => l.contains q && !s.retired (.core p q))

/-- Whether a physical die is usable: at least 64 of its cores and both supervisor cores pass, and the repair record does not retire it (R16,
R17). -/
def State.usableDie (s : State) (r : BootReport) (p : Nat) : Bool :=
  decide (64 ≤ (s.goodCores r p).length) && decide (2 ≤ ((r.dieTests.find? (fun e => e.1 == p)).map (·.2.2)).getD 0)
    && !s.retired (.dieShared p)

/-- The physical stacks bound to M0 to M31 in order: attached to the home die where one is left, else the lowest (R17). -/
def bindStacks (attach : List (Nat × Nat)) (dies : List Nat) : Nat → Nat → List Nat → List Nat
  | 0, _, _ => []
  | k + 1, j, free =>
    let near (h : Nat) : Bool := match dies[j / 2]?, attach[h]? with
      | some p, some e => e.1 == p || e.2 == p
      | _, _ => false
    match (free.find? near).or free.head? with
    | none => []
    | some h => h :: bindStacks attach dies k (j + 1) (without free (· == h))

/-- The bytes of the final maps by which register 4 is extended: the DIEMAP and then the STKMAP entries of router 0, in the order of the
logical numbers, four bytes each, least significant first.  DESIGN CHOICE: R30 names the maps and their order, not their bytes. -/
def State.mapBytes (s : State) : List Byte := (List.range 48).flatMap (fun i => bytesLE 4 (s.router 0 (4 * i)).toNat)

/-- Whether every logical die has a valid entry (R18). -/
def State.allMapped (s : State) : Bool := (List.range 16).all (fun d => (s.router 0 (4 * d)).toNat.testBit 31)

/-- Asnor extends register 4 of both service processors with the final maps (R30). -/
def State.measureMaps (s : State) : State :=
  let m := sha384 s.mapBytes
  s.rcv.sps.foldl (fun t x => t.extendMeas x 4 m) s

/-- A die-map or stack-map entry of this package: valid, local (R40). -/
def ownEntry (id : BitVec 12) (unit : Nat) : BitVec 32 := 0x80000000#32 ||| (id.setWidth 32 <<< 12) ||| BitVec.ofNat 32 unit

/-- The chip-to-chip ports train (R34 step 4, R52). -/
def State.trainPorts (s : State) : State :=
  let train : PortDir := { state := 1, target := 2 }
  (List.range 32).foldl (fun t j => t.onPort j (fun q => { q with tx := train, rx := train })) s

/-- Step 5 ends: the usable dies and stacks in ascending order take the logical identities, the others are parked, and the maps and the package
id, which the fabric configuration gives for the identity key, are written to every router (R16 to R19, R42).  A package short of stacks
takes no logical identity and stops at STACKS_SHORT with its ports and MAINT traffic running; one short of dies asks its peers for remote
ones (R99). -/
def State.bootBind (s0 : State) (r : BootReport) : State :=
  let s : State := { s0 with pkg := { s0.pkg with config := ((s0.slotAt (s0.rcv.sps.headD 0)).map (·.2)).getD ⟨[], []⟩ } }
  let dies := (List.range 18).filter (s.usableDie r)
  let stks := (List.range 34).filter (fun h => r.stackTests.contains h && !s.retired (.stack h) && !(s.stack h).retired)
  if stks.length < 32 then { s with pkg := { s.pkg with boot := 0x83#8 } }.trainPorts
  else
    let id := ((s.fabEntry s.identity.2).map (·.id)).getD 0xFFF#12
    let bound := bindStacks s.pkg.attach (dies.take 16) 32 0 stks
    let s1 := s.setRouters 0xC8 (id.setWidth 32)
    let s2 := ((dies.take 16).zipIdx).foldl (fun (t : State) e => t.setRouters (4 * e.2) (ownEntry id e.1)) s1
    let s3 := (bound.zipIdx).foldl (fun (t : State) e =>
      (t.setRouters (0x40 + 4 * e.2) (ownEntry id e.1)).onStack e.1 (fun x => { x with portA := true, portB := true })) s2
    let spares := stks.filter (fun h => !bound.contains h)
    let s4 := spares.foldl (fun t h => t.onStack h (fun x => { x with portA := true, portB := true, spare := true, halted := true })) s3
    let s5 := (dies.zipIdx).foldl (fun (t : State) e =>
      let l := s.goodCores r e.1
      t.onPDie e.1 (fun d => { d with map := l.take 64, spares := l.drop 64, rail := decide (e.2 < 16) })) s4
    let s6 : State := { s5 with pkg := { s5.pkg with boot := if dies.length < 16 then 0x82#8 else 0x06#8, spareDies := dies.drop 16,
                                                     spareStacks := spares } }
    let s7 := s6.trainPorts
    if dies.length < 16 then ((List.range 16).drop dies.length).foldl (fun (t : State) d => t.send (.maint "spare die request" d)) s7
    else s7.measureMaps

/-- Step 7 ends: every memory of this package is zero, every basin word is empty and every register bank reads zero (R34, R35). -/
def State.scrub (s : State) : State :=
  { s with
    mem := s.mem.filter (fun c => isForeign c.1), poison := s.poison.filter (fun w => isForeign (8 * w)), fe := [], under := [],
    cx := {}, banks := [], cores := [],
    dies := (s.dies.map (fun e => (e.1, { e.2 with rdc := [], l2 := [] }))).filter (fun e => e.2 != {}),
    hbm := s.hbm.map (fun e => (e.1, { e.2 with oc := [] })) }

/-- Step 8 ends: the supervisor firmware runs on all 32 supervisor cores from its start address; there is no routine and no tenant (R34,
R335). -/
def State.startFirmware (s : State) (r : BootReport) : State :=
  let s1 := (List.range 16).foldl (fun (t : State) d => ([64, 65] : List Nat).foldl (fun (u : State) c =>
    u.onCtx ⟨d, c, 0, false⟩ (fun x => { x with st := .run, r := { x.r with pc := r.start } })) t) s
  { s1 with pkg := { s1.pkg with boot := 0x09#8, trapEntry := r.trapEntry }, tenants := [],
            hbm := s1.hbm.map (fun e => (e.1, { e.2 with routines := [] })) }

/-- RESET_SEQUENCE_STEP_DONE: the step whose boot status stands has finished on every unit it names (Table 1.4). -/
def execResetSequenceStepDone (r : BootReport) (s : State) : Res :=
  if !s.pkg.powered then .next s
  else match s.pkg.boot.toNat with
    | 1 => .next { s with pkg := { s.pkg with boot := 0x02#8 } }
    | 2 => .next s.bootImages
    | 3 => .next s.bootCompare
    | 4 => .next { s with pkg := { s.pkg with boot := 0x05#8 } }
    | 5 => .next (s.bootBind r)
    | 6 => .next { s with pkg := { s.pkg with boot := 0x07#8 }, cycle := 0#64 }
    | 7 => .next { s.scrub with pkg := { s.pkg with boot := 0x08#8 } }
    | 8 => .next (s.startFirmware r)
    | 9 => .next { s with host := { s.host with up := true } }
    | _ => .next s

/-- SECURITY_VERSION_ADVANCE: once both service processors have booted the same newer images, the counters of both I/O dies advance, to no
more than the lowest version among those images (R31, R32). -/
def execSecurityVersionAdvance (version : Word) (s : State) : Res :=
  let l := s.pkg.booted0
  if s.rcv.sps.length = 2 ∧ l ≠ [] ∧ l = s.pkg.booted1 ∧ l.all (fun m => decide (version.toNat ≤ m.version.toNat)) = true then
    let up (f : Fuses) : Fuses := if f.version.toNat < version.toNat then { f with version := version } else f
    .next { s with pkg := { s.pkg with fuse0 := up s.pkg.fuse0, fuse1 := up s.pkg.fuse1 } }
  else .next s

/-! ## Temperature, power and voltage (R20 to R24) -/

/-- THERMAL_SENSOR_SAMPLE: the responses of Table 1.2 to the hottest sensor of a logical die, or of a stack; the event and the fault
event are those of the reading that enters the band.  At 115 degrees the die has a lasting fault (R84), and all rails go down. -/
def execThermalSensorSample (stack : Bool) (unit milliC : Nat) (s : State) : Res :=
  if 115000 ≤ milliC then
    let t := if stack then s else (s.tellFault (s.dieUnit unit) .thermal).lasting (s.dieUnit unit) false
    .next { t with pkg := { t.pkg with powered := false } }
  else if stack then .next s
  else
    let was := SMap.look 0 s.pkg.temps unit
    let s1 : State := { s with pkg := { s.pkg with temps := SMap.put 0 s.pkg.temps unit milliC } }
    let duty (now : Nat) : Nat :=
      if 105000 ≤ milliC then 2 else if 100000 ≤ milliC then 1 else if 98000 ≤ milliC then min now 1 else 0
    let s2 := s1.onDie unit (fun d => { d with throttle := duty d.throttle })
    let s3 := if 100000 ≤ milliC && was < 100000 then s2.postAll 0x0010#16 (BitVec.ofNat 64 unit) else s2
    .next (if 105000 ≤ milliC && was < 105000 then s3.faultEvent (s3.dieUnit unit) .thermal else s3)

/-- POWER_WINDOW_CHECK: above the cap the dies with the highest draw are throttled; otherwise the cap throttles none (R22). -/
def execPowerWindowCheck (watts : Nat) (hottest : List Nat) (s : State) : Res :=
  .next ((List.range 16).foldl (fun t d => t.onDie d (fun x => { x with throttleCap := decide (t.pkg.cap < watts) && hottest.contains d })) s)

/-- AVS_RATE_CHECK: from the timing-detector events counted on the die, 5 mV up above 1 event per 10^9 cycles, 5 mV down below 1 per 10^11
for 1 s; never outside of 380 to 480 mV.  A step begins a new count (R21, R85). -/
def execAvsRateCheck (die : Nat) (s : State) : Res :=
  let d := s.die die
  let cycles := s.cycle.toNat - d.timingSince
  let move (mv : Nat) : Res := .next (s.onDie die (fun x => { x with timingEvents := 0, timingSince := s.cycle.toNat, millivolts := mv }))
  if cycles < d.timingEvents * 10 ^ 9 then move (min 480 (d.millivolts + 5))
  else if d.timingEvents * 10 ^ 11 < cycles && decide (4 * 10 ^ 9 ≤ cycles) then move (max 380 (d.millivolts - 5))
  else .next s

/-! ## The timebase of a guest die (R27) -/

/-- The count of a guest die: since its last load or correction it runs at half speed while it leads and at double speed while it
trails (R27); before a load it has that of the package it sits on. -/
def State.guestCount (s : State) (pdie : Nat) : Nat :=
  let d := s.die (guestKey pdie)
  match d.guestBase with
  | none => s.cycle.toNat
  | some (c, at_) =>
    let t := s.cycle.toNat - at_
    if 0 ≤ d.lead then
      let l := d.lead.toNat
      if t ≤ 2 * l then c.toNat + t / 2 else c.toNat + t - l
    else
      let l := (-d.lead).toNat
      if t ≤ l then c.toNat + 2 * t else c.toNat + t + l

/-- GUEST_TIMEBASE_CORRECTION: the difference from the owning package's timebase is measured anew and slewed away (R27). -/
def execGuestTimebaseCorrection (pdie : Nat) (owning : Word) (s : State) : Res :=
  if s.rcv.guests.any (fun g => g.1 == pdie) && (s.die (guestKey pdie)).guestBase.isSome then
    let now := s.guestCount pdie
    .next (s.onDie (guestKey pdie) (fun d => { d with guestBase := some (BitVec.ofNat 64 now, s.cycle.toNat),
                                                      lead := (now : Int) - (owning.toNat : Int) }))
  else .next s

/-! ## Registers without a row of their own (R7, R30, R39, R81, R83) -/

/-- REGISTER_WRITE: a control register; a hash into measurement register 5, 6 or 7, which Asnor extends on request of the supervisor firmware;
or THRESH, 1 to 15, and WINDOW, 1 to 1,000 ms, of a unit class (R7, R30, R39, R53, R81, R83). -/
def execRegisterWrite (r : RegWrite) (s : State) : Res :=
  match r with
  | .ctl a v w => .next (s.ctlWrite a v w)
  | .meas i h => .next (if 5 ≤ i ∧ i ≤ 7 then s.rcv.sps.foldl (fun t x => t.extendMeas x i h) s else s)
  | .param c n w =>
    .next (if c < 6 ∧ 1 ≤ n ∧ n ≤ 15 ∧ 1 ≤ w ∧ w ≤ 1000 then { s with rcv := { s.rcv with params := SMap.put (0, 0) s.rcv.params c (n, w) } } else s)

end Sys2Proof.Machine
end

