-- ==== Sys2Proof/Machine/Recovery.lean ====
section
/-! DEFINITION. Faults, sparing and recovery: fault events, votes, the change of a die map, the retirement of cores, stacks and dies, the
loss of a package, and stitch groups (R44, R82 to R110, R390). -/

namespace Sys2Proof.Machine

/-! ## Fault events (R82 to R91) -/

/-- An uncorrectable error poisons its storage unit: an 8-byte basin word or an L2 sector of a core, a sector of a die's RDC, or an HBM
granule of a stack, by a location in it (R91). -/
def State.poisonUnit (s : State) (u : FUnit) (loc : Nat) : State :=
  match u with
  | .core _ _ =>
    if isBasin loc then
      if s.coreUnit ((loc - 2 ^ 72) / 2 ^ 26) ((loc - 2 ^ 72) / 2 ^ 20 % 64) = u then s.setPoison (loc / 8 * 8) 8 true else s
    else match homeDie loc with
      | some d =>
        if ((s.l2Line d (loc / 512)).map (fun x => s.coreUnit d x.slice)) = some u then s.poisonCached (loc / 128) else s
      | none => s
  | .dieShared p =>
    { s with dies := s.dies.map (fun e => if s.physDie e.1 = p then
        (e.1, { e.2 with rdc := e.2.rdc.map (fun r => if r.sector = loc / 128 then { r with poison := true } else r) }) else e) }
  | .stack h => if isOwn loc && s.stackAt loc == h then s.poisonGranule (loc / 32) else s
  | _ => s

/-- FAULT_EVENT: an uncorrectable error poisons its storage unit; the event is recorded and counted (R82, R83, R91). -/
def execFaultEvent (u : FUnit) (kind : FKind) (loc : Option Nat) (s : State) : Res :=
  let t := match kind, loc with
    | .uncorrectable, some l => s.poisonUnit u l
    | _, _ => s
  .next (t.faultEvent u kind)

/-- PROBE_TIMEOUT: a lasting fault at once, and the unit is silent (R84, R105). -/
def execProbeTimeout (u : FUnit) (s : State) : Res := .next (s.faultEvent u .noResponse)

/-- The operation of the matrix engine that a context has issued is discarded with its scoreboard entry (R89). -/
def State.dropOp (s : State) (c : CtxId) : State :=
  let gone := ((s.core c.die c.core).engine.filter (fun o => o.owner == c)).map (·.sb)
  (s.onCore c.die c.core (fun k =>
    { k with engine := without k.engine (fun o => o.owner == c), sboard := without k.sboard (fun e => gone.contains e.id) })).wakeWhy .scoreboard

/-- TIMING_DETECTOR_REPLAY: counted for voltage control only; a replay that is itself flagged escalates: the instruction's results go, a
core event is counted, and the innermost domain faults or the context traps ENGINE_UNRECOVERED (R82, R85, R88, R89). -/
def execTimingDetectorReplay (c : CtxId) (again : Bool) (s : State) : Res :=
  let s1 := s.onDie c.die (fun d => { d with timingEvents := d.timingEvents + 1 })
  let u := s1.coreUnit c.die c.core
  if !again then .next (s1.tellFault u .timingReplay)
  else
    let s2 := s1.faultEvent u .timing
    let x := s2.ctx c
    if x.st ≠ .run ∧ x.st ≠ .wait then .next s2
    else
      let s3 := if x.wait = .retry .matrix then s2.dropOp c else s2
      if (s3.domain (x.r.dom.setWidth 32)).isSome then .next (s3.domainFault (x.r.dom.setWidth 32) 0x08#8 0#64)
      else .next ((s3.leaveWaits c).takeTrap c 0x08#8 x.r.pc false false [] 0#32)

/-! ## Voting (R102 to R105) -/

/-- The proposal for a unit, if one is pending. -/
def State.proposal (s : State) (u : FUnit) : Option Proposal := s.rcv.proposals.find? (fun p => p.unit == u)

/-- Change a pending proposal. -/
def State.onProposal (s : State) (u : FUnit) (f : Proposal → Proposal) : State :=
  { s with rcv := { s.rcv with proposals := s.rcv.proposals.map (fun p => if p.unit = u then f p else p) } }

/-- A proposal ends. -/
def State.endProposal (s : State) (u : FUnit) : State :=
  { s with rcv := { s.rcv with proposals := without s.rcv.proposals (fun p => p.unit == u) } }

/-- A unit is fenced and silent no more: what waited for it goes on (R105). -/
def State.unfence (s : State) (u : FUnit) : State :=
  let t : State := { s with rcv := { s.rcv with fenced := without s.rcv.fenced (· == u), silent := without s.rcv.silent (· == u) } }
  t.unpark.wakeAll (fun _ w => match w with
    | .retry (.baseDie _) => true
    | _ => false)

/-- A unit is written to the repair record in the fuses of both I/O dies (R28, R102). -/
def State.record (s : State) (u : FUnit) : State :=
  let put (f : Fuses) : Fuses := { f with repair := if f.repair.contains u then f.repair else enq f.repair u }
  { s with pkg := { s.pkg with fuse0 := put s.pkg.fuse0, fuse1 := put s.pkg.fuse1 } }

/-- A retirement commits: it is written to the repair record, that of a stack in its base die too, and never undone.  A retired service
processor works no more, and the host port leaves a retired X0 part; the supervisor cores are told (R331); a die without a spare here makes its package ask the peers (R99,
R102, R104, R117). -/
def State.commitRetirement (s : State) (u : FUnit) : State :=
  let t := ((s.endProposal u).record u).tellSups
  match u with
  | .stack h => t.onStack h (fun x => { x with retired := true })
  | .serviceProcessor x =>
    let v : State := { t with rcv := { t.rcv with sps := without t.rcv.sps (· == x) } }
    if x = 0 then v.failover else v
  | .hostController x => if x = 0 then t.failover else t
  | .dieShared p => if t.pkg.spareDies.isEmpty then t.send (.maint "spare die request" p) else t
  | _ => t

/-- The unit is kept: its counts are cleared, and the vote unfences it (R103, R105). -/
def State.keepUnit (s : State) (u : FUnit) (vote : Bool) : State :=
  let s1 := ([0, 1] : List Nat).foldl (fun t x => t.setCount ⟨x, u, 0, 0, []⟩) (s.endProposal u)
  if vote && s1.rcv.fenced.contains u then s1.unfence u else s1

/-- A proposal goes to the two nearest peer pairs, with its fault events and both local verdicts; with no peer package reachable it ends as
KEEP, a silent unit staying fenced (R102 to R104). -/
def State.peerBallot (s : State) (u : FUnit) : State :=
  match s.proposal u with
  | none => s
  | some p =>
    let peers := s.nearestTo s.pkgid
    if s.reach.isEmpty || peers.isEmpty then s.keepUnit u false
    else
      let own (x : Nat) : Verdict :=
        if !s.rcv.sps.contains x then .abstain
        else if x = p.proposer then .retire
        else match p.answer with
          | some true => .retire
          | some false => .keep
          | none => .abstain
      peers.foldl (fun t q => t.send (.ballot q u p.events (own p.proposer) (own (1 - p.proposer))))
        (s.onProposal u (fun q => { q with peer := true }))

/-- RETIREMENT_PROPOSAL of a service processor, for a unit that answers or is silent.  The other one checks the diagnosis against its own
counts; where it agrees the retirement commits; disagreed, or with one working service processor, it goes to the peer vote (R102, R104). -/
def execRetirementProposal (u : FUnit) (silent : Bool) (proposer : Nat) (answers : Bool) (s : State) : Res :=
  let s1 := s.propose u silent (proposer % 2)
  match s1.proposal u with
  | none => .next s1
  | some p =>
    if p.peer then .next s1
    else if s1.rcv.sps.length < 2 then .next (s1.peerBallot u)
    else if !answers then .next s1
    else if s1.meets u (s1.countOf (1 - p.proposer) u).events then .next ((s1.onProposal u (fun q => { q with answer := some true })).commitRetirement u)
    else .next ((s1.onProposal u (fun q => { q with answer := some false })).peerBallot u)

/-- VOTE_ANSWER_TIMEOUT: no answer within 10 ms (R102). -/
def execVoteAnswerTimeout (u : FUnit) (s : State) : Res :=
  match s.proposal u with
  | some p => if p.peer then .next s else .next (s.peerBallot u)
  | none => .next s

/-- The verdicts of two peer pairs: RETIRE must outnumber KEEP (R103). -/
def outvotes (a b : Verdict) : Bool :=
  let n (v : Verdict) : Nat := (if a = v then 1 else 0) + (if b = v then 1 else 0)
  decide (n .keep < n .retire)

/-- The vote of this package's pair: both service processors judge the same evidence; with one that does not work the pair abstains
(R103). -/
def State.pairVote (s : State) (u : FUnit) (e : Evidence) (thresh window : Nat) : Verdict :=
  if s.rcv.sps.length < 2 then .abstain else if evidenceMeets (unitClass u) e thresh window then .retire else .keep

/-- PEER_VOTE: the verdicts of the two nearest peer pairs, one that has timed out abstaining; or this pair's vote for another package
(R103). -/
def execPeerVote (b : Ballot) (s : State) : Res :=
  match b with
  | .asked pkg u events thresh window => .next (s.send (.vote pkg u (s.pairVote u events thresh window)))
  | .cast u a b =>
    match s.proposal u with
    | none => .next s
    | some p =>
      if !p.peer then .next s
      else
        let a1 := if p.abstained.contains 0 then Verdict.abstain else a
        let b1 := if p.abstained.contains 1 then Verdict.abstain else b
        .next (if outvotes a1 b1 then s.commitRetirement u else s.keepUnit u true)

/-- PEER_VOTE_TIMEOUT: a pair that has not answered within 50 ms abstains; with both abstaining the unit is kept (R103). -/
def execPeerVoteTimeout (u : FUnit) (first : Bool) (s : State) : Res :=
  match s.proposal u with
  | none => .next s
  | some p =>
    if !p.peer then .next s
    else
      let l := insNat p.abstained (if first then 0 else 1)
      .next (if l.length = 2 then s.keepUnit u true else s.onProposal u (fun q => { q with abstained := l }))

/-! ## Lost data (R95, R136) -/

/-- Runs of pages, as start and length, from rising page addresses. -/
def pageRuns : List Nat → List (Nat × Nat)
  | [] => []
  | p :: t => match pageRuns t with
    | (q, n) :: r => if p + 4096 = q then (p, n + 4096) :: r else (p, 4096) :: (q, n) :: r
    | [] => [(p, 4096)]

/-- Loss records of 256 bytes, fifteen ranges each (R136). -/
def lossRecords : Nat → List (Nat × Nat) → List (List Byte)
  | 0, _ => []
  | _, [] => []
  | k + 1, l =>
    let now := l.take 15
    let b := bytesLE 1 0xFF ++ bytesLE 1 now.length ++ List.replicate 14 0#8 ++ now.flatMap (fun r => bytesLE 8 r.1 ++ bytesLE 8 r.2)
    (b ++ List.replicate (256 - b.length) 0#8) :: lossRecords k (l.drop 15)

/-- The location of a 4 KiB page of a tenant, where its entry is present (R201). -/
def State.pageLoc (s : State) (t : TenantSt) (va : Nat) : Option Nat :=
  (walkTable s va t.root levels).map (fun e => leafLoc e.1 e.2 va)

/-- The lost-data rule for one tenant: present pages of writable windows of this package that are not stitched and meet a test of their
location are marked, loss records are written and DATA_LOST is posted (R95, R136). -/
def State.loseTenant (s : State) (tn : Nat) (hit : Nat → Bool) : State :=
  match s.tenant tn with
  | none => s
  | some t =>
    let pages := ((t.windows.map (·.2)).filter (fun w => w.valid && w.perms.toNat.testBit 1 && !w.stitch && s.ownsId w.pkg)).foldl
      (fun l w => (List.range (w.length / 4096)).foldl (fun (l2 : List Nat) i =>
        match s.pageLoc t (w.va.toNat + 4096 * i) with
        | some loc => if isOwn loc && hit loc then insNat l2 (w.va.toNat + 4096 * i) else l2
        | none => l2) l) ([] : List Nat)
    if pages.isEmpty then s
    else
      let recs := lossRecords pages.length (pageRuns pages)
      let s1 := s.onTenant tn (fun y => { y with marked := pages.foldl insNat y.marked })
      let r := recs.foldl (fun (acc : Option Nat × State) b =>
        let q := acc.2.trapArea tn b
        (some (acc.1.getD q.1), q.2)) ((none : Option Nat), s1)
      r.2.post tn 0x0012#16 0#8 0#32 0 (BitVec.ofNat 64 (pages.length % 2 ^ 32 + r.1.getD 0 * 2 ^ 32 + recs.length % 256 * 2 ^ 48))

/-- The lost-data rule for every tenant (R95). -/
def State.loseData (s : State) (hit : Nat → Bool) : State := s.tenants.foldl (fun t e => t.loseTenant e.1 hit) s

/-- Whether a 4 KiB page has a sector that a slice of a die, or any of them, holds dirty (R95). -/
def State.dirtyPage (s : State) (die : Nat) (slice : Option Nat) (page : Nat) : Bool :=
  (s.die die).l2.any (fun x => x.dirty != 0#4 && decide (x.line / 8 = page / 4096)
    && (match slice with | some k => x.slice == k | none => true))

/-! ## Loss of cores (R93, R94, R98) -/

/-- The work on cores that stopped answering is lost: basins and engines with it, every open domain with a task or context there faults
UNIT_LOST, one with a HOLD range in a lost basin escalates, and launches with a task there in no domain fail (R94, R133, R175). -/
def State.loseWork (s : State) (die : Nat) (lost : Nat → Bool) (whole : Bool) : State :=
  let on (c : CtxId) : Bool := decide (c.die = die) && lost c.core
  let inBasin (loc : Nat) : Bool := isBasin loc && decide ((loc - 2 ^ 72) / 2 ^ 26 = die) && lost ((loc - 2 ^ 72) / 2 ^ 20 % 64)
  let ctxs := s.allCtx.filter (fun e => on e.1 && (e.2.bound.isSome || e.2.st == .run || e.2.st == .wait || e.2.st == .trapped || e.2.st == .parked))
  let mine := s.cores.filter (fun e => decide (e.1 / 66 = die) && lost (e.1 % 66))
  let queued := mine.flatMap (fun e => e.2.deque ++ e.2.overflow ++ e.2.resume.map (·.task))
    ++ (if whole then (s.die die).ready.flatMap (·.2) else [])
  let inner := (ctxs.map (fun e => e.2.r.dom.setWidth 32)) ++ queued.map (·.dom)
  let doms := s.domains.filter (fun d => inner.any (fun x => s.inDomain x d.id) || ((s.creatorCtx d).map on).getD false)
  let ordered := (List.range 8).flatMap (fun k => doms.filter (fun d => d.depth == k + 1))
  let gone := (ctxs.filter (fun e => (s.domain (e.2.r.dom.setWidth 32)).isNone)).filterMap (fun e => e.2.bound.map (·.launch))
    ++ (queued.filter (fun t => (s.domain t.dom).isNone)).map (·.launch)
  let owed := mine.flatMap (fun e => e.2.deltas.filterMap (fun q => q.2.map (·.dom)))
    ++ (if whole then (s.die die).stitchQ.map (·.dom) else ((s.die die).stitchQ.filter (fun q => lost q.core)).map (·.dom))
  let c0 := (s.dropEngine on).stopCopies (fun k => on k.owner) 0
  let s1 := c0.1.settle c0.2
  let s2 : State := { s1 with
    mem := s1.mem.filter (fun e => !inBasin e.1), fe := s1.fe.filter (fun w => !inBasin (8 * w)),
    poison := s1.poison.filter (fun w => !inBasin (8 * w)),
    cores := s1.cores.map (fun e => if e.1 / 66 = die ∧ lost (e.1 % 66) = true then
      (e.1, { e.2 with sboard := [], channels := [], engine := [], robuf := [], tlb := [], deltas := [], harvestData := [] }) else e) }
  let s3 := s2.onDie die (fun d => { d with stitchQ := if whole then [] else without d.stitchQ (fun q => lost q.core) })
  let s4 := ordered.foldl (fun t d =>
    t.domainFault d.id 0x14#8 0#64 (d.ranges.any (fun r => !r.snap && r.parts.any (fun p => inBasin p.1)))) s3
  let s5 := owed.foldl (fun t d => t.domainFault d 0x16#8 0#64) s4
  let s6 := gone.eraseDups.foldl (fun t l => t.failLaunch l (causeWord 0x14#8) 0#64 true) s5
  let left := ctxs.filter (fun e => e.2.bound.isNone && (s.domain (e.2.r.dom.setWidth 32)).isNone)
  left.foldl (fun t e => t.makeIdle e.1) s6

/-- Whether a physical core can take a logical number of a die: one of its spare cores that is not retired (R1, R13, R16). -/
def State.spareCore (s : State) (die spare : Nat) : Bool :=
  (s.pdie (s.physDie die)).spares.contains spare && !s.retired (.core (s.physDie die) spare)

/-- The core map gives a logical number to a spare core (R16, R93 step 5). -/
def State.setCore (s : State) (die core spare : Nat) : State :=
  s.onPDie (s.physDie die) (fun p => { p with map := ((List.range 64).map p.core).set core spare, spares := without p.spares (· == spare) })

/-- GRACEFUL_CORE_RETIREMENT: the slice is written back, and banks, basin and queues move to the spare behind the same logical number, in
the state they had (R93). -/
def execGracefulCoreRetirement (die core spare : Nat) (s : State) : Res :=
  let u := s.coreUnit die core
  if 16 ≤ die || 64 ≤ core || !s.retired u || s.rcv.silent.contains u || !s.spareCore die spare then .next s
  else .next ((s.l2Drain die (some core)).setCore die core spare)

/-- ABRUPT_CORE_RETIREMENT: the spare takes the logical number, domains fault, launches in no domain fail, and the lost-data rule is applied
to the slice (R94). -/
def execAbruptCoreRetirement (die core spare : Nat) (s : State) : Res :=
  let u := s.coreUnit die core
  if 16 ≤ die || 64 ≤ core || !s.retired u || !s.rcv.silent.contains u || !s.spareCore die spare then .next s
  else
    let t := (s.setCore die core spare).loseWork die (· == core) false
    .next (((t.loseData (s.dirtyPage die (some core))).l2Lose die (some core)).unfence u)

/-! ## Loss of stacks (R80, R97, R110) -/

/-- The stitched windows of this package's memory, with their tenants. -/
def State.stitchedWindows (s : State) : List (Nat × Window) :=
  s.tenants.flatMap (fun e => match e.2 with
    | some t => ((t.windows.map (·.2)).filter (fun w => w.valid && w.stitch && s.ownsId w.pkg)).map (fun w => (e.1, w))
    | none => [])

/-- The sectors of a window on a logical stack, as first and last + 1 within the stack. -/
def Window.sectorsOn (w : Window) (m : Nat) : Nat × Nat :=
  (max (w.pbase * 32) (m * 2 ^ 29) - m * 2 ^ 29, min (w.pend * 32) ((m + 1) * 2 ^ 29) - m * 2 ^ 29)

/-- Tenants with a stitched window that has a line on a logical stack. -/
def State.stitchedOn (s : State) (m : Nat) : List Nat :=
  ((s.stitchedWindows.filter (fun e => decide ((e.2.sectorsOn m).1 < (e.2.sectorsOn m).2))).map (·.1)).eraseDups

/-- Tenants with a stitched window over a location of this package. -/
def State.stitchersOf (s : State) (loc : Nat) : List Nat :=
  ((s.stitchedWindows.filter (fun e => decide (e.2.pbase * 4096 ≤ loc) && decide (loc < e.2.pend * 4096))).map (·.1)).eraseDups

/-- The memory of a lost stack that is not stitched is gone: the spare's DRAM reads zero, and L2 keeps what it holds (R95, R97). -/
def State.loseStack (s : State) (m : Nat) : State :=
  let on (loc : Nat) : Bool := isOwn loc && decide (loc < 2 ^ 41) && decide (stackOf loc = m) && (s.stitchOf loc).isNone
  let held := (s.die (m / 2)).l2.flatMap (fun x =>
    if on (x.line * 512) then (maskSectors x.valid.toNat).map (fun i => x.line * 4 + i) else [])
  let keep (loc : Nat) : Bool := !on loc || held.contains (loc / 128)
  held.foldl (fun (t : State) c => { t with under := SMap.put none t.under c (some ⟨List.replicate 128 0#8, 0#4⟩) })
    { s with mem := s.mem.filter (fun e => keep e.1), poison := s.poison.filter (fun w => keep (8 * w)),
             under := s.under.filter (fun e => !on (e.1 * 128)) }

/-- The package is lost to its peers: they are told, its launches fail and its tenants hear of it (R97, R101). -/
def State.losePackage (s : State) : State :=
  let t : State := { s with rcv := { s.rcv with lost := if s.rcv.lost.contains s.pkgid then s.rcv.lost else enq s.rcv.lost s.pkgid } }
  t.launches.foldl (fun u e => u.failLaunch e.1 0#32 0#64 false)
    ((t.send (.maint "package lost" s.pkgid.toNat)).postAll 0x0016#16 (s.pkgid.setWidth 64))

/-- The requests to a stack that went silent are lost with it: READs and WRITEs are sent again where the map leads now, and a SHIP's fate is
unknown (R51, R97). -/
def State.resendStack (s : State) (l : List Pend) : State :=
  let s1 : State := { s with inbox := s.inbox ++ (l.filter (fun e => e.packet.typ == 8#8)).map (fun e => Instr.unmappedResponse e.packet) }
  (l.filter (fun e => e.packet.typ != 8#8)).foldl (fun t e =>
    State.enterNode 4 t (t.sourceNode e.packet.spkg e.packet.sdie.toNat) none e.packet) s1

/-- The logical stack has moved to a spare: the old base die serves nothing any more, and the spare's rebuilds the stitched lines (R97). -/
def State.moveStack (s : State) (m h spare : Nat) : State :=
  let held := (s.stack h).stitchHeld
  let s1 := (s.onStack h (fun t => { t with lost := true, rebuild := none, rebuilt := [], queue := [], locks := [], stitchHeld := [] })).onStack spare
    (fun t => { t with rebuild := some (m, 0), rebuilt := [], spare := false, halted := false, stitchHeld := t.stitchHeld ++ held,
                       routines := (s.stack h).routines })
  let s2 : State := { s1 with pkg := { s1.pkg with spareStacks := without s1.pkg.spareStacks (· == spare) } }
  ((s2.loseStack m).loseData (fun loc => decide (stackOf loc = m))).unfence (.stack h)

/-- STACK_RETIREMENT: the logical stack moves to a local spare, by the change of its STKMAP entry alone, and the spare's base die rebuilds the
stitched lines; the lost-data rule is applied to the others.  A stack that answers has its overflow cache drained and the requests in
flight answered first.  With no spare stack left the package is lost (R40, R44, R95, R97). -/
def execStackRetirement (stack spare : Nat) (answers : Bool) (s : State) : Res :=
  let h := s.physStack stack
  if 32 ≤ stack || !s.retired (.stack h) || answers == s.rcv.silent.contains (.stack h) || s.fab.change.isSome then .next s
  else if s.pkg.spareStacks.isEmpty then .next (if s.rcv.lost.contains s.pkgid then s else s.losePackage)
  else if !s.pkg.spareStacks.contains spare then .next s
  else
    let e : BitVec 32 := 0x80000000#32 ||| (s.pkgid.setWidth 32 <<< 12) ||| BitVec.ofNat 32 spare
    let m : MapChange := { diemap := [], stkmap := [(stack, e)], guest := [], apkg := none, loads := [] }
    if answers then
      let s1 := s.onStack h (fun t => { t with ocEn := false })
      let s2 := (s1.stack h).oc.foldl (fun t x => t.ocWriteBack h x.1 0#4) s1
      let s3 := s2.changeStacks m true
      .next (if s3.physStack stack = spare then s3.moveStack stack h spare else s3)
    else
      let s1 := (s.stack h).oc.foldl (fun t x => t.ocDiscard h x.1) s
      let off := s1.fab.pending.filter (fun r => r.packet.baseForm && decide (stackOf r.packet.pa = stack))
      .next (((s1.writeMaps m).moveStack stack h spare).resendStack off)

/-- Multiplication by g = 0x02 in GF(256) with polynomial 0x11D (R108). -/
def gfDouble (x : Byte) : Byte := if x.toNat.testBit 7 then (x <<< 1) ^^^ 0x1D#8 else x <<< 1

/-- g^k times an element (R108). -/
def gfScale : Nat → Byte → Byte
  | 0, x => x
  | k + 1, x => gfScale k (gfDouble x)

/-- The power of g that a nonzero element is; g has order 255 (R108). -/
def gfLog (x : Byte) : Nat := ((List.range 255).find? (fun k => gfScale k 1#8 == x)).getD 0

/-- The sum of two byte strings, bytewise (R108). -/
def gfAdd (a b : List Byte) : List Byte := List.zipWith (fun x y => x ^^^ y) a b

/-- g^k times a byte string. -/
def gfTimes (k : Nat) (b : List Byte) : List Byte := b.map (gfScale k)

/-- The `n` bytes at a parity holder j from those of all the data members, by index (R108). -/
def parityOf (n j : Nat) (data : List (Nat × List Byte)) : List Byte :=
  data.foldl (fun acc e => gfAdd acc (gfTimes (j * e.1) e.2)) (List.replicate n 0#8)

/-- The missing data of a group of d data members solved from what is read and from parity, where there is parity enough (R108, R110,
R115). -/
def solveData (d : Nat) (data parity : List (Nat × List Byte)) : Option (List (Nat × List Byte)) :=
  let rest (p : Nat × List Byte) : List Byte := gfAdd p.2 (parityOf p.2.length p.1 data)
  match (List.range d).filter (fun i => !data.any (fun e => e.1 == i)), parity with
  | [], _ => some data
  | [a], p :: _ => some (enq data (a, gfTimes (255 - p.1 * a % 255) (rest p)))
  | [a, b], p :: q :: _ =>
    let s0 := if p.1 = 0 then rest p else rest q
    let s1 := if p.1 = 0 then rest q else rest p
    let k := gfLog (gfScale a 1#8 ^^^ gfScale b 1#8)
    let y := gfTimes (255 - k) (gfAdd s1 (gfTimes a s0))
    some (data ++ [(a, gfAdd s0 y), (b, y)])
  | _, _ => none

/-- The lost sector of a member of a stitch group, by its data index or its parity index, from what survives (R110). -/
def StitchGroup.solve (g : StitchGroup) (dataIndex parityIndex : Option Nat) (r : RebuildReads) : Option (List Byte) :=
  let data := r.data.filter (fun e => decide (e.1 < g.data.length) && decide (e.2.length = 128) && dataIndex != some e.1)
  let parity := r.parity.filter (fun e => decide (e.1 < g.parity.length) && decide (e.2.length = 128) && parityIndex != some e.1)
  match solveData g.data.length data parity with
  | none => none
  | some all =>
    match dataIndex, parityIndex with
    | some i, _ => (all.find? (fun e => e.1 == i)).map (·.2)
    | none, some j => some (parityOf 128 j all)
    | none, none => none

/-- The physical stack that rebuilds a logical one. -/
def State.rebuilder (s : State) (m : Nat) : Option Nat :=
  (s.hbm.find? (fun e => match e.2.rebuild with | some r => r.1 == m | none => false)).map (·.1)

/-- The first sector of a stack at or beyond a place that lies in a stitched window. -/
def State.nextStitched (s : State) (m from_ : Nat) : Option Nat :=
  s.stitchedWindows.foldl (fun (b : Option Nat) e =>
    let r := e.2.sectorsOn m
    let k := max from_ r.1
    if k < r.2 then some (min k (b.getD k)) else b) none

/-- A sector of a stack is rebuilt: the place in address order moves over it and those rebuilt before (R97). -/
def State.markRebuilt (s : State) (h m k : Nat) : State :=
  let all := insNat (s.stack h).rebuilt k
  let start := (((s.stack h).rebuild).map (·.2)).getD 0
  let place := all.foldl (fun p _ => match s.nextStitched m p with
    | some n => if all.contains n then n + 1 else p
    | none => p) start
  s.onStack h (fun t => { t with rebuild := some (m, place), rebuilt := all.filter (fun x => decide (place ≤ x)) })

/-- The member of a group that this package is: its index among the data packages, or among the parity packages. -/
def State.memberOf (s : State) (g : StitchGroup) : Option Nat × Option Nat :=
  (g.data.findIdx? s.ownsId, g.parity.findIdx? s.ownsId)

/-- A STITCH packet's sectors, by their number in its line and its payload (R79, R109). -/
def deltasOf (p : Packet) : List (Nat × List Byte) :=
  ((maskSectors (p.opx.toNat % 16)).zipIdx).map (fun e => (e.1, (p.payload.drop (128 * e.2)).take 128))

/-- A parity holder adds g^(j i) times the delta of data index i to its parity, sector by sector, and acknowledges to the sluice that sent it
(R109). -/
def State.takeDelta (s : State) (group : BitVec 16) (p : Packet) : State :=
  match SMap.look none s.rcv.stitch group.toNat with
  | none => s
  | some g =>
    match (s.memberOf g).2, g.data.findIdx? (· == p.spkg) with
    | some j, some i =>
      let t := (deltasOf p).foldl (fun (t : State) e =>
        let c := p.pa / 512 * 4 + e.1
        let new := gfAdd (t.dramBytes c) (gfTimes (j * i) e.2)
        (t.onStack (t.stackAt (c * 128)) (·.access (c * 128))).dramWrite (c * 128) new) s
      t.inject (s.physDie p.ddie.toNat) none none (p.back 0x0F#8 []).sealed
    | _, _ => s

/-- STITCH packets that waited for a lock of a sector go on (R110). -/
def State.drainParity (s : State) : State :=
  let held (e : BitVec 16 × Packet) : Bool := (deltasOf e.2).any (fun d => s.rcv.parityLocks.contains (e.1.toNat, e.2.pa / 512 * 4 + d.1))
  (s.rcv.parityWait.filter (fun e => !held e)).foldl (fun t e => t.takeDelta e.1 e.2)
    { s with rcv := { s.rcv with parityWait := s.rcv.parityWait.filter held } }

/-- STACK_REBUILD_SECTOR: at the rebuilding base die the sector takes the value solved from what survives, or it is poisoned and STITCH_LOST is
posted where more members are lost than there is parity; at a surviving parity holder the sector is locked before the reads and unlocked
after them (R97, R110). -/
def execStackRebuildSector (sector : Nat) (reads : RebuildReads) (s : State) : Res :=
  let loc := sector * 128
  match s.stitchOf loc with
  | none => .next s
  | some group =>
    match s.rebuilder (stackOf loc), SMap.look none s.rcv.stitch group.toNat with
    | _, none => .next s
    | none, some g =>
      if (s.memberOf g).2.isNone then .next s
      else if reads.data.isEmpty && reads.parity.isEmpty then
        .next { s with rcv := { s.rcv with parityLocks := if s.rcv.parityLocks.contains (group.toNat, sector) then s.rcv.parityLocks
                                                           else enq s.rcv.parityLocks (group.toNat, sector) } }
      else
        .next ({ s with rcv := { s.rcv with parityLocks := without s.rcv.parityLocks (· == (group.toNat, sector)) } } : State).drainParity
    | some h, some g =>
      if !s.unrebuilt sector then .next s
      else
        let t := s.markRebuilt h (stackOf loc) (loc % 2 ^ 36 / 128)
        let u := match g.solve (s.memberOf g).1 (s.memberOf g).2 reads with
          | some b => (t.onStack h (·.access loc)).dramWrite loc b
          | none =>
            (s.stitchersOf loc).foldl (fun v tn => v.post tn 0x0013#16 0#8 0#32 0 (BitVec.ofNat 64 loc))
              ((List.range 4).foldl (fun v i => v.poisonGranule (sector * 4 + i)) t)
        .next (u.wakeWhy (.rebuild sector))

/-- STACK_REBUILD_DONE: once every stitched sector is rebuilt the background rebuild ends and STACK_REBUILT is posted (R97). -/
def execStackRebuildDone (stack : Nat) (s : State) : Res :=
  match s.rebuilder stack with
  | none => .next s
  | some h =>
    if (s.nextStitched stack ((((s.stack h).rebuild).map (·.2)).getD 0)).isSome then .next s
    else
      .next ((s.stitchedOn stack).foldl (fun t tn => t.post tn 0x0014#16 0#8 0#32 0 (BitVec.ofNat 64 stack))
        (s.onStack h (fun t => { t with rebuild := none, rebuilt := [] })))

/-! ## Change of the die map and loss of dies (R44, R98, R99, R106, R107) -/

/-- Tenants affected by the loss of a die: with a task bound there, or a window with memory homed there. -/
def State.tenantsOf (s : State) (die : Nat) : List Nat :=
  s.tenants.filterMap (fun e => match e.2 with
    | some t =>
      if s.allCtx.any (fun x => decide (x.1.die = die) && (x.2.bound.map (·.tenant)) == some e.1)
          || t.windows.any (fun w => w.2.valid && s.ownsId w.2.pkg && decide (stackOf (w.2.pbase * 4096) / 2 ≤ die)
            && decide (die ≤ stackOf ((w.2.pend - 1) * 4096) / 2))
      then some e.1 else none
    | none => none)

/-- Groups with a member among lost dies are poisoned (R419). -/
def State.poisonMembers (s : State) (p : BitVec 12 × Nat → Bool) : State :=
  s.groups.foldl (fun t e => match e.2 with
    | some g => if g.members.any p then t.poisonGroup (BitVec.ofNat 32 e.1) true else t
    | none => t) s

/-- Steps 4 to 6 of a change; where it is the substitution of a die, the spare starts anew, what was lost with a silent die is followed after
resume, and DIE_REPLACED is posted (R44, R95, R98, R106). -/
def State.finishChange (s : State) (m : MapChange) : State :=
  match s.fab.subst with
  | none => s.endChange m
  | some (die, answers) =>
    let u := s.dieUnit die
    let who := s.tenantsOf die
    let t := ({ s with fab := { s.fab with subst := none } } : State).endChange m
    let t1 := t.onDie die (fun d =>
      { d with millivolts := 430, throttleCap := false, throttle := 0, timingEvents := 0, timingSince := t.cycle.toNat, rampStart := none,
               lastMatrix := 0, tlb := [] })
    let t2 := match u with
      | .dieShared p => t1.onPDie p (fun q => { q with rail := false })
      | _ => t1
    let t3 := if answers then t2
      else
        let v := t2.loseWork die (fun _ => true) true
        ((v.loseData (s.dirtyPage die none)).l2Lose die none).poisonMembers (· == (s.pkgid, die))
    who.foldl (fun v tn => v.post tn 0x0015#16 0#8 0#32 0 (BitVec.ofNat 64 die)) (t3.unfence u)

/-- DIE_MAP_CHANGE: the package is quiesced, and once it is empty the maps are written and read back, the vectors rebased and the package
resumed; a read-back mismatch leaves it quiesced for the next try of step 4.  A change of STKMAP entries alone is shorter.  While one
change runs no other begins, and only a parked spare die becomes a guest (R44, R99, R106, R107). -/
def execDieMapChange (m : MapChange) (readbackOk : Bool) (s : State) : Res :=
  let parked (v : BitVec 32) : Bool :=
    let d := v.toNat % 32
    s.pkg.spareDies.contains d || s.rcv.guests.any (fun g => g.1 == d)
  if m.stkmap.any (fun e => s.badStkmap e.2) || m.guest.any (fun e => e.2.toNat.testBit 31 && !parked e.2) then .next s
  else if m.diemap.isEmpty && m.guest.isEmpty && m.apkg.isNone then
    if m.stkmap.isEmpty || s.fab.change.isSome then .next s else .next (s.changeStacks m readbackOk)
  else match s.fab.change with
    | some c => if c = m ∧ readbackOk ∧ s.drained then .next (s.finishChange m) else .next s
    | none =>
      let t := s.startChange m
      if readbackOk && t.drained then .next (t.finishChange m) else .next t

/-- A die is replaced by the one that an entry names: the L2 of one that answers is written back, and the die map changes (R44, R98). -/
def State.replaceDie (s : State) (die : Nat) (entry : BitVec 32) (answers : Bool) : Res :=
  let s1 := if answers then s.l2Drain die none else s
  execDieMapChange { diemap := [(die, entry)], stkmap := [], guest := [], apkg := none, loads := [] } true
    { s1 with fab := { s1.fab with subst := some (die, answers) } }

/-- Whether a die may be substituted: its retirement is committed, it answers as told, and no change runs (R98, R107). -/
def State.maySubstitute (s : State) (die : Nat) (answers : Bool) : Bool :=
  decide (die < 16) && s.retired (s.dieUnit die) && answers != s.rcv.silent.contains (s.dieUnit die) && s.fab.change.isNone

/-- DIE_SUBSTITUTION_LOCAL: a spare that fails its self-test is given up; otherwise its rail is ungated and it takes the logical identity
(R19, R98, R107). -/
def execDieSubstitutionLocal (die spare : Nat) (answers selfTestOk : Bool) (s : State) : Res :=
  if !s.maySubstitute die answers || !s.pkg.spareDies.contains spare then .next s
  else
    let s1 := ({ s with pkg := { s.pkg with spareDies := without s.pkg.spareDies (· == spare) } } : State).onPDie spare (fun p =>
      { p with rail := selfTestOk })
    if !selfTestOk then .next (s1.faultEvent (.dieShared spare) .selfTest)
    else s1.replaceDie die (0x80000000#32 ||| (s.pkgid.setWidth 32 <<< 12) ||| BitVec.ofNat 32 spare) answers

/-- DIE_SUBSTITUTION_REMOTE: with no usable local spare, a peer's spare die that passed its self-test takes the identity by REM = 1; a package
that waited unbound for dies measures its maps and goes on with its reset sequence once every logical die is mapped (R18, R30, R99). -/
def execDieSubstitutionRemote (die : Nat) (pkg : BitVec 12) (pdie : Nat) (selfTestOk : Bool) (s : State) : Res :=
  let entry : BitVec 32 := 0xC0000000#32 ||| (pkg.setWidth 32 <<< 12) ||| BitVec.ofNat 32 (pdie % 32)
  let all (t : State) : Bool := (List.range 16).all (fun d => (t.router 0 (4 * d)).toNat.testBit 31)
  if 16 ≤ die || pkg = s.pkgid || !selfTestOk then .next s
  else if s.pkg.boot = 0x82#8 then
    if (s.router 0 (4 * die)).toNat.testBit 31 then .next s
    else
      let t := (s.setRouters (4 * die) entry).bumpMapgen
      .next (if all t then { t.measureMaps with pkg := { t.measureMaps.pkg with boot := 0x06#8 } } else t)
  else
    let answers := !s.rcv.silent.contains (s.dieUnit die)
    if !s.maySubstitute die answers || !s.pkg.spareDies.isEmpty then .next s else s.replaceDie die entry answers

/-! ## Loss of packages (R101) -/

/-- HEARTBEAT_TIMER: every 10 ms (R101). -/
def execHeartbeatTimer (s : State) : Res := .next (s.send (.maint "heartbeat" s.pkgid.toNat))

/-- HEARTBEAT_MISS: a heartbeat of a peer is missed, or has come; the third in a row that is missed makes the peer package lost, which its
nearest peers then vote on (R101). -/
def execHeartbeatMiss (pkg : BitVec 12) (missed : Bool) (s : State) : Res :=
  let n := if missed then SMap.look 0 s.rcv.missed pkg.toNat + 1 else 0
  let t : State := { s with rcv := { s.rcv with missed := SMap.put 0 s.rcv.missed pkg.toNat (min n 3) } }
  .next (if n = 3 && !s.rcv.lost.contains pkg then t.seeLost pkg else t)

/-- Whether a window maps memory of a package. -/
def Window.names (w : Window) (pkg : BitVec 12) : Bool := w.valid && w.pkg == pkg

/-- The packages of a list that are lost outnumber the parity of their group (R101). -/
def State.tooMany (s : State) (members : List (BitVec 12)) (parity : Nat) : Bool :=
  decide (parity < (members.filter (s.rcv.lost.contains ·)).length)

/-- The spare package that takes a lost one's id: the first of the fabric configuration that is neither lost nor in use (R44, R101). -/
def State.spareFor (s : State) (pkg : BitVec 12) : Option FabEntry :=
  s.pkg.config.fabric.find? (fun e => e.spare && e.id != pkg && !s.rcv.lost.contains e.id && !s.fab.aliases.any (fun a => a.2 == e.id.toNat))

/-- What this package keeps of a lost one's memory is gone where it is not stitched, or where its group lost too many (R101). -/
def State.loseForeign (s : State) (pkg : BitVec 12) (lostGroups : List Nat) : State :=
  let stitched (loc : Nat) : Bool := s.tenants.any (fun e => match e.2 with
    | some t => t.windows.any (fun w => w.2.names pkg && w.2.stitch && !lostGroups.contains w.2.sgrp.toNat
        && decide (pkgLoc pkg (w.2.pbase * 4096) ≤ loc) && decide (loc < pkgLoc pkg (w.2.pend * 4096)))
    | none => false)
  let gone (loc : Nat) : Bool := decide (pkgLoc pkg 0 ≤ loc) && decide (loc < pkgLoc pkg 0 + 2 ^ 56) && !isBasin loc && !stitched loc
  { s with mem := s.mem.filter (fun e => !gone e.1), poison := s.poison.filter (fun w => !gone (8 * w)) }

/-- The loss of another package commits: routes leave it out or lead to the spare that takes its id, groups with members there are poisoned,
and tenants that map it, or have a group that lost too many members, are told (R44, R101, R419). -/
def State.dropPackage (s : State) (pkg : BitVec 12) : State :=
  let s1 : State := { s with rcv := { s.rcv with lost := enq s.rcv.lost pkg }, fab := { s.fab with floods := SMap.put [] s.fab.floods pkg.toNat [] } }
  let lostGroups := s1.rcv.stitch.filterMap (fun e => match e.2 with
    | some g => if (g.data ++ g.parity).contains pkg && s1.tooMany (g.data ++ g.parity) g.parity.length then some e.1 else none
    | none => none)
  let mapping := s.tenants.filterMap (fun e => match e.2 with
    | some t => if t.windows.any (fun w => w.2.names pkg) then some e.1 else none
    | none => none)
  let tray := s.tenants.filterMap (fun e => match e.2 with
    | some t =>
      if t.windows.any (fun w => w.2.valid && w.2.stitch && lostGroups.contains w.2.sgrp.toNat)
          || s1.rcv.ckpts.any (fun c => c.tenant == e.1 && c.members.contains pkg && s1.tooMany c.members c.q)
      then some e.1 else none
    | none => none)
  let s2 := s1.loseForeign pkg lostGroups
  let s3 : State := { s2 with fab := { s2.fab with aliases := match s.spareFor pkg with
    | some e => SMap.put 0 s2.fab.aliases pkg.toNat e.id.toNat
    | none => s2.fab.aliases } }
  let s4 := (mapping.foldl (fun t tn => t.post tn 0x0016#16 0#8 0#32 0 (pkg.setWidth 64)) s3.reroute).poisonMembers (fun m => m.1 == pkg)
  tray.foldl (fun t tn => t.post tn 0x0017#16 0#8 0#32 0 (pkg.setWidth 64)) s4

/-- PACKAGE_LOSS: the votes of the two nearest peers of a package.  Committed, the package is dropped; the configured spare takes its id and
rebuilds every stitched page (R44, R101, R103). -/
def execPackageLoss (pkg : BitVec 12) (a b : Verdict) (s : State) : Res :=
  if !outvotes a b then
    .next { s with rcv := { s.rcv with missed := SMap.put 0 s.rcv.missed pkg.toNat 0,
                                       starved := without s.rcv.starved (fun j => ((s.port j).far.map (·.1)) == some pkg) } }
  else if s.rcv.lost.contains pkg then .next s
  else if pkg = s.pkgid then .next s.losePackage
  else
    let t := s.dropPackage pkg
    if (s.spareFor pkg).map (·.id) = some s.pkgid && !(s.router 0 0xC4).toNat.testBit 31 then
      execDieMapChange { diemap := [], stkmap := [], guest := [], apkg := some pkg, loads := [] } true
        ((List.range 32).foldl (fun u m => u.onStack (u.physStack m) (fun x => { x with rebuild := some (m, 0), rebuilt := [] })) t)
    else .next t

/-! ## Stitch groups (R79, R108, R109, R390, R391) -/

/-- STITCH_DELTA_RECEIVE: a holder adds a delta to its parity and acknowledges; while a rebuild has locked one of its sectors it waits
(R109, R110). -/
def execStitchDeltaReceive (group : BitVec 16) (p : Packet) (s : State) : Res :=
  if p.typ ≠ 0x0E#8 || p.payload.length ≠ 128 * (maskSectors (p.opx.toNat % 16)).length || p.payload.isEmpty || reservedPa p.pa then .next s
  else if (deltasOf p).any (fun d => s.rcv.parityLocks.contains (group.toNat, p.pa / 512 * 4 + d.1)) then
    .next { s with rcv := { s.rcv with parityWait := enq s.rcv.parityWait (group, p) } }
  else .next (s.takeDelta group p)

/-- The parity holders of a stitch group. -/
def State.holders (s : State) (group : BitVec 16) : List (BitVec 12) :=
  match SMap.look none s.rcv.stitch group.toNat with
  | some g => g.parity
  | none => []

/-- The delta packets of a slot to holders: the tag tells core and slot, and stands above those of the requester ports (R62, R390). -/
def State.sendDelta (s : State) (die core slot : Nat) (d : DeltaSlot) (to_ : List (BitVec 12)) : State :=
  let own : BitVec 4 := BitVec.ofNat 4 (stackOf (d.line * 512) / 2)
  to_.foldl (fun t q => t.inject (t.physDie die) none none (({
    hcrc := 0#32, hseq := 0#16, hack := 0#16, ecrc := 0#32, group := d.group.setWidth 32, addr := BitVec.ofNat 56 (d.line * 512), cvp := false,
    opx := d.mask.setWidth 7, dpkg := q, ddie := own, spkg := t.pkgid, sdie := BitVec.ofNat 4 die,
    txn := BitVec.ofNat 16 (2 ^ 15 + (t.holders d.group).findIdx (· == q) % 2 * 2 ^ 14 + core * 256 + slot), len := BitVec.ofNat 5 (d.delta.length / 32),
    vc := 0#3, typ := 0x0E#8, payload := d.delta } : Packet).sealed)) s

/-- A delta's acknowledgements are complete: STITCH_ACK goes to the base die, and the domain it belongs to is credited; one outside any
domain may have been the last that a launch of its tenant waited for (R131, R390, R391). -/
def State.creditDelta (s : State) (d : DeltaSlot) : State :=
  let s1 := s.send (.record "STITCH_ACK" d.line d.mask.toNat)
  if d.dom = 0#32 then
    s1.settle (s1.launches.filterMap (fun e => match e.2 with
      | some l => if (s1.stitchersOf (d.line * 512)).contains l.tenant then some (.complete e.1) else none
      | none => none))
  else
    let s2 := s1.onDomain d.dom (fun r => { r with acks := r.acks - 1 })
    if ((s2.domain d.dom).map (·.acks)) = some 0 then
      let r := (s2.wakeWhy .domain).rootCommit d.dom
      r.1.settle r.2
    else s2

/-- STITCH_UNIT_DELTA: the unit takes its lowest free slot for a base die's STITCH packet and sends the delta to every parity holder; with no
free slot the packet waits (R390). -/
def execStitchUnitDelta (die core line : Nat) (mask : BitVec 4) (delta : List Byte) (group : BitVec 16) (dom : BitVec 32) (s : State) : Res :=
  let q : StitchPkt := { core := core, line := line, mask := mask, delta := delta, group := group, dom := dom }
  if !(s.die die).stitchQ.contains q then .next s
  else
    let l := s.holders group
    let d : DeltaSlot := { line := line, mask := mask, delta := delta, group := group, dom := dom, waiting := l, resends := 0 }
    let t := s.onDie die (fun x => { x with stitchQ := x.stitchQ.erase q })
    if l.isEmpty then .next (t.creditDelta d)
    else match (List.range 256).find? (fun i => (SMap.look none (s.core die core).deltas i).isNone) with
      | none => .next s
      | some i => .next ((t.onCore die core (fun k => { k with deltas := SMap.put none k.deltas i (some d) })).sendDelta die core i d l)

/-- STITCH_ACK_RECEIVE: a holder of the slot has acknowledged; with the last one the delta is complete and the slot free (R390). -/
def execStitchAckReceive (die core slot : Nat) (holder : BitVec 12) (s : State) : Res :=
  match SMap.look none (s.core die core).deltas slot with
  | none => .next s
  | some d =>
    let rest := without d.waiting (· == holder)
    let put (v : Option DeltaSlot) : State := s.onCore die core (fun k => { k with deltas := SMap.put none k.deltas slot v })
    if rest.isEmpty then .next ((put none).creditDelta d) else .next (put (some { d with waiting := rest }))

/-- STITCH_RESEND_TIMEOUT: the delta is resent at most twice; then the writing domain faults STITCH_UNACKED and the holder's ports are
treated as lost (R109, R175). -/
def execStitchResendTimeout (die core slot : Nat) (s : State) : Res :=
  match SMap.look none (s.core die core).deltas slot with
  | none => .next s
  | some d =>
    let put (v : Option DeltaSlot) : State := s.onCore die core (fun k => { k with deltas := SMap.put none k.deltas slot v })
    if d.resends < 2 then .next ((put (some { d with resends := d.resends + 1 })).sendDelta die core slot d d.waiting)
    else
      let ports := s.fab.ports.filter (fun e => decide (e.1 < 32) && (match e.2.far with | some f => d.waiting.contains f.1 | none => false))
      let s1 := (put none).onDomain d.dom (fun r => { r with acks := r.acks - 1 })
      .next ((ports.foldl (fun t e => (t.portDown e.1 false).portDown e.1 true) s1).domainFault d.dom 0x16#8 0#64)

end Sys2Proof.Machine
end

