-- ==== Sys2Proof/Machine/Scp.lean ====
section
/-! DEFINITION. SCP sessions and the receipt of commands, and the host port (R116 to R126). -/

namespace Sys2Proof

/-- The opcode of a command (Table 5.2). -/
def Cmd.op : Cmd → Nat
  | .openTenant .. => 0x01
  | .close => 0x02
  | .mapwin _ => 0x03
  | .templates .. => 0x04
  | .routines .. => 0x05
  | .launch _ => 0x06
  | .cntsetSet .. => 0x07
  | .cntsetDec .. => 0x07
  | .copyin .. => 0x08
  | .copyout .. => 0x09
  | .waitev .. => 0x0A
  | .groupCreate _ => 0x0B
  | .groupPoison _ => 0x0B
  | .ckpt _ => 0x0C
  | .restore .. => 0x0D
  | .reset .. => 0x0E
  | .attest _ => 0x0F
  | .powercap _ => 0x10
  | .pagedata .. => 0x11
  | .pageout .. => 0x12

/-- The role a command needs, by opcode: 0 TENANT, 1 OPERATOR, 2 any; an opcode that is not listed is answered to every session
(Table 5.2). -/
def cmdRole (op : Nat) : Nat :=
  if op = 0x05 || op = 0x10 then 1 else if op = 0 || op = 0x0F || 0x12 < op then 2 else 0

end Sys2Proof

namespace Sys2Proof.Machine

/-! ## Datagrams (R116, R118) -/

/-- The header of a message that arrives (Table 5.1). -/
structure ScpHead where
  /-- KIND. -/
  kind : Nat
  /-- SID. -/
  sid : Nat
  /-- SEQ. -/
  seq : Nat
  /-- ACKN. -/
  ackn : Nat
  /-- SACK. -/
  sack : Nat
  /-- LEN. -/
  len : Nat
  /-- TENANT. -/
  tenant : Nat
  /-- QUEUE. -/
  queue : Nat
  /-- CTAG. -/
  ctag : BitVec 32
deriving DecidableEq, Repr, Inhabited

/-- The header of a datagram's payload, where it keeps the rules of R118: MAGIC, VER, the zero bytes, and sizes that agree with LEN; all kinds
but HELLO and HELLO_RSP end with a tag. -/
def scpHead (b : List Byte) : Option ScpHead :=
  let kind := natAt b 3 1
  let len := natAt b 32 2
  if natAt b 0 2 = 0x5347 && natAt b 2 1 = 1 && natAt b 40 8 = 0 && decide (len ≤ 8936) && decide (b.length ≤ 9000)
      && decide (b.length = 48 + len + (if kind ≤ 1 then 0 else 16)) then
    some { kind := kind, sid := natAt b 4 4, seq := natAt b 8 8, ackn := natAt b 16 8, sack := natAt b 24 8, len := len,
           tenant := natAt b 34 1, queue := natAt b 35 1, ctag := BitVec.ofNat 32 (natAt b 36 4) }
  else none

/-- Whether the host port takes a datagram: the link is up, the frame is none of PAUSE and of at most 9,216 bytes, it is addressed to the port,
whole, and for UDP port 5791 (R116, R118). -/
def HostPort.takes (p : HostPort) (d : Datagram) : Bool :=
  p.up && !d.pause && decide (d.frame ≤ 9216) && d.mac == p.mac && (if d.v6 then d.ip == p.ip6 else d.ip == p.ip4.setWidth 128)
    && !d.fragment && d.port == 5791

/-- The header of a datagram that the device takes as a message of a kind; any other is discarded (R118). -/
def State.scpIn (s : State) (d : Datagram) (kind : Nat) : Option ScpHead :=
  if s.host.takes d then (scpHead d.bytes).filter (fun h => h.kind == kind) else none

/-! ## Sessions (R118 to R121) -/

/-- A session that has neither ended nor been refused. -/
def State.session (s : State) (sid : Nat) : Option Session :=
  match SMap.look none s.host.sessions sid with
  | some x => if x.phase = 2 then none else some x
  | none => none

/-- What the admission list says of a key: its place, the role OPERATOR, the DEBUG grant (R120). -/
def State.admitted (s : State) (pub : BitVec 776) : Option (Nat × Bool × Bool) :=
  (s.pkg.config.admission.zipIdx.find? (fun e => e.1.key == pub)).map (fun e => (e.2, e.1.operator, e.1.debug))

/-- What the admission list says of a session's key (R120). -/
def State.grant (s : State) (sid : Nat) : Option (Nat × Bool × Bool) :=
  match SMap.look none s.host.sessions sid with
  | some x => s.admitted x.pub
  | none => none

/-- The body of a sealed message of a session, where its tag verifies under the key from host to device (R118, R119). -/
def State.openScp (s : State) (h : ScpHead) (b : List Byte) : Option (Session × List Byte) :=
  match s.session h.sid with
  | none => none
  | some x => (Crypto.gcmOpen x.h2d (scpNonce 0 h.seq) (b.take 48) ((b.drop 48).take h.len) (b.drop (48 + h.len))).map (fun p => (x, p))

/-- Sessions that are held (R120). -/
def State.sessionsHeld (s : State) : Nat :=
  (s.host.sessions.filter (fun e => match e.2 with | some x => decide (x.phase ≠ 2) | none => false)).length

/-- HELLO_RSP and the session it opens, once the shared secret is known: nonce, ephemeral key, identity certificate and signature; the keys
of both directions (R120). -/
def State.greetHost (s : State) (hello : List Byte) (pub : BitVec 776) (secret : Nat) (shared : List Byte) : State :=
  let sid := s.host.nextSid
  let nonce := Crypto.bytesBE 32 (Config.nonce s.pkg.nonces).toNat
  let body := nonce ++ Crypto.keyBytes (Crypto.publicKey secret) ++ Crypto.keyBytes s.identity.2 ++ Config.certSig s.pkg.fuse0.seed
  let signed := hello ++ ({ kind := 1 } : ScpMsg).header sid 0 0 0 (body.length + 96) ++ body
  let sig := Crypto.ecdsaSign s.identity.1 (Config.secret (s.pkg.nonces + 1)) signed
  let salt := (hello.drop 48).take 32 ++ nonce
  let key (info : String) : List Byte := Crypto.hkdf salt shared (info.toList.map (fun c => BitVec.ofNat 8 c.toNat)) 32
  let x : Session := { phase := 0, key := none, auth := 0, pub := pub, ackn := 0, sack := [], sent := 0, unacked := [], replies := [], ackDue := false,
                       h2d := key "scp h2d", d2h := key "scp d2h", transcript := signed ++ sig, heard := s.cycle.toNat }
  ({ s with pkg := { s.pkg with nonces := s.pkg.nonces + 2 },
            host := { s.host with nextSid := sid + 1, sessions := SMap.put none s.host.sessions sid (some x) } } : State).send
    (.scp sid (signed.drop hello.length ++ sig))

/-- BYE to a host that has no session: no key is shared, and what its tag holds is not said (R120). -/
def State.refuseHello (s : State) : State :=
  let a := s.free
  let b := a.2.free
  b.2.send (.scp 0 (({ kind := 7 } : ScpMsg).header 0 0 0 0 0 ++ bytesLE 8 a.1.toNat ++ bytesLE 8 b.1.toNat))

/-- SCP_HELLO: HELLO_RSP with a new session id, or BYE beyond 256 sessions; keys that are no points of the curve are refused (R6, R120). -/
def execScpHello (d : Datagram) (s : State) : Res :=
  match s.scpIn d 0 with
  | none => .next s
  | some h =>
    let eph := BitVec.ofNat 776 (Crypto.natBE ((d.bytes.drop 80).take 97))
    let pub := BitVec.ofNat 776 (Crypto.natBE ((d.bytes.drop 177).take 97))
    let secret := Config.secret s.pkg.nonces
    if h.sid ≠ 0 || h.len ≠ 226 then .next s
    else if 256 ≤ s.sessionsHeld then .next s.refuseHello
    else match Crypto.ecdh secret eph, Crypto.decodePoint pub with
      | some z, some _ => .next (s.greetHost d.bytes pub secret z)
      | _, _ => .next s

/-- A message of a session has come: the cumulative acknowledgement advances over what has arrived, and an acknowledgement is owed; the peer's
own ACKN and SACK free what it has received (R118, R121). -/
def Session.receive (x : Session) (h : ScpHead) (now : Nat) : Session :=
  let l := if h.seq ≤ x.ackn then x.sack else insNat x.sack h.seq
  let n := (List.range (l.length + 1)).foldl (fun a _ => if l.contains (a + 1) then a + 1 else a) x.ackn
  { x with ackn := n, sack := l.filter (fun i => decide (n < i)), ackDue := true, heard := now,
           unacked := x.unacked.filter (fun m =>
             decide (h.ackn < m.seq) && !(decide (h.ackn + 2 ≤ m.seq) && decide (m.seq < h.ackn + 66) && h.sack.testBit (m.seq - (h.ackn + 2)))) }

/-- A message of an established session is received; one whose SEQ is past 2^63 ends the session with BYE (R119, R121). -/
def State.received (s : State) (h : ScpHead) : State :=
  let t := s.onSession h.sid (fun x => x.receive h s.cycle.toNat)
  if 2 ^ 63 < h.seq then (t.emit h.sid { kind := 7 } []).endSession h.sid else t

/-- SCP_AUTH: the static key must be in the admission list and its signature over the transcript verify; then the session is established.
Otherwise it is ended with BYE and forgotten (R120). -/
def execScpAuth (d : Datagram) (s : State) : Res :=
  match s.scpIn d 2 with
  | none => .next s
  | some h =>
    match s.openScp h d.bytes with
    | none => .next s
    | some (x, body) =>
      if h.seq ≠ 0 then .next s
      else if x.phase = 1 then .next (s.onSession h.sid (fun y => { y with ackDue := true, heard := s.cycle.toNat }))
      else match s.admitted x.pub, Crypto.ecdsaVerify x.pub x.transcript body with
        | some g, true =>
          let s1 : State := { s with host := { s.host with auths := s.host.auths + 1 } }
          .next (s1.onSession h.sid (fun y => { y with phase := 1, key := some g.1, auth := s1.host.auths, ackDue := true, heard := s.cycle.toNat }))
        | _, _ =>
          let s1 := s.emit h.sid { kind := 7 } []
          .next { s1 with host := { s1.host with sessions := SMap.put none s1.host.sessions h.sid none } }

/-- SCP_ACK: ACKN and SACK free acknowledged messages (R118, R121). -/
def execScpAck (d : Datagram) (s : State) : Res :=
  match s.scpIn d 6 with
  | none => .next s
  | some h =>
    if !s.live h.sid then .next s
    else match s.openScp h d.bytes with
      | none => .next s
      | some _ => .next (s.received h)

/-- SCP_BYE: the session ends, its tenant does not (R121). -/
def execScpBye (d : Datagram) (s : State) : Res :=
  match s.scpIn d 7 with
  | none => .next s
  | some h =>
    match s.openScp h d.bytes with
    | none => .next s
    | some _ => .next (s.endSession h.sid)

/-- SCP_DISCARD: no reply, no effect (R118). -/
def execScpDiscard (_d : Datagram) (s : State) : Res := .next s

/-- SCP_ACK_TIMER: an acknowledgement that is owed is sent (R121). -/
def execScpAckTimer (session : Nat) (s : State) : Res :=
  match s.session session with
  | none => .next s
  | some x => if x.ackDue then .next (s.sendOn session { kind := 6 } []) else .next s

/-- When an unacknowledged message is sent again: 100 us after it was first sent, then after twice as long each time, up to 10 ms, at 4,000
cycles to the microsecond (R26, R121). -/
def Sent.due (m : Sent) : Nat := m.at_ + min (400000 * 2 ^ m.resends) 40000000

/-- SCP_RESEND_TIMER: a message that is not acknowledged in time is sent again; after 12 resends the session ends (R121). -/
def execScpResendTimer (session seq : Nat) (s : State) : Res :=
  match (s.session session).bind (fun x => x.unacked.find? (fun m => m.seq == seq)) with
  | none => .next s
  | some m =>
    if s.cycle.toNat < m.due then .next s
    else if 12 ≤ m.resends then .next (s.endSession session)
    else .next ((s.send (.scp session m.wire)).onSession session (fun y =>
      { y with unacked := y.unacked.map (fun q => if q.seq = seq then { q with resends := q.resends + 1, at_ := s.cycle.toNat } else q) }))

/-- SCP_IDLE_TIMEOUT: nothing received for 60 s, which are 240 * 10^9 cycles (R26, R121). -/
def execScpIdleTimeout (session : Nat) (s : State) : Res :=
  match s.session session with
  | none => .next s
  | some x => if x.heard + 240000000000 ≤ s.cycle.toNat then .next (s.endSession session) else .next s

/-! ## Commands (R122, R124, R126) -/

/-- GROUP after its opcode (R410, Table 14.4). -/
def groupCmd (f : List Byte) : Option Cmd :=
  let n := natAt f 16 2
  let ids := (List.range n).map (fun r => natAt f (64 + 4 * r) 4)
  if natAt f 2 6 ≠ 0 then none
  else if natAt f 0 2 = 1 then (if f.length = 12 then some (.groupPoison (BitVec.ofNat 32 (natAt f 8 4))) else none)
  else if natAt f 0 2 = 0 ∧ f.length = 64 + 4 * n then
    some (.groupCreate
      { key := BitVec.ofNat 64 (natAt f 8 8), n := n, k := natAt f 18 2, lag := natAt f 20 1, rule := natAt f 21 1, op := natAt f 22 1,
        count := natAt f 24 4,
        reserved := natAt f 23 1 != 0 || natAt f 28 4 != 0 || ids.any (fun i => i / 2 ^ 12 % 16 != 0 || i / 2 ^ 20 != 0),
        weights := (List.range 16).map (fun j => BitVec.ofNat 16 (natAt f (32 + 2 * j) 2)),
        members := ids.map (fun i => (BitVec.ofNat 12 i, i / 2 ^ 16 % 16)) })
  else none

/-- The command in the body of a COMMAND; none where the opcode is not listed, a field is malformed or LEN disagrees (R126). -/
def parseCmd (b : List Byte) : Option Cmd :=
  let op := natAt b 0 2
  if b.length < 2 then none
  else if op = 0x06 then some (.launch (b.drop 2))
  else if op = 0x0B then groupCmd (b.drop 2)
  else (Config.cmdBody op (b.drop 2)).filter (fun c => c.op == op)

/-- Whether a session may address a tenant: its key opened it, or it is an OPERATOR session (R122). -/
def State.mayAddress (s : State) (sid tn : Nat) : Bool :=
  match s.tenant tn, s.grant sid with
  | some t, some g => g.2.1 || g.1 == t.key
  | _, _ => false

/-- Whether a session may give a command (R122, R126). -/
def State.permitted (s : State) (h : CmdHead) (op : Nat) : Bool :=
  let oper := ((s.grant h.session).map (·.2.1)).getD false
  if op = 0x01 then true
  else if h.tenant = 0xFF then cmdRole op == 2 || ((cmdRole op == 1 || op == 0x0E) && oper)
  else s.mayAddress h.session h.tenant && (cmdRole op ≠ 1 || oper)

/-- Whether a command is an OPEN that attaches to a tenant which is resetting (R137). -/
def State.attachesBusy (s : State) (h : CmdHead) : Cmd → Bool
  | .openTenant tn .. => s.mayAddress h.session tn && ((s.tenant tn).map (·.resetting)).getD false
  | _ => false

/-- A new command: answered at once, or queued in the order of arrival (R122 to R126, R137). -/
def State.enterCmd (s : State) (h : CmdHead) (op : Nat) (cmd : Option Cmd) : State :=
  if !s.permitted h op then s.answer h op 2 []
  else match cmd with
    | none => s.answer h op 1 []
    | some c =>
      if s.attachesBusy h c then s.answer h op 8 []
      else if op = 0x01 || h.tenant = 0xFF then
        ({ s with host := { s.host with direct := enq s.host.direct (h, c) } } : State).wakeSups
      else match s.tenant h.tenant with
        | none => s.answer h op 2 []
        | some t =>
          let q := SMap.look [] t.cmds h.queue
          if t.resetting then s.answer h op 8 []
          else if t.queues ≤ h.queue then s.answer h op 1 []
          else if 64 ≤ q.length then s.answer h op 4 []
          else (s.onTenant h.tenant (fun x => { x with cmds := SMap.put [] x.cmds h.queue (enq q (h, c)) })).wakeSups

/-- The command head that a message gives (Table 5.1). -/
def ScpHead.cmd (h : ScpHead) : CmdHead := { session := h.sid, tenant := h.tenant, queue := h.queue, ctag := h.ctag, seq := h.seq }

/-- SCP_COMMAND_RECEIVE: a duplicate draws the stored REPLY again, one beyond the window of 256 is discarded, another is carried out once
(R121, R124). -/
def execScpCommandReceive (d : Datagram) (s : State) : Res :=
  match s.scpIn d 3 with
  | none => .next s
  | some h =>
    if !s.live h.sid then .next s
    else match s.openScp h d.bytes with
      | none => .next s
      | some (x, body) =>
        if x.ackn + 256 < h.seq then .next s
        else
          let t := s.received h
          if 2 ^ 63 < h.seq then .next t
          else if h.seq ≤ x.ackn || x.sack.contains h.seq then
            match x.replies.find? (fun r => r.1 == h.seq) with
            | some r => .next (t.send (.scp h.sid r.2))
            | none => .next t
          else .next (t.enterCmd h.cmd (natAt body 0 2) (parseCmd body))

/-- A command that must wait keeps its place; one in no queue is kept among the commands without one (R124). -/
def State.keepCmd (s : State) (h : CmdHead) (c : Cmd) : State :=
  let queued := match s.tenant h.tenant with
    | some t => t.cmds.any (fun q => q.2.any (fun e => e.1 == h))
    | none => false
  if queued || s.host.direct.any (fun e => e.1 == h) then s else { s with host := { s.host with direct := enq s.host.direct (h, c) } }

/-! ## The host port (R116, R117) -/

/-- PORT_FAILOVER: the X0 controller or the X0 service processor is retired (R117). -/
def execPortFailover (s : State) : Res :=
  .next (if s.retired (.hostController 0) || s.retired (.serviceProcessor 0) then s.failover else s)

/-- HOST_LINK_DOWN_TIMEOUT: down on X0 for 20 ms while X1 trains in a probe (R117). -/
def execHostLinkDownTimeout (probeOk : Bool) (s : State) : Res := .next (if probeOk then s.failover else s)

/-- EVENT_DELAY_EXPIRY: the records of a tenant that are due are sent (R134). -/
def execEventDelayExpiry (tenant : Nat) (s : State) : Res := .next (s.sendDue tenant)

end Sys2Proof.Machine
end

