-- ==== Sys2Proof/Machine/Commands.lean ====
section
/-! DEFINITION. The host's commands: tenants, windows, templates, routines, launches, counters, copies, events, groups, checkpoints, reset,
attestation, the power cap and T2 pages (R122 to R138, R210, R430). -/

namespace Sys2Proof

/-- The dies whose stacks may hold the frames of a window, 0 for any; a T2 window names none (Table 5.2). -/
def MapBody.dies (b : MapBody) : BitVec 16 := if b.tier = 2#2 then 0#16 else b.dieMask

/-- Whether the body of MAPWIN is out of its limits (Table 5.2, R108, R210, R430). -/
def MapBody.bad (b : MapBody) (own : BitVec 12) : Bool :=
  decide (15 < b.window) || decide (b.va.toNat % 4096 ≠ 0) || decide (b.length.toNat % 4096 ≠ 0) || b.tier == 3#2
    || (b.length == 0#64 && (b.va != 0#64 || b.perms != 0#3 || b.tier != 0#2 || b.pkg != 0#12 || b.dieMask != 0#16 || b.handle != 0#44
        || b.homeCore || b.slice != 0#6 || b.mask != 0#64 || b.ship || b.stitch || b.data != 0 || b.parity != 0 || !b.members.isEmpty))
    || (b.tier == 1#2 && b.pkg == own) || (b.tier == 2#2 && (b.stitch || b.ship))
    || (b.stitch && (decide (b.data < 2) || decide (16 < b.data) || decide (b.parity = 0) || decide (2 < b.parity)
        || decide (b.members.length ≠ b.data + b.parity)))

/-- The frames of a page. -/
def Placement.unit (pl : Placement) : Nat := 2 ^ (pl.bits - 12)

/-- The frame after the last one that a placement gives a window. -/
def MapBody.pend (b : MapBody) (pl : Placement) : Nat :=
  Machine.frameFrom 33 b.dies pl.unit pl.base (b.length.toNat / 2 ^ pl.bits + pl.spare - 1) + pl.unit

/-- The window entry that MAPWIN makes (Table 7.8, R430). -/
def MapBody.entry (b : MapBody) (own : BitVec 12) (pl : Placement) : Machine.Window :=
  { valid := true, pbase := pl.base, pend := b.pend pl, pkg := if b.tier = 1#2 then b.pkg else own,
    sgrp := if b.stitch then pl.group else 0#16, ship := b.ship, stitch := b.stitch, tier := b.tier.toNat, perms := b.perms,
    mask := b.mask, va := b.va, length := b.length.toNat, handle := b.handle.toNat,
    homeCore := if b.homeCore then some b.slice.toNat else none, dies := b.dies, bits := pl.bits }

/-- The packages on which a window has memory: every member of its stitch group, or the one it names (R108, R430). -/
def MapBody.packages (b : MapBody) (own : BitVec 12) : List (BitVec 12) :=
  if b.stitch then (own :: b.members).eraseDups else [if b.tier = 1#2 then b.pkg else own]

/-- The stitch group of a stitched window (R108). -/
def MapBody.stitchGroup (b : MapBody) : Machine.StitchGroup := { data := b.members.take b.data, parity := b.members.drop b.data }

end Sys2Proof

namespace Sys2Proof.Machine

/-! ## Memory accesses of commands (R125, R430) -/

/-- A command's write performed at its home; one that raises the home's N raises the tenant's host vector (R125). -/
def State.hostWrite (s : State) (tn : Nat) (loc : Nat) (b : List Byte) : State :=
  let t := s.applyWrite loc b (s.homeSlice loc) .local
  match homeDie loc with
  | some h => if (t.die h).n = (s.die h).n then t else t.onTenant tn (fun x => { x with hostVec := raiseVec x.hostVec h (t.die h).n })
  | none => t

/-- A command zeroes a range of frames (R125, R430). -/
def State.zeroRange (s : State) (tn loc n : Nat) : State :=
  let keep (l : Nat) : Bool := !overlaps loc n l 1
  let s1 : State := { s with mem := s.mem.filter (fun e => keep e.1), poison := s.poison.filter (fun w => !overlaps loc n (8 * w) 8) }
  let lines := s1.dies.flatMap (fun e => (e.2.exported.filter (fun l => overlaps loc n (l * 512) 512)).map (fun l => (e.1, l)))
  let s2 := lines.foldl (fun t e =>
    let b := t.bump e.1
    ((b.2.acked e.1 b.1).onDie e.1 (fun d => { d with exported := without d.exported (· == e.2) })).onTenant tn
      (fun x => { x with hostVec := raiseVec x.hostVec e.1 b.1 })) s1
  let s3 : State := { s2 with dies := s2.dies.map (fun e =>
    (e.1, { e.2 with foreign := without e.2.foreign (fun c => overlaps loc n (c * 128) 128) })) }
  s3.loseMonitors (fun _ m => overlaps loc n (m.sector * 128) 128)

/-- A range of virtual addresses cut at page boundaries: start and length.  The first argument bounds the pieces. -/
def splitPages : Nat → Nat → Nat → List (Nat × Nat)
  | 0, _, _ => []
  | k + 1, va, n =>
    if n = 0 then []
    else
      let m := min n (4096 - va % 4096)
      (va, m) :: splitPages k (va + m) (n - m)

/-- What the supervisor finds when it prepares a range for a command (R125, R430). -/
inductive Prep where
  /-- Every byte is permitted and present. -/
  | ok (s : State)
  /-- A T2 page is being fetched. -/
  | wait (s : State)
  /-- A byte outside of every valid window that grants the permission. -/
  | denied

/-- Prepare one page: window and entry permission, and presence (R125). -/
def State.prepPage (s : State) (tn va : Nat) (k : AccKind) : Prep :=
  let w := BitVec.ofNat 64 va
  let ok (u : State) : Prep := match u.pteOf tn (va / 4096 * 4096) with
    | some p => if p.toNat.testBit k.bit then .ok u else .denied
    | none => .denied
  match (s.tenant tn).bind (fun t => t.windowAt w) with
  | none => .denied
  | some x =>
    if !x.perms.toNat.testBit k.bit then .denied
    else match s.touchPage tn w with
      | .present => ok s
      | .mapped u => ok u
      | .t2 h f => .wait (s.fetchPage tn w h f)
      | .none => .denied

/-- Prepare every page of a range; nothing is fetched or mapped where a page is denied (R125). -/
def State.prep (s : State) (tn : Nat) (k : AccKind) (l : List (Nat × Nat)) : Prep :=
  let r := l.foldl (fun (acc : Option (State × Bool)) e =>
    match acc with
    | none => none
    | some a => match a.1.prepPage tn e.1 k with
      | .ok u => some (u, a.2)
      | .wait u => some (u, true)
      | .denied => none) (some (s, false))
  match r with
  | none => .denied
  | some (u, true) => .wait u
  | some (u, false) => .ok u

/-- The location of a prepared address with its window. -/
def State.pieceLoc (s : State) (tn va : Nat) : Option (Nat × Window) :=
  (s.tenant tn).bind (fun t => (t.windowAt (BitVec.ofNat 64 va)).bind (fun w => (s.windowLoc t w (BitVec.ofNat 64 va)).map (fun l => (l, w))))

/-- Whether a prepared range reads poison: a poisoned unit or a marked page (R91, R95, R125). -/
def State.readsPoison (s : State) (tn : Nat) (l : List (Nat × Nat)) : Bool :=
  l.any (fun e => (((s.tenant tn).map (fun t => t.marked.contains (e.1 / 4096 * 4096))).getD false)
    || (match s.pieceLoc tn e.1 with | some x => s.poisoned x.1 e.2 | none => false))

/-! ## OPEN, CLOSE and RESET (R122, R123, R136, R137) -/

/-- The tenant's system window over its trap area (R136). -/
def systemWindow (pkg : BitVec 12) (tn : Nat) : Window :=
  { valid := true, pbase := Config.trapAreaPa tn / 4096, pend := Config.trapAreaPa tn / 4096 + 16, pkg := pkg, tier := 0, perms := 1#3,
    va := Config.trapAreaVa, length := 0x10000 }

/-- A new tenant's record; the memory of its page tables and its trap area reads zero (R122, R136, R201). -/
def State.newTenant (s : State) (tn key queues evcount evdelay store : Nat) (debug : Bool) : State :=
  let t : TenantSt :=
    { key := key, debug := debug, queues := queues, evcount := evcount, evdelay := evdelay, store := store,
      windows := [(16, systemWindow s.pkgid tn)], root := Config.tableBase tn, tables := 1, heap := (0#64, 0#64, 0#64), templates := [],
      events := [], dropped := false, waits := [], cmds := [], resetting := false, hostVec := [], trapSlot := 0, attached := [],
      session := none, fetches := [], evictions := [], marked := [] }
  let s1 : State := { s with tenants := SMap.put none s.tenants tn (some t) }
  (s1.zeroRange tn (Config.tableBase tn) (2 ^ 26)).zeroRange tn (Config.trapAreaPa tn) 0x10000

/-- A session attaches to a tenant, which may have records that wait for none (R121, R122, R134). -/
def State.attach (s : State) (tn sid : Nat) : State :=
  let s1 := s.onTenant tn (fun t => { t with attached := if t.attached.contains sid then t.attached else enq t.attached sid })
  (s1.onTenant tn (fun t => { t with session := s1.newest t.attached })).sendDue tn

/-- The result of OPEN: tenant number and trap-area address (Table 5.2). -/
def openBody (tn : Nat) : List Byte := bytesLE 1 tn ++ bytesLE 8 Config.trapAreaVa.toNat

/-- OPEN: a new tenant with the lowest free number, or a session that attaches to one (R122, R123).  The spec does not say what the queue count,
EVCOUNT, EVDELAY and store bytes of an OPEN that attaches do: the model checks their limits and then ignores them (log entry 68). -/
def execOpenTenant (h : CmdHead) (tenant queues evcount evdelay store : Nat) (debug : Bool) (s : State) : Res :=
  if queues = 0 || 8 < queues || evcount = 0 || 64 < evcount || 1000 < evdelay || (64 ≤ tenant && tenant ≠ 0xFF) then .next (s.finishCmd h 1 1 [])
  else match s.grant h.session with
    | none => .next (s.finishCmd h 1 2 [])
    | some g =>
      if tenant = 0xFF then
        if debug && !g.2.2 then .next (s.finishCmd h 1 2 [])
        else match (List.range 64).find? (fun i => (s.tenant i).isNone) with
          | none => .next (s.finishCmd h 1 3 [])
          | some tn => .next (((s.newTenant tn g.1 queues evcount evdelay store debug).attach tn h.session).finishCmd h 1 0 (openBody tn))
      else if debug || !s.mayAddress h.session tenant then .next (s.finishCmd h 1 2 [])
      else if ((s.tenant tenant).map (·.resetting)).getD false then .next (s.finishCmd h 1 8 [])
      else .next ((s.attach tenant h.session).finishCmd h 1 0 (openBody tenant))

/-- Queued commands of a tenant but one, and its WAITEVs, end with a status (R137). -/
def State.abortCmds (s : State) (tn : Nat) (h : CmdHead) (status : Nat) : State :=
  match s.tenant tn with
  | none => s
  | some t =>
    let s1 := t.waits.foldl (fun u w => u.answer w.head 0x0A status []) (s.onTenant tn (fun x => { x with waits := [] }))
    ((t.cmds.flatMap (·.2)).filter (fun e => e.1 != h)).foldl (fun u e => u.finishCmd e.1 e.2.op status []) s1

/-- Records of a tenant on their way to a session are delivered to none any more (R137). -/
def State.dropSent (s : State) (tn : Nat) : State :=
  { s with host := { s.host with sessions := s.host.sessions.map (fun e => (e.1, e.2.map (fun (x : Session) =>
      { x with unacked := x.unacked.map (fun m => if m.tenant = tn then { m with records := [] } else m) }))) } }

/-- Turns of a core that return when a tenant goes: those lent by its owner contexts and those its harvest contexts use (R137). -/
def State.turnsOf (s : State) (tn d c : Nat) : BitVec 8 :=
  let lent := (s.core d c).lentTurns.toNat
  (List.range 8).foldl (fun m i =>
    let own := ((s.ctx ⟨d, c, i, false⟩).bound.map (·.tenant)) == some tn
    let used := ((s.ctx ⟨d, c, i, true⟩).bound.map (·.tenant)) == some tn
    if lent.testBit i && (own || used) then m ||| BitVec.ofNat 8 (2 ^ i) else m) (0#8 : BitVec 8)

/-- Steps 2 to 5 of R137: groups are poisoned, contexts stop, launches fail untold, copies stop, banks are cleared, basin pages are
zeroed and returned with the turns; fetches and evictions of T2 pages are discarded (R210). -/
def State.stopTenant (s : State) (tn : Nat) : State :=
  let groups := s.groups.filterMap (fun e => match e.2 with | some g => if g.tenant = tn then some e.1 else none | none => none)
  let s1 := groups.foldl (fun t h => t.poisonGroup (BitVec.ofNat 32 h) false) s
  let turns := s1.cores.map (fun e => (e.1 / 66, e.1 % 66, s1.turnsOf tn (e.1 / 66) (e.1 % 66),
    (e.2.heldPages tn).filter (e.2.lentPages.contains ·)))
  let mine := (s1.allCtx.filter (fun e => !e.1.isSup && ((e.2.bound.map (·.tenant)) == some tn || (e.2.tn == tn && e.2.st != .idle)))).map (·.1)
  let s2 := mine.foldl (fun t c => t.setCtx c { (t.ctx c).restore with ahead := none }) s1
  let launches := s2.launches.filterMap (fun e => match e.2 with | some l => if l.tenant = tn then some e.1 else none | none => none)
  let s3 := launches.foldl (fun t l => t.failLaunch l 0#32 0#64 false) s2
  let s4 := mine.foldl (fun t c => t.makeIdle c) (s3.dropEngine (mine.contains ·))
  let r := s4.stopCopies (fun c => c.tenant == tn) 4
  let s5 := r.1.settle r.2
  let s6 := turns.foldl (fun t e => if e.2.2.1 = 0#8 ∧ e.2.2.2 = [] then t else t.unlend e.1 e.2.1 e.2.2.1 e.2.2.2) s5
  let s7 := s6.cores.foldl (fun t e => (e.2.heldPages tn).foldl (fun u p =>
    (u.zeroPage (e.1 / 66) (e.1 % 66) p).onCore (e.1 / 66) (e.1 % 66) (fun k => { k with pages := SMap.put 0 k.pages p 0 })) t) s6
  let used := (s7.allCtx.filter (fun e => !e.1.isSup && (e.2.lastTenant == some tn || mine.contains e.1))).map (·.1)
  let s8 := used.foldl (fun t c => t.setCtx c {}) s7
  { s8 with
    dies := s8.dies.map (fun e => (e.1, { e.2 with records := e.2.records.filter (fun q => (q.2.map (·.tenant)) != some tn) })),
    cores := s8.cores.map (fun e => (e.1, { e.2 with
      deltas := e.2.deltas.filter (fun q => !((q.2.map (fun d => ((s8.domain d.dom).map (·.tenant)) == some tn)).getD false)) })),
    counters := (s8.counters.map (fun e => (e.1, { e.2 with
      launches := without e.2.launches (launches.contains ·),
      tag := if ((e.2.tag.bind (fun t => s8.domain t.1)).map (·.tenant)) = some tn then none else e.2.tag }))).filter (fun e => e.2 != {}),
    traps := without s8.traps (fun t => t.tenant == tn), fetching := without s8.fetching (fun t => t.tenant == tn),
    tenants := s8.tenants.map (fun e => if e.1 = tn then (e.1, e.2.map (fun t => { t with fetches := [], evictions := [], waits := [] })) else e) }

/-- A tenant is gone: its windows are unmapped, its resources and its number free (R122, R137). -/
def State.freeTenant (s : State) (tn : Nat) : State :=
  let s1 := (List.range 16).foldl (fun t w => t.unmapWindow tn w) (s.dropSent tn)
  let s2 := s1.tlbDrop (fun _ => true) (fun e => e.tenant == tn)
  let gone (e : Option Group) : Bool := (e.map (·.tenant)) == some tn
  { s2 with tenants := SMap.put none s2.tenants tn none, groups := s2.groups.filter (fun e => !gone e.2) }

/-- CLOSE: the tenant ends and its resources are free; commands still queued name no tenant any more (R122). -/
def execClose (h : CmdHead) (s : State) : Res :=
  if (s.tenant h.tenant).isNone then .next (s.finishCmd h 2 2 [])
  else .next ((((s.abortCmds h.tenant h 2).stopTenant h.tenant).freeTenant h.tenant).finishCmd h 2 0 [])

/-- RESET: first the tenant is marked resetting and its queued commands end with RESET_ABORTED; then its contexts stop, its events are
discarded and TENANT_RESET is posted, or with the close flag it is closed (R137).  The tenant it names is that of its header, or with an OPERATOR
session any.  The close flag frees the tenant whichever of its sessions sent it: R137 says so of every RESET, though R122 lists an operator's
alone (log entry 67). -/
def execReset (h : CmdHead) (tenant : Nat) (closing : Bool) (s : State) : Res :=
  if h.tenant ≠ tenant && h.tenant ≠ 0xFF then .next (s.finishCmd h 0x0E 1 [])
  else match s.tenant tenant with
    | none => .next (s.finishCmd h 0x0E 2 [])
    | some t =>
      if !t.resetting then
        let s1 := s.onTenant tenant (fun x => { x with resetting := true })
        .next ((s1.abortCmds tenant h 7).keepCmd h (.reset tenant closing))
      else
        let s2 := ((s.stopTenant tenant).dropSent tenant).onTenant tenant (fun x => { x with events := [], dropped := false, resetting := false })
        let s3 := s2.post tenant 0x0008#16 0#8 0#32 0 0#64
        .next ((if closing then s3.freeTenant tenant else s3).finishCmd h 0x0E 0 [])

/-! ## MAPWIN (R430) -/

/-- Whether a virtual range may be a window's: canonical with bit 47 clear, apart from the tenant's other valid windows and its trap area
(R430). -/
def TenantSt.rangeOk (t : TenantSt) (b : MapBody) : Bool :=
  decide (b.va.toNat + b.length.toNat ≤ 2 ^ 47)
    && t.windows.all (fun e => e.1 == b.window || !e.2.valid || !overlaps b.va.toNat b.length.toNat e.2.va.toNat e.2.length)

/-- The windows that hold frames on one of some packages, but the one that MAPWIN replaces. -/
def State.windowsOn (s : State) (tn w : Nat) (pkgs : List (BitVec 12)) : List Window :=
  s.tenants.flatMap (fun e => match e.2 with
    | some t => (t.windows.filter (fun x => x.2.valid && !(e.1 == tn && x.1 == w) && pkgs.contains x.2.pkg)).map (·.2)
    | none => [])

/-- Whether a placement fits: a page size that the range allows, and a physical range that begins with a frame of the window's dies, meets no
other window's, and ends below what the supervisor keeps for itself (R1, R58, R430, Table 7.8). -/
def State.fits (s : State) (tn : Nat) (b : MapBody) (pl : Placement) : Bool :=
  (pl.bits == 12 || pl.bits == 21 || pl.bits == 30) && decide (b.va.toNat % 2 ^ pl.bits = 0) && decide (b.length.toNat % 2 ^ pl.bits = 0)
    && decide (pl.base % pl.unit = 0) && decide (frameFrom 33 b.dies pl.unit pl.base 0 = pl.base)
    && decide (b.pend pl * 4096 ≤ Config.tableBase 0)
    && (s.windowsOn tn b.window (b.packages s.pkgid)).all (fun w => decide (b.pend pl ≤ w.pbase) || decide (w.pend ≤ pl.base))

/-- The lowest placement with a number of spare pages, where one fits: it begins at the bottom or after another window. -/
def State.firstFit (s : State) (tn : Nat) (b : MapBody) (spare : Nat) : Option Placement :=
  let g := ((s.rcv.stitch.find? (fun e => e.2 == some b.stitchGroup)).map (·.1)).getD
    (((List.range 65536).find? (fun i => (SMap.look none s.rcv.stitch i).isNone)).getD 0)
  (((0 :: (s.windowsOn tn b.window (b.packages s.pkgid)).map (·.pend)).map (fun a => frameFrom 33 b.dies 1 a 0)).foldl insNat []).map (fun a =>
    ({ base := a, bits := 12, spare := spare, group := BitVec.ofNat 16 g } : Placement)) |>.find? (s.fits tn b ·)

/-- Whether the id chosen for a stitch group is free or already names the same packages (R108). -/
def State.groupIdOk (s : State) (b : MapBody) (pl : Placement) : Bool :=
  !b.stitch || (match SMap.look none s.rcv.stitch pl.group.toNat with | some g => g == b.stitchGroup | none => true)

/-- Unmap a window, and end the copies that wait for a page of it with code 5 (R387, R430). -/
def State.unmapAll (s : State) (tn w : Nat) : State :=
  let x := (((s.tenant tn).map (fun t => SMap.look {} t.windows w)).getD {})
  let waits := s.cores.flatMap (fun e => e.2.channels.filterMap (fun ch => match ch.2.copies with
    | cp :: _ =>
      if cp.suspended && cp.tenant == tn then
        match s.suspendVa (e.1 / 66) cp with
        | some va => if x.va.toNat ≤ va.toNat ∧ va.toNat < x.va.toNat + x.length then some (e.1, ch.1, cp) else none
        | none => none
      else none
    | [] => none))
  waits.foldl (fun t e => t.endCopy (e.1 / 66) (e.1 % 66) e.2.1 5#8 (e.2.2.done * (tmplOf e.2.2.words).esize)) (s.unmapWindow tn w)

/-- The location of a physical address of a package. -/
def State.locOn (s : State) (pkg : BitVec 12) (pa : Nat) : Nat := if pkg = s.pkgid then ownLoc pa else pkgLoc pkg pa

/-- The frames of a new window read zero on every package that holds them (R430). -/
def State.clearFrames (s : State) (tn : Nat) (pkgs : List (BitVec 12)) (w : Window) : State :=
  pkgs.foldl (fun t p => (t.zeroRange tn (s.locOn p (w.pbase * 4096)) ((w.pend - w.pbase) * 4096)).purge (s.locOn p (w.pbase * 4096))
    ((w.pend - w.pbase) * 4096)) s

/-- MAPWIN: unmap, or map with frames that read zero and the window's entry; its page entries are made on first touch (R430).  A placement
that the supervisor cannot choose leaves the command waiting. -/
def execMapwin (h : CmdHead) (b : MapBody) (pl : Placement) (s : State) : Res :=
  match s.tenant h.tenant with
  | none => .next (s.finishCmd h 3 2 [])
  | some t =>
    if b.bad s.pkgid then .next (s.finishCmd h 3 1 [])
    else if b.length = 0#64 then .next ((s.unmapAll h.tenant b.window).finishCmd h 3 0 [])
    else if !t.rangeOk b then .next (s.finishCmd h 3 1 [])
    else if (s.firstFit h.tenant b 0).isNone then .next (s.finishCmd h 3 3 [])
    else if !s.fits h.tenant b pl || !s.groupIdOk b pl then .next (s.keepCmd h (.mapwin b))
    else
      let w := b.entry s.pkgid pl
      let s2 := (s.unmapAll h.tenant b.window).clearFrames h.tenant (b.packages s.pkgid) w
      let s3 := (List.range (b.length.toNat / 2 ^ pl.bits)).foldl (fun u i =>
        let va := b.va.toNat + i * 2 ^ pl.bits
        if (u.pteOf h.tenant va).isSome || pl.bits != 12 then u.mapPage h.tenant va 0 pl.bits else u) s2
      let s4 := (s3.tlbDrop (fun _ => true) (fun e => e.tenant == h.tenant && overlaps b.va.toNat b.length.toNat e.va 1)).onTenant h.tenant
        (fun x => { x with windows := SMap.put {} x.windows b.window w })
      let s5 : State := if b.stitch then
          { s4 with rcv := { s4.rcv with stitch := SMap.put none s4.rcv.stitch pl.group.toNat (some b.stitchGroup) } }
        else s4
      .next (s5.finishCmd h 3 0 [])

/-! ## TEMPLATES, ROUTINES, LAUNCH (R74, R75, R125, R129, R384) -/

/-- TEMPLATES: images go to the tenant's table; a zero image reads as one never written (R384). -/
def execTemplates (h : CmdHead) (first : Nat) (images : List (List Word)) (s : State) : Res :=
  if (s.tenant h.tenant).isNone then .next (s.finishCmd h 4 2 [])
  else if images.isEmpty || 128 < images.length || 4096 < first + images.length || images.any (fun i => decide (i.length ≠ 8)) then
    .next (s.finishCmd h 4 1 [])
  else
    let image (l : List Word) : List Word := if l.all (· == 0#64) then [] else l
    .next ((s.onTenant h.tenant (fun t => { t with
      templates := (images.zipIdx).foldl (fun m e => SMap.put [] m (first + e.2) (image e.1)) t.templates })).finishCmd h 4 0 [])

/-- ROUTINES: every base die is loaded with the same entries; the first refused one is reported (R74, R75).  That the entries beside a refused one
are loaded all the same, and the status is OK, is the model's reading (log entry 69). -/
def execRoutines (h : CmdHead) (first : Nat) (entries : List Routine) (s : State) : Res :=
  if entries.isEmpty || 32 < entries.length || 1024 < first + entries.length then .next (s.finishCmd h 5 1 [])
  else
    let load (t : StackSt) : StackSt := entries.zipIdx.foldl (fun u e => u.writeRoutine (first + e.2) e.1) t
    let bad := ((entries.zipIdx).find? (fun e => e.1.valid && !routineOk e.1)).map (fun e => first + e.2)
    .next (((List.range 34).foldl (fun t k => t.onStack k load) s).finishCmd h 5 0 (bytesLE 2 (bad.getD 0xFFFF)))

/-- LAUNCH: the checks of R129 in order, then acceptance; with FENCE it waits for every earlier launch of its queue (R124). -/
def execLaunch (h : CmdHead) (body : List Byte) (s : State) : Res :=
  match s.tenant h.tenant with
  | none => .next (s.finishCmd h 6 2 [])
  | some t =>
    let q := launchReq body
    if body.length ≠ 136 || q.bad then .next (s.finishCmd h 6 1 [])
    else if s.launchDenied h.tenant q then .next (s.finishCmd h 6 2 [])
    else if q.unplaceable then .next (s.finishCmd h 6 5 [])
    else if q.flags.testBit 2 && s.launches.any (fun e => match e.2 with
        | some l => l.tenant == h.tenant && (l.origin.map (·.1)) == some h.queue && decide (l.phase ≠ 2)
        | none => false) then .next (s.keepCmd h (.launch body))
    else
      let r := s.acceptLaunch h.tenant q 0#32 t.hostVec (some (h.queue, h.seq))
      .next (r.2.finishCmd h 6 0 (bytesLE 8 r.1))

/-! ## CNTSET, COPYIN, COPYOUT (R125, R128) -/

/-- The checks of CNTSET: the counter's location once its page is prepared. -/
def State.cntset (s : State) (h : CmdHead) (c : Cmd) (va : Word) (k : State → Nat → Window → Res) : Res :=
  if (s.tenant h.tenant).isNone then .next (s.finishCmd h 7 2 [])
  else if va.toNat % 8 ≠ 0 then .next (s.finishCmd h 7 1 [])
  else match s.prep h.tenant .wr [(va.toNat, 8)] with
    | .denied => .next (s.finishCmd h 7 2 [])
    | .wait u => .next (u.keepCmd h c)
    | .ok u =>
      match u.pieceLoc h.tenant va.toNat with
      | none => .next (u.finishCmd h 7 2 [])
      | some x =>
        if u.locked x.1 8 then .next (u.keepCmd h c)
        else if u.readsPoison h.tenant [(va.toNat, 8)] then .next (u.finishCmd h 7 6 [])
        else k u x.1 x.2

/-- CNTSET with mode SET: stores the value and answers the old one; a counter left at zero fires (R128, R154). -/
def execCntsetSet (h : CmdHead) (va value : Word) (s : State) : Res :=
  s.cntset h (.cntsetSet va value) va (fun u loc _w =>
    let t := (u.hostWrite h.tenant loc (bytesLE 8 value.toNat)).settle [.fire loc]
    .next (t.finishCmd h 7 0 (bytesLE 8 (u.natAtLoc loc 8))))

/-- CNTSET with mode DEC: subtracts the low 32 bits of the value from the arrival field, or BAD_FIELD below zero (R128). -/
def execCntsetDec (h : CmdHead) (va value : Word) (s : State) : Res :=
  s.cntset h (.cntsetDec va value) va (fun u loc _w =>
    let old := u.natAtLoc loc 8
    let n := value.toNat % 2 ^ 32
    if old % 2 ^ 32 < n then .next (u.finishCmd h 7 1 [])
    else if n = 0 then .next (u.finishCmd h 7 0 (bytesLE 8 old))
    else .next (((u.hostWrite h.tenant loc (bytesLE 8 (old - n))).settle [.fire loc]).finishCmd h 7 0 (bytesLE 8 old)))

/-- COPYIN: all bytes are checked, then written at their homes; a marked page written whole is marked no more (R95, R125). -/
def execCopyin (h : CmdHead) (va : Word) (bytes : List Byte) (s : State) : Res :=
  if (s.tenant h.tenant).isNone then .next (s.finishCmd h 8 2 [])
  else if bytes.isEmpty || 8192 < bytes.length then .next (s.finishCmd h 8 1 [])
  else
    let l := splitPages 4 va.toNat bytes.length
    match s.prep h.tenant .wr l with
    | .denied => .next (s.finishCmd h 8 2 [])
    | .wait u => .next (u.keepCmd h (.copyin va bytes))
    | .ok u =>
      if l.any (fun e => match u.pieceLoc h.tenant e.1 with | some x => u.locked x.1 e.2 | none => false) then .next (u.keepCmd h (.copyin va bytes))
      else
        let t := l.foldl (fun v e => match v.pieceLoc h.tenant e.1 with
          | some x => v.hostWrite h.tenant x.1 ((bytes.drop (e.1 - va.toNat)).take e.2)
          | none => v) u
        let whole := (l.filter (fun e => e.2 == 4096)).map (·.1)
        .next ((t.onTenant h.tenant (fun y => { y with marked := without y.marked (whole.contains ·) })).finishCmd h 8 0 [])

/-- COPYOUT: the bytes, or FAULTED on poison (R125). -/
def execCopyout (h : CmdHead) (va : Word) (length : Nat) (s : State) : Res :=
  if (s.tenant h.tenant).isNone then .next (s.finishCmd h 9 2 [])
  else if length = 0 || 8192 < length then .next (s.finishCmd h 9 1 [])
  else
    let l := splitPages 4 va.toNat length
    match s.prep h.tenant .rd l with
    | .denied => .next (s.finishCmd h 9 2 [])
    | .wait u => .next (u.keepCmd h (.copyout va length))
    | .ok u =>
      if u.readsPoison h.tenant l then .next (u.finishCmd h 9 6 [])
      else .next (u.finishCmd h 9 0 (l.flatMap (fun e => match u.pieceLoc h.tenant e.1 with
        | some x => u.bytesAt x.1 e.2
        | none => [])))

/-! ## WAITEV (R134) -/

/-- WAITEV: matching records now, or it finishes and its REPLY is sent when it returns; with a timeout of 0 it returns at once (R124, R134).  The
timeout is in microseconds. -/
def execWaitev (h : CmdHead) (mask : Word) (max timeout : Nat) (s : State) : Res :=
  match s.tenant h.tenant with
  | none => .next (s.finishCmd h 0x0A 2 [])
  | some t =>
    if max = 0 || 64 < max || 10000000 < timeout then .next (s.finishCmd h 0x0A 1 [])
    else if t.waits.any (fun w => w.head == h) then .next s
    else
      let hit := (t.events.filter (fun e => mask.toNat.testBit (e.code.toNat % 64))).take max
      if !hit.isEmpty || timeout = 0 then
        .next ((s.onTenant h.tenant (fun y => { y with events := without y.events (hit.contains ·) })).finishCmd h 0x0A 0 (hit.flatMap (·.bytes)))
      else
        .next ((s.leaveQueue h).onTenant h.tenant (fun y =>
          { y with waits := enq y.waits { head := h, mask := mask, max := max, ends := s.cycle.toNat + 4000 * timeout } }))

/-- WAITEV_TIMEOUT: its time is over, and it returns the records it has, which are none (R134). -/
def execWaitevTimeout (h : CmdHead) (s : State) : Res :=
  match s.tenant h.tenant with
  | none => .next s
  | some t =>
    if t.waits.any (fun w => w.head == h && decide (w.ends ≤ s.cycle.toNat)) then
      .next ((s.onTenant h.tenant (fun y => { y with waits := without y.waits (fun w => w.head == h) })).answer h 0x0A 0 [])
    else .next s

/-! ## GROUP (R410, R419) -/

/-- Whether a TABLE weight is allowed: +0, or finite from 2^-15 to 1 (R410). -/
def weightOk (w : BitVec 16) : Bool := w == 0#16 || (decide (0x3800 ≤ w.toNat) && decide (w.toNat ≤ 0x3F80))

/-- The checks of GROUP CREATE (R410). -/
def State.badGroup (s : State) (tn : Nat) (b : GroupBody) : Bool :=
  let packages := s.pkgid :: (s.reach.map (·.1) ++ (((s.tenant tn).map (fun t => t.windows.filterMap (fun w => if w.2.valid then some w.2.pkg else none))).getD []))
  decide (b.n = 0) || decide (1024 < b.n) || decide (b.k = 0) || decide (b.n < b.k) || decide (15 < b.lag) || decide (b.count = 0)
    || decide (65536 < b.count) || decide (3 < b.rule) || decide (3 < b.op) || (b.op == 2 && !(b.rule == 0 || b.rule == 3))
    || decide (b.weights.length ≠ 16) || b.weights.any (fun w => if b.rule = 2 then !weightOk w else w != 0#16)
    || decide (b.members.length ≠ b.n) || b.members.any (fun m => decide (16 ≤ m.2) || !packages.contains m.1) || b.reserved

/-- GROUP CREATE: the group, its table entries on the routers, and its handle (R54, R410). -/
def execGroupCreate (h : CmdHead) (b : GroupBody) (s : State) : Res :=
  if (s.tenant h.tenant).isNone then .next (s.finishCmd h 0x0B 2 [])
  else if s.badGroup h.tenant b then .next (s.finishCmd h 0x0B 1 [])
  else
    let mine := ((b.members.filter (fun m => m.1 == s.pkgid)).map (·.2)).eraseDups
    if mine.any (fun d => decide (256 ≤ (SMap.look [] s.fab.groupTables (s.physDie d)).length)) then .next (s.finishCmd h 0x0B 3 [])
    else
      let id := s.lastGroup + 1
      let g : Group :=
        { tenant := h.tenant, key := b.key, n := b.n, k := b.k, lag := b.lag, rule := b.rule, op := b.op, count := b.count, weights := b.weights,
          members := b.members, poisoned := false, openRound := 0#32, cur := Round.empty b.count, next := Round.empty b.count, arrived := [],
          dies := [], messages := [], flight := [], sending := [] }
      let s1 : State := { s with lastGroup := id, groups := SMap.put none s.groups id (some g) }
      .next ((s1.bindGroup (BitVec.ofNat 32 id)).finishCmd h 0x0B 0 (bytesLE 4 id))

/-- GROUP POISON: the entries are invalid on every router before the command completes (R54, R419). -/
def execGroupPoison (h : CmdHead) (handle : BitVec 32) (s : State) : Res :=
  match s.group handle with
  | some g =>
    if g.tenant = h.tenant then .next ((s.poisonGroup handle true).finishCmd h 0x0B 0 (bytesLE 4 handle.toNat))
    else .next (s.finishCmd h 0x0B 2 [])
  | none => .next (s.finishCmd h 0x0B 2 [])

/-! ## Checkpoints (R111 to R115, R127) -/

/-- Whether a package is live (R101, R112). -/
def State.livePkg (s : State) (p : BitVec 12) : Bool := !s.rcv.lost.contains p

/-- Bytes of a unit: 1 MiB (R111). -/
def unitSize : Nat := 2 ^ 20

/-- A byte string padded with zeros. -/
def padTo (n : Nat) (l : List Byte) : List Byte := l ++ List.replicate (n - l.length) 0#8

/-- Stripes of a step of `total` bytes on G members with q parity units (R111). -/
def stripeCount (total g q : Nat) : Nat := ((total + unitSize - 1) / unitSize + (g - q) - 1) / (g - q)

/-- The slots of the parity units of a stripe: member G - 1 - (s mod G), and the member before it (R111). -/
def paritySlots (g q s : Nat) : List Nat := [g - 1 - s % g, (g - 1 - s % g + g - 1) % g].take q

/-- The units of a stripe from its data units: data on the other members in ascending order, and parity (R111). -/
def stripeUnits (g q s : Nat) (data : List (Nat × List Byte)) : List CkptUnit :=
  let ps := paritySlots g q s
  let ds := (List.range g).filter (fun i => !ps.contains i)
  data.map (fun e => { stripe := s, slot := ds.getD e.1 0, index := e.1, bytes := e.2 })
    ++ (ps.zipIdx).map (fun e => { stripe := s, slot := e.1, index := g - q + e.2, bytes := parityOf unitSize e.2 data })

/-- All units of a step from its bytes; the last stripe is filled up with units of zeros (R111). -/
def ckptUnits (g q : Nat) (bytes : List Byte) : List CkptUnit :=
  (List.range (stripeCount bytes.length g q)).flatMap (fun s => stripeUnits g q s ((List.range (g - q)).map (fun i =>
    (i, padTo unitSize ((bytes.drop ((s * (g - q) + i) * unitSize)).take unitSize)))))

/-- The SHA-384 over a commit record: step, G, q, members, and every shard's name, length and hash (R113). -/
def CkptStep.recordHash (c : CkptStep) : BitVec 384 :=
  Crypto.sha384 (bytesLE 8 c.step ++ bytesLE 2 c.members.length ++ bytesLE 2 c.q ++ c.members.flatMap (fun m => bytesLE 2 m.toNat)
    ++ c.shards.flatMap (fun x => bytesLE 8 x.name.toNat ++ bytesLE 8 x.length ++ Crypto.bytesBE 48 x.hash.toNat))

/-- Whether one of some members holds a valid commit record of a step (R113, R115). -/
def CkptStep.committed (c : CkptStep) (live : BitVec 12 → Bool) : Bool := c.records.any (fun r => live r.1 && r.2 == c.recordHash)

/-- A shard as its replicas report it: the lowest-numbered live one writes it, the other live ones attest; none where no replica lives
(R112). -/
def State.shardRec (s : State) (x : Shard) (copies : List (List Byte)) : Option (ShardRec × List Byte) :=
  match (x.replicas.zip copies).filter (fun e => s.livePkg e.1) with
  | [] => none
  | w :: others => some ({ name := x.name, length := x.length, hash := Crypto.sha384 w.2, writer := w.1,
                           attests := others.map (fun e => (e.1, Crypto.sha384 e.2)) }, w.2)

/-- The replicas of a shard whose attest differs from the writer's hash, as a mask over the replica set (R112). -/
def ShardRec.diverging (r : ShardRec) (replicas : List (BitVec 12)) : Nat :=
  (replicas.zipIdx).foldl (fun m e => if r.attests.any (fun a => a.1 == e.1 && a.2 != r.hash) then m + 2 ^ e.2 else m) 0

/-- Whether a report is one for the shards of a command. -/
def ckptReported (b : CkptBody) (r : CkptReport) : Bool :=
  decide (r.copies.length = b.shards.length)
    && (b.shards.zip r.copies).all (fun e => decide (e.2.length = e.1.replicas.length) && e.2.all (fun c => decide (c.length = e.1.length)))

/-- The step areas after a step has been committed: of the steps that share a member with it, those with two newer committed ones are reclaimed,
and uncommitted ones older than it (R114). -/
def reclaim (l : List CkptStep) (c : CkptStep) : List CkptStep :=
  let near (x : CkptStep) : Bool := x.tenant == c.tenant && x.members.any (c.members.contains ·)
  let newer (x : CkptStep) : Nat := (l.filter (fun y => near y && y.committed (fun _ => true) && decide (x.step < y.step))).length
  without l (fun x => x != c && near x && decide ((if x.committed (fun _ => true) then 2 else 1) ≤ newer x))

/-- CKPT: units, parity and attests of a step, then the commit records; a differing attest, a lost member or a missing acknowledgement leaves
the step uncommitted (R111 to R114, R127). -/
def execCkpt (h : CmdHead) (b : CkptBody) (r : CkptReport) (s : State) : Res :=
  if (s.tenant h.tenant).isNone then .next (s.finishCmd h 0x0C 2 [])
  else if b.members.length < 3 || 64 < b.members.length || b.q = 0 || 2 < b.q || b.shards.any (fun x => x.replicas.isEmpty) then
    .next (s.finishCmd h 0x0C 1 [])
  else if !ckptReported b r then .next (s.keepCmd h (.ckpt b))
  else
    let recs := (b.shards.zip r.copies).filterMap (fun e => s.shardRec e.1 e.2)
    let diverged := ((recs.zip b.shards).zipIdx).find? (fun e => e.1.1.1.diverging e.1.2.replicas != 0)
    let ok := diverged.isNone && r.acked && decide (recs.length = b.shards.length) && b.members.all s.livePkg
    let c0 : CkptStep := { tenant := h.tenant, step := b.step, members := b.members, q := b.q, shards := recs.map (·.1),
                           units := (ckptUnits b.members.length b.q (recs.flatMap (·.2))).filter (fun u => s.livePkg (b.members.getD u.slot 0#12)),
                           records := [] }
    let c := if ok then { c0 with records := b.members.map (fun m => (m, c0.recordHash)) } else c0
    let old := without s.rcv.ckpts (fun x => x.tenant == h.tenant && x.step == b.step && (ok || x.records.isEmpty))
    let s1 : State := { s with rcv := { s.rcv with ckpts := if ok then reclaim (enq old c) c else enq old c } }
    if ok then .next ((s1.post h.tenant 0x0004#16 0#8 0#32 0 (BitVec.ofNat 64 b.step)).finishCmd h 0x0C 0 [])
    else match diverged with
      | some e =>
        .next ((s1.post h.tenant 0x0005#16 0#8 0#32 0
          (BitVec.ofNat 64 (e.2 % 2 ^ 32 + e.1.1.1.diverging e.1.2.replicas % 2 ^ 32 * 2 ^ 32))).finishCmd h 0x0C 6 [])
      | none => .next (s1.finishCmd h 0x0C 6 [])

/-- The data units of every stripe of a step, rebuilt from the units whose members answer; none where a stripe lacks more than q (R115). -/
def CkptStep.rebuild (c : CkptStep) (live : BitVec 12 → Bool) : Option (List (List (Nat × List Byte))) :=
  let g := c.members.length
  (List.range (stripeCount ((c.shards.map (·.length)).foldl (· + ·) 0) g c.q)).mapM (fun s =>
    let have_ := c.units.filter (fun u => u.stripe == s && live (c.members.getD u.slot 0#12))
    (solveData (g - c.q) ((have_.filter (fun u => decide (u.index < g - c.q))).map (fun u => (u.index, u.bytes)))
      ((have_.filter (fun u => decide (g - c.q ≤ u.index))).map (fun u => (u.index - (g - c.q), u.bytes)))).map (fun l =>
        (List.range (g - c.q)).map (fun i => (i, ((l.find? (fun e => e.1 == i)).map (·.2)).getD []))))

/-- The members after slots that do not answer have gone to their replacements (R115). -/
def replaceMembers (live : BitVec 12 → Bool) (members : List (BitVec 12)) (repl : List (Nat × BitVec 12)) : List (BitVec 12) :=
  members.zipIdx.map (fun e => if live e.1 then e.1 else ((repl.find? (fun r => r.1 == e.2)).map (·.2)).getD e.1)

/-- A restored step: every unit of a member that answers or replaces another, and a commit record at each of them (R113, R115). -/
def CkptStep.restored (c : CkptStep) (live : BitVec 12 → Bool) (repl : List (Nat × BitVec 12)) (data : List (List (Nat × List Byte))) : CkptStep :=
  let ms := replaceMembers live c.members repl
  let held (p : BitVec 12) : Bool := live p || repl.any (fun r => r.2 == p)
  let c1 := { c with members := ms, units := (data.zipIdx.flatMap (fun (e : List (Nat × List Byte) × Nat) => stripeUnits ms.length c.q e.2 e.1)).filter (fun u => held (ms.getD u.slot 0#12)) }
  { c1 with records := (ms.filter held).map (fun m => (m, c1.recordHash)) }

/-- The messages that hand every shard of a step to each of its replicas, or to the package that replaces it (R115). -/
def CkptStep.handOut (c : CkptStep) (live : BitVec 12 → Bool) (repl : List (Nat × BitVec 12)) (bytes : List Byte) : List OutMsg :=
  let dest (p : BitVec 12) : BitVec 12 := if live p then p else
    ((repl.find? (fun r => c.members[r.1]? == some p)).map (·.2)).getD p
  (c.shards.foldl (fun (acc : List OutMsg × Nat) x =>
    (acc.1 ++ (x.writer :: x.attests.map (·.1)).map (fun p => OutMsg.shard (dest p) x.name ((bytes.drop acc.2).take x.length)), acc.2 + x.length)) ([], 0)).1

/-- RESTORE: of the steps with a valid commit record at a live member, the newest that can be rebuilt; its missing units are rebuilt on the
replacements and every replica receives the written copy of its shard; newer steps without a record are reclaimed; with no step left
RESTORE_NONE (R115). -/
def execRestore (h : CmdHead) (members : List (BitVec 12)) (replacements : List (Nat × BitVec 12)) (s : State) : Res :=
  if (s.tenant h.tenant).isNone then .next (s.finishCmd h 0x0D 2 [])
  else if members.isEmpty || 64 < members.length then .next (s.finishCmd h 0x0D 1 [])
  else
    let live (p : BitVec 12) : Bool := members.contains p && s.livePkg p
    let mine := s.rcv.ckpts.filter (fun c => c.tenant == h.tenant && c.committed live)
    let best := (mine.filterMap (fun c => (c.rebuild live).map (fun d => (c, d)))).foldl (fun (a : Option (CkptStep × List (List (Nat × List Byte)))) e =>
      match a with
      | some x => if x.1.step < e.1.step then some e else a
      | none => some e) none
    match best with
    | none => .next ((s.post h.tenant 0x0006#16 0#8 0#32 0 0#64).finishCmd h 0x0D 6 [])
    | some (c, d) =>
      let newer (x : CkptStep) : Bool := x.tenant == h.tenant && decide (c.step < x.step) && !x.committed live && x.members.any (c.members.contains ·)
      let put (x : CkptStep) : CkptStep := if x = c then c.restored live replacements d else x
      let s1 : State := { s with rcv := { s.rcv with ckpts := (without s.rcv.ckpts newer).map put } }
      .next (((c.handOut live replacements (d.flatMap (fun l => l.flatMap (·.2)))).foldl State.send s1).finishCmd h 0x0D 0 (bytesLE 8 c.step))

/-! ## ATTEST and POWERCAP (R22, R138) -/

/-- A unit of the repair record as bytes. -/
def unitBytes : FUnit → List Byte
  | .core d c => [0#8, BitVec.ofNat 8 d, BitVec.ofNat 8 c, 0#8]
  | .supCore d c => [1#8, BitVec.ofNat 8 d, BitVec.ofNat 8 c, 0#8]
  | .dieShared d => [2#8, BitVec.ofNat 8 d, 0#8, 0#8]
  | .hbmRow h b r => [3#8, BitVec.ofNat 8 h] ++ bytesLE 2 b ++ bytesLE 4 r
  | .stack h => [4#8, BitVec.ofNat 8 h, 0#8, 0#8]
  | .lane p rx l => [5#8, BitVec.ofNat 8 p, if rx then 1#8 else 0#8, BitVec.ofNat 8 l]
  | .portDir p rx => [6#8, BitVec.ofNat 8 p, if rx then 1#8 else 0#8, 0#8]
  | .serviceProcessor x => [7#8, BitVec.ofNat 8 x, 0#8, 0#8]
  | .hostController x => [8#8, BitVec.ofNat 8 x, 0#8, 0#8]
  | .package p => [9#8, 0#8] ++ bytesLE 2 p.toNat

/-- The quote: nonce, measurements, fused security version, repair record, MAPGEN, maps and sr.cycle (R138). -/
def State.quote (s : State) (nonce : BitVec 256) : List Byte :=
  Crypto.bytesBE 32 nonce.toNat ++ (List.range 16).flatMap (fun i => Crypto.bytesBE 48 (SMap.look 0#384 s.pkg.meas i).toNat)
    ++ bytesLE 8 s.pkg.fuse0.version.toNat ++ s.pkg.fuse0.repair.flatMap unitBytes ++ bytesLE 4 (s.router 0 0xC0).toNat ++ s.mapBytes
    ++ bytesLE 8 s.cycle.toNat

/-- ATTEST: the quote, its signature with the identity key, and the identity certificate (R28, R138). -/
def execAttest (h : CmdHead) (nonce : BitVec 256) (s : State) : Res :=
  let q := s.quote nonce
  let sig := Crypto.ecdsaSign s.identity.1 (Config.secret s.pkg.nonces) q
  .next (({ s with pkg := { s.pkg with nonces := s.pkg.nonces + 1 } } : State).finishCmd h 0x0F 0
    (q ++ sig ++ Crypto.keyBytes s.identity.2 ++ Config.certSig s.pkg.fuse0.seed))

/-- POWERCAP (R22, R138). -/
def execPowercap (h : CmdHead) (watts : Nat) (s : State) : Res :=
  if watts < 2500 || 8000 < watts then .next (s.finishCmd h 0x10 1 [])
  else .next (({ s with pkg := { s.pkg with cap := watts } } : State).finishCmd h 0x10 0 [])

/-! ## T2 pages (R210) -/

/-- Contexts whose T2 pages have all arrived are resumed (R210). -/
def State.resumeFetched (s : State) : State :=
  let open_ (r : TrapRec) : Bool := match s.tenant r.tenant with
    | some t => r.pages.any (fun p => t.fetches.any (fun f => decide (f.va.toNat ≤ p.toNat) && decide (p.toNat < f.va.toNat + 2 ^ f.bits)))
    | none => false
  (s.fetching.filter (fun r => !open_ r)).foldl (fun u r => if (u.ctx r.ctx).st = .trapped then u.resume r.ctx else u)
    { s with fetching := s.fetching.filter open_ }

/-- Launches of a tenant whose completion may go on: one of their output counters' pages has arrived (R131, R210). -/
def State.completions (s : State) (tn : Nat) : List Todo :=
  s.launches.filterMap (fun e => match e.2 with
    | some l => if l.tenant = tn ∧ l.phase = 1 ∧ l.live = 0 then some (.complete e.1) else none
    | none => none)

/-- PAGEDATA: bytes of a page being fetched; with LAST the frame is entered and the faulting contexts go on (R210). -/
def execPagedata (h : CmdHead) (handle : BitVec 44) (offset : Nat) (bytes : List Byte) (last : Bool) (s : State) : Res :=
  match s.tenant h.tenant with
  | none => .next (s.finishCmd h 0x11 2 [])
  | some t =>
    match t.fetches.find? (fun f => f.handle == handle.toNat) with
    | none => .next (s.finishCmd h 0x11 1 [])
    | some f =>
      if bytes.isEmpty || 8192 < bytes.length || 2 ^ f.bits < offset + bytes.length then .next (s.finishCmd h 0x11 1 [])
      else
        let loc := ownLoc (f.frame * 4096 + offset)
        let s1 := s.applyWrite loc bytes (s.homeSlice loc) .local
        if !last then .next (s1.finishCmd h 0x11 0 [])
        else match t.windowAt f.va with
          | none => .next (s1.finishCmd h 0x11 1 [])
          | some w =>
            let pte := ({ w with tier := 0, pbase := f.frame, va := f.va } : Window).pte f.va.toNat
            let s2 := (s1.mapPage h.tenant f.va.toNat pte.toNat f.bits).tlbPage h.tenant f.va.toNat
            let s3 := s2.onTenant h.tenant (fun x => { x with fetches := without x.fetches (fun g => g.handle == handle.toNat) })
            .next ((s3.resumeFetched.settle (s3.completions h.tenant)).finishCmd h 0x11 0 [])

/-- PAGEOUT: bytes of a page under eviction; with LAST its frame is free, and accesses that waited become fetches (R210). -/
def execPageout (h : CmdHead) (handle : BitVec 44) (offset length : Nat) (last : Bool) (s : State) : Res :=
  match s.tenant h.tenant with
  | none => .next (s.finishCmd h 0x12 2 [])
  | some t =>
    match t.evictions.find? (fun e => e.handle == handle.toNat) with
    | none => .next (s.finishCmd h 0x12 1 [])
    | some e =>
      if length = 0 || 8192 < length || 2 ^ e.bits < offset + length then .next (s.finishCmd h 0x12 1 [])
      else
        let loc := ownLoc (e.frame * 4096 + offset)
        if s.poisoned loc length then .next (s.finishCmd h 0x12 6 [])
        else
          let body := s.bytesAt loc length
          let s1 := if last then s.onTenant h.tenant (fun x => { x with evictions := without x.evictions (fun g => g.handle == handle.toNat) }) else s
          let ask (u : State) (p : Word) : State := match u.touchPage h.tenant p with
            | .t2 k f => if k = handle.toNat then u.fetchPage h.tenant p k f else u
            | _ => u
          let s2 := if last then (s1.fetching.filter (fun r => r.tenant == h.tenant)).foldl (fun u r => r.pages.foldl ask u) s1 else s1
          .next (s2.finishCmd h 0x12 0 body)

end Sys2Proof.Machine
end

