-- ==== Sys2Proof/Machine/Memx.lean ====
section
/-! DEFINITION. The MEMX group, major 0x2E (R322 to R324), and the full/empty transition as a step of its own (R186). -/

namespace Sys2Proof.Machine

/-- FENCE: until every store of the selected classes is acknowledged (R231, Table 11.5). -/
def execFence (m : BitVec 3) (s : State) : Res :=
  s.issue (Enc.fence m) (m != 0#3) (fun s =>
    if (m.toNat.testBit 0 && s.cx.pendOwn ≠ 0) || (m.toNat.testBit 1 && s.cx.pendD ≠ 0) || (m.toNat.testBit 2 && s.cx.pendX ≠ 0)
    then .next (s.waitOn .stores) else .next (s.finish s.cx.r))

/-- Whether a line of 512 bytes of virtual addresses holds bytes of [a, a + n), addresses taken modulo 2^64. -/
def lineInRange (line : Nat) (a n : Word) : Bool :=
  decide ((BitVec.ofNat 64 (line * 512) - a).toNat < n.toNat) || decide ((a - BitVec.ofNat 64 (line * 512)).toNat < 512 ∧ n ≠ 0#64)

/-- ROINV: drops the tenant's read-only buffer lines that hold bytes of the range; never faults (Table 11.5). -/
def execRoinv (a b : RegNo) (s : State) : Res :=
  s.issue (Enc.roinv a b) true (fun s =>
    let t := s.onCore s.cur.die s.cur.core (fun k =>
      { k with robuf := without k.robuf (fun r => r.tenant == s.cx.tn && lineInRange (r.va / 4) (s.rd a) (s.rd b)) })
    .next (t.finish t.cx.r))

/-- Registration of a context's monitor at the home slice of its sector: 64 a slice, the oldest dropped and thereby fired
(R323). -/
def State.registerMonitor (s : State) (c : CtxId) (x : Access) : State :=
  match (if isBasin x.loc then none else homeDie x.loc) with
  | none => s
  | some h =>
    let l := without (s.die h).monitors (fun m => m.2 == c)
    let mine := l.filter (fun m => m.1 == x.slice)
    let drop := if 64 ≤ mine.length then mine.head? else none
    let s1 := s.onDie h (fun d => { d with monitors := enq (match drop with | some o => without l (· == o) | none => l) (x.slice, c) })
    match drop with
    | none => s1
    | some o =>
      let s2 := s1.onCtx o.2 (fun y => { y with monitor := y.monitor.map (fun m => { m with fired := true }) })
      s2.wakeAll (fun k w => k == o.2 && (w == .retry .monitor || w == .retry .supervisorItem))

/-- MWARM: arms the context's monitor on the sector that holds s[a] (R323); out of the rotation until the home has it. -/
def execMwarm (a : RegNo) (s : State) : Res :=
  let w := Enc.mwarm a
  s.issue w true (fun s =>
    let va := s.rd a
    s.withAccess w .rd va (fun s => s.trap w 0x04#8 va) (fun _ _ => s.trap w 0x05#8 va)
      (fun x s =>
        if x.win.ship then s.trap w 0x05#8 va
        else
          let t := s.registerMonitor s.cur x
          let u := { t with cx := { t.cx with monitor := some { sector := x.loc / 128, fired := false, since := none } } }
          .next (u.finishLong u.cx.r)))

/-- The issuing context begins to wait on its monitor (R323). -/
def State.waitMonitor (s : State) (m : Monitor) (w : Why) : State :=
  ({ s with cx := { s.cx with monitor := some { m with since := some s.cycle.toNat } } }).waitOn w

/-- MWAIT: waits for the monitor, unless it has fired, is not armed or guards another sector; then disarms it and loads 8 bytes as
LDD does (R323). -/
def execMwait (d a : RegNo) (s : State) : Res :=
  let w := Enc.mwait d a
  s.issue w true (fun s =>
    let va := s.rd a
    if crossesSector va 8 then s.trap w 0x03#8 va
    else s.withAccess w .rd va (fun s => s.trap w 0x04#8 va) (fun _ _ => s.trap w 0x05#8 va)
      (fun x s =>
        let go : Res :=
          let u := { s with cx := { s.cx with monitor := none } }
          if isCtl x.loc then .next (u.finishSet d (extend false 8 (u.ctlBytes x.loc 8)))
          else match u.read x 8 false with
            | .val b t => .next (t.finishLong (t.cx.r.set d (extend false 8 b)))
            | .wait y => .next (s.waitOn y)
            | .poison => u.consume w va
            | .lost => u.lostAccess
        match s.cx.monitor with
        | some m => if !m.fired && m.sector = x.loc / 128 then .next (s.waitMonitor m .monitor) else go
        | none => go))

/-- FESET: the basin word at s[a] becomes full (Tables 7.2 and 11.5). -/
def execFeset (a : RegNo) (s : State) : Res :=
  s.issue (Enc.feset a) true (fun s =>
    s.basinWord (Enc.feset a) (s.rd a) false (fun loc => let t := s.fullEmpty loc true; .next (t.finish t.cx.r)))

/-- FECLR: the basin word at s[a] becomes empty (Tables 7.2 and 11.5). -/
def execFeclr (a : RegNo) (s : State) : Res :=
  s.issue (Enc.feclr a) true (fun s =>
    s.basinWord (Enc.feclr a) (s.rd a) false (fun loc => let t := s.fullEmpty loc false; .next (t.finish t.cx.r)))

/-- FEST: 1 if the basin word at s[a] is full, else 0 (Table 11.5). -/
def execFest (d a : RegNo) (s : State) : Res :=
  s.issue (Enc.fest d a) true (fun s =>
    s.basinWord (Enc.fest d a) (s.rd a) false (fun loc => .next (s.finishSet d (boolWord (s.full (loc / 8))))))

/-- FULL_EMPTY_CHANGE: a basin word's full/empty bit changes and the contexts that wait for it go on (R186, R321). -/
def execFullEmptyChange (die core word : Nat) (full : Bool) (s : State) : Res :=
  if word < 2 ^ 17 ∧ core < 64 ∧ die < 16 then .next (s.fullEmpty (basinLoc die core (8 * word)) full) else .next s

/-! ## CFLUSH and CINV (R324) -/

/-- Write back the dirty sectors of the lines that meet a range of own memory, overflow copies with them; for CINV the home slices drop the
lines too, and the issuing die's RDC its copies (Table 11.5, R70). -/
def State.cleanRange (s : State) (loc n : Nat) (inv : Bool) : State :=
  let lo := loc / 512 * 512
  let len := roundUp (loc + n) 512 - lo
  match homeDie loc with
  | none => s
  | some h =>
    let t := s.l2Clean h lo len inv
    if inv then t.dropRdc t.cur.die lo len else t

/-- The range of CFLUSH or CINV, page by page in address order; the first page that faults traps (R324). -/
def State.cleanPages (w : IWord) (inv : Bool) : Nat → State → Nat → Nat → Res
  | 0, s, _, _ => .next (s.finishLong s.cx.r)
  | k + 1, s, va, n =>
    if n = 0 then .next (s.finishLong s.cx.r)
    else
      let a : Word := BitVec.ofNat 64 va
      let here := min n (4096 - va % 4096)
      match s.tr .rd a with
      | .fault c => s.trap w c a
      | .aperture _ _ => s.trap w 0x05#8 a
      | .absent => s.trap w 0x04#8 a
      | .ok x =>
        if isBasin x.loc then s.trap w 0x05#8 a
        else
          let t := s.fillTlb s.cur x.fill
          State.cleanPages w inv k (if x.win.ship || isCtl x.loc then t else t.cleanRange x.loc here inv) (va + here) (n - here)

/-- CFLUSH: writes back every dirty sector of the lines of the range (Table 11.5, R324). -/
def execCflush (a b : RegNo) (s : State) : Res :=
  s.issue (Enc.cflush a b) true (fun s =>
    State.cleanPages (Enc.cflush a b) false ((s.rd b).toNat / 4096 + 2) s (s.rd a).toNat (s.rd b).toNat)

/-- CINV: writes back, then drops the lines from their home slices and from the issuing die's RDC (Table 11.5, R324). -/
def execCinv (a b : RegNo) (s : State) : Res :=
  s.issue (Enc.cinv a b) true (fun s =>
    State.cleanPages (Enc.cinv a b) true ((s.rd b).toNat / 4096 + 2) s (s.rd a).toNat (s.rd b).toNat)

/-- PREF: fetches the sector that holds s[a] into its home slice, or into the RDC when homed on another die; never faults and
consumes no poison (R324, Table 11.5). -/
def execPref (a : RegNo) (s : State) : Res :=
  s.issue (Enc.pref a) true (fun s =>
    let t : State := match s.tr .rd (s.rd a) with
      | .ok x =>
        if isBasin x.loc || x.win.ship || isCtl x.loc || unmappedPa x.loc then s
        else match homeDie x.loc with
          | none => s
          | some h =>
            let base := x.loc / 128 * 128
            let pol := s.cx.r.cachePolicy
            let u := s.fillTlb s.cur x.fill
            if (u.homeWait h x.slice base 128).isSome then u
            else if h = s.cur.die then u.sliceRead h x.slice base 128 pol
            else if coversVec (s.die h).k (s.die s.cur.die).v none
                && !(s.die h).liveYoung.any (fun y => y.sector == x.loc / 128) then u.fillRdc s.cur.die h x.slice base pol
            else u
      | _ => s
    .next (t.finish t.cx.r))

end Sys2Proof.Machine
end

