-- ==== Sys2Proof/Machine/Sys.lean ====
section
/-! DEFINITION. The SYS group, major 0x70: TRAP, BKPT, HALT, special registers, ERET, IFENCE, WFE, TLBINV and CTXRES
(R267 to R271, R282, R329 to R335). -/

namespace Sys2Proof.Machine

/-! ## Special registers (Tables 10.3 and 10.4) -/

/-- sr.status: SUP, DBG, HARV, DEPTH, CLASS, PRIO and FFLAGS in place (Table 10.4). -/
def State.srStatus (s : State) : Word :=
  let b (x : Bool) (i : Nat) : Nat := if x then 2 ^ i else 0
  let a := s.cx.bound
  BitVec.ofNat 64 (b s.cur.isSup 31 + b (!s.cur.isSup && s.debugMode) 30 + b s.cur.reserve 29 + s.cx.r.depth % 16 * 2 ^ 24
    + ((a.map (·.cls)).getD 0) % 4 * 2 ^ 22 + ((a.map (·.prio)).getD 0) % 4 * 2 ^ 20 + s.cx.r.fflags.toNat)

/-- sr.lend: COUNT, TURNS, LAST, FIRST of the core's lend state, turns lent for a wait included (R269, Table 10.4). -/
def State.srLend (s : State) (d c : Nat) : Word :=
  let k := s.core d c
  BitVec.ofNat 64 (k.lentPages.length * 2 ^ 32 + s.lentMask d c * 2 ^ 24 + (k.lentPages.getLastD 0) * 2 ^ 8 + k.lentPages.headD 0)

/-- Harvest contexts of a core now PARKED (Table 10.4). -/
def State.parkedCount (s : State) (d c : Nat) : Nat :=
  ((List.range 8).filter (fun t => decide ((s.ctx ⟨d, c, t, true⟩).st = .parked))).length

/-- sr.hstat (R270, Table 10.4). -/
def State.srHstat (s : State) (d c : Nat) : Word :=
  let k := s.core d c
  BitVec.ofNat 64 (k.hcyc * 2 ^ 32 + k.revoke * 2 ^ 16 + k.pgret * 2 ^ 8 + s.parkedCount d c)

/-- The value of a special register; none for an index that Table 10.3 does not list (R267, R268, R330). -/
def State.srGet (s : State) (i : Nat) : Option Word :=
  let r := s.cx.r
  match i with
  | 0x000 => some s.srStatus
  | 0x001 => some r.cause
  | 0x002 => some r.tval
  | 0x003 => some r.epc
  | 0x004 => some s.cx.tenant
  | 0x010 => some s.cx.heapbase
  | 0x011 => some s.cx.heaplim
  | 0x012 => some s.cx.heapoff
  | 0x020 => some r.task
  | 0x021 => some r.dom
  | 0x030 => some s.cycle
  | 0x031 => some (r.engretry.setWidth 64)
  | 0x040 => some (s.srLend s.cur.die s.cur.core)
  | 0x041 => some (s.srHstat s.cur.die s.cur.core)
  | 0x080 => some r.vl
  | 0x081 => some r.vtype
  | 0x082 => some r.vstart
  | 0x083 => some r.lc0
  | 0x084 => some r.lc1
  | 0x085 => some (BitVec.ofNat 64 s.cx.pendD)
  | 0x086 => some (BitVec.ofNat 64 s.cx.pendX)
  | _ =>
    if 0x100 ≤ i ∧ i < 0x110 then some ((vecAt (s.die s.cur.die).v (i - 0x100)).setWidth 64)
    else if 0x110 ≤ i ∧ i < 0x120 then some ((vecAt (s.die s.cur.die).k (i - 0x110)).setWidth 64)
    else none

/-- Whether the table lets a mode read a register (Table 10.3: sr.vclock is refused to task mode outside debug). -/
def State.srMayRead (s : State) (i : Nat) : Bool := s.cur.isSup || i < 0x100 || s.debugMode

/-- Whether the table lets a mode write a register (Table 10.3). -/
def srMayWrite (sup : Bool) (i : Nat) : Bool :=
  i = 0x000 || i = 0x031 || i = 0x082 || i = 0x083 || i = 0x084
    || (sup && (i = 0x001 || i = 0x002 || i = 0x003 || i = 0x004 || i = 0x010 || i = 0x011 || i = 0x012 || i = 0x020
        || i = 0x021 || i = 0x080 || i = 0x081))

/-- The context after a write of a special register: only writable fields change (R267, R330, Table 10.4). -/
def Ctx.srPut (x : Ctx) (i : Nat) (v : Word) : Ctx :=
  let r := x.r
  match i with
  | 0x000 => { x with r := { r with fflags := v.setWidth 5 } }
  | 0x001 => { x with r := { r with cause := zextW v 8 } }
  | 0x002 => { x with r := { r with tval := v } }
  | 0x003 => { x with r := { r with epc := v } }
  | 0x004 => { x with tenant := zextW v 6 }
  | 0x010 => { x with heapbase := v &&& ~~~0xFFF#64 }
  | 0x011 => { x with heaplim := v &&& ~~~0xFFF#64 }
  | 0x012 => { x with heapoff := v &&& ~~~0xFFF#64 }
  | 0x020 => { x with r := { r with task := v } }
  | 0x021 => { x with r := { r with dom := v } }
  | 0x031 => { x with r := { r with engretry := v.setWidth 3 } }
  | 0x080 => { x with r := { r with vl := zextW v 14 } }
  | 0x081 => { x with r := { r with vtype := zextW v 8 } }
  | 0x082 => { x with r := { r with vstart := zextW v 14 } }
  | 0x083 => { x with r := { r with lc0 := v } }
  | 0x084 => { x with r := { r with lc1 := v } }
  | _ => x

/-- A vtype value a supervisor may not write: reserved bits, or an LMUL or SEW code of 4 to 7 (R268). -/
def badVtype (v : Word) : Bool := decide (256 ≤ v.toNat) || v.toNat.testBit 5 || v.toNat.testBit 2

/-- SRWR, SRSET and SRCLR: the new value of a register, its old one at hand (R267, R330). -/
def State.srWrite (s : State) (w : IWord) (i : BitVec 12) (f : Word → Word) : Res :=
  let k := i.toNat
  let old := (s.srGet k).getD 0#64
  let new := f old
  let ok := (s.srGet k).isSome && (srMayWrite s.cur.isSup k || !s.cur.isSup) && !(s.cur.isSup && k = 0x081 && badVtype new)
  s.issue w ok (fun s =>
    if srMayWrite s.cur.isSup k then
      .next { s with cx := { s.cx.srPut k new with r := (s.cx.srPut k new).r.advance } }
    else s.privilege w)

/-- SRRD: s[d] := the register (R330). -/
def execSrrd (d : RegNo) (i : BitVec 12) (s : State) : Res :=
  let w := Enc.srrd d i
  s.issue w (s.srGet i.toNat).isSome (fun s =>
    if s.srMayRead i.toNat then .next (s.finishSet d ((s.srGet i.toNat).getD 0#64)) else s.privilege w)

/-- SRWR: register := s[d] (R330). -/
def execSrwr (d : RegNo) (i : BitVec 12) (s : State) : Res := s.srWrite (Enc.srwr d i) i (fun _ => s.rd d)

/-- SRSET: register := register OR s[d] (R330). -/
def execSrset (d : RegNo) (i : BitVec 12) (s : State) : Res := s.srWrite (Enc.srset d i) i (fun o => o ||| s.rd d)

/-- SRCLR: register := register AND NOT s[d] (R330). -/
def execSrclr (d : RegNo) (i : BitVec 12) (s : State) : Res := s.srWrite (Enc.srclr d i) i (fun o => o &&& ~~~(s.rd d))

/-! ## Traps and the end of an exception -/

/-- TRAP: trap 0x10 with tval s[a] (Table 11.7). -/
def execTrap (a : RegNo) (s : State) : Res := s.issue (Enc.trap a) true (fun s => s.trap (Enc.trap a) 0x10#8 (s.rd a))

/-- BKPT: trap 0x0F with tval the BKPT's address (Table 11.7). -/
def execBkpt (s : State) : Res := s.issue Enc.bkpt true (fun s => s.trap Enc.bkpt 0x0F#8 s.cx.r.pc)

/-- HALT: stops a supervisor core; in task mode trap 0x10 with tval 0 (R332). -/
def execHalt (s : State) : Res :=
  s.issue Enc.halt true (fun s =>
    if s.cur.isSup then
      let t := s.finish s.cx.r
      .next { t with cx := { t.cx with st := .halted } }
    else s.trap Enc.halt 0x10#8 0#64)

/-- ERET: pc := sr.epc and the pending hint state is cleared, in supervisor mode; an epc that is no multiple of 4 traps
MISALIGNED (R281, R282, R329). -/
def execEret (s : State) : Res :=
  s.issue Enc.eret true (fun s =>
    if !s.cur.isSup then s.privilege Enc.eret
    else if s.cx.r.epc &&& 3#64 ≠ 0#64 then s.trap Enc.eret 0x03#8 s.cx.r.epc
    else .next s.eret)

/-- IFENCE: waits until every earlier store of the context is acknowledged; the words after it are fetched anew (R331). -/
def execIfence (s : State) : Res :=
  s.issue Enc.ifence true (fun s =>
    if s.cx.pendOwn ≠ 0 || s.cx.pendD ≠ 0 || s.cx.pendX ≠ 0 then .next (s.waitOn .stores) else .next (s.finish s.cx.r))

/-- Whether an item is queued for a die's supervisor cores: a trap record or an SCP command (R331). -/
def State.supervisorItem (s : State) (d : Nat) : Bool :=
  s.traps.any (fun t => t.ctx.die == d) || s.host.direct != [] || s.tenants.any (fun e => match e.2 with | some t => t.cmds != [] | none => false)

/-- WFE: out of the rotation until the monitor fires, or, on a supervisor core, an item is queued; with no monitor armed a task
goes on at once (R331). -/
def execWfe (s : State) : Res :=
  s.issue Enc.wfe true (fun s =>
    let go : Res := .next { s with cx := { s.cx with monitor := none, r := s.cx.r.advance } }
    if s.cur.isSup then
      if s.supervisorItem s.cur.die then go
      else match s.cx.monitor with
        | some m => if m.fired then go else .next (s.waitMonitor m .supervisorItem)
        | none => .next (s.waitOn .supervisorItem)
    else match s.cx.monitor with
      | some m => if m.fired then go else .next (s.waitMonitor m .monitor)
      | none => go)

/-! ## TLBINV and CTXRES (R282, R333, R334) -/

/-- TLBINV: drops the named translations from the L1 and die TLBs of the own die, or of every die (R333). -/
def execTlbinv (a b : RegNo) (s : State) : Res :=
  let w := Enc.tlbinv a b
  let sel := (s.rd b).toNat
  let scope := sel / 64 % 4
  s.issue w (decide (scope ≠ 3) && decide (sel < 512)) (fun s =>
    if !s.cur.isSup then s.privilege w
    else
      let va := (s.rd a).toNat
      let t := s.tlbDrop (fun d => sel.testBit 8 || d == s.cur.die) (fun e =>
        scope = 2 || (e.tenant == sel % 64 && (scope = 1 || (decide (e.va ≤ va) && decide (va < e.va + 2 ^ e.bits)))))
      .next (t.finishLong t.cx.r))

/-- The context of a die that a CTXRES operand names (R334). -/
def ctxresTarget (die : Nat) (x : Word) : Option CtxId :=
  if x.toNat / 16 % 16 = 0 ∧ x.toNat / 2 ^ 14 = 0 then some ⟨die, x.toNat / 256 % 64, x.toNat % 8, x.toNat.testBit 3⟩ else none

/-- CTXRES: resumes, kills or faults the domain of a TRAPPED context of the own die; s[d] gets a status (R334). -/
def execCtxres (d a b : RegNo) (s : State) : Res :=
  let w := Enc.ctxres d a b
  let act := (s.rd b).toNat % 4
  let setEpc := act = 0 && (s.rd b).toNat.testBit 2
  s.issue w (decide (act ≠ 3)) (fun s =>
    if !s.cur.isSup then s.privilege w
    else match ctxresTarget s.cur.die (s.rd a) with
      | none => .next (s.finishSet d 2#64)
      | some c =>
        if (s.ctx c).st ≠ .trapped then .next (s.finishSet d 1#64)
        else if setEpc && s.rd d &&& 3#64 ≠ 0#64 then s.trap w 0x03#8 (s.rd d)
        else
          let s0 : State := { s with traps := without s.traps (fun t => t.ctx == c) }
          let t : State :=
            if act = 0 then
              let u := if setEpc then s0.onCtx c (fun x => { x with r := { x.r with epc := s.rd d } }) else s0
              u.resume c
            else if act = 1 then s0.kill c
            else s0.domainFault ((s0.ctx c).r.dom.setWidth 32) ((s0.ctx c).r.cause.setWidth 8) (s0.ctx c).r.epc
          .next (t.finishSet d 0#64))

end Sys2Proof.Machine
end

