-- ==== Sys2Proof/Machine/Dom.lean ====
section
/-! DEFINITION. The DOM and HV groups, majors 0x64 and 0x66: containment domains and lending (R162 to R178, R402 to R409). -/

namespace Sys2Proof.Machine

/-! ## Domains (R170 to R178, R402 to R406) -/

/-- DOMAIN_FAULT raised for misuse: a trap with a code of Table 14.2 (R393). -/
def State.misuse (s : State) (w : IWord) (code : Nat) : Res := s.trap w 0x0A#8 (BitVec.ofNat 64 code)

/-- What a restart of the creator finds: s1 to s31 with the domain id in s[d], FFLAGS and sr.engretry, sr.dom naming the domain, the pc
at the word after DBEGIN, zero in the rest (R171, R176). -/
def Regs.snapshot (r : Regs) (d : RegNo) (id : BitVec 32) : Regs :=
  { sregs := (r.set d (id.setWidth 64)).sregs, fflags := r.fflags, engretry := r.engretry, dom := id.setWidth 64,
    depth := r.depth + 1, pc := r.pc + 4#64 }

/-- DBEGIN: opens a domain with the limit s[a][3:0]; waits for a free record; at depth 8 it traps (R170, R171, R402). -/
def execDbegin (d a : RegNo) (s : State) : Res :=
  let w := Enc.dbegin d a
  s.issue w true (fun s =>
    if 8 ≤ s.cx.r.depth then s.misuse w 1
    else
      match s.freeRecord s.cur.die with
      | none => .next (s.waitOn .domainRecord)
      | some i =>
        let n := s.newDomainId s.cur.die i
        let r : DomRec :=
          { id := n.1, tenant := s.cx.tn, parent := s.cx.r.dom.setWidth 32, depth := s.cx.r.depth + 1, creator := some s.cur,
            creatorTask := s.myTask, snap := s.cx.r.snapshot d n.1, ranges := [], limit := (s.rd a).toNat % 16, count := 0, attempt := 0,
            cause := 0#8, causeAddr := 0#64, members := 0, acks := 0, deferred := [], joinVec := [], root := none, ran := [],
            stitched := [], restart := false }
        let t := n.2.setDomain n.1 (some r)
        .next (t.finishLong { t.cx.r.set d (n.1.setWidth 64) with dom := n.1.setWidth 64, depth := t.cx.r.depth + 1 }))

/-- The bytes of a preserved range, page by page: their locations, in address order (R403); or how the instruction ends. -/
def State.rangeParts (s : State) (w : IWord) (va : Word) (n : Nat) : Nat → Except Res (List (Nat × Nat) × State)
  | 0 => .ok ([], s)
  | k + 1 =>
    if n = 0 then .ok ([], s)
    else
      match s.tr .rd va with
      | .fault c => .error (s.trap w c va)
      | .aperture _ _ => .error (s.trap w 0x05#8 va)
      | .absent => .error (s.trap w 0x04#8 va)
      | .ok x =>
        let m := min n (4096 - va.toNat % 4096)
        match (s.fillTlb s.cur x.fill).rangeParts w (va + BitVec.ofNat 64 m) (n - m) k with
        | .error e => .error e
        | .ok r => .ok ((x.loc, m) :: r.1, r.2)

/-- Bytes of SNAP ranges that the open domains of a tenant hold (R403). -/
def State.snapBytes (s : State) (tn : Nat) : Nat :=
  s.domains.foldl (fun n d => if d.tenant = tn then d.ranges.foldl (fun m r => m + r.bytes.length) n else n) 0

/-- DPRES: adds a preserved range to the innermost domain; a SNAP range is copied with its full/empty bits, a HOLD range protected
(R171, R403). -/
def State.dpres (s : State) (w : IWord) (a b : RegNo) (snap : Bool) : Res :=
  s.issue w true (fun s =>
    let va := s.rd a
    let n := (s.rd b).toNat
    if n = 0 then .next (s.finish s.cx.r)
    else
      match s.myDomain with
      | none => s.misuse w 6
      | some d =>
        if 8 ≤ d.ranges.length then s.misuse w 4
        else if 2 ^ 64 < va.toNat + n then s.misuse w 5
        else if overlaps va.toNat n basinBase (2 ^ 20) && !(inBasinWin va && inBasinWin (va + BitVec.ofNat 64 (n - 1))) then s.misuse w 5
        else if s.storesOut then .next (s.waitOn .stores)
        else
          match s.rangeParts w va n (n / 4096 + 2) with
          | .error e => e
          | .ok (parts, t) =>
            if snap && decide (((t.tenant t.cx.tn).map (·.store)).getD 0 < t.snapBytes t.cx.tn + n) then t.misuse w 3
            else if snap && parts.any (fun p => t.poisoned p.1 p.2) then t.consume w va
            else
              let r : DRange :=
                { snap := snap, va := va, parts := parts,
                  bytes := if snap then parts.flatMap (fun p => t.bytesAt p.1 p.2) else [],
                  full := if snap then (parts.flatMap (fun p => if isBasin p.1 then wordsOf p.1 p.2 else [])).filter (t.full ·) else [] }
              let u := t.onDomain d.id (fun e => { e with ranges := enq e.ranges r })
              .next (u.finishLong u.cx.r))

/-- DPRES.snap (R403). -/
def execDpresSnap (a b : RegNo) (s : State) : Res := s.dpres (Enc.dpresSnap a b) a b true

/-- DPRES.hold (R403). -/
def execDpresHold (a b : RegNo) (s : State) : Res := s.dpres (Enc.dpresHold a b) a b false

/-- Whether a domain that commits hands a deferred decrement on to its parent (R173). -/
def State.handsOn (s : State) (d : DomRec) (e : Deferred) : Bool := (s.domain d.parent).isSome && !s.counterLocal e.loc d.parent

/-- The commit of a domain from step 3 of R174 on: its decrements performed or handed on, the record freed, the parent innermost. -/
def State.commitDomain (s : State) (w : IWord) (d : DomRec) : Res :=
  let out (e : Deferred) : Bool := s.handsOn d e
  let s1 := (s.mergeV s.cur.die d.joinVec).handExits d
  let s2 := s1.onDomain d.parent (fun p => { p with deferred := p.deferred ++ d.deferred.filter out })
  let r := s2.performDeferred s2.cur.die (d.deferred.filter (fun e => !out e)) (s2.die s2.cur.die).v
  let f := ((r.1.dropTags d.id).setDomain d.id none).recordsFreed
  let regs := { f.1.cx.r with dom := d.parent.setWidth 64, depth := f.1.cx.r.depth - 1 }
  match r.2.2 with
  | [] => .next ((f.1.finishLong regs).settle (r.2.1 ++ f.2))
  | va :: _ =>
    let t := f.1.setR { regs with pc := regs.pc + 4#64, hints := [] }
    .next ((t.takeTrap t.cur 0x12#8 va false false [] w).settle (r.2.1 ++ f.2))

/-- DEND: joins the members, flushes the domain's stitched sectors and waits for their acknowledgements, and until the homes of the
decrements it performs can take them, then commits (R174, R220, R404). -/
def execDend (s : State) : Res :=
  let w := Enc.dend
  s.issue w true (fun s =>
    match s.myDomain with
    | none => s.misuse w 6
    | some d0 =>
      if d0.root.isSome || d0.creatorTask != s.myTask then s.misuse w 7
      else if d0.members ≠ 0 then .next (s.waitOn .domain)
      else if s.storesOut then .next (s.waitOn .stores)
      else
        let t := s.flushStitch d0.id
        match t.domain d0.id with
        | none => .next t
        | some d =>
          if d.acks ≠ 0 then .next (t.waitOn .domain)
          else
            let moved := d.deferred.filter (t.handsOn d)
            let room := match t.domain d.parent with
              | some p => decide (p.deferred.length + moved.length ≤ 64)
              | none => true
            let u := t.mergeV t.cur.die d.joinVec
            if !room then .next (t.domainFault d.id 0x12#8 0#64 true)
            else if d.deferred.any (fun e => !t.handsOn d e && !u.counterMay t.cur.die e.loc) then .next (t.waitOn .causal)
            else t.commitDomain w d)

/-- DCHK: a difference is a domain fault with cause 0x0A, or in no domain a trap with tval 8 (R405). -/
def execDchk (a b : RegNo) (s : State) : Res :=
  let w := Enc.dchk a b
  s.issue w true (fun s =>
    if s.rd a = s.rd b then .next (s.finish s.cx.r)
    else match s.myDomain with
      | some d => .next (s.domainFault d.id 0x0A#8 s.cx.r.chainStart)
      | none => s.misuse w 8)

/-- DABORT: a domain fault with cause 0x0A; with s[a][0] = 1 it escalates at once (R405). -/
def execDabort (a : RegNo) (s : State) : Res :=
  let w := Enc.dabort a
  s.issue w true (fun s =>
    match s.myDomain with
    | some d => .next (s.domainFault d.id 0x0A#8 s.cx.r.chainStart ((s.rd a).toNat.testBit 0))
    | none => s.misuse w 6)

/-- The value of DLEVEL; outside any domain 0 (R406). -/
def State.levelWord (s : State) (sel : Nat) : Word :=
  match s.myDomain with
  | none => 0#64
  | some d =>
    match sel with
    | 0 => BitVec.ofNat 64 s.cx.r.depth
    | 1 => s.cx.r.dom
    | 2 => BitVec.ofNat 64 d.count
    | 3 => d.cause.setWidth 64
    | _ => BitVec.ofNat 64 d.limit

/-- DLEVEL: s[d] := the selected word (R406). -/
def execDlevel (d : RegNo) (sel : BitVec 5) (s : State) : Res :=
  s.issue (Enc.dlevel d sel) (decide (sel.toNat < 5)) (fun s => .next (s.finishSet d (s.levelWord sel.toNat)))

/-! ## Lending (R162, R407 to R409) -/

/-- The pages that s[b] names: first and last, when bit 16 says so (R407). -/
def namedPages (v : Word) : List Nat :=
  if v.toNat.testBit 16 then (List.range (bits v 15 8 + 1 - bits v 7 0)).map (fun i => bits v 7 0 + i) else []

/-- The basin address of a page. -/
def pageVa (p : Nat) : Word := BitVec.ofNat 64 (basinBase + 4096 * p)

/-- The checks of LEND and UNLEND: a turn or page that R162 does not allow, with its tval (R407). -/
def State.lendFault (s : State) (turns : BitVec 8) (v : Word) : Option Word :=
  let k := s.myCore
  let badTurn := (List.range 8).any (fun t =>
    let x := s.ctx ⟨s.cur.die, s.cur.core, t, false⟩
    turns.toNat.testBit t && !(x.free || (x.bound.isSome && x.tn == s.cx.tn)))
  if badTurn then some 0#64
  else if v.toNat.testBit 16 && decide (bits v 15 8 < bits v 7 0) then some (pageVa (bits v 7 0))
  else ((namedPages v).find? (fun p => !k.holds s.cx.tn p)).map pageVa

/-- An explicit LEND or UNLEND replaces the default lends of the core (R164). -/
def CoreSt.replaceDefaults (k : CoreSt) : CoreSt :=
  { k with replacedLends := k.replacedLends ++ k.defaultLends.map (·.1), defaultLends := [] }

/-- LEND: adds turns and pages to the lend state; waits while an entry of its tenant names a newly lent page (R407, R408). -/
def execLend (a b : RegNo) (s : State) : Res :=
  let w := Enc.lend a b
  s.issue w true (fun s =>
    let turns : BitVec 8 := (s.rd a).setWidth 8
    let pages := namedPages (s.rd b)
    if s.cur.reserve then s.privilege w
    else match s.lendFault turns (s.rd b) with
      | some v => s.trap w 0x05#8 v
      | none =>
        let k := s.myCore
        let fresh := pages.filter (fun p => !k.lentPages.contains p)
        let busy := k.sboard.any (fun e => (s.ctx e.owner).tn == s.cx.tn
          && (e.reads.any (fun r => meetsPages fresh r.1 r.2) || (match e.write with | some r => meetsPages fresh r.1 r.2 | none => false)))
        if busy then .next (s.waitOn .lend)
        else
          let t := ((s.onCore s.cur.die s.cur.core CoreSt.replaceDefaults).addLend s.cur.die s.cur.core turns pages)
          .next (if fresh = [] then t.finish t.cx.r else t.finishLong t.cx.r))

/-- UNLEND: removes turns and pages from the lend state; pages are returned, and data they hold revoked (R166 to R168, R407, R408). -/
def execUnlend (a b : RegNo) (s : State) : Res :=
  let w := Enc.unlend a b
  s.issue w true (fun s =>
    let turns : BitVec 8 := (s.rd a).setWidth 8
    let pages := namedPages (s.rd b)
    if s.cur.reserve then s.privilege w
    else match s.lendFault turns (s.rd b) with
      | some v => s.trap w 0x05#8 v
      | none =>
        let back := pages.filter (s.myCore.lentPages.contains ·)
        let t := s.onCore s.cur.die s.cur.core CoreSt.replaceDefaults
        let u := if back = [] then t.finish t.cx.r else t.finishLong t.cx.r
        .next (u.unlend s.cur.die s.cur.core turns pages))

/-- The value of HSTAT (R409). -/
def State.harvestWord (s : State) (sel : Nat) : Word :=
  match sel with
  | 0 => s.srHstat s.cur.die s.cur.core
  | 1 => s.srLend s.cur.die s.cur.core
  | _ => BitVec.ofNat 64 ((s.myCore.lentPages.filter (fun p => decide (p / 64 = sel - 2))).foldl (fun m p => m + 2 ^ (p % 64)) 0)

/-- HSTAT: s[d] := the selected word (R409). -/
def execHstat (d : RegNo) (sel : BitVec 5) (s : State) : Res :=
  s.issue (Enc.hstat d sel) (decide (sel.toNat < 6)) (fun s => .next (s.finishSet d (s.harvestWord sel.toNat)))

end Sys2Proof.Machine
end

