-- ==== Sys2Proof/Machine/Fetch.lean ====
section
/-! DEFINITION. Fetching an instruction word (R281), the steps for words that encode no instruction (R275, R280), the loop end
check of an instruction that completed out of the rotation (R317), and which context issues next (R165). -/

namespace Sys2Proof.Machine

/-- A fault of an instruction fetch: taken at once, FLAGS.EXEC set, INSN zero; in runahead it ends the run (R207, R281,
R431). -/
def State.fetchFault (s : State) (cause : BitVec 8) (va : Word) : Res :=
  if s.cx.ahead.isSome then .next (s.endRunahead s.cur)
  else .next (s.takeTrap s.cur cause va false true (if cause = 0x04#8 then [va &&& ~~~0xFFF#64] else []) 0#32)

/-- INSTRUCTION_FETCH: the word at the program counter, translated with kind execute (R281). -/
def execInstructionFetch (s : State) : Res :=
  let va := s.cx.r.pc
  match s.tr .ex va with
  | .fault c => s.fetchFault c va
  | .aperture _ _ => s.fetchFault 0x05#8 va
  | .absent => s.fetchFault 0x04#8 va
  | .ok a =>
    if unmappedPa a.loc then s.lostAccess
    else if a.marked || s.poisoned a.loc 4 then
      if s.cx.ahead.isSome then .next (s.endRunahead s.cur)
      else if (s.domain (s.cx.r.dom.setWidth 32)).isSome then .next (s.domainFault (s.cx.r.dom.setWidth 32) 0x06#8 s.cx.r.chainStart)
      else s.fetchFault 0x06#8 va
    else
      let t := s.fillTlb s.cur a.fill
      .next { t with cx := { t.cx with fetched := some (BitVec.ofNat 32 (s.natAtLoc a.loc 4)) } }

/-- UNASSIGNED_ENCODING: ILLEGAL_INSTRUCTION with tval the word (R280). -/
def execUnassignedEncoding (word : IWord) (s : State) : Res := s.issue word false (fun s => .next s)

/-- RESERVED_HINT_KIND: a hint word of kind 5 to 7 or with a reserved payload traps ILLEGAL_HINT with tval its address
(R275); in runahead it ends the run. -/
def execReservedHintKind (word : IWord) (s : State) : Res :=
  if s.cx.ahead.isSome then .next (s.endRunahead s.cur) else s.trap word 0x02#8 s.cx.r.pc

/-- LOOP_END_CHECK: the instruction at pc has completed out of the rotation; its loop end check is made and the pc goes on
(R317). -/
def execLoopEndCheck (s : State) : Res :=
  if s.cx.ended then .next { s with cx := { s.cx with r := s.cx.r.advance, ended := false } } else .next s

/-! ## The rotation (R165, R181) -/

/-- Whether a context can issue: an owner or supervisor core in RUN, a harvest context in RUN on a lent turn whose owner is out
of the rotation (R165); no spout of a quiesced die issues (R44). -/
def State.canIssue (s : State) (c : CtxId) (x : Ctx) : Bool :=
  decide (x.st = .run) && (!c.reserve || s.turnFree c) && (c.isSup || !(s.die c.die).quiesced)

/-- How many cycles pass until a context's turn: a core's turn of this cycle is past when the last context to issue was on this
core or a later one. -/
def State.slotDelay (s : State) (c : CtxId) : Nat :=
  let d := (c.turn + 8 - s.cycle.toNat % 8) % 8
  if d = 0 ∧ c.die * 66 + c.core ≤ s.cur.die * 66 + s.cur.core then 8 else d

/-- The earlier of two slots: fewer cycles, then the lower die and core. -/
def earlier (a b : Nat × CtxId) : Bool :=
  decide (a.1 < b.1) || (a.1 == b.1 && decide (a.2.die * 66 + a.2.core < b.2.die * 66 + b.2.core))

/-- The next issue slot: cycles that pass and the context that issues; none while no context can. -/
def State.slot (s : State) : Option (Nat × CtxId) :=
  ((s.allCtx.filter (fun e => s.canIssue e.1 e.2)).map (fun e => (s.slotDelay e.1, e.1))).foldl
    (fun acc e => match acc with
      | none => some e
      | some a => if earlier e a then some e else acc) none

/-- The cycles pass and the context is the issuing one; a harvest issue counts in HCYC (R268). -/
def State.toSlot (s : State) (k : Nat) (c : CtxId) : State :=
  let t := { s with cycle := s.cycle + BitVec.ofNat 64 k }.select c
  if c.reserve then t.onCore c.die c.core (fun q => { q with hcyc := min (q.hcyc + 1) 0xFFFFFFFF }) else t

/-- A trap due at an instruction boundary from outside the instruction (R285, R319, R387). -/
def Ctx.boundaryTrap (x : Ctx) : Option (BitVec 8 × Word) :=
  if x.r.hints = [] then x.atBoundary.head? else none

/-- The boundary trap is taken; INSN is zero, and only HOLD_VIOLATION is an address cause of a write (R431). -/
def State.takeBoundary (s : State) (c : BitVec 8 × Word) : State :=
  { s with cx := { s.cx.restore with ahead := none, atBoundary := s.cx.atBoundary.tail } }.takeTrap s.cur c.1 c.2 (c.1 == 0x09#8) false [] 0#32

end Sys2Proof.Machine
end

