-- ==== Sys2Proof/Machine/Fpu.lean ====
section
/-! DEFINITION. Scalar floating point: majors 0x10, 0x11 and 0x12 (R263, R311 to R314, Tables 11.3 and 11.4). -/

namespace Sys2Proof.Machine

/-- The rounding mode of an instruction: RNE, or a pending HMOD's (R246). -/
def Regs.rm (r : Regs) : Rm := Rm.ofCode r.rmo

/-- The registers with flags accumulated in FFLAGS (R245). -/
def Regs.flag (r : Regs) (f : BitVec 5) : Regs := { r with fflags := r.fflags ||| f }

/-- A scalar FP instruction's operand, as a number (R263). -/
def State.rdN (s : State) (n : RegNo) : Nat := (s.rd n).toNat

/-- The registers after a scalar FP instruction: the result, upper bits zero (R263), and the flags. -/
def Regs.fres (r : Regs) (d : RegNo) (x : FRes) : Regs := (r.set d (BitVec.ofNat 64 x.1)).flag x.2

/-- A scalar FP instruction that completes within its rotation (R312, R313). -/
def State.fpu (s : State) (w : IWord) (d : RegNo) (v : State → FRes) : Res :=
  s.issue w true (fun s => .next (s.finish (s.cx.r.fres d (v s))))

/-- FDIV and FSQRT leave the rotation (R313). -/
def State.fpuLong (s : State) (w : IWord) (d : RegNo) (v : State → FRes) : Res :=
  s.issue w true (fun s => .next (s.finishLong (s.cx.r.fres d (v s))))

/-- A comparison's 64-bit integer result with its flags (R312). -/
def cmpRes (x : Bool × BitVec 5) : FRes := (if x.1 then 1 else 0, x.2)


/-- FADD: s[d] := A + B (R312, Table 11.3). -/
def execFadd (d a b : RegNo) (f : BitVec 1) (s : State) : Res :=
  s.fpu (Enc.fadd d a b f) d (fun s => (fmtOf f).add s.cx.r.rm s.cx.r.sat (s.rdN a) (s.rdN b))

/-- FSUB: s[d] := A - B (R312, Table 11.3). -/
def execFsub (d a b : RegNo) (f : BitVec 1) (s : State) : Res :=
  s.fpu (Enc.fsub d a b f) d (fun s => (fmtOf f).sub s.cx.r.rm s.cx.r.sat (s.rdN a) (s.rdN b))

/-- FMUL: s[d] := A * B (R312, Table 11.3). -/
def execFmul (d a b : RegNo) (f : BitVec 1) (s : State) : Res :=
  s.fpu (Enc.fmul d a b f) d (fun s => (fmtOf f).mul s.cx.r.rm s.cx.r.sat (s.rdN a) (s.rdN b))

/-- FDIV: s[d] := A / B (R312, Table 11.3). -/
def execFdiv (d a b : RegNo) (f : BitVec 1) (s : State) : Res :=
  s.fpuLong (Enc.fdiv d a b f) d (fun s => (fmtOf f).div s.cx.r.rm s.cx.r.sat (s.rdN a) (s.rdN b))

/-- FSQRT: s[d] := the square root of A (R312, Table 11.3). -/
def execFsqrt (d a : RegNo) (f : BitVec 1) (s : State) : Res :=
  s.fpuLong (Enc.fsqrt d a f) d (fun s => (fmtOf f).sqrt s.cx.r.rm s.cx.r.sat (s.rdN a))

/-- FMIN: s[d] := minimumNumber (R312, Table 11.3). -/
def execFmin (d a b : RegNo) (f : BitVec 1) (s : State) : Res :=
  s.fpu (Enc.fmin d a b f) d (fun s => (fmtOf f).minMax false (s.rdN a) (s.rdN b))

/-- FMAX: s[d] := maximumNumber (R312, Table 11.3). -/
def execFmax (d a b : RegNo) (f : BitVec 1) (s : State) : Res :=
  s.fpu (Enc.fmax d a b f) d (fun s => (fmtOf f).minMax true (s.rdN a) (s.rdN b))

/-- FEQ: s[d] := 1 if A = B, quiet (R312, Table 11.3). -/
def execFeq (d a b : RegNo) (f : BitVec 1) (s : State) : Res :=
  s.fpu (Enc.feq d a b f) d (fun s => cmpRes ((fmtOf f).feq (s.rdN a) (s.rdN b)))

/-- FLT: s[d] := 1 if A < B, signalling (R312, Table 11.3). -/
def execFlt (d a b : RegNo) (f : BitVec 1) (s : State) : Res :=
  s.fpu (Enc.flt d a b f) d (fun s => cmpRes ((fmtOf f).flt (s.rdN a) (s.rdN b)))

/-- FLE: s[d] := 1 if A <= B, signalling (R312, Table 11.3). -/
def execFle (d a b : RegNo) (f : BitVec 1) (s : State) : Res :=
  s.fpu (Enc.fle d a b f) d (fun s => cmpRes ((fmtOf f).fle (s.rdN a) (s.rdN b)))

/-- FCLASS: s[d] := the class mask (R312, Table 11.3). -/
def execFclass (d a : RegNo) (f : BitVec 1) (s : State) : Res :=
  s.fpu (Enc.fclass d a f) d (fun s => ((fmtOf f).classOf (s.rdN a), 0#5))

/-- FABS: s[d] := A with its sign cleared (R312, Table 11.3). -/
def execFabs (d a : RegNo) (f : BitVec 1) (s : State) : Res :=
  s.fpu (Enc.fabs d a f) d (fun s => (fmtOf f).signOp false (s.rdN a))

/-- FNEG: s[d] := A with its sign inverted (R312, Table 11.3). -/
def execFneg (d a : RegNo) (f : BitVec 1) (s : State) : Res :=
  s.fpu (Enc.fneg d a f) d (fun s => (fmtOf f).signOp true (s.rdN a))

/-- FMAC: s[d] := Round(s[d] + A * B) (R313). -/
def execFmac (d a b : RegNo) (f : BitVec 1) (s : State) : Res :=
  s.fpu (Enc.fmac d a b f) d (fun s => (fmtOf f).fma s.cx.r.rm s.cx.r.sat false (s.rdN d) (s.rdN a) (s.rdN b))

/-- FMSAC: s[d] := Round(s[d] - A * B) (R313). -/
def execFmsac (d a b : RegNo) (f : BitVec 1) (s : State) : Res :=
  s.fpu (Enc.fmsac d a b f) d (fun s => (fmtOf f).fma s.cx.r.rm s.cx.r.sat true (s.rdN d) (s.rdN a) (s.rdN b))

/-- The narrow target or source of a scaled conversion code, by its place among N8E4, N8E5, N4E2, T2 (Table 11.4). -/
def narrowK (k : Nat) : NarrowT :=
  match k % 4 with
  | 0 => .fmt n8e4
  | 1 => .fmt n8e5
  | 2 => .fmt n4e2
  | _ => .t2

/-- The integer a conversion reads: s32, s64, z32 or z64 (Table 11.4). -/
def intOperand (k : Nat) (x : Nat) : Int :=
  match k % 4 with
  | 0 => signedN (x % 2 ^ 32) 32
  | 1 => signedN (x % 2 ^ 64) 64
  | 2 => (x % 2 ^ 32 : Nat)
  | _ => (x % 2 ^ 64 : Nat)

/-- Width and sign of an integer target: s32, s64, z32 or z64 (Table 11.4). -/
def intTarget (k : Nat) : Nat × Bool := (if k % 2 = 0 then 32 else 64, decide (k % 4 < 2))

/-- A conversion by its code: the result as a number of its own width (negative integers in two's complement of 64 bits) and
the flags (R254, R314, Tables 9.6 and 11.4). -/
def convertCode (rm : Rm) (sat : Bool) (c : Nat) (scale x : Nat) : FRes :=
  if c < 0x04 then fp32.ofInt rm sat (intOperand c x)
  else if c < 0x08 then bf16.ofInt rm sat (intOperand c x)
  else if c < 0x10 then
    let t := intTarget c
    let r := (if c < 0x0C then fp32 else bf16).toInt rm t.1 t.2 x
    ((BitVec.ofInt 64 r.1).toNat, r.2)
  else if c = 0x10 then fp32.convert bf16 rm sat x
  else if c = 0x11 then bf16.convert fp32 rm sat x
  else if c < 0x16 then narrowOf (narrowK (c - 0x12)) rm scale x
  else if c < 0x1A then widen fp32 (narrowK (c - 0x16)) scale x
  else if c < 0x1E then widen bf16 (narrowK (c - 0x1A)) scale x
  else if c = 0x1E then s8Of rm x
  else ofS8 x

/-- FCVT: the conversion of its code; the scale is the low 8 bits of s[sc] (R314). -/
def execFcvt (d a : RegNo) (c : BitVec 5) (sc : RegNo) (s : State) : Res :=
  s.issue (Enc.fcvt d a c sc) (okConvert c sc) (fun s =>
    .next (s.finish (s.cx.r.fres d (convertCode s.cx.r.rm s.cx.r.sat c.toNat (s.rdN sc) (s.rdN a)))))

end Sys2Proof.Machine
end

