-- ==== Sys2Proof/Machine/Hints.lean ====
section
/-! DEFINITION. Hint words, major 0x7F (R275 to R278). -/

namespace Sys2Proof.Machine

/-- Whether the word at pc ends the body of an active loop (R277, R317). -/
def Regs.loopLast (r : Regs) : Bool := (r.lc1 != 0#64 && r.lend1 == r.pc) || (r.lc0 != 0#64 && r.lend0 == r.pc)

/-- A hint word issues: it traps ILLEGAL_HINT when its payload is reserved, its kind stands already in the chain, or it is the last
word of a loop's body; otherwise it joins the pending hint state and the next word follows (R275, R277, R278). -/
def State.hintWord (s : State) (w : IWord) (ok : Bool) (kind : BitVec 3) (p : BitVec 22) : Res :=
  let bad := !ok || s.cx.r.hints.any (fun h => h.kind == kind) || s.cx.r.loopLast
  let joined : Regs := { s.cx.r with pc := s.cx.r.pc + 4#64, hints := enq s.cx.r.hints ⟨kind, p, s.cx.r.pc⟩ }
  match s.cx.ahead with
  | some a =>
    if bad then .next (s.endRunahead s.cur)
    else
      let a1 := { a with count := a.count + 1 }
      let t := { s with cx := { s.cx with r := joined, ahead := some a1 } }
      .next (if a1.count < 256 then t else t.endRunahead s.cur)
  | none => if bad then s.trap w 0x02#8 s.cx.r.pc else .next (s.setR joined)

/-- IMMX (R274, R275). -/
def execImmx (p : BitVec 22) (s : State) : Res := s.hintWord (Enc.immx p) true 0#3 p

/-- HCACHE (R275, R195). -/
def execHcache (p : BitVec 2) (s : State) : Res := s.hintWord (Enc.hcache p) true 1#3 (p.setWidth 22)

/-- HSCHED (R275). -/
def execHsched (o : BitVec 1) (s : State) : Res := s.hintWord (Enc.hsched o) true 2#3 (o.setWidth 22)

/-- HMOD (R246, R247, R275). -/
def execHmod (o : BitVec 2) (x r : BitVec 1) (m : BitVec 2) (s : State) : Res :=
  s.hintWord (Enc.hmod o x r m) (okHmod o r m) 3#3 ((o ++ x ++ r ++ m : BitVec 6).setWidth 22)

/-- HNOP (R275). -/
def execHnop (p : BitVec 22) (s : State) : Res := s.hintWord (Enc.hnop p) true 4#3 p

end Sys2Proof.Machine
end

