-- ==== Sys2Proof/Machine/Matrix.lean ====
section
/-! DEFINITION. The matrix engine: majors 0x50 to 0x55 and the phases of an operation (R191, R255 to R260, R367 to R381). -/

namespace Sys2Proof.Machine

/-! ## Shapes (R367 to R372) -/

/-- A shape word's fields (Table 13.2). -/
structure Shape where
  m : Nat
  n : Nat
  k : Nat
  kv : Nat
  fa : Nat
  fb : Nat
  out : Nat
  soff : Nat
  /-- Bits [9:6]. -/
  rsv : Nat
deriving DecidableEq, Repr, Inhabited

/-- The fields of a shape word (Table 13.2). -/
def shapeOf (x : Word) : Shape :=
  { m := 8 * (bits x 2 0 + 1), n := 8 * (bits x 5 3 + 1), k := bits x 22 10, kv := bits x 35 23, fa := bits x 38 36,
    fb := bits x 41 39, out := bits x 43 42, soff := bits x 63 44, rsv := bits x 9 6 }

/-- A row of Table 13.3: the instruction, G, whether it is scaled, the rate per cycle. -/
def Shape.row (h : Shape) : Option (MKind × Nat × Bool × Nat) :=
  if h.fa = 0 ∧ h.fb = 0 ∧ h.out < 2 then some (.mma, 8, false, 2048)
  else if (h.fa = 1 ∨ h.fa = 2) ∧ (h.fb = 1 ∨ h.fb = 2) ∧ h.out < 2 then some (.mmas, 16, true, 4096)
  else if h.fa = 3 ∧ h.fb = 3 ∧ h.out < 2 then some (.mmas, 16, true, 8192)
  else if h.fa = 4 ∧ h.fb = 5 ∧ h.out = 2 then some (.mmat, 16, false, 16384)
  else none

/-- Validity for a major; MSHAPE and MZERO accept any row (R372, R380). -/
def Shape.valid (h : Shape) (k : Option MKind) : Bool :=
  match h.row with
  | none => false
  | some (kind, g, scaled, _) =>
    (k == none || k == some kind) && decide (h.rsv = 0) && decide (h.k % g = 0) && decide (g ≤ h.k) && decide (h.k ≤ 4096)
      && decide (h.k < h.kv + g) && decide (h.kv ≤ h.k)
      && (if scaled then decide (h.soff % 128 = 0) && decide (h.soff + (h.m + h.n) * h.k / 16 ≤ 0x100000) else decide (h.soff = 0))

/-- Element width of a type code of A and B in bits (R370). -/
def typeBits (c : Nat) : Nat := match c with | 0 => 16 | 3 => 4 | 4 => 2 | _ => 8

/-- Element width of an output type code (R370). -/
def outBits (c : Nat) : Nat := if c = 1 then 16 else 32

/-- Block width W and block bytes of an element width (Table 13.1). -/
def blockGeom (w : Nat) : Nat × Nat :=
  match w with
  | 32 => (8, 256)
  | 16 => (8, 128)
  | 8 => (16, 128)
  | 4 => (32, 128)
  | _ => (64, 128)

/-- Bytes of an operand of R rows and Q columns (R368). -/
def operandSize (rows q w : Nat) : Nat := rows * roundUp q (blockGeom w).1 * w / 8

/-- Bit offset of element (r, c) of an operand of Q columns (R367, R368). -/
def operandBit (q w r c : Nat) : Nat :=
  let g := blockGeom w
  ((r / 8) * (roundUp q g.1 / g.1) + c / g.1) * (g.2 * 8) + ((r % 8) * g.1 + c % g.1) * w

/-- Element (r, c) of an operand held as bytes. -/
def operandElem (b : Array Byte) (q w r c : Nat) : Nat :=
  let o := operandBit q w r c
  let at_ (i : Nat) : Nat := (b.getD (o / 8 + i) 0#8).toNat
  if w < 8 then at_ 0 / 2 ^ (o % 8) % 2 ^ w
  else (at_ 0 + (if 8 < w then at_ 1 * 2 ^ 8 else 0) + (if 16 < w then at_ 2 * 2 ^ 16 + at_ 3 * 2 ^ 24 else 0))

/-- Sizes of A, B, the scale array and C (R368, R369). -/
def Shape.sizes (h : Shape) : Nat × Nat × Nat × Nat :=
  (operandSize h.m h.k (typeBits h.fa), operandSize h.n h.k (typeBits h.fb), (h.m + h.n) * (h.k / 16),
    operandSize h.m h.n (outBits h.out))

/-- Blocks of an operation, drain included (R376). -/
def Shape.blocks (h : Shape) : Nat :=
  match h.row with
  | none => 0
  | some (_, _, _, rate) => ((h.m * h.n * h.k + rate - 1) / rate + 8 + 31) / 32

/-- MSHAPE: the shape word of a dimensions word and a scale address (R370, R372). -/
def execMshape (d a b : RegNo) (o : BitVec 2) (y x : BitVec 3) (s : State) : Res :=
  let w := Enc.mshape d a b o y x
  let v := s.rd a
  let sb := s.rd b
  let m := bits v 7 0
  let n := bits v 15 8
  let k := bits v 28 16
  let kv := if bits v 44 32 = 0 then k else bits v 44 32
  let dimsOk := decide (m % 8 = 0) && decide (8 ≤ m) && decide (m ≤ 64) && decide (n % 8 = 0) && decide (8 ≤ n) && decide (n ≤ 64)
    && decide (bits v 31 29 = 0) && decide (bits v 63 45 = 0)
  let scaled := match ({ m := m, n := n, k := k, kv := kv, fa := x.toNat, fb := y.toNat, out := o.toNat, soff := 0, rsv := 0 } : Shape).row with
    | some (_, _, sc, _) => sc
    | none => false
  let soff := if scaled then sb.toNat - basinBase else 0
  let h : Shape := { m := m, n := n, k := k, kv := kv, fa := x.toNat, fb := y.toNat, out := o.toNat, soff := soff, rsv := 0 }
  let word : Word := BitVec.ofNat 64 (soff * 2 ^ 44 + o.toNat * 2 ^ 42 + y.toNat * 2 ^ 39 + x.toNat * 2 ^ 36 + kv * 2 ^ 23 + k * 2 ^ 10
    + (n / 8 - 1) * 8 + (m / 8 - 1))
  s.issue w (dimsOk && (!scaled || inBasinWin sb) && h.valid none) (fun s => .next (s.finishSet d word))

/-! ## Arithmetic (R255 to R259) -/

/-- The value of an element of A or B of MMA and MMAS; a BF16 subnormal is a zero of its sign (R258). -/
def matElem (ty x : Nat) : Fv :=
  match ty with
  | 0 => if x / 2 ^ 7 % 256 = 0 then .fin (x.testBit 15) 0 0 else bf16.dec x
  | 1 => n8e4.dec x
  | 2 => n8e5.dec x
  | _ => n4e2.dec x

/-- The group result r before the accumulation: NaN, an infinity, or the exact sum times the scales, rounded once (R257, R258). -/
def groupRes (ps : List (Option Fv)) (scale : Nat × Int) : Nat :=
  if ps.any (· == none) then fp32.nan
  else
    let l := ps.filterMap id
    let pos := l.any (· == .inf false)
    let neg := l.any (· == .inf true)
    if pos && neg then fp32.nan
    else if pos then fp32.inf
    else if neg then fp32.sign + fp32.inf
    else
      let sum := l.foldl (fun (a : Int × Int) v => match v with
        | .fin n m e => exactSum (decide (a.1 < 0)) a.1.natAbs a.2 n m e
        | _ => a) (0, 0)
      if sum.1 = 0 then 0
      else (fp32.round .rne false (decide (sum.1 < 0)) (sum.1.natAbs * scale.1) (sum.2 + scale.2)).1

/-- Operands of an operation as the engine has read them. -/
structure Operands where
  a : Array Byte
  b : Array Byte
  scales : Array Byte
  c : Array Byte

/-- Element (i, j) of C by MMA or MMAS: its code in OUT (R257). -/
def mmaElem (h : Shape) (g : Nat) (scaled : Bool) (op : Operands) (i j : Nat) : Nat :=
  let c0 := operandElem op.c h.n (outBits h.out) i j
  let start := if h.out = 1 then (bf16.convert fp32 .rne false c0).1 else c0
  let kg := h.k / 16
  let acc := (List.range ((h.kv + g - 1) / g)).foldl (fun acc q =>
    let sa := (op.scales.getD (i * kg + q) 0#8).toNat
    let sb := (op.scales.getD (h.m * kg + j * kg + q) 0#8).toNat
    if scaled && (sa = 0 || sb = 0) then acc
    else
      let ks := (List.range (min g (h.kv - q * g))).map (fun t => q * g + t)
      let ps := ks.map (fun k => mulExact (matElem h.fa (operandElem op.a h.k (typeBits h.fa) i k))
        (matElem h.fb (operandElem op.b h.k (typeBits h.fb) j k)))
      let sc : Nat × Int := if scaled then ((s8val sa).1 * (s8val sb).1, (s8val sa).2 + (s8val sb).2) else (1, 0)
      (fp32.add .rne false acc (groupRes ps sc)).1) start
  if h.out = 1 then (fp32.convert bf16 .rne false acc).1 else acc

/-- Element (i, j) of C by MMAT, and whether its accumulator overflowed on the way (R259). -/
def mmatElem (h : Shape) (op : Operands) (i j : Nat) : Nat × Bool :=
  let r := (List.range h.kv).foldl (fun (acc : Int × Bool) k =>
    let t := operandElem op.a h.k 2 i k
    let x := signedN (operandElem op.b h.k 8 j k) 8
    let e := acc.1 + (if t = 1 then x else if t = 3 then -x else 0)
    ((BitVec.ofInt 32 e).toInt, acc.2 || decide (e < -2147483648) || decide (2147483647 < e)))
    (signedN (operandElem op.c h.n 32 i j) 32, false)
  ((BitVec.ofInt 32 r.1).toNat, r.2)

/-- Rows and columns of C in the order of increasing address (R367, R375). -/
def cOrder (h : Shape) : List (Nat × Nat) :=
  (List.range (h.m / 8)).flatMap (fun p => (List.range (h.n / 8)).flatMap (fun q =>
    (List.range 8).flatMap (fun r => (List.range 8).map (fun c => (8 * p + r, 8 * q + c)))))

/-- Whether a reserved T2 code stands at a valid position of A (Table 13.6). -/
def t2Reserved (h : Shape) (op : Operands) : Bool :=
  (List.range h.m).any (fun i => (List.range h.kv).any (fun k => operandElem op.a h.k 2 i k = 2))

/-- The bytes of C in increasing address order and the status flags of a commit (R375, R381). -/
def matResult (kind : MKind) (h : Shape) (op : Operands) : List Byte × BitVec 8 :=
  match kind with
  | .mzero => (List.replicate h.sizes.2.2.2 0#8, 0#8)
  | .mmat =>
    let l := (cOrder h).map (fun e => mmatElem h op e.1 e.2)
    (l.flatMap (fun x => bytesLE 4 x.1), (if l.any (·.2) then 4#8 else 0#8) ||| (if t2Reserved h op then 8#8 else 0#8))
  | k =>
    let g := if k = .mma then 8 else 16
    let l := (cOrder h).map (fun e => mmaElem h g (k == .mmas) op e.1 e.2)
    let f := if h.out = 1 then bf16 else fp32
    (l.flatMap (fun x => bytesLE (outBits h.out / 8) x),
      (if l.any (fun x => (f.dec x).isNan) then 1#8 else 0#8)
        ||| (if l.any (fun x => match f.dec x with | .inf _ => true | _ => false) then 2#8 else 0#8))

/-! ## Issue (R373, R374, R380) -/

/-- The basin ranges an operation names: address, length and whether it is written, in the order of R374's checks. -/
def matRanges (kind : MKind) (h : Shape) (a b d : Word) : List (Word × Nat × Bool) :=
  let z := h.sizes
  let sc : Word := BitVec.ofNat 64 (basinBase + h.soff)
  match kind with
  | .mzero => [(d, z.2.2.2, true)]
  | .mmas => [(a, z.1, false), (b, z.2.1, false), (sc, z.2.2.1, false), (d, z.2.2.2, true)]
  | _ => [(a, z.1, false), (b, z.2.1, false), (d, z.2.2.2, true)]

/-- A range's check: the trap it meets, if any (R374). -/
def State.matCheck (s : State) (r : Word × Nat × Bool) : Option (BitVec 8 × Word × Bool) :=
  if !alignedTo r.1 128 then some (0x03#8, r.1, r.2.2)
  else if !inBasinWin r.1 || decide (2 ^ 20 < r.1.toNat - basinBase + r.2.1) then some (0x05#8, r.1, r.2.2)
  else
    let off := r.1.toNat - basinBase
    match ((List.range ((off + r.2.1 - 1) / 4096 - off / 4096 + 1)).map (fun i => off / 4096 + i)).find?
        (fun p => !s.basinPageOk s.cur s.cx.tn p) with
    | some p => some (0x05#8, BitVec.ofNat 64 (basinBase + p * 4096), r.2.2)
    | none => none

/-- The first byte of a range that lies in a HOLD range (R374). -/
def State.firstHeld (s : State) (loc n : Nat) : Option Nat := (List.range n).find? (fun i => s.held (loc + i) 1)

/-- The basin location of an offset of a core. -/
def engineLoc (c : CtxId) (off : Nat) : Nat := basinLoc c.die c.core off

/-- An operation of a core's engine, by its scoreboard entry. -/
def State.onOp (s : State) (d c id : Nat) (f : MatrixOp → MatrixOp) : State :=
  s.onCore d c (fun k => { k with engine := k.engine.map (fun o => if o.sb = id then f o else o) })

/-- The operation that the engine takes next, when it runs none: owner operations first, then harvest, each in scoreboard order; a
harvest MZERO not while an owner of the core is in RUN or waits for the engine (R191, R380). -/
def State.nextOp (s : State) (d c : Nat) : Option MatrixOp :=
  let k := s.core d c
  if k.engine.any (·.started) then none
  else
    let ready := k.engine.filter (fun o => !o.yielded && k.mayStart o.sb)
    let rank (h : Bool) : List MatrixOp := (k.sboard.filterMap (fun e => ready.find? (fun o => o.sb == e.id))).filter (fun o => o.owner.reserve == h)
    match rank false with
    | o :: _ => some o
    | [] =>
      let owners := (List.range 8).any (fun t => decide ((s.ctx ⟨d, c, t, false⟩).st = .run))
        || k.engine.any (fun o => !o.owner.reserve)
      if owners then none else (rank true).head?

/-- The context of an operation that ends without a commit: its wait is over and it goes on at the instruction's chain. -/
def State.matRelease (s : State) (o : MatrixOp) (r : Regs) : State :=
  (s.onCtx o.owner (fun x => { x with r := r, wait := .none, offered := false })).ready o.owner

/-- An operation ends without a commit because it consumes poison or has no retry left: the entry is freed and the context takes a
domain fault, or outside any domain a trap (R90, R91, R377). -/
def State.matFault (s : State) (o : MatrixOp) (cause : BitVec 8) (tval : Word) : State :=
  let d := o.owner.die
  let c := o.owner.core
  let s1 := (s.onCore d c (fun k => { k with engine := without k.engine (fun x => x.sb == o.sb) })).freeSb d c o.sb
  let x := s1.ctx o.owner
  let id : BitVec 32 := x.r.dom.setWidth 32
  if (s1.domain id).isSome then s1.domainFault id cause x.r.chainStart
  else s1.takeTrap o.owner cause tval false false [] 0#32

/-- The first poisoned byte of a range. -/
def State.poisonIn (s : State) (loc n : Nat) : Option Nat := (wordsOf loc n).find? (fun w => s.poison.contains w)

/-- The engine takes an operation: it reads C; a poisoned operand word is consumed (R91, R375 phase 1). -/
def State.startOp (s : State) (o : MatrixOp) : State :=
  let d := o.owner.die
  let c := o.owner.core
  let h := shapeOf o.shape
  let z := h.sizes
  let cl := engineLoc o.owner o.c
  if o.kind = .mzero then s.onOp d c o.sb (fun x => { x with started := true, blocks := 0, staged := [] })
  else
    match s.poisonIn cl z.2.2.2 with
    | some w => s.matFault o 0x06#8 (BitVec.ofNat 64 (basinBase + (8 * w) % 2 ^ 20))
    | none => (s.onOp d c o.sb (fun x => { x with started := true, blocks := 0, staged := s.bytesAt cl z.2.2.2 })).onDie d
        (fun y => { y with lastMatrix := s.cycle.toNat })

/-- The commit of an operation whose blocks have ended: results written and each word set full, flags ORed into the status, the entry
freed, the context back in its turn (R375 phase 4, R381). -/
def State.commitOp (s : State) (o : MatrixOp) : State :=
  let d := o.owner.die
  let c := o.owner.core
  let h := shapeOf o.shape
  let z := h.sizes
  let scLen := (h.m + h.n) * (h.k / 16)
  let poison := if o.kind = .mzero then none
    else match s.poisonIn (engineLoc o.owner o.a) z.1 with
      | some w => some w
      | none => match s.poisonIn (engineLoc o.owner o.b) z.2.1 with
        | some w => some w
        | none => if o.kind = .mmas then s.poisonIn (engineLoc o.owner h.soff) scLen else none
  match poison with
  | some w => s.matFault o 0x06#8 (BitVec.ofNat 64 (basinBase + (8 * w) % 2 ^ 20))
  | none =>
    let ra := if o.kind = .mzero then ([], s) else s.engineRead o.raced (engineLoc o.owner o.a) z.1
    let rb := if o.kind = .mzero then ([], ra.2) else ra.2.engineRead o.raced (engineLoc o.owner o.b) z.2.1
    let rs := if o.kind = .mmas then rb.2.engineRead o.raced (engineLoc o.owner h.soff) scLen else ([], rb.2)
    let res := matResult o.kind h ⟨ra.1.toArray, rb.1.toArray, rs.1.toArray, o.staged.toArray⟩
    let cl := engineLoc o.owner o.c
    let kb := rs.2.engineKeep o.raced cl res.1
    let pages := (List.range ((o.c + z.2.2.2 - 1) / 4096 - o.c / 4096 + 1)).map (fun i => o.c / 4096 + i)
    let s1 := (wordsOf cl z.2.2.2).foldl (fun t w => (t.setFull w true).wakeWhy (.basinWord w)) (kb.2.applyWrite cl kb.1 0 .local)
    let s2 := pages.foldl (fun t p => t.noteHarvest o.owner (engineLoc o.owner (p * 4096))) s1
    let s3 := (s2.onCore d c (fun k => { k with engine := without k.engine (fun x => x.sb == o.sb) })).freeSb d c o.sb
    let x := s3.ctx o.owner
    let r := { x.r.advance with mstat := x.r.mstat ||| res.2 }
    (s3.matRelease o r).onDie d (fun y => { y with lastMatrix := s.cycle.toNat })

/-! ## The ramp and the throttle (R22, R23) -/

/-- Whether an operation of a kind asks for the ramp: MMA, MMAS, MMAT (R23). -/
def MKind.ramps (k : MKind) : Bool := k != .mzero

/-- The first MMA, MMAS or MMAT that asks on a die whose engines have all been idle for 1,024 cycles starts the ramp (R23). -/
def State.askRamp (s : State) (die : Nat) : State :=
  let d := s.die die
  let busy := (List.range 64).any (fun c => (s.core die c).engine.any (·.started))
  if !busy && d.lastMatrix + 1024 ≤ s.cycle.toNat && (match d.rampStart with | some t => decide (t < d.lastMatrix) | none => true) then
    s.onDie die (fun x => { x with rampStart := some s.cycle.toNat })
  else s

/-- Whether the die's ramp has not yet reached a core's engine: group g is usable 32 g cycles after the start (R23). -/
def State.ramping (s : State) (die core : Nat) : Bool :=
  match (s.die die).rampStart with
  | some t => decide (s.cycle.toNat < t + 32 * (core / 8))
  | none => false

/-- Whether cap or temperature throttles a die (R22, R24). -/
def DieSt.throttled (d : DieSt) : Bool := d.throttleCap || decide (d.throttle ≠ 0)

/-- MATRIX_ENGINE_RAMP: an operation that asks for its engine starts the ramp (R23). -/
def execMatrixEngineRamp (die : Nat) (s : State) : Res :=
  if (List.range 64).any (fun c => (s.core die c).engine.any (fun o => o.kind.ramps && !o.started)) then .next (s.askRamp die) else .next s

/-- An operation just issued runs to its end in this step when it can start now and neither the plan nor a ramp nor a throttle holds it back
(R22, R23, R182). -/
def State.runOp (s0 : State) (d c : Nat) : State :=
  match s0.nextOp d c with
  | none => s0
  | some o =>
    let s := if o.kind.ramps then s0.askRamp d else s0
    if o.kind.ramps && (s.ramping d c || (s.die d).throttled) then s
    else
      let t := s.startOp o
      match (t.core d c).engine.find? (fun x => x.sb == o.sb && x.started) with
      | some p => t.commitOp p
      | none => t

/-- MMA, MMAS, MMAT and MZERO at issue (R373, R374, R380). -/
def State.matrix (s : State) (w : IWord) (kind : MKind) (legal : Bool) (d a b h : RegNo) : Res :=
  let x := s.rd h
  let sh := shapeOf x
  s.issue w (legal && sh.valid (if kind = .mzero then none else some kind)) (fun s =>
    let rs := matRanges kind sh (s.rd a) (s.rd b) (s.rd d)
    match rs.findSome? s.matCheck with
    | some (c, va, wr) => s.trap w c va wr
    | none =>
      let off (v : Word) : Nat := (v - BitVec.ofNat 64 basinBase).toNat
      let co := off (s.rd d)
      match s.firstHeld (engineLoc s.cur co) sh.sizes.2.2.2 with
      | some i => s.trap w 0x09#8 (s.rd d + BitVec.ofNat 64 i) true
      | none =>
        let die := s.cur.die
        let core := s.cur.core
        let fresh (id : Nat) : MatrixOp :=
          { kind := kind, owner := s.cur, a := off (s.rd a), b := off (s.rd b), c := co, shape := x, retry := s.cx.r.engretry.toNat,
            sb := id, started := false, blocks := 0, staged := [], flags := 0#8, yielded := false, raced := [] }
        let go (t : State) : Res :=
          let u := t.waitOn .matrix
          .next (if u.planned then u.replan else u.replan.runOp die core)
        match s.myCore.engine.find? (fun o => o.owner == s.cur) with
        | some o => go (s.onOp die core o.sb (fun _ => fresh o.sb))
        | none =>
          if !s.myCore.sbFree s.cur then .next (s.waitOn .scoreboard)
          else
            let rng (r : Word × Nat × Bool) : Nat × Nat := sbRange (off r.1) r.2.1
            let tk := s.takeSb s.cur (if kind = .mzero then [] else rs.map rng) (rs.getLast?.map rng)
            go (tk.1.onCore die core (fun k => { k with engine := enq k.engine (fresh tk.2) })))

/-- MMA: BF16 matrix multiply (R257, R373). -/
def execMma (d a b h : RegNo) (s : State) : Res := s.matrix (Enc.mma d a b h) .mma (okMatrix d a b h) d a b h

/-- MMAS: scaled narrow matrix multiply (R255, R257, R373). -/
def execMmas (d a b h : RegNo) (s : State) : Res := s.matrix (Enc.mmas d a b h) .mmas (okMatrix d a b h) d a b h

/-- MMAT: ternary by INT8 matrix multiply (R259, R373). -/
def execMmat (d a b h : RegNo) (s : State) : Res := s.matrix (Enc.mmat d a b h) .mmat (okMatrix d a b h) d a b h

/-- MZERO: C is written zero and set full (R380). -/
def execMzero (d h : RegNo) (s : State) : Res := s.matrix (Enc.mzero d h) .mzero true d d d h

/-- MSTAT: s[d] := the matrix status; with .clr it becomes zero (R381). -/
def execMstat (d : RegNo) (c : BitVec 1) (s : State) : Res :=
  s.issue (Enc.mstat d c) true (fun s =>
    let r := s.cx.r.set d (s.cx.r.mstat.setWidth 64)
    .next (s.finish (if c = 1#1 then { r with mstat := 0#8 } else r)))

/-! ## The engine's own steps (R375 to R379) -/

/-- MATRIX_OP_START: the engine of a core takes the next operation (R23, R191, R375). -/
def execMatrixOpStart (die core : Nat) (s : State) : Res :=
  match s.nextOp die core with
  | none => .next s
  | some o =>
    let t := if o.kind.ramps then s.askRamp die else s
    if o.kind.ramps && t.ramping die core then .next t else .next (t.startOp o)

/-- The operation of a core's engine that runs. -/
def State.runningOp (s : State) (d c : Nat) : Option MatrixOp := (s.core d c).engine.find? (·.started)

/-- A harvest operation yields: nothing written, the entry kept, the context free to issue the instruction again (R378). -/
def State.yieldOp (s : State) (o : MatrixOp) : State :=
  let t := s.onOp o.owner.die o.owner.core o.sb (fun x => { x with started := false, blocks := 0, staged := [], yielded := true, raced := [] })
  let r := (t.ctx o.owner).r
  t.matRelease o { r with pc := r.chainStart, hints := [] }

/-- Whether a harvest operation must yield at this boundary: its context is revoked, an owner operation waits, or a throttle gap falls
(R378). -/
def State.mustYield (s : State) (o : MatrixOp) : Bool :=
  o.owner.reserve && o.kind != .mzero
    && (!s.turnFree o.owner
      || (s.core o.owner.die o.owner.core).engine.any (fun x => !x.owner.reserve && !x.yielded)
      || (s.die o.owner.die).throttled)

/-- MATRIX_BLOCK_END: a block boundary of the running operation.  Each mismatch counts a core event; a residue mismatch replays the
block, a parity mismatch the operation, while a retry remains; otherwise a harvest operation may yield (R90, R377, R378). -/
def execMatrixBlockEnd (die core : Nat) (residue parity : Bool) (s : State) : Res :=
  match s.runningOp die core with
  | none => .next s
  | some o =>
    if o.kind = .mzero then .next s
    else if residue || parity then
      let u : FUnit := s.coreUnit die core
      let t0 := if residue then s.faultEvent u .residue else s
      let t := if parity then t0.faultEvent u .residue else t0
      if o.retry = 0 then .next (t.matFault o 0x08#8 (s.ctx o.owner).r.pc)
      else if parity then
        .next ((t.onOp die core o.sb (fun x => { x with retry := o.retry - 1, started := false, blocks := 0, staged := [] })).startOp
          { o with retry := o.retry - 1 })
      else .next (t.onOp die core o.sb (fun x => { x with retry := o.retry - 1 }))
    else
      let last := decide ((shapeOf o.shape).blocks ≤ o.blocks + 1)
      if s.mustYield o && !last then .next (s.yieldOp o)
      else .next (s.onOp die core o.sb (fun x => { x with blocks := min (o.blocks + 1) (shapeOf o.shape).blocks }))

/-- MATRIX_COMMIT: the running operation, its blocks ended, commits (R375 phase 4). -/
def execMatrixCommit (die core : Nat) (s : State) : Res :=
  match s.runningOp die core with
  | none => .next s
  | some o =>
    if o.kind = .mzero || decide ((shapeOf o.shape).blocks ≤ o.blocks) then .next (s.commitOp o) else .next s

end Sys2Proof.Machine
end

