-- ==== Sys2Proof/Machine/StepProg.lean ====
section
/-! DEFINITION. Step programs: QSTART, and the steps that a die's weir performs for a rank (R420 to R423, Tables 14.6 and
14.7). -/

namespace Sys2Proof.Machine

/-! ## The step word (Table 14.6) -/

/-- The fields of a step. -/
structure Step146 where
  /-- OP. -/
  op : Nat
  /-- PMODE. -/
  pmode : Nat
  /-- PARG as 11 bits. -/
  parg : Nat
  /-- CSRC. -/
  csrc : Nat
  /-- CDST. -/
  cdst : Nat
  /-- LEN. -/
  len : Nat
  /-- SRC. -/
  src : Nat
  /-- DST. -/
  dst : Nat
  /-- Whether a reserved field is not zero. -/
  rsv : Bool
deriving DecidableEq, Repr, Inhabited

/-- The fields of a step's two words (Table 14.6). -/
def stepOf (w : Word × Word) : Step146 :=
  { op := bits w.1 63 60, pmode := bits w.1 59 58, parg := bits w.1 57 47, csrc := bits w.1 46 45, cdst := bits w.1 44 43,
    len := bits w.1 42 23, src := bits w.2 51 32, dst := bits w.2 19 0,
    rsv := bits w.1 22 0 != 0 || bits w.2 63 52 != 0 || bits w.2 31 20 != 0 }

/-- Status 1 of R422: a reserved OP or PMODE, a nonzero reserved field, or a LEN that is no multiple of 4. -/
def Step146.bad (p : Step146) : Bool := decide (9 ≤ p.op) || p.pmode == 3 || p.rsv || decide (p.len % 4 ≠ 0)

/-- The peer of a rank; none where an absolute or XOR peer is n or more (R420, R422 code 3). -/
def Step146.peer (p : Step146) (n r : Nat) : Option Nat :=
  match p.pmode with
  | 1 => some (((r : Int) + signedN p.parg 11) % (n : Int)).toNat
  | 2 => if r ^^^ p.parg < n then some (r ^^^ p.parg) else none
  | _ => if p.parg < n then some p.parg else none

/-- The chunk index of a mode (R420). -/
def chunkIndex (mode n r j : Nat) : Nat :=
  match mode with
  | 0 => 0
  | 1 => (((r : Int) - (j : Int)) % (n : Int)).toNat
  | 2 => (((r : Int) - (j : Int) - 1) % (n : Int)).toNat
  | _ => (((r : Int) - (j : Int) + 1) % (n : Int)).toNat

/-- SRC with its chunk. -/
def Step146.srcOff (p : Step146) (n r j : Nat) : Nat := p.src + p.len * chunkIndex p.csrc n r j
/-- DST with its chunk. -/
def Step146.dstOff (p : Step146) (n r j : Nat) : Nat := p.dst + p.len * chunkIndex p.cdst n r j

/-- The count of a LOOP step: 0 means n - 1 (Table 14.6). -/
def Step146.loops (p : Step146) (n : Nat) : Nat := if p.parg = 0 then n - 1 else p.parg

/-- Whether LOOP and ENDLOOP match and nest at most two deep, END standing outside of loops (R422 status 2). -/
def nested : Nat → List Step146 → Bool
  | _, [] => true
  | d, p :: l =>
    if p.op = 6 then decide (d < 2) && nested (d + 1) l
    else if p.op = 7 then decide (0 < d) && nested (d - 1) l
    else if p.op = 0 then decide (d = 0) else nested d l

/-- The basin intervals, start and length, of a step with the iteration indices its innermost loop takes. -/
def Step146.reach (p : Step146) (g : Group) (r : Nat) (js : List Nat) : List (Nat × Nat) :=
  let srcs := js.map (fun j => (p.srcOff g.n r j, p.len))
  let dsts := js.map (fun j => (p.dstOff g.n r j, if p.op = 8 then g.recordSize else p.len))
  match p.op with
  | 1 => srcs
  | 2 => dsts
  | 3 => dsts
  | 4 => srcs ++ dsts
  | 8 => srcs ++ dsts
  | _ => []

/-- The intervals that a program can reach: an iteration index beyond n - 1 repeats an earlier chunk; a body that runs no time
reaches nothing. -/
def reachAll (g : Group) (r : Nat) : List Nat → List Step146 → List (Nat × Nat)
  | _, [] => []
  | st, p :: l =>
    if p.op = 6 then reachAll g r (p.loops g.n :: st) l
    else if p.op = 7 then reachAll g r st.tail l
    else if st.contains 0 then reachAll g r st l
    else p.reach g r (match st with | [] => [0] | c :: _ => List.range (min c g.n)) ++ reachAll g r st l

/-- The bounding interval of a list of intervals and the DONE word: start and length (R422 status 4). -/
def boundingSpan (doneOff : Nat) (l : List (Nat × Nat)) : Nat × Nat :=
  let m := (l.filter (fun e => decide (e.2 ≠ 0))).foldl (fun (a : Nat × Nat) e => (min a.1 e.1, max a.2 (e.1 + e.2))) (doneOff, doneOff + 8)
  (m.1, m.2 - m.1)

/-! ## QSTART (R422) -/

/-- Read steps until END, up to a number of them: the steps, whether END was read, and the state. -/
def State.readSteps (s : State) (w : IWord) (va : Word) : Nat → Except Res (List (Word × Word) × Bool × State)
  | 0 => .ok ([], false, s)
  | k + 1 =>
    match s.readWords w va 2 with
    | .error e => .error e
    | .ok (b, t) =>
      let p := (wordAt b 0, wordAt b 8)
      if (stepOf p).op = 0 then .ok ([p], true, t)
      else
        match t.readSteps w (va + 16#64) k with
        | .error e => .error e
        | .ok (l, f, u) => .ok (p :: l, f, u)

/-- A slot of the die that no running program holds (R422 status 6). -/
def State.freeSlot (s : State) (d : Nat) : Option Nat :=
  (List.range 64).find? (fun i => !((SMap.look none (s.die d).programs i).map (fun g => g.state == 1)).getD false)

/-- The status of a program that has been read (R422). -/
def State.startStatus (s : State) (g : Group) (rank : Nat) (w0 w1 : Word) (steps : List Step146) (ended : Bool) : Nat :=
  let doneOff := bits w1 19 0
  let span := boundingSpan doneOff (reachAll g rank [] steps)
  if bits w0 63 32 != 0 || bits w1 63 20 != 0 || doneOff % 8 != 0 || steps.any (·.bad) then 1
  else if !nested 0 steps then 2
  else if !ended then 3
  else if (s.basinHole s.cur s.cx.tn (BitVec.ofNat 64 (basinBase + span.1)) span.2).isSome then 4
  else if s.programRuns s.cur then 5
  else if (s.freeSlot s.cur.die).isNone then 6 else 0

/-- QSTART: checks handle and rank, reads and checks the whole program, and starts it (R422). -/
def execQstart (d a b : RegNo) (s : State) : Res :=
  let w := Enc.qstart d a b
  s.issue w true (fun s =>
    let h : BitVec 32 := (s.rd b).setWidth 32
    let rank := bits (s.rd b) 41 32
    let va := s.rd a
    match s.weirEntry s.cur.die s.cx.tn h with
    | none => s.trap w 0x0C#8 (h.setWidth 64)
    | some g =>
      if !(s.ranksOf g s.cur.die).contains rank then s.trap w 0x0C#8 (h.setWidth 64)
      else if !alignedTo va 16 then s.trap w 0x03#8 va
      else match s.readWords w va 2 with
      | .error e => e
      | .ok (hd, s1) =>
        match s1.readSteps w (va + 16#64) 255 with
        | .error e => e
        | .ok (raw, ended, t) =>
          let w0 := wordAt hd 0
          let w1 := wordAt hd 8
          let steps := raw.map stepOf
          let st := t.startStatus g rank w0 w1 steps ended
          match (if st = 0 then t.freeSlot t.cur.die else none) with
          | none => .next (t.finishLong (t.cx.r.set d (BitVec.ofNat 64 st)))
          | some n =>
            let p : StepProg :=
              { owner := t.cur, handle := h, rank := rank, core := t.cur.core, steps := raw, index := 0, loops := [],
                tag := w0.setWidth 32, doneOff := bits w1 19 0, state := 1, code := 0#8, posted := 0,
                span := boundingSpan (bits w1 19 0) (reachAll g rank [] steps) }
            let u := t.onDie t.cur.die (fun x => { x with programs := SMap.put none x.programs n (some p) })
            let v : State := { u with cx := { u.cx with program := some n } }
            .next (v.finishLong (v.cx.r.set d 0#64)))

/-! ## Steps (R421) -/

/-- A running program of a slot with its group and its next step, where that is of a kind. -/
def State.stepAt (s : State) (d slot op : Nat) : Option (StepProg × Group × Step146) :=
  match SMap.look none (s.die d).programs slot with
  | some p =>
    match s.group p.handle, p.steps[p.index]? with
    | some g, some w => if p.state = 1 ∧ !g.poisoned ∧ (stepOf w).op = op ∧ !(s.die d).quiesced then some (p, g, stepOf w) else none
    | _, _ => none
  | none => none

/-- Change a program. -/
def State.setProg (s : State) (d slot : Nat) (p : StepProg) : State :=
  s.onDie d (fun x => { x with programs := SMap.put none x.programs slot (some p) })

/-- The program goes on to its next step. -/
def StepProg.next (p : StepProg) : StepProg := { p with index := p.index + 1 }

/-- The innermost loop's iteration index, 0 outside loops (R420). -/
def StepProg.j (p : StepProg) : Nat := match p.loops with | [] => 0 | l :: _ => l.2.1

/-- Whether the scoreboard lets a program access its core's basin (R188 to R190, Table 7.3). -/
def State.progFree (s : State) (d : Nat) (p : StepProg) (reads : List (Nat × Nat)) (write : Option (Nat × Nat)) : Bool :=
  let k := s.core d p.core
  k.sbFree p.owner && !k.sboard.any (fun e => e.conflicts ⟨0, p.owner, reads, write⟩)

/-- A trap of a program's context: at once in WAIT or PARKED, else at its next instruction boundary (R284). -/
def State.progTrap (s : State) (p : StepProg) (cause : BitVec 8) (tval : Word) : State :=
  let x := s.ctx p.owner
  if x.st = .wait || x.st = .parked then s.takeTrap p.owner cause tval false false [] 0#32
  else if x.st = .run then s.onCtx p.owner (fun y => { y with atBoundary := enq y.atBoundary (cause, tval) }) else s

/-- Poison that a program consumes: a domain fault of its context's innermost domain, or a POISON trap of the context at its next
boundary (R91). -/
def State.progPoison (s : State) (d : Nat) (p : StepProg) (off n : Nat) : State :=
  match s.poisonVa (basinLoc d p.core off) n with
  | none => s
  | some v =>
    let x := s.ctx p.owner
    if (s.domain (x.r.dom.setWidth 32)).isSome then s.domainFault (x.r.dom.setWidth 32) 0x06#8 x.r.chainStart else s.progTrap p 0x06#8 v

/-- Whether the program of a slot is still the one. -/
def State.goesOn (s : State) (d slot : Nat) (p : StepProg) : Bool := SMap.look none (s.die d).programs slot == some p

/-- Bytes of a program's core basin. -/
def State.progBytes (s : State) (d : Nat) (p : StepProg) (off n : Nat) : List Byte := s.bytesAt (basinLoc d p.core off) n

/-- A program writes its core's basin, each word set full (Table 14.7); a write to a HOLD range is not made and traps in the program's
context (R171). -/
def State.progWrite (s : State) (d : Nat) (p : StepProg) (off : Nat) (b : List Byte) : State :=
  if s.held (basinLoc d p.core off) b.length then s.progTrap p 0x09#8 (BitVec.ofNat 64 (basinBase + off))
  else s.weirWrite { p.owner with die := d, core := p.core } off b

/-- The bytes of weir buffer that messages of an ordered pair of ranks hold (R421). -/
def Group.buffered (g : Group) (src dst : Nat) : Nat :=
  ((g.messages ++ g.flight).filter (fun m => m.1 == src && m.2.1 == dst)).foldl (fun n m => n + m.2.2.length) 0

/-- SEND (Table 14.7). -/
def execSend (die slot : Nat) (s : State) : Res :=
  match s.stepAt die slot 1 with
  | none => .next s
  | some (p, g, q) =>
    match q.peer g.n p.rank with
    | none => .next (s.faultProgram die slot 3#8)
    | some peer =>
      let off := q.srcOff g.n p.rank p.j
      if 65536 < g.buffered p.rank peer + q.len || !s.progFree die p [sbRange off q.len] none then .next s
      else
        let s1 := s.progPoison die p off q.len
        if !s1.goesOn die slot p then .next s1
        else
          let b := s1.progBytes die p off q.len
          let home := g.members.getD peer (0#12, 0)
          let s2 := if home.1 == s.pkgid && home.2 != die then (let n := s1.bump die; n.2.acked die n.1) else s1
          let s3 := s2.onGroup p.handle (fun x => { x with flight := enq x.flight (p.rank, peer, b) })
          let s4 := if home.1 = s.pkgid then s3 else s3.send (.stepTo (s.collHeader 0x0B#8 p.handle g.key die home) p.rank peer b)
          .next (s4.setProg die slot p.next)

/-- STEP_MESSAGE_WRITTEN: the oldest message of a pair is in the receiver's weir buffer; a message from another package arrives
(R421). -/
def execStepMessageWritten (die : Nat) (handle : BitVec 32) (src dst : Nat) (bytes : List Byte) (remote : Option Packet) (s : State) : Res :=
  match s.group handle with
  | none => .next s
  | some g =>
    let near : Bool := g.members[dst]? == some (s.pkgid, die)
    if g.poisoned then .next s
    else match g.flight.find? (fun m => m.1 == src && m.2.1 == dst) with
      | some m =>
        let rest := g.flight.erase m
        if near then .next (s.onGroup handle (fun x => { x with flight := rest, messages := enq x.messages m }))
        else if (g.members[dst]?.map (·.1)) == some s.pkgid then .next s
        else .next (s.onGroup handle (fun x => { x with flight := rest }))
      | none =>
        match remote with
        | none => .next s
        | some h =>
          if !s.collOk die 0x0B#8 handle h then .next (s.refuseColl die h)
          else if near && g.members[src]? == some (h.spkg, h.sdie.toNat) && h.spkg != s.pkgid then
            .next (s.onGroup handle (fun x => { x with messages := enq x.messages (src, dst, bytes) }))
          else .next s

/-- A step that takes the oldest message of its peer into DST, combined with what is there (Table 14.7). -/
def State.recvStep (s : State) (die slot op : Nat) (f : Group → List Byte → List Byte → List Byte) : Res :=
  match s.stepAt die slot op with
  | none => .next s
  | some (p, g, q) =>
    match q.peer g.n p.rank with
    | none => .next (s.faultProgram die slot 3#8)
    | some from_ =>
      match g.messages.find? (fun m => m.1 == from_ && m.2.1 == p.rank) with
      | none => .next s
      | some m =>
        let off := q.dstOff g.n p.rank p.j
        if m.2.2.length ≠ q.len then .next (s.faultProgram die slot 1#8)
        else if !s.progFree die p (if op = 3 then [sbRange off q.len] else []) (some (sbRange off q.len)) then .next s
        else
          let s1 := if op = 3 then s.progPoison die p off q.len else s
          if !s1.goesOn die slot p then .next s1
          else
            let b := f g (s1.progBytes die p off q.len) m.2.2
            let s2 := (s1.onGroup p.handle (fun x => { x with messages := x.messages.erase m })).progWrite die p off b
            .next (s2.setProg die slot p.next)

/-- RECV (Table 14.7). -/
def execRecv (die slot : Nat) (s : State) : Res := s.recvStep die slot 2 (fun _ _ m => m)

/-- One element of RRS, by the group's OP (Table 14.7). -/
def reduceElem (op : Nat) (a b : Nat) : Nat :=
  match op with
  | 2 => (a + b) % 2 ^ 32
  | 3 => (fp32.minMax true a b).1
  | _ => (fp32.add .rne false a b).1

/-- RRS (Table 14.7). -/
def execRrs (die slot : Nat) (s : State) : Res :=
  s.recvStep die slot 3 (fun g old m =>
    (List.range (m.length / 4)).flatMap (fun i => bytesLE 4 (reduceElem g.op (natAt old (4 * i) 4) (natAt m (4 * i) 4))))

/-- COPY (Table 14.7). -/
def execStepCopy (die slot : Nat) (s : State) : Res :=
  match s.stepAt die slot 4 with
  | none => .next s
  | some (p, g, q) =>
    let so := q.srcOff g.n p.rank p.j
    let dof := q.dstOff g.n p.rank p.j
    if !s.progFree die p [sbRange so q.len] (some (sbRange dof q.len)) then .next s
    else
      let s1 := s.progPoison die p so q.len
      if !s1.goesOn die slot p then .next s1
      else .next ((s1.progWrite die p dof (s1.progBytes die p so q.len)).setProg die slot p.next)

/-- WAIT (Table 14.7). -/
def execStepWait (die slot : Nat) (s : State) : Res :=
  match s.stepAt die slot 5 with
  | none => .next s
  | some (p, g, _) => if g.flight.any (fun m => m.1 == p.rank) then .next s else .next (s.setProg die slot p.next)

/-- The index after the ENDLOOP that matches a LOOP, of the steps from an index on. -/
def skipLoop : Nat → Nat → List Step146 → Nat
  | i, _, [] => i
  | i, d, p :: l =>
    if p.op = 6 then skipLoop (i + 1) (d + 1) l
    else if p.op = 7 then (if d = 0 then i + 1 else skipLoop (i + 1) (d - 1) l)
    else skipLoop (i + 1) d l

/-- LOOP (Table 14.7). -/
def execStepLoop (die slot : Nat) (s : State) : Res :=
  match s.stepAt die slot 6 with
  | none => .next s
  | some (p, g, q) =>
    let n := q.loops g.n
    if n = 0 then .next (s.setProg die slot { p with index := skipLoop (p.index + 1) 0 ((p.steps.drop (p.index + 1)).map stepOf) })
    else .next (s.setProg die slot { p.next with loops := (p.index + 1, 0, n) :: p.loops })

/-- ENDLOOP (Table 14.7). -/
def execStepEndloop (die slot : Nat) (s : State) : Res :=
  match s.stepAt die slot 7 with
  | none => .next s
  | some (p, _, _) =>
    match p.loops with
    | [] => .next (s.setProg die slot p.next)
    | l :: rest =>
      if l.2.1 + 1 < l.2.2 then .next (s.setProg die slot { p with index := l.1, loops := (l.1, l.2.1 + 1, l.2.2) :: rest })
      else .next (s.setProg die slot { p.next with loops := rest })

/-- QROUND: the post of SRC with tag T as by QPOST, then the record of T into DST as by QWAIT; either weir trap ends the program with
code 4 (Table 14.7, R422). -/
def execQround (die slot : Nat) (s : State) : Res :=
  match s.stepAt die slot 8 with
  | none => .next s
  | some (p, g, q) =>
    let so := q.srcOff g.n p.rank p.j
    let dof := q.dstOff g.n p.rank p.j
    let gd := SMap.look {} g.dies die
    if p.posted = 0 then
      if q.len ≠ g.count * (if g.op = 1 then 2 else 4) || gd.stale.contains p.rank then .next (s.faultProgram die slot 4#8)
      else if gd.posts.any (fun e => e.1 == p.rank && e.2.1 == p.tag) then .next (s.setProg die slot { p with posted := 2 })
      else if !s.progFree die p [sbRange so q.len] none then .next s
      else
        let s1 := s.progPoison die p so q.len
        if !s1.goesOn die slot p then .next s1
        else
          let data := contribution g.op g.count (s1.progBytes die p so q.len)
          let s2 := s1.onGroupDie p.handle die (fun x => x.join (s.pkgid, die) p.rank p.tag data (.prog slot p.rank))
          .next ((s2.setProg die slot { p with posted := 1 }).forwardPartial die p.handle)
    else if p.posted = 2 then
      if tooOld g.lag gd.records p.tag then .next (s.faultProgram die slot 4#8)
      else match gd.records.find? (fun r => r.tag == p.tag) with
        | none => .next s
        | some r =>
          if !s.progFree die p [] (some (sbRange dof g.recordSize)) then .next s
          else .next (((s.progWrite die p dof r.bytes).mergeV die r.vec).setProg die slot { p.next with posted := 0, tag := p.tag + 1#32 })
    else .next s

/-- END: 1 goes to DONE, which is set full, and the program has ended (Table 14.7). -/
def execStepEnd (die slot : Nat) (s : State) : Res :=
  match s.stepAt die slot 0 with
  | none => .next s
  | some (p, _, _) =>
    let t := (s.progWrite die p p.doneOff (bytesLE 8 1)).setProg die slot { p with state := 2 }
    .next (if (t.ctx p.owner).wait = .retry .texit then t.wake p.owner else t)

/-- Whether a running program meets a fault of R422. -/
def State.progFaults (s : State) (d slot : Nat) (code : BitVec 8) : Bool :=
  match SMap.look none (s.die d).programs slot with
  | none => false
  | some p =>
    match s.group p.handle with
    | none => false
    | some g =>
      let q := stepOf (p.steps.getD p.index (0#64, 0#64))
      let peered := q.op == 1 || q.op == 2 || q.op == 3
      p.state == 1 && (match code.toNat with
        | 1 => (q.op == 2 || q.op == 3) && (match q.peer g.n p.rank with
            | some f => ((g.messages.find? (fun m => m.1 == f && m.2.1 == p.rank)).map (fun m => m.2.2.length != q.len)).getD false
            | none => false)
        | 3 => peered && (q.peer g.n p.rank).isNone
        | 4 => q.op == 8 && ((SMap.look {} g.dies d).stale.contains p.rank || tooOld g.lag (SMap.look {} g.dies d).records p.tag)
        | 5 => g.poisoned
        | 6 => p.owner.reserve && ((List.range 256).any (fun k => overlaps p.span.1 p.span.2 (k * 4096) 4096
            && !(s.core d p.core).lentPages.contains k))
        | _ => false)

/-- STEP_PROGRAM_FAULT: a running program meets one of the faults of R422 and stops. -/
def execStepProgramFault (die slot : Nat) (code : BitVec 8) (s : State) : Res :=
  if s.progFaults die slot code then .next (s.faultProgram die slot code) else .next s

end Sys2Proof.Machine
end

