-- ==== Sys2Proof/Machine/Supervisor.lean ====
section
/-! DEFINITION. What the supervisor does with traps and pages: serving a trap record, evicting and migrating a page, page walks,
the end of runahead, monitors, and the supervisor cores themselves (R135, R202, R207, R210 to R213, R323, R332, R335). -/

namespace Sys2Proof.Machine

/-! ## Trap records (R135) -/

/-- The address after the instruction whose chain begins at an address: its hint words and one word more (R275, R426). -/
def State.pastChain (s : State) (c : CtxId) : Nat → Word → Word
  | 0, a => a + 4#64
  | k + 1, a =>
    let x := s.ctx c
    match s.xlate c x.tn (x.heapbase, x.heaplim, x.heapoff) .ex a with
    | .ok t => if s.natAtLoc t.loc 4 / 2 ^ 25 = 0x7F then s.pastChain c k (a + 4#64) else a + 4#64
    | _ => a + 4#64

/-- A record goes to the tenant's trap area and TRAP is posted (R135). -/
def State.tellTrap (s : State) (r : TrapRec) : State :=
  let q := s.trapArea r.tenant r.bytes
  q.2.post r.tenant 0x0003#16 0#8 (causeWord r.cause) r.launch (BitVec.ofNat 64 q.1)

/-- The pages of a TRANSLATION record, its own page the first where the record lists none (R207, R284). -/
def TrapRec.wanted (r : TrapRec) : List Word := if r.pages = [] then [r.tval &&& ~~~0xFFF#64] else r.pages

/-- Map every page of a list that a window has; the pages to be fetched are asked for, and their number is answered (R210). -/
def State.mapPages (s : State) (tn : Nat) (l : List Word) : State × Nat :=
  l.foldl (fun acc p => match acc.1.touchPage tn p with
    | .mapped t => (t, acc.2)
    | .t2 h f => (acc.1.fetchPage tn p h f, acc.2 + 1)
    | _ => acc) (s, 0)

/-- Whether an address lies in a valid window of a tenant (R430). -/
def State.windowed (s : State) (tn : Nat) (va : Word) : Bool := ((s.tenant tn).bind (fun t => t.windowAt va)).isSome

/-- An unresolved trap: trap area, TRAP, and the context is killed (R135). -/
def State.unresolved (s : State) (r : TrapRec) : State := (s.tellTrap r).kill r.ctx

/-- The supervisor serves one trap record of a context that is still TRAPPED. -/
def State.serveTrap (s : State) (r : TrapRec) : State :=
  if r.cause = 0x04#8 then
    if s.windowed r.tenant r.tval then
      let q := s.mapPages r.tenant r.wanted
      if q.2 = 0 then q.1.resume r.ctx else { q.1 with fetching := enq q.1.fetching { r with pages := r.wanted } }
    else s.unresolved r
  else if r.cause = 0x0D#8 then
    ((s.tellTrap r).onCtx r.ctx (fun x => { x with r := { x.r with epc := s.pastChain r.ctx 6 x.r.epc } })).resume r.ctx
  else if r.cause = 0x12#8 && r.insn == Enc.dend then (s.tellTrap r).resume r.ctx
  else s.unresolved r

/-- TRAP_RESOLUTION: the oldest record is served (R135). -/
def execTrapResolution (s : State) : Res :=
  match s.traps with
  | [] => .next s
  | r :: t =>
    let u : State := { s with traps := t }
    .next (if (s.ctx r.ctx).st = .trapped then u.serveTrap r else u)

/-! ## Supervisor cores -/

/-- A supervisor core's context: core 0 or 1 of a die (R13). -/
def supCtx (die core : Nat) : CtxId := ⟨die % 16, 64 + core % 2, 0, false⟩

/-- SUPERVISOR_TRAP: a supervisor core that runs or waits enters its firmware at the trap entry (R335). -/
def execSupervisorTrap (die core : Nat) (cause : BitVec 8) (tval : Word) (s : State) : Res :=
  let c := supCtx die core
  if (s.ctx c).st = .run || (s.ctx c).st = .wait then .next (s.takeTrap c cause tval false false [] 0#32) else .next s

/-- SUPERVISOR_CORE_RESTART: the service processors start a supervisor core, one stopped by HALT among them (R332). -/
def execSupervisorCoreRestart (die core : Nat) (pc : Word) (s : State) : Res :=
  let c := supCtx die core
  if ((s.ctx c).st = .halted || (s.ctx c).st = .idle) && pc &&& 3#64 = 0#64 then
    .next (s.onCtx c (fun x => { x with st := .run, wait := .none, r := { x.r with pc := pc, hints := [] } }))
  else .next s

/-! ## Page walks, runahead, monitors -/

/-- The TLB entry that a walk of a tenant's tables finds for an address (R202). -/
def State.walkEntry (s : State) (tn va : Nat) : Option TlbEntry :=
  match s.tenant tn with
  | none => none
  | some t =>
    match walkTable s va t.root levels with
    | none => none
    | some (pte, b) =>
      let loc := leafLoc pte b va
      some { tenant := tn, va := va / 2 ^ b * 2 ^ b, bits := b, pte := pte, win := windowOf t.windows (locPkg s loc) (loc % 2 ^ 56) }

/-- PAGE_WALK_COMPLETE: what the walk found goes into the TLBs, and the context's access issues again (R202). -/
def execPageWalkComplete (c : CtxId) (va : Word) (s : State) : Res :=
  let x := s.ctx c
  if x.st = .wait && x.wait == .walk va then
    .next ((if c.isSup then s else s.fillTlb c (s.walkEntry x.tn va.toNat)).wake c)
  else .next s

/-- RUNAHEAD_END: a context in the rotation whose runahead is over goes back to its checkpoint and traps (R207, R208). -/
def execRunaheadEnd (c : CtxId) (s : State) : Res := if (s.ctx c).st = .run then .next (s.endRunahead c) else .next s

/-- A monitor fires and the context that waits on it goes on (R323). -/
def State.fireOne (s : State) (c : CtxId) : State :=
  match (s.ctx c).monitor with
  | none => s
  | some m =>
    if m.fired then s
    else
      let t := s.onCtx c (fun x => { x with monitor := some { m with fired := true } })
      if (t.ctx c).wait == .retry .monitor || (t.ctx c).wait == .retry .supervisorItem then t.wake c else t

/-- MONITOR_FIRE: a write to the sector that another package performs at its home, or a registration lost there (R323). -/
def execMonitorFire (c : CtxId) (s : State) : Res := .next (s.fireOne c)

/-- MONITOR_TIMEOUT: 65,536 cycles after the wait began (R323). -/
def execMonitorTimeout (c : CtxId) (s : State) : Res :=
  match ((s.ctx c).monitor.bind (·.since)) with
  | some t => if t + 65536 ≤ s.cycle.toNat then .next (s.fireOne c) else .next s
  | none => .next s

/-! ## Eviction (R210) -/

/-- A page of a tenant: its window, its leaf entry, and its page address. -/
def State.pageAt (s : State) (tn : Nat) (va : Word) : Option (TenantSt × Window × Word × Nat) :=
  match s.tenant tn with
  | none => none
  | some t =>
    match t.windowAt va with
    | none => none
    | some w =>
      let page := va.toNat / 2 ^ w.bits * 2 ^ w.bits
      (s.pteOf tn page).map (fun e => (t, w, e, page))

/-- PAGE_EVICTION: a resident page of a T2 window gets its T2 entry, TLBs drop it, its lines are written back and dropped, and
PAGE_EVICT is posted (R210). -/
def execPageEviction (tenant : Nat) (va : Word) (handle : BitVec 44) (s : State) : Res :=
  match s.pageAt tenant va with
  | none => .next s
  | some (t, w, e, page) =>
    let k := bits (w.pte page) 55 12
    let frame := bits e 55 12
    if w.tier ≠ 2 || handle.toNat ≠ k || t.evictions.any (fun x => x.handle == k) || s.locked (ownLoc (frame * 4096)) (2 ^ w.bits) then .next s
    else
      let s1 := (s.mapPage tenant page (w.pte page).toNat w.bits).tlbPage tenant page
      let s2 := (s1.dropLines (ownLoc (frame * 4096)) (2 ^ w.bits)).purge (ownLoc (frame * 4096)) (2 ^ w.bits)
      let s3 := s2.onTenant tenant (fun x => { x with evictions := enq x.evictions ⟨k, BitVec.ofNat 64 page, frame, w.bits⟩ })
      .next (s3.post tenant 0x0019#16 0#8 0#32 0 (xferDetail k w.bits))

/-! ## Migration (R211 to R213) -/

/-- The entry of a page that goes to a frame of a window: the window's home attribute and tier, a T2 window's frames being T0; the page's
permissions stay (R209, R210). -/
def Window.moved (w : Window) (f : Nat) (e : Word) : Word := w.leaf (w.ppn f) (if w.tier = 1 then 1 else 0) (e.toNat % 8)

/-- The pages of a window's virtual range. -/
def Window.count (w : Window) : Nat := w.length / 2 ^ w.bits

/-- Whether a frame of a window is free for a page: it is a spare one of the window or the page's own, and no page of the tenant, eviction or
migration holds it. -/
def State.frameFree (s : State) (t : TenantSt) (own : Option Nat) (w : Window) (f : Nat) : Bool :=
  let loc := leafLoc (w.moved f 0#64) w.bits 0
  (decide (own = some f)
      || (List.range ((w.pend - w.pbase) / w.unit - w.count)).any (fun i => decide (f = w.frame (w.count + i)) && decide (f < w.pend)))
    && t.windows.all (fun x => !x.2.valid || (List.range x.2.count).all (fun i =>
        match walkTable s (x.2.va.toNat + i * 2 ^ x.2.bits) t.root levels with
        | some (e, b) => !overlaps (leafLoc e b 0) (2 ^ b) loc (2 ^ w.bits)
        | none => true))
    && !t.evictions.any (fun x => overlaps (ownLoc (x.frame * 4096)) (2 ^ x.bits) loc (2 ^ w.bits))
    && !s.migrations.any (fun m => overlaps m.dst m.size loc (2 ^ w.bits))

/-- Whether pages of a window may move to frames of another: neither is stitched or a SHIP window, the page sizes agree, and a T2 window's
pages stay in its own frames (R209). -/
def Window.takes (w v : Window) : Bool :=
  !v.ship && !v.stitch && !w.ship && !w.stitch && v.valid && v.bits == w.bits && (v == w || (v.tier != 2 && w.tier != 2))

/-- PAGE_MIGRATION: the page's home slices lock it and its lines are flushed; the copy to the destination frame begins (R209, R211). -/
def execPageMigration (tenant : Nat) (va : Word) (window : Nat) (dst : BitVec 44) (s : State) : Res :=
  match s.pageAt tenant va with
  | none => .next s
  | some (t, w, e, page) =>
    let v := SMap.look {} t.windows window
    let src := leafLoc e w.bits page
    let own := if v == w then some (w.frame (w.pageOf page)) else none
    if !w.takes v || s.locked src (2 ^ w.bits) || !s.frameFree t own v dst.toNat then .next s
    else
      let n := v.moved dst.toNat e
      let m : Migration :=
        { tenant := tenant, va := BitVec.ofNat 64 page, src := src, dst := leafLoc n w.bits page, size := 2 ^ w.bits, entry := n }
      .next ({ s.dropLines src (2 ^ w.bits) with migrations := enq s.migrations m } : State)

/-- Where a location has moved to. -/
def Migration.move (m : Migration) (loc : Nat) : Nat := if m.src ≤ loc ∧ loc < m.src + m.size then loc - m.src + m.dst else loc

/-- Where a unit of memory of `u` bytes has moved to, by number. -/
def Migration.moveUnit (m : Migration) (u k : Nat) : Nat := if m.src ≤ u * k ∧ u * k < m.src + m.size then (m.move (u * k)) / u else k

/-- What a counter's bound launches and domains hold of locations follows the page. -/
def Migration.moveLaunch (m : Migration) (l : LaunchSt) : LaunchSt :=
  { l with inputs := l.inputs.map (fun e => (m.move e.1, e.2)), queued := l.queued.map (fun e => (m.move e.1, e.2)) }

/-- What a domain record holds of locations follows the page. -/
def Migration.moveDomain (m : Migration) (d : DomRec) : DomRec :=
  { d with ranges := d.ranges.map (fun r => { r with parts := r.parts.map (fun p => (m.move p.1, p.2)) }),
           deferred := d.deferred.map (fun e => { e with loc := m.move e.loc }) }

/-- What a die's slices hold of the page follows it; nothing of the source is exported any more (R211). -/
def Migration.moveDie (m : Migration) (d : DieSt) : DieSt :=
  let inside (u k : Nat) : Bool := decide (m.src ≤ u * k) && decide (u * k < m.src + m.size)
  { d with
    exported := without d.exported (inside 512), foreign := d.foreign.foldl (fun l c => insNat l (m.moveUnit 128 c)) [],
    young := d.young.map (fun y => { y with sector := m.moveUnit 128 y.sector }),
    strong := d.strong.foldl (fun l e => SMap.put none l (m.moveUnit 8 e.1) (e.2.map (fun x => { x with loc := m.move x.loc }))) [],
    tags := d.tags.map (fun t => (t.1, m.moveUnit 128 t.2.1, t.2.2)),
    records := d.records.map (fun e => (e.1, e.2.map m.moveDomain)) }

/-- Everything that names bytes of the page by their location follows it: the requests that wait or are on their way, and what is bound
to its counters (R211 step 5). -/
def State.moveNames (s : State) (m : Migration) : State :=
  let s1 : State := { s with
    counters := s.counters.foldl (fun l e => SMap.put {} l (m.move e.1) e.2) [],
    launches := s.launches.map (fun e => (e.1, e.2.map m.moveLaunch)),
    net := s.net.map (fun w => { w with loc := m.move w.loc }),
    dies := s.dies.map (fun e => (e.1, m.moveDie e.2)),
    cores := s.cores.map (fun e => (e.1, { e.2 with channels := e.2.channels.map (fun h => (h.1, { h.2 with
      copies := h.2.copies.map (fun c => { c with counterLoc := m.move c.counterLoc, stampLoc := m.move c.stampLoc }) })) })) }
  s1.onAll (fun _ x => match x.wait with | .retry (.counter _) => true | _ => false)
    (fun _ x => match x.wait with
      | .retry (.counter l) => { x with wait := .retry (.counter (m.move l)) }
      | _ => x)

/-- MIGRATION_SWITCH: the copy has ended well: the bytes are at the destination, the entry names it, TLBs drop the page, waiting and
later requests go to the destination, and the source's copies are purged (R211).  A poisoned source does not switch (R213). -/
def execMigrationSwitch (index : Nat) (s : State) : Res :=
  match s.migrations[index]? with
  | none => .next s
  | some m =>
    match s.pteOf m.tenant m.va.toNat with
    | none => .next s
    | some _ =>
      if s.poisoned m.src m.size then .next s
      else
        let s0 : State := { s with migrations := s.migrations.eraseIdx index }
        let s1 := s0.moveNames m
        let s2 := s1.applyWrite m.dst (s.bytesAt m.src m.size) (hashSlice (m.dst % 2 ^ 56) 0#64) .local
        let s3 := (s2.mapPage m.tenant m.va.toNat m.entry.toNat (Nat.log2 m.size)).tlbPage m.tenant m.va.toNat
        let s4 := (s3.purge m.src m.size).loseMonitors (fun _ x => overlaps m.src m.size (x.sector * 128) 128)
        .next (s4.wakeWhy .migration)

/-- MIGRATION_ABORT: the copy has met a fault or poison at a source address: the lock is released, waiting requests are performed at
the source, and the supervisor receives a record (R213). -/
def execMigrationAbort (index addr : Nat) (s : State) : Res :=
  match s.migrations[index]? with
  | none => .next s
  | some m =>
    if overlaps m.src m.size addr 1 then
      .next ((({ s with migrations := s.migrations.eraseIdx index } : State).wakeWhy .migration).send
        (.record "COPY_FAULT" m.va.toNat addr))
    else .next s

end Sys2Proof.Machine
end

