-- ==== Sys2Proof/Machine/Vec.lean ====
section
/-! DEFINITION. The element model of the vector unit: groups, body, masks, overlap, and the completion of a vector instruction
(R265, R266, R337 to R341, R366). -/

namespace Sys2Proof.Machine

/-- SEW in bits (Table 10.6). -/
def Regs.sew (r : Regs) : Nat := 8 * 2 ^ bits r.vtype 2 0

/-- LMUL (Table 10.6). -/
def Regs.lmul (r : Regs) : Nat := 2 ^ bits r.vtype 5 3

/-- VLMAX (R266). -/
def Regs.vlmax (r : Regs) : Nat := r.lmul * vlenBits / r.sew

/-- A vector operand: first register, EEW in bits, and EMUL in sixteenths (R340). -/
structure VGrp where
  base : Nat
  eew : Nat
  e16 : Nat
deriving DecidableEq, Repr, Inhabited

/-- The operand of an EEW that a field names (R340). -/
def Regs.grp (r : Regs) (n : RegNo) (eew : Nat) : VGrp := ⟨n.toNat, eew, 16 * r.lmul * eew / r.sew⟩

/-- A single mask register (R338). -/
def maskGrp (n : RegNo) : VGrp := ⟨n.toNat, 1, 16⟩

/-- The legal cases of R340. -/
def VGrp.ok (g : VGrp) : Bool := decide (1 ≤ g.e16) && decide (g.e16 ≤ 128) && decide (g.base % max 1 (g.e16 / 16) = 0)

/-- The registers of a group. -/
def VGrp.regs (g : VGrp) : List Nat := (List.range (max 1 (g.e16 / 16))).map (fun i => g.base + i)

/-- Whether two groups share a register. -/
def VGrp.meets (a b : VGrp) : Bool := a.regs.any (fun n => b.regs.contains n)

/-- The kinds of destination of R341. -/
inductive VDest where
  /-- Elements, which may name exactly a source's group. -/
  | plain
  /-- A mask register. -/
  | mask
  /-- No overlap with any source, nor with v0 when masked. -/
  | apart
deriving DecidableEq, Repr, Inhabited

/-- The overlap rule (R341). -/
def overlapOk (k : VDest) (d : VGrp) (src : List VGrp) (m : BitVec 1) : Bool :=
  src.all (fun g => !d.meets g || (match k with
    | .plain => d == g
    | .mask => decide (g.e16 ≤ 16) || d.base == g.base
    | .apart => false))
  && (m = 0#1 || !d.regs.contains 0 || k == .mask)

/-- Element i of w bits in the group that starts at register n (R265). -/
def Regs.elem (r : Regs) (n w i : Nat) : Nat := ((r.vget (n + i * w / 1024)).toNat >>> (i * w % 1024)) % 2 ^ w

/-- Write element i of w bits of the group at n; every other bit is kept. -/
def Regs.setElem (r : Regs) (n w i x : Nat) : Regs :=
  let k := n + i * w / 1024
  let o := i * w % 1024
  r.vset k ((r.vget k &&& ~~~(BitVec.ofNat 1024 (2 ^ w - 1) <<< o)) ||| (BitVec.ofNat 1024 (x % 2 ^ w) <<< o))

/-- Bit i of a mask register (R338). -/
def Regs.maskBit (r : Regs) (n : RegNo) (i : Nat) : Bool := (r.vget n.toNat).getLsbD i

/-- Whether a body element is active (R337). -/
def Regs.active (r : Regs) (m : BitVec 1) (i : Nat) : Bool := m = 0#1 || r.maskBit 0#5 i

/-- The number of body elements: vl, no element standing beyond VLMAX (R337). -/
def Regs.count (r : Regs) : Nat := min r.vl.toNat r.vlmax

/-- The body elements at or above vstart (R337). -/
def Regs.body (r : Regs) : List Nat := (List.range r.count).filter (fun i => decide (r.vstart.toNat ≤ i))

/-- The active elements at or above vstart, rising (R337). -/
def Regs.actives (r : Regs) (m : BitVec 1) : List Nat := r.body.filter (r.active m)

/-- Write the elements of a list, computed from the registers as they were (R341). -/
def Regs.putElems (r : Regs) (n w : Nat) (l : List Nat) (f : Nat → Nat) : Regs := l.foldl (fun q i => q.setElem n w i (f i)) r

/-- Third operand: a vector register or a scalar one (R351). -/
inductive VOp where
  | vec (n : RegNo)
  | scal (n : RegNo)
deriving DecidableEq, Repr, Inhabited

/-- The value X of element i (R351). -/
def Regs.xval (r : Regs) (b : VOp) (w i : Nat) : Nat :=
  match b with
  | .vec n => r.elem n.toNat w i
  | .scal n => (r.get n).toNat % 2 ^ w

/-- The group a third operand reads. -/
def VOp.groups (b : VOp) (r : Regs) (eew : Nat) : List VGrp :=
  match b with
  | .vec n => [r.grp n eew]
  | .scal _ => []

/-- Whether every group is legal and the overlap rule holds. -/
def groupsOk (k : VDest) (d : VGrp) (src : List VGrp) (m : BitVec 1) : Bool := d.ok && src.all VGrp.ok && overlapOk k d src m

/-- A vector instruction that accesses no memory: its own legality, then its effect on the registers; vstart becomes 0; it leaves
the rotation when LMUL is above 1 or it always does (R339, Table 7.1). -/
def State.vec (s : State) (w : IWord) (legal : Bool) (long : Bool) (f : Regs → Regs) : Res :=
  s.issue w legal (fun s =>
    let r := { f s.cx.r with vstart := 0#64 }
    .next (if long || decide (1 < s.cx.r.lmul) then s.finishLong r else s.finish r))

/-- One that completes within the rotation at every LMUL: mask instructions (R362). -/
def State.vecShort (s : State) (w : IWord) (legal : Bool) (f : Regs → Regs) : Res :=
  s.issue w legal (fun s => .next (s.finish { f s.cx.r with vstart := 0#64 }))

/-! ## Setting the vector length (R342, R343) -/

/-- The effect of VSETL and VSETLI (R342): `avl` of the old registers, the maximum at hand. -/
def State.setVl (s : State) (w : IWord) (d : RegNo) (m t : BitVec 1) (l sw : BitVec 3) (avl : Regs → Nat → Nat) : Res :=
  s.issue w (okConfig l sw) (fun s =>
    let r := s.cx.r
    let mx := 2 ^ l.toNat * vlenBits / (8 * 2 ^ sw.toNat)
    let n : Word := BitVec.ofNat 64 (min (avl r mx) mx)
    .next (s.finish ({ r with vtype := (m ++ t ++ l ++ sw : BitVec 8).setWidth 64, vl := n, vstart := 0#64 }.set d n)))

/-- VSETL: the length asked for is s[a], VLMAX when a is s0 and d is not, vl when both are s0 (R342). -/
def execVsetl (d a : RegNo) (m t : BitVec 1) (l sw : BitVec 3) (s : State) : Res :=
  s.setVl (Enc.vsetl d a m t l sw) d m t l sw (fun r mx =>
    if a ≠ 0#5 then (r.get a).toNat else if d ≠ 0#5 then mx else r.vl.toNat)

/-- VSETLI: the length asked for is the immediate (R342). -/
def execVsetli (d : RegNo) (u : BitVec 5) (m t : BitVec 1) (l sw : BitVec 3) (s : State) : Res :=
  s.setVl (Enc.vsetli d u m t l sw) d m t l sw (fun _ _ => u.toNat)

end Sys2Proof.Machine
end

