-- ==== Sys2Proof/Machine/VecFp.lean ====
section
/-! DEFINITION. Vector floating point: majors 0x43 and 0x44 (R355, R356, Table 12.7). -/

namespace Sys2Proof.Machine

/-- The format of a SEW: FP32 or BF16; none for 8 and 64 (R355). -/
def sewFmt (sew : Nat) : Option Fmt := if sew = 32 then some fp32 else if sew = 16 then some bf16 else none

/-- A vector floating-point instruction: f of the format, A, X and the old element, rounded by RNE or HMOD; FFLAGS gets the union
of the active elements' flags (R356). -/
def State.vfp (s : State) (w : IWord) (d a : RegNo) (b : List VOp) (m : BitVec 1) (k : VDest) (long : Bool)
    (f : Rm → Bool → Fmt → Nat → Nat → Nat → FRes) : Res :=
  let r := s.cx.r
  let n := r.sew
  let dg := if k == .mask then maskGrp d else r.grp d n
  s.vec w ((sewFmt n).isSome && groupsOk k dg (r.grp a n :: b.flatMap (fun x => x.groups r n)) m) long (fun r =>
    let fm := (sewFmt n).getD fp32
    let g (i : Nat) : FRes := f r.rm r.sat fm (r.elem a.toNat n i) ((b.head?.map (fun x => r.xval x n i)).getD 0) (r.elem d.toNat n i)
    let l := r.actives m
    (r.putElems d.toNat dg.eew l (fun i => (g i).1)).flag (l.foldl (fun x i => x ||| (g i).2) 0#5))

/-- VFSGNJ: A with X's sign bit; a NaN A gives the canonical NaN (Table 12.7). -/
def Fmt.signJoin (f : Fmt) (a x : Nat) : FRes :=
  if (f.dec a).isNan then (f.nan, nvOf [f.dec a]) else (a % f.sign + f.sgn (decide (f.sign ≤ x % 2 ^ f.bits)), 0#5)

/-- The element of VFADD: A + X (Table 12.7). -/
def vfaddF (rm : Rm) (sat : Bool) (f : Fmt) (x y _o : Nat) : FRes := f.add rm sat x y

/-- VFADD, vector operand: vd[i] := A + X (Table 12.7). -/
def execVfaddVv (d a b : RegNo) (m : BitVec 1) (s : State) : Res :=
  s.vfp (Enc.vfaddVv d a b m) d a [.vec b] m .plain false vfaddF

/-- VFADD, scalar operand: vd[i] := A + X (Table 12.7). -/
def execVfaddVx (d a x : RegNo) (m : BitVec 1) (s : State) : Res :=
  s.vfp (Enc.vfaddVx d a x m) d a [.scal x] m .plain false vfaddF

/-- The element of VFSUB: A - X (Table 12.7). -/
def vfsubF (rm : Rm) (sat : Bool) (f : Fmt) (x y _o : Nat) : FRes := f.sub rm sat x y

/-- VFSUB, vector operand: vd[i] := A - X (Table 12.7). -/
def execVfsubVv (d a b : RegNo) (m : BitVec 1) (s : State) : Res :=
  s.vfp (Enc.vfsubVv d a b m) d a [.vec b] m .plain false vfsubF

/-- VFSUB, scalar operand: vd[i] := A - X (Table 12.7). -/
def execVfsubVx (d a x : RegNo) (m : BitVec 1) (s : State) : Res :=
  s.vfp (Enc.vfsubVx d a x m) d a [.scal x] m .plain false vfsubF

/-- The element of VFMUL: A * X (Table 12.7). -/
def vfmulF (rm : Rm) (sat : Bool) (f : Fmt) (x y _o : Nat) : FRes := f.mul rm sat x y

/-- VFMUL, vector operand: vd[i] := A * X (Table 12.7). -/
def execVfmulVv (d a b : RegNo) (m : BitVec 1) (s : State) : Res :=
  s.vfp (Enc.vfmulVv d a b m) d a [.vec b] m .plain false vfmulF

/-- VFMUL, scalar operand: vd[i] := A * X (Table 12.7). -/
def execVfmulVx (d a x : RegNo) (m : BitVec 1) (s : State) : Res :=
  s.vfp (Enc.vfmulVx d a x m) d a [.scal x] m .plain false vfmulF

/-- The element of VFDIV: A / X (Table 12.7). -/
def vfdivF (rm : Rm) (sat : Bool) (f : Fmt) (x y _o : Nat) : FRes := f.div rm sat x y

/-- VFDIV, vector operand: vd[i] := A / X (Table 12.7). -/
def execVfdivVv (d a b : RegNo) (m : BitVec 1) (s : State) : Res :=
  s.vfp (Enc.vfdivVv d a b m) d a [.vec b] m .plain true vfdivF

/-- VFDIV, scalar operand: vd[i] := A / X (Table 12.7). -/
def execVfdivVx (d a x : RegNo) (m : BitVec 1) (s : State) : Res :=
  s.vfp (Enc.vfdivVx d a x m) d a [.scal x] m .plain true vfdivF

/-- The element of VFMIN: as FMIN (Table 12.7). -/
def vfminF (_rm : Rm) (_sat : Bool) (f : Fmt) (x y _o : Nat) : FRes := f.minMax false x y

/-- VFMIN, vector operand: vd[i] := as FMIN (Table 12.7). -/
def execVfminVv (d a b : RegNo) (m : BitVec 1) (s : State) : Res :=
  s.vfp (Enc.vfminVv d a b m) d a [.vec b] m .plain false vfminF

/-- VFMIN, scalar operand: vd[i] := as FMIN (Table 12.7). -/
def execVfminVx (d a x : RegNo) (m : BitVec 1) (s : State) : Res :=
  s.vfp (Enc.vfminVx d a x m) d a [.scal x] m .plain false vfminF

/-- The element of VFMAX: as FMAX (Table 12.7). -/
def vfmaxF (_rm : Rm) (_sat : Bool) (f : Fmt) (x y _o : Nat) : FRes := f.minMax true x y

/-- VFMAX, vector operand: vd[i] := as FMAX (Table 12.7). -/
def execVfmaxVv (d a b : RegNo) (m : BitVec 1) (s : State) : Res :=
  s.vfp (Enc.vfmaxVv d a b m) d a [.vec b] m .plain false vfmaxF

/-- VFMAX, scalar operand: vd[i] := as FMAX (Table 12.7). -/
def execVfmaxVx (d a x : RegNo) (m : BitVec 1) (s : State) : Res :=
  s.vfp (Enc.vfmaxVx d a x m) d a [.scal x] m .plain false vfmaxF

/-- The element of VFMACC: vd[i] + A * X, fused (Table 12.7). -/
def vfmaccF (rm : Rm) (sat : Bool) (f : Fmt) (x y o : Nat) : FRes := f.fma rm sat false o x y

/-- VFMACC, vector operand: vd[i] := vd[i] + A * X, fused (Table 12.7). -/
def execVfmaccVv (d a b : RegNo) (m : BitVec 1) (s : State) : Res :=
  s.vfp (Enc.vfmaccVv d a b m) d a [.vec b] m .plain false vfmaccF

/-- VFMACC, scalar operand: vd[i] := vd[i] + A * X, fused (Table 12.7). -/
def execVfmaccVx (d a x : RegNo) (m : BitVec 1) (s : State) : Res :=
  s.vfp (Enc.vfmaccVx d a x m) d a [.scal x] m .plain false vfmaccF

/-- The element of VFNMSAC: vd[i] - A * X, fused (Table 12.7). -/
def vfnmsacF (rm : Rm) (sat : Bool) (f : Fmt) (x y o : Nat) : FRes := f.fma rm sat true o x y

/-- VFNMSAC, vector operand: vd[i] := vd[i] - A * X, fused (Table 12.7). -/
def execVfnmsacVv (d a b : RegNo) (m : BitVec 1) (s : State) : Res :=
  s.vfp (Enc.vfnmsacVv d a b m) d a [.vec b] m .plain false vfnmsacF

/-- VFNMSAC, scalar operand: vd[i] := vd[i] - A * X, fused (Table 12.7). -/
def execVfnmsacVx (d a x : RegNo) (m : BitVec 1) (s : State) : Res :=
  s.vfp (Enc.vfnmsacVx d a x m) d a [.scal x] m .plain false vfnmsacF

/-- The element of VFEQ: mask bit A = X, quiet (Table 12.7). -/
def vfeqF (_rm : Rm) (_sat : Bool) (f : Fmt) (x y _o : Nat) : FRes := cmpRes (f.feq x y)

/-- VFEQ, vector operand: vd[i] := mask bit A = X, quiet (Table 12.7). -/
def execVfeqVv (d a b : RegNo) (m : BitVec 1) (s : State) : Res :=
  s.vfp (Enc.vfeqVv d a b m) d a [.vec b] m .mask false vfeqF

/-- VFEQ, scalar operand: vd[i] := mask bit A = X, quiet (Table 12.7). -/
def execVfeqVx (d a x : RegNo) (m : BitVec 1) (s : State) : Res :=
  s.vfp (Enc.vfeqVx d a x m) d a [.scal x] m .mask false vfeqF

/-- The element of VFLT: mask bit A < X, signalling (Table 12.7). -/
def vfltF (_rm : Rm) (_sat : Bool) (f : Fmt) (x y _o : Nat) : FRes := cmpRes (f.flt x y)

/-- VFLT, vector operand: vd[i] := mask bit A < X, signalling (Table 12.7). -/
def execVfltVv (d a b : RegNo) (m : BitVec 1) (s : State) : Res :=
  s.vfp (Enc.vfltVv d a b m) d a [.vec b] m .mask false vfltF

/-- VFLT, scalar operand: vd[i] := mask bit A < X, signalling (Table 12.7). -/
def execVfltVx (d a x : RegNo) (m : BitVec 1) (s : State) : Res :=
  s.vfp (Enc.vfltVx d a x m) d a [.scal x] m .mask false vfltF

/-- The element of VFLE: mask bit A ≤ X, signalling (Table 12.7). -/
def vfleF (_rm : Rm) (_sat : Bool) (f : Fmt) (x y _o : Nat) : FRes := cmpRes (f.fle x y)

/-- VFLE, vector operand: vd[i] := mask bit A ≤ X, signalling (Table 12.7). -/
def execVfleVv (d a b : RegNo) (m : BitVec 1) (s : State) : Res :=
  s.vfp (Enc.vfleVv d a b m) d a [.vec b] m .mask false vfleF

/-- VFLE, scalar operand: vd[i] := mask bit A ≤ X, signalling (Table 12.7). -/
def execVfleVx (d a x : RegNo) (m : BitVec 1) (s : State) : Res :=
  s.vfp (Enc.vfleVx d a x m) d a [.scal x] m .mask false vfleF

/-- The element of VFSGNJ: A with the sign of X (Table 12.7). -/
def vfsgnjF (_rm : Rm) (_sat : Bool) (f : Fmt) (x y _o : Nat) : FRes := f.signJoin x y

/-- VFSGNJ, vector operand: vd[i] := A with the sign of X (Table 12.7). -/
def execVfsgnjVv (d a b : RegNo) (m : BitVec 1) (s : State) : Res :=
  s.vfp (Enc.vfsgnjVv d a b m) d a [.vec b] m .plain false vfsgnjF

/-- VFSGNJ, scalar operand: vd[i] := A with the sign of X (Table 12.7). -/
def execVfsgnjVx (d a x : RegNo) (m : BitVec 1) (s : State) : Res :=
  s.vfp (Enc.vfsgnjVx d a x m) d a [.scal x] m .plain false vfsgnjF

/-- VFSQRT: vd[i] := the square root of A (Table 12.7). -/
def execVfsqrt (d a : RegNo) (m : BitVec 1) (s : State) : Res :=
  s.vfp (Enc.vfsqrt d a m) d a [] m .plain true (fun rm sat f x _ _ => f.sqrt rm sat x)

/-- VFABS: vd[i] := as FABS (Table 12.7). -/
def execVfabs (d a : RegNo) (m : BitVec 1) (s : State) : Res :=
  s.vfp (Enc.vfabs d a m) d a [] m .plain false (fun _ _ f x _ _ => f.signOp false x)

/-- VFNEG: vd[i] := as FNEG (Table 12.7). -/
def execVfneg (d a : RegNo) (m : BitVec 1) (s : State) : Res :=
  s.vfp (Enc.vfneg d a m) d a [] m .plain false (fun _ _ f x _ _ => f.signOp true x)

end Sys2Proof.Machine
end

