-- ==== Sys2Proof/Machine/VecInt.lean ====
section
/-! DEFINITION. Vector integer instructions: majors 0x41 and 0x42 (R351 to R354, Tables 12.5 and 12.6). -/

namespace Sys2Proof.Machine

/-- The signed value of an element. -/
def sv (w x : Nat) : Int := signedN (x % 2 ^ w) w

/-- An exact integer as an element of w bits, wrapped or, with SAT, clamped (R351, R354). -/
def eres (sat : Bool) (w : Nat) (x : Int) : Nat := (intRes sat w x).toNat

/-- An element's value, unsigned with .u (Table 12.5). -/
def uv (u : BitVec 1) (w x : Nat) : Int := if u = 1#1 then (x % 2 ^ w : Nat) else sv w x

/-- Sat of Table 12.5: signed, or unsigned with .u. -/
def satU (u : BitVec 1) (w : Nat) (x : Int) : Nat :=
  (BitVec.ofInt w (if u = 1#1 then satNat w x else satInt w x)).toNat

/-- A over 2^sh, rounded to an integer, nearest, ties to even (R353). -/
def shiftRne (a : Int) (sh : Nat) : Int :=
  let q := a / (2 ^ sh : Nat)
  let rem := a % (2 ^ sh : Nat)
  if 2 * rem > (2 ^ sh : Nat) ∨ (2 * rem = (2 ^ sh : Nat) ∧ q % 2 ≠ 0) then q + 1 else q

/-- A vector-integer instruction whose operands and result have SEW bits: f of SEW, A, X and the old element, under SAT. -/
def State.vint (s : State) (w : IWord) (d a : RegNo) (b : VOp) (m : BitVec 1) (k : VDest) (f : Bool → Nat → Nat → Nat → Nat → Nat) : Res :=
  let r := s.cx.r
  let n := r.sew
  let dg := if k == .mask then maskGrp d else r.grp d n
  s.vec w (groupsOk k dg (r.grp a n :: b.groups r n) m) false (fun r =>
    r.putElems d.toNat dg.eew (r.actives m) (fun i =>
      f r.sat n (r.elem a.toNat n i) (r.xval b n i) (r.elem d.toNat n i)))

/-- A width-changing instruction: destination and first operand of dw and aw bits, no overlap allowed (R352, R353). -/
def State.vwide (s : State) (w : IWord) (d a : RegNo) (b : List VOp) (m : BitVec 1) (ok : Bool) (dw aw : Nat) (f : Nat → Nat → Nat) : Res :=
  let r := s.cx.r
  let n := r.sew
  s.vec w (ok && groupsOk .apart (r.grp d dw) (r.grp a aw :: b.flatMap (fun x => x.groups r n)) m) false (fun r =>
    r.putElems d.toNat dw (r.actives m) (fun i =>
      f (r.elem a.toNat aw i) ((b.head?.map (fun x => r.xval x n i)).getD 0)))

/-- VWADD, VWMUL and VNCLIP are illegal at SEW 64 and at LMUL 8 (Table 12.6). -/
def Regs.canWiden (r : Regs) : Bool := decide (r.sew ≠ 64) && decide (r.lmul ≠ 8)

/-- The element of VADD: A + X (Table 12.5). -/
def vaddF (sat : Bool) (w x y _o : Nat) : Nat := eres sat w (sv w x + sv w y)

/-- VADD, vector operand: vd[i] := A + X (Table 12.5). -/
def execVaddVv (d a b : RegNo) (m : BitVec 1) (s : State) : Res :=
  s.vint (Enc.vaddVv d a b m) d a (.vec b) m .plain vaddF

/-- VADD, scalar operand: vd[i] := A + X (Table 12.5). -/
def execVaddVx (d a x : RegNo) (m : BitVec 1) (s : State) : Res :=
  s.vint (Enc.vaddVx d a x m) d a (.scal x) m .plain vaddF

/-- The element of VSUB: A - X (Table 12.5). -/
def vsubF (sat : Bool) (w x y _o : Nat) : Nat := eres sat w (sv w x - sv w y)

/-- VSUB, vector operand: vd[i] := A - X (Table 12.5). -/
def execVsubVv (d a b : RegNo) (m : BitVec 1) (s : State) : Res :=
  s.vint (Enc.vsubVv d a b m) d a (.vec b) m .plain vsubF

/-- VSUB, scalar operand: vd[i] := A - X (Table 12.5). -/
def execVsubVx (d a x : RegNo) (m : BitVec 1) (s : State) : Res :=
  s.vint (Enc.vsubVx d a x m) d a (.scal x) m .plain vsubF

/-- The element of VRSUB: X - A (Table 12.5). -/
def vrsubF (sat : Bool) (w x y _o : Nat) : Nat := eres sat w (sv w y - sv w x)

/-- VRSUB, vector operand: vd[i] := X - A (Table 12.5). -/
def execVrsubVv (d a b : RegNo) (m : BitVec 1) (s : State) : Res :=
  s.vint (Enc.vrsubVv d a b m) d a (.vec b) m .plain vrsubF

/-- VRSUB, scalar operand: vd[i] := X - A (Table 12.5). -/
def execVrsubVx (d a x : RegNo) (m : BitVec 1) (s : State) : Res :=
  s.vint (Enc.vrsubVx d a x m) d a (.scal x) m .plain vrsubF

/-- The element of VMUL: the low SEW bits of A * X (Table 12.5). -/
def vmulF (sat : Bool) (w x y _o : Nat) : Nat := eres sat w (sv w x * sv w y)

/-- VMUL, vector operand: vd[i] := the low SEW bits of A * X (Table 12.5). -/
def execVmulVv (d a b : RegNo) (m : BitVec 1) (s : State) : Res :=
  s.vint (Enc.vmulVv d a b m) d a (.vec b) m .plain vmulF

/-- VMUL, scalar operand: vd[i] := the low SEW bits of A * X (Table 12.5). -/
def execVmulVx (d a x : RegNo) (m : BitVec 1) (s : State) : Res :=
  s.vint (Enc.vmulVx d a x m) d a (.scal x) m .plain vmulF

/-- The element of VMACC: vd[i] + A * X (Table 12.5). -/
def vmaccF (sat : Bool) (w x y o : Nat) : Nat := eres sat w (sv w o + sv w x * sv w y)

/-- VMACC, vector operand: vd[i] := vd[i] + A * X (Table 12.5). -/
def execVmaccVv (d a b : RegNo) (m : BitVec 1) (s : State) : Res :=
  s.vint (Enc.vmaccVv d a b m) d a (.vec b) m .plain vmaccF

/-- VMACC, scalar operand: vd[i] := vd[i] + A * X (Table 12.5). -/
def execVmaccVx (d a x : RegNo) (m : BitVec 1) (s : State) : Res :=
  s.vint (Enc.vmaccVx d a x m) d a (.scal x) m .plain vmaccF

/-- The element of VNMSAC: vd[i] - A * X (Table 12.5). -/
def vnmsacF (_sat : Bool) (w x y o : Nat) : Nat := eres false w (sv w o - sv w x * sv w y)

/-- VNMSAC, vector operand: vd[i] := vd[i] - A * X (Table 12.5). -/
def execVnmsacVv (d a b : RegNo) (m : BitVec 1) (s : State) : Res :=
  s.vint (Enc.vnmsacVv d a b m) d a (.vec b) m .plain vnmsacF

/-- VNMSAC, scalar operand: vd[i] := vd[i] - A * X (Table 12.5). -/
def execVnmsacVx (d a x : RegNo) (m : BitVec 1) (s : State) : Res :=
  s.vint (Enc.vnmsacVx d a x m) d a (.scal x) m .plain vnmsacF

/-- The element of VAND: A AND X (Table 12.5). -/
def vandF (_sat : Bool) (_w x y _o : Nat) : Nat := x &&& y

/-- VAND, vector operand: vd[i] := A AND X (Table 12.5). -/
def execVandVv (d a b : RegNo) (m : BitVec 1) (s : State) : Res :=
  s.vint (Enc.vandVv d a b m) d a (.vec b) m .plain vandF

/-- VAND, scalar operand: vd[i] := A AND X (Table 12.5). -/
def execVandVx (d a x : RegNo) (m : BitVec 1) (s : State) : Res :=
  s.vint (Enc.vandVx d a x m) d a (.scal x) m .plain vandF

/-- The element of VOR: A OR X (Table 12.5). -/
def vorF (_sat : Bool) (_w x y _o : Nat) : Nat := x ||| y

/-- VOR, vector operand: vd[i] := A OR X (Table 12.5). -/
def execVorVv (d a b : RegNo) (m : BitVec 1) (s : State) : Res :=
  s.vint (Enc.vorVv d a b m) d a (.vec b) m .plain vorF

/-- VOR, scalar operand: vd[i] := A OR X (Table 12.5). -/
def execVorVx (d a x : RegNo) (m : BitVec 1) (s : State) : Res :=
  s.vint (Enc.vorVx d a x m) d a (.scal x) m .plain vorF

/-- The element of VXOR: A XOR X (Table 12.5). -/
def vxorF (_sat : Bool) (_w x y _o : Nat) : Nat := x ^^^ y

/-- VXOR, vector operand: vd[i] := A XOR X (Table 12.5). -/
def execVxorVv (d a b : RegNo) (m : BitVec 1) (s : State) : Res :=
  s.vint (Enc.vxorVv d a b m) d a (.vec b) m .plain vxorF

/-- VXOR, scalar operand: vd[i] := A XOR X (Table 12.5). -/
def execVxorVx (d a x : RegNo) (m : BitVec 1) (s : State) : Res :=
  s.vint (Enc.vxorVx d a x m) d a (.scal x) m .plain vxorF

/-- The element of VSLL: A shifted left by X[log2(SEW)-1:0] (Table 12.5). -/
def vsllF (_sat : Bool) (w x y _o : Nat) : Nat := x <<< (y % w)

/-- VSLL, vector operand: vd[i] := A shifted left by X[log2(SEW)-1:0] (Table 12.5). -/
def execVsllVv (d a b : RegNo) (m : BitVec 1) (s : State) : Res :=
  s.vint (Enc.vsllVv d a b m) d a (.vec b) m .plain vsllF

/-- VSLL, scalar operand: vd[i] := A shifted left by X[log2(SEW)-1:0] (Table 12.5). -/
def execVsllVx (d a x : RegNo) (m : BitVec 1) (s : State) : Res :=
  s.vint (Enc.vsllVx d a x m) d a (.scal x) m .plain vsllF

/-- The element of VSRL: A shifted right, zeros in (Table 12.5). -/
def vsrlF (_sat : Bool) (w x y _o : Nat) : Nat := x >>> (y % w)

/-- VSRL, vector operand: vd[i] := A shifted right, zeros in (Table 12.5). -/
def execVsrlVv (d a b : RegNo) (m : BitVec 1) (s : State) : Res :=
  s.vint (Enc.vsrlVv d a b m) d a (.vec b) m .plain vsrlF

/-- VSRL, scalar operand: vd[i] := A shifted right, zeros in (Table 12.5). -/
def execVsrlVx (d a x : RegNo) (m : BitVec 1) (s : State) : Res :=
  s.vint (Enc.vsrlVx d a x m) d a (.scal x) m .plain vsrlF

/-- The element of VSRA: A shifted right, copies of the sign in (Table 12.5). -/
def vsraF (_sat : Bool) (w x y _o : Nat) : Nat := eres false w (sv w x / (2 ^ (y % w) : Nat))

/-- VSRA, vector operand: vd[i] := A shifted right, copies of the sign in (Table 12.5). -/
def execVsraVv (d a b : RegNo) (m : BitVec 1) (s : State) : Res :=
  s.vint (Enc.vsraVv d a b m) d a (.vec b) m .plain vsraF

/-- VSRA, scalar operand: vd[i] := A shifted right, copies of the sign in (Table 12.5). -/
def execVsraVx (d a x : RegNo) (m : BitVec 1) (s : State) : Res :=
  s.vint (Enc.vsraVx d a x m) d a (.scal x) m .plain vsraF

/-- The element of VMIN: the smaller, signed (Table 12.5). -/
def vminF (_sat : Bool) (w x y _o : Nat) : Nat := if sv w x ≤ sv w y then x else y

/-- VMIN, vector operand: vd[i] := the smaller, signed (Table 12.5). -/
def execVminVv (d a b : RegNo) (m : BitVec 1) (s : State) : Res :=
  s.vint (Enc.vminVv d a b m) d a (.vec b) m .plain vminF

/-- VMIN, scalar operand: vd[i] := the smaller, signed (Table 12.5). -/
def execVminVx (d a x : RegNo) (m : BitVec 1) (s : State) : Res :=
  s.vint (Enc.vminVx d a x m) d a (.scal x) m .plain vminF

/-- The element of VMAX: the larger, signed (Table 12.5). -/
def vmaxF (_sat : Bool) (w x y _o : Nat) : Nat := if sv w x ≤ sv w y then y else x

/-- VMAX, vector operand: vd[i] := the larger, signed (Table 12.5). -/
def execVmaxVv (d a b : RegNo) (m : BitVec 1) (s : State) : Res :=
  s.vint (Enc.vmaxVv d a b m) d a (.vec b) m .plain vmaxF

/-- VMAX, scalar operand: vd[i] := the larger, signed (Table 12.5). -/
def execVmaxVx (d a x : RegNo) (m : BitVec 1) (s : State) : Res :=
  s.vint (Enc.vmaxVx d a x m) d a (.scal x) m .plain vmaxF

/-- The element of VMINU: the smaller, unsigned (Table 12.5). -/
def vminuF (_sat : Bool) (_w x y _o : Nat) : Nat := if x ≤ y then x else y

/-- VMINU, vector operand: vd[i] := the smaller, unsigned (Table 12.5). -/
def execVminuVv (d a b : RegNo) (m : BitVec 1) (s : State) : Res :=
  s.vint (Enc.vminuVv d a b m) d a (.vec b) m .plain vminuF

/-- VMINU, scalar operand: vd[i] := the smaller, unsigned (Table 12.5). -/
def execVminuVx (d a x : RegNo) (m : BitVec 1) (s : State) : Res :=
  s.vint (Enc.vminuVx d a x m) d a (.scal x) m .plain vminuF

/-- The element of VMAXU: the larger, unsigned (Table 12.5). -/
def vmaxuF (_sat : Bool) (_w x y _o : Nat) : Nat := if x ≤ y then y else x

/-- VMAXU, vector operand: vd[i] := the larger, unsigned (Table 12.5). -/
def execVmaxuVv (d a b : RegNo) (m : BitVec 1) (s : State) : Res :=
  s.vint (Enc.vmaxuVv d a b m) d a (.vec b) m .plain vmaxuF

/-- VMAXU, scalar operand: vd[i] := the larger, unsigned (Table 12.5). -/
def execVmaxuVx (d a x : RegNo) (m : BitVec 1) (s : State) : Res :=
  s.vint (Enc.vmaxuVx d a x m) d a (.scal x) m .plain vmaxuF

/-- The element of VSEQ: mask bit A = X (Table 12.5). -/
def vseqF (_sat : Bool) (_w x y _o : Nat) : Nat := if x = y then 1 else 0

/-- VSEQ, vector operand: vd[i] := mask bit A = X (Table 12.5). -/
def execVseqVv (d a b : RegNo) (m : BitVec 1) (s : State) : Res :=
  s.vint (Enc.vseqVv d a b m) d a (.vec b) m .mask vseqF

/-- VSEQ, scalar operand: vd[i] := mask bit A = X (Table 12.5). -/
def execVseqVx (d a x : RegNo) (m : BitVec 1) (s : State) : Res :=
  s.vint (Enc.vseqVx d a x m) d a (.scal x) m .mask vseqF

/-- The element of VSNE: mask bit A ≠ X (Table 12.5). -/
def vsneF (_sat : Bool) (_w x y _o : Nat) : Nat := if x = y then 0 else 1

/-- VSNE, vector operand: vd[i] := mask bit A ≠ X (Table 12.5). -/
def execVsneVv (d a b : RegNo) (m : BitVec 1) (s : State) : Res :=
  s.vint (Enc.vsneVv d a b m) d a (.vec b) m .mask vsneF

/-- VSNE, scalar operand: vd[i] := mask bit A ≠ X (Table 12.5). -/
def execVsneVx (d a x : RegNo) (m : BitVec 1) (s : State) : Res :=
  s.vint (Enc.vsneVx d a x m) d a (.scal x) m .mask vsneF

/-- The element of VSLT: mask bit A < X, signed (Table 12.5). -/
def vsltF (_sat : Bool) (w x y _o : Nat) : Nat := if sv w x < sv w y then 1 else 0

/-- VSLT, vector operand: vd[i] := mask bit A < X, signed (Table 12.5). -/
def execVsltVv (d a b : RegNo) (m : BitVec 1) (s : State) : Res :=
  s.vint (Enc.vsltVv d a b m) d a (.vec b) m .mask vsltF

/-- VSLT, scalar operand: vd[i] := mask bit A < X, signed (Table 12.5). -/
def execVsltVx (d a x : RegNo) (m : BitVec 1) (s : State) : Res :=
  s.vint (Enc.vsltVx d a x m) d a (.scal x) m .mask vsltF

/-- The element of VSLTU: mask bit A < X, unsigned (Table 12.5). -/
def vsltuF (_sat : Bool) (_w x y _o : Nat) : Nat := if x < y then 1 else 0

/-- VSLTU, vector operand: vd[i] := mask bit A < X, unsigned (Table 12.5). -/
def execVsltuVv (d a b : RegNo) (m : BitVec 1) (s : State) : Res :=
  s.vint (Enc.vsltuVv d a b m) d a (.vec b) m .mask vsltuF

/-- VSLTU, scalar operand: vd[i] := mask bit A < X, unsigned (Table 12.5). -/
def execVsltuVx (d a x : RegNo) (m : BitVec 1) (s : State) : Res :=
  s.vint (Enc.vsltuVx d a x m) d a (.scal x) m .mask vsltuF

/-- The element of VSLE: mask bit A ≤ X, signed (Table 12.5). -/
def vsleF (_sat : Bool) (w x y _o : Nat) : Nat := if sv w x ≤ sv w y then 1 else 0

/-- VSLE, vector operand: vd[i] := mask bit A ≤ X, signed (Table 12.5). -/
def execVsleVv (d a b : RegNo) (m : BitVec 1) (s : State) : Res :=
  s.vint (Enc.vsleVv d a b m) d a (.vec b) m .mask vsleF

/-- VSLE, scalar operand: vd[i] := mask bit A ≤ X, signed (Table 12.5). -/
def execVsleVx (d a x : RegNo) (m : BitVec 1) (s : State) : Res :=
  s.vint (Enc.vsleVx d a x m) d a (.scal x) m .mask vsleF

/-- The element of VMULH: the high SEW bits of the product (Table 12.5). -/
def vmulhF (u : BitVec 1) (_sat : Bool) (w x y _o : Nat) : Nat := eres false w (uv u w x * uv u w y / (2 ^ w : Nat))

/-- VMULH, vector operand: vd[i] := the high SEW bits of the product, signed or with .u unsigned (Table 12.5). -/
def execVmulhVv (d a b : RegNo) (m u : BitVec 1) (s : State) : Res :=
  s.vint (Enc.vmulhVv d a b m u) d a (.vec b) m .plain (vmulhF u)

/-- VMULH, scalar operand: vd[i] := the high SEW bits of the product, signed or with .u unsigned (Table 12.5). -/
def execVmulhVx (d a x : RegNo) (m u : BitVec 1) (s : State) : Res :=
  s.vint (Enc.vmulhVx d a x m u) d a (.scal x) m .plain (vmulhF u)

/-- The element of VSADD: Sat(A + X) (Table 12.5). -/
def vsaddF (u : BitVec 1) (_sat : Bool) (w x y _o : Nat) : Nat := satU u w (uv u w x + uv u w y)

/-- VSADD, vector operand: vd[i] := Sat(A + X), signed or with .u unsigned (Table 12.5). -/
def execVsaddVv (d a b : RegNo) (m u : BitVec 1) (s : State) : Res :=
  s.vint (Enc.vsaddVv d a b m u) d a (.vec b) m .plain (vsaddF u)

/-- VSADD, scalar operand: vd[i] := Sat(A + X), signed or with .u unsigned (Table 12.5). -/
def execVsaddVx (d a x : RegNo) (m u : BitVec 1) (s : State) : Res :=
  s.vint (Enc.vsaddVx d a x m u) d a (.scal x) m .plain (vsaddF u)

/-- The element of VSSUB: Sat(A - X) (Table 12.5). -/
def vssubF (u : BitVec 1) (_sat : Bool) (w x y _o : Nat) : Nat := satU u w (uv u w x - uv u w y)

/-- VSSUB, vector operand: vd[i] := Sat(A - X), signed or with .u unsigned (Table 12.5). -/
def execVssubVv (d a b : RegNo) (m u : BitVec 1) (s : State) : Res :=
  s.vint (Enc.vssubVv d a b m u) d a (.vec b) m .plain (vssubF u)

/-- VSSUB, scalar operand: vd[i] := Sat(A - X), signed or with .u unsigned (Table 12.5). -/
def execVssubVx (d a x : RegNo) (m u : BitVec 1) (s : State) : Res :=
  s.vint (Enc.vssubVx d a x m u) d a (.scal x) m .plain (vssubF u)

/-- VMERGE, vector operand: X where the mask bit is set, else A, for every body element (Table 12.5). -/
def execVmergeVv (d a b : RegNo) (s : State) : Res :=
  let r := s.cx.r
  let n := r.sew
  s.vec (Enc.vmergeVv d a b) (groupsOk .plain (r.grp d n) (r.grp a n :: (VOp.groups (.vec b) r n)) 1#1) false (fun r =>
    r.putElems d.toNat n r.body (fun i => if r.maskBit 0#5 i then r.xval (.vec b) n i else r.elem a.toNat n i))

/-- VMERGE, scalar operand: X where the mask bit is set, else A, for every body element (Table 12.5). -/
def execVmergeVx (d a x : RegNo) (s : State) : Res :=
  let r := s.cx.r
  let n := r.sew
  s.vec (Enc.vmergeVx d a x) (groupsOk .plain (r.grp d n) (r.grp a n :: (VOp.groups (.scal x) r n)) 1#1) false (fun r =>
    r.putElems d.toNat n r.body (fun i => if r.maskBit 0#5 i then r.xval (.scal x) n i else r.elem a.toNat n i))

/-- VMV, vector operand: vd[i] := A (Table 12.5). -/
def execVmvVv (d a : RegNo) (m : BitVec 1) (s : State) : Res :=
  let r := s.cx.r
  let n := r.sew
  s.vec (Enc.vmvVv d a m) (groupsOk .plain (r.grp d n) [r.grp a n] m) false (fun r =>
    r.putElems d.toNat n (r.actives m) (fun i => r.elem a.toNat n i))

/-- VMV, scalar operand: vd[i] := X (Table 12.5). -/
def execVmvVx (d x : RegNo) (m : BitVec 1) (s : State) : Res :=
  let r := s.cx.r
  let n := r.sew
  s.vec (Enc.vmvVx d x m) (groupsOk .plain (r.grp d n) [] m) false (fun r =>
    r.putElems d.toNat n (r.actives m) (fun i => r.xval (.scal x) n i))

/-- The element of VNCLIP (R353). -/
def vnclipF (u : BitVec 1) (n x y : Nat) : Nat := satU u n (shiftRne (uv u (2 * n) x) (y % (2 * n)))

/-- The element of VWADD: the exact sum in 2 SEW bits (R352). -/
def vwaddF (u : BitVec 1) (n x y : Nat) : Nat := eres false (2 * n) (uv u n x + uv u n y)

/-- The element of VWMUL: the exact product in 2 SEW bits (R352). -/
def vwmulF (u : BitVec 1) (n x y : Nat) : Nat := eres false (2 * n) (uv u n x * uv u n y)

/-- VNCLIP, vector operand: A narrowed by a rounded, saturated shift (R353). -/
def execVnclipVv (d a b : RegNo) (m u : BitVec 1) (s : State) : Res :=
  let r := s.cx.r
  s.vwide (Enc.vnclipVv d a b m u) d a [.vec b] m r.canWiden (r.sew) (2 * r.sew) (vnclipF u r.sew)

/-- VNCLIP, scalar operand: A narrowed by a rounded, saturated shift (R353). -/
def execVnclipVx (d a x : RegNo) (m u : BitVec 1) (s : State) : Res :=
  let r := s.cx.r
  s.vwide (Enc.vnclipVx d a x m u) d a [.scal x] m r.canWiden (r.sew) (2 * r.sew) (vnclipF u r.sew)

/-- VWADD, vector operand: the widened sum (R352). -/
def execVwaddVv (d a b : RegNo) (m u : BitVec 1) (s : State) : Res :=
  let r := s.cx.r
  s.vwide (Enc.vwaddVv d a b m u) d a [.vec b] m r.canWiden (2 * r.sew) (r.sew) (vwaddF u r.sew)

/-- VWADD, scalar operand: the widened sum (R352). -/
def execVwaddVx (d a x : RegNo) (m u : BitVec 1) (s : State) : Res :=
  let r := s.cx.r
  s.vwide (Enc.vwaddVx d a x m u) d a [.scal x] m r.canWiden (2 * r.sew) (r.sew) (vwaddF u r.sew)

/-- VWMUL, vector operand: the widened product (R352). -/
def execVwmulVv (d a b : RegNo) (m u : BitVec 1) (s : State) : Res :=
  let r := s.cx.r
  s.vwide (Enc.vwmulVv d a b m u) d a [.vec b] m r.canWiden (2 * r.sew) (r.sew) (vwmulF u r.sew)

/-- VWMUL, scalar operand: the widened product (R352). -/
def execVwmulVx (d a x : RegNo) (m u : BitVec 1) (s : State) : Res :=
  let r := s.cx.r
  s.vwide (Enc.vwmulVx d a x m u) d a [.scal x] m r.canWiden (2 * r.sew) (r.sew) (vwmulF u r.sew)

/-- VEXT.xF: the element of SEW/F bits, sign- or zero-extended (R352). -/
def execVext (d a : RegNo) (m : BitVec 1) (f : BitVec 2) (u : BitVec 1) (s : State) : Res :=
  let r := s.cx.r
  let aw := r.sew / 2 ^ f.toNat
  s.vwide (Enc.vext d a m f u) d a [] m (f != 0#2 && decide (8 ≤ aw)) r.sew aw (fun x _ => eres false r.sew (uv u aw x))

end Sys2Proof.Machine
end

