-- ==== Sys2Proof/Machine/VecMem.lean ====
section
/-! DEFINITION. Vector loads and stores: majors 0x3A to 0x40 (R344 to R350, R204, Tables 12.1 and 12.2). -/

namespace Sys2Proof.Machine

/-- How the address of element i is formed (Table 12.1). -/
inductive VAddr where
  /-- s[a] + i * EEW/8. -/
  | unit
  /-- s[a] + i * s[b], the stride signed. -/
  | stride (b : RegNo)
  /-- s[a] + the zero-extended index element of an index group of that EEW. -/
  | index (b : RegNo) (eew : Nat)
deriving DecidableEq, Repr, Inhabited

/-- The address of element i (Table 12.1, modulo 2^64). -/
def Regs.vaddr (r : Regs) (a : RegNo) (k : VAddr) (n i : Nat) : Word :=
  match k with
  | .unit => r.get a + BitVec.ofNat 64 (i * n)
  | .stride b => r.get a + BitVec.ofNat 64 i * r.get b
  | .index b e => r.get a + BitVec.ofNat 64 (r.elem b.toNat e i)

/-- EEW of the eew field: 8 to 64 bits (R344). -/
def eewOf (e : BitVec 2) : Nat := 8 * 2 ^ e.toNat

/-- What element i's checks find (R346, Table 12.2). -/
inductive ElemTr where
  /-- Translated, the translation filled into the TLBs. -/
  | ok (x : Access) (s : State)
  /-- A TLB miss keeps the context out until its walk ends (Table 7.1). -/
  | walk (s : State)
  /-- The page is not present or malformed. -/
  | absent (s : State)
  /-- A trap with that cause. -/
  | fault (cause : BitVec 8)

/-- The checks of element i of n bytes at an address (R204, R346). -/
def State.elemTr (s : State) (k : AccKind) (va : Word) (n : Nat) (quiet : Bool) : ElemTr :=
  match s.tr k va with
  | .aperture _ _ => .fault 0x05#8
  | q =>
    if !alignedTo va n then .fault 0x07#8
    else match q with
      | .ok x =>
        if x.fill.isSome && !quiet then
          if s.planned then .walk s.replan else .ok x (s.replan.fillTlb s.cur x.fill)
        else .ok x (s.fillTlb s.cur x.fill)
      | .absent => if !quiet && s.planned then .walk s.replan else .absent (if quiet then s else s.replan)
      | .fault c => .fault (if inBasinWin va && !s.cur.isSup then c else 0x07#8)
      | .aperture _ _ => .fault 0x05#8

/-- What a run over the elements ends in. -/
inductive VEnd where
  /-- All active elements are done; whether any lies beyond the basin. -/
  | done (s : State) (r : Regs) (far : Bool)
  /-- Element i waits. -/
  | wait (s : State) (r : Regs) (i : Nat) (w : Why)
  /-- Element i waits for a page walk. -/
  | walk (s : State) (r : Regs) (i : Nat) (va : Word)
  /-- Element i's page is absent. -/
  | absent (s : State) (r : Regs) (i : Nat) (va : Word)
  /-- Element i traps. -/
  | trap (s : State) (r : Regs) (i : Nat) (cause : BitVec 8) (va : Word)
  /-- Element i reads poison. -/
  | poison (s : State) (r : Regs) (i : Nat) (va : Word)
  /-- Element i meets no memory (R51). -/
  | lost

/-- The elements of a vector load in increasing order (R345, R346). -/
def State.vloadElems (d a : RegNo) (k : VAddr) (ew : Nat) (atHome ff : Bool) (base : Regs) :
    State → Regs → Bool → Bool → List Nat → VEnd
  | s, r, far, _, [] => .done s r far
  | s, r, far, first, i :: rest =>
    let n := ew / 8
    let va := base.vaddr a k n i
    match s.elemTr .rd va n (ff && !first) with
    | .walk t => .walk t r i va
    | .absent t => .absent t r i va
    | .fault c => .trap s r i c va
    | .ok x t =>
      if isCtl x.loc then
        State.vloadElems d a k ew atHome ff base t (r.setElem d.toNat ew i (ofBytes (t.ctlBytes x.loc n))) true false rest
      else match t.read x n atHome with
        | .val b u =>
          State.vloadElems d a k ew atHome ff base u (r.setElem d.toNat ew i (ofBytes b)) (far || !isBasin x.loc) false rest
        | .wait y => .wait t r i y
        | .poison => .poison t r i va
        | .lost => .lost

/-- The elements of a vector store in increasing order, as separate accesses (R345, R348, R349). -/
def State.vstoreElems (d a : RegNo) (k : VAddr) (ew : Nat) : State → Regs → Bool → List Nat → VEnd
  | s, r, far, [] => .done s r far
  | s, r, far, i :: rest =>
    let n := ew / 8
    let va := r.vaddr a k n i
    let b := bytesLE n (r.elem d.toNat ew i)
    match s.elemTr .wr va n false with
    | .walk t => .walk t r i va
    | .absent t => .absent t r i va
    | .fault c => .trap s r i c va
    | .ok x t =>
      if isCtl x.loc then
        State.vstoreElems d a k ew (t.ctlStore x.loc b (.supervisor t.cur.die t.cur.core)) r true rest
      else if unmappedPa x.loc then .lost
      else if x.marked then .poison t r i va
      else if t.held x.loc n then .trap t r i 0x09#8 va
      else match t.storeAt x b with
        | some u => State.vstoreElems d a k ew (u.noteStitch x n) r (far || !isBasin x.loc) rest
        | none => .wait t r i .stores

/-- The state and registers with vstart at element i (R346). -/
def State.atElem (s : State) (r : Regs) (i : Nat) : State := s.setR { r with vstart := BitVec.ofNat 64 i }

/-- What the end of a vector memory instruction does (R345 to R347, Table 12.2).  `keep` says whether elements already done stay
done when the instruction waits: a store's do, a load reads again. -/
def State.vmemEnd (s0 : State) (w : IWord) (k : AccKind) (emul16 : Nat) (vds : List Nat) (keep ff : Bool) (first : Nat) : VEnd → Res
  | .done s r far =>
    let r1 := { r with vstart := 0#64 }
    .next (if (far && !keep) || 16 < emul16 || 1 < r.lmul then s.finishLong r1 else s.finish r1)
  | .wait s r i y => .next ((if keep then s.atElem r i else s.setR s0.cx.r).waitOn y)
  | .walk s r i va => .next ((if keep then s.atElem r i else s.setR s0.cx.r).waitWalk va)
  | .absent s r i va =>
    if ff && i ≠ first then .next (cut s r i) else (s.atElem r i).startRunahead w k va [] vds
  | .trap s r i c va => if ff && i ≠ first then .next (cut s r i) else (s.atElem r i).trap w c va (k == .wr)
  | .poison s r i va => if ff && i ≠ first then .next (cut s r i) else (s.atElem r i).consume w va
  | .lost => s0.lostAccess
where
  /-- VLDFF at a later element: vl := i, vstart := 0, the elements below it loaded (R347). -/
  cut (s : State) (r : Regs) (i : Nat) : State := s.finishLong { r with vl := BitVec.ofNat 64 i, vstart := 0#64 }

/-- The index group of an indexed form. -/
def VAddr.groups (k : VAddr) (r : Regs) : List VGrp :=
  match k with
  | .index b e => [r.grp b e]
  | _ => []

/-- The scalar registers an address needs, vl among them, for runahead. -/
def VAddr.bases (k : VAddr) (a : RegNo) : List Nat :=
  match k with
  | .stride b => [a.toNat, b.toNat, 32]
  | _ => [a.toNat, 32]

/-- The vector registers an address needs, for runahead: the index group and, when masked, v0. -/
def VAddr.vbases (k : VAddr) (r : Regs) (m : BitVec 1) : List Nat :=
  (k.groups r).flatMap VGrp.regs ++ (if m = 1#1 then [0] else [])

/-- A vector load (R344 to R348). -/
def State.vload (s : State) (w : IWord) (d a : RegNo) (k : VAddr) (ew : Nat) (m : BitVec 1) (wf : BitVec 2) (ff : Bool) : Res :=
  let r := s.cx.r
  let dg := r.grp d ew
  let l := r.actives m
  let n := ew / 8
  let legal := groupsOk .plain dg (k.groups r) m
  let addrs := l.map (r.vaddr a k n)
  s.issueMem w legal .rd (k.bases a) (k.vbases r m) [] dg.regs (addrs.all (fun va => alignedTo va n)) addrs (fun s =>
    if r.vl.toNat ≤ r.vstart.toNat then .next (s.finish { r with vstart := 0#64 })
    else if !s.countsZero wf then .next (s.waitOn .stores)
    else
      s.vmemEnd w .rd dg.e16 dg.regs false ff (l.headD 0)
        (State.vloadElems d a k ew (wf != 0#2) ff r s s.cx.r false true l))

/-- A vector store (R344 to R349). -/
def State.vstore (s : State) (w : IWord) (d a : RegNo) (k : VAddr) (ew : Nat) (m : BitVec 1) (wf : BitVec 2) : Res :=
  let r := s.cx.r
  let dg := r.grp d ew
  let l := r.actives m
  let n := ew / 8
  let legal := dg.ok && (k.groups r).all VGrp.ok
  let addrs := l.map (r.vaddr a k n)
  s.issueMem w legal .wr (k.bases a) (k.vbases r m) [] [] (addrs.all (fun va => alignedTo va n)) addrs (fun s =>
    if r.vl.toNat ≤ r.vstart.toNat then .next (s.finish { r with vstart := 0#64 })
    else if !s.countsZero wf then .next (s.waitOn .stores)
    else s.vmemEnd w .wr dg.e16 [] true false 0 (State.vstoreElems d a k ew s s.cx.r false l))

/-- VLD: unit-stride load (Table 12.1). -/
def execVld (d a : RegNo) (m : BitVec 1) (w e : BitVec 2) (s : State) : Res :=
  s.vload (Enc.vld d a m w e) d a .unit (eewOf e) m w false

/-- VLDS: strided load (Table 12.1). -/
def execVlds (d a b : RegNo) (m : BitVec 1) (w e : BitVec 2) (s : State) : Res :=
  s.vload (Enc.vlds d a b m w e) d a (.stride b) (eewOf e) m w false

/-- VLDX: indexed load, data of SEW bits (Table 12.1). -/
def execVldx (d a b : RegNo) (m : BitVec 1) (w e : BitVec 2) (s : State) : Res :=
  s.vload (Enc.vldx d a b m w e) d a (.index b (eewOf e)) s.cx.r.sew m w false

/-- VLDFF: first-fault load (R347). -/
def execVldff (d a : RegNo) (m : BitVec 1) (w e : BitVec 2) (s : State) : Res :=
  s.vload (Enc.vldff d a m w e) d a .unit (eewOf e) m w true

/-- VST: unit-stride store (Table 12.1). -/
def execVst (d a : RegNo) (m : BitVec 1) (w e : BitVec 2) (s : State) : Res :=
  s.vstore (Enc.vst d a m w e) d a .unit (eewOf e) m w

/-- VSTS: strided store (Table 12.1). -/
def execVsts (d a b : RegNo) (m : BitVec 1) (w e : BitVec 2) (s : State) : Res :=
  s.vstore (Enc.vsts d a b m w e) d a (.stride b) (eewOf e) m w

/-- VSTX: indexed store, data of SEW bits (Table 12.1). -/
def execVstx (d a b : RegNo) (m : BitVec 1) (w e : BitVec 2) (s : State) : Res :=
  s.vstore (Enc.vstx d a b m w e) d a (.index b (eewOf e)) s.cx.r.sew m w

end Sys2Proof.Machine
end

