-- ==== Sys2Proof/Machine/VecPerm.lean ====
section
/-! DEFINITION. Permutations, mask instructions and conversions: majors 0x46, 0x47 and 0x48 (R361 to R365). -/

namespace Sys2Proof.Machine

/-! ## Permutations (R361, Table 12.10) -/

/-- A permutation that writes active body elements: `up` marks those that cannot restart part-way (R339). -/
def State.vperm (s : State) (w : IWord) (d : RegNo) (src : List VGrp) (m : BitVec 1) (k : VDest) (up : Bool)
    (keep : Regs → Nat → Bool) (f : Regs → Nat → Nat) : Res :=
  let r := s.cx.r
  let n := r.sew
  s.vec w ((!up || r.vstart == 0#64) && groupsOk k (r.grp d n) src m) false (fun r =>
    r.putElems d.toNat n ((r.actives m).filter (fun i => !keep r i)) (f r))

/-- VSLIDEUP: vd[i] := vs1[i - off] for i from off on (Table 12.10). -/
def execVslideup (d a x : RegNo) (m : BitVec 1) (s : State) : Res :=
  s.vperm (Enc.vslideup d a x m) d [s.cx.r.grp a s.cx.r.sew] m .apart true (fun r i => decide (i < (r.get x).toNat)) (fun r i =>
    r.elem a.toNat r.sew (i - (r.get x).toNat))

/-- VSLIDEDN: vd[i] := vs1[i + off] below VLMAX, else 0 (Table 12.10). -/
def execVslidedn (d a x : RegNo) (m : BitVec 1) (s : State) : Res :=
  s.vperm (Enc.vslidedn d a x m) d [s.cx.r.grp a s.cx.r.sew] m .plain false (fun _ _ => false) (fun r i =>
    if i + (r.get x).toNat < r.vlmax then r.elem a.toNat r.sew (i + (r.get x).toNat) else 0)

/-- VSLIDE1UP: vd[0] := the scalar, vd[i] := vs1[i - 1] (Table 12.10). -/
def execVslide1up (d a x : RegNo) (m : BitVec 1) (s : State) : Res :=
  s.vperm (Enc.vslide1up d a x m) d [s.cx.r.grp a s.cx.r.sew] m .apart true (fun _ _ => false) (fun r i =>
    if i = 0 then r.xval (.scal x) r.sew i else r.elem a.toNat r.sew (i - 1))

/-- VSLIDE1DN: vd[i] := vs1[i + 1], the last := the scalar (Table 12.10). -/
def execVslide1dn (d a x : RegNo) (m : BitVec 1) (s : State) : Res :=
  s.vperm (Enc.vslide1dn d a x m) d [s.cx.r.grp a s.cx.r.sew] m .plain false (fun _ _ => false) (fun r i =>
    if i + 1 < r.count then r.elem a.toNat r.sew (i + 1) else r.xval (.scal x) r.sew i)

/-- VGATH: vd[i] := vs1[vs2[i]] below VLMAX, else 0 (Table 12.10). -/
def execVgath (d a b : RegNo) (m : BitVec 1) (s : State) : Res :=
  let n := s.cx.r.sew
  s.vperm (Enc.vgath d a b m) d [s.cx.r.grp a n, s.cx.r.grp b n] m .apart false (fun _ _ => false) (fun r i =>
    let x := r.elem b.toNat n i
    if x < r.vlmax then r.elem a.toNat n x else 0)

/-- VCOMPRESS: the body elements of vs1 whose bit of mask register vs2 is 1, in order (Table 12.10). -/
def execVcompress (d a b : RegNo) (s : State) : Res :=
  let r := s.cx.r
  let n := r.sew
  s.vec (Enc.vcompress d a b) (r.vstart == 0#64 && groupsOk .apart (r.grp d n) [r.grp a n, maskGrp b] 0#1) false (fun r =>
    let l := r.body.filter (r.maskBit b)
    r.putElems d.toNat n (List.range l.length) (fun k => r.elem a.toNat n (l.getD k 0)))

/-- VIOTA: vd[i] := set bits of mask register vs1 at active positions below i (Table 12.10). -/
def execViota (d a : RegNo) (m : BitVec 1) (s : State) : Res :=
  s.vperm (Enc.viota d a m) d [maskGrp a] m .apart true (fun _ _ => false) (fun r i =>
    ((List.range i).filter (fun j => r.active m j && r.maskBit a j)).length)

/-- VID: vd[i] := i (Table 12.10). -/
def execVid (d : RegNo) (m : BitVec 1) (s : State) : Res :=
  s.vperm (Enc.vid d m) d [] m .plain false (fun _ _ => false) (fun _ i => i)

/-- VMVXS: s[d] := element 0, sign-extended, whatever vl and vstart are (R361). -/
def execVmvxs (d a : RegNo) (s : State) : Res :=
  let r := s.cx.r
  s.issue (Enc.vmvxs d a) (r.grp a r.sew).ok (fun s =>
    let t := s.cx.r.set d (sextW (BitVec.ofNat 64 (s.cx.r.elem a.toNat s.cx.r.sew 0)) s.cx.r.sew)
    .next (if 1 < s.cx.r.lmul then s.finishLong t else s.finish t))

/-- VMVSX: element 0 := the scalar, when vl > 0 and vstart = 0 (R361). -/
def execVmvsx (d x : RegNo) (s : State) : Res :=
  let r := s.cx.r
  s.issue (Enc.vmvsx d x) (r.grp d r.sew).ok (fun s =>
    let q := s.cx.r
    let t := if q.vl ≠ 0#64 ∧ q.vstart = 0#64 then q.setElem d.toNat q.sew 0 (q.get x).toNat else q
    .next (if 1 < q.lmul then s.finishLong t else s.finish t))

/-! ## Mask instructions (R362, Table 12.11) -/

/-- An unmasked operation on the body bits of mask registers (Table 12.11). -/
def State.vmaskOp (s : State) (w : IWord) (d : RegNo) (f : Regs → Nat → Bool) : Res :=
  s.vecShort w true (fun r => r.putElems d.toNat 1 r.body (fun i => if f r i then 1 else 0))

/-- VMAND: bit i := vs1[i] AND vs2[i] (Table 12.11). -/
def execVmand (d a b : RegNo) (s : State) : Res := s.vmaskOp (Enc.vmand d a b) d (fun r i => r.maskBit a i && r.maskBit b i)

/-- VMOR: bit i := vs1[i] OR vs2[i] (Table 12.11). -/
def execVmor (d a b : RegNo) (s : State) : Res := s.vmaskOp (Enc.vmor d a b) d (fun r i => r.maskBit a i || r.maskBit b i)

/-- VMXOR: bit i := vs1[i] XOR vs2[i] (Table 12.11). -/
def execVmxor (d a b : RegNo) (s : State) : Res := s.vmaskOp (Enc.vmxor d a b) d (fun r i => r.maskBit a i != r.maskBit b i)

/-- VMANDN: bit i := vs1[i] AND NOT vs2[i] (Table 12.11). -/
def execVmandn (d a b : RegNo) (s : State) : Res := s.vmaskOp (Enc.vmandn d a b) d (fun r i => r.maskBit a i && !r.maskBit b i)

/-- VMNOT: bit i := NOT vs1[i] (Table 12.11). -/
def execVmnot (d a : RegNo) (s : State) : Res := s.vmaskOp (Enc.vmnot d a) d (fun r i => !r.maskBit a i)

/-- The active body positions at which a mask register has a 1, rising. -/
def Regs.hits (r : Regs) (a : RegNo) (m : BitVec 1) : List Nat := (r.actives m).filter (r.maskBit a)

/-- VPOPC: s[d] := the count of active set bits (Table 12.11). -/
def execVpopc (d a : RegNo) (m : BitVec 1) (s : State) : Res :=
  s.vecShort (Enc.vpopc d a m) (s.cx.r.vstart == 0#64) (fun r => r.set d (BitVec.ofNat 64 (r.hits a m).length))

/-- VFIRST: s[d] := the lowest active set position, or all ones (Table 12.11). -/
def execVfirst (d a : RegNo) (m : BitVec 1) (s : State) : Res :=
  s.vecShort (Enc.vfirst d a m) (s.cx.r.vstart == 0#64) (fun r =>
    r.set d (match (r.hits a m).head? with | some i => BitVec.ofNat 64 i | none => 0xFFFFFFFFFFFFFFFF#64))

/-- VMSBF: an active bit becomes 1 while no active bit up to it is set (Table 12.11). -/
def execVmsbf (d a : RegNo) (m : BitVec 1) (s : State) : Res :=
  s.vecShort (Enc.vmsbf d a m) (s.cx.r.vstart == 0#64 && overlapOk .apart (maskGrp d) [maskGrp a] m) (fun r =>
    r.putElems d.toNat 1 (r.actives m) (fun i => if (r.hits a m).any (fun j => decide (j ≤ i)) then 0 else 1))

/-! ## Conversions (R363 to R365) -/

/-- Destination and source widths of a conversion code (R364, Table 11.4). -/
def cvtWidths (c : Nat) : Nat × Nat :=
  let i := if c % 2 = 0 then 32 else 64
  let nar := [8, 8, 4, 2]
  if c < 0x04 then (32, i) else if c < 0x08 then (16, i)
  else if c < 0x0C then (i, 32) else if c < 0x10 then (i, 16)
  else if c = 0x10 then (16, 32) else if c = 0x11 then (32, 16)
  else if c < 0x16 then (nar.getD (c - 0x12) 8, 32)
  else if c < 0x1A then (32, nar.getD (c - 0x16) 8)
  else if c < 0x1E then (16, nar.getD (c - 0x1A) 8)
  else if c = 0x1E then (8, 32) else (32, 8)

/-- VCVT: each active element converted as FCVT converts one value (R363 to R365). -/
def execVcvt (d a x : RegNo) (m : BitVec 1) (c : BitVec 5) (s : State) : Res :=
  let r := s.cx.r
  let dw := (cvtWidths c.toNat).1
  let aw := (cvtWidths c.toNat).2
  let k : VDest := if dw = aw then .plain else .apart
  s.vec (Enc.vcvt d a x m c)
    (okConvert c x && decide (r.sew = max dw aw) && groupsOk k (r.grp d dw) [r.grp a aw] m) false (fun r =>
    let g (i : Nat) : FRes := convertCode r.rm r.sat c.toNat ((r.get x).toNat % 256) (r.elem a.toNat aw i)
    let l := r.actives m
    (r.putElems d.toNat dw l (fun i => (g i).1)).flag (l.foldl (fun y i => y ||| (g i).2) 0#5))

end Sys2Proof.Machine
end

