-- ==== Sys2Proof/Machine/VecRed.lean ====
section
/-! DEFINITION. Reductions: major 0x45 (R357 to R360, Table 12.8). -/

namespace Sys2Proof.Machine

/-- A reduction: vs1 a group, element 0 of vs2 the start, element 0 of vd the result; it needs vstart 0; with an empty body nothing
is written (R339, R357). -/
def State.vred (s : State) (w : IWord) (d a b : RegNo) (m : BitVec 1) (fp long : Bool)
    (f : Regs → Nat → Nat → List Nat → FRes) : Res :=
  let r := s.cx.r
  let n := r.sew
  s.vec w (r.vstart == 0#64 && (!fp || (sewFmt n).isSome) && (r.grp a n).ok) long (fun r =>
    if r.count = 0 then r
    else
      let start := r.elem b.toNat n 0
      let l := r.actives m
      if l = [] then r.setElem d.toNat n 0 start
      else
        let x := f r n start l
        (r.setElem d.toNat n 0 x.1).flag x.2)

/-- An integer reduction over the start value and the active elements. -/
def foldElems (a : RegNo) (g : Nat → Nat → Nat → Nat) (r : Regs) (n start : Nat) (l : List Nat) : FRes :=
  (l.foldl (fun x i => g n x (r.elem a.toNat n i)) start, 0#5)

/-- A floating-point reduction in element order. -/
def foldFp (a : RegNo) (g : Fmt → Nat → Nat → FRes) (r : Regs) (n start : Nat) (l : List Nat) : FRes :=
  let fm := (sewFmt n).getD fp32
  l.foldl (fun x i => let y := g fm x.1 (r.elem a.toNat n i); (y.1, x.2 ||| y.2)) (start, 0#5)

/-- Comb of R359: an absent element leaves the other unrounded. -/
def comb (rm : Rm) (sat : Bool) (fm : Fmt) (x y : Option Nat × BitVec 5) : Option Nat × BitVec 5 :=
  match x.1, y.1 with
  | some u, some v => let z := fm.add rm sat u v; (some z.1, x.2 ||| y.2 ||| z.2)
  | some u, none => (some u, x.2 ||| y.2)
  | none, q => (q, x.2 ||| y.2)

/-- One level of the tree: neighbours are combined. -/
def treeLevel (rm : Rm) (sat : Bool) (fm : Fmt) : List (Option Nat × BitVec 5) → List (Option Nat × BitVec 5)
  | x :: y :: t => comb rm sat fm x y :: treeLevel rm sat fm t
  | l => l

/-- Levels of the tree for a body of vl elements: log2 of the smallest power of two not below it. -/
def treeDepth (vl : Nat) : Nat := ((List.range 14).find? (fun k => decide (vl ≤ 2 ^ k))).getD 14

/-- The tree sum of R359. -/
def treeSum (a : RegNo) (r : Regs) (n start : Nat) (l : List Nat) : FRes :=
  let fm := (sewFmt n).getD fp32
  let k := treeDepth r.count
  let leaves := (List.range (2 ^ k)).map (fun j => ((if l.contains j then some (r.elem a.toNat n j) else none), 0#5))
  let top := ((List.range k).foldl (fun t _ => treeLevel r.rm r.sat fm t) leaves).headD (none, 0#5)
  match top.1 with
  | none => (start, top.2)
  | some v => let z := fm.add r.rm r.sat start v; (z.1, top.2 ||| z.2)

/-- One step of VFAMAX: the larger of acc and |x|, NaN sticky, NV for a signalling input (R360). -/
def amaxStep (f : Fmt) (acc x : Nat) : FRes :=
  let nv := nvOf [f.dec acc, f.dec x]
  if (f.dec acc).isNan || (f.dec x).isNan then (f.nan, nv)
  else
    let ax := x % f.sign
    (if (f.dec acc).neg || decide (acc < ax) then ax else acc, nv)

/-- VREDSUM: the sum modulo 2^SEW of the start value and the active elements (Table 12.8). -/
def execVredsum (d a b : RegNo) (m : BitVec 1) (s : State) : Res :=
  s.vred (Enc.vredsum d a b m) d a b m false false (foldElems a (fun n x y => (x + y) % 2 ^ n))

/-- VREDAND: the bitwise AND of the start value and the active elements (Table 12.8). -/
def execVredand (d a b : RegNo) (m : BitVec 1) (s : State) : Res :=
  s.vred (Enc.vredand d a b m) d a b m false false (foldElems a (fun _ x y => x &&& y))

/-- VREDOR: the bitwise OR of the start value and the active elements (Table 12.8). -/
def execVredor (d a b : RegNo) (m : BitVec 1) (s : State) : Res :=
  s.vred (Enc.vredor d a b m) d a b m false false (foldElems a (fun _ x y => x ||| y))

/-- VREDXOR: the bitwise XOR of the start value and the active elements (Table 12.8). -/
def execVredxor (d a b : RegNo) (m : BitVec 1) (s : State) : Res :=
  s.vred (Enc.vredxor d a b m) d a b m false false (foldElems a (fun _ x y => x ^^^ y))

/-- VREDMAX: the largest, signed or with .u unsigned (Table 12.8). -/
def execVredmax (d a b : RegNo) (m u : BitVec 1) (s : State) : Res :=
  s.vred (Enc.vredmax d a b m u) d a b m false false (foldElems a (fun n x y => if uv u n x < uv u n y then y else x))

/-- VREDMIN: the smallest, signed or with .u unsigned (Table 12.8). -/
def execVredmin (d a b : RegNo) (m u : BitVec 1) (s : State) : Res :=
  s.vred (Enc.vredmin d a b m u) d a b m false false (foldElems a (fun n x y => if uv u n y < uv u n x then y else x))

/-- VFREDOSUM: the sum in element order (R358). -/
def execVfredosum (d a b : RegNo) (m : BitVec 1) (s : State) : Res :=
  let r := s.cx.r
  s.vred (Enc.vfredosum d a b m) d a b m true true (foldFp a (fun f x y => f.add r.rm r.sat x y))

/-- VFREDTSUM: the sum by a tree whose shape depends only on vl (R359). -/
def execVfredtsum (d a b : RegNo) (m : BitVec 1) (s : State) : Res :=
  s.vred (Enc.vfredtsum d a b m) d a b m true true (treeSum a)

/-- VFREDMAX: by FMAX (Table 12.8). -/
def execVfredmax (d a b : RegNo) (m : BitVec 1) (s : State) : Res :=
  s.vred (Enc.vfredmax d a b m) d a b m true false (foldFp a (fun f x y => f.minMax true x y))

/-- VFREDMIN: by FMIN (Table 12.8). -/
def execVfredmin (d a b : RegNo) (m : BitVec 1) (s : State) : Res :=
  s.vred (Enc.vfredmin d a b m) d a b m true false (foldFp a (fun f x y => f.minMax false x y))

/-- VFAMAX: the largest magnitude, NaN sticky (R360). -/
def execVfamax (d a b : RegNo) (m : BitVec 1) (s : State) : Res :=
  s.vred (Enc.vfamax d a b m) d a b m true false (foldFp a amaxStep)

end Sys2Proof.Machine
end

