-- ==== Sys2Proof/Machine/Dispatch.lean ====
section
/-! DEFINITION. The one dispatch of the machine: an arm for each constructor of Instr, each a direct call of that instruction's
meaning. -/

namespace Sys2Proof.Machine

def exec (i : Instr) (s : State) : Host.Outcome State Fault Refusal :=
  match i with
  | .coldReset => Sys2Proof.Machine.execColdReset s
  | .warmPackageReset => Sys2Proof.Machine.execWarmPackageReset s
  | .resetSequenceStepDone r => Sys2Proof.Machine.execResetSequenceStepDone r s
  | .securityVersionAdvance version => Sys2Proof.Machine.execSecurityVersionAdvance version s
  | .thermalSensorSample stack unit milliC => Sys2Proof.Machine.execThermalSensorSample stack unit milliC s
  | .powerWindowCheck watts hottest => Sys2Proof.Machine.execPowerWindowCheck watts hottest s
  | .avsRateCheck die => Sys2Proof.Machine.execAvsRateCheck die s
  | .matrixEngineRamp die => Sys2Proof.Machine.execMatrixEngineRamp die s
  | .guestTimebaseCorrection pdie owning => Sys2Proof.Machine.execGuestTimebaseCorrection pdie owning s
  | .maintGreeting port g => Sys2Proof.Machine.execMaintGreeting port g s
  | .portListFlood pkg ports => Sys2Proof.Machine.execPortListFlood pkg ports s
  | .portListFloodTimer => Sys2Proof.Machine.execPortListFloodTimer s
  | .routePacket router p owner => Sys2Proof.Machine.execRoutePacket router p owner s
  | .unmappedResponse p => Sys2Proof.Machine.execUnmappedResponse p s
  | .routeHoldRelease line => Sys2Proof.Machine.execRouteHoldRelease line s
  | .hopPacketReceive port p => Sys2Proof.Machine.execHopPacketReceive port p s
  | .recoveryNakTimeout port => Sys2Proof.Machine.execRecoveryNakTimeout port s
  | .hopAckTimer port => Sys2Proof.Machine.execHopAckTimer port s
  | .ackReceived port hack => Sys2Proof.Machine.execAckReceived port hack s
  | .nakReceived port hseq => Sys2Proof.Machine.execNakReceived port hseq s
  | .replayTimeout port => Sys2Proof.Machine.execReplayTimeout port s
  | .e2eNak p => Sys2Proof.Machine.execE2eNak p s
  | .laneLockTimeout port lane => Sys2Proof.Machine.execLaneLockTimeout port lane s
  | .laneFail port mask target => Sys2Proof.Machine.execLaneFail port mask target s
  | .trainComplete port rx => Sys2Proof.Machine.execTrainComplete port rx s
  | .trainTimeout port rx => Sys2Proof.Machine.execTrainTimeout port rx s
  | .portDownReroute port => Sys2Proof.Machine.execPortDownReroute port s
  | .portRetrainRetry port => Sys2Proof.Machine.execPortRetrainRetry port s
  | .creditTimeout port waitedUs => Sys2Proof.Machine.execCreditTimeout port waitedUs s
  | .quiesceNotice pkg limitUs => Sys2Proof.Machine.execQuiesceNotice pkg limitUs s
  | .resumeNotice pkg => Sys2Proof.Machine.execResumeNotice pkg s
  | .dieMapChange m readbackOk => Sys2Proof.Machine.execDieMapChange m readbackOk s
  | .completionAnnouncementTimer die => Sys2Proof.Machine.execCompletionAnnouncementTimer die s
  | .completionAnnouncement die p => Sys2Proof.Machine.execCompletionAnnouncement die p s
  | .causalWritePerform id => Sys2Proof.Machine.execCausalWritePerform id s
  | .crossDieReadPerform c => Sys2Proof.Machine.execCrossDieReadPerform c s
  | .rdcStampAgeDrop die line => Sys2Proof.Machine.execRdcStampAgeDrop die line s
  | .homeAtomic cv p => Sys2Proof.Machine.execHomeAtomic cv p s
  | .homeCntdec cv p => Sys2Proof.Machine.execHomeCntdec cv p s
  | .homeWrite cv p => Sys2Proof.Machine.execHomeWrite cv p s
  | .storeAck id => Sys2Proof.Machine.execStoreAck id s
  | .loadDataReturn c => Sys2Proof.Machine.execLoadDataReturn c s
  | .longOpComplete c answer => Sys2Proof.Machine.execLongOpComplete c answer s
  | .baseDieRead stack p ecc => Sys2Proof.Machine.execBaseDieRead stack p ecc s
  | .refreshWindowStart stack => Sys2Proof.Machine.execRefreshWindowStart stack s
  | .baseDieWrite stack p => Sys2Proof.Machine.execBaseDieWrite stack p s
  | .victimWrite stack p => Sys2Proof.Machine.execVictimWrite stack p s
  | .overflowFlush stack line => Sys2Proof.Machine.execOverflowFlush stack line s
  | .overflowDiscard stack line => Sys2Proof.Machine.execOverflowDiscard stack line s
  | .writeMasked stack p => Sys2Proof.Machine.execWriteMasked stack p s
  | .maskedMergeComplete stack granule ecc => Sys2Proof.Machine.execMaskedMergeComplete stack granule ecc s
  | .shipRoutine stack p => Sys2Proof.Machine.execShipRoutine stack p s
  | .stitchWrite stack p rebuilt => Sys2Proof.Machine.execStitchWrite stack p rebuilt s
  | .requesterReply p => Sys2Proof.Machine.execRequesterReply p s
  | .baseDiePortLoss stack portB => Sys2Proof.Machine.execBaseDiePortLoss stack portB s
  | .patrolScrub stack granule ecc => Sys2Proof.Machine.execPatrolScrub stack granule ecc s
  | .occtlWrite stack en => Sys2Proof.Machine.execOcctlWrite stack en s
  | .overflowDrainDone stack => Sys2Proof.Machine.execOverflowDrainDone stack s
  | .routineTableWrite stack index r => Sys2Proof.Machine.execRoutineTableWrite stack index r s
  | .registerWrite r => Sys2Proof.Machine.execRegisterWrite r s
  | .faultEvent u kind loc => Sys2Proof.Machine.execFaultEvent u kind loc s
  | .probeTimeout u => Sys2Proof.Machine.execProbeTimeout u s
  | .timingDetectorReplay c again => Sys2Proof.Machine.execTimingDetectorReplay c again s
  | .retirementProposal u silent proposer answers => Sys2Proof.Machine.execRetirementProposal u silent proposer answers s
  | .voteAnswerTimeout u => Sys2Proof.Machine.execVoteAnswerTimeout u s
  | .peerVote b => Sys2Proof.Machine.execPeerVote b s
  | .peerVoteTimeout u first => Sys2Proof.Machine.execPeerVoteTimeout u first s
  | .gracefulCoreRetirement die core spare => Sys2Proof.Machine.execGracefulCoreRetirement die core spare s
  | .abruptCoreRetirement die core spare => Sys2Proof.Machine.execAbruptCoreRetirement die core spare s
  | .stackRetirement stack spare answers => Sys2Proof.Machine.execStackRetirement stack spare answers s
  | .stackRebuildSector sector bytes => Sys2Proof.Machine.execStackRebuildSector sector bytes s
  | .stackRebuildDone stack => Sys2Proof.Machine.execStackRebuildDone stack s
  | .dieSubstitutionLocal die spare answers selfTestOk => Sys2Proof.Machine.execDieSubstitutionLocal die spare answers selfTestOk s
  | .dieSubstitutionRemote die pkg pdie selfTestOk => Sys2Proof.Machine.execDieSubstitutionRemote die pkg pdie selfTestOk s
  | .heartbeatTimer => Sys2Proof.Machine.execHeartbeatTimer s
  | .heartbeatMiss pkg missed => Sys2Proof.Machine.execHeartbeatMiss pkg missed s
  | .packageLoss pkg spare trayLost => Sys2Proof.Machine.execPackageLoss pkg spare trayLost s
  | .stitchDeltaReceive group p => Sys2Proof.Machine.execStitchDeltaReceive group p s
  | .stitchResendTimeout die core slot => Sys2Proof.Machine.execStitchResendTimeout die core slot s
  | .stitchUnitDelta die core line mask delta group dom => Sys2Proof.Machine.execStitchUnitDelta die core line mask delta group dom s
  | .stitchAckReceive die core slot holder => Sys2Proof.Machine.execStitchAckReceive die core slot holder s
  | .scpHello d => Sys2Proof.Machine.execScpHello d s
  | .scpAuth d => Sys2Proof.Machine.execScpAuth d s
  | .scpAck d => Sys2Proof.Machine.execScpAck d s
  | .scpBye session => Sys2Proof.Machine.execScpBye session s
  | .scpCommandReceive d => Sys2Proof.Machine.execScpCommandReceive d s
  | .scpDiscard d => Sys2Proof.Machine.execScpDiscard d s
  | .scpAckTimer session => Sys2Proof.Machine.execScpAckTimer session s
  | .scpResendTimer session seq => Sys2Proof.Machine.execScpResendTimer session seq s
  | .scpIdleTimeout session => Sys2Proof.Machine.execScpIdleTimeout session s
  | .portFailover => Sys2Proof.Machine.execPortFailover s
  | .hostLinkDownTimeout probeOk => Sys2Proof.Machine.execHostLinkDownTimeout probeOk s
  | .openTenant h tenant queues evcount evdelay store debug => Sys2Proof.Machine.execOpenTenant h tenant queues evcount evdelay store debug s
  | .close h => Sys2Proof.Machine.execClose h s
  | .mapwin h b pl => Sys2Proof.Machine.execMapwin h b pl s
  | .templates h first images => Sys2Proof.Machine.execTemplates h first images s
  | .routines h first entries => Sys2Proof.Machine.execRoutines h first entries s
  | .launch h body => Sys2Proof.Machine.execLaunch h body s
  | .cntsetSet h va value => Sys2Proof.Machine.execCntsetSet h va value s
  | .cntsetDec h va value => Sys2Proof.Machine.execCntsetDec h va value s
  | .copyin h va bytes => Sys2Proof.Machine.execCopyin h va bytes s
  | .copyout h va length => Sys2Proof.Machine.execCopyout h va length s
  | .waitev h mask max timeout => Sys2Proof.Machine.execWaitev h mask max timeout s
  | .waitevTimeout h => Sys2Proof.Machine.execWaitevTimeout h s
  | .groupCreate h b => Sys2Proof.Machine.execGroupCreate h b s
  | .groupPoison h handle => Sys2Proof.Machine.execGroupPoison h handle s
  | .ckpt h b r => Sys2Proof.Machine.execCkpt h b r s
  | .restore h members replacements => Sys2Proof.Machine.execRestore h members replacements s
  | .reset h tenant closing => Sys2Proof.Machine.execReset h tenant closing s
  | .attest h nonce => Sys2Proof.Machine.execAttest h nonce s
  | .powercap h watts => Sys2Proof.Machine.execPowercap h watts s
  | .pagedata h handle offset bytes last => Sys2Proof.Machine.execPagedata h handle offset bytes last s
  | .pageout h handle offset length last => Sys2Proof.Machine.execPageout h handle offset length last s
  | .eventDelayExpiry tenant => Sys2Proof.Machine.execEventDelayExpiry tenant s
  | .waiterPoolEntryFree die => Sys2Proof.Machine.execWaiterPoolEntryFree die s
  | .trapResolution => Sys2Proof.Machine.execTrapResolution s
  | .supervisorTrap die core cause tval => Sys2Proof.Machine.execSupervisorTrap die core cause tval s
  | .pageEviction tenant va handle => Sys2Proof.Machine.execPageEviction tenant va handle s
  | .pageMigration tenant va window dst => Sys2Proof.Machine.execPageMigration tenant va window dst s
  | .migrationSwitch index => Sys2Proof.Machine.execMigrationSwitch index s
  | .migrationAbort index addr => Sys2Proof.Machine.execMigrationAbort index addr s
  | .spoutBind c => Sys2Proof.Machine.execSpoutBind c s
  | .preemptionTimer die => Sys2Proof.Machine.execPreemptionTimer die s
  | .spillStart c => Sys2Proof.Machine.execSpillStart c s
  | .harvestUnpark c => Sys2Proof.Machine.execHarvestUnpark c s
  | .domainFault dom cause addr => Sys2Proof.Machine.execDomainFault dom cause addr s
  | .domainRestart dom => Sys2Proof.Machine.execDomainRestart dom s
  | .pageWalkComplete c va => Sys2Proof.Machine.execPageWalkComplete c va s
  | .runaheadEnd c => Sys2Proof.Machine.execRunaheadEnd c s
  | .monitorFire c => Sys2Proof.Machine.execMonitorFire c s
  | .monitorTimeout c => Sys2Proof.Machine.execMonitorTimeout c s
  | .holdViolationRemote c va => Sys2Proof.Machine.execHoldViolationRemote c va s
  | .start data => Sys2Proof.Machine.execStart data s
  | .copyAccept die core chan => Sys2Proof.Machine.execCopyAccept die core chan s
  | .copyComplete die core chan => Sys2Proof.Machine.execCopyComplete die core chan s
  | .copySuspend die core chan offset va => Sys2Proof.Machine.execCopySuspend die core chan offset va s
  | .copyResume die core chan => Sys2Proof.Machine.execCopyResume die core chan s
  | .copyFaultEnd die core chan code offset => Sys2Proof.Machine.execCopyFaultEnd die core chan code offset s
  | .scoreboardEntryFree die core entry => Sys2Proof.Machine.execScoreboardEntryFree die core entry s
  | .matrixOpStart die core => Sys2Proof.Machine.execMatrixOpStart die core s
  | .matrixBlockEnd die core residue parity => Sys2Proof.Machine.execMatrixBlockEnd die core residue parity s
  | .matrixCommit die core => Sys2Proof.Machine.execMatrixCommit die core s
  | .weirPartialForward die handle => Sys2Proof.Machine.execWeirPartialForward die handle s
  | .weirPartialArrival handle remote => Sys2Proof.Machine.execWeirPartialArrival handle remote s
  | .weirVerdict c remote => Sys2Proof.Machine.execWeirVerdict c remote s
  | .weirRecordReceive die handle tag remote => Sys2Proof.Machine.execWeirRecordReceive die handle tag remote s
  | .send die slot => Sys2Proof.Machine.execSend die slot s
  | .recv die slot => Sys2Proof.Machine.execRecv die slot s
  | .rrs die slot => Sys2Proof.Machine.execRrs die slot s
  | .stepCopy die slot => Sys2Proof.Machine.execStepCopy die slot s
  | .stepWait die slot => Sys2Proof.Machine.execStepWait die slot s
  | .stepLoop die slot => Sys2Proof.Machine.execStepLoop die slot s
  | .stepEndloop die slot => Sys2Proof.Machine.execStepEndloop die slot s
  | .qround die slot => Sys2Proof.Machine.execQround die slot s
  | .stepEnd die slot => Sys2Proof.Machine.execStepEnd die slot s
  | .stepProgramFault die slot code => Sys2Proof.Machine.execStepProgramFault die slot code s
  | .loopEndCheck => Sys2Proof.Machine.execLoopEndCheck s
  | .fullEmptyChange die core word full => Sys2Proof.Machine.execFullEmptyChange die core word full s
  | .unassignedEncoding word => Sys2Proof.Machine.execUnassignedEncoding word s
  | .reservedHintKind word => Sys2Proof.Machine.execReservedHintKind word s
  | .instructionFetch => Sys2Proof.Machine.execInstructionFetch s
  | .creditReturn port vc credits => Sys2Proof.Machine.execCreditReturn port vc credits s
  | .stepMessageWritten die handle src dst bytes remote => Sys2Proof.Machine.execStepMessageWritten die handle src dst bytes remote s
  | .supervisorCoreRestart die core pc => Sys2Proof.Machine.execSupervisorCoreRestart die core pc s
  | .directedRefreshDone stack bank => Sys2Proof.Machine.execDirectedRefreshDone stack bank s
  | .add d a b => Sys2Proof.Machine.execAdd d a b s
  | .sub d a b => Sys2Proof.Machine.execSub d a b s
  | .and d a b => Sys2Proof.Machine.execAnd d a b s
  | .or d a b => Sys2Proof.Machine.execOr d a b s
  | .xor d a b => Sys2Proof.Machine.execXor d a b s
  | .andn d a b => Sys2Proof.Machine.execAndn d a b s
  | .sll d a b => Sys2Proof.Machine.execSll d a b s
  | .srl d a b => Sys2Proof.Machine.execSrl d a b s
  | .sra d a b => Sys2Proof.Machine.execSra d a b s
  | .rol d a b => Sys2Proof.Machine.execRol d a b s
  | .ror d a b => Sys2Proof.Machine.execRor d a b s
  | .slt d a b => Sys2Proof.Machine.execSlt d a b s
  | .sltu d a b => Sys2Proof.Machine.execSltu d a b s
  | .min d a b => Sys2Proof.Machine.execMin d a b s
  | .max d a b => Sys2Proof.Machine.execMax d a b s
  | .minu d a b => Sys2Proof.Machine.execMinu d a b s
  | .maxu d a b => Sys2Proof.Machine.execMaxu d a b s
  | .clz d a => Sys2Proof.Machine.execClz d a s
  | .ctz d a => Sys2Proof.Machine.execCtz d a s
  | .popc d a => Sys2Proof.Machine.execPopc d a s
  | .sextb d a => Sys2Proof.Machine.execSextb d a s
  | .sexth d a => Sys2Proof.Machine.execSexth d a s
  | .sextw d a => Sys2Proof.Machine.execSextw d a s
  | .zextw d a => Sys2Proof.Machine.execZextw d a s
  | .addw d a b => Sys2Proof.Machine.execAddw d a b s
  | .subw d a b => Sys2Proof.Machine.execSubw d a b s
  | .sllw d a b => Sys2Proof.Machine.execSllw d a b s
  | .srlw d a b => Sys2Proof.Machine.execSrlw d a b s
  | .sraw d a b => Sys2Proof.Machine.execSraw d a b s
  | .mulw d a b => Sys2Proof.Machine.execMulw d a b s
  | .mul d a b => Sys2Proof.Machine.execMul d a b s
  | .mulh d a b => Sys2Proof.Machine.execMulh d a b s
  | .mulhu d a b => Sys2Proof.Machine.execMulhu d a b s
  | .mulhsu d a b => Sys2Proof.Machine.execMulhsu d a b s
  | .div d a b => Sys2Proof.Machine.execDiv d a b s
  | .divu d a b => Sys2Proof.Machine.execDivu d a b s
  | .rem d a b => Sys2Proof.Machine.execRem d a b s
  | .remu d a b => Sys2Proof.Machine.execRemu d a b s
  | .divw d a b => Sys2Proof.Machine.execDivw d a b s
  | .divuw d a b => Sys2Proof.Machine.execDivuw d a b s
  | .remw d a b => Sys2Proof.Machine.execRemw d a b s
  | .remuw d a b => Sys2Proof.Machine.execRemuw d a b s
  | .addi d a ix => Sys2Proof.Machine.execAddi d a ix s
  | .andi d a ix => Sys2Proof.Machine.execAndi d a ix s
  | .ori d a ix => Sys2Proof.Machine.execOri d a ix s
  | .xori d a ix => Sys2Proof.Machine.execXori d a ix s
  | .slti d a ix => Sys2Proof.Machine.execSlti d a ix s
  | .sltiu d a ix => Sys2Proof.Machine.execSltiu d a ix s
  | .slli d a sx => Sys2Proof.Machine.execSlli d a sx s
  | .srli d a sx => Sys2Proof.Machine.execSrli d a sx s
  | .srai d a sx => Sys2Proof.Machine.execSrai d a sx s
  | .rori d a sx => Sys2Proof.Machine.execRori d a sx s
  | .movi d ix => Sys2Proof.Machine.execMovi d ix s
  | .addpc d ix => Sys2Proof.Machine.execAddpc d ix s
  | .addiw d a ix => Sys2Proof.Machine.execAddiw d a ix s
  | .fadd d a b f => Sys2Proof.Machine.execFadd d a b f s
  | .fsub d a b f => Sys2Proof.Machine.execFsub d a b f s
  | .fmul d a b f => Sys2Proof.Machine.execFmul d a b f s
  | .fdiv d a b f => Sys2Proof.Machine.execFdiv d a b f s
  | .fsqrt d a f => Sys2Proof.Machine.execFsqrt d a f s
  | .fmin d a b f => Sys2Proof.Machine.execFmin d a b f s
  | .fmax d a b f => Sys2Proof.Machine.execFmax d a b f s
  | .feq d a b f => Sys2Proof.Machine.execFeq d a b f s
  | .flt d a b f => Sys2Proof.Machine.execFlt d a b f s
  | .fle d a b f => Sys2Proof.Machine.execFle d a b f s
  | .fclass d a f => Sys2Proof.Machine.execFclass d a f s
  | .fabs d a f => Sys2Proof.Machine.execFabs d a f s
  | .fneg d a f => Sys2Proof.Machine.execFneg d a f s
  | .fcvt d a c sx => Sys2Proof.Machine.execFcvt d a c sx s
  | .fmac d a b f => Sys2Proof.Machine.execFmac d a b f s
  | .fmsac d a b f => Sys2Proof.Machine.execFmsac d a b f s
  | .loop n a l => Sys2Proof.Machine.execLoop n a l s
  | .beq a b o => Sys2Proof.Machine.execBeq a b o s
  | .bne a b o => Sys2Proof.Machine.execBne a b o s
  | .blt a b o => Sys2Proof.Machine.execBlt a b o s
  | .bge a b o => Sys2Proof.Machine.execBge a b o s
  | .bltu a b o => Sys2Proof.Machine.execBltu a b o s
  | .bgeu a b o => Sys2Proof.Machine.execBgeu a b o s
  | .jal d o => Sys2Proof.Machine.execJal d o s
  | .jalr d a ix => Sys2Proof.Machine.execJalr d a ix s
  | .ldb d a w o => Sys2Proof.Machine.execLdb d a w o s
  | .ldbu d a w o => Sys2Proof.Machine.execLdbu d a w o s
  | .ldh d a w o => Sys2Proof.Machine.execLdh d a w o s
  | .ldhu d a w o => Sys2Proof.Machine.execLdhu d a w o s
  | .ldw d a w o => Sys2Proof.Machine.execLdw d a w o s
  | .ldwu d a w o => Sys2Proof.Machine.execLdwu d a w o s
  | .ldd d a w o => Sys2Proof.Machine.execLdd d a w o s
  | .stb d a w o => Sys2Proof.Machine.execStb d a w o s
  | .sth d a w o => Sys2Proof.Machine.execSth d a w o s
  | .stw d a w o => Sys2Proof.Machine.execStw d a w o s
  | .std d a w o => Sys2Proof.Machine.execStd d a w o s
  | .ldro d a o => Sys2Proof.Machine.execLdro d a o s
  | .ldf d a m o => Sys2Proof.Machine.execLdf d a m o s
  | .stf d a m o => Sys2Proof.Machine.execStf d a m o s
  | .fence m => Sys2Proof.Machine.execFence m s
  | .roinv a b => Sys2Proof.Machine.execRoinv a b s
  | .mwarm a => Sys2Proof.Machine.execMwarm a s
  | .mwait d a => Sys2Proof.Machine.execMwait d a s
  | .feset a => Sys2Proof.Machine.execFeset a s
  | .feclr a => Sys2Proof.Machine.execFeclr a s
  | .fest d a => Sys2Proof.Machine.execFest d a s
  | .cflush a b => Sys2Proof.Machine.execCflush a b s
  | .cinv a b => Sys2Proof.Machine.execCinv a b s
  | .pref a => Sys2Proof.Machine.execPref a s
  | .aadd d a b w z => Sys2Proof.Machine.execAadd d a b w z s
  | .aand d a b w z => Sys2Proof.Machine.execAand d a b w z s
  | .aor d a b w z => Sys2Proof.Machine.execAor d a b w z s
  | .axor d a b w z => Sys2Proof.Machine.execAxor d a b w z s
  | .amin d a b w z => Sys2Proof.Machine.execAmin d a b w z s
  | .amax d a b w z => Sys2Proof.Machine.execAmax d a b w z s
  | .aminu d a b w z => Sys2Proof.Machine.execAminu d a b w z s
  | .amaxu d a b w z => Sys2Proof.Machine.execAmaxu d a b w z s
  | .aswap d a b w z => Sys2Proof.Machine.execAswap d a b w z s
  | .acas d a b w z => Sys2Proof.Machine.execAcas d a b w z s
  | .afadd d a b w => Sys2Proof.Machine.execAfadd d a b w s
  | .afmaxabs d a b w => Sys2Proof.Machine.execAfmaxabs d a b w s
  | .amaxrst d a w => Sys2Proof.Machine.execAmaxrst d a w s
  | .ship d a b ix => Sys2Proof.Machine.execShip d a b ix s
  | .trap a => Sys2Proof.Machine.execTrap a s
  | .eret => Sys2Proof.Machine.execEret s
  | .srrd d ix => Sys2Proof.Machine.execSrrd d ix s
  | .srwr d ix => Sys2Proof.Machine.execSrwr d ix s
  | .srset d ix => Sys2Proof.Machine.execSrset d ix s
  | .srclr d ix => Sys2Proof.Machine.execSrclr d ix s
  | .halt => Sys2Proof.Machine.execHalt s
  | .bkpt => Sys2Proof.Machine.execBkpt s
  | .ifence => Sys2Proof.Machine.execIfence s
  | .tlbinv a b => Sys2Proof.Machine.execTlbinv a b s
  | .ctxres d a b => Sys2Proof.Machine.execCtxres d a b s
  | .wfe => Sys2Proof.Machine.execWfe s
  | .vsetl d a m t l sx => Sys2Proof.Machine.execVsetl d a m t l sx s
  | .vsetli d u m t l sx => Sys2Proof.Machine.execVsetli d u m t l sx s
  | .vld d a m w e => Sys2Proof.Machine.execVld d a m w e s
  | .vlds d a b m w e => Sys2Proof.Machine.execVlds d a b m w e s
  | .vldx d a b m w e => Sys2Proof.Machine.execVldx d a b m w e s
  | .vldff d a m w e => Sys2Proof.Machine.execVldff d a m w e s
  | .vst d a m w e => Sys2Proof.Machine.execVst d a m w e s
  | .vsts d a b m w e => Sys2Proof.Machine.execVsts d a b m w e s
  | .vstx d a b m w e => Sys2Proof.Machine.execVstx d a b m w e s
  | .vaddVv d a b m => Sys2Proof.Machine.execVaddVv d a b m s
  | .vaddVx d a sx m => Sys2Proof.Machine.execVaddVx d a sx m s
  | .vsubVv d a b m => Sys2Proof.Machine.execVsubVv d a b m s
  | .vsubVx d a sx m => Sys2Proof.Machine.execVsubVx d a sx m s
  | .vrsubVv d a b m => Sys2Proof.Machine.execVrsubVv d a b m s
  | .vrsubVx d a sx m => Sys2Proof.Machine.execVrsubVx d a sx m s
  | .vmulVv d a b m => Sys2Proof.Machine.execVmulVv d a b m s
  | .vmulVx d a sx m => Sys2Proof.Machine.execVmulVx d a sx m s
  | .vmulhVv d a b m u => Sys2Proof.Machine.execVmulhVv d a b m u s
  | .vmulhVx d a sx m u => Sys2Proof.Machine.execVmulhVx d a sx m u s
  | .vmaccVv d a b m => Sys2Proof.Machine.execVmaccVv d a b m s
  | .vmaccVx d a sx m => Sys2Proof.Machine.execVmaccVx d a sx m s
  | .vnmsacVv d a b m => Sys2Proof.Machine.execVnmsacVv d a b m s
  | .vnmsacVx d a sx m => Sys2Proof.Machine.execVnmsacVx d a sx m s
  | .vandVv d a b m => Sys2Proof.Machine.execVandVv d a b m s
  | .vandVx d a sx m => Sys2Proof.Machine.execVandVx d a sx m s
  | .vorVv d a b m => Sys2Proof.Machine.execVorVv d a b m s
  | .vorVx d a sx m => Sys2Proof.Machine.execVorVx d a sx m s
  | .vxorVv d a b m => Sys2Proof.Machine.execVxorVv d a b m s
  | .vxorVx d a sx m => Sys2Proof.Machine.execVxorVx d a sx m s
  | .vsllVv d a b m => Sys2Proof.Machine.execVsllVv d a b m s
  | .vsllVx d a sx m => Sys2Proof.Machine.execVsllVx d a sx m s
  | .vsrlVv d a b m => Sys2Proof.Machine.execVsrlVv d a b m s
  | .vsrlVx d a sx m => Sys2Proof.Machine.execVsrlVx d a sx m s
  | .vsraVv d a b m => Sys2Proof.Machine.execVsraVv d a b m s
  | .vsraVx d a sx m => Sys2Proof.Machine.execVsraVx d a sx m s
  | .vminVv d a b m => Sys2Proof.Machine.execVminVv d a b m s
  | .vminVx d a sx m => Sys2Proof.Machine.execVminVx d a sx m s
  | .vmaxVv d a b m => Sys2Proof.Machine.execVmaxVv d a b m s
  | .vmaxVx d a sx m => Sys2Proof.Machine.execVmaxVx d a sx m s
  | .vminuVv d a b m => Sys2Proof.Machine.execVminuVv d a b m s
  | .vminuVx d a sx m => Sys2Proof.Machine.execVminuVx d a sx m s
  | .vmaxuVv d a b m => Sys2Proof.Machine.execVmaxuVv d a b m s
  | .vmaxuVx d a sx m => Sys2Proof.Machine.execVmaxuVx d a sx m s
  | .vseqVv d a b m => Sys2Proof.Machine.execVseqVv d a b m s
  | .vseqVx d a sx m => Sys2Proof.Machine.execVseqVx d a sx m s
  | .vsneVv d a b m => Sys2Proof.Machine.execVsneVv d a b m s
  | .vsneVx d a sx m => Sys2Proof.Machine.execVsneVx d a sx m s
  | .vsltVv d a b m => Sys2Proof.Machine.execVsltVv d a b m s
  | .vsltVx d a sx m => Sys2Proof.Machine.execVsltVx d a sx m s
  | .vsltuVv d a b m => Sys2Proof.Machine.execVsltuVv d a b m s
  | .vsltuVx d a sx m => Sys2Proof.Machine.execVsltuVx d a sx m s
  | .vsleVv d a b m => Sys2Proof.Machine.execVsleVv d a b m s
  | .vsleVx d a sx m => Sys2Proof.Machine.execVsleVx d a sx m s
  | .vmergeVv d a b => Sys2Proof.Machine.execVmergeVv d a b s
  | .vmergeVx d a sx => Sys2Proof.Machine.execVmergeVx d a sx s
  | .vmvVv d a m => Sys2Proof.Machine.execVmvVv d a m s
  | .vmvVx d sx m => Sys2Proof.Machine.execVmvVx d sx m s
  | .vsaddVv d a b m u => Sys2Proof.Machine.execVsaddVv d a b m u s
  | .vsaddVx d a sx m u => Sys2Proof.Machine.execVsaddVx d a sx m u s
  | .vssubVv d a b m u => Sys2Proof.Machine.execVssubVv d a b m u s
  | .vssubVx d a sx m u => Sys2Proof.Machine.execVssubVx d a sx m u s
  | .vnclipVv d a b m u => Sys2Proof.Machine.execVnclipVv d a b m u s
  | .vnclipVx d a sx m u => Sys2Proof.Machine.execVnclipVx d a sx m u s
  | .vwaddVv d a b m u => Sys2Proof.Machine.execVwaddVv d a b m u s
  | .vwaddVx d a sx m u => Sys2Proof.Machine.execVwaddVx d a sx m u s
  | .vwmulVv d a b m u => Sys2Proof.Machine.execVwmulVv d a b m u s
  | .vwmulVx d a sx m u => Sys2Proof.Machine.execVwmulVx d a sx m u s
  | .vext d a m f u => Sys2Proof.Machine.execVext d a m f u s
  | .vfaddVv d a b m => Sys2Proof.Machine.execVfaddVv d a b m s
  | .vfaddVx d a sx m => Sys2Proof.Machine.execVfaddVx d a sx m s
  | .vfsubVv d a b m => Sys2Proof.Machine.execVfsubVv d a b m s
  | .vfsubVx d a sx m => Sys2Proof.Machine.execVfsubVx d a sx m s
  | .vfmulVv d a b m => Sys2Proof.Machine.execVfmulVv d a b m s
  | .vfmulVx d a sx m => Sys2Proof.Machine.execVfmulVx d a sx m s
  | .vfdivVv d a b m => Sys2Proof.Machine.execVfdivVv d a b m s
  | .vfdivVx d a sx m => Sys2Proof.Machine.execVfdivVx d a sx m s
  | .vfsqrt d a m => Sys2Proof.Machine.execVfsqrt d a m s
  | .vfminVv d a b m => Sys2Proof.Machine.execVfminVv d a b m s
  | .vfminVx d a sx m => Sys2Proof.Machine.execVfminVx d a sx m s
  | .vfmaxVv d a b m => Sys2Proof.Machine.execVfmaxVv d a b m s
  | .vfmaxVx d a sx m => Sys2Proof.Machine.execVfmaxVx d a sx m s
  | .vfmaccVv d a b m => Sys2Proof.Machine.execVfmaccVv d a b m s
  | .vfmaccVx d a sx m => Sys2Proof.Machine.execVfmaccVx d a sx m s
  | .vfnmsacVv d a b m => Sys2Proof.Machine.execVfnmsacVv d a b m s
  | .vfnmsacVx d a sx m => Sys2Proof.Machine.execVfnmsacVx d a sx m s
  | .vfeqVv d a b m => Sys2Proof.Machine.execVfeqVv d a b m s
  | .vfeqVx d a sx m => Sys2Proof.Machine.execVfeqVx d a sx m s
  | .vfltVv d a b m => Sys2Proof.Machine.execVfltVv d a b m s
  | .vfltVx d a sx m => Sys2Proof.Machine.execVfltVx d a sx m s
  | .vfleVv d a b m => Sys2Proof.Machine.execVfleVv d a b m s
  | .vfleVx d a sx m => Sys2Proof.Machine.execVfleVx d a sx m s
  | .vfabs d a m => Sys2Proof.Machine.execVfabs d a m s
  | .vfneg d a m => Sys2Proof.Machine.execVfneg d a m s
  | .vfsgnjVv d a b m => Sys2Proof.Machine.execVfsgnjVv d a b m s
  | .vfsgnjVx d a sx m => Sys2Proof.Machine.execVfsgnjVx d a sx m s
  | .vredsum d a b m => Sys2Proof.Machine.execVredsum d a b m s
  | .vredmax d a b m u => Sys2Proof.Machine.execVredmax d a b m u s
  | .vredmin d a b m u => Sys2Proof.Machine.execVredmin d a b m u s
  | .vredand d a b m => Sys2Proof.Machine.execVredand d a b m s
  | .vredor d a b m => Sys2Proof.Machine.execVredor d a b m s
  | .vredxor d a b m => Sys2Proof.Machine.execVredxor d a b m s
  | .vfredosum d a b m => Sys2Proof.Machine.execVfredosum d a b m s
  | .vfredtsum d a b m => Sys2Proof.Machine.execVfredtsum d a b m s
  | .vfredmax d a b m => Sys2Proof.Machine.execVfredmax d a b m s
  | .vfredmin d a b m => Sys2Proof.Machine.execVfredmin d a b m s
  | .vfamax d a b m => Sys2Proof.Machine.execVfamax d a b m s
  | .vslideup d a sx m => Sys2Proof.Machine.execVslideup d a sx m s
  | .vslidedn d a sx m => Sys2Proof.Machine.execVslidedn d a sx m s
  | .vslide1up d a sx m => Sys2Proof.Machine.execVslide1up d a sx m s
  | .vslide1dn d a sx m => Sys2Proof.Machine.execVslide1dn d a sx m s
  | .vgath d a b m => Sys2Proof.Machine.execVgath d a b m s
  | .vcompress d a b => Sys2Proof.Machine.execVcompress d a b s
  | .viota d a m => Sys2Proof.Machine.execViota d a m s
  | .vid d m => Sys2Proof.Machine.execVid d m s
  | .vmvxs d a => Sys2Proof.Machine.execVmvxs d a s
  | .vmvsx d sx => Sys2Proof.Machine.execVmvsx d sx s
  | .vmand d a b => Sys2Proof.Machine.execVmand d a b s
  | .vmor d a b => Sys2Proof.Machine.execVmor d a b s
  | .vmxor d a b => Sys2Proof.Machine.execVmxor d a b s
  | .vmandn d a b => Sys2Proof.Machine.execVmandn d a b s
  | .vmnot d a => Sys2Proof.Machine.execVmnot d a s
  | .vpopc d a m => Sys2Proof.Machine.execVpopc d a m s
  | .vfirst d a m => Sys2Proof.Machine.execVfirst d a m s
  | .vmsbf d a m => Sys2Proof.Machine.execVmsbf d a m s
  | .vcvt d a sx m c => Sys2Proof.Machine.execVcvt d a sx m c s
  | .mshape d a b o y x => Sys2Proof.Machine.execMshape d a b o y x s
  | .mma d a b h => Sys2Proof.Machine.execMma d a b h s
  | .mmas d a b h => Sys2Proof.Machine.execMmas d a b h s
  | .mmat d a b h => Sys2Proof.Machine.execMmat d a b h s
  | .mzero d h => Sys2Proof.Machine.execMzero d h s
  | .mstat d c => Sys2Proof.Machine.execMstat d c s
  | .spawn d a b => Sys2Proof.Machine.execSpawn d a b s
  | .spawnc d a b => Sys2Proof.Machine.execSpawnc d a b s
  | .twait => Sys2Proof.Machine.execTwait s
  | .texit => Sys2Proof.Machine.execTexit s
  | .yield => Sys2Proof.Machine.execYield s
  | .cntinit d a b => Sys2Proof.Machine.execCntinit d a b s
  | .cntdec a b => Sys2Proof.Machine.execCntdec a b s
  | .cntwait a => Sys2Proof.Machine.execCntwait a s
  | .launchd d a => Sys2Proof.Machine.execLaunchd d a s
  | .tself d sx => Sys2Proof.Machine.execTself d sx s
  | .dbegin d a => Sys2Proof.Machine.execDbegin d a s
  | .dpresSnap a b => Sys2Proof.Machine.execDpresSnap a b s
  | .dpresHold a b => Sys2Proof.Machine.execDpresHold a b s
  | .dend => Sys2Proof.Machine.execDend s
  | .dchk a b => Sys2Proof.Machine.execDchk a b s
  | .dabort a => Sys2Proof.Machine.execDabort a s
  | .dlevel d sx => Sys2Proof.Machine.execDlevel d sx s
  | .lend a b => Sys2Proof.Machine.execLend a b s
  | .unlend a b => Sys2Proof.Machine.execUnlend a b s
  | .hstat d sx => Sys2Proof.Machine.execHstat d sx s
  | .qpost d a => Sys2Proof.Machine.execQpost d a s
  | .qwait d a b => Sys2Proof.Machine.execQwait d a b s
  | .qstart d a b => Sys2Proof.Machine.execQstart d a b s
  | .qstat d a sx => Sys2Proof.Machine.execQstat d a sx s
  | .qresync d a b => Sys2Proof.Machine.execQresync d a b s
  | .immx p => Sys2Proof.Machine.execImmx p s
  | .hcache p => Sys2Proof.Machine.execHcache p s
  | .hsched o => Sys2Proof.Machine.execHsched o s
  | .hmod o sx r m => Sys2Proof.Machine.execHmod o sx r m s
  | .hnop p => Sys2Proof.Machine.execHnop p s

end Sys2Proof.Machine
end

