-- ==== Sys2Proof/Machine/Progress.lean ====
section
/-! DEFINITION. The device's own progress: the happenings that nothing outside of it brings about, and which of them is taken next. -/

namespace Sys2Proof.Machine

noncomputable section

/-- The placement that the supervisor tries for a window: the lowest that fits, with pages to spare where they are free (R430). -/
def State.placement (s : State) (tn : Nat) (b : MapBody) : Placement :=
  ((s.firstFit tn b Config.spareFrames).orElse (fun _ => s.firstFit tn b 0)).getD { base := 0, bits := 12, spare := 0, group := 0#16 }

/-- The step that carries out a queued command; CKPT waits for what its packages report (R112, R124). -/
def State.cmdInstr (s : State) (h : CmdHead) : Cmd → Option Instr
  | .ckpt _ => none
  | .openTenant tn q ec ed st dbg => some (.openTenant h tn q ec ed st dbg)
  | .close => some (.close h)
  | .mapwin b => some (.mapwin h b (s.placement h.tenant b))
  | .templates f i => some (.templates h f i)
  | .routines f e => some (.routines h f e)
  | .launch b => some (.launch h b)
  | .cntsetSet va v => some (.cntsetSet h va v)
  | .cntsetDec va v => some (.cntsetDec h va v)
  | .copyin va b => some (.copyin h va b)
  | .copyout va n => some (.copyout h va n)
  | .waitev m x t => some (.waitev h m x t)
  | .groupCreate b => some (.groupCreate h b)
  | .groupPoison g => some (.groupPoison h g)
  | .restore m r => some (.restore h m r)
  | .reset t c => some (.reset h t c)
  | .attest n => some (.attest h n)
  | .powercap w => some (.powercap h w)
  | .pagedata p o b l => some (.pagedata h p o b l)
  | .pageout p o n l => some (.pageout h p o n l)

/-- What may happen next in a context: the end of an operation in flight or of a walk, a monitor's time, a spill, an unpark, a wait
at a home tried again (R160, R167, R182, R202, R220, R323). -/
def ctxDue (c : CtxId) (x : Ctx) : List Instr :=
  (match x.wait with
    | .result _ => [.loadDataReturn c, .longOpComplete c none]
    | .walk va => [.pageWalkComplete c va]
    | .retry .causal => [.crossDieReadPerform (.ctx c)]
    | .retry (.waiterPool d) => [.waiterPoolEntryFree d]
    | .retry (.verdict _ _) => [.weirVerdict c none]
    | .retry (.resync _ _ _ _) => [.longOpComplete c none]
    | _ => [])
    ++ (if (x.monitor.bind (·.since)).isSome then [.monitorTimeout c] else [])
    ++ (if x.spill.isSome then [.spillStart c] else [])
    ++ (if x.st = .parked then [.harvestUnpark c] else [])

/-- What a running step program does next, by the op of its step (Table 14.6), with a verdict that its QROUND awaits. -/
def progDue (die slot : Nat) (g : StepProg) : List Instr :=
  if g.state ≠ 1 then []
  else
    (match (g.steps.getD g.index (0#64, 0#64)).1.toNat / 2 ^ 60 with
      | 0 => [.stepEnd die slot]
      | 1 => [.send die slot]
      | 2 => [.recv die slot]
      | 3 => [.rrs die slot]
      | 4 => [.stepCopy die slot]
      | 5 => [.stepWait die slot]
      | 6 => [.stepLoop die slot]
      | 7 => [.stepEndloop die slot]
      | 8 => [.qround die slot]
      | _ => [])
    ++ (if g.posted = 1 then [.weirVerdict g.owner none] else [])
    ++ [.stepProgramFault die slot 5#8, .stepProgramFault die slot 6#8]

/-- What may happen next on a die (R130, R219, R224, R390, R421). -/
def dieDue (die : Nat) (d : DieSt) : List Instr :=
  (match d.heard with
    | [] => []
    | p :: _ => [.completionAnnouncement die p])
    ++ (if d.poolQueue = [] then [] else [.waiterPoolEntryFree die])
    ++ d.rdc.map (fun r => .rdcStampAgeDrop die (r.sector / 4))
    ++ d.programs.flatMap (fun e => match e.2 with
      | some g => progDue die e.1 g
      | none => [])
    ++ (d.stitchQ.take 1).map (fun q => .stitchUnitDelta die q.core q.line q.mask q.delta q.group q.dom)

/-- What may happen next at a base die: a merge of an error-free granule, the end of a directed refresh, of a drain or of a rebuild (R66, R71,
R73, R97). -/
def stackDue (h : Nat) (t : StackSt) : List Instr :=
  t.locks.map (fun l => .maskedMergeComplete h l.1 .clean)
    ++ t.refreshing.map (fun r => .directedRefreshDone h r.1)
    ++ (if t.ocEn || t.oc.isEmpty then [] else [.overflowDrainDone h])
    ++ (match t.rebuild with | some r => [.stackRebuildDone r.1] | none => [])

/-- What may happen next in the fabric: requests that wait at their homes are tried again, held lines and stacks are released, and a change of the
die maps goes on (R38, R44, R211, R220, R222). -/
def State.fabricDue (s : State) : List Instr :=
  s.fab.waiting ++ s.fab.heldLines.map (fun e => .routeHoldRelease e.1)
    ++ (match s.fab.change with | some m => [.dieMapChange m true] | none => [])
    ++ s.fab.heldStacks.flatMap (fun m => s.pkg.spareStacks.map (fun k => .stackRetirement m k true))

/-- What may happen next in a session: an acknowledgement, a resend, the idle timeout (R121). -/
def sessionDue (now sid : Nat) (x : Session) : List Instr :=
  (if x.ackDue then [.scpAckTimer sid] else [])
    ++ (x.unacked.filter (fun m => decide (m.due ≤ now))).map (fun m => .scpResendTimer sid m.seq)
    ++ (if x.heard + 240000000000 ≤ now then [.scpIdleTimeout sid] else [])
/-- What may happen next in the engines of a core (R23, R375, R386). -/
def coreDue (die core : Nat) (k : CoreSt) : List Instr :=
  k.channels.flatMap (fun e => match e.2.copies with
    | [] => []
    | c :: _ => if c.suspended then [.copyResume die core e.1]
      else if c.running then [.copyComplete die core e.1] else [.copyAccept die core e.1])
    ++ (if k.engine = [] then []
      else [.matrixEngineRamp die, .matrixOpStart die core, .matrixBlockEnd die core false false, .matrixCommit die core])

/-- What may happen next in a weir group (R412, R413, R421). -/
def groupDue (h : BitVec 32) (g : Group) : List Instr :=
  g.dies.map (fun e => .weirPartialForward e.1 h)
    ++ (if g.arrived = [] then [] else [.weirPartialArrival h none])
    ++ g.sending.map (fun e => .weirRecordReceive e.1 h e.2.tag none)
    ++ g.flight.filterMap (fun m => (g.members[m.2.1]?).map (fun e => .stepMessageWritten e.2 h m.1 m.2.1 m.2.2 none))

/-- What may happen next for a tenant: the head of each command queue, event records that are due, and WAITEVs whose time is over (R124,
R134). -/
def State.tenantDue (s : State) (tn : Nat) (t : TenantSt) : List Instr :=
  t.cmds.filterMap (fun q => q.2.head?.bind (fun e => s.cmdInstr e.1 e.2))
    ++ (if t.events ≠ [] && t.eventsDue s.cycle.toNat then [.eventDelayExpiry tn] else [])
    ++ (t.waits.filter (fun w => decide (w.ends ≤ s.cycle.toNat))).map (fun w => .waitevTimeout w.head)

/-- The happenings that may be due. -/
def State.mayHappen (s : State) : List Instr :=
  s.net.flatMap (fun w => [.storeAck w.id, .causalWritePerform w.id])
    ++ s.allCtx.flatMap (fun e => ctxDue e.1 e.2)
    ++ (if s.traps = [] then [] else [.trapResolution])
    ++ s.domains.filterMap (fun d => if d.restart then some (.domainRestart d.id) else none)
    ++ (if s.tasksWait then (match s.nextBind with | some c => [.spoutBind c] | none => []) ++ (List.range 16).map .preemptionTimer else [])
    ++ s.dies.flatMap (fun e => dieDue e.1 e.2)
    ++ ((List.range 16).filter (fun d => decide (32 ≤ s.cycle.toNat - (s.die d).announcedAt))).map .completionAnnouncementTimer
    ++ s.cores.flatMap (fun e => coreDue (e.1 / 66) (e.1 % 66) e.2)
    ++ s.groups.flatMap (fun e => match e.2 with
      | some g => groupDue (BitVec.ofNat 32 e.1) g
      | none => [])
    ++ s.host.direct.filterMap (fun e => s.cmdInstr e.1 e.2)
    ++ s.tenants.flatMap (fun e => match e.2 with
      | some t => s.tenantDue e.1 t
      | none => [])
    ++ s.host.sessions.flatMap (fun e => match e.2 with
      | some x => sessionDue s.cycle.toNat e.1 x
      | none => [])
    ++ s.hbm.flatMap (fun e => stackDue e.1 e.2)
    ++ s.fabricDue
    ++ (List.range s.migrations.length).map .migrationSwitch
    ++ (s.migrations.zipIdx).flatMap (fun e => match (wordsOf e.1.src e.1.size).find? (fun w => s.poison.contains w) with
      | some w => [.migrationAbort e.2 (8 * w)]
      | none => [])

/-- The device's own happening that is taken next: the first that changes something, with the place where the search begins moving on once
a rotation, so that none is passed over for ever. -/
def State.due (s : State) : Option Instr :=
  match s.mayHappen with
  | [] => none
  | l =>
    let n := s.cycle.toNat / 8 % l.length
    (l.drop n ++ l.take n).find? (fun e => match exec e s with
      | .next t => decide (t ≠ s)
      | _ => true)

end

end Sys2Proof.Machine
end

