-- ==== Sys2Proof/Machine/Step.lean ====
section
/-! DEFINITION. One step of the machine: a happening from outside that waits, or a happening of the device's own that is due, or
the next issue slot of the rotation (R165), which fetches, decodes and runs one instruction. -/

namespace Sys2Proof.Machine

noncomputable section

/-- What the issuing context's slot does: a loop end check that is due, a boundary trap, a finished runahead's record, or fetch,
decode and execute. -/
def issueSlot (s : State) : Host.Outcome State Fault Refusal :=
  if s.cx.ended then exec .loopEndCheck s
  else
    match s.cx.boundaryTrap with
    | some b => .next (s.takeBoundary b)
    | none =>
      if ((s.cx.ahead.map (·.ended)).getD false) then exec (.runaheadEnd s.cur) s
      else
        match exec .instructionFetch s with
        | .next t =>
          match t.cx.fetched with
          | some w => exec (issueWord w) { t with cx := { t.cx with fetched := none } }
          | none => .next t
        | o => o

/-- One step: what waits in the inbox, oldest first, of which a package whose rails are down takes only a cold reset (R24, R33);
otherwise the next slot of the rotation, before which, once a rotation, the
device's own happenings that are due are taken; with no context to issue they are taken at once, or a cycle passes. -/
def step (s : State) : Host.Outcome State Fault Refusal :=
  match s.inbox with
  | e :: t => if s.pkg.powered || e = .coldReset then exec e { s with inbox := t } else .next { s with inbox := t }
  | [] =>
    if !s.pkg.powered then .next s
    else
      match s.slot with
      | none =>
        match s.due with
        | some e => exec e s
        | none => .next { s with cycle := s.cycle + 1#64 }
      | some (k, c) =>
        match (if 8 ≤ s.cycle.toNat % 8 + k then s.due else none) with
        | some e => exec e s
        | none => issueSlot (s.toSlot k c)

/-- The state with an instruction stored where the next step fetches: the issuing context of the rotation's next slot, or, where
no context can issue, the one held apart, put into RUN with a tenant that has one window over page 0 of stack 0, reached by the
heap path; nothing waits in the inbox or is due. -/
def State.withFetchWord (s : State) (_nbits w : Nat) : State :=
  let c := match s.slot with
    | some e => e.2
    | none => s.cur
  let t := s.select c
  let win : Window := { valid := true, pbase := 0, pend := 16, pkg := t.pkgid, tier := 0, perms := 7#3, length := 0x10000 }
  let rec0 : TenantSt :=
    { key := 0, debug := false, queues := 1, evcount := 1, evdelay := 0, store := 0, windows := [(0, win)],
      root := Config.tableBase (t.cx.tenant.toNat % 64), tables := 1, heap := (0#64, 0x10000#64, 0#64), templates := [], events := [],
      dropped := false, waits := [], cmds := [], resetting := false, hostVec := [], trapSlot := 0, attached := [], session := none, fetches := [],
      evictions := [], marked := [] }
  { t with
    inbox := [], pkg := { t.pkg with powered := true },
    tenants := SMap.put none t.tenants (t.cx.tenant.toNat % 64) (some rec0),
    mem := writeMem t.mem 0 (bytesLE 4 w),
    poison := (coveredWords 0 32).foldl (fun l w => without l (· == w)) t.poison,
    cx := { t.cx with heapbase := 0#64, heaplim := 0x10000#64, heapoff := 0#64, st := .run, wait := .none, atBoundary := [],
                      ahead := none, ended := false, fetched := none, r := { t.cx.r with pc := 0#64, hints := [] } } }

end

end Sys2Proof.Machine
end

