-- ==== Sys2Proof/Safety.lean ====
section
/-! DEFINITION. What counts as a safe run: every step gives a next state; and the terms the statements use: which instructions
have a word, and when an instruction meets none of the causes that R285 puts before its own effect. -/

namespace Sys2Proof

/-- Whether the instruction has an encoding: a happening has none, and its word is 0, which is no instruction's (R280); the two
trap rows stand for words that encode nothing. -/
def Instr.isWord : Instr → Bool
  | .unassignedEncoding _ => false
  | .reservedHintKind _ => false
  | i => encode i != 0#32

end Sys2Proof

namespace Sys2Proof.Machine

/-- A run of k steps from a state meets no fault and no refusal. -/
def RunsOn : Nat → State → Prop
  | 0, _ => True
  | k + 1, s => ∃ t, step s = .next t ∧ RunsOn k t

end Sys2Proof.Machine
end

