-- ==== Sys2Proof/Certificates/Slice0/Obligations.lean ====
section
/-! DEFINITION. The statements about this machine, for the provers: what reset leaves, how words decode, what each instruction does
and what it leaves alone, what the rules about the whole machine say.  A statement that rests on a choice of the model names the
log entry. -/

/-! ## Terms the statements use -/

namespace Sys2Proof.Claims

open Sys2Proof.Machine

/-- The instruction issues outside runahead and accepts every hint word before it: none of the causes that R285 puts before its own
checks stands against it. -/
def Ready (i : Instr) (s : State) : Prop := s.cx.ahead = none ∧ badHint (encode i) s.cx.r.hints = none

/-- The instruction completes within its rotation, the registers being these before the pc moves on. -/
def Done (i : Instr) (s : State) (r : Regs) : Prop := exec i s = .next (s.finish r)

/-- The instruction completes after leaving the rotation, its operation not being kept in flight (R182). -/
def DoneLong (i : Instr) (s : State) (r : Regs) : Prop := exec i s = .next (s.replan.finish r)

/-- The instruction completes within its rotation, writing one scalar register. -/
def Gives (i : Instr) (s : State) (d : RegNo) (v : Word) : Prop := Done i s (s.cx.r.set d v)

/-- The instruction completes after leaving the rotation, writing one scalar register. -/
def GivesLong (i : Instr) (s : State) (d : RegNo) (v : Word) : Prop := DoneLong i s (s.cx.r.set d v)

/-- The instruction takes a trap with this cause and value of sr.tval and has no other effect; the record's INSN is its word, and a
TRANSLATION fault lists one page (R11, R207, R284, R286). -/
def Traps (i : Instr) (s : State) (cause : BitVec 8) (tval : Word) (write : Bool := false) : Prop :=
  exec i s = .next (s.takeTrap s.cur cause tval write false (if cause = 0x04#8 then [tval &&& ~~~0xFFF#64] else []) (encode i))

/-- The instruction or happening completes: `exec` answers a next state, and that state has a property. -/
def Ends (i : Instr) (s : State) (p : State → Prop) : Prop := ∃ t, exec i s = .next t ∧ p t

/-- The general registers, scalar and vector, of two register sets are the same. -/
def SameGeneral (r q : Regs) : Prop := (∀ n, r.get n = q.get n) ∧ ∀ n, r.vget n = q.vget n

/-- Every byte of memory, every full/empty bit and every poison mark of two states is the same. -/
def SameMemory (s t : State) : Prop := (∀ a, t.byteAt a = s.byteAt a) ∧ t.fe = s.fe ∧ t.poison = s.poison

/-- Every byte of memory and every full/empty bit of two states is the same, and so is the poison mark of every word, but for one in a
sector above whose DRAM copy a cache held another: dropping such a copy brings back what DRAM holds (R59, R91). -/
def SameBytes (s t : State) : Prop :=
  (∀ a, t.byteAt a = s.byteAt a) ∧ t.fe = s.fe ∧ ∀ w, SMap.look none s.under (w / 16) = none → (w ∈ t.poison ↔ w ∈ s.poison)

end Sys2Proof.Claims

open Sys2Proof Sys2Proof.Machine Sys2Proof.Claims

/-! ## Reset, fetch, decode -/

/-- Right after reset the boot status is READY; every memory byte reads zero, every basin word is empty, every register reads zero (R34,
R35); no word is poisoned and every context is IDLE.  That sr.cycle still is 0 at READY is the model's choice (log entry 6). -/
def Obligations.ResetLeavesZero : Prop :=
  State.reset.pkg.boot = 0x09#8 ∧ State.reset.cycle = 0#64
  ∧ (∀ a, State.reset.byteAt a = 0#8) ∧ (∀ w, State.reset.full w = false)
  ∧ (∀ a n, State.reset.poisoned a n = false)
  ∧ ∀ c, (State.reset.ctx c).st = .idle ∧ (∀ n, (State.reset.ctx c).r.get n = 0#64)
    ∧ (∀ n, (State.reset.ctx c).r.vget n = 0#1024) ∧ (State.reset.ctx c).r.pc = 0#64

/-- The memory right after reset has the canonical form, so that the invariant of `StepKeepsMemoryCanonical` holds there. -/
def Obligations.ResetMemoryCanonical : Prop := Memory.wf State.reset.mem = true

/-- Every step keeps memory in its canonical form: addresses strictly rising and no listed byte equal to what an unlisted address
reads as, so that equal contents of memory are equal data (R5, R34). -/
def Obligations.StepKeepsMemoryCanonical : Prop :=
  ∀ s t : State, Memory.wf s.mem = true → step s = .next t → Memory.wf t.mem = true

/-- Decode and encode agree: the word of every well-formed instruction that has one, with every operand at every value its field
takes, decodes to that instruction (R272, R279). -/
def Obligations.EncodedWordsDecode : Prop :=
  ∀ i : Instr, i.wf = true → i.isWord = true → decodeTableWord 32 (encode i).toNat = some i

/-- No word is read as an instruction whose own word is another: what decodes is well-formed and encodes back to the word, so no bit of
the word is ignored (R280). -/
def Obligations.DecodedWordsEncodeBack : Prop :=
  ∀ (w : IWord) (i : Instr), decodeWord w = .ok i → i.wf = true ∧ i.isWord = true ∧ encode i = w

/-- Words that the spec writes out decode to the instructions it names: Tables 10.15, 11.9 and 13.11 (R272). -/
def Obligations.WrittenWordsDecode : Prop :=
  decodeWord 0x17500005#32 = .ok (.movi 21 5) ∧ decodeWord 0x14D68020#32 = .ok (.slli 13 13 32)
  ∧ decodeWord 0x08F7FFFF#32 = .ok (.addi 15 15 0x7FFF) ∧ decodeWord 0x32F07FFC#32 = .ok (.bne 15 0 0x7FFC)
  ∧ decodeWord 0x4CC6C002#32 = .ok (.ldd 12 13 2 2) ∧ decodeWord 0x555A0000#32 = .ok (.std 21 20 0 0)
  ∧ decodeWord 0xFE000003#32 = .ok (.immx 3) ∧ decodeWord 0x5C050003#32 = .ok (.mwarm 10)
  ∧ decodeWord 0x5CD50004#32 = .ok (.mwait 13 10) ∧ decodeWord 0x3AD58003#32 = .ok (.bgeu 13 11 3)
  ∧ decodeWord 0x3C0FFFFC#32 = .ok (.jal 0 0xFFFFC)

/-- A step runs the decoded instruction.  With nothing in the inbox, nothing of the device's own due and a context's slot next, whose
loop end check, boundary traps and runahead records are not owed, the word at its program counter, where the address checks of kind
execute pass and the word is memory and not poisoned, is decoded from its four bytes, the least significant first, and what it decodes
to is executed: the step is exec of that instruction at the slot's state, the translation put into the TLBs.  The slot has moved
sr.cycle on to the cycle of the context's turn (R5, R165, R272, R281). -/
def Obligations.StepRunsDecodedInstruction : Prop :=
  ∀ (s u : State) (k : Nat) (c : CtxId) (a : Access) (i : Instr),
    s.inbox = [] → s.pkg.powered = true → s.slot = some (k, c) → (8 ≤ s.cycle.toNat % 8 + k → s.due = none) → u = s.toSlot k c →
    u.cx.ended = false → u.cx.boundaryTrap = none → (∀ r, u.cx.ahead = some r → r.ended = false) →
    u.tr .ex u.cx.r.pc = .ok a → unmappedPa a.loc = false → a.marked = false → u.poisoned a.loc 4 = false →
    decodeBytes (u.bytesAt a.loc 4) = some (.ok i, []) →
    step s = exec i { u.fillTlb u.cur a.fill with cx := { (u.fillTlb u.cur a.fill).cx with fetched := none } }

/-- The steps around an instruction's own complete.  A fetch whose address checks pass yields the word of the four bytes at the program
counter (R281).  A word that encodes nothing traps ILLEGAL_INSTRUCTION with tval the word (R280); one of a reserved hint kind or with a
reserved payload traps ILLEGAL_HINT with tval the word's own address (R275); the loop end check of an instruction that completed out
of the rotation is made and the pc goes on (R317). -/
def Obligations.FetchAndUnassignedWords : Prop :=
  (∀ (s : State) (a : Access), s.tr .ex s.cx.r.pc = .ok a → unmappedPa a.loc = false → a.marked = false → s.poisoned a.loc 4 = false →
    exec .instructionFetch s = .next { s.fillTlb s.cur a.fill with cx := { (s.fillTlb s.cur a.fill).cx with
      fetched := some (BitVec.ofNat 32 (s.natAtLoc a.loc 4)) } })
  ∧ (∀ (s : State) (w : IWord), s.cx.ahead = none →
    Traps (.unassignedEncoding w) s 0x01#8 (w.setWidth 64) ∧ Traps (.reservedHintKind w) s 0x02#8 s.cx.r.pc)
  ∧ (∀ (s : State), s.cx.ended = true →
    exec .loopEndCheck s = .next { s with cx := { s.cx with r := s.cx.r.advance, ended := false } })
  ∧ (∀ (w : IWord) (e : Reject), decodeWord w = .error e →
    issueWord w = (if e = .hintKind ∨ e = .hintPayload then .reservedHintKind w else .unassignedEncoding w))

/-! ## Registers, the program counter, hints -/

/-- The register file: s0 reads zero and writes to it are discarded with no other effect; any other scalar register reads what was last
written to it and a write changes no other register; a vector register likewise (R262, R265). -/
def Obligations.RegistersReadBack : Prop :=
  ∀ (r : Regs) (d n : RegNo) (v : Word) (k m : Nat) (x : VReg),
    r.get 0#5 = 0#64 ∧ (d = 0#5 → r.set d v = r)
    ∧ (r.set d v).get n = (if n = d ∧ d ≠ 0#5 then v else r.get n)
    ∧ (r.vset k x).vget m = (if m = k then x else r.vget m)
    ∧ (∀ j, (r.set d v).vget j = r.vget j) ∧ (∀ j, (r.vset k x).get j = r.get j)

/-- The loop end check of R317 for an instruction that completes without redirecting the pc, lc1 first and lc0 only where lc1 does not
loop; every other register is as it was, and the pending hints are used up (R275). -/
def Obligations.LoopEndCheck : Prop :=
  ∀ r : Regs,
    let at1 := r.lc1 ≠ 0#64 ∧ r.lend1 = r.pc
    let at0 := r.lc0 ≠ 0#64 ∧ r.lend0 = r.pc
    (at1 → r.lc1 ≠ 1#64 → r.advance = { r with pc := r.lstart1, lc1 := r.lc1 - 1#64, hints := [] })
    ∧ (at1 → r.lc1 = 1#64 → ¬ at0 → r.advance = { r with pc := r.pc + 4#64, lc1 := 0#64, hints := [] })
    ∧ (at1 → r.lc1 = 1#64 → at0 → r.lc0 ≠ 1#64 → r.advance = { r with pc := r.lstart0, lc1 := 0#64, lc0 := r.lc0 - 1#64, hints := [] })
    ∧ (at1 → r.lc1 = 1#64 → at0 → r.lc0 = 1#64 → r.advance = { r with pc := r.pc + 4#64, lc1 := 0#64, lc0 := 0#64, hints := [] })
    ∧ (¬ at1 → at0 → r.lc0 ≠ 1#64 → r.advance = { r with pc := r.lstart0, lc0 := r.lc0 - 1#64, hints := [] })
    ∧ (¬ at1 → at0 → r.lc0 = 1#64 → r.advance = { r with pc := r.pc + 4#64, lc0 := 0#64, hints := [] })
    ∧ (¬ at1 → ¬ at0 → r.advance = { r with pc := r.pc + 4#64, hints := [] })

/-- A hint word that is accepted takes an issue turn of its own: it joins the pending hint state with its kind, payload and address and
the next word follows, nothing else changing.  It traps ILLEGAL_HINT with tval its own address, and sr.epc the first word of its
chain, when its kind already stands in the chain, when it is the last word of the body of an active loop, or when its payload is
reserved (R275, R277, R278). -/
def Obligations.HintWords : Prop :=
  ∀ (s : State) (p : BitVec 22) (c : BitVec 2) (o : BitVec 1) (q : BitVec 2) (x r : BitVec 1) (m : BitVec 2), s.cx.ahead = none →
    let lastOfBody := (s.cx.r.lc1 ≠ 0#64 ∧ s.cx.r.lend1 = s.cx.r.pc) ∨ (s.cx.r.lc0 ≠ 0#64 ∧ s.cx.r.lend0 = s.cx.r.pc)
    let word := fun (i : Instr) (kind : BitVec 3) (payload : BitVec 22) =>
      (i.wf = true → ¬ lastOfBody → (∀ h ∈ s.cx.r.hints, h.kind ≠ kind) →
        exec i s = .next (s.setR { s.cx.r with pc := s.cx.r.pc + 4#64, hints := s.cx.r.hints ++ [⟨kind, payload, s.cx.r.pc⟩] }))
      ∧ (i.wf = false ∨ lastOfBody ∨ (∃ h ∈ s.cx.r.hints, h.kind = kind) → Traps i s 0x02#8 s.cx.r.pc)
    word (.immx p) 0#3 p ∧ word (.hcache c) 1#3 (c.setWidth 22) ∧ word (.hsched o) 2#3 (o.setWidth 22)
    ∧ word (.hmod q x r m) 3#3 ((q ++ x ++ r ++ m : BitVec 6).setWidth 22) ∧ word (.hnop p) 4#3 p

/-- An instruction with a hint before it that it does not accept does nothing but trap: ILLEGAL_HINT with tval the address of the first
such hint of the chain, unless the instruction is itself illegal, which comes first (R277, R285). -/
def Obligations.UnacceptedHintTraps : Prop :=
  ∀ (i : Instr) (s : State) (h : Hint), i.isWord = true → i.isHint = false → s.cx.ahead = none →
    badHint (encode i) s.cx.r.hints = some h →
    Traps i s 0x02#8 h.addr ∨ Traps i s 0x01#8 ((encode i).setWidth 64)

/-- An immediate field is sign-extended, and under IMMX the payload stands above the field and the whole is sign-extended (R273,
R274). -/
def Obligations.ImmediatesWiden : Prop :=
  ∀ (r : Regs) (n : Nat) (f : BitVec n) (p : BitVec 22) (a : Word),
    (r.hints = [] → r.imm n f = f.toInt)
    ∧ (r.hints = [⟨0#3, p, a⟩] → 0 < n → r.imm n f = p.toInt * 2 ^ n + f.toNat)

/-! ## Taking a trap and returning from one -/

/-- A trap in a compute-core context writes sr.cause, sr.tval and sr.epc, puts the context in TRAPPED, clears the pending hints, and sends
a record of it to the supervisor of its die; sr.epc and the pc are the first word of the chain.  No general register, no loop counter, no
vector state, no flag and no byte of memory changes (R278, R284, R286). -/
def Obligations.TrapEntry : Prop :=
  ∀ (s t : State) (c : CtxId) (cause : BitVec 8) (tval : Word) (wr ex : Bool) (pages : List Word) (insn : IWord),
    c.isSup = false → c.turn < 8 → t = s.takeTrap c cause tval wr ex pages insn →
    let r := (s.ctx c).r
    let first := match r.hints with
      | [] => r.pc
      | h :: _ => h.addr
    (t.ctx c).st = .trapped ∧ (t.ctx c).wait = .none
    ∧ (t.ctx c).r = { r with cause := cause.setWidth 64, tval := tval, epc := first, pc := first, hints := [] }
    ∧ (∃ old rec, t.traps = old ++ [rec] ∧ rec.ctx = c ∧ rec.cause = cause ∧ rec.epc = first ∧ rec.tval = tval ∧ rec.task = r.task
        ∧ rec.dom = r.dom ∧ rec.vstart = r.vstart ∧ rec.cycle = s.cycle ∧ rec.insn = insn ∧ rec.pages = pages
        ∧ rec.tenant = (s.ctx c).tenant.toNat % 64 ∧ rec.launch = ((s.ctx c).bound.map (·.launch)).getD 0
        ∧ rec.flags = (if c.reserve then 1#8 else 0#8) ||| (if wr then 2#8 else 0#8) ||| (if ex then 4#8 else 0#8))
    ∧ SameMemory s t ∧ t.cycle = s.cycle ∧ t.counters = s.counters ∧ t.dies = s.dies ∧ t.cores = s.cores

/-- A trap on a supervisor core writes sr.cause, sr.tval and sr.epc, clears the pending hint state and sets the pc to the trap entry
address; no record is written, the core goes on, and nothing outside of its bank changes (R335). -/
def Obligations.SupervisorTrapEntry : Prop :=
  ∀ (s : State) (c : CtxId) (cause : BitVec 8) (tval : Word) (wr ex : Bool) (pages : List Word) (insn : IWord),
    c.isSup = true →
    let r := (s.ctx c).r
    let first := match r.hints with
      | [] => r.pc
      | h :: _ => h.addr
    s.takeTrap c cause tval wr ex pages insn =
      s.setCtx c { s.ctx c with r := { r with cause := cause.setWidth 64, tval := tval, epc := first, pc := s.pkg.trapEntry, hints := [] },
                                st := .run, wait := .none }

/-! ## Integer, floating-point and control-flow instructions -/

namespace Sys2Proof.Claims

/-- An exact 64-bit result: wrapped modulo 2^64, or under HMOD SAT clamped to the signed range (R241, R247, R308). -/
def fit64 (s : State) (wrapped : Word) (exact : Int) : Word :=
  if s.cx.r.sat then BitVec.ofInt 64 (max (-2 ^ 63) (min (2 ^ 63 - 1) exact)) else wrapped

/-- An exact 32-bit result, sign-extended: wrapped modulo 2^32, or under HMOD SAT clamped to the signed range of 32 bits (R308). -/
def fit32 (s : State) (wrapped : BitVec 32) (exact : Int) : Word :=
  (if s.cx.r.sat then BitVec.ofInt 32 (max (-2 ^ 31) (min (2 ^ 31 - 1) exact)) else wrapped).signExtend 64

/-- One or zero. -/
def oneIf (b : Bool) : Word := if b then 1#64 else 0#64

end Sys2Proof.Claims

/-- The integer register-register instructions that complete within their rotation: each gives s[d] the value of Table 11.1 and changes
no other register; ADD, SUB, MUL, ADDW, SUBW and MULW saturate under HMOD SAT (R303, R305, R306, R308). -/
def Obligations.IntegerRegisterResults : Prop :=
  ∀ (s : State) (d a b : RegNo),
    let A := s.rd a
    let B := s.rd b
    let A32 : BitVec 32 := A.setWidth 32
    let B32 : BitVec 32 := B.setWidth 32
    let gives := fun (i : Instr) (v : Word) => Ready i s → Gives i s d v
    gives (.add d a b) (fit64 s (A + B) (A.toInt + B.toInt))
    ∧ gives (.sub d a b) (fit64 s (A - B) (A.toInt - B.toInt))
    ∧ gives (.and d a b) (A &&& B) ∧ gives (.or d a b) (A ||| B) ∧ gives (.xor d a b) (A ^^^ B) ∧ gives (.andn d a b) (A &&& ~~~B)
    ∧ gives (.sll d a b) (A <<< (B.toNat % 64)) ∧ gives (.srl d a b) (A >>> (B.toNat % 64))
    ∧ gives (.sra d a b) (A.sshiftRight (B.toNat % 64))
    ∧ gives (.rol d a b) (A.rotateLeft (B.toNat % 64)) ∧ gives (.ror d a b) (A.rotateRight (B.toNat % 64))
    ∧ gives (.slt d a b) (oneIf (A.toInt < B.toInt)) ∧ gives (.sltu d a b) (oneIf (A.toNat < B.toNat))
    ∧ gives (.min d a b) (if A.toInt < B.toInt then A else B) ∧ gives (.max d a b) (if A.toInt < B.toInt then B else A)
    ∧ gives (.minu d a b) (if A.toNat < B.toNat then A else B) ∧ gives (.maxu d a b) (if A.toNat < B.toNat then B else A)
    ∧ gives (.popc d a) (BitVec.ofNat 64 ((List.range 64).countP (fun i => A.getLsbD i)))
    ∧ (Ready (.clz d a) s → ∃ n, n ≤ 64 ∧ Gives (.clz d a) s d (BitVec.ofNat 64 n)
        ∧ (∀ i, 64 - n ≤ i → A.getLsbD i = false) ∧ (n < 64 → A.getLsbD (63 - n) = true))
    ∧ (Ready (.ctz d a) s → ∃ n, n ≤ 64 ∧ Gives (.ctz d a) s d (BitVec.ofNat 64 n)
        ∧ (∀ i, i < n → A.getLsbD i = false) ∧ (n < 64 → A.getLsbD n = true))
    ∧ gives (.sextb d a) ((A.setWidth 8).signExtend 64) ∧ gives (.sexth d a) ((A.setWidth 16).signExtend 64)
    ∧ gives (.sextw d a) (A32.signExtend 64) ∧ gives (.zextw d a) (A &&& 0xFFFFFFFF#64)
    ∧ gives (.addw d a b) (fit32 s (A32 + B32) (A32.toInt + B32.toInt))
    ∧ gives (.subw d a b) (fit32 s (A32 - B32) (A32.toInt - B32.toInt))
    ∧ gives (.sllw d a b) ((A32 <<< (B.toNat % 32)).signExtend 64) ∧ gives (.srlw d a b) ((A32 >>> (B.toNat % 32)).signExtend 64)
    ∧ gives (.sraw d a b) ((A32.sshiftRight (B.toNat % 32)).signExtend 64)
    ∧ gives (.mul d a b) (fit64 s (A * B) (A.toInt * B.toInt))
    ∧ gives (.mulh d a b) (((A.signExtend 128) * (B.signExtend 128)).extractLsb' 64 64)
    ∧ gives (.mulhu d a b) (((A.setWidth 128) * (B.setWidth 128)).extractLsb' 64 64)
    ∧ gives (.mulhsu d a b) (((A.signExtend 128) * (B.setWidth 128)).extractLsb' 64 64)
    ∧ gives (.mulw d a b) (fit32 s (A32 * B32) (A32.toInt * B32.toInt))

/-- The divisions leave the rotation and, where the operation is not kept in flight, give the truncated quotient or the remainder with the
sign of the dividend; a divisor of zero gives the quotient all ones and the remainder the dividend, and the most negative number by
minus one gives itself and remainder zero (R242, R306, R307, Table 9.1). -/
def Obligations.DivisionResults : Prop :=
  ∀ (s : State) (d a b : RegNo), s.planned = false →
    let A := s.rd a
    let B := s.rd b
    let A32 : BitVec 32 := A.setWidth 32
    let B32 : BitVec 32 := B.setWidth 32
    let gives := fun (i : Instr) (v : Word) => Ready i s → GivesLong i s d v
    gives (.div d a b) (if B = 0#64 then ~~~0#64 else A.sdiv B) ∧ gives (.divu d a b) (if B = 0#64 then ~~~0#64 else A / B)
    ∧ gives (.rem d a b) (if B = 0#64 then A else A.srem B) ∧ gives (.remu d a b) (if B = 0#64 then A else A % B)
    ∧ gives (.divw d a b) (if B32 = 0#32 then ~~~0#64 else (A32.sdiv B32).signExtend 64)
    ∧ gives (.divuw d a b) (if B32 = 0#32 then ~~~0#64 else (A32 / B32).signExtend 64)
    ∧ gives (.remw d a b) (if B32 = 0#32 then A32.signExtend 64 else (A32.srem B32).signExtend 64)
    ∧ gives (.remuw d a b) (if B32 = 0#32 then A32.signExtend 64 else (A32 % B32).signExtend 64)

/-- The integer immediate instructions give s[d] the value of Table 11.2, I being the immediate sign-extended and widened by IMMX; shifts
take a 6-bit amount; ADDPC starts from the address of its own word; ADDI and ADDIW saturate under HMOD SAT (R273, R274, R308 to
R310). -/
def Obligations.IntegerImmediateResults : Prop :=
  ∀ (s : State) (d a : RegNo) (m : BitVec 15) (n : BitVec 6),
    let A := s.rd a
    let A32 : BitVec 32 := A.setWidth 32
    let I : Int := s.cx.r.imm 15 m
    let W : Word := BitVec.ofInt 64 I
    let gives := fun (i : Instr) (v : Word) => Ready i s → Gives i s d v
    gives (.addi d a m) (fit64 s (A + W) (A.toInt + I)) ∧ gives (.addiw d a m) (fit32 s (A32 + BitVec.ofInt 32 I) (A32.toInt + I))
    ∧ gives (.andi d a m) (A &&& W) ∧ gives (.ori d a m) (A ||| W) ∧ gives (.xori d a m) (A ^^^ W)
    ∧ gives (.slti d a m) (oneIf (A.toInt < I)) ∧ gives (.sltiu d a m) (oneIf (A.toNat < W.toNat))
    ∧ gives (.slli d a n) (A <<< n.toNat) ∧ gives (.srli d a n) (A >>> n.toNat) ∧ gives (.srai d a n) (A.sshiftRight n.toNat)
    ∧ gives (.rori d a n) (A.rotateRight n.toNat)
    ∧ gives (.movi d m) W ∧ gives (.addpc d m) (s.cx.r.pc + W)

/-- The scalar floating-point instructions give s[d] the code of Table 11.3's result in the format that f selects, the upper bits zero, and
accumulate in FFLAGS the flags the operation raises, no other register changing; the multiply-accumulates read s[d] and round once;
FCVT converts by its code with the scale in the low 8 bits of s[sc]; FDIV and FSQRT leave the rotation (R245, R263, R311 to R314). -/
def Obligations.FloatingPointResults : Prop :=
  ∀ (s : State) (d a b sc : RegNo) (f : BitVec 1) (c : BitVec 5),
    let A := (s.rd a).toNat
    let B := (s.rd b).toNat
    let D := (s.rd d).toNat
    let F : Fmt := if f = 1#1 then bf16 else fp32
    let rm := s.cx.r.rm
    let sat := s.cx.r.sat
    let with_ := fun (x : Nat × BitVec 5) => ({ s.cx.r.set d (BitVec.ofNat 64 x.1) with fflags := s.cx.r.fflags ||| x.2 } : Regs)
    let gives := fun (i : Instr) (x : Nat × BitVec 5) => Ready i s → Done i s (with_ x)
    let givesLong := fun (i : Instr) (x : Nat × BitVec 5) => Ready i s → s.planned = false → DoneLong i s (with_ x)
    gives (.fadd d a b f) (F.add rm sat A B) ∧ gives (.fsub d a b f) (F.sub rm sat A B) ∧ gives (.fmul d a b f) (F.mul rm sat A B)
    ∧ givesLong (.fdiv d a b f) (F.div rm sat A B) ∧ givesLong (.fsqrt d a f) (F.sqrt rm sat A)
    ∧ gives (.fmin d a b f) (F.minMax false A B) ∧ gives (.fmax d a b f) (F.minMax true A B)
    ∧ gives (.feq d a b f) (if (F.feq A B).1 then 1 else 0, (F.feq A B).2)
    ∧ gives (.flt d a b f) (if (F.flt A B).1 then 1 else 0, (F.flt A B).2)
    ∧ gives (.fle d a b f) (if (F.fle A B).1 then 1 else 0, (F.fle A B).2)
    ∧ gives (.fclass d a f) (F.classOf A, 0#5) ∧ gives (.fabs d a f) (F.signOp false A) ∧ gives (.fneg d a f) (F.signOp true A)
    ∧ gives (.fmac d a b f) (F.fma rm sat false D A B) ∧ gives (.fmsac d a b f) (F.fma rm sat true D A B)
    ∧ ((Instr.fcvt d a c sc).wf = true → gives (.fcvt d a c sc) (convertCode rm sat c.toNat (s.rd sc).toNat A))

/-- The special cases of chapter 9's arithmetic in FP32 and BF16, for every code: an operation on a NaN gives the canonical NaN, and a
signalling one raises NV; infinity less infinity, zero times infinity, zero by zero, infinity by infinity and the root of a number
below zero are invalid; a finite nonzero number by zero gives infinity with DZ; comparisons with a NaN are false, quiet for FEQ and
invalid for FLT and FLE; a value a format holds rounds to itself and raises nothing (R10, R244, R312). -/
def Obligations.FloatingPointSpecialCases : Prop :=
  ∀ (f : Fmt) (rm : Rm) (sat : Bool) (a b : Nat), f = fp32 ∨ f = bf16 →
    let nanA := ∃ sg, f.dec a = .nan sg
    let nanB := ∃ sg, f.dec b = .nan sg
    let signalling := f.dec a = .nan true ∨ f.dec b = .nan true
    (nanA ∨ nanB → (f.add rm sat a b).1 = f.nan ∧ (f.sub rm sat a b).1 = f.nan ∧ (f.mul rm sat a b).1 = f.nan ∧ (f.div rm sat a b).1 = f.nan
      ∧ ((f.add rm sat a b).2 = if signalling then 0x10#5 else 0#5) ∧ ((f.mul rm sat a b).2 = if signalling then 0x10#5 else 0#5)
      ∧ (f.feq a b).1 = false ∧ ((f.feq a b).2 = if signalling then 0x10#5 else 0#5)
      ∧ f.flt a b = (false, 0x10#5) ∧ f.fle a b = (false, 0x10#5))
    ∧ (∀ n, f.dec a = .inf n → f.dec b = .inf (!n) → f.add rm sat a b = (f.nan, 0x10#5))
    ∧ (∀ n k m e, f.dec a = .inf n → f.dec b = .fin k m e → m = 0 → f.mul rm sat a b = (f.nan, 0x10#5))
    ∧ (∀ n k, f.dec a = .inf n → f.dec b = .inf k → f.div rm sat a b = (f.nan, 0x10#5))
    ∧ (∀ n k m e g, f.dec a = .fin n m e → f.dec b = .fin k 0 g → m ≠ 0 → f.div rm sat a b = (f.sgn (n != k) + f.inf, 0x08#5))
    ∧ (∀ n k e g, f.dec a = .fin n 0 e → f.dec b = .fin k 0 g → f.div rm sat a b = (f.nan, 0x10#5))
    ∧ (∀ m e, f.dec a = .fin true m e → m ≠ 0 → f.sqrt rm sat a = (f.nan, 0x10#5))
    ∧ (∀ n m e, f.dec a = .fin n m e → f.round rm sat n m e = (a % 2 ^ f.bits, 0#5))

/-- Branches go to the address of their word plus four times the offset, widened by IMMX, when their condition holds, without a loop end
check, and otherwise to the next word; JAL and JALR write the address of the next word to s[d]; a JALR target that is no multiple of
4 traps MISALIGNED with tval the target and writes nothing (R273, R281, R315 to R317). -/
def Obligations.BranchesAndJumps : Prop :=
  ∀ (s : State) (d a b : RegNo) (o m : BitVec 15) (j : BitVec 20),
    let A := s.rd a
    let B := s.rd b
    let pc := s.cx.r.pc
    let goTo := fun (i : Instr) (r : Regs) (t : Word) => exec i s = .next (s.setR { r with pc := t, hints := [] })
    let target := pc + BitVec.ofInt 64 (4 * s.cx.r.imm 15 o)
    let branch := fun (i : Instr) (c : Bool) => Ready i s → (c = true → goTo i s.cx.r target) ∧ (c = false → Done i s s.cx.r)
    branch (.beq a b o) (A = B) ∧ branch (.bne a b o) (A ≠ B)
    ∧ branch (.blt a b o) (A.toInt < B.toInt) ∧ branch (.bge a b o) (B.toInt ≤ A.toInt)
    ∧ branch (.bltu a b o) (A.toNat < B.toNat) ∧ branch (.bgeu a b o) (B.toNat ≤ A.toNat)
    ∧ (Ready (.jal d j) s → goTo (.jal d j) (s.cx.r.set d (pc + 4#64)) (pc + BitVec.ofInt 64 (4 * s.cx.r.imm 20 j)))
    ∧ (Ready (.jalr d a m) s →
        let t := A + BitVec.ofInt 64 (s.cx.r.imm 15 m)
        (t.toNat % 4 = 0 → goTo (.jalr d a m) (s.cx.r.set d (pc + 4#64)) t)
        ∧ (t.toNat % 4 ≠ 0 → Traps (.jalr d a m) s 0x03#8 t))

/-- LOOP: a length of zero or less is an illegal instruction; a count of zero skips the body; otherwise the counter takes s[a] and the
hidden addresses those of the first and last word of the body, and the next word follows (R274, R317). -/
def Obligations.LoopSetUp : Prop :=
  ∀ (s : State) (n : BitVec 1) (a : RegNo) (l : BitVec 15),
    let len : Int := s.cx.r.imm 15 l
    let pc := s.cx.r.pc
    let i : Instr := .loop n a l
    (len ≤ 0 → s.cx.ahead = none → Traps i s 0x01#8 ((encode i).setWidth 64))
    ∧ (0 < len → Ready i s → s.rd a = 0#64 →
        exec i s = .next (s.setR { s.cx.r with pc := pc + BitVec.ofInt 64 (4 * (len + 1)), hints := [] }))
    ∧ (0 < len → Ready i s → s.rd a ≠ 0#64 →
        (n = 0#1 → Done i s { s.cx.r with lc0 := s.rd a, lstart0 := pc + 4#64, lend0 := pc + BitVec.ofInt 64 (4 * len) })
        ∧ (n = 1#1 → Done i s { s.cx.r with lc1 := s.rd a, lstart1 := pc + 4#64, lend1 := pc + BitVec.ofInt 64 (4 * len) }))

/-! ## Memory -/

namespace Sys2Proof.Claims

open Sys2Proof.Machine

/-- The state after a translation: what the walk or the die's TLB gave is in the TLBs (R202). -/
def tlbd (s : State) (x : Access) : State := s.fillTlb s.cur x.fill

/-- The value of loaded bytes, the least significant first: sign-extended or zero-extended (R5, R318). -/
def loaded (signed : Bool) (n : Nat) (b : List Byte) : Word :=
  if signed then ((BitVec.ofNat 64 (ofBytes b)).setWidth (8 * n)).signExtend 64 else BitVec.ofNat 64 (ofBytes b)

/-- An access of n bytes stays within one 128-byte sector (R199). -/
def InSector (va : Word) (n : Nat) : Prop := va.toNat % 128 + n ≤ 128

/-- What one scalar load does (R318): its address, its alignment trap, its address faults, and its result. -/
def LoadDoes (i : Instr) (d a : RegNo) (w : BitVec 2) (off : BitVec 13) (n : Nat) (signed : Bool) : Prop :=
  ∀ (s : State), Ready i s → s.plan = [] → s.countsZero w = true →
    let va := s.rd a + BitVec.ofInt 64 (n * s.cx.r.imm 13 off)
    (¬ InSector va n → Traps i s 0x03#8 va)
    ∧ (∀ c, InSector va n → s.tr .rd va = .fault c → Traps i s c va)
    ∧ (∀ (x : Access) (b : List Byte) (t : State), InSector va n → s.tr .rd va = .ok x → isCtl x.loc = false →
        (tlbd s x).read x n (w != 0#2) = .val b t →
        exec i s = .next (t.finish (t.cx.r.set d (loaded signed n b))))

/-- What one scalar store does (R318, R319): its address, its traps, and its effect; the store itself is `State.storeAt`. -/
def StoreDoes (i : Instr) (d a : RegNo) (w : BitVec 2) (off : BitVec 13) (n : Nat) : Prop :=
  ∀ (s : State), Ready i s → s.plan = [] → s.countsZero w = true →
    let va := s.rd a + BitVec.ofInt 64 (n * s.cx.r.imm 13 off)
    (¬ InSector va n → Traps i s 0x03#8 va true)
    ∧ (∀ c, InSector va n → s.tr .wr va = .fault c → Traps i s c va true)
    ∧ (∀ x, InSector va n → s.tr .wr va = .ok x → x.fill = none → isCtl x.loc = false → unmappedPa x.loc = false →
        x.marked = false →
        (s.held x.loc n = true → Traps i s 0x09#8 va true)
        ∧ (∀ t, s.held x.loc n = false → s.storeAt x (bytesLE n (s.rd d).toNat) = some t →
            exec i s = .next ((t.noteStitch x n).finish s.cx.r)))

end Sys2Proof.Claims

/-- The scalar loads: LDB, LDH, LDW sign-extend, LDBU, LDHU, LDWU, LDD zero-extend; with the stores of the W field acknowledged, an access
that would cross a 128-byte sector traps MISALIGNED, an address fault traps with its cause, and otherwise s[d] takes the bytes read
(R199, R318, Table 7.6). -/
def Obligations.ScalarLoads : Prop :=
  ∀ (d a : RegNo) (w : BitVec 2) (o : BitVec 13),
    LoadDoes (.ldb d a w o) d a w o 1 true ∧ LoadDoes (.ldbu d a w o) d a w o 1 false
    ∧ LoadDoes (.ldh d a w o) d a w o 2 true ∧ LoadDoes (.ldhu d a w o) d a w o 2 false
    ∧ LoadDoes (.ldw d a w o) d a w o 4 true ∧ LoadDoes (.ldwu d a w o) d a w o 4 false
    ∧ LoadDoes (.ldd d a w o) d a w o 8 false

/-- The scalar stores STB, STH, STW and STD: with the stores of the W field acknowledged, a sector crossing traps MISALIGNED, an address
fault traps with its cause, a HOLD range traps HOLD_VIOLATION, and otherwise the low bytes of s[d] are stored, the least significant
at the lowest address (R5, R199, R318, R319). -/
def Obligations.ScalarStores : Prop :=
  ∀ (d a : RegNo) (w : BitVec 2) (o : BitVec 13),
    StoreDoes (.stb d a w o) d a w o 1 ∧ StoreDoes (.sth d a w o) d a w o 2
    ∧ StoreDoes (.stw d a w o) d a w o 4 ∧ StoreDoes (.std d a w o) d a w o 8

/-- What a read gives: the bytes of the basin word; of memory homed on the issuing die, with the context's own stores acknowledged and
the home slice able to serve it, the bytes in memory; of another die's memory read at its home, where the home's completion vector covers the
reader's and no young entry stands on the sector, the bytes in memory; of another package's, with no store of the die to it in flight, the
bytes there; a poisoned or marked sector is poison.  No read changes a byte of memory, whatever its home slice evicts for it, nor the
poison of a sector of which no cache holds another copy than DRAM (R64, R69, R91, R187, R216, R220, R222). -/
def Obligations.ReadsGiveMemory : Prop :=
  ∀ (s : State) (x : Access) (n : Nat) (home : Bool),
    (isBasin x.loc = true → s.poisoned x.loc n = false → s.read x n home = .val (s.bytesAt x.loc n) s)
    ∧ (isBasin x.loc = true → s.poisoned x.loc n = true → s.read x n home = .poison)
    ∧ (isBasin x.loc = false → s.cx.pendOwn = 0 → unmappedPa x.loc = false →
        (∀ h, homeDie x.loc = some h → s.homeWait h x.slice x.loc n = none → (h ≠ s.cur.die → s.routeHeld x.loc = false) →
          (x.marked = false → s.sectorPoisoned x.loc n = false →
            (h = s.cur.die → ∃ t, s.read x n home = .val (s.bytesAt x.loc n) t)
            ∧ (h ≠ s.cur.die → coversVec (s.die h).k (s.die s.cur.die).v none = true →
                (s.die h).liveYoung.any (fun y => (sectorsOf x.loc n).contains y.sector) = false →
                ∃ t, s.read x n true = .val (s.bytesAt x.loc n) t))
          ∧ (h = s.cur.die → x.marked = true ∨ s.sectorPoisoned x.loc n = true → s.read x n home = .poison))
        ∧ (homeDie x.loc = none → s.net = [] → s.routeHeld x.loc = false →
            (x.marked = false → s.sectorPoisoned x.loc n = false → s.read x n home = .val (s.bytesAt x.loc n) s)
            ∧ (x.marked = true ∨ s.sectorPoisoned x.loc n = true → s.read x n home = .poison)))
    ∧ (∀ b t, s.read x n home = .val b t → SameBytes s t ∧ t.cx = s.cx ∧ t.cur = s.cur)

/-- A store writes its bytes where its address says and nowhere else: every other byte of memory is as it was; a basin store is in memory
at once, and so is one to memory homed on the issuing die, within a sector that is not poisoned, with no earlier store in flight and the
home slice able to serve it (R66, R187, R199, R214, R216). -/
def Obligations.StoresWriteTheirBytes : Prop :=
  ∀ (s t : State) (x : Access) (b : List Byte), s.storeAt x b = some t →
    (∀ a, a < x.loc ∨ x.loc + b.length ≤ a → t.byteAt a = s.byteAt a)
    ∧ (isBasin x.loc = true → t.bytesAt x.loc b.length = b)
    ∧ (isBasin x.loc = false → homeDie x.loc = some s.cur.die → s.plan = [] → s.net = [] → s.migrations = [] → s.fab.heldLines = [] →
        x.loc % 128 + b.length ≤ 128 → s.sectorPoisoned x.loc b.length = false → s.homeWait s.cur.die x.slice x.loc b.length = none →
        t.bytesAt x.loc b.length = b)

/-- Memory reads back what was written, and the canonical form is kept by a write (R5). -/
def Obligations.MemoryReadAfterWrite : Prop :=
  ∀ (m : Memory) (loc : Nat) (b : List Byte), Memory.wf m = true →
    Memory.wf (writeMem m loc b) = true
    ∧ (∀ i (h : i < b.length), SMap.look memDefault (writeMem m loc b) (loc + i) = b[i])
    ∧ (∀ a, a < loc ∨ loc + b.length ≤ a → SMap.look memDefault (writeMem m loc b) a = SMap.look memDefault m a)

/-- The order of the address checks of Table 7.6 for a task's access: a non-canonical address faults; the basin window reaches a page the
context holds, at its own core's basin, and faults elsewhere; the aperture is recognised; another address of the upper half faults;
the heap range is translated by one addition; all else goes by the page tables (R185, R192, R199, R200, R201). -/
def Obligations.AddressCheckOrder : Prop :=
  ∀ (s : State) (k : AccKind) (va : Word), s.cur.isSup = false →
    let n := va.toNat
    let off := n - 0xFFFF800000000000
    (2 ^ 47 ≤ n → n < 2 ^ 64 - 2 ^ 47 → s.tr k va = .fault 0x05#8)
    ∧ (0xFFFF800000000000 ≤ n → n < 0xFFFF800000100000 →
        (s.basinPageOk s.cur s.cx.tn (off / 4096) = true →
          ∃ x, s.tr k va = .ok x ∧ x.loc = basinLoc s.cur.die s.cur.core off ∧ x.fill = none)
        ∧ (s.basinPageOk s.cur s.cx.tn (off / 4096) = false → s.tr k va = .fault 0x05#8))
    ∧ (0xFFFF800000100000 ≤ n → n < 0xFFFF800000100400 →
        s.tr k va = .aperture ((n - 0xFFFF800000100000) / 64) ((n - 0xFFFF800000100000) % 64))
    ∧ (0xFFFF800000100400 ≤ n → s.tr k va = .fault 0x05#8)
    ∧ (n < 2 ^ 47 → (va - s.cx.heapbase).toNat < s.cx.heaplim.toNat → s.tr k va = s.heapTr false s.cx.tn s.cx.heapoff k va)
    ∧ (n < 2 ^ 47 → s.cx.heaplim.toNat ≤ (va - s.cx.heapbase).toNat → s.tr k va = s.pageTr s.cur s.cx.tn k n)

/-- The full/empty instructions on an aligned word of the context's basin: LDF of a full word loads it, and in mode 01 empties it, and of an
empty one waits; STF stores the word and fills it, in mode 01 only an empty one, and waits on a full one; FESET and FECLR set and
clear the bit; FEST reads it; the transition as a happening of its own sets the bit and wakes who waits; an address that is no multiple
of 8 traps MISALIGNED, one outside the basin WINDOW_PROTECTION (R186, R321, R322, R324, Table 7.2). -/
def Obligations.FullEmptyWords : Prop :=
  ∀ (s : State) (d a : RegNo) (m : BitVec 1) (o : BitVec 13),
    let va := s.rd a + BitVec.ofInt 64 (8 * s.cx.r.imm 13 o)
    let word := fun (v : Word) (k : AccKind) (x : Access) => v.toNat % 8 = 0 ∧ s.tr k v = .ok x ∧ isBasin x.loc = true
    (∀ x, Ready (.ldf d a m o) s → word va .rd x → s.full (x.loc / 8) = true → s.poisoned x.loc 8 = false →
      exec (.ldf d a m o) s = .next ((if m = 1#1 then s.fullEmpty x.loc false else s).finishSet d (BitVec.ofNat 64 (s.natAtLoc x.loc 8))))
    ∧ (∀ x, Ready (.ldf d a m o) s → word va .rd x → s.full (x.loc / 8) = false →
      exec (.ldf d a m o) s = .next (s.waitOn (.basinWord (x.loc / 8))))
    ∧ (∀ x, Ready (.stf d a m o) s → word va .wr x → s.held x.loc 8 = false → (m = 1#1 → s.full (x.loc / 8) = false) →
      ∃ t, exec (.stf d a m o) s = .next t ∧ t.full (x.loc / 8) = true ∧ t.bytesAt x.loc 8 = bytesLE 8 (s.rd d).toNat
        ∧ t.cx.r = s.cx.r.advance ∧ ∀ b, b < x.loc ∨ x.loc + 8 ≤ b → t.byteAt b = s.byteAt b)
    ∧ (∀ x, Ready (.stf d a 1#1 o) s → word va .wr x → s.full (x.loc / 8) = true →
      exec (.stf d a 1#1 o) s = .next (s.waitOn (.basinWord (x.loc / 8))))
    ∧ (∀ x, Ready (.feset a) s → word (s.rd a) .rd x → exec (.feset a) s = .next ((s.fullEmpty x.loc true).finish (s.fullEmpty x.loc true).cx.r))
    ∧ (∀ x, Ready (.feclr a) s → word (s.rd a) .rd x → exec (.feclr a) s = .next ((s.fullEmpty x.loc false).finish (s.fullEmpty x.loc false).cx.r))
    ∧ (∀ x, Ready (.fest d a) s → word (s.rd a) .rd x → Gives (.fest d a) s d (oneIf (s.full (x.loc / 8))))
    ∧ (∀ die core w b, die < 16 → core < 64 → w < 2 ^ 17 →
      exec (.fullEmptyChange die core w b) s = .next (s.fullEmpty (basinLoc die core (8 * w)) b))
    ∧ (Ready (.fest d a) s → (s.rd a).toNat % 8 ≠ 0 → Traps (.fest d a) s 0x03#8 (s.rd a))

/-- FENCE ends when the stores of the classes it selects are acknowledged, and waits before; ROINV drops the tenant's read-only buffer lines of
the range; CFLUSH and CINV of an empty range only complete, and otherwise go page by page; PREF never traps; LDRO returns a buffered
sector's data with no check (R198, R231, R320, R322, R324, Table 11.5). -/
def Obligations.FencesAndCacheControl : Prop :=
  ∀ (s : State) (d a b : RegNo) (m : BitVec 3) (o : BitVec 13),
    (Ready (.fence m) s → m ≠ 0#3 →
      ((m.getLsbD 0 = true → s.cx.pendOwn = 0) ∧ (m.getLsbD 1 = true → s.cx.pendD = 0) ∧ (m.getLsbD 2 = true → s.cx.pendX = 0) →
        Done (.fence m) s s.cx.r)
      ∧ ((m.getLsbD 0 = true ∧ s.cx.pendOwn ≠ 0) ∨ (m.getLsbD 1 = true ∧ s.cx.pendD ≠ 0) ∨ (m.getLsbD 2 = true ∧ s.cx.pendX ≠ 0) →
        exec (.fence m) s = .next (s.waitOn .stores)))
    ∧ (Ready (.roinv a b) s → exec (.roinv a b) s = .next ((s.onCore s.cur.die s.cur.core (fun k =>
        { k with robuf := k.robuf.filter (fun r => !(r.tenant == s.cx.tn && lineInRange (r.va / 4) (s.rd a) (s.rd b))) })).finish s.cx.r))
    ∧ (Ready (.cflush a b) s → s.plan = [] → s.rd b = 0#64 → Done (.cflush a b) s s.cx.r)
    ∧ (Ready (.cinv a b) s → s.plan = [] → s.rd b = 0#64 → Done (.cinv a b) s s.cx.r)
    ∧ (∀ x, Ready (.cflush a b) s → s.plan = [] → 0 < (s.rd b).toNat → (s.rd a).toNat % 4096 + (s.rd b).toNat ≤ 4096 →
        s.tr .rd (s.rd a) = .ok x → isBasin x.loc = false → x.win.ship = false → isCtl x.loc = false →
        exec (.cflush a b) s = .next (((tlbd s x).cleanRange x.loc (s.rd b).toNat false).finish
          ((tlbd s x).cleanRange x.loc (s.rd b).toNat false).cx.r))
    ∧ (∀ x, Ready (.cinv a b) s → s.plan = [] → 0 < (s.rd b).toNat → (s.rd a).toNat % 4096 + (s.rd b).toNat ≤ 4096 →
        s.tr .rd (s.rd a) = .ok x → isBasin x.loc = false → x.win.ship = false → isCtl x.loc = false →
        exec (.cinv a b) s = .next (((tlbd s x).cleanRange x.loc (s.rd b).toNat true).finish
          ((tlbd s x).cleanRange x.loc (s.rd b).toNat true).cx.r))
    ∧ (Ready (.pref a) s → ∃ t, exec (.pref a) s = .next t ∧ t.cx.r = s.cx.r.advance ∧ t.cx.st = s.cx.st ∧ SameBytes s t)
    ∧ (let va := s.rd a + BitVec.ofInt 64 (8 * s.cx.r.imm 13 o)
       Ready (.ldro d a o) s →
        (va.toNat % 8 ≠ 0 → Traps (.ldro d a o) s 0x03#8 va)
        ∧ (∀ r, va.toNat % 8 = 0 → s.myCore.roHit s.cx.tn va = some r → Gives (.ldro d a o) s d (wordAt r.bytes (va.toNat % 128))))

/-- Monitors: MWARM arms the context's monitor on the sector its address lies in, not fired; MWAIT waits while the monitor is armed on that
sector and has not fired, and otherwise disarms it and loads 8 bytes as LDD does (R323). -/
def Obligations.Monitors : Prop :=
  ∀ (s : State) (d a : RegNo) (x : Access), s.plan = [] → s.tr .rd (s.rd a) = .ok x →
    (Ready (.mwarm a) s → x.win.ship = false → ∃ t, exec (.mwarm a) s = .next t
      ∧ t.cx.monitor = some ⟨x.loc / 128, false, none⟩ ∧ t.cx.r = s.cx.r.advance ∧ SameMemory s t)
    ∧ (∀ q, Ready (.mwait d a) s → InSector (s.rd a) 8 → x.fill = none → s.cx.monitor = some q → q.fired = false → q.sector = x.loc / 128 →
      exec (.mwait d a) s = .next (({ s with cx := { s.cx with monitor := some { q with since := some s.cycle.toNat } } } : State).waitOn .monitor))
    ∧ (∀ b t, Ready (.mwait d a) s → InSector (s.rd a) 8 → x.fill = none → isCtl x.loc = false →
      (∀ q, s.cx.monitor = some q → q.fired = true ∨ q.sector ≠ x.loc / 128) →
      ({ s with cx := { s.cx with monitor := none } } : State).read x 8 false = .val b t →
      exec (.mwait d a) s = .next (t.finish (t.cx.r.set d (BitVec.ofNat 64 (ofBytes b)))) ∧ t.cx.monitor = none)

namespace Sys2Proof.Claims

open Sys2Proof.Machine

/-- What one atomic does (R325 to R327): its alignment, its address faults, and its result: s[d] takes the old value, placed by ext, and
memory what f gives of it; a HOLD range traps HOLD_VIOLATION. -/
def AtomicDoes (i : Instr) (d a : RegNo) (w : BitVec 2) (n : Nat) (f : State → Nat → Option Nat) (signed : Bool) : Prop :=
  ∀ (s : State), Ready i s → s.plan = [] → s.countsZero w = true →
    let va := s.rd a
    (va.toNat % n ≠ 0 → Traps i s 0x03#8 va true)
    ∧ (∀ c, va.toNat % n = 0 → s.tr .wr va = .fault c → Traps i s c va true)
    ∧ (∀ x, va.toNat % n = 0 → s.tr .wr va = .ok x → x.fill = none → x.win.ship = false → isCtl x.loc = false →
        (s.held x.loc n = true → Traps i s 0x09#8 va true)
        ∧ (∀ old t, s.held x.loc n = false → s.atomic x n (f s) = .done old t →
            exec i s = .next ((t.noteStitch x n).finish
              (t.cx.r.set d (if signed ∧ n = 4 then (BitVec.ofNat 32 old).signExtend 64 else BitVec.ofNat 64 old)))))

/-- The operand of an atomic: the low n bytes of s[b]. -/
def operand (b : RegNo) (n : Nat) (s : State) : Nat := (s.rd b).toNat % 2 ^ (8 * n)

end Sys2Proof.Claims

/-- The thirteen atomics: AADD to ACAS on four or eight bytes as the size bit says, AFADD, AFMAXABS and AMAXRST on four, each with its new
value of Table 11.6; 4-byte integer results are sign-extended, those of AMINU, AMAXU and the FP ones zero-extended; a failed ACAS writes
nothing (R234, R261, R325 to R327). -/
def Obligations.Atomics : Prop :=
  ∀ (d a b : RegNo) (w : BitVec 2) (z : BitVec 1),
    let n : Nat := if z = 1#1 then 8 else 4
    let int := fun (x : Nat) => (BitVec.ofNat (8 * n) x).toInt
    AtomicDoes (.aadd d a b w z) d a w n (fun s old => some ((old + operand b n s) % 2 ^ (8 * n))) true
    ∧ AtomicDoes (.aand d a b w z) d a w n (fun s old => some (old &&& operand b n s)) true
    ∧ AtomicDoes (.aor d a b w z) d a w n (fun s old => some (old ||| operand b n s)) true
    ∧ AtomicDoes (.axor d a b w z) d a w n (fun s old => some (old ^^^ operand b n s)) true
    ∧ AtomicDoes (.amin d a b w z) d a w n (fun s old => some (if int old < int (operand b n s) then old else operand b n s)) true
    ∧ AtomicDoes (.amax d a b w z) d a w n (fun s old => some (if int old < int (operand b n s) then operand b n s else old)) true
    ∧ AtomicDoes (.aminu d a b w z) d a w n (fun s old => some (if old < operand b n s then old else operand b n s)) false
    ∧ AtomicDoes (.amaxu d a b w z) d a w n (fun s old => some (if old < operand b n s then operand b n s else old)) false
    ∧ AtomicDoes (.aswap d a b w z) d a w n (fun s _ => some (operand b n s)) true
    ∧ AtomicDoes (.acas d a b w z) d a w n (fun s old => if old = operand d n s then some (operand b n s) else none) true
    ∧ AtomicDoes (.afadd d a b w) d a w 4 (fun s old => some (afadd old (operand b 4 s))) false
    ∧ AtomicDoes (.afmaxabs d a b w) d a w 4 (fun s old => some (afmaxabs old (operand b 4 s))) false
    ∧ AtomicDoes (.amaxrst d a w) d a w 4 (fun _ _ => some 0) false

/-- An atomic is one read and one write at its home with nothing between: in the basin, and in memory homed on the issuing die where no
unordered access of another size is known, the old value is what memory held, memory then holds the new value or, where there is none,
what it held, and every other byte is as it was (R234, R326). -/
def Obligations.AtomicsReadAndWriteOnce : Prop :=
  ∀ (s t : State) (x : Access) (n old : Nat) (f : Nat → Option Nat), s.atomic x n f = .done old t → (n = 4 ∨ n = 8) → x.loc % n = 0 →
    (isBasin x.loc = true ∨ (homeDie x.loc = some s.cur.die ∧ s.unordered s.cur.die s.cur.die x.loc n = false)) →
    old = s.natAtLoc x.loc n
    ∧ (∀ v, f old = some v → t.bytesAt x.loc n = bytesLE n v)
    ∧ (f old = none → t.mem = s.mem)
    ∧ (∀ a, a < x.loc ∨ x.loc + n ≤ a → t.byteAt a = s.byteAt a)

/-- SHIP: an address that is no multiple of 8 traps MISALIGNED, one that is not on a SHIP page WINDOW_PROTECTION; otherwise the routine runs at
the home of the block and, ending with status 0, gives s[d] its result, with status 1 traps ILLEGAL_INSTRUCTION (R328). -/
def Obligations.ShipRunsRoutine : Prop :=
  ∀ (s : State) (d a b : RegNo) (k : BitVec 10), Ready (.ship d a b k) s → s.plan = [] →
    let va := s.rd a
    let i : Instr := .ship d a b k
    (va.toNat % 8 ≠ 0 → Traps i s 0x03#8 va true)
    ∧ (∀ x, va.toNat % 8 = 0 → s.tr .wr va = .ok x → x.fill = none → (x.win.ship = false → Traps i s 0x05#8 va true)
      ∧ (∀ st res t, x.win.ship = true → isBasin x.loc = false → s.held (x.loc / 64 * 64) 64 = false → unmappedPa x.loc = false →
          x.marked = false → homeDie x.loc = some s.cur.die → s.net = [] → s.migrations = [] →
          s.homeWait s.cur.die x.slice (x.loc / 64 * 64) 64 = none →
          s.shipHome x (s.rd b) (s.rd d) k.toNat = (st, res, t) →
          (st = 0 → exec i s = .next (t.finish (t.cx.r.set d res))) ∧ (st = 1 → exec i s = t.illegal (encode i))))

/-! ## System instructions -/

/-- SRRD gives s[d] the special register that its index names, each from its own place in the machine; an index that Table 10.3 does not list
is an illegal instruction; sr.vclock and sr.kclock are refused to a task outside debug mode with PRIVILEGE (R267 to R270, R330,
Tables 10.3 and 10.4). -/
def Obligations.SpecialRegisterReads : Prop :=
  ∀ (s : State) (d : RegNo),
    let c := s.core s.cur.die s.cur.core
    let reads := fun (k : Nat) (v : Word) =>
      Ready (.srrd d (BitVec.ofNat 12 k)) s → Gives (.srrd d (BitVec.ofNat 12 k)) s d v
    reads 0x001 s.cx.r.cause ∧ reads 0x002 s.cx.r.tval ∧ reads 0x003 s.cx.r.epc ∧ reads 0x004 s.cx.tenant
    ∧ reads 0x010 s.cx.heapbase ∧ reads 0x011 s.cx.heaplim ∧ reads 0x012 s.cx.heapoff ∧ reads 0x020 s.cx.r.task ∧ reads 0x021 s.cx.r.dom
    ∧ reads 0x030 s.cycle ∧ reads 0x031 (s.cx.r.engretry.setWidth 64)
    ∧ reads 0x080 s.cx.r.vl ∧ reads 0x081 s.cx.r.vtype ∧ reads 0x082 s.cx.r.vstart ∧ reads 0x083 s.cx.r.lc0 ∧ reads 0x084 s.cx.r.lc1
    ∧ reads 0x085 (BitVec.ofNat 64 s.cx.pendD) ∧ reads 0x086 (BitVec.ofNat 64 s.cx.pendX)
    ∧ reads 0x040 (BitVec.ofNat 64 (c.lentPages.length * 2 ^ 32 + s.lentMask s.cur.die s.cur.core * 2 ^ 24 + c.lentPages.getLastD 0 * 2 ^ 8
        + c.lentPages.headD 0))
    ∧ reads 0x041 (BitVec.ofNat 64 (c.hcyc * 2 ^ 32 + c.revoke * 2 ^ 16 + c.pgret * 2 ^ 8
        + ((List.range 8).filter (fun t => decide ((s.ctx ⟨s.cur.die, s.cur.core, t, true⟩).st = .parked))).length))
    ∧ (Ready (.srrd d 0x000#12) s → ∃ v : Word, Gives (.srrd d 0x000#12) s d v ∧ v.toNat < 2 ^ 32 ∧ v.toNat % 2 ^ 20 = s.cx.r.fflags.toNat
        ∧ v.toNat / 2 ^ 20 % 4 = ((s.cx.bound.map (·.prio)).getD 0) % 4 ∧ v.toNat / 2 ^ 22 % 4 = ((s.cx.bound.map (·.cls)).getD 0) % 4
        ∧ v.toNat / 2 ^ 24 % 16 = s.cx.r.depth % 16 ∧ v.toNat / 2 ^ 29 % 2 = (if s.cur.reserve then 1 else 0)
        ∧ v.toNat / 2 ^ 30 % 2 = (if !s.cur.isSup && s.debugMode then 1 else 0) ∧ v.toNat / 2 ^ 31 % 2 = (if s.cur.isSup then 1 else 0))
    ∧ (∀ j, j < 16 →
        (s.cur.isSup = true ∨ s.debugMode = true →
          reads (0x100 + j) ((vecAt (s.die s.cur.die).v j).setWidth 64) ∧ reads (0x110 + j) ((vecAt (s.die s.cur.die).k j).setWidth 64))
        ∧ (s.cur.isSup = false → s.debugMode = false → Ready (.srrd d (BitVec.ofNat 12 (0x100 + j))) s →
          Traps (.srrd d (BitVec.ofNat 12 (0x100 + j))) s 0x0E#8 ((encode (.srrd d (BitVec.ofNat 12 (0x100 + j)))).setWidth 64)))
    ∧ (∀ k : BitVec 12, s.cx.ahead = none → k.toNat ∉ [0x000, 0x001, 0x002, 0x003, 0x004, 0x010, 0x011, 0x012, 0x020, 0x021, 0x030, 0x031,
        0x040, 0x041, 0x080, 0x081, 0x082, 0x083, 0x084, 0x085, 0x086] → (k.toNat < 0x100 ∨ 0x120 ≤ k.toNat) →
        Traps (.srrd d k) s 0x01#8 ((encode (.srrd d k)).setWidth 64))

namespace Sys2Proof.Claims

open Sys2Proof.Machine

/-- What a write of a special register with an index and a new value does: the writable fields of Table 10.4 change and nothing else; the
registers that only the supervisor writes trap PRIVILEGE in a task (R267, R268, R282). -/
def SrPuts (i : Instr) (k : Nat) (v : Word) (s : State) : Prop :=
  let r := s.cx.r
  let goes := fun (x : Ctx) => exec i s = .next { s with cx := { x with r := x.r.advance } }
  (k = 0x000 → goes { s.cx with r := { r with fflags := v.setWidth 5 } })
  ∧ (k = 0x031 → goes { s.cx with r := { r with engretry := v.setWidth 3 } })
  ∧ (k = 0x082 → goes { s.cx with r := { r with vstart := (v.setWidth 14).setWidth 64 } })
  ∧ (k = 0x083 → goes { s.cx with r := { r with lc0 := v } })
  ∧ (k = 0x084 → goes { s.cx with r := { r with lc1 := v } })
  ∧ (s.cur.isSup = true →
      (k = 0x001 → goes { s.cx with r := { r with cause := (v.setWidth 8).setWidth 64 } })
      ∧ (k = 0x002 → goes { s.cx with r := { r with tval := v } })
      ∧ (k = 0x003 → goes { s.cx with r := { r with epc := v } })
      ∧ (k = 0x004 → goes { s.cx with tenant := (v.setWidth 6).setWidth 64 })
      ∧ (k = 0x010 → goes { s.cx with heapbase := v &&& ~~~0xFFF#64 })
      ∧ (k = 0x011 → goes { s.cx with heaplim := v &&& ~~~0xFFF#64 })
      ∧ (k = 0x012 → goes { s.cx with heapoff := v &&& ~~~0xFFF#64 })
      ∧ (k = 0x020 → goes { s.cx with r := { r with task := v } })
      ∧ (k = 0x021 → goes { s.cx with r := { r with dom := v } })
      ∧ (k = 0x080 → goes { s.cx with r := { r with vl := (v.setWidth 14).setWidth 64 } })
      ∧ (k = 0x081 → v.toNat < 256 → v.getLsbD 5 = false → v.getLsbD 2 = false →
          goes { s.cx with r := { r with vtype := (v.setWidth 8).setWidth 64 } }))
  ∧ (s.cur.isSup = false → k ∈ [0x001, 0x002, 0x003, 0x004, 0x010, 0x011, 0x012, 0x020, 0x021, 0x030, 0x040, 0x041, 0x080, 0x081, 0x085,
      0x086] → Traps i s 0x0E#8 ((encode i).setWidth 64))

end Sys2Proof.Claims

/-- SRWR, SRSET and SRCLR write s[d], the register OR s[d], the register AND NOT s[d] into a special register (R267, R268, R330). -/
def Obligations.SpecialRegisterWrites : Prop :=
  ∀ (s : State) (d : RegNo) (k : BitVec 12),
    let old := (s.srGet k.toNat).getD 0#64
    (Ready (.srwr d k) s → SrPuts (.srwr d k) k.toNat (s.rd d) s)
    ∧ (Ready (.srset d k) s → SrPuts (.srset d k) k.toNat (old ||| s.rd d) s)
    ∧ (Ready (.srclr d k) s → SrPuts (.srclr d k) k.toNat (old &&& ~~~(s.rd d)) s)

/-- TRAP traps 0x10 with tval s[a], BKPT 0x0F with tval its address; HALT stops a supervisor core and in a task traps 0x10 with tval 0; ERET on
a supervisor core goes to sr.epc with the pending hints cleared and nothing else changed, and in a task traps PRIVILEGE; IFENCE completes
when the context's stores are acknowledged; WFE completes, disarming the monitor, when it has fired, in a task also when none is armed, on
a supervisor core also when an item is queued, and otherwise waits; TLBINV on a supervisor core drops the translations its scope names and
in a task traps PRIVILEGE (R282, R329, R331 to R333). -/
def Obligations.SystemInstructions : Prop :=
  ∀ (s : State) (a b : RegNo),
    (Ready (.trap a) s → Traps (.trap a) s 0x10#8 (s.rd a))
    ∧ (Ready .bkpt s → Traps .bkpt s 0x0F#8 s.cx.r.pc)
    ∧ (Ready .halt s → s.cur.isSup = true → exec .halt s = .next { s with cx := { s.cx with r := s.cx.r.advance, st := .halted } })
    ∧ (Ready .halt s → s.cur.isSup = false → Traps .halt s 0x10#8 0#64)
    ∧ (Ready .eret s → s.cur.isSup = true →
        (s.cx.r.epc.toNat % 4 = 0 → exec .eret s = .next (s.setR { s.cx.r with pc := s.cx.r.epc, hints := [] }))
        ∧ (s.cx.r.epc.toNat % 4 ≠ 0 → Traps .eret s 0x03#8 s.cx.r.epc))
    ∧ (Ready .eret s → s.cur.isSup = false → Traps .eret s 0x0E#8 ((encode .eret).setWidth 64))
    ∧ (Ready .ifence s → s.cx.pendOwn = 0 → s.cx.pendD = 0 → s.cx.pendX = 0 → Done .ifence s s.cx.r)
    ∧ (Ready .ifence s → s.cx.pendOwn ≠ 0 ∨ s.cx.pendD ≠ 0 ∨ s.cx.pendX ≠ 0 → exec .ifence s = .next (s.waitOn .stores))
    ∧ (Ready .wfe s →
        (∃ m, s.cx.monitor = some m ∧ m.fired = true) ∨ (s.cur.isSup = false ∧ s.cx.monitor = none)
          ∨ (s.cur.isSup = true ∧ s.supervisorItem s.cur.die = true) →
        exec .wfe s = .next { s with cx := { s.cx with monitor := none, r := s.cx.r.advance } })
    ∧ (Ready .wfe s → s.cur.isSup = true → s.supervisorItem s.cur.die = false → s.cx.monitor = none →
        exec .wfe s = .next (s.waitOn .supervisorItem))
    ∧ (Ready (.tlbinv a b) s → s.cur.isSup = false → (s.rd b).toNat < 512 → (s.rd b).toNat / 64 % 4 ≠ 3 →
        Traps (.tlbinv a b) s 0x0E#8 ((encode (.tlbinv a b)).setWidth 64))
    ∧ (Ready (.tlbinv a b) s → s.cur.isSup = true → s.plan = [] → (s.rd b).toNat < 512 → (s.rd b).toNat / 64 % 4 ≠ 3 →
        let scope := (s.rd b).toNat / 64 % 4
        let gone := fun (e : TlbEntry) => scope = 2 || (e.tenant == (s.rd b).toNat % 64
          && (scope = 1 || (decide (e.va ≤ (s.rd a).toNat) && decide ((s.rd a).toNat < e.va + 2 ^ e.bits))))
        ∃ t, exec (.tlbinv a b) s = .next t ∧ t.cx.r = s.cx.r.advance ∧ SameMemory s t
          ∧ (∀ e ∈ (t.die s.cur.die).tlb, gone e = false) ∧ (∀ e ∈ (s.die s.cur.die).tlb, gone e = false → e ∈ (t.die s.cur.die).tlb))

/-- CTXRES on a supervisor core: a name that is no context of the die gives status 2, a context that is not TRAPPED status 1; action 0 resumes it at
its sr.epc, or with the S bit at s[d], with its pending hints cleared, and status 0; in a task it traps PRIVILEGE (R282, R334). -/
def Obligations.ContextResume : Prop :=
  ∀ (s : State) (d a b : RegNo), Ready (.ctxres d a b) s → (s.rd b).toNat % 4 ≠ 3 →
    (s.cur.isSup = false → Traps (.ctxres d a b) s 0x0E#8 ((encode (.ctxres d a b)).setWidth 64))
    ∧ (s.cur.isSup = true →
        (ctxresTarget s.cur.die (s.rd a) = none → Gives (.ctxres d a b) s d 2#64)
        ∧ (∀ c, ctxresTarget s.cur.die (s.rd a) = some c → (s.ctx c).st ≠ .trapped → Gives (.ctxres d a b) s d 1#64)
        ∧ (∀ c, ctxresTarget s.cur.die (s.rd a) = some c → (s.ctx c).st = .trapped → c.reserve = false → (s.ctx c).spill = none →
            (s.rd b).toNat % 8 = 0 → ∃ t, exec (.ctxres d a b) s = .next t ∧ (t.ctx c).st = .run ∧ (t.ctx c).wait = .none
              ∧ (t.ctx c).r = { (s.ctx c).r with pc := (s.ctx c).r.epc, hints := [] } ∧ t.rd d = 0#64
              ∧ SameMemory s t))

/-! ## The vector unit -/

namespace Sys2Proof.Claims

open Sys2Proof.Machine

/-- Body element i is at or above vstart and active (R337, R338). -/
def OnElem (r : Regs) (m : BitVec 1) (i : Nat) : Prop :=
  r.vstart.toNat ≤ i ∧ i < min r.vl.toNat r.vlmax ∧ (m = 0#1 ∨ (r.vget 0).getLsbD i = true)

/-- Of the group of w-bit elements that starts at vector register d, the elements `on` take the values of f, every other element is kept, and
every vector register that holds none of them is as it was (R265, R337). -/
def WritesElems (r q : Regs) (d w : Nat) (on : Nat → Prop) (f : Nat → Nat) : Prop :=
  (∀ i, (on i → q.elem d w i = f i % 2 ^ w) ∧ (¬ on i → q.elem d w i = r.elem d w i))
  ∧ ∀ k, (∀ i, on i → k ≠ d + i * w / 1024) → q.vget k = r.vget k

/-- A vector instruction that accesses no memory: where its operands are not legal it traps ILLEGAL_INSTRUCTION; otherwise it completes, out of the
rotation where it is long or LMUL is above 1, with registers of which `post` holds (R339 to R341, Table 7.1). -/
def VecDoes (i : Instr) (s : State) (legal long : Bool) (post : Regs → Prop) : Prop :=
  (s.cx.ahead = none → legal = false → Traps i s 0x01#8 ((encode i).setWidth 64))
  ∧ (Ready i s → s.planned = false → legal = true →
      ∃ q, post q ∧ exec i s = .next (if long = true ∨ 1 < s.cx.r.lmul then s.replan.finish q else s.finish q))

/-- A vector instruction whose only results are vector elements: all else but vstart, which becomes 0, is as it was. -/
def VecWrites (i : Instr) (s : State) (legal long : Bool) (d w : Nat) (on : Nat → Prop) (f : Nat → Nat) : Prop :=
  VecDoes i s legal long (fun q => q = { s.cx.r with vregs := q.vregs, vstart := 0#64 } ∧ WritesElems s.cx.r q d w on f)

/-- The signed value of an element of w bits. -/
def sint (w x : Nat) : Int := (BitVec.ofNat w x).toInt

/-- The value of an element of w bits, unsigned under .u. -/
def uint (u : BitVec 1) (w x : Nat) : Int := if u = 1#1 then (BitVec.ofNat w x).toNat else (BitVec.ofNat w x).toInt

/-- Clamped to the signed range of w bits, or under .u to the unsigned one. -/
def clampTo (u : BitVec 1) (w : Nat) (x : Int) : Int :=
  if u = 1#1 then max 0 (min (2 ^ w - 1) x) else max (-2 ^ (w - 1)) (min (2 ^ (w - 1) - 1) x)

/-- The element of w bits that holds an integer modulo 2^w. -/
def elemOf (w : Nat) (x : Int) : Nat := (BitVec.ofInt w x).toNat

/-- An exact result, wrapped, or under HMOD SAT clamped to the signed range (R354). -/
def fitElem (sat : Bool) (w : Nat) (x : Int) : Nat := elemOf w (if sat then clampTo 0#1 w x else x)

/-- x / 2^k rounded to the nearest integer, ties to even. -/
def nearest (x : Int) (k : Nat) : Int := if k = 0 then x else (x + 2 ^ (k - 1) - 1 + x / 2 ^ k % 2) / 2 ^ k

end Sys2Proof.Claims

/-- VSETL and VSETLI: vtype takes the configuration, vl the smaller of the length asked for and VLMAX, vstart 0 and s[d] the new vl; the length
asked for is s[a], VLMAX where a is s0 and d is not, the old vl where both are s0, or the immediate; a reserved element width or
grouping is illegal (R342, R343). -/
def Obligations.VectorConfiguration : Prop :=
  ∀ (s : State) (d a : RegNo) (u : BitVec 5) (m t : BitVec 1) (l w : BitVec 3),
    let most := 2 ^ l.toNat * 1024 / (8 * 2 ^ w.toNat)
    let sets := fun (i : Instr) (avl : Nat) =>
      (s.cx.ahead = none → 4 ≤ l.toNat ∨ 4 ≤ w.toNat → Traps i s 0x01#8 ((encode i).setWidth 64))
      ∧ (Ready i s → l.toNat < 4 → w.toNat < 4 →
          Done i s ({ s.cx.r with vtype := BitVec.ofNat 64 (m.toNat * 128 + t.toNat * 64 + l.toNat * 8 + w.toNat),
                                  vl := BitVec.ofNat 64 (min avl most), vstart := 0#64 }.set d (BitVec.ofNat 64 (min avl most))))
    sets (.vsetl d a m t l w) (if a ≠ 0#5 then (s.rd a).toNat else if d ≠ 0#5 then most else s.cx.r.vl.toNat)
    ∧ sets (.vsetli d u m t l w) u.toNat

/-- When the operands of a vector instruction are legal: a group spans EMUL = LMUL * EEW / SEW registers from a first register that is a
multiple of EMUL, with EMUL at most 8 and at least 1/16; a destination may be exactly a source of its own width, a mask destination may
meet a source of one register or the source's first register, a masked destination may not contain v0 unless it is a mask, and nothing
else may meet (R340, R341). -/
def Obligations.VectorOperandRules : Prop :=
  ∀ (r : Regs) (n : RegNo) (eew : Nat) (k : VDest) (d : VGrp) (src : List VGrp) (m : BitVec 1),
    ((r.grp n eew).ok = true ↔
      r.sew ≤ 16 * r.lmul * eew ∧ 16 * r.lmul * eew < 129 * r.sew ∧ (r.sew ≤ r.lmul * eew → n.toNat % (r.lmul * eew / r.sew) = 0))
    ∧ (groupsOk k d src m = true ↔
        d.ok = true ∧ (∀ g ∈ src, g.ok = true)
        ∧ (∀ g ∈ src, (∃ x, x ∈ d.regs ∧ x ∈ g.regs) → (k = .plain ∧ d = g) ∨ (k = .mask ∧ (g.e16 ≤ 16 ∨ d.base = g.base)))
        ∧ (m = 1#1 → 0 ∈ d.regs → k = .mask))

/-- The integer vector instructions with operands and results of SEW bits, in both operand forms: each active element at or above vstart
takes the value of Table 12.5, comparisons write one bit of a mask register, every other element and register is kept, and VADD, VSUB,
VRSUB, VMUL and VMACC saturate under HMOD SAT (R337 to R341, R351, R354). -/
def Obligations.VectorIntegerResults : Prop :=
  ∀ (s : State) (d a b : RegNo) (m u : BitVec 1),
    let r := s.cx.r
    let n := r.sew
    let A := fun i => r.elem a.toNat n i
    let D := fun i => r.elem d.toNat n i
    let vv := fun (i : Instr) (k : VDest) (dg : VGrp) (w : Nat) (f : Nat → Nat → Nat → Nat) =>
      VecWrites i s (groupsOk k dg [r.grp a n, r.grp b n] m) false d.toNat w (OnElem r m) (fun j => f (A j) (r.elem b.toNat n j) (D j))
    let vx := fun (i : Instr) (k : VDest) (dg : VGrp) (w : Nat) (f : Nat → Nat → Nat → Nat) =>
      VecWrites i s (groupsOk k dg [r.grp a n] m) false d.toNat w (OnElem r m) (fun j => f (A j) ((s.rd b).toNat % 2 ^ n) (D j))
    let both := fun (i j : Instr) (f : Nat → Nat → Nat → Nat) => vv i .plain (r.grp d n) n f ∧ vx j .plain (r.grp d n) n f
    let test := fun (i j : Instr) (p : Nat → Nat → Bool) =>
      vv i .mask (maskGrp d) 1 (fun x y _ => if p x y then 1 else 0) ∧ vx j .mask (maskGrp d) 1 (fun x y _ => if p x y then 1 else 0)
    both (.vaddVv d a b m) (.vaddVx d a b m) (fun x y _ => fitElem r.sat n (sint n x + sint n y))
    ∧ both (.vsubVv d a b m) (.vsubVx d a b m) (fun x y _ => fitElem r.sat n (sint n x - sint n y))
    ∧ both (.vrsubVv d a b m) (.vrsubVx d a b m) (fun x y _ => fitElem r.sat n (sint n y - sint n x))
    ∧ both (.vmulVv d a b m) (.vmulVx d a b m) (fun x y _ => fitElem r.sat n (sint n x * sint n y))
    ∧ both (.vmulhVv d a b m u) (.vmulhVx d a b m u) (fun x y _ => elemOf n (uint u n x * uint u n y / 2 ^ n))
    ∧ both (.vmaccVv d a b m) (.vmaccVx d a b m) (fun x y z => fitElem r.sat n (sint n z + sint n x * sint n y))
    ∧ both (.vnmsacVv d a b m) (.vnmsacVx d a b m) (fun x y z => elemOf n (sint n z - sint n x * sint n y))
    ∧ both (.vandVv d a b m) (.vandVx d a b m) (fun x y _ => x &&& y)
    ∧ both (.vorVv d a b m) (.vorVx d a b m) (fun x y _ => x ||| y)
    ∧ both (.vxorVv d a b m) (.vxorVx d a b m) (fun x y _ => x ^^^ y)
    ∧ both (.vsllVv d a b m) (.vsllVx d a b m) (fun x y _ => x * 2 ^ (y % n))
    ∧ both (.vsrlVv d a b m) (.vsrlVx d a b m) (fun x y _ => x / 2 ^ (y % n))
    ∧ both (.vsraVv d a b m) (.vsraVx d a b m) (fun x y _ => ((BitVec.ofNat n x).sshiftRight (y % n)).toNat)
    ∧ both (.vminVv d a b m) (.vminVx d a b m) (fun x y _ => elemOf n (min (sint n x) (sint n y)))
    ∧ both (.vmaxVv d a b m) (.vmaxVx d a b m) (fun x y _ => elemOf n (max (sint n x) (sint n y)))
    ∧ both (.vminuVv d a b m) (.vminuVx d a b m) (fun x y _ => min x y)
    ∧ both (.vmaxuVv d a b m) (.vmaxuVx d a b m) (fun x y _ => max x y)
    ∧ both (.vsaddVv d a b m u) (.vsaddVx d a b m u) (fun x y _ => elemOf n (clampTo u n (uint u n x + uint u n y)))
    ∧ both (.vssubVv d a b m u) (.vssubVx d a b m u) (fun x y _ => elemOf n (clampTo u n (uint u n x - uint u n y)))
    ∧ test (.vseqVv d a b m) (.vseqVx d a b m) (fun x y => x = y)
    ∧ test (.vsneVv d a b m) (.vsneVx d a b m) (fun x y => x ≠ y)
    ∧ test (.vsltVv d a b m) (.vsltVx d a b m) (fun x y => sint n x < sint n y)
    ∧ test (.vsltuVv d a b m) (.vsltuVx d a b m) (fun x y => x < y)
    ∧ test (.vsleVv d a b m) (.vsleVx d a b m) (fun x y => sint n x ≤ sint n y)

/-- VMERGE chooses by v0 between its operands for every body element; VMV copies; VNCLIP narrows elements of twice SEW by a shift rounded to
nearest even and a clamp; VWADD and VWMUL give the exact result in twice SEW; VEXT extends elements of a half, a quarter or an eighth
of SEW; the width-changing ones are illegal where a width is not there, and allow no overlap (R341, R351 to R353, Tables 12.5, 12.6). -/
def Obligations.VectorMovesAndWidths : Prop :=
  ∀ (s : State) (d a b : RegNo) (m u : BitVec 1) (f : BitVec 2),
    let r := s.cx.r
    let n := r.sew
    let A := fun w i => r.elem a.toNat w i
    let X := (s.rd b).toNat % 2 ^ n
    let Y := fun i => r.elem b.toNat n i
    let pick := fun (i : Nat) (y : Nat) => if (r.vget 0).getLsbD i then y else A n i
    let widen := fun (i : Instr) (src : List VGrp) (dw aw : Nat) (g : Nat → Nat → Nat) (y : Nat → Nat) =>
      VecWrites i s (decide (n ≠ 64 ∧ r.lmul ≠ 8) && groupsOk .apart (r.grp d dw) (r.grp a aw :: src) m) false d.toNat dw (OnElem r m)
        (fun j => g (A aw j) (y j))
    let clip := fun x y => elemOf n (clampTo u n (nearest (uint u (2 * n) x) (y % (2 * n))))
    let add := fun x y => elemOf (2 * n) (uint u n x + uint u n y)
    let mul := fun x y => elemOf (2 * n) (uint u n x * uint u n y)
    VecWrites (.vmergeVv d a b) s (groupsOk .plain (r.grp d n) [r.grp a n, r.grp b n] 1#1) false d.toNat n (OnElem r 0#1)
      (fun i => pick i (Y i))
    ∧ VecWrites (.vmergeVx d a b) s (groupsOk .plain (r.grp d n) [r.grp a n] 1#1) false d.toNat n (OnElem r 0#1) (fun i => pick i X)
    ∧ VecWrites (.vmvVv d a m) s (groupsOk .plain (r.grp d n) [r.grp a n] m) false d.toNat n (OnElem r m) (A n)
    ∧ VecWrites (.vmvVx d b m) s (groupsOk .plain (r.grp d n) [] m) false d.toNat n (OnElem r m) (fun _ => X)
    ∧ (n ≤ 64 →
        widen (.vnclipVv d a b m u) [r.grp b n] n (2 * n) clip Y ∧ widen (.vnclipVx d a b m u) [] n (2 * n) clip (fun _ => X)
        ∧ widen (.vwaddVv d a b m u) [r.grp b n] (2 * n) n add Y ∧ widen (.vwaddVx d a b m u) [] (2 * n) n add (fun _ => X)
        ∧ widen (.vwmulVv d a b m u) [r.grp b n] (2 * n) n mul Y ∧ widen (.vwmulVx d a b m u) [] (2 * n) n mul (fun _ => X)
        ∧ VecWrites (.vext d a m f u) s
            (decide (f ≠ 0#2 ∧ 8 ≤ n / 2 ^ f.toNat) && groupsOk .apart (r.grp d n) [r.grp a (n / 2 ^ f.toNat)] m) false d.toNat n (OnElem r m)
            (fun i => elemOf n (uint u (n / 2 ^ f.toNat) (A (n / 2 ^ f.toNat) i))))

namespace Sys2Proof.Claims

open Sys2Proof.Machine

/-- A vector floating-point instruction: its elements take codes, and FFLAGS the union of the flags of its active elements (R356). -/
def VecFloats (i : Instr) (s : State) (legal long : Bool) (d w : Nat) (on : Nat → Prop) (f : Nat → Nat × BitVec 5) : Prop :=
  VecDoes i s legal long (fun q =>
    (q = { s.cx.r with vregs := q.vregs, vstart := 0#64, fflags := q.fflags } ∧ WritesElems s.cx.r q d w on (fun j => (f j).1))
    ∧ ∀ k, q.fflags.getLsbD k = true ↔ s.cx.r.fflags.getLsbD k = true ∨ ∃ j, on j ∧ (f j).2.getLsbD k = true)

end Sys2Proof.Claims

/-- The floating-point vector instructions: SEW 32 is FP32, SEW 16 BF16, another is illegal; each active element takes the result of the scalar
operation of the format, comparisons a mask bit, VFSGNJ the sign of the other operand, and FFLAGS the union of the flags; VFDIV and
VFSQRT always leave the rotation (R355, R356, Table 12.7). -/
def Obligations.VectorFloatResults : Prop :=
  ∀ (s : State) (d a b : RegNo) (m : BitVec 1) (F : Fmt),
    let r := s.cx.r
    let n := r.sew
    (n = 32 ∧ F = fp32) ∨ (n = 16 ∧ F = bf16) →
    let A := fun i => r.elem a.toNat n i
    let D := fun i => r.elem d.toNat n i
    let one := fun (i : Instr) (k : VDest) (dg : VGrp) (w : Nat) (src : List VGrp) (long : Bool) (f : Nat → Nat × BitVec 5) =>
      VecFloats i s (groupsOk k dg (r.grp a n :: src) m) long d.toNat w (OnElem r m) f
    let both := fun (i j : Instr) (long : Bool) (f : Nat → Nat → Nat → Nat × BitVec 5) =>
      one i .plain (r.grp d n) n [r.grp b n] long (fun e => f (A e) (r.elem b.toNat n e) (D e))
      ∧ one j .plain (r.grp d n) n [] long (fun e => f (A e) ((s.rd b).toNat % 2 ^ n) (D e))
    let test := fun (i j : Instr) (p : Nat → Nat → Bool × BitVec 5) =>
      one i .mask (maskGrp d) 1 [r.grp b n] false (fun e => let x := p (A e) (r.elem b.toNat n e); (if x.1 then 1 else 0, x.2))
      ∧ one j .mask (maskGrp d) 1 [] false (fun e => let x := p (A e) ((s.rd b).toNat % 2 ^ n); (if x.1 then 1 else 0, x.2))
    both (.vfaddVv d a b m) (.vfaddVx d a b m) false (fun x y _ => F.add r.rm r.sat x y)
    ∧ both (.vfsubVv d a b m) (.vfsubVx d a b m) false (fun x y _ => F.sub r.rm r.sat x y)
    ∧ both (.vfmulVv d a b m) (.vfmulVx d a b m) false (fun x y _ => F.mul r.rm r.sat x y)
    ∧ both (.vfdivVv d a b m) (.vfdivVx d a b m) true (fun x y _ => F.div r.rm r.sat x y)
    ∧ both (.vfminVv d a b m) (.vfminVx d a b m) false (fun x y _ => F.minMax false x y)
    ∧ both (.vfmaxVv d a b m) (.vfmaxVx d a b m) false (fun x y _ => F.minMax true x y)
    ∧ both (.vfmaccVv d a b m) (.vfmaccVx d a b m) false (fun x y z => F.fma r.rm r.sat false z x y)
    ∧ both (.vfnmsacVv d a b m) (.vfnmsacVx d a b m) false (fun x y z => F.fma r.rm r.sat true z x y)
    ∧ both (.vfsgnjVv d a b m) (.vfsgnjVx d a b m) false (fun x y _ =>
        match F.dec x with
        | .nan g => (F.nan, if g then 0x10#5 else 0#5)
        | _ => (x % 2 ^ (n - 1) + y / 2 ^ (n - 1) % 2 * 2 ^ (n - 1), 0#5))
    ∧ test (.vfeqVv d a b m) (.vfeqVx d a b m) (fun x y => F.feq x y)
    ∧ test (.vfltVv d a b m) (.vfltVx d a b m) (fun x y => F.flt x y)
    ∧ test (.vfleVv d a b m) (.vfleVx d a b m) (fun x y => F.fle x y)
    ∧ one (.vfsqrt d a m) .plain (r.grp d n) n [] true (fun e => F.sqrt r.rm r.sat (A e))
    ∧ one (.vfabs d a m) .plain (r.grp d n) n [] false (fun e => F.signOp false (A e))
    ∧ one (.vfneg d a m) .plain (r.grp d n) n [] false (fun e => F.signOp true (A e))

namespace Sys2Proof.Claims

open Sys2Proof.Machine

/-- The tree of R359 over 2^k leaves from leaf j on: an absent side leaves the other as it is, two values are added. -/
def treeFrom (add : Nat → Nat → Nat × BitVec 5) (leaf : Nat → Option Nat) : Nat → Nat → Option Nat × BitVec 5
  | 0, j => (leaf j, 0#5)
  | k + 1, j =>
    let x := treeFrom add leaf k j
    let y := treeFrom add leaf k (j + 2 ^ k)
    match x.1, y.1 with
    | some u, some v => (some (add u v).1, x.2 ||| y.2 ||| (add u v).2)
    | some u, none => (some u, x.2 ||| y.2)
    | none, z => (z, x.2 ||| y.2)

end Sys2Proof.Claims

/-- The reductions: with vstart other than 0, a group that is not legal or, for a floating-point one, a width that is none, illegal; with an empty body
nothing is written; with no element active element 0 of vd takes the start value; otherwise it takes the sum, the bitwise fold, the
largest or smallest, the sum in element order, the sum by the fixed tree, or the largest magnitude of the start value and the active
elements; all else is kept (R339, R357 to R360, Table 12.8). -/
def Obligations.VectorReductions : Prop :=
  ∀ (s : State) (d a b : RegNo) (m u : BitVec 1),
    let r := s.cx.r
    let n := r.sew
    let count := min r.vl.toNat r.vlmax
    let on := (List.range count).filter (fun i => m = 0#1 || (r.vget 0).getLsbD i)
    let els := on.map (fun i => r.elem a.toNat n i)
    let start := r.elem b.toNat n 0
    let folds := fun (i : Instr) (fp long : Bool) (f : Nat × BitVec 5) =>
      VecDoes i s (decide (r.vstart = 0#64) && (!fp || decide (n = 32 ∨ n = 16)) && (r.grp a n).ok) long (fun q =>
        let x := if on = [] then (start, 0#5) else f
        q = { r with vregs := q.vregs, vstart := 0#64, fflags := if count = 0 then r.fflags else r.fflags ||| x.2 }
        ∧ WritesElems r q d.toNat n (fun e => e = 0 ∧ 0 < count) (fun _ => x.1))
    let int := fun (i : Instr) (v : Nat) => folds i false false (v, 0#5)
    let F : Fmt := if n = 32 then fp32 else bf16
    let inOrder := fun (g : Nat → Nat → Nat × BitVec 5) =>
      els.foldl (fun (x : Nat × BitVec 5) y => ((g x.1 y).1, x.2 ||| (g x.1 y).2)) (start, 0#5)
    int (.vredsum d a b m) (start + els.sum)
    ∧ int (.vredand d a b m) (els.foldl (· &&& ·) start) ∧ int (.vredor d a b m) (els.foldl (· ||| ·) start)
    ∧ int (.vredxor d a b m) (els.foldl (· ^^^ ·) start)
    ∧ int (.vredmax d a b m u) (elemOf n ((els.map (uint u n)).foldl max (uint u n start)))
    ∧ int (.vredmin d a b m u) (elemOf n ((els.map (uint u n)).foldl min (uint u n start)))
    ∧ folds (.vfredosum d a b m) true true (inOrder (F.add r.rm r.sat))
    ∧ (∀ k, count ≤ 2 ^ k → (k = 0 ∨ 2 ^ (k - 1) < count) →
        let top := treeFrom (F.add r.rm r.sat) (fun j => if j ∈ on then some (r.elem a.toNat n j) else none) k 0
        folds (.vfredtsum d a b m) true true (match top.1 with
          | none => (start, top.2)
          | some v => ((F.add r.rm r.sat start v).1, top.2 ||| (F.add r.rm r.sat start v).2)))
    ∧ folds (.vfredmax d a b m) true false (inOrder (F.minMax true)) ∧ folds (.vfredmin d a b m) true false (inOrder (F.minMax false))
    ∧ folds (.vfamax d a b m) true false (inOrder (fun x y =>
        let nv := if F.dec x = .nan true ∨ F.dec y = .nan true then 0x10#5 else 0#5
        if (F.dec x).isNan ∨ (F.dec y).isNan then (F.nan, nv)
        else (if 2 ^ (n - 1) ≤ x ∨ x < y % 2 ^ (n - 1) then y % 2 ^ (n - 1) else x, nv)))

/-- The permutations, each active body element taking the element of Table 12.10; VCOMPRESS packs the chosen elements; VMVXS and VMVSX
move element 0 whatever the body is, leaving vstart as it is; those that cannot restart are illegal with vstart other than 0 (R339,
R341, R361).  That VMVXS and VMVSX need a register that is a multiple of the group is the model's reading of R340 (log entry 38). -/
def Obligations.VectorPermutations : Prop :=
  ∀ (s : State) (d a b : RegNo) (m : BitVec 1),
    let r := s.cx.r
    let n := r.sew
    let A := fun i => r.elem a.toNat n i
    let off := (s.rd b).toNat
    let X := off % 2 ^ n
    let count := min r.vl.toNat r.vlmax
    let fresh := decide (r.vstart = 0#64)
    let bitsOf := fun (v : RegNo) (i : Nat) => (r.vget v.toNat).getLsbD i
    let writes := fun (i : Instr) (legal : Bool) (on : Nat → Prop) (f : Nat → Nat) => VecWrites i s legal false d.toNat n on f
    let chosen := (List.range count).filter (bitsOf b)
    writes (.vslideup d a b m) (fresh && groupsOk .apart (r.grp d n) [r.grp a n] m) (fun i => OnElem r m i ∧ off ≤ i) (fun i => A (i - off))
    ∧ writes (.vslidedn d a b m) (groupsOk .plain (r.grp d n) [r.grp a n] m) (OnElem r m) (fun i => if i + off < r.vlmax then A (i + off) else 0)
    ∧ writes (.vslide1up d a b m) (fresh && groupsOk .apart (r.grp d n) [r.grp a n] m) (OnElem r m) (fun i => if i = 0 then X else A (i - 1))
    ∧ writes (.vslide1dn d a b m) (groupsOk .plain (r.grp d n) [r.grp a n] m) (OnElem r m) (fun i => if i + 1 < count then A (i + 1) else X)
    ∧ writes (.vgath d a b m) (groupsOk .apart (r.grp d n) [r.grp a n, r.grp b n] m) (OnElem r m)
        (fun i => if r.elem b.toNat n i < r.vlmax then A (r.elem b.toNat n i) else 0)
    ∧ writes (.vcompress d a b) (fresh && groupsOk .apart (r.grp d n) [r.grp a n, maskGrp b] 0#1) (fun i => i < chosen.length)
        (fun i => A (chosen.getD i 0))
    ∧ writes (.viota d a m) (fresh && groupsOk .apart (r.grp d n) [maskGrp a] m) (OnElem r m)
        (fun i => (List.range i).countP (fun j => (m = 0#1 || (r.vget 0).getLsbD j) && bitsOf a j))
    ∧ writes (.vid d m) (groupsOk .plain (r.grp d n) [] m) (OnElem r m) (fun i => i)
    ∧ ((r.grp a n).ok = true → Ready (.vmvxs d a) s → s.planned = false →
        exec (.vmvxs d a) s = .next (let q := r.set d (((BitVec.ofNat 64 (A 0)).setWidth n).signExtend 64)
          if 1 < r.lmul then s.replan.finish q else s.finish q))
    ∧ ((r.grp d n).ok = true → Ready (.vmvsx d b) s → s.planned = false → ∃ q, q = { r with vregs := q.vregs }
        ∧ WritesElems r q d.toNat n (fun i => i = 0 ∧ r.vl ≠ 0#64 ∧ r.vstart = 0#64) (fun _ => X)
        ∧ exec (.vmvsx d b) s = .next (if 1 < r.lmul then s.replan.finish q else s.finish q))

/-- The mask instructions write the body bits of one register by the bits of others; VPOPC counts the active set bits, VFIRST finds the lowest or
gives all ones, VMSBF sets the bits before it; they complete within the rotation; VPOPC, VFIRST and VMSBF are illegal with vstart other
than 0 (R339, R362, Table 12.11). -/
def Obligations.VectorMaskOperations : Prop :=
  ∀ (s : State) (d a b : RegNo) (m : BitVec 1),
    let r := s.cx.r
    let A := fun i => (r.vget a.toNat).getLsbD i
    let B := fun i => (r.vget b.toNat).getLsbD i
    let hits := (List.range (min r.vl.toNat r.vlmax)).filter (fun i => (m = 0#1 || (r.vget 0).getLsbD i) && A i)
    let bits := fun (i : Instr) (k : BitVec 1) (f : Nat → Bool) => Ready i s → ∃ q, q = { r with vregs := q.vregs, vstart := 0#64 }
      ∧ WritesElems r q d.toNat 1 (OnElem r k) (fun j => if f j then 1 else 0) ∧ Done i s q
    bits (.vmand d a b) 0#1 (fun i => A i && B i) ∧ bits (.vmor d a b) 0#1 (fun i => A i || B i)
    ∧ bits (.vmxor d a b) 0#1 (fun i => A i ^^ B i) ∧ bits (.vmandn d a b) 0#1 (fun i => A i && !B i) ∧ bits (.vmnot d a) 0#1 (fun i => !A i)
    ∧ (r.vstart = 0#64 → Ready (.vpopc d a m) s → Gives (.vpopc d a m) s d (BitVec.ofNat 64 hits.length))
    ∧ (r.vstart = 0#64 → Ready (.vfirst d a m) s → Gives (.vfirst d a m) s d ((hits.head?.map (BitVec.ofNat 64)).getD (~~~0#64)))
    ∧ (r.vstart = 0#64 → a ≠ d → (m = 1#1 → d ≠ 0#5) → bits (.vmsbf d a m) m (fun i => !hits.any (fun j => decide (j ≤ i))))
    ∧ (r.vstart ≠ 0#64 → s.cx.ahead = none → Traps (.vpopc d a m) s 0x01#8 ((encode (.vpopc d a m)).setWidth 64)
        ∧ Traps (.vfirst d a m) s 0x01#8 ((encode (.vfirst d a m)).setWidth 64)
        ∧ Traps (.vmsbf d a m) s 0x01#8 ((encode (.vmsbf d a m)).setWidth 64))

/-- VCVT converts each active element as FCVT converts one value, the scale being the low 8 bits of s[x], and gives FFLAGS the union of the flags; it
is illegal where the code is, where the element width is not the larger of the two widths, or where an operand is (R363 to R365). -/
def Obligations.VectorConversions : Prop :=
  ∀ (s : State) (d a x : RegNo) (m : BitVec 1) (c : BitVec 5),
    let r := s.cx.r
    let dst := (cvtWidths c.toNat).1
    let src := (cvtWidths c.toNat).2
    VecFloats (.vcvt d a x m c) s ((Instr.vcvt d a x m c).wf && decide (r.sew = max dst src)
        && groupsOk (if dst = src then .plain else .apart) (r.grp d dst) [r.grp a src] m) false d.toNat dst (OnElem r m)
      (fun i => convertCode r.rm r.sat c.toNat ((s.rd x).toNat % 256) (r.elem a.toNat src i))

namespace Sys2Proof.Claims

open Sys2Proof.Machine

/-- An element's access of n bytes is aligned and reaches that place in the context's basin (R185, R346). -/
def BasinElem (s : State) (k : AccKind) (va : Word) (n loc : Nat) : Prop :=
  va.toNat % n = 0 ∧ ∃ x, s.tr k va = .ok x ∧ x.fill = none ∧ isBasin x.loc = true ∧ x.loc = loc

/-- An element's access faults with a cause of Table 12.2: the aperture; a misaligned address; a basin page that is not the context's; any other
address fault. -/
def ElemFault (s : State) (k : AccKind) (va : Word) (n : Nat) (c : BitVec 8) : Prop :=
  let window := 0xFFFF800000000000 ≤ va.toNat ∧ va.toNat < 0xFFFF800000100000 ∧ s.cur.isSup = false
  ((∃ p o, s.tr k va = .aperture p o) ∧ c = 0x05#8)
  ∨ ((∀ p o, s.tr k va ≠ .aperture p o) ∧ va.toNat % n ≠ 0 ∧ c = 0x07#8)
  ∨ (va.toNat % n = 0 ∧ ∃ e, s.tr k va = .fault e ∧ ((window ∧ c = e) ∨ (¬ window ∧ c = 0x07#8)))

/-- A vector load whose elements are of w bits at the addresses `addr`: illegal operands trap; with vstart at or beyond vl only vstart becomes 0; it
waits for the stores of the W field; with every element in the basin it loads them; the first faulting element j traps with the elements
below it loaded and vstart at j, or in a first-fault load, where j is not its first, sets vl to j and ends (R345 to R347). -/
def VectorLoads (i : Instr) (d : RegNo) (w : State → Nat) (addr : State → Nat → Word) (src : State → List VGrp) (m : BitVec 1) (wf : BitVec 2)
    (ff : Bool) : Prop :=
  ∀ (s : State), s.plan = [] →
    let r := s.cx.r
    let n := w s / 8
    let legal := groupsOk .plain (r.grp d (w s)) (src s) m
    let inBasin := fun (on : Nat → Prop) (loc : Nat → Nat) => ∀ e, on e → BasinElem s .rd (addr s e) n (loc e) ∧ s.poisoned (loc e) n = false
    let loads := fun (on : Nat → Prop) (loc : Nat → Nat) (q : Regs) =>
      q = { r with vregs := q.vregs } ∧ WritesElems r q d.toNat (w s) on (fun e => ofBytes (s.bytesAt (loc e) n))
    (legal = false → s.cx.ahead = none → Traps i s 0x01#8 ((encode i).setWidth 64))
    ∧ (legal = true → Ready i s → r.vl.toNat ≤ r.vstart.toNat → Done i s { r with vstart := 0#64 })
    ∧ (legal = true → Ready i s → r.vstart.toNat < r.vl.toNat → s.countsZero wf = false → exec i s = .next (s.waitOn .stores))
    ∧ (legal = true → Ready i s → r.vstart.toNat < r.vl.toNat → s.countsZero wf = true →
        (∀ loc, inBasin (OnElem r m) loc → ∃ q, loads (OnElem r m) loc q ∧ Done i s { q with vstart := 0#64 })
        ∧ (∀ loc j c, OnElem r m j → inBasin (fun e => OnElem r m e ∧ e < j) loc → ElemFault s .rd (addr s j) n c →
            ∃ q, loads (fun e => OnElem r m e ∧ e < j) loc q ∧
              (ff = true → (∃ e, OnElem r m e ∧ e < j) → Done i s { q with vl := BitVec.ofNat 64 j, vstart := 0#64 })
              ∧ (ff = false ∨ (∀ e, OnElem r m e → j ≤ e) →
                exec i s = .next ((s.setR { q with vstart := BitVec.ofNat 64 j }).takeTrap s.cur c (addr s j) false false [] (encode i)))))

/-- The bytes of memory after the elements `on` of w bits have been stored, in increasing order, at their places. -/
def StoresElems (s t : State) (d w : Nat) (on : Nat → Prop) (loc : Nat → Nat) : Prop :=
  (∀ e, on e → (∀ j, on j → e < j → loc j + w / 8 ≤ loc e ∨ loc e + w / 8 ≤ loc j) →
    t.bytesAt (loc e) (w / 8) = bytesLE (w / 8) (s.cx.r.elem d w e))
  ∧ ∀ a, (∀ e, on e → a < loc e ∨ loc e + w / 8 ≤ a) → t.byteAt a = s.byteAt a

/-- A vector store whose elements are of w bits at the addresses `addr`: as a vector load, the elements going to memory in increasing order; an
element in a HOLD range traps HOLD_VIOLATION (R345, R346, R348, R349). -/
def VectorStores (i : Instr) (d : RegNo) (w : State → Nat) (addr : State → Nat → Word) (src : State → List VGrp) (m : BitVec 1)
    (wf : BitVec 2) : Prop :=
  ∀ (s : State), s.plan = [] →
    let r := s.cx.r
    let n := w s / 8
    let legal := (r.grp d (w s)).ok && (src s).all VGrp.ok
    let inBasin := fun (on : Nat → Prop) (loc : Nat → Nat) => ∀ e, on e → BasinElem s .wr (addr s e) n (loc e) ∧ s.held (loc e) n = false
    (legal = false → s.cx.ahead = none → Traps i s 0x01#8 ((encode i).setWidth 64))
    ∧ (legal = true → Ready i s → r.vl.toNat ≤ r.vstart.toNat → Done i s { r with vstart := 0#64 })
    ∧ (legal = true → Ready i s → r.vstart.toNat < r.vl.toNat → s.countsZero wf = false → exec i s = .next (s.waitOn .stores))
    ∧ (legal = true → Ready i s → r.vstart.toNat < r.vl.toNat → s.countsZero wf = true →
        (∀ loc, inBasin (OnElem r m) loc → ∃ t, exec i s = .next t ∧ t.cx.r = ({ r with vstart := 0#64 } : Regs).advance
          ∧ StoresElems s t d.toNat (w s) (OnElem r m) loc)
        ∧ (∀ loc j c, OnElem r m j → inBasin (fun e => OnElem r m e ∧ e < j) loc →
            ElemFault s .wr (addr s j) n c ∨ (c = 0x09#8 ∧ ∃ p, BasinElem s .wr (addr s j) n p ∧ s.held p n = true) →
            ∃ t, exec i s = .next (t.takeTrap s.cur c (addr s j) true false [] (encode i))
              ∧ t.cx.r = { r with vstart := BitVec.ofNat 64 j } ∧ StoresElems s t d.toNat (w s) (fun e => OnElem r m e ∧ e < j) loc))

end Sys2Proof.Claims

/-- The seven vector memory instructions, with the element addresses of Table 12.1 modulo 2^64: unit stride, a signed stride in s[b], or an index
group in vector register b whose elements are zero-extended; indexed forms move data of SEW bits (R344 to R349). -/
def Obligations.VectorMemory : Prop :=
  ∀ (d a b : RegNo) (m : BitVec 1) (w e : BitVec 2),
    let n : Nat := 8 * 2 ^ e.toNat
    let unit := fun (s : State) (i : Nat) => s.rd a + BitVec.ofNat 64 (i * (n / 8))
    let strided := fun (s : State) (i : Nat) => BitVec.ofInt 64 ((s.rd a).toInt + i * (s.rd b).toInt)
    let indexed := fun (s : State) (i : Nat) => s.rd a + BitVec.ofNat 64 (s.cx.r.elem b.toNat n i)
    let sew := fun (s : State) => s.cx.r.sew
    let eew := fun (_ : State) => n
    let none_ := fun (_ : State) => ([] : List VGrp)
    let group := fun (s : State) => [s.cx.r.grp b n]
    VectorLoads (.vld d a m w e) d eew unit none_ m w false ∧ VectorLoads (.vlds d a b m w e) d eew strided none_ m w false
    ∧ VectorLoads (.vldx d a b m w e) d sew indexed group m w false ∧ VectorLoads (.vldff d a m w e) d eew unit none_ m w true
    ∧ VectorStores (.vst d a m w e) d eew unit none_ m w ∧ VectorStores (.vsts d a b m w e) d eew strided none_ m w
    ∧ VectorStores (.vstx d a b m w e) d sew indexed group m w

/-! ## The matrix engine -/

namespace Sys2Proof.Claims

open Sys2Proof.Machine

/-- A shape word's combination is one of Table 13.3 with that group size and scaling, and its dimensions are valid (R372). -/
def ShapeOk (h : Shape) (kind : MKind) : Prop :=
  ∃ g scaled, ((kind = .mma ∧ h.fa = 0 ∧ h.fb = 0 ∧ h.out < 2 ∧ g = 8 ∧ scaled = false)
      ∨ (kind = .mmas ∧ h.fa ∈ [1, 2] ∧ h.fb ∈ [1, 2] ∧ h.out < 2 ∧ g = 16 ∧ scaled = true)
      ∨ (kind = .mmas ∧ h.fa = 3 ∧ h.fb = 3 ∧ h.out < 2 ∧ g = 16 ∧ scaled = true)
      ∨ (kind = .mmat ∧ h.fa = 4 ∧ h.fb = 5 ∧ h.out = 2 ∧ g = 16 ∧ scaled = false))
    ∧ h.rsv = 0 ∧ h.k % g = 0 ∧ g ≤ h.k ∧ h.k ≤ 4096 ∧ h.k < h.kv + g ∧ h.kv ≤ h.k
    ∧ (if scaled then h.soff % 128 = 0 ∧ h.soff + (h.m + h.n) * h.k / 16 ≤ 0x100000 else h.soff = 0)

/-- A range of the context's basin that an operation may name: 128-byte aligned, inside the window, every page of it the context's (R374). -/
def InBasin (s : State) (va : Word) (off n : Nat) : Prop :=
  va.toNat = 0xFFFF800000000000 + off ∧ off % 128 = 0 ∧ 0 < n ∧ off + n ≤ 2 ^ 20
  ∧ ∀ p, off / 4096 ≤ p → p ≤ (off + n - 1) / 4096 → s.basinPageOk s.cur s.cx.tn p = true

/-- Bytes have been written at a place of the basin with each of their words set full, and no other byte changed. -/
def FilledWith (s t : State) (loc : Nat) (b : List Byte) : Prop :=
  t.bytesAt loc b.length = b ∧ (∀ w, loc / 8 ≤ w → 8 * w < loc + b.length → t.full w = true)
  ∧ ∀ a, a < loc ∨ loc + b.length ≤ a → t.byteAt a = s.byteAt a

/-- The core's engine is idle, with nothing on its scoreboard, and the issuing context is an owner's whose operation is not kept in
flight. -/
def EngineFree (s : State) : Prop :=
  s.plan = [] ∧ s.cur.reserve = false ∧ s.myCore.engine = [] ∧ s.myCore.sboard = []

/-- An operation of a core of a die may start: the die's ramp, which it starts where it is due, has reached the core, and neither cap nor
temperature throttles the die (R22 to R24). -/
def PowerFree (s : State) (die core : Nat) : Prop :=
  (s.askRamp die).ramping die core = false ∧ (s.die die).throttleCap = false ∧ (s.die die).throttle = 0

/-- A matrix multiply with its operands in the basin: with the engine free and no ramp or throttle against it, it commits the results of its
operands as they stood, ORs the flags into the status word and completes; where a ramp has not reached the core or the die is throttled, it
waits with its operation in the engine, not started (R22, R23, R374, R375, R381). -/
def MatrixDoes (i : Instr) (kind : MKind) (d a b x : RegNo) : Prop :=
  ∀ (s : State) (ao bo co : Nat),
    let h := shapeOf (s.rd x)
    let at_ := fun (o : Nat) => basinLoc s.cur.die s.cur.core o
    let z := h.sizes
    let read := fun (o n : Nat) => (s.bytesAt (at_ o) n).toArray
    (s.cx.ahead = none → (d = 0#5 ∨ a = 0#5 ∨ b = 0#5 ∨ x = 0#5 ∨ ¬ ShapeOk h kind) → Traps i s 0x01#8 ((encode i).setWidth 64))
    ∧ (Ready i s → d ≠ 0#5 → a ≠ 0#5 → b ≠ 0#5 → x ≠ 0#5 → ShapeOk h kind →
        ((s.rd a).toNat % 128 ≠ 0 → Traps i s 0x03#8 (s.rd a))
        ∧ ((s.rd a).toNat % 128 = 0 → (s.rd a).toNat < 0xFFFF800000000000 → Traps i s 0x05#8 (s.rd a))
        ∧ (InBasin s (s.rd a) ao z.1 → InBasin s (s.rd b) bo z.2.1 → InBasin s (s.rd d) co z.2.2.2 →
            (kind = .mmas → InBasin s (BitVec.ofNat 64 (0xFFFF800000000000 + h.soff)) h.soff z.2.2.1) →
            (∀ j, j < z.2.2.2 → (∀ k, k < j → s.held (at_ co + k) 1 = false) → s.held (at_ co + j) 1 = true →
              Traps i s 0x09#8 (s.rd d + BitVec.ofNat 64 j) true)
            ∧ (EngineFree s → s.held (at_ co) z.2.2.2 = false → s.poisoned (at_ ao) z.1 = false → s.poisoned (at_ bo) z.2.1 = false →
              s.poisoned (at_ co) z.2.2.2 = false → (kind = .mmas → s.poisoned (at_ h.soff) z.2.2.1 = false) →
              PowerFree s s.cur.die s.cur.core →
              let res := matResult kind h ⟨read ao z.1, read bo z.2.1, if kind = .mmas then read h.soff z.2.2.1 else #[], read co z.2.2.2⟩
              ∃ t, exec i s = .next t ∧ FilledWith s t (at_ co) res.1
                ∧ t.cx.r = { s.cx.r.advance with mstat := s.cx.r.mstat ||| res.2 })
            ∧ (EngineFree s → s.held (at_ co) z.2.2.2 = false → ¬ PowerFree s s.cur.die s.cur.core →
              ∃ t, exec i s = .next t ∧ SameMemory s t ∧ t.cx.st = .wait ∧ t.cx.wait = .retry .matrix ∧ t.cx.r = s.cx.r
                ∧ ∃ o ∈ t.myCore.engine, o.owner = s.cur ∧ o.kind = kind ∧ o.started = false)))

end Sys2Proof.Claims

/-- MSHAPE builds the shape word of Table 13.2 from valid dimensions, an absent KV standing for K, with the scale array's basin offset where the
combination is scaled, and is illegal otherwise (R370, R372). -/
def Obligations.MatrixShape : Prop :=
  ∀ (s : State) (d a b : RegNo) (o : BitVec 2) (y x : BitVec 3),
    let i : Instr := .mshape d a b o y x
    let v := (s.rd a).toNat
    let k := v / 2 ^ 16 % 2 ^ 13
    let kv := if v / 2 ^ 32 % 2 ^ 13 = 0 then k else v / 2 ^ 32 % 2 ^ 13
    let soff := (s.rd b).toNat - 0xFFFF800000000000
    let h := fun (f : Nat) => (⟨v % 2 ^ 8, v / 2 ^ 8 % 2 ^ 8, k, kv, x.toNat, y.toNat, o.toNat, f, 0⟩ : Shape)
    let dims := v % 8 = 0 ∧ 8 ≤ v % 2 ^ 8 ∧ v % 2 ^ 8 ≤ 64 ∧ v / 2 ^ 8 % 8 = 0 ∧ 8 ≤ v / 2 ^ 8 % 2 ^ 8 ∧ v / 2 ^ 8 % 2 ^ 8 ≤ 64
      ∧ v / 2 ^ 29 % 8 = 0 ∧ v / 2 ^ 45 = 0
    let fits := fun (f : Nat) => dims ∧ ((f = 0 ∧ (ShapeOk (h 0) .mma ∨ ShapeOk (h 0) .mmat))
      ∨ (f = soff ∧ ShapeOk (h f) .mmas ∧ 0xFFFF800000000000 ≤ (s.rd b).toNat ∧ (s.rd b).toNat < 0xFFFF800000000000 + 2 ^ 20))
    (∀ f, Ready i s → fits f → ∃ w : Word, Gives i s d w ∧ w.toNat % 8 = v % 2 ^ 8 / 8 - 1 ∧ w.toNat / 8 % 8 = v / 2 ^ 8 % 2 ^ 8 / 8 - 1
      ∧ w.toNat / 2 ^ 6 % 16 = 0 ∧ w.toNat / 2 ^ 10 % 2 ^ 13 = k ∧ w.toNat / 2 ^ 23 % 2 ^ 13 = kv ∧ w.toNat / 2 ^ 36 % 8 = x.toNat
      ∧ w.toNat / 2 ^ 39 % 8 = y.toNat ∧ w.toNat / 2 ^ 42 % 4 = o.toNat ∧ w.toNat / 2 ^ 44 = f ∧ shapeOf w = h f)
    ∧ (s.cx.ahead = none → (∀ f, ¬ fits f) → Traps i s 0x01#8 ((encode i).setWidth 64))

/-- MMA, MMAS and MMAT with an idle engine commit C from A, B, the scales and the former C; MZERO clears C; each sets every word of C full, changes
no other byte of memory and no other register; MSTAT reads the status word and under .clr clears it; the checks of R374 come in its
order (R373 to R375, R380, R381). -/
def Obligations.MatrixInstructions : Prop :=
  ∀ (d a b x : RegNo) (c : BitVec 1),
    MatrixDoes (.mma d a b x) .mma d a b x ∧ MatrixDoes (.mmas d a b x) .mmas d a b x ∧ MatrixDoes (.mmat d a b x) .mmat d a b x
    ∧ (∀ (s : State) (co : Nat), Ready (.mzero d x) s → EngineFree s →
        let h := shapeOf (s.rd x)
        let loc := basinLoc s.cur.die s.cur.core co
        (∃ k, ShapeOk h k) → InBasin s (s.rd d) co h.sizes.2.2.2 → s.held loc h.sizes.2.2.2 = false →
        ∃ t, exec (.mzero d x) s = .next t ∧ FilledWith s t loc (List.replicate h.sizes.2.2.2 0#8) ∧ t.cx.r = s.cx.r.advance)
    ∧ (∀ s : State, Ready (.mstat d c) s →
        Done (.mstat d c) s { s.cx.r.set d (s.cx.r.mstat.setWidth 64) with mstat := if c = 1#1 then 0#8 else s.cx.r.mstat })

/-- The steps of an engine that holds an operation: it takes the next operation once the ramp has reached it, reading C; a block boundary counts
a block, or after a residue mismatch replays the block, after a parity mismatch the operation, while a retry is left; a harvest
operation that must give way yields, its entry kept; after the last block the results are committed (R375 to R378). -/
def Obligations.MatrixEngineSteps : Prop :=
  ∀ (s : State) (die core : Nat) (o : MatrixOp), o.owner.die = die → o.owner.core = core →
    let h := shapeOf o.shape
    let at_ := fun (off : Nat) => basinLoc die core off
    let z := h.sizes
    let holds := fun (t : State) (p : MatrixOp → Prop) => ∃ q ∈ (t.core die core).engine, q.sb = o.sb ∧ p q
    (s.nextOp die core = some o → (o.kind ≠ .mzero → (s.askRamp die).ramping die core = false) → (o.kind ≠ .mzero → s.poisoned (at_ o.c) z.2.2.2 = false) →
      ∃ t, exec (.matrixOpStart die core) s = .next t ∧ SameMemory s t
        ∧ holds t (fun q => q.started = true ∧ q.blocks = 0 ∧ q.staged = if o.kind = .mzero then [] else s.bytesAt (at_ o.c) z.2.2.2))
    ∧ (s.runningOp die core = some o → o.kind ≠ .mzero → s.mustYield o = false ∨ h.blocks ≤ o.blocks + 1 →
      ∃ t, exec (.matrixBlockEnd die core false false) s = .next t ∧ SameMemory s t
        ∧ holds t (fun q => q.blocks = min (o.blocks + 1) h.blocks ∧ q.staged = o.staged ∧ q.retry = o.retry))
    ∧ (s.runningOp die core = some o → o.kind ≠ .mzero → s.mustYield o = true → o.blocks + 1 < h.blocks →
      ∃ t, exec (.matrixBlockEnd die core false false) s = .next t ∧ SameMemory s t ∧ (t.core die core).sboard = (s.core die core).sboard
        ∧ holds t (fun q => q.started = false ∧ q.yielded = true ∧ q.staged = []))
    ∧ (s.runningOp die core = some o → o.kind ≠ .mzero → o.retry = 0 → s.domain ((s.ctx o.owner).r.dom.setWidth 32) = none →
      o.owner.turn < 8 → o.owner.isSup = false → ∀ y p : Bool, y = true ∨ p = true →
      ∃ t, exec (.matrixBlockEnd die core y p) s = .next t ∧ (t.ctx o.owner).st = .trapped ∧ (t.ctx o.owner).r.cause = 0x08#64
        ∧ (t.ctx o.owner).r.mstat = (s.ctx o.owner).r.mstat)
    ∧ (s.runningOp die core = some o → h.blocks ≤ o.blocks → o.kind ≠ .mzero → o.raced = [] → s.poisoned (at_ o.a) z.1 = false →
      s.poisoned (at_ o.b) z.2.1 = false → s.poisoned (at_ h.soff) ((h.m + h.n) * (h.k / 16)) = false →
      let read := fun (off n : Nat) => (s.bytesAt (at_ off) n).toArray
      let res := matResult o.kind h ⟨read o.a z.1, read o.b z.2.1, if o.kind = .mmas then read h.soff ((h.m + h.n) * (h.k / 16)) else #[],
        o.staged.toArray⟩
      ∃ t, exec (.matrixCommit die core) s = .next t ∧ FilledWith s t (at_ o.c) res.1
        ∧ (t.ctx o.owner).r = { (s.ctx o.owner).r.advance with mstat := (s.ctx o.owner).r.mstat ||| res.2 })

/-- What an element of C becomes.  MMAT: the former element plus the sum of the ternary times the integer products, modulo 2^32.  MMA and MMAS: from
the former element, converted exactly where C is BF16, the groups of G products are added in increasing order, each result to the sum so
far with one rounding to nearest even, a group whose scale in A or in B is zero being skipped and the last group ending at KV; a BF16
output is rounded once, after the last group.  An operand stored in blocks keeps each element in a place of its own inside its size (R256,
R257, R259, R367, R368). -/
def Obligations.MatrixArithmetic : Prop :=
  (∀ (h : Shape) (op : Operands) (i j : Nat),
    (mmatElem h op i j).1 = elemOf 32 (sint 32 (operandElem op.c h.n 32 i j)
      + ((List.range h.kv).map (fun k => (match operandElem op.a h.k 2 i k with | 1 => 1 | 3 => -1 | _ => 0 : Int)
          * sint 8 (operandElem op.b h.k 8 j k))).sum))
  ∧ (∀ w q rows r c r' c', w ∈ [2, 4, 8, 16, 32] → rows % 8 = 0 → r < rows → c < q → r' < rows → c' < q →
      operandBit q w r c + w ≤ 8 * operandSize rows q w
      ∧ (operandBit q w r c < operandBit q w r' c' + w → operandBit q w r' c' < operandBit q w r c + w → r = r' ∧ c = c'))
  ∧ (∀ (h : Shape) (g : Nat) (scaled : Bool) (op : Operands) (i j : Nat), 0 < g →
      let scaleA := fun q => (op.scales.getD (i * (h.k / 16) + q) 0#8).toNat
      let scaleB := fun q => (op.scales.getD (h.m * (h.k / 16) + j * (h.k / 16) + q) 0#8).toNat
      let product := fun k => mulExact (matElem h.fa (operandElem op.a h.k (typeBits h.fa) i k))
        (matElem h.fb (operandElem op.b h.k (typeBits h.fb) j k))
      let scale := fun q => if scaled then ((s8val (scaleA q)).1 * (s8val (scaleB q)).1, (s8val (scaleA q)).2 + (s8val (scaleB q)).2) else (1, 0)
      let former := operandElem op.c h.n (outBits h.out) i j
      ∃ acc : Nat → Nat,
        acc 0 = (if h.out = 1 then (bf16.convert fp32 .rne false former).1 else former)
        ∧ (∀ q, acc (q + 1) = if scaled = true ∧ (scaleA q = 0 ∨ scaleB q = 0) then acc q
            else (fp32.add .rne false (acc q) (groupRes ((List.range (min g (h.kv - q * g))).map (fun t => product (q * g + t))) (scale q))).1)
        ∧ mmaElem h g scaled op i j =
            (if h.out = 1 then (fp32.convert bf16 .rne false (acc ((h.kv + g - 1) / g))).1 else acc ((h.kv + g - 1) / g)))

/-! ## Tasks, domains, the weir, and what happens without an instruction of a program -/

/-- The TASK group.  SPAWN puts a child with entry s[d] and arguments s[a] and s[b] at the new end of the core's deque and counts it; TSELF
gives what its selector names; TWAIT waits while children live, then takes their vectors in; YIELD does nothing where no entry waits; TEXIT
of a context without a task makes it IDLE, and of a task tells parent and domain; the counter instructions act at the counter's home; SPAWNC
binds the child to a counter that has not fired; LAUNCHD creates a launch from a descriptor or answers 2^64 less its status; with the checks
that come first (R155 to R157, R394 to R401). -/
def Obligations.TaskInstructions : Prop :=
  ∀ (s : State) (d a b : RegNo),
    let word := fun (v : Word) (k : AccKind) (x : Access) => v.toNat % 8 = 0 ∧ s.tr k v = .ok x ∧ x.fill = none ∧ isBasin x.loc = false
      ∧ x.win.ship = false ∧ isCtl x.loc = false ∧ (k = .wr → s.held x.loc 8 = false)
    let quiet := s.cx.pendOwn = 0 ∧ s.cx.pendD = 0 ∧ s.cx.pendX = 0
    (Ready (.tself d 0#5) s → Gives (.tself d 0#5) s d s.cx.r.task)
    ∧ (Ready (.tself d 1#5) s → Gives (.tself d 1#5) s d (BitVec.ofNat 64 ((s.cx.bound.map (·.launch)).getD 0)))
    ∧ (Ready (.tself d 2#5) s → Gives (.tself d 2#5) s d (BitVec.ofNat 64 (s.cur.turn % 8 + (if s.cur.reserve then 8 else 0)
        + s.cur.core % 64 * 2 ^ 4 + s.cur.die % 16 * 2 ^ 10 + s.pkgid.toNat * 2 ^ 14)))
    ∧ (∀ t, Ready (.tself d 3#5) s → s.cx.bound = some t → Gives (.tself d 3#5) s d (BitVec.ofNat 64
        (t.place.toNat + t.cls % 4 * 2 ^ 16 + t.prio % 4 * 2 ^ 18 + if t.cohort then 2 ^ 20 else 0)))
    ∧ (∀ n : BitVec 5, 4 ≤ n.toNat → s.cx.ahead = none → Traps (.tself d n) s 0x01#8 ((encode (.tself d n)).setWidth 64))
    ∧ (Ready (.spawn d a b) s → (s.rd d).toNat % 4 ≠ 0 → Traps (.spawn d a b) s 0x03#8 (s.rd d))
    ∧ (Ready (.spawn d a b) s → (s.rd d).toNat % 4 = 0 → s.myCore.deque.length < 64 →
        Ends (.spawn d a b) s (fun t => ∃ k, t.myCore.deque = s.myCore.deque ++ [k] ∧ k.entry = s.rd d ∧ k.args.take 2 = [s.rd a, s.rd b]
          ∧ k.parent = some s.cx.r.task ∧ k.dom = s.cx.r.dom.setWidth 32 ∧ k.vec = (s.die s.cur.die).v
          ∧ t.cx.r = ({ s.cx.r with children := s.cx.r.children + 1 } : Regs).advance ∧ SameMemory s t))
    ∧ (Ready (.spawn d a b) s → (s.rd d).toNat % 4 = 0 → 64 ≤ s.myCore.deque.length → 65536 < s.myCore.overflow.length + 32 →
        exec (.spawn d a b) s = .next (s.waitOn .overflowRing))
    ∧ (Ready .twait s → s.cx.bound = none → exec .twait s = .next (s.makeIdle s.cur))
    ∧ (Ready .twait s → s.cx.bound ≠ none → s.cx.r.children ≠ 0 → exec .twait s = .next (s.waitOn .children))
    ∧ (Ready .twait s → s.cx.bound ≠ none → s.cx.r.children = 0 →
        Ends .twait s (fun t => (t.die s.cur.die).v = mergeVec (s.die s.cur.die).v s.cx.r.joinVec
          ∧ t.cx.r = ({ s.cx.r with joinVec := [] } : Regs).advance ∧ SameMemory s t))
    ∧ (Ready .yield s → s.cur.reserve = true ∨ s.waitingOn s.cur.die = [] → Done .yield s s.cx.r)
    ∧ (∀ e k, Ready .yield s → s.cur.reserve = false → s.cur.isSup = false → s.cx.bound = some k → k.cohort = false →
        (e, none) ∈ s.waitingOn s.cur.die → k.rank ≤ e.rank → s.hasTaker s.cur.die (e, none) = false →
        exec .yield s = .next ((s.finish s.cx.r).preempt s.cur none))
    ∧ (∀ r, Ready .texit s → s.myDomain = some r → r.root = none → r.creatorTask = s.myTask → Traps .texit s 0x0A#8 2#64)
    ∧ (Ready .texit s → s.myDomain = none → quiet → s.programRuns s.cur = false → s.cx.bound = none → exec .texit s = .next (s.makeIdle s.cur))
    ∧ (∀ k, Ready .texit s → s.myDomain = none → quiet → s.programRuns s.cur = false → s.cx.bound = some k →
        let v := (s.die s.cur.die).v
        let u := (((s.tellParent k v).onLaunch k.launch (fun l => { l with live := l.live - 1, outVec := mergeVec l.outVec v })).makeIdle
          s.cur).tellDomain k v
        exec .texit s = .next (u.1.settle (u.2 ++ [.complete k.launch])))
    ∧ (Ready .texit s → s.myDomain = none → ¬ quiet → exec .texit s = .next (s.waitOn .texit))
    ∧ (∀ x old t, Ready (.cntinit d a b) s → word (s.rd a) .wr x → s.atomic x 8 (fun _ => some (s.rd b).toNat) = .done old t →
        let u := t.onCounter x.loc (fun c => { c with tag := s.myDomain.map (fun r => (r.id, r.attempt)) })
        exec (.cntinit d a b) s = .next ((u.finishLong (u.cx.r.set d (BitVec.ofNat 64 old))).settle [.fire x.loc]))
    ∧ (∀ x old t, Ready (.cntdec a b) s → word (s.rd a) .wr x → s.myDomain = none → quiet → (s.rd b).toNat % 2 ^ 32 ≠ 0 →
        s.atomic x 8 (fun v => if v % 2 ^ 32 < (s.rd b).toNat % 2 ^ 32 then none else some (v - (s.rd b).toNat % 2 ^ 32)) = .done old t →
        (old % 2 ^ 32 < (s.rd b).toNat % 2 ^ 32 → exec (.cntdec a b) s = t.trap (encode (.cntdec a b)) 0x12#8 (s.rd a))
        ∧ ((s.rd b).toNat % 2 ^ 32 ≤ old % 2 ^ 32 →
            let u := t.onCounter x.loc (fun c => { c with vec := mergeVec c.vec (t.die t.cur.die).v })
            exec (.cntdec a b) s = .next ((u.finishLong u.cx.r).settle [.fire x.loc])))
    ∧ (∀ x old t h, Ready (.cntwait a) s → word (s.rd a) .rd x → homeDie x.loc = some h → s.atomic x 8 (fun _ => none) = .done old t →
        (old = 0 → exec (.cntwait a) s = .next (t.finishLong t.cx.r))
        ∧ (old ≠ 0 → t.poolUsed h < 16384 →
            exec (.cntwait a) s = .next ((t.onCounter x.loc (fun c => { c with waiters := c.waiters ++ [t.cur] })).waitOn (.counter x.loc)))
        ∧ (old ≠ 0 → 16384 ≤ t.poolUsed h → exec (.cntwait a) s = .next (t.waitOn (.waiterPool h))))
    ∧ (∀ x old t h, Ready (.spawnc d a b) s → word (s.rd a) .rd x → homeDie x.loc = some h → s.myAttr.place.toNat.testBit h = true →
        (s.rd d).toNat % 4 = 0 → s.atomic x 8 (fun _ => none) = .done old t →
        let c := t.child (s.rd d) (s.rd b) (s.rd a)
        (old = 0 → exec (.spawnc d a b) s = .next ((c.2.pushReady h (s.clusterOf x.loc) c.1).finishLong c.2.cx.r))
        ∧ (old ≠ 0 → t.poolUsed h < 16384 →
            exec (.spawnc d a b) s = .next ((c.2.onCounter x.loc (fun k => { k with bound := k.bound ++ [c.1] })).finishLong c.2.cx.r)))
    ∧ (∀ v t, Ready (.launchd d a) s → (s.rd a).toNat % 8 = 0 → quiet → s.readWords (encode (.launchd d a)) (s.rd a) 17 = .ok (v, t) →
        (t.launchdStatus (launchReq v) ≠ 0 →
          exec (.launchd d a) s = .next (t.finishLong (t.cx.r.set d (BitVec.ofNat 64 (2 ^ 64 - t.launchdStatus (launchReq v))))))
        ∧ (t.launchdStatus (launchReq v) = 0 →
            exec (.launchd d a) s = .next ((t.finishLong (t.cx.r.set d (BitVec.ofNat 64 (t.lastLaunch + 1)))).acceptLaunch t.cx.tn (launchReq v)
              (t.cx.r.dom.setWidth 32) (mergeVec (t.die t.cur.die).v (((t.tenant t.cx.tn).map (·.hostVec)).getD [])) none).2))

/-- The DOM and HV groups.  DBEGIN opens a domain with the limit s[a][3:0], its creator's registers kept, and names it in s[d] and sr.dom; DPRES
adds a range; DEND waits for members and stores and then commits, the record being freed and the parent innermost; DCHK and DABORT are domain
faults; DLEVEL and HSTAT read what their selector names; LEND and UNLEND change the lend state; each misuse traps DOMAIN_FAULT with its code
of Table 14.2, PRIVILEGE or WINDOW_PROTECTION (R170, R171, R174, R393, R402 to R409). -/
def Obligations.DomainAndLendInstructions : Prop :=
  ∀ (s : State) (d a b : RegNo),
    let turns : BitVec 8 := (s.rd a).setWidth 8
    let quiet := s.cx.pendOwn = 0 ∧ s.cx.pendD = 0 ∧ s.cx.pendX = 0
    (Ready (.dbegin d a) s → 8 ≤ s.cx.r.depth → Traps (.dbegin d a) s 0x0A#8 1#64)
    ∧ (Ready (.dbegin d a) s → s.cx.r.depth < 8 → s.freeRecord s.cur.die = none → exec (.dbegin d a) s = .next (s.waitOn .domainRecord))
    ∧ (∀ i, Ready (.dbegin d a) s → s.cx.r.depth < 8 → s.planned = false → s.freeRecord s.cur.die = some i → s.cur.die < 16 →
        let id := (s.newDomainId s.cur.die i).1
        id ≠ 0#32 →
        Ends (.dbegin d a) s (fun t => t.cx.r = ({ s.cx.r.set d (id.setWidth 64) with dom := id.setWidth 64, depth := s.cx.r.depth + 1 } : Regs).advance
          ∧ SameMemory s t ∧ ∃ r, t.domain id = some r ∧ r.limit = (s.rd a).toNat % 16 ∧ r.parent = s.cx.r.dom.setWidth 32
            ∧ r.depth = s.cx.r.depth + 1 ∧ r.creator = some s.cur ∧ r.ranges = [] ∧ r.members = 0 ∧ r.count = 0
            ∧ r.snap.sregs = (s.cx.r.set d (id.setWidth 64)).sregs ∧ r.snap.pc = s.cx.r.pc + 4#64 ∧ r.snap.fflags = s.cx.r.fflags))
    ∧ (∀ i, i = .dpresSnap a b ∨ i = .dpresHold a b → Ready i s →
        (s.rd b = 0#64 → Done i s s.cx.r)
        ∧ (s.rd b ≠ 0#64 → s.myDomain = none → Traps i s 0x0A#8 6#64)
        ∧ (∀ r, s.rd b ≠ 0#64 → s.myDomain = some r → 8 ≤ r.ranges.length → Traps i s 0x0A#8 4#64))
    ∧ (∀ r parts t, Ready (.dpresHold a b) s → s.rd b ≠ 0#64 → s.myDomain = some r → r.ranges.length < 8 → quiet →
        (s.rd a).toNat + (s.rd b).toNat ≤ 2 ^ 64 → overlaps (s.rd a).toNat (s.rd b).toNat basinBase (2 ^ 20) = false →
        s.rangeParts (encode (.dpresHold a b)) (s.rd a) (s.rd b).toNat ((s.rd b).toNat / 4096 + 2) = .ok (parts, t) →
        let u := t.onDomain r.id (fun e => { e with ranges := e.ranges ++ [⟨false, s.rd a, parts, [], []⟩] })
        exec (.dpresHold a b) s = .next (u.finishLong u.cx.r))
    ∧ (∀ r parts t, Ready (.dpresSnap a b) s → s.rd b ≠ 0#64 → s.myDomain = some r → r.ranges.length < 8 → quiet →
        (s.rd a).toNat + (s.rd b).toNat ≤ 2 ^ 64 → overlaps (s.rd a).toNat (s.rd b).toNat basinBase (2 ^ 20) = false →
        s.rangeParts (encode (.dpresSnap a b)) (s.rd a) (s.rd b).toNat ((s.rd b).toNat / 4096 + 2) = .ok (parts, t) →
        (∀ p ∈ parts, isBasin p.1 = false ∧ t.poisoned p.1 p.2 = false) →
        (((t.tenant t.cx.tn).map (·.store)).getD 0 < t.snapBytes t.cx.tn + (s.rd b).toNat →
          exec (.dpresSnap a b) s = t.trap (encode (.dpresSnap a b)) 0x0A#8 3#64)
        ∧ (t.snapBytes t.cx.tn + (s.rd b).toNat ≤ ((t.tenant t.cx.tn).map (·.store)).getD 0 →
            let u := t.onDomain r.id (fun e =>
              { e with ranges := e.ranges ++ [⟨true, s.rd a, parts, parts.flatMap (fun p => t.bytesAt p.1 p.2), []⟩] })
            exec (.dpresSnap a b) s = .next (u.finishLong u.cx.r)))
    ∧ (Ready .dend s → s.myDomain = none → Traps .dend s 0x0A#8 6#64)
    ∧ (∀ r, Ready .dend s → s.myDomain = some r → (r.root ≠ none ∨ r.creatorTask ≠ s.myTask → Traps .dend s 0x0A#8 7#64)
        ∧ (r.root = none → r.creatorTask = s.myTask →
            (r.members ≠ 0 → exec .dend s = .next (s.waitOn .domain))
            ∧ (r.members = 0 → ¬ quiet → exec .dend s = .next (s.waitOn .stores))
            ∧ (∀ e, r.members = 0 → quiet → (s.flushStitch r.id).domain r.id = some e → e.acks ≠ 0 →
                exec .dend s = .next ((s.flushStitch r.id).waitOn .domain))
            ∧ (∀ e, r.members = 0 → quiet → (s.flushStitch r.id).domain r.id = some e → e.acks = 0 → e.deferred = [] → e.parent = 0#32 →
                let v := s.flushStitch r.id
                let u := ((v.mergeV v.cur.die e.joinVec).handExits e).dropTags e.id
                let f := (u.setDomain e.id none).recordsFreed
                exec .dend s = .next ((f.1.finishLong { f.1.cx.r with dom := 0#64, depth := f.1.cx.r.depth - 1 }).settle f.2))))
    ∧ (Ready (.dchk a b) s → s.rd a = s.rd b → Done (.dchk a b) s s.cx.r)
    ∧ (Ready (.dchk a b) s → s.rd a ≠ s.rd b → s.myDomain = none → Traps (.dchk a b) s 0x0A#8 8#64)
    ∧ (∀ r, Ready (.dchk a b) s → s.rd a ≠ s.rd b → s.myDomain = some r →
        exec (.dchk a b) s = .next (s.domainFault r.id 0x0A#8 s.cx.r.chainStart))
    ∧ (Ready (.dabort a) s → s.myDomain = none → Traps (.dabort a) s 0x0A#8 6#64)
    ∧ (∀ r, Ready (.dabort a) s → s.myDomain = some r →
        exec (.dabort a) s = .next (s.domainFault r.id 0x0A#8 s.cx.r.chainStart ((s.rd a).toNat.testBit 0)))
    ∧ (∀ n : BitVec 5, Ready (.dlevel d n) s → n.toNat < 5 → s.myDomain = none → Gives (.dlevel d n) s d 0#64)
    ∧ (∀ r, Ready (.dlevel d 0#5) s → s.myDomain = some r → Gives (.dlevel d 0#5) s d (BitVec.ofNat 64 s.cx.r.depth))
    ∧ (∀ r, Ready (.dlevel d 1#5) s → s.myDomain = some r → Gives (.dlevel d 1#5) s d s.cx.r.dom)
    ∧ (∀ r, Ready (.dlevel d 2#5) s → s.myDomain = some r → Gives (.dlevel d 2#5) s d (BitVec.ofNat 64 r.count))
    ∧ (∀ r, Ready (.dlevel d 3#5) s → s.myDomain = some r → Gives (.dlevel d 3#5) s d (r.cause.setWidth 64))
    ∧ (∀ r, Ready (.dlevel d 4#5) s → s.myDomain = some r → Gives (.dlevel d 4#5) s d (BitVec.ofNat 64 r.limit))
    ∧ (∀ n : BitVec 5, s.cx.ahead = none → 5 ≤ n.toNat → Traps (.dlevel d n) s 0x01#8 ((encode (.dlevel d n)).setWidth 64))
    ∧ (∀ i, i = .lend a b ∨ i = .unlend a b → Ready i s →
        (s.cur.reserve = true → Traps i s 0x0E#8 ((encode i).setWidth 64))
        ∧ (∀ v, s.cur.reserve = false → s.lendFault turns (s.rd b) = some v → Traps i s 0x05#8 v))
    ∧ (Ready (.lend a b) s → s.cur.reserve = false → s.lendFault turns (s.rd b) = none → namedPages (s.rd b) = [] →
        let t := (s.onCore s.cur.die s.cur.core CoreSt.replaceDefaults).addLend s.cur.die s.cur.core turns []
        exec (.lend a b) s = .next (t.finish t.cx.r))
    ∧ (Ready (.unlend a b) s → s.cur.reserve = false → s.lendFault turns (s.rd b) = none → namedPages (s.rd b) = [] →
        let t := s.onCore s.cur.die s.cur.core CoreSt.replaceDefaults
        exec (.unlend a b) s = .next ((t.finish t.cx.r).unlend s.cur.die s.cur.core turns []))
    ∧ (Ready (.hstat d 0#5) s → Gives (.hstat d 0#5) s d (s.srHstat s.cur.die s.cur.core))
    ∧ (Ready (.hstat d 1#5) s → Gives (.hstat d 1#5) s d (s.srLend s.cur.die s.cur.core))
    ∧ (∀ n : BitVec 5, Ready (.hstat d n) s → 2 ≤ n.toNat → n.toNat < 6 → Gives (.hstat d n) s d (BitVec.ofNat 64
        ((s.myCore.lentPages.filter (fun p => decide (p / 64 = n.toNat - 2))).foldl (fun m p => m + 2 ^ (p % 64)) 0)))
    ∧ (∀ n : BitVec 5, s.cx.ahead = none → 6 ≤ n.toNat → Traps (.hstat d n) s 0x01#8 ((encode (.hstat d n)).setWidth 64))

/-- The WEIR group and what its groups do.  QPOST, QWAIT, QRESYNC, QSTAT and QSTART trap WEIR_MISMATCH on a handle that is not their tenant's here;
a post that is registered is answered with status 2, another joins its die's partial; QWAIT waits for its record or writes it into the basin;
QRESYNC gives the root's open round; QSTART answers its status or starts the program; partials, verdicts and records move as R412 to R417
say; each step of a program acts and the next one follows, LOOP and ENDLOOP count, END writes 1 to DONE and a fault its code (R412 to R423,
Tables 14.6 and 14.7). -/
def Obligations.WeirInstructionsAndStepPrograms : Prop :=
  ∀ (s : State) (d a b : RegNo),
    let h : BitVec 32 := (s.rd a).setWidth 32
    let here := s.weirEntry s.cur.die s.cx.tn
    let gd := fun (g : Group) => SMap.look {} g.dies s.cur.die
    (∀ n : BitVec 5, n.toNat ≤ 3 → Ready (.qstat d a n) s → here h = none → Traps (.qstat d a n) s 0x0C#8 (h.setWidth 64))
    ∧ (∀ g x, Ready (.qstat d a 0#5) s → here h = some g → newestTag (gd g).records = some x → Gives (.qstat d a 0#5) s d (x.setWidth 64))
    ∧ (∀ g, Ready (.qstat d a 0#5) s → here h = some g → (gd g).records = [] → Gives (.qstat d a 0#5) s d (~~~0#64))
    ∧ (∀ g, Ready (.qstat d a 1#5) s → here h = some g → Gives (.qstat d a 1#5) s d (BitVec.ofNat 64
        (g.n + g.k * 2 ^ 11 + g.lag * 2 ^ 22 + g.rule * 2 ^ 26 + g.op * 2 ^ 28)))
    ∧ (∀ g, Ready (.qstat d a 3#5) s → here h = some g → s.cx.program = none → Gives (.qstat d a 3#5) s d 0#64)
    ∧ (∀ n : BitVec 5, s.cx.ahead = none → 4 ≤ n.toNat → Traps (.qstat d a n) s 0x01#8 ((encode (.qstat d a n)).setWidth 64))
    ∧ (Ready (.qresync d a b) s → here h = none → Traps (.qresync d a b) s 0x0C#8 (h.setWidth 64))
    ∧ (∀ g, Ready (.qresync d a b) s → here h = some g → (s.ranksOf g s.cur.die).contains (bits (s.rd b) 9 0) = true → g.root.1 = s.pkgid →
        s.planned = false → exec (.qresync d a b) s = .next ((s.replan.onGroupDie h s.cur.die (fun x =>
          { x with stale := x.stale.filter (fun r => !(r == bits (s.rd b) 9 0)) })).finishSet d (g.openRound.setWidth 64)))
    ∧ (Ready (.qwait d a b) s → here h = none → exec (.qwait d a b) s = (s.dropLoose s.cur).trap (encode (.qwait d a b)) 0x0C#8 (h.setWidth 64))
    ∧ (∀ g off, Ready (.qwait d a b) s → here h = some g → s.rd d = BitVec.ofNat 64 (basinBase + off) → off < 2 ^ 20 → off % 64 = 0 →
        s.basinHole s.cur s.cx.tn (s.rd d) g.recordSize = none → s.held (basinLoc s.cur.die s.cur.core off) g.recordSize = false →
        tooOld g.lag (gd g).records ((s.rd b).setWidth 32) = false →
        ((∀ r ∈ (gd g).records, r.tag ≠ (s.rd b).setWidth 32) →
          exec (.qwait d a b) s = .next (s.waitOn (.record h ((s.rd b).setWidth 32) (encode (.qwait d a b)))))
        ∧ (∀ r id t, (gd g).records.find? (fun r => r.tag == (s.rd b).setWidth 32) = some r →
            s.weirSb [] (some (sbRange off g.recordSize)) = .ok id t →
            let u := ((t.weirWrite s.cur off r.bytes).freeSb s.cur.die s.cur.core id).mergeV s.cur.die r.vec
            exec (.qwait d a b) s = .next (u.finishLong u.cx.r)))
    ∧ (Ready (.qpost d a) s → (s.rd a).toNat % 8 ≠ 0 → exec (.qpost d a) s = (s.dropLoose s.cur).trap (encode (.qpost d a)) 0x03#8 (s.rd a))
    ∧ (∀ v t g, Ready (.qpost d a) s → (s.rd a).toNat % 8 = 0 → s.readWords (encode (.qpost d a)) (s.rd a) 4 = .ok (v, t) →
        let k : BitVec 32 := BitVec.ofNat 32 (natAt v 0 4)
        let tag : BitVec 32 := BitVec.ofNat 32 (natAt v 4 4)
        let rank := bits (wordAt v 16) 57 48
        let size := if g.op = 1 then 2 else 4
        let off := (wordAt v 8).toNat - basinBase
        let y := SMap.look {} g.dies t.cur.die
        (t.weirEntry t.cur.die t.cx.tn k = none → exec (.qpost d a) s = (t.dropLoose t.cur).trap (encode (.qpost d a)) 0x0C#8 (k.setWidth 64))
        ∧ (t.weirEntry t.cur.die t.cx.tn k = some g → (t.ranksOf g t.cur.die).contains rank = true → bits (wordAt v 16) 47 36 = 0 →
            bits (wordAt v 16) 63 58 = 0 → wordAt v 24 = 0#64 → bits (wordAt v 16) 31 0 = g.count → bits (wordAt v 16) 35 32 = g.op →
            (wordAt v 8).toNat % size = 0 → t.basinHole t.cur t.cx.tn (wordAt v 8) (g.count * size) = none → y.stale.contains rank = false →
            (∀ e, y.posts.find? (fun e => e.1 == rank && e.2.1 == tag) = some e →
              exec (.qpost d a) s = .next ((t.dropLoose t.cur).finishLong
                ((t.dropLoose t.cur).cx.r.set d (e.2.2.1.setWidth 64 + 0x200000000#64))))
            ∧ (∀ id u, y.posts.find? (fun e => e.1 == rank && e.2.1 == tag) = none →
                t.weirSb [sbRange off (g.count * size)] none = .ok id u →
                t.poisonVa (basinLoc t.cur.die t.cur.core off) (g.count * size) = none →
                let p := ((u.freeSb t.cur.die t.cur.core id).onGroupDie k t.cur.die (fun x => x.join (t.pkgid, t.cur.die) rank tag
                  (contribution g.op g.count (t.bytesAt (basinLoc t.cur.die t.cur.core off) (g.count * size)))
                  (.ctx t.cur rank d false))).waitOn (.verdict k (encode (.qpost d a)))
                p.planned = false → g.root.1 = t.pkgid → g.arrived = [] →
                exec (.qpost d a) s = .next ((p.replan.runPost k t.cur.die).retireEnded))))
    ∧ (∀ g v w (l : List (Word × Word)) (e : Bool) t, Ready (.qstart d a b) s → here ((s.rd b).setWidth 32) = some g →
        (s.ranksOf g s.cur.die).contains (bits (s.rd b) 41 32) = true → (s.rd a).toNat % 16 = 0 →
        s.readWords (encode (.qstart d a b)) (s.rd a) 2 = .ok (v, w) → w.readSteps (encode (.qstart d a b)) (s.rd a + 16#64) 255 = .ok (l, e, t) →
        let st := t.startStatus g (bits (s.rd b) 41 32) (wordAt v 0) (wordAt v 8) (l.map stepOf) e
        (st ≠ 0 → exec (.qstart d a b) s = .next (t.finishLong (t.cx.r.set d (BitVec.ofNat 64 st))))
        ∧ (∀ n, st = 0 → t.freeSlot t.cur.die = some n →
            let p : StepProg :=
              { owner := t.cur, handle := (s.rd b).setWidth 32, rank := bits (s.rd b) 41 32, core := t.cur.core, steps := l, index := 0,
                loops := [], tag := (wordAt v 0).setWidth 32, doneOff := bits (wordAt v 8) 19 0, state := 1, code := 0#8, posted := 0,
                span := boundingSpan (bits (wordAt v 8) 19 0) (reachAll g (bits (s.rd b) 41 32) [] (l.map stepOf)) }
            let q : State := t.onDie t.cur.die (fun x => { x with programs := SMap.put none x.programs n (some p) })
            exec (.qstart d a b) s = .next (({ q with cx := { q.cx with program := some n } } : State).finishLong (q.cx.r.set d 0#64))))
    ∧ (∀ die k, exec (.weirPartialForward die k) s = .next (s.forwardPartial die k))
    ∧ (∀ k g p l, s.group k = some g → g.poisoned = false → g.root.1 = s.pkgid → g.arrived = p :: l →
        (s.partialMay g p = true →
          exec (.weirPartialArrival k none) s = .next ((s.onGroup k (fun x => { x with arrived := l })).arrivePartial k { g with arrived := l } p))
        ∧ (s.partialMay g p = false → exec (.weirPartialArrival k none) s = .next s))
    ∧ (∀ k q r, s.group k = none → exec (.weirPartialArrival k (some (q, r))) s = .next (s.refuseColl q.ddie.toNat q))
    ∧ (∀ k g q r, s.group k = some g → g.poisoned = true ∨ g.root.1 ≠ s.pkgid ∨ s.collOk g.root.2 0x0B#8 k q = false →
        exec (.weirPartialArrival k (some (q, r))) s = .next (s.refuseColl q.ddie.toNat q))
    ∧ (∀ c k g p v, s.partialOf c = some (k, g, p) → g.root.1 = s.pkgid → p.verdict = some v →
        exec (.weirVerdict c none) s = .next (s.giveVerdict k c.die p v.1 v.2))
    ∧ (∀ c k g p q v, s.partialOf c = some (k, g, p) → g.root.1 ≠ s.pkgid → s.collOk c.die 0x0C#8 k q = true →
        exec (.weirVerdict c (some (q, v))) s = .next (s.giveVerdict k c.die p v.1 v.2))
    ∧ (∀ c k g p q v, s.partialOf c = some (k, g, p) → g.root.1 ≠ s.pkgid → s.collOk c.die 0x0D#8 k q = true →
        exec (.weirVerdict c (some (q, v))) s = .next (s.rejectPartial k c.die p))
    ∧ (∀ q die typ k, s.collOk die typ k q = true → q.typ = typ ∧ q.group = k ∧ q.dpkg = s.pkgid ∧ q.ddie.toNat = die)
    ∧ (∀ k g die tag e, s.group k = some g → g.root.1 = s.pkgid → g.sending.find? (fun e => e.1 == die && e.2.tag == tag) = some e →
        exec (.weirRecordReceive die k tag none) s = .next ((s.onGroup k (fun x =>
          { x with sending := x.sending.filter (fun y => !(y == e)) })).takeRecord k die e.2))
    ∧ (∀ k g die src dst v o m, s.group k = some g → g.poisoned = false → g.members[dst]? = some (s.pkgid, die) →
        g.flight.find? (fun m => m.1 == src && m.2.1 == dst) = some m →
        exec (.stepMessageWritten die k src dst v o) s = .next (s.onGroup k (fun x =>
          { x with flight := g.flight.erase m, messages := x.messages ++ [m] })))
    ∧ (∀ die n p g q e, s.stepAt die n 1 = some (p, g, q) → q.peer g.n p.rank = some e → g.members.getD e (0#12, 0) = (s.pkgid, die) →
        g.buffered p.rank e + q.len ≤ 65536 → s.progFree die p [sbRange (q.srcOff g.n p.rank p.j) q.len] none = true →
        s.poisonVa (basinLoc die p.core (q.srcOff g.n p.rank p.j)) q.len = none →
        exec (.send die n) s = .next ((s.onGroup p.handle (fun x => { x with flight :=
          x.flight ++ [(p.rank, e, s.bytesAt (basinLoc die p.core (q.srcOff g.n p.rank p.j)) q.len)] })).setProg die n p.next))
    ∧ (∀ die n p g q e m, s.stepAt die n 2 = some (p, g, q) → q.peer g.n p.rank = some e →
        g.messages.find? (fun m => m.1 == e && m.2.1 == p.rank) = some m → m.2.2.length = q.len →
        s.progFree die p [] (some (sbRange (q.dstOff g.n p.rank p.j) q.len)) = true →
        exec (.recv die n) s = .next (((s.onGroup p.handle (fun x => { x with messages := x.messages.erase m })).progWrite die p
          (q.dstOff g.n p.rank p.j) m.2.2).setProg die n p.next))
    ∧ (∀ die n p g q e m, s.stepAt die n 3 = some (p, g, q) → q.peer g.n p.rank = some e →
        g.messages.find? (fun m => m.1 == e && m.2.1 == p.rank) = some m → m.2.2.length = q.len →
        s.progFree die p [sbRange (q.dstOff g.n p.rank p.j) q.len] (some (sbRange (q.dstOff g.n p.rank p.j) q.len)) = true →
        s.poisonVa (basinLoc die p.core (q.dstOff g.n p.rank p.j)) q.len = none →
        let old := s.bytesAt (basinLoc die p.core (q.dstOff g.n p.rank p.j)) q.len
        exec (.rrs die n) s = .next (((s.onGroup p.handle (fun x => { x with messages := x.messages.erase m })).progWrite die p
          (q.dstOff g.n p.rank p.j) ((List.range (q.len / 4)).flatMap (fun i =>
            bytesLE 4 (reduceElem g.op (natAt old (4 * i) 4) (natAt m.2.2 (4 * i) 4))))).setProg die n p.next))
    ∧ (∀ die n p g q, s.stepAt die n 4 = some (p, g, q) →
        s.progFree die p [sbRange (q.srcOff g.n p.rank p.j) q.len] (some (sbRange (q.dstOff g.n p.rank p.j) q.len)) = true →
        s.poisonVa (basinLoc die p.core (q.srcOff g.n p.rank p.j)) q.len = none →
        exec (.stepCopy die n) s = .next ((s.progWrite die p (q.dstOff g.n p.rank p.j)
          (s.bytesAt (basinLoc die p.core (q.srcOff g.n p.rank p.j)) q.len)).setProg die n p.next))
    ∧ (∀ die n p g q, s.stepAt die n 5 = some (p, g, q) →
        exec (.stepWait die n) s = .next (if g.flight.any (fun m => m.1 == p.rank) then s else s.setProg die n p.next))
    ∧ (∀ die n p g q, s.stepAt die n 6 = some (p, g, q) →
        let k := if q.parg = 0 then g.n - 1 else q.parg
        (k ≠ 0 → exec (.stepLoop die n) s = .next (s.setProg die n { p with index := p.index + 1, loops := (p.index + 1, 0, k) :: p.loops }))
        ∧ (k = 0 → exec (.stepLoop die n) s = .next (s.setProg die n
            { p with index := skipLoop (p.index + 1) 0 ((p.steps.drop (p.index + 1)).map stepOf) })))
    ∧ (∀ die n p g q l r, s.stepAt die n 7 = some (p, g, q) → p.loops = l :: r →
        exec (.stepEndloop die n) s = .next (s.setProg die n (if l.2.1 + 1 < l.2.2 then
          { p with index := l.1, loops := (l.1, l.2.1 + 1, l.2.2) :: r } else { p with index := p.index + 1, loops := r })))
    ∧ (∀ die n p g q, s.stepAt die n 8 = some (p, g, q) →
        let y := SMap.look {} g.dies die
        (p.posted = 0 → y.stale.contains p.rank = true → exec (.qround die n) s = .next (s.faultProgram die n 4#8))
        ∧ (p.posted = 0 → q.len = g.count * (if g.op = 1 then 2 else 4) → y.stale.contains p.rank = false →
            y.posts.any (fun e => e.1 == p.rank && e.2.1 == p.tag) = true → exec (.qround die n) s = .next (s.setProg die n { p with posted := 2 }))
        ∧ (∀ r, p.posted = 2 → tooOld g.lag y.records p.tag = false → y.records.find? (fun r => r.tag == p.tag) = some r →
            s.progFree die p [] (some (sbRange (q.dstOff g.n p.rank p.j) g.recordSize)) = true →
            exec (.qround die n) s = .next (((s.progWrite die p (q.dstOff g.n p.rank p.j) r.bytes).mergeV die r.vec).setProg die n
              { p with index := p.index + 1, posted := 0, tag := p.tag + 1#32 })))
    ∧ (∀ die n p g q, s.stepAt die n 0 = some (p, g, q) →
        let t := (s.progWrite die p p.doneOff (bytesLE 8 1)).setProg die n { p with state := 2 }
        exec (.stepEnd die n) s = .next (if (t.ctx p.owner).wait = .retry .texit then t.wake p.owner else t))
    ∧ (∀ die n c, exec (.stepProgramFault die n c) s = .next (if s.progFaults die n c = true then s.faultProgram die n c else s))

/-- Reset, power and the fabric.  A reset keeps what fuses, flash and the base-die records hold and what other packages' memory holds, empties this
package's memory and brings every context to IDLE; each step of the sequence verifies, measures, binds, maps, scrubs and starts the firmware as its
boot status says; the sensors throttle or trip; the ports acknowledge, resend, retrain, greet and go DOWN; the routers deliver, hold, park and
refuse packets; a change of the die map quiesces, writes and resumes (R16, R17, R20 to R24, R27, R29 to R35, R37 to R44, R49 to R54, R96,
R106).  The greeting exchange is the model's choice (log entry 66). -/
def Obligations.PowerResetAndFabric : Prop :=
  ∀ (s : State) (port : Nat) (p : Packet),
    let now := fun (i : Instr) (t : State) => exec i s = .next t
    let q := s.port port
    let boot := fun (b : BitVec 8) => ({ s.pkg with boot := b } : Package)
    let two := fun (x i : Nat) => SMap.look 0#384 s.pkg.meas (8 * x + i)
    (Ends .coldReset s (fun t => t.pkg.boot = 0x01#8 ∧ t.pkg.powered = true ∧ t.pkg.fuse0 = s.pkg.fuse0 ∧ t.pkg.fuse1 = s.pkg.fuse1
        ∧ t.pkg.flash0 = s.pkg.flash0 ∧ t.pkg.flash1 = s.pkg.flash1 ∧ (∀ a, isForeign a = false → t.byteAt a = 0#8)
        ∧ (∀ a, isForeign a = true → t.byteAt a = s.byteAt a) ∧ t.fe = [] ∧ t.cycle = 0#64 ∧ (∀ c, t.ctx c = {})
        ∧ ∀ h, h < 34 → (t.stack h).remaps = (s.stack h).remaps ∧ (t.stack h).retired = (s.stack h).retired
          ∧ (t.stack h).portA = false ∧ (t.stack h).portB = false))
    ∧ (s.pkg.powered = true → exec .warmPackageReset s = exec .coldReset s)
    ∧ (s.pkg.powered = false → now .warmPackageReset s)
    ∧ (∀ r, s.pkg.powered = true →
        (s.pkg.boot = 0x01#8 → now (.resetSequenceStepDone r) { s with pkg := boot 0x02#8 })
        ∧ (s.pkg.boot = 0x02#8 → (∃ x ∈ s.rcv.sps, s.slotAt x = none) → now (.resetSequenceStepDone r) { s with pkg := boot 0x80#8 })
        ∧ (∀ l0 l1 c0 c1, s.pkg.boot = 0x02#8 → s.rcv.sps = [0, 1] → s.slotAt 0 = some (l0, c0) → s.slotAt 1 = some (l1, c1) →
            Ends (.resetSequenceStepDone r) s (fun t => t.pkg.boot = 0x03#8 ∧ t.pkg.booted0 = l0 ∧ t.pkg.booted1 = l1
              ∧ ∀ i, i < 4 →
                SMap.look 0#384 t.pkg.meas i
                  = Crypto.sha384 (Crypto.bytesBE 48 (two 0 i).toNat ++ Crypto.bytesBE 48 (Crypto.sha384 (l0.getD i default).bytes).toNat)
                ∧ SMap.look 0#384 t.pkg.meas (8 + i)
                  = Crypto.sha384 (Crypto.bytesBE 48 (two 1 i).toNat ++ Crypto.bytesBE 48 (Crypto.sha384 (l1.getD i default).bytes).toNat)))
        ∧ (s.pkg.boot = 0x03#8 → (∀ i, i < 4 → two 0 i = two 1 i) ∨ s.rcv.sps.length < 2 →
            now (.resetSequenceStepDone r) { s with pkg := boot 0x04#8 })
        ∧ (s.pkg.boot = 0x03#8 → (∃ i, i < 4 ∧ two 0 i ≠ two 1 i) → 2 ≤ s.rcv.sps.length →
            now (.resetSequenceStepDone r) { s with pkg := boot 0x81#8 })
        ∧ (s.pkg.boot = 0x04#8 → now (.resetSequenceStepDone r) { s with pkg := boot 0x05#8 })
        ∧ (s.pkg.boot = 0x05#8 →
            let dies := (List.range 18).filter (s.usableDie r)
            let stks := (List.range 34).filter (fun h => r.stackTests.contains h && !s.retired (.stack h) && !(s.stack h).retired)
            let id := fun (t : State) => ((t.fabEntry s.identity.2).map (·.id)).getD 0xFFF#12
            (stks.length < 32 → Ends (.resetSequenceStepDone r) s (fun t => t.pkg.boot = 0x83#8 ∧ t.fab.regs = s.fab.regs
              ∧ ∀ j, j < 32 → (t.port j).tx.state = 1 ∧ (t.port j).rx.state = 1))
            ∧ (32 ≤ stks.length → Ends (.resetSequenceStepDone r) s (fun t => t.pkg.boot = (if dies.length < 16 then 0x82#8 else 0x06#8)
              ∧ t.pkg.spareDies = dies.drop 16
              ∧ (∀ d pd k, d < 16 → dies[d]? = some pd → k < 20 → t.router k (4 * d) = ownEntry (id t) pd)
              ∧ (∀ m h k, m < 32 → (bindStacks s.pkg.attach (dies.take 16) 32 0 stks)[m]? = some h → k < 20 →
                  t.router k (0x40 + 4 * m) = ownEntry (id t) h)
              ∧ ∀ j, j < 32 → (t.port j).tx.state = 1 ∧ (t.port j).rx.state = 1)))
        ∧ (s.pkg.boot = 0x06#8 → now (.resetSequenceStepDone r) { s with pkg := boot 0x07#8, cycle := 0#64 })
        ∧ (s.pkg.boot = 0x07#8 → Ends (.resetSequenceStepDone r) s (fun t => t.pkg = boot 0x08#8 ∧ (∀ a, isForeign a = false → t.byteAt a = 0#8)
            ∧ t.fe = [] ∧ (∀ a, isForeign a = true → t.byteAt a = s.byteAt a) ∧ (∀ c, t.ctx c = {}) ∧ ∀ d c, t.core d c = {}))
        ∧ (s.pkg.boot = 0x08#8 → Ends (.resetSequenceStepDone r) s (fun t => t.pkg.boot = 0x09#8 ∧ t.pkg.trapEntry = r.trapEntry ∧ t.tenants = []
            ∧ SameMemory s t ∧ ∀ d, d < 16 → ∀ c, c = 64 ∨ c = 65 → (t.ctx ⟨d, c, 0, false⟩).st = .run ∧ (t.ctx ⟨d, c, 0, false⟩).r.pc = r.start))
        ∧ (s.pkg.boot = 0x09#8 → now (.resetSequenceStepDone r) { s with host := { s.host with up := true } }))
    ∧ (∀ v : Word,
        let may := s.rcv.sps.length = 2 ∧ s.pkg.booted0 ≠ [] ∧ s.pkg.booted0 = s.pkg.booted1 ∧ ∀ m ∈ s.pkg.booted0, v.toNat ≤ m.version.toNat
        (may → Ends (.securityVersionAdvance v) s (fun t => t.pkg.fuse0.version.toNat = max s.pkg.fuse0.version.toNat v.toNat
          ∧ t.pkg.fuse1.version.toNat = max s.pkg.fuse1.version.toNat v.toNat ∧ t.pkg.fuse0.repair = s.pkg.fuse0.repair ∧ SameMemory s t))
        ∧ (¬ may → now (.securityVersionAdvance v) s))
    ∧ (∀ u mc, 115000 ≤ mc →
        let t := (s.tellFault (s.dieUnit u) .thermal).lasting (s.dieUnit u) false
        now (.thermalSensorSample false u mc) { t with pkg := { t.pkg with powered := false } }
        ∧ now (.thermalSensorSample true u mc) { s with pkg := { s.pkg with powered := false } })
    ∧ (∀ u mc, mc < 115000 → now (.thermalSensorSample true u mc) s)
    ∧ (∀ u mc, mc < 105000 → Ends (.thermalSensorSample false u mc) s (fun t => SMap.look 0 t.pkg.temps u = mc ∧ t.pkg.powered = s.pkg.powered
        ∧ (t.die u).throttleCap = (s.die u).throttleCap
        ∧ (t.die u).throttle = if 100000 ≤ mc then 1 else if 98000 ≤ mc then min (s.die u).throttle 1 else 0))
    ∧ (∀ w l, Ends (.powerWindowCheck w l) s (fun t => SameMemory s t ∧ ∀ d, d < 16 →
        (t.die d).throttle = (s.die d).throttle ∧ (t.die d).throttleCap = (decide (s.pkg.cap < w) && l.contains d)))
    ∧ (∀ d,
        let n := (s.die d).timingEvents
        let c := s.cycle.toNat - (s.die d).timingSince
        (c < n * 10 ^ 9 → Ends (.avsRateCheck d) s (fun t => (t.die d).millivolts = min 480 ((s.die d).millivolts + 5)
          ∧ (t.die d).timingEvents = 0 ∧ (t.die d).timingSince = s.cycle.toNat))
        ∧ (n * 10 ^ 9 ≤ c → n * 10 ^ 11 < c → 4 * 10 ^ 9 ≤ c → Ends (.avsRateCheck d) s (fun t =>
          (t.die d).millivolts = max 380 ((s.die d).millivolts - 5) ∧ (t.die d).timingEvents = 0 ∧ (t.die d).timingSince = s.cycle.toNat))
        ∧ (n * 10 ^ 9 ≤ c → c ≤ n * 10 ^ 11 ∨ c < 4 * 10 ^ 9 → now (.avsRateCheck d) s))
    ∧ (∀ d c o, c < 64 → o ∈ (s.core d c).engine → o.started = false → o.kind.ramps = true →
        (∀ k, k < 64 → ∀ x ∈ (s.core d k).engine, x.started = false) →
        (s.die d).lastMatrix + 1024 ≤ s.cycle.toNat → (s.die d).rampStart = none →
        Ends (.matrixEngineRamp d) s (fun t => (t.die d).rampStart = some s.cycle.toNat ∧ SameMemory s t))
    ∧ (∀ d, (∀ c, c < 64 → ∀ o ∈ (s.core d c).engine, o.kind.ramps = false ∨ o.started = true) → now (.matrixEngineRamp d) s)
    ∧ (∀ (d : Nat) (w : Word), (∃ g ∈ s.rcv.guests, g.1 = d) → (s.die (guestKey d)).guestBase.isSome = true →
        Ends (.guestTimebaseCorrection d w) s (fun t =>
          (t.die (guestKey d)).guestBase = some (BitVec.ofNat 64 (s.guestCount d), s.cycle.toNat)
          ∧ (t.die (guestKey d)).lead = (s.guestCount d : Int) - (w.toNat : Int)))
    ∧ (∀ g : Greeting, 32 ≤ port ∨ s.portLive port = false → now (.maintGreeting port g) s)
    ∧ (∀ g : Greeting, port < 32 → s.portLive port = true →
        (g.sig = [] → ∃ b, now (.maintGreeting port g)
            (({ s with pkg := { s.pkg with nonces := s.pkg.nonces + 1 } } : State).send (.greeting port
              { pkg := s.pkgid, port := port, nonce := q.nonce, pub := s.identity.2, certSig := Config.certSig s.pkg.fuse0.seed, sig := b }))
          ∧ b = Crypto.ecdsaSign s.identity.1 (Config.secret s.pkg.nonces) (nonceBytes q.nonce g.nonce))
        ∧ (g.sig ≠ [] → s.greetingOk port g = true →
            now (.maintGreeting port g) ((s.onPort port (fun x => { x with far := some (g.pkg, g.port) })).flood.reroute))
        ∧ (g.sig ≠ [] → s.greetingOk port g = false → now (.maintGreeting port g) ((s.portDown port true).portDown port false).reroute))
    ∧ (∀ g l, g ≠ s.pkgid → SMap.look [] s.fab.floods g.toNat ≠ l →
        now (.portListFlood g l) (({ s with fab := { s.fab with floods := SMap.put [] s.fab.floods g.toNat l } } : State).send (.portList g l)).reroute)
    ∧ (∀ g l, g = s.pkgid ∨ SMap.look [] s.fab.floods g.toNat = l → now (.portListFlood g l) s)
    ∧ (now .portListFloodTimer (s.send (.portList s.pkgid s.links)))
    ∧ (∀ r o, 20 ≤ r → now (.routePacket r p o) s)
    ∧ (∀ r o, r < 20 → p.wellTyped = false →
        now (.routePacket r p o) (s.tellFault (if r < 18 then .dieShared r else .serviceProcessor (r - 18)) .droppedPacket))
    ∧ (∀ r o, r < 20 → p.wellTyped = true → p.typ ≠ 0x11#8 ∨ p.opx ≠ 0#7 →
        (p.baseForm = true → p.sdie.toNat = stackOf p.pa / 2 → now (.routePacket r p o) (p.split.foldl (fun t x => t.sendBase r o x) s))
        ∧ (p.baseForm = true → p.sdie.toNat ≠ stackOf p.pa / 2 → now (.routePacket r p o) s)
        ∧ (p.baseForm = false →
            let cv := if p.cvp then SMap.look none (s.port (localEnd r)).cvec (p.vc.toNat % 4) else none
            now (.routePacket r p o)
              ((s.onPort (localEnd r) (fun x => { x with cvec := SMap.put none x.cvec (p.vc.toNat % 4) none })).inject r o cv p.sealed)))
    ∧ (∀ a o cv, s.fab.change.isSome = true → p.maint = false →
        s.inject a o cv p = { s with fab := { s.fab with parked := s.fab.parked ++ [(a, o, cv, p)] } })
    ∧ (∀ a o cv, s.fab.change = none → s.ownSource p = true → p.isRequest = true → (∃ e ∈ s.fab.heldLines, e.1 = s.lineOf p) →
        s.inject a o cv p = { s with fab := { s.fab with heldPackets := s.fab.heldPackets ++ [(a, o, cv, p)] } })
    ∧ (∀ a cv k, p.collective = false → (20 ≤ a ∨ s.fencedTarget a p = false) → s.hop a p = .lost →
        State.enterNode (k + 1) s a cv p = (if p.maint then s else s.answerUnmapped p))
    ∧ (∀ a cv k j, p.collective = false → (20 ≤ a ∨ s.fencedTarget a p = false) → s.hop a p = .port j →
        let vc : BitVec 3 := (p.vc &&& 3#3) ||| (if Config.vcSet a j then 4#3 else 0#3)
        State.enterNode (k + 1) s a cv p = ((match cv with | some v => s.transmit j { v with vc := vc } | none => s).transmit j { p with vc := vc }))
    ∧ (∀ a cv k, p.collective = true → a < 20 → s.groupOk a p = false → p.typ ≠ 0x0D#8 →
        State.enterNode (k + 1) s a cv p
          = State.enterNode k (s.send (.record "rejected contribution" p.group.toNat p.txn.toNat)) a none p.reject.sealed)
    ∧ (∀ l, (∀ e ∈ s.fab.heldLines, e.1 ≠ l) → now (.routeHoldRelease l) s)
    ∧ (∀ l h, s.fab.heldLines.find? (fun e => e.1 == l) = some h →
        ((∃ e ∈ s.fab.pending, s.lineOf e.packet = l) → now (.routeHoldRelease l) s)
        ∧ ((∀ e ∈ s.fab.pending, s.lineOf e.packet ≠ l) → (∀ w ∈ s.net, w.loc / 512 = l → h.2 < w.id) →
            let t : State := { s with fab := { s.fab with heldLines := s.fab.heldLines.filter (fun x => !(x.1 == l)),
                                                          heldPackets := s.fab.heldPackets.filter (fun x => !(s.lineOf x.2.2.2 == l)) } }
            now (.routeHoldRelease l) (((s.fab.heldPackets.filter (fun x => s.lineOf x.2.2.2 == l)).foldl
              (fun u e => u.inject e.1 e.2.1 e.2.2.1 e.2.2.2) t).wakeWhy (.route l))))
    ∧ (q.rx.state < 2 → now (.hopPacketReceive port p) s)
    ∧ (2 ≤ q.rx.state → p.hcrc ≠ p.hopCrc → q.recovery = true → now (.hopPacketReceive port p) s)
    ∧ (2 ≤ q.rx.state → p.hcrc ≠ p.hopCrc → q.recovery = false → now (.hopPacketReceive port p)
        (((s.onPort port (fun x => { x with hcrcf := min (x.hcrcf + 1) 0xFFFF, recovery := true })).control port 1 q.expect.toNat).faultEvent
          (.portDir port true) .linkCrc))
    ∧ (2 ≤ q.rx.state → p.hcrc = p.hopCrc → p.hseq ≠ q.expect → now (.hopPacketReceive port p) s)
    ∧ (2 ≤ q.rx.state → p.hcrc = p.hopCrc → p.hseq = q.expect →
        let a := (s.onPort port (fun x => { x with expect := x.expect + 1#16, recovery := false, unacked := x.unacked + 1 })).ackPort port p.hack
        now (.hopPacketReceive port p) ((if 32 ≤ (a.port port).unacked ∨ 32 ≤ port then a.ackBack port else a).grantIn port p))
    ∧ (now (.recoveryNakTimeout port) (if q.recovery then s.control port 1 q.expect.toNat else s))
    ∧ (q.unacked = 0 → now (.hopAckTimer port) s)
    ∧ (0 < q.unacked → now (.hopAckTimer port) ((s.onPort port (fun x => { x with unacked := 0 })).control port 0 (q.expect - 1#16).toNat))
    ∧ (∀ a, (∀ e ∈ q.buffer, e.1.hseq ≠ a) → now (.ackReceived port a) s)
    ∧ (∀ a i, q.buffer.findIdx? (fun e => e.1.hseq == a) = some i →
        now (.ackReceived port a) ((s.onPort port (fun x => { x with buffer := x.buffer.drop (i + 1) })).drainPort port))
    ∧ (∀ a i, q.tx.state ≠ 0 → q.buffer.findIdx? (fun e => e.1.hseq == a) = some i → now (.nakReceived port a) (s.replayPort port i))
    ∧ (q.buffer ≠ [] → 2 ≤ q.tx.state → now (.replayTimeout port) (s.replayPort port 0))
    ∧ (q.buffer = [] → now (.replayTimeout port) s)
    ∧ (∀ i, (∃ e ∈ q.buffer.drop i, 8 ≤ e.2) → s.replayPort port i = s.portDown port false)
    ∧ (∀ r, s.fab.pending.find? (fun e => e.key == s.replyKey p) = some r →
        let k := SMap.look 0 s.fab.resends r.key
        (2 ≤ k → exec (.e2eNak p) s = exec (.unmappedResponse r.packet) s)
        ∧ (k < 2 → now (.e2eNak p) (State.enterNode 4 { s with fab := { s.fab with resends := SMap.put 0 s.fab.resends r.key (k + 1) } }
            (s.sourceNode r.packet.spkg r.packet.sdie.toNat) none r.packet)))
    ∧ ((∀ e ∈ s.fab.pending, e.key ≠ s.requestKey p) → now (.unmappedResponse p) s)
    ∧ (∀ r, s.fab.pending.find? (fun e => e.key == s.requestKey p) = some r → (∀ e ∈ s.fab.relays, e.1 ≠ s.requestKey p) →
        let t := if p.baseForm then s.freeBase p (s.requestKey p) else s.dropPending (s.requestKey p)
        (r.owner = none → now (.unmappedResponse p) t)
        ∧ ∀ c, r.owner = some c →
          ((t.ctx c).st ≠ .run → (t.ctx c).st ≠ .wait → now (.unmappedResponse p) t)
          ∧ ((t.ctx c).st = .run ∨ (t.ctx c).st = .wait →
              let m : BitVec 32 := (t.ctx c).r.dom.setWidth 32
              ((t.domain m).isSome = true → now (.unmappedResponse p) (t.domainFault m 0x15#8 0#64))
              ∧ (t.domain m = none → exec (.unmappedResponse p) s = .fault .transportLost)))
    ∧ (∀ l, port < 32 → 2 ≤ q.rx.state → l < 16 → now (.laneLockTimeout port l) (s.laneFailed port l))
    ∧ (∀ l, 32 ≤ port ∨ q.rx.state < 2 ∨ 16 ≤ l → now (.laneLockTimeout port l) s)
    ∧ (∀ (m : BitVec 16) (w : BitVec 4), 2 ≤ q.tx.state → w ≠ 0#4 → Ends (.laneFail port m w) s (fun t =>
        (t.port port).tx.failed = m ∧ (t.port port).tx.state = 1 ∧ (t.port port).tx.target = w.toNat ∧ (t.port port).rx = q.rx))
    ∧ (∀ m : BitVec 16, 2 ≤ q.tx.state → Ends (.laneFail port m 0#4) s (fun t => (t.port port).tx.state = 0 ∧ (t.port port).rx = q.rx))
    ∧ (q.rx.state = 1 → Ends (.trainComplete port true) s (fun t => (t.port port).rx.state = q.rx.target ∧ (t.port port).tx = q.tx
        ∧ (port < 32 → 2 ≤ q.rx.target → 2 ≤ q.tx.state → q.far = none → ∃ g : Greeting, OutMsg.greeting port g ∈ t.outbox ∧ g.sig = [])))
    ∧ (q.tx.state = 1 → q.buffer = [] → q.stalled = [] → Ends (.trainComplete port false) s (fun t =>
        (t.port port).tx.state = q.tx.target ∧ (t.port port).rx = q.rx))
    ∧ (∀ r, (if r then q.rx else q.tx).state = 1 → now (.trainTimeout port r) (s.portDown port r))
    ∧ (s.portLive port = true → now (.portDownReroute port) s)
    ∧ (s.portLive port = false → q.stalled = [] → (32 ≤ port → (s.port (farEnd port)).stalled = []) → s.fab.pending = [] →
        now (.portDownReroute port) ((s.clearPort port).flood.reroute.checkFar port))
    ∧ (s.portLive port = false → q.retried = false → Ends (.portRetrainRetry port) s (fun t => (t.port port).tx.state = 1
        ∧ (t.port port).tx.target = 2 ∧ (t.port port).rx.state = 1 ∧ (t.port port).rx.target = 2 ∧ (t.port port).tx.failed = 0#16
        ∧ (t.port port).nextSeq = 0#16 ∧ (t.port port).expect = 0#16 ∧ (t.port port).buffer = [] ∧ (t.port port).far = none
        ∧ (t.port port).retried = true))
    ∧ (s.portLive port = false → q.retried = true → now (.portRetrainRetry port) s)
    ∧ (s.portLive port = true → s.fab.change = none → now (.portRetrainRetry port) s)
    ∧ (s.portLive port = true → s.fab.change.isSome = true → q.tx.state ≠ 2 ∨ q.rx.state ≠ 2 → Ends (.portRetrainRetry port) s (fun t =>
        (t.port port).tx.state = 1 ∧ (t.port port).tx.target = 2 ∧ (t.port port).rx.state = 1 ∧ (t.port port).rx.target = 2))
    ∧ (∀ us, s.creditLimit port ≤ us → (∃ x ∈ q.stalled, SMap.look 0 q.credits x.vc.toNat = 0) →
        now (.creditTimeout port us) ((({ s with rcv := { s.rcv with starved := insNat s.rcv.starved port } } : State).faultEvent
          (.portDir port false) .credit).checkFar port))
    ∧ (∀ us, us < s.creditLimit port → now (.creditTimeout port us) s)
    ∧ (∀ v n, v < 8 →
        let t := s.onPort port (fun x => { x with credits := SMap.put 0 x.credits v (SMap.look 0 x.credits v + n) })
        now (.creditReturn port v n) (({ t with rcv := { t.rcv with starved := t.rcv.starved.filter (fun j => !(j == port && decide (0 < n))) } } :
          State).drainPort port))
    ∧ (∀ v n, 8 ≤ v → now (.creditReturn port v n) s)
    ∧ (∀ (g : BitVec 12) (us : Nat), Ends (.quiesceNotice g us) s (fun t => (g.toNat, us) ∈ t.fab.notices
        ∧ ∀ e, e.1 ≠ g.toNat → (e ∈ t.fab.notices ↔ e ∈ s.fab.notices)))
    ∧ (∀ g : BitVec 12, Ends (.resumeNotice g) s (fun t => ∀ e, e ∈ t.fab.notices ↔ e ∈ s.fab.notices ∧ e.1 ≠ g.toNat))
    ∧ (∀ (m : MapChange) ok,
        let good := (∀ e ∈ m.stkmap, s.badStkmap e.2 = false)
          ∧ ∀ e ∈ m.guest, e.2.toNat.testBit 31 = true → e.2.toNat % 32 ∈ s.pkg.spareDies ∨ ∃ g ∈ s.rcv.guests, g.1 = e.2.toNat % 32
        let whole := m.diemap ≠ [] ∨ m.guest ≠ [] ∨ m.apkg ≠ none
        let t := s.startChange m
        (¬ good → now (.dieMapChange m ok) s)
        ∧ (good → whole → s.fab.change = none →
            now (.dieMapChange m ok) (if ok = true ∧ t.drained = true then t.finishChange m else t))
        ∧ (good → whole → s.fab.change = some m → ok = true → s.drained = true → now (.dieMapChange m ok) (s.finishChange m))
        ∧ (good → whole → s.fab.change.isSome = true → s.fab.change ≠ some m ∨ ok = false ∨ s.drained = false → now (.dieMapChange m ok) s)
        ∧ (t.fab.change = some m ∧ ∀ d, d < 16 → (t.die d).quiesced = true)
        ∧ (s.fab.parked = [] → s.fab.queuedFaults = [] → s.fab.queuedDomains = [] →
            (s.endChange m).fab.change = none ∧ ∀ d, d < 16 → ((s.endChange m).die d).quiesced = false))
    ∧ (∀ k v, s.badStkmap v = false → s.fab.change = none → s.fab.tagWait = [] → k < 32 →
        (∀ e ∈ s.fab.pending, e.packet.baseForm = true → stackOf e.packet.pa ≠ k) →
        Ends (.dieMapChange { diemap := [], stkmap := [(k, v)], guest := [], apkg := none, loads := [] } true) s (fun t =>
          t.router 0 (0x40 + 4 * k) = v &&& routerMask (0x40 + 4 * k) ∧ t.router 0 0xC0 = s.router 0 0xC0 + 1#32))

/-- Causal vectors, homes and base dies.  K is announced when it has changed; a waiting write is performed once K covers its vector; an atomic, a
subtraction from a counter and a write that arrive at their home as packets are performed there in one step and answered, or wait; an operation
that left the rotation writes its result and its context rejoins.  A base die reads, writes and merges what a packet names in its turn, keeps
the overflow cache, runs the routine shipped to it, sends the delta of a stitched write, and answers; the scrubber counts and marks poison (R57
to R81, R157, R181 to R183, R217 to R225, R234).  Where operands lie in ATOMIC and WRITE_MASKED payloads is the model's choice (log entry 45). -/
def Obligations.HomesAndBaseDies : Prop :=
  ∀ (s : State) (h : Nat) (p : Packet) (cv : Option Packet),
    let now := fun (i : Instr) (t : State) => exec i s = .next t
    let m := p.opx.toNat % 16
    let line := p.pa / 512
    let secs := maskSectors m
    let here := s.atStack h p = true ∧ reservedPa p.pa = false
    let free := (s.stack h).mustWait p = false
    let loc := Packet.target p
    let slice := Packet.atSlice p
    let meets := fun (i : Instr) (parts : List (Nat × Nat)) =>
      homeDie loc = some h ∧ isBasin loc = false ∧ isOwn loc = true ∧ unmappedPa loc = false ∧ (∀ r ∈ parts, unmappedPa (r.1 + r.2 - 1) = false)
      ∧ (∀ r ∈ parts, s.locked r.1 r.2 = false ∧ s.homeWait h slice r.1 r.2 = none) ∧ s.homeTurn i p = true ∧ s.fromDie h p = false
    let answer := fun (u : State) (r : Packet) => u.inject (u.physDie h) none none r.sealed
    let packets : List Instr := [.baseDieRead h p [], .baseDieWrite h p, .victimWrite h p, .overflowFlush h p, .overflowDiscard h p,
      .writeMasked h p, .shipRoutine h p, .stitchWrite h p none]
    (∀ d, d < 16 → 65536 ≤ s.cycle.toNat - (s.die d).announcedAt ∨ ((s.die d).k ≠ (s.die d).kSent ∧ 32 ≤ s.cycle.toNat - (s.die d).announcedAt) →
        Ends (.completionAnnouncementTimer d) s (fun t => (t.die d).kSent = (s.die d).k ∧ (t.die d).announcedAt = s.cycle.toNat
          ∧ ∀ j, j < 16 → j ≠ d → (t.die j).heard = (s.die j).heard ++ [s.announcement d j]))
    ∧ (∀ d, s.cycle.toNat - (s.die d).announcedAt < 65536 → (s.die d).k = (s.die d).kSent → now (.completionAnnouncementTimer d) s)
    ∧ (∀ d j,
        let a := s.announcement d j
        a.typ = 0x11#8 ∧ a.len = 2#5 ∧ a.opx = 1#7 ∧ a.cvp = false ∧ a.addr = 0#56 ∧ a.ecrc = a.endCrc
        ∧ ∀ i, i < 16 → vecAt (Packet.vector a) i = vecAt (s.die d).k i)
    ∧ (∀ d, d < 16 →
        (p.opx = 1#7 → now (.completionAnnouncement d p) ((((s.onDie d (fun x => { x with k := mergeVec x.k (Packet.vector p), heard := x.heard.erase p })).retireYoung
          d).liftV d).wakeCausal))
        ∧ (p.opx = 0#7 → now (.completionAnnouncement d p) s)
        ∧ (p.opx ≠ 0#7 → p.opx ≠ 1#7 → now (.completionAnnouncement d p) (s.tellFault (s.dieUnit d) .droppedPacket)))
    ∧ (∀ w, s.net.find? (fun x => x.id == w.id) = some w → w.performed = false → w.refused = false → w.num.isSome = true → s.behind w = false →
        s.mayPerform w = true → now (.causalWritePerform w.id) ((s.performNet w).markPerformed w.id))
    ∧ (∀ w, s.net.find? (fun x => x.id == w.id) = some w → w.performed = true ∨ w.refused = true → now (.storeAck w.id) (s.ackNet w).wakeCausal)
    ∧ (∀ w, s.net.find? (fun x => x.id == w.id) = some w → w.performed = false → w.refused = false → w.num = none → s.behind w = false →
        s.mayPerform w = true → now (.storeAck w.id) ((s.performNet w).ackNet w).wakeCausal)
    ∧ (∀ c, (s.ctx c).wait = .retry .causal → now (.crossDieReadPerform (.ctx c)) (s.wake c))
    ∧ (∀ c, (s.ctx c).wait ≠ .retry .causal → now (.crossDieReadPerform (.ctx c)) s)
    ∧ (∀ d l, Ends (.rdcStampAgeDrop d l) s (fun t => ∀ r, r ∈ (t.die d).rdc ↔
        r ∈ (s.die d).rdc ∧ ¬ (r.sector / 4 = l ∧ r.filled + 2 ^ 22 < s.cycle.toNat)))
    ∧ (∀ c va a w, s.xlate c (s.ctx c).tn ((s.ctx c).heapbase, (s.ctx c).heaplim, (s.ctx c).heapoff) .wr va = .ok a →
        s.net.find? (fun w => w.owner == some c && w.home.isNone && !isBasin w.loc && !w.performed && !w.refused
          && overlaps a.loc 1 w.loc w.bytes.length) = some w →
        Ends (.holdViolationRemote c va) s (fun t => (t.ctx c).atBoundary = (s.ctx c).atBoundary ++ [(0x09#8, va)] ∧ SameMemory s t))
    ∧ (∀ i ∈ [Instr.homeAtomic cv p, .homeCntdec cv p, .homeWrite cv p, .crossDieReadPerform (.packet cv p)],
        isBasin loc = true ∨ isOwn loc = false ∨ unmappedPa loc = true → now i ((s.endWait i).answerUnmapped p))
    ∧ (let n := if p.opx.toNat.testBit 6 then 8 else 4
       let old := s.natAtLoc loc n
       let i := Instr.homeAtomic cv p
       let u := s.endWait i
       ∀ f, atomicOp (p.opx &&& 0x3F#7) n ((wordAt p.payload 0).toNat % 2 ^ (8 * n)) ((wordAt p.payload 8).toNat % 2 ^ (8 * n)) = some f →
        meets i [(loc, n)] → loc % n = 0 → isCtl loc = false → p.len = 1#5 → s.held loc n = false → s.sectorPoisoned loc n = false →
        s.unordered h (s.strongSrc p) loc n = false →
        let r := p.back 7#8 (bytesLE 8 old ++ List.replicate 24 0#8)
        (∀ v, f old = some v → now i (answer (((u.sliceRead h slice loc n 0).applyWrite loc (bytesLE n v) slice .local).noteStrong h (s.strongSrc p) loc n
          none) r))
        ∧ (f old = none → now i (answer ((u.sliceRead h slice loc n 0).noteStrong h (s.strongSrc p) loc n none) r)))
    ∧ (let i := Instr.homeCntdec cv p
       let u := s.endWait i
       let a := natAt p.payload 0 4
       let b := natAt p.payload 4 4
       let v := s.natAtLoc loc 8
       let ack := fun (k : Nat) => ({ p.back 5#8 [] with opx := BitVec.ofNat 7 k } : Packet)
       meets i [(loc, 8)] → loc % 8 = 0 → p.len = 1#5 → (∀ x ∈ p.payload.drop 8, x = 0#8) → s.held loc 8 = false → s.sectorPoisoned loc 8 = false →
        (v % 2 ^ 32 < a ∨ v / 2 ^ 32 < b → now i (answer u (ack 1)))
        ∧ (¬ (v % 2 ^ 32 < a ∨ v / 2 ^ 32 < b) → a = 0 → b = 0 → now i (answer u (ack 0)))
        ∧ (¬ (v % 2 ^ 32 < a ∨ v / 2 ^ 32 < b) → ¬ (a = 0 ∧ b = 0) →
            let w := v - a - b * 2 ^ 32
            now i (answer ((u.setCounter loc w [] .local).settle [.fire loc]) (ack (if w = 0 then 2 else 0)))))
    ∧ (let i := Instr.homeWrite cv p
       let u := s.endWait i
       let l := Packet.writes p
       meets i (l.map (fun e => (e.1, e.2.length))) → l ≠ [] → isCtl loc = false →
        ((∀ e ∈ l, s.held e.1 e.2.length = false) →
          now i (answer (l.foldl (fun (t : State) e => t.applyWrite e.1 e.2 slice .local) u) (p.back 5#8 [])))
        ∧ ((∃ e ∈ l, s.held e.1 e.2.length = true) → now i (u.refuseHome p)))
    ∧ (∀ c r, (s.ctx c).wait = .result r → (s.ctx c).st = .wait →
        now (.loadDataReturn c) ((s.onCtx c (fun x => { x with r := r, ended := true })).wake c)
        ∧ ∀ o, now (.longOpComplete c o) ((s.onCtx c (fun x => { x with r := r, ended := true })).wake c))
    ∧ (∀ c k r d w g o, (s.ctx c).wait = .retry (.resync k r d w) → s.group k = some g → g.root.1 ≠ s.pkgid →
        now (.longOpComplete c (some o)) (s.resynced c k r d o))
    ∧ (s.atStack h p = false → ∀ i ∈ packets, now i s)
    ∧ (s.atStack h p = true → reservedPa p.pa = true → ∀ i ∈ packets, now i (s.answerUnmapped p))
    ∧ (here → p.typ ≠ 1#8 → p.typ ≠ 3#8 → p.typ ≠ 4#8 → p.typ ≠ 8#8 → ∀ i ∈ packets, now i (s.baseSend h (p.answer 0x10#8 0#7 p.addr [])))
    ∧ (here → (s.stack h).mustWait p = true →
        let w := s.onStack h (fun t => { t with queue := t.queue ++ [p] })
        (p.typ = 1#8 → p.opx.toNat < 16 → p.opx ≠ 0#7 → p.len = 0#5 → now (.baseDieRead h p []) w)
        ∧ (p.typ = 3#8 → wholeSectors p = true →
            (p.opx.toNat < 16 → now (.baseDieWrite h p) w) ∧ (p.opx.toNat / 16 = 4 → now (.stitchWrite h p none) w))
        ∧ (p.typ = 3#8 → p.opx = 0x20#7 → p.len = 0#5 → now (.overflowFlush h p) w)
        ∧ (p.typ = 3#8 → p.opx = 0x30#7 → p.len = 0#5 → now (.overflowDiscard h p) w))
    ∧ (here → free → p.typ = 1#8 → p.opx.toNat < 16 → p.opx ≠ 0#7 → p.len = 0#5 →
        ((s.stack h).ocMask line = none →
            let poison := secs.foldl (fun x i => if s.dramPoison (line * 4 + i) then x + 2 ^ i else x) 0
            now (.baseDieRead h p []) ((s.onStack h (·.access (line * 512))).baseSend h (p.answer 2#8 p.opx
              (BitVec.ofNat 56 (p.addr.toNat / 512 * 512 + poison)) (secs.flatMap (fun i => s.dramBytes (line * 4 + i))))))
        ∧ (∀ d, (s.stack h).ocMask line = some d →
            let poison := (maskSectors 15).foldl (fun x i => if s.poisoned (line * 512 + 128 * i) 128 then x + 2 ^ i else x) 0
            now (.baseDieRead h p []) ((s.onStack h (·.ocDrop line)).baseSend h (p.answer 2#8 15#7
              (BitVec.ofNat 56 (p.addr.toNat / 512 * 512 + 256 + d.toNat * 16 + poison))
              ((maskSectors 15).flatMap (fun i => s.bytesAt (line * 512 + 128 * i) 128))))))
    ∧ (here → free → p.typ = 3#8 → p.opx.toNat < 16 → wholeSectors p = true →
        now (.baseDieWrite h p) ((((s.ocWriteBack h line (BitVec.ofNat 4 m)).onStack h (·.access (line * 512))).dramSectors line m p.payload).writeAck
          h p false))
    ∧ (here → free → p.typ = 3#8 → p.opx.toNat / 16 = 1 → p.len = 16#5 → p.payload.length = 512 → Ends (.victimWrite h p) s (fun t =>
        ((s.stack h).ocEn = true → (t.stack h).ocMask line = some (BitVec.ofNat 4 m))
        ∧ ((s.stack h).ocEn = false → (t.stack h).oc = (s.stack h).oc)
        ∧ t.fe = s.fe ∧ ∀ a, t.byteAt a = if a / 512 = line ∧ m.testBit (a / 128 % 4) = true then p.payload.getD (a % 512) 0#8 else s.byteAt a))
    ∧ (here → free → p.typ = 4#8 → p.len = 1#5 → p.maskedAt.1 + p.maskedAt.2 ≤ 32 → p.payload.length = 32 →
        ((s.stack h).ocMask line = none → Ends (.writeMasked h p) s (fun t => (p.pa / 32, p) ∈ (t.stack h).locks ∧ SameMemory s t))
        ∧ (∀ d, (s.stack h).ocMask line = some d → Ends (.writeMasked h p) s (fun t => t.fe = s.fe
            ∧ (∃ e, (t.stack h).ocMask line = some e ∧ e = d ||| sectorBit (p.pa / 128))
            ∧ t.mem = writeMem s.mem (p.pa / 32 * 32 + p.maskedAt.2) (p.payload.take p.maskedAt.1))))
    ∧ (∀ l ∈ (s.stack h).locks, (s.stack h).locks.find? (fun x => x.1 == l.1) = some l → (s.stack h).queue = [] →
        (s.granulePoison l.1 = false → SMap.look none s.under (l.1 / 4) = none → Ends (.maskedMergeComplete h l.1 .clean) s (fun t =>
          (∀ x ∈ (t.stack h).locks, x.1 ≠ l.1) ∧ t.mem = writeMem s.mem (l.1 * 32 + l.2.maskedAt.2) (l.2.payload.take l.2.maskedAt.1)))
        ∧ (s.granulePoison l.1 = true → Ends (.maskedMergeComplete h l.1 .clean) s (fun t =>
            (∀ x ∈ (t.stack h).locks, x.1 ≠ l.1) ∧ SameMemory s t)))
    ∧ (here → free → p.typ = 3#8 → p.opx = 0x20#7 → p.len = 0#5 → Ends (.overflowFlush h p) s (fun t => (t.stack h).ocMask line = none ∧ SameBytes s t))
    ∧ (here → free → p.typ = 3#8 → p.opx = 0x30#7 → p.len = 0#5 → (∀ c u, SMap.look none s.under c = some u → u.bytes.length = 128) →
        ∀ d, (s.stack h).ocMask line = some d → Ends (.overflowDiscard h p) s (fun t => (t.stack h).ocMask line = none ∧ t.fe = s.fe
          ∧ ∀ a, t.byteAt a = match (if a / 512 = line then SMap.look none s.under (a / 128) else none) with
            | some u => u.bytes.getD (a % 128) 0#8
            | none => s.byteAt a))
    ∧ (here → free → p.typ = 8#8 → p.opx = 0#7 → p.len = 1#5 → p.payload.length = 32 → natAt p.payload 16 2 < 1024 →
        (∀ x ∈ p.payload.drop 18, x = 0#8) → SMap.look none s.under (p.pa / 128) = none →
        let r := s.shipAt h p.pa (wordAt p.payload 0) (wordAt p.payload 8) (natAt p.payload 16 2)
        let z := p.answer 9#8 0#7 p.addr (bytesLE 8 r.2.1.toNat ++ bytesLE 1 r.1 ++ List.replicate 23 0#8)
        (∃ u : State, now (.shipRoutine h p) (u.baseSend h z) ∧ u.fe = s.fe ∧ u.poison = s.poison
          ∧ u.mem = match r.2.2 with | some b => writeMem s.mem (p.pa / 64 * 64) b | none => s.mem))
    ∧ (here → free → p.typ = 3#8 → p.opx.toNat / 16 = 4 → wholeSectors p = true →
        let old := secs.flatMap (fun i => s.dramBytes (line * 4 + i))
        ((∀ i ∈ secs, s.dramPoison (line * 4 + i) = false) → ∀ d, homeDie (line * 512) = some d → Ends (.stitchWrite h p none) s (fun t =>
          ∃ x : StitchPkt, (t.die d).stitchQ = (s.die d).stitchQ ++ [x] ∧ x.line = line ∧ x.mask = BitVec.ofNat 4 m
            ∧ x.delta = List.zipWith (fun (a b : Byte) => a ^^^ b) old p.payload ∧ x.dom = s.writerOf line m))
        ∧ ((∃ i ∈ secs, s.dramPoison (line * 4 + i) = true) → Ends (.stitchWrite h p none) s (fun t =>
          (t.stack h).stitchHeld = (s.stack h).stitchHeld ++ [(p, s.writerOf line m)] ∧ ∀ a, t.byteAt a = s.byteAt a)))
    ∧ ((∀ e ∈ s.fab.pending, e.key ≠ s.replyKey p) → now (.requesterReply p) s)
    ∧ (∀ r, s.fab.pending.find? (fun e => e.key == s.replyKey p) = some r → (∀ e ∈ s.fab.relays, e.1 ≠ s.replyKey p) →
        (p.typ ≠ 2#8 → now (.requesterReply p) ((s.freeBase r.packet (s.replyKey p)).wakeWhy (.baseDie (s.stackAt p.pa))))
        ∧ (p.typ = 2#8 → now (.requesterReply p) (((s.freeBase r.packet (s.replyKey p)).install p).wakeWhy (.baseDie (s.stackAt p.pa)))))
    ∧ (∀ b, s.fab.pending = [] → (s.stack h).portA = true → (s.stack h).portB = true → Ends (.baseDiePortLoss h b) s (fun t =>
        (t.stack h).portA = b ∧ (t.stack h).portB = !b ∧ SameMemory s t))
    ∧ (∀ b, s.fab.pending = [] → (s.stack h).portA = b → (s.stack h).portB = !b →
        ∃ u : State, SameMemory s u ∧ (now (.baseDiePortLoss h (!b)) (u.faultEvent (.stack h) .portDown)))
    ∧ (∀ g,
        let u := s.onStack h (·.access (g * 32))
        now (.patrolScrub h g .clean) u
        ∧ now (.patrolScrub h g .corrected) ((u.onStack h (fun t => { t with cecnt := min (t.cecnt + 1) 0xFFFFFFFF })).faultEvent
            (.hbmRow h ((u.stack h).place (g * 32)).1 ((u.stack h).place (g * 32)).2) .corrected)
        ∧ now (.patrolScrub h g .uncorrectable) (((u.poisonGranule g).onStack h (fun t =>
            { t with uecnt := min (t.uecnt + 1) 0xFFFFFFFF })).faultEvent (.stack h) .uncorrectable))
    ∧ (∀ b, Ends (.occtlWrite h b) s (fun t => (t.stack h).ocEn = b ∧ (t.stack h).oc = (s.stack h).oc ∧ SameMemory s t))
    ∧ ((s.stack h).ocEn = false → Ends (.overflowDrainDone h) s (fun t => (t.stack h).oc = [] ∧ SameBytes s t))
    ∧ ((s.stack h).ocEn = true → now (.overflowDrainDone h) s)
    ∧ (∀ k r, k < 1024 → r.valid = false ∨ routineOk r = true → Ends (.routineTableWrite h k r) s (fun t =>
        SMap.look {} (t.stack h).routines k = r))
    ∧ (∀ k r, k < 1024 → r.valid = true → routineOk r = false → Ends (.routineTableWrite h k r) s (fun t =>
        (SMap.look {} (t.stack h).routines k).valid = false))
    ∧ (∀ k r, 1024 ≤ k → now (.routineTableWrite h k r) s)
    ∧ (∀ a v w, now (.registerWrite (.ctl a v w)) (s.ctlWrite a v w))
    ∧ (∀ k x, s.rcv.sps = [0, 1] → 5 ≤ k → k ≤ 7 → Ends (.registerWrite (.meas k x)) s (fun t => ∀ j, j < 2 →
        SMap.look 0#384 t.pkg.meas (8 * j + k)
          = Crypto.sha384 (Crypto.bytesBE 48 (SMap.look 0#384 s.pkg.meas (8 * j + k)).toNat ++ Crypto.bytesBE 48 x.toNat)))
    ∧ (∀ k x, k < 5 ∨ 7 < k → now (.registerWrite (.meas k x)) s)
    ∧ (∀ c n w, c < 6 → 1 ≤ n → n ≤ 15 → 1 ≤ w → w ≤ 1000 → Ends (.registerWrite (.param c n w)) s (fun t =>
        SMap.look (0, 0) t.rcv.params c = (n, w)))
    ∧ (∀ c n w, 6 ≤ c ∨ n < 1 ∨ 15 < n ∨ w < 1 ∨ 1000 < w → now (.registerWrite (.param c n w)) s)
    ∧ (Ends (.refreshWindowStart h) s (fun t => (t.stack h).tracker = [] ∧ (t.stack h).openRows = (s.stack h).openRows ∧ SameMemory s t))
    ∧ (∀ b, (s.stack h).queue = [] → Ends (.directedRefreshDone h b) s (fun t => SameMemory s t
        ∧ ∀ x, x ∈ (t.stack h).refreshing ↔ x ∈ (s.stack h).refreshing ∧ x.1 ≠ b))

/-- Faults, sparing and recovery.  A fault event is counted by both service processors in its window and at the threshold diagnoses a lasting fault;
proposals commit, go to the peers or end as KEEP; a retired core, stack or die is replaced, what it held being moved or lost; what a lost member
of a stitch group held is solved from what survives; lost packages are told of; a stitch unit sends each delta to its parity holders, which add it
to their parity, resends it twice and then faults the domain (R82 to R110, R390, R391). -/
def Obligations.RecoveryAndStitchGroups : Prop :=
  ∀ (s : State) (u : FUnit) (kind : FKind) (d c n : Nat) (p : Packet),
    let now := fun (i : Instr) (t : State) => exec i s = .next t
    let lim := s.faultParams u
    let mine := fun (q : Proposal) => s.rcv.proposals.find? (fun x => x.unit == u) = some q
    let slot := SMap.look none (s.core d c).deltas n
    let put := fun (t : State) (v : Option DeltaSlot) => t.onCore d c (fun x => { x with deltas := SMap.put none x.deltas n v })
    (∀ l, kind ≠ .uncorrectable ∨ l = none → now (.faultEvent u kind l) (s.faultEvent u kind))
    ∧ (∀ l, now (.faultEvent u .uncorrectable (some l)) ((s.poisonUnit u l).faultEvent u .uncorrectable))
    ∧ (∀ h l, isOwn l = true → s.stackAt l = h → (s.poisonUnit (.stack h) l).granulePoison (l / 32) = true)
    ∧ (kind.counts (unitClass u) = true → s.rcv.sps = [0, 1] →
        (∀ x, x < 2 → (s.countOf x u).count ≠ 0 ∧ s.cycle.toNat - (s.countOf x u).start < lim.2 ∧ (s.countOf x u).count + 1 < lim.1) →
        Ends (.faultEvent u kind none) s (fun t => SameMemory s t ∧ ∀ x, x < 2 →
          (t.countOf x u).count = (s.countOf x u).count + 1 ∧ (t.countOf x u).start = (s.countOf x u).start))
    ∧ (kind.counts (unitClass u) = true → s.rcv.sps = [0, 1] → (s.countOf 0 u).count ≠ 0 → s.cycle.toNat - (s.countOf 0 u).start < lim.2 →
        lim.1 ≤ (s.countOf 0 u).count + 1 → now (.faultEvent u kind none) (((s.tellFault u kind).countEvent u kind).1.lasting u false))
    ∧ (now (.probeTimeout u) (s.faultEvent u .noResponse))
    ∧ (∀ x : CtxId, Ends (.timingDetectorReplay x false) s (fun t => (t.die x.die).timingEvents = (s.die x.die).timingEvents + 1 ∧ SameMemory s t))
    ∧ (∀ x : CtxId,
        let a := s.onDie x.die (fun y => { y with timingEvents := y.timingEvents + 1 })
        let b := a.faultEvent (a.coreUnit x.die x.core) .timing
        let e := if (b.ctx x).wait = .retry .matrix then b.dropOp x else b
        ((b.ctx x).st ≠ .run → (b.ctx x).st ≠ .wait → now (.timingDetectorReplay x true) b)
        ∧ ((b.ctx x).st = .run ∨ (b.ctx x).st = .wait →
          ((e.domain ((b.ctx x).r.dom.setWidth 32)).isSome = true →
            now (.timingDetectorReplay x true) (e.domainFault ((b.ctx x).r.dom.setWidth 32) 0x08#8 0#64))
          ∧ (e.domain ((b.ctx x).r.dom.setWidth 32) = none →
            now (.timingDetectorReplay x true) ((e.leaveWaits x).takeTrap x 0x08#8 (b.ctx x).r.pc false false [] 0#32))))
    ∧ (∀ b k, s.fab.change = none → s.rcv.proposals = [] → s.retired u = false → s.rcv.sps = [0, 1] → k < 2 →
        let evidence := (s.countOf (1 - k) u).events
        Ends (.retirementProposal u b k false) s (fun t => SameMemory s t ∧ ∃ q ∈ t.rcv.proposals, q.unit = u ∧ q.silent = b ∧ q.peer = false
          ∧ q.proposer = k ∧ q.events = (s.countOf k u).events)
        ∧ (s.meets u evidence = true → Ends (.retirementProposal u b k true) s (fun t =>
            t.retired u = true ∧ t.rcv.proposals = [] ∧ SameMemory s t))
        ∧ (s.meets u evidence = false → s.reach ≠ [] → s.nearestTo s.pkgid ≠ [] → Ends (.retirementProposal u b k true) s (fun t =>
            t.retired u = false ∧ ∃ q ∈ t.rcv.proposals, q.unit = u ∧ q.peer = true ∧ q.answer = some false)))
    ∧ (∀ q, mine q → q.peer = false → s.reach = [] → now (.voteAnswerTimeout u) (s.keepUnit u false))
    ∧ (∀ q, mine q → q.peer = false → s.reach ≠ [] → s.nearestTo s.pkgid ≠ [] → Ends (.voteAnswerTimeout u) s (fun t =>
        ∃ x ∈ t.rcv.proposals, x.unit = u ∧ x.peer = true))
    ∧ (∀ g e th w, now (.peerVote (.asked g u e th w)) (s.send (.vote g u
        (if s.rcv.sps.length < 2 then .abstain else if evidenceMeets (unitClass u) e th w then .retire else .keep))))
    ∧ (∀ q a b, mine q → q.peer = true → q.abstained = [] → now (.peerVote (.cast u a b))
        (if (a = .retire ∧ b ≠ .keep) ∨ (b = .retire ∧ a ≠ .keep) then s.commitRetirement u else s.keepUnit u true))
    ∧ (∀ q b, mine q → q.peer = true → q.abstained = [] →
        now (.peerVoteTimeout u b) (s.onProposal u (fun x => { x with abstained := [if b then 0 else 1] })))
    ∧ (∀ q b, mine q → q.peer = true → q.abstained = [if b then 1 else 0] → now (.peerVoteTimeout u b) (s.keepUnit u true))
    ∧ (∀ x, d < 16 → c < 64 → s.retired (s.coreUnit d c) = true → s.rcv.silent.contains (s.coreUnit d c) = false → s.spareCore d x = true →
        Ends (.gracefulCoreRetirement d c x) s (fun t => t.physCore d c = x ∧ SameBytes s t ∧ (∀ y, t.ctx y = s.ctx y)
          ∧ ∀ y ∈ (t.die d).l2, y.slice ≠ c))
    ∧ (∀ x, d < 16 → c < 64 → s.retired (s.coreUnit d c) = true → s.rcv.silent.contains (s.coreUnit d c) = true → s.spareCore d x = true →
        now (.abruptCoreRetirement d c x)
          (((((s.setCore d c x).loseWork d (· == c) false).loseData (s.dirtyPage d (some c))).l2Lose d (some c)).unfence (s.coreUnit d c)))
    ∧ (∀ x a, d < 32 → s.retired (.stack (s.physStack d)) = true → a = !s.rcv.silent.contains (.stack (s.physStack d)) → s.fab.change = none →
        let h := s.physStack d
        let e : BitVec 32 := 0x80000000#32 ||| (s.pkgid.setWidth 32 <<< 12) ||| BitVec.ofNat 32 x
        let m : MapChange := { diemap := [], stkmap := [(d, e)], guest := [], apkg := none, loads := [] }
        let left := (s.stack h).oc.foldl (fun t y => t.ocDiscard h y.1) s
        (s.pkg.spareStacks = [] → s.pkgid ∉ s.rcv.lost → now (.stackRetirement d x a) s.losePackage)
        ∧ (s.pkg.spareStacks.contains x = true → a = false → now (.stackRetirement d x a) (((left.writeMaps m).moveStack d h x).resendStack
            (left.fab.pending.filter (fun r => r.packet.baseForm && decide (stackOf r.packet.pa = d)))))
        ∧ (s.pkg.spareStacks.contains x = true → a = true → ∃ v : State, v = (((s.onStack h (fun t => { t with ocEn := false })).stack h).oc.foldl
              (fun t y => t.ocWriteBack h y.1 0#4) (s.onStack h (fun t => { t with ocEn := false }))).changeStacks m true
            ∧ now (.stackRetirement d x a) (if v.physStack d = x then v.moveStack d h x else v)))
    ∧ (∀ h x, x ≠ h → s.fab.parked = [] →
        let v := s.moveStack d h x
        (v.stack x).rebuild = some (d, 0) ∧ (v.stack x).spare = false ∧ (v.stack x).routines = (s.stack h).routines ∧ (v.stack h).lost = true
        ∧ x ∉ v.pkg.spareStacks)
    ∧ (∀ k j (all : List (Nat × List Byte)), all.map (·.1) = List.range k → (∀ e ∈ all, e.2.length = 128) →
        (∀ a, a < k → ∃ r, solveData k (all.filter (fun e => e.1 != a)) [(j, parityOf 128 j all)] = some r ∧ ∀ e ∈ all, e ∈ r)
        ∧ (∀ a b, a < b → b < k → k ≤ 255 →
            ∃ r, solveData k (all.filter (fun e => e.1 != a && e.1 != b)) [(0, parityOf 128 0 all), (1, parityOf 128 1 all)] = some r
              ∧ ∀ e ∈ all, e ∈ r))
    ∧ (∀ h x g r, s.stitchOf (n * 128) = some x → s.rebuilder (stackOf (n * 128)) = some h → SMap.look none s.rcv.stitch x.toNat = some g →
        s.unrebuilt n = true →
        let t := s.markRebuilt h (stackOf (n * 128)) (n * 128 % 2 ^ 36 / 128)
        (∀ b, g.solve (s.memberOf g).1 (s.memberOf g).2 r = some b →
          now (.stackRebuildSector n r) (((t.onStack h (·.access (n * 128))).dramWrite (n * 128) b).wakeWhy (.rebuild n)))
        ∧ (g.solve (s.memberOf g).1 (s.memberOf g).2 r = none →
          now (.stackRebuildSector n r) (((s.stitchersOf (n * 128)).foldl (fun v tn => v.post tn 0x0013#16 0#8 0#32 0 (BitVec.ofNat 64 (n * 128)))
            ((List.range 4).foldl (fun v i => v.poisonGranule (n * 4 + i)) t)).wakeWhy (.rebuild n))))
    ∧ (∀ x g, s.stitchOf (n * 128) = some x → s.rebuilder (stackOf (n * 128)) = none → SMap.look none s.rcv.stitch x.toNat = some g →
        (s.memberOf g).2.isSome = true →
        Ends (.stackRebuildSector n ⟨[], []⟩) s (fun t => (x.toNat, n) ∈ t.rcv.parityLocks ∧ SameMemory s t)
        ∧ ∀ r : RebuildReads, r.data ≠ [] ∨ r.parity ≠ [] → s.rcv.parityWait = [] →
            Ends (.stackRebuildSector n r) s (fun t => (x.toNat, n) ∉ t.rcv.parityLocks ∧ SameMemory s t))
    ∧ (∀ h, s.rebuilder d = some h →
        let from_ := (((s.stack h).rebuild).map (·.2)).getD 0
        ((s.nextStitched d from_).isSome = true → now (.stackRebuildDone d) s)
        ∧ (s.nextStitched d from_ = none →
            now (.stackRebuildDone d) ((s.stitchedOn d).foldl (fun t tn => t.post tn 0x0014#16 0#8 0#32 0 (BitVec.ofNat 64 d))
              (s.onStack h (fun t => { t with rebuild := none, rebuilt := [] })))))
    ∧ (∀ x a,
        let e : BitVec 32 := 0x80000000#32 ||| (s.pkgid.setWidth 32 <<< 12) ||| BitVec.ofNat 32 x
        let r (ok : Bool) : State := ({ s with pkg := { s.pkg with spareDies := s.pkg.spareDies.filter (fun y => !(y == x)) } } : State).onPDie x (fun y =>
          { y with rail := ok })
        (s.maySubstitute d a = true → s.pkg.spareDies.contains x = true →
          now (.dieSubstitutionLocal d x a false) ((r false).faultEvent (.dieShared x) .selfTest)
          ∧ exec (.dieSubstitutionLocal d x a true) s = (r true).replaceDie d e a)
        ∧ (s.maySubstitute d a = false ∨ s.pkg.spareDies.contains x = false → ∀ ok, now (.dieSubstitutionLocal d x a ok) s))
    ∧ (∀ (t : State) (e : BitVec 32) (a : Bool), t.replaceDie d e a = exec (.dieMapChange { diemap := [(d, e)], stkmap := [], guest := [], apkg := none, loads := [] } true)
        { (if a then t.l2Drain d none else t) with fab := { (if a then t.l2Drain d none else t).fab with subst := some (d, a) } })
    ∧ (∀ (g : BitVec 12) x, d < 16 → g ≠ s.pkgid →
        let e : BitVec 32 := 0xC0000000#32 ||| (g.setWidth 32 <<< 12) ||| BitVec.ofNat 32 (x % 32)
        let t := (s.setRouters (4 * d) e).bumpMapgen
        let a := !s.rcv.silent.contains (s.dieUnit d)
        now (.dieSubstitutionRemote d g x false) s
        ∧ (s.pkg.boot ≠ 0x82#8 → s.maySubstitute d a = true → s.pkg.spareDies = [] →
          exec (.dieSubstitutionRemote d g x true) s = s.replaceDie d e a)
        ∧ (s.pkg.boot = 0x82#8 → (s.router 0 (4 * d)).toNat.testBit 31 = false → now (.dieSubstitutionRemote d g x true)
            (if (List.range 16).all (fun j => (t.router 0 (4 * j)).toNat.testBit 31) then
              { t.measureMaps with pkg := { t.measureMaps.pkg with boot := 0x06#8 } } else t)))
    ∧ (Ends .heartbeatTimer s (fun t => t = { s with outbox := s.outbox ++ [.maint "heartbeat" s.pkgid.toNat] }))
    ∧ (∀ g : BitVec 12,
        let k := SMap.look 0 s.rcv.missed g.toNat
        let t (x : Nat) : State := { s with rcv := { s.rcv with missed := SMap.put 0 s.rcv.missed g.toNat x } }
        now (.heartbeatMiss g false) (t 0) ∧ (k ≠ 2 → now (.heartbeatMiss g true) (t (Nat.min (k + 1) 3)))
        ∧ (k = 2 → s.rcv.lost.contains g = false → now (.heartbeatMiss g true) ((t 3).seeLost g)))
    ∧ (∀ (g : BitVec 12) a b,
        (outvotes a b = false → Ends (.packageLoss g a b) s (fun t => SMap.look 0 t.rcv.missed g.toNat = 0 ∧ t.rcv.lost = s.rcv.lost ∧ SameMemory s t))
        ∧ (outvotes a b = true → s.rcv.lost.contains g = true → now (.packageLoss g a b) s)
        ∧ (outvotes a b = true → s.rcv.lost.contains g = false →
          (g = s.pkgid → now (.packageLoss g a b) s.losePackage)
          ∧ (g ≠ s.pkgid → (s.spareFor g).map (·.id) ≠ some s.pkgid → now (.packageLoss g a b) (s.dropPackage g))
          ∧ (g ≠ s.pkgid → (s.spareFor g).map (·.id) = some s.pkgid → (s.router 0 0xC4).toNat.testBit 31 = false →
              exec (.packageLoss g a b) s = exec (.dieMapChange { diemap := [], stkmap := [], guest := [], apkg := some g, loads := [] } true)
                ((List.range 32).foldl (fun y m => y.onStack (y.physStack m) (fun z => { z with rebuild := some (m, 0), rebuilt := [] }))
                  (s.dropPackage g)))))
    ∧ (∀ g : BitVec 12, g ∈ (s.dropPackage g).rcv.lost)
    ∧ (∀ x : BitVec 16,
        let good := p.typ = 0x0E#8 ∧ p.payload.length = 128 * (maskSectors (p.opx.toNat % 16)).length ∧ p.payload ≠ [] ∧ reservedPa p.pa = false
        let locked := ∃ e ∈ deltasOf p, (x.toNat, p.pa / 512 * 4 + e.1) ∈ s.rcv.parityLocks
        (¬ good → now (.stitchDeltaReceive x p) s)
        ∧ (good → locked → now (.stitchDeltaReceive x p) { s with rcv := { s.rcv with parityWait := s.rcv.parityWait ++ [(x, p)] } })
        ∧ (good → ¬ locked → ∀ g j i, SMap.look none s.rcv.stitch x.toNat = some g → (s.memberOf g).2 = some j →
            g.data.findIdx? (· == p.spkg) = some i → (∀ e ∈ deltasOf p, SMap.look none s.under (p.pa / 512 * 4 + e.1) = none) →
            Ends (.stitchDeltaReceive x p) s (fun t => ∀ e ∈ deltasOf p, ∀ k, k < 128 →
              let a := (p.pa / 512 * 4 + e.1) * 128 + k
              t.byteAt a = s.byteAt a ^^^ gfScale (j * i) (e.2.getD k 0#8))))
    ∧ (∀ l (m : BitVec 4) b (g : BitVec 16) (w : BitVec 32),
        let e : DeltaSlot := { line := l, mask := m, delta := b, group := g, dom := w, waiting := s.holders g, resends := 0 }
        let q : StitchPkt := { core := c, line := l, mask := m, delta := b, group := g, dom := w }
        let t := s.onDie d (fun y => { y with stitchQ := y.stitchQ.erase q })
        (q ∉ (s.die d).stitchQ → now (.stitchUnitDelta d c l m b g w) s)
        ∧ (q ∈ (s.die d).stitchQ → s.holders g = [] → now (.stitchUnitDelta d c l m b g w) (t.creditDelta e))
        ∧ (q ∈ (s.die d).stitchQ → s.holders g ≠ [] → (List.range 256).find? (fun i => (SMap.look none (s.core d c).deltas i).isNone) = some n →
            now (.stitchUnitDelta d c l m b g w) ((put t (some e)).sendDelta d c n e (s.holders g)))
        ∧ (q ∈ (s.die d).stitchQ → s.holders g ≠ [] → (∀ i, i < 256 → (SMap.look none (s.core d c).deltas i).isSome = true) →
            now (.stitchUnitDelta d c l m b g w) s))
    ∧ (∀ e g, slot = some e →
        let rest := e.waiting.filter (fun y => !(y == g))
        (rest = [] → now (.stitchAckReceive d c n g) ((put s none).creditDelta e))
        ∧ (rest ≠ [] → now (.stitchAckReceive d c n g) (put s (some { e with waiting := rest }))))
    ∧ (∀ e, slot = some e → e.resends < 2 →
        now (.stitchResendTimeout d c n) ((put s (some { e with resends := e.resends + 1 })).sendDelta d c n e e.waiting))
    ∧ (∀ e, slot = some e → 2 ≤ e.resends → now (.stitchResendTimeout d c n)
        (((s.fab.ports.filter (fun y => decide (y.1 < 32) && (match y.2.far with | some f => e.waiting.contains f.1 | none => false))).foldl
          (fun t y => (t.portDown y.1 false).portDown y.1 true) ((put s none).onDomain e.dom (fun r => { r with acks := r.acks - 1 }))).domainFault
          e.dom 0x16#8 0#64))

/-- The host.  A session is offered, established or refused, acknowledges, resends and ends; a command is received once and queued; each command
that passes its checks has its effect and is answered with status 0 and its result, and one that does not is answered with the status of its
first failing check: tenants, windows, templates, routines, launches, counters, copies, events, groups, checkpoints, reset, attestation, the
power cap and T2 pages (R22, R74, R75, R95, R111 to R138, R210, R384, R410, R419, R430).  What an OPEN that attaches does with its counts, which
sessions' RESET may close, and that ROUTINES loads the entries beside a refused one are the model's choices (log entries 67 to 69). -/
def Obligations.HostSessionsAndCommands : Prop :=
  ∀ (s : State) (h : CmdHead) (x : Session) (te : TenantSt) (sid : Nat) (dg : Datagram) (hd : ScpHead) (body : List Byte),
    let now := fun (i : Instr) (t : State) => exec i s = .next t
    let sess := s.session sid = some x
    let own := s.tenant h.tenant = some te
    let sealed := s.openScp hd dg.bytes = some (x, body)
    let word := fun (va : Word) (u : State) (loc : Nat) => va.toNat % 8 = 0 ∧ s.prep h.tenant .wr [(va.toNat, 8)] = .ok u
      ∧ (∃ w, u.pieceLoc h.tenant va.toNat = some (loc, w)) ∧ u.locked loc 8 = false ∧ u.readsPoison h.tenant [(va.toNat, 8)] = false
    (∀ k i, (k, i) ∈ [(0, Instr.scpHello dg), (2, .scpAuth dg), (3, .scpCommandReceive dg), (6, .scpAck dg), (7, .scpBye dg)] →
        s.scpIn dg k = none → now i s)
    ∧ (∀ k, s.host.up = false ∨ dg.pause = true ∨ 9216 < dg.frame ∨ dg.fragment = true ∨ dg.port ≠ 5791 ∨ dg.mac ≠ s.host.mac
          ∨ natAt dg.bytes 0 2 ≠ 0x5347 ∨ natAt dg.bytes 2 1 ≠ 1 ∨ natAt dg.bytes 40 8 ≠ 0 ∨ 8936 < natAt dg.bytes 32 2 ∨ 9000 < dg.bytes.length →
        s.scpIn dg k = none)
    ∧ now (.scpDiscard dg) s
    ∧ (s.scpIn dg 0 = some hd →
        let pub := BitVec.ofNat 776 (Crypto.natBE ((dg.bytes.drop 177).take 97))
        let z := Crypto.ecdh (Config.secret s.pkg.nonces) (BitVec.ofNat 776 (Crypto.natBE ((dg.bytes.drop 80).take 97)))
        (hd.sid ≠ 0 ∨ hd.len ≠ 226 → now (.scpHello dg) s)
        ∧ (hd.sid = 0 → hd.len = 226 → 256 ≤ s.sessionsHeld → now (.scpHello dg) s.refuseHello)
        ∧ (hd.sid = 0 → hd.len = 226 → s.sessionsHeld < 256 → z = none ∨ Crypto.decodePoint pub = none → now (.scpHello dg) s)
        ∧ (hd.sid = 0 → hd.len = 226 → s.sessionsHeld < 256 → z ≠ none → Crypto.decodePoint pub ≠ none →
            Ends (.scpHello dg) s (fun t => t.host.nextSid = s.host.nextSid + 1 ∧ ∃ b y, t.outbox = s.outbox ++ [.scp s.host.nextSid b]
              ∧ SMap.look none t.host.sessions s.host.nextSid = some y ∧ y.phase = 0 ∧ y.pub = pub ∧ y.transcript = dg.bytes ++ b)))
    ∧ (s.scpIn dg 2 = some hd →
        (s.openScp hd dg.bytes = none → now (.scpAuth dg) s)
        ∧ (sealed → hd.seq ≠ 0 → now (.scpAuth dg) s)
        ∧ (sealed → hd.seq = 0 → x.phase = 1 → now (.scpAuth dg) (s.onSession hd.sid (fun y => { y with ackDue := true, heard := s.cycle.toNat })))
        ∧ (∀ g, sealed → hd.seq = 0 → x.phase ≠ 1 → s.admitted x.pub = some g → Crypto.ecdsaVerify x.pub x.transcript body = true →
            now (.scpAuth dg) (({ s with host := { s.host with auths := s.host.auths + 1 } } : State).onSession hd.sid (fun y =>
              { y with phase := 1, key := some g.1, auth := s.host.auths + 1, ackDue := true, heard := s.cycle.toNat })))
        ∧ (sealed → hd.seq = 0 → x.phase ≠ 1 → s.admitted x.pub = none ∨ Crypto.ecdsaVerify x.pub x.transcript body = false →
            let t := s.emit hd.sid { kind := 7 } []
            now (.scpAuth dg) { t with host := { t.host with sessions := SMap.put none t.host.sessions hd.sid none } }))
    ∧ (s.scpIn dg 6 = some hd →
        (s.live hd.sid = true → sealed → now (.scpAck dg) (s.received hd))
        ∧ (s.live hd.sid = false ∨ s.openScp hd dg.bytes = none → now (.scpAck dg) s))
    ∧ (hd.seq ≤ 2 ^ 63 → s.received hd = s.onSession hd.sid (fun y => y.receive hd s.cycle.toNat))
    ∧ (2 ^ 63 < hd.seq → s.received hd
        = ((s.onSession hd.sid (fun y => y.receive hd s.cycle.toNat)).emit hd.sid { kind := 7 } []).endSession hd.sid)
    ∧ (s.scpIn dg 7 = some hd → (sealed → now (.scpBye dg) (s.endSession hd.sid)) ∧ (s.openScp hd dg.bytes = none → now (.scpBye dg) s))
    ∧ (sess → now (.scpIdleTimeout sid) (if x.heard + 240000000000 ≤ s.cycle.toNat then s.endSession sid else s))
    ∧ (sess → now (.scpAckTimer sid) (if x.ackDue then s.sendOn sid { kind := 6 } [] else s))
    ∧ (∀ m, sess → x.unacked.find? (fun e => e.seq == m.seq) = some m →
        (s.cycle.toNat < m.due → now (.scpResendTimer sid m.seq) s)
        ∧ (m.due ≤ s.cycle.toNat → 12 ≤ m.resends → now (.scpResendTimer sid m.seq) (s.endSession sid))
        ∧ (m.due ≤ s.cycle.toNat → m.resends < 12 → now (.scpResendTimer sid m.seq) ((s.send (.scp sid m.wire)).onSession sid (fun y =>
            { y with unacked := y.unacked.map (fun q => if q.seq = m.seq then { q with resends := q.resends + 1, at_ := s.cycle.toNat } else q) }))))
    ∧ (s.scpIn dg 3 = some hd →
        let t := s.received hd
        (s.live hd.sid = false ∨ s.openScp hd dg.bytes = none → now (.scpCommandReceive dg) s)
        ∧ (s.live hd.sid = true → sealed →
          (x.ackn + 256 < hd.seq → now (.scpCommandReceive dg) s)
          ∧ (hd.seq ≤ x.ackn + 256 → 2 ^ 63 < hd.seq → now (.scpCommandReceive dg) t)
          ∧ (hd.seq ≤ x.ackn + 256 → hd.seq ≤ 2 ^ 63 → hd.seq ≤ x.ackn ∨ hd.seq ∈ x.sack → now (.scpCommandReceive dg)
              (match x.replies.find? (fun r => r.1 == hd.seq) with | some r => t.send (.scp hd.sid r.2) | none => t))
          ∧ (hd.seq ≤ x.ackn + 256 → hd.seq ≤ 2 ^ 63 → x.ackn < hd.seq → hd.seq ∉ x.sack →
              now (.scpCommandReceive dg) (t.enterCmd hd.cmd (natAt body 0 2) (parseCmd body)))))
    ∧ (∀ op c,
        (s.permitted h op = false → s.enterCmd h op c = s.answer h op 2 [])
        ∧ (s.permitted h op = true → c = none → s.enterCmd h op c = s.answer h op 1 [])
        ∧ (∀ k, s.permitted h op = true → c = some k → s.attachesBusy h k = true → s.enterCmd h op c = s.answer h op 8 [])
        ∧ (∀ k, s.permitted h op = true → c = some k → s.attachesBusy h k = false → op ≠ 1 → h.tenant ≠ 0xFF → own →
            let q := SMap.look [] te.cmds h.queue
            (te.resetting = true → s.enterCmd h op c = s.answer h op 8 [])
            ∧ (te.resetting = false → te.queues ≤ h.queue → s.enterCmd h op c = s.answer h op 1 [])
            ∧ (te.resetting = false → h.queue < te.queues → 64 ≤ q.length → s.enterCmd h op c = s.answer h op 4 [])
            ∧ (te.resetting = false → h.queue < te.queues → q.length < 64 → s.enterCmd h op c
                = (s.onTenant h.tenant (fun y => { y with cmds := SMap.put [] y.cmds h.queue (q ++ [(h, k)]) })).wakeSups)))
    ∧ (now .portFailover (if s.retired (.hostController 0) = true ∨ s.retired (.serviceProcessor 0) = true then s.failover else s))
    ∧ (now (.hostLinkDownTimeout true) s.failover ∧ now (.hostLinkDownTimeout false) s)
    ∧ (∀ n, now (.eventDelayExpiry n) (s.sendDue n))
    ∧ (∀ q ec ed st dbg, 0 < q → q ≤ 8 → 0 < ec → ec ≤ 64 → ed ≤ 1000 →
        (∀ g n, s.grant h.session = some g → (dbg = true → g.2.2 = true) → (List.range 64).find? (fun i => (s.tenant i).isNone) = some n →
          now (.openTenant h 0xFF q ec ed st dbg) (((s.newTenant n g.1 q ec ed st dbg).attach n h.session).finishCmd h 1 0 (openBody n)))
        ∧ (∀ g, s.grant h.session = some g → (dbg = true → g.2.2 = true) → (∀ i, i < 64 → (s.tenant i).isSome = true) →
          now (.openTenant h 0xFF q ec ed st dbg) (s.finishCmd h 1 3 []))
        ∧ (∀ n y, n < 64 → s.mayAddress h.session n = true → s.tenant n = some y →
          (y.resetting = false → now (.openTenant h n q ec ed st false) ((s.attach n h.session).finishCmd h 1 0 (openBody n)))
          ∧ (y.resetting = true → now (.openTenant h n q ec ed st false) (s.finishCmd h 1 8 []))))
    ∧ (own → now (.close h) ((((s.abortCmds h.tenant h 2).stopTenant h.tenant).freeTenant h.tenant).finishCmd h 2 0 []))
    ∧ (∀ n b y, h.tenant = n ∨ h.tenant = 0xFF → s.tenant n = some y →
        (y.resetting = false → now (.reset h n b) (((s.onTenant n (fun y => { y with resetting := true })).abortCmds n h 7).keepCmd h (.reset n b)))
        ∧ (y.resetting = true →
          let u := (((s.stopTenant n).dropSent n).onTenant n (fun y => { y with events := [], dropped := false, resetting := false })).post n
            0x0008#16 0#8 0#32 0 0#64
          now (.reset h n b) ((if b then u.freeTenant n else u).finishCmd h 0x0E 0 [])))
    ∧ (∀ b pl, own → b.bad s.pkgid = false → b.length = 0#64 → now (.mapwin h b pl) ((s.unmapAll h.tenant b.window).finishCmd h 3 0 []))
    ∧ (∀ b pl, own → b.bad s.pkgid = false → b.length ≠ 0#64 → te.rangeOk b = true →
        (s.firstFit h.tenant b 0 = none → now (.mapwin h b pl) (s.finishCmd h 3 3 []))
        ∧ (s.firstFit h.tenant b 0 ≠ none → s.fits h.tenant b pl = true → s.groupIdOk b pl = true →
          ∃ u : State, now (.mapwin h b pl) (u.finishCmd h 3 0 [])
            ∧ ∀ y, u.tenant h.tenant = some y → SMap.look {} y.windows b.window = b.entry s.pkgid pl))
    ∧ (∀ n im, own → im ≠ [] → im.length ≤ 128 → n + im.length ≤ 4096 → (∀ i ∈ im, i.length = 8) → now (.templates h n im)
        ((s.onTenant h.tenant (fun t => { t with templates := (im.zipIdx).foldl (fun m e =>
          SMap.put [] m (n + e.2) (if e.1.all (· == 0#64) then [] else e.1)) t.templates })).finishCmd h 4 0 []))
    ∧ (∀ n l, l ≠ [] → l.length ≤ 32 → n + l.length ≤ 1024 →
        ∃ u : State, u = (List.range 34).foldl (fun t k => t.onStack k (fun y => l.zipIdx.foldl (fun z e => z.writeRoutine (n + e.2) e.1) y)) s
          ∧ ((∀ r ∈ l, r.valid = false ∨ routineOk r = true) → now (.routines h n l) (u.finishCmd h 5 0 (bytesLE 2 0xFFFF)))
          ∧ ∀ k r, l[k]? = some r → r.valid = true → routineOk r = false → (∀ j q, j < k → l[j]? = some q → q.valid = false ∨ routineOk q = true) →
            now (.routines h n l) (u.finishCmd h 5 0 (bytesLE 2 (n + k))))
    ∧ (∀ b, own → b.length = 136 → (launchReq b).bad = false → s.launchDenied h.tenant (launchReq b) = false → (launchReq b).unplaceable = false →
        (launchReq b).flags.testBit 2 = false →
        let r := s.acceptLaunch h.tenant (launchReq b) 0#32 te.hostVec (some (h.queue, h.seq))
        now (.launch h b) (r.2.finishCmd h 6 0 (bytesLE 8 (s.lastLaunch + 1))))
    ∧ (∀ b, own → b.length ≠ 136 ∨ (launchReq b).bad = true → now (.launch h b) (s.finishCmd h 6 1 []))
    ∧ (∀ va v u loc, own → word va u loc → now (.cntsetSet h va v)
        (((u.hostWrite h.tenant loc (bytesLE 8 v.toNat)).settle [.fire loc]).finishCmd h 7 0 (bytesLE 8 (u.natAtLoc loc 8))))
    ∧ (∀ va v u loc, own → word va u loc →
        let old := u.natAtLoc loc 8
        let n := v.toNat % 2 ^ 32
        (old % 2 ^ 32 < n → now (.cntsetDec h va v) (u.finishCmd h 7 1 []))
        ∧ (n = 0 → now (.cntsetDec h va v) (u.finishCmd h 7 0 (bytesLE 8 old)))
        ∧ (n ≤ old % 2 ^ 32 → n ≠ 0 → now (.cntsetDec h va v)
            (((u.hostWrite h.tenant loc (bytesLE 8 (old - n))).settle [.fire loc]).finishCmd h 7 0 (bytesLE 8 old))))
    ∧ (∀ va b u, own → b ≠ [] → b.length ≤ 8192 → s.prep h.tenant .wr (splitPages 4 va.toNat b.length) = .ok u →
        (∀ e ∈ splitPages 4 va.toNat b.length, ∀ y, u.pieceLoc h.tenant e.1 = some y → u.locked y.1 e.2 = false) →
        let l := splitPages 4 va.toNat b.length
        now (.copyin h va b) (((l.foldl (fun v e => match v.pieceLoc h.tenant e.1 with
          | some y => v.hostWrite h.tenant y.1 ((b.drop (e.1 - va.toNat)).take e.2)
          | none => v) u).onTenant h.tenant (fun y => { y with marked := y.marked.filter (fun p =>
            !((l.filter (fun e => e.2 == 4096)).map (·.1)).contains p) })).finishCmd h 8 0 []))
    ∧ (∀ va n u, own → 0 < n → n ≤ 8192 → s.prep h.tenant .rd (splitPages 4 va.toNat n) = .ok u →
        (u.readsPoison h.tenant (splitPages 4 va.toNat n) = true → now (.copyout h va n) (u.finishCmd h 9 6 []))
        ∧ (u.readsPoison h.tenant (splitPages 4 va.toNat n) = false → now (.copyout h va n) (u.finishCmd h 9 0
            ((splitPages 4 va.toNat n).flatMap (fun e => match u.pieceLoc h.tenant e.1 with | some y => u.bytesAt y.1 e.2 | none => [])))))
    ∧ (∀ m n us, own → 0 < n → n ≤ 64 → us ≤ 10000000 → (∀ w ∈ te.waits, w.head ≠ h) →
        let hit := (te.events.filter (fun e => m.toNat.testBit (e.code.toNat % 64))).take n
        (hit ≠ [] ∨ us = 0 → now (.waitev h m n us) ((s.onTenant h.tenant (fun y =>
          { y with events := y.events.filter (fun e => !hit.contains e) })).finishCmd h 0x0A 0 (hit.flatMap (·.bytes))))
        ∧ (hit = [] → us ≠ 0 → now (.waitev h m n us) ((s.leaveQueue h).onTenant h.tenant (fun y => { y with waits := y.waits ++
            [{ head := h, mask := m, max := n, ends := s.cycle.toNat + 4000 * us }] }))))
    ∧ (own → (∃ w ∈ te.waits, w.head = h ∧ w.ends ≤ s.cycle.toNat) → now (.waitevTimeout h) ((s.onTenant h.tenant (fun y =>
        { y with waits := y.waits.filter (fun w => !(w.head == h)) })).answer h 0x0A 0 []))
    ∧ (∀ b, own → s.badGroup h.tenant b = false → (∀ m ∈ b.members, m.1 = s.pkgid → (SMap.look [] s.fab.groupTables (s.physDie m.2)).length < 256) →
        ∃ u : State, now (.groupCreate h b) (u.finishCmd h 0x0B 0 (bytesLE 4 (s.lastGroup + 1))) ∧ u.lastGroup = s.lastGroup + 1
          ∧ (∀ k, k < 20 → (s.lastGroup + 1) % 2 ^ 32 ∈ SMap.look [] u.fab.groupTables k)
          ∧ ∃ g, SMap.look none u.groups (s.lastGroup + 1) = some g ∧ g.tenant = h.tenant ∧ g.members = b.members ∧ g.n = b.n ∧ g.k = b.k
            ∧ g.lag = b.lag ∧ g.rule = b.rule ∧ g.op = b.op ∧ g.count = b.count ∧ g.openRound = 0#32 ∧ g.poisoned = false)
    ∧ (∀ k g, s.group k = some g → g.tenant = h.tenant →
        now (.groupPoison h k) ((s.poisonGroup k true).finishCmd h 0x0B 0 (bytesLE 4 k.toNat)))
    ∧ (∀ b (r : CkptReport), own → 3 ≤ b.members.length → b.members.length ≤ 64 → b.q = 1 ∨ b.q = 2 → (∀ y ∈ b.shards, y.replicas ≠ []) →
        (ckptReported b r = false → now (.ckpt h b r) (s.keepCmd h (.ckpt b)))
        ∧ (ckptReported b r = true → r.acked = true → (∀ m ∈ b.members, s.livePkg m = true) →
            (∀ e ∈ b.shards.zip r.copies, ∃ y, s.shardRec e.1 e.2 = some y ∧ y.1.diverging e.1.replicas = 0) →
            ∃ u : State, now (.ckpt h b r) ((u.post h.tenant 0x0004#16 0#8 0#32 0 (BitVec.ofNat 64 b.step)).finishCmd h 0x0C 0 [])
              ∧ ∃ y ∈ u.rcv.ckpts, y.tenant = h.tenant ∧ y.step = b.step ∧ y.members = b.members ∧ y.q = b.q ∧ y.committed (fun _ => true) = true))
    ∧ (∀ m r, own → m ≠ [] → m.length ≤ 64 →
        let live := fun (p : BitVec 12) => m.contains p && s.livePkg p
        ((∀ y ∈ s.rcv.ckpts, y.tenant = h.tenant → y.committed live = false ∨ y.rebuild live = none) →
          now (.restore h m r) ((s.post h.tenant 0x0006#16 0#8 0#32 0 0#64).finishCmd h 0x0D 6 []))
        ∧ (∀ y d, s.rcv.ckpts = [y] → y.tenant = h.tenant → y.committed live = true → y.rebuild live = some d →
          now (.restore h m r) (((y.handOut live r (d.flatMap (fun l => l.flatMap (·.2)))).foldl State.send
            { s with rcv := { s.rcv with ckpts := [y.restored live r d] } }).finishCmd h 0x0D 0 (bytesLE 8 y.step))))
    ∧ (∀ n : BitVec 256,
        let q := Crypto.bytesBE 32 n.toNat ++ (List.range 16).flatMap (fun i => Crypto.bytesBE 48 (SMap.look 0#384 s.pkg.meas i).toNat)
          ++ bytesLE 8 s.pkg.fuse0.version.toNat ++ s.pkg.fuse0.repair.flatMap unitBytes ++ bytesLE 4 (s.router 0 0xC0).toNat ++ s.mapBytes
          ++ bytesLE 8 s.cycle.toNat
        now (.attest h n) (({ s with pkg := { s.pkg with nonces := s.pkg.nonces + 1 } } : State).finishCmd h 0x0F 0
          (q ++ Crypto.ecdsaSign s.identity.1 (Config.secret s.pkg.nonces) q ++ Crypto.keyBytes s.identity.2 ++ Config.certSig s.pkg.fuse0.seed)))
    ∧ (∀ w, 2500 ≤ w → w ≤ 8000 → now (.powercap h w) (({ s with pkg := { s.pkg with cap := w } } : State).finishCmd h 0x10 0 []))
    ∧ (∀ w, w < 2500 ∨ 8000 < w → now (.powercap h w) (s.finishCmd h 0x10 1 []))
    ∧ (∀ (k : BitVec 44) o b f, own → te.fetches.find? (fun f => f.handle == k.toNat) = some f → b ≠ [] → b.length ≤ 8192 → o + b.length ≤ 2 ^ f.bits →
        let loc := ownLoc (f.frame * 4096 + o)
        let u := s.applyWrite loc b (s.homeSlice loc) .local
        now (.pagedata h k o b false) (u.finishCmd h 0x11 0 [])
        ∧ ∀ w, te.windowAt f.va = some w →
          let v := (((u.mapPage h.tenant f.va.toNat ((({ w with tier := 0, pbase := f.frame, va := f.va } : Window).pte f.va.toNat).toNat) f.bits).tlbPage
            h.tenant f.va.toNat).onTenant h.tenant (fun y => { y with fetches := y.fetches.filter (fun g => !(g.handle == k.toNat)) }))
          now (.pagedata h k o b true) ((v.resumeFetched.settle (v.completions h.tenant)).finishCmd h 0x11 0 []))
    ∧ (∀ (k : BitVec 44) o n e, own → te.evictions.find? (fun e => e.handle == k.toNat) = some e → 0 < n → n ≤ 8192 → o + n ≤ 2 ^ e.bits →
        let loc := ownLoc (e.frame * 4096 + o)
        (s.poisoned loc n = true → ∀ b, now (.pageout h k o n b) (s.finishCmd h 0x12 6 []))
        ∧ (s.poisoned loc n = false → now (.pageout h k o n false) (s.finishCmd h 0x12 0 (s.bytesAt loc n)))
        ∧ (s.poisoned loc n = false → ∃ u : State, now (.pageout h k o n true) (u.finishCmd h 0x12 0 (s.bytesAt loc n))
            ∧ (s.fetching = [] → u = s.onTenant h.tenant (fun y => { y with evictions := y.evictions.filter (fun g => !(g.handle == k.toNat)) }))))

/-- The supervisor, the spouts and the sluice.  The oldest trap record of a context still TRAPPED is served by its cause; a page is evicted,
migrated and walked for; a monitor fires; supervisor cores restart.  An IDLE context takes the best entry, a waiting task pre-empts, the
bank spills; a parked harvest context goes on, a revoked domain restarts, a domain faults, freed entries are taken.  A START is checked and
queued, a copy is accepted, moved and completed, suspended, resumed or ended by a code (R130, R135, R145, R149 to R151, R156 to R160, R167,
R168, R175, R176, R190, R202, R207, R210 to R213, R323, R332, R335, R382 to R389). -/
def Obligations.SupervisorSchedulingAndCopies : Prop :=
  ∀ (s : State) (c : CtxId) (d co ch : Nat) (cp : Copy),
    let now := fun (i : Instr) (t : State) => exec i s = .next t
    let r := s.ctx c
    let head := s.headCopy d co ch = some cp
    let chan := fun (t : State) => SMap.look {} (t.core d co).channels ch
    (∀ q l, s.traps = q :: l → (s.ctx q.ctx).st ≠ .trapped → now .trapResolution { s with traps := l })
    ∧ (∀ q l, s.traps = q :: l → (s.ctx q.ctx).st = .trapped →
        let u : State := { s with traps := l }
        (q.cause = 0x04#8 → s.windowed q.tenant q.tval = true → (u.mapPages q.tenant q.wanted).2 = 0 →
          now .trapResolution ((u.mapPages q.tenant q.wanted).1.resume q.ctx))
        ∧ (q.cause = 0x04#8 → s.windowed q.tenant q.tval = true → (u.mapPages q.tenant q.wanted).2 ≠ 0 →
            let v := (u.mapPages q.tenant q.wanted).1
            now .trapResolution { v with fetching := v.fetching ++ [{ q with pages := q.wanted }] })
        ∧ (q.cause = 0x04#8 → s.windowed q.tenant q.tval = false → now .trapResolution ((u.tellTrap q).kill q.ctx))
        ∧ (q.cause = 0x0D#8 → now .trapResolution (((u.tellTrap q).onCtx q.ctx (fun x =>
            { x with r := { x.r with epc := u.pastChain q.ctx 6 x.r.epc } })).resume q.ctx))
        ∧ (q.cause = 0x12#8 → q.insn = Enc.dend → now .trapResolution ((u.tellTrap q).resume q.ctx))
        ∧ (q.cause ≠ 0x04#8 → q.cause ≠ 0x0D#8 → q.cause ≠ 0x12#8 ∨ q.insn ≠ Enc.dend → now .trapResolution ((u.tellTrap q).kill q.ctx)))
    ∧ (∀ k v, (s.ctx (supCtx d co)).st = .run ∨ (s.ctx (supCtx d co)).st = .wait →
        now (.supervisorTrap d co k v) (s.takeTrap (supCtx d co) k v false false [] 0#32))
    ∧ (∀ p, (s.ctx (supCtx d co)).st = .halted ∨ (s.ctx (supCtx d co)).st = .idle → p &&& 3#64 = 0#64 →
        Ends (.supervisorCoreRestart d co p) s (fun t => (t.ctx (supCtx d co)).st = .run ∧ (t.ctx (supCtx d co)).r.pc = p ∧ SameMemory s t))
    ∧ (∀ tn va t w e p (k : BitVec 44), s.pageAt tn va = some (t, w, e, p) → w.tier = 2 → k.toNat = bits (w.pte p) 55 12 →
        (∀ x ∈ t.evictions, x.handle ≠ k.toNat) → s.locked (ownLoc (bits e 55 12 * 4096)) (2 ^ w.bits) = false →
        let f := ownLoc (bits e 55 12 * 4096)
        let n := 2 ^ w.bits
        now (.pageEviction tn va k) ((((((s.mapPage tn p (w.pte p).toNat w.bits).tlbPage tn p).dropLines f n).purge f n).onTenant tn (fun x =>
          { x with evictions := x.evictions ++ [⟨k.toNat, BitVec.ofNat 64 p, bits e 55 12, w.bits⟩] })).post tn 0x0019#16 0#8 0#32 0
            (xferDetail k.toNat w.bits)))
    ∧ (∀ tn va wn t w e p (f : BitVec 44), s.pageAt tn va = some (t, w, e, p) →
        let v := SMap.look {} t.windows wn
        let src := leafLoc e w.bits p
        let entry := v.moved f.toNat e
        v.valid = true → v.bits = w.bits → w.ship = false → w.stitch = false → v.ship = false → v.stitch = false →
        (v = w ∨ (v.tier ≠ 2 ∧ w.tier ≠ 2)) → s.locked src (2 ^ w.bits) = false →
        s.frameFree t (if v = w then some (w.frame (w.pageOf p)) else none) v f.toNat = true →
        Ends (.pageMigration tn va wn f) s (fun x => SameBytes s x ∧ x.migrations = s.migrations ++
          [⟨tn, BitVec.ofNat 64 p, src, leafLoc entry w.bits p, 2 ^ w.bits, entry⟩]))
    ∧ (∀ n m e, s.migrations[n]? = some m → s.pteOf m.tenant m.va.toNat = some e → s.poisoned m.src m.size = false →
        let u := (({ s with migrations := s.migrations.eraseIdx n } : State).moveNames m).applyWrite m.dst (s.bytesAt m.src m.size)
          (hashSlice (m.dst % 2 ^ 56) 0#64) .local
        now (.migrationSwitch n) (((((u.mapPage m.tenant m.va.toNat m.entry.toNat (Nat.log2 m.size)).tlbPage m.tenant m.va.toNat).purge m.src
          m.size).loseMonitors (fun _ x => overlaps m.src m.size (x.sector * 128) 128)).wakeWhy .migration))
    ∧ (∀ n m e, s.migrations[n]? = some m → s.pteOf m.tenant m.va.toNat = some e → s.poisoned m.src m.size = true → now (.migrationSwitch n) s)
    ∧ (∀ n m a, s.migrations[n]? = some m → overlaps m.src m.size a 1 = true → now (.migrationAbort n a)
        ((({ s with migrations := s.migrations.eraseIdx n } : State).wakeWhy .migration).send (.record "COPY_FAULT" m.va.toNat a)))
    ∧ (∀ va, r.st = .wait → r.wait = .walk va → c.isSup = false →
        now (.pageWalkComplete c va) ((s.fillTlb c (s.walkEntry r.tn va.toNat)).wake c))
    ∧ (r.st = .run → now (.runaheadEnd c) (s.endRunahead c))
    ∧ (r.st ≠ .run → now (.runaheadEnd c) s)
    ∧ (∀ m, r.monitor = some m → m.fired = false → r.wait ≠ .retry .monitor → r.wait ≠ .retry .supervisorItem →
        Ends (.monitorFire c) s (fun t => (t.ctx c).monitor = some { m with fired := true } ∧ SameMemory s t))
    ∧ (∀ m, r.monitor = some m → m.fired = false → r.wait = .retry .monitor ∨ r.wait = .retry .supervisorItem →
        now (.monitorFire c) ((s.onCtx c (fun x => { x with monitor := some { m with fired := true } })).wake c))
    ∧ (∀ m t, r.monitor = some m → m.since = some t → t + 65536 ≤ s.cycle.toNat → exec (.monitorTimeout c) s = exec (.monitorFire c) s)
    ∧ (∀ m t, r.monitor = some m → m.since = some t → s.cycle.toNat < t + 65536 → now (.monitorTimeout c) s)
    ∧ (∀ o, s.take c = some o →
        (∀ v, (s.core c.die c.core).resume.find? (fun v => v.task.task == o.task.task && v.task.launch == o.task.launch) = some v →
          now (.spoutBind c) ((s.unqueue o.task).reload c v))
        ∧ ((s.core c.die c.core).resume.find? (fun v => v.task.task == o.task.task && v.task.launch == o.task.launch) = none →
            now (.spoutBind c) ((s.unqueue o.task).bindTask c { o.task with preempted := false })))
    ∧ (s.take c = none → now (.spoutBind c) s)
    ∧ (∀ k v, s.preemption d = some (k, v) →
        let mark := fun (x : TaskAttr) => if x.task == k.task && x.launch == k.launch then { x with preempted := true } else x
        let u : State := { s with
          cores := s.cores.map (fun e => (e.1, { e.2 with deque := e.2.deque.map mark, overflow := e.2.overflow.map mark,
                                                          resume := e.2.resume.map (fun v => { v with task := mark v.task }) })),
          dies := s.dies.map (fun e => (e.1, { e.2 with ready := e.2.ready.map (fun q => (q.1, q.2.map mark)) })) }
        now (.preemptionTimer d) (u.preempt v (some k)))
    ∧ (s.preemption d = none → now (.preemptionTimer d) s)
    ∧ (∀ t, s.maySpill c = true → r.bound = some t → r.program = none →
        let v : Saved := { r := if r.ended then r.r.advance else r.r, task := { t with since := s.cycle.toNat, preempted := false },
                           seq := (SMap.look {} (s.core c.die c.core).channels c.turn).seq, yielded := r.spill == some none, program := none }
        now (.spillStart c) (((s.onCore c.die c.core (fun k => { k with resume := k.resume ++ [v] })).makeIdle c).onCtx c (fun y =>
          { y with st := .spilled, spill := match r.spill with | some (some t) => some (some t) | _ => none })))
    ∧ (s.maySpill c = false → now (.spillStart c) s)
    ∧ (c.reserve = true → r.st = .parked → s.turnFree c = true → s.domain (r.r.dom.setWidth 32) = none →
        Ends (.harvestUnpark c) s (fun t => (t.ctx c).st = .run ∧ (t.ctx c).r = r.r ∧ SameMemory s t))
    ∧ (∀ m k a, now (.domainFault m k a) (s.domainFault m k a))
    ∧ (∀ m e, s.domain m = some e → s.mayRestart e = true → s.creatorCtx e = some c →
        now (.domainRestart m) ((s.setDomain m (some { e with restart := false })).ready c))
    ∧ (∀ m e, s.domain m = some e → s.mayRestart e = false → now (.domainRestart m) s)
    ∧ (s.poolUsed d < 16384 → let q := (s.wakeWhy (.waiterPool d)).takeEntries d; now (.waiterPoolEntryFree d) (q.1.settle q.2))
    ∧ (16384 ≤ s.poolUsed d → now (.waiterPoolEntryFree d) s)
    ∧ (∀ w : Word, s.cx.st = .run → s.cx.ahead = none →
        let n := ownChannel s.cur
        let q := SMap.look {} s.myCore.channels n
        let img := SMap.look [] (((s.tenant s.cx.tn).map (·.templates)).getD []) (bits w 15 0)
        let k := tmplOf img
        let rep := bits w 31 16 + 1
        let bad := fun (e : BitVec 8) => exec (.start w) s = (s.onChannel s.cur.die s.cur.core n (fun x => { x.cleared with code := e })).trap s.pcWord
          0x11#8 (startAddr n)
        (4 ≤ q.copies.length → now (.start w) (s.waitOn .channel))
        ∧ (q.copies.length < 4 → bits w 63 32 ≠ 0 → bad 1#8)
        ∧ (q.copies.length < 4 → bits w 63 32 = 0 → 4096 ≤ bits w 15 0 → bad 2#8)
        ∧ (q.copies.length < 4 → bits w 63 32 = 0 → bits w 15 0 < 4096 → k.valid = false → bad 3#8)
        ∧ (q.copies.length < 4 → bits w 63 32 = 0 → bits w 15 0 < 4096 → k.valid = true → k.aligned = false → bad 9#8)
        ∧ (q.copies.length < 4 → bits w 63 32 = 0 → bits w 15 0 < 4096 → k.valid = true → k.aligned = true →
            inBasinWin k.src = false → inBasinWin k.dst = false → Ends (.start w) s (fun t =>
              (SMap.look {} t.myCore.channels n).copies.dropLast = q.copies ∧ SameMemory s t ∧ t.cx.r = s.cx.r.advance
              ∧ ∃ y, (SMap.look {} t.myCore.channels n).copies.getLast? = some y ∧ y.words = img ∧ y.rep = rep
                ∧ y.number = q.seq + 1#64 + BitVec.ofNat 64 q.copies.length ∧ y.owner = s.cur ∧ y.running = false)))
    ∧ (head → cp.running = false → cp.suspended = false → now (.copyAccept d co ch) (s.acceptCopy d co ch cp))
    ∧ (head → cp.running = false → cp.suspended = false → (tmplOf cp.words).counter = 0#64 → (tmplOf cp.words).stamp = 0#64 →
        Ends (.copyAccept d co ch) s (fun t => (∃ y, t.headCopy d co ch = some y ∧ y.running = true ∧ y.charged = 0 ∧ y.words = cp.words)
          ∧ (chan t).state = 1 ∧ SameMemory s t))
    ∧ (head → cp.running = true → cp.suspended = false → now (.copyComplete d co ch) (s.runCopy d co ch cp))
    ∧ (∀ n va, head → cp.running = true → cp.suspended = false → s.copyTr cp true .rd va = .absent →
        let k := tmplOf cp.words
        let q := State.moveItems d cp k (s.movedDst cp k (k.items cp.rep)) s cp.done (((k.items cp.rep).drop cp.done).take (n / k.esize - cp.done))
        now (.copySuspend d co ch n va) ((q.1.suspendCopy d co ch q.2.1 (q.2.1 * k.esize)).send (.record "COPY_SUSPEND" q.2.1 va.toNat)))
    ∧ (head → cp.suspended = true →
        let go := fun (u : State) => (u.onHead d co ch (fun x => { x with suspended := false })).onChannel d co ch (fun x => { x with state := 1 })
        (s.suspendVa d cp = none → now (.copyResume d co ch) (go s))
        ∧ (∀ va, s.suspendVa d cp = some va →
            (s.touchPage cp.tenant va = .present → now (.copyResume d co ch) (go s))
            ∧ (∀ u, s.touchPage cp.tenant va = .mapped u → now (.copyResume d co ch) (go u))
            ∧ (∀ k f, s.touchPage cp.tenant va = .t2 k f → now (.copyResume d co ch) (s.fetchPage cp.tenant va k f))
            ∧ (s.touchPage cp.tenant va = .none →
                now (.copyResume d co ch) (s.endCopy d co ch 5#8 (cp.done * (tmplOf cp.words).esize)))))
    ∧ (∀ k n, head → cp.running = true ∨ cp.suspended = true → now (.copyFaultEnd d co ch k n) (s.endCopy d co ch k n))
    ∧ (∀ n, Ends (.scoreboardEntryFree d co n) s (fun t => (∀ e ∈ (t.core d co).sboard, e.id ≠ n)
        ∧ ∀ e ∈ (s.core d co).sboard, e.id ≠ n → e ∈ (t.core d co).sboard))
end

