-- ==== Sys2Proof/Laws/Exec.lean ====
section
/-! SUPPORT. One equation per instruction: the arm of exec, and for an instruction with a word the arm of encode. -/

namespace Sys2Proof.Laws

open Sys2Proof.Machine

set_option Elab.async false

theorem exec_coldReset : ∀ s, exec .coldReset s = execColdReset s := fun _ => rfl

theorem exec_warmPackageReset : ∀ s, exec .warmPackageReset s = execWarmPackageReset s := fun _ => rfl

theorem exec_resetSequenceStepDone : ∀ r s, exec (.resetSequenceStepDone r) s = execResetSequenceStepDone r s := fun _ _ => rfl

theorem exec_securityVersionAdvance : ∀ version s, exec (.securityVersionAdvance version) s = execSecurityVersionAdvance version s := fun _ _ => rfl

theorem exec_thermalSensorSample : ∀ stack unit milliC s, exec (.thermalSensorSample stack unit milliC) s = execThermalSensorSample stack unit milliC s := fun _ _ _ _ => rfl

theorem exec_powerWindowCheck : ∀ watts hottest s, exec (.powerWindowCheck watts hottest) s = execPowerWindowCheck watts hottest s := fun _ _ _ => rfl

theorem exec_avsRateCheck : ∀ die s, exec (.avsRateCheck die) s = execAvsRateCheck die s := fun _ _ => rfl

theorem exec_matrixEngineRamp : ∀ die s, exec (.matrixEngineRamp die) s = execMatrixEngineRamp die s := fun _ _ => rfl

theorem exec_guestTimebaseCorrection : ∀ pdie owning s, exec (.guestTimebaseCorrection pdie owning) s = execGuestTimebaseCorrection pdie owning s := fun _ _ _ => rfl

theorem exec_maintGreeting : ∀ port g s, exec (.maintGreeting port g) s = execMaintGreeting port g s := fun _ _ _ => rfl

theorem exec_portListFlood : ∀ pkg ports s, exec (.portListFlood pkg ports) s = execPortListFlood pkg ports s := fun _ _ _ => rfl

theorem exec_portListFloodTimer : ∀ s, exec .portListFloodTimer s = execPortListFloodTimer s := fun _ => rfl

theorem exec_routePacket : ∀ router p owner s, exec (.routePacket router p owner) s = execRoutePacket router p owner s := fun _ _ _ _ => rfl

theorem exec_unmappedResponse : ∀ p s, exec (.unmappedResponse p) s = execUnmappedResponse p s := fun _ _ => rfl

theorem exec_routeHoldRelease : ∀ line s, exec (.routeHoldRelease line) s = execRouteHoldRelease line s := fun _ _ => rfl

theorem exec_hopPacketReceive : ∀ port p s, exec (.hopPacketReceive port p) s = execHopPacketReceive port p s := fun _ _ _ => rfl

theorem exec_recoveryNakTimeout : ∀ port s, exec (.recoveryNakTimeout port) s = execRecoveryNakTimeout port s := fun _ _ => rfl

theorem exec_hopAckTimer : ∀ port s, exec (.hopAckTimer port) s = execHopAckTimer port s := fun _ _ => rfl

theorem exec_ackReceived : ∀ port hack s, exec (.ackReceived port hack) s = execAckReceived port hack s := fun _ _ _ => rfl

theorem exec_nakReceived : ∀ port hseq s, exec (.nakReceived port hseq) s = execNakReceived port hseq s := fun _ _ _ => rfl

theorem exec_replayTimeout : ∀ port s, exec (.replayTimeout port) s = execReplayTimeout port s := fun _ _ => rfl

theorem exec_e2eNak : ∀ p s, exec (.e2eNak p) s = execE2eNak p s := fun _ _ => rfl

theorem exec_laneLockTimeout : ∀ port lane s, exec (.laneLockTimeout port lane) s = execLaneLockTimeout port lane s := fun _ _ _ => rfl

theorem exec_laneFail : ∀ port mask target s, exec (.laneFail port mask target) s = execLaneFail port mask target s := fun _ _ _ _ => rfl

theorem exec_trainComplete : ∀ port rx s, exec (.trainComplete port rx) s = execTrainComplete port rx s := fun _ _ _ => rfl

theorem exec_trainTimeout : ∀ port rx s, exec (.trainTimeout port rx) s = execTrainTimeout port rx s := fun _ _ _ => rfl

theorem exec_portDownReroute : ∀ port s, exec (.portDownReroute port) s = execPortDownReroute port s := fun _ _ => rfl

theorem exec_portRetrainRetry : ∀ port s, exec (.portRetrainRetry port) s = execPortRetrainRetry port s := fun _ _ => rfl

theorem exec_creditTimeout : ∀ port waitedUs s, exec (.creditTimeout port waitedUs) s = execCreditTimeout port waitedUs s := fun _ _ _ => rfl

theorem exec_quiesceNotice : ∀ pkg limitUs s, exec (.quiesceNotice pkg limitUs) s = execQuiesceNotice pkg limitUs s := fun _ _ _ => rfl

theorem exec_resumeNotice : ∀ pkg s, exec (.resumeNotice pkg) s = execResumeNotice pkg s := fun _ _ => rfl

theorem exec_dieMapChange : ∀ m readbackOk s, exec (.dieMapChange m readbackOk) s = execDieMapChange m readbackOk s := fun _ _ _ => rfl

theorem exec_completionAnnouncementTimer : ∀ die s, exec (.completionAnnouncementTimer die) s = execCompletionAnnouncementTimer die s := fun _ _ => rfl

theorem exec_completionAnnouncement : ∀ die p s, exec (.completionAnnouncement die p) s = execCompletionAnnouncement die p s := fun _ _ _ => rfl

theorem exec_causalWritePerform : ∀ id s, exec (.causalWritePerform id) s = execCausalWritePerform id s := fun _ _ => rfl

theorem exec_crossDieReadPerform : ∀ c s, exec (.crossDieReadPerform c) s = execCrossDieReadPerform c s := fun _ _ => rfl

theorem exec_rdcStampAgeDrop : ∀ die line s, exec (.rdcStampAgeDrop die line) s = execRdcStampAgeDrop die line s := fun _ _ _ => rfl

theorem exec_homeAtomic : ∀ cv p s, exec (.homeAtomic cv p) s = execHomeAtomic cv p s := fun _ _ _ => rfl

theorem exec_homeCntdec : ∀ cv p s, exec (.homeCntdec cv p) s = execHomeCntdec cv p s := fun _ _ _ => rfl

theorem exec_homeWrite : ∀ cv p s, exec (.homeWrite cv p) s = execHomeWrite cv p s := fun _ _ _ => rfl

theorem exec_storeAck : ∀ id s, exec (.storeAck id) s = execStoreAck id s := fun _ _ => rfl

theorem exec_loadDataReturn : ∀ c s, exec (.loadDataReturn c) s = execLoadDataReturn c s := fun _ _ => rfl

theorem exec_longOpComplete : ∀ c answer s, exec (.longOpComplete c answer) s = execLongOpComplete c answer s := fun _ _ _ => rfl

theorem exec_baseDieRead : ∀ stack p ecc s, exec (.baseDieRead stack p ecc) s = execBaseDieRead stack p ecc s := fun _ _ _ _ => rfl

theorem exec_refreshWindowStart : ∀ stack s, exec (.refreshWindowStart stack) s = execRefreshWindowStart stack s := fun _ _ => rfl

theorem exec_baseDieWrite : ∀ stack p s, exec (.baseDieWrite stack p) s = execBaseDieWrite stack p s := fun _ _ _ => rfl

theorem exec_victimWrite : ∀ stack p s, exec (.victimWrite stack p) s = execVictimWrite stack p s := fun _ _ _ => rfl

theorem exec_overflowFlush : ∀ stack line s, exec (.overflowFlush stack line) s = execOverflowFlush stack line s := fun _ _ _ => rfl

theorem exec_overflowDiscard : ∀ stack line s, exec (.overflowDiscard stack line) s = execOverflowDiscard stack line s := fun _ _ _ => rfl

theorem exec_writeMasked : ∀ stack p s, exec (.writeMasked stack p) s = execWriteMasked stack p s := fun _ _ _ => rfl

theorem exec_maskedMergeComplete : ∀ stack granule ecc s, exec (.maskedMergeComplete stack granule ecc) s = execMaskedMergeComplete stack granule ecc s := fun _ _ _ _ => rfl

theorem exec_shipRoutine : ∀ stack p s, exec (.shipRoutine stack p) s = execShipRoutine stack p s := fun _ _ _ => rfl

theorem exec_stitchWrite : ∀ stack p rebuilt s, exec (.stitchWrite stack p rebuilt) s = execStitchWrite stack p rebuilt s := fun _ _ _ _ => rfl

theorem exec_requesterReply : ∀ p s, exec (.requesterReply p) s = execRequesterReply p s := fun _ _ => rfl

theorem exec_baseDiePortLoss : ∀ stack portB s, exec (.baseDiePortLoss stack portB) s = execBaseDiePortLoss stack portB s := fun _ _ _ => rfl

theorem exec_patrolScrub : ∀ stack granule ecc s, exec (.patrolScrub stack granule ecc) s = execPatrolScrub stack granule ecc s := fun _ _ _ _ => rfl

theorem exec_occtlWrite : ∀ stack en s, exec (.occtlWrite stack en) s = execOcctlWrite stack en s := fun _ _ _ => rfl

theorem exec_overflowDrainDone : ∀ stack s, exec (.overflowDrainDone stack) s = execOverflowDrainDone stack s := fun _ _ => rfl

theorem exec_routineTableWrite : ∀ stack index r s, exec (.routineTableWrite stack index r) s = execRoutineTableWrite stack index r s := fun _ _ _ _ => rfl

theorem exec_registerWrite : ∀ r s, exec (.registerWrite r) s = execRegisterWrite r s := fun _ _ => rfl

theorem exec_faultEvent : ∀ u kind loc s, exec (.faultEvent u kind loc) s = execFaultEvent u kind loc s := fun _ _ _ _ => rfl

theorem exec_probeTimeout : ∀ u s, exec (.probeTimeout u) s = execProbeTimeout u s := fun _ _ => rfl

theorem exec_timingDetectorReplay : ∀ c again s, exec (.timingDetectorReplay c again) s = execTimingDetectorReplay c again s := fun _ _ _ => rfl

theorem exec_retirementProposal : ∀ u silent proposer answers s, exec (.retirementProposal u silent proposer answers) s = execRetirementProposal u silent proposer answers s := fun _ _ _ _ _ => rfl

theorem exec_voteAnswerTimeout : ∀ u s, exec (.voteAnswerTimeout u) s = execVoteAnswerTimeout u s := fun _ _ => rfl

theorem exec_peerVote : ∀ b s, exec (.peerVote b) s = execPeerVote b s := fun _ _ => rfl

theorem exec_peerVoteTimeout : ∀ u first s, exec (.peerVoteTimeout u first) s = execPeerVoteTimeout u first s := fun _ _ _ => rfl

theorem exec_gracefulCoreRetirement : ∀ die core spare s, exec (.gracefulCoreRetirement die core spare) s = execGracefulCoreRetirement die core spare s := fun _ _ _ _ => rfl

theorem exec_abruptCoreRetirement : ∀ die core spare s, exec (.abruptCoreRetirement die core spare) s = execAbruptCoreRetirement die core spare s := fun _ _ _ _ => rfl

theorem exec_stackRetirement : ∀ stack spare answers s, exec (.stackRetirement stack spare answers) s = execStackRetirement stack spare answers s := fun _ _ _ _ => rfl

theorem exec_stackRebuildSector : ∀ sector bytes s, exec (.stackRebuildSector sector bytes) s = execStackRebuildSector sector bytes s := fun _ _ _ => rfl

theorem exec_stackRebuildDone : ∀ stack s, exec (.stackRebuildDone stack) s = execStackRebuildDone stack s := fun _ _ => rfl

theorem exec_dieSubstitutionLocal : ∀ die spare answers selfTestOk s, exec (.dieSubstitutionLocal die spare answers selfTestOk) s = execDieSubstitutionLocal die spare answers selfTestOk s := fun _ _ _ _ _ => rfl

theorem exec_dieSubstitutionRemote : ∀ die pkg pdie selfTestOk s, exec (.dieSubstitutionRemote die pkg pdie selfTestOk) s = execDieSubstitutionRemote die pkg pdie selfTestOk s := fun _ _ _ _ _ => rfl

theorem exec_heartbeatTimer : ∀ s, exec .heartbeatTimer s = execHeartbeatTimer s := fun _ => rfl

theorem exec_heartbeatMiss : ∀ pkg missed s, exec (.heartbeatMiss pkg missed) s = execHeartbeatMiss pkg missed s := fun _ _ _ => rfl

theorem exec_packageLoss : ∀ pkg spare trayLost s, exec (.packageLoss pkg spare trayLost) s = execPackageLoss pkg spare trayLost s := fun _ _ _ _ => rfl

theorem exec_stitchDeltaReceive : ∀ group p s, exec (.stitchDeltaReceive group p) s = execStitchDeltaReceive group p s := fun _ _ _ => rfl

theorem exec_stitchResendTimeout : ∀ die core slot s, exec (.stitchResendTimeout die core slot) s = execStitchResendTimeout die core slot s := fun _ _ _ _ => rfl

theorem exec_stitchUnitDelta : ∀ die core line mask delta group dom s, exec (.stitchUnitDelta die core line mask delta group dom) s = execStitchUnitDelta die core line mask delta group dom s := fun _ _ _ _ _ _ _ _ => rfl

theorem exec_stitchAckReceive : ∀ die core slot holder s, exec (.stitchAckReceive die core slot holder) s = execStitchAckReceive die core slot holder s := fun _ _ _ _ _ => rfl

theorem exec_scpHello : ∀ d s, exec (.scpHello d) s = execScpHello d s := fun _ _ => rfl

theorem exec_scpAuth : ∀ d s, exec (.scpAuth d) s = execScpAuth d s := fun _ _ => rfl

theorem exec_scpAck : ∀ d s, exec (.scpAck d) s = execScpAck d s := fun _ _ => rfl

theorem exec_scpBye : ∀ session s, exec (.scpBye session) s = execScpBye session s := fun _ _ => rfl

theorem exec_scpCommandReceive : ∀ d s, exec (.scpCommandReceive d) s = execScpCommandReceive d s := fun _ _ => rfl

theorem exec_scpDiscard : ∀ d s, exec (.scpDiscard d) s = execScpDiscard d s := fun _ _ => rfl

theorem exec_scpAckTimer : ∀ session s, exec (.scpAckTimer session) s = execScpAckTimer session s := fun _ _ => rfl

theorem exec_scpResendTimer : ∀ session seq s, exec (.scpResendTimer session seq) s = execScpResendTimer session seq s := fun _ _ _ => rfl

theorem exec_scpIdleTimeout : ∀ session s, exec (.scpIdleTimeout session) s = execScpIdleTimeout session s := fun _ _ => rfl

theorem exec_portFailover : ∀ s, exec .portFailover s = execPortFailover s := fun _ => rfl

theorem exec_hostLinkDownTimeout : ∀ probeOk s, exec (.hostLinkDownTimeout probeOk) s = execHostLinkDownTimeout probeOk s := fun _ _ => rfl

theorem exec_openTenant : ∀ h tenant queues evcount evdelay store debug s, exec (.openTenant h tenant queues evcount evdelay store debug) s = execOpenTenant h tenant queues evcount evdelay store debug s := fun _ _ _ _ _ _ _ _ => rfl

theorem exec_close : ∀ h s, exec (.close h) s = execClose h s := fun _ _ => rfl

theorem exec_mapwin : ∀ h b pl s, exec (.mapwin h b pl) s = execMapwin h b pl s := fun _ _ _ _ => rfl

theorem exec_templates : ∀ h first images s, exec (.templates h first images) s = execTemplates h first images s := fun _ _ _ _ => rfl

theorem exec_routines : ∀ h first entries s, exec (.routines h first entries) s = execRoutines h first entries s := fun _ _ _ _ => rfl

theorem exec_launch : ∀ h body s, exec (.launch h body) s = execLaunch h body s := fun _ _ _ => rfl

theorem exec_cntsetSet : ∀ h va value s, exec (.cntsetSet h va value) s = execCntsetSet h va value s := fun _ _ _ _ => rfl

theorem exec_cntsetDec : ∀ h va value s, exec (.cntsetDec h va value) s = execCntsetDec h va value s := fun _ _ _ _ => rfl

theorem exec_copyin : ∀ h va bytes s, exec (.copyin h va bytes) s = execCopyin h va bytes s := fun _ _ _ _ => rfl

theorem exec_copyout : ∀ h va length s, exec (.copyout h va length) s = execCopyout h va length s := fun _ _ _ _ => rfl

theorem exec_waitev : ∀ h mask max timeout s, exec (.waitev h mask max timeout) s = execWaitev h mask max timeout s := fun _ _ _ _ _ => rfl

theorem exec_waitevTimeout : ∀ h s, exec (.waitevTimeout h) s = execWaitevTimeout h s := fun _ _ => rfl

theorem exec_groupCreate : ∀ h b s, exec (.groupCreate h b) s = execGroupCreate h b s := fun _ _ _ => rfl

theorem exec_groupPoison : ∀ h handle s, exec (.groupPoison h handle) s = execGroupPoison h handle s := fun _ _ _ => rfl

theorem exec_ckpt : ∀ h b r s, exec (.ckpt h b r) s = execCkpt h b r s := fun _ _ _ _ => rfl

theorem exec_restore : ∀ h members replacements s, exec (.restore h members replacements) s = execRestore h members replacements s := fun _ _ _ _ => rfl

theorem exec_reset : ∀ h tenant closing s, exec (.reset h tenant closing) s = execReset h tenant closing s := fun _ _ _ _ => rfl

theorem exec_attest : ∀ h nonce s, exec (.attest h nonce) s = execAttest h nonce s := fun _ _ _ => rfl

theorem exec_powercap : ∀ h watts s, exec (.powercap h watts) s = execPowercap h watts s := fun _ _ _ => rfl

theorem exec_pagedata : ∀ h handle offset bytes last s, exec (.pagedata h handle offset bytes last) s = execPagedata h handle offset bytes last s := fun _ _ _ _ _ _ => rfl

theorem exec_pageout : ∀ h handle offset length last s, exec (.pageout h handle offset length last) s = execPageout h handle offset length last s := fun _ _ _ _ _ _ => rfl

theorem exec_eventDelayExpiry : ∀ tenant s, exec (.eventDelayExpiry tenant) s = execEventDelayExpiry tenant s := fun _ _ => rfl

theorem exec_waiterPoolEntryFree : ∀ die s, exec (.waiterPoolEntryFree die) s = execWaiterPoolEntryFree die s := fun _ _ => rfl

theorem exec_trapResolution : ∀ s, exec .trapResolution s = execTrapResolution s := fun _ => rfl

theorem exec_supervisorTrap : ∀ die core cause tval s, exec (.supervisorTrap die core cause tval) s = execSupervisorTrap die core cause tval s := fun _ _ _ _ _ => rfl

theorem exec_pageEviction : ∀ tenant va handle s, exec (.pageEviction tenant va handle) s = execPageEviction tenant va handle s := fun _ _ _ _ => rfl

theorem exec_pageMigration : ∀ tenant va window dst s, exec (.pageMigration tenant va window dst) s = execPageMigration tenant va window dst s := fun _ _ _ _ _ => rfl

theorem exec_migrationSwitch : ∀ index s, exec (.migrationSwitch index) s = execMigrationSwitch index s := fun _ _ => rfl

theorem exec_migrationAbort : ∀ index addr s, exec (.migrationAbort index addr) s = execMigrationAbort index addr s := fun _ _ _ => rfl

theorem exec_spoutBind : ∀ c s, exec (.spoutBind c) s = execSpoutBind c s := fun _ _ => rfl

theorem exec_preemptionTimer : ∀ die s, exec (.preemptionTimer die) s = execPreemptionTimer die s := fun _ _ => rfl

theorem exec_spillStart : ∀ c s, exec (.spillStart c) s = execSpillStart c s := fun _ _ => rfl

theorem exec_harvestUnpark : ∀ c s, exec (.harvestUnpark c) s = execHarvestUnpark c s := fun _ _ => rfl

theorem exec_domainFault : ∀ dom cause addr s, exec (.domainFault dom cause addr) s = execDomainFault dom cause addr s := fun _ _ _ _ => rfl

theorem exec_domainRestart : ∀ dom s, exec (.domainRestart dom) s = execDomainRestart dom s := fun _ _ => rfl

theorem exec_pageWalkComplete : ∀ c va s, exec (.pageWalkComplete c va) s = execPageWalkComplete c va s := fun _ _ _ => rfl

theorem exec_runaheadEnd : ∀ c s, exec (.runaheadEnd c) s = execRunaheadEnd c s := fun _ _ => rfl

theorem exec_monitorFire : ∀ c s, exec (.monitorFire c) s = execMonitorFire c s := fun _ _ => rfl

theorem exec_monitorTimeout : ∀ c s, exec (.monitorTimeout c) s = execMonitorTimeout c s := fun _ _ => rfl

theorem exec_holdViolationRemote : ∀ c va s, exec (.holdViolationRemote c va) s = execHoldViolationRemote c va s := fun _ _ _ => rfl

theorem exec_start : ∀ data s, exec (.start data) s = execStart data s := fun _ _ => rfl

theorem exec_copyAccept : ∀ die core chan s, exec (.copyAccept die core chan) s = execCopyAccept die core chan s := fun _ _ _ _ => rfl

theorem exec_copyComplete : ∀ die core chan s, exec (.copyComplete die core chan) s = execCopyComplete die core chan s := fun _ _ _ _ => rfl

theorem exec_copySuspend : ∀ die core chan offset va s, exec (.copySuspend die core chan offset va) s = execCopySuspend die core chan offset va s := fun _ _ _ _ _ _ => rfl

theorem exec_copyResume : ∀ die core chan s, exec (.copyResume die core chan) s = execCopyResume die core chan s := fun _ _ _ _ => rfl

theorem exec_copyFaultEnd : ∀ die core chan code offset s, exec (.copyFaultEnd die core chan code offset) s = execCopyFaultEnd die core chan code offset s := fun _ _ _ _ _ _ => rfl

theorem exec_scoreboardEntryFree : ∀ die core entry s, exec (.scoreboardEntryFree die core entry) s = execScoreboardEntryFree die core entry s := fun _ _ _ _ => rfl

theorem exec_matrixOpStart : ∀ die core s, exec (.matrixOpStart die core) s = execMatrixOpStart die core s := fun _ _ _ => rfl

theorem exec_matrixBlockEnd : ∀ die core residue parity s, exec (.matrixBlockEnd die core residue parity) s = execMatrixBlockEnd die core residue parity s := fun _ _ _ _ _ => rfl

theorem exec_matrixCommit : ∀ die core s, exec (.matrixCommit die core) s = execMatrixCommit die core s := fun _ _ _ => rfl

theorem exec_weirPartialForward : ∀ die handle s, exec (.weirPartialForward die handle) s = execWeirPartialForward die handle s := fun _ _ _ => rfl

theorem exec_weirPartialArrival : ∀ handle remote s, exec (.weirPartialArrival handle remote) s = execWeirPartialArrival handle remote s := fun _ _ _ => rfl

theorem exec_weirVerdict : ∀ c remote s, exec (.weirVerdict c remote) s = execWeirVerdict c remote s := fun _ _ _ => rfl

theorem exec_weirRecordReceive : ∀ die handle tag remote s, exec (.weirRecordReceive die handle tag remote) s = execWeirRecordReceive die handle tag remote s := fun _ _ _ _ _ => rfl

theorem exec_send : ∀ die slot s, exec (.send die slot) s = execSend die slot s := fun _ _ _ => rfl

theorem exec_recv : ∀ die slot s, exec (.recv die slot) s = execRecv die slot s := fun _ _ _ => rfl

theorem exec_rrs : ∀ die slot s, exec (.rrs die slot) s = execRrs die slot s := fun _ _ _ => rfl

theorem exec_stepCopy : ∀ die slot s, exec (.stepCopy die slot) s = execStepCopy die slot s := fun _ _ _ => rfl

theorem exec_stepWait : ∀ die slot s, exec (.stepWait die slot) s = execStepWait die slot s := fun _ _ _ => rfl

theorem exec_stepLoop : ∀ die slot s, exec (.stepLoop die slot) s = execStepLoop die slot s := fun _ _ _ => rfl

theorem exec_stepEndloop : ∀ die slot s, exec (.stepEndloop die slot) s = execStepEndloop die slot s := fun _ _ _ => rfl

theorem exec_qround : ∀ die slot s, exec (.qround die slot) s = execQround die slot s := fun _ _ _ => rfl

theorem exec_stepEnd : ∀ die slot s, exec (.stepEnd die slot) s = execStepEnd die slot s := fun _ _ _ => rfl

theorem exec_stepProgramFault : ∀ die slot code s, exec (.stepProgramFault die slot code) s = execStepProgramFault die slot code s := fun _ _ _ _ => rfl

theorem exec_loopEndCheck : ∀ s, exec .loopEndCheck s = execLoopEndCheck s := fun _ => rfl

theorem exec_fullEmptyChange : ∀ die core word full s, exec (.fullEmptyChange die core word full) s = execFullEmptyChange die core word full s := fun _ _ _ _ _ => rfl

theorem exec_unassignedEncoding : ∀ word s, exec (.unassignedEncoding word) s = execUnassignedEncoding word s := fun _ _ => rfl

theorem exec_reservedHintKind : ∀ word s, exec (.reservedHintKind word) s = execReservedHintKind word s := fun _ _ => rfl

theorem exec_instructionFetch : ∀ s, exec .instructionFetch s = execInstructionFetch s := fun _ => rfl

theorem exec_creditReturn : ∀ port vc credits s, exec (.creditReturn port vc credits) s = execCreditReturn port vc credits s := fun _ _ _ _ => rfl

theorem exec_stepMessageWritten : ∀ die handle src dst bytes remote s, exec (.stepMessageWritten die handle src dst bytes remote) s = execStepMessageWritten die handle src dst bytes remote s := fun _ _ _ _ _ _ _ => rfl

theorem exec_supervisorCoreRestart : ∀ die core pc s, exec (.supervisorCoreRestart die core pc) s = execSupervisorCoreRestart die core pc s := fun _ _ _ _ => rfl

theorem exec_directedRefreshDone : ∀ stack bank s, exec (.directedRefreshDone stack bank) s = execDirectedRefreshDone stack bank s := fun _ _ _ => rfl

theorem exec_add : ∀ d a b s, exec (.add d a b) s = execAdd d a b s := fun _ _ _ _ => rfl

theorem encode_add : ∀ d a b, encode (.add d a b) = Enc.add d a b := fun _ _ _ => rfl

theorem exec_sub : ∀ d a b s, exec (.sub d a b) s = execSub d a b s := fun _ _ _ _ => rfl

theorem encode_sub : ∀ d a b, encode (.sub d a b) = Enc.sub d a b := fun _ _ _ => rfl

theorem exec_and : ∀ d a b s, exec (.and d a b) s = execAnd d a b s := fun _ _ _ _ => rfl

theorem encode_and : ∀ d a b, encode (.and d a b) = Enc.and d a b := fun _ _ _ => rfl

theorem exec_or : ∀ d a b s, exec (.or d a b) s = execOr d a b s := fun _ _ _ _ => rfl

theorem encode_or : ∀ d a b, encode (.or d a b) = Enc.or d a b := fun _ _ _ => rfl

theorem exec_xor : ∀ d a b s, exec (.xor d a b) s = execXor d a b s := fun _ _ _ _ => rfl

theorem encode_xor : ∀ d a b, encode (.xor d a b) = Enc.xor d a b := fun _ _ _ => rfl

theorem exec_andn : ∀ d a b s, exec (.andn d a b) s = execAndn d a b s := fun _ _ _ _ => rfl

theorem encode_andn : ∀ d a b, encode (.andn d a b) = Enc.andn d a b := fun _ _ _ => rfl

theorem exec_sll : ∀ d a b s, exec (.sll d a b) s = execSll d a b s := fun _ _ _ _ => rfl

theorem encode_sll : ∀ d a b, encode (.sll d a b) = Enc.sll d a b := fun _ _ _ => rfl

theorem exec_srl : ∀ d a b s, exec (.srl d a b) s = execSrl d a b s := fun _ _ _ _ => rfl

theorem encode_srl : ∀ d a b, encode (.srl d a b) = Enc.srl d a b := fun _ _ _ => rfl

theorem exec_sra : ∀ d a b s, exec (.sra d a b) s = execSra d a b s := fun _ _ _ _ => rfl

theorem encode_sra : ∀ d a b, encode (.sra d a b) = Enc.sra d a b := fun _ _ _ => rfl

theorem exec_rol : ∀ d a b s, exec (.rol d a b) s = execRol d a b s := fun _ _ _ _ => rfl

theorem encode_rol : ∀ d a b, encode (.rol d a b) = Enc.rol d a b := fun _ _ _ => rfl

theorem exec_ror : ∀ d a b s, exec (.ror d a b) s = execRor d a b s := fun _ _ _ _ => rfl

theorem encode_ror : ∀ d a b, encode (.ror d a b) = Enc.ror d a b := fun _ _ _ => rfl

theorem exec_slt : ∀ d a b s, exec (.slt d a b) s = execSlt d a b s := fun _ _ _ _ => rfl

theorem encode_slt : ∀ d a b, encode (.slt d a b) = Enc.slt d a b := fun _ _ _ => rfl

theorem exec_sltu : ∀ d a b s, exec (.sltu d a b) s = execSltu d a b s := fun _ _ _ _ => rfl

theorem encode_sltu : ∀ d a b, encode (.sltu d a b) = Enc.sltu d a b := fun _ _ _ => rfl

theorem exec_min : ∀ d a b s, exec (.min d a b) s = execMin d a b s := fun _ _ _ _ => rfl

theorem encode_min : ∀ d a b, encode (.min d a b) = Enc.min d a b := fun _ _ _ => rfl

theorem exec_max : ∀ d a b s, exec (.max d a b) s = execMax d a b s := fun _ _ _ _ => rfl

theorem encode_max : ∀ d a b, encode (.max d a b) = Enc.max d a b := fun _ _ _ => rfl

theorem exec_minu : ∀ d a b s, exec (.minu d a b) s = execMinu d a b s := fun _ _ _ _ => rfl

theorem encode_minu : ∀ d a b, encode (.minu d a b) = Enc.minu d a b := fun _ _ _ => rfl

theorem exec_maxu : ∀ d a b s, exec (.maxu d a b) s = execMaxu d a b s := fun _ _ _ _ => rfl

theorem encode_maxu : ∀ d a b, encode (.maxu d a b) = Enc.maxu d a b := fun _ _ _ => rfl

theorem exec_clz : ∀ d a s, exec (.clz d a) s = execClz d a s := fun _ _ _ => rfl

theorem encode_clz : ∀ d a, encode (.clz d a) = Enc.clz d a := fun _ _ => rfl

theorem exec_ctz : ∀ d a s, exec (.ctz d a) s = execCtz d a s := fun _ _ _ => rfl

theorem encode_ctz : ∀ d a, encode (.ctz d a) = Enc.ctz d a := fun _ _ => rfl

theorem exec_popc : ∀ d a s, exec (.popc d a) s = execPopc d a s := fun _ _ _ => rfl

theorem encode_popc : ∀ d a, encode (.popc d a) = Enc.popc d a := fun _ _ => rfl

theorem exec_sextb : ∀ d a s, exec (.sextb d a) s = execSextb d a s := fun _ _ _ => rfl

theorem encode_sextb : ∀ d a, encode (.sextb d a) = Enc.sextb d a := fun _ _ => rfl

theorem exec_sexth : ∀ d a s, exec (.sexth d a) s = execSexth d a s := fun _ _ _ => rfl

theorem encode_sexth : ∀ d a, encode (.sexth d a) = Enc.sexth d a := fun _ _ => rfl

theorem exec_sextw : ∀ d a s, exec (.sextw d a) s = execSextw d a s := fun _ _ _ => rfl

theorem encode_sextw : ∀ d a, encode (.sextw d a) = Enc.sextw d a := fun _ _ => rfl

theorem exec_zextw : ∀ d a s, exec (.zextw d a) s = execZextw d a s := fun _ _ _ => rfl

theorem encode_zextw : ∀ d a, encode (.zextw d a) = Enc.zextw d a := fun _ _ => rfl

theorem exec_addw : ∀ d a b s, exec (.addw d a b) s = execAddw d a b s := fun _ _ _ _ => rfl

theorem encode_addw : ∀ d a b, encode (.addw d a b) = Enc.addw d a b := fun _ _ _ => rfl

theorem exec_subw : ∀ d a b s, exec (.subw d a b) s = execSubw d a b s := fun _ _ _ _ => rfl

theorem encode_subw : ∀ d a b, encode (.subw d a b) = Enc.subw d a b := fun _ _ _ => rfl

theorem exec_sllw : ∀ d a b s, exec (.sllw d a b) s = execSllw d a b s := fun _ _ _ _ => rfl

theorem encode_sllw : ∀ d a b, encode (.sllw d a b) = Enc.sllw d a b := fun _ _ _ => rfl

theorem exec_srlw : ∀ d a b s, exec (.srlw d a b) s = execSrlw d a b s := fun _ _ _ _ => rfl

theorem encode_srlw : ∀ d a b, encode (.srlw d a b) = Enc.srlw d a b := fun _ _ _ => rfl

theorem exec_sraw : ∀ d a b s, exec (.sraw d a b) s = execSraw d a b s := fun _ _ _ _ => rfl

theorem encode_sraw : ∀ d a b, encode (.sraw d a b) = Enc.sraw d a b := fun _ _ _ => rfl

theorem exec_mulw : ∀ d a b s, exec (.mulw d a b) s = execMulw d a b s := fun _ _ _ _ => rfl

theorem encode_mulw : ∀ d a b, encode (.mulw d a b) = Enc.mulw d a b := fun _ _ _ => rfl

theorem exec_mul : ∀ d a b s, exec (.mul d a b) s = execMul d a b s := fun _ _ _ _ => rfl

theorem encode_mul : ∀ d a b, encode (.mul d a b) = Enc.mul d a b := fun _ _ _ => rfl

theorem exec_mulh : ∀ d a b s, exec (.mulh d a b) s = execMulh d a b s := fun _ _ _ _ => rfl

theorem encode_mulh : ∀ d a b, encode (.mulh d a b) = Enc.mulh d a b := fun _ _ _ => rfl

theorem exec_mulhu : ∀ d a b s, exec (.mulhu d a b) s = execMulhu d a b s := fun _ _ _ _ => rfl

theorem encode_mulhu : ∀ d a b, encode (.mulhu d a b) = Enc.mulhu d a b := fun _ _ _ => rfl

theorem exec_mulhsu : ∀ d a b s, exec (.mulhsu d a b) s = execMulhsu d a b s := fun _ _ _ _ => rfl

theorem encode_mulhsu : ∀ d a b, encode (.mulhsu d a b) = Enc.mulhsu d a b := fun _ _ _ => rfl

theorem exec_div : ∀ d a b s, exec (.div d a b) s = execDiv d a b s := fun _ _ _ _ => rfl

theorem encode_div : ∀ d a b, encode (.div d a b) = Enc.div d a b := fun _ _ _ => rfl

theorem exec_divu : ∀ d a b s, exec (.divu d a b) s = execDivu d a b s := fun _ _ _ _ => rfl

theorem encode_divu : ∀ d a b, encode (.divu d a b) = Enc.divu d a b := fun _ _ _ => rfl

theorem exec_rem : ∀ d a b s, exec (.rem d a b) s = execRem d a b s := fun _ _ _ _ => rfl

theorem encode_rem : ∀ d a b, encode (.rem d a b) = Enc.rem d a b := fun _ _ _ => rfl

theorem exec_remu : ∀ d a b s, exec (.remu d a b) s = execRemu d a b s := fun _ _ _ _ => rfl

theorem encode_remu : ∀ d a b, encode (.remu d a b) = Enc.remu d a b := fun _ _ _ => rfl

theorem exec_divw : ∀ d a b s, exec (.divw d a b) s = execDivw d a b s := fun _ _ _ _ => rfl

theorem encode_divw : ∀ d a b, encode (.divw d a b) = Enc.divw d a b := fun _ _ _ => rfl

theorem exec_divuw : ∀ d a b s, exec (.divuw d a b) s = execDivuw d a b s := fun _ _ _ _ => rfl

theorem encode_divuw : ∀ d a b, encode (.divuw d a b) = Enc.divuw d a b := fun _ _ _ => rfl

theorem exec_remw : ∀ d a b s, exec (.remw d a b) s = execRemw d a b s := fun _ _ _ _ => rfl

theorem encode_remw : ∀ d a b, encode (.remw d a b) = Enc.remw d a b := fun _ _ _ => rfl

theorem exec_remuw : ∀ d a b s, exec (.remuw d a b) s = execRemuw d a b s := fun _ _ _ _ => rfl

theorem encode_remuw : ∀ d a b, encode (.remuw d a b) = Enc.remuw d a b := fun _ _ _ => rfl

theorem exec_addi : ∀ d a ix s, exec (.addi d a ix) s = execAddi d a ix s := fun _ _ _ _ => rfl

theorem encode_addi : ∀ d a i, encode (.addi d a i) = Enc.addi d a i := fun _ _ _ => rfl

theorem exec_andi : ∀ d a ix s, exec (.andi d a ix) s = execAndi d a ix s := fun _ _ _ _ => rfl

theorem encode_andi : ∀ d a i, encode (.andi d a i) = Enc.andi d a i := fun _ _ _ => rfl

theorem exec_ori : ∀ d a ix s, exec (.ori d a ix) s = execOri d a ix s := fun _ _ _ _ => rfl

theorem encode_ori : ∀ d a i, encode (.ori d a i) = Enc.ori d a i := fun _ _ _ => rfl

theorem exec_xori : ∀ d a ix s, exec (.xori d a ix) s = execXori d a ix s := fun _ _ _ _ => rfl

theorem encode_xori : ∀ d a i, encode (.xori d a i) = Enc.xori d a i := fun _ _ _ => rfl

theorem exec_slti : ∀ d a ix s, exec (.slti d a ix) s = execSlti d a ix s := fun _ _ _ _ => rfl

theorem encode_slti : ∀ d a i, encode (.slti d a i) = Enc.slti d a i := fun _ _ _ => rfl

theorem exec_sltiu : ∀ d a ix s, exec (.sltiu d a ix) s = execSltiu d a ix s := fun _ _ _ _ => rfl

theorem encode_sltiu : ∀ d a i, encode (.sltiu d a i) = Enc.sltiu d a i := fun _ _ _ => rfl

theorem exec_slli : ∀ d a sx s, exec (.slli d a sx) s = execSlli d a sx s := fun _ _ _ _ => rfl

theorem encode_slli : ∀ d a s, encode (.slli d a s) = Enc.slli d a s := fun _ _ _ => rfl

theorem exec_srli : ∀ d a sx s, exec (.srli d a sx) s = execSrli d a sx s := fun _ _ _ _ => rfl

theorem encode_srli : ∀ d a s, encode (.srli d a s) = Enc.srli d a s := fun _ _ _ => rfl

theorem exec_srai : ∀ d a sx s, exec (.srai d a sx) s = execSrai d a sx s := fun _ _ _ _ => rfl

theorem encode_srai : ∀ d a s, encode (.srai d a s) = Enc.srai d a s := fun _ _ _ => rfl

theorem exec_rori : ∀ d a sx s, exec (.rori d a sx) s = execRori d a sx s := fun _ _ _ _ => rfl

theorem encode_rori : ∀ d a s, encode (.rori d a s) = Enc.rori d a s := fun _ _ _ => rfl

theorem exec_movi : ∀ d ix s, exec (.movi d ix) s = execMovi d ix s := fun _ _ _ => rfl

theorem encode_movi : ∀ d i, encode (.movi d i) = Enc.movi d i := fun _ _ => rfl

theorem exec_addpc : ∀ d ix s, exec (.addpc d ix) s = execAddpc d ix s := fun _ _ _ => rfl

theorem encode_addpc : ∀ d i, encode (.addpc d i) = Enc.addpc d i := fun _ _ => rfl

theorem exec_addiw : ∀ d a ix s, exec (.addiw d a ix) s = execAddiw d a ix s := fun _ _ _ _ => rfl

theorem encode_addiw : ∀ d a i, encode (.addiw d a i) = Enc.addiw d a i := fun _ _ _ => rfl

theorem exec_fadd : ∀ d a b f s, exec (.fadd d a b f) s = execFadd d a b f s := fun _ _ _ _ _ => rfl

theorem encode_fadd : ∀ d a b f, encode (.fadd d a b f) = Enc.fadd d a b f := fun _ _ _ _ => rfl

theorem exec_fsub : ∀ d a b f s, exec (.fsub d a b f) s = execFsub d a b f s := fun _ _ _ _ _ => rfl

theorem encode_fsub : ∀ d a b f, encode (.fsub d a b f) = Enc.fsub d a b f := fun _ _ _ _ => rfl

theorem exec_fmul : ∀ d a b f s, exec (.fmul d a b f) s = execFmul d a b f s := fun _ _ _ _ _ => rfl

theorem encode_fmul : ∀ d a b f, encode (.fmul d a b f) = Enc.fmul d a b f := fun _ _ _ _ => rfl

theorem exec_fdiv : ∀ d a b f s, exec (.fdiv d a b f) s = execFdiv d a b f s := fun _ _ _ _ _ => rfl

theorem encode_fdiv : ∀ d a b f, encode (.fdiv d a b f) = Enc.fdiv d a b f := fun _ _ _ _ => rfl

theorem exec_fsqrt : ∀ d a f s, exec (.fsqrt d a f) s = execFsqrt d a f s := fun _ _ _ _ => rfl

theorem encode_fsqrt : ∀ d a f, encode (.fsqrt d a f) = Enc.fsqrt d a f := fun _ _ _ => rfl

theorem exec_fmin : ∀ d a b f s, exec (.fmin d a b f) s = execFmin d a b f s := fun _ _ _ _ _ => rfl

theorem encode_fmin : ∀ d a b f, encode (.fmin d a b f) = Enc.fmin d a b f := fun _ _ _ _ => rfl

theorem exec_fmax : ∀ d a b f s, exec (.fmax d a b f) s = execFmax d a b f s := fun _ _ _ _ _ => rfl

theorem encode_fmax : ∀ d a b f, encode (.fmax d a b f) = Enc.fmax d a b f := fun _ _ _ _ => rfl

theorem exec_feq : ∀ d a b f s, exec (.feq d a b f) s = execFeq d a b f s := fun _ _ _ _ _ => rfl

theorem encode_feq : ∀ d a b f, encode (.feq d a b f) = Enc.feq d a b f := fun _ _ _ _ => rfl

theorem exec_flt : ∀ d a b f s, exec (.flt d a b f) s = execFlt d a b f s := fun _ _ _ _ _ => rfl

theorem encode_flt : ∀ d a b f, encode (.flt d a b f) = Enc.flt d a b f := fun _ _ _ _ => rfl

theorem exec_fle : ∀ d a b f s, exec (.fle d a b f) s = execFle d a b f s := fun _ _ _ _ _ => rfl

theorem encode_fle : ∀ d a b f, encode (.fle d a b f) = Enc.fle d a b f := fun _ _ _ _ => rfl

theorem exec_fclass : ∀ d a f s, exec (.fclass d a f) s = execFclass d a f s := fun _ _ _ _ => rfl

theorem encode_fclass : ∀ d a f, encode (.fclass d a f) = Enc.fclass d a f := fun _ _ _ => rfl

theorem exec_fabs : ∀ d a f s, exec (.fabs d a f) s = execFabs d a f s := fun _ _ _ _ => rfl

theorem encode_fabs : ∀ d a f, encode (.fabs d a f) = Enc.fabs d a f := fun _ _ _ => rfl

theorem exec_fneg : ∀ d a f s, exec (.fneg d a f) s = execFneg d a f s := fun _ _ _ _ => rfl

theorem encode_fneg : ∀ d a f, encode (.fneg d a f) = Enc.fneg d a f := fun _ _ _ => rfl

theorem exec_fcvt : ∀ d a c sx s, exec (.fcvt d a c sx) s = execFcvt d a c sx s := fun _ _ _ _ _ => rfl

theorem encode_fcvt : ∀ d a c s, encode (.fcvt d a c s) = Enc.fcvt d a c s := fun _ _ _ _ => rfl

theorem exec_fmac : ∀ d a b f s, exec (.fmac d a b f) s = execFmac d a b f s := fun _ _ _ _ _ => rfl

theorem encode_fmac : ∀ d a b f, encode (.fmac d a b f) = Enc.fmac d a b f := fun _ _ _ _ => rfl

theorem exec_fmsac : ∀ d a b f s, exec (.fmsac d a b f) s = execFmsac d a b f s := fun _ _ _ _ _ => rfl

theorem encode_fmsac : ∀ d a b f, encode (.fmsac d a b f) = Enc.fmsac d a b f := fun _ _ _ _ => rfl

theorem exec_loop : ∀ n a l s, exec (.loop n a l) s = execLoop n a l s := fun _ _ _ _ => rfl

theorem encode_loop : ∀ n a l, encode (.loop n a l) = Enc.loop n a l := fun _ _ _ => rfl

theorem exec_beq : ∀ a b o s, exec (.beq a b o) s = execBeq a b o s := fun _ _ _ _ => rfl

theorem encode_beq : ∀ a b o, encode (.beq a b o) = Enc.beq a b o := fun _ _ _ => rfl

theorem exec_bne : ∀ a b o s, exec (.bne a b o) s = execBne a b o s := fun _ _ _ _ => rfl

theorem encode_bne : ∀ a b o, encode (.bne a b o) = Enc.bne a b o := fun _ _ _ => rfl

theorem exec_blt : ∀ a b o s, exec (.blt a b o) s = execBlt a b o s := fun _ _ _ _ => rfl

theorem encode_blt : ∀ a b o, encode (.blt a b o) = Enc.blt a b o := fun _ _ _ => rfl

theorem exec_bge : ∀ a b o s, exec (.bge a b o) s = execBge a b o s := fun _ _ _ _ => rfl

theorem encode_bge : ∀ a b o, encode (.bge a b o) = Enc.bge a b o := fun _ _ _ => rfl

theorem exec_bltu : ∀ a b o s, exec (.bltu a b o) s = execBltu a b o s := fun _ _ _ _ => rfl

theorem encode_bltu : ∀ a b o, encode (.bltu a b o) = Enc.bltu a b o := fun _ _ _ => rfl

theorem exec_bgeu : ∀ a b o s, exec (.bgeu a b o) s = execBgeu a b o s := fun _ _ _ _ => rfl

theorem encode_bgeu : ∀ a b o, encode (.bgeu a b o) = Enc.bgeu a b o := fun _ _ _ => rfl

theorem exec_jal : ∀ d o s, exec (.jal d o) s = execJal d o s := fun _ _ _ => rfl

theorem encode_jal : ∀ d o, encode (.jal d o) = Enc.jal d o := fun _ _ => rfl

theorem exec_jalr : ∀ d a ix s, exec (.jalr d a ix) s = execJalr d a ix s := fun _ _ _ _ => rfl

theorem encode_jalr : ∀ d a i, encode (.jalr d a i) = Enc.jalr d a i := fun _ _ _ => rfl

theorem exec_ldb : ∀ d a w o s, exec (.ldb d a w o) s = execLdb d a w o s := fun _ _ _ _ _ => rfl

theorem encode_ldb : ∀ d a w o, encode (.ldb d a w o) = Enc.ldb d a w o := fun _ _ _ _ => rfl

theorem exec_ldbu : ∀ d a w o s, exec (.ldbu d a w o) s = execLdbu d a w o s := fun _ _ _ _ _ => rfl

theorem encode_ldbu : ∀ d a w o, encode (.ldbu d a w o) = Enc.ldbu d a w o := fun _ _ _ _ => rfl

theorem exec_ldh : ∀ d a w o s, exec (.ldh d a w o) s = execLdh d a w o s := fun _ _ _ _ _ => rfl

theorem encode_ldh : ∀ d a w o, encode (.ldh d a w o) = Enc.ldh d a w o := fun _ _ _ _ => rfl

theorem exec_ldhu : ∀ d a w o s, exec (.ldhu d a w o) s = execLdhu d a w o s := fun _ _ _ _ _ => rfl

theorem encode_ldhu : ∀ d a w o, encode (.ldhu d a w o) = Enc.ldhu d a w o := fun _ _ _ _ => rfl

theorem exec_ldw : ∀ d a w o s, exec (.ldw d a w o) s = execLdw d a w o s := fun _ _ _ _ _ => rfl

theorem encode_ldw : ∀ d a w o, encode (.ldw d a w o) = Enc.ldw d a w o := fun _ _ _ _ => rfl

theorem exec_ldwu : ∀ d a w o s, exec (.ldwu d a w o) s = execLdwu d a w o s := fun _ _ _ _ _ => rfl

theorem encode_ldwu : ∀ d a w o, encode (.ldwu d a w o) = Enc.ldwu d a w o := fun _ _ _ _ => rfl

theorem exec_ldd : ∀ d a w o s, exec (.ldd d a w o) s = execLdd d a w o s := fun _ _ _ _ _ => rfl

theorem encode_ldd : ∀ d a w o, encode (.ldd d a w o) = Enc.ldd d a w o := fun _ _ _ _ => rfl

theorem exec_stb : ∀ d a w o s, exec (.stb d a w o) s = execStb d a w o s := fun _ _ _ _ _ => rfl

theorem encode_stb : ∀ d a w o, encode (.stb d a w o) = Enc.stb d a w o := fun _ _ _ _ => rfl

theorem exec_sth : ∀ d a w o s, exec (.sth d a w o) s = execSth d a w o s := fun _ _ _ _ _ => rfl

theorem encode_sth : ∀ d a w o, encode (.sth d a w o) = Enc.sth d a w o := fun _ _ _ _ => rfl

theorem exec_stw : ∀ d a w o s, exec (.stw d a w o) s = execStw d a w o s := fun _ _ _ _ _ => rfl

theorem encode_stw : ∀ d a w o, encode (.stw d a w o) = Enc.stw d a w o := fun _ _ _ _ => rfl

theorem exec_std : ∀ d a w o s, exec (.std d a w o) s = execStd d a w o s := fun _ _ _ _ _ => rfl

theorem encode_std : ∀ d a w o, encode (.std d a w o) = Enc.std d a w o := fun _ _ _ _ => rfl

theorem exec_ldro : ∀ d a o s, exec (.ldro d a o) s = execLdro d a o s := fun _ _ _ _ => rfl

theorem encode_ldro : ∀ d a o, encode (.ldro d a o) = Enc.ldro d a o := fun _ _ _ => rfl

theorem exec_ldf : ∀ d a m o s, exec (.ldf d a m o) s = execLdf d a m o s := fun _ _ _ _ _ => rfl

theorem encode_ldf : ∀ d a m o, encode (.ldf d a m o) = Enc.ldf d a m o := fun _ _ _ _ => rfl

theorem exec_stf : ∀ d a m o s, exec (.stf d a m o) s = execStf d a m o s := fun _ _ _ _ _ => rfl

theorem encode_stf : ∀ d a m o, encode (.stf d a m o) = Enc.stf d a m o := fun _ _ _ _ => rfl

theorem exec_fence : ∀ m s, exec (.fence m) s = execFence m s := fun _ _ => rfl

theorem encode_fence : ∀ m, encode (.fence m) = Enc.fence m := fun _ => rfl

theorem exec_roinv : ∀ a b s, exec (.roinv a b) s = execRoinv a b s := fun _ _ _ => rfl

theorem encode_roinv : ∀ a b, encode (.roinv a b) = Enc.roinv a b := fun _ _ => rfl

theorem exec_mwarm : ∀ a s, exec (.mwarm a) s = execMwarm a s := fun _ _ => rfl

theorem encode_mwarm : ∀ a, encode (.mwarm a) = Enc.mwarm a := fun _ => rfl

theorem exec_mwait : ∀ d a s, exec (.mwait d a) s = execMwait d a s := fun _ _ _ => rfl

theorem encode_mwait : ∀ d a, encode (.mwait d a) = Enc.mwait d a := fun _ _ => rfl

theorem exec_feset : ∀ a s, exec (.feset a) s = execFeset a s := fun _ _ => rfl

theorem encode_feset : ∀ a, encode (.feset a) = Enc.feset a := fun _ => rfl

theorem exec_feclr : ∀ a s, exec (.feclr a) s = execFeclr a s := fun _ _ => rfl

theorem encode_feclr : ∀ a, encode (.feclr a) = Enc.feclr a := fun _ => rfl

theorem exec_fest : ∀ d a s, exec (.fest d a) s = execFest d a s := fun _ _ _ => rfl

theorem encode_fest : ∀ d a, encode (.fest d a) = Enc.fest d a := fun _ _ => rfl

theorem exec_cflush : ∀ a b s, exec (.cflush a b) s = execCflush a b s := fun _ _ _ => rfl

theorem encode_cflush : ∀ a b, encode (.cflush a b) = Enc.cflush a b := fun _ _ => rfl

theorem exec_cinv : ∀ a b s, exec (.cinv a b) s = execCinv a b s := fun _ _ _ => rfl

theorem encode_cinv : ∀ a b, encode (.cinv a b) = Enc.cinv a b := fun _ _ => rfl

theorem exec_pref : ∀ a s, exec (.pref a) s = execPref a s := fun _ _ => rfl

theorem encode_pref : ∀ a, encode (.pref a) = Enc.pref a := fun _ => rfl

theorem exec_aadd : ∀ d a b w z s, exec (.aadd d a b w z) s = execAadd d a b w z s := fun _ _ _ _ _ _ => rfl

theorem encode_aadd : ∀ d a b w z, encode (.aadd d a b w z) = Enc.aadd d a b w z := fun _ _ _ _ _ => rfl

theorem exec_aand : ∀ d a b w z s, exec (.aand d a b w z) s = execAand d a b w z s := fun _ _ _ _ _ _ => rfl

theorem encode_aand : ∀ d a b w z, encode (.aand d a b w z) = Enc.aand d a b w z := fun _ _ _ _ _ => rfl

theorem exec_aor : ∀ d a b w z s, exec (.aor d a b w z) s = execAor d a b w z s := fun _ _ _ _ _ _ => rfl

theorem encode_aor : ∀ d a b w z, encode (.aor d a b w z) = Enc.aor d a b w z := fun _ _ _ _ _ => rfl

theorem exec_axor : ∀ d a b w z s, exec (.axor d a b w z) s = execAxor d a b w z s := fun _ _ _ _ _ _ => rfl

theorem encode_axor : ∀ d a b w z, encode (.axor d a b w z) = Enc.axor d a b w z := fun _ _ _ _ _ => rfl

theorem exec_amin : ∀ d a b w z s, exec (.amin d a b w z) s = execAmin d a b w z s := fun _ _ _ _ _ _ => rfl

theorem encode_amin : ∀ d a b w z, encode (.amin d a b w z) = Enc.amin d a b w z := fun _ _ _ _ _ => rfl

theorem exec_amax : ∀ d a b w z s, exec (.amax d a b w z) s = execAmax d a b w z s := fun _ _ _ _ _ _ => rfl

theorem encode_amax : ∀ d a b w z, encode (.amax d a b w z) = Enc.amax d a b w z := fun _ _ _ _ _ => rfl

theorem exec_aminu : ∀ d a b w z s, exec (.aminu d a b w z) s = execAminu d a b w z s := fun _ _ _ _ _ _ => rfl

theorem encode_aminu : ∀ d a b w z, encode (.aminu d a b w z) = Enc.aminu d a b w z := fun _ _ _ _ _ => rfl

theorem exec_amaxu : ∀ d a b w z s, exec (.amaxu d a b w z) s = execAmaxu d a b w z s := fun _ _ _ _ _ _ => rfl

theorem encode_amaxu : ∀ d a b w z, encode (.amaxu d a b w z) = Enc.amaxu d a b w z := fun _ _ _ _ _ => rfl

theorem exec_aswap : ∀ d a b w z s, exec (.aswap d a b w z) s = execAswap d a b w z s := fun _ _ _ _ _ _ => rfl

theorem encode_aswap : ∀ d a b w z, encode (.aswap d a b w z) = Enc.aswap d a b w z := fun _ _ _ _ _ => rfl

theorem exec_acas : ∀ d a b w z s, exec (.acas d a b w z) s = execAcas d a b w z s := fun _ _ _ _ _ _ => rfl

theorem encode_acas : ∀ d a b w z, encode (.acas d a b w z) = Enc.acas d a b w z := fun _ _ _ _ _ => rfl

theorem exec_afadd : ∀ d a b w s, exec (.afadd d a b w) s = execAfadd d a b w s := fun _ _ _ _ _ => rfl

theorem encode_afadd : ∀ d a b w, encode (.afadd d a b w) = Enc.afadd d a b w := fun _ _ _ _ => rfl

theorem exec_afmaxabs : ∀ d a b w s, exec (.afmaxabs d a b w) s = execAfmaxabs d a b w s := fun _ _ _ _ _ => rfl

theorem encode_afmaxabs : ∀ d a b w, encode (.afmaxabs d a b w) = Enc.afmaxabs d a b w := fun _ _ _ _ => rfl

theorem exec_amaxrst : ∀ d a w s, exec (.amaxrst d a w) s = execAmaxrst d a w s := fun _ _ _ _ => rfl

theorem encode_amaxrst : ∀ d a w, encode (.amaxrst d a w) = Enc.amaxrst d a w := fun _ _ _ => rfl

theorem exec_ship : ∀ d a b ix s, exec (.ship d a b ix) s = execShip d a b ix s := fun _ _ _ _ _ => rfl

theorem encode_ship : ∀ d a b i, encode (.ship d a b i) = Enc.ship d a b i := fun _ _ _ _ => rfl

theorem exec_trap : ∀ a s, exec (.trap a) s = execTrap a s := fun _ _ => rfl

theorem encode_trap : ∀ a, encode (.trap a) = Enc.trap a := fun _ => rfl

theorem exec_eret : ∀ s, exec .eret s = execEret s := fun _ => rfl

theorem encode_eret : encode .eret = Enc.eret := rfl

theorem exec_srrd : ∀ d ix s, exec (.srrd d ix) s = execSrrd d ix s := fun _ _ _ => rfl

theorem encode_srrd : ∀ d i, encode (.srrd d i) = Enc.srrd d i := fun _ _ => rfl

theorem exec_srwr : ∀ d ix s, exec (.srwr d ix) s = execSrwr d ix s := fun _ _ _ => rfl

theorem encode_srwr : ∀ d i, encode (.srwr d i) = Enc.srwr d i := fun _ _ => rfl

theorem exec_srset : ∀ d ix s, exec (.srset d ix) s = execSrset d ix s := fun _ _ _ => rfl

theorem encode_srset : ∀ d i, encode (.srset d i) = Enc.srset d i := fun _ _ => rfl

theorem exec_srclr : ∀ d ix s, exec (.srclr d ix) s = execSrclr d ix s := fun _ _ _ => rfl

theorem encode_srclr : ∀ d i, encode (.srclr d i) = Enc.srclr d i := fun _ _ => rfl

theorem exec_halt : ∀ s, exec .halt s = execHalt s := fun _ => rfl

theorem encode_halt : encode .halt = Enc.halt := rfl

theorem exec_bkpt : ∀ s, exec .bkpt s = execBkpt s := fun _ => rfl

theorem encode_bkpt : encode .bkpt = Enc.bkpt := rfl

theorem exec_ifence : ∀ s, exec .ifence s = execIfence s := fun _ => rfl

theorem encode_ifence : encode .ifence = Enc.ifence := rfl

theorem exec_tlbinv : ∀ a b s, exec (.tlbinv a b) s = execTlbinv a b s := fun _ _ _ => rfl

theorem encode_tlbinv : ∀ a b, encode (.tlbinv a b) = Enc.tlbinv a b := fun _ _ => rfl

theorem exec_ctxres : ∀ d a b s, exec (.ctxres d a b) s = execCtxres d a b s := fun _ _ _ _ => rfl

theorem encode_ctxres : ∀ d a b, encode (.ctxres d a b) = Enc.ctxres d a b := fun _ _ _ => rfl

theorem exec_wfe : ∀ s, exec .wfe s = execWfe s := fun _ => rfl

theorem encode_wfe : encode .wfe = Enc.wfe := rfl

theorem exec_vsetl : ∀ d a m t l sx s, exec (.vsetl d a m t l sx) s = execVsetl d a m t l sx s := fun _ _ _ _ _ _ _ => rfl

theorem encode_vsetl : ∀ d a m t l s, encode (.vsetl d a m t l s) = Enc.vsetl d a m t l s := fun _ _ _ _ _ _ => rfl

theorem exec_vsetli : ∀ d u m t l sx s, exec (.vsetli d u m t l sx) s = execVsetli d u m t l sx s := fun _ _ _ _ _ _ _ => rfl

theorem encode_vsetli : ∀ d u m t l s, encode (.vsetli d u m t l s) = Enc.vsetli d u m t l s := fun _ _ _ _ _ _ => rfl

theorem exec_vld : ∀ d a m w e s, exec (.vld d a m w e) s = execVld d a m w e s := fun _ _ _ _ _ _ => rfl

theorem encode_vld : ∀ d a m w e, encode (.vld d a m w e) = Enc.vld d a m w e := fun _ _ _ _ _ => rfl

theorem exec_vlds : ∀ d a b m w e s, exec (.vlds d a b m w e) s = execVlds d a b m w e s := fun _ _ _ _ _ _ _ => rfl

theorem encode_vlds : ∀ d a b m w e, encode (.vlds d a b m w e) = Enc.vlds d a b m w e := fun _ _ _ _ _ _ => rfl

theorem exec_vldx : ∀ d a b m w e s, exec (.vldx d a b m w e) s = execVldx d a b m w e s := fun _ _ _ _ _ _ _ => rfl

theorem encode_vldx : ∀ d a b m w e, encode (.vldx d a b m w e) = Enc.vldx d a b m w e := fun _ _ _ _ _ _ => rfl

theorem exec_vldff : ∀ d a m w e s, exec (.vldff d a m w e) s = execVldff d a m w e s := fun _ _ _ _ _ _ => rfl

theorem encode_vldff : ∀ d a m w e, encode (.vldff d a m w e) = Enc.vldff d a m w e := fun _ _ _ _ _ => rfl

theorem exec_vst : ∀ d a m w e s, exec (.vst d a m w e) s = execVst d a m w e s := fun _ _ _ _ _ _ => rfl

theorem encode_vst : ∀ d a m w e, encode (.vst d a m w e) = Enc.vst d a m w e := fun _ _ _ _ _ => rfl

theorem exec_vsts : ∀ d a b m w e s, exec (.vsts d a b m w e) s = execVsts d a b m w e s := fun _ _ _ _ _ _ _ => rfl

theorem encode_vsts : ∀ d a b m w e, encode (.vsts d a b m w e) = Enc.vsts d a b m w e := fun _ _ _ _ _ _ => rfl

theorem exec_vstx : ∀ d a b m w e s, exec (.vstx d a b m w e) s = execVstx d a b m w e s := fun _ _ _ _ _ _ _ => rfl

theorem encode_vstx : ∀ d a b m w e, encode (.vstx d a b m w e) = Enc.vstx d a b m w e := fun _ _ _ _ _ _ => rfl

theorem exec_vaddVv : ∀ d a b m s, exec (.vaddVv d a b m) s = execVaddVv d a b m s := fun _ _ _ _ _ => rfl

theorem encode_vaddVv : ∀ d a b m, encode (.vaddVv d a b m) = Enc.vaddVv d a b m := fun _ _ _ _ => rfl

theorem exec_vaddVx : ∀ d a sx m s, exec (.vaddVx d a sx m) s = execVaddVx d a sx m s := fun _ _ _ _ _ => rfl

theorem encode_vaddVx : ∀ d a s m, encode (.vaddVx d a s m) = Enc.vaddVx d a s m := fun _ _ _ _ => rfl

theorem exec_vsubVv : ∀ d a b m s, exec (.vsubVv d a b m) s = execVsubVv d a b m s := fun _ _ _ _ _ => rfl

theorem encode_vsubVv : ∀ d a b m, encode (.vsubVv d a b m) = Enc.vsubVv d a b m := fun _ _ _ _ => rfl

theorem exec_vsubVx : ∀ d a sx m s, exec (.vsubVx d a sx m) s = execVsubVx d a sx m s := fun _ _ _ _ _ => rfl

theorem encode_vsubVx : ∀ d a s m, encode (.vsubVx d a s m) = Enc.vsubVx d a s m := fun _ _ _ _ => rfl

theorem exec_vrsubVv : ∀ d a b m s, exec (.vrsubVv d a b m) s = execVrsubVv d a b m s := fun _ _ _ _ _ => rfl

theorem encode_vrsubVv : ∀ d a b m, encode (.vrsubVv d a b m) = Enc.vrsubVv d a b m := fun _ _ _ _ => rfl

theorem exec_vrsubVx : ∀ d a sx m s, exec (.vrsubVx d a sx m) s = execVrsubVx d a sx m s := fun _ _ _ _ _ => rfl

theorem encode_vrsubVx : ∀ d a s m, encode (.vrsubVx d a s m) = Enc.vrsubVx d a s m := fun _ _ _ _ => rfl

theorem exec_vmulVv : ∀ d a b m s, exec (.vmulVv d a b m) s = execVmulVv d a b m s := fun _ _ _ _ _ => rfl

theorem encode_vmulVv : ∀ d a b m, encode (.vmulVv d a b m) = Enc.vmulVv d a b m := fun _ _ _ _ => rfl

theorem exec_vmulVx : ∀ d a sx m s, exec (.vmulVx d a sx m) s = execVmulVx d a sx m s := fun _ _ _ _ _ => rfl

theorem encode_vmulVx : ∀ d a s m, encode (.vmulVx d a s m) = Enc.vmulVx d a s m := fun _ _ _ _ => rfl

theorem exec_vmulhVv : ∀ d a b m u s, exec (.vmulhVv d a b m u) s = execVmulhVv d a b m u s := fun _ _ _ _ _ _ => rfl

theorem encode_vmulhVv : ∀ d a b m u, encode (.vmulhVv d a b m u) = Enc.vmulhVv d a b m u := fun _ _ _ _ _ => rfl

theorem exec_vmulhVx : ∀ d a sx m u s, exec (.vmulhVx d a sx m u) s = execVmulhVx d a sx m u s := fun _ _ _ _ _ _ => rfl

theorem encode_vmulhVx : ∀ d a s m u, encode (.vmulhVx d a s m u) = Enc.vmulhVx d a s m u := fun _ _ _ _ _ => rfl

theorem exec_vmaccVv : ∀ d a b m s, exec (.vmaccVv d a b m) s = execVmaccVv d a b m s := fun _ _ _ _ _ => rfl

theorem encode_vmaccVv : ∀ d a b m, encode (.vmaccVv d a b m) = Enc.vmaccVv d a b m := fun _ _ _ _ => rfl

theorem exec_vmaccVx : ∀ d a sx m s, exec (.vmaccVx d a sx m) s = execVmaccVx d a sx m s := fun _ _ _ _ _ => rfl

theorem encode_vmaccVx : ∀ d a s m, encode (.vmaccVx d a s m) = Enc.vmaccVx d a s m := fun _ _ _ _ => rfl

theorem exec_vnmsacVv : ∀ d a b m s, exec (.vnmsacVv d a b m) s = execVnmsacVv d a b m s := fun _ _ _ _ _ => rfl

theorem encode_vnmsacVv : ∀ d a b m, encode (.vnmsacVv d a b m) = Enc.vnmsacVv d a b m := fun _ _ _ _ => rfl

theorem exec_vnmsacVx : ∀ d a sx m s, exec (.vnmsacVx d a sx m) s = execVnmsacVx d a sx m s := fun _ _ _ _ _ => rfl

theorem encode_vnmsacVx : ∀ d a s m, encode (.vnmsacVx d a s m) = Enc.vnmsacVx d a s m := fun _ _ _ _ => rfl

theorem exec_vandVv : ∀ d a b m s, exec (.vandVv d a b m) s = execVandVv d a b m s := fun _ _ _ _ _ => rfl

theorem encode_vandVv : ∀ d a b m, encode (.vandVv d a b m) = Enc.vandVv d a b m := fun _ _ _ _ => rfl

theorem exec_vandVx : ∀ d a sx m s, exec (.vandVx d a sx m) s = execVandVx d a sx m s := fun _ _ _ _ _ => rfl

theorem encode_vandVx : ∀ d a s m, encode (.vandVx d a s m) = Enc.vandVx d a s m := fun _ _ _ _ => rfl

theorem exec_vorVv : ∀ d a b m s, exec (.vorVv d a b m) s = execVorVv d a b m s := fun _ _ _ _ _ => rfl

theorem encode_vorVv : ∀ d a b m, encode (.vorVv d a b m) = Enc.vorVv d a b m := fun _ _ _ _ => rfl

theorem exec_vorVx : ∀ d a sx m s, exec (.vorVx d a sx m) s = execVorVx d a sx m s := fun _ _ _ _ _ => rfl

theorem encode_vorVx : ∀ d a s m, encode (.vorVx d a s m) = Enc.vorVx d a s m := fun _ _ _ _ => rfl

theorem exec_vxorVv : ∀ d a b m s, exec (.vxorVv d a b m) s = execVxorVv d a b m s := fun _ _ _ _ _ => rfl

theorem encode_vxorVv : ∀ d a b m, encode (.vxorVv d a b m) = Enc.vxorVv d a b m := fun _ _ _ _ => rfl

theorem exec_vxorVx : ∀ d a sx m s, exec (.vxorVx d a sx m) s = execVxorVx d a sx m s := fun _ _ _ _ _ => rfl

theorem encode_vxorVx : ∀ d a s m, encode (.vxorVx d a s m) = Enc.vxorVx d a s m := fun _ _ _ _ => rfl

theorem exec_vsllVv : ∀ d a b m s, exec (.vsllVv d a b m) s = execVsllVv d a b m s := fun _ _ _ _ _ => rfl

theorem encode_vsllVv : ∀ d a b m, encode (.vsllVv d a b m) = Enc.vsllVv d a b m := fun _ _ _ _ => rfl

theorem exec_vsllVx : ∀ d a sx m s, exec (.vsllVx d a sx m) s = execVsllVx d a sx m s := fun _ _ _ _ _ => rfl

theorem encode_vsllVx : ∀ d a s m, encode (.vsllVx d a s m) = Enc.vsllVx d a s m := fun _ _ _ _ => rfl

theorem exec_vsrlVv : ∀ d a b m s, exec (.vsrlVv d a b m) s = execVsrlVv d a b m s := fun _ _ _ _ _ => rfl

theorem encode_vsrlVv : ∀ d a b m, encode (.vsrlVv d a b m) = Enc.vsrlVv d a b m := fun _ _ _ _ => rfl

theorem exec_vsrlVx : ∀ d a sx m s, exec (.vsrlVx d a sx m) s = execVsrlVx d a sx m s := fun _ _ _ _ _ => rfl

theorem encode_vsrlVx : ∀ d a s m, encode (.vsrlVx d a s m) = Enc.vsrlVx d a s m := fun _ _ _ _ => rfl

theorem exec_vsraVv : ∀ d a b m s, exec (.vsraVv d a b m) s = execVsraVv d a b m s := fun _ _ _ _ _ => rfl

theorem encode_vsraVv : ∀ d a b m, encode (.vsraVv d a b m) = Enc.vsraVv d a b m := fun _ _ _ _ => rfl

theorem exec_vsraVx : ∀ d a sx m s, exec (.vsraVx d a sx m) s = execVsraVx d a sx m s := fun _ _ _ _ _ => rfl

theorem encode_vsraVx : ∀ d a s m, encode (.vsraVx d a s m) = Enc.vsraVx d a s m := fun _ _ _ _ => rfl

theorem exec_vminVv : ∀ d a b m s, exec (.vminVv d a b m) s = execVminVv d a b m s := fun _ _ _ _ _ => rfl

theorem encode_vminVv : ∀ d a b m, encode (.vminVv d a b m) = Enc.vminVv d a b m := fun _ _ _ _ => rfl

theorem exec_vminVx : ∀ d a sx m s, exec (.vminVx d a sx m) s = execVminVx d a sx m s := fun _ _ _ _ _ => rfl

theorem encode_vminVx : ∀ d a s m, encode (.vminVx d a s m) = Enc.vminVx d a s m := fun _ _ _ _ => rfl

theorem exec_vmaxVv : ∀ d a b m s, exec (.vmaxVv d a b m) s = execVmaxVv d a b m s := fun _ _ _ _ _ => rfl

theorem encode_vmaxVv : ∀ d a b m, encode (.vmaxVv d a b m) = Enc.vmaxVv d a b m := fun _ _ _ _ => rfl

theorem exec_vmaxVx : ∀ d a sx m s, exec (.vmaxVx d a sx m) s = execVmaxVx d a sx m s := fun _ _ _ _ _ => rfl

theorem encode_vmaxVx : ∀ d a s m, encode (.vmaxVx d a s m) = Enc.vmaxVx d a s m := fun _ _ _ _ => rfl

theorem exec_vminuVv : ∀ d a b m s, exec (.vminuVv d a b m) s = execVminuVv d a b m s := fun _ _ _ _ _ => rfl

theorem encode_vminuVv : ∀ d a b m, encode (.vminuVv d a b m) = Enc.vminuVv d a b m := fun _ _ _ _ => rfl

theorem exec_vminuVx : ∀ d a sx m s, exec (.vminuVx d a sx m) s = execVminuVx d a sx m s := fun _ _ _ _ _ => rfl

theorem encode_vminuVx : ∀ d a s m, encode (.vminuVx d a s m) = Enc.vminuVx d a s m := fun _ _ _ _ => rfl

theorem exec_vmaxuVv : ∀ d a b m s, exec (.vmaxuVv d a b m) s = execVmaxuVv d a b m s := fun _ _ _ _ _ => rfl

theorem encode_vmaxuVv : ∀ d a b m, encode (.vmaxuVv d a b m) = Enc.vmaxuVv d a b m := fun _ _ _ _ => rfl

theorem exec_vmaxuVx : ∀ d a sx m s, exec (.vmaxuVx d a sx m) s = execVmaxuVx d a sx m s := fun _ _ _ _ _ => rfl

theorem encode_vmaxuVx : ∀ d a s m, encode (.vmaxuVx d a s m) = Enc.vmaxuVx d a s m := fun _ _ _ _ => rfl

theorem exec_vseqVv : ∀ d a b m s, exec (.vseqVv d a b m) s = execVseqVv d a b m s := fun _ _ _ _ _ => rfl

theorem encode_vseqVv : ∀ d a b m, encode (.vseqVv d a b m) = Enc.vseqVv d a b m := fun _ _ _ _ => rfl

theorem exec_vseqVx : ∀ d a sx m s, exec (.vseqVx d a sx m) s = execVseqVx d a sx m s := fun _ _ _ _ _ => rfl

theorem encode_vseqVx : ∀ d a s m, encode (.vseqVx d a s m) = Enc.vseqVx d a s m := fun _ _ _ _ => rfl

theorem exec_vsneVv : ∀ d a b m s, exec (.vsneVv d a b m) s = execVsneVv d a b m s := fun _ _ _ _ _ => rfl

theorem encode_vsneVv : ∀ d a b m, encode (.vsneVv d a b m) = Enc.vsneVv d a b m := fun _ _ _ _ => rfl

theorem exec_vsneVx : ∀ d a sx m s, exec (.vsneVx d a sx m) s = execVsneVx d a sx m s := fun _ _ _ _ _ => rfl

theorem encode_vsneVx : ∀ d a s m, encode (.vsneVx d a s m) = Enc.vsneVx d a s m := fun _ _ _ _ => rfl

theorem exec_vsltVv : ∀ d a b m s, exec (.vsltVv d a b m) s = execVsltVv d a b m s := fun _ _ _ _ _ => rfl

theorem encode_vsltVv : ∀ d a b m, encode (.vsltVv d a b m) = Enc.vsltVv d a b m := fun _ _ _ _ => rfl

theorem exec_vsltVx : ∀ d a sx m s, exec (.vsltVx d a sx m) s = execVsltVx d a sx m s := fun _ _ _ _ _ => rfl

theorem encode_vsltVx : ∀ d a s m, encode (.vsltVx d a s m) = Enc.vsltVx d a s m := fun _ _ _ _ => rfl

theorem exec_vsltuVv : ∀ d a b m s, exec (.vsltuVv d a b m) s = execVsltuVv d a b m s := fun _ _ _ _ _ => rfl

theorem encode_vsltuVv : ∀ d a b m, encode (.vsltuVv d a b m) = Enc.vsltuVv d a b m := fun _ _ _ _ => rfl

theorem exec_vsltuVx : ∀ d a sx m s, exec (.vsltuVx d a sx m) s = execVsltuVx d a sx m s := fun _ _ _ _ _ => rfl

theorem encode_vsltuVx : ∀ d a s m, encode (.vsltuVx d a s m) = Enc.vsltuVx d a s m := fun _ _ _ _ => rfl

theorem exec_vsleVv : ∀ d a b m s, exec (.vsleVv d a b m) s = execVsleVv d a b m s := fun _ _ _ _ _ => rfl

theorem encode_vsleVv : ∀ d a b m, encode (.vsleVv d a b m) = Enc.vsleVv d a b m := fun _ _ _ _ => rfl

theorem exec_vsleVx : ∀ d a sx m s, exec (.vsleVx d a sx m) s = execVsleVx d a sx m s := fun _ _ _ _ _ => rfl

theorem encode_vsleVx : ∀ d a s m, encode (.vsleVx d a s m) = Enc.vsleVx d a s m := fun _ _ _ _ => rfl

theorem exec_vmergeVv : ∀ d a b s, exec (.vmergeVv d a b) s = execVmergeVv d a b s := fun _ _ _ _ => rfl

theorem encode_vmergeVv : ∀ d a b, encode (.vmergeVv d a b) = Enc.vmergeVv d a b := fun _ _ _ => rfl

theorem exec_vmergeVx : ∀ d a sx s, exec (.vmergeVx d a sx) s = execVmergeVx d a sx s := fun _ _ _ _ => rfl

theorem encode_vmergeVx : ∀ d a s, encode (.vmergeVx d a s) = Enc.vmergeVx d a s := fun _ _ _ => rfl

theorem exec_vmvVv : ∀ d a m s, exec (.vmvVv d a m) s = execVmvVv d a m s := fun _ _ _ _ => rfl

theorem encode_vmvVv : ∀ d a m, encode (.vmvVv d a m) = Enc.vmvVv d a m := fun _ _ _ => rfl

theorem exec_vmvVx : ∀ d sx m s, exec (.vmvVx d sx m) s = execVmvVx d sx m s := fun _ _ _ _ => rfl

theorem encode_vmvVx : ∀ d s m, encode (.vmvVx d s m) = Enc.vmvVx d s m := fun _ _ _ => rfl

theorem exec_vsaddVv : ∀ d a b m u s, exec (.vsaddVv d a b m u) s = execVsaddVv d a b m u s := fun _ _ _ _ _ _ => rfl

theorem encode_vsaddVv : ∀ d a b m u, encode (.vsaddVv d a b m u) = Enc.vsaddVv d a b m u := fun _ _ _ _ _ => rfl

theorem exec_vsaddVx : ∀ d a sx m u s, exec (.vsaddVx d a sx m u) s = execVsaddVx d a sx m u s := fun _ _ _ _ _ _ => rfl

theorem encode_vsaddVx : ∀ d a s m u, encode (.vsaddVx d a s m u) = Enc.vsaddVx d a s m u := fun _ _ _ _ _ => rfl

theorem exec_vssubVv : ∀ d a b m u s, exec (.vssubVv d a b m u) s = execVssubVv d a b m u s := fun _ _ _ _ _ _ => rfl

theorem encode_vssubVv : ∀ d a b m u, encode (.vssubVv d a b m u) = Enc.vssubVv d a b m u := fun _ _ _ _ _ => rfl

theorem exec_vssubVx : ∀ d a sx m u s, exec (.vssubVx d a sx m u) s = execVssubVx d a sx m u s := fun _ _ _ _ _ _ => rfl

theorem encode_vssubVx : ∀ d a s m u, encode (.vssubVx d a s m u) = Enc.vssubVx d a s m u := fun _ _ _ _ _ => rfl

theorem exec_vnclipVv : ∀ d a b m u s, exec (.vnclipVv d a b m u) s = execVnclipVv d a b m u s := fun _ _ _ _ _ _ => rfl

theorem encode_vnclipVv : ∀ d a b m u, encode (.vnclipVv d a b m u) = Enc.vnclipVv d a b m u := fun _ _ _ _ _ => rfl

theorem exec_vnclipVx : ∀ d a sx m u s, exec (.vnclipVx d a sx m u) s = execVnclipVx d a sx m u s := fun _ _ _ _ _ _ => rfl

theorem encode_vnclipVx : ∀ d a s m u, encode (.vnclipVx d a s m u) = Enc.vnclipVx d a s m u := fun _ _ _ _ _ => rfl

theorem exec_vwaddVv : ∀ d a b m u s, exec (.vwaddVv d a b m u) s = execVwaddVv d a b m u s := fun _ _ _ _ _ _ => rfl

theorem encode_vwaddVv : ∀ d a b m u, encode (.vwaddVv d a b m u) = Enc.vwaddVv d a b m u := fun _ _ _ _ _ => rfl

theorem exec_vwaddVx : ∀ d a sx m u s, exec (.vwaddVx d a sx m u) s = execVwaddVx d a sx m u s := fun _ _ _ _ _ _ => rfl

theorem encode_vwaddVx : ∀ d a s m u, encode (.vwaddVx d a s m u) = Enc.vwaddVx d a s m u := fun _ _ _ _ _ => rfl

theorem exec_vwmulVv : ∀ d a b m u s, exec (.vwmulVv d a b m u) s = execVwmulVv d a b m u s := fun _ _ _ _ _ _ => rfl

theorem encode_vwmulVv : ∀ d a b m u, encode (.vwmulVv d a b m u) = Enc.vwmulVv d a b m u := fun _ _ _ _ _ => rfl

theorem exec_vwmulVx : ∀ d a sx m u s, exec (.vwmulVx d a sx m u) s = execVwmulVx d a sx m u s := fun _ _ _ _ _ _ => rfl

theorem encode_vwmulVx : ∀ d a s m u, encode (.vwmulVx d a s m u) = Enc.vwmulVx d a s m u := fun _ _ _ _ _ => rfl

theorem exec_vext : ∀ d a m f u s, exec (.vext d a m f u) s = execVext d a m f u s := fun _ _ _ _ _ _ => rfl

theorem encode_vext : ∀ d a m f u, encode (.vext d a m f u) = Enc.vext d a m f u := fun _ _ _ _ _ => rfl

theorem exec_vfaddVv : ∀ d a b m s, exec (.vfaddVv d a b m) s = execVfaddVv d a b m s := fun _ _ _ _ _ => rfl

theorem encode_vfaddVv : ∀ d a b m, encode (.vfaddVv d a b m) = Enc.vfaddVv d a b m := fun _ _ _ _ => rfl

theorem exec_vfaddVx : ∀ d a sx m s, exec (.vfaddVx d a sx m) s = execVfaddVx d a sx m s := fun _ _ _ _ _ => rfl

theorem encode_vfaddVx : ∀ d a s m, encode (.vfaddVx d a s m) = Enc.vfaddVx d a s m := fun _ _ _ _ => rfl

theorem exec_vfsubVv : ∀ d a b m s, exec (.vfsubVv d a b m) s = execVfsubVv d a b m s := fun _ _ _ _ _ => rfl

theorem encode_vfsubVv : ∀ d a b m, encode (.vfsubVv d a b m) = Enc.vfsubVv d a b m := fun _ _ _ _ => rfl

theorem exec_vfsubVx : ∀ d a sx m s, exec (.vfsubVx d a sx m) s = execVfsubVx d a sx m s := fun _ _ _ _ _ => rfl

theorem encode_vfsubVx : ∀ d a s m, encode (.vfsubVx d a s m) = Enc.vfsubVx d a s m := fun _ _ _ _ => rfl

theorem exec_vfmulVv : ∀ d a b m s, exec (.vfmulVv d a b m) s = execVfmulVv d a b m s := fun _ _ _ _ _ => rfl

theorem encode_vfmulVv : ∀ d a b m, encode (.vfmulVv d a b m) = Enc.vfmulVv d a b m := fun _ _ _ _ => rfl

theorem exec_vfmulVx : ∀ d a sx m s, exec (.vfmulVx d a sx m) s = execVfmulVx d a sx m s := fun _ _ _ _ _ => rfl

theorem encode_vfmulVx : ∀ d a s m, encode (.vfmulVx d a s m) = Enc.vfmulVx d a s m := fun _ _ _ _ => rfl

theorem exec_vfdivVv : ∀ d a b m s, exec (.vfdivVv d a b m) s = execVfdivVv d a b m s := fun _ _ _ _ _ => rfl

theorem encode_vfdivVv : ∀ d a b m, encode (.vfdivVv d a b m) = Enc.vfdivVv d a b m := fun _ _ _ _ => rfl

theorem exec_vfdivVx : ∀ d a sx m s, exec (.vfdivVx d a sx m) s = execVfdivVx d a sx m s := fun _ _ _ _ _ => rfl

theorem encode_vfdivVx : ∀ d a s m, encode (.vfdivVx d a s m) = Enc.vfdivVx d a s m := fun _ _ _ _ => rfl

theorem exec_vfsqrt : ∀ d a m s, exec (.vfsqrt d a m) s = execVfsqrt d a m s := fun _ _ _ _ => rfl

theorem encode_vfsqrt : ∀ d a m, encode (.vfsqrt d a m) = Enc.vfsqrt d a m := fun _ _ _ => rfl

theorem exec_vfminVv : ∀ d a b m s, exec (.vfminVv d a b m) s = execVfminVv d a b m s := fun _ _ _ _ _ => rfl

theorem encode_vfminVv : ∀ d a b m, encode (.vfminVv d a b m) = Enc.vfminVv d a b m := fun _ _ _ _ => rfl

theorem exec_vfminVx : ∀ d a sx m s, exec (.vfminVx d a sx m) s = execVfminVx d a sx m s := fun _ _ _ _ _ => rfl

theorem encode_vfminVx : ∀ d a s m, encode (.vfminVx d a s m) = Enc.vfminVx d a s m := fun _ _ _ _ => rfl

theorem exec_vfmaxVv : ∀ d a b m s, exec (.vfmaxVv d a b m) s = execVfmaxVv d a b m s := fun _ _ _ _ _ => rfl

theorem encode_vfmaxVv : ∀ d a b m, encode (.vfmaxVv d a b m) = Enc.vfmaxVv d a b m := fun _ _ _ _ => rfl

theorem exec_vfmaxVx : ∀ d a sx m s, exec (.vfmaxVx d a sx m) s = execVfmaxVx d a sx m s := fun _ _ _ _ _ => rfl

theorem encode_vfmaxVx : ∀ d a s m, encode (.vfmaxVx d a s m) = Enc.vfmaxVx d a s m := fun _ _ _ _ => rfl

theorem exec_vfmaccVv : ∀ d a b m s, exec (.vfmaccVv d a b m) s = execVfmaccVv d a b m s := fun _ _ _ _ _ => rfl

theorem encode_vfmaccVv : ∀ d a b m, encode (.vfmaccVv d a b m) = Enc.vfmaccVv d a b m := fun _ _ _ _ => rfl

theorem exec_vfmaccVx : ∀ d a sx m s, exec (.vfmaccVx d a sx m) s = execVfmaccVx d a sx m s := fun _ _ _ _ _ => rfl

theorem encode_vfmaccVx : ∀ d a s m, encode (.vfmaccVx d a s m) = Enc.vfmaccVx d a s m := fun _ _ _ _ => rfl

theorem exec_vfnmsacVv : ∀ d a b m s, exec (.vfnmsacVv d a b m) s = execVfnmsacVv d a b m s := fun _ _ _ _ _ => rfl

theorem encode_vfnmsacVv : ∀ d a b m, encode (.vfnmsacVv d a b m) = Enc.vfnmsacVv d a b m := fun _ _ _ _ => rfl

theorem exec_vfnmsacVx : ∀ d a sx m s, exec (.vfnmsacVx d a sx m) s = execVfnmsacVx d a sx m s := fun _ _ _ _ _ => rfl

theorem encode_vfnmsacVx : ∀ d a s m, encode (.vfnmsacVx d a s m) = Enc.vfnmsacVx d a s m := fun _ _ _ _ => rfl

theorem exec_vfeqVv : ∀ d a b m s, exec (.vfeqVv d a b m) s = execVfeqVv d a b m s := fun _ _ _ _ _ => rfl

theorem encode_vfeqVv : ∀ d a b m, encode (.vfeqVv d a b m) = Enc.vfeqVv d a b m := fun _ _ _ _ => rfl

theorem exec_vfeqVx : ∀ d a sx m s, exec (.vfeqVx d a sx m) s = execVfeqVx d a sx m s := fun _ _ _ _ _ => rfl

theorem encode_vfeqVx : ∀ d a s m, encode (.vfeqVx d a s m) = Enc.vfeqVx d a s m := fun _ _ _ _ => rfl

theorem exec_vfltVv : ∀ d a b m s, exec (.vfltVv d a b m) s = execVfltVv d a b m s := fun _ _ _ _ _ => rfl

theorem encode_vfltVv : ∀ d a b m, encode (.vfltVv d a b m) = Enc.vfltVv d a b m := fun _ _ _ _ => rfl

theorem exec_vfltVx : ∀ d a sx m s, exec (.vfltVx d a sx m) s = execVfltVx d a sx m s := fun _ _ _ _ _ => rfl

theorem encode_vfltVx : ∀ d a s m, encode (.vfltVx d a s m) = Enc.vfltVx d a s m := fun _ _ _ _ => rfl

theorem exec_vfleVv : ∀ d a b m s, exec (.vfleVv d a b m) s = execVfleVv d a b m s := fun _ _ _ _ _ => rfl

theorem encode_vfleVv : ∀ d a b m, encode (.vfleVv d a b m) = Enc.vfleVv d a b m := fun _ _ _ _ => rfl

theorem exec_vfleVx : ∀ d a sx m s, exec (.vfleVx d a sx m) s = execVfleVx d a sx m s := fun _ _ _ _ _ => rfl

theorem encode_vfleVx : ∀ d a s m, encode (.vfleVx d a s m) = Enc.vfleVx d a s m := fun _ _ _ _ => rfl

theorem exec_vfabs : ∀ d a m s, exec (.vfabs d a m) s = execVfabs d a m s := fun _ _ _ _ => rfl

theorem encode_vfabs : ∀ d a m, encode (.vfabs d a m) = Enc.vfabs d a m := fun _ _ _ => rfl

theorem exec_vfneg : ∀ d a m s, exec (.vfneg d a m) s = execVfneg d a m s := fun _ _ _ _ => rfl

theorem encode_vfneg : ∀ d a m, encode (.vfneg d a m) = Enc.vfneg d a m := fun _ _ _ => rfl

theorem exec_vfsgnjVv : ∀ d a b m s, exec (.vfsgnjVv d a b m) s = execVfsgnjVv d a b m s := fun _ _ _ _ _ => rfl

theorem encode_vfsgnjVv : ∀ d a b m, encode (.vfsgnjVv d a b m) = Enc.vfsgnjVv d a b m := fun _ _ _ _ => rfl

theorem exec_vfsgnjVx : ∀ d a sx m s, exec (.vfsgnjVx d a sx m) s = execVfsgnjVx d a sx m s := fun _ _ _ _ _ => rfl

theorem encode_vfsgnjVx : ∀ d a s m, encode (.vfsgnjVx d a s m) = Enc.vfsgnjVx d a s m := fun _ _ _ _ => rfl

theorem exec_vredsum : ∀ d a b m s, exec (.vredsum d a b m) s = execVredsum d a b m s := fun _ _ _ _ _ => rfl

theorem encode_vredsum : ∀ d a b m, encode (.vredsum d a b m) = Enc.vredsum d a b m := fun _ _ _ _ => rfl

theorem exec_vredmax : ∀ d a b m u s, exec (.vredmax d a b m u) s = execVredmax d a b m u s := fun _ _ _ _ _ _ => rfl

theorem encode_vredmax : ∀ d a b m u, encode (.vredmax d a b m u) = Enc.vredmax d a b m u := fun _ _ _ _ _ => rfl

theorem exec_vredmin : ∀ d a b m u s, exec (.vredmin d a b m u) s = execVredmin d a b m u s := fun _ _ _ _ _ _ => rfl

theorem encode_vredmin : ∀ d a b m u, encode (.vredmin d a b m u) = Enc.vredmin d a b m u := fun _ _ _ _ _ => rfl

theorem exec_vredand : ∀ d a b m s, exec (.vredand d a b m) s = execVredand d a b m s := fun _ _ _ _ _ => rfl

theorem encode_vredand : ∀ d a b m, encode (.vredand d a b m) = Enc.vredand d a b m := fun _ _ _ _ => rfl

theorem exec_vredor : ∀ d a b m s, exec (.vredor d a b m) s = execVredor d a b m s := fun _ _ _ _ _ => rfl

theorem encode_vredor : ∀ d a b m, encode (.vredor d a b m) = Enc.vredor d a b m := fun _ _ _ _ => rfl

theorem exec_vredxor : ∀ d a b m s, exec (.vredxor d a b m) s = execVredxor d a b m s := fun _ _ _ _ _ => rfl

theorem encode_vredxor : ∀ d a b m, encode (.vredxor d a b m) = Enc.vredxor d a b m := fun _ _ _ _ => rfl

theorem exec_vfredosum : ∀ d a b m s, exec (.vfredosum d a b m) s = execVfredosum d a b m s := fun _ _ _ _ _ => rfl

theorem encode_vfredosum : ∀ d a b m, encode (.vfredosum d a b m) = Enc.vfredosum d a b m := fun _ _ _ _ => rfl

theorem exec_vfredtsum : ∀ d a b m s, exec (.vfredtsum d a b m) s = execVfredtsum d a b m s := fun _ _ _ _ _ => rfl

theorem encode_vfredtsum : ∀ d a b m, encode (.vfredtsum d a b m) = Enc.vfredtsum d a b m := fun _ _ _ _ => rfl

theorem exec_vfredmax : ∀ d a b m s, exec (.vfredmax d a b m) s = execVfredmax d a b m s := fun _ _ _ _ _ => rfl

theorem encode_vfredmax : ∀ d a b m, encode (.vfredmax d a b m) = Enc.vfredmax d a b m := fun _ _ _ _ => rfl

theorem exec_vfredmin : ∀ d a b m s, exec (.vfredmin d a b m) s = execVfredmin d a b m s := fun _ _ _ _ _ => rfl

theorem encode_vfredmin : ∀ d a b m, encode (.vfredmin d a b m) = Enc.vfredmin d a b m := fun _ _ _ _ => rfl

theorem exec_vfamax : ∀ d a b m s, exec (.vfamax d a b m) s = execVfamax d a b m s := fun _ _ _ _ _ => rfl

theorem encode_vfamax : ∀ d a b m, encode (.vfamax d a b m) = Enc.vfamax d a b m := fun _ _ _ _ => rfl

theorem exec_vslideup : ∀ d a sx m s, exec (.vslideup d a sx m) s = execVslideup d a sx m s := fun _ _ _ _ _ => rfl

theorem encode_vslideup : ∀ d a s m, encode (.vslideup d a s m) = Enc.vslideup d a s m := fun _ _ _ _ => rfl

theorem exec_vslidedn : ∀ d a sx m s, exec (.vslidedn d a sx m) s = execVslidedn d a sx m s := fun _ _ _ _ _ => rfl

theorem encode_vslidedn : ∀ d a s m, encode (.vslidedn d a s m) = Enc.vslidedn d a s m := fun _ _ _ _ => rfl

theorem exec_vslide1up : ∀ d a sx m s, exec (.vslide1up d a sx m) s = execVslide1up d a sx m s := fun _ _ _ _ _ => rfl

theorem encode_vslide1up : ∀ d a s m, encode (.vslide1up d a s m) = Enc.vslide1up d a s m := fun _ _ _ _ => rfl

theorem exec_vslide1dn : ∀ d a sx m s, exec (.vslide1dn d a sx m) s = execVslide1dn d a sx m s := fun _ _ _ _ _ => rfl

theorem encode_vslide1dn : ∀ d a s m, encode (.vslide1dn d a s m) = Enc.vslide1dn d a s m := fun _ _ _ _ => rfl

theorem exec_vgath : ∀ d a b m s, exec (.vgath d a b m) s = execVgath d a b m s := fun _ _ _ _ _ => rfl

theorem encode_vgath : ∀ d a b m, encode (.vgath d a b m) = Enc.vgath d a b m := fun _ _ _ _ => rfl

theorem exec_vcompress : ∀ d a b s, exec (.vcompress d a b) s = execVcompress d a b s := fun _ _ _ _ => rfl

theorem encode_vcompress : ∀ d a b, encode (.vcompress d a b) = Enc.vcompress d a b := fun _ _ _ => rfl

theorem exec_viota : ∀ d a m s, exec (.viota d a m) s = execViota d a m s := fun _ _ _ _ => rfl

theorem encode_viota : ∀ d a m, encode (.viota d a m) = Enc.viota d a m := fun _ _ _ => rfl

theorem exec_vid : ∀ d m s, exec (.vid d m) s = execVid d m s := fun _ _ _ => rfl

theorem encode_vid : ∀ d m, encode (.vid d m) = Enc.vid d m := fun _ _ => rfl

theorem exec_vmvxs : ∀ d a s, exec (.vmvxs d a) s = execVmvxs d a s := fun _ _ _ => rfl

theorem encode_vmvxs : ∀ d a, encode (.vmvxs d a) = Enc.vmvxs d a := fun _ _ => rfl

theorem exec_vmvsx : ∀ d sx s, exec (.vmvsx d sx) s = execVmvsx d sx s := fun _ _ _ => rfl

theorem encode_vmvsx : ∀ d s, encode (.vmvsx d s) = Enc.vmvsx d s := fun _ _ => rfl

theorem exec_vmand : ∀ d a b s, exec (.vmand d a b) s = execVmand d a b s := fun _ _ _ _ => rfl

theorem encode_vmand : ∀ d a b, encode (.vmand d a b) = Enc.vmand d a b := fun _ _ _ => rfl

theorem exec_vmor : ∀ d a b s, exec (.vmor d a b) s = execVmor d a b s := fun _ _ _ _ => rfl

theorem encode_vmor : ∀ d a b, encode (.vmor d a b) = Enc.vmor d a b := fun _ _ _ => rfl

theorem exec_vmxor : ∀ d a b s, exec (.vmxor d a b) s = execVmxor d a b s := fun _ _ _ _ => rfl

theorem encode_vmxor : ∀ d a b, encode (.vmxor d a b) = Enc.vmxor d a b := fun _ _ _ => rfl

theorem exec_vmandn : ∀ d a b s, exec (.vmandn d a b) s = execVmandn d a b s := fun _ _ _ _ => rfl

theorem encode_vmandn : ∀ d a b, encode (.vmandn d a b) = Enc.vmandn d a b := fun _ _ _ => rfl

theorem exec_vmnot : ∀ d a s, exec (.vmnot d a) s = execVmnot d a s := fun _ _ _ => rfl

theorem encode_vmnot : ∀ d a, encode (.vmnot d a) = Enc.vmnot d a := fun _ _ => rfl

theorem exec_vpopc : ∀ d a m s, exec (.vpopc d a m) s = execVpopc d a m s := fun _ _ _ _ => rfl

theorem encode_vpopc : ∀ d a m, encode (.vpopc d a m) = Enc.vpopc d a m := fun _ _ _ => rfl

theorem exec_vfirst : ∀ d a m s, exec (.vfirst d a m) s = execVfirst d a m s := fun _ _ _ _ => rfl

theorem encode_vfirst : ∀ d a m, encode (.vfirst d a m) = Enc.vfirst d a m := fun _ _ _ => rfl

theorem exec_vmsbf : ∀ d a m s, exec (.vmsbf d a m) s = execVmsbf d a m s := fun _ _ _ _ => rfl

theorem encode_vmsbf : ∀ d a m, encode (.vmsbf d a m) = Enc.vmsbf d a m := fun _ _ _ => rfl

theorem exec_vcvt : ∀ d a sx m c s, exec (.vcvt d a sx m c) s = execVcvt d a sx m c s := fun _ _ _ _ _ _ => rfl

theorem encode_vcvt : ∀ d a s m c, encode (.vcvt d a s m c) = Enc.vcvt d a s m c := fun _ _ _ _ _ => rfl

theorem exec_mshape : ∀ d a b o y x s, exec (.mshape d a b o y x) s = execMshape d a b o y x s := fun _ _ _ _ _ _ _ => rfl

theorem encode_mshape : ∀ d a b o y x, encode (.mshape d a b o y x) = Enc.mshape d a b o y x := fun _ _ _ _ _ _ => rfl

theorem exec_mma : ∀ d a b h s, exec (.mma d a b h) s = execMma d a b h s := fun _ _ _ _ _ => rfl

theorem encode_mma : ∀ d a b h, encode (.mma d a b h) = Enc.mma d a b h := fun _ _ _ _ => rfl

theorem exec_mmas : ∀ d a b h s, exec (.mmas d a b h) s = execMmas d a b h s := fun _ _ _ _ _ => rfl

theorem encode_mmas : ∀ d a b h, encode (.mmas d a b h) = Enc.mmas d a b h := fun _ _ _ _ => rfl

theorem exec_mmat : ∀ d a b h s, exec (.mmat d a b h) s = execMmat d a b h s := fun _ _ _ _ _ => rfl

theorem encode_mmat : ∀ d a b h, encode (.mmat d a b h) = Enc.mmat d a b h := fun _ _ _ _ => rfl

theorem exec_mzero : ∀ d h s, exec (.mzero d h) s = execMzero d h s := fun _ _ _ => rfl

theorem encode_mzero : ∀ d h, encode (.mzero d h) = Enc.mzero d h := fun _ _ => rfl

theorem exec_mstat : ∀ d c s, exec (.mstat d c) s = execMstat d c s := fun _ _ _ => rfl

theorem encode_mstat : ∀ d c, encode (.mstat d c) = Enc.mstat d c := fun _ _ => rfl

theorem exec_spawn : ∀ d a b s, exec (.spawn d a b) s = execSpawn d a b s := fun _ _ _ _ => rfl

theorem encode_spawn : ∀ d a b, encode (.spawn d a b) = Enc.spawn d a b := fun _ _ _ => rfl

theorem exec_spawnc : ∀ d a b s, exec (.spawnc d a b) s = execSpawnc d a b s := fun _ _ _ _ => rfl

theorem encode_spawnc : ∀ d a b, encode (.spawnc d a b) = Enc.spawnc d a b := fun _ _ _ => rfl

theorem exec_twait : ∀ s, exec .twait s = execTwait s := fun _ => rfl

theorem encode_twait : encode .twait = Enc.twait := rfl

theorem exec_texit : ∀ s, exec .texit s = execTexit s := fun _ => rfl

theorem encode_texit : encode .texit = Enc.texit := rfl

theorem exec_yield : ∀ s, exec .yield s = execYield s := fun _ => rfl

theorem encode_yield : encode .yield = Enc.yield := rfl

theorem exec_cntinit : ∀ d a b s, exec (.cntinit d a b) s = execCntinit d a b s := fun _ _ _ _ => rfl

theorem encode_cntinit : ∀ d a b, encode (.cntinit d a b) = Enc.cntinit d a b := fun _ _ _ => rfl

theorem exec_cntdec : ∀ a b s, exec (.cntdec a b) s = execCntdec a b s := fun _ _ _ => rfl

theorem encode_cntdec : ∀ a b, encode (.cntdec a b) = Enc.cntdec a b := fun _ _ => rfl

theorem exec_cntwait : ∀ a s, exec (.cntwait a) s = execCntwait a s := fun _ _ => rfl

theorem encode_cntwait : ∀ a, encode (.cntwait a) = Enc.cntwait a := fun _ => rfl

theorem exec_launchd : ∀ d a s, exec (.launchd d a) s = execLaunchd d a s := fun _ _ _ => rfl

theorem encode_launchd : ∀ d a, encode (.launchd d a) = Enc.launchd d a := fun _ _ => rfl

theorem exec_tself : ∀ d sx s, exec (.tself d sx) s = execTself d sx s := fun _ _ _ => rfl

theorem encode_tself : ∀ d s, encode (.tself d s) = Enc.tself d s := fun _ _ => rfl

theorem exec_dbegin : ∀ d a s, exec (.dbegin d a) s = execDbegin d a s := fun _ _ _ => rfl

theorem encode_dbegin : ∀ d a, encode (.dbegin d a) = Enc.dbegin d a := fun _ _ => rfl

theorem exec_dpresSnap : ∀ a b s, exec (.dpresSnap a b) s = execDpresSnap a b s := fun _ _ _ => rfl

theorem encode_dpresSnap : ∀ a b, encode (.dpresSnap a b) = Enc.dpresSnap a b := fun _ _ => rfl

theorem exec_dpresHold : ∀ a b s, exec (.dpresHold a b) s = execDpresHold a b s := fun _ _ _ => rfl

theorem encode_dpresHold : ∀ a b, encode (.dpresHold a b) = Enc.dpresHold a b := fun _ _ => rfl

theorem exec_dend : ∀ s, exec .dend s = execDend s := fun _ => rfl

theorem encode_dend : encode .dend = Enc.dend := rfl

theorem exec_dchk : ∀ a b s, exec (.dchk a b) s = execDchk a b s := fun _ _ _ => rfl

theorem encode_dchk : ∀ a b, encode (.dchk a b) = Enc.dchk a b := fun _ _ => rfl

theorem exec_dabort : ∀ a s, exec (.dabort a) s = execDabort a s := fun _ _ => rfl

theorem encode_dabort : ∀ a, encode (.dabort a) = Enc.dabort a := fun _ => rfl

theorem exec_dlevel : ∀ d sx s, exec (.dlevel d sx) s = execDlevel d sx s := fun _ _ _ => rfl

theorem encode_dlevel : ∀ d s, encode (.dlevel d s) = Enc.dlevel d s := fun _ _ => rfl

theorem exec_lend : ∀ a b s, exec (.lend a b) s = execLend a b s := fun _ _ _ => rfl

theorem encode_lend : ∀ a b, encode (.lend a b) = Enc.lend a b := fun _ _ => rfl

theorem exec_unlend : ∀ a b s, exec (.unlend a b) s = execUnlend a b s := fun _ _ _ => rfl

theorem encode_unlend : ∀ a b, encode (.unlend a b) = Enc.unlend a b := fun _ _ => rfl

theorem exec_hstat : ∀ d sx s, exec (.hstat d sx) s = execHstat d sx s := fun _ _ _ => rfl

theorem encode_hstat : ∀ d s, encode (.hstat d s) = Enc.hstat d s := fun _ _ => rfl

theorem exec_qpost : ∀ d a s, exec (.qpost d a) s = execQpost d a s := fun _ _ _ => rfl

theorem encode_qpost : ∀ d a, encode (.qpost d a) = Enc.qpost d a := fun _ _ => rfl

theorem exec_qwait : ∀ d a b s, exec (.qwait d a b) s = execQwait d a b s := fun _ _ _ _ => rfl

theorem encode_qwait : ∀ d a b, encode (.qwait d a b) = Enc.qwait d a b := fun _ _ _ => rfl

theorem exec_qstart : ∀ d a b s, exec (.qstart d a b) s = execQstart d a b s := fun _ _ _ _ => rfl

theorem encode_qstart : ∀ d a b, encode (.qstart d a b) = Enc.qstart d a b := fun _ _ _ => rfl

theorem exec_qstat : ∀ d a sx s, exec (.qstat d a sx) s = execQstat d a sx s := fun _ _ _ _ => rfl

theorem encode_qstat : ∀ d a s, encode (.qstat d a s) = Enc.qstat d a s := fun _ _ _ => rfl

theorem exec_qresync : ∀ d a b s, exec (.qresync d a b) s = execQresync d a b s := fun _ _ _ _ => rfl

theorem encode_qresync : ∀ d a b, encode (.qresync d a b) = Enc.qresync d a b := fun _ _ _ => rfl

theorem exec_immx : ∀ p s, exec (.immx p) s = execImmx p s := fun _ _ => rfl

theorem encode_immx : ∀ p, encode (.immx p) = Enc.immx p := fun _ => rfl

theorem exec_hcache : ∀ p s, exec (.hcache p) s = execHcache p s := fun _ _ => rfl

theorem encode_hcache : ∀ p, encode (.hcache p) = Enc.hcache p := fun _ => rfl

theorem exec_hsched : ∀ o s, exec (.hsched o) s = execHsched o s := fun _ _ => rfl

theorem encode_hsched : ∀ o, encode (.hsched o) = Enc.hsched o := fun _ => rfl

theorem exec_hmod : ∀ o sx r m s, exec (.hmod o sx r m) s = execHmod o sx r m s := fun _ _ _ _ _ => rfl

theorem encode_hmod : ∀ o s r m, encode (.hmod o s r m) = Enc.hmod o s r m := fun _ _ _ _ => rfl

theorem exec_hnop : ∀ p s, exec (.hnop p) s = execHnop p s := fun _ _ => rfl

theorem encode_hnop : ∀ p, encode (.hnop p) = Enc.hnop p := fun _ => rfl

end Sys2Proof.Laws
end

