-- ==== Sys2Proof/Laws/Fields.lean ====
section
/-! SUPPORT. The fields of an encoded word, one lemma for each part of each form of the encoding (R272). -/

namespace Sys2Proof.Laws

/-- A field below the cut of two joined bit strings. -/
theorem field_lo {v n : Nat} (x : BitVec v) (y : BitVec n) (lo k : Nat) (h : lo + k ≤ n) :
    (x ++ y).extractLsb' lo k = y.extractLsb' lo k := by
  apply BitVec.eq_of_getLsbD_eq
  intro i hi
  simp only [BitVec.getLsbD_extractLsb', BitVec.getLsbD_append]
  rw [if_pos (by omega)]

/-- A field above the cut of two joined bit strings. -/
theorem field_hi {v n : Nat} (x : BitVec v) (y : BitVec n) (lo k : Nat) (h : n ≤ lo) :
    (x ++ y).extractLsb' lo k = x.extractLsb' (lo - n) k := by
  apply BitVec.eq_of_getLsbD_eq
  intro i hi
  simp only [BitVec.getLsbD_extractLsb', BitVec.getLsbD_append]
  rw [if_neg (by omega)]
  congr 2
  omega

theorem sh7_5_5_5_10_0 (x0 : BitVec 7) (x1 : BitVec 5) (x2 : BitVec 5) (x3 : BitVec 5) (x4 : BitVec 10) (lo k : Nat) (h : 25 ≤ lo) :
    fld (x0 ++ x1 ++ x2 ++ x3 ++ x4) lo k = x0.extractLsb' (lo - 25) k := by
  unfold fld
  rw [field_hi _ _ _ _ (by omega), field_hi _ _ _ _ (by omega), field_hi _ _ _ _ (by omega), field_hi _ _ _ _ (by omega)]
  simp only [Nat.sub_sub]

theorem sh7_5_5_5_10_1 (x0 : BitVec 7) (x1 : BitVec 5) (x2 : BitVec 5) (x3 : BitVec 5) (x4 : BitVec 10) (lo k : Nat) (h : 20 ≤ lo) (h2 : lo + k ≤ 25) :
    fld (x0 ++ x1 ++ x2 ++ x3 ++ x4) lo k = x1.extractLsb' (lo - 20) k := by
  unfold fld
  rw [field_hi _ _ _ _ (by omega), field_hi _ _ _ _ (by omega), field_hi _ _ _ _ (by omega), field_lo _ _ _ _ (by omega)]
  simp only [Nat.sub_sub]

theorem sh7_5_5_5_10_2 (x0 : BitVec 7) (x1 : BitVec 5) (x2 : BitVec 5) (x3 : BitVec 5) (x4 : BitVec 10) (lo k : Nat) (h : 15 ≤ lo) (h2 : lo + k ≤ 20) :
    fld (x0 ++ x1 ++ x2 ++ x3 ++ x4) lo k = x2.extractLsb' (lo - 15) k := by
  unfold fld
  rw [field_hi _ _ _ _ (by omega), field_hi _ _ _ _ (by omega), field_lo _ _ _ _ (by omega)]
  simp only [Nat.sub_sub]

theorem sh7_5_5_5_10_3 (x0 : BitVec 7) (x1 : BitVec 5) (x2 : BitVec 5) (x3 : BitVec 5) (x4 : BitVec 10) (lo k : Nat) (h : 10 ≤ lo) (h2 : lo + k ≤ 15) :
    fld (x0 ++ x1 ++ x2 ++ x3 ++ x4) lo k = x3.extractLsb' (lo - 10) k := by
  unfold fld
  rw [field_hi _ _ _ _ (by omega), field_lo _ _ _ _ (by omega)]

theorem sh7_5_5_5_10_4 (x0 : BitVec 7) (x1 : BitVec 5) (x2 : BitVec 5) (x3 : BitVec 5) (x4 : BitVec 10) (lo k : Nat) (h2 : lo + k ≤ 10) :
    fld (x0 ++ x1 ++ x2 ++ x3 ++ x4) lo k = x4.extractLsb' (lo) k := by
  unfold fld
  rw [field_lo _ _ _ _ (by omega)]

theorem sh7_5_5_15_0 (x0 : BitVec 7) (x1 : BitVec 5) (x2 : BitVec 5) (x3 : BitVec 15) (lo k : Nat) (h : 25 ≤ lo) :
    fld (x0 ++ x1 ++ x2 ++ x3) lo k = x0.extractLsb' (lo - 25) k := by
  unfold fld
  rw [field_hi _ _ _ _ (by omega), field_hi _ _ _ _ (by omega), field_hi _ _ _ _ (by omega)]
  simp only [Nat.sub_sub]

theorem sh7_5_5_15_1 (x0 : BitVec 7) (x1 : BitVec 5) (x2 : BitVec 5) (x3 : BitVec 15) (lo k : Nat) (h : 20 ≤ lo) (h2 : lo + k ≤ 25) :
    fld (x0 ++ x1 ++ x2 ++ x3) lo k = x1.extractLsb' (lo - 20) k := by
  unfold fld
  rw [field_hi _ _ _ _ (by omega), field_hi _ _ _ _ (by omega), field_lo _ _ _ _ (by omega)]
  simp only [Nat.sub_sub]

theorem sh7_5_5_15_2 (x0 : BitVec 7) (x1 : BitVec 5) (x2 : BitVec 5) (x3 : BitVec 15) (lo k : Nat) (h : 15 ≤ lo) (h2 : lo + k ≤ 20) :
    fld (x0 ++ x1 ++ x2 ++ x3) lo k = x2.extractLsb' (lo - 15) k := by
  unfold fld
  rw [field_hi _ _ _ _ (by omega), field_lo _ _ _ _ (by omega)]

theorem sh7_5_5_15_3 (x0 : BitVec 7) (x1 : BitVec 5) (x2 : BitVec 5) (x3 : BitVec 15) (lo k : Nat) (h2 : lo + k ≤ 15) :
    fld (x0 ++ x1 ++ x2 ++ x3) lo k = x3.extractLsb' (lo) k := by
  unfold fld
  rw [field_lo _ _ _ _ (by omega)]

theorem sh7_5_5_9_6_0 (x0 : BitVec 7) (x1 : BitVec 5) (x2 : BitVec 5) (x3 : BitVec 9) (x4 : BitVec 6) (lo k : Nat) (h : 25 ≤ lo) :
    fld (x0 ++ x1 ++ x2 ++ x3 ++ x4) lo k = x0.extractLsb' (lo - 25) k := by
  unfold fld
  rw [field_hi _ _ _ _ (by omega), field_hi _ _ _ _ (by omega), field_hi _ _ _ _ (by omega), field_hi _ _ _ _ (by omega)]
  simp only [Nat.sub_sub]

theorem sh7_5_5_9_6_1 (x0 : BitVec 7) (x1 : BitVec 5) (x2 : BitVec 5) (x3 : BitVec 9) (x4 : BitVec 6) (lo k : Nat) (h : 20 ≤ lo) (h2 : lo + k ≤ 25) :
    fld (x0 ++ x1 ++ x2 ++ x3 ++ x4) lo k = x1.extractLsb' (lo - 20) k := by
  unfold fld
  rw [field_hi _ _ _ _ (by omega), field_hi _ _ _ _ (by omega), field_hi _ _ _ _ (by omega), field_lo _ _ _ _ (by omega)]
  simp only [Nat.sub_sub]

theorem sh7_5_5_9_6_2 (x0 : BitVec 7) (x1 : BitVec 5) (x2 : BitVec 5) (x3 : BitVec 9) (x4 : BitVec 6) (lo k : Nat) (h : 15 ≤ lo) (h2 : lo + k ≤ 20) :
    fld (x0 ++ x1 ++ x2 ++ x3 ++ x4) lo k = x2.extractLsb' (lo - 15) k := by
  unfold fld
  rw [field_hi _ _ _ _ (by omega), field_hi _ _ _ _ (by omega), field_lo _ _ _ _ (by omega)]
  simp only [Nat.sub_sub]

theorem sh7_5_5_9_6_3 (x0 : BitVec 7) (x1 : BitVec 5) (x2 : BitVec 5) (x3 : BitVec 9) (x4 : BitVec 6) (lo k : Nat) (h : 6 ≤ lo) (h2 : lo + k ≤ 15) :
    fld (x0 ++ x1 ++ x2 ++ x3 ++ x4) lo k = x3.extractLsb' (lo - 6) k := by
  unfold fld
  rw [field_hi _ _ _ _ (by omega), field_lo _ _ _ _ (by omega)]

theorem sh7_5_5_9_6_4 (x0 : BitVec 7) (x1 : BitVec 5) (x2 : BitVec 5) (x3 : BitVec 9) (x4 : BitVec 6) (lo k : Nat) (h2 : lo + k ≤ 6) :
    fld (x0 ++ x1 ++ x2 ++ x3 ++ x4) lo k = x4.extractLsb' (lo) k := by
  unfold fld
  rw [field_lo _ _ _ _ (by omega)]

theorem sh7_5_5_5_1_1_8_0 (x0 : BitVec 7) (x1 : BitVec 5) (x2 : BitVec 5) (x3 : BitVec 5) (x4 : BitVec 1) (x5 : BitVec 1) (x6 : BitVec 8) (lo k : Nat) (h : 25 ≤ lo) :
    fld (x0 ++ x1 ++ x2 ++ x3 ++ x4 ++ x5 ++ x6) lo k = x0.extractLsb' (lo - 25) k := by
  unfold fld
  rw [field_hi _ _ _ _ (by omega), field_hi _ _ _ _ (by omega), field_hi _ _ _ _ (by omega), field_hi _ _ _ _ (by omega), field_hi _ _ _ _ (by omega), field_hi _ _ _ _ (by omega)]
  simp only [Nat.sub_sub]

theorem sh7_5_5_5_1_1_8_1 (x0 : BitVec 7) (x1 : BitVec 5) (x2 : BitVec 5) (x3 : BitVec 5) (x4 : BitVec 1) (x5 : BitVec 1) (x6 : BitVec 8) (lo k : Nat) (h : 20 ≤ lo) (h2 : lo + k ≤ 25) :
    fld (x0 ++ x1 ++ x2 ++ x3 ++ x4 ++ x5 ++ x6) lo k = x1.extractLsb' (lo - 20) k := by
  unfold fld
  rw [field_hi _ _ _ _ (by omega), field_hi _ _ _ _ (by omega), field_hi _ _ _ _ (by omega), field_hi _ _ _ _ (by omega), field_hi _ _ _ _ (by omega), field_lo _ _ _ _ (by omega)]
  simp only [Nat.sub_sub]

theorem sh7_5_5_5_1_1_8_2 (x0 : BitVec 7) (x1 : BitVec 5) (x2 : BitVec 5) (x3 : BitVec 5) (x4 : BitVec 1) (x5 : BitVec 1) (x6 : BitVec 8) (lo k : Nat) (h : 15 ≤ lo) (h2 : lo + k ≤ 20) :
    fld (x0 ++ x1 ++ x2 ++ x3 ++ x4 ++ x5 ++ x6) lo k = x2.extractLsb' (lo - 15) k := by
  unfold fld
  rw [field_hi _ _ _ _ (by omega), field_hi _ _ _ _ (by omega), field_hi _ _ _ _ (by omega), field_hi _ _ _ _ (by omega), field_lo _ _ _ _ (by omega)]
  simp only [Nat.sub_sub]

theorem sh7_5_5_5_1_1_8_3 (x0 : BitVec 7) (x1 : BitVec 5) (x2 : BitVec 5) (x3 : BitVec 5) (x4 : BitVec 1) (x5 : BitVec 1) (x6 : BitVec 8) (lo k : Nat) (h : 10 ≤ lo) (h2 : lo + k ≤ 15) :
    fld (x0 ++ x1 ++ x2 ++ x3 ++ x4 ++ x5 ++ x6) lo k = x3.extractLsb' (lo - 10) k := by
  unfold fld
  rw [field_hi _ _ _ _ (by omega), field_hi _ _ _ _ (by omega), field_hi _ _ _ _ (by omega), field_lo _ _ _ _ (by omega)]
  simp only [Nat.sub_sub]

theorem sh7_5_5_5_1_1_8_4 (x0 : BitVec 7) (x1 : BitVec 5) (x2 : BitVec 5) (x3 : BitVec 5) (x4 : BitVec 1) (x5 : BitVec 1) (x6 : BitVec 8) (lo k : Nat) (h : 9 ≤ lo) (h2 : lo + k ≤ 10) :
    fld (x0 ++ x1 ++ x2 ++ x3 ++ x4 ++ x5 ++ x6) lo k = x4.extractLsb' (lo - 9) k := by
  unfold fld
  rw [field_hi _ _ _ _ (by omega), field_hi _ _ _ _ (by omega), field_lo _ _ _ _ (by omega)]
  simp only [Nat.sub_sub]

theorem sh7_5_5_5_1_1_8_5 (x0 : BitVec 7) (x1 : BitVec 5) (x2 : BitVec 5) (x3 : BitVec 5) (x4 : BitVec 1) (x5 : BitVec 1) (x6 : BitVec 8) (lo k : Nat) (h : 8 ≤ lo) (h2 : lo + k ≤ 9) :
    fld (x0 ++ x1 ++ x2 ++ x3 ++ x4 ++ x5 ++ x6) lo k = x5.extractLsb' (lo - 8) k := by
  unfold fld
  rw [field_hi _ _ _ _ (by omega), field_lo _ _ _ _ (by omega)]

theorem sh7_5_5_5_1_1_8_6 (x0 : BitVec 7) (x1 : BitVec 5) (x2 : BitVec 5) (x3 : BitVec 5) (x4 : BitVec 1) (x5 : BitVec 1) (x6 : BitVec 8) (lo k : Nat) (h2 : lo + k ≤ 8) :
    fld (x0 ++ x1 ++ x2 ++ x3 ++ x4 ++ x5 ++ x6) lo k = x6.extractLsb' (lo) k := by
  unfold fld
  rw [field_lo _ _ _ _ (by omega)]

theorem sh7_5_5_6_1_8_0 (x0 : BitVec 7) (x1 : BitVec 5) (x2 : BitVec 5) (x3 : BitVec 6) (x4 : BitVec 1) (x5 : BitVec 8) (lo k : Nat) (h : 25 ≤ lo) :
    fld (x0 ++ x1 ++ x2 ++ x3 ++ x4 ++ x5) lo k = x0.extractLsb' (lo - 25) k := by
  unfold fld
  rw [field_hi _ _ _ _ (by omega), field_hi _ _ _ _ (by omega), field_hi _ _ _ _ (by omega), field_hi _ _ _ _ (by omega), field_hi _ _ _ _ (by omega)]
  simp only [Nat.sub_sub]

theorem sh7_5_5_6_1_8_1 (x0 : BitVec 7) (x1 : BitVec 5) (x2 : BitVec 5) (x3 : BitVec 6) (x4 : BitVec 1) (x5 : BitVec 8) (lo k : Nat) (h : 20 ≤ lo) (h2 : lo + k ≤ 25) :
    fld (x0 ++ x1 ++ x2 ++ x3 ++ x4 ++ x5) lo k = x1.extractLsb' (lo - 20) k := by
  unfold fld
  rw [field_hi _ _ _ _ (by omega), field_hi _ _ _ _ (by omega), field_hi _ _ _ _ (by omega), field_hi _ _ _ _ (by omega), field_lo _ _ _ _ (by omega)]
  simp only [Nat.sub_sub]

theorem sh7_5_5_6_1_8_2 (x0 : BitVec 7) (x1 : BitVec 5) (x2 : BitVec 5) (x3 : BitVec 6) (x4 : BitVec 1) (x5 : BitVec 8) (lo k : Nat) (h : 15 ≤ lo) (h2 : lo + k ≤ 20) :
    fld (x0 ++ x1 ++ x2 ++ x3 ++ x4 ++ x5) lo k = x2.extractLsb' (lo - 15) k := by
  unfold fld
  rw [field_hi _ _ _ _ (by omega), field_hi _ _ _ _ (by omega), field_hi _ _ _ _ (by omega), field_lo _ _ _ _ (by omega)]
  simp only [Nat.sub_sub]

theorem sh7_5_5_6_1_8_3 (x0 : BitVec 7) (x1 : BitVec 5) (x2 : BitVec 5) (x3 : BitVec 6) (x4 : BitVec 1) (x5 : BitVec 8) (lo k : Nat) (h : 9 ≤ lo) (h2 : lo + k ≤ 15) :
    fld (x0 ++ x1 ++ x2 ++ x3 ++ x4 ++ x5) lo k = x3.extractLsb' (lo - 9) k := by
  unfold fld
  rw [field_hi _ _ _ _ (by omega), field_hi _ _ _ _ (by omega), field_lo _ _ _ _ (by omega)]
  simp only [Nat.sub_sub]

theorem sh7_5_5_6_1_8_4 (x0 : BitVec 7) (x1 : BitVec 5) (x2 : BitVec 5) (x3 : BitVec 6) (x4 : BitVec 1) (x5 : BitVec 8) (lo k : Nat) (h : 8 ≤ lo) (h2 : lo + k ≤ 9) :
    fld (x0 ++ x1 ++ x2 ++ x3 ++ x4 ++ x5) lo k = x4.extractLsb' (lo - 8) k := by
  unfold fld
  rw [field_hi _ _ _ _ (by omega), field_lo _ _ _ _ (by omega)]

theorem sh7_5_5_6_1_8_5 (x0 : BitVec 7) (x1 : BitVec 5) (x2 : BitVec 5) (x3 : BitVec 6) (x4 : BitVec 1) (x5 : BitVec 8) (lo k : Nat) (h2 : lo + k ≤ 8) :
    fld (x0 ++ x1 ++ x2 ++ x3 ++ x4 ++ x5) lo k = x5.extractLsb' (lo) k := by
  unfold fld
  rw [field_lo _ _ _ _ (by omega)]

theorem sh7_5_5_5_2_5_3_0 (x0 : BitVec 7) (x1 : BitVec 5) (x2 : BitVec 5) (x3 : BitVec 5) (x4 : BitVec 2) (x5 : BitVec 5) (x6 : BitVec 3) (lo k : Nat) (h : 25 ≤ lo) :
    fld (x0 ++ x1 ++ x2 ++ x3 ++ x4 ++ x5 ++ x6) lo k = x0.extractLsb' (lo - 25) k := by
  unfold fld
  rw [field_hi _ _ _ _ (by omega), field_hi _ _ _ _ (by omega), field_hi _ _ _ _ (by omega), field_hi _ _ _ _ (by omega), field_hi _ _ _ _ (by omega), field_hi _ _ _ _ (by omega)]
  simp only [Nat.sub_sub]

theorem sh7_5_5_5_2_5_3_1 (x0 : BitVec 7) (x1 : BitVec 5) (x2 : BitVec 5) (x3 : BitVec 5) (x4 : BitVec 2) (x5 : BitVec 5) (x6 : BitVec 3) (lo k : Nat) (h : 20 ≤ lo) (h2 : lo + k ≤ 25) :
    fld (x0 ++ x1 ++ x2 ++ x3 ++ x4 ++ x5 ++ x6) lo k = x1.extractLsb' (lo - 20) k := by
  unfold fld
  rw [field_hi _ _ _ _ (by omega), field_hi _ _ _ _ (by omega), field_hi _ _ _ _ (by omega), field_hi _ _ _ _ (by omega), field_hi _ _ _ _ (by omega), field_lo _ _ _ _ (by omega)]
  simp only [Nat.sub_sub]

theorem sh7_5_5_5_2_5_3_2 (x0 : BitVec 7) (x1 : BitVec 5) (x2 : BitVec 5) (x3 : BitVec 5) (x4 : BitVec 2) (x5 : BitVec 5) (x6 : BitVec 3) (lo k : Nat) (h : 15 ≤ lo) (h2 : lo + k ≤ 20) :
    fld (x0 ++ x1 ++ x2 ++ x3 ++ x4 ++ x5 ++ x6) lo k = x2.extractLsb' (lo - 15) k := by
  unfold fld
  rw [field_hi _ _ _ _ (by omega), field_hi _ _ _ _ (by omega), field_hi _ _ _ _ (by omega), field_hi _ _ _ _ (by omega), field_lo _ _ _ _ (by omega)]
  simp only [Nat.sub_sub]

theorem sh7_5_5_5_2_5_3_3 (x0 : BitVec 7) (x1 : BitVec 5) (x2 : BitVec 5) (x3 : BitVec 5) (x4 : BitVec 2) (x5 : BitVec 5) (x6 : BitVec 3) (lo k : Nat) (h : 10 ≤ lo) (h2 : lo + k ≤ 15) :
    fld (x0 ++ x1 ++ x2 ++ x3 ++ x4 ++ x5 ++ x6) lo k = x3.extractLsb' (lo - 10) k := by
  unfold fld
  rw [field_hi _ _ _ _ (by omega), field_hi _ _ _ _ (by omega), field_hi _ _ _ _ (by omega), field_lo _ _ _ _ (by omega)]
  simp only [Nat.sub_sub]

theorem sh7_5_5_5_2_5_3_4 (x0 : BitVec 7) (x1 : BitVec 5) (x2 : BitVec 5) (x3 : BitVec 5) (x4 : BitVec 2) (x5 : BitVec 5) (x6 : BitVec 3) (lo k : Nat) (h : 8 ≤ lo) (h2 : lo + k ≤ 10) :
    fld (x0 ++ x1 ++ x2 ++ x3 ++ x4 ++ x5 ++ x6) lo k = x4.extractLsb' (lo - 8) k := by
  unfold fld
  rw [field_hi _ _ _ _ (by omega), field_hi _ _ _ _ (by omega), field_lo _ _ _ _ (by omega)]
  simp only [Nat.sub_sub]

theorem sh7_5_5_5_2_5_3_5 (x0 : BitVec 7) (x1 : BitVec 5) (x2 : BitVec 5) (x3 : BitVec 5) (x4 : BitVec 2) (x5 : BitVec 5) (x6 : BitVec 3) (lo k : Nat) (h : 3 ≤ lo) (h2 : lo + k ≤ 8) :
    fld (x0 ++ x1 ++ x2 ++ x3 ++ x4 ++ x5 ++ x6) lo k = x5.extractLsb' (lo - 3) k := by
  unfold fld
  rw [field_hi _ _ _ _ (by omega), field_lo _ _ _ _ (by omega)]

theorem sh7_5_5_5_2_5_3_6 (x0 : BitVec 7) (x1 : BitVec 5) (x2 : BitVec 5) (x3 : BitVec 5) (x4 : BitVec 2) (x5 : BitVec 5) (x6 : BitVec 3) (lo k : Nat) (h2 : lo + k ≤ 3) :
    fld (x0 ++ x1 ++ x2 ++ x3 ++ x4 ++ x5 ++ x6) lo k = x6.extractLsb' (lo) k := by
  unfold fld
  rw [field_lo _ _ _ _ (by omega)]

theorem sh11_1_5_15_0 (x0 : BitVec 11) (x1 : BitVec 1) (x2 : BitVec 5) (x3 : BitVec 15) (lo k : Nat) (h : 21 ≤ lo) :
    fld (x0 ++ x1 ++ x2 ++ x3) lo k = x0.extractLsb' (lo - 21) k := by
  unfold fld
  rw [field_hi _ _ _ _ (by omega), field_hi _ _ _ _ (by omega), field_hi _ _ _ _ (by omega)]
  simp only [Nat.sub_sub]

theorem sh11_1_5_15_1 (x0 : BitVec 11) (x1 : BitVec 1) (x2 : BitVec 5) (x3 : BitVec 15) (lo k : Nat) (h : 20 ≤ lo) (h2 : lo + k ≤ 21) :
    fld (x0 ++ x1 ++ x2 ++ x3) lo k = x1.extractLsb' (lo - 20) k := by
  unfold fld
  rw [field_hi _ _ _ _ (by omega), field_hi _ _ _ _ (by omega), field_lo _ _ _ _ (by omega)]
  simp only [Nat.sub_sub]

theorem sh11_1_5_15_2 (x0 : BitVec 11) (x1 : BitVec 1) (x2 : BitVec 5) (x3 : BitVec 15) (lo k : Nat) (h : 15 ≤ lo) (h2 : lo + k ≤ 20) :
    fld (x0 ++ x1 ++ x2 ++ x3) lo k = x2.extractLsb' (lo - 15) k := by
  unfold fld
  rw [field_hi _ _ _ _ (by omega), field_lo _ _ _ _ (by omega)]

theorem sh11_1_5_15_3 (x0 : BitVec 11) (x1 : BitVec 1) (x2 : BitVec 5) (x3 : BitVec 15) (lo k : Nat) (h2 : lo + k ≤ 15) :
    fld (x0 ++ x1 ++ x2 ++ x3) lo k = x3.extractLsb' (lo) k := by
  unfold fld
  rw [field_lo _ _ _ _ (by omega)]

theorem sh7_5_20_0 (x0 : BitVec 7) (x1 : BitVec 5) (x2 : BitVec 20) (lo k : Nat) (h : 25 ≤ lo) :
    fld (x0 ++ x1 ++ x2) lo k = x0.extractLsb' (lo - 25) k := by
  unfold fld
  rw [field_hi _ _ _ _ (by omega), field_hi _ _ _ _ (by omega)]
  simp only [Nat.sub_sub]

theorem sh7_5_20_1 (x0 : BitVec 7) (x1 : BitVec 5) (x2 : BitVec 20) (lo k : Nat) (h : 20 ≤ lo) (h2 : lo + k ≤ 25) :
    fld (x0 ++ x1 ++ x2) lo k = x1.extractLsb' (lo - 20) k := by
  unfold fld
  rw [field_hi _ _ _ _ (by omega), field_lo _ _ _ _ (by omega)]

theorem sh7_5_20_2 (x0 : BitVec 7) (x1 : BitVec 5) (x2 : BitVec 20) (lo k : Nat) (h2 : lo + k ≤ 20) :
    fld (x0 ++ x1 ++ x2) lo k = x2.extractLsb' (lo) k := by
  unfold fld
  rw [field_lo _ _ _ _ (by omega)]

theorem sh7_5_5_2_13_0 (x0 : BitVec 7) (x1 : BitVec 5) (x2 : BitVec 5) (x3 : BitVec 2) (x4 : BitVec 13) (lo k : Nat) (h : 25 ≤ lo) :
    fld (x0 ++ x1 ++ x2 ++ x3 ++ x4) lo k = x0.extractLsb' (lo - 25) k := by
  unfold fld
  rw [field_hi _ _ _ _ (by omega), field_hi _ _ _ _ (by omega), field_hi _ _ _ _ (by omega), field_hi _ _ _ _ (by omega)]
  simp only [Nat.sub_sub]

theorem sh7_5_5_2_13_1 (x0 : BitVec 7) (x1 : BitVec 5) (x2 : BitVec 5) (x3 : BitVec 2) (x4 : BitVec 13) (lo k : Nat) (h : 20 ≤ lo) (h2 : lo + k ≤ 25) :
    fld (x0 ++ x1 ++ x2 ++ x3 ++ x4) lo k = x1.extractLsb' (lo - 20) k := by
  unfold fld
  rw [field_hi _ _ _ _ (by omega), field_hi _ _ _ _ (by omega), field_hi _ _ _ _ (by omega), field_lo _ _ _ _ (by omega)]
  simp only [Nat.sub_sub]

theorem sh7_5_5_2_13_2 (x0 : BitVec 7) (x1 : BitVec 5) (x2 : BitVec 5) (x3 : BitVec 2) (x4 : BitVec 13) (lo k : Nat) (h : 15 ≤ lo) (h2 : lo + k ≤ 20) :
    fld (x0 ++ x1 ++ x2 ++ x3 ++ x4) lo k = x2.extractLsb' (lo - 15) k := by
  unfold fld
  rw [field_hi _ _ _ _ (by omega), field_hi _ _ _ _ (by omega), field_lo _ _ _ _ (by omega)]
  simp only [Nat.sub_sub]

theorem sh7_5_5_2_13_3 (x0 : BitVec 7) (x1 : BitVec 5) (x2 : BitVec 5) (x3 : BitVec 2) (x4 : BitVec 13) (lo k : Nat) (h : 13 ≤ lo) (h2 : lo + k ≤ 15) :
    fld (x0 ++ x1 ++ x2 ++ x3 ++ x4) lo k = x3.extractLsb' (lo - 13) k := by
  unfold fld
  rw [field_hi _ _ _ _ (by omega), field_lo _ _ _ _ (by omega)]

theorem sh7_5_5_2_13_4 (x0 : BitVec 7) (x1 : BitVec 5) (x2 : BitVec 5) (x3 : BitVec 2) (x4 : BitVec 13) (lo k : Nat) (h2 : lo + k ≤ 13) :
    fld (x0 ++ x1 ++ x2 ++ x3 ++ x4) lo k = x4.extractLsb' (lo) k := by
  unfold fld
  rw [field_lo _ _ _ _ (by omega)]

theorem sh7_5_5_1_1_13_0 (x0 : BitVec 7) (x1 : BitVec 5) (x2 : BitVec 5) (x3 : BitVec 1) (x4 : BitVec 1) (x5 : BitVec 13) (lo k : Nat) (h : 25 ≤ lo) :
    fld (x0 ++ x1 ++ x2 ++ x3 ++ x4 ++ x5) lo k = x0.extractLsb' (lo - 25) k := by
  unfold fld
  rw [field_hi _ _ _ _ (by omega), field_hi _ _ _ _ (by omega), field_hi _ _ _ _ (by omega), field_hi _ _ _ _ (by omega), field_hi _ _ _ _ (by omega)]
  simp only [Nat.sub_sub]

theorem sh7_5_5_1_1_13_1 (x0 : BitVec 7) (x1 : BitVec 5) (x2 : BitVec 5) (x3 : BitVec 1) (x4 : BitVec 1) (x5 : BitVec 13) (lo k : Nat) (h : 20 ≤ lo) (h2 : lo + k ≤ 25) :
    fld (x0 ++ x1 ++ x2 ++ x3 ++ x4 ++ x5) lo k = x1.extractLsb' (lo - 20) k := by
  unfold fld
  rw [field_hi _ _ _ _ (by omega), field_hi _ _ _ _ (by omega), field_hi _ _ _ _ (by omega), field_hi _ _ _ _ (by omega), field_lo _ _ _ _ (by omega)]
  simp only [Nat.sub_sub]

theorem sh7_5_5_1_1_13_2 (x0 : BitVec 7) (x1 : BitVec 5) (x2 : BitVec 5) (x3 : BitVec 1) (x4 : BitVec 1) (x5 : BitVec 13) (lo k : Nat) (h : 15 ≤ lo) (h2 : lo + k ≤ 20) :
    fld (x0 ++ x1 ++ x2 ++ x3 ++ x4 ++ x5) lo k = x2.extractLsb' (lo - 15) k := by
  unfold fld
  rw [field_hi _ _ _ _ (by omega), field_hi _ _ _ _ (by omega), field_hi _ _ _ _ (by omega), field_lo _ _ _ _ (by omega)]
  simp only [Nat.sub_sub]

theorem sh7_5_5_1_1_13_3 (x0 : BitVec 7) (x1 : BitVec 5) (x2 : BitVec 5) (x3 : BitVec 1) (x4 : BitVec 1) (x5 : BitVec 13) (lo k : Nat) (h : 14 ≤ lo) (h2 : lo + k ≤ 15) :
    fld (x0 ++ x1 ++ x2 ++ x3 ++ x4 ++ x5) lo k = x3.extractLsb' (lo - 14) k := by
  unfold fld
  rw [field_hi _ _ _ _ (by omega), field_hi _ _ _ _ (by omega), field_lo _ _ _ _ (by omega)]
  simp only [Nat.sub_sub]

theorem sh7_5_5_1_1_13_4 (x0 : BitVec 7) (x1 : BitVec 5) (x2 : BitVec 5) (x3 : BitVec 1) (x4 : BitVec 1) (x5 : BitVec 13) (lo k : Nat) (h : 13 ≤ lo) (h2 : lo + k ≤ 14) :
    fld (x0 ++ x1 ++ x2 ++ x3 ++ x4 ++ x5) lo k = x4.extractLsb' (lo - 13) k := by
  unfold fld
  rw [field_hi _ _ _ _ (by omega), field_lo _ _ _ _ (by omega)]

theorem sh7_5_5_1_1_13_5 (x0 : BitVec 7) (x1 : BitVec 5) (x2 : BitVec 5) (x3 : BitVec 1) (x4 : BitVec 1) (x5 : BitVec 13) (lo k : Nat) (h2 : lo + k ≤ 13) :
    fld (x0 ++ x1 ++ x2 ++ x3 ++ x4 ++ x5) lo k = x5.extractLsb' (lo) k := by
  unfold fld
  rw [field_lo _ _ _ _ (by omega)]

theorem sh19_3_10_0 (x0 : BitVec 19) (x1 : BitVec 3) (x2 : BitVec 10) (lo k : Nat) (h : 13 ≤ lo) :
    fld (x0 ++ x1 ++ x2) lo k = x0.extractLsb' (lo - 13) k := by
  unfold fld
  rw [field_hi _ _ _ _ (by omega), field_hi _ _ _ _ (by omega)]
  simp only [Nat.sub_sub]

theorem sh19_3_10_1 (x0 : BitVec 19) (x1 : BitVec 3) (x2 : BitVec 10) (lo k : Nat) (h : 10 ≤ lo) (h2 : lo + k ≤ 13) :
    fld (x0 ++ x1 ++ x2) lo k = x1.extractLsb' (lo - 10) k := by
  unfold fld
  rw [field_hi _ _ _ _ (by omega), field_lo _ _ _ _ (by omega)]

theorem sh19_3_10_2 (x0 : BitVec 19) (x1 : BitVec 3) (x2 : BitVec 10) (lo k : Nat) (h2 : lo + k ≤ 10) :
    fld (x0 ++ x1 ++ x2) lo k = x2.extractLsb' (lo) k := by
  unfold fld
  rw [field_lo _ _ _ _ (by omega)]

theorem sh12_5_5_10_0 (x0 : BitVec 12) (x1 : BitVec 5) (x2 : BitVec 5) (x3 : BitVec 10) (lo k : Nat) (h : 20 ≤ lo) :
    fld (x0 ++ x1 ++ x2 ++ x3) lo k = x0.extractLsb' (lo - 20) k := by
  unfold fld
  rw [field_hi _ _ _ _ (by omega), field_hi _ _ _ _ (by omega), field_hi _ _ _ _ (by omega)]
  simp only [Nat.sub_sub]

theorem sh12_5_5_10_1 (x0 : BitVec 12) (x1 : BitVec 5) (x2 : BitVec 5) (x3 : BitVec 10) (lo k : Nat) (h : 15 ≤ lo) (h2 : lo + k ≤ 20) :
    fld (x0 ++ x1 ++ x2 ++ x3) lo k = x1.extractLsb' (lo - 15) k := by
  unfold fld
  rw [field_hi _ _ _ _ (by omega), field_hi _ _ _ _ (by omega), field_lo _ _ _ _ (by omega)]
  simp only [Nat.sub_sub]

theorem sh12_5_5_10_2 (x0 : BitVec 12) (x1 : BitVec 5) (x2 : BitVec 5) (x3 : BitVec 10) (lo k : Nat) (h : 10 ≤ lo) (h2 : lo + k ≤ 15) :
    fld (x0 ++ x1 ++ x2 ++ x3) lo k = x2.extractLsb' (lo - 10) k := by
  unfold fld
  rw [field_hi _ _ _ _ (by omega), field_lo _ _ _ _ (by omega)]

theorem sh12_5_5_10_3 (x0 : BitVec 12) (x1 : BitVec 5) (x2 : BitVec 5) (x3 : BitVec 10) (lo k : Nat) (h2 : lo + k ≤ 10) :
    fld (x0 ++ x1 ++ x2 ++ x3) lo k = x3.extractLsb' (lo) k := by
  unfold fld
  rw [field_lo _ _ _ _ (by omega)]

theorem sh12_5_15_0 (x0 : BitVec 12) (x1 : BitVec 5) (x2 : BitVec 15) (lo k : Nat) (h : 20 ≤ lo) :
    fld (x0 ++ x1 ++ x2) lo k = x0.extractLsb' (lo - 20) k := by
  unfold fld
  rw [field_hi _ _ _ _ (by omega), field_hi _ _ _ _ (by omega)]
  simp only [Nat.sub_sub]

theorem sh12_5_15_1 (x0 : BitVec 12) (x1 : BitVec 5) (x2 : BitVec 15) (lo k : Nat) (h : 15 ≤ lo) (h2 : lo + k ≤ 20) :
    fld (x0 ++ x1 ++ x2) lo k = x1.extractLsb' (lo - 15) k := by
  unfold fld
  rw [field_hi _ _ _ _ (by omega), field_lo _ _ _ _ (by omega)]

theorem sh12_5_15_2 (x0 : BitVec 12) (x1 : BitVec 5) (x2 : BitVec 15) (lo k : Nat) (h2 : lo + k ≤ 15) :
    fld (x0 ++ x1 ++ x2) lo k = x2.extractLsb' (lo) k := by
  unfold fld
  rw [field_lo _ _ _ _ (by omega)]

theorem sh7_5_5_5_2_1_7_0 (x0 : BitVec 7) (x1 : BitVec 5) (x2 : BitVec 5) (x3 : BitVec 5) (x4 : BitVec 2) (x5 : BitVec 1) (x6 : BitVec 7) (lo k : Nat) (h : 25 ≤ lo) :
    fld (x0 ++ x1 ++ x2 ++ x3 ++ x4 ++ x5 ++ x6) lo k = x0.extractLsb' (lo - 25) k := by
  unfold fld
  rw [field_hi _ _ _ _ (by omega), field_hi _ _ _ _ (by omega), field_hi _ _ _ _ (by omega), field_hi _ _ _ _ (by omega), field_hi _ _ _ _ (by omega), field_hi _ _ _ _ (by omega)]
  simp only [Nat.sub_sub]

theorem sh7_5_5_5_2_1_7_1 (x0 : BitVec 7) (x1 : BitVec 5) (x2 : BitVec 5) (x3 : BitVec 5) (x4 : BitVec 2) (x5 : BitVec 1) (x6 : BitVec 7) (lo k : Nat) (h : 20 ≤ lo) (h2 : lo + k ≤ 25) :
    fld (x0 ++ x1 ++ x2 ++ x3 ++ x4 ++ x5 ++ x6) lo k = x1.extractLsb' (lo - 20) k := by
  unfold fld
  rw [field_hi _ _ _ _ (by omega), field_hi _ _ _ _ (by omega), field_hi _ _ _ _ (by omega), field_hi _ _ _ _ (by omega), field_hi _ _ _ _ (by omega), field_lo _ _ _ _ (by omega)]
  simp only [Nat.sub_sub]

theorem sh7_5_5_5_2_1_7_2 (x0 : BitVec 7) (x1 : BitVec 5) (x2 : BitVec 5) (x3 : BitVec 5) (x4 : BitVec 2) (x5 : BitVec 1) (x6 : BitVec 7) (lo k : Nat) (h : 15 ≤ lo) (h2 : lo + k ≤ 20) :
    fld (x0 ++ x1 ++ x2 ++ x3 ++ x4 ++ x5 ++ x6) lo k = x2.extractLsb' (lo - 15) k := by
  unfold fld
  rw [field_hi _ _ _ _ (by omega), field_hi _ _ _ _ (by omega), field_hi _ _ _ _ (by omega), field_hi _ _ _ _ (by omega), field_lo _ _ _ _ (by omega)]
  simp only [Nat.sub_sub]

theorem sh7_5_5_5_2_1_7_3 (x0 : BitVec 7) (x1 : BitVec 5) (x2 : BitVec 5) (x3 : BitVec 5) (x4 : BitVec 2) (x5 : BitVec 1) (x6 : BitVec 7) (lo k : Nat) (h : 10 ≤ lo) (h2 : lo + k ≤ 15) :
    fld (x0 ++ x1 ++ x2 ++ x3 ++ x4 ++ x5 ++ x6) lo k = x3.extractLsb' (lo - 10) k := by
  unfold fld
  rw [field_hi _ _ _ _ (by omega), field_hi _ _ _ _ (by omega), field_hi _ _ _ _ (by omega), field_lo _ _ _ _ (by omega)]
  simp only [Nat.sub_sub]

theorem sh7_5_5_5_2_1_7_4 (x0 : BitVec 7) (x1 : BitVec 5) (x2 : BitVec 5) (x3 : BitVec 5) (x4 : BitVec 2) (x5 : BitVec 1) (x6 : BitVec 7) (lo k : Nat) (h : 8 ≤ lo) (h2 : lo + k ≤ 10) :
    fld (x0 ++ x1 ++ x2 ++ x3 ++ x4 ++ x5 ++ x6) lo k = x4.extractLsb' (lo - 8) k := by
  unfold fld
  rw [field_hi _ _ _ _ (by omega), field_hi _ _ _ _ (by omega), field_lo _ _ _ _ (by omega)]
  simp only [Nat.sub_sub]

theorem sh7_5_5_5_2_1_7_5 (x0 : BitVec 7) (x1 : BitVec 5) (x2 : BitVec 5) (x3 : BitVec 5) (x4 : BitVec 2) (x5 : BitVec 1) (x6 : BitVec 7) (lo k : Nat) (h : 7 ≤ lo) (h2 : lo + k ≤ 8) :
    fld (x0 ++ x1 ++ x2 ++ x3 ++ x4 ++ x5 ++ x6) lo k = x5.extractLsb' (lo - 7) k := by
  unfold fld
  rw [field_hi _ _ _ _ (by omega), field_lo _ _ _ _ (by omega)]

theorem sh7_5_5_5_2_1_7_6 (x0 : BitVec 7) (x1 : BitVec 5) (x2 : BitVec 5) (x3 : BitVec 5) (x4 : BitVec 2) (x5 : BitVec 1) (x6 : BitVec 7) (lo k : Nat) (h2 : lo + k ≤ 7) :
    fld (x0 ++ x1 ++ x2 ++ x3 ++ x4 ++ x5 ++ x6) lo k = x6.extractLsb' (lo) k := by
  unfold fld
  rw [field_lo _ _ _ _ (by omega)]

theorem sh7_5_5_5_2_8_0 (x0 : BitVec 7) (x1 : BitVec 5) (x2 : BitVec 5) (x3 : BitVec 5) (x4 : BitVec 2) (x5 : BitVec 8) (lo k : Nat) (h : 25 ≤ lo) :
    fld (x0 ++ x1 ++ x2 ++ x3 ++ x4 ++ x5) lo k = x0.extractLsb' (lo - 25) k := by
  unfold fld
  rw [field_hi _ _ _ _ (by omega), field_hi _ _ _ _ (by omega), field_hi _ _ _ _ (by omega), field_hi _ _ _ _ (by omega), field_hi _ _ _ _ (by omega)]
  simp only [Nat.sub_sub]

theorem sh7_5_5_5_2_8_1 (x0 : BitVec 7) (x1 : BitVec 5) (x2 : BitVec 5) (x3 : BitVec 5) (x4 : BitVec 2) (x5 : BitVec 8) (lo k : Nat) (h : 20 ≤ lo) (h2 : lo + k ≤ 25) :
    fld (x0 ++ x1 ++ x2 ++ x3 ++ x4 ++ x5) lo k = x1.extractLsb' (lo - 20) k := by
  unfold fld
  rw [field_hi _ _ _ _ (by omega), field_hi _ _ _ _ (by omega), field_hi _ _ _ _ (by omega), field_hi _ _ _ _ (by omega), field_lo _ _ _ _ (by omega)]
  simp only [Nat.sub_sub]

theorem sh7_5_5_5_2_8_2 (x0 : BitVec 7) (x1 : BitVec 5) (x2 : BitVec 5) (x3 : BitVec 5) (x4 : BitVec 2) (x5 : BitVec 8) (lo k : Nat) (h : 15 ≤ lo) (h2 : lo + k ≤ 20) :
    fld (x0 ++ x1 ++ x2 ++ x3 ++ x4 ++ x5) lo k = x2.extractLsb' (lo - 15) k := by
  unfold fld
  rw [field_hi _ _ _ _ (by omega), field_hi _ _ _ _ (by omega), field_hi _ _ _ _ (by omega), field_lo _ _ _ _ (by omega)]
  simp only [Nat.sub_sub]

theorem sh7_5_5_5_2_8_3 (x0 : BitVec 7) (x1 : BitVec 5) (x2 : BitVec 5) (x3 : BitVec 5) (x4 : BitVec 2) (x5 : BitVec 8) (lo k : Nat) (h : 10 ≤ lo) (h2 : lo + k ≤ 15) :
    fld (x0 ++ x1 ++ x2 ++ x3 ++ x4 ++ x5) lo k = x3.extractLsb' (lo - 10) k := by
  unfold fld
  rw [field_hi _ _ _ _ (by omega), field_hi _ _ _ _ (by omega), field_lo _ _ _ _ (by omega)]
  simp only [Nat.sub_sub]

theorem sh7_5_5_5_2_8_4 (x0 : BitVec 7) (x1 : BitVec 5) (x2 : BitVec 5) (x3 : BitVec 5) (x4 : BitVec 2) (x5 : BitVec 8) (lo k : Nat) (h : 8 ≤ lo) (h2 : lo + k ≤ 10) :
    fld (x0 ++ x1 ++ x2 ++ x3 ++ x4 ++ x5) lo k = x4.extractLsb' (lo - 8) k := by
  unfold fld
  rw [field_hi _ _ _ _ (by omega), field_lo _ _ _ _ (by omega)]

theorem sh7_5_5_5_2_8_5 (x0 : BitVec 7) (x1 : BitVec 5) (x2 : BitVec 5) (x3 : BitVec 5) (x4 : BitVec 2) (x5 : BitVec 8) (lo k : Nat) (h2 : lo + k ≤ 8) :
    fld (x0 ++ x1 ++ x2 ++ x3 ++ x4 ++ x5) lo k = x5.extractLsb' (lo) k := by
  unfold fld
  rw [field_lo _ _ _ _ (by omega)]

theorem sh7_5_12_8_0 (x0 : BitVec 7) (x1 : BitVec 5) (x2 : BitVec 12) (x3 : BitVec 8) (lo k : Nat) (h : 25 ≤ lo) :
    fld (x0 ++ x1 ++ x2 ++ x3) lo k = x0.extractLsb' (lo - 25) k := by
  unfold fld
  rw [field_hi _ _ _ _ (by omega), field_hi _ _ _ _ (by omega), field_hi _ _ _ _ (by omega)]
  simp only [Nat.sub_sub]

theorem sh7_5_12_8_1 (x0 : BitVec 7) (x1 : BitVec 5) (x2 : BitVec 12) (x3 : BitVec 8) (lo k : Nat) (h : 20 ≤ lo) (h2 : lo + k ≤ 25) :
    fld (x0 ++ x1 ++ x2 ++ x3) lo k = x1.extractLsb' (lo - 20) k := by
  unfold fld
  rw [field_hi _ _ _ _ (by omega), field_hi _ _ _ _ (by omega), field_lo _ _ _ _ (by omega)]
  simp only [Nat.sub_sub]

theorem sh7_5_12_8_2 (x0 : BitVec 7) (x1 : BitVec 5) (x2 : BitVec 12) (x3 : BitVec 8) (lo k : Nat) (h : 8 ≤ lo) (h2 : lo + k ≤ 20) :
    fld (x0 ++ x1 ++ x2 ++ x3) lo k = x2.extractLsb' (lo - 8) k := by
  unfold fld
  rw [field_hi _ _ _ _ (by omega), field_lo _ _ _ _ (by omega)]

theorem sh7_5_12_8_3 (x0 : BitVec 7) (x1 : BitVec 5) (x2 : BitVec 12) (x3 : BitVec 8) (lo k : Nat) (h2 : lo + k ≤ 8) :
    fld (x0 ++ x1 ++ x2 ++ x3) lo k = x3.extractLsb' (lo) k := by
  unfold fld
  rw [field_lo _ _ _ _ (by omega)]

theorem sh7_5_5_7_1_1_3_3_0 (x0 : BitVec 7) (x1 : BitVec 5) (x2 : BitVec 5) (x3 : BitVec 7) (x4 : BitVec 1) (x5 : BitVec 1) (x6 : BitVec 3) (x7 : BitVec 3) (lo k : Nat) (h : 25 ≤ lo) :
    fld (x0 ++ x1 ++ x2 ++ x3 ++ x4 ++ x5 ++ x6 ++ x7) lo k = x0.extractLsb' (lo - 25) k := by
  unfold fld
  rw [field_hi _ _ _ _ (by omega), field_hi _ _ _ _ (by omega), field_hi _ _ _ _ (by omega), field_hi _ _ _ _ (by omega), field_hi _ _ _ _ (by omega), field_hi _ _ _ _ (by omega), field_hi _ _ _ _ (by omega)]
  simp only [Nat.sub_sub]

theorem sh7_5_5_7_1_1_3_3_1 (x0 : BitVec 7) (x1 : BitVec 5) (x2 : BitVec 5) (x3 : BitVec 7) (x4 : BitVec 1) (x5 : BitVec 1) (x6 : BitVec 3) (x7 : BitVec 3) (lo k : Nat) (h : 20 ≤ lo) (h2 : lo + k ≤ 25) :
    fld (x0 ++ x1 ++ x2 ++ x3 ++ x4 ++ x5 ++ x6 ++ x7) lo k = x1.extractLsb' (lo - 20) k := by
  unfold fld
  rw [field_hi _ _ _ _ (by omega), field_hi _ _ _ _ (by omega), field_hi _ _ _ _ (by omega), field_hi _ _ _ _ (by omega), field_hi _ _ _ _ (by omega), field_hi _ _ _ _ (by omega), field_lo _ _ _ _ (by omega)]
  simp only [Nat.sub_sub]

theorem sh7_5_5_7_1_1_3_3_2 (x0 : BitVec 7) (x1 : BitVec 5) (x2 : BitVec 5) (x3 : BitVec 7) (x4 : BitVec 1) (x5 : BitVec 1) (x6 : BitVec 3) (x7 : BitVec 3) (lo k : Nat) (h : 15 ≤ lo) (h2 : lo + k ≤ 20) :
    fld (x0 ++ x1 ++ x2 ++ x3 ++ x4 ++ x5 ++ x6 ++ x7) lo k = x2.extractLsb' (lo - 15) k := by
  unfold fld
  rw [field_hi _ _ _ _ (by omega), field_hi _ _ _ _ (by omega), field_hi _ _ _ _ (by omega), field_hi _ _ _ _ (by omega), field_hi _ _ _ _ (by omega), field_lo _ _ _ _ (by omega)]
  simp only [Nat.sub_sub]

theorem sh7_5_5_7_1_1_3_3_3 (x0 : BitVec 7) (x1 : BitVec 5) (x2 : BitVec 5) (x3 : BitVec 7) (x4 : BitVec 1) (x5 : BitVec 1) (x6 : BitVec 3) (x7 : BitVec 3) (lo k : Nat) (h : 8 ≤ lo) (h2 : lo + k ≤ 15) :
    fld (x0 ++ x1 ++ x2 ++ x3 ++ x4 ++ x5 ++ x6 ++ x7) lo k = x3.extractLsb' (lo - 8) k := by
  unfold fld
  rw [field_hi _ _ _ _ (by omega), field_hi _ _ _ _ (by omega), field_hi _ _ _ _ (by omega), field_hi _ _ _ _ (by omega), field_lo _ _ _ _ (by omega)]
  simp only [Nat.sub_sub]

theorem sh7_5_5_7_1_1_3_3_4 (x0 : BitVec 7) (x1 : BitVec 5) (x2 : BitVec 5) (x3 : BitVec 7) (x4 : BitVec 1) (x5 : BitVec 1) (x6 : BitVec 3) (x7 : BitVec 3) (lo k : Nat) (h : 7 ≤ lo) (h2 : lo + k ≤ 8) :
    fld (x0 ++ x1 ++ x2 ++ x3 ++ x4 ++ x5 ++ x6 ++ x7) lo k = x4.extractLsb' (lo - 7) k := by
  unfold fld
  rw [field_hi _ _ _ _ (by omega), field_hi _ _ _ _ (by omega), field_hi _ _ _ _ (by omega), field_lo _ _ _ _ (by omega)]
  simp only [Nat.sub_sub]

theorem sh7_5_5_7_1_1_3_3_5 (x0 : BitVec 7) (x1 : BitVec 5) (x2 : BitVec 5) (x3 : BitVec 7) (x4 : BitVec 1) (x5 : BitVec 1) (x6 : BitVec 3) (x7 : BitVec 3) (lo k : Nat) (h : 6 ≤ lo) (h2 : lo + k ≤ 7) :
    fld (x0 ++ x1 ++ x2 ++ x3 ++ x4 ++ x5 ++ x6 ++ x7) lo k = x5.extractLsb' (lo - 6) k := by
  unfold fld
  rw [field_hi _ _ _ _ (by omega), field_hi _ _ _ _ (by omega), field_lo _ _ _ _ (by omega)]
  simp only [Nat.sub_sub]

theorem sh7_5_5_7_1_1_3_3_6 (x0 : BitVec 7) (x1 : BitVec 5) (x2 : BitVec 5) (x3 : BitVec 7) (x4 : BitVec 1) (x5 : BitVec 1) (x6 : BitVec 3) (x7 : BitVec 3) (lo k : Nat) (h : 3 ≤ lo) (h2 : lo + k ≤ 6) :
    fld (x0 ++ x1 ++ x2 ++ x3 ++ x4 ++ x5 ++ x6 ++ x7) lo k = x6.extractLsb' (lo - 3) k := by
  unfold fld
  rw [field_hi _ _ _ _ (by omega), field_lo _ _ _ _ (by omega)]

theorem sh7_5_5_7_1_1_3_3_7 (x0 : BitVec 7) (x1 : BitVec 5) (x2 : BitVec 5) (x3 : BitVec 7) (x4 : BitVec 1) (x5 : BitVec 1) (x6 : BitVec 3) (x7 : BitVec 3) (lo k : Nat) (h2 : lo + k ≤ 3) :
    fld (x0 ++ x1 ++ x2 ++ x3 ++ x4 ++ x5 ++ x6 ++ x7) lo k = x7.extractLsb' (lo) k := by
  unfold fld
  rw [field_lo _ _ _ _ (by omega)]

theorem sh7_5_5_5_1_2_2_5_0 (x0 : BitVec 7) (x1 : BitVec 5) (x2 : BitVec 5) (x3 : BitVec 5) (x4 : BitVec 1) (x5 : BitVec 2) (x6 : BitVec 2) (x7 : BitVec 5) (lo k : Nat) (h : 25 ≤ lo) :
    fld (x0 ++ x1 ++ x2 ++ x3 ++ x4 ++ x5 ++ x6 ++ x7) lo k = x0.extractLsb' (lo - 25) k := by
  unfold fld
  rw [field_hi _ _ _ _ (by omega), field_hi _ _ _ _ (by omega), field_hi _ _ _ _ (by omega), field_hi _ _ _ _ (by omega), field_hi _ _ _ _ (by omega), field_hi _ _ _ _ (by omega), field_hi _ _ _ _ (by omega)]
  simp only [Nat.sub_sub]

theorem sh7_5_5_5_1_2_2_5_1 (x0 : BitVec 7) (x1 : BitVec 5) (x2 : BitVec 5) (x3 : BitVec 5) (x4 : BitVec 1) (x5 : BitVec 2) (x6 : BitVec 2) (x7 : BitVec 5) (lo k : Nat) (h : 20 ≤ lo) (h2 : lo + k ≤ 25) :
    fld (x0 ++ x1 ++ x2 ++ x3 ++ x4 ++ x5 ++ x6 ++ x7) lo k = x1.extractLsb' (lo - 20) k := by
  unfold fld
  rw [field_hi _ _ _ _ (by omega), field_hi _ _ _ _ (by omega), field_hi _ _ _ _ (by omega), field_hi _ _ _ _ (by omega), field_hi _ _ _ _ (by omega), field_hi _ _ _ _ (by omega), field_lo _ _ _ _ (by omega)]
  simp only [Nat.sub_sub]

theorem sh7_5_5_5_1_2_2_5_2 (x0 : BitVec 7) (x1 : BitVec 5) (x2 : BitVec 5) (x3 : BitVec 5) (x4 : BitVec 1) (x5 : BitVec 2) (x6 : BitVec 2) (x7 : BitVec 5) (lo k : Nat) (h : 15 ≤ lo) (h2 : lo + k ≤ 20) :
    fld (x0 ++ x1 ++ x2 ++ x3 ++ x4 ++ x5 ++ x6 ++ x7) lo k = x2.extractLsb' (lo - 15) k := by
  unfold fld
  rw [field_hi _ _ _ _ (by omega), field_hi _ _ _ _ (by omega), field_hi _ _ _ _ (by omega), field_hi _ _ _ _ (by omega), field_hi _ _ _ _ (by omega), field_lo _ _ _ _ (by omega)]
  simp only [Nat.sub_sub]

theorem sh7_5_5_5_1_2_2_5_3 (x0 : BitVec 7) (x1 : BitVec 5) (x2 : BitVec 5) (x3 : BitVec 5) (x4 : BitVec 1) (x5 : BitVec 2) (x6 : BitVec 2) (x7 : BitVec 5) (lo k : Nat) (h : 10 ≤ lo) (h2 : lo + k ≤ 15) :
    fld (x0 ++ x1 ++ x2 ++ x3 ++ x4 ++ x5 ++ x6 ++ x7) lo k = x3.extractLsb' (lo - 10) k := by
  unfold fld
  rw [field_hi _ _ _ _ (by omega), field_hi _ _ _ _ (by omega), field_hi _ _ _ _ (by omega), field_hi _ _ _ _ (by omega), field_lo _ _ _ _ (by omega)]
  simp only [Nat.sub_sub]

theorem sh7_5_5_5_1_2_2_5_4 (x0 : BitVec 7) (x1 : BitVec 5) (x2 : BitVec 5) (x3 : BitVec 5) (x4 : BitVec 1) (x5 : BitVec 2) (x6 : BitVec 2) (x7 : BitVec 5) (lo k : Nat) (h : 9 ≤ lo) (h2 : lo + k ≤ 10) :
    fld (x0 ++ x1 ++ x2 ++ x3 ++ x4 ++ x5 ++ x6 ++ x7) lo k = x4.extractLsb' (lo - 9) k := by
  unfold fld
  rw [field_hi _ _ _ _ (by omega), field_hi _ _ _ _ (by omega), field_hi _ _ _ _ (by omega), field_lo _ _ _ _ (by omega)]
  simp only [Nat.sub_sub]

theorem sh7_5_5_5_1_2_2_5_5 (x0 : BitVec 7) (x1 : BitVec 5) (x2 : BitVec 5) (x3 : BitVec 5) (x4 : BitVec 1) (x5 : BitVec 2) (x6 : BitVec 2) (x7 : BitVec 5) (lo k : Nat) (h : 7 ≤ lo) (h2 : lo + k ≤ 9) :
    fld (x0 ++ x1 ++ x2 ++ x3 ++ x4 ++ x5 ++ x6 ++ x7) lo k = x5.extractLsb' (lo - 7) k := by
  unfold fld
  rw [field_hi _ _ _ _ (by omega), field_hi _ _ _ _ (by omega), field_lo _ _ _ _ (by omega)]
  simp only [Nat.sub_sub]

theorem sh7_5_5_5_1_2_2_5_6 (x0 : BitVec 7) (x1 : BitVec 5) (x2 : BitVec 5) (x3 : BitVec 5) (x4 : BitVec 1) (x5 : BitVec 2) (x6 : BitVec 2) (x7 : BitVec 5) (lo k : Nat) (h : 5 ≤ lo) (h2 : lo + k ≤ 7) :
    fld (x0 ++ x1 ++ x2 ++ x3 ++ x4 ++ x5 ++ x6 ++ x7) lo k = x6.extractLsb' (lo - 5) k := by
  unfold fld
  rw [field_hi _ _ _ _ (by omega), field_lo _ _ _ _ (by omega)]

theorem sh7_5_5_5_1_2_2_5_7 (x0 : BitVec 7) (x1 : BitVec 5) (x2 : BitVec 5) (x3 : BitVec 5) (x4 : BitVec 1) (x5 : BitVec 2) (x6 : BitVec 2) (x7 : BitVec 5) (lo k : Nat) (h2 : lo + k ≤ 5) :
    fld (x0 ++ x1 ++ x2 ++ x3 ++ x4 ++ x5 ++ x6 ++ x7) lo k = x7.extractLsb' (lo) k := by
  unfold fld
  rw [field_lo _ _ _ _ (by omega)]

theorem sh7_5_5_5_1_9_0 (x0 : BitVec 7) (x1 : BitVec 5) (x2 : BitVec 5) (x3 : BitVec 5) (x4 : BitVec 1) (x5 : BitVec 9) (lo k : Nat) (h : 25 ≤ lo) :
    fld (x0 ++ x1 ++ x2 ++ x3 ++ x4 ++ x5) lo k = x0.extractLsb' (lo - 25) k := by
  unfold fld
  rw [field_hi _ _ _ _ (by omega), field_hi _ _ _ _ (by omega), field_hi _ _ _ _ (by omega), field_hi _ _ _ _ (by omega), field_hi _ _ _ _ (by omega)]
  simp only [Nat.sub_sub]

theorem sh7_5_5_5_1_9_1 (x0 : BitVec 7) (x1 : BitVec 5) (x2 : BitVec 5) (x3 : BitVec 5) (x4 : BitVec 1) (x5 : BitVec 9) (lo k : Nat) (h : 20 ≤ lo) (h2 : lo + k ≤ 25) :
    fld (x0 ++ x1 ++ x2 ++ x3 ++ x4 ++ x5) lo k = x1.extractLsb' (lo - 20) k := by
  unfold fld
  rw [field_hi _ _ _ _ (by omega), field_hi _ _ _ _ (by omega), field_hi _ _ _ _ (by omega), field_hi _ _ _ _ (by omega), field_lo _ _ _ _ (by omega)]
  simp only [Nat.sub_sub]

theorem sh7_5_5_5_1_9_2 (x0 : BitVec 7) (x1 : BitVec 5) (x2 : BitVec 5) (x3 : BitVec 5) (x4 : BitVec 1) (x5 : BitVec 9) (lo k : Nat) (h : 15 ≤ lo) (h2 : lo + k ≤ 20) :
    fld (x0 ++ x1 ++ x2 ++ x3 ++ x4 ++ x5) lo k = x2.extractLsb' (lo - 15) k := by
  unfold fld
  rw [field_hi _ _ _ _ (by omega), field_hi _ _ _ _ (by omega), field_hi _ _ _ _ (by omega), field_lo _ _ _ _ (by omega)]
  simp only [Nat.sub_sub]

theorem sh7_5_5_5_1_9_3 (x0 : BitVec 7) (x1 : BitVec 5) (x2 : BitVec 5) (x3 : BitVec 5) (x4 : BitVec 1) (x5 : BitVec 9) (lo k : Nat) (h : 10 ≤ lo) (h2 : lo + k ≤ 15) :
    fld (x0 ++ x1 ++ x2 ++ x3 ++ x4 ++ x5) lo k = x3.extractLsb' (lo - 10) k := by
  unfold fld
  rw [field_hi _ _ _ _ (by omega), field_hi _ _ _ _ (by omega), field_lo _ _ _ _ (by omega)]
  simp only [Nat.sub_sub]

theorem sh7_5_5_5_1_9_4 (x0 : BitVec 7) (x1 : BitVec 5) (x2 : BitVec 5) (x3 : BitVec 5) (x4 : BitVec 1) (x5 : BitVec 9) (lo k : Nat) (h : 9 ≤ lo) (h2 : lo + k ≤ 10) :
    fld (x0 ++ x1 ++ x2 ++ x3 ++ x4 ++ x5) lo k = x4.extractLsb' (lo - 9) k := by
  unfold fld
  rw [field_hi _ _ _ _ (by omega), field_lo _ _ _ _ (by omega)]

theorem sh7_5_5_5_1_9_5 (x0 : BitVec 7) (x1 : BitVec 5) (x2 : BitVec 5) (x3 : BitVec 5) (x4 : BitVec 1) (x5 : BitVec 9) (lo k : Nat) (h2 : lo + k ≤ 9) :
    fld (x0 ++ x1 ++ x2 ++ x3 ++ x4 ++ x5) lo k = x5.extractLsb' (lo) k := by
  unfold fld
  rw [field_lo _ _ _ _ (by omega)]

theorem sh7_5_5_5_1_3_1_5_0 (x0 : BitVec 7) (x1 : BitVec 5) (x2 : BitVec 5) (x3 : BitVec 5) (x4 : BitVec 1) (x5 : BitVec 3) (x6 : BitVec 1) (x7 : BitVec 5) (lo k : Nat) (h : 25 ≤ lo) :
    fld (x0 ++ x1 ++ x2 ++ x3 ++ x4 ++ x5 ++ x6 ++ x7) lo k = x0.extractLsb' (lo - 25) k := by
  unfold fld
  rw [field_hi _ _ _ _ (by omega), field_hi _ _ _ _ (by omega), field_hi _ _ _ _ (by omega), field_hi _ _ _ _ (by omega), field_hi _ _ _ _ (by omega), field_hi _ _ _ _ (by omega), field_hi _ _ _ _ (by omega)]
  simp only [Nat.sub_sub]

theorem sh7_5_5_5_1_3_1_5_1 (x0 : BitVec 7) (x1 : BitVec 5) (x2 : BitVec 5) (x3 : BitVec 5) (x4 : BitVec 1) (x5 : BitVec 3) (x6 : BitVec 1) (x7 : BitVec 5) (lo k : Nat) (h : 20 ≤ lo) (h2 : lo + k ≤ 25) :
    fld (x0 ++ x1 ++ x2 ++ x3 ++ x4 ++ x5 ++ x6 ++ x7) lo k = x1.extractLsb' (lo - 20) k := by
  unfold fld
  rw [field_hi _ _ _ _ (by omega), field_hi _ _ _ _ (by omega), field_hi _ _ _ _ (by omega), field_hi _ _ _ _ (by omega), field_hi _ _ _ _ (by omega), field_hi _ _ _ _ (by omega), field_lo _ _ _ _ (by omega)]
  simp only [Nat.sub_sub]

theorem sh7_5_5_5_1_3_1_5_2 (x0 : BitVec 7) (x1 : BitVec 5) (x2 : BitVec 5) (x3 : BitVec 5) (x4 : BitVec 1) (x5 : BitVec 3) (x6 : BitVec 1) (x7 : BitVec 5) (lo k : Nat) (h : 15 ≤ lo) (h2 : lo + k ≤ 20) :
    fld (x0 ++ x1 ++ x2 ++ x3 ++ x4 ++ x5 ++ x6 ++ x7) lo k = x2.extractLsb' (lo - 15) k := by
  unfold fld
  rw [field_hi _ _ _ _ (by omega), field_hi _ _ _ _ (by omega), field_hi _ _ _ _ (by omega), field_hi _ _ _ _ (by omega), field_hi _ _ _ _ (by omega), field_lo _ _ _ _ (by omega)]
  simp only [Nat.sub_sub]

theorem sh7_5_5_5_1_3_1_5_3 (x0 : BitVec 7) (x1 : BitVec 5) (x2 : BitVec 5) (x3 : BitVec 5) (x4 : BitVec 1) (x5 : BitVec 3) (x6 : BitVec 1) (x7 : BitVec 5) (lo k : Nat) (h : 10 ≤ lo) (h2 : lo + k ≤ 15) :
    fld (x0 ++ x1 ++ x2 ++ x3 ++ x4 ++ x5 ++ x6 ++ x7) lo k = x3.extractLsb' (lo - 10) k := by
  unfold fld
  rw [field_hi _ _ _ _ (by omega), field_hi _ _ _ _ (by omega), field_hi _ _ _ _ (by omega), field_hi _ _ _ _ (by omega), field_lo _ _ _ _ (by omega)]
  simp only [Nat.sub_sub]

theorem sh7_5_5_5_1_3_1_5_4 (x0 : BitVec 7) (x1 : BitVec 5) (x2 : BitVec 5) (x3 : BitVec 5) (x4 : BitVec 1) (x5 : BitVec 3) (x6 : BitVec 1) (x7 : BitVec 5) (lo k : Nat) (h : 9 ≤ lo) (h2 : lo + k ≤ 10) :
    fld (x0 ++ x1 ++ x2 ++ x3 ++ x4 ++ x5 ++ x6 ++ x7) lo k = x4.extractLsb' (lo - 9) k := by
  unfold fld
  rw [field_hi _ _ _ _ (by omega), field_hi _ _ _ _ (by omega), field_hi _ _ _ _ (by omega), field_lo _ _ _ _ (by omega)]
  simp only [Nat.sub_sub]

theorem sh7_5_5_5_1_3_1_5_5 (x0 : BitVec 7) (x1 : BitVec 5) (x2 : BitVec 5) (x3 : BitVec 5) (x4 : BitVec 1) (x5 : BitVec 3) (x6 : BitVec 1) (x7 : BitVec 5) (lo k : Nat) (h : 6 ≤ lo) (h2 : lo + k ≤ 9) :
    fld (x0 ++ x1 ++ x2 ++ x3 ++ x4 ++ x5 ++ x6 ++ x7) lo k = x5.extractLsb' (lo - 6) k := by
  unfold fld
  rw [field_hi _ _ _ _ (by omega), field_hi _ _ _ _ (by omega), field_lo _ _ _ _ (by omega)]
  simp only [Nat.sub_sub]

theorem sh7_5_5_5_1_3_1_5_6 (x0 : BitVec 7) (x1 : BitVec 5) (x2 : BitVec 5) (x3 : BitVec 5) (x4 : BitVec 1) (x5 : BitVec 3) (x6 : BitVec 1) (x7 : BitVec 5) (lo k : Nat) (h : 5 ≤ lo) (h2 : lo + k ≤ 6) :
    fld (x0 ++ x1 ++ x2 ++ x3 ++ x4 ++ x5 ++ x6 ++ x7) lo k = x6.extractLsb' (lo - 5) k := by
  unfold fld
  rw [field_hi _ _ _ _ (by omega), field_lo _ _ _ _ (by omega)]

theorem sh7_5_5_5_1_3_1_5_7 (x0 : BitVec 7) (x1 : BitVec 5) (x2 : BitVec 5) (x3 : BitVec 5) (x4 : BitVec 1) (x5 : BitVec 3) (x6 : BitVec 1) (x7 : BitVec 5) (lo k : Nat) (h2 : lo + k ≤ 5) :
    fld (x0 ++ x1 ++ x2 ++ x3 ++ x4 ++ x5 ++ x6 ++ x7) lo k = x7.extractLsb' (lo) k := by
  unfold fld
  rw [field_lo _ _ _ _ (by omega)]

theorem sh7_5_5_5_1_1_2_1_5_0 (x0 : BitVec 7) (x1 : BitVec 5) (x2 : BitVec 5) (x3 : BitVec 5) (x4 : BitVec 1) (x5 : BitVec 1) (x6 : BitVec 2) (x7 : BitVec 1) (x8 : BitVec 5) (lo k : Nat) (h : 25 ≤ lo) :
    fld (x0 ++ x1 ++ x2 ++ x3 ++ x4 ++ x5 ++ x6 ++ x7 ++ x8) lo k = x0.extractLsb' (lo - 25) k := by
  unfold fld
  rw [field_hi _ _ _ _ (by omega), field_hi _ _ _ _ (by omega), field_hi _ _ _ _ (by omega), field_hi _ _ _ _ (by omega), field_hi _ _ _ _ (by omega), field_hi _ _ _ _ (by omega), field_hi _ _ _ _ (by omega), field_hi _ _ _ _ (by omega)]
  simp only [Nat.sub_sub]

theorem sh7_5_5_5_1_1_2_1_5_1 (x0 : BitVec 7) (x1 : BitVec 5) (x2 : BitVec 5) (x3 : BitVec 5) (x4 : BitVec 1) (x5 : BitVec 1) (x6 : BitVec 2) (x7 : BitVec 1) (x8 : BitVec 5) (lo k : Nat) (h : 20 ≤ lo) (h2 : lo + k ≤ 25) :
    fld (x0 ++ x1 ++ x2 ++ x3 ++ x4 ++ x5 ++ x6 ++ x7 ++ x8) lo k = x1.extractLsb' (lo - 20) k := by
  unfold fld
  rw [field_hi _ _ _ _ (by omega), field_hi _ _ _ _ (by omega), field_hi _ _ _ _ (by omega), field_hi _ _ _ _ (by omega), field_hi _ _ _ _ (by omega), field_hi _ _ _ _ (by omega), field_hi _ _ _ _ (by omega), field_lo _ _ _ _ (by omega)]
  simp only [Nat.sub_sub]

theorem sh7_5_5_5_1_1_2_1_5_2 (x0 : BitVec 7) (x1 : BitVec 5) (x2 : BitVec 5) (x3 : BitVec 5) (x4 : BitVec 1) (x5 : BitVec 1) (x6 : BitVec 2) (x7 : BitVec 1) (x8 : BitVec 5) (lo k : Nat) (h : 15 ≤ lo) (h2 : lo + k ≤ 20) :
    fld (x0 ++ x1 ++ x2 ++ x3 ++ x4 ++ x5 ++ x6 ++ x7 ++ x8) lo k = x2.extractLsb' (lo - 15) k := by
  unfold fld
  rw [field_hi _ _ _ _ (by omega), field_hi _ _ _ _ (by omega), field_hi _ _ _ _ (by omega), field_hi _ _ _ _ (by omega), field_hi _ _ _ _ (by omega), field_hi _ _ _ _ (by omega), field_lo _ _ _ _ (by omega)]
  simp only [Nat.sub_sub]

theorem sh7_5_5_5_1_1_2_1_5_3 (x0 : BitVec 7) (x1 : BitVec 5) (x2 : BitVec 5) (x3 : BitVec 5) (x4 : BitVec 1) (x5 : BitVec 1) (x6 : BitVec 2) (x7 : BitVec 1) (x8 : BitVec 5) (lo k : Nat) (h : 10 ≤ lo) (h2 : lo + k ≤ 15) :
    fld (x0 ++ x1 ++ x2 ++ x3 ++ x4 ++ x5 ++ x6 ++ x7 ++ x8) lo k = x3.extractLsb' (lo - 10) k := by
  unfold fld
  rw [field_hi _ _ _ _ (by omega), field_hi _ _ _ _ (by omega), field_hi _ _ _ _ (by omega), field_hi _ _ _ _ (by omega), field_hi _ _ _ _ (by omega), field_lo _ _ _ _ (by omega)]
  simp only [Nat.sub_sub]

theorem sh7_5_5_5_1_1_2_1_5_4 (x0 : BitVec 7) (x1 : BitVec 5) (x2 : BitVec 5) (x3 : BitVec 5) (x4 : BitVec 1) (x5 : BitVec 1) (x6 : BitVec 2) (x7 : BitVec 1) (x8 : BitVec 5) (lo k : Nat) (h : 9 ≤ lo) (h2 : lo + k ≤ 10) :
    fld (x0 ++ x1 ++ x2 ++ x3 ++ x4 ++ x5 ++ x6 ++ x7 ++ x8) lo k = x4.extractLsb' (lo - 9) k := by
  unfold fld
  rw [field_hi _ _ _ _ (by omega), field_hi _ _ _ _ (by omega), field_hi _ _ _ _ (by omega), field_hi _ _ _ _ (by omega), field_lo _ _ _ _ (by omega)]
  simp only [Nat.sub_sub]

theorem sh7_5_5_5_1_1_2_1_5_5 (x0 : BitVec 7) (x1 : BitVec 5) (x2 : BitVec 5) (x3 : BitVec 5) (x4 : BitVec 1) (x5 : BitVec 1) (x6 : BitVec 2) (x7 : BitVec 1) (x8 : BitVec 5) (lo k : Nat) (h : 8 ≤ lo) (h2 : lo + k ≤ 9) :
    fld (x0 ++ x1 ++ x2 ++ x3 ++ x4 ++ x5 ++ x6 ++ x7 ++ x8) lo k = x5.extractLsb' (lo - 8) k := by
  unfold fld
  rw [field_hi _ _ _ _ (by omega), field_hi _ _ _ _ (by omega), field_hi _ _ _ _ (by omega), field_lo _ _ _ _ (by omega)]
  simp only [Nat.sub_sub]

theorem sh7_5_5_5_1_1_2_1_5_6 (x0 : BitVec 7) (x1 : BitVec 5) (x2 : BitVec 5) (x3 : BitVec 5) (x4 : BitVec 1) (x5 : BitVec 1) (x6 : BitVec 2) (x7 : BitVec 1) (x8 : BitVec 5) (lo k : Nat) (h : 6 ≤ lo) (h2 : lo + k ≤ 8) :
    fld (x0 ++ x1 ++ x2 ++ x3 ++ x4 ++ x5 ++ x6 ++ x7 ++ x8) lo k = x6.extractLsb' (lo - 6) k := by
  unfold fld
  rw [field_hi _ _ _ _ (by omega), field_hi _ _ _ _ (by omega), field_lo _ _ _ _ (by omega)]
  simp only [Nat.sub_sub]

theorem sh7_5_5_5_1_1_2_1_5_7 (x0 : BitVec 7) (x1 : BitVec 5) (x2 : BitVec 5) (x3 : BitVec 5) (x4 : BitVec 1) (x5 : BitVec 1) (x6 : BitVec 2) (x7 : BitVec 1) (x8 : BitVec 5) (lo k : Nat) (h : 5 ≤ lo) (h2 : lo + k ≤ 6) :
    fld (x0 ++ x1 ++ x2 ++ x3 ++ x4 ++ x5 ++ x6 ++ x7 ++ x8) lo k = x7.extractLsb' (lo - 5) k := by
  unfold fld
  rw [field_hi _ _ _ _ (by omega), field_lo _ _ _ _ (by omega)]

theorem sh7_5_5_5_1_1_2_1_5_8 (x0 : BitVec 7) (x1 : BitVec 5) (x2 : BitVec 5) (x3 : BitVec 5) (x4 : BitVec 1) (x5 : BitVec 1) (x6 : BitVec 2) (x7 : BitVec 1) (x8 : BitVec 5) (lo k : Nat) (h2 : lo + k ≤ 5) :
    fld (x0 ++ x1 ++ x2 ++ x3 ++ x4 ++ x5 ++ x6 ++ x7 ++ x8) lo k = x8.extractLsb' (lo) k := by
  unfold fld
  rw [field_lo _ _ _ _ (by omega)]

theorem sh7_5_10_1_9_0 (x0 : BitVec 7) (x1 : BitVec 5) (x2 : BitVec 10) (x3 : BitVec 1) (x4 : BitVec 9) (lo k : Nat) (h : 25 ≤ lo) :
    fld (x0 ++ x1 ++ x2 ++ x3 ++ x4) lo k = x0.extractLsb' (lo - 25) k := by
  unfold fld
  rw [field_hi _ _ _ _ (by omega), field_hi _ _ _ _ (by omega), field_hi _ _ _ _ (by omega), field_hi _ _ _ _ (by omega)]
  simp only [Nat.sub_sub]

theorem sh7_5_10_1_9_1 (x0 : BitVec 7) (x1 : BitVec 5) (x2 : BitVec 10) (x3 : BitVec 1) (x4 : BitVec 9) (lo k : Nat) (h : 20 ≤ lo) (h2 : lo + k ≤ 25) :
    fld (x0 ++ x1 ++ x2 ++ x3 ++ x4) lo k = x1.extractLsb' (lo - 20) k := by
  unfold fld
  rw [field_hi _ _ _ _ (by omega), field_hi _ _ _ _ (by omega), field_hi _ _ _ _ (by omega), field_lo _ _ _ _ (by omega)]
  simp only [Nat.sub_sub]

theorem sh7_5_10_1_9_2 (x0 : BitVec 7) (x1 : BitVec 5) (x2 : BitVec 10) (x3 : BitVec 1) (x4 : BitVec 9) (lo k : Nat) (h : 10 ≤ lo) (h2 : lo + k ≤ 20) :
    fld (x0 ++ x1 ++ x2 ++ x3 ++ x4) lo k = x2.extractLsb' (lo - 10) k := by
  unfold fld
  rw [field_hi _ _ _ _ (by omega), field_hi _ _ _ _ (by omega), field_lo _ _ _ _ (by omega)]
  simp only [Nat.sub_sub]

theorem sh7_5_10_1_9_3 (x0 : BitVec 7) (x1 : BitVec 5) (x2 : BitVec 10) (x3 : BitVec 1) (x4 : BitVec 9) (lo k : Nat) (h : 9 ≤ lo) (h2 : lo + k ≤ 10) :
    fld (x0 ++ x1 ++ x2 ++ x3 ++ x4) lo k = x3.extractLsb' (lo - 9) k := by
  unfold fld
  rw [field_hi _ _ _ _ (by omega), field_lo _ _ _ _ (by omega)]

theorem sh7_5_10_1_9_4 (x0 : BitVec 7) (x1 : BitVec 5) (x2 : BitVec 10) (x3 : BitVec 1) (x4 : BitVec 9) (lo k : Nat) (h2 : lo + k ≤ 9) :
    fld (x0 ++ x1 ++ x2 ++ x3 ++ x4) lo k = x4.extractLsb' (lo) k := by
  unfold fld
  rw [field_lo _ _ _ _ (by omega)]

theorem sh7_5_5_5_1_4_5_0 (x0 : BitVec 7) (x1 : BitVec 5) (x2 : BitVec 5) (x3 : BitVec 5) (x4 : BitVec 1) (x5 : BitVec 4) (x6 : BitVec 5) (lo k : Nat) (h : 25 ≤ lo) :
    fld (x0 ++ x1 ++ x2 ++ x3 ++ x4 ++ x5 ++ x6) lo k = x0.extractLsb' (lo - 25) k := by
  unfold fld
  rw [field_hi _ _ _ _ (by omega), field_hi _ _ _ _ (by omega), field_hi _ _ _ _ (by omega), field_hi _ _ _ _ (by omega), field_hi _ _ _ _ (by omega), field_hi _ _ _ _ (by omega)]
  simp only [Nat.sub_sub]

theorem sh7_5_5_5_1_4_5_1 (x0 : BitVec 7) (x1 : BitVec 5) (x2 : BitVec 5) (x3 : BitVec 5) (x4 : BitVec 1) (x5 : BitVec 4) (x6 : BitVec 5) (lo k : Nat) (h : 20 ≤ lo) (h2 : lo + k ≤ 25) :
    fld (x0 ++ x1 ++ x2 ++ x3 ++ x4 ++ x5 ++ x6) lo k = x1.extractLsb' (lo - 20) k := by
  unfold fld
  rw [field_hi _ _ _ _ (by omega), field_hi _ _ _ _ (by omega), field_hi _ _ _ _ (by omega), field_hi _ _ _ _ (by omega), field_hi _ _ _ _ (by omega), field_lo _ _ _ _ (by omega)]
  simp only [Nat.sub_sub]

theorem sh7_5_5_5_1_4_5_2 (x0 : BitVec 7) (x1 : BitVec 5) (x2 : BitVec 5) (x3 : BitVec 5) (x4 : BitVec 1) (x5 : BitVec 4) (x6 : BitVec 5) (lo k : Nat) (h : 15 ≤ lo) (h2 : lo + k ≤ 20) :
    fld (x0 ++ x1 ++ x2 ++ x3 ++ x4 ++ x5 ++ x6) lo k = x2.extractLsb' (lo - 15) k := by
  unfold fld
  rw [field_hi _ _ _ _ (by omega), field_hi _ _ _ _ (by omega), field_hi _ _ _ _ (by omega), field_hi _ _ _ _ (by omega), field_lo _ _ _ _ (by omega)]
  simp only [Nat.sub_sub]

theorem sh7_5_5_5_1_4_5_3 (x0 : BitVec 7) (x1 : BitVec 5) (x2 : BitVec 5) (x3 : BitVec 5) (x4 : BitVec 1) (x5 : BitVec 4) (x6 : BitVec 5) (lo k : Nat) (h : 10 ≤ lo) (h2 : lo + k ≤ 15) :
    fld (x0 ++ x1 ++ x2 ++ x3 ++ x4 ++ x5 ++ x6) lo k = x3.extractLsb' (lo - 10) k := by
  unfold fld
  rw [field_hi _ _ _ _ (by omega), field_hi _ _ _ _ (by omega), field_hi _ _ _ _ (by omega), field_lo _ _ _ _ (by omega)]
  simp only [Nat.sub_sub]

theorem sh7_5_5_5_1_4_5_4 (x0 : BitVec 7) (x1 : BitVec 5) (x2 : BitVec 5) (x3 : BitVec 5) (x4 : BitVec 1) (x5 : BitVec 4) (x6 : BitVec 5) (lo k : Nat) (h : 9 ≤ lo) (h2 : lo + k ≤ 10) :
    fld (x0 ++ x1 ++ x2 ++ x3 ++ x4 ++ x5 ++ x6) lo k = x4.extractLsb' (lo - 9) k := by
  unfold fld
  rw [field_hi _ _ _ _ (by omega), field_hi _ _ _ _ (by omega), field_lo _ _ _ _ (by omega)]
  simp only [Nat.sub_sub]

theorem sh7_5_5_5_1_4_5_5 (x0 : BitVec 7) (x1 : BitVec 5) (x2 : BitVec 5) (x3 : BitVec 5) (x4 : BitVec 1) (x5 : BitVec 4) (x6 : BitVec 5) (lo k : Nat) (h : 5 ≤ lo) (h2 : lo + k ≤ 9) :
    fld (x0 ++ x1 ++ x2 ++ x3 ++ x4 ++ x5 ++ x6) lo k = x5.extractLsb' (lo - 5) k := by
  unfold fld
  rw [field_hi _ _ _ _ (by omega), field_lo _ _ _ _ (by omega)]

theorem sh7_5_5_5_1_4_5_6 (x0 : BitVec 7) (x1 : BitVec 5) (x2 : BitVec 5) (x3 : BitVec 5) (x4 : BitVec 1) (x5 : BitVec 4) (x6 : BitVec 5) (lo k : Nat) (h2 : lo + k ≤ 5) :
    fld (x0 ++ x1 ++ x2 ++ x3 ++ x4 ++ x5 ++ x6) lo k = x6.extractLsb' (lo) k := by
  unfold fld
  rw [field_lo _ _ _ _ (by omega)]

theorem sh7_5_5_5_2_2_3_3_0 (x0 : BitVec 7) (x1 : BitVec 5) (x2 : BitVec 5) (x3 : BitVec 5) (x4 : BitVec 2) (x5 : BitVec 2) (x6 : BitVec 3) (x7 : BitVec 3) (lo k : Nat) (h : 25 ≤ lo) :
    fld (x0 ++ x1 ++ x2 ++ x3 ++ x4 ++ x5 ++ x6 ++ x7) lo k = x0.extractLsb' (lo - 25) k := by
  unfold fld
  rw [field_hi _ _ _ _ (by omega), field_hi _ _ _ _ (by omega), field_hi _ _ _ _ (by omega), field_hi _ _ _ _ (by omega), field_hi _ _ _ _ (by omega), field_hi _ _ _ _ (by omega), field_hi _ _ _ _ (by omega)]
  simp only [Nat.sub_sub]

theorem sh7_5_5_5_2_2_3_3_1 (x0 : BitVec 7) (x1 : BitVec 5) (x2 : BitVec 5) (x3 : BitVec 5) (x4 : BitVec 2) (x5 : BitVec 2) (x6 : BitVec 3) (x7 : BitVec 3) (lo k : Nat) (h : 20 ≤ lo) (h2 : lo + k ≤ 25) :
    fld (x0 ++ x1 ++ x2 ++ x3 ++ x4 ++ x5 ++ x6 ++ x7) lo k = x1.extractLsb' (lo - 20) k := by
  unfold fld
  rw [field_hi _ _ _ _ (by omega), field_hi _ _ _ _ (by omega), field_hi _ _ _ _ (by omega), field_hi _ _ _ _ (by omega), field_hi _ _ _ _ (by omega), field_hi _ _ _ _ (by omega), field_lo _ _ _ _ (by omega)]
  simp only [Nat.sub_sub]

theorem sh7_5_5_5_2_2_3_3_2 (x0 : BitVec 7) (x1 : BitVec 5) (x2 : BitVec 5) (x3 : BitVec 5) (x4 : BitVec 2) (x5 : BitVec 2) (x6 : BitVec 3) (x7 : BitVec 3) (lo k : Nat) (h : 15 ≤ lo) (h2 : lo + k ≤ 20) :
    fld (x0 ++ x1 ++ x2 ++ x3 ++ x4 ++ x5 ++ x6 ++ x7) lo k = x2.extractLsb' (lo - 15) k := by
  unfold fld
  rw [field_hi _ _ _ _ (by omega), field_hi _ _ _ _ (by omega), field_hi _ _ _ _ (by omega), field_hi _ _ _ _ (by omega), field_hi _ _ _ _ (by omega), field_lo _ _ _ _ (by omega)]
  simp only [Nat.sub_sub]

theorem sh7_5_5_5_2_2_3_3_3 (x0 : BitVec 7) (x1 : BitVec 5) (x2 : BitVec 5) (x3 : BitVec 5) (x4 : BitVec 2) (x5 : BitVec 2) (x6 : BitVec 3) (x7 : BitVec 3) (lo k : Nat) (h : 10 ≤ lo) (h2 : lo + k ≤ 15) :
    fld (x0 ++ x1 ++ x2 ++ x3 ++ x4 ++ x5 ++ x6 ++ x7) lo k = x3.extractLsb' (lo - 10) k := by
  unfold fld
  rw [field_hi _ _ _ _ (by omega), field_hi _ _ _ _ (by omega), field_hi _ _ _ _ (by omega), field_hi _ _ _ _ (by omega), field_lo _ _ _ _ (by omega)]
  simp only [Nat.sub_sub]

theorem sh7_5_5_5_2_2_3_3_4 (x0 : BitVec 7) (x1 : BitVec 5) (x2 : BitVec 5) (x3 : BitVec 5) (x4 : BitVec 2) (x5 : BitVec 2) (x6 : BitVec 3) (x7 : BitVec 3) (lo k : Nat) (h : 8 ≤ lo) (h2 : lo + k ≤ 10) :
    fld (x0 ++ x1 ++ x2 ++ x3 ++ x4 ++ x5 ++ x6 ++ x7) lo k = x4.extractLsb' (lo - 8) k := by
  unfold fld
  rw [field_hi _ _ _ _ (by omega), field_hi _ _ _ _ (by omega), field_hi _ _ _ _ (by omega), field_lo _ _ _ _ (by omega)]
  simp only [Nat.sub_sub]

theorem sh7_5_5_5_2_2_3_3_5 (x0 : BitVec 7) (x1 : BitVec 5) (x2 : BitVec 5) (x3 : BitVec 5) (x4 : BitVec 2) (x5 : BitVec 2) (x6 : BitVec 3) (x7 : BitVec 3) (lo k : Nat) (h : 6 ≤ lo) (h2 : lo + k ≤ 8) :
    fld (x0 ++ x1 ++ x2 ++ x3 ++ x4 ++ x5 ++ x6 ++ x7) lo k = x5.extractLsb' (lo - 6) k := by
  unfold fld
  rw [field_hi _ _ _ _ (by omega), field_hi _ _ _ _ (by omega), field_lo _ _ _ _ (by omega)]
  simp only [Nat.sub_sub]

theorem sh7_5_5_5_2_2_3_3_6 (x0 : BitVec 7) (x1 : BitVec 5) (x2 : BitVec 5) (x3 : BitVec 5) (x4 : BitVec 2) (x5 : BitVec 2) (x6 : BitVec 3) (x7 : BitVec 3) (lo k : Nat) (h : 3 ≤ lo) (h2 : lo + k ≤ 6) :
    fld (x0 ++ x1 ++ x2 ++ x3 ++ x4 ++ x5 ++ x6 ++ x7) lo k = x6.extractLsb' (lo - 3) k := by
  unfold fld
  rw [field_hi _ _ _ _ (by omega), field_lo _ _ _ _ (by omega)]

theorem sh7_5_5_5_2_2_3_3_7 (x0 : BitVec 7) (x1 : BitVec 5) (x2 : BitVec 5) (x3 : BitVec 5) (x4 : BitVec 2) (x5 : BitVec 2) (x6 : BitVec 3) (x7 : BitVec 3) (lo k : Nat) (h2 : lo + k ≤ 3) :
    fld (x0 ++ x1 ++ x2 ++ x3 ++ x4 ++ x5 ++ x6 ++ x7) lo k = x7.extractLsb' (lo) k := by
  unfold fld
  rw [field_lo _ _ _ _ (by omega)]

theorem sh7_5_5_5_5_5_0 (x0 : BitVec 7) (x1 : BitVec 5) (x2 : BitVec 5) (x3 : BitVec 5) (x4 : BitVec 5) (x5 : BitVec 5) (lo k : Nat) (h : 25 ≤ lo) :
    fld (x0 ++ x1 ++ x2 ++ x3 ++ x4 ++ x5) lo k = x0.extractLsb' (lo - 25) k := by
  unfold fld
  rw [field_hi _ _ _ _ (by omega), field_hi _ _ _ _ (by omega), field_hi _ _ _ _ (by omega), field_hi _ _ _ _ (by omega), field_hi _ _ _ _ (by omega)]
  simp only [Nat.sub_sub]

theorem sh7_5_5_5_5_5_1 (x0 : BitVec 7) (x1 : BitVec 5) (x2 : BitVec 5) (x3 : BitVec 5) (x4 : BitVec 5) (x5 : BitVec 5) (lo k : Nat) (h : 20 ≤ lo) (h2 : lo + k ≤ 25) :
    fld (x0 ++ x1 ++ x2 ++ x3 ++ x4 ++ x5) lo k = x1.extractLsb' (lo - 20) k := by
  unfold fld
  rw [field_hi _ _ _ _ (by omega), field_hi _ _ _ _ (by omega), field_hi _ _ _ _ (by omega), field_hi _ _ _ _ (by omega), field_lo _ _ _ _ (by omega)]
  simp only [Nat.sub_sub]

theorem sh7_5_5_5_5_5_2 (x0 : BitVec 7) (x1 : BitVec 5) (x2 : BitVec 5) (x3 : BitVec 5) (x4 : BitVec 5) (x5 : BitVec 5) (lo k : Nat) (h : 15 ≤ lo) (h2 : lo + k ≤ 20) :
    fld (x0 ++ x1 ++ x2 ++ x3 ++ x4 ++ x5) lo k = x2.extractLsb' (lo - 15) k := by
  unfold fld
  rw [field_hi _ _ _ _ (by omega), field_hi _ _ _ _ (by omega), field_hi _ _ _ _ (by omega), field_lo _ _ _ _ (by omega)]
  simp only [Nat.sub_sub]

theorem sh7_5_5_5_5_5_3 (x0 : BitVec 7) (x1 : BitVec 5) (x2 : BitVec 5) (x3 : BitVec 5) (x4 : BitVec 5) (x5 : BitVec 5) (lo k : Nat) (h : 10 ≤ lo) (h2 : lo + k ≤ 15) :
    fld (x0 ++ x1 ++ x2 ++ x3 ++ x4 ++ x5) lo k = x3.extractLsb' (lo - 10) k := by
  unfold fld
  rw [field_hi _ _ _ _ (by omega), field_hi _ _ _ _ (by omega), field_lo _ _ _ _ (by omega)]
  simp only [Nat.sub_sub]

theorem sh7_5_5_5_5_5_4 (x0 : BitVec 7) (x1 : BitVec 5) (x2 : BitVec 5) (x3 : BitVec 5) (x4 : BitVec 5) (x5 : BitVec 5) (lo k : Nat) (h : 5 ≤ lo) (h2 : lo + k ≤ 10) :
    fld (x0 ++ x1 ++ x2 ++ x3 ++ x4 ++ x5) lo k = x4.extractLsb' (lo - 5) k := by
  unfold fld
  rw [field_hi _ _ _ _ (by omega), field_lo _ _ _ _ (by omega)]

theorem sh7_5_5_5_5_5_5 (x0 : BitVec 7) (x1 : BitVec 5) (x2 : BitVec 5) (x3 : BitVec 5) (x4 : BitVec 5) (x5 : BitVec 5) (lo k : Nat) (h2 : lo + k ≤ 5) :
    fld (x0 ++ x1 ++ x2 ++ x3 ++ x4 ++ x5) lo k = x5.extractLsb' (lo) k := by
  unfold fld
  rw [field_lo _ _ _ _ (by omega)]

theorem sh7_5_10_5_5_0 (x0 : BitVec 7) (x1 : BitVec 5) (x2 : BitVec 10) (x3 : BitVec 5) (x4 : BitVec 5) (lo k : Nat) (h : 25 ≤ lo) :
    fld (x0 ++ x1 ++ x2 ++ x3 ++ x4) lo k = x0.extractLsb' (lo - 25) k := by
  unfold fld
  rw [field_hi _ _ _ _ (by omega), field_hi _ _ _ _ (by omega), field_hi _ _ _ _ (by omega), field_hi _ _ _ _ (by omega)]
  simp only [Nat.sub_sub]

theorem sh7_5_10_5_5_1 (x0 : BitVec 7) (x1 : BitVec 5) (x2 : BitVec 10) (x3 : BitVec 5) (x4 : BitVec 5) (lo k : Nat) (h : 20 ≤ lo) (h2 : lo + k ≤ 25) :
    fld (x0 ++ x1 ++ x2 ++ x3 ++ x4) lo k = x1.extractLsb' (lo - 20) k := by
  unfold fld
  rw [field_hi _ _ _ _ (by omega), field_hi _ _ _ _ (by omega), field_hi _ _ _ _ (by omega), field_lo _ _ _ _ (by omega)]
  simp only [Nat.sub_sub]

theorem sh7_5_10_5_5_2 (x0 : BitVec 7) (x1 : BitVec 5) (x2 : BitVec 10) (x3 : BitVec 5) (x4 : BitVec 5) (lo k : Nat) (h : 10 ≤ lo) (h2 : lo + k ≤ 20) :
    fld (x0 ++ x1 ++ x2 ++ x3 ++ x4) lo k = x2.extractLsb' (lo - 10) k := by
  unfold fld
  rw [field_hi _ _ _ _ (by omega), field_hi _ _ _ _ (by omega), field_lo _ _ _ _ (by omega)]
  simp only [Nat.sub_sub]

theorem sh7_5_10_5_5_3 (x0 : BitVec 7) (x1 : BitVec 5) (x2 : BitVec 10) (x3 : BitVec 5) (x4 : BitVec 5) (lo k : Nat) (h : 5 ≤ lo) (h2 : lo + k ≤ 10) :
    fld (x0 ++ x1 ++ x2 ++ x3 ++ x4) lo k = x3.extractLsb' (lo - 5) k := by
  unfold fld
  rw [field_hi _ _ _ _ (by omega), field_lo _ _ _ _ (by omega)]

theorem sh7_5_10_5_5_4 (x0 : BitVec 7) (x1 : BitVec 5) (x2 : BitVec 10) (x3 : BitVec 5) (x4 : BitVec 5) (lo k : Nat) (h2 : lo + k ≤ 5) :
    fld (x0 ++ x1 ++ x2 ++ x3 ++ x4) lo k = x4.extractLsb' (lo) k := by
  unfold fld
  rw [field_lo _ _ _ _ (by omega)]

theorem sh7_5_19_1_0 (x0 : BitVec 7) (x1 : BitVec 5) (x2 : BitVec 19) (x3 : BitVec 1) (lo k : Nat) (h : 25 ≤ lo) :
    fld (x0 ++ x1 ++ x2 ++ x3) lo k = x0.extractLsb' (lo - 25) k := by
  unfold fld
  rw [field_hi _ _ _ _ (by omega), field_hi _ _ _ _ (by omega), field_hi _ _ _ _ (by omega)]
  simp only [Nat.sub_sub]

theorem sh7_5_19_1_1 (x0 : BitVec 7) (x1 : BitVec 5) (x2 : BitVec 19) (x3 : BitVec 1) (lo k : Nat) (h : 20 ≤ lo) (h2 : lo + k ≤ 25) :
    fld (x0 ++ x1 ++ x2 ++ x3) lo k = x1.extractLsb' (lo - 20) k := by
  unfold fld
  rw [field_hi _ _ _ _ (by omega), field_hi _ _ _ _ (by omega), field_lo _ _ _ _ (by omega)]
  simp only [Nat.sub_sub]

theorem sh7_5_19_1_2 (x0 : BitVec 7) (x1 : BitVec 5) (x2 : BitVec 19) (x3 : BitVec 1) (lo k : Nat) (h : 1 ≤ lo) (h2 : lo + k ≤ 20) :
    fld (x0 ++ x1 ++ x2 ++ x3) lo k = x2.extractLsb' (lo - 1) k := by
  unfold fld
  rw [field_hi _ _ _ _ (by omega), field_lo _ _ _ _ (by omega)]

theorem sh7_5_19_1_3 (x0 : BitVec 7) (x1 : BitVec 5) (x2 : BitVec 19) (x3 : BitVec 1) (lo k : Nat) (h2 : lo + k ≤ 1) :
    fld (x0 ++ x1 ++ x2 ++ x3) lo k = x3.extractLsb' (lo) k := by
  unfold fld
  rw [field_lo _ _ _ _ (by omega)]

theorem sh10_22_0 (x0 : BitVec 10) (x1 : BitVec 22) (lo k : Nat) (h : 22 ≤ lo) :
    fld (x0 ++ x1) lo k = x0.extractLsb' (lo - 22) k := by
  unfold fld
  rw [field_hi _ _ _ _ (by omega)]

theorem sh10_22_1 (x0 : BitVec 10) (x1 : BitVec 22) (lo k : Nat) (h2 : lo + k ≤ 22) :
    fld (x0 ++ x1) lo k = x1.extractLsb' (lo) k := by
  unfold fld
  rw [field_lo _ _ _ _ (by omega)]

theorem sh30_2_0 (x0 : BitVec 30) (x1 : BitVec 2) (lo k : Nat) (h : 2 ≤ lo) :
    fld (x0 ++ x1) lo k = x0.extractLsb' (lo - 2) k := by
  unfold fld
  rw [field_hi _ _ _ _ (by omega)]

theorem sh30_2_1 (x0 : BitVec 30) (x1 : BitVec 2) (lo k : Nat) (h2 : lo + k ≤ 2) :
    fld (x0 ++ x1) lo k = x1.extractLsb' (lo) k := by
  unfold fld
  rw [field_lo _ _ _ _ (by omega)]

theorem sh31_1_0 (x0 : BitVec 31) (x1 : BitVec 1) (lo k : Nat) (h : 1 ≤ lo) :
    fld (x0 ++ x1) lo k = x0.extractLsb' (lo - 1) k := by
  unfold fld
  rw [field_hi _ _ _ _ (by omega)]

theorem sh31_1_1 (x0 : BitVec 31) (x1 : BitVec 1) (lo k : Nat) (h2 : lo + k ≤ 1) :
    fld (x0 ++ x1) lo k = x1.extractLsb' (lo) k := by
  unfold fld
  rw [field_lo _ _ _ _ (by omega)]

theorem sh26_2_1_1_2_0 (x0 : BitVec 26) (x1 : BitVec 2) (x2 : BitVec 1) (x3 : BitVec 1) (x4 : BitVec 2) (lo k : Nat) (h : 6 ≤ lo) :
    fld (x0 ++ x1 ++ x2 ++ x3 ++ x4) lo k = x0.extractLsb' (lo - 6) k := by
  unfold fld
  rw [field_hi _ _ _ _ (by omega), field_hi _ _ _ _ (by omega), field_hi _ _ _ _ (by omega), field_hi _ _ _ _ (by omega)]
  simp only [Nat.sub_sub]

theorem sh26_2_1_1_2_1 (x0 : BitVec 26) (x1 : BitVec 2) (x2 : BitVec 1) (x3 : BitVec 1) (x4 : BitVec 2) (lo k : Nat) (h : 4 ≤ lo) (h2 : lo + k ≤ 6) :
    fld (x0 ++ x1 ++ x2 ++ x3 ++ x4) lo k = x1.extractLsb' (lo - 4) k := by
  unfold fld
  rw [field_hi _ _ _ _ (by omega), field_hi _ _ _ _ (by omega), field_hi _ _ _ _ (by omega), field_lo _ _ _ _ (by omega)]
  simp only [Nat.sub_sub]

theorem sh26_2_1_1_2_2 (x0 : BitVec 26) (x1 : BitVec 2) (x2 : BitVec 1) (x3 : BitVec 1) (x4 : BitVec 2) (lo k : Nat) (h : 3 ≤ lo) (h2 : lo + k ≤ 4) :
    fld (x0 ++ x1 ++ x2 ++ x3 ++ x4) lo k = x2.extractLsb' (lo - 3) k := by
  unfold fld
  rw [field_hi _ _ _ _ (by omega), field_hi _ _ _ _ (by omega), field_lo _ _ _ _ (by omega)]
  simp only [Nat.sub_sub]

theorem sh26_2_1_1_2_3 (x0 : BitVec 26) (x1 : BitVec 2) (x2 : BitVec 1) (x3 : BitVec 1) (x4 : BitVec 2) (lo k : Nat) (h : 2 ≤ lo) (h2 : lo + k ≤ 3) :
    fld (x0 ++ x1 ++ x2 ++ x3 ++ x4) lo k = x3.extractLsb' (lo - 2) k := by
  unfold fld
  rw [field_hi _ _ _ _ (by omega), field_lo _ _ _ _ (by omega)]

theorem sh26_2_1_1_2_4 (x0 : BitVec 26) (x1 : BitVec 2) (x2 : BitVec 1) (x3 : BitVec 1) (x4 : BitVec 2) (lo k : Nat) (h2 : lo + k ≤ 2) :
    fld (x0 ++ x1 ++ x2 ++ x3 ++ x4) lo k = x4.extractLsb' (lo) k := by
  unfold fld
  rw [field_lo _ _ _ _ (by omega)]

end Sys2Proof.Laws
end

