-- ==== Sys2Proof/Laws/Store.lean ====
section
/-! SUPPORT. Sparse maps: reading after writing, and that every operation keeps the canonical form. -/

namespace Sys2Proof.Machine

variable {α : Type} [DecidableEq α] {d : α}

/-- No entry of a map stands at or below a key. -/
def SMap.above (k : Nat) (m : SMap α) : Prop := ∀ e ∈ m, k < e.1

/-- The canonical form, said entry by entry: keys strictly rising, no entry equal to the default. -/
theorem SMap.wf_cons {j : Nat} {x : α} {t : SMap α} :
    SMap.wf d ((j, x) :: t) = true ↔ x ≠ d ∧ SMap.above j t ∧ SMap.wf d t = true := by
  induction t generalizing j x with
  | nil => simp [SMap.wf, SMap.above]
  | cons e t ih =>
    obtain ⟨k, y⟩ := e
    have h : SMap.wf d ((j, x) :: (k, y) :: t) = true ↔ x ≠ d ∧ j < k ∧ SMap.wf d ((k, y) :: t) = true := by
      simp [SMap.wf, and_assoc]
    rw [h]
    constructor
    · rintro ⟨hx, hjk, hw⟩
      have habove := (ih.mp hw).2.1
      refine ⟨hx, ?_, hw⟩
      intro e he
      rcases List.mem_cons.mp he with rfl | he
      · exact hjk
      · exact lt_trans hjk (habove e he)
    · rintro ⟨hx, ha, hw⟩
      exact ⟨hx, ha (k, y) (List.mem_cons_self ..), hw⟩

/-- A filter of a canonical map is canonical. -/
theorem SMap.filter_wf {m : SMap α} (p : Nat × α → Bool) (h : SMap.wf d m = true) : SMap.wf d (m.filter p) = true := by
  induction m with
  | nil => rfl
  | cons e t ih =>
    obtain ⟨j, x⟩ := e
    obtain ⟨hx, ha, ht⟩ := SMap.wf_cons.mp h
    by_cases hp : p (j, x)
    · rw [List.filter_cons_of_pos hp]
      exact SMap.wf_cons.mpr ⟨hx, fun e he => ha e (List.mem_filter.mp he).1, ih ht⟩
    · rw [List.filter_cons_of_neg hp]
      exact ih ht

/-- Dropping a key keeps the canonical form. -/
theorem SMap.drop_wf {m : SMap α} (k : Nat) (h : SMap.wf d m = true) : SMap.wf d (SMap.drop m k) = true :=
  SMap.filter_wf _ h

/-- Where a write's entries stand: at the key written or where an entry stood. -/
theorem SMap.mem_put {m : SMap α} {k : Nat} {v : α} {e : Nat × α} (h : e ∈ SMap.put d m k v) : e = (k, v) ∨ e ∈ m := by
  induction m with
  | nil =>
    unfold SMap.put at h
    split at h
    · cases h
    · exact .inl (by simpa using h)
  | cons f t ih =>
    obtain ⟨j, x⟩ := f
    unfold SMap.put at h
    split at h
    · rcases List.mem_cons.mp h with rfl | h
      · exact .inr (List.mem_cons_self ..)
      · rcases ih h with h | h
        · exact .inl h
        · exact .inr (List.mem_cons_of_mem _ h)
    · split at h
      · exact .inr (List.mem_filter.mp h).1
      · rcases List.mem_cons.mp h with h | h
        · exact .inl h
        · exact .inr (List.mem_filter.mp h).1

/-- Writing keeps the canonical form. -/
theorem SMap.put_wf {m : SMap α} (k : Nat) (v : α) (h : SMap.wf d m = true) : SMap.wf d (SMap.put d m k v) = true := by
  induction m with
  | nil =>
    unfold SMap.put
    split <;> simp_all [SMap.wf]
  | cons e t ih =>
    obtain ⟨j, x⟩ := e
    obtain ⟨hx, ha, ht⟩ := SMap.wf_cons.mp h
    unfold SMap.put
    split
    case isTrue hj =>
      refine SMap.wf_cons.mpr ⟨hx, ?_, ih ht⟩
      intro e he
      rcases SMap.mem_put he with rfl | he
      · exact hj
      · exact ha e he
    case isFalse hj =>
      split
      · exact SMap.drop_wf k h
      · rename_i hv
        refine SMap.wf_cons.mpr ⟨hv, ?_, SMap.drop_wf k h⟩
        intro e he
        obtain ⟨hmem, hne⟩ := List.mem_filter.mp he
        have hk : e.1 ≠ k := by simpa using hne
        rcases List.mem_cons.mp hmem with rfl | hmem
        · omega
        · have := ha e hmem
          omega

/-- Changing a value keeps the canonical form. -/
theorem SMap.alter_wf {m : SMap α} (k : Nat) (f : α → α) (h : SMap.wf d m = true) : SMap.wf d (SMap.alter d m k f) = true :=
  SMap.put_wf _ _ h

omit [DecidableEq α] in
/-- What is not listed reads as the default. -/
theorem SMap.look_of_above {m : SMap α} {k : Nat} (h : ∀ e ∈ m, e.1 ≠ k) : SMap.look d m k = d := by
  induction m with
  | nil => rfl
  | cons e t ih =>
    obtain ⟨j, x⟩ := e
    have hj : j ≠ k := h (j, x) (List.mem_cons_self ..)
    simp only [SMap.look, hj, if_false]
    exact ih (fun e he => h e (List.mem_cons_of_mem _ he))

omit [DecidableEq α] in
/-- A dropped key reads as the default. -/
theorem SMap.look_drop_same (m : SMap α) (k : Nat) : SMap.look d (SMap.drop m k) k = d :=
  SMap.look_of_above (fun e he => by simpa using (List.mem_filter.mp he).2)

omit [DecidableEq α] in
/-- Dropping a key leaves every other as it was. -/
theorem SMap.look_drop_other (m : SMap α) {k i : Nat} (h : i ≠ k) : SMap.look d (SMap.drop m k) i = SMap.look d m i := by
  induction m with
  | nil => rfl
  | cons e t ih =>
    obtain ⟨j, x⟩ := e
    by_cases hj : j = k
    · have hd : SMap.drop ((j, x) :: t) k = SMap.drop t k := by simp [SMap.drop, hj]
      have hji : j ≠ i := by omega
      rw [hd, ih]
      simp [SMap.look, hji]
    · have hd : SMap.drop ((j, x) :: t) k = (j, x) :: SMap.drop t k := by simp [SMap.drop, hj]
      rw [hd]
      simp only [SMap.look]
      rw [ih]

/-- A read after a write to the same key gives the value written. -/
@[simp] theorem SMap.look_put_same (m : SMap α) (k : Nat) (v : α) : SMap.look d (SMap.put d m k v) k = v := by
  induction m with
  | nil =>
    unfold SMap.put
    split <;> simp_all [SMap.look]
  | cons e t ih =>
    obtain ⟨j, x⟩ := e
    unfold SMap.put
    split
    case isTrue hj =>
      have : j ≠ k := by omega
      simp [SMap.look, this, ih]
    case isFalse hj =>
      split
      · rename_i hv
        rw [SMap.look_drop_same, hv]
      · simp [SMap.look]

/-- A write leaves every other key as it was. -/
theorem SMap.look_put_other (m : SMap α) {k i : Nat} (v : α) (h : i ≠ k) : SMap.look d (SMap.put d m k v) i = SMap.look d m i := by
  induction m with
  | nil =>
    unfold SMap.put
    split
    · rfl
    · simp [SMap.look, Ne.symm h]
  | cons e t ih =>
    obtain ⟨j, x⟩ := e
    unfold SMap.put
    split
    case isTrue hj => simp only [SMap.look, ih]
    case isFalse hj =>
      split
      · exact SMap.look_drop_other _ h
      · have hk : k ≠ i := Ne.symm h
        simp only [SMap.look, hk, if_false]
        exact SMap.look_drop_other _ h

/-- A changed value reads as changed. -/
@[simp] theorem SMap.look_alter_same (m : SMap α) (k : Nat) (f : α → α) :
    SMap.look d (SMap.alter d m k f) k = f (SMap.look d m k) := SMap.look_put_same ..

/-- A change leaves every other key as it was. -/
theorem SMap.look_alter_other (m : SMap α) {k i : Nat} (f : α → α) (h : i ≠ k) :
    SMap.look d (SMap.alter d m k f) i = SMap.look d m i := SMap.look_put_other _ _ h

end Sys2Proof.Machine
end

