-- ==== Sys2Proof/Laws/Memory.lean ====
section
/-! SUPPORT. Memory: every write keeps the canonical form, a read after a write gives what was written, and a write leaves
every other byte alone (R5, R34). -/

namespace Sys2Proof.Machine

/-- Writing bytes keeps the canonical form. -/
theorem writeMem_wf {m : Memory} (loc : Nat) (b : List Byte) (h : Memory.wf m = true) : Memory.wf (writeMem m loc b) = true := by
  induction b generalizing m loc with
  | nil => exact h
  | cons x t ih => exact ih _ (SMap.put_wf _ _ h)

/-- Taking bytes out of memory keeps the canonical form. -/
theorem filter_mem_wf {m : Memory} (p : Nat × Byte → Bool) (h : Memory.wf m = true) : Memory.wf (m.filter p) = true :=
  SMap.filter_wf p h

/-- A byte outside the bytes written is as it was. -/
theorem look_writeMem_other (m : Memory) (loc : Nat) (b : List Byte) {i : Nat} (h : i < loc ∨ loc + b.length ≤ i) :
    SMap.look memDefault (writeMem m loc b) i = SMap.look memDefault m i := by
  induction b generalizing m loc with
  | nil => rfl
  | cons x t ih =>
    rw [List.length_cons] at h
    rw [writeMem, ih _ _ (by omega), SMap.look_put_other _ _ (by omega)]

/-- A byte among those written is the one written. -/
theorem look_writeMem_same (m : Memory) (loc : Nat) (b : List Byte) {i : Nat} (h : i < b.length) :
    SMap.look memDefault (writeMem m loc b) (loc + i) = b[i] := by
  induction b generalizing m loc i with
  | nil => exact absurd h (Nat.not_lt_zero _)
  | cons x t ih =>
    rw [writeMem]
    cases i with
    | zero => simp [look_writeMem_other, SMap.look_put_same]
    | succ i =>
      have := ih (SMap.put memDefault m loc x) (loc + 1) (i := i) (by simpa using h)
      rw [show loc + (i + 1) = loc + 1 + i by omega, this]
      rfl

/-- Two states with the same memory read the same byte everywhere. -/
theorem byteAt_congr {s t : State} (h : s.mem = t.mem) (loc : Nat) : s.byteAt loc = t.byteAt loc := by
  unfold State.byteAt
  rw [h]

/-- Two states with the same memory read the same bytes everywhere. -/
theorem bytesAt_congr {s t : State} (h : s.mem = t.mem) (loc n : Nat) : s.bytesAt loc n = t.bytesAt loc n := by
  unfold State.bytesAt
  exact List.map_congr_left (fun i _ => byteAt_congr h _)

/-- Bytes read back after a write of as many bytes to the same place are the bytes written. -/
theorem bytesAt_of_write {s : State} {m : Memory} {loc : Nat} {b : List Byte} (h : s.mem = writeMem m loc b) :
    s.bytesAt loc b.length = b := by
  apply List.ext_getElem
  · simp [State.bytesAt]
  · intro i h1 h2
    simp only [State.bytesAt, List.getElem_map, List.getElem_range, State.byteAt, h]
    exact look_writeMem_same m loc b h2

/-- The memory of the machine right after reset has the canonical form. -/
theorem reset_mem_wf : Memory.wf State.reset.mem = true := rfl

end Sys2Proof.Machine
end

