-- ==== Sys2Proof/Laws/PerInstr.lean ====
section
/-! SUPPORT. Per constructor: the word of a well-formed instruction decodes to that instruction (R272, R279). -/

namespace Sys2Proof.Laws

set_option Elab.async false
set_option linter.unusedSimpArgs false

/-- What the family says of one instruction: if it has a word and is well-formed, its word decodes to it. -/
def Trip.Statement (i : Instr) : Prop := i.wf = true → i.isWord = true → decodeWord (encode i) = .ok i

/-- A word is an instruction's when its major gives the instruction and the static checks pass. -/
theorem decodeWord_of {w : IWord} {i : Instr} (h : decodeMajor w = .ok i) (hw : i.wf = true) : decodeWord w = .ok i := by
  simp [decodeWord, h, hw]

theorem major_00 {w : IWord} (h : fld w 25 7 = 0x00#7) : decodeMajor w = decode00 w := by
  unfold decodeMajor
  rw [h]
  rfl

theorem major_01 {w : IWord} (h : fld w 25 7 = 0x01#7) : decodeMajor w = decode01 w := by
  unfold decodeMajor
  rw [h]
  rfl

theorem major_02 {w : IWord} (h : fld w 25 7 = 0x02#7) : decodeMajor w = decode02 w := by
  unfold decodeMajor
  rw [h]
  rfl

theorem major_04 {w : IWord} (h : fld w 25 7 = 0x04#7) : decodeMajor w = decode04 w := by
  unfold decodeMajor
  rw [h]
  rfl

theorem major_05 {w : IWord} (h : fld w 25 7 = 0x05#7) : decodeMajor w = decode05 w := by
  unfold decodeMajor
  rw [h]
  rfl

theorem major_06 {w : IWord} (h : fld w 25 7 = 0x06#7) : decodeMajor w = decode06 w := by
  unfold decodeMajor
  rw [h]
  rfl

theorem major_07 {w : IWord} (h : fld w 25 7 = 0x07#7) : decodeMajor w = decode07 w := by
  unfold decodeMajor
  rw [h]
  rfl

theorem major_08 {w : IWord} (h : fld w 25 7 = 0x08#7) : decodeMajor w = decode08 w := by
  unfold decodeMajor
  rw [h]
  rfl

theorem major_09 {w : IWord} (h : fld w 25 7 = 0x09#7) : decodeMajor w = decode09 w := by
  unfold decodeMajor
  rw [h]
  rfl

theorem major_0A {w : IWord} (h : fld w 25 7 = 0x0A#7) : decodeMajor w = decode0A w := by
  unfold decodeMajor
  rw [h]
  rfl

theorem major_0B {w : IWord} (h : fld w 25 7 = 0x0B#7) : decodeMajor w = decode0B w := by
  unfold decodeMajor
  rw [h]
  rfl

theorem major_0C {w : IWord} (h : fld w 25 7 = 0x0C#7) : decodeMajor w = decode0C w := by
  unfold decodeMajor
  rw [h]
  rfl

theorem major_0D {w : IWord} (h : fld w 25 7 = 0x0D#7) : decodeMajor w = decode0D w := by
  unfold decodeMajor
  rw [h]
  rfl

theorem major_10 {w : IWord} (h : fld w 25 7 = 0x10#7) : decodeMajor w = decode10 w := by
  unfold decodeMajor
  rw [h]
  rfl

theorem major_11 {w : IWord} (h : fld w 25 7 = 0x11#7) : decodeMajor w = decode11 w := by
  unfold decodeMajor
  rw [h]
  rfl

theorem major_12 {w : IWord} (h : fld w 25 7 = 0x12#7) : decodeMajor w = decode12 w := by
  unfold decodeMajor
  rw [h]
  rfl

theorem major_16 {w : IWord} (h : fld w 25 7 = 0x16#7) : decodeMajor w = decode16 w := by
  unfold decodeMajor
  rw [h]
  rfl

theorem major_18 {w : IWord} (h : fld w 25 7 = 0x18#7) : decodeMajor w = decode18 w := by
  unfold decodeMajor
  rw [h]
  rfl

theorem major_19 {w : IWord} (h : fld w 25 7 = 0x19#7) : decodeMajor w = decode19 w := by
  unfold decodeMajor
  rw [h]
  rfl

theorem major_1A {w : IWord} (h : fld w 25 7 = 0x1A#7) : decodeMajor w = decode1A w := by
  unfold decodeMajor
  rw [h]
  rfl

theorem major_1B {w : IWord} (h : fld w 25 7 = 0x1B#7) : decodeMajor w = decode1B w := by
  unfold decodeMajor
  rw [h]
  rfl

theorem major_1C {w : IWord} (h : fld w 25 7 = 0x1C#7) : decodeMajor w = decode1C w := by
  unfold decodeMajor
  rw [h]
  rfl

theorem major_1D {w : IWord} (h : fld w 25 7 = 0x1D#7) : decodeMajor w = decode1D w := by
  unfold decodeMajor
  rw [h]
  rfl

theorem major_1E {w : IWord} (h : fld w 25 7 = 0x1E#7) : decodeMajor w = decode1E w := by
  unfold decodeMajor
  rw [h]
  rfl

theorem major_1F {w : IWord} (h : fld w 25 7 = 0x1F#7) : decodeMajor w = decode1F w := by
  unfold decodeMajor
  rw [h]
  rfl

theorem major_20 {w : IWord} (h : fld w 25 7 = 0x20#7) : decodeMajor w = decode20 w := by
  unfold decodeMajor
  rw [h]
  rfl

theorem major_21 {w : IWord} (h : fld w 25 7 = 0x21#7) : decodeMajor w = decode21 w := by
  unfold decodeMajor
  rw [h]
  rfl

theorem major_22 {w : IWord} (h : fld w 25 7 = 0x22#7) : decodeMajor w = decode22 w := by
  unfold decodeMajor
  rw [h]
  rfl

theorem major_23 {w : IWord} (h : fld w 25 7 = 0x23#7) : decodeMajor w = decode23 w := by
  unfold decodeMajor
  rw [h]
  rfl

theorem major_24 {w : IWord} (h : fld w 25 7 = 0x24#7) : decodeMajor w = decode24 w := by
  unfold decodeMajor
  rw [h]
  rfl

theorem major_25 {w : IWord} (h : fld w 25 7 = 0x25#7) : decodeMajor w = decode25 w := by
  unfold decodeMajor
  rw [h]
  rfl

theorem major_26 {w : IWord} (h : fld w 25 7 = 0x26#7) : decodeMajor w = decode26 w := by
  unfold decodeMajor
  rw [h]
  rfl

theorem major_27 {w : IWord} (h : fld w 25 7 = 0x27#7) : decodeMajor w = decode27 w := by
  unfold decodeMajor
  rw [h]
  rfl

theorem major_28 {w : IWord} (h : fld w 25 7 = 0x28#7) : decodeMajor w = decode28 w := by
  unfold decodeMajor
  rw [h]
  rfl

theorem major_29 {w : IWord} (h : fld w 25 7 = 0x29#7) : decodeMajor w = decode29 w := by
  unfold decodeMajor
  rw [h]
  rfl

theorem major_2A {w : IWord} (h : fld w 25 7 = 0x2A#7) : decodeMajor w = decode2A w := by
  unfold decodeMajor
  rw [h]
  rfl

theorem major_2B {w : IWord} (h : fld w 25 7 = 0x2B#7) : decodeMajor w = decode2B w := by
  unfold decodeMajor
  rw [h]
  rfl

theorem major_2C {w : IWord} (h : fld w 25 7 = 0x2C#7) : decodeMajor w = decode2C w := by
  unfold decodeMajor
  rw [h]
  rfl

theorem major_2D {w : IWord} (h : fld w 25 7 = 0x2D#7) : decodeMajor w = decode2D w := by
  unfold decodeMajor
  rw [h]
  rfl

theorem major_2E {w : IWord} (h : fld w 25 7 = 0x2E#7) : decodeMajor w = decode2E w := by
  unfold decodeMajor
  rw [h]
  rfl

theorem major_2F {w : IWord} (h : fld w 25 7 = 0x2F#7) : decodeMajor w = decode2F w := by
  unfold decodeMajor
  rw [h]
  rfl

theorem major_30 {w : IWord} (h : fld w 25 7 = 0x30#7) : decodeMajor w = decode30 w := by
  unfold decodeMajor
  rw [h]
  rfl

theorem major_38 {w : IWord} (h : fld w 25 7 = 0x38#7) : decodeMajor w = decode38 w := by
  unfold decodeMajor
  rw [h]
  rfl

theorem major_39 {w : IWord} (h : fld w 25 7 = 0x39#7) : decodeMajor w = decode39 w := by
  unfold decodeMajor
  rw [h]
  rfl

theorem major_3A {w : IWord} (h : fld w 25 7 = 0x3A#7) : decodeMajor w = decode3A w := by
  unfold decodeMajor
  rw [h]
  rfl

theorem major_3B {w : IWord} (h : fld w 25 7 = 0x3B#7) : decodeMajor w = decode3B w := by
  unfold decodeMajor
  rw [h]
  rfl

theorem major_3C {w : IWord} (h : fld w 25 7 = 0x3C#7) : decodeMajor w = decode3C w := by
  unfold decodeMajor
  rw [h]
  rfl

theorem major_3D {w : IWord} (h : fld w 25 7 = 0x3D#7) : decodeMajor w = decode3D w := by
  unfold decodeMajor
  rw [h]
  rfl

theorem major_3E {w : IWord} (h : fld w 25 7 = 0x3E#7) : decodeMajor w = decode3E w := by
  unfold decodeMajor
  rw [h]
  rfl

theorem major_3F {w : IWord} (h : fld w 25 7 = 0x3F#7) : decodeMajor w = decode3F w := by
  unfold decodeMajor
  rw [h]
  rfl

theorem major_40 {w : IWord} (h : fld w 25 7 = 0x40#7) : decodeMajor w = decode40 w := by
  unfold decodeMajor
  rw [h]
  rfl

theorem major_41 {w : IWord} (h : fld w 25 7 = 0x41#7) : decodeMajor w = decode41 w := by
  unfold decodeMajor
  rw [h]
  rfl

theorem major_42 {w : IWord} (h : fld w 25 7 = 0x42#7) : decodeMajor w = decode42 w := by
  unfold decodeMajor
  rw [h]
  rfl

theorem major_43 {w : IWord} (h : fld w 25 7 = 0x43#7) : decodeMajor w = decode43 w := by
  unfold decodeMajor
  rw [h]
  rfl

theorem major_44 {w : IWord} (h : fld w 25 7 = 0x44#7) : decodeMajor w = decode44 w := by
  unfold decodeMajor
  rw [h]
  rfl

theorem major_45 {w : IWord} (h : fld w 25 7 = 0x45#7) : decodeMajor w = decode45 w := by
  unfold decodeMajor
  rw [h]
  rfl

theorem major_46 {w : IWord} (h : fld w 25 7 = 0x46#7) : decodeMajor w = decode46 w := by
  unfold decodeMajor
  rw [h]
  rfl

theorem major_47 {w : IWord} (h : fld w 25 7 = 0x47#7) : decodeMajor w = decode47 w := by
  unfold decodeMajor
  rw [h]
  rfl

theorem major_48 {w : IWord} (h : fld w 25 7 = 0x48#7) : decodeMajor w = decode48 w := by
  unfold decodeMajor
  rw [h]
  rfl

theorem major_50 {w : IWord} (h : fld w 25 7 = 0x50#7) : decodeMajor w = decode50 w := by
  unfold decodeMajor
  rw [h]
  rfl

theorem major_51 {w : IWord} (h : fld w 25 7 = 0x51#7) : decodeMajor w = decode51 w := by
  unfold decodeMajor
  rw [h]
  rfl

theorem major_52 {w : IWord} (h : fld w 25 7 = 0x52#7) : decodeMajor w = decode52 w := by
  unfold decodeMajor
  rw [h]
  rfl

theorem major_53 {w : IWord} (h : fld w 25 7 = 0x53#7) : decodeMajor w = decode53 w := by
  unfold decodeMajor
  rw [h]
  rfl

theorem major_54 {w : IWord} (h : fld w 25 7 = 0x54#7) : decodeMajor w = decode54 w := by
  unfold decodeMajor
  rw [h]
  rfl

theorem major_55 {w : IWord} (h : fld w 25 7 = 0x55#7) : decodeMajor w = decode55 w := by
  unfold decodeMajor
  rw [h]
  rfl

theorem major_60 {w : IWord} (h : fld w 25 7 = 0x60#7) : decodeMajor w = decode60 w := by
  unfold decodeMajor
  rw [h]
  rfl

theorem major_64 {w : IWord} (h : fld w 25 7 = 0x64#7) : decodeMajor w = decode64 w := by
  unfold decodeMajor
  rw [h]
  rfl

theorem major_66 {w : IWord} (h : fld w 25 7 = 0x66#7) : decodeMajor w = decode66 w := by
  unfold decodeMajor
  rw [h]
  rfl

theorem major_68 {w : IWord} (h : fld w 25 7 = 0x68#7) : decodeMajor w = decode68 w := by
  unfold decodeMajor
  rw [h]
  rfl

theorem major_70 {w : IWord} (h : fld w 25 7 = 0x70#7) : decodeMajor w = decode70 w := by
  unfold decodeMajor
  rw [h]
  rfl

theorem major_7F {w : IWord} (h : fld w 25 7 = 0x7F#7) : decodeMajor w = decode7F w := by
  unfold decodeMajor
  rw [h]
  rfl

theorem Trip.coldReset : Trip.Statement (.coldReset) := fun _ h => Bool.noConfusion (show false = true from h)

theorem Trip.warmPackageReset : Trip.Statement (.warmPackageReset) := fun _ h => Bool.noConfusion (show false = true from h)

theorem Trip.resetSequenceStepDone : ∀ r, Trip.Statement (.resetSequenceStepDone r) := fun _ _ h => Bool.noConfusion (show false = true from h)

theorem Trip.securityVersionAdvance : ∀ version, Trip.Statement (.securityVersionAdvance version) := fun _ _ h => Bool.noConfusion (show false = true from h)

theorem Trip.thermalSensorSample : ∀ stack unit milliC, Trip.Statement (.thermalSensorSample stack unit milliC) := fun _ _ _ _ h => Bool.noConfusion (show false = true from h)

theorem Trip.powerWindowCheck : ∀ watts hottest, Trip.Statement (.powerWindowCheck watts hottest) := fun _ _ _ h => Bool.noConfusion (show false = true from h)

theorem Trip.avsRateCheck : ∀ die, Trip.Statement (.avsRateCheck die) := fun _ _ h => Bool.noConfusion (show false = true from h)

theorem Trip.matrixEngineRamp : ∀ die, Trip.Statement (.matrixEngineRamp die) := fun _ _ h => Bool.noConfusion (show false = true from h)

theorem Trip.guestTimebaseCorrection : ∀ pdie owning, Trip.Statement (.guestTimebaseCorrection pdie owning) := fun _ _ _ h => Bool.noConfusion (show false = true from h)

theorem Trip.maintGreeting : ∀ port g, Trip.Statement (.maintGreeting port g) := fun _ _ _ h => Bool.noConfusion (show false = true from h)

theorem Trip.portListFlood : ∀ pkg ports, Trip.Statement (.portListFlood pkg ports) := fun _ _ _ h => Bool.noConfusion (show false = true from h)

theorem Trip.portListFloodTimer : Trip.Statement (.portListFloodTimer) := fun _ h => Bool.noConfusion (show false = true from h)

theorem Trip.routePacket : ∀ router p owner, Trip.Statement (.routePacket router p owner) := fun _ _ _ _ h => Bool.noConfusion (show false = true from h)

theorem Trip.unmappedResponse : ∀ p, Trip.Statement (.unmappedResponse p) := fun _ _ h => Bool.noConfusion (show false = true from h)

theorem Trip.routeHoldRelease : ∀ line, Trip.Statement (.routeHoldRelease line) := fun _ _ h => Bool.noConfusion (show false = true from h)

theorem Trip.hopPacketReceive : ∀ port p, Trip.Statement (.hopPacketReceive port p) := fun _ _ _ h => Bool.noConfusion (show false = true from h)

theorem Trip.recoveryNakTimeout : ∀ port, Trip.Statement (.recoveryNakTimeout port) := fun _ _ h => Bool.noConfusion (show false = true from h)

theorem Trip.hopAckTimer : ∀ port, Trip.Statement (.hopAckTimer port) := fun _ _ h => Bool.noConfusion (show false = true from h)

theorem Trip.ackReceived : ∀ port hack, Trip.Statement (.ackReceived port hack) := fun _ _ _ h => Bool.noConfusion (show false = true from h)

theorem Trip.nakReceived : ∀ port hseq, Trip.Statement (.nakReceived port hseq) := fun _ _ _ h => Bool.noConfusion (show false = true from h)

theorem Trip.replayTimeout : ∀ port, Trip.Statement (.replayTimeout port) := fun _ _ h => Bool.noConfusion (show false = true from h)

theorem Trip.e2eNak : ∀ p, Trip.Statement (.e2eNak p) := fun _ _ h => Bool.noConfusion (show false = true from h)

theorem Trip.laneLockTimeout : ∀ port lane, Trip.Statement (.laneLockTimeout port lane) := fun _ _ _ h => Bool.noConfusion (show false = true from h)

theorem Trip.laneFail : ∀ port mask target, Trip.Statement (.laneFail port mask target) := fun _ _ _ _ h => Bool.noConfusion (show false = true from h)

theorem Trip.trainComplete : ∀ port rx, Trip.Statement (.trainComplete port rx) := fun _ _ _ h => Bool.noConfusion (show false = true from h)

theorem Trip.trainTimeout : ∀ port rx, Trip.Statement (.trainTimeout port rx) := fun _ _ _ h => Bool.noConfusion (show false = true from h)

theorem Trip.portDownReroute : ∀ port, Trip.Statement (.portDownReroute port) := fun _ _ h => Bool.noConfusion (show false = true from h)

theorem Trip.portRetrainRetry : ∀ port, Trip.Statement (.portRetrainRetry port) := fun _ _ h => Bool.noConfusion (show false = true from h)

theorem Trip.creditTimeout : ∀ port waitedUs, Trip.Statement (.creditTimeout port waitedUs) := fun _ _ _ h => Bool.noConfusion (show false = true from h)

theorem Trip.quiesceNotice : ∀ pkg limitUs, Trip.Statement (.quiesceNotice pkg limitUs) := fun _ _ _ h => Bool.noConfusion (show false = true from h)

theorem Trip.resumeNotice : ∀ pkg, Trip.Statement (.resumeNotice pkg) := fun _ _ h => Bool.noConfusion (show false = true from h)

theorem Trip.dieMapChange : ∀ m readbackOk, Trip.Statement (.dieMapChange m readbackOk) := fun _ _ _ h => Bool.noConfusion (show false = true from h)

theorem Trip.completionAnnouncementTimer : ∀ die, Trip.Statement (.completionAnnouncementTimer die) := fun _ _ h => Bool.noConfusion (show false = true from h)

theorem Trip.completionAnnouncement : ∀ die p, Trip.Statement (.completionAnnouncement die p) := fun _ _ _ h => Bool.noConfusion (show false = true from h)

theorem Trip.causalWritePerform : ∀ id, Trip.Statement (.causalWritePerform id) := fun _ _ h => Bool.noConfusion (show false = true from h)

theorem Trip.crossDieReadPerform : ∀ c, Trip.Statement (.crossDieReadPerform c) := fun _ _ h => Bool.noConfusion (show false = true from h)

theorem Trip.rdcStampAgeDrop : ∀ die line, Trip.Statement (.rdcStampAgeDrop die line) := fun _ _ _ h => Bool.noConfusion (show false = true from h)

theorem Trip.homeAtomic : ∀ cv p, Trip.Statement (.homeAtomic cv p) := fun _ _ _ h => Bool.noConfusion (show false = true from h)

theorem Trip.homeCntdec : ∀ cv p, Trip.Statement (.homeCntdec cv p) := fun _ _ _ h => Bool.noConfusion (show false = true from h)

theorem Trip.homeWrite : ∀ cv p, Trip.Statement (.homeWrite cv p) := fun _ _ _ h => Bool.noConfusion (show false = true from h)

theorem Trip.storeAck : ∀ id, Trip.Statement (.storeAck id) := fun _ _ h => Bool.noConfusion (show false = true from h)

theorem Trip.loadDataReturn : ∀ c, Trip.Statement (.loadDataReturn c) := fun _ _ h => Bool.noConfusion (show false = true from h)

theorem Trip.longOpComplete : ∀ c answer, Trip.Statement (.longOpComplete c answer) := fun _ _ _ h => Bool.noConfusion (show false = true from h)

theorem Trip.baseDieRead : ∀ stack p ecc, Trip.Statement (.baseDieRead stack p ecc) := fun _ _ _ _ h => Bool.noConfusion (show false = true from h)

theorem Trip.refreshWindowStart : ∀ stack, Trip.Statement (.refreshWindowStart stack) := fun _ _ h => Bool.noConfusion (show false = true from h)

theorem Trip.baseDieWrite : ∀ stack p, Trip.Statement (.baseDieWrite stack p) := fun _ _ _ h => Bool.noConfusion (show false = true from h)

theorem Trip.victimWrite : ∀ stack p, Trip.Statement (.victimWrite stack p) := fun _ _ _ h => Bool.noConfusion (show false = true from h)

theorem Trip.overflowFlush : ∀ stack line, Trip.Statement (.overflowFlush stack line) := fun _ _ _ h => Bool.noConfusion (show false = true from h)

theorem Trip.overflowDiscard : ∀ stack line, Trip.Statement (.overflowDiscard stack line) := fun _ _ _ h => Bool.noConfusion (show false = true from h)

theorem Trip.writeMasked : ∀ stack p, Trip.Statement (.writeMasked stack p) := fun _ _ _ h => Bool.noConfusion (show false = true from h)

theorem Trip.maskedMergeComplete : ∀ stack granule ecc, Trip.Statement (.maskedMergeComplete stack granule ecc) := fun _ _ _ _ h => Bool.noConfusion (show false = true from h)

theorem Trip.shipRoutine : ∀ stack p, Trip.Statement (.shipRoutine stack p) := fun _ _ _ h => Bool.noConfusion (show false = true from h)

theorem Trip.stitchWrite : ∀ stack p rebuilt, Trip.Statement (.stitchWrite stack p rebuilt) := fun _ _ _ _ h => Bool.noConfusion (show false = true from h)

theorem Trip.requesterReply : ∀ p, Trip.Statement (.requesterReply p) := fun _ _ h => Bool.noConfusion (show false = true from h)

theorem Trip.baseDiePortLoss : ∀ stack portB, Trip.Statement (.baseDiePortLoss stack portB) := fun _ _ _ h => Bool.noConfusion (show false = true from h)

theorem Trip.patrolScrub : ∀ stack granule ecc, Trip.Statement (.patrolScrub stack granule ecc) := fun _ _ _ _ h => Bool.noConfusion (show false = true from h)

theorem Trip.occtlWrite : ∀ stack en, Trip.Statement (.occtlWrite stack en) := fun _ _ _ h => Bool.noConfusion (show false = true from h)

theorem Trip.overflowDrainDone : ∀ stack, Trip.Statement (.overflowDrainDone stack) := fun _ _ h => Bool.noConfusion (show false = true from h)

theorem Trip.routineTableWrite : ∀ stack index r, Trip.Statement (.routineTableWrite stack index r) := fun _ _ _ _ h => Bool.noConfusion (show false = true from h)

theorem Trip.registerWrite : ∀ r, Trip.Statement (.registerWrite r) := fun _ _ h => Bool.noConfusion (show false = true from h)

theorem Trip.faultEvent : ∀ u kind loc, Trip.Statement (.faultEvent u kind loc) := fun _ _ _ _ h => Bool.noConfusion (show false = true from h)

theorem Trip.probeTimeout : ∀ u, Trip.Statement (.probeTimeout u) := fun _ _ h => Bool.noConfusion (show false = true from h)

theorem Trip.timingDetectorReplay : ∀ c again, Trip.Statement (.timingDetectorReplay c again) := fun _ _ _ h => Bool.noConfusion (show false = true from h)

theorem Trip.retirementProposal : ∀ u silent proposer answers, Trip.Statement (.retirementProposal u silent proposer answers) := fun _ _ _ _ _ h => Bool.noConfusion (show false = true from h)

theorem Trip.voteAnswerTimeout : ∀ u, Trip.Statement (.voteAnswerTimeout u) := fun _ _ h => Bool.noConfusion (show false = true from h)

theorem Trip.peerVote : ∀ b, Trip.Statement (.peerVote b) := fun _ _ h => Bool.noConfusion (show false = true from h)

theorem Trip.peerVoteTimeout : ∀ u first, Trip.Statement (.peerVoteTimeout u first) := fun _ _ _ h => Bool.noConfusion (show false = true from h)

theorem Trip.gracefulCoreRetirement : ∀ die core spare, Trip.Statement (.gracefulCoreRetirement die core spare) := fun _ _ _ _ h => Bool.noConfusion (show false = true from h)

theorem Trip.abruptCoreRetirement : ∀ die core spare, Trip.Statement (.abruptCoreRetirement die core spare) := fun _ _ _ _ h => Bool.noConfusion (show false = true from h)

theorem Trip.stackRetirement : ∀ stack spare answers, Trip.Statement (.stackRetirement stack spare answers) := fun _ _ _ _ h => Bool.noConfusion (show false = true from h)

theorem Trip.stackRebuildSector : ∀ sector bytes, Trip.Statement (.stackRebuildSector sector bytes) := fun _ _ _ h => Bool.noConfusion (show false = true from h)

theorem Trip.stackRebuildDone : ∀ stack, Trip.Statement (.stackRebuildDone stack) := fun _ _ h => Bool.noConfusion (show false = true from h)

theorem Trip.dieSubstitutionLocal : ∀ die spare answers selfTestOk, Trip.Statement (.dieSubstitutionLocal die spare answers selfTestOk) := fun _ _ _ _ _ h => Bool.noConfusion (show false = true from h)

theorem Trip.dieSubstitutionRemote : ∀ die pkg pdie selfTestOk, Trip.Statement (.dieSubstitutionRemote die pkg pdie selfTestOk) := fun _ _ _ _ _ h => Bool.noConfusion (show false = true from h)

theorem Trip.heartbeatTimer : Trip.Statement (.heartbeatTimer) := fun _ h => Bool.noConfusion (show false = true from h)

theorem Trip.heartbeatMiss : ∀ pkg missed, Trip.Statement (.heartbeatMiss pkg missed) := fun _ _ _ h => Bool.noConfusion (show false = true from h)

theorem Trip.packageLoss : ∀ pkg spare trayLost, Trip.Statement (.packageLoss pkg spare trayLost) := fun _ _ _ _ h => Bool.noConfusion (show false = true from h)

theorem Trip.stitchDeltaReceive : ∀ group p, Trip.Statement (.stitchDeltaReceive group p) := fun _ _ _ h => Bool.noConfusion (show false = true from h)

theorem Trip.stitchResendTimeout : ∀ die core slot, Trip.Statement (.stitchResendTimeout die core slot) := fun _ _ _ _ h => Bool.noConfusion (show false = true from h)

theorem Trip.stitchUnitDelta : ∀ die core line mask delta group dom, Trip.Statement (.stitchUnitDelta die core line mask delta group dom) := fun _ _ _ _ _ _ _ _ h => Bool.noConfusion (show false = true from h)

theorem Trip.stitchAckReceive : ∀ die core slot holder, Trip.Statement (.stitchAckReceive die core slot holder) := fun _ _ _ _ _ h => Bool.noConfusion (show false = true from h)

theorem Trip.scpHello : ∀ d, Trip.Statement (.scpHello d) := fun _ _ h => Bool.noConfusion (show false = true from h)

theorem Trip.scpAuth : ∀ d, Trip.Statement (.scpAuth d) := fun _ _ h => Bool.noConfusion (show false = true from h)

theorem Trip.scpAck : ∀ d, Trip.Statement (.scpAck d) := fun _ _ h => Bool.noConfusion (show false = true from h)

theorem Trip.scpBye : ∀ session, Trip.Statement (.scpBye session) := fun _ _ h => Bool.noConfusion (show false = true from h)

theorem Trip.scpCommandReceive : ∀ d, Trip.Statement (.scpCommandReceive d) := fun _ _ h => Bool.noConfusion (show false = true from h)

theorem Trip.scpDiscard : ∀ d, Trip.Statement (.scpDiscard d) := fun _ _ h => Bool.noConfusion (show false = true from h)

theorem Trip.scpAckTimer : ∀ session, Trip.Statement (.scpAckTimer session) := fun _ _ h => Bool.noConfusion (show false = true from h)

theorem Trip.scpResendTimer : ∀ session seq, Trip.Statement (.scpResendTimer session seq) := fun _ _ _ h => Bool.noConfusion (show false = true from h)

theorem Trip.scpIdleTimeout : ∀ session, Trip.Statement (.scpIdleTimeout session) := fun _ _ h => Bool.noConfusion (show false = true from h)

theorem Trip.portFailover : Trip.Statement (.portFailover) := fun _ h => Bool.noConfusion (show false = true from h)

theorem Trip.hostLinkDownTimeout : ∀ probeOk, Trip.Statement (.hostLinkDownTimeout probeOk) := fun _ _ h => Bool.noConfusion (show false = true from h)

theorem Trip.openTenant : ∀ h tenant queues evcount evdelay store debug, Trip.Statement (.openTenant h tenant queues evcount evdelay store debug) := fun _ _ _ _ _ _ _ _ h => Bool.noConfusion (show false = true from h)

theorem Trip.close : ∀ h, Trip.Statement (.close h) := fun _ _ h => Bool.noConfusion (show false = true from h)

theorem Trip.mapwin : ∀ h b pl, Trip.Statement (.mapwin h b pl) := fun _ _ _ _ h => Bool.noConfusion (show false = true from h)

theorem Trip.templates : ∀ h first images, Trip.Statement (.templates h first images) := fun _ _ _ _ h => Bool.noConfusion (show false = true from h)

theorem Trip.routines : ∀ h first entries, Trip.Statement (.routines h first entries) := fun _ _ _ _ h => Bool.noConfusion (show false = true from h)

theorem Trip.launch : ∀ h body, Trip.Statement (.launch h body) := fun _ _ _ h => Bool.noConfusion (show false = true from h)

theorem Trip.cntsetSet : ∀ h va value, Trip.Statement (.cntsetSet h va value) := fun _ _ _ _ h => Bool.noConfusion (show false = true from h)

theorem Trip.cntsetDec : ∀ h va value, Trip.Statement (.cntsetDec h va value) := fun _ _ _ _ h => Bool.noConfusion (show false = true from h)

theorem Trip.copyin : ∀ h va bytes, Trip.Statement (.copyin h va bytes) := fun _ _ _ _ h => Bool.noConfusion (show false = true from h)

theorem Trip.copyout : ∀ h va length, Trip.Statement (.copyout h va length) := fun _ _ _ _ h => Bool.noConfusion (show false = true from h)

theorem Trip.waitev : ∀ h mask max timeout, Trip.Statement (.waitev h mask max timeout) := fun _ _ _ _ _ h => Bool.noConfusion (show false = true from h)

theorem Trip.waitevTimeout : ∀ h, Trip.Statement (.waitevTimeout h) := fun _ _ h => Bool.noConfusion (show false = true from h)

theorem Trip.groupCreate : ∀ h b, Trip.Statement (.groupCreate h b) := fun _ _ _ h => Bool.noConfusion (show false = true from h)

theorem Trip.groupPoison : ∀ h handle, Trip.Statement (.groupPoison h handle) := fun _ _ _ h => Bool.noConfusion (show false = true from h)

theorem Trip.ckpt : ∀ h b r, Trip.Statement (.ckpt h b r) := fun _ _ _ _ h => Bool.noConfusion (show false = true from h)

theorem Trip.restore : ∀ h members replacements, Trip.Statement (.restore h members replacements) := fun _ _ _ _ h => Bool.noConfusion (show false = true from h)

theorem Trip.reset : ∀ h tenant closing, Trip.Statement (.reset h tenant closing) := fun _ _ _ _ h => Bool.noConfusion (show false = true from h)

theorem Trip.attest : ∀ h nonce, Trip.Statement (.attest h nonce) := fun _ _ _ h => Bool.noConfusion (show false = true from h)

theorem Trip.powercap : ∀ h watts, Trip.Statement (.powercap h watts) := fun _ _ _ h => Bool.noConfusion (show false = true from h)

theorem Trip.pagedata : ∀ h handle offset bytes last, Trip.Statement (.pagedata h handle offset bytes last) := fun _ _ _ _ _ _ h => Bool.noConfusion (show false = true from h)

theorem Trip.pageout : ∀ h handle offset length last, Trip.Statement (.pageout h handle offset length last) := fun _ _ _ _ _ _ h => Bool.noConfusion (show false = true from h)

theorem Trip.eventDelayExpiry : ∀ tenant, Trip.Statement (.eventDelayExpiry tenant) := fun _ _ h => Bool.noConfusion (show false = true from h)

theorem Trip.waiterPoolEntryFree : ∀ die, Trip.Statement (.waiterPoolEntryFree die) := fun _ _ h => Bool.noConfusion (show false = true from h)

theorem Trip.trapResolution : Trip.Statement (.trapResolution) := fun _ h => Bool.noConfusion (show false = true from h)

theorem Trip.supervisorTrap : ∀ die core cause tval, Trip.Statement (.supervisorTrap die core cause tval) := fun _ _ _ _ _ h => Bool.noConfusion (show false = true from h)

theorem Trip.pageEviction : ∀ tenant va handle, Trip.Statement (.pageEviction tenant va handle) := fun _ _ _ _ h => Bool.noConfusion (show false = true from h)

theorem Trip.pageMigration : ∀ tenant va window dst, Trip.Statement (.pageMigration tenant va window dst) := fun _ _ _ _ _ h => Bool.noConfusion (show false = true from h)

theorem Trip.migrationSwitch : ∀ index, Trip.Statement (.migrationSwitch index) := fun _ _ h => Bool.noConfusion (show false = true from h)

theorem Trip.migrationAbort : ∀ index addr, Trip.Statement (.migrationAbort index addr) := fun _ _ _ h => Bool.noConfusion (show false = true from h)

theorem Trip.spoutBind : ∀ c, Trip.Statement (.spoutBind c) := fun _ _ h => Bool.noConfusion (show false = true from h)

theorem Trip.preemptionTimer : ∀ die, Trip.Statement (.preemptionTimer die) := fun _ _ h => Bool.noConfusion (show false = true from h)

theorem Trip.spillStart : ∀ c, Trip.Statement (.spillStart c) := fun _ _ h => Bool.noConfusion (show false = true from h)

theorem Trip.harvestUnpark : ∀ c, Trip.Statement (.harvestUnpark c) := fun _ _ h => Bool.noConfusion (show false = true from h)

theorem Trip.domainFault : ∀ dom cause addr, Trip.Statement (.domainFault dom cause addr) := fun _ _ _ _ h => Bool.noConfusion (show false = true from h)

theorem Trip.domainRestart : ∀ dom, Trip.Statement (.domainRestart dom) := fun _ _ h => Bool.noConfusion (show false = true from h)

theorem Trip.pageWalkComplete : ∀ c va, Trip.Statement (.pageWalkComplete c va) := fun _ _ _ h => Bool.noConfusion (show false = true from h)

theorem Trip.runaheadEnd : ∀ c, Trip.Statement (.runaheadEnd c) := fun _ _ h => Bool.noConfusion (show false = true from h)

theorem Trip.monitorFire : ∀ c, Trip.Statement (.monitorFire c) := fun _ _ h => Bool.noConfusion (show false = true from h)

theorem Trip.monitorTimeout : ∀ c, Trip.Statement (.monitorTimeout c) := fun _ _ h => Bool.noConfusion (show false = true from h)

theorem Trip.holdViolationRemote : ∀ c va, Trip.Statement (.holdViolationRemote c va) := fun _ _ _ h => Bool.noConfusion (show false = true from h)

theorem Trip.start : ∀ data, Trip.Statement (.start data) := fun _ _ h => Bool.noConfusion (show false = true from h)

theorem Trip.copyAccept : ∀ die core chan, Trip.Statement (.copyAccept die core chan) := fun _ _ _ _ h => Bool.noConfusion (show false = true from h)

theorem Trip.copyComplete : ∀ die core chan, Trip.Statement (.copyComplete die core chan) := fun _ _ _ _ h => Bool.noConfusion (show false = true from h)

theorem Trip.copySuspend : ∀ die core chan offset va, Trip.Statement (.copySuspend die core chan offset va) := fun _ _ _ _ _ _ h => Bool.noConfusion (show false = true from h)

theorem Trip.copyResume : ∀ die core chan, Trip.Statement (.copyResume die core chan) := fun _ _ _ _ h => Bool.noConfusion (show false = true from h)

theorem Trip.copyFaultEnd : ∀ die core chan code offset, Trip.Statement (.copyFaultEnd die core chan code offset) := fun _ _ _ _ _ _ h => Bool.noConfusion (show false = true from h)

theorem Trip.scoreboardEntryFree : ∀ die core entry, Trip.Statement (.scoreboardEntryFree die core entry) := fun _ _ _ _ h => Bool.noConfusion (show false = true from h)

theorem Trip.matrixOpStart : ∀ die core, Trip.Statement (.matrixOpStart die core) := fun _ _ _ h => Bool.noConfusion (show false = true from h)

theorem Trip.matrixBlockEnd : ∀ die core residue parity, Trip.Statement (.matrixBlockEnd die core residue parity) := fun _ _ _ _ _ h => Bool.noConfusion (show false = true from h)

theorem Trip.matrixCommit : ∀ die core, Trip.Statement (.matrixCommit die core) := fun _ _ _ h => Bool.noConfusion (show false = true from h)

theorem Trip.weirPartialForward : ∀ die handle, Trip.Statement (.weirPartialForward die handle) := fun _ _ _ h => Bool.noConfusion (show false = true from h)

theorem Trip.weirPartialArrival : ∀ handle remote, Trip.Statement (.weirPartialArrival handle remote) := fun _ _ _ h => Bool.noConfusion (show false = true from h)

theorem Trip.weirVerdict : ∀ c remote, Trip.Statement (.weirVerdict c remote) := fun _ _ _ h => Bool.noConfusion (show false = true from h)

theorem Trip.weirRecordReceive : ∀ die handle tag remote, Trip.Statement (.weirRecordReceive die handle tag remote) := fun _ _ _ _ _ h => Bool.noConfusion (show false = true from h)

theorem Trip.send : ∀ die slot, Trip.Statement (.send die slot) := fun _ _ _ h => Bool.noConfusion (show false = true from h)

theorem Trip.recv : ∀ die slot, Trip.Statement (.recv die slot) := fun _ _ _ h => Bool.noConfusion (show false = true from h)

theorem Trip.rrs : ∀ die slot, Trip.Statement (.rrs die slot) := fun _ _ _ h => Bool.noConfusion (show false = true from h)

theorem Trip.stepCopy : ∀ die slot, Trip.Statement (.stepCopy die slot) := fun _ _ _ h => Bool.noConfusion (show false = true from h)

theorem Trip.stepWait : ∀ die slot, Trip.Statement (.stepWait die slot) := fun _ _ _ h => Bool.noConfusion (show false = true from h)

theorem Trip.stepLoop : ∀ die slot, Trip.Statement (.stepLoop die slot) := fun _ _ _ h => Bool.noConfusion (show false = true from h)

theorem Trip.stepEndloop : ∀ die slot, Trip.Statement (.stepEndloop die slot) := fun _ _ _ h => Bool.noConfusion (show false = true from h)

theorem Trip.qround : ∀ die slot, Trip.Statement (.qround die slot) := fun _ _ _ h => Bool.noConfusion (show false = true from h)

theorem Trip.stepEnd : ∀ die slot, Trip.Statement (.stepEnd die slot) := fun _ _ _ h => Bool.noConfusion (show false = true from h)

theorem Trip.stepProgramFault : ∀ die slot code, Trip.Statement (.stepProgramFault die slot code) := fun _ _ _ _ h => Bool.noConfusion (show false = true from h)

theorem Trip.loopEndCheck : Trip.Statement (.loopEndCheck) := fun _ h => Bool.noConfusion (show false = true from h)

theorem Trip.fullEmptyChange : ∀ die core word full, Trip.Statement (.fullEmptyChange die core word full) := fun _ _ _ _ _ h => Bool.noConfusion (show false = true from h)

theorem Trip.unassignedEncoding : ∀ word, Trip.Statement (.unassignedEncoding word) := fun _ _ h => Bool.noConfusion (show false = true from h)

theorem Trip.reservedHintKind : ∀ word, Trip.Statement (.reservedHintKind word) := fun _ _ h => Bool.noConfusion (show false = true from h)

theorem Trip.instructionFetch : Trip.Statement (.instructionFetch) := fun _ h => Bool.noConfusion (show false = true from h)

theorem Trip.creditReturn : ∀ port vc credits, Trip.Statement (.creditReturn port vc credits) := fun _ _ _ _ h => Bool.noConfusion (show false = true from h)

theorem Trip.stepMessageWritten : ∀ die handle src dst bytes remote, Trip.Statement (.stepMessageWritten die handle src dst bytes remote) := fun _ _ _ _ _ _ _ h => Bool.noConfusion (show false = true from h)

theorem Trip.supervisorCoreRestart : ∀ die core pc, Trip.Statement (.supervisorCoreRestart die core pc) := fun _ _ _ _ h => Bool.noConfusion (show false = true from h)

theorem Trip.directedRefreshDone : ∀ stack bank, Trip.Statement (.directedRefreshDone stack bank) := fun _ _ _ h => Bool.noConfusion (show false = true from h)

theorem Trip.add (d : BitVec 5) (a : BitVec 5) (b : BitVec 5) : Trip.Statement (.add d a b) := by
  intro _ _
  refine decodeWord_of (i := (.add d a b)) ?_ rfl
  change decodeMajor (Enc.add d a b) = _
  rw [major_00 (by simp [Enc.add, sh7_5_5_5_10_0])]
  unfold decode00
  rw [show fld (Enc.add d a b) 0 10 = 1#10 by simp [Enc.add, sh7_5_5_5_10_4]]
  change Except.ok _ = _
  simp [Enc.add, sh7_5_5_5_10_1, sh7_5_5_5_10_2, sh7_5_5_5_10_3]

theorem Trip.sub (d : BitVec 5) (a : BitVec 5) (b : BitVec 5) : Trip.Statement (.sub d a b) := by
  intro _ _
  refine decodeWord_of (i := (.sub d a b)) ?_ rfl
  change decodeMajor (Enc.sub d a b) = _
  rw [major_00 (by simp [Enc.sub, sh7_5_5_5_10_0])]
  unfold decode00
  rw [show fld (Enc.sub d a b) 0 10 = 2#10 by simp [Enc.sub, sh7_5_5_5_10_4]]
  change Except.ok _ = _
  simp [Enc.sub, sh7_5_5_5_10_1, sh7_5_5_5_10_2, sh7_5_5_5_10_3]

theorem Trip.and (d : BitVec 5) (a : BitVec 5) (b : BitVec 5) : Trip.Statement (.and d a b) := by
  intro _ _
  refine decodeWord_of (i := (.and d a b)) ?_ rfl
  change decodeMajor (Enc.and d a b) = _
  rw [major_00 (by simp [Enc.and, sh7_5_5_5_10_0])]
  unfold decode00
  rw [show fld (Enc.and d a b) 0 10 = 3#10 by simp [Enc.and, sh7_5_5_5_10_4]]
  change Except.ok _ = _
  simp [Enc.and, sh7_5_5_5_10_1, sh7_5_5_5_10_2, sh7_5_5_5_10_3]

theorem Trip.or (d : BitVec 5) (a : BitVec 5) (b : BitVec 5) : Trip.Statement (.or d a b) := by
  intro _ _
  refine decodeWord_of (i := (.or d a b)) ?_ rfl
  change decodeMajor (Enc.or d a b) = _
  rw [major_00 (by simp [Enc.or, sh7_5_5_5_10_0])]
  unfold decode00
  rw [show fld (Enc.or d a b) 0 10 = 4#10 by simp [Enc.or, sh7_5_5_5_10_4]]
  change Except.ok _ = _
  simp [Enc.or, sh7_5_5_5_10_1, sh7_5_5_5_10_2, sh7_5_5_5_10_3]

theorem Trip.xor (d : BitVec 5) (a : BitVec 5) (b : BitVec 5) : Trip.Statement (.xor d a b) := by
  intro _ _
  refine decodeWord_of (i := (.xor d a b)) ?_ rfl
  change decodeMajor (Enc.xor d a b) = _
  rw [major_00 (by simp [Enc.xor, sh7_5_5_5_10_0])]
  unfold decode00
  rw [show fld (Enc.xor d a b) 0 10 = 5#10 by simp [Enc.xor, sh7_5_5_5_10_4]]
  change Except.ok _ = _
  simp [Enc.xor, sh7_5_5_5_10_1, sh7_5_5_5_10_2, sh7_5_5_5_10_3]

theorem Trip.andn (d : BitVec 5) (a : BitVec 5) (b : BitVec 5) : Trip.Statement (.andn d a b) := by
  intro _ _
  refine decodeWord_of (i := (.andn d a b)) ?_ rfl
  change decodeMajor (Enc.andn d a b) = _
  rw [major_00 (by simp [Enc.andn, sh7_5_5_5_10_0])]
  unfold decode00
  rw [show fld (Enc.andn d a b) 0 10 = 6#10 by simp [Enc.andn, sh7_5_5_5_10_4]]
  change Except.ok _ = _
  simp [Enc.andn, sh7_5_5_5_10_1, sh7_5_5_5_10_2, sh7_5_5_5_10_3]

theorem Trip.sll (d : BitVec 5) (a : BitVec 5) (b : BitVec 5) : Trip.Statement (.sll d a b) := by
  intro _ _
  refine decodeWord_of (i := (.sll d a b)) ?_ rfl
  change decodeMajor (Enc.sll d a b) = _
  rw [major_00 (by simp [Enc.sll, sh7_5_5_5_10_0])]
  unfold decode00
  rw [show fld (Enc.sll d a b) 0 10 = 7#10 by simp [Enc.sll, sh7_5_5_5_10_4]]
  change Except.ok _ = _
  simp [Enc.sll, sh7_5_5_5_10_1, sh7_5_5_5_10_2, sh7_5_5_5_10_3]

theorem Trip.srl (d : BitVec 5) (a : BitVec 5) (b : BitVec 5) : Trip.Statement (.srl d a b) := by
  intro _ _
  refine decodeWord_of (i := (.srl d a b)) ?_ rfl
  change decodeMajor (Enc.srl d a b) = _
  rw [major_00 (by simp [Enc.srl, sh7_5_5_5_10_0])]
  unfold decode00
  rw [show fld (Enc.srl d a b) 0 10 = 8#10 by simp [Enc.srl, sh7_5_5_5_10_4]]
  change Except.ok _ = _
  simp [Enc.srl, sh7_5_5_5_10_1, sh7_5_5_5_10_2, sh7_5_5_5_10_3]

theorem Trip.sra (d : BitVec 5) (a : BitVec 5) (b : BitVec 5) : Trip.Statement (.sra d a b) := by
  intro _ _
  refine decodeWord_of (i := (.sra d a b)) ?_ rfl
  change decodeMajor (Enc.sra d a b) = _
  rw [major_00 (by simp [Enc.sra, sh7_5_5_5_10_0])]
  unfold decode00
  rw [show fld (Enc.sra d a b) 0 10 = 9#10 by simp [Enc.sra, sh7_5_5_5_10_4]]
  change Except.ok _ = _
  simp [Enc.sra, sh7_5_5_5_10_1, sh7_5_5_5_10_2, sh7_5_5_5_10_3]

theorem Trip.rol (d : BitVec 5) (a : BitVec 5) (b : BitVec 5) : Trip.Statement (.rol d a b) := by
  intro _ _
  refine decodeWord_of (i := (.rol d a b)) ?_ rfl
  change decodeMajor (Enc.rol d a b) = _
  rw [major_00 (by simp [Enc.rol, sh7_5_5_5_10_0])]
  unfold decode00
  rw [show fld (Enc.rol d a b) 0 10 = 10#10 by simp [Enc.rol, sh7_5_5_5_10_4]]
  change Except.ok _ = _
  simp [Enc.rol, sh7_5_5_5_10_1, sh7_5_5_5_10_2, sh7_5_5_5_10_3]

theorem Trip.ror (d : BitVec 5) (a : BitVec 5) (b : BitVec 5) : Trip.Statement (.ror d a b) := by
  intro _ _
  refine decodeWord_of (i := (.ror d a b)) ?_ rfl
  change decodeMajor (Enc.ror d a b) = _
  rw [major_00 (by simp [Enc.ror, sh7_5_5_5_10_0])]
  unfold decode00
  rw [show fld (Enc.ror d a b) 0 10 = 11#10 by simp [Enc.ror, sh7_5_5_5_10_4]]
  change Except.ok _ = _
  simp [Enc.ror, sh7_5_5_5_10_1, sh7_5_5_5_10_2, sh7_5_5_5_10_3]

theorem Trip.slt (d : BitVec 5) (a : BitVec 5) (b : BitVec 5) : Trip.Statement (.slt d a b) := by
  intro _ _
  refine decodeWord_of (i := (.slt d a b)) ?_ rfl
  change decodeMajor (Enc.slt d a b) = _
  rw [major_00 (by simp [Enc.slt, sh7_5_5_5_10_0])]
  unfold decode00
  rw [show fld (Enc.slt d a b) 0 10 = 12#10 by simp [Enc.slt, sh7_5_5_5_10_4]]
  change Except.ok _ = _
  simp [Enc.slt, sh7_5_5_5_10_1, sh7_5_5_5_10_2, sh7_5_5_5_10_3]

theorem Trip.sltu (d : BitVec 5) (a : BitVec 5) (b : BitVec 5) : Trip.Statement (.sltu d a b) := by
  intro _ _
  refine decodeWord_of (i := (.sltu d a b)) ?_ rfl
  change decodeMajor (Enc.sltu d a b) = _
  rw [major_00 (by simp [Enc.sltu, sh7_5_5_5_10_0])]
  unfold decode00
  rw [show fld (Enc.sltu d a b) 0 10 = 13#10 by simp [Enc.sltu, sh7_5_5_5_10_4]]
  change Except.ok _ = _
  simp [Enc.sltu, sh7_5_5_5_10_1, sh7_5_5_5_10_2, sh7_5_5_5_10_3]

theorem Trip.min (d : BitVec 5) (a : BitVec 5) (b : BitVec 5) : Trip.Statement (.min d a b) := by
  intro _ _
  refine decodeWord_of (i := (.min d a b)) ?_ rfl
  change decodeMajor (Enc.min d a b) = _
  rw [major_00 (by simp [Enc.min, sh7_5_5_5_10_0])]
  unfold decode00
  rw [show fld (Enc.min d a b) 0 10 = 14#10 by simp [Enc.min, sh7_5_5_5_10_4]]
  change Except.ok _ = _
  simp [Enc.min, sh7_5_5_5_10_1, sh7_5_5_5_10_2, sh7_5_5_5_10_3]

theorem Trip.max (d : BitVec 5) (a : BitVec 5) (b : BitVec 5) : Trip.Statement (.max d a b) := by
  intro _ _
  refine decodeWord_of (i := (.max d a b)) ?_ rfl
  change decodeMajor (Enc.max d a b) = _
  rw [major_00 (by simp [Enc.max, sh7_5_5_5_10_0])]
  unfold decode00
  rw [show fld (Enc.max d a b) 0 10 = 15#10 by simp [Enc.max, sh7_5_5_5_10_4]]
  change Except.ok _ = _
  simp [Enc.max, sh7_5_5_5_10_1, sh7_5_5_5_10_2, sh7_5_5_5_10_3]

theorem Trip.minu (d : BitVec 5) (a : BitVec 5) (b : BitVec 5) : Trip.Statement (.minu d a b) := by
  intro _ _
  refine decodeWord_of (i := (.minu d a b)) ?_ rfl
  change decodeMajor (Enc.minu d a b) = _
  rw [major_00 (by simp [Enc.minu, sh7_5_5_5_10_0])]
  unfold decode00
  rw [show fld (Enc.minu d a b) 0 10 = 16#10 by simp [Enc.minu, sh7_5_5_5_10_4]]
  change Except.ok _ = _
  simp [Enc.minu, sh7_5_5_5_10_1, sh7_5_5_5_10_2, sh7_5_5_5_10_3]

theorem Trip.maxu (d : BitVec 5) (a : BitVec 5) (b : BitVec 5) : Trip.Statement (.maxu d a b) := by
  intro _ _
  refine decodeWord_of (i := (.maxu d a b)) ?_ rfl
  change decodeMajor (Enc.maxu d a b) = _
  rw [major_00 (by simp [Enc.maxu, sh7_5_5_5_10_0])]
  unfold decode00
  rw [show fld (Enc.maxu d a b) 0 10 = 17#10 by simp [Enc.maxu, sh7_5_5_5_10_4]]
  change Except.ok _ = _
  simp [Enc.maxu, sh7_5_5_5_10_1, sh7_5_5_5_10_2, sh7_5_5_5_10_3]

theorem Trip.clz (d : BitVec 5) (a : BitVec 5) : Trip.Statement (.clz d a) := by
  intro _ _
  refine decodeWord_of (i := (.clz d a)) ?_ rfl
  change decodeMajor (Enc.clz d a) = _
  rw [major_00 (by simp [Enc.clz, sh7_5_5_15_0])]
  unfold decode00
  rw [show fld (Enc.clz d a) 0 10 = 18#10 by simp [Enc.clz, sh7_5_5_15_3]]
  change must _ _ = _
  simp [Enc.clz, must, sh7_5_5_15_3, sh7_5_5_15_1, sh7_5_5_15_2]

theorem Trip.ctz (d : BitVec 5) (a : BitVec 5) : Trip.Statement (.ctz d a) := by
  intro _ _
  refine decodeWord_of (i := (.ctz d a)) ?_ rfl
  change decodeMajor (Enc.ctz d a) = _
  rw [major_00 (by simp [Enc.ctz, sh7_5_5_15_0])]
  unfold decode00
  rw [show fld (Enc.ctz d a) 0 10 = 19#10 by simp [Enc.ctz, sh7_5_5_15_3]]
  change must _ _ = _
  simp [Enc.ctz, must, sh7_5_5_15_3, sh7_5_5_15_1, sh7_5_5_15_2]

theorem Trip.popc (d : BitVec 5) (a : BitVec 5) : Trip.Statement (.popc d a) := by
  intro _ _
  refine decodeWord_of (i := (.popc d a)) ?_ rfl
  change decodeMajor (Enc.popc d a) = _
  rw [major_00 (by simp [Enc.popc, sh7_5_5_15_0])]
  unfold decode00
  rw [show fld (Enc.popc d a) 0 10 = 20#10 by simp [Enc.popc, sh7_5_5_15_3]]
  change must _ _ = _
  simp [Enc.popc, must, sh7_5_5_15_3, sh7_5_5_15_1, sh7_5_5_15_2]

theorem Trip.sextb (d : BitVec 5) (a : BitVec 5) : Trip.Statement (.sextb d a) := by
  intro _ _
  refine decodeWord_of (i := (.sextb d a)) ?_ rfl
  change decodeMajor (Enc.sextb d a) = _
  rw [major_00 (by simp [Enc.sextb, sh7_5_5_15_0])]
  unfold decode00
  rw [show fld (Enc.sextb d a) 0 10 = 21#10 by simp [Enc.sextb, sh7_5_5_15_3]]
  change must _ _ = _
  simp [Enc.sextb, must, sh7_5_5_15_3, sh7_5_5_15_1, sh7_5_5_15_2]

theorem Trip.sexth (d : BitVec 5) (a : BitVec 5) : Trip.Statement (.sexth d a) := by
  intro _ _
  refine decodeWord_of (i := (.sexth d a)) ?_ rfl
  change decodeMajor (Enc.sexth d a) = _
  rw [major_00 (by simp [Enc.sexth, sh7_5_5_15_0])]
  unfold decode00
  rw [show fld (Enc.sexth d a) 0 10 = 22#10 by simp [Enc.sexth, sh7_5_5_15_3]]
  change must _ _ = _
  simp [Enc.sexth, must, sh7_5_5_15_3, sh7_5_5_15_1, sh7_5_5_15_2]

theorem Trip.sextw (d : BitVec 5) (a : BitVec 5) : Trip.Statement (.sextw d a) := by
  intro _ _
  refine decodeWord_of (i := (.sextw d a)) ?_ rfl
  change decodeMajor (Enc.sextw d a) = _
  rw [major_00 (by simp [Enc.sextw, sh7_5_5_15_0])]
  unfold decode00
  rw [show fld (Enc.sextw d a) 0 10 = 23#10 by simp [Enc.sextw, sh7_5_5_15_3]]
  change must _ _ = _
  simp [Enc.sextw, must, sh7_5_5_15_3, sh7_5_5_15_1, sh7_5_5_15_2]

theorem Trip.zextw (d : BitVec 5) (a : BitVec 5) : Trip.Statement (.zextw d a) := by
  intro _ _
  refine decodeWord_of (i := (.zextw d a)) ?_ rfl
  change decodeMajor (Enc.zextw d a) = _
  rw [major_00 (by simp [Enc.zextw, sh7_5_5_15_0])]
  unfold decode00
  rw [show fld (Enc.zextw d a) 0 10 = 24#10 by simp [Enc.zextw, sh7_5_5_15_3]]
  change must _ _ = _
  simp [Enc.zextw, must, sh7_5_5_15_3, sh7_5_5_15_1, sh7_5_5_15_2]

theorem Trip.addw (d : BitVec 5) (a : BitVec 5) (b : BitVec 5) : Trip.Statement (.addw d a b) := by
  intro _ _
  refine decodeWord_of (i := (.addw d a b)) ?_ rfl
  change decodeMajor (Enc.addw d a b) = _
  rw [major_01 (by simp [Enc.addw, sh7_5_5_5_10_0])]
  unfold decode01
  rw [show fld (Enc.addw d a b) 0 10 = 1#10 by simp [Enc.addw, sh7_5_5_5_10_4]]
  change Except.ok _ = _
  simp [Enc.addw, sh7_5_5_5_10_1, sh7_5_5_5_10_2, sh7_5_5_5_10_3]

theorem Trip.subw (d : BitVec 5) (a : BitVec 5) (b : BitVec 5) : Trip.Statement (.subw d a b) := by
  intro _ _
  refine decodeWord_of (i := (.subw d a b)) ?_ rfl
  change decodeMajor (Enc.subw d a b) = _
  rw [major_01 (by simp [Enc.subw, sh7_5_5_5_10_0])]
  unfold decode01
  rw [show fld (Enc.subw d a b) 0 10 = 2#10 by simp [Enc.subw, sh7_5_5_5_10_4]]
  change Except.ok _ = _
  simp [Enc.subw, sh7_5_5_5_10_1, sh7_5_5_5_10_2, sh7_5_5_5_10_3]

theorem Trip.sllw (d : BitVec 5) (a : BitVec 5) (b : BitVec 5) : Trip.Statement (.sllw d a b) := by
  intro _ _
  refine decodeWord_of (i := (.sllw d a b)) ?_ rfl
  change decodeMajor (Enc.sllw d a b) = _
  rw [major_01 (by simp [Enc.sllw, sh7_5_5_5_10_0])]
  unfold decode01
  rw [show fld (Enc.sllw d a b) 0 10 = 3#10 by simp [Enc.sllw, sh7_5_5_5_10_4]]
  change Except.ok _ = _
  simp [Enc.sllw, sh7_5_5_5_10_1, sh7_5_5_5_10_2, sh7_5_5_5_10_3]

theorem Trip.srlw (d : BitVec 5) (a : BitVec 5) (b : BitVec 5) : Trip.Statement (.srlw d a b) := by
  intro _ _
  refine decodeWord_of (i := (.srlw d a b)) ?_ rfl
  change decodeMajor (Enc.srlw d a b) = _
  rw [major_01 (by simp [Enc.srlw, sh7_5_5_5_10_0])]
  unfold decode01
  rw [show fld (Enc.srlw d a b) 0 10 = 4#10 by simp [Enc.srlw, sh7_5_5_5_10_4]]
  change Except.ok _ = _
  simp [Enc.srlw, sh7_5_5_5_10_1, sh7_5_5_5_10_2, sh7_5_5_5_10_3]

theorem Trip.sraw (d : BitVec 5) (a : BitVec 5) (b : BitVec 5) : Trip.Statement (.sraw d a b) := by
  intro _ _
  refine decodeWord_of (i := (.sraw d a b)) ?_ rfl
  change decodeMajor (Enc.sraw d a b) = _
  rw [major_01 (by simp [Enc.sraw, sh7_5_5_5_10_0])]
  unfold decode01
  rw [show fld (Enc.sraw d a b) 0 10 = 5#10 by simp [Enc.sraw, sh7_5_5_5_10_4]]
  change Except.ok _ = _
  simp [Enc.sraw, sh7_5_5_5_10_1, sh7_5_5_5_10_2, sh7_5_5_5_10_3]

theorem Trip.mulw (d : BitVec 5) (a : BitVec 5) (b : BitVec 5) : Trip.Statement (.mulw d a b) := by
  intro _ _
  refine decodeWord_of (i := (.mulw d a b)) ?_ rfl
  change decodeMajor (Enc.mulw d a b) = _
  rw [major_01 (by simp [Enc.mulw, sh7_5_5_5_10_0])]
  unfold decode01
  rw [show fld (Enc.mulw d a b) 0 10 = 6#10 by simp [Enc.mulw, sh7_5_5_5_10_4]]
  change Except.ok _ = _
  simp [Enc.mulw, sh7_5_5_5_10_1, sh7_5_5_5_10_2, sh7_5_5_5_10_3]

theorem Trip.mul (d : BitVec 5) (a : BitVec 5) (b : BitVec 5) : Trip.Statement (.mul d a b) := by
  intro _ _
  refine decodeWord_of (i := (.mul d a b)) ?_ rfl
  change decodeMajor (Enc.mul d a b) = _
  rw [major_02 (by simp [Enc.mul, sh7_5_5_5_10_0])]
  unfold decode02
  rw [show fld (Enc.mul d a b) 0 10 = 1#10 by simp [Enc.mul, sh7_5_5_5_10_4]]
  change Except.ok _ = _
  simp [Enc.mul, sh7_5_5_5_10_1, sh7_5_5_5_10_2, sh7_5_5_5_10_3]

theorem Trip.mulh (d : BitVec 5) (a : BitVec 5) (b : BitVec 5) : Trip.Statement (.mulh d a b) := by
  intro _ _
  refine decodeWord_of (i := (.mulh d a b)) ?_ rfl
  change decodeMajor (Enc.mulh d a b) = _
  rw [major_02 (by simp [Enc.mulh, sh7_5_5_5_10_0])]
  unfold decode02
  rw [show fld (Enc.mulh d a b) 0 10 = 2#10 by simp [Enc.mulh, sh7_5_5_5_10_4]]
  change Except.ok _ = _
  simp [Enc.mulh, sh7_5_5_5_10_1, sh7_5_5_5_10_2, sh7_5_5_5_10_3]

theorem Trip.mulhu (d : BitVec 5) (a : BitVec 5) (b : BitVec 5) : Trip.Statement (.mulhu d a b) := by
  intro _ _
  refine decodeWord_of (i := (.mulhu d a b)) ?_ rfl
  change decodeMajor (Enc.mulhu d a b) = _
  rw [major_02 (by simp [Enc.mulhu, sh7_5_5_5_10_0])]
  unfold decode02
  rw [show fld (Enc.mulhu d a b) 0 10 = 3#10 by simp [Enc.mulhu, sh7_5_5_5_10_4]]
  change Except.ok _ = _
  simp [Enc.mulhu, sh7_5_5_5_10_1, sh7_5_5_5_10_2, sh7_5_5_5_10_3]

theorem Trip.mulhsu (d : BitVec 5) (a : BitVec 5) (b : BitVec 5) : Trip.Statement (.mulhsu d a b) := by
  intro _ _
  refine decodeWord_of (i := (.mulhsu d a b)) ?_ rfl
  change decodeMajor (Enc.mulhsu d a b) = _
  rw [major_02 (by simp [Enc.mulhsu, sh7_5_5_5_10_0])]
  unfold decode02
  rw [show fld (Enc.mulhsu d a b) 0 10 = 4#10 by simp [Enc.mulhsu, sh7_5_5_5_10_4]]
  change Except.ok _ = _
  simp [Enc.mulhsu, sh7_5_5_5_10_1, sh7_5_5_5_10_2, sh7_5_5_5_10_3]

theorem Trip.div (d : BitVec 5) (a : BitVec 5) (b : BitVec 5) : Trip.Statement (.div d a b) := by
  intro _ _
  refine decodeWord_of (i := (.div d a b)) ?_ rfl
  change decodeMajor (Enc.div d a b) = _
  rw [major_02 (by simp [Enc.div, sh7_5_5_5_10_0])]
  unfold decode02
  rw [show fld (Enc.div d a b) 0 10 = 5#10 by simp [Enc.div, sh7_5_5_5_10_4]]
  change Except.ok _ = _
  simp [Enc.div, sh7_5_5_5_10_1, sh7_5_5_5_10_2, sh7_5_5_5_10_3]

theorem Trip.divu (d : BitVec 5) (a : BitVec 5) (b : BitVec 5) : Trip.Statement (.divu d a b) := by
  intro _ _
  refine decodeWord_of (i := (.divu d a b)) ?_ rfl
  change decodeMajor (Enc.divu d a b) = _
  rw [major_02 (by simp [Enc.divu, sh7_5_5_5_10_0])]
  unfold decode02
  rw [show fld (Enc.divu d a b) 0 10 = 6#10 by simp [Enc.divu, sh7_5_5_5_10_4]]
  change Except.ok _ = _
  simp [Enc.divu, sh7_5_5_5_10_1, sh7_5_5_5_10_2, sh7_5_5_5_10_3]

theorem Trip.rem (d : BitVec 5) (a : BitVec 5) (b : BitVec 5) : Trip.Statement (.rem d a b) := by
  intro _ _
  refine decodeWord_of (i := (.rem d a b)) ?_ rfl
  change decodeMajor (Enc.rem d a b) = _
  rw [major_02 (by simp [Enc.rem, sh7_5_5_5_10_0])]
  unfold decode02
  rw [show fld (Enc.rem d a b) 0 10 = 7#10 by simp [Enc.rem, sh7_5_5_5_10_4]]
  change Except.ok _ = _
  simp [Enc.rem, sh7_5_5_5_10_1, sh7_5_5_5_10_2, sh7_5_5_5_10_3]

theorem Trip.remu (d : BitVec 5) (a : BitVec 5) (b : BitVec 5) : Trip.Statement (.remu d a b) := by
  intro _ _
  refine decodeWord_of (i := (.remu d a b)) ?_ rfl
  change decodeMajor (Enc.remu d a b) = _
  rw [major_02 (by simp [Enc.remu, sh7_5_5_5_10_0])]
  unfold decode02
  rw [show fld (Enc.remu d a b) 0 10 = 8#10 by simp [Enc.remu, sh7_5_5_5_10_4]]
  change Except.ok _ = _
  simp [Enc.remu, sh7_5_5_5_10_1, sh7_5_5_5_10_2, sh7_5_5_5_10_3]

theorem Trip.divw (d : BitVec 5) (a : BitVec 5) (b : BitVec 5) : Trip.Statement (.divw d a b) := by
  intro _ _
  refine decodeWord_of (i := (.divw d a b)) ?_ rfl
  change decodeMajor (Enc.divw d a b) = _
  rw [major_02 (by simp [Enc.divw, sh7_5_5_5_10_0])]
  unfold decode02
  rw [show fld (Enc.divw d a b) 0 10 = 517#10 by simp [Enc.divw, sh7_5_5_5_10_4]]
  change Except.ok _ = _
  simp [Enc.divw, sh7_5_5_5_10_1, sh7_5_5_5_10_2, sh7_5_5_5_10_3]

theorem Trip.divuw (d : BitVec 5) (a : BitVec 5) (b : BitVec 5) : Trip.Statement (.divuw d a b) := by
  intro _ _
  refine decodeWord_of (i := (.divuw d a b)) ?_ rfl
  change decodeMajor (Enc.divuw d a b) = _
  rw [major_02 (by simp [Enc.divuw, sh7_5_5_5_10_0])]
  unfold decode02
  rw [show fld (Enc.divuw d a b) 0 10 = 518#10 by simp [Enc.divuw, sh7_5_5_5_10_4]]
  change Except.ok _ = _
  simp [Enc.divuw, sh7_5_5_5_10_1, sh7_5_5_5_10_2, sh7_5_5_5_10_3]

theorem Trip.remw (d : BitVec 5) (a : BitVec 5) (b : BitVec 5) : Trip.Statement (.remw d a b) := by
  intro _ _
  refine decodeWord_of (i := (.remw d a b)) ?_ rfl
  change decodeMajor (Enc.remw d a b) = _
  rw [major_02 (by simp [Enc.remw, sh7_5_5_5_10_0])]
  unfold decode02
  rw [show fld (Enc.remw d a b) 0 10 = 519#10 by simp [Enc.remw, sh7_5_5_5_10_4]]
  change Except.ok _ = _
  simp [Enc.remw, sh7_5_5_5_10_1, sh7_5_5_5_10_2, sh7_5_5_5_10_3]

theorem Trip.remuw (d : BitVec 5) (a : BitVec 5) (b : BitVec 5) : Trip.Statement (.remuw d a b) := by
  intro _ _
  refine decodeWord_of (i := (.remuw d a b)) ?_ rfl
  change decodeMajor (Enc.remuw d a b) = _
  rw [major_02 (by simp [Enc.remuw, sh7_5_5_5_10_0])]
  unfold decode02
  rw [show fld (Enc.remuw d a b) 0 10 = 520#10 by simp [Enc.remuw, sh7_5_5_5_10_4]]
  change Except.ok _ = _
  simp [Enc.remuw, sh7_5_5_5_10_1, sh7_5_5_5_10_2, sh7_5_5_5_10_3]

theorem Trip.addi (d : BitVec 5) (a : BitVec 5) (i : BitVec 15) : Trip.Statement (.addi d a i) := by
  intro _ _
  refine decodeWord_of (i := (.addi d a i)) ?_ rfl
  change decodeMajor (Enc.addi d a i) = _
  rw [major_04 (by simp [Enc.addi, sh7_5_5_15_0])]
  simp [decode04, Enc.addi, sh7_5_5_15_1, sh7_5_5_15_2, sh7_5_5_15_3]

theorem Trip.andi (d : BitVec 5) (a : BitVec 5) (i : BitVec 15) : Trip.Statement (.andi d a i) := by
  intro _ _
  refine decodeWord_of (i := (.andi d a i)) ?_ rfl
  change decodeMajor (Enc.andi d a i) = _
  rw [major_05 (by simp [Enc.andi, sh7_5_5_15_0])]
  simp [decode05, Enc.andi, sh7_5_5_15_1, sh7_5_5_15_2, sh7_5_5_15_3]

theorem Trip.ori (d : BitVec 5) (a : BitVec 5) (i : BitVec 15) : Trip.Statement (.ori d a i) := by
  intro _ _
  refine decodeWord_of (i := (.ori d a i)) ?_ rfl
  change decodeMajor (Enc.ori d a i) = _
  rw [major_06 (by simp [Enc.ori, sh7_5_5_15_0])]
  simp [decode06, Enc.ori, sh7_5_5_15_1, sh7_5_5_15_2, sh7_5_5_15_3]

theorem Trip.xori (d : BitVec 5) (a : BitVec 5) (i : BitVec 15) : Trip.Statement (.xori d a i) := by
  intro _ _
  refine decodeWord_of (i := (.xori d a i)) ?_ rfl
  change decodeMajor (Enc.xori d a i) = _
  rw [major_07 (by simp [Enc.xori, sh7_5_5_15_0])]
  simp [decode07, Enc.xori, sh7_5_5_15_1, sh7_5_5_15_2, sh7_5_5_15_3]

theorem Trip.slti (d : BitVec 5) (a : BitVec 5) (i : BitVec 15) : Trip.Statement (.slti d a i) := by
  intro _ _
  refine decodeWord_of (i := (.slti d a i)) ?_ rfl
  change decodeMajor (Enc.slti d a i) = _
  rw [major_08 (by simp [Enc.slti, sh7_5_5_15_0])]
  simp [decode08, Enc.slti, sh7_5_5_15_1, sh7_5_5_15_2, sh7_5_5_15_3]

theorem Trip.sltiu (d : BitVec 5) (a : BitVec 5) (i : BitVec 15) : Trip.Statement (.sltiu d a i) := by
  intro _ _
  refine decodeWord_of (i := (.sltiu d a i)) ?_ rfl
  change decodeMajor (Enc.sltiu d a i) = _
  rw [major_09 (by simp [Enc.sltiu, sh7_5_5_15_0])]
  simp [decode09, Enc.sltiu, sh7_5_5_15_1, sh7_5_5_15_2, sh7_5_5_15_3]

theorem Trip.slli (d : BitVec 5) (a : BitVec 5) (s : BitVec 6) : Trip.Statement (.slli d a s) := by
  intro _ _
  refine decodeWord_of (i := (.slli d a s)) ?_ rfl
  change decodeMajor (Enc.slli d a s) = _
  rw [major_0A (by simp [Enc.slli, sh7_5_5_9_6_0])]
  unfold decode0A
  rw [show fld (Enc.slli d a s) 12 3 = 0#3 by simp [Enc.slli, sh7_5_5_9_6_3]]
  change must _ _ = _
  simp [Enc.slli, must, sh7_5_5_9_6_3, sh7_5_5_9_6_1, sh7_5_5_9_6_2, sh7_5_5_9_6_4]

theorem Trip.srli (d : BitVec 5) (a : BitVec 5) (s : BitVec 6) : Trip.Statement (.srli d a s) := by
  intro _ _
  refine decodeWord_of (i := (.srli d a s)) ?_ rfl
  change decodeMajor (Enc.srli d a s) = _
  rw [major_0A (by simp [Enc.srli, sh7_5_5_9_6_0])]
  unfold decode0A
  rw [show fld (Enc.srli d a s) 12 3 = 1#3 by simp [Enc.srli, sh7_5_5_9_6_3]]
  change must _ _ = _
  simp [Enc.srli, must, sh7_5_5_9_6_3, sh7_5_5_9_6_1, sh7_5_5_9_6_2, sh7_5_5_9_6_4]

theorem Trip.srai (d : BitVec 5) (a : BitVec 5) (s : BitVec 6) : Trip.Statement (.srai d a s) := by
  intro _ _
  refine decodeWord_of (i := (.srai d a s)) ?_ rfl
  change decodeMajor (Enc.srai d a s) = _
  rw [major_0A (by simp [Enc.srai, sh7_5_5_9_6_0])]
  unfold decode0A
  rw [show fld (Enc.srai d a s) 12 3 = 2#3 by simp [Enc.srai, sh7_5_5_9_6_3]]
  change must _ _ = _
  simp [Enc.srai, must, sh7_5_5_9_6_3, sh7_5_5_9_6_1, sh7_5_5_9_6_2, sh7_5_5_9_6_4]

theorem Trip.rori (d : BitVec 5) (a : BitVec 5) (s : BitVec 6) : Trip.Statement (.rori d a s) := by
  intro _ _
  refine decodeWord_of (i := (.rori d a s)) ?_ rfl
  change decodeMajor (Enc.rori d a s) = _
  rw [major_0A (by simp [Enc.rori, sh7_5_5_9_6_0])]
  unfold decode0A
  rw [show fld (Enc.rori d a s) 12 3 = 3#3 by simp [Enc.rori, sh7_5_5_9_6_3]]
  change must _ _ = _
  simp [Enc.rori, must, sh7_5_5_9_6_3, sh7_5_5_9_6_1, sh7_5_5_9_6_2, sh7_5_5_9_6_4]

theorem Trip.movi (d : BitVec 5) (i : BitVec 15) : Trip.Statement (.movi d i) := by
  intro _ _
  refine decodeWord_of (i := (.movi d i)) ?_ rfl
  change decodeMajor (Enc.movi d i) = _
  rw [major_0B (by simp [Enc.movi, sh7_5_5_15_0])]
  simp [decode0B, Enc.movi, must, sh7_5_5_15_0, sh7_5_5_15_1, sh7_5_5_15_2, sh7_5_5_15_3]

theorem Trip.addpc (d : BitVec 5) (i : BitVec 15) : Trip.Statement (.addpc d i) := by
  intro _ _
  refine decodeWord_of (i := (.addpc d i)) ?_ rfl
  change decodeMajor (Enc.addpc d i) = _
  rw [major_0C (by simp [Enc.addpc, sh7_5_5_15_0])]
  simp [decode0C, Enc.addpc, must, sh7_5_5_15_0, sh7_5_5_15_1, sh7_5_5_15_2, sh7_5_5_15_3]

theorem Trip.addiw (d : BitVec 5) (a : BitVec 5) (i : BitVec 15) : Trip.Statement (.addiw d a i) := by
  intro _ _
  refine decodeWord_of (i := (.addiw d a i)) ?_ rfl
  change decodeMajor (Enc.addiw d a i) = _
  rw [major_0D (by simp [Enc.addiw, sh7_5_5_15_0])]
  simp [decode0D, Enc.addiw, sh7_5_5_15_1, sh7_5_5_15_2, sh7_5_5_15_3]

theorem Trip.fadd (d : BitVec 5) (a : BitVec 5) (b : BitVec 5) (f : BitVec 1) : Trip.Statement (.fadd d a b f) := by
  intro _ _
  refine decodeWord_of (i := (.fadd d a b f)) ?_ rfl
  change decodeMajor (Enc.fadd d a b f) = _
  rw [major_10 (by simp [Enc.fadd, sh7_5_5_5_1_1_8_0])]
  simp [decode10, Enc.fadd, sh7_5_5_5_1_1_8_1, sh7_5_5_5_1_1_8_2, sh7_5_5_5_1_1_8_3, sh7_5_5_5_1_1_8_4, sh7_5_5_5_1_1_8_5, sh7_5_5_5_1_1_8_6]

theorem Trip.fsub (d : BitVec 5) (a : BitVec 5) (b : BitVec 5) (f : BitVec 1) : Trip.Statement (.fsub d a b f) := by
  intro _ _
  refine decodeWord_of (i := (.fsub d a b f)) ?_ rfl
  change decodeMajor (Enc.fsub d a b f) = _
  rw [major_10 (by simp [Enc.fsub, sh7_5_5_5_1_1_8_0])]
  simp [decode10, Enc.fsub, sh7_5_5_5_1_1_8_1, sh7_5_5_5_1_1_8_2, sh7_5_5_5_1_1_8_3, sh7_5_5_5_1_1_8_4, sh7_5_5_5_1_1_8_5, sh7_5_5_5_1_1_8_6]

theorem Trip.fmul (d : BitVec 5) (a : BitVec 5) (b : BitVec 5) (f : BitVec 1) : Trip.Statement (.fmul d a b f) := by
  intro _ _
  refine decodeWord_of (i := (.fmul d a b f)) ?_ rfl
  change decodeMajor (Enc.fmul d a b f) = _
  rw [major_10 (by simp [Enc.fmul, sh7_5_5_5_1_1_8_0])]
  simp [decode10, Enc.fmul, sh7_5_5_5_1_1_8_1, sh7_5_5_5_1_1_8_2, sh7_5_5_5_1_1_8_3, sh7_5_5_5_1_1_8_4, sh7_5_5_5_1_1_8_5, sh7_5_5_5_1_1_8_6]

theorem Trip.fdiv (d : BitVec 5) (a : BitVec 5) (b : BitVec 5) (f : BitVec 1) : Trip.Statement (.fdiv d a b f) := by
  intro _ _
  refine decodeWord_of (i := (.fdiv d a b f)) ?_ rfl
  change decodeMajor (Enc.fdiv d a b f) = _
  rw [major_10 (by simp [Enc.fdiv, sh7_5_5_5_1_1_8_0])]
  simp [decode10, Enc.fdiv, sh7_5_5_5_1_1_8_1, sh7_5_5_5_1_1_8_2, sh7_5_5_5_1_1_8_3, sh7_5_5_5_1_1_8_4, sh7_5_5_5_1_1_8_5, sh7_5_5_5_1_1_8_6]

theorem Trip.fsqrt (d : BitVec 5) (a : BitVec 5) (f : BitVec 1) : Trip.Statement (.fsqrt d a f) := by
  intro _ _
  refine decodeWord_of (i := (.fsqrt d a f)) ?_ rfl
  change decodeMajor (Enc.fsqrt d a f) = _
  rw [major_10 (by simp [Enc.fsqrt, sh7_5_5_6_1_8_0])]
  simp [decode10, Enc.fsqrt, must, sh7_5_5_6_1_8_0, sh7_5_5_6_1_8_1, sh7_5_5_6_1_8_2, sh7_5_5_6_1_8_3, sh7_5_5_6_1_8_4, sh7_5_5_6_1_8_5]

theorem Trip.fmin (d : BitVec 5) (a : BitVec 5) (b : BitVec 5) (f : BitVec 1) : Trip.Statement (.fmin d a b f) := by
  intro _ _
  refine decodeWord_of (i := (.fmin d a b f)) ?_ rfl
  change decodeMajor (Enc.fmin d a b f) = _
  rw [major_10 (by simp [Enc.fmin, sh7_5_5_5_1_1_8_0])]
  simp [decode10, Enc.fmin, sh7_5_5_5_1_1_8_1, sh7_5_5_5_1_1_8_2, sh7_5_5_5_1_1_8_3, sh7_5_5_5_1_1_8_4, sh7_5_5_5_1_1_8_5, sh7_5_5_5_1_1_8_6]

theorem Trip.fmax (d : BitVec 5) (a : BitVec 5) (b : BitVec 5) (f : BitVec 1) : Trip.Statement (.fmax d a b f) := by
  intro _ _
  refine decodeWord_of (i := (.fmax d a b f)) ?_ rfl
  change decodeMajor (Enc.fmax d a b f) = _
  rw [major_10 (by simp [Enc.fmax, sh7_5_5_5_1_1_8_0])]
  simp [decode10, Enc.fmax, sh7_5_5_5_1_1_8_1, sh7_5_5_5_1_1_8_2, sh7_5_5_5_1_1_8_3, sh7_5_5_5_1_1_8_4, sh7_5_5_5_1_1_8_5, sh7_5_5_5_1_1_8_6]

theorem Trip.feq (d : BitVec 5) (a : BitVec 5) (b : BitVec 5) (f : BitVec 1) : Trip.Statement (.feq d a b f) := by
  intro _ _
  refine decodeWord_of (i := (.feq d a b f)) ?_ rfl
  change decodeMajor (Enc.feq d a b f) = _
  rw [major_10 (by simp [Enc.feq, sh7_5_5_5_1_1_8_0])]
  simp [decode10, Enc.feq, sh7_5_5_5_1_1_8_1, sh7_5_5_5_1_1_8_2, sh7_5_5_5_1_1_8_3, sh7_5_5_5_1_1_8_4, sh7_5_5_5_1_1_8_5, sh7_5_5_5_1_1_8_6]

theorem Trip.flt (d : BitVec 5) (a : BitVec 5) (b : BitVec 5) (f : BitVec 1) : Trip.Statement (.flt d a b f) := by
  intro _ _
  refine decodeWord_of (i := (.flt d a b f)) ?_ rfl
  change decodeMajor (Enc.flt d a b f) = _
  rw [major_10 (by simp [Enc.flt, sh7_5_5_5_1_1_8_0])]
  simp [decode10, Enc.flt, sh7_5_5_5_1_1_8_1, sh7_5_5_5_1_1_8_2, sh7_5_5_5_1_1_8_3, sh7_5_5_5_1_1_8_4, sh7_5_5_5_1_1_8_5, sh7_5_5_5_1_1_8_6]

theorem Trip.fle (d : BitVec 5) (a : BitVec 5) (b : BitVec 5) (f : BitVec 1) : Trip.Statement (.fle d a b f) := by
  intro _ _
  refine decodeWord_of (i := (.fle d a b f)) ?_ rfl
  change decodeMajor (Enc.fle d a b f) = _
  rw [major_10 (by simp [Enc.fle, sh7_5_5_5_1_1_8_0])]
  simp [decode10, Enc.fle, sh7_5_5_5_1_1_8_1, sh7_5_5_5_1_1_8_2, sh7_5_5_5_1_1_8_3, sh7_5_5_5_1_1_8_4, sh7_5_5_5_1_1_8_5, sh7_5_5_5_1_1_8_6]

theorem Trip.fclass (d : BitVec 5) (a : BitVec 5) (f : BitVec 1) : Trip.Statement (.fclass d a f) := by
  intro _ _
  refine decodeWord_of (i := (.fclass d a f)) ?_ rfl
  change decodeMajor (Enc.fclass d a f) = _
  rw [major_10 (by simp [Enc.fclass, sh7_5_5_6_1_8_0])]
  simp [decode10, Enc.fclass, must, sh7_5_5_6_1_8_0, sh7_5_5_6_1_8_1, sh7_5_5_6_1_8_2, sh7_5_5_6_1_8_3, sh7_5_5_6_1_8_4, sh7_5_5_6_1_8_5]

theorem Trip.fabs (d : BitVec 5) (a : BitVec 5) (f : BitVec 1) : Trip.Statement (.fabs d a f) := by
  intro _ _
  refine decodeWord_of (i := (.fabs d a f)) ?_ rfl
  change decodeMajor (Enc.fabs d a f) = _
  rw [major_10 (by simp [Enc.fabs, sh7_5_5_6_1_8_0])]
  simp [decode10, Enc.fabs, must, sh7_5_5_6_1_8_0, sh7_5_5_6_1_8_1, sh7_5_5_6_1_8_2, sh7_5_5_6_1_8_3, sh7_5_5_6_1_8_4, sh7_5_5_6_1_8_5]

theorem Trip.fneg (d : BitVec 5) (a : BitVec 5) (f : BitVec 1) : Trip.Statement (.fneg d a f) := by
  intro _ _
  refine decodeWord_of (i := (.fneg d a f)) ?_ rfl
  change decodeMajor (Enc.fneg d a f) = _
  rw [major_10 (by simp [Enc.fneg, sh7_5_5_6_1_8_0])]
  simp [decode10, Enc.fneg, must, sh7_5_5_6_1_8_0, sh7_5_5_6_1_8_1, sh7_5_5_6_1_8_2, sh7_5_5_6_1_8_3, sh7_5_5_6_1_8_4, sh7_5_5_6_1_8_5]

theorem Trip.fcvt (d : BitVec 5) (a : BitVec 5) (c : BitVec 5) (s : BitVec 5) : Trip.Statement (.fcvt d a c s) := by
  intro hw _
  refine decodeWord_of (i := (.fcvt d a c s)) ?_ hw
  change decodeMajor (Enc.fcvt d a c s) = _
  rw [major_10 (by simp [Enc.fcvt, sh7_5_5_5_2_5_3_0])]
  simp [decode10, Enc.fcvt, must, sh7_5_5_5_2_5_3_0, sh7_5_5_5_2_5_3_1, sh7_5_5_5_2_5_3_2, sh7_5_5_5_2_5_3_3, sh7_5_5_5_2_5_3_4, sh7_5_5_5_2_5_3_5, sh7_5_5_5_2_5_3_6]

theorem Trip.fmac (d : BitVec 5) (a : BitVec 5) (b : BitVec 5) (f : BitVec 1) : Trip.Statement (.fmac d a b f) := by
  intro _ _
  refine decodeWord_of (i := (.fmac d a b f)) ?_ rfl
  change decodeMajor (Enc.fmac d a b f) = _
  rw [major_11 (by simp [Enc.fmac, sh7_5_5_5_1_1_8_0])]
  simp [decode11, Enc.fmac, must, sh7_5_5_5_1_1_8_0, sh7_5_5_5_1_1_8_1, sh7_5_5_5_1_1_8_2, sh7_5_5_5_1_1_8_3, sh7_5_5_5_1_1_8_4, sh7_5_5_5_1_1_8_5, sh7_5_5_5_1_1_8_6]

theorem Trip.fmsac (d : BitVec 5) (a : BitVec 5) (b : BitVec 5) (f : BitVec 1) : Trip.Statement (.fmsac d a b f) := by
  intro _ _
  refine decodeWord_of (i := (.fmsac d a b f)) ?_ rfl
  change decodeMajor (Enc.fmsac d a b f) = _
  rw [major_12 (by simp [Enc.fmsac, sh7_5_5_5_1_1_8_0])]
  simp [decode12, Enc.fmsac, must, sh7_5_5_5_1_1_8_0, sh7_5_5_5_1_1_8_1, sh7_5_5_5_1_1_8_2, sh7_5_5_5_1_1_8_3, sh7_5_5_5_1_1_8_4, sh7_5_5_5_1_1_8_5, sh7_5_5_5_1_1_8_6]

theorem Trip.loop (n : BitVec 1) (a : BitVec 5) (l : BitVec 15) : Trip.Statement (.loop n a l) := by
  intro _ _
  refine decodeWord_of (i := (.loop n a l)) ?_ rfl
  change decodeMajor (Enc.loop n a l) = _
  rw [major_16 (by simp [Enc.loop, sh11_1_5_15_0])]
  simp [decode16, Enc.loop, must, sh11_1_5_15_0, sh11_1_5_15_1, sh11_1_5_15_2, sh11_1_5_15_3]

theorem Trip.beq (a : BitVec 5) (b : BitVec 5) (o : BitVec 15) : Trip.Statement (.beq a b o) := by
  intro _ _
  refine decodeWord_of (i := (.beq a b o)) ?_ rfl
  change decodeMajor (Enc.beq a b o) = _
  rw [major_18 (by simp [Enc.beq, sh7_5_5_15_0])]
  simp [decode18, Enc.beq, sh7_5_5_15_1, sh7_5_5_15_2, sh7_5_5_15_3]

theorem Trip.bne (a : BitVec 5) (b : BitVec 5) (o : BitVec 15) : Trip.Statement (.bne a b o) := by
  intro _ _
  refine decodeWord_of (i := (.bne a b o)) ?_ rfl
  change decodeMajor (Enc.bne a b o) = _
  rw [major_19 (by simp [Enc.bne, sh7_5_5_15_0])]
  simp [decode19, Enc.bne, sh7_5_5_15_1, sh7_5_5_15_2, sh7_5_5_15_3]

theorem Trip.blt (a : BitVec 5) (b : BitVec 5) (o : BitVec 15) : Trip.Statement (.blt a b o) := by
  intro _ _
  refine decodeWord_of (i := (.blt a b o)) ?_ rfl
  change decodeMajor (Enc.blt a b o) = _
  rw [major_1A (by simp [Enc.blt, sh7_5_5_15_0])]
  simp [decode1A, Enc.blt, sh7_5_5_15_1, sh7_5_5_15_2, sh7_5_5_15_3]

theorem Trip.bge (a : BitVec 5) (b : BitVec 5) (o : BitVec 15) : Trip.Statement (.bge a b o) := by
  intro _ _
  refine decodeWord_of (i := (.bge a b o)) ?_ rfl
  change decodeMajor (Enc.bge a b o) = _
  rw [major_1B (by simp [Enc.bge, sh7_5_5_15_0])]
  simp [decode1B, Enc.bge, sh7_5_5_15_1, sh7_5_5_15_2, sh7_5_5_15_3]

theorem Trip.bltu (a : BitVec 5) (b : BitVec 5) (o : BitVec 15) : Trip.Statement (.bltu a b o) := by
  intro _ _
  refine decodeWord_of (i := (.bltu a b o)) ?_ rfl
  change decodeMajor (Enc.bltu a b o) = _
  rw [major_1C (by simp [Enc.bltu, sh7_5_5_15_0])]
  simp [decode1C, Enc.bltu, sh7_5_5_15_1, sh7_5_5_15_2, sh7_5_5_15_3]

theorem Trip.bgeu (a : BitVec 5) (b : BitVec 5) (o : BitVec 15) : Trip.Statement (.bgeu a b o) := by
  intro _ _
  refine decodeWord_of (i := (.bgeu a b o)) ?_ rfl
  change decodeMajor (Enc.bgeu a b o) = _
  rw [major_1D (by simp [Enc.bgeu, sh7_5_5_15_0])]
  simp [decode1D, Enc.bgeu, sh7_5_5_15_1, sh7_5_5_15_2, sh7_5_5_15_3]

theorem Trip.jal (d : BitVec 5) (o : BitVec 20) : Trip.Statement (.jal d o) := by
  intro _ _
  refine decodeWord_of (i := (.jal d o)) ?_ rfl
  change decodeMajor (Enc.jal d o) = _
  rw [major_1E (by simp [Enc.jal, sh7_5_20_0])]
  simp [decode1E, Enc.jal, sh7_5_20_1, sh7_5_20_2]

theorem Trip.jalr (d : BitVec 5) (a : BitVec 5) (i : BitVec 15) : Trip.Statement (.jalr d a i) := by
  intro _ _
  refine decodeWord_of (i := (.jalr d a i)) ?_ rfl
  change decodeMajor (Enc.jalr d a i) = _
  rw [major_1F (by simp [Enc.jalr, sh7_5_5_15_0])]
  simp [decode1F, Enc.jalr, sh7_5_5_15_1, sh7_5_5_15_2, sh7_5_5_15_3]

theorem Trip.ldb (d : BitVec 5) (a : BitVec 5) (w : BitVec 2) (o : BitVec 13) : Trip.Statement (.ldb d a w o) := by
  intro _ _
  refine decodeWord_of (i := (.ldb d a w o)) ?_ rfl
  change decodeMajor (Enc.ldb d a w o) = _
  rw [major_20 (by simp [Enc.ldb, sh7_5_5_2_13_0])]
  simp [decode20, Enc.ldb, sh7_5_5_2_13_1, sh7_5_5_2_13_2, sh7_5_5_2_13_3, sh7_5_5_2_13_4]

theorem Trip.ldbu (d : BitVec 5) (a : BitVec 5) (w : BitVec 2) (o : BitVec 13) : Trip.Statement (.ldbu d a w o) := by
  intro _ _
  refine decodeWord_of (i := (.ldbu d a w o)) ?_ rfl
  change decodeMajor (Enc.ldbu d a w o) = _
  rw [major_21 (by simp [Enc.ldbu, sh7_5_5_2_13_0])]
  simp [decode21, Enc.ldbu, sh7_5_5_2_13_1, sh7_5_5_2_13_2, sh7_5_5_2_13_3, sh7_5_5_2_13_4]

theorem Trip.ldh (d : BitVec 5) (a : BitVec 5) (w : BitVec 2) (o : BitVec 13) : Trip.Statement (.ldh d a w o) := by
  intro _ _
  refine decodeWord_of (i := (.ldh d a w o)) ?_ rfl
  change decodeMajor (Enc.ldh d a w o) = _
  rw [major_22 (by simp [Enc.ldh, sh7_5_5_2_13_0])]
  simp [decode22, Enc.ldh, sh7_5_5_2_13_1, sh7_5_5_2_13_2, sh7_5_5_2_13_3, sh7_5_5_2_13_4]

theorem Trip.ldhu (d : BitVec 5) (a : BitVec 5) (w : BitVec 2) (o : BitVec 13) : Trip.Statement (.ldhu d a w o) := by
  intro _ _
  refine decodeWord_of (i := (.ldhu d a w o)) ?_ rfl
  change decodeMajor (Enc.ldhu d a w o) = _
  rw [major_23 (by simp [Enc.ldhu, sh7_5_5_2_13_0])]
  simp [decode23, Enc.ldhu, sh7_5_5_2_13_1, sh7_5_5_2_13_2, sh7_5_5_2_13_3, sh7_5_5_2_13_4]

theorem Trip.ldw (d : BitVec 5) (a : BitVec 5) (w : BitVec 2) (o : BitVec 13) : Trip.Statement (.ldw d a w o) := by
  intro _ _
  refine decodeWord_of (i := (.ldw d a w o)) ?_ rfl
  change decodeMajor (Enc.ldw d a w o) = _
  rw [major_24 (by simp [Enc.ldw, sh7_5_5_2_13_0])]
  simp [decode24, Enc.ldw, sh7_5_5_2_13_1, sh7_5_5_2_13_2, sh7_5_5_2_13_3, sh7_5_5_2_13_4]

theorem Trip.ldwu (d : BitVec 5) (a : BitVec 5) (w : BitVec 2) (o : BitVec 13) : Trip.Statement (.ldwu d a w o) := by
  intro _ _
  refine decodeWord_of (i := (.ldwu d a w o)) ?_ rfl
  change decodeMajor (Enc.ldwu d a w o) = _
  rw [major_25 (by simp [Enc.ldwu, sh7_5_5_2_13_0])]
  simp [decode25, Enc.ldwu, sh7_5_5_2_13_1, sh7_5_5_2_13_2, sh7_5_5_2_13_3, sh7_5_5_2_13_4]

theorem Trip.ldd (d : BitVec 5) (a : BitVec 5) (w : BitVec 2) (o : BitVec 13) : Trip.Statement (.ldd d a w o) := by
  intro _ _
  refine decodeWord_of (i := (.ldd d a w o)) ?_ rfl
  change decodeMajor (Enc.ldd d a w o) = _
  rw [major_26 (by simp [Enc.ldd, sh7_5_5_2_13_0])]
  simp [decode26, Enc.ldd, sh7_5_5_2_13_1, sh7_5_5_2_13_2, sh7_5_5_2_13_3, sh7_5_5_2_13_4]

theorem Trip.stb (d : BitVec 5) (a : BitVec 5) (w : BitVec 2) (o : BitVec 13) : Trip.Statement (.stb d a w o) := by
  intro _ _
  refine decodeWord_of (i := (.stb d a w o)) ?_ rfl
  change decodeMajor (Enc.stb d a w o) = _
  rw [major_27 (by simp [Enc.stb, sh7_5_5_2_13_0])]
  simp [decode27, Enc.stb, sh7_5_5_2_13_1, sh7_5_5_2_13_2, sh7_5_5_2_13_3, sh7_5_5_2_13_4]

theorem Trip.sth (d : BitVec 5) (a : BitVec 5) (w : BitVec 2) (o : BitVec 13) : Trip.Statement (.sth d a w o) := by
  intro _ _
  refine decodeWord_of (i := (.sth d a w o)) ?_ rfl
  change decodeMajor (Enc.sth d a w o) = _
  rw [major_28 (by simp [Enc.sth, sh7_5_5_2_13_0])]
  simp [decode28, Enc.sth, sh7_5_5_2_13_1, sh7_5_5_2_13_2, sh7_5_5_2_13_3, sh7_5_5_2_13_4]

theorem Trip.stw (d : BitVec 5) (a : BitVec 5) (w : BitVec 2) (o : BitVec 13) : Trip.Statement (.stw d a w o) := by
  intro _ _
  refine decodeWord_of (i := (.stw d a w o)) ?_ rfl
  change decodeMajor (Enc.stw d a w o) = _
  rw [major_29 (by simp [Enc.stw, sh7_5_5_2_13_0])]
  simp [decode29, Enc.stw, sh7_5_5_2_13_1, sh7_5_5_2_13_2, sh7_5_5_2_13_3, sh7_5_5_2_13_4]

theorem Trip.std (d : BitVec 5) (a : BitVec 5) (w : BitVec 2) (o : BitVec 13) : Trip.Statement (.std d a w o) := by
  intro _ _
  refine decodeWord_of (i := (.std d a w o)) ?_ rfl
  change decodeMajor (Enc.std d a w o) = _
  rw [major_2A (by simp [Enc.std, sh7_5_5_2_13_0])]
  simp [decode2A, Enc.std, sh7_5_5_2_13_1, sh7_5_5_2_13_2, sh7_5_5_2_13_3, sh7_5_5_2_13_4]

theorem Trip.ldro (d : BitVec 5) (a : BitVec 5) (o : BitVec 13) : Trip.Statement (.ldro d a o) := by
  intro _ _
  refine decodeWord_of (i := (.ldro d a o)) ?_ rfl
  change decodeMajor (Enc.ldro d a o) = _
  rw [major_2B (by simp [Enc.ldro, sh7_5_5_2_13_0])]
  simp [decode2B, Enc.ldro, must, sh7_5_5_2_13_0, sh7_5_5_2_13_1, sh7_5_5_2_13_2, sh7_5_5_2_13_3, sh7_5_5_2_13_4]

theorem Trip.ldf (d : BitVec 5) (a : BitVec 5) (m : BitVec 1) (o : BitVec 13) : Trip.Statement (.ldf d a m o) := by
  intro _ _
  refine decodeWord_of (i := (.ldf d a m o)) ?_ rfl
  change decodeMajor (Enc.ldf d a m o) = _
  rw [major_2C (by simp [Enc.ldf, sh7_5_5_1_1_13_0])]
  simp [decode2C, Enc.ldf, must, sh7_5_5_1_1_13_0, sh7_5_5_1_1_13_1, sh7_5_5_1_1_13_2, sh7_5_5_1_1_13_3, sh7_5_5_1_1_13_4, sh7_5_5_1_1_13_5]

theorem Trip.stf (d : BitVec 5) (a : BitVec 5) (m : BitVec 1) (o : BitVec 13) : Trip.Statement (.stf d a m o) := by
  intro _ _
  refine decodeWord_of (i := (.stf d a m o)) ?_ rfl
  change decodeMajor (Enc.stf d a m o) = _
  rw [major_2D (by simp [Enc.stf, sh7_5_5_1_1_13_0])]
  simp [decode2D, Enc.stf, must, sh7_5_5_1_1_13_0, sh7_5_5_1_1_13_1, sh7_5_5_1_1_13_2, sh7_5_5_1_1_13_3, sh7_5_5_1_1_13_4, sh7_5_5_1_1_13_5]

theorem Trip.fence (m : BitVec 3) : Trip.Statement (.fence m) := by
  intro hw _
  refine decodeWord_of (i := (.fence m)) ?_ hw
  change decodeMajor (Enc.fence m) = _
  rw [major_2E (by simp [Enc.fence, sh19_3_10_0])]
  unfold decode2E
  rw [show fld (Enc.fence m) 0 10 = 1#10 by simp [Enc.fence, sh19_3_10_2]]
  change must _ _ = _
  simp [Enc.fence, must, sh19_3_10_0, sh19_3_10_1]

theorem Trip.roinv (a : BitVec 5) (b : BitVec 5) : Trip.Statement (.roinv a b) := by
  intro _ _
  refine decodeWord_of (i := (.roinv a b)) ?_ rfl
  change decodeMajor (Enc.roinv a b) = _
  rw [major_2E (by simp [Enc.roinv, sh12_5_5_10_0])]
  unfold decode2E
  rw [show fld (Enc.roinv a b) 0 10 = 2#10 by simp [Enc.roinv, sh12_5_5_10_3]]
  change must _ _ = _
  simp [Enc.roinv, must, sh12_5_5_10_0, sh12_5_5_10_1, sh12_5_5_10_2]

theorem Trip.mwarm (a : BitVec 5) : Trip.Statement (.mwarm a) := by
  intro _ _
  refine decodeWord_of (i := (.mwarm a)) ?_ rfl
  change decodeMajor (Enc.mwarm a) = _
  rw [major_2E (by simp [Enc.mwarm, sh12_5_15_0])]
  unfold decode2E
  rw [show fld (Enc.mwarm a) 0 10 = 3#10 by simp [Enc.mwarm, sh12_5_15_2]]
  change must _ _ = _
  simp [Enc.mwarm, must, sh12_5_15_0, sh12_5_15_2, sh12_5_15_1]

theorem Trip.mwait (d : BitVec 5) (a : BitVec 5) : Trip.Statement (.mwait d a) := by
  intro _ _
  refine decodeWord_of (i := (.mwait d a)) ?_ rfl
  change decodeMajor (Enc.mwait d a) = _
  rw [major_2E (by simp [Enc.mwait, sh7_5_5_15_0])]
  unfold decode2E
  rw [show fld (Enc.mwait d a) 0 10 = 4#10 by simp [Enc.mwait, sh7_5_5_15_3]]
  change must _ _ = _
  simp [Enc.mwait, must, sh7_5_5_15_3, sh7_5_5_15_1, sh7_5_5_15_2]

theorem Trip.feset (a : BitVec 5) : Trip.Statement (.feset a) := by
  intro _ _
  refine decodeWord_of (i := (.feset a)) ?_ rfl
  change decodeMajor (Enc.feset a) = _
  rw [major_2E (by simp [Enc.feset, sh12_5_15_0])]
  unfold decode2E
  rw [show fld (Enc.feset a) 0 10 = 5#10 by simp [Enc.feset, sh12_5_15_2]]
  change must _ _ = _
  simp [Enc.feset, must, sh12_5_15_0, sh12_5_15_2, sh12_5_15_1]

theorem Trip.feclr (a : BitVec 5) : Trip.Statement (.feclr a) := by
  intro _ _
  refine decodeWord_of (i := (.feclr a)) ?_ rfl
  change decodeMajor (Enc.feclr a) = _
  rw [major_2E (by simp [Enc.feclr, sh12_5_15_0])]
  unfold decode2E
  rw [show fld (Enc.feclr a) 0 10 = 6#10 by simp [Enc.feclr, sh12_5_15_2]]
  change must _ _ = _
  simp [Enc.feclr, must, sh12_5_15_0, sh12_5_15_2, sh12_5_15_1]

theorem Trip.fest (d : BitVec 5) (a : BitVec 5) : Trip.Statement (.fest d a) := by
  intro _ _
  refine decodeWord_of (i := (.fest d a)) ?_ rfl
  change decodeMajor (Enc.fest d a) = _
  rw [major_2E (by simp [Enc.fest, sh7_5_5_15_0])]
  unfold decode2E
  rw [show fld (Enc.fest d a) 0 10 = 7#10 by simp [Enc.fest, sh7_5_5_15_3]]
  change must _ _ = _
  simp [Enc.fest, must, sh7_5_5_15_3, sh7_5_5_15_1, sh7_5_5_15_2]

theorem Trip.cflush (a : BitVec 5) (b : BitVec 5) : Trip.Statement (.cflush a b) := by
  intro _ _
  refine decodeWord_of (i := (.cflush a b)) ?_ rfl
  change decodeMajor (Enc.cflush a b) = _
  rw [major_2E (by simp [Enc.cflush, sh12_5_5_10_0])]
  unfold decode2E
  rw [show fld (Enc.cflush a b) 0 10 = 8#10 by simp [Enc.cflush, sh12_5_5_10_3]]
  change must _ _ = _
  simp [Enc.cflush, must, sh12_5_5_10_0, sh12_5_5_10_1, sh12_5_5_10_2]

theorem Trip.cinv (a : BitVec 5) (b : BitVec 5) : Trip.Statement (.cinv a b) := by
  intro _ _
  refine decodeWord_of (i := (.cinv a b)) ?_ rfl
  change decodeMajor (Enc.cinv a b) = _
  rw [major_2E (by simp [Enc.cinv, sh12_5_5_10_0])]
  unfold decode2E
  rw [show fld (Enc.cinv a b) 0 10 = 9#10 by simp [Enc.cinv, sh12_5_5_10_3]]
  change must _ _ = _
  simp [Enc.cinv, must, sh12_5_5_10_0, sh12_5_5_10_1, sh12_5_5_10_2]

theorem Trip.pref (a : BitVec 5) : Trip.Statement (.pref a) := by
  intro _ _
  refine decodeWord_of (i := (.pref a)) ?_ rfl
  change decodeMajor (Enc.pref a) = _
  rw [major_2E (by simp [Enc.pref, sh12_5_15_0])]
  unfold decode2E
  rw [show fld (Enc.pref a) 0 10 = 10#10 by simp [Enc.pref, sh12_5_15_2]]
  change must _ _ = _
  simp [Enc.pref, must, sh12_5_15_0, sh12_5_15_2, sh12_5_15_1]

theorem Trip.aadd (d : BitVec 5) (a : BitVec 5) (b : BitVec 5) (w : BitVec 2) (z : BitVec 1) : Trip.Statement (.aadd d a b w z) := by
  intro _ _
  refine decodeWord_of (i := (.aadd d a b w z)) ?_ rfl
  change decodeMajor (Enc.aadd d a b w z) = _
  rw [major_2F (by simp [Enc.aadd, sh7_5_5_5_2_1_7_0])]
  unfold decode2F
  rw [show fld (Enc.aadd d a b w z) 0 7 = 1#7 by simp [Enc.aadd, sh7_5_5_5_2_1_7_6]]
  change Except.ok _ = _
  simp [Enc.aadd, sh7_5_5_5_2_1_7_1, sh7_5_5_5_2_1_7_2, sh7_5_5_5_2_1_7_3, sh7_5_5_5_2_1_7_4, sh7_5_5_5_2_1_7_5]

theorem Trip.aand (d : BitVec 5) (a : BitVec 5) (b : BitVec 5) (w : BitVec 2) (z : BitVec 1) : Trip.Statement (.aand d a b w z) := by
  intro _ _
  refine decodeWord_of (i := (.aand d a b w z)) ?_ rfl
  change decodeMajor (Enc.aand d a b w z) = _
  rw [major_2F (by simp [Enc.aand, sh7_5_5_5_2_1_7_0])]
  unfold decode2F
  rw [show fld (Enc.aand d a b w z) 0 7 = 2#7 by simp [Enc.aand, sh7_5_5_5_2_1_7_6]]
  change Except.ok _ = _
  simp [Enc.aand, sh7_5_5_5_2_1_7_1, sh7_5_5_5_2_1_7_2, sh7_5_5_5_2_1_7_3, sh7_5_5_5_2_1_7_4, sh7_5_5_5_2_1_7_5]

theorem Trip.aor (d : BitVec 5) (a : BitVec 5) (b : BitVec 5) (w : BitVec 2) (z : BitVec 1) : Trip.Statement (.aor d a b w z) := by
  intro _ _
  refine decodeWord_of (i := (.aor d a b w z)) ?_ rfl
  change decodeMajor (Enc.aor d a b w z) = _
  rw [major_2F (by simp [Enc.aor, sh7_5_5_5_2_1_7_0])]
  unfold decode2F
  rw [show fld (Enc.aor d a b w z) 0 7 = 3#7 by simp [Enc.aor, sh7_5_5_5_2_1_7_6]]
  change Except.ok _ = _
  simp [Enc.aor, sh7_5_5_5_2_1_7_1, sh7_5_5_5_2_1_7_2, sh7_5_5_5_2_1_7_3, sh7_5_5_5_2_1_7_4, sh7_5_5_5_2_1_7_5]

theorem Trip.axor (d : BitVec 5) (a : BitVec 5) (b : BitVec 5) (w : BitVec 2) (z : BitVec 1) : Trip.Statement (.axor d a b w z) := by
  intro _ _
  refine decodeWord_of (i := (.axor d a b w z)) ?_ rfl
  change decodeMajor (Enc.axor d a b w z) = _
  rw [major_2F (by simp [Enc.axor, sh7_5_5_5_2_1_7_0])]
  unfold decode2F
  rw [show fld (Enc.axor d a b w z) 0 7 = 4#7 by simp [Enc.axor, sh7_5_5_5_2_1_7_6]]
  change Except.ok _ = _
  simp [Enc.axor, sh7_5_5_5_2_1_7_1, sh7_5_5_5_2_1_7_2, sh7_5_5_5_2_1_7_3, sh7_5_5_5_2_1_7_4, sh7_5_5_5_2_1_7_5]

theorem Trip.amin (d : BitVec 5) (a : BitVec 5) (b : BitVec 5) (w : BitVec 2) (z : BitVec 1) : Trip.Statement (.amin d a b w z) := by
  intro _ _
  refine decodeWord_of (i := (.amin d a b w z)) ?_ rfl
  change decodeMajor (Enc.amin d a b w z) = _
  rw [major_2F (by simp [Enc.amin, sh7_5_5_5_2_1_7_0])]
  unfold decode2F
  rw [show fld (Enc.amin d a b w z) 0 7 = 5#7 by simp [Enc.amin, sh7_5_5_5_2_1_7_6]]
  change Except.ok _ = _
  simp [Enc.amin, sh7_5_5_5_2_1_7_1, sh7_5_5_5_2_1_7_2, sh7_5_5_5_2_1_7_3, sh7_5_5_5_2_1_7_4, sh7_5_5_5_2_1_7_5]

theorem Trip.amax (d : BitVec 5) (a : BitVec 5) (b : BitVec 5) (w : BitVec 2) (z : BitVec 1) : Trip.Statement (.amax d a b w z) := by
  intro _ _
  refine decodeWord_of (i := (.amax d a b w z)) ?_ rfl
  change decodeMajor (Enc.amax d a b w z) = _
  rw [major_2F (by simp [Enc.amax, sh7_5_5_5_2_1_7_0])]
  unfold decode2F
  rw [show fld (Enc.amax d a b w z) 0 7 = 6#7 by simp [Enc.amax, sh7_5_5_5_2_1_7_6]]
  change Except.ok _ = _
  simp [Enc.amax, sh7_5_5_5_2_1_7_1, sh7_5_5_5_2_1_7_2, sh7_5_5_5_2_1_7_3, sh7_5_5_5_2_1_7_4, sh7_5_5_5_2_1_7_5]

theorem Trip.aminu (d : BitVec 5) (a : BitVec 5) (b : BitVec 5) (w : BitVec 2) (z : BitVec 1) : Trip.Statement (.aminu d a b w z) := by
  intro _ _
  refine decodeWord_of (i := (.aminu d a b w z)) ?_ rfl
  change decodeMajor (Enc.aminu d a b w z) = _
  rw [major_2F (by simp [Enc.aminu, sh7_5_5_5_2_1_7_0])]
  unfold decode2F
  rw [show fld (Enc.aminu d a b w z) 0 7 = 7#7 by simp [Enc.aminu, sh7_5_5_5_2_1_7_6]]
  change Except.ok _ = _
  simp [Enc.aminu, sh7_5_5_5_2_1_7_1, sh7_5_5_5_2_1_7_2, sh7_5_5_5_2_1_7_3, sh7_5_5_5_2_1_7_4, sh7_5_5_5_2_1_7_5]

theorem Trip.amaxu (d : BitVec 5) (a : BitVec 5) (b : BitVec 5) (w : BitVec 2) (z : BitVec 1) : Trip.Statement (.amaxu d a b w z) := by
  intro _ _
  refine decodeWord_of (i := (.amaxu d a b w z)) ?_ rfl
  change decodeMajor (Enc.amaxu d a b w z) = _
  rw [major_2F (by simp [Enc.amaxu, sh7_5_5_5_2_1_7_0])]
  unfold decode2F
  rw [show fld (Enc.amaxu d a b w z) 0 7 = 8#7 by simp [Enc.amaxu, sh7_5_5_5_2_1_7_6]]
  change Except.ok _ = _
  simp [Enc.amaxu, sh7_5_5_5_2_1_7_1, sh7_5_5_5_2_1_7_2, sh7_5_5_5_2_1_7_3, sh7_5_5_5_2_1_7_4, sh7_5_5_5_2_1_7_5]

theorem Trip.aswap (d : BitVec 5) (a : BitVec 5) (b : BitVec 5) (w : BitVec 2) (z : BitVec 1) : Trip.Statement (.aswap d a b w z) := by
  intro _ _
  refine decodeWord_of (i := (.aswap d a b w z)) ?_ rfl
  change decodeMajor (Enc.aswap d a b w z) = _
  rw [major_2F (by simp [Enc.aswap, sh7_5_5_5_2_1_7_0])]
  unfold decode2F
  rw [show fld (Enc.aswap d a b w z) 0 7 = 9#7 by simp [Enc.aswap, sh7_5_5_5_2_1_7_6]]
  change Except.ok _ = _
  simp [Enc.aswap, sh7_5_5_5_2_1_7_1, sh7_5_5_5_2_1_7_2, sh7_5_5_5_2_1_7_3, sh7_5_5_5_2_1_7_4, sh7_5_5_5_2_1_7_5]

theorem Trip.acas (d : BitVec 5) (a : BitVec 5) (b : BitVec 5) (w : BitVec 2) (z : BitVec 1) : Trip.Statement (.acas d a b w z) := by
  intro _ _
  refine decodeWord_of (i := (.acas d a b w z)) ?_ rfl
  change decodeMajor (Enc.acas d a b w z) = _
  rw [major_2F (by simp [Enc.acas, sh7_5_5_5_2_1_7_0])]
  unfold decode2F
  rw [show fld (Enc.acas d a b w z) 0 7 = 10#7 by simp [Enc.acas, sh7_5_5_5_2_1_7_6]]
  change Except.ok _ = _
  simp [Enc.acas, sh7_5_5_5_2_1_7_1, sh7_5_5_5_2_1_7_2, sh7_5_5_5_2_1_7_3, sh7_5_5_5_2_1_7_4, sh7_5_5_5_2_1_7_5]

theorem Trip.afadd (d : BitVec 5) (a : BitVec 5) (b : BitVec 5) (w : BitVec 2) : Trip.Statement (.afadd d a b w) := by
  intro _ _
  refine decodeWord_of (i := (.afadd d a b w)) ?_ rfl
  change decodeMajor (Enc.afadd d a b w) = _
  rw [major_2F (by simp [Enc.afadd, sh7_5_5_5_2_8_0])]
  unfold decode2F
  rw [show fld (Enc.afadd d a b w) 0 7 = 11#7 by simp [Enc.afadd, sh7_5_5_5_2_8_5]]
  change must _ _ = _
  simp [Enc.afadd, must, sh7_5_5_5_2_8_5, sh7_5_5_5_2_8_1, sh7_5_5_5_2_8_2, sh7_5_5_5_2_8_3, sh7_5_5_5_2_8_4]

theorem Trip.afmaxabs (d : BitVec 5) (a : BitVec 5) (b : BitVec 5) (w : BitVec 2) : Trip.Statement (.afmaxabs d a b w) := by
  intro _ _
  refine decodeWord_of (i := (.afmaxabs d a b w)) ?_ rfl
  change decodeMajor (Enc.afmaxabs d a b w) = _
  rw [major_2F (by simp [Enc.afmaxabs, sh7_5_5_5_2_8_0])]
  unfold decode2F
  rw [show fld (Enc.afmaxabs d a b w) 0 7 = 12#7 by simp [Enc.afmaxabs, sh7_5_5_5_2_8_5]]
  change must _ _ = _
  simp [Enc.afmaxabs, must, sh7_5_5_5_2_8_5, sh7_5_5_5_2_8_1, sh7_5_5_5_2_8_2, sh7_5_5_5_2_8_3, sh7_5_5_5_2_8_4]

theorem Trip.amaxrst (d : BitVec 5) (a : BitVec 5) (w : BitVec 2) : Trip.Statement (.amaxrst d a w) := by
  intro _ _
  refine decodeWord_of (i := (.amaxrst d a w)) ?_ rfl
  change decodeMajor (Enc.amaxrst d a w) = _
  rw [major_2F (by simp [Enc.amaxrst, sh7_5_5_5_2_8_0])]
  unfold decode2F
  rw [show fld (Enc.amaxrst d a w) 0 7 = 13#7 by simp [Enc.amaxrst, sh7_5_5_5_2_8_5]]
  change must _ _ = _
  simp [Enc.amaxrst, must, sh7_5_5_5_2_8_3, sh7_5_5_5_2_8_5, sh7_5_5_5_2_8_1, sh7_5_5_5_2_8_2, sh7_5_5_5_2_8_4]

theorem Trip.ship (d : BitVec 5) (a : BitVec 5) (b : BitVec 5) (i : BitVec 10) : Trip.Statement (.ship d a b i) := by
  intro _ _
  refine decodeWord_of (i := (.ship d a b i)) ?_ rfl
  change decodeMajor (Enc.ship d a b i) = _
  rw [major_30 (by simp [Enc.ship, sh7_5_5_5_10_0])]
  simp [decode30, Enc.ship, sh7_5_5_5_10_1, sh7_5_5_5_10_2, sh7_5_5_5_10_3, sh7_5_5_5_10_4]

theorem Trip.trap (a : BitVec 5) : Trip.Statement (.trap a) := by
  intro _ _
  refine decodeWord_of (i := (.trap a)) ?_ rfl
  change decodeMajor (Enc.trap a) = _
  rw [major_70 (by simp [Enc.trap, sh12_5_15_0])]
  unfold decode70
  rw [show fld (Enc.trap a) 0 8 = 1#8 by simp [Enc.trap, sh12_5_15_2]]
  change must _ _ = _
  simp [Enc.trap, must, sh12_5_15_0, sh12_5_15_2, sh12_5_15_1]

theorem Trip.eret : Trip.Statement .eret := by
  intro _ _
  rfl

theorem Trip.srrd (d : BitVec 5) (i : BitVec 12) : Trip.Statement (.srrd d i) := by
  intro _ _
  refine decodeWord_of (i := (.srrd d i)) ?_ rfl
  change decodeMajor (Enc.srrd d i) = _
  rw [major_70 (by simp [Enc.srrd, sh7_5_12_8_0])]
  unfold decode70
  rw [show fld (Enc.srrd d i) 0 8 = 3#8 by simp [Enc.srrd, sh7_5_12_8_3]]
  change Except.ok _ = _
  simp [Enc.srrd, sh7_5_12_8_1, sh7_5_12_8_2]

theorem Trip.srwr (d : BitVec 5) (i : BitVec 12) : Trip.Statement (.srwr d i) := by
  intro _ _
  refine decodeWord_of (i := (.srwr d i)) ?_ rfl
  change decodeMajor (Enc.srwr d i) = _
  rw [major_70 (by simp [Enc.srwr, sh7_5_12_8_0])]
  unfold decode70
  rw [show fld (Enc.srwr d i) 0 8 = 4#8 by simp [Enc.srwr, sh7_5_12_8_3]]
  change Except.ok _ = _
  simp [Enc.srwr, sh7_5_12_8_1, sh7_5_12_8_2]

theorem Trip.srset (d : BitVec 5) (i : BitVec 12) : Trip.Statement (.srset d i) := by
  intro _ _
  refine decodeWord_of (i := (.srset d i)) ?_ rfl
  change decodeMajor (Enc.srset d i) = _
  rw [major_70 (by simp [Enc.srset, sh7_5_12_8_0])]
  unfold decode70
  rw [show fld (Enc.srset d i) 0 8 = 5#8 by simp [Enc.srset, sh7_5_12_8_3]]
  change Except.ok _ = _
  simp [Enc.srset, sh7_5_12_8_1, sh7_5_12_8_2]

theorem Trip.srclr (d : BitVec 5) (i : BitVec 12) : Trip.Statement (.srclr d i) := by
  intro _ _
  refine decodeWord_of (i := (.srclr d i)) ?_ rfl
  change decodeMajor (Enc.srclr d i) = _
  rw [major_70 (by simp [Enc.srclr, sh7_5_12_8_0])]
  unfold decode70
  rw [show fld (Enc.srclr d i) 0 8 = 6#8 by simp [Enc.srclr, sh7_5_12_8_3]]
  change Except.ok _ = _
  simp [Enc.srclr, sh7_5_12_8_1, sh7_5_12_8_2]

theorem Trip.halt : Trip.Statement .halt := by
  intro _ _
  rfl

theorem Trip.bkpt : Trip.Statement .bkpt := by
  intro _ _
  rfl

theorem Trip.ifence : Trip.Statement .ifence := by
  intro _ _
  rfl

theorem Trip.tlbinv (a : BitVec 5) (b : BitVec 5) : Trip.Statement (.tlbinv a b) := by
  intro _ _
  refine decodeWord_of (i := (.tlbinv a b)) ?_ rfl
  change decodeMajor (Enc.tlbinv a b) = _
  rw [major_70 (by simp [Enc.tlbinv, sh12_5_5_10_0])]
  unfold decode70
  rw [show fld (Enc.tlbinv a b) 0 8 = 10#8 by simp [Enc.tlbinv, sh12_5_5_10_3]]
  change must _ _ = _
  simp [Enc.tlbinv, must, sh12_5_5_10_0, sh12_5_5_10_3, sh12_5_5_10_1, sh12_5_5_10_2]

theorem Trip.ctxres (d : BitVec 5) (a : BitVec 5) (b : BitVec 5) : Trip.Statement (.ctxres d a b) := by
  intro _ _
  refine decodeWord_of (i := (.ctxres d a b)) ?_ rfl
  change decodeMajor (Enc.ctxres d a b) = _
  rw [major_70 (by simp [Enc.ctxres, sh7_5_5_5_10_0])]
  unfold decode70
  rw [show fld (Enc.ctxres d a b) 0 8 = 11#8 by simp [Enc.ctxres, sh7_5_5_5_10_4]]
  change must _ _ = _
  simp [Enc.ctxres, must, sh7_5_5_5_10_4, sh7_5_5_5_10_1, sh7_5_5_5_10_2, sh7_5_5_5_10_3]

theorem Trip.wfe : Trip.Statement .wfe := by
  intro _ _
  rfl

theorem Trip.vsetl (d : BitVec 5) (a : BitVec 5) (m : BitVec 1) (t : BitVec 1) (l : BitVec 3) (s : BitVec 3) : Trip.Statement (.vsetl d a m t l s) := by
  intro hw _
  refine decodeWord_of (i := (.vsetl d a m t l s)) ?_ hw
  change decodeMajor (Enc.vsetl d a m t l s) = _
  rw [major_38 (by simp [Enc.vsetl, sh7_5_5_7_1_1_3_3_0])]
  simp [decode38, Enc.vsetl, must, sh7_5_5_7_1_1_3_3_0, sh7_5_5_7_1_1_3_3_1, sh7_5_5_7_1_1_3_3_2, sh7_5_5_7_1_1_3_3_3, sh7_5_5_7_1_1_3_3_4, sh7_5_5_7_1_1_3_3_5, sh7_5_5_7_1_1_3_3_6, sh7_5_5_7_1_1_3_3_7]

theorem Trip.vsetli (d : BitVec 5) (u : BitVec 5) (m : BitVec 1) (t : BitVec 1) (l : BitVec 3) (s : BitVec 3) : Trip.Statement (.vsetli d u m t l s) := by
  intro hw _
  refine decodeWord_of (i := (.vsetli d u m t l s)) ?_ hw
  change decodeMajor (Enc.vsetli d u m t l s) = _
  rw [major_39 (by simp [Enc.vsetli, sh7_5_5_7_1_1_3_3_0])]
  simp [decode39, Enc.vsetli, must, sh7_5_5_7_1_1_3_3_0, sh7_5_5_7_1_1_3_3_1, sh7_5_5_7_1_1_3_3_2, sh7_5_5_7_1_1_3_3_3, sh7_5_5_7_1_1_3_3_4, sh7_5_5_7_1_1_3_3_5, sh7_5_5_7_1_1_3_3_6, sh7_5_5_7_1_1_3_3_7]

theorem Trip.vld (d : BitVec 5) (a : BitVec 5) (m : BitVec 1) (w : BitVec 2) (e : BitVec 2) : Trip.Statement (.vld d a m w e) := by
  intro _ _
  refine decodeWord_of (i := (.vld d a m w e)) ?_ rfl
  change decodeMajor (Enc.vld d a m w e) = _
  rw [major_3A (by simp [Enc.vld, sh7_5_5_5_1_2_2_5_0])]
  simp [decode3A, Enc.vld, must, sh7_5_5_5_1_2_2_5_0, sh7_5_5_5_1_2_2_5_1, sh7_5_5_5_1_2_2_5_2, sh7_5_5_5_1_2_2_5_3, sh7_5_5_5_1_2_2_5_4, sh7_5_5_5_1_2_2_5_5, sh7_5_5_5_1_2_2_5_6, sh7_5_5_5_1_2_2_5_7]

theorem Trip.vlds (d : BitVec 5) (a : BitVec 5) (b : BitVec 5) (m : BitVec 1) (w : BitVec 2) (e : BitVec 2) : Trip.Statement (.vlds d a b m w e) := by
  intro _ _
  refine decodeWord_of (i := (.vlds d a b m w e)) ?_ rfl
  change decodeMajor (Enc.vlds d a b m w e) = _
  rw [major_3B (by simp [Enc.vlds, sh7_5_5_5_1_2_2_5_0])]
  simp [decode3B, Enc.vlds, must, sh7_5_5_5_1_2_2_5_0, sh7_5_5_5_1_2_2_5_1, sh7_5_5_5_1_2_2_5_2, sh7_5_5_5_1_2_2_5_3, sh7_5_5_5_1_2_2_5_4, sh7_5_5_5_1_2_2_5_5, sh7_5_5_5_1_2_2_5_6, sh7_5_5_5_1_2_2_5_7]

theorem Trip.vldx (d : BitVec 5) (a : BitVec 5) (b : BitVec 5) (m : BitVec 1) (w : BitVec 2) (e : BitVec 2) : Trip.Statement (.vldx d a b m w e) := by
  intro _ _
  refine decodeWord_of (i := (.vldx d a b m w e)) ?_ rfl
  change decodeMajor (Enc.vldx d a b m w e) = _
  rw [major_3C (by simp [Enc.vldx, sh7_5_5_5_1_2_2_5_0])]
  simp [decode3C, Enc.vldx, must, sh7_5_5_5_1_2_2_5_0, sh7_5_5_5_1_2_2_5_1, sh7_5_5_5_1_2_2_5_2, sh7_5_5_5_1_2_2_5_3, sh7_5_5_5_1_2_2_5_4, sh7_5_5_5_1_2_2_5_5, sh7_5_5_5_1_2_2_5_6, sh7_5_5_5_1_2_2_5_7]

theorem Trip.vldff (d : BitVec 5) (a : BitVec 5) (m : BitVec 1) (w : BitVec 2) (e : BitVec 2) : Trip.Statement (.vldff d a m w e) := by
  intro _ _
  refine decodeWord_of (i := (.vldff d a m w e)) ?_ rfl
  change decodeMajor (Enc.vldff d a m w e) = _
  rw [major_3D (by simp [Enc.vldff, sh7_5_5_5_1_2_2_5_0])]
  simp [decode3D, Enc.vldff, must, sh7_5_5_5_1_2_2_5_0, sh7_5_5_5_1_2_2_5_1, sh7_5_5_5_1_2_2_5_2, sh7_5_5_5_1_2_2_5_3, sh7_5_5_5_1_2_2_5_4, sh7_5_5_5_1_2_2_5_5, sh7_5_5_5_1_2_2_5_6, sh7_5_5_5_1_2_2_5_7]

theorem Trip.vst (d : BitVec 5) (a : BitVec 5) (m : BitVec 1) (w : BitVec 2) (e : BitVec 2) : Trip.Statement (.vst d a m w e) := by
  intro _ _
  refine decodeWord_of (i := (.vst d a m w e)) ?_ rfl
  change decodeMajor (Enc.vst d a m w e) = _
  rw [major_3E (by simp [Enc.vst, sh7_5_5_5_1_2_2_5_0])]
  simp [decode3E, Enc.vst, must, sh7_5_5_5_1_2_2_5_0, sh7_5_5_5_1_2_2_5_1, sh7_5_5_5_1_2_2_5_2, sh7_5_5_5_1_2_2_5_3, sh7_5_5_5_1_2_2_5_4, sh7_5_5_5_1_2_2_5_5, sh7_5_5_5_1_2_2_5_6, sh7_5_5_5_1_2_2_5_7]

theorem Trip.vsts (d : BitVec 5) (a : BitVec 5) (b : BitVec 5) (m : BitVec 1) (w : BitVec 2) (e : BitVec 2) : Trip.Statement (.vsts d a b m w e) := by
  intro _ _
  refine decodeWord_of (i := (.vsts d a b m w e)) ?_ rfl
  change decodeMajor (Enc.vsts d a b m w e) = _
  rw [major_3F (by simp [Enc.vsts, sh7_5_5_5_1_2_2_5_0])]
  simp [decode3F, Enc.vsts, must, sh7_5_5_5_1_2_2_5_0, sh7_5_5_5_1_2_2_5_1, sh7_5_5_5_1_2_2_5_2, sh7_5_5_5_1_2_2_5_3, sh7_5_5_5_1_2_2_5_4, sh7_5_5_5_1_2_2_5_5, sh7_5_5_5_1_2_2_5_6, sh7_5_5_5_1_2_2_5_7]

theorem Trip.vstx (d : BitVec 5) (a : BitVec 5) (b : BitVec 5) (m : BitVec 1) (w : BitVec 2) (e : BitVec 2) : Trip.Statement (.vstx d a b m w e) := by
  intro _ _
  refine decodeWord_of (i := (.vstx d a b m w e)) ?_ rfl
  change decodeMajor (Enc.vstx d a b m w e) = _
  rw [major_40 (by simp [Enc.vstx, sh7_5_5_5_1_2_2_5_0])]
  simp [decode40, Enc.vstx, must, sh7_5_5_5_1_2_2_5_0, sh7_5_5_5_1_2_2_5_1, sh7_5_5_5_1_2_2_5_2, sh7_5_5_5_1_2_2_5_3, sh7_5_5_5_1_2_2_5_4, sh7_5_5_5_1_2_2_5_5, sh7_5_5_5_1_2_2_5_6, sh7_5_5_5_1_2_2_5_7]

theorem Trip.vaddVv (d : BitVec 5) (a : BitVec 5) (b : BitVec 5) (m : BitVec 1) : Trip.Statement (.vaddVv d a b m) := by
  intro _ _
  refine decodeWord_of (i := (.vaddVv d a b m)) ?_ rfl
  change decodeMajor (Enc.vaddVv d a b m) = _
  rw [major_41 (by simp [Enc.vaddVv, sh7_5_5_5_1_9_0])]
  unfold decode41
  rw [show fld (Enc.vaddVv d a b m) 0 5 = 1#5 by simp [Enc.vaddVv, sh7_5_5_5_1_9_5]]
  change must _ _ = _
  simp [Enc.vaddVv, must, sh7_5_5_5_1_9_5, sh7_5_5_5_1_9_1, sh7_5_5_5_1_9_2, sh7_5_5_5_1_9_3, sh7_5_5_5_1_9_4]

theorem Trip.vaddVx (d : BitVec 5) (a : BitVec 5) (s : BitVec 5) (m : BitVec 1) : Trip.Statement (.vaddVx d a s m) := by
  intro _ _
  refine decodeWord_of (i := (.vaddVx d a s m)) ?_ rfl
  change decodeMajor (Enc.vaddVx d a s m) = _
  rw [major_42 (by simp [Enc.vaddVx, sh7_5_5_5_1_9_0])]
  unfold decode42
  rw [show fld (Enc.vaddVx d a s m) 0 5 = 1#5 by simp [Enc.vaddVx, sh7_5_5_5_1_9_5]]
  change must _ _ = _
  simp [Enc.vaddVx, must, sh7_5_5_5_1_9_5, sh7_5_5_5_1_9_1, sh7_5_5_5_1_9_2, sh7_5_5_5_1_9_3, sh7_5_5_5_1_9_4]

theorem Trip.vsubVv (d : BitVec 5) (a : BitVec 5) (b : BitVec 5) (m : BitVec 1) : Trip.Statement (.vsubVv d a b m) := by
  intro _ _
  refine decodeWord_of (i := (.vsubVv d a b m)) ?_ rfl
  change decodeMajor (Enc.vsubVv d a b m) = _
  rw [major_41 (by simp [Enc.vsubVv, sh7_5_5_5_1_9_0])]
  unfold decode41
  rw [show fld (Enc.vsubVv d a b m) 0 5 = 2#5 by simp [Enc.vsubVv, sh7_5_5_5_1_9_5]]
  change must _ _ = _
  simp [Enc.vsubVv, must, sh7_5_5_5_1_9_5, sh7_5_5_5_1_9_1, sh7_5_5_5_1_9_2, sh7_5_5_5_1_9_3, sh7_5_5_5_1_9_4]

theorem Trip.vsubVx (d : BitVec 5) (a : BitVec 5) (s : BitVec 5) (m : BitVec 1) : Trip.Statement (.vsubVx d a s m) := by
  intro _ _
  refine decodeWord_of (i := (.vsubVx d a s m)) ?_ rfl
  change decodeMajor (Enc.vsubVx d a s m) = _
  rw [major_42 (by simp [Enc.vsubVx, sh7_5_5_5_1_9_0])]
  unfold decode42
  rw [show fld (Enc.vsubVx d a s m) 0 5 = 2#5 by simp [Enc.vsubVx, sh7_5_5_5_1_9_5]]
  change must _ _ = _
  simp [Enc.vsubVx, must, sh7_5_5_5_1_9_5, sh7_5_5_5_1_9_1, sh7_5_5_5_1_9_2, sh7_5_5_5_1_9_3, sh7_5_5_5_1_9_4]

theorem Trip.vrsubVv (d : BitVec 5) (a : BitVec 5) (b : BitVec 5) (m : BitVec 1) : Trip.Statement (.vrsubVv d a b m) := by
  intro _ _
  refine decodeWord_of (i := (.vrsubVv d a b m)) ?_ rfl
  change decodeMajor (Enc.vrsubVv d a b m) = _
  rw [major_41 (by simp [Enc.vrsubVv, sh7_5_5_5_1_9_0])]
  unfold decode41
  rw [show fld (Enc.vrsubVv d a b m) 0 5 = 3#5 by simp [Enc.vrsubVv, sh7_5_5_5_1_9_5]]
  change must _ _ = _
  simp [Enc.vrsubVv, must, sh7_5_5_5_1_9_5, sh7_5_5_5_1_9_1, sh7_5_5_5_1_9_2, sh7_5_5_5_1_9_3, sh7_5_5_5_1_9_4]

theorem Trip.vrsubVx (d : BitVec 5) (a : BitVec 5) (s : BitVec 5) (m : BitVec 1) : Trip.Statement (.vrsubVx d a s m) := by
  intro _ _
  refine decodeWord_of (i := (.vrsubVx d a s m)) ?_ rfl
  change decodeMajor (Enc.vrsubVx d a s m) = _
  rw [major_42 (by simp [Enc.vrsubVx, sh7_5_5_5_1_9_0])]
  unfold decode42
  rw [show fld (Enc.vrsubVx d a s m) 0 5 = 3#5 by simp [Enc.vrsubVx, sh7_5_5_5_1_9_5]]
  change must _ _ = _
  simp [Enc.vrsubVx, must, sh7_5_5_5_1_9_5, sh7_5_5_5_1_9_1, sh7_5_5_5_1_9_2, sh7_5_5_5_1_9_3, sh7_5_5_5_1_9_4]

theorem Trip.vmulVv (d : BitVec 5) (a : BitVec 5) (b : BitVec 5) (m : BitVec 1) : Trip.Statement (.vmulVv d a b m) := by
  intro _ _
  refine decodeWord_of (i := (.vmulVv d a b m)) ?_ rfl
  change decodeMajor (Enc.vmulVv d a b m) = _
  rw [major_41 (by simp [Enc.vmulVv, sh7_5_5_5_1_9_0])]
  unfold decode41
  rw [show fld (Enc.vmulVv d a b m) 0 5 = 4#5 by simp [Enc.vmulVv, sh7_5_5_5_1_9_5]]
  change must _ _ = _
  simp [Enc.vmulVv, must, sh7_5_5_5_1_9_5, sh7_5_5_5_1_9_1, sh7_5_5_5_1_9_2, sh7_5_5_5_1_9_3, sh7_5_5_5_1_9_4]

theorem Trip.vmulVx (d : BitVec 5) (a : BitVec 5) (s : BitVec 5) (m : BitVec 1) : Trip.Statement (.vmulVx d a s m) := by
  intro _ _
  refine decodeWord_of (i := (.vmulVx d a s m)) ?_ rfl
  change decodeMajor (Enc.vmulVx d a s m) = _
  rw [major_42 (by simp [Enc.vmulVx, sh7_5_5_5_1_9_0])]
  unfold decode42
  rw [show fld (Enc.vmulVx d a s m) 0 5 = 4#5 by simp [Enc.vmulVx, sh7_5_5_5_1_9_5]]
  change must _ _ = _
  simp [Enc.vmulVx, must, sh7_5_5_5_1_9_5, sh7_5_5_5_1_9_1, sh7_5_5_5_1_9_2, sh7_5_5_5_1_9_3, sh7_5_5_5_1_9_4]

theorem Trip.vmulhVv (d : BitVec 5) (a : BitVec 5) (b : BitVec 5) (m : BitVec 1) (u : BitVec 1) : Trip.Statement (.vmulhVv d a b m u) := by
  intro _ _
  refine decodeWord_of (i := (.vmulhVv d a b m u)) ?_ rfl
  change decodeMajor (Enc.vmulhVv d a b m u) = _
  rw [major_41 (by simp [Enc.vmulhVv, sh7_5_5_5_1_3_1_5_0])]
  unfold decode41
  rw [show fld (Enc.vmulhVv d a b m u) 0 5 = 5#5 by simp [Enc.vmulhVv, sh7_5_5_5_1_3_1_5_7]]
  change must _ _ = _
  simp [Enc.vmulhVv, must, sh7_5_5_5_1_3_1_5_5, sh7_5_5_5_1_3_1_5_1, sh7_5_5_5_1_3_1_5_2, sh7_5_5_5_1_3_1_5_3, sh7_5_5_5_1_3_1_5_4, sh7_5_5_5_1_3_1_5_6]

theorem Trip.vmulhVx (d : BitVec 5) (a : BitVec 5) (s : BitVec 5) (m : BitVec 1) (u : BitVec 1) : Trip.Statement (.vmulhVx d a s m u) := by
  intro _ _
  refine decodeWord_of (i := (.vmulhVx d a s m u)) ?_ rfl
  change decodeMajor (Enc.vmulhVx d a s m u) = _
  rw [major_42 (by simp [Enc.vmulhVx, sh7_5_5_5_1_3_1_5_0])]
  unfold decode42
  rw [show fld (Enc.vmulhVx d a s m u) 0 5 = 5#5 by simp [Enc.vmulhVx, sh7_5_5_5_1_3_1_5_7]]
  change must _ _ = _
  simp [Enc.vmulhVx, must, sh7_5_5_5_1_3_1_5_5, sh7_5_5_5_1_3_1_5_1, sh7_5_5_5_1_3_1_5_2, sh7_5_5_5_1_3_1_5_3, sh7_5_5_5_1_3_1_5_4, sh7_5_5_5_1_3_1_5_6]

theorem Trip.vmaccVv (d : BitVec 5) (a : BitVec 5) (b : BitVec 5) (m : BitVec 1) : Trip.Statement (.vmaccVv d a b m) := by
  intro _ _
  refine decodeWord_of (i := (.vmaccVv d a b m)) ?_ rfl
  change decodeMajor (Enc.vmaccVv d a b m) = _
  rw [major_41 (by simp [Enc.vmaccVv, sh7_5_5_5_1_9_0])]
  unfold decode41
  rw [show fld (Enc.vmaccVv d a b m) 0 5 = 6#5 by simp [Enc.vmaccVv, sh7_5_5_5_1_9_5]]
  change must _ _ = _
  simp [Enc.vmaccVv, must, sh7_5_5_5_1_9_5, sh7_5_5_5_1_9_1, sh7_5_5_5_1_9_2, sh7_5_5_5_1_9_3, sh7_5_5_5_1_9_4]

theorem Trip.vmaccVx (d : BitVec 5) (a : BitVec 5) (s : BitVec 5) (m : BitVec 1) : Trip.Statement (.vmaccVx d a s m) := by
  intro _ _
  refine decodeWord_of (i := (.vmaccVx d a s m)) ?_ rfl
  change decodeMajor (Enc.vmaccVx d a s m) = _
  rw [major_42 (by simp [Enc.vmaccVx, sh7_5_5_5_1_9_0])]
  unfold decode42
  rw [show fld (Enc.vmaccVx d a s m) 0 5 = 6#5 by simp [Enc.vmaccVx, sh7_5_5_5_1_9_5]]
  change must _ _ = _
  simp [Enc.vmaccVx, must, sh7_5_5_5_1_9_5, sh7_5_5_5_1_9_1, sh7_5_5_5_1_9_2, sh7_5_5_5_1_9_3, sh7_5_5_5_1_9_4]

theorem Trip.vnmsacVv (d : BitVec 5) (a : BitVec 5) (b : BitVec 5) (m : BitVec 1) : Trip.Statement (.vnmsacVv d a b m) := by
  intro _ _
  refine decodeWord_of (i := (.vnmsacVv d a b m)) ?_ rfl
  change decodeMajor (Enc.vnmsacVv d a b m) = _
  rw [major_41 (by simp [Enc.vnmsacVv, sh7_5_5_5_1_9_0])]
  unfold decode41
  rw [show fld (Enc.vnmsacVv d a b m) 0 5 = 7#5 by simp [Enc.vnmsacVv, sh7_5_5_5_1_9_5]]
  change must _ _ = _
  simp [Enc.vnmsacVv, must, sh7_5_5_5_1_9_5, sh7_5_5_5_1_9_1, sh7_5_5_5_1_9_2, sh7_5_5_5_1_9_3, sh7_5_5_5_1_9_4]

theorem Trip.vnmsacVx (d : BitVec 5) (a : BitVec 5) (s : BitVec 5) (m : BitVec 1) : Trip.Statement (.vnmsacVx d a s m) := by
  intro _ _
  refine decodeWord_of (i := (.vnmsacVx d a s m)) ?_ rfl
  change decodeMajor (Enc.vnmsacVx d a s m) = _
  rw [major_42 (by simp [Enc.vnmsacVx, sh7_5_5_5_1_9_0])]
  unfold decode42
  rw [show fld (Enc.vnmsacVx d a s m) 0 5 = 7#5 by simp [Enc.vnmsacVx, sh7_5_5_5_1_9_5]]
  change must _ _ = _
  simp [Enc.vnmsacVx, must, sh7_5_5_5_1_9_5, sh7_5_5_5_1_9_1, sh7_5_5_5_1_9_2, sh7_5_5_5_1_9_3, sh7_5_5_5_1_9_4]

theorem Trip.vandVv (d : BitVec 5) (a : BitVec 5) (b : BitVec 5) (m : BitVec 1) : Trip.Statement (.vandVv d a b m) := by
  intro _ _
  refine decodeWord_of (i := (.vandVv d a b m)) ?_ rfl
  change decodeMajor (Enc.vandVv d a b m) = _
  rw [major_41 (by simp [Enc.vandVv, sh7_5_5_5_1_9_0])]
  unfold decode41
  rw [show fld (Enc.vandVv d a b m) 0 5 = 8#5 by simp [Enc.vandVv, sh7_5_5_5_1_9_5]]
  change must _ _ = _
  simp [Enc.vandVv, must, sh7_5_5_5_1_9_5, sh7_5_5_5_1_9_1, sh7_5_5_5_1_9_2, sh7_5_5_5_1_9_3, sh7_5_5_5_1_9_4]

theorem Trip.vandVx (d : BitVec 5) (a : BitVec 5) (s : BitVec 5) (m : BitVec 1) : Trip.Statement (.vandVx d a s m) := by
  intro _ _
  refine decodeWord_of (i := (.vandVx d a s m)) ?_ rfl
  change decodeMajor (Enc.vandVx d a s m) = _
  rw [major_42 (by simp [Enc.vandVx, sh7_5_5_5_1_9_0])]
  unfold decode42
  rw [show fld (Enc.vandVx d a s m) 0 5 = 8#5 by simp [Enc.vandVx, sh7_5_5_5_1_9_5]]
  change must _ _ = _
  simp [Enc.vandVx, must, sh7_5_5_5_1_9_5, sh7_5_5_5_1_9_1, sh7_5_5_5_1_9_2, sh7_5_5_5_1_9_3, sh7_5_5_5_1_9_4]

theorem Trip.vorVv (d : BitVec 5) (a : BitVec 5) (b : BitVec 5) (m : BitVec 1) : Trip.Statement (.vorVv d a b m) := by
  intro _ _
  refine decodeWord_of (i := (.vorVv d a b m)) ?_ rfl
  change decodeMajor (Enc.vorVv d a b m) = _
  rw [major_41 (by simp [Enc.vorVv, sh7_5_5_5_1_9_0])]
  unfold decode41
  rw [show fld (Enc.vorVv d a b m) 0 5 = 9#5 by simp [Enc.vorVv, sh7_5_5_5_1_9_5]]
  change must _ _ = _
  simp [Enc.vorVv, must, sh7_5_5_5_1_9_5, sh7_5_5_5_1_9_1, sh7_5_5_5_1_9_2, sh7_5_5_5_1_9_3, sh7_5_5_5_1_9_4]

theorem Trip.vorVx (d : BitVec 5) (a : BitVec 5) (s : BitVec 5) (m : BitVec 1) : Trip.Statement (.vorVx d a s m) := by
  intro _ _
  refine decodeWord_of (i := (.vorVx d a s m)) ?_ rfl
  change decodeMajor (Enc.vorVx d a s m) = _
  rw [major_42 (by simp [Enc.vorVx, sh7_5_5_5_1_9_0])]
  unfold decode42
  rw [show fld (Enc.vorVx d a s m) 0 5 = 9#5 by simp [Enc.vorVx, sh7_5_5_5_1_9_5]]
  change must _ _ = _
  simp [Enc.vorVx, must, sh7_5_5_5_1_9_5, sh7_5_5_5_1_9_1, sh7_5_5_5_1_9_2, sh7_5_5_5_1_9_3, sh7_5_5_5_1_9_4]

theorem Trip.vxorVv (d : BitVec 5) (a : BitVec 5) (b : BitVec 5) (m : BitVec 1) : Trip.Statement (.vxorVv d a b m) := by
  intro _ _
  refine decodeWord_of (i := (.vxorVv d a b m)) ?_ rfl
  change decodeMajor (Enc.vxorVv d a b m) = _
  rw [major_41 (by simp [Enc.vxorVv, sh7_5_5_5_1_9_0])]
  unfold decode41
  rw [show fld (Enc.vxorVv d a b m) 0 5 = 10#5 by simp [Enc.vxorVv, sh7_5_5_5_1_9_5]]
  change must _ _ = _
  simp [Enc.vxorVv, must, sh7_5_5_5_1_9_5, sh7_5_5_5_1_9_1, sh7_5_5_5_1_9_2, sh7_5_5_5_1_9_3, sh7_5_5_5_1_9_4]

theorem Trip.vxorVx (d : BitVec 5) (a : BitVec 5) (s : BitVec 5) (m : BitVec 1) : Trip.Statement (.vxorVx d a s m) := by
  intro _ _
  refine decodeWord_of (i := (.vxorVx d a s m)) ?_ rfl
  change decodeMajor (Enc.vxorVx d a s m) = _
  rw [major_42 (by simp [Enc.vxorVx, sh7_5_5_5_1_9_0])]
  unfold decode42
  rw [show fld (Enc.vxorVx d a s m) 0 5 = 10#5 by simp [Enc.vxorVx, sh7_5_5_5_1_9_5]]
  change must _ _ = _
  simp [Enc.vxorVx, must, sh7_5_5_5_1_9_5, sh7_5_5_5_1_9_1, sh7_5_5_5_1_9_2, sh7_5_5_5_1_9_3, sh7_5_5_5_1_9_4]

theorem Trip.vsllVv (d : BitVec 5) (a : BitVec 5) (b : BitVec 5) (m : BitVec 1) : Trip.Statement (.vsllVv d a b m) := by
  intro _ _
  refine decodeWord_of (i := (.vsllVv d a b m)) ?_ rfl
  change decodeMajor (Enc.vsllVv d a b m) = _
  rw [major_41 (by simp [Enc.vsllVv, sh7_5_5_5_1_9_0])]
  unfold decode41
  rw [show fld (Enc.vsllVv d a b m) 0 5 = 11#5 by simp [Enc.vsllVv, sh7_5_5_5_1_9_5]]
  change must _ _ = _
  simp [Enc.vsllVv, must, sh7_5_5_5_1_9_5, sh7_5_5_5_1_9_1, sh7_5_5_5_1_9_2, sh7_5_5_5_1_9_3, sh7_5_5_5_1_9_4]

theorem Trip.vsllVx (d : BitVec 5) (a : BitVec 5) (s : BitVec 5) (m : BitVec 1) : Trip.Statement (.vsllVx d a s m) := by
  intro _ _
  refine decodeWord_of (i := (.vsllVx d a s m)) ?_ rfl
  change decodeMajor (Enc.vsllVx d a s m) = _
  rw [major_42 (by simp [Enc.vsllVx, sh7_5_5_5_1_9_0])]
  unfold decode42
  rw [show fld (Enc.vsllVx d a s m) 0 5 = 11#5 by simp [Enc.vsllVx, sh7_5_5_5_1_9_5]]
  change must _ _ = _
  simp [Enc.vsllVx, must, sh7_5_5_5_1_9_5, sh7_5_5_5_1_9_1, sh7_5_5_5_1_9_2, sh7_5_5_5_1_9_3, sh7_5_5_5_1_9_4]

theorem Trip.vsrlVv (d : BitVec 5) (a : BitVec 5) (b : BitVec 5) (m : BitVec 1) : Trip.Statement (.vsrlVv d a b m) := by
  intro _ _
  refine decodeWord_of (i := (.vsrlVv d a b m)) ?_ rfl
  change decodeMajor (Enc.vsrlVv d a b m) = _
  rw [major_41 (by simp [Enc.vsrlVv, sh7_5_5_5_1_9_0])]
  unfold decode41
  rw [show fld (Enc.vsrlVv d a b m) 0 5 = 12#5 by simp [Enc.vsrlVv, sh7_5_5_5_1_9_5]]
  change must _ _ = _
  simp [Enc.vsrlVv, must, sh7_5_5_5_1_9_5, sh7_5_5_5_1_9_1, sh7_5_5_5_1_9_2, sh7_5_5_5_1_9_3, sh7_5_5_5_1_9_4]

theorem Trip.vsrlVx (d : BitVec 5) (a : BitVec 5) (s : BitVec 5) (m : BitVec 1) : Trip.Statement (.vsrlVx d a s m) := by
  intro _ _
  refine decodeWord_of (i := (.vsrlVx d a s m)) ?_ rfl
  change decodeMajor (Enc.vsrlVx d a s m) = _
  rw [major_42 (by simp [Enc.vsrlVx, sh7_5_5_5_1_9_0])]
  unfold decode42
  rw [show fld (Enc.vsrlVx d a s m) 0 5 = 12#5 by simp [Enc.vsrlVx, sh7_5_5_5_1_9_5]]
  change must _ _ = _
  simp [Enc.vsrlVx, must, sh7_5_5_5_1_9_5, sh7_5_5_5_1_9_1, sh7_5_5_5_1_9_2, sh7_5_5_5_1_9_3, sh7_5_5_5_1_9_4]

theorem Trip.vsraVv (d : BitVec 5) (a : BitVec 5) (b : BitVec 5) (m : BitVec 1) : Trip.Statement (.vsraVv d a b m) := by
  intro _ _
  refine decodeWord_of (i := (.vsraVv d a b m)) ?_ rfl
  change decodeMajor (Enc.vsraVv d a b m) = _
  rw [major_41 (by simp [Enc.vsraVv, sh7_5_5_5_1_9_0])]
  unfold decode41
  rw [show fld (Enc.vsraVv d a b m) 0 5 = 13#5 by simp [Enc.vsraVv, sh7_5_5_5_1_9_5]]
  change must _ _ = _
  simp [Enc.vsraVv, must, sh7_5_5_5_1_9_5, sh7_5_5_5_1_9_1, sh7_5_5_5_1_9_2, sh7_5_5_5_1_9_3, sh7_5_5_5_1_9_4]

theorem Trip.vsraVx (d : BitVec 5) (a : BitVec 5) (s : BitVec 5) (m : BitVec 1) : Trip.Statement (.vsraVx d a s m) := by
  intro _ _
  refine decodeWord_of (i := (.vsraVx d a s m)) ?_ rfl
  change decodeMajor (Enc.vsraVx d a s m) = _
  rw [major_42 (by simp [Enc.vsraVx, sh7_5_5_5_1_9_0])]
  unfold decode42
  rw [show fld (Enc.vsraVx d a s m) 0 5 = 13#5 by simp [Enc.vsraVx, sh7_5_5_5_1_9_5]]
  change must _ _ = _
  simp [Enc.vsraVx, must, sh7_5_5_5_1_9_5, sh7_5_5_5_1_9_1, sh7_5_5_5_1_9_2, sh7_5_5_5_1_9_3, sh7_5_5_5_1_9_4]

theorem Trip.vminVv (d : BitVec 5) (a : BitVec 5) (b : BitVec 5) (m : BitVec 1) : Trip.Statement (.vminVv d a b m) := by
  intro _ _
  refine decodeWord_of (i := (.vminVv d a b m)) ?_ rfl
  change decodeMajor (Enc.vminVv d a b m) = _
  rw [major_41 (by simp [Enc.vminVv, sh7_5_5_5_1_9_0])]
  unfold decode41
  rw [show fld (Enc.vminVv d a b m) 0 5 = 14#5 by simp [Enc.vminVv, sh7_5_5_5_1_9_5]]
  change must _ _ = _
  simp [Enc.vminVv, must, sh7_5_5_5_1_9_5, sh7_5_5_5_1_9_1, sh7_5_5_5_1_9_2, sh7_5_5_5_1_9_3, sh7_5_5_5_1_9_4]

theorem Trip.vminVx (d : BitVec 5) (a : BitVec 5) (s : BitVec 5) (m : BitVec 1) : Trip.Statement (.vminVx d a s m) := by
  intro _ _
  refine decodeWord_of (i := (.vminVx d a s m)) ?_ rfl
  change decodeMajor (Enc.vminVx d a s m) = _
  rw [major_42 (by simp [Enc.vminVx, sh7_5_5_5_1_9_0])]
  unfold decode42
  rw [show fld (Enc.vminVx d a s m) 0 5 = 14#5 by simp [Enc.vminVx, sh7_5_5_5_1_9_5]]
  change must _ _ = _
  simp [Enc.vminVx, must, sh7_5_5_5_1_9_5, sh7_5_5_5_1_9_1, sh7_5_5_5_1_9_2, sh7_5_5_5_1_9_3, sh7_5_5_5_1_9_4]

theorem Trip.vmaxVv (d : BitVec 5) (a : BitVec 5) (b : BitVec 5) (m : BitVec 1) : Trip.Statement (.vmaxVv d a b m) := by
  intro _ _
  refine decodeWord_of (i := (.vmaxVv d a b m)) ?_ rfl
  change decodeMajor (Enc.vmaxVv d a b m) = _
  rw [major_41 (by simp [Enc.vmaxVv, sh7_5_5_5_1_9_0])]
  unfold decode41
  rw [show fld (Enc.vmaxVv d a b m) 0 5 = 15#5 by simp [Enc.vmaxVv, sh7_5_5_5_1_9_5]]
  change must _ _ = _
  simp [Enc.vmaxVv, must, sh7_5_5_5_1_9_5, sh7_5_5_5_1_9_1, sh7_5_5_5_1_9_2, sh7_5_5_5_1_9_3, sh7_5_5_5_1_9_4]

theorem Trip.vmaxVx (d : BitVec 5) (a : BitVec 5) (s : BitVec 5) (m : BitVec 1) : Trip.Statement (.vmaxVx d a s m) := by
  intro _ _
  refine decodeWord_of (i := (.vmaxVx d a s m)) ?_ rfl
  change decodeMajor (Enc.vmaxVx d a s m) = _
  rw [major_42 (by simp [Enc.vmaxVx, sh7_5_5_5_1_9_0])]
  unfold decode42
  rw [show fld (Enc.vmaxVx d a s m) 0 5 = 15#5 by simp [Enc.vmaxVx, sh7_5_5_5_1_9_5]]
  change must _ _ = _
  simp [Enc.vmaxVx, must, sh7_5_5_5_1_9_5, sh7_5_5_5_1_9_1, sh7_5_5_5_1_9_2, sh7_5_5_5_1_9_3, sh7_5_5_5_1_9_4]

theorem Trip.vminuVv (d : BitVec 5) (a : BitVec 5) (b : BitVec 5) (m : BitVec 1) : Trip.Statement (.vminuVv d a b m) := by
  intro _ _
  refine decodeWord_of (i := (.vminuVv d a b m)) ?_ rfl
  change decodeMajor (Enc.vminuVv d a b m) = _
  rw [major_41 (by simp [Enc.vminuVv, sh7_5_5_5_1_9_0])]
  unfold decode41
  rw [show fld (Enc.vminuVv d a b m) 0 5 = 16#5 by simp [Enc.vminuVv, sh7_5_5_5_1_9_5]]
  change must _ _ = _
  simp [Enc.vminuVv, must, sh7_5_5_5_1_9_5, sh7_5_5_5_1_9_1, sh7_5_5_5_1_9_2, sh7_5_5_5_1_9_3, sh7_5_5_5_1_9_4]

theorem Trip.vminuVx (d : BitVec 5) (a : BitVec 5) (s : BitVec 5) (m : BitVec 1) : Trip.Statement (.vminuVx d a s m) := by
  intro _ _
  refine decodeWord_of (i := (.vminuVx d a s m)) ?_ rfl
  change decodeMajor (Enc.vminuVx d a s m) = _
  rw [major_42 (by simp [Enc.vminuVx, sh7_5_5_5_1_9_0])]
  unfold decode42
  rw [show fld (Enc.vminuVx d a s m) 0 5 = 16#5 by simp [Enc.vminuVx, sh7_5_5_5_1_9_5]]
  change must _ _ = _
  simp [Enc.vminuVx, must, sh7_5_5_5_1_9_5, sh7_5_5_5_1_9_1, sh7_5_5_5_1_9_2, sh7_5_5_5_1_9_3, sh7_5_5_5_1_9_4]

theorem Trip.vmaxuVv (d : BitVec 5) (a : BitVec 5) (b : BitVec 5) (m : BitVec 1) : Trip.Statement (.vmaxuVv d a b m) := by
  intro _ _
  refine decodeWord_of (i := (.vmaxuVv d a b m)) ?_ rfl
  change decodeMajor (Enc.vmaxuVv d a b m) = _
  rw [major_41 (by simp [Enc.vmaxuVv, sh7_5_5_5_1_9_0])]
  unfold decode41
  rw [show fld (Enc.vmaxuVv d a b m) 0 5 = 17#5 by simp [Enc.vmaxuVv, sh7_5_5_5_1_9_5]]
  change must _ _ = _
  simp [Enc.vmaxuVv, must, sh7_5_5_5_1_9_5, sh7_5_5_5_1_9_1, sh7_5_5_5_1_9_2, sh7_5_5_5_1_9_3, sh7_5_5_5_1_9_4]

theorem Trip.vmaxuVx (d : BitVec 5) (a : BitVec 5) (s : BitVec 5) (m : BitVec 1) : Trip.Statement (.vmaxuVx d a s m) := by
  intro _ _
  refine decodeWord_of (i := (.vmaxuVx d a s m)) ?_ rfl
  change decodeMajor (Enc.vmaxuVx d a s m) = _
  rw [major_42 (by simp [Enc.vmaxuVx, sh7_5_5_5_1_9_0])]
  unfold decode42
  rw [show fld (Enc.vmaxuVx d a s m) 0 5 = 17#5 by simp [Enc.vmaxuVx, sh7_5_5_5_1_9_5]]
  change must _ _ = _
  simp [Enc.vmaxuVx, must, sh7_5_5_5_1_9_5, sh7_5_5_5_1_9_1, sh7_5_5_5_1_9_2, sh7_5_5_5_1_9_3, sh7_5_5_5_1_9_4]

theorem Trip.vseqVv (d : BitVec 5) (a : BitVec 5) (b : BitVec 5) (m : BitVec 1) : Trip.Statement (.vseqVv d a b m) := by
  intro _ _
  refine decodeWord_of (i := (.vseqVv d a b m)) ?_ rfl
  change decodeMajor (Enc.vseqVv d a b m) = _
  rw [major_41 (by simp [Enc.vseqVv, sh7_5_5_5_1_9_0])]
  unfold decode41
  rw [show fld (Enc.vseqVv d a b m) 0 5 = 18#5 by simp [Enc.vseqVv, sh7_5_5_5_1_9_5]]
  change must _ _ = _
  simp [Enc.vseqVv, must, sh7_5_5_5_1_9_5, sh7_5_5_5_1_9_1, sh7_5_5_5_1_9_2, sh7_5_5_5_1_9_3, sh7_5_5_5_1_9_4]

theorem Trip.vseqVx (d : BitVec 5) (a : BitVec 5) (s : BitVec 5) (m : BitVec 1) : Trip.Statement (.vseqVx d a s m) := by
  intro _ _
  refine decodeWord_of (i := (.vseqVx d a s m)) ?_ rfl
  change decodeMajor (Enc.vseqVx d a s m) = _
  rw [major_42 (by simp [Enc.vseqVx, sh7_5_5_5_1_9_0])]
  unfold decode42
  rw [show fld (Enc.vseqVx d a s m) 0 5 = 18#5 by simp [Enc.vseqVx, sh7_5_5_5_1_9_5]]
  change must _ _ = _
  simp [Enc.vseqVx, must, sh7_5_5_5_1_9_5, sh7_5_5_5_1_9_1, sh7_5_5_5_1_9_2, sh7_5_5_5_1_9_3, sh7_5_5_5_1_9_4]

theorem Trip.vsneVv (d : BitVec 5) (a : BitVec 5) (b : BitVec 5) (m : BitVec 1) : Trip.Statement (.vsneVv d a b m) := by
  intro _ _
  refine decodeWord_of (i := (.vsneVv d a b m)) ?_ rfl
  change decodeMajor (Enc.vsneVv d a b m) = _
  rw [major_41 (by simp [Enc.vsneVv, sh7_5_5_5_1_9_0])]
  unfold decode41
  rw [show fld (Enc.vsneVv d a b m) 0 5 = 19#5 by simp [Enc.vsneVv, sh7_5_5_5_1_9_5]]
  change must _ _ = _
  simp [Enc.vsneVv, must, sh7_5_5_5_1_9_5, sh7_5_5_5_1_9_1, sh7_5_5_5_1_9_2, sh7_5_5_5_1_9_3, sh7_5_5_5_1_9_4]

theorem Trip.vsneVx (d : BitVec 5) (a : BitVec 5) (s : BitVec 5) (m : BitVec 1) : Trip.Statement (.vsneVx d a s m) := by
  intro _ _
  refine decodeWord_of (i := (.vsneVx d a s m)) ?_ rfl
  change decodeMajor (Enc.vsneVx d a s m) = _
  rw [major_42 (by simp [Enc.vsneVx, sh7_5_5_5_1_9_0])]
  unfold decode42
  rw [show fld (Enc.vsneVx d a s m) 0 5 = 19#5 by simp [Enc.vsneVx, sh7_5_5_5_1_9_5]]
  change must _ _ = _
  simp [Enc.vsneVx, must, sh7_5_5_5_1_9_5, sh7_5_5_5_1_9_1, sh7_5_5_5_1_9_2, sh7_5_5_5_1_9_3, sh7_5_5_5_1_9_4]

theorem Trip.vsltVv (d : BitVec 5) (a : BitVec 5) (b : BitVec 5) (m : BitVec 1) : Trip.Statement (.vsltVv d a b m) := by
  intro _ _
  refine decodeWord_of (i := (.vsltVv d a b m)) ?_ rfl
  change decodeMajor (Enc.vsltVv d a b m) = _
  rw [major_41 (by simp [Enc.vsltVv, sh7_5_5_5_1_9_0])]
  unfold decode41
  rw [show fld (Enc.vsltVv d a b m) 0 5 = 20#5 by simp [Enc.vsltVv, sh7_5_5_5_1_9_5]]
  change must _ _ = _
  simp [Enc.vsltVv, must, sh7_5_5_5_1_9_5, sh7_5_5_5_1_9_1, sh7_5_5_5_1_9_2, sh7_5_5_5_1_9_3, sh7_5_5_5_1_9_4]

theorem Trip.vsltVx (d : BitVec 5) (a : BitVec 5) (s : BitVec 5) (m : BitVec 1) : Trip.Statement (.vsltVx d a s m) := by
  intro _ _
  refine decodeWord_of (i := (.vsltVx d a s m)) ?_ rfl
  change decodeMajor (Enc.vsltVx d a s m) = _
  rw [major_42 (by simp [Enc.vsltVx, sh7_5_5_5_1_9_0])]
  unfold decode42
  rw [show fld (Enc.vsltVx d a s m) 0 5 = 20#5 by simp [Enc.vsltVx, sh7_5_5_5_1_9_5]]
  change must _ _ = _
  simp [Enc.vsltVx, must, sh7_5_5_5_1_9_5, sh7_5_5_5_1_9_1, sh7_5_5_5_1_9_2, sh7_5_5_5_1_9_3, sh7_5_5_5_1_9_4]

theorem Trip.vsltuVv (d : BitVec 5) (a : BitVec 5) (b : BitVec 5) (m : BitVec 1) : Trip.Statement (.vsltuVv d a b m) := by
  intro _ _
  refine decodeWord_of (i := (.vsltuVv d a b m)) ?_ rfl
  change decodeMajor (Enc.vsltuVv d a b m) = _
  rw [major_41 (by simp [Enc.vsltuVv, sh7_5_5_5_1_9_0])]
  unfold decode41
  rw [show fld (Enc.vsltuVv d a b m) 0 5 = 21#5 by simp [Enc.vsltuVv, sh7_5_5_5_1_9_5]]
  change must _ _ = _
  simp [Enc.vsltuVv, must, sh7_5_5_5_1_9_5, sh7_5_5_5_1_9_1, sh7_5_5_5_1_9_2, sh7_5_5_5_1_9_3, sh7_5_5_5_1_9_4]

theorem Trip.vsltuVx (d : BitVec 5) (a : BitVec 5) (s : BitVec 5) (m : BitVec 1) : Trip.Statement (.vsltuVx d a s m) := by
  intro _ _
  refine decodeWord_of (i := (.vsltuVx d a s m)) ?_ rfl
  change decodeMajor (Enc.vsltuVx d a s m) = _
  rw [major_42 (by simp [Enc.vsltuVx, sh7_5_5_5_1_9_0])]
  unfold decode42
  rw [show fld (Enc.vsltuVx d a s m) 0 5 = 21#5 by simp [Enc.vsltuVx, sh7_5_5_5_1_9_5]]
  change must _ _ = _
  simp [Enc.vsltuVx, must, sh7_5_5_5_1_9_5, sh7_5_5_5_1_9_1, sh7_5_5_5_1_9_2, sh7_5_5_5_1_9_3, sh7_5_5_5_1_9_4]

theorem Trip.vsleVv (d : BitVec 5) (a : BitVec 5) (b : BitVec 5) (m : BitVec 1) : Trip.Statement (.vsleVv d a b m) := by
  intro _ _
  refine decodeWord_of (i := (.vsleVv d a b m)) ?_ rfl
  change decodeMajor (Enc.vsleVv d a b m) = _
  rw [major_41 (by simp [Enc.vsleVv, sh7_5_5_5_1_9_0])]
  unfold decode41
  rw [show fld (Enc.vsleVv d a b m) 0 5 = 22#5 by simp [Enc.vsleVv, sh7_5_5_5_1_9_5]]
  change must _ _ = _
  simp [Enc.vsleVv, must, sh7_5_5_5_1_9_5, sh7_5_5_5_1_9_1, sh7_5_5_5_1_9_2, sh7_5_5_5_1_9_3, sh7_5_5_5_1_9_4]

theorem Trip.vsleVx (d : BitVec 5) (a : BitVec 5) (s : BitVec 5) (m : BitVec 1) : Trip.Statement (.vsleVx d a s m) := by
  intro _ _
  refine decodeWord_of (i := (.vsleVx d a s m)) ?_ rfl
  change decodeMajor (Enc.vsleVx d a s m) = _
  rw [major_42 (by simp [Enc.vsleVx, sh7_5_5_5_1_9_0])]
  unfold decode42
  rw [show fld (Enc.vsleVx d a s m) 0 5 = 22#5 by simp [Enc.vsleVx, sh7_5_5_5_1_9_5]]
  change must _ _ = _
  simp [Enc.vsleVx, must, sh7_5_5_5_1_9_5, sh7_5_5_5_1_9_1, sh7_5_5_5_1_9_2, sh7_5_5_5_1_9_3, sh7_5_5_5_1_9_4]

theorem Trip.vmergeVv (d : BitVec 5) (a : BitVec 5) (b : BitVec 5) : Trip.Statement (.vmergeVv d a b) := by
  intro _ _
  refine decodeWord_of (i := (.vmergeVv d a b)) ?_ rfl
  change decodeMajor (Enc.vmergeVv d a b) = _
  rw [major_41 (by simp [Enc.vmergeVv, sh7_5_5_5_10_0])]
  unfold decode41
  rw [show fld (Enc.vmergeVv d a b) 0 5 = 23#5 by simp [Enc.vmergeVv, sh7_5_5_5_10_4]]
  change must _ _ = _
  simp [Enc.vmergeVv, must, sh7_5_5_5_10_4, sh7_5_5_5_10_1, sh7_5_5_5_10_2, sh7_5_5_5_10_3]

theorem Trip.vmergeVx (d : BitVec 5) (a : BitVec 5) (s : BitVec 5) : Trip.Statement (.vmergeVx d a s) := by
  intro _ _
  refine decodeWord_of (i := (.vmergeVx d a s)) ?_ rfl
  change decodeMajor (Enc.vmergeVx d a s) = _
  rw [major_42 (by simp [Enc.vmergeVx, sh7_5_5_5_10_0])]
  unfold decode42
  rw [show fld (Enc.vmergeVx d a s) 0 5 = 23#5 by simp [Enc.vmergeVx, sh7_5_5_5_10_4]]
  change must _ _ = _
  simp [Enc.vmergeVx, must, sh7_5_5_5_10_4, sh7_5_5_5_10_1, sh7_5_5_5_10_2, sh7_5_5_5_10_3]

theorem Trip.vmvVv (d : BitVec 5) (a : BitVec 5) (m : BitVec 1) : Trip.Statement (.vmvVv d a m) := by
  intro _ _
  refine decodeWord_of (i := (.vmvVv d a m)) ?_ rfl
  change decodeMajor (Enc.vmvVv d a m) = _
  rw [major_41 (by simp [Enc.vmvVv, sh7_5_5_5_1_9_0])]
  unfold decode41
  rw [show fld (Enc.vmvVv d a m) 0 5 = 24#5 by simp [Enc.vmvVv, sh7_5_5_5_1_9_5]]
  change must _ _ = _
  simp [Enc.vmvVv, must, sh7_5_5_5_1_9_3, sh7_5_5_5_1_9_5, sh7_5_5_5_1_9_1, sh7_5_5_5_1_9_2, sh7_5_5_5_1_9_4]

theorem Trip.vmvVx (d : BitVec 5) (s : BitVec 5) (m : BitVec 1) : Trip.Statement (.vmvVx d s m) := by
  intro _ _
  refine decodeWord_of (i := (.vmvVx d s m)) ?_ rfl
  change decodeMajor (Enc.vmvVx d s m) = _
  rw [major_42 (by simp [Enc.vmvVx, sh7_5_5_5_1_9_0])]
  unfold decode42
  rw [show fld (Enc.vmvVx d s m) 0 5 = 24#5 by simp [Enc.vmvVx, sh7_5_5_5_1_9_5]]
  change must _ _ = _
  simp [Enc.vmvVx, must, sh7_5_5_5_1_9_2, sh7_5_5_5_1_9_5, sh7_5_5_5_1_9_1, sh7_5_5_5_1_9_3, sh7_5_5_5_1_9_4]

theorem Trip.vsaddVv (d : BitVec 5) (a : BitVec 5) (b : BitVec 5) (m : BitVec 1) (u : BitVec 1) : Trip.Statement (.vsaddVv d a b m u) := by
  intro _ _
  refine decodeWord_of (i := (.vsaddVv d a b m u)) ?_ rfl
  change decodeMajor (Enc.vsaddVv d a b m u) = _
  rw [major_41 (by simp [Enc.vsaddVv, sh7_5_5_5_1_3_1_5_0])]
  unfold decode41
  rw [show fld (Enc.vsaddVv d a b m u) 0 5 = 25#5 by simp [Enc.vsaddVv, sh7_5_5_5_1_3_1_5_7]]
  change must _ _ = _
  simp [Enc.vsaddVv, must, sh7_5_5_5_1_3_1_5_5, sh7_5_5_5_1_3_1_5_1, sh7_5_5_5_1_3_1_5_2, sh7_5_5_5_1_3_1_5_3, sh7_5_5_5_1_3_1_5_4, sh7_5_5_5_1_3_1_5_6]

theorem Trip.vsaddVx (d : BitVec 5) (a : BitVec 5) (s : BitVec 5) (m : BitVec 1) (u : BitVec 1) : Trip.Statement (.vsaddVx d a s m u) := by
  intro _ _
  refine decodeWord_of (i := (.vsaddVx d a s m u)) ?_ rfl
  change decodeMajor (Enc.vsaddVx d a s m u) = _
  rw [major_42 (by simp [Enc.vsaddVx, sh7_5_5_5_1_3_1_5_0])]
  unfold decode42
  rw [show fld (Enc.vsaddVx d a s m u) 0 5 = 25#5 by simp [Enc.vsaddVx, sh7_5_5_5_1_3_1_5_7]]
  change must _ _ = _
  simp [Enc.vsaddVx, must, sh7_5_5_5_1_3_1_5_5, sh7_5_5_5_1_3_1_5_1, sh7_5_5_5_1_3_1_5_2, sh7_5_5_5_1_3_1_5_3, sh7_5_5_5_1_3_1_5_4, sh7_5_5_5_1_3_1_5_6]

theorem Trip.vssubVv (d : BitVec 5) (a : BitVec 5) (b : BitVec 5) (m : BitVec 1) (u : BitVec 1) : Trip.Statement (.vssubVv d a b m u) := by
  intro _ _
  refine decodeWord_of (i := (.vssubVv d a b m u)) ?_ rfl
  change decodeMajor (Enc.vssubVv d a b m u) = _
  rw [major_41 (by simp [Enc.vssubVv, sh7_5_5_5_1_3_1_5_0])]
  unfold decode41
  rw [show fld (Enc.vssubVv d a b m u) 0 5 = 26#5 by simp [Enc.vssubVv, sh7_5_5_5_1_3_1_5_7]]
  change must _ _ = _
  simp [Enc.vssubVv, must, sh7_5_5_5_1_3_1_5_5, sh7_5_5_5_1_3_1_5_1, sh7_5_5_5_1_3_1_5_2, sh7_5_5_5_1_3_1_5_3, sh7_5_5_5_1_3_1_5_4, sh7_5_5_5_1_3_1_5_6]

theorem Trip.vssubVx (d : BitVec 5) (a : BitVec 5) (s : BitVec 5) (m : BitVec 1) (u : BitVec 1) : Trip.Statement (.vssubVx d a s m u) := by
  intro _ _
  refine decodeWord_of (i := (.vssubVx d a s m u)) ?_ rfl
  change decodeMajor (Enc.vssubVx d a s m u) = _
  rw [major_42 (by simp [Enc.vssubVx, sh7_5_5_5_1_3_1_5_0])]
  unfold decode42
  rw [show fld (Enc.vssubVx d a s m u) 0 5 = 26#5 by simp [Enc.vssubVx, sh7_5_5_5_1_3_1_5_7]]
  change must _ _ = _
  simp [Enc.vssubVx, must, sh7_5_5_5_1_3_1_5_5, sh7_5_5_5_1_3_1_5_1, sh7_5_5_5_1_3_1_5_2, sh7_5_5_5_1_3_1_5_3, sh7_5_5_5_1_3_1_5_4, sh7_5_5_5_1_3_1_5_6]

theorem Trip.vnclipVv (d : BitVec 5) (a : BitVec 5) (b : BitVec 5) (m : BitVec 1) (u : BitVec 1) : Trip.Statement (.vnclipVv d a b m u) := by
  intro _ _
  refine decodeWord_of (i := (.vnclipVv d a b m u)) ?_ rfl
  change decodeMajor (Enc.vnclipVv d a b m u) = _
  rw [major_41 (by simp [Enc.vnclipVv, sh7_5_5_5_1_3_1_5_0])]
  unfold decode41
  rw [show fld (Enc.vnclipVv d a b m u) 0 5 = 27#5 by simp [Enc.vnclipVv, sh7_5_5_5_1_3_1_5_7]]
  change must _ _ = _
  simp [Enc.vnclipVv, must, sh7_5_5_5_1_3_1_5_5, sh7_5_5_5_1_3_1_5_1, sh7_5_5_5_1_3_1_5_2, sh7_5_5_5_1_3_1_5_3, sh7_5_5_5_1_3_1_5_4, sh7_5_5_5_1_3_1_5_6]

theorem Trip.vnclipVx (d : BitVec 5) (a : BitVec 5) (s : BitVec 5) (m : BitVec 1) (u : BitVec 1) : Trip.Statement (.vnclipVx d a s m u) := by
  intro _ _
  refine decodeWord_of (i := (.vnclipVx d a s m u)) ?_ rfl
  change decodeMajor (Enc.vnclipVx d a s m u) = _
  rw [major_42 (by simp [Enc.vnclipVx, sh7_5_5_5_1_3_1_5_0])]
  unfold decode42
  rw [show fld (Enc.vnclipVx d a s m u) 0 5 = 27#5 by simp [Enc.vnclipVx, sh7_5_5_5_1_3_1_5_7]]
  change must _ _ = _
  simp [Enc.vnclipVx, must, sh7_5_5_5_1_3_1_5_5, sh7_5_5_5_1_3_1_5_1, sh7_5_5_5_1_3_1_5_2, sh7_5_5_5_1_3_1_5_3, sh7_5_5_5_1_3_1_5_4, sh7_5_5_5_1_3_1_5_6]

theorem Trip.vwaddVv (d : BitVec 5) (a : BitVec 5) (b : BitVec 5) (m : BitVec 1) (u : BitVec 1) : Trip.Statement (.vwaddVv d a b m u) := by
  intro _ _
  refine decodeWord_of (i := (.vwaddVv d a b m u)) ?_ rfl
  change decodeMajor (Enc.vwaddVv d a b m u) = _
  rw [major_41 (by simp [Enc.vwaddVv, sh7_5_5_5_1_3_1_5_0])]
  unfold decode41
  rw [show fld (Enc.vwaddVv d a b m u) 0 5 = 28#5 by simp [Enc.vwaddVv, sh7_5_5_5_1_3_1_5_7]]
  change must _ _ = _
  simp [Enc.vwaddVv, must, sh7_5_5_5_1_3_1_5_5, sh7_5_5_5_1_3_1_5_1, sh7_5_5_5_1_3_1_5_2, sh7_5_5_5_1_3_1_5_3, sh7_5_5_5_1_3_1_5_4, sh7_5_5_5_1_3_1_5_6]

theorem Trip.vwaddVx (d : BitVec 5) (a : BitVec 5) (s : BitVec 5) (m : BitVec 1) (u : BitVec 1) : Trip.Statement (.vwaddVx d a s m u) := by
  intro _ _
  refine decodeWord_of (i := (.vwaddVx d a s m u)) ?_ rfl
  change decodeMajor (Enc.vwaddVx d a s m u) = _
  rw [major_42 (by simp [Enc.vwaddVx, sh7_5_5_5_1_3_1_5_0])]
  unfold decode42
  rw [show fld (Enc.vwaddVx d a s m u) 0 5 = 28#5 by simp [Enc.vwaddVx, sh7_5_5_5_1_3_1_5_7]]
  change must _ _ = _
  simp [Enc.vwaddVx, must, sh7_5_5_5_1_3_1_5_5, sh7_5_5_5_1_3_1_5_1, sh7_5_5_5_1_3_1_5_2, sh7_5_5_5_1_3_1_5_3, sh7_5_5_5_1_3_1_5_4, sh7_5_5_5_1_3_1_5_6]

theorem Trip.vwmulVv (d : BitVec 5) (a : BitVec 5) (b : BitVec 5) (m : BitVec 1) (u : BitVec 1) : Trip.Statement (.vwmulVv d a b m u) := by
  intro _ _
  refine decodeWord_of (i := (.vwmulVv d a b m u)) ?_ rfl
  change decodeMajor (Enc.vwmulVv d a b m u) = _
  rw [major_41 (by simp [Enc.vwmulVv, sh7_5_5_5_1_3_1_5_0])]
  unfold decode41
  rw [show fld (Enc.vwmulVv d a b m u) 0 5 = 29#5 by simp [Enc.vwmulVv, sh7_5_5_5_1_3_1_5_7]]
  change must _ _ = _
  simp [Enc.vwmulVv, must, sh7_5_5_5_1_3_1_5_5, sh7_5_5_5_1_3_1_5_1, sh7_5_5_5_1_3_1_5_2, sh7_5_5_5_1_3_1_5_3, sh7_5_5_5_1_3_1_5_4, sh7_5_5_5_1_3_1_5_6]

theorem Trip.vwmulVx (d : BitVec 5) (a : BitVec 5) (s : BitVec 5) (m : BitVec 1) (u : BitVec 1) : Trip.Statement (.vwmulVx d a s m u) := by
  intro _ _
  refine decodeWord_of (i := (.vwmulVx d a s m u)) ?_ rfl
  change decodeMajor (Enc.vwmulVx d a s m u) = _
  rw [major_42 (by simp [Enc.vwmulVx, sh7_5_5_5_1_3_1_5_0])]
  unfold decode42
  rw [show fld (Enc.vwmulVx d a s m u) 0 5 = 29#5 by simp [Enc.vwmulVx, sh7_5_5_5_1_3_1_5_7]]
  change must _ _ = _
  simp [Enc.vwmulVx, must, sh7_5_5_5_1_3_1_5_5, sh7_5_5_5_1_3_1_5_1, sh7_5_5_5_1_3_1_5_2, sh7_5_5_5_1_3_1_5_3, sh7_5_5_5_1_3_1_5_4, sh7_5_5_5_1_3_1_5_6]

theorem Trip.vext (d : BitVec 5) (a : BitVec 5) (m : BitVec 1) (f : BitVec 2) (u : BitVec 1) : Trip.Statement (.vext d a m f u) := by
  intro hw _
  refine decodeWord_of (i := (.vext d a m f u)) ?_ hw
  change decodeMajor (Enc.vext d a m f u) = _
  rw [major_41 (by simp [Enc.vext, sh7_5_5_5_1_1_2_1_5_0])]
  unfold decode41
  rw [show fld (Enc.vext d a m f u) 0 5 = 30#5 by simp [Enc.vext, sh7_5_5_5_1_1_2_1_5_8]]
  change must _ _ = _
  simp [Enc.vext, must, sh7_5_5_5_1_1_2_1_5_3, sh7_5_5_5_1_1_2_1_5_5, sh7_5_5_5_1_1_2_1_5_1, sh7_5_5_5_1_1_2_1_5_2, sh7_5_5_5_1_1_2_1_5_4, sh7_5_5_5_1_1_2_1_5_6, sh7_5_5_5_1_1_2_1_5_7]

theorem Trip.vfaddVv (d : BitVec 5) (a : BitVec 5) (b : BitVec 5) (m : BitVec 1) : Trip.Statement (.vfaddVv d a b m) := by
  intro _ _
  refine decodeWord_of (i := (.vfaddVv d a b m)) ?_ rfl
  change decodeMajor (Enc.vfaddVv d a b m) = _
  rw [major_43 (by simp [Enc.vfaddVv, sh7_5_5_5_1_9_0])]
  unfold decode43
  rw [show fld (Enc.vfaddVv d a b m) 0 9 = 1#9 by simp [Enc.vfaddVv, sh7_5_5_5_1_9_5]]
  change Except.ok _ = _
  simp [Enc.vfaddVv, sh7_5_5_5_1_9_1, sh7_5_5_5_1_9_2, sh7_5_5_5_1_9_3, sh7_5_5_5_1_9_4]

theorem Trip.vfaddVx (d : BitVec 5) (a : BitVec 5) (s : BitVec 5) (m : BitVec 1) : Trip.Statement (.vfaddVx d a s m) := by
  intro _ _
  refine decodeWord_of (i := (.vfaddVx d a s m)) ?_ rfl
  change decodeMajor (Enc.vfaddVx d a s m) = _
  rw [major_44 (by simp [Enc.vfaddVx, sh7_5_5_5_1_9_0])]
  unfold decode44
  rw [show fld (Enc.vfaddVx d a s m) 0 9 = 1#9 by simp [Enc.vfaddVx, sh7_5_5_5_1_9_5]]
  change Except.ok _ = _
  simp [Enc.vfaddVx, sh7_5_5_5_1_9_1, sh7_5_5_5_1_9_2, sh7_5_5_5_1_9_3, sh7_5_5_5_1_9_4]

theorem Trip.vfsubVv (d : BitVec 5) (a : BitVec 5) (b : BitVec 5) (m : BitVec 1) : Trip.Statement (.vfsubVv d a b m) := by
  intro _ _
  refine decodeWord_of (i := (.vfsubVv d a b m)) ?_ rfl
  change decodeMajor (Enc.vfsubVv d a b m) = _
  rw [major_43 (by simp [Enc.vfsubVv, sh7_5_5_5_1_9_0])]
  unfold decode43
  rw [show fld (Enc.vfsubVv d a b m) 0 9 = 2#9 by simp [Enc.vfsubVv, sh7_5_5_5_1_9_5]]
  change Except.ok _ = _
  simp [Enc.vfsubVv, sh7_5_5_5_1_9_1, sh7_5_5_5_1_9_2, sh7_5_5_5_1_9_3, sh7_5_5_5_1_9_4]

theorem Trip.vfsubVx (d : BitVec 5) (a : BitVec 5) (s : BitVec 5) (m : BitVec 1) : Trip.Statement (.vfsubVx d a s m) := by
  intro _ _
  refine decodeWord_of (i := (.vfsubVx d a s m)) ?_ rfl
  change decodeMajor (Enc.vfsubVx d a s m) = _
  rw [major_44 (by simp [Enc.vfsubVx, sh7_5_5_5_1_9_0])]
  unfold decode44
  rw [show fld (Enc.vfsubVx d a s m) 0 9 = 2#9 by simp [Enc.vfsubVx, sh7_5_5_5_1_9_5]]
  change Except.ok _ = _
  simp [Enc.vfsubVx, sh7_5_5_5_1_9_1, sh7_5_5_5_1_9_2, sh7_5_5_5_1_9_3, sh7_5_5_5_1_9_4]

theorem Trip.vfmulVv (d : BitVec 5) (a : BitVec 5) (b : BitVec 5) (m : BitVec 1) : Trip.Statement (.vfmulVv d a b m) := by
  intro _ _
  refine decodeWord_of (i := (.vfmulVv d a b m)) ?_ rfl
  change decodeMajor (Enc.vfmulVv d a b m) = _
  rw [major_43 (by simp [Enc.vfmulVv, sh7_5_5_5_1_9_0])]
  unfold decode43
  rw [show fld (Enc.vfmulVv d a b m) 0 9 = 3#9 by simp [Enc.vfmulVv, sh7_5_5_5_1_9_5]]
  change Except.ok _ = _
  simp [Enc.vfmulVv, sh7_5_5_5_1_9_1, sh7_5_5_5_1_9_2, sh7_5_5_5_1_9_3, sh7_5_5_5_1_9_4]

theorem Trip.vfmulVx (d : BitVec 5) (a : BitVec 5) (s : BitVec 5) (m : BitVec 1) : Trip.Statement (.vfmulVx d a s m) := by
  intro _ _
  refine decodeWord_of (i := (.vfmulVx d a s m)) ?_ rfl
  change decodeMajor (Enc.vfmulVx d a s m) = _
  rw [major_44 (by simp [Enc.vfmulVx, sh7_5_5_5_1_9_0])]
  unfold decode44
  rw [show fld (Enc.vfmulVx d a s m) 0 9 = 3#9 by simp [Enc.vfmulVx, sh7_5_5_5_1_9_5]]
  change Except.ok _ = _
  simp [Enc.vfmulVx, sh7_5_5_5_1_9_1, sh7_5_5_5_1_9_2, sh7_5_5_5_1_9_3, sh7_5_5_5_1_9_4]

theorem Trip.vfdivVv (d : BitVec 5) (a : BitVec 5) (b : BitVec 5) (m : BitVec 1) : Trip.Statement (.vfdivVv d a b m) := by
  intro _ _
  refine decodeWord_of (i := (.vfdivVv d a b m)) ?_ rfl
  change decodeMajor (Enc.vfdivVv d a b m) = _
  rw [major_43 (by simp [Enc.vfdivVv, sh7_5_5_5_1_9_0])]
  unfold decode43
  rw [show fld (Enc.vfdivVv d a b m) 0 9 = 4#9 by simp [Enc.vfdivVv, sh7_5_5_5_1_9_5]]
  change Except.ok _ = _
  simp [Enc.vfdivVv, sh7_5_5_5_1_9_1, sh7_5_5_5_1_9_2, sh7_5_5_5_1_9_3, sh7_5_5_5_1_9_4]

theorem Trip.vfdivVx (d : BitVec 5) (a : BitVec 5) (s : BitVec 5) (m : BitVec 1) : Trip.Statement (.vfdivVx d a s m) := by
  intro _ _
  refine decodeWord_of (i := (.vfdivVx d a s m)) ?_ rfl
  change decodeMajor (Enc.vfdivVx d a s m) = _
  rw [major_44 (by simp [Enc.vfdivVx, sh7_5_5_5_1_9_0])]
  unfold decode44
  rw [show fld (Enc.vfdivVx d a s m) 0 9 = 4#9 by simp [Enc.vfdivVx, sh7_5_5_5_1_9_5]]
  change Except.ok _ = _
  simp [Enc.vfdivVx, sh7_5_5_5_1_9_1, sh7_5_5_5_1_9_2, sh7_5_5_5_1_9_3, sh7_5_5_5_1_9_4]

theorem Trip.vfsqrt (d : BitVec 5) (a : BitVec 5) (m : BitVec 1) : Trip.Statement (.vfsqrt d a m) := by
  intro _ _
  refine decodeWord_of (i := (.vfsqrt d a m)) ?_ rfl
  change decodeMajor (Enc.vfsqrt d a m) = _
  rw [major_43 (by simp [Enc.vfsqrt, sh7_5_5_5_1_9_0])]
  unfold decode43
  rw [show fld (Enc.vfsqrt d a m) 0 9 = 5#9 by simp [Enc.vfsqrt, sh7_5_5_5_1_9_5]]
  change must _ _ = _
  simp [Enc.vfsqrt, must, sh7_5_5_5_1_9_3, sh7_5_5_5_1_9_1, sh7_5_5_5_1_9_2, sh7_5_5_5_1_9_4]

theorem Trip.vfminVv (d : BitVec 5) (a : BitVec 5) (b : BitVec 5) (m : BitVec 1) : Trip.Statement (.vfminVv d a b m) := by
  intro _ _
  refine decodeWord_of (i := (.vfminVv d a b m)) ?_ rfl
  change decodeMajor (Enc.vfminVv d a b m) = _
  rw [major_43 (by simp [Enc.vfminVv, sh7_5_5_5_1_9_0])]
  unfold decode43
  rw [show fld (Enc.vfminVv d a b m) 0 9 = 6#9 by simp [Enc.vfminVv, sh7_5_5_5_1_9_5]]
  change Except.ok _ = _
  simp [Enc.vfminVv, sh7_5_5_5_1_9_1, sh7_5_5_5_1_9_2, sh7_5_5_5_1_9_3, sh7_5_5_5_1_9_4]

theorem Trip.vfminVx (d : BitVec 5) (a : BitVec 5) (s : BitVec 5) (m : BitVec 1) : Trip.Statement (.vfminVx d a s m) := by
  intro _ _
  refine decodeWord_of (i := (.vfminVx d a s m)) ?_ rfl
  change decodeMajor (Enc.vfminVx d a s m) = _
  rw [major_44 (by simp [Enc.vfminVx, sh7_5_5_5_1_9_0])]
  unfold decode44
  rw [show fld (Enc.vfminVx d a s m) 0 9 = 6#9 by simp [Enc.vfminVx, sh7_5_5_5_1_9_5]]
  change Except.ok _ = _
  simp [Enc.vfminVx, sh7_5_5_5_1_9_1, sh7_5_5_5_1_9_2, sh7_5_5_5_1_9_3, sh7_5_5_5_1_9_4]

theorem Trip.vfmaxVv (d : BitVec 5) (a : BitVec 5) (b : BitVec 5) (m : BitVec 1) : Trip.Statement (.vfmaxVv d a b m) := by
  intro _ _
  refine decodeWord_of (i := (.vfmaxVv d a b m)) ?_ rfl
  change decodeMajor (Enc.vfmaxVv d a b m) = _
  rw [major_43 (by simp [Enc.vfmaxVv, sh7_5_5_5_1_9_0])]
  unfold decode43
  rw [show fld (Enc.vfmaxVv d a b m) 0 9 = 7#9 by simp [Enc.vfmaxVv, sh7_5_5_5_1_9_5]]
  change Except.ok _ = _
  simp [Enc.vfmaxVv, sh7_5_5_5_1_9_1, sh7_5_5_5_1_9_2, sh7_5_5_5_1_9_3, sh7_5_5_5_1_9_4]

theorem Trip.vfmaxVx (d : BitVec 5) (a : BitVec 5) (s : BitVec 5) (m : BitVec 1) : Trip.Statement (.vfmaxVx d a s m) := by
  intro _ _
  refine decodeWord_of (i := (.vfmaxVx d a s m)) ?_ rfl
  change decodeMajor (Enc.vfmaxVx d a s m) = _
  rw [major_44 (by simp [Enc.vfmaxVx, sh7_5_5_5_1_9_0])]
  unfold decode44
  rw [show fld (Enc.vfmaxVx d a s m) 0 9 = 7#9 by simp [Enc.vfmaxVx, sh7_5_5_5_1_9_5]]
  change Except.ok _ = _
  simp [Enc.vfmaxVx, sh7_5_5_5_1_9_1, sh7_5_5_5_1_9_2, sh7_5_5_5_1_9_3, sh7_5_5_5_1_9_4]

theorem Trip.vfmaccVv (d : BitVec 5) (a : BitVec 5) (b : BitVec 5) (m : BitVec 1) : Trip.Statement (.vfmaccVv d a b m) := by
  intro _ _
  refine decodeWord_of (i := (.vfmaccVv d a b m)) ?_ rfl
  change decodeMajor (Enc.vfmaccVv d a b m) = _
  rw [major_43 (by simp [Enc.vfmaccVv, sh7_5_5_5_1_9_0])]
  unfold decode43
  rw [show fld (Enc.vfmaccVv d a b m) 0 9 = 8#9 by simp [Enc.vfmaccVv, sh7_5_5_5_1_9_5]]
  change Except.ok _ = _
  simp [Enc.vfmaccVv, sh7_5_5_5_1_9_1, sh7_5_5_5_1_9_2, sh7_5_5_5_1_9_3, sh7_5_5_5_1_9_4]

theorem Trip.vfmaccVx (d : BitVec 5) (a : BitVec 5) (s : BitVec 5) (m : BitVec 1) : Trip.Statement (.vfmaccVx d a s m) := by
  intro _ _
  refine decodeWord_of (i := (.vfmaccVx d a s m)) ?_ rfl
  change decodeMajor (Enc.vfmaccVx d a s m) = _
  rw [major_44 (by simp [Enc.vfmaccVx, sh7_5_5_5_1_9_0])]
  unfold decode44
  rw [show fld (Enc.vfmaccVx d a s m) 0 9 = 8#9 by simp [Enc.vfmaccVx, sh7_5_5_5_1_9_5]]
  change Except.ok _ = _
  simp [Enc.vfmaccVx, sh7_5_5_5_1_9_1, sh7_5_5_5_1_9_2, sh7_5_5_5_1_9_3, sh7_5_5_5_1_9_4]

theorem Trip.vfnmsacVv (d : BitVec 5) (a : BitVec 5) (b : BitVec 5) (m : BitVec 1) : Trip.Statement (.vfnmsacVv d a b m) := by
  intro _ _
  refine decodeWord_of (i := (.vfnmsacVv d a b m)) ?_ rfl
  change decodeMajor (Enc.vfnmsacVv d a b m) = _
  rw [major_43 (by simp [Enc.vfnmsacVv, sh7_5_5_5_1_9_0])]
  unfold decode43
  rw [show fld (Enc.vfnmsacVv d a b m) 0 9 = 9#9 by simp [Enc.vfnmsacVv, sh7_5_5_5_1_9_5]]
  change Except.ok _ = _
  simp [Enc.vfnmsacVv, sh7_5_5_5_1_9_1, sh7_5_5_5_1_9_2, sh7_5_5_5_1_9_3, sh7_5_5_5_1_9_4]

theorem Trip.vfnmsacVx (d : BitVec 5) (a : BitVec 5) (s : BitVec 5) (m : BitVec 1) : Trip.Statement (.vfnmsacVx d a s m) := by
  intro _ _
  refine decodeWord_of (i := (.vfnmsacVx d a s m)) ?_ rfl
  change decodeMajor (Enc.vfnmsacVx d a s m) = _
  rw [major_44 (by simp [Enc.vfnmsacVx, sh7_5_5_5_1_9_0])]
  unfold decode44
  rw [show fld (Enc.vfnmsacVx d a s m) 0 9 = 9#9 by simp [Enc.vfnmsacVx, sh7_5_5_5_1_9_5]]
  change Except.ok _ = _
  simp [Enc.vfnmsacVx, sh7_5_5_5_1_9_1, sh7_5_5_5_1_9_2, sh7_5_5_5_1_9_3, sh7_5_5_5_1_9_4]

theorem Trip.vfeqVv (d : BitVec 5) (a : BitVec 5) (b : BitVec 5) (m : BitVec 1) : Trip.Statement (.vfeqVv d a b m) := by
  intro _ _
  refine decodeWord_of (i := (.vfeqVv d a b m)) ?_ rfl
  change decodeMajor (Enc.vfeqVv d a b m) = _
  rw [major_43 (by simp [Enc.vfeqVv, sh7_5_5_5_1_9_0])]
  unfold decode43
  rw [show fld (Enc.vfeqVv d a b m) 0 9 = 10#9 by simp [Enc.vfeqVv, sh7_5_5_5_1_9_5]]
  change Except.ok _ = _
  simp [Enc.vfeqVv, sh7_5_5_5_1_9_1, sh7_5_5_5_1_9_2, sh7_5_5_5_1_9_3, sh7_5_5_5_1_9_4]

theorem Trip.vfeqVx (d : BitVec 5) (a : BitVec 5) (s : BitVec 5) (m : BitVec 1) : Trip.Statement (.vfeqVx d a s m) := by
  intro _ _
  refine decodeWord_of (i := (.vfeqVx d a s m)) ?_ rfl
  change decodeMajor (Enc.vfeqVx d a s m) = _
  rw [major_44 (by simp [Enc.vfeqVx, sh7_5_5_5_1_9_0])]
  unfold decode44
  rw [show fld (Enc.vfeqVx d a s m) 0 9 = 10#9 by simp [Enc.vfeqVx, sh7_5_5_5_1_9_5]]
  change Except.ok _ = _
  simp [Enc.vfeqVx, sh7_5_5_5_1_9_1, sh7_5_5_5_1_9_2, sh7_5_5_5_1_9_3, sh7_5_5_5_1_9_4]

theorem Trip.vfltVv (d : BitVec 5) (a : BitVec 5) (b : BitVec 5) (m : BitVec 1) : Trip.Statement (.vfltVv d a b m) := by
  intro _ _
  refine decodeWord_of (i := (.vfltVv d a b m)) ?_ rfl
  change decodeMajor (Enc.vfltVv d a b m) = _
  rw [major_43 (by simp [Enc.vfltVv, sh7_5_5_5_1_9_0])]
  unfold decode43
  rw [show fld (Enc.vfltVv d a b m) 0 9 = 11#9 by simp [Enc.vfltVv, sh7_5_5_5_1_9_5]]
  change Except.ok _ = _
  simp [Enc.vfltVv, sh7_5_5_5_1_9_1, sh7_5_5_5_1_9_2, sh7_5_5_5_1_9_3, sh7_5_5_5_1_9_4]

theorem Trip.vfltVx (d : BitVec 5) (a : BitVec 5) (s : BitVec 5) (m : BitVec 1) : Trip.Statement (.vfltVx d a s m) := by
  intro _ _
  refine decodeWord_of (i := (.vfltVx d a s m)) ?_ rfl
  change decodeMajor (Enc.vfltVx d a s m) = _
  rw [major_44 (by simp [Enc.vfltVx, sh7_5_5_5_1_9_0])]
  unfold decode44
  rw [show fld (Enc.vfltVx d a s m) 0 9 = 11#9 by simp [Enc.vfltVx, sh7_5_5_5_1_9_5]]
  change Except.ok _ = _
  simp [Enc.vfltVx, sh7_5_5_5_1_9_1, sh7_5_5_5_1_9_2, sh7_5_5_5_1_9_3, sh7_5_5_5_1_9_4]

theorem Trip.vfleVv (d : BitVec 5) (a : BitVec 5) (b : BitVec 5) (m : BitVec 1) : Trip.Statement (.vfleVv d a b m) := by
  intro _ _
  refine decodeWord_of (i := (.vfleVv d a b m)) ?_ rfl
  change decodeMajor (Enc.vfleVv d a b m) = _
  rw [major_43 (by simp [Enc.vfleVv, sh7_5_5_5_1_9_0])]
  unfold decode43
  rw [show fld (Enc.vfleVv d a b m) 0 9 = 12#9 by simp [Enc.vfleVv, sh7_5_5_5_1_9_5]]
  change Except.ok _ = _
  simp [Enc.vfleVv, sh7_5_5_5_1_9_1, sh7_5_5_5_1_9_2, sh7_5_5_5_1_9_3, sh7_5_5_5_1_9_4]

theorem Trip.vfleVx (d : BitVec 5) (a : BitVec 5) (s : BitVec 5) (m : BitVec 1) : Trip.Statement (.vfleVx d a s m) := by
  intro _ _
  refine decodeWord_of (i := (.vfleVx d a s m)) ?_ rfl
  change decodeMajor (Enc.vfleVx d a s m) = _
  rw [major_44 (by simp [Enc.vfleVx, sh7_5_5_5_1_9_0])]
  unfold decode44
  rw [show fld (Enc.vfleVx d a s m) 0 9 = 12#9 by simp [Enc.vfleVx, sh7_5_5_5_1_9_5]]
  change Except.ok _ = _
  simp [Enc.vfleVx, sh7_5_5_5_1_9_1, sh7_5_5_5_1_9_2, sh7_5_5_5_1_9_3, sh7_5_5_5_1_9_4]

theorem Trip.vfabs (d : BitVec 5) (a : BitVec 5) (m : BitVec 1) : Trip.Statement (.vfabs d a m) := by
  intro _ _
  refine decodeWord_of (i := (.vfabs d a m)) ?_ rfl
  change decodeMajor (Enc.vfabs d a m) = _
  rw [major_43 (by simp [Enc.vfabs, sh7_5_5_5_1_9_0])]
  unfold decode43
  rw [show fld (Enc.vfabs d a m) 0 9 = 13#9 by simp [Enc.vfabs, sh7_5_5_5_1_9_5]]
  change must _ _ = _
  simp [Enc.vfabs, must, sh7_5_5_5_1_9_3, sh7_5_5_5_1_9_1, sh7_5_5_5_1_9_2, sh7_5_5_5_1_9_4]

theorem Trip.vfneg (d : BitVec 5) (a : BitVec 5) (m : BitVec 1) : Trip.Statement (.vfneg d a m) := by
  intro _ _
  refine decodeWord_of (i := (.vfneg d a m)) ?_ rfl
  change decodeMajor (Enc.vfneg d a m) = _
  rw [major_43 (by simp [Enc.vfneg, sh7_5_5_5_1_9_0])]
  unfold decode43
  rw [show fld (Enc.vfneg d a m) 0 9 = 14#9 by simp [Enc.vfneg, sh7_5_5_5_1_9_5]]
  change must _ _ = _
  simp [Enc.vfneg, must, sh7_5_5_5_1_9_3, sh7_5_5_5_1_9_1, sh7_5_5_5_1_9_2, sh7_5_5_5_1_9_4]

theorem Trip.vfsgnjVv (d : BitVec 5) (a : BitVec 5) (b : BitVec 5) (m : BitVec 1) : Trip.Statement (.vfsgnjVv d a b m) := by
  intro _ _
  refine decodeWord_of (i := (.vfsgnjVv d a b m)) ?_ rfl
  change decodeMajor (Enc.vfsgnjVv d a b m) = _
  rw [major_43 (by simp [Enc.vfsgnjVv, sh7_5_5_5_1_9_0])]
  unfold decode43
  rw [show fld (Enc.vfsgnjVv d a b m) 0 9 = 15#9 by simp [Enc.vfsgnjVv, sh7_5_5_5_1_9_5]]
  change Except.ok _ = _
  simp [Enc.vfsgnjVv, sh7_5_5_5_1_9_1, sh7_5_5_5_1_9_2, sh7_5_5_5_1_9_3, sh7_5_5_5_1_9_4]

theorem Trip.vfsgnjVx (d : BitVec 5) (a : BitVec 5) (s : BitVec 5) (m : BitVec 1) : Trip.Statement (.vfsgnjVx d a s m) := by
  intro _ _
  refine decodeWord_of (i := (.vfsgnjVx d a s m)) ?_ rfl
  change decodeMajor (Enc.vfsgnjVx d a s m) = _
  rw [major_44 (by simp [Enc.vfsgnjVx, sh7_5_5_5_1_9_0])]
  unfold decode44
  rw [show fld (Enc.vfsgnjVx d a s m) 0 9 = 15#9 by simp [Enc.vfsgnjVx, sh7_5_5_5_1_9_5]]
  change Except.ok _ = _
  simp [Enc.vfsgnjVx, sh7_5_5_5_1_9_1, sh7_5_5_5_1_9_2, sh7_5_5_5_1_9_3, sh7_5_5_5_1_9_4]

theorem Trip.vredsum (d : BitVec 5) (a : BitVec 5) (b : BitVec 5) (m : BitVec 1) : Trip.Statement (.vredsum d a b m) := by
  intro _ _
  refine decodeWord_of (i := (.vredsum d a b m)) ?_ rfl
  change decodeMajor (Enc.vredsum d a b m) = _
  rw [major_45 (by simp [Enc.vredsum, sh7_5_5_5_1_9_0])]
  unfold decode45
  rw [show fld (Enc.vredsum d a b m) 0 5 = 1#5 by simp [Enc.vredsum, sh7_5_5_5_1_9_5]]
  change must _ _ = _
  simp [Enc.vredsum, must, sh7_5_5_5_1_9_5, sh7_5_5_5_1_9_1, sh7_5_5_5_1_9_2, sh7_5_5_5_1_9_3, sh7_5_5_5_1_9_4]

theorem Trip.vredmax (d : BitVec 5) (a : BitVec 5) (b : BitVec 5) (m : BitVec 1) (u : BitVec 1) : Trip.Statement (.vredmax d a b m u) := by
  intro _ _
  refine decodeWord_of (i := (.vredmax d a b m u)) ?_ rfl
  change decodeMajor (Enc.vredmax d a b m u) = _
  rw [major_45 (by simp [Enc.vredmax, sh7_5_5_5_1_3_1_5_0])]
  unfold decode45
  rw [show fld (Enc.vredmax d a b m u) 0 5 = 2#5 by simp [Enc.vredmax, sh7_5_5_5_1_3_1_5_7]]
  change must _ _ = _
  simp [Enc.vredmax, must, sh7_5_5_5_1_3_1_5_5, sh7_5_5_5_1_3_1_5_1, sh7_5_5_5_1_3_1_5_2, sh7_5_5_5_1_3_1_5_3, sh7_5_5_5_1_3_1_5_4, sh7_5_5_5_1_3_1_5_6]

theorem Trip.vredmin (d : BitVec 5) (a : BitVec 5) (b : BitVec 5) (m : BitVec 1) (u : BitVec 1) : Trip.Statement (.vredmin d a b m u) := by
  intro _ _
  refine decodeWord_of (i := (.vredmin d a b m u)) ?_ rfl
  change decodeMajor (Enc.vredmin d a b m u) = _
  rw [major_45 (by simp [Enc.vredmin, sh7_5_5_5_1_3_1_5_0])]
  unfold decode45
  rw [show fld (Enc.vredmin d a b m u) 0 5 = 3#5 by simp [Enc.vredmin, sh7_5_5_5_1_3_1_5_7]]
  change must _ _ = _
  simp [Enc.vredmin, must, sh7_5_5_5_1_3_1_5_5, sh7_5_5_5_1_3_1_5_1, sh7_5_5_5_1_3_1_5_2, sh7_5_5_5_1_3_1_5_3, sh7_5_5_5_1_3_1_5_4, sh7_5_5_5_1_3_1_5_6]

theorem Trip.vredand (d : BitVec 5) (a : BitVec 5) (b : BitVec 5) (m : BitVec 1) : Trip.Statement (.vredand d a b m) := by
  intro _ _
  refine decodeWord_of (i := (.vredand d a b m)) ?_ rfl
  change decodeMajor (Enc.vredand d a b m) = _
  rw [major_45 (by simp [Enc.vredand, sh7_5_5_5_1_9_0])]
  unfold decode45
  rw [show fld (Enc.vredand d a b m) 0 5 = 4#5 by simp [Enc.vredand, sh7_5_5_5_1_9_5]]
  change must _ _ = _
  simp [Enc.vredand, must, sh7_5_5_5_1_9_5, sh7_5_5_5_1_9_1, sh7_5_5_5_1_9_2, sh7_5_5_5_1_9_3, sh7_5_5_5_1_9_4]

theorem Trip.vredor (d : BitVec 5) (a : BitVec 5) (b : BitVec 5) (m : BitVec 1) : Trip.Statement (.vredor d a b m) := by
  intro _ _
  refine decodeWord_of (i := (.vredor d a b m)) ?_ rfl
  change decodeMajor (Enc.vredor d a b m) = _
  rw [major_45 (by simp [Enc.vredor, sh7_5_5_5_1_9_0])]
  unfold decode45
  rw [show fld (Enc.vredor d a b m) 0 5 = 5#5 by simp [Enc.vredor, sh7_5_5_5_1_9_5]]
  change must _ _ = _
  simp [Enc.vredor, must, sh7_5_5_5_1_9_5, sh7_5_5_5_1_9_1, sh7_5_5_5_1_9_2, sh7_5_5_5_1_9_3, sh7_5_5_5_1_9_4]

theorem Trip.vredxor (d : BitVec 5) (a : BitVec 5) (b : BitVec 5) (m : BitVec 1) : Trip.Statement (.vredxor d a b m) := by
  intro _ _
  refine decodeWord_of (i := (.vredxor d a b m)) ?_ rfl
  change decodeMajor (Enc.vredxor d a b m) = _
  rw [major_45 (by simp [Enc.vredxor, sh7_5_5_5_1_9_0])]
  unfold decode45
  rw [show fld (Enc.vredxor d a b m) 0 5 = 6#5 by simp [Enc.vredxor, sh7_5_5_5_1_9_5]]
  change must _ _ = _
  simp [Enc.vredxor, must, sh7_5_5_5_1_9_5, sh7_5_5_5_1_9_1, sh7_5_5_5_1_9_2, sh7_5_5_5_1_9_3, sh7_5_5_5_1_9_4]

theorem Trip.vfredosum (d : BitVec 5) (a : BitVec 5) (b : BitVec 5) (m : BitVec 1) : Trip.Statement (.vfredosum d a b m) := by
  intro _ _
  refine decodeWord_of (i := (.vfredosum d a b m)) ?_ rfl
  change decodeMajor (Enc.vfredosum d a b m) = _
  rw [major_45 (by simp [Enc.vfredosum, sh7_5_5_5_1_9_0])]
  unfold decode45
  rw [show fld (Enc.vfredosum d a b m) 0 5 = 7#5 by simp [Enc.vfredosum, sh7_5_5_5_1_9_5]]
  change must _ _ = _
  simp [Enc.vfredosum, must, sh7_5_5_5_1_9_5, sh7_5_5_5_1_9_1, sh7_5_5_5_1_9_2, sh7_5_5_5_1_9_3, sh7_5_5_5_1_9_4]

theorem Trip.vfredtsum (d : BitVec 5) (a : BitVec 5) (b : BitVec 5) (m : BitVec 1) : Trip.Statement (.vfredtsum d a b m) := by
  intro _ _
  refine decodeWord_of (i := (.vfredtsum d a b m)) ?_ rfl
  change decodeMajor (Enc.vfredtsum d a b m) = _
  rw [major_45 (by simp [Enc.vfredtsum, sh7_5_5_5_1_9_0])]
  unfold decode45
  rw [show fld (Enc.vfredtsum d a b m) 0 5 = 8#5 by simp [Enc.vfredtsum, sh7_5_5_5_1_9_5]]
  change must _ _ = _
  simp [Enc.vfredtsum, must, sh7_5_5_5_1_9_5, sh7_5_5_5_1_9_1, sh7_5_5_5_1_9_2, sh7_5_5_5_1_9_3, sh7_5_5_5_1_9_4]

theorem Trip.vfredmax (d : BitVec 5) (a : BitVec 5) (b : BitVec 5) (m : BitVec 1) : Trip.Statement (.vfredmax d a b m) := by
  intro _ _
  refine decodeWord_of (i := (.vfredmax d a b m)) ?_ rfl
  change decodeMajor (Enc.vfredmax d a b m) = _
  rw [major_45 (by simp [Enc.vfredmax, sh7_5_5_5_1_9_0])]
  unfold decode45
  rw [show fld (Enc.vfredmax d a b m) 0 5 = 9#5 by simp [Enc.vfredmax, sh7_5_5_5_1_9_5]]
  change must _ _ = _
  simp [Enc.vfredmax, must, sh7_5_5_5_1_9_5, sh7_5_5_5_1_9_1, sh7_5_5_5_1_9_2, sh7_5_5_5_1_9_3, sh7_5_5_5_1_9_4]

theorem Trip.vfredmin (d : BitVec 5) (a : BitVec 5) (b : BitVec 5) (m : BitVec 1) : Trip.Statement (.vfredmin d a b m) := by
  intro _ _
  refine decodeWord_of (i := (.vfredmin d a b m)) ?_ rfl
  change decodeMajor (Enc.vfredmin d a b m) = _
  rw [major_45 (by simp [Enc.vfredmin, sh7_5_5_5_1_9_0])]
  unfold decode45
  rw [show fld (Enc.vfredmin d a b m) 0 5 = 10#5 by simp [Enc.vfredmin, sh7_5_5_5_1_9_5]]
  change must _ _ = _
  simp [Enc.vfredmin, must, sh7_5_5_5_1_9_5, sh7_5_5_5_1_9_1, sh7_5_5_5_1_9_2, sh7_5_5_5_1_9_3, sh7_5_5_5_1_9_4]

theorem Trip.vfamax (d : BitVec 5) (a : BitVec 5) (b : BitVec 5) (m : BitVec 1) : Trip.Statement (.vfamax d a b m) := by
  intro _ _
  refine decodeWord_of (i := (.vfamax d a b m)) ?_ rfl
  change decodeMajor (Enc.vfamax d a b m) = _
  rw [major_45 (by simp [Enc.vfamax, sh7_5_5_5_1_9_0])]
  unfold decode45
  rw [show fld (Enc.vfamax d a b m) 0 5 = 11#5 by simp [Enc.vfamax, sh7_5_5_5_1_9_5]]
  change must _ _ = _
  simp [Enc.vfamax, must, sh7_5_5_5_1_9_5, sh7_5_5_5_1_9_1, sh7_5_5_5_1_9_2, sh7_5_5_5_1_9_3, sh7_5_5_5_1_9_4]

theorem Trip.vslideup (d : BitVec 5) (a : BitVec 5) (s : BitVec 5) (m : BitVec 1) : Trip.Statement (.vslideup d a s m) := by
  intro _ _
  refine decodeWord_of (i := (.vslideup d a s m)) ?_ rfl
  change decodeMajor (Enc.vslideup d a s m) = _
  rw [major_46 (by simp [Enc.vslideup, sh7_5_5_5_1_9_0])]
  unfold decode46
  rw [show fld (Enc.vslideup d a s m) 0 9 = 1#9 by simp [Enc.vslideup, sh7_5_5_5_1_9_5]]
  change Except.ok _ = _
  simp [Enc.vslideup, sh7_5_5_5_1_9_1, sh7_5_5_5_1_9_2, sh7_5_5_5_1_9_3, sh7_5_5_5_1_9_4]

theorem Trip.vslidedn (d : BitVec 5) (a : BitVec 5) (s : BitVec 5) (m : BitVec 1) : Trip.Statement (.vslidedn d a s m) := by
  intro _ _
  refine decodeWord_of (i := (.vslidedn d a s m)) ?_ rfl
  change decodeMajor (Enc.vslidedn d a s m) = _
  rw [major_46 (by simp [Enc.vslidedn, sh7_5_5_5_1_9_0])]
  unfold decode46
  rw [show fld (Enc.vslidedn d a s m) 0 9 = 2#9 by simp [Enc.vslidedn, sh7_5_5_5_1_9_5]]
  change Except.ok _ = _
  simp [Enc.vslidedn, sh7_5_5_5_1_9_1, sh7_5_5_5_1_9_2, sh7_5_5_5_1_9_3, sh7_5_5_5_1_9_4]

theorem Trip.vslide1up (d : BitVec 5) (a : BitVec 5) (s : BitVec 5) (m : BitVec 1) : Trip.Statement (.vslide1up d a s m) := by
  intro _ _
  refine decodeWord_of (i := (.vslide1up d a s m)) ?_ rfl
  change decodeMajor (Enc.vslide1up d a s m) = _
  rw [major_46 (by simp [Enc.vslide1up, sh7_5_5_5_1_9_0])]
  unfold decode46
  rw [show fld (Enc.vslide1up d a s m) 0 9 = 3#9 by simp [Enc.vslide1up, sh7_5_5_5_1_9_5]]
  change Except.ok _ = _
  simp [Enc.vslide1up, sh7_5_5_5_1_9_1, sh7_5_5_5_1_9_2, sh7_5_5_5_1_9_3, sh7_5_5_5_1_9_4]

theorem Trip.vslide1dn (d : BitVec 5) (a : BitVec 5) (s : BitVec 5) (m : BitVec 1) : Trip.Statement (.vslide1dn d a s m) := by
  intro _ _
  refine decodeWord_of (i := (.vslide1dn d a s m)) ?_ rfl
  change decodeMajor (Enc.vslide1dn d a s m) = _
  rw [major_46 (by simp [Enc.vslide1dn, sh7_5_5_5_1_9_0])]
  unfold decode46
  rw [show fld (Enc.vslide1dn d a s m) 0 9 = 4#9 by simp [Enc.vslide1dn, sh7_5_5_5_1_9_5]]
  change Except.ok _ = _
  simp [Enc.vslide1dn, sh7_5_5_5_1_9_1, sh7_5_5_5_1_9_2, sh7_5_5_5_1_9_3, sh7_5_5_5_1_9_4]

theorem Trip.vgath (d : BitVec 5) (a : BitVec 5) (b : BitVec 5) (m : BitVec 1) : Trip.Statement (.vgath d a b m) := by
  intro _ _
  refine decodeWord_of (i := (.vgath d a b m)) ?_ rfl
  change decodeMajor (Enc.vgath d a b m) = _
  rw [major_46 (by simp [Enc.vgath, sh7_5_5_5_1_9_0])]
  unfold decode46
  rw [show fld (Enc.vgath d a b m) 0 9 = 5#9 by simp [Enc.vgath, sh7_5_5_5_1_9_5]]
  change Except.ok _ = _
  simp [Enc.vgath, sh7_5_5_5_1_9_1, sh7_5_5_5_1_9_2, sh7_5_5_5_1_9_3, sh7_5_5_5_1_9_4]

theorem Trip.vcompress (d : BitVec 5) (a : BitVec 5) (b : BitVec 5) : Trip.Statement (.vcompress d a b) := by
  intro _ _
  refine decodeWord_of (i := (.vcompress d a b)) ?_ rfl
  change decodeMajor (Enc.vcompress d a b) = _
  rw [major_46 (by simp [Enc.vcompress, sh7_5_5_5_10_0])]
  unfold decode46
  rw [show fld (Enc.vcompress d a b) 0 9 = 6#9 by simp [Enc.vcompress, sh7_5_5_5_10_4]]
  change must _ _ = _
  simp [Enc.vcompress, must, sh7_5_5_5_10_4, sh7_5_5_5_10_1, sh7_5_5_5_10_2, sh7_5_5_5_10_3]

theorem Trip.viota (d : BitVec 5) (a : BitVec 5) (m : BitVec 1) : Trip.Statement (.viota d a m) := by
  intro _ _
  refine decodeWord_of (i := (.viota d a m)) ?_ rfl
  change decodeMajor (Enc.viota d a m) = _
  rw [major_46 (by simp [Enc.viota, sh7_5_5_5_1_9_0])]
  unfold decode46
  rw [show fld (Enc.viota d a m) 0 9 = 7#9 by simp [Enc.viota, sh7_5_5_5_1_9_5]]
  change must _ _ = _
  simp [Enc.viota, must, sh7_5_5_5_1_9_3, sh7_5_5_5_1_9_1, sh7_5_5_5_1_9_2, sh7_5_5_5_1_9_4]

theorem Trip.vid (d : BitVec 5) (m : BitVec 1) : Trip.Statement (.vid d m) := by
  intro _ _
  refine decodeWord_of (i := (.vid d m)) ?_ rfl
  change decodeMajor (Enc.vid d m) = _
  rw [major_46 (by simp [Enc.vid, sh7_5_10_1_9_0])]
  unfold decode46
  rw [show fld (Enc.vid d m) 0 9 = 8#9 by simp [Enc.vid, sh7_5_10_1_9_4]]
  change must _ _ = _
  simp [Enc.vid, must, sh7_5_10_1_9_2, sh7_5_10_1_9_1, sh7_5_10_1_9_3]

theorem Trip.vmvxs (d : BitVec 5) (a : BitVec 5) : Trip.Statement (.vmvxs d a) := by
  intro _ _
  refine decodeWord_of (i := (.vmvxs d a)) ?_ rfl
  change decodeMajor (Enc.vmvxs d a) = _
  rw [major_46 (by simp [Enc.vmvxs, sh7_5_5_15_0])]
  unfold decode46
  rw [show fld (Enc.vmvxs d a) 0 9 = 9#9 by simp [Enc.vmvxs, sh7_5_5_15_3]]
  change must _ _ = _
  simp [Enc.vmvxs, must, sh7_5_5_15_3, sh7_5_5_15_1, sh7_5_5_15_2]

theorem Trip.vmvsx (d : BitVec 5) (s : BitVec 5) : Trip.Statement (.vmvsx d s) := by
  intro _ _
  refine decodeWord_of (i := (.vmvsx d s)) ?_ rfl
  change decodeMajor (Enc.vmvsx d s) = _
  rw [major_46 (by simp [Enc.vmvsx, sh7_5_5_5_10_0])]
  unfold decode46
  rw [show fld (Enc.vmvsx d s) 0 9 = 10#9 by simp [Enc.vmvsx, sh7_5_5_5_10_4]]
  change must _ _ = _
  simp [Enc.vmvsx, must, sh7_5_5_5_10_2, sh7_5_5_5_10_4, sh7_5_5_5_10_1, sh7_5_5_5_10_3]

theorem Trip.vmand (d : BitVec 5) (a : BitVec 5) (b : BitVec 5) : Trip.Statement (.vmand d a b) := by
  intro _ _
  refine decodeWord_of (i := (.vmand d a b)) ?_ rfl
  change decodeMajor (Enc.vmand d a b) = _
  rw [major_47 (by simp [Enc.vmand, sh7_5_5_5_10_0])]
  unfold decode47
  rw [show fld (Enc.vmand d a b) 0 9 = 1#9 by simp [Enc.vmand, sh7_5_5_5_10_4]]
  change must _ _ = _
  simp [Enc.vmand, must, sh7_5_5_5_10_4, sh7_5_5_5_10_1, sh7_5_5_5_10_2, sh7_5_5_5_10_3]

theorem Trip.vmor (d : BitVec 5) (a : BitVec 5) (b : BitVec 5) : Trip.Statement (.vmor d a b) := by
  intro _ _
  refine decodeWord_of (i := (.vmor d a b)) ?_ rfl
  change decodeMajor (Enc.vmor d a b) = _
  rw [major_47 (by simp [Enc.vmor, sh7_5_5_5_10_0])]
  unfold decode47
  rw [show fld (Enc.vmor d a b) 0 9 = 2#9 by simp [Enc.vmor, sh7_5_5_5_10_4]]
  change must _ _ = _
  simp [Enc.vmor, must, sh7_5_5_5_10_4, sh7_5_5_5_10_1, sh7_5_5_5_10_2, sh7_5_5_5_10_3]

theorem Trip.vmxor (d : BitVec 5) (a : BitVec 5) (b : BitVec 5) : Trip.Statement (.vmxor d a b) := by
  intro _ _
  refine decodeWord_of (i := (.vmxor d a b)) ?_ rfl
  change decodeMajor (Enc.vmxor d a b) = _
  rw [major_47 (by simp [Enc.vmxor, sh7_5_5_5_10_0])]
  unfold decode47
  rw [show fld (Enc.vmxor d a b) 0 9 = 3#9 by simp [Enc.vmxor, sh7_5_5_5_10_4]]
  change must _ _ = _
  simp [Enc.vmxor, must, sh7_5_5_5_10_4, sh7_5_5_5_10_1, sh7_5_5_5_10_2, sh7_5_5_5_10_3]

theorem Trip.vmandn (d : BitVec 5) (a : BitVec 5) (b : BitVec 5) : Trip.Statement (.vmandn d a b) := by
  intro _ _
  refine decodeWord_of (i := (.vmandn d a b)) ?_ rfl
  change decodeMajor (Enc.vmandn d a b) = _
  rw [major_47 (by simp [Enc.vmandn, sh7_5_5_5_10_0])]
  unfold decode47
  rw [show fld (Enc.vmandn d a b) 0 9 = 4#9 by simp [Enc.vmandn, sh7_5_5_5_10_4]]
  change must _ _ = _
  simp [Enc.vmandn, must, sh7_5_5_5_10_4, sh7_5_5_5_10_1, sh7_5_5_5_10_2, sh7_5_5_5_10_3]

theorem Trip.vmnot (d : BitVec 5) (a : BitVec 5) : Trip.Statement (.vmnot d a) := by
  intro _ _
  refine decodeWord_of (i := (.vmnot d a)) ?_ rfl
  change decodeMajor (Enc.vmnot d a) = _
  rw [major_47 (by simp [Enc.vmnot, sh7_5_5_15_0])]
  unfold decode47
  rw [show fld (Enc.vmnot d a) 0 9 = 5#9 by simp [Enc.vmnot, sh7_5_5_15_3]]
  change must _ _ = _
  simp [Enc.vmnot, must, sh7_5_5_15_3, sh7_5_5_15_1, sh7_5_5_15_2]

theorem Trip.vpopc (d : BitVec 5) (a : BitVec 5) (m : BitVec 1) : Trip.Statement (.vpopc d a m) := by
  intro _ _
  refine decodeWord_of (i := (.vpopc d a m)) ?_ rfl
  change decodeMajor (Enc.vpopc d a m) = _
  rw [major_47 (by simp [Enc.vpopc, sh7_5_5_5_1_9_0])]
  unfold decode47
  rw [show fld (Enc.vpopc d a m) 0 9 = 6#9 by simp [Enc.vpopc, sh7_5_5_5_1_9_5]]
  change must _ _ = _
  simp [Enc.vpopc, must, sh7_5_5_5_1_9_3, sh7_5_5_5_1_9_1, sh7_5_5_5_1_9_2, sh7_5_5_5_1_9_4]

theorem Trip.vfirst (d : BitVec 5) (a : BitVec 5) (m : BitVec 1) : Trip.Statement (.vfirst d a m) := by
  intro _ _
  refine decodeWord_of (i := (.vfirst d a m)) ?_ rfl
  change decodeMajor (Enc.vfirst d a m) = _
  rw [major_47 (by simp [Enc.vfirst, sh7_5_5_5_1_9_0])]
  unfold decode47
  rw [show fld (Enc.vfirst d a m) 0 9 = 7#9 by simp [Enc.vfirst, sh7_5_5_5_1_9_5]]
  change must _ _ = _
  simp [Enc.vfirst, must, sh7_5_5_5_1_9_3, sh7_5_5_5_1_9_1, sh7_5_5_5_1_9_2, sh7_5_5_5_1_9_4]

theorem Trip.vmsbf (d : BitVec 5) (a : BitVec 5) (m : BitVec 1) : Trip.Statement (.vmsbf d a m) := by
  intro _ _
  refine decodeWord_of (i := (.vmsbf d a m)) ?_ rfl
  change decodeMajor (Enc.vmsbf d a m) = _
  rw [major_47 (by simp [Enc.vmsbf, sh7_5_5_5_1_9_0])]
  unfold decode47
  rw [show fld (Enc.vmsbf d a m) 0 9 = 8#9 by simp [Enc.vmsbf, sh7_5_5_5_1_9_5]]
  change must _ _ = _
  simp [Enc.vmsbf, must, sh7_5_5_5_1_9_3, sh7_5_5_5_1_9_1, sh7_5_5_5_1_9_2, sh7_5_5_5_1_9_4]

theorem Trip.vcvt (d : BitVec 5) (a : BitVec 5) (s : BitVec 5) (m : BitVec 1) (c : BitVec 5) : Trip.Statement (.vcvt d a s m c) := by
  intro hw _
  refine decodeWord_of (i := (.vcvt d a s m c)) ?_ hw
  change decodeMajor (Enc.vcvt d a s m c) = _
  rw [major_48 (by simp [Enc.vcvt, sh7_5_5_5_1_4_5_0])]
  simp [decode48, Enc.vcvt, must, sh7_5_5_5_1_4_5_0, sh7_5_5_5_1_4_5_1, sh7_5_5_5_1_4_5_2, sh7_5_5_5_1_4_5_3, sh7_5_5_5_1_4_5_4, sh7_5_5_5_1_4_5_5, sh7_5_5_5_1_4_5_6]

theorem Trip.mshape (d : BitVec 5) (a : BitVec 5) (b : BitVec 5) (o : BitVec 2) (y : BitVec 3) (x : BitVec 3) : Trip.Statement (.mshape d a b o y x) := by
  intro _ _
  refine decodeWord_of (i := (.mshape d a b o y x)) ?_ rfl
  change decodeMajor (Enc.mshape d a b o y x) = _
  rw [major_50 (by simp [Enc.mshape, sh7_5_5_5_2_2_3_3_0])]
  simp [decode50, Enc.mshape, must, sh7_5_5_5_2_2_3_3_0, sh7_5_5_5_2_2_3_3_1, sh7_5_5_5_2_2_3_3_2, sh7_5_5_5_2_2_3_3_3, sh7_5_5_5_2_2_3_3_4, sh7_5_5_5_2_2_3_3_5, sh7_5_5_5_2_2_3_3_6, sh7_5_5_5_2_2_3_3_7]

theorem Trip.mma (d : BitVec 5) (a : BitVec 5) (b : BitVec 5) (h : BitVec 5) : Trip.Statement (.mma d a b h) := by
  intro hw _
  refine decodeWord_of (i := (.mma d a b h)) ?_ hw
  change decodeMajor (Enc.mma d a b h) = _
  rw [major_51 (by simp [Enc.mma, sh7_5_5_5_5_5_0])]
  simp [decode51, Enc.mma, must, sh7_5_5_5_5_5_0, sh7_5_5_5_5_5_1, sh7_5_5_5_5_5_2, sh7_5_5_5_5_5_3, sh7_5_5_5_5_5_4, sh7_5_5_5_5_5_5]

theorem Trip.mmas (d : BitVec 5) (a : BitVec 5) (b : BitVec 5) (h : BitVec 5) : Trip.Statement (.mmas d a b h) := by
  intro hw _
  refine decodeWord_of (i := (.mmas d a b h)) ?_ hw
  change decodeMajor (Enc.mmas d a b h) = _
  rw [major_52 (by simp [Enc.mmas, sh7_5_5_5_5_5_0])]
  simp [decode52, Enc.mmas, must, sh7_5_5_5_5_5_0, sh7_5_5_5_5_5_1, sh7_5_5_5_5_5_2, sh7_5_5_5_5_5_3, sh7_5_5_5_5_5_4, sh7_5_5_5_5_5_5]

theorem Trip.mmat (d : BitVec 5) (a : BitVec 5) (b : BitVec 5) (h : BitVec 5) : Trip.Statement (.mmat d a b h) := by
  intro hw _
  refine decodeWord_of (i := (.mmat d a b h)) ?_ hw
  change decodeMajor (Enc.mmat d a b h) = _
  rw [major_53 (by simp [Enc.mmat, sh7_5_5_5_5_5_0])]
  simp [decode53, Enc.mmat, must, sh7_5_5_5_5_5_0, sh7_5_5_5_5_5_1, sh7_5_5_5_5_5_2, sh7_5_5_5_5_5_3, sh7_5_5_5_5_5_4, sh7_5_5_5_5_5_5]

theorem Trip.mzero (d : BitVec 5) (h : BitVec 5) : Trip.Statement (.mzero d h) := by
  intro _ _
  refine decodeWord_of (i := (.mzero d h)) ?_ rfl
  change decodeMajor (Enc.mzero d h) = _
  rw [major_54 (by simp [Enc.mzero, sh7_5_10_5_5_0])]
  simp [decode54, Enc.mzero, must, sh7_5_10_5_5_0, sh7_5_10_5_5_1, sh7_5_10_5_5_2, sh7_5_10_5_5_3, sh7_5_10_5_5_4]

theorem Trip.mstat (d : BitVec 5) (c : BitVec 1) : Trip.Statement (.mstat d c) := by
  intro _ _
  refine decodeWord_of (i := (.mstat d c)) ?_ rfl
  change decodeMajor (Enc.mstat d c) = _
  rw [major_55 (by simp [Enc.mstat, sh7_5_19_1_0])]
  simp [decode55, Enc.mstat, must, sh7_5_19_1_0, sh7_5_19_1_1, sh7_5_19_1_2, sh7_5_19_1_3]

theorem Trip.spawn (d : BitVec 5) (a : BitVec 5) (b : BitVec 5) : Trip.Statement (.spawn d a b) := by
  intro _ _
  refine decodeWord_of (i := (.spawn d a b)) ?_ rfl
  change decodeMajor (Enc.spawn d a b) = _
  rw [major_60 (by simp [Enc.spawn, sh7_5_5_5_10_0])]
  unfold decode60
  rw [show fld (Enc.spawn d a b) 0 10 = 1#10 by simp [Enc.spawn, sh7_5_5_5_10_4]]
  change Except.ok _ = _
  simp [Enc.spawn, sh7_5_5_5_10_1, sh7_5_5_5_10_2, sh7_5_5_5_10_3]

theorem Trip.spawnc (d : BitVec 5) (a : BitVec 5) (b : BitVec 5) : Trip.Statement (.spawnc d a b) := by
  intro _ _
  refine decodeWord_of (i := (.spawnc d a b)) ?_ rfl
  change decodeMajor (Enc.spawnc d a b) = _
  rw [major_60 (by simp [Enc.spawnc, sh7_5_5_5_10_0])]
  unfold decode60
  rw [show fld (Enc.spawnc d a b) 0 10 = 2#10 by simp [Enc.spawnc, sh7_5_5_5_10_4]]
  change Except.ok _ = _
  simp [Enc.spawnc, sh7_5_5_5_10_1, sh7_5_5_5_10_2, sh7_5_5_5_10_3]

theorem Trip.twait : Trip.Statement .twait := by
  intro _ _
  rfl

theorem Trip.texit : Trip.Statement .texit := by
  intro _ _
  rfl

theorem Trip.yield : Trip.Statement .yield := by
  intro _ _
  rfl

theorem Trip.cntinit (d : BitVec 5) (a : BitVec 5) (b : BitVec 5) : Trip.Statement (.cntinit d a b) := by
  intro _ _
  refine decodeWord_of (i := (.cntinit d a b)) ?_ rfl
  change decodeMajor (Enc.cntinit d a b) = _
  rw [major_60 (by simp [Enc.cntinit, sh7_5_5_5_10_0])]
  unfold decode60
  rw [show fld (Enc.cntinit d a b) 0 10 = 6#10 by simp [Enc.cntinit, sh7_5_5_5_10_4]]
  change Except.ok _ = _
  simp [Enc.cntinit, sh7_5_5_5_10_1, sh7_5_5_5_10_2, sh7_5_5_5_10_3]

theorem Trip.cntdec (a : BitVec 5) (b : BitVec 5) : Trip.Statement (.cntdec a b) := by
  intro _ _
  refine decodeWord_of (i := (.cntdec a b)) ?_ rfl
  change decodeMajor (Enc.cntdec a b) = _
  rw [major_60 (by simp [Enc.cntdec, sh12_5_5_10_0])]
  unfold decode60
  rw [show fld (Enc.cntdec a b) 0 10 = 7#10 by simp [Enc.cntdec, sh12_5_5_10_3]]
  change must _ _ = _
  simp [Enc.cntdec, must, sh12_5_5_10_0, sh12_5_5_10_1, sh12_5_5_10_2]

theorem Trip.cntwait (a : BitVec 5) : Trip.Statement (.cntwait a) := by
  intro _ _
  refine decodeWord_of (i := (.cntwait a)) ?_ rfl
  change decodeMajor (Enc.cntwait a) = _
  rw [major_60 (by simp [Enc.cntwait, sh12_5_15_0])]
  unfold decode60
  rw [show fld (Enc.cntwait a) 0 10 = 8#10 by simp [Enc.cntwait, sh12_5_15_2]]
  change must _ _ = _
  simp [Enc.cntwait, must, sh12_5_15_0, sh12_5_15_2, sh12_5_15_1]

theorem Trip.launchd (d : BitVec 5) (a : BitVec 5) : Trip.Statement (.launchd d a) := by
  intro _ _
  refine decodeWord_of (i := (.launchd d a)) ?_ rfl
  change decodeMajor (Enc.launchd d a) = _
  rw [major_60 (by simp [Enc.launchd, sh7_5_5_15_0])]
  unfold decode60
  rw [show fld (Enc.launchd d a) 0 10 = 9#10 by simp [Enc.launchd, sh7_5_5_15_3]]
  change must _ _ = _
  simp [Enc.launchd, must, sh7_5_5_15_3, sh7_5_5_15_1, sh7_5_5_15_2]

theorem Trip.tself (d : BitVec 5) (s : BitVec 5) : Trip.Statement (.tself d s) := by
  intro hw _
  refine decodeWord_of (i := (.tself d s)) ?_ hw
  change decodeMajor (Enc.tself d s) = _
  rw [major_60 (by simp [Enc.tself, sh7_5_5_5_10_0])]
  unfold decode60
  rw [show fld (Enc.tself d s) 0 10 = 10#10 by simp [Enc.tself, sh7_5_5_5_10_4]]
  change must _ _ = _
  simp [Enc.tself, must, sh7_5_5_5_10_2, sh7_5_5_5_10_1, sh7_5_5_5_10_3]

theorem Trip.dbegin (d : BitVec 5) (a : BitVec 5) : Trip.Statement (.dbegin d a) := by
  intro _ _
  refine decodeWord_of (i := (.dbegin d a)) ?_ rfl
  change decodeMajor (Enc.dbegin d a) = _
  rw [major_64 (by simp [Enc.dbegin, sh7_5_5_15_0])]
  unfold decode64
  rw [show fld (Enc.dbegin d a) 0 10 = 1#10 by simp [Enc.dbegin, sh7_5_5_15_3]]
  change must _ _ = _
  simp [Enc.dbegin, must, sh7_5_5_15_3, sh7_5_5_15_1, sh7_5_5_15_2]

theorem Trip.dpresSnap (a : BitVec 5) (b : BitVec 5) : Trip.Statement (.dpresSnap a b) := by
  intro _ _
  refine decodeWord_of (i := (.dpresSnap a b)) ?_ rfl
  change decodeMajor (Enc.dpresSnap a b) = _
  rw [major_64 (by simp [Enc.dpresSnap, sh12_5_5_10_0])]
  unfold decode64
  rw [show fld (Enc.dpresSnap a b) 0 10 = 2#10 by simp [Enc.dpresSnap, sh12_5_5_10_3]]
  change must _ _ = _
  simp [Enc.dpresSnap, must, sh12_5_5_10_0, sh12_5_5_10_1, sh12_5_5_10_2]

theorem Trip.dpresHold (a : BitVec 5) (b : BitVec 5) : Trip.Statement (.dpresHold a b) := by
  intro _ _
  refine decodeWord_of (i := (.dpresHold a b)) ?_ rfl
  change decodeMajor (Enc.dpresHold a b) = _
  rw [major_64 (by simp [Enc.dpresHold, sh12_5_5_10_0])]
  unfold decode64
  rw [show fld (Enc.dpresHold a b) 0 10 = 3#10 by simp [Enc.dpresHold, sh12_5_5_10_3]]
  change must _ _ = _
  simp [Enc.dpresHold, must, sh12_5_5_10_0, sh12_5_5_10_1, sh12_5_5_10_2]

theorem Trip.dend : Trip.Statement .dend := by
  intro _ _
  rfl

theorem Trip.dchk (a : BitVec 5) (b : BitVec 5) : Trip.Statement (.dchk a b) := by
  intro _ _
  refine decodeWord_of (i := (.dchk a b)) ?_ rfl
  change decodeMajor (Enc.dchk a b) = _
  rw [major_64 (by simp [Enc.dchk, sh12_5_5_10_0])]
  unfold decode64
  rw [show fld (Enc.dchk a b) 0 10 = 5#10 by simp [Enc.dchk, sh12_5_5_10_3]]
  change must _ _ = _
  simp [Enc.dchk, must, sh12_5_5_10_0, sh12_5_5_10_1, sh12_5_5_10_2]

theorem Trip.dabort (a : BitVec 5) : Trip.Statement (.dabort a) := by
  intro _ _
  refine decodeWord_of (i := (.dabort a)) ?_ rfl
  change decodeMajor (Enc.dabort a) = _
  rw [major_64 (by simp [Enc.dabort, sh12_5_15_0])]
  unfold decode64
  rw [show fld (Enc.dabort a) 0 10 = 6#10 by simp [Enc.dabort, sh12_5_15_2]]
  change must _ _ = _
  simp [Enc.dabort, must, sh12_5_15_0, sh12_5_15_2, sh12_5_15_1]

theorem Trip.dlevel (d : BitVec 5) (s : BitVec 5) : Trip.Statement (.dlevel d s) := by
  intro hw _
  refine decodeWord_of (i := (.dlevel d s)) ?_ hw
  change decodeMajor (Enc.dlevel d s) = _
  rw [major_64 (by simp [Enc.dlevel, sh7_5_5_5_10_0])]
  unfold decode64
  rw [show fld (Enc.dlevel d s) 0 10 = 7#10 by simp [Enc.dlevel, sh7_5_5_5_10_4]]
  change must _ _ = _
  simp [Enc.dlevel, must, sh7_5_5_5_10_2, sh7_5_5_5_10_1, sh7_5_5_5_10_3]

theorem Trip.lend (a : BitVec 5) (b : BitVec 5) : Trip.Statement (.lend a b) := by
  intro _ _
  refine decodeWord_of (i := (.lend a b)) ?_ rfl
  change decodeMajor (Enc.lend a b) = _
  rw [major_66 (by simp [Enc.lend, sh12_5_5_10_0])]
  unfold decode66
  rw [show fld (Enc.lend a b) 0 10 = 1#10 by simp [Enc.lend, sh12_5_5_10_3]]
  change must _ _ = _
  simp [Enc.lend, must, sh12_5_5_10_0, sh12_5_5_10_1, sh12_5_5_10_2]

theorem Trip.unlend (a : BitVec 5) (b : BitVec 5) : Trip.Statement (.unlend a b) := by
  intro _ _
  refine decodeWord_of (i := (.unlend a b)) ?_ rfl
  change decodeMajor (Enc.unlend a b) = _
  rw [major_66 (by simp [Enc.unlend, sh12_5_5_10_0])]
  unfold decode66
  rw [show fld (Enc.unlend a b) 0 10 = 2#10 by simp [Enc.unlend, sh12_5_5_10_3]]
  change must _ _ = _
  simp [Enc.unlend, must, sh12_5_5_10_0, sh12_5_5_10_1, sh12_5_5_10_2]

theorem Trip.hstat (d : BitVec 5) (s : BitVec 5) : Trip.Statement (.hstat d s) := by
  intro hw _
  refine decodeWord_of (i := (.hstat d s)) ?_ hw
  change decodeMajor (Enc.hstat d s) = _
  rw [major_66 (by simp [Enc.hstat, sh7_5_5_5_10_0])]
  unfold decode66
  rw [show fld (Enc.hstat d s) 0 10 = 3#10 by simp [Enc.hstat, sh7_5_5_5_10_4]]
  change must _ _ = _
  simp [Enc.hstat, must, sh7_5_5_5_10_2, sh7_5_5_5_10_1, sh7_5_5_5_10_3]

theorem Trip.qpost (d : BitVec 5) (a : BitVec 5) : Trip.Statement (.qpost d a) := by
  intro _ _
  refine decodeWord_of (i := (.qpost d a)) ?_ rfl
  change decodeMajor (Enc.qpost d a) = _
  rw [major_68 (by simp [Enc.qpost, sh7_5_5_15_0])]
  unfold decode68
  rw [show fld (Enc.qpost d a) 0 10 = 1#10 by simp [Enc.qpost, sh7_5_5_15_3]]
  change must _ _ = _
  simp [Enc.qpost, must, sh7_5_5_15_3, sh7_5_5_15_1, sh7_5_5_15_2]

theorem Trip.qwait (d : BitVec 5) (a : BitVec 5) (b : BitVec 5) : Trip.Statement (.qwait d a b) := by
  intro _ _
  refine decodeWord_of (i := (.qwait d a b)) ?_ rfl
  change decodeMajor (Enc.qwait d a b) = _
  rw [major_68 (by simp [Enc.qwait, sh7_5_5_5_10_0])]
  unfold decode68
  rw [show fld (Enc.qwait d a b) 0 10 = 2#10 by simp [Enc.qwait, sh7_5_5_5_10_4]]
  change Except.ok _ = _
  simp [Enc.qwait, sh7_5_5_5_10_1, sh7_5_5_5_10_2, sh7_5_5_5_10_3]

theorem Trip.qstart (d : BitVec 5) (a : BitVec 5) (b : BitVec 5) : Trip.Statement (.qstart d a b) := by
  intro _ _
  refine decodeWord_of (i := (.qstart d a b)) ?_ rfl
  change decodeMajor (Enc.qstart d a b) = _
  rw [major_68 (by simp [Enc.qstart, sh7_5_5_5_10_0])]
  unfold decode68
  rw [show fld (Enc.qstart d a b) 0 10 = 3#10 by simp [Enc.qstart, sh7_5_5_5_10_4]]
  change Except.ok _ = _
  simp [Enc.qstart, sh7_5_5_5_10_1, sh7_5_5_5_10_2, sh7_5_5_5_10_3]

theorem Trip.qstat (d : BitVec 5) (a : BitVec 5) (s : BitVec 5) : Trip.Statement (.qstat d a s) := by
  intro hw _
  refine decodeWord_of (i := (.qstat d a s)) ?_ hw
  change decodeMajor (Enc.qstat d a s) = _
  rw [major_68 (by simp [Enc.qstat, sh7_5_5_5_10_0])]
  unfold decode68
  rw [show fld (Enc.qstat d a s) 0 10 = 4#10 by simp [Enc.qstat, sh7_5_5_5_10_4]]
  change Except.ok _ = _
  simp [Enc.qstat, sh7_5_5_5_10_1, sh7_5_5_5_10_2, sh7_5_5_5_10_3]

theorem Trip.qresync (d : BitVec 5) (a : BitVec 5) (b : BitVec 5) : Trip.Statement (.qresync d a b) := by
  intro _ _
  refine decodeWord_of (i := (.qresync d a b)) ?_ rfl
  change decodeMajor (Enc.qresync d a b) = _
  rw [major_68 (by simp [Enc.qresync, sh7_5_5_5_10_0])]
  unfold decode68
  rw [show fld (Enc.qresync d a b) 0 10 = 5#10 by simp [Enc.qresync, sh7_5_5_5_10_4]]
  change Except.ok _ = _
  simp [Enc.qresync, sh7_5_5_5_10_1, sh7_5_5_5_10_2, sh7_5_5_5_10_3]

theorem Trip.immx (p : BitVec 22) : Trip.Statement (.immx p) := by
  intro _ _
  refine decodeWord_of (i := (.immx p)) ?_ rfl
  change decodeMajor (Enc.immx p) = _
  rw [major_7F (by simp [Enc.immx, sh10_22_0])]
  unfold decode7F
  rw [show fld (Enc.immx p) 22 3 = 0#3 by simp [Enc.immx, sh10_22_0]]
  change Except.ok _ = _
  simp [Enc.immx, sh10_22_1]

theorem Trip.hcache (p : BitVec 2) : Trip.Statement (.hcache p) := by
  intro _ _
  refine decodeWord_of (i := (.hcache p)) ?_ rfl
  change decodeMajor (Enc.hcache p) = _
  rw [major_7F (by simp [Enc.hcache, sh30_2_0])]
  unfold decode7F
  rw [show fld (Enc.hcache p) 22 3 = 1#3 by simp [Enc.hcache, sh30_2_0]]
  change mustHint _ _ = _
  simp [Enc.hcache, mustHint, sh30_2_0, sh30_2_1]

theorem Trip.hsched (o : BitVec 1) : Trip.Statement (.hsched o) := by
  intro _ _
  refine decodeWord_of (i := (.hsched o)) ?_ rfl
  change decodeMajor (Enc.hsched o) = _
  rw [major_7F (by simp [Enc.hsched, sh31_1_0])]
  unfold decode7F
  rw [show fld (Enc.hsched o) 22 3 = 2#3 by simp [Enc.hsched, sh31_1_0]]
  change mustHint _ _ = _
  simp [Enc.hsched, mustHint, sh31_1_0, sh31_1_1]

theorem Trip.hmod (o : BitVec 2) (s : BitVec 1) (r : BitVec 1) (m : BitVec 2) : Trip.Statement (.hmod o s r m) := by
  intro hw _
  refine decodeWord_of (i := (.hmod o s r m)) ?_ hw
  change decodeMajor (Enc.hmod o s r m) = _
  rw [major_7F (by simp [Enc.hmod, sh26_2_1_1_2_0])]
  unfold decode7F
  rw [show fld (Enc.hmod o s r m) 22 3 = 3#3 by simp [Enc.hmod, sh26_2_1_1_2_0]]
  change mustHint _ _ = _
  simp [Enc.hmod, mustHint, sh26_2_1_1_2_0, sh26_2_1_1_2_1, sh26_2_1_1_2_2, sh26_2_1_1_2_3, sh26_2_1_1_2_4]

theorem Trip.hnop (p : BitVec 22) : Trip.Statement (.hnop p) := by
  intro _ _
  refine decodeWord_of (i := (.hnop p)) ?_ rfl
  change decodeMajor (Enc.hnop p) = _
  rw [major_7F (by simp [Enc.hnop, sh10_22_0])]
  unfold decode7F
  rw [show fld (Enc.hnop p) 22 3 = 4#3 by simp [Enc.hnop, sh10_22_0]]
  change Except.ok _ = _
  simp [Enc.hnop, sh10_22_1]

end Sys2Proof.Laws
end

