-- ==== Sys2Proof/Laws/State.lean ====
section
/-! SUPPORT. What each named update of the state leaves alone and what it writes, one lemma per field; and reading a part after
writing it. -/

namespace Sys2Proof.Machine

variable (s : State)

/-! ## setR -/

@[simp] theorem State.setR_cx (r : Regs) : (s.setR r).cx = { s.cx with r := r } := rfl
@[simp] theorem State.setR_cur (r : Regs) : (s.setR r).cur = s.cur := rfl
@[simp] theorem State.setR_banks (r : Regs) : (s.setR r).banks = s.banks := rfl
@[simp] theorem State.setR_cycle (r : Regs) : (s.setR r).cycle = s.cycle := rfl
@[simp] theorem State.setR_mem (r : Regs) : (s.setR r).mem = s.mem := rfl
@[simp] theorem State.setR_fe (r : Regs) : (s.setR r).fe = s.fe := rfl
@[simp] theorem State.setR_poison (r : Regs) : (s.setR r).poison = s.poison := rfl
@[simp] theorem State.setR_cores (r : Regs) : (s.setR r).cores = s.cores := rfl
@[simp] theorem State.setR_dies (r : Regs) : (s.setR r).dies = s.dies := rfl
@[simp] theorem State.setR_counters (r : Regs) : (s.setR r).counters = s.counters := rfl
@[simp] theorem State.setR_launches (r : Regs) : (s.setR r).launches = s.launches := rfl
@[simp] theorem State.setR_lastLaunch (r : Regs) : (s.setR r).lastLaunch = s.lastLaunch := rfl
@[simp] theorem State.setR_tenants (r : Regs) : (s.setR r).tenants = s.tenants := rfl
@[simp] theorem State.setR_groups (r : Regs) : (s.setR r).groups = s.groups := rfl
@[simp] theorem State.setR_lastGroup (r : Regs) : (s.setR r).lastGroup = s.lastGroup := rfl
@[simp] theorem State.setR_net (r : Regs) : (s.setR r).net = s.net := rfl
@[simp] theorem State.setR_lastId (r : Regs) : (s.setR r).lastId = s.lastId := rfl
@[simp] theorem State.setR_migrations (r : Regs) : (s.setR r).migrations = s.migrations := rfl
@[simp] theorem State.setR_traps (r : Regs) : (s.setR r).traps = s.traps := rfl
@[simp] theorem State.setR_fetching (r : Regs) : (s.setR r).fetching = s.fetching := rfl
@[simp] theorem State.setR_hbm (r : Regs) : (s.setR r).hbm = s.hbm := rfl
@[simp] theorem State.setR_fab (r : Regs) : (s.setR r).fab = s.fab := rfl
@[simp] theorem State.setR_rcv (r : Regs) : (s.setR r).rcv = s.rcv := rfl
@[simp] theorem State.setR_host (r : Regs) : (s.setR r).host = s.host := rfl
@[simp] theorem State.setR_pkg (r : Regs) : (s.setR r).pkg = s.pkg := rfl
@[simp] theorem State.setR_outbox (r : Regs) : (s.setR r).outbox = s.outbox := rfl
@[simp] theorem State.setR_under (r : Regs) : (s.setR r).under = s.under := rfl
@[simp] theorem State.setR_inbox (r : Regs) : (s.setR r).inbox = s.inbox := rfl
@[simp] theorem State.setR_plan (r : Regs) : (s.setR r).plan = s.plan := rfl
@[simp] theorem State.setR_freeCtr (r : Regs) : (s.setR r).freeCtr = s.freeCtr := rfl

/-! ## onDie -/

@[simp] theorem State.onDie_cx (d : Nat) (f : DieSt → DieSt) : (s.onDie d f).cx = s.cx := rfl
@[simp] theorem State.onDie_cur (d : Nat) (f : DieSt → DieSt) : (s.onDie d f).cur = s.cur := rfl
@[simp] theorem State.onDie_banks (d : Nat) (f : DieSt → DieSt) : (s.onDie d f).banks = s.banks := rfl
@[simp] theorem State.onDie_cycle (d : Nat) (f : DieSt → DieSt) : (s.onDie d f).cycle = s.cycle := rfl
@[simp] theorem State.onDie_mem (d : Nat) (f : DieSt → DieSt) : (s.onDie d f).mem = s.mem := rfl
@[simp] theorem State.onDie_fe (d : Nat) (f : DieSt → DieSt) : (s.onDie d f).fe = s.fe := rfl
@[simp] theorem State.onDie_poison (d : Nat) (f : DieSt → DieSt) : (s.onDie d f).poison = s.poison := rfl
@[simp] theorem State.onDie_cores (d : Nat) (f : DieSt → DieSt) : (s.onDie d f).cores = s.cores := rfl
@[simp] theorem State.onDie_dies (d : Nat) (f : DieSt → DieSt) : (s.onDie d f).dies = SMap.alter {} s.dies d f := rfl
@[simp] theorem State.onDie_counters (d : Nat) (f : DieSt → DieSt) : (s.onDie d f).counters = s.counters := rfl
@[simp] theorem State.onDie_launches (d : Nat) (f : DieSt → DieSt) : (s.onDie d f).launches = s.launches := rfl
@[simp] theorem State.onDie_lastLaunch (d : Nat) (f : DieSt → DieSt) : (s.onDie d f).lastLaunch = s.lastLaunch := rfl
@[simp] theorem State.onDie_tenants (d : Nat) (f : DieSt → DieSt) : (s.onDie d f).tenants = s.tenants := rfl
@[simp] theorem State.onDie_groups (d : Nat) (f : DieSt → DieSt) : (s.onDie d f).groups = s.groups := rfl
@[simp] theorem State.onDie_lastGroup (d : Nat) (f : DieSt → DieSt) : (s.onDie d f).lastGroup = s.lastGroup := rfl
@[simp] theorem State.onDie_net (d : Nat) (f : DieSt → DieSt) : (s.onDie d f).net = s.net := rfl
@[simp] theorem State.onDie_lastId (d : Nat) (f : DieSt → DieSt) : (s.onDie d f).lastId = s.lastId := rfl
@[simp] theorem State.onDie_migrations (d : Nat) (f : DieSt → DieSt) : (s.onDie d f).migrations = s.migrations := rfl
@[simp] theorem State.onDie_traps (d : Nat) (f : DieSt → DieSt) : (s.onDie d f).traps = s.traps := rfl
@[simp] theorem State.onDie_fetching (d : Nat) (f : DieSt → DieSt) : (s.onDie d f).fetching = s.fetching := rfl
@[simp] theorem State.onDie_hbm (d : Nat) (f : DieSt → DieSt) : (s.onDie d f).hbm = s.hbm := rfl
@[simp] theorem State.onDie_fab (d : Nat) (f : DieSt → DieSt) : (s.onDie d f).fab = s.fab := rfl
@[simp] theorem State.onDie_rcv (d : Nat) (f : DieSt → DieSt) : (s.onDie d f).rcv = s.rcv := rfl
@[simp] theorem State.onDie_host (d : Nat) (f : DieSt → DieSt) : (s.onDie d f).host = s.host := rfl
@[simp] theorem State.onDie_pkg (d : Nat) (f : DieSt → DieSt) : (s.onDie d f).pkg = s.pkg := rfl
@[simp] theorem State.onDie_outbox (d : Nat) (f : DieSt → DieSt) : (s.onDie d f).outbox = s.outbox := rfl
@[simp] theorem State.onDie_under (d : Nat) (f : DieSt → DieSt) : (s.onDie d f).under = s.under := rfl
@[simp] theorem State.onDie_inbox (d : Nat) (f : DieSt → DieSt) : (s.onDie d f).inbox = s.inbox := rfl
@[simp] theorem State.onDie_plan (d : Nat) (f : DieSt → DieSt) : (s.onDie d f).plan = s.plan := rfl
@[simp] theorem State.onDie_freeCtr (d : Nat) (f : DieSt → DieSt) : (s.onDie d f).freeCtr = s.freeCtr := rfl

/-! ## onCore -/

@[simp] theorem State.onCore_cx (d c : Nat) (f : CoreSt → CoreSt) : (s.onCore d c f).cx = s.cx := rfl
@[simp] theorem State.onCore_cur (d c : Nat) (f : CoreSt → CoreSt) : (s.onCore d c f).cur = s.cur := rfl
@[simp] theorem State.onCore_banks (d c : Nat) (f : CoreSt → CoreSt) : (s.onCore d c f).banks = s.banks := rfl
@[simp] theorem State.onCore_cycle (d c : Nat) (f : CoreSt → CoreSt) : (s.onCore d c f).cycle = s.cycle := rfl
@[simp] theorem State.onCore_mem (d c : Nat) (f : CoreSt → CoreSt) : (s.onCore d c f).mem = s.mem := rfl
@[simp] theorem State.onCore_fe (d c : Nat) (f : CoreSt → CoreSt) : (s.onCore d c f).fe = s.fe := rfl
@[simp] theorem State.onCore_poison (d c : Nat) (f : CoreSt → CoreSt) : (s.onCore d c f).poison = s.poison := rfl
@[simp] theorem State.onCore_cores (d c : Nat) (f : CoreSt → CoreSt) : (s.onCore d c f).cores = SMap.alter {} s.cores (66 * d + c) f := rfl
@[simp] theorem State.onCore_dies (d c : Nat) (f : CoreSt → CoreSt) : (s.onCore d c f).dies = s.dies := rfl
@[simp] theorem State.onCore_counters (d c : Nat) (f : CoreSt → CoreSt) : (s.onCore d c f).counters = s.counters := rfl
@[simp] theorem State.onCore_launches (d c : Nat) (f : CoreSt → CoreSt) : (s.onCore d c f).launches = s.launches := rfl
@[simp] theorem State.onCore_lastLaunch (d c : Nat) (f : CoreSt → CoreSt) : (s.onCore d c f).lastLaunch = s.lastLaunch := rfl
@[simp] theorem State.onCore_tenants (d c : Nat) (f : CoreSt → CoreSt) : (s.onCore d c f).tenants = s.tenants := rfl
@[simp] theorem State.onCore_groups (d c : Nat) (f : CoreSt → CoreSt) : (s.onCore d c f).groups = s.groups := rfl
@[simp] theorem State.onCore_lastGroup (d c : Nat) (f : CoreSt → CoreSt) : (s.onCore d c f).lastGroup = s.lastGroup := rfl
@[simp] theorem State.onCore_net (d c : Nat) (f : CoreSt → CoreSt) : (s.onCore d c f).net = s.net := rfl
@[simp] theorem State.onCore_lastId (d c : Nat) (f : CoreSt → CoreSt) : (s.onCore d c f).lastId = s.lastId := rfl
@[simp] theorem State.onCore_migrations (d c : Nat) (f : CoreSt → CoreSt) : (s.onCore d c f).migrations = s.migrations := rfl
@[simp] theorem State.onCore_traps (d c : Nat) (f : CoreSt → CoreSt) : (s.onCore d c f).traps = s.traps := rfl
@[simp] theorem State.onCore_fetching (d c : Nat) (f : CoreSt → CoreSt) : (s.onCore d c f).fetching = s.fetching := rfl
@[simp] theorem State.onCore_hbm (d c : Nat) (f : CoreSt → CoreSt) : (s.onCore d c f).hbm = s.hbm := rfl
@[simp] theorem State.onCore_fab (d c : Nat) (f : CoreSt → CoreSt) : (s.onCore d c f).fab = s.fab := rfl
@[simp] theorem State.onCore_rcv (d c : Nat) (f : CoreSt → CoreSt) : (s.onCore d c f).rcv = s.rcv := rfl
@[simp] theorem State.onCore_host (d c : Nat) (f : CoreSt → CoreSt) : (s.onCore d c f).host = s.host := rfl
@[simp] theorem State.onCore_pkg (d c : Nat) (f : CoreSt → CoreSt) : (s.onCore d c f).pkg = s.pkg := rfl
@[simp] theorem State.onCore_outbox (d c : Nat) (f : CoreSt → CoreSt) : (s.onCore d c f).outbox = s.outbox := rfl
@[simp] theorem State.onCore_under (d c : Nat) (f : CoreSt → CoreSt) : (s.onCore d c f).under = s.under := rfl
@[simp] theorem State.onCore_inbox (d c : Nat) (f : CoreSt → CoreSt) : (s.onCore d c f).inbox = s.inbox := rfl
@[simp] theorem State.onCore_plan (d c : Nat) (f : CoreSt → CoreSt) : (s.onCore d c f).plan = s.plan := rfl
@[simp] theorem State.onCore_freeCtr (d c : Nat) (f : CoreSt → CoreSt) : (s.onCore d c f).freeCtr = s.freeCtr := rfl

/-! ## onCounter -/

@[simp] theorem State.onCounter_cx (l : Nat) (f : CounterSt → CounterSt) : (s.onCounter l f).cx = s.cx := rfl
@[simp] theorem State.onCounter_cur (l : Nat) (f : CounterSt → CounterSt) : (s.onCounter l f).cur = s.cur := rfl
@[simp] theorem State.onCounter_banks (l : Nat) (f : CounterSt → CounterSt) : (s.onCounter l f).banks = s.banks := rfl
@[simp] theorem State.onCounter_cycle (l : Nat) (f : CounterSt → CounterSt) : (s.onCounter l f).cycle = s.cycle := rfl
@[simp] theorem State.onCounter_mem (l : Nat) (f : CounterSt → CounterSt) : (s.onCounter l f).mem = s.mem := rfl
@[simp] theorem State.onCounter_fe (l : Nat) (f : CounterSt → CounterSt) : (s.onCounter l f).fe = s.fe := rfl
@[simp] theorem State.onCounter_poison (l : Nat) (f : CounterSt → CounterSt) : (s.onCounter l f).poison = s.poison := rfl
@[simp] theorem State.onCounter_cores (l : Nat) (f : CounterSt → CounterSt) : (s.onCounter l f).cores = s.cores := rfl
@[simp] theorem State.onCounter_dies (l : Nat) (f : CounterSt → CounterSt) : (s.onCounter l f).dies = s.dies := rfl
@[simp] theorem State.onCounter_counters (l : Nat) (f : CounterSt → CounterSt) : (s.onCounter l f).counters = SMap.alter {} s.counters l f := rfl
@[simp] theorem State.onCounter_launches (l : Nat) (f : CounterSt → CounterSt) : (s.onCounter l f).launches = s.launches := rfl
@[simp] theorem State.onCounter_lastLaunch (l : Nat) (f : CounterSt → CounterSt) : (s.onCounter l f).lastLaunch = s.lastLaunch := rfl
@[simp] theorem State.onCounter_tenants (l : Nat) (f : CounterSt → CounterSt) : (s.onCounter l f).tenants = s.tenants := rfl
@[simp] theorem State.onCounter_groups (l : Nat) (f : CounterSt → CounterSt) : (s.onCounter l f).groups = s.groups := rfl
@[simp] theorem State.onCounter_lastGroup (l : Nat) (f : CounterSt → CounterSt) : (s.onCounter l f).lastGroup = s.lastGroup := rfl
@[simp] theorem State.onCounter_net (l : Nat) (f : CounterSt → CounterSt) : (s.onCounter l f).net = s.net := rfl
@[simp] theorem State.onCounter_lastId (l : Nat) (f : CounterSt → CounterSt) : (s.onCounter l f).lastId = s.lastId := rfl
@[simp] theorem State.onCounter_migrations (l : Nat) (f : CounterSt → CounterSt) : (s.onCounter l f).migrations = s.migrations := rfl
@[simp] theorem State.onCounter_traps (l : Nat) (f : CounterSt → CounterSt) : (s.onCounter l f).traps = s.traps := rfl
@[simp] theorem State.onCounter_fetching (l : Nat) (f : CounterSt → CounterSt) : (s.onCounter l f).fetching = s.fetching := rfl
@[simp] theorem State.onCounter_hbm (l : Nat) (f : CounterSt → CounterSt) : (s.onCounter l f).hbm = s.hbm := rfl
@[simp] theorem State.onCounter_fab (l : Nat) (f : CounterSt → CounterSt) : (s.onCounter l f).fab = s.fab := rfl
@[simp] theorem State.onCounter_rcv (l : Nat) (f : CounterSt → CounterSt) : (s.onCounter l f).rcv = s.rcv := rfl
@[simp] theorem State.onCounter_host (l : Nat) (f : CounterSt → CounterSt) : (s.onCounter l f).host = s.host := rfl
@[simp] theorem State.onCounter_pkg (l : Nat) (f : CounterSt → CounterSt) : (s.onCounter l f).pkg = s.pkg := rfl
@[simp] theorem State.onCounter_outbox (l : Nat) (f : CounterSt → CounterSt) : (s.onCounter l f).outbox = s.outbox := rfl
@[simp] theorem State.onCounter_under (l : Nat) (f : CounterSt → CounterSt) : (s.onCounter l f).under = s.under := rfl
@[simp] theorem State.onCounter_inbox (l : Nat) (f : CounterSt → CounterSt) : (s.onCounter l f).inbox = s.inbox := rfl
@[simp] theorem State.onCounter_plan (l : Nat) (f : CounterSt → CounterSt) : (s.onCounter l f).plan = s.plan := rfl
@[simp] theorem State.onCounter_freeCtr (l : Nat) (f : CounterSt → CounterSt) : (s.onCounter l f).freeCtr = s.freeCtr := rfl

/-! ## onStack -/

@[simp] theorem State.onStack_cx (h : Nat) (f : StackSt → StackSt) : (s.onStack h f).cx = s.cx := rfl
@[simp] theorem State.onStack_cur (h : Nat) (f : StackSt → StackSt) : (s.onStack h f).cur = s.cur := rfl
@[simp] theorem State.onStack_banks (h : Nat) (f : StackSt → StackSt) : (s.onStack h f).banks = s.banks := rfl
@[simp] theorem State.onStack_cycle (h : Nat) (f : StackSt → StackSt) : (s.onStack h f).cycle = s.cycle := rfl
@[simp] theorem State.onStack_mem (h : Nat) (f : StackSt → StackSt) : (s.onStack h f).mem = s.mem := rfl
@[simp] theorem State.onStack_fe (h : Nat) (f : StackSt → StackSt) : (s.onStack h f).fe = s.fe := rfl
@[simp] theorem State.onStack_poison (h : Nat) (f : StackSt → StackSt) : (s.onStack h f).poison = s.poison := rfl
@[simp] theorem State.onStack_cores (h : Nat) (f : StackSt → StackSt) : (s.onStack h f).cores = s.cores := rfl
@[simp] theorem State.onStack_dies (h : Nat) (f : StackSt → StackSt) : (s.onStack h f).dies = s.dies := rfl
@[simp] theorem State.onStack_counters (h : Nat) (f : StackSt → StackSt) : (s.onStack h f).counters = s.counters := rfl
@[simp] theorem State.onStack_launches (h : Nat) (f : StackSt → StackSt) : (s.onStack h f).launches = s.launches := rfl
@[simp] theorem State.onStack_lastLaunch (h : Nat) (f : StackSt → StackSt) : (s.onStack h f).lastLaunch = s.lastLaunch := rfl
@[simp] theorem State.onStack_tenants (h : Nat) (f : StackSt → StackSt) : (s.onStack h f).tenants = s.tenants := rfl
@[simp] theorem State.onStack_groups (h : Nat) (f : StackSt → StackSt) : (s.onStack h f).groups = s.groups := rfl
@[simp] theorem State.onStack_lastGroup (h : Nat) (f : StackSt → StackSt) : (s.onStack h f).lastGroup = s.lastGroup := rfl
@[simp] theorem State.onStack_net (h : Nat) (f : StackSt → StackSt) : (s.onStack h f).net = s.net := rfl
@[simp] theorem State.onStack_lastId (h : Nat) (f : StackSt → StackSt) : (s.onStack h f).lastId = s.lastId := rfl
@[simp] theorem State.onStack_migrations (h : Nat) (f : StackSt → StackSt) : (s.onStack h f).migrations = s.migrations := rfl
@[simp] theorem State.onStack_traps (h : Nat) (f : StackSt → StackSt) : (s.onStack h f).traps = s.traps := rfl
@[simp] theorem State.onStack_fetching (h : Nat) (f : StackSt → StackSt) : (s.onStack h f).fetching = s.fetching := rfl
@[simp] theorem State.onStack_hbm (h : Nat) (f : StackSt → StackSt) : (s.onStack h f).hbm = SMap.alter {} s.hbm h f := rfl
@[simp] theorem State.onStack_fab (h : Nat) (f : StackSt → StackSt) : (s.onStack h f).fab = s.fab := rfl
@[simp] theorem State.onStack_rcv (h : Nat) (f : StackSt → StackSt) : (s.onStack h f).rcv = s.rcv := rfl
@[simp] theorem State.onStack_host (h : Nat) (f : StackSt → StackSt) : (s.onStack h f).host = s.host := rfl
@[simp] theorem State.onStack_pkg (h : Nat) (f : StackSt → StackSt) : (s.onStack h f).pkg = s.pkg := rfl
@[simp] theorem State.onStack_outbox (h : Nat) (f : StackSt → StackSt) : (s.onStack h f).outbox = s.outbox := rfl
@[simp] theorem State.onStack_under (h : Nat) (f : StackSt → StackSt) : (s.onStack h f).under = s.under := rfl
@[simp] theorem State.onStack_inbox (h : Nat) (f : StackSt → StackSt) : (s.onStack h f).inbox = s.inbox := rfl
@[simp] theorem State.onStack_plan (h : Nat) (f : StackSt → StackSt) : (s.onStack h f).plan = s.plan := rfl
@[simp] theorem State.onStack_freeCtr (h : Nat) (f : StackSt → StackSt) : (s.onStack h f).freeCtr = s.freeCtr := rfl

/-! ## onPort -/

@[simp] theorem State.onPort_cx (j : Nat) (f : PortSt → PortSt) : (s.onPort j f).cx = s.cx := rfl
@[simp] theorem State.onPort_cur (j : Nat) (f : PortSt → PortSt) : (s.onPort j f).cur = s.cur := rfl
@[simp] theorem State.onPort_banks (j : Nat) (f : PortSt → PortSt) : (s.onPort j f).banks = s.banks := rfl
@[simp] theorem State.onPort_cycle (j : Nat) (f : PortSt → PortSt) : (s.onPort j f).cycle = s.cycle := rfl
@[simp] theorem State.onPort_mem (j : Nat) (f : PortSt → PortSt) : (s.onPort j f).mem = s.mem := rfl
@[simp] theorem State.onPort_fe (j : Nat) (f : PortSt → PortSt) : (s.onPort j f).fe = s.fe := rfl
@[simp] theorem State.onPort_poison (j : Nat) (f : PortSt → PortSt) : (s.onPort j f).poison = s.poison := rfl
@[simp] theorem State.onPort_cores (j : Nat) (f : PortSt → PortSt) : (s.onPort j f).cores = s.cores := rfl
@[simp] theorem State.onPort_dies (j : Nat) (f : PortSt → PortSt) : (s.onPort j f).dies = s.dies := rfl
@[simp] theorem State.onPort_counters (j : Nat) (f : PortSt → PortSt) : (s.onPort j f).counters = s.counters := rfl
@[simp] theorem State.onPort_launches (j : Nat) (f : PortSt → PortSt) : (s.onPort j f).launches = s.launches := rfl
@[simp] theorem State.onPort_lastLaunch (j : Nat) (f : PortSt → PortSt) : (s.onPort j f).lastLaunch = s.lastLaunch := rfl
@[simp] theorem State.onPort_tenants (j : Nat) (f : PortSt → PortSt) : (s.onPort j f).tenants = s.tenants := rfl
@[simp] theorem State.onPort_groups (j : Nat) (f : PortSt → PortSt) : (s.onPort j f).groups = s.groups := rfl
@[simp] theorem State.onPort_lastGroup (j : Nat) (f : PortSt → PortSt) : (s.onPort j f).lastGroup = s.lastGroup := rfl
@[simp] theorem State.onPort_net (j : Nat) (f : PortSt → PortSt) : (s.onPort j f).net = s.net := rfl
@[simp] theorem State.onPort_lastId (j : Nat) (f : PortSt → PortSt) : (s.onPort j f).lastId = s.lastId := rfl
@[simp] theorem State.onPort_migrations (j : Nat) (f : PortSt → PortSt) : (s.onPort j f).migrations = s.migrations := rfl
@[simp] theorem State.onPort_traps (j : Nat) (f : PortSt → PortSt) : (s.onPort j f).traps = s.traps := rfl
@[simp] theorem State.onPort_fetching (j : Nat) (f : PortSt → PortSt) : (s.onPort j f).fetching = s.fetching := rfl
@[simp] theorem State.onPort_hbm (j : Nat) (f : PortSt → PortSt) : (s.onPort j f).hbm = s.hbm := rfl
@[simp] theorem State.onPort_fab (j : Nat) (f : PortSt → PortSt) : (s.onPort j f).fab = { s.fab with ports := SMap.alter (portReset j) s.fab.ports j f } := rfl
@[simp] theorem State.onPort_rcv (j : Nat) (f : PortSt → PortSt) : (s.onPort j f).rcv = s.rcv := rfl
@[simp] theorem State.onPort_host (j : Nat) (f : PortSt → PortSt) : (s.onPort j f).host = s.host := rfl
@[simp] theorem State.onPort_pkg (j : Nat) (f : PortSt → PortSt) : (s.onPort j f).pkg = s.pkg := rfl
@[simp] theorem State.onPort_outbox (j : Nat) (f : PortSt → PortSt) : (s.onPort j f).outbox = s.outbox := rfl
@[simp] theorem State.onPort_under (j : Nat) (f : PortSt → PortSt) : (s.onPort j f).under = s.under := rfl
@[simp] theorem State.onPort_inbox (j : Nat) (f : PortSt → PortSt) : (s.onPort j f).inbox = s.inbox := rfl
@[simp] theorem State.onPort_plan (j : Nat) (f : PortSt → PortSt) : (s.onPort j f).plan = s.plan := rfl
@[simp] theorem State.onPort_freeCtr (j : Nat) (f : PortSt → PortSt) : (s.onPort j f).freeCtr = s.freeCtr := rfl

/-! ## send -/

@[simp] theorem State.send_cx (m : OutMsg) : (s.send m).cx = s.cx := rfl
@[simp] theorem State.send_cur (m : OutMsg) : (s.send m).cur = s.cur := rfl
@[simp] theorem State.send_banks (m : OutMsg) : (s.send m).banks = s.banks := rfl
@[simp] theorem State.send_cycle (m : OutMsg) : (s.send m).cycle = s.cycle := rfl
@[simp] theorem State.send_mem (m : OutMsg) : (s.send m).mem = s.mem := rfl
@[simp] theorem State.send_fe (m : OutMsg) : (s.send m).fe = s.fe := rfl
@[simp] theorem State.send_poison (m : OutMsg) : (s.send m).poison = s.poison := rfl
@[simp] theorem State.send_cores (m : OutMsg) : (s.send m).cores = s.cores := rfl
@[simp] theorem State.send_dies (m : OutMsg) : (s.send m).dies = s.dies := rfl
@[simp] theorem State.send_counters (m : OutMsg) : (s.send m).counters = s.counters := rfl
@[simp] theorem State.send_launches (m : OutMsg) : (s.send m).launches = s.launches := rfl
@[simp] theorem State.send_lastLaunch (m : OutMsg) : (s.send m).lastLaunch = s.lastLaunch := rfl
@[simp] theorem State.send_tenants (m : OutMsg) : (s.send m).tenants = s.tenants := rfl
@[simp] theorem State.send_groups (m : OutMsg) : (s.send m).groups = s.groups := rfl
@[simp] theorem State.send_lastGroup (m : OutMsg) : (s.send m).lastGroup = s.lastGroup := rfl
@[simp] theorem State.send_net (m : OutMsg) : (s.send m).net = s.net := rfl
@[simp] theorem State.send_lastId (m : OutMsg) : (s.send m).lastId = s.lastId := rfl
@[simp] theorem State.send_migrations (m : OutMsg) : (s.send m).migrations = s.migrations := rfl
@[simp] theorem State.send_traps (m : OutMsg) : (s.send m).traps = s.traps := rfl
@[simp] theorem State.send_fetching (m : OutMsg) : (s.send m).fetching = s.fetching := rfl
@[simp] theorem State.send_hbm (m : OutMsg) : (s.send m).hbm = s.hbm := rfl
@[simp] theorem State.send_fab (m : OutMsg) : (s.send m).fab = s.fab := rfl
@[simp] theorem State.send_rcv (m : OutMsg) : (s.send m).rcv = s.rcv := rfl
@[simp] theorem State.send_host (m : OutMsg) : (s.send m).host = s.host := rfl
@[simp] theorem State.send_pkg (m : OutMsg) : (s.send m).pkg = s.pkg := rfl
@[simp] theorem State.send_outbox (m : OutMsg) : (s.send m).outbox = enq s.outbox m := rfl
@[simp] theorem State.send_under (m : OutMsg) : (s.send m).under = s.under := rfl
@[simp] theorem State.send_inbox (m : OutMsg) : (s.send m).inbox = s.inbox := rfl
@[simp] theorem State.send_plan (m : OutMsg) : (s.send m).plan = s.plan := rfl
@[simp] theorem State.send_freeCtr (m : OutMsg) : (s.send m).freeCtr = s.freeCtr := rfl

/-! ## replan -/

@[simp] theorem State.replan_cx : (s.replan).cx = s.cx := rfl
@[simp] theorem State.replan_cur : (s.replan).cur = s.cur := rfl
@[simp] theorem State.replan_banks : (s.replan).banks = s.banks := rfl
@[simp] theorem State.replan_cycle : (s.replan).cycle = s.cycle := rfl
@[simp] theorem State.replan_mem : (s.replan).mem = s.mem := rfl
@[simp] theorem State.replan_fe : (s.replan).fe = s.fe := rfl
@[simp] theorem State.replan_poison : (s.replan).poison = s.poison := rfl
@[simp] theorem State.replan_cores : (s.replan).cores = s.cores := rfl
@[simp] theorem State.replan_dies : (s.replan).dies = s.dies := rfl
@[simp] theorem State.replan_counters : (s.replan).counters = s.counters := rfl
@[simp] theorem State.replan_launches : (s.replan).launches = s.launches := rfl
@[simp] theorem State.replan_lastLaunch : (s.replan).lastLaunch = s.lastLaunch := rfl
@[simp] theorem State.replan_tenants : (s.replan).tenants = s.tenants := rfl
@[simp] theorem State.replan_groups : (s.replan).groups = s.groups := rfl
@[simp] theorem State.replan_lastGroup : (s.replan).lastGroup = s.lastGroup := rfl
@[simp] theorem State.replan_net : (s.replan).net = s.net := rfl
@[simp] theorem State.replan_lastId : (s.replan).lastId = s.lastId := rfl
@[simp] theorem State.replan_migrations : (s.replan).migrations = s.migrations := rfl
@[simp] theorem State.replan_traps : (s.replan).traps = s.traps := rfl
@[simp] theorem State.replan_fetching : (s.replan).fetching = s.fetching := rfl
@[simp] theorem State.replan_hbm : (s.replan).hbm = s.hbm := rfl
@[simp] theorem State.replan_fab : (s.replan).fab = s.fab := rfl
@[simp] theorem State.replan_rcv : (s.replan).rcv = s.rcv := rfl
@[simp] theorem State.replan_host : (s.replan).host = s.host := rfl
@[simp] theorem State.replan_pkg : (s.replan).pkg = s.pkg := rfl
@[simp] theorem State.replan_outbox : (s.replan).outbox = s.outbox := rfl
@[simp] theorem State.replan_under : (s.replan).under = s.under := rfl
@[simp] theorem State.replan_inbox : (s.replan).inbox = s.inbox := rfl
@[simp] theorem State.replan_plan : (s.replan).plan = s.plan.tail := rfl
@[simp] theorem State.replan_freeCtr : (s.replan).freeCtr = s.freeCtr := rfl

/-! ## setFull -/

@[simp] theorem State.setFull_cx (w : Nat) (b : Bool) : (s.setFull w b).cx = s.cx := rfl
@[simp] theorem State.setFull_cur (w : Nat) (b : Bool) : (s.setFull w b).cur = s.cur := rfl
@[simp] theorem State.setFull_banks (w : Nat) (b : Bool) : (s.setFull w b).banks = s.banks := rfl
@[simp] theorem State.setFull_cycle (w : Nat) (b : Bool) : (s.setFull w b).cycle = s.cycle := rfl
@[simp] theorem State.setFull_mem (w : Nat) (b : Bool) : (s.setFull w b).mem = s.mem := rfl
@[simp] theorem State.setFull_poison (w : Nat) (b : Bool) : (s.setFull w b).poison = s.poison := rfl
@[simp] theorem State.setFull_cores (w : Nat) (b : Bool) : (s.setFull w b).cores = s.cores := rfl
@[simp] theorem State.setFull_dies (w : Nat) (b : Bool) : (s.setFull w b).dies = s.dies := rfl
@[simp] theorem State.setFull_counters (w : Nat) (b : Bool) : (s.setFull w b).counters = s.counters := rfl
@[simp] theorem State.setFull_launches (w : Nat) (b : Bool) : (s.setFull w b).launches = s.launches := rfl
@[simp] theorem State.setFull_lastLaunch (w : Nat) (b : Bool) : (s.setFull w b).lastLaunch = s.lastLaunch := rfl
@[simp] theorem State.setFull_tenants (w : Nat) (b : Bool) : (s.setFull w b).tenants = s.tenants := rfl
@[simp] theorem State.setFull_groups (w : Nat) (b : Bool) : (s.setFull w b).groups = s.groups := rfl
@[simp] theorem State.setFull_lastGroup (w : Nat) (b : Bool) : (s.setFull w b).lastGroup = s.lastGroup := rfl
@[simp] theorem State.setFull_net (w : Nat) (b : Bool) : (s.setFull w b).net = s.net := rfl
@[simp] theorem State.setFull_lastId (w : Nat) (b : Bool) : (s.setFull w b).lastId = s.lastId := rfl
@[simp] theorem State.setFull_migrations (w : Nat) (b : Bool) : (s.setFull w b).migrations = s.migrations := rfl
@[simp] theorem State.setFull_traps (w : Nat) (b : Bool) : (s.setFull w b).traps = s.traps := rfl
@[simp] theorem State.setFull_fetching (w : Nat) (b : Bool) : (s.setFull w b).fetching = s.fetching := rfl
@[simp] theorem State.setFull_hbm (w : Nat) (b : Bool) : (s.setFull w b).hbm = s.hbm := rfl
@[simp] theorem State.setFull_fab (w : Nat) (b : Bool) : (s.setFull w b).fab = s.fab := rfl
@[simp] theorem State.setFull_rcv (w : Nat) (b : Bool) : (s.setFull w b).rcv = s.rcv := rfl
@[simp] theorem State.setFull_host (w : Nat) (b : Bool) : (s.setFull w b).host = s.host := rfl
@[simp] theorem State.setFull_pkg (w : Nat) (b : Bool) : (s.setFull w b).pkg = s.pkg := rfl
@[simp] theorem State.setFull_outbox (w : Nat) (b : Bool) : (s.setFull w b).outbox = s.outbox := rfl
@[simp] theorem State.setFull_under (w : Nat) (b : Bool) : (s.setFull w b).under = s.under := rfl
@[simp] theorem State.setFull_inbox (w : Nat) (b : Bool) : (s.setFull w b).inbox = s.inbox := rfl
@[simp] theorem State.setFull_plan (w : Nat) (b : Bool) : (s.setFull w b).plan = s.plan := rfl
@[simp] theorem State.setFull_freeCtr (w : Nat) (b : Bool) : (s.setFull w b).freeCtr = s.freeCtr := rfl

/-! ## setPoison -/

@[simp] theorem State.setPoison_cx (l n : Nat) (b : Bool) : (s.setPoison l n b).cx = s.cx := rfl
@[simp] theorem State.setPoison_cur (l n : Nat) (b : Bool) : (s.setPoison l n b).cur = s.cur := rfl
@[simp] theorem State.setPoison_banks (l n : Nat) (b : Bool) : (s.setPoison l n b).banks = s.banks := rfl
@[simp] theorem State.setPoison_cycle (l n : Nat) (b : Bool) : (s.setPoison l n b).cycle = s.cycle := rfl
@[simp] theorem State.setPoison_mem (l n : Nat) (b : Bool) : (s.setPoison l n b).mem = s.mem := rfl
@[simp] theorem State.setPoison_fe (l n : Nat) (b : Bool) : (s.setPoison l n b).fe = s.fe := rfl
@[simp] theorem State.setPoison_cores (l n : Nat) (b : Bool) : (s.setPoison l n b).cores = s.cores := rfl
@[simp] theorem State.setPoison_dies (l n : Nat) (b : Bool) : (s.setPoison l n b).dies = s.dies := rfl
@[simp] theorem State.setPoison_counters (l n : Nat) (b : Bool) : (s.setPoison l n b).counters = s.counters := rfl
@[simp] theorem State.setPoison_launches (l n : Nat) (b : Bool) : (s.setPoison l n b).launches = s.launches := rfl
@[simp] theorem State.setPoison_lastLaunch (l n : Nat) (b : Bool) : (s.setPoison l n b).lastLaunch = s.lastLaunch := rfl
@[simp] theorem State.setPoison_tenants (l n : Nat) (b : Bool) : (s.setPoison l n b).tenants = s.tenants := rfl
@[simp] theorem State.setPoison_groups (l n : Nat) (b : Bool) : (s.setPoison l n b).groups = s.groups := rfl
@[simp] theorem State.setPoison_lastGroup (l n : Nat) (b : Bool) : (s.setPoison l n b).lastGroup = s.lastGroup := rfl
@[simp] theorem State.setPoison_net (l n : Nat) (b : Bool) : (s.setPoison l n b).net = s.net := rfl
@[simp] theorem State.setPoison_lastId (l n : Nat) (b : Bool) : (s.setPoison l n b).lastId = s.lastId := rfl
@[simp] theorem State.setPoison_migrations (l n : Nat) (b : Bool) : (s.setPoison l n b).migrations = s.migrations := rfl
@[simp] theorem State.setPoison_traps (l n : Nat) (b : Bool) : (s.setPoison l n b).traps = s.traps := rfl
@[simp] theorem State.setPoison_fetching (l n : Nat) (b : Bool) : (s.setPoison l n b).fetching = s.fetching := rfl
@[simp] theorem State.setPoison_hbm (l n : Nat) (b : Bool) : (s.setPoison l n b).hbm = s.hbm := rfl
@[simp] theorem State.setPoison_fab (l n : Nat) (b : Bool) : (s.setPoison l n b).fab = s.fab := rfl
@[simp] theorem State.setPoison_rcv (l n : Nat) (b : Bool) : (s.setPoison l n b).rcv = s.rcv := rfl
@[simp] theorem State.setPoison_host (l n : Nat) (b : Bool) : (s.setPoison l n b).host = s.host := rfl
@[simp] theorem State.setPoison_pkg (l n : Nat) (b : Bool) : (s.setPoison l n b).pkg = s.pkg := rfl
@[simp] theorem State.setPoison_outbox (l n : Nat) (b : Bool) : (s.setPoison l n b).outbox = s.outbox := rfl
@[simp] theorem State.setPoison_under (l n : Nat) (b : Bool) : (s.setPoison l n b).under = s.under := rfl
@[simp] theorem State.setPoison_inbox (l n : Nat) (b : Bool) : (s.setPoison l n b).inbox = s.inbox := rfl
@[simp] theorem State.setPoison_plan (l n : Nat) (b : Bool) : (s.setPoison l n b).plan = s.plan := rfl
@[simp] theorem State.setPoison_freeCtr (l n : Nat) (b : Bool) : (s.setPoison l n b).freeCtr = s.freeCtr := rfl

/-! ## setDomain -/

@[simp] theorem State.setDomain_cx (i : BitVec 32) (x : Option DomRec) : (s.setDomain i x).cx = s.cx := rfl
@[simp] theorem State.setDomain_cur (i : BitVec 32) (x : Option DomRec) : (s.setDomain i x).cur = s.cur := rfl
@[simp] theorem State.setDomain_banks (i : BitVec 32) (x : Option DomRec) : (s.setDomain i x).banks = s.banks := rfl
@[simp] theorem State.setDomain_cycle (i : BitVec 32) (x : Option DomRec) : (s.setDomain i x).cycle = s.cycle := rfl
@[simp] theorem State.setDomain_mem (i : BitVec 32) (x : Option DomRec) : (s.setDomain i x).mem = s.mem := rfl
@[simp] theorem State.setDomain_fe (i : BitVec 32) (x : Option DomRec) : (s.setDomain i x).fe = s.fe := rfl
@[simp] theorem State.setDomain_poison (i : BitVec 32) (x : Option DomRec) : (s.setDomain i x).poison = s.poison := rfl
@[simp] theorem State.setDomain_cores (i : BitVec 32) (x : Option DomRec) : (s.setDomain i x).cores = s.cores := rfl
@[simp] theorem State.setDomain_counters (i : BitVec 32) (x : Option DomRec) : (s.setDomain i x).counters = s.counters := rfl
@[simp] theorem State.setDomain_launches (i : BitVec 32) (x : Option DomRec) : (s.setDomain i x).launches = s.launches := rfl
@[simp] theorem State.setDomain_lastLaunch (i : BitVec 32) (x : Option DomRec) : (s.setDomain i x).lastLaunch = s.lastLaunch := rfl
@[simp] theorem State.setDomain_tenants (i : BitVec 32) (x : Option DomRec) : (s.setDomain i x).tenants = s.tenants := rfl
@[simp] theorem State.setDomain_groups (i : BitVec 32) (x : Option DomRec) : (s.setDomain i x).groups = s.groups := rfl
@[simp] theorem State.setDomain_lastGroup (i : BitVec 32) (x : Option DomRec) : (s.setDomain i x).lastGroup = s.lastGroup := rfl
@[simp] theorem State.setDomain_net (i : BitVec 32) (x : Option DomRec) : (s.setDomain i x).net = s.net := rfl
@[simp] theorem State.setDomain_lastId (i : BitVec 32) (x : Option DomRec) : (s.setDomain i x).lastId = s.lastId := rfl
@[simp] theorem State.setDomain_migrations (i : BitVec 32) (x : Option DomRec) : (s.setDomain i x).migrations = s.migrations := rfl
@[simp] theorem State.setDomain_traps (i : BitVec 32) (x : Option DomRec) : (s.setDomain i x).traps = s.traps := rfl
@[simp] theorem State.setDomain_fetching (i : BitVec 32) (x : Option DomRec) : (s.setDomain i x).fetching = s.fetching := rfl
@[simp] theorem State.setDomain_hbm (i : BitVec 32) (x : Option DomRec) : (s.setDomain i x).hbm = s.hbm := rfl
@[simp] theorem State.setDomain_fab (i : BitVec 32) (x : Option DomRec) : (s.setDomain i x).fab = s.fab := rfl
@[simp] theorem State.setDomain_rcv (i : BitVec 32) (x : Option DomRec) : (s.setDomain i x).rcv = s.rcv := rfl
@[simp] theorem State.setDomain_host (i : BitVec 32) (x : Option DomRec) : (s.setDomain i x).host = s.host := rfl
@[simp] theorem State.setDomain_pkg (i : BitVec 32) (x : Option DomRec) : (s.setDomain i x).pkg = s.pkg := rfl
@[simp] theorem State.setDomain_outbox (i : BitVec 32) (x : Option DomRec) : (s.setDomain i x).outbox = s.outbox := rfl
@[simp] theorem State.setDomain_under (i : BitVec 32) (x : Option DomRec) : (s.setDomain i x).under = s.under := rfl
@[simp] theorem State.setDomain_inbox (i : BitVec 32) (x : Option DomRec) : (s.setDomain i x).inbox = s.inbox := rfl
@[simp] theorem State.setDomain_plan (i : BitVec 32) (x : Option DomRec) : (s.setDomain i x).plan = s.plan := rfl
@[simp] theorem State.setDomain_freeCtr (i : BitVec 32) (x : Option DomRec) : (s.setDomain i x).freeCtr = s.freeCtr := rfl

/-! ## setCtx -/

@[simp] theorem State.setCtx_cur (c : CtxId) (x : Ctx) : (s.setCtx c x).cur = s.cur := by
  unfold State.setCtx
  split <;> rfl
@[simp] theorem State.setCtx_cycle (c : CtxId) (x : Ctx) : (s.setCtx c x).cycle = s.cycle := by
  unfold State.setCtx
  split <;> rfl
@[simp] theorem State.setCtx_mem (c : CtxId) (x : Ctx) : (s.setCtx c x).mem = s.mem := by
  unfold State.setCtx
  split <;> rfl
@[simp] theorem State.setCtx_fe (c : CtxId) (x : Ctx) : (s.setCtx c x).fe = s.fe := by
  unfold State.setCtx
  split <;> rfl
@[simp] theorem State.setCtx_poison (c : CtxId) (x : Ctx) : (s.setCtx c x).poison = s.poison := by
  unfold State.setCtx
  split <;> rfl
@[simp] theorem State.setCtx_cores (c : CtxId) (x : Ctx) : (s.setCtx c x).cores = s.cores := by
  unfold State.setCtx
  split <;> rfl
@[simp] theorem State.setCtx_dies (c : CtxId) (x : Ctx) : (s.setCtx c x).dies = s.dies := by
  unfold State.setCtx
  split <;> rfl
@[simp] theorem State.setCtx_counters (c : CtxId) (x : Ctx) : (s.setCtx c x).counters = s.counters := by
  unfold State.setCtx
  split <;> rfl
@[simp] theorem State.setCtx_launches (c : CtxId) (x : Ctx) : (s.setCtx c x).launches = s.launches := by
  unfold State.setCtx
  split <;> rfl
@[simp] theorem State.setCtx_lastLaunch (c : CtxId) (x : Ctx) : (s.setCtx c x).lastLaunch = s.lastLaunch := by
  unfold State.setCtx
  split <;> rfl
@[simp] theorem State.setCtx_tenants (c : CtxId) (x : Ctx) : (s.setCtx c x).tenants = s.tenants := by
  unfold State.setCtx
  split <;> rfl
@[simp] theorem State.setCtx_groups (c : CtxId) (x : Ctx) : (s.setCtx c x).groups = s.groups := by
  unfold State.setCtx
  split <;> rfl
@[simp] theorem State.setCtx_lastGroup (c : CtxId) (x : Ctx) : (s.setCtx c x).lastGroup = s.lastGroup := by
  unfold State.setCtx
  split <;> rfl
@[simp] theorem State.setCtx_net (c : CtxId) (x : Ctx) : (s.setCtx c x).net = s.net := by
  unfold State.setCtx
  split <;> rfl
@[simp] theorem State.setCtx_lastId (c : CtxId) (x : Ctx) : (s.setCtx c x).lastId = s.lastId := by
  unfold State.setCtx
  split <;> rfl
@[simp] theorem State.setCtx_migrations (c : CtxId) (x : Ctx) : (s.setCtx c x).migrations = s.migrations := by
  unfold State.setCtx
  split <;> rfl
@[simp] theorem State.setCtx_traps (c : CtxId) (x : Ctx) : (s.setCtx c x).traps = s.traps := by
  unfold State.setCtx
  split <;> rfl
@[simp] theorem State.setCtx_fetching (c : CtxId) (x : Ctx) : (s.setCtx c x).fetching = s.fetching := by
  unfold State.setCtx
  split <;> rfl
@[simp] theorem State.setCtx_hbm (c : CtxId) (x : Ctx) : (s.setCtx c x).hbm = s.hbm := by
  unfold State.setCtx
  split <;> rfl
@[simp] theorem State.setCtx_fab (c : CtxId) (x : Ctx) : (s.setCtx c x).fab = s.fab := by
  unfold State.setCtx
  split <;> rfl
@[simp] theorem State.setCtx_rcv (c : CtxId) (x : Ctx) : (s.setCtx c x).rcv = s.rcv := by
  unfold State.setCtx
  split <;> rfl
@[simp] theorem State.setCtx_host (c : CtxId) (x : Ctx) : (s.setCtx c x).host = s.host := by
  unfold State.setCtx
  split <;> rfl
@[simp] theorem State.setCtx_pkg (c : CtxId) (x : Ctx) : (s.setCtx c x).pkg = s.pkg := by
  unfold State.setCtx
  split <;> rfl
@[simp] theorem State.setCtx_outbox (c : CtxId) (x : Ctx) : (s.setCtx c x).outbox = s.outbox := by
  unfold State.setCtx
  split <;> rfl
@[simp] theorem State.setCtx_under (c : CtxId) (x : Ctx) : (s.setCtx c x).under = s.under := by
  unfold State.setCtx
  split <;> rfl
@[simp] theorem State.setCtx_inbox (c : CtxId) (x : Ctx) : (s.setCtx c x).inbox = s.inbox := by
  unfold State.setCtx
  split <;> rfl
@[simp] theorem State.setCtx_plan (c : CtxId) (x : Ctx) : (s.setCtx c x).plan = s.plan := by
  unfold State.setCtx
  split <;> rfl
@[simp] theorem State.setCtx_freeCtr (c : CtxId) (x : Ctx) : (s.setCtx c x).freeCtr = s.freeCtr := by
  unfold State.setCtx
  split <;> rfl

/-! ## onCtx -/

@[simp] theorem State.onCtx_cur (c : CtxId) (f : Ctx → Ctx) : (s.onCtx c f).cur = s.cur := State.setCtx_cur s c _
@[simp] theorem State.onCtx_cycle (c : CtxId) (f : Ctx → Ctx) : (s.onCtx c f).cycle = s.cycle := State.setCtx_cycle s c _
@[simp] theorem State.onCtx_mem (c : CtxId) (f : Ctx → Ctx) : (s.onCtx c f).mem = s.mem := State.setCtx_mem s c _
@[simp] theorem State.onCtx_fe (c : CtxId) (f : Ctx → Ctx) : (s.onCtx c f).fe = s.fe := State.setCtx_fe s c _
@[simp] theorem State.onCtx_poison (c : CtxId) (f : Ctx → Ctx) : (s.onCtx c f).poison = s.poison := State.setCtx_poison s c _
@[simp] theorem State.onCtx_cores (c : CtxId) (f : Ctx → Ctx) : (s.onCtx c f).cores = s.cores := State.setCtx_cores s c _
@[simp] theorem State.onCtx_dies (c : CtxId) (f : Ctx → Ctx) : (s.onCtx c f).dies = s.dies := State.setCtx_dies s c _
@[simp] theorem State.onCtx_counters (c : CtxId) (f : Ctx → Ctx) : (s.onCtx c f).counters = s.counters := State.setCtx_counters s c _
@[simp] theorem State.onCtx_launches (c : CtxId) (f : Ctx → Ctx) : (s.onCtx c f).launches = s.launches := State.setCtx_launches s c _
@[simp] theorem State.onCtx_lastLaunch (c : CtxId) (f : Ctx → Ctx) : (s.onCtx c f).lastLaunch = s.lastLaunch := State.setCtx_lastLaunch s c _
@[simp] theorem State.onCtx_tenants (c : CtxId) (f : Ctx → Ctx) : (s.onCtx c f).tenants = s.tenants := State.setCtx_tenants s c _
@[simp] theorem State.onCtx_groups (c : CtxId) (f : Ctx → Ctx) : (s.onCtx c f).groups = s.groups := State.setCtx_groups s c _
@[simp] theorem State.onCtx_lastGroup (c : CtxId) (f : Ctx → Ctx) : (s.onCtx c f).lastGroup = s.lastGroup := State.setCtx_lastGroup s c _
@[simp] theorem State.onCtx_net (c : CtxId) (f : Ctx → Ctx) : (s.onCtx c f).net = s.net := State.setCtx_net s c _
@[simp] theorem State.onCtx_lastId (c : CtxId) (f : Ctx → Ctx) : (s.onCtx c f).lastId = s.lastId := State.setCtx_lastId s c _
@[simp] theorem State.onCtx_migrations (c : CtxId) (f : Ctx → Ctx) : (s.onCtx c f).migrations = s.migrations := State.setCtx_migrations s c _
@[simp] theorem State.onCtx_traps (c : CtxId) (f : Ctx → Ctx) : (s.onCtx c f).traps = s.traps := State.setCtx_traps s c _
@[simp] theorem State.onCtx_fetching (c : CtxId) (f : Ctx → Ctx) : (s.onCtx c f).fetching = s.fetching := State.setCtx_fetching s c _
@[simp] theorem State.onCtx_hbm (c : CtxId) (f : Ctx → Ctx) : (s.onCtx c f).hbm = s.hbm := State.setCtx_hbm s c _
@[simp] theorem State.onCtx_fab (c : CtxId) (f : Ctx → Ctx) : (s.onCtx c f).fab = s.fab := State.setCtx_fab s c _
@[simp] theorem State.onCtx_rcv (c : CtxId) (f : Ctx → Ctx) : (s.onCtx c f).rcv = s.rcv := State.setCtx_rcv s c _
@[simp] theorem State.onCtx_host (c : CtxId) (f : Ctx → Ctx) : (s.onCtx c f).host = s.host := State.setCtx_host s c _
@[simp] theorem State.onCtx_pkg (c : CtxId) (f : Ctx → Ctx) : (s.onCtx c f).pkg = s.pkg := State.setCtx_pkg s c _
@[simp] theorem State.onCtx_outbox (c : CtxId) (f : Ctx → Ctx) : (s.onCtx c f).outbox = s.outbox := State.setCtx_outbox s c _
@[simp] theorem State.onCtx_under (c : CtxId) (f : Ctx → Ctx) : (s.onCtx c f).under = s.under := State.setCtx_under s c _
@[simp] theorem State.onCtx_inbox (c : CtxId) (f : Ctx → Ctx) : (s.onCtx c f).inbox = s.inbox := State.setCtx_inbox s c _
@[simp] theorem State.onCtx_plan (c : CtxId) (f : Ctx → Ctx) : (s.onCtx c f).plan = s.plan := State.setCtx_plan s c _
@[simp] theorem State.onCtx_freeCtr (c : CtxId) (f : Ctx → Ctx) : (s.onCtx c f).freeCtr = s.freeCtr := State.setCtx_freeCtr s c _

/-! ## select -/

@[simp] theorem State.select_cycle (c : CtxId) : (s.select c).cycle = s.cycle := by
  unfold State.select
  split <;> rfl
@[simp] theorem State.select_mem (c : CtxId) : (s.select c).mem = s.mem := by
  unfold State.select
  split <;> rfl
@[simp] theorem State.select_fe (c : CtxId) : (s.select c).fe = s.fe := by
  unfold State.select
  split <;> rfl
@[simp] theorem State.select_poison (c : CtxId) : (s.select c).poison = s.poison := by
  unfold State.select
  split <;> rfl
@[simp] theorem State.select_cores (c : CtxId) : (s.select c).cores = s.cores := by
  unfold State.select
  split <;> rfl
@[simp] theorem State.select_dies (c : CtxId) : (s.select c).dies = s.dies := by
  unfold State.select
  split <;> rfl
@[simp] theorem State.select_counters (c : CtxId) : (s.select c).counters = s.counters := by
  unfold State.select
  split <;> rfl
@[simp] theorem State.select_launches (c : CtxId) : (s.select c).launches = s.launches := by
  unfold State.select
  split <;> rfl
@[simp] theorem State.select_lastLaunch (c : CtxId) : (s.select c).lastLaunch = s.lastLaunch := by
  unfold State.select
  split <;> rfl
@[simp] theorem State.select_tenants (c : CtxId) : (s.select c).tenants = s.tenants := by
  unfold State.select
  split <;> rfl
@[simp] theorem State.select_groups (c : CtxId) : (s.select c).groups = s.groups := by
  unfold State.select
  split <;> rfl
@[simp] theorem State.select_lastGroup (c : CtxId) : (s.select c).lastGroup = s.lastGroup := by
  unfold State.select
  split <;> rfl
@[simp] theorem State.select_net (c : CtxId) : (s.select c).net = s.net := by
  unfold State.select
  split <;> rfl
@[simp] theorem State.select_lastId (c : CtxId) : (s.select c).lastId = s.lastId := by
  unfold State.select
  split <;> rfl
@[simp] theorem State.select_migrations (c : CtxId) : (s.select c).migrations = s.migrations := by
  unfold State.select
  split <;> rfl
@[simp] theorem State.select_traps (c : CtxId) : (s.select c).traps = s.traps := by
  unfold State.select
  split <;> rfl
@[simp] theorem State.select_fetching (c : CtxId) : (s.select c).fetching = s.fetching := by
  unfold State.select
  split <;> rfl
@[simp] theorem State.select_hbm (c : CtxId) : (s.select c).hbm = s.hbm := by
  unfold State.select
  split <;> rfl
@[simp] theorem State.select_fab (c : CtxId) : (s.select c).fab = s.fab := by
  unfold State.select
  split <;> rfl
@[simp] theorem State.select_rcv (c : CtxId) : (s.select c).rcv = s.rcv := by
  unfold State.select
  split <;> rfl
@[simp] theorem State.select_host (c : CtxId) : (s.select c).host = s.host := by
  unfold State.select
  split <;> rfl
@[simp] theorem State.select_pkg (c : CtxId) : (s.select c).pkg = s.pkg := by
  unfold State.select
  split <;> rfl
@[simp] theorem State.select_outbox (c : CtxId) : (s.select c).outbox = s.outbox := by
  unfold State.select
  split <;> rfl
@[simp] theorem State.select_under (c : CtxId) : (s.select c).under = s.under := by
  unfold State.select
  split <;> rfl
@[simp] theorem State.select_inbox (c : CtxId) : (s.select c).inbox = s.inbox := by
  unfold State.select
  split <;> rfl
@[simp] theorem State.select_plan (c : CtxId) : (s.select c).plan = s.plan := by
  unfold State.select
  split <;> rfl
@[simp] theorem State.select_freeCtr (c : CtxId) : (s.select c).freeCtr = s.freeCtr := by
  unfold State.select
  split <;> rfl

/-! ## onTenant -/

@[simp] theorem State.onTenant_cx (k : Nat) (f : TenantSt → TenantSt) : (s.onTenant k f).cx = s.cx := by
  unfold State.onTenant
  split <;> rfl
@[simp] theorem State.onTenant_cur (k : Nat) (f : TenantSt → TenantSt) : (s.onTenant k f).cur = s.cur := by
  unfold State.onTenant
  split <;> rfl
@[simp] theorem State.onTenant_banks (k : Nat) (f : TenantSt → TenantSt) : (s.onTenant k f).banks = s.banks := by
  unfold State.onTenant
  split <;> rfl
@[simp] theorem State.onTenant_cycle (k : Nat) (f : TenantSt → TenantSt) : (s.onTenant k f).cycle = s.cycle := by
  unfold State.onTenant
  split <;> rfl
@[simp] theorem State.onTenant_mem (k : Nat) (f : TenantSt → TenantSt) : (s.onTenant k f).mem = s.mem := by
  unfold State.onTenant
  split <;> rfl
@[simp] theorem State.onTenant_fe (k : Nat) (f : TenantSt → TenantSt) : (s.onTenant k f).fe = s.fe := by
  unfold State.onTenant
  split <;> rfl
@[simp] theorem State.onTenant_poison (k : Nat) (f : TenantSt → TenantSt) : (s.onTenant k f).poison = s.poison := by
  unfold State.onTenant
  split <;> rfl
@[simp] theorem State.onTenant_cores (k : Nat) (f : TenantSt → TenantSt) : (s.onTenant k f).cores = s.cores := by
  unfold State.onTenant
  split <;> rfl
@[simp] theorem State.onTenant_dies (k : Nat) (f : TenantSt → TenantSt) : (s.onTenant k f).dies = s.dies := by
  unfold State.onTenant
  split <;> rfl
@[simp] theorem State.onTenant_counters (k : Nat) (f : TenantSt → TenantSt) : (s.onTenant k f).counters = s.counters := by
  unfold State.onTenant
  split <;> rfl
@[simp] theorem State.onTenant_launches (k : Nat) (f : TenantSt → TenantSt) : (s.onTenant k f).launches = s.launches := by
  unfold State.onTenant
  split <;> rfl
@[simp] theorem State.onTenant_lastLaunch (k : Nat) (f : TenantSt → TenantSt) : (s.onTenant k f).lastLaunch = s.lastLaunch := by
  unfold State.onTenant
  split <;> rfl
@[simp] theorem State.onTenant_groups (k : Nat) (f : TenantSt → TenantSt) : (s.onTenant k f).groups = s.groups := by
  unfold State.onTenant
  split <;> rfl
@[simp] theorem State.onTenant_lastGroup (k : Nat) (f : TenantSt → TenantSt) : (s.onTenant k f).lastGroup = s.lastGroup := by
  unfold State.onTenant
  split <;> rfl
@[simp] theorem State.onTenant_net (k : Nat) (f : TenantSt → TenantSt) : (s.onTenant k f).net = s.net := by
  unfold State.onTenant
  split <;> rfl
@[simp] theorem State.onTenant_lastId (k : Nat) (f : TenantSt → TenantSt) : (s.onTenant k f).lastId = s.lastId := by
  unfold State.onTenant
  split <;> rfl
@[simp] theorem State.onTenant_migrations (k : Nat) (f : TenantSt → TenantSt) : (s.onTenant k f).migrations = s.migrations := by
  unfold State.onTenant
  split <;> rfl
@[simp] theorem State.onTenant_traps (k : Nat) (f : TenantSt → TenantSt) : (s.onTenant k f).traps = s.traps := by
  unfold State.onTenant
  split <;> rfl
@[simp] theorem State.onTenant_fetching (k : Nat) (f : TenantSt → TenantSt) : (s.onTenant k f).fetching = s.fetching := by
  unfold State.onTenant
  split <;> rfl
@[simp] theorem State.onTenant_hbm (k : Nat) (f : TenantSt → TenantSt) : (s.onTenant k f).hbm = s.hbm := by
  unfold State.onTenant
  split <;> rfl
@[simp] theorem State.onTenant_fab (k : Nat) (f : TenantSt → TenantSt) : (s.onTenant k f).fab = s.fab := by
  unfold State.onTenant
  split <;> rfl
@[simp] theorem State.onTenant_rcv (k : Nat) (f : TenantSt → TenantSt) : (s.onTenant k f).rcv = s.rcv := by
  unfold State.onTenant
  split <;> rfl
@[simp] theorem State.onTenant_host (k : Nat) (f : TenantSt → TenantSt) : (s.onTenant k f).host = s.host := by
  unfold State.onTenant
  split <;> rfl
@[simp] theorem State.onTenant_pkg (k : Nat) (f : TenantSt → TenantSt) : (s.onTenant k f).pkg = s.pkg := by
  unfold State.onTenant
  split <;> rfl
@[simp] theorem State.onTenant_outbox (k : Nat) (f : TenantSt → TenantSt) : (s.onTenant k f).outbox = s.outbox := by
  unfold State.onTenant
  split <;> rfl
@[simp] theorem State.onTenant_under (k : Nat) (f : TenantSt → TenantSt) : (s.onTenant k f).under = s.under := by
  unfold State.onTenant
  split <;> rfl
@[simp] theorem State.onTenant_inbox (k : Nat) (f : TenantSt → TenantSt) : (s.onTenant k f).inbox = s.inbox := by
  unfold State.onTenant
  split <;> rfl
@[simp] theorem State.onTenant_plan (k : Nat) (f : TenantSt → TenantSt) : (s.onTenant k f).plan = s.plan := by
  unfold State.onTenant
  split <;> rfl
@[simp] theorem State.onTenant_freeCtr (k : Nat) (f : TenantSt → TenantSt) : (s.onTenant k f).freeCtr = s.freeCtr := by
  unfold State.onTenant
  split <;> rfl

/-! ## onLaunch -/

@[simp] theorem State.onLaunch_cx (k : Nat) (f : LaunchSt → LaunchSt) : (s.onLaunch k f).cx = s.cx := by
  unfold State.onLaunch
  split <;> rfl
@[simp] theorem State.onLaunch_cur (k : Nat) (f : LaunchSt → LaunchSt) : (s.onLaunch k f).cur = s.cur := by
  unfold State.onLaunch
  split <;> rfl
@[simp] theorem State.onLaunch_banks (k : Nat) (f : LaunchSt → LaunchSt) : (s.onLaunch k f).banks = s.banks := by
  unfold State.onLaunch
  split <;> rfl
@[simp] theorem State.onLaunch_cycle (k : Nat) (f : LaunchSt → LaunchSt) : (s.onLaunch k f).cycle = s.cycle := by
  unfold State.onLaunch
  split <;> rfl
@[simp] theorem State.onLaunch_mem (k : Nat) (f : LaunchSt → LaunchSt) : (s.onLaunch k f).mem = s.mem := by
  unfold State.onLaunch
  split <;> rfl
@[simp] theorem State.onLaunch_fe (k : Nat) (f : LaunchSt → LaunchSt) : (s.onLaunch k f).fe = s.fe := by
  unfold State.onLaunch
  split <;> rfl
@[simp] theorem State.onLaunch_poison (k : Nat) (f : LaunchSt → LaunchSt) : (s.onLaunch k f).poison = s.poison := by
  unfold State.onLaunch
  split <;> rfl
@[simp] theorem State.onLaunch_cores (k : Nat) (f : LaunchSt → LaunchSt) : (s.onLaunch k f).cores = s.cores := by
  unfold State.onLaunch
  split <;> rfl
@[simp] theorem State.onLaunch_dies (k : Nat) (f : LaunchSt → LaunchSt) : (s.onLaunch k f).dies = s.dies := by
  unfold State.onLaunch
  split <;> rfl
@[simp] theorem State.onLaunch_counters (k : Nat) (f : LaunchSt → LaunchSt) : (s.onLaunch k f).counters = s.counters := by
  unfold State.onLaunch
  split <;> rfl
@[simp] theorem State.onLaunch_lastLaunch (k : Nat) (f : LaunchSt → LaunchSt) : (s.onLaunch k f).lastLaunch = s.lastLaunch := by
  unfold State.onLaunch
  split <;> rfl
@[simp] theorem State.onLaunch_tenants (k : Nat) (f : LaunchSt → LaunchSt) : (s.onLaunch k f).tenants = s.tenants := by
  unfold State.onLaunch
  split <;> rfl
@[simp] theorem State.onLaunch_groups (k : Nat) (f : LaunchSt → LaunchSt) : (s.onLaunch k f).groups = s.groups := by
  unfold State.onLaunch
  split <;> rfl
@[simp] theorem State.onLaunch_lastGroup (k : Nat) (f : LaunchSt → LaunchSt) : (s.onLaunch k f).lastGroup = s.lastGroup := by
  unfold State.onLaunch
  split <;> rfl
@[simp] theorem State.onLaunch_net (k : Nat) (f : LaunchSt → LaunchSt) : (s.onLaunch k f).net = s.net := by
  unfold State.onLaunch
  split <;> rfl
@[simp] theorem State.onLaunch_lastId (k : Nat) (f : LaunchSt → LaunchSt) : (s.onLaunch k f).lastId = s.lastId := by
  unfold State.onLaunch
  split <;> rfl
@[simp] theorem State.onLaunch_migrations (k : Nat) (f : LaunchSt → LaunchSt) : (s.onLaunch k f).migrations = s.migrations := by
  unfold State.onLaunch
  split <;> rfl
@[simp] theorem State.onLaunch_traps (k : Nat) (f : LaunchSt → LaunchSt) : (s.onLaunch k f).traps = s.traps := by
  unfold State.onLaunch
  split <;> rfl
@[simp] theorem State.onLaunch_fetching (k : Nat) (f : LaunchSt → LaunchSt) : (s.onLaunch k f).fetching = s.fetching := by
  unfold State.onLaunch
  split <;> rfl
@[simp] theorem State.onLaunch_hbm (k : Nat) (f : LaunchSt → LaunchSt) : (s.onLaunch k f).hbm = s.hbm := by
  unfold State.onLaunch
  split <;> rfl
@[simp] theorem State.onLaunch_fab (k : Nat) (f : LaunchSt → LaunchSt) : (s.onLaunch k f).fab = s.fab := by
  unfold State.onLaunch
  split <;> rfl
@[simp] theorem State.onLaunch_rcv (k : Nat) (f : LaunchSt → LaunchSt) : (s.onLaunch k f).rcv = s.rcv := by
  unfold State.onLaunch
  split <;> rfl
@[simp] theorem State.onLaunch_host (k : Nat) (f : LaunchSt → LaunchSt) : (s.onLaunch k f).host = s.host := by
  unfold State.onLaunch
  split <;> rfl
@[simp] theorem State.onLaunch_pkg (k : Nat) (f : LaunchSt → LaunchSt) : (s.onLaunch k f).pkg = s.pkg := by
  unfold State.onLaunch
  split <;> rfl
@[simp] theorem State.onLaunch_outbox (k : Nat) (f : LaunchSt → LaunchSt) : (s.onLaunch k f).outbox = s.outbox := by
  unfold State.onLaunch
  split <;> rfl
@[simp] theorem State.onLaunch_under (k : Nat) (f : LaunchSt → LaunchSt) : (s.onLaunch k f).under = s.under := by
  unfold State.onLaunch
  split <;> rfl
@[simp] theorem State.onLaunch_inbox (k : Nat) (f : LaunchSt → LaunchSt) : (s.onLaunch k f).inbox = s.inbox := by
  unfold State.onLaunch
  split <;> rfl
@[simp] theorem State.onLaunch_plan (k : Nat) (f : LaunchSt → LaunchSt) : (s.onLaunch k f).plan = s.plan := by
  unfold State.onLaunch
  split <;> rfl
@[simp] theorem State.onLaunch_freeCtr (k : Nat) (f : LaunchSt → LaunchSt) : (s.onLaunch k f).freeCtr = s.freeCtr := by
  unfold State.onLaunch
  split <;> rfl

/-! ## onGroup -/

@[simp] theorem State.onGroup_cx (h : BitVec 32) (f : Group → Group) : (s.onGroup h f).cx = s.cx := by
  unfold State.onGroup
  split <;> rfl
@[simp] theorem State.onGroup_cur (h : BitVec 32) (f : Group → Group) : (s.onGroup h f).cur = s.cur := by
  unfold State.onGroup
  split <;> rfl
@[simp] theorem State.onGroup_banks (h : BitVec 32) (f : Group → Group) : (s.onGroup h f).banks = s.banks := by
  unfold State.onGroup
  split <;> rfl
@[simp] theorem State.onGroup_cycle (h : BitVec 32) (f : Group → Group) : (s.onGroup h f).cycle = s.cycle := by
  unfold State.onGroup
  split <;> rfl
@[simp] theorem State.onGroup_mem (h : BitVec 32) (f : Group → Group) : (s.onGroup h f).mem = s.mem := by
  unfold State.onGroup
  split <;> rfl
@[simp] theorem State.onGroup_fe (h : BitVec 32) (f : Group → Group) : (s.onGroup h f).fe = s.fe := by
  unfold State.onGroup
  split <;> rfl
@[simp] theorem State.onGroup_poison (h : BitVec 32) (f : Group → Group) : (s.onGroup h f).poison = s.poison := by
  unfold State.onGroup
  split <;> rfl
@[simp] theorem State.onGroup_cores (h : BitVec 32) (f : Group → Group) : (s.onGroup h f).cores = s.cores := by
  unfold State.onGroup
  split <;> rfl
@[simp] theorem State.onGroup_dies (h : BitVec 32) (f : Group → Group) : (s.onGroup h f).dies = s.dies := by
  unfold State.onGroup
  split <;> rfl
@[simp] theorem State.onGroup_counters (h : BitVec 32) (f : Group → Group) : (s.onGroup h f).counters = s.counters := by
  unfold State.onGroup
  split <;> rfl
@[simp] theorem State.onGroup_launches (h : BitVec 32) (f : Group → Group) : (s.onGroup h f).launches = s.launches := by
  unfold State.onGroup
  split <;> rfl
@[simp] theorem State.onGroup_lastLaunch (h : BitVec 32) (f : Group → Group) : (s.onGroup h f).lastLaunch = s.lastLaunch := by
  unfold State.onGroup
  split <;> rfl
@[simp] theorem State.onGroup_tenants (h : BitVec 32) (f : Group → Group) : (s.onGroup h f).tenants = s.tenants := by
  unfold State.onGroup
  split <;> rfl
@[simp] theorem State.onGroup_lastGroup (h : BitVec 32) (f : Group → Group) : (s.onGroup h f).lastGroup = s.lastGroup := by
  unfold State.onGroup
  split <;> rfl
@[simp] theorem State.onGroup_net (h : BitVec 32) (f : Group → Group) : (s.onGroup h f).net = s.net := by
  unfold State.onGroup
  split <;> rfl
@[simp] theorem State.onGroup_lastId (h : BitVec 32) (f : Group → Group) : (s.onGroup h f).lastId = s.lastId := by
  unfold State.onGroup
  split <;> rfl
@[simp] theorem State.onGroup_migrations (h : BitVec 32) (f : Group → Group) : (s.onGroup h f).migrations = s.migrations := by
  unfold State.onGroup
  split <;> rfl
@[simp] theorem State.onGroup_traps (h : BitVec 32) (f : Group → Group) : (s.onGroup h f).traps = s.traps := by
  unfold State.onGroup
  split <;> rfl
@[simp] theorem State.onGroup_fetching (h : BitVec 32) (f : Group → Group) : (s.onGroup h f).fetching = s.fetching := by
  unfold State.onGroup
  split <;> rfl
@[simp] theorem State.onGroup_hbm (h : BitVec 32) (f : Group → Group) : (s.onGroup h f).hbm = s.hbm := by
  unfold State.onGroup
  split <;> rfl
@[simp] theorem State.onGroup_fab (h : BitVec 32) (f : Group → Group) : (s.onGroup h f).fab = s.fab := by
  unfold State.onGroup
  split <;> rfl
@[simp] theorem State.onGroup_rcv (h : BitVec 32) (f : Group → Group) : (s.onGroup h f).rcv = s.rcv := by
  unfold State.onGroup
  split <;> rfl
@[simp] theorem State.onGroup_host (h : BitVec 32) (f : Group → Group) : (s.onGroup h f).host = s.host := by
  unfold State.onGroup
  split <;> rfl
@[simp] theorem State.onGroup_pkg (h : BitVec 32) (f : Group → Group) : (s.onGroup h f).pkg = s.pkg := by
  unfold State.onGroup
  split <;> rfl
@[simp] theorem State.onGroup_outbox (h : BitVec 32) (f : Group → Group) : (s.onGroup h f).outbox = s.outbox := by
  unfold State.onGroup
  split <;> rfl
@[simp] theorem State.onGroup_under (h : BitVec 32) (f : Group → Group) : (s.onGroup h f).under = s.under := by
  unfold State.onGroup
  split <;> rfl
@[simp] theorem State.onGroup_inbox (h : BitVec 32) (f : Group → Group) : (s.onGroup h f).inbox = s.inbox := by
  unfold State.onGroup
  split <;> rfl
@[simp] theorem State.onGroup_plan (h : BitVec 32) (f : Group → Group) : (s.onGroup h f).plan = s.plan := by
  unfold State.onGroup
  split <;> rfl
@[simp] theorem State.onGroup_freeCtr (h : BitVec 32) (f : Group → Group) : (s.onGroup h f).freeCtr = s.freeCtr := by
  unfold State.onGroup
  split <;> rfl

/-! ## onDomain -/

@[simp] theorem State.onDomain_cx (i : BitVec 32) (f : DomRec → DomRec) : (s.onDomain i f).cx = s.cx := by
  unfold State.onDomain
  split <;> rfl
@[simp] theorem State.onDomain_cur (i : BitVec 32) (f : DomRec → DomRec) : (s.onDomain i f).cur = s.cur := by
  unfold State.onDomain
  split <;> rfl
@[simp] theorem State.onDomain_banks (i : BitVec 32) (f : DomRec → DomRec) : (s.onDomain i f).banks = s.banks := by
  unfold State.onDomain
  split <;> rfl
@[simp] theorem State.onDomain_cycle (i : BitVec 32) (f : DomRec → DomRec) : (s.onDomain i f).cycle = s.cycle := by
  unfold State.onDomain
  split <;> rfl
@[simp] theorem State.onDomain_mem (i : BitVec 32) (f : DomRec → DomRec) : (s.onDomain i f).mem = s.mem := by
  unfold State.onDomain
  split <;> rfl
@[simp] theorem State.onDomain_fe (i : BitVec 32) (f : DomRec → DomRec) : (s.onDomain i f).fe = s.fe := by
  unfold State.onDomain
  split <;> rfl
@[simp] theorem State.onDomain_poison (i : BitVec 32) (f : DomRec → DomRec) : (s.onDomain i f).poison = s.poison := by
  unfold State.onDomain
  split <;> rfl
@[simp] theorem State.onDomain_cores (i : BitVec 32) (f : DomRec → DomRec) : (s.onDomain i f).cores = s.cores := by
  unfold State.onDomain
  split <;> rfl
@[simp] theorem State.onDomain_counters (i : BitVec 32) (f : DomRec → DomRec) : (s.onDomain i f).counters = s.counters := by
  unfold State.onDomain
  split <;> rfl
@[simp] theorem State.onDomain_launches (i : BitVec 32) (f : DomRec → DomRec) : (s.onDomain i f).launches = s.launches := by
  unfold State.onDomain
  split <;> rfl
@[simp] theorem State.onDomain_lastLaunch (i : BitVec 32) (f : DomRec → DomRec) : (s.onDomain i f).lastLaunch = s.lastLaunch := by
  unfold State.onDomain
  split <;> rfl
@[simp] theorem State.onDomain_tenants (i : BitVec 32) (f : DomRec → DomRec) : (s.onDomain i f).tenants = s.tenants := by
  unfold State.onDomain
  split <;> rfl
@[simp] theorem State.onDomain_groups (i : BitVec 32) (f : DomRec → DomRec) : (s.onDomain i f).groups = s.groups := by
  unfold State.onDomain
  split <;> rfl
@[simp] theorem State.onDomain_lastGroup (i : BitVec 32) (f : DomRec → DomRec) : (s.onDomain i f).lastGroup = s.lastGroup := by
  unfold State.onDomain
  split <;> rfl
@[simp] theorem State.onDomain_net (i : BitVec 32) (f : DomRec → DomRec) : (s.onDomain i f).net = s.net := by
  unfold State.onDomain
  split <;> rfl
@[simp] theorem State.onDomain_lastId (i : BitVec 32) (f : DomRec → DomRec) : (s.onDomain i f).lastId = s.lastId := by
  unfold State.onDomain
  split <;> rfl
@[simp] theorem State.onDomain_migrations (i : BitVec 32) (f : DomRec → DomRec) : (s.onDomain i f).migrations = s.migrations := by
  unfold State.onDomain
  split <;> rfl
@[simp] theorem State.onDomain_traps (i : BitVec 32) (f : DomRec → DomRec) : (s.onDomain i f).traps = s.traps := by
  unfold State.onDomain
  split <;> rfl
@[simp] theorem State.onDomain_fetching (i : BitVec 32) (f : DomRec → DomRec) : (s.onDomain i f).fetching = s.fetching := by
  unfold State.onDomain
  split <;> rfl
@[simp] theorem State.onDomain_hbm (i : BitVec 32) (f : DomRec → DomRec) : (s.onDomain i f).hbm = s.hbm := by
  unfold State.onDomain
  split <;> rfl
@[simp] theorem State.onDomain_fab (i : BitVec 32) (f : DomRec → DomRec) : (s.onDomain i f).fab = s.fab := by
  unfold State.onDomain
  split <;> rfl
@[simp] theorem State.onDomain_rcv (i : BitVec 32) (f : DomRec → DomRec) : (s.onDomain i f).rcv = s.rcv := by
  unfold State.onDomain
  split <;> rfl
@[simp] theorem State.onDomain_host (i : BitVec 32) (f : DomRec → DomRec) : (s.onDomain i f).host = s.host := by
  unfold State.onDomain
  split <;> rfl
@[simp] theorem State.onDomain_pkg (i : BitVec 32) (f : DomRec → DomRec) : (s.onDomain i f).pkg = s.pkg := by
  unfold State.onDomain
  split <;> rfl
@[simp] theorem State.onDomain_outbox (i : BitVec 32) (f : DomRec → DomRec) : (s.onDomain i f).outbox = s.outbox := by
  unfold State.onDomain
  split <;> rfl
@[simp] theorem State.onDomain_under (i : BitVec 32) (f : DomRec → DomRec) : (s.onDomain i f).under = s.under := by
  unfold State.onDomain
  split <;> rfl
@[simp] theorem State.onDomain_inbox (i : BitVec 32) (f : DomRec → DomRec) : (s.onDomain i f).inbox = s.inbox := by
  unfold State.onDomain
  split <;> rfl
@[simp] theorem State.onDomain_plan (i : BitVec 32) (f : DomRec → DomRec) : (s.onDomain i f).plan = s.plan := by
  unfold State.onDomain
  split <;> rfl
@[simp] theorem State.onDomain_freeCtr (i : BitVec 32) (f : DomRec → DomRec) : (s.onDomain i f).freeCtr = s.freeCtr := by
  unfold State.onDomain
  split <;> rfl

/-! ## Reading after writing -/

/-- A context reads as written. -/
@[simp] theorem State.ctx_setCtx_same (c : CtxId) (x : Ctx) : (s.setCtx c x).ctx c = x := by
  unfold State.setCtx State.ctx
  split <;> simp [*]

/-- The context held apart, after a write to it. -/
@[simp] theorem State.setCtx_cur_cx (x : Ctx) : (s.setCtx s.cur x).cx = x := by
  simp [State.setCtx]

/-- The context held apart, after a write to another. -/
theorem State.setCtx_other_cx {c : CtxId} (x : Ctx) (h : c ≠ s.cur) : (s.setCtx c x).cx = s.cx := by
  simp [State.setCtx, h]

/-- A change of the context held apart is a change of that field. -/
theorem State.onCtx_self (f : Ctx → Ctx) : s.onCtx s.cur f = { s with cx := f s.cx } := by
  simp [State.onCtx, State.setCtx, State.ctx]

/-- The context held apart, by its name. -/
@[simp] theorem State.ctx_cur : s.ctx s.cur = s.cx := by
  simp [State.ctx]

/-- A die reads as changed. -/
@[simp] theorem State.die_onDie_same (d : Nat) (f : DieSt → DieSt) : (s.onDie d f).die d = f (s.die d) :=
  SMap.look_alter_same ..

/-- Another die reads as it was. -/
theorem State.die_onDie_other {d e : Nat} (f : DieSt → DieSt) (h : e ≠ d) : (s.onDie d f).die e = s.die e :=
  SMap.look_alter_other _ _ h

/-- A core reads as changed. -/
@[simp] theorem State.core_onCore_same (d c : Nat) (f : CoreSt → CoreSt) : (s.onCore d c f).core d c = f (s.core d c) :=
  SMap.look_alter_same ..

/-- A core of another number reads as it was. -/
theorem State.core_onCore_other {d c e k : Nat} (f : CoreSt → CoreSt) (h : 66 * e + k ≠ 66 * d + c) :
    (s.onCore d c f).core e k = s.core e k := SMap.look_alter_other _ _ h

/-- A counter reads as changed. -/
@[simp] theorem State.counter_onCounter_same (l : Nat) (f : CounterSt → CounterSt) : (s.onCounter l f).counter l = f (s.counter l) :=
  SMap.look_alter_same ..

/-- A stack reads as changed. -/
@[simp] theorem State.stack_onStack_same (h : Nat) (f : StackSt → StackSt) : (s.onStack h f).stack h = f (s.stack h) :=
  SMap.look_alter_same ..

/-- A port reads as changed. -/
@[simp] theorem State.port_onPort_same (j : Nat) (f : PortSt → PortSt) : (s.onPort j f).port j = f (s.port j) :=
  SMap.look_alter_same ..

/-! ## Registers -/

/-- s0 reads zero (R262). -/
@[simp] theorem Regs.get_zero (r : Regs) : r.get 0#5 = 0#64 := rfl

/-- A write to s0 is discarded (R262). -/
@[simp] theorem Regs.set_zero (r : Regs) (v : Word) : r.set 0#5 v = r := rfl

/-- Another scalar register reads as it was. -/
theorem Regs.get_set_other (r : Regs) {d n : RegNo} (v : Word) (h : n ≠ d) : (r.set d v).get n = r.get n := by
  have hn : n.toNat ≠ d.toNat := fun e => h (BitVec.eq_of_toNat_eq e)
  unfold Regs.get Regs.set
  split
  · rfl
  · split
    · rfl
    · exact SMap.look_put_other _ _ hn

/-- A vector register reads as written. -/
@[simp] theorem Regs.vget_vset_same (r : Regs) (n : Nat) (v : VReg) : (r.vset n v).vget n = v := SMap.look_put_same ..

/-- Another vector register reads as it was. -/
theorem Regs.vget_vset_other (r : Regs) {n m : Nat} (v : VReg) (h : m ≠ n) : (r.vset n v).vget m = r.vget m :=
  SMap.look_put_other _ _ h

/-- Advancing past an instruction changes no general register. -/
@[simp] theorem Regs.loopEnd_sregs (r : Regs) : r.loopEnd.sregs = r.sregs := by
  unfold Regs.loopEnd
  dsimp only
  repeat' split
  all_goals rfl

/-- Advancing past an instruction changes no vector register. -/
@[simp] theorem Regs.loopEnd_vregs (r : Regs) : r.loopEnd.vregs = r.vregs := by
  unfold Regs.loopEnd
  dsimp only
  repeat' split
  all_goals rfl

end Sys2Proof.Machine
end

