-- ==== Sys2Proof/Laws/Updates.lean ====
section
/-! SUPPORT. What the updates of routers, physical dies, DRAM's bytes, slices, counts, transactions and sessions leave alone and what they write,
one lemma per field. -/

namespace Sys2Proof.Machine

variable (s : State)

/-! ## setRouter -/

@[simp] theorem State.setRouter_cx (k off : Nat) (v : BitVec 32) : (s.setRouter k off v).cx = s.cx := rfl
@[simp] theorem State.setRouter_cur (k off : Nat) (v : BitVec 32) : (s.setRouter k off v).cur = s.cur := rfl
@[simp] theorem State.setRouter_banks (k off : Nat) (v : BitVec 32) : (s.setRouter k off v).banks = s.banks := rfl
@[simp] theorem State.setRouter_cycle (k off : Nat) (v : BitVec 32) : (s.setRouter k off v).cycle = s.cycle := rfl
@[simp] theorem State.setRouter_mem (k off : Nat) (v : BitVec 32) : (s.setRouter k off v).mem = s.mem := rfl
@[simp] theorem State.setRouter_fe (k off : Nat) (v : BitVec 32) : (s.setRouter k off v).fe = s.fe := rfl
@[simp] theorem State.setRouter_poison (k off : Nat) (v : BitVec 32) : (s.setRouter k off v).poison = s.poison := rfl
@[simp] theorem State.setRouter_cores (k off : Nat) (v : BitVec 32) : (s.setRouter k off v).cores = s.cores := rfl
@[simp] theorem State.setRouter_dies (k off : Nat) (v : BitVec 32) : (s.setRouter k off v).dies = s.dies := rfl
@[simp] theorem State.setRouter_counters (k off : Nat) (v : BitVec 32) : (s.setRouter k off v).counters = s.counters := rfl
@[simp] theorem State.setRouter_launches (k off : Nat) (v : BitVec 32) : (s.setRouter k off v).launches = s.launches := rfl
@[simp] theorem State.setRouter_lastLaunch (k off : Nat) (v : BitVec 32) : (s.setRouter k off v).lastLaunch = s.lastLaunch := rfl
@[simp] theorem State.setRouter_tenants (k off : Nat) (v : BitVec 32) : (s.setRouter k off v).tenants = s.tenants := rfl
@[simp] theorem State.setRouter_groups (k off : Nat) (v : BitVec 32) : (s.setRouter k off v).groups = s.groups := rfl
@[simp] theorem State.setRouter_lastGroup (k off : Nat) (v : BitVec 32) : (s.setRouter k off v).lastGroup = s.lastGroup := rfl
@[simp] theorem State.setRouter_net (k off : Nat) (v : BitVec 32) : (s.setRouter k off v).net = s.net := rfl
@[simp] theorem State.setRouter_lastId (k off : Nat) (v : BitVec 32) : (s.setRouter k off v).lastId = s.lastId := rfl
@[simp] theorem State.setRouter_migrations (k off : Nat) (v : BitVec 32) : (s.setRouter k off v).migrations = s.migrations := rfl
@[simp] theorem State.setRouter_traps (k off : Nat) (v : BitVec 32) : (s.setRouter k off v).traps = s.traps := rfl
@[simp] theorem State.setRouter_fetching (k off : Nat) (v : BitVec 32) : (s.setRouter k off v).fetching = s.fetching := rfl
@[simp] theorem State.setRouter_hbm (k off : Nat) (v : BitVec 32) : (s.setRouter k off v).hbm = s.hbm := rfl
@[simp] theorem State.setRouter_fab (k off : Nat) (v : BitVec 32) : (s.setRouter k off v).fab = { s.fab with regs := SMap.put (routerReset off) s.fab.regs (routerBase k + off) (v &&& routerMask off) } := rfl
@[simp] theorem State.setRouter_rcv (k off : Nat) (v : BitVec 32) : (s.setRouter k off v).rcv = s.rcv := rfl
@[simp] theorem State.setRouter_host (k off : Nat) (v : BitVec 32) : (s.setRouter k off v).host = s.host := rfl
@[simp] theorem State.setRouter_pkg (k off : Nat) (v : BitVec 32) : (s.setRouter k off v).pkg = s.pkg := rfl
@[simp] theorem State.setRouter_outbox (k off : Nat) (v : BitVec 32) : (s.setRouter k off v).outbox = s.outbox := rfl
@[simp] theorem State.setRouter_under (k off : Nat) (v : BitVec 32) : (s.setRouter k off v).under = s.under := rfl
@[simp] theorem State.setRouter_inbox (k off : Nat) (v : BitVec 32) : (s.setRouter k off v).inbox = s.inbox := rfl
@[simp] theorem State.setRouter_plan (k off : Nat) (v : BitVec 32) : (s.setRouter k off v).plan = s.plan := rfl
@[simp] theorem State.setRouter_freeCtr (k off : Nat) (v : BitVec 32) : (s.setRouter k off v).freeCtr = s.freeCtr := rfl

/-! ## onPDie -/

@[simp] theorem State.onPDie_cx (p : Nat) (f : PDie → PDie) : (s.onPDie p f).cx = s.cx := rfl
@[simp] theorem State.onPDie_cur (p : Nat) (f : PDie → PDie) : (s.onPDie p f).cur = s.cur := rfl
@[simp] theorem State.onPDie_banks (p : Nat) (f : PDie → PDie) : (s.onPDie p f).banks = s.banks := rfl
@[simp] theorem State.onPDie_cycle (p : Nat) (f : PDie → PDie) : (s.onPDie p f).cycle = s.cycle := rfl
@[simp] theorem State.onPDie_mem (p : Nat) (f : PDie → PDie) : (s.onPDie p f).mem = s.mem := rfl
@[simp] theorem State.onPDie_fe (p : Nat) (f : PDie → PDie) : (s.onPDie p f).fe = s.fe := rfl
@[simp] theorem State.onPDie_poison (p : Nat) (f : PDie → PDie) : (s.onPDie p f).poison = s.poison := rfl
@[simp] theorem State.onPDie_cores (p : Nat) (f : PDie → PDie) : (s.onPDie p f).cores = s.cores := rfl
@[simp] theorem State.onPDie_dies (p : Nat) (f : PDie → PDie) : (s.onPDie p f).dies = s.dies := rfl
@[simp] theorem State.onPDie_counters (p : Nat) (f : PDie → PDie) : (s.onPDie p f).counters = s.counters := rfl
@[simp] theorem State.onPDie_launches (p : Nat) (f : PDie → PDie) : (s.onPDie p f).launches = s.launches := rfl
@[simp] theorem State.onPDie_lastLaunch (p : Nat) (f : PDie → PDie) : (s.onPDie p f).lastLaunch = s.lastLaunch := rfl
@[simp] theorem State.onPDie_tenants (p : Nat) (f : PDie → PDie) : (s.onPDie p f).tenants = s.tenants := rfl
@[simp] theorem State.onPDie_groups (p : Nat) (f : PDie → PDie) : (s.onPDie p f).groups = s.groups := rfl
@[simp] theorem State.onPDie_lastGroup (p : Nat) (f : PDie → PDie) : (s.onPDie p f).lastGroup = s.lastGroup := rfl
@[simp] theorem State.onPDie_net (p : Nat) (f : PDie → PDie) : (s.onPDie p f).net = s.net := rfl
@[simp] theorem State.onPDie_lastId (p : Nat) (f : PDie → PDie) : (s.onPDie p f).lastId = s.lastId := rfl
@[simp] theorem State.onPDie_migrations (p : Nat) (f : PDie → PDie) : (s.onPDie p f).migrations = s.migrations := rfl
@[simp] theorem State.onPDie_traps (p : Nat) (f : PDie → PDie) : (s.onPDie p f).traps = s.traps := rfl
@[simp] theorem State.onPDie_fetching (p : Nat) (f : PDie → PDie) : (s.onPDie p f).fetching = s.fetching := rfl
@[simp] theorem State.onPDie_hbm (p : Nat) (f : PDie → PDie) : (s.onPDie p f).hbm = s.hbm := rfl
@[simp] theorem State.onPDie_fab (p : Nat) (f : PDie → PDie) : (s.onPDie p f).fab = s.fab := rfl
@[simp] theorem State.onPDie_rcv (p : Nat) (f : PDie → PDie) : (s.onPDie p f).rcv = s.rcv := rfl
@[simp] theorem State.onPDie_host (p : Nat) (f : PDie → PDie) : (s.onPDie p f).host = s.host := rfl
@[simp] theorem State.onPDie_pkg (p : Nat) (f : PDie → PDie) : (s.onPDie p f).pkg = { s.pkg with pdies := SMap.alter {} s.pkg.pdies p f } := rfl
@[simp] theorem State.onPDie_outbox (p : Nat) (f : PDie → PDie) : (s.onPDie p f).outbox = s.outbox := rfl
@[simp] theorem State.onPDie_under (p : Nat) (f : PDie → PDie) : (s.onPDie p f).under = s.under := rfl
@[simp] theorem State.onPDie_inbox (p : Nat) (f : PDie → PDie) : (s.onPDie p f).inbox = s.inbox := rfl
@[simp] theorem State.onPDie_plan (p : Nat) (f : PDie → PDie) : (s.onPDie p f).plan = s.plan := rfl
@[simp] theorem State.onPDie_freeCtr (p : Nat) (f : PDie → PDie) : (s.onPDie p f).freeCtr = s.freeCtr := rfl

/-! ## putRaw -/

@[simp] theorem State.putRaw_cx (loc : Nat) (b : List Byte) : (s.putRaw loc b).cx = s.cx := rfl
@[simp] theorem State.putRaw_cur (loc : Nat) (b : List Byte) : (s.putRaw loc b).cur = s.cur := rfl
@[simp] theorem State.putRaw_banks (loc : Nat) (b : List Byte) : (s.putRaw loc b).banks = s.banks := rfl
@[simp] theorem State.putRaw_cycle (loc : Nat) (b : List Byte) : (s.putRaw loc b).cycle = s.cycle := rfl
@[simp] theorem State.putRaw_mem (loc : Nat) (b : List Byte) : (s.putRaw loc b).mem = writeMem s.mem loc b := rfl
@[simp] theorem State.putRaw_fe (loc : Nat) (b : List Byte) : (s.putRaw loc b).fe = s.fe := rfl
@[simp] theorem State.putRaw_poison (loc : Nat) (b : List Byte) : (s.putRaw loc b).poison = s.poison := rfl
@[simp] theorem State.putRaw_cores (loc : Nat) (b : List Byte) : (s.putRaw loc b).cores = s.cores := rfl
@[simp] theorem State.putRaw_dies (loc : Nat) (b : List Byte) : (s.putRaw loc b).dies = s.dies := rfl
@[simp] theorem State.putRaw_counters (loc : Nat) (b : List Byte) : (s.putRaw loc b).counters = s.counters := rfl
@[simp] theorem State.putRaw_launches (loc : Nat) (b : List Byte) : (s.putRaw loc b).launches = s.launches := rfl
@[simp] theorem State.putRaw_lastLaunch (loc : Nat) (b : List Byte) : (s.putRaw loc b).lastLaunch = s.lastLaunch := rfl
@[simp] theorem State.putRaw_tenants (loc : Nat) (b : List Byte) : (s.putRaw loc b).tenants = s.tenants := rfl
@[simp] theorem State.putRaw_groups (loc : Nat) (b : List Byte) : (s.putRaw loc b).groups = s.groups := rfl
@[simp] theorem State.putRaw_lastGroup (loc : Nat) (b : List Byte) : (s.putRaw loc b).lastGroup = s.lastGroup := rfl
@[simp] theorem State.putRaw_net (loc : Nat) (b : List Byte) : (s.putRaw loc b).net = s.net := rfl
@[simp] theorem State.putRaw_lastId (loc : Nat) (b : List Byte) : (s.putRaw loc b).lastId = s.lastId := rfl
@[simp] theorem State.putRaw_migrations (loc : Nat) (b : List Byte) : (s.putRaw loc b).migrations = s.migrations := rfl
@[simp] theorem State.putRaw_traps (loc : Nat) (b : List Byte) : (s.putRaw loc b).traps = s.traps := rfl
@[simp] theorem State.putRaw_fetching (loc : Nat) (b : List Byte) : (s.putRaw loc b).fetching = s.fetching := rfl
@[simp] theorem State.putRaw_hbm (loc : Nat) (b : List Byte) : (s.putRaw loc b).hbm = s.hbm := rfl
@[simp] theorem State.putRaw_fab (loc : Nat) (b : List Byte) : (s.putRaw loc b).fab = s.fab := rfl
@[simp] theorem State.putRaw_rcv (loc : Nat) (b : List Byte) : (s.putRaw loc b).rcv = s.rcv := rfl
@[simp] theorem State.putRaw_host (loc : Nat) (b : List Byte) : (s.putRaw loc b).host = s.host := rfl
@[simp] theorem State.putRaw_pkg (loc : Nat) (b : List Byte) : (s.putRaw loc b).pkg = s.pkg := rfl
@[simp] theorem State.putRaw_outbox (loc : Nat) (b : List Byte) : (s.putRaw loc b).outbox = s.outbox := rfl
@[simp] theorem State.putRaw_under (loc : Nat) (b : List Byte) : (s.putRaw loc b).under = s.under := rfl
@[simp] theorem State.putRaw_inbox (loc : Nat) (b : List Byte) : (s.putRaw loc b).inbox = s.inbox := rfl
@[simp] theorem State.putRaw_plan (loc : Nat) (b : List Byte) : (s.putRaw loc b).plan = s.plan := rfl
@[simp] theorem State.putRaw_freeCtr (loc : Nat) (b : List Byte) : (s.putRaw loc b).freeCtr = s.freeCtr := rfl

/-! ## dropUnder -/

@[simp] theorem State.dropUnder_cx (c : Nat) : (s.dropUnder c).cx = s.cx := rfl
@[simp] theorem State.dropUnder_cur (c : Nat) : (s.dropUnder c).cur = s.cur := rfl
@[simp] theorem State.dropUnder_banks (c : Nat) : (s.dropUnder c).banks = s.banks := rfl
@[simp] theorem State.dropUnder_cycle (c : Nat) : (s.dropUnder c).cycle = s.cycle := rfl
@[simp] theorem State.dropUnder_mem (c : Nat) : (s.dropUnder c).mem = s.mem := rfl
@[simp] theorem State.dropUnder_fe (c : Nat) : (s.dropUnder c).fe = s.fe := rfl
@[simp] theorem State.dropUnder_poison (c : Nat) : (s.dropUnder c).poison = s.poison := rfl
@[simp] theorem State.dropUnder_cores (c : Nat) : (s.dropUnder c).cores = s.cores := rfl
@[simp] theorem State.dropUnder_dies (c : Nat) : (s.dropUnder c).dies = s.dies := rfl
@[simp] theorem State.dropUnder_counters (c : Nat) : (s.dropUnder c).counters = s.counters := rfl
@[simp] theorem State.dropUnder_launches (c : Nat) : (s.dropUnder c).launches = s.launches := rfl
@[simp] theorem State.dropUnder_lastLaunch (c : Nat) : (s.dropUnder c).lastLaunch = s.lastLaunch := rfl
@[simp] theorem State.dropUnder_tenants (c : Nat) : (s.dropUnder c).tenants = s.tenants := rfl
@[simp] theorem State.dropUnder_groups (c : Nat) : (s.dropUnder c).groups = s.groups := rfl
@[simp] theorem State.dropUnder_lastGroup (c : Nat) : (s.dropUnder c).lastGroup = s.lastGroup := rfl
@[simp] theorem State.dropUnder_net (c : Nat) : (s.dropUnder c).net = s.net := rfl
@[simp] theorem State.dropUnder_lastId (c : Nat) : (s.dropUnder c).lastId = s.lastId := rfl
@[simp] theorem State.dropUnder_migrations (c : Nat) : (s.dropUnder c).migrations = s.migrations := rfl
@[simp] theorem State.dropUnder_traps (c : Nat) : (s.dropUnder c).traps = s.traps := rfl
@[simp] theorem State.dropUnder_fetching (c : Nat) : (s.dropUnder c).fetching = s.fetching := rfl
@[simp] theorem State.dropUnder_hbm (c : Nat) : (s.dropUnder c).hbm = s.hbm := rfl
@[simp] theorem State.dropUnder_fab (c : Nat) : (s.dropUnder c).fab = s.fab := rfl
@[simp] theorem State.dropUnder_rcv (c : Nat) : (s.dropUnder c).rcv = s.rcv := rfl
@[simp] theorem State.dropUnder_host (c : Nat) : (s.dropUnder c).host = s.host := rfl
@[simp] theorem State.dropUnder_pkg (c : Nat) : (s.dropUnder c).pkg = s.pkg := rfl
@[simp] theorem State.dropUnder_outbox (c : Nat) : (s.dropUnder c).outbox = s.outbox := rfl
@[simp] theorem State.dropUnder_under (c : Nat) : (s.dropUnder c).under = SMap.drop s.under c := rfl
@[simp] theorem State.dropUnder_inbox (c : Nat) : (s.dropUnder c).inbox = s.inbox := rfl
@[simp] theorem State.dropUnder_plan (c : Nat) : (s.dropUnder c).plan = s.plan := rfl
@[simp] theorem State.dropUnder_freeCtr (c : Nat) : (s.dropUnder c).freeCtr = s.freeCtr := rfl

/-! ## keepUnder -/

@[simp] theorem State.keepUnder_cx (c : Nat) : (s.keepUnder c).cx = s.cx := by unfold State.keepUnder; split <;> rfl
@[simp] theorem State.keepUnder_cur (c : Nat) : (s.keepUnder c).cur = s.cur := by unfold State.keepUnder; split <;> rfl
@[simp] theorem State.keepUnder_banks (c : Nat) : (s.keepUnder c).banks = s.banks := by unfold State.keepUnder; split <;> rfl
@[simp] theorem State.keepUnder_cycle (c : Nat) : (s.keepUnder c).cycle = s.cycle := by unfold State.keepUnder; split <;> rfl
@[simp] theorem State.keepUnder_mem (c : Nat) : (s.keepUnder c).mem = s.mem := by unfold State.keepUnder; split <;> rfl
@[simp] theorem State.keepUnder_fe (c : Nat) : (s.keepUnder c).fe = s.fe := by unfold State.keepUnder; split <;> rfl
@[simp] theorem State.keepUnder_poison (c : Nat) : (s.keepUnder c).poison = s.poison := by unfold State.keepUnder; split <;> rfl
@[simp] theorem State.keepUnder_cores (c : Nat) : (s.keepUnder c).cores = s.cores := by unfold State.keepUnder; split <;> rfl
@[simp] theorem State.keepUnder_dies (c : Nat) : (s.keepUnder c).dies = s.dies := by unfold State.keepUnder; split <;> rfl
@[simp] theorem State.keepUnder_counters (c : Nat) : (s.keepUnder c).counters = s.counters := by unfold State.keepUnder; split <;> rfl
@[simp] theorem State.keepUnder_launches (c : Nat) : (s.keepUnder c).launches = s.launches := by unfold State.keepUnder; split <;> rfl
@[simp] theorem State.keepUnder_lastLaunch (c : Nat) : (s.keepUnder c).lastLaunch = s.lastLaunch := by unfold State.keepUnder; split <;> rfl
@[simp] theorem State.keepUnder_tenants (c : Nat) : (s.keepUnder c).tenants = s.tenants := by unfold State.keepUnder; split <;> rfl
@[simp] theorem State.keepUnder_groups (c : Nat) : (s.keepUnder c).groups = s.groups := by unfold State.keepUnder; split <;> rfl
@[simp] theorem State.keepUnder_lastGroup (c : Nat) : (s.keepUnder c).lastGroup = s.lastGroup := by unfold State.keepUnder; split <;> rfl
@[simp] theorem State.keepUnder_net (c : Nat) : (s.keepUnder c).net = s.net := by unfold State.keepUnder; split <;> rfl
@[simp] theorem State.keepUnder_lastId (c : Nat) : (s.keepUnder c).lastId = s.lastId := by unfold State.keepUnder; split <;> rfl
@[simp] theorem State.keepUnder_migrations (c : Nat) : (s.keepUnder c).migrations = s.migrations := by unfold State.keepUnder; split <;> rfl
@[simp] theorem State.keepUnder_traps (c : Nat) : (s.keepUnder c).traps = s.traps := by unfold State.keepUnder; split <;> rfl
@[simp] theorem State.keepUnder_fetching (c : Nat) : (s.keepUnder c).fetching = s.fetching := by unfold State.keepUnder; split <;> rfl
@[simp] theorem State.keepUnder_hbm (c : Nat) : (s.keepUnder c).hbm = s.hbm := by unfold State.keepUnder; split <;> rfl
@[simp] theorem State.keepUnder_fab (c : Nat) : (s.keepUnder c).fab = s.fab := by unfold State.keepUnder; split <;> rfl
@[simp] theorem State.keepUnder_rcv (c : Nat) : (s.keepUnder c).rcv = s.rcv := by unfold State.keepUnder; split <;> rfl
@[simp] theorem State.keepUnder_host (c : Nat) : (s.keepUnder c).host = s.host := by unfold State.keepUnder; split <;> rfl
@[simp] theorem State.keepUnder_pkg (c : Nat) : (s.keepUnder c).pkg = s.pkg := by unfold State.keepUnder; split <;> rfl
@[simp] theorem State.keepUnder_outbox (c : Nat) : (s.keepUnder c).outbox = s.outbox := by unfold State.keepUnder; split <;> rfl
@[simp] theorem State.keepUnder_inbox (c : Nat) : (s.keepUnder c).inbox = s.inbox := by unfold State.keepUnder; split <;> rfl
@[simp] theorem State.keepUnder_plan (c : Nat) : (s.keepUnder c).plan = s.plan := by unfold State.keepUnder; split <;> rfl
@[simp] theorem State.keepUnder_freeCtr (c : Nat) : (s.keepUnder c).freeCtr = s.freeCtr := by unfold State.keepUnder; split <;> rfl

/-! ## setL2 -/

@[simp] theorem State.setL2_cx (d : Nat) (f : List L2Line → List L2Line) : (s.setL2 d f).cx = s.cx := rfl
@[simp] theorem State.setL2_cur (d : Nat) (f : List L2Line → List L2Line) : (s.setL2 d f).cur = s.cur := rfl
@[simp] theorem State.setL2_banks (d : Nat) (f : List L2Line → List L2Line) : (s.setL2 d f).banks = s.banks := rfl
@[simp] theorem State.setL2_cycle (d : Nat) (f : List L2Line → List L2Line) : (s.setL2 d f).cycle = s.cycle := rfl
@[simp] theorem State.setL2_mem (d : Nat) (f : List L2Line → List L2Line) : (s.setL2 d f).mem = s.mem := rfl
@[simp] theorem State.setL2_fe (d : Nat) (f : List L2Line → List L2Line) : (s.setL2 d f).fe = s.fe := rfl
@[simp] theorem State.setL2_poison (d : Nat) (f : List L2Line → List L2Line) : (s.setL2 d f).poison = s.poison := rfl
@[simp] theorem State.setL2_cores (d : Nat) (f : List L2Line → List L2Line) : (s.setL2 d f).cores = s.cores := rfl
@[simp] theorem State.setL2_dies (d : Nat) (f : List L2Line → List L2Line) : (s.setL2 d f).dies = SMap.alter {} s.dies d (fun x => { x with l2 := f x.l2 }) := rfl
@[simp] theorem State.setL2_counters (d : Nat) (f : List L2Line → List L2Line) : (s.setL2 d f).counters = s.counters := rfl
@[simp] theorem State.setL2_launches (d : Nat) (f : List L2Line → List L2Line) : (s.setL2 d f).launches = s.launches := rfl
@[simp] theorem State.setL2_lastLaunch (d : Nat) (f : List L2Line → List L2Line) : (s.setL2 d f).lastLaunch = s.lastLaunch := rfl
@[simp] theorem State.setL2_tenants (d : Nat) (f : List L2Line → List L2Line) : (s.setL2 d f).tenants = s.tenants := rfl
@[simp] theorem State.setL2_groups (d : Nat) (f : List L2Line → List L2Line) : (s.setL2 d f).groups = s.groups := rfl
@[simp] theorem State.setL2_lastGroup (d : Nat) (f : List L2Line → List L2Line) : (s.setL2 d f).lastGroup = s.lastGroup := rfl
@[simp] theorem State.setL2_net (d : Nat) (f : List L2Line → List L2Line) : (s.setL2 d f).net = s.net := rfl
@[simp] theorem State.setL2_lastId (d : Nat) (f : List L2Line → List L2Line) : (s.setL2 d f).lastId = s.lastId := rfl
@[simp] theorem State.setL2_migrations (d : Nat) (f : List L2Line → List L2Line) : (s.setL2 d f).migrations = s.migrations := rfl
@[simp] theorem State.setL2_traps (d : Nat) (f : List L2Line → List L2Line) : (s.setL2 d f).traps = s.traps := rfl
@[simp] theorem State.setL2_fetching (d : Nat) (f : List L2Line → List L2Line) : (s.setL2 d f).fetching = s.fetching := rfl
@[simp] theorem State.setL2_hbm (d : Nat) (f : List L2Line → List L2Line) : (s.setL2 d f).hbm = s.hbm := rfl
@[simp] theorem State.setL2_fab (d : Nat) (f : List L2Line → List L2Line) : (s.setL2 d f).fab = s.fab := rfl
@[simp] theorem State.setL2_rcv (d : Nat) (f : List L2Line → List L2Line) : (s.setL2 d f).rcv = s.rcv := rfl
@[simp] theorem State.setL2_host (d : Nat) (f : List L2Line → List L2Line) : (s.setL2 d f).host = s.host := rfl
@[simp] theorem State.setL2_pkg (d : Nat) (f : List L2Line → List L2Line) : (s.setL2 d f).pkg = s.pkg := rfl
@[simp] theorem State.setL2_outbox (d : Nat) (f : List L2Line → List L2Line) : (s.setL2 d f).outbox = s.outbox := rfl
@[simp] theorem State.setL2_under (d : Nat) (f : List L2Line → List L2Line) : (s.setL2 d f).under = s.under := rfl
@[simp] theorem State.setL2_inbox (d : Nat) (f : List L2Line → List L2Line) : (s.setL2 d f).inbox = s.inbox := rfl
@[simp] theorem State.setL2_plan (d : Nat) (f : List L2Line → List L2Line) : (s.setL2 d f).plan = s.plan := rfl
@[simp] theorem State.setL2_freeCtr (d : Nat) (f : List L2Line → List L2Line) : (s.setL2 d f).freeCtr = s.freeCtr := rfl

/-! ## setCount -/

@[simp] theorem State.setCount_cx (c : UnitCount) : (s.setCount c).cx = s.cx := rfl
@[simp] theorem State.setCount_cur (c : UnitCount) : (s.setCount c).cur = s.cur := rfl
@[simp] theorem State.setCount_banks (c : UnitCount) : (s.setCount c).banks = s.banks := rfl
@[simp] theorem State.setCount_cycle (c : UnitCount) : (s.setCount c).cycle = s.cycle := rfl
@[simp] theorem State.setCount_mem (c : UnitCount) : (s.setCount c).mem = s.mem := rfl
@[simp] theorem State.setCount_fe (c : UnitCount) : (s.setCount c).fe = s.fe := rfl
@[simp] theorem State.setCount_poison (c : UnitCount) : (s.setCount c).poison = s.poison := rfl
@[simp] theorem State.setCount_cores (c : UnitCount) : (s.setCount c).cores = s.cores := rfl
@[simp] theorem State.setCount_dies (c : UnitCount) : (s.setCount c).dies = s.dies := rfl
@[simp] theorem State.setCount_counters (c : UnitCount) : (s.setCount c).counters = s.counters := rfl
@[simp] theorem State.setCount_launches (c : UnitCount) : (s.setCount c).launches = s.launches := rfl
@[simp] theorem State.setCount_lastLaunch (c : UnitCount) : (s.setCount c).lastLaunch = s.lastLaunch := rfl
@[simp] theorem State.setCount_tenants (c : UnitCount) : (s.setCount c).tenants = s.tenants := rfl
@[simp] theorem State.setCount_groups (c : UnitCount) : (s.setCount c).groups = s.groups := rfl
@[simp] theorem State.setCount_lastGroup (c : UnitCount) : (s.setCount c).lastGroup = s.lastGroup := rfl
@[simp] theorem State.setCount_net (c : UnitCount) : (s.setCount c).net = s.net := rfl
@[simp] theorem State.setCount_lastId (c : UnitCount) : (s.setCount c).lastId = s.lastId := rfl
@[simp] theorem State.setCount_migrations (c : UnitCount) : (s.setCount c).migrations = s.migrations := rfl
@[simp] theorem State.setCount_traps (c : UnitCount) : (s.setCount c).traps = s.traps := rfl
@[simp] theorem State.setCount_fetching (c : UnitCount) : (s.setCount c).fetching = s.fetching := rfl
@[simp] theorem State.setCount_hbm (c : UnitCount) : (s.setCount c).hbm = s.hbm := rfl
@[simp] theorem State.setCount_fab (c : UnitCount) : (s.setCount c).fab = s.fab := rfl
@[simp] theorem State.setCount_host (c : UnitCount) : (s.setCount c).host = s.host := rfl
@[simp] theorem State.setCount_pkg (c : UnitCount) : (s.setCount c).pkg = s.pkg := rfl
@[simp] theorem State.setCount_outbox (c : UnitCount) : (s.setCount c).outbox = s.outbox := rfl
@[simp] theorem State.setCount_under (c : UnitCount) : (s.setCount c).under = s.under := rfl
@[simp] theorem State.setCount_inbox (c : UnitCount) : (s.setCount c).inbox = s.inbox := rfl
@[simp] theorem State.setCount_plan (c : UnitCount) : (s.setCount c).plan = s.plan := rfl
@[simp] theorem State.setCount_freeCtr (c : UnitCount) : (s.setCount c).freeCtr = s.freeCtr := rfl

/-! ## dropPending -/

@[simp] theorem State.dropPending_cx (key : Nat) : (s.dropPending key).cx = s.cx := rfl
@[simp] theorem State.dropPending_cur (key : Nat) : (s.dropPending key).cur = s.cur := rfl
@[simp] theorem State.dropPending_banks (key : Nat) : (s.dropPending key).banks = s.banks := rfl
@[simp] theorem State.dropPending_cycle (key : Nat) : (s.dropPending key).cycle = s.cycle := rfl
@[simp] theorem State.dropPending_mem (key : Nat) : (s.dropPending key).mem = s.mem := rfl
@[simp] theorem State.dropPending_fe (key : Nat) : (s.dropPending key).fe = s.fe := rfl
@[simp] theorem State.dropPending_poison (key : Nat) : (s.dropPending key).poison = s.poison := rfl
@[simp] theorem State.dropPending_cores (key : Nat) : (s.dropPending key).cores = s.cores := rfl
@[simp] theorem State.dropPending_dies (key : Nat) : (s.dropPending key).dies = s.dies := rfl
@[simp] theorem State.dropPending_counters (key : Nat) : (s.dropPending key).counters = s.counters := rfl
@[simp] theorem State.dropPending_launches (key : Nat) : (s.dropPending key).launches = s.launches := rfl
@[simp] theorem State.dropPending_lastLaunch (key : Nat) : (s.dropPending key).lastLaunch = s.lastLaunch := rfl
@[simp] theorem State.dropPending_tenants (key : Nat) : (s.dropPending key).tenants = s.tenants := rfl
@[simp] theorem State.dropPending_groups (key : Nat) : (s.dropPending key).groups = s.groups := rfl
@[simp] theorem State.dropPending_lastGroup (key : Nat) : (s.dropPending key).lastGroup = s.lastGroup := rfl
@[simp] theorem State.dropPending_net (key : Nat) : (s.dropPending key).net = s.net := rfl
@[simp] theorem State.dropPending_lastId (key : Nat) : (s.dropPending key).lastId = s.lastId := rfl
@[simp] theorem State.dropPending_migrations (key : Nat) : (s.dropPending key).migrations = s.migrations := rfl
@[simp] theorem State.dropPending_traps (key : Nat) : (s.dropPending key).traps = s.traps := rfl
@[simp] theorem State.dropPending_fetching (key : Nat) : (s.dropPending key).fetching = s.fetching := rfl
@[simp] theorem State.dropPending_hbm (key : Nat) : (s.dropPending key).hbm = s.hbm := rfl
@[simp] theorem State.dropPending_rcv (key : Nat) : (s.dropPending key).rcv = s.rcv := rfl
@[simp] theorem State.dropPending_host (key : Nat) : (s.dropPending key).host = s.host := rfl
@[simp] theorem State.dropPending_pkg (key : Nat) : (s.dropPending key).pkg = s.pkg := rfl
@[simp] theorem State.dropPending_outbox (key : Nat) : (s.dropPending key).outbox = s.outbox := rfl
@[simp] theorem State.dropPending_under (key : Nat) : (s.dropPending key).under = s.under := rfl
@[simp] theorem State.dropPending_inbox (key : Nat) : (s.dropPending key).inbox = s.inbox := rfl
@[simp] theorem State.dropPending_plan (key : Nat) : (s.dropPending key).plan = s.plan := rfl
@[simp] theorem State.dropPending_freeCtr (key : Nat) : (s.dropPending key).freeCtr = s.freeCtr := rfl

/-! ## endWait -/

@[simp] theorem State.endWait_cx (i : Instr) : (s.endWait i).cx = s.cx := rfl
@[simp] theorem State.endWait_cur (i : Instr) : (s.endWait i).cur = s.cur := rfl
@[simp] theorem State.endWait_banks (i : Instr) : (s.endWait i).banks = s.banks := rfl
@[simp] theorem State.endWait_cycle (i : Instr) : (s.endWait i).cycle = s.cycle := rfl
@[simp] theorem State.endWait_mem (i : Instr) : (s.endWait i).mem = s.mem := rfl
@[simp] theorem State.endWait_fe (i : Instr) : (s.endWait i).fe = s.fe := rfl
@[simp] theorem State.endWait_poison (i : Instr) : (s.endWait i).poison = s.poison := rfl
@[simp] theorem State.endWait_cores (i : Instr) : (s.endWait i).cores = s.cores := rfl
@[simp] theorem State.endWait_dies (i : Instr) : (s.endWait i).dies = s.dies := rfl
@[simp] theorem State.endWait_counters (i : Instr) : (s.endWait i).counters = s.counters := rfl
@[simp] theorem State.endWait_launches (i : Instr) : (s.endWait i).launches = s.launches := rfl
@[simp] theorem State.endWait_lastLaunch (i : Instr) : (s.endWait i).lastLaunch = s.lastLaunch := rfl
@[simp] theorem State.endWait_tenants (i : Instr) : (s.endWait i).tenants = s.tenants := rfl
@[simp] theorem State.endWait_groups (i : Instr) : (s.endWait i).groups = s.groups := rfl
@[simp] theorem State.endWait_lastGroup (i : Instr) : (s.endWait i).lastGroup = s.lastGroup := rfl
@[simp] theorem State.endWait_net (i : Instr) : (s.endWait i).net = s.net := rfl
@[simp] theorem State.endWait_lastId (i : Instr) : (s.endWait i).lastId = s.lastId := rfl
@[simp] theorem State.endWait_migrations (i : Instr) : (s.endWait i).migrations = s.migrations := rfl
@[simp] theorem State.endWait_traps (i : Instr) : (s.endWait i).traps = s.traps := rfl
@[simp] theorem State.endWait_fetching (i : Instr) : (s.endWait i).fetching = s.fetching := rfl
@[simp] theorem State.endWait_hbm (i : Instr) : (s.endWait i).hbm = s.hbm := rfl
@[simp] theorem State.endWait_fab (i : Instr) : (s.endWait i).fab = { s.fab with waiting := s.fab.waiting.erase i } := rfl
@[simp] theorem State.endWait_rcv (i : Instr) : (s.endWait i).rcv = s.rcv := rfl
@[simp] theorem State.endWait_host (i : Instr) : (s.endWait i).host = s.host := rfl
@[simp] theorem State.endWait_pkg (i : Instr) : (s.endWait i).pkg = s.pkg := rfl
@[simp] theorem State.endWait_outbox (i : Instr) : (s.endWait i).outbox = s.outbox := rfl
@[simp] theorem State.endWait_under (i : Instr) : (s.endWait i).under = s.under := rfl
@[simp] theorem State.endWait_inbox (i : Instr) : (s.endWait i).inbox = s.inbox := rfl
@[simp] theorem State.endWait_plan (i : Instr) : (s.endWait i).plan = s.plan := rfl
@[simp] theorem State.endWait_freeCtr (i : Instr) : (s.endWait i).freeCtr = s.freeCtr := rfl

/-! ## onSession -/

@[simp] theorem State.onSession_cx (sid : Nat) (f : Session → Session) : (s.onSession sid f).cx = s.cx := by unfold State.onSession; split <;> rfl
@[simp] theorem State.onSession_cur (sid : Nat) (f : Session → Session) : (s.onSession sid f).cur = s.cur := by unfold State.onSession; split <;> rfl
@[simp] theorem State.onSession_banks (sid : Nat) (f : Session → Session) : (s.onSession sid f).banks = s.banks := by unfold State.onSession; split <;> rfl
@[simp] theorem State.onSession_cycle (sid : Nat) (f : Session → Session) : (s.onSession sid f).cycle = s.cycle := by unfold State.onSession; split <;> rfl
@[simp] theorem State.onSession_mem (sid : Nat) (f : Session → Session) : (s.onSession sid f).mem = s.mem := by unfold State.onSession; split <;> rfl
@[simp] theorem State.onSession_fe (sid : Nat) (f : Session → Session) : (s.onSession sid f).fe = s.fe := by unfold State.onSession; split <;> rfl
@[simp] theorem State.onSession_poison (sid : Nat) (f : Session → Session) : (s.onSession sid f).poison = s.poison := by unfold State.onSession; split <;> rfl
@[simp] theorem State.onSession_cores (sid : Nat) (f : Session → Session) : (s.onSession sid f).cores = s.cores := by unfold State.onSession; split <;> rfl
@[simp] theorem State.onSession_dies (sid : Nat) (f : Session → Session) : (s.onSession sid f).dies = s.dies := by unfold State.onSession; split <;> rfl
@[simp] theorem State.onSession_counters (sid : Nat) (f : Session → Session) : (s.onSession sid f).counters = s.counters := by unfold State.onSession; split <;> rfl
@[simp] theorem State.onSession_launches (sid : Nat) (f : Session → Session) : (s.onSession sid f).launches = s.launches := by unfold State.onSession; split <;> rfl
@[simp] theorem State.onSession_lastLaunch (sid : Nat) (f : Session → Session) : (s.onSession sid f).lastLaunch = s.lastLaunch := by unfold State.onSession; split <;> rfl
@[simp] theorem State.onSession_tenants (sid : Nat) (f : Session → Session) : (s.onSession sid f).tenants = s.tenants := by unfold State.onSession; split <;> rfl
@[simp] theorem State.onSession_groups (sid : Nat) (f : Session → Session) : (s.onSession sid f).groups = s.groups := by unfold State.onSession; split <;> rfl
@[simp] theorem State.onSession_lastGroup (sid : Nat) (f : Session → Session) : (s.onSession sid f).lastGroup = s.lastGroup := by unfold State.onSession; split <;> rfl
@[simp] theorem State.onSession_net (sid : Nat) (f : Session → Session) : (s.onSession sid f).net = s.net := by unfold State.onSession; split <;> rfl
@[simp] theorem State.onSession_lastId (sid : Nat) (f : Session → Session) : (s.onSession sid f).lastId = s.lastId := by unfold State.onSession; split <;> rfl
@[simp] theorem State.onSession_migrations (sid : Nat) (f : Session → Session) : (s.onSession sid f).migrations = s.migrations := by unfold State.onSession; split <;> rfl
@[simp] theorem State.onSession_traps (sid : Nat) (f : Session → Session) : (s.onSession sid f).traps = s.traps := by unfold State.onSession; split <;> rfl
@[simp] theorem State.onSession_fetching (sid : Nat) (f : Session → Session) : (s.onSession sid f).fetching = s.fetching := by unfold State.onSession; split <;> rfl
@[simp] theorem State.onSession_hbm (sid : Nat) (f : Session → Session) : (s.onSession sid f).hbm = s.hbm := by unfold State.onSession; split <;> rfl
@[simp] theorem State.onSession_fab (sid : Nat) (f : Session → Session) : (s.onSession sid f).fab = s.fab := by unfold State.onSession; split <;> rfl
@[simp] theorem State.onSession_rcv (sid : Nat) (f : Session → Session) : (s.onSession sid f).rcv = s.rcv := by unfold State.onSession; split <;> rfl
@[simp] theorem State.onSession_pkg (sid : Nat) (f : Session → Session) : (s.onSession sid f).pkg = s.pkg := by unfold State.onSession; split <;> rfl
@[simp] theorem State.onSession_outbox (sid : Nat) (f : Session → Session) : (s.onSession sid f).outbox = s.outbox := by unfold State.onSession; split <;> rfl
@[simp] theorem State.onSession_under (sid : Nat) (f : Session → Session) : (s.onSession sid f).under = s.under := by unfold State.onSession; split <;> rfl
@[simp] theorem State.onSession_inbox (sid : Nat) (f : Session → Session) : (s.onSession sid f).inbox = s.inbox := by unfold State.onSession; split <;> rfl
@[simp] theorem State.onSession_plan (sid : Nat) (f : Session → Session) : (s.onSession sid f).plan = s.plan := by unfold State.onSession; split <;> rfl
@[simp] theorem State.onSession_freeCtr (sid : Nat) (f : Session → Session) : (s.onSession sid f).freeCtr = s.freeCtr := by unfold State.onSession; split <;> rfl

end Sys2Proof.Machine
end

