-- ==== Sys2Proof/Machine/AsmText.lean ====
section
/-! DEFINITION. dmas, the assembler of Damros, at the level of a line: tokens, register names, expressions and floating-point literals
(R262, R287, R288, R291). -/

namespace Sys2Proof.Machine

/-- Why dmas refuses a source line. -/
inductive AsmErr where
  /-- A character or number that no token of R287 and R291 begins with or continues. -/
  | token
  /-- No mnemonic, directive or key of that name, or a suffix that the instruction does not accept (R290). -/
  | mnemonic
  /-- Operands that are not in the form of Table 10.11. -/
  | operand
  /-- A symbol that is a register name, is defined twice, is not defined, or is defined by itself (R287, R292). -/
  | symbol
  /-- A value outside the range of its field, or an expression without a value (R291, R292, R301). -/
  | value
  /-- A hint chain that R277 makes trap, or a hint that no instruction follows (R289). -/
  | hint
  /-- A block or section that is not opened, closed or filled as R293 to R298 ask. -/
  | block
  /-- The addresses of the labels do not settle. -/
  | layout
deriving DecidableEq, Repr, Inhabited

/-! ## Tokens (R287, R291) -/

/-- A token of a line. -/
inductive Tok where
  /-- A symbol, mnemonic, directive or register name. -/
  | sym (s : List Char)
  /-- An integer; whether it was written in hexadecimal. -/
  | int (n : Nat) (hex : Bool)
  /-- A decimal number with a fraction or exponent: m times 10^e. -/
  | dec (m : Nat) (e : Int)
  /-- An operator or mark. -/
  | op (c : Char)
  /-- A shift to the left or right. -/
  | shift (left : Bool)
deriving DecidableEq, Repr, Inhabited

/-- A first character of a symbol (R287). -/
def symStart (c : Char) : Bool := c.isAlpha || c == '_' || c == '.'

/-- A further character of a symbol (R287). -/
def symChar (c : Char) : Bool := symStart c || c.isDigit

/-- The value of a digit. -/
def digitVal (c : Char) : Nat :=
  if c.isDigit then c.toNat - 48 else if 97 ≤ c.toNat then c.toNat - 87 else c.toNat - 55

/-- A digit of a radix. -/
def digitOf (radix : Nat) (c : Char) : Bool :=
  (c.isDigit || (decide ('a' ≤ c) && decide (c ≤ 'f')) || (decide ('A' ≤ c) && decide (c ≤ 'F'))) && decide (digitVal c < radix)

/-- Whether every underscore stands between digits (R291). -/
def underscoresOk : List Char → Bool
  | [] => false
  | [c] => c != '_'
  | a :: b :: l => a != '_' && (if b == '_' then (match l with | c :: r => c != '_' && underscoresOk (c :: r) | [] => false) else underscoresOk (b :: l))

/-- The number that digits with underscores write. -/
def numOf (radix : Nat) (l : List Char) : Nat := l.foldl (fun n c => if c == '_' then n else radix * n + digitVal c) 0

/-- Digits of a radix and underscores at the head of a line, and the rest. -/
def takeDigits (radix : Nat) (l : List Char) : List Char × List Char :=
  (l.takeWhile (fun c => digitOf radix c || c == '_'), l.dropWhile (fun c => digitOf radix c || c == '_'))

/-- The exponent of a decimal number, if one follows. -/
def lexExponent (l : List Char) : Option (Int × List Char) :=
  match l with
  | c :: r =>
    if c == 'e' || c == 'E' then
      let sr : Bool × List Char := match r with
        | '-' :: t => (true, t)
        | '+' :: t => (false, t)
        | t => (false, t)
      let d := takeDigits 10 sr.2
      if d.1 = [] || d.1.contains '_' then none else some (if sr.1 then -(numOf 10 d.1 : Int) else (numOf 10 d.1 : Int), d.2)
    else none
  | [] => none

/-- The number at the head of a line (R291). -/
def lexNumber (l : List Char) : Option (Tok × List Char) :=
  let whole (radix : Nat) (hex : Bool) (r : List Char) : Option (Tok × List Char) :=
    let d := takeDigits radix r
    if underscoresOk d.1 then some (.int (numOf radix d.1) hex, d.2) else none
  let out : Option (Tok × List Char) := match l with
    | '0' :: 'x' :: r => whole 16 true r
    | '0' :: 'X' :: r => whole 16 true r
    | '0' :: 'b' :: r => whole 2 false r
    | '0' :: 'B' :: r => whole 2 false r
    | _ =>
      let d := takeDigits 10 l
      if !underscoresOk d.1 then none
      else
        let fr : List Char × List Char := match d.2 with
          | '.' :: r => if (takeDigits 10 r).1.contains '_' then ([], d.2) else takeDigits 10 r
          | _ => ([], d.2)
        match lexExponent fr.2 with
        | some (e, r) => some (.dec (numOf 10 (d.1 ++ fr.1)) (e - fr.1.length), r)
        | none => if fr.1 = [] then some (.int (numOf 10 d.1) false, d.2) else some (.dec (numOf 10 (d.1 ++ fr.1)) (-(fr.1.length : Int)), fr.2)
  match out with
  | some (t, c :: r) => if symChar c then none else some (t, c :: r)
  | o => o

/-- The marks that stand for themselves. -/
def marks : List Char := ['(', ')', '[', ']', ',', ':', '=', '+', '-', '*', '/', '%', '&', '|', '^', '~', '#']

/-- The tokens of a line up to its comment (R287); the first argument bounds their number. -/
def lexLine : Nat → List Char → Except AsmErr (List Tok)
  | _, [] => .ok []
  | 0, _ => .error .token
  | k + 1, c :: l =>
    if c == ' ' || c == '\t' || c == '\r' then lexLine k l
    else if c == ';' || (c == '/' && l.head? == some '/') then .ok []
    else if c.isDigit then
      match lexNumber (c :: l) with
      | none => .error .token
      | some (t, r) => (lexLine k r).map (t :: ·)
    else if symStart c then (lexLine k (l.dropWhile symChar)).map (.sym (c :: l.takeWhile symChar) :: ·)
    else if c == '<' && l.head? == some '<' then (lexLine k l.tail).map (.shift true :: ·)
    else if c == '>' && l.head? == some '>' then (lexLine k l.tail).map (.shift false :: ·)
    else if marks.contains c then (lexLine k l).map (.op c :: ·)
    else .error .token

/-- The lines of a source. -/
def asmLines (l : List Char) : List (List Char) :=
  l.foldr (fun c acc => if c == '\n' then [] :: acc else match acc with | [] => [[c]] | x :: r => (c :: x) :: r) [[]]

/-- A name without regard to case, as a string (R287). -/
def lowName (s : List Char) : String := String.ofList (s.map Char.toLower)

/-! ## Registers (R262, R288, Table 10.1) -/

/-- A register number 0 to 31 in decimal. -/
def regDigits (l : List Char) : Option RegNo :=
  if l ≠ [] && l.all Char.isDigit && (l.length = 1 || l.head? != some '0') && decide (numOf 10 l < 32) then some (BitVec.ofNat 5 (numOf 10 l)) else none

/-- A scalar register by its name or ABI name (Table 10.1). -/
def scalarNo (s : List Char) : Option RegNo :=
  match s.map Char.toLower with
  | ['l', 'k'] => some 1
  | ['s', 'p'] => some 2
  | ['g', 'p'] => some 3
  | 's' :: l => regDigits l
  | ['a', c] => if decide ('0' ≤ c) && decide (c ≤ '7') then some (BitVec.ofNat 5 (4 + digitVal c)) else none
  | _ => none

/-- A vector register by its name. -/
def vectorNo (s : List Char) : Option RegNo :=
  match s.map Char.toLower with
  | 'v' :: l => regDigits l
  | _ => none

/-- Whether a name may be a symbol: it is no register or ABI name (R287). -/
def symbolOk (s : List Char) : Bool := (scalarNo s).isNone && (vectorNo s).isNone

/-! ## Expressions (R291) -/

/-- The binary operators. -/
inductive BinOp where
  | or | xor | and | shl | shr | add | sub | mul | div | rem
deriving DecidableEq, Repr, Inhabited

/-- An expression. -/
inductive Ex where
  | num (w : Word)
  | name (s : List Char)
  | neg (e : Ex)
  | inv (e : Ex)
  | bin (o : BinOp) (a b : Ex)
deriving Repr, Inhabited

/-- A binary operator with its precedence, the loosest 0: the usual order, as in C. -/
def Tok.binary : Tok → Option (Nat × BinOp)
  | .op '|' => some (0, .or)
  | .op '^' => some (1, .xor)
  | .op '&' => some (2, .and)
  | .shift true => some (3, .shl)
  | .shift false => some (3, .shr)
  | .op '+' => some (4, .add)
  | .op '-' => some (4, .sub)
  | .op '*' => some (5, .mul)
  | .op '/' => some (5, .div)
  | .op '%' => some (5, .rem)
  | _ => none

mutual
/-- An expression of operators at or above a precedence; the first argument bounds the depth. -/
def parseAt : Nat → Nat → List Tok → Option (Ex × List Tok)
  | 0, _, _ => none
  | k + 1, lvl, l =>
    if 6 ≤ lvl then parseUnary k l
    else match parseAt k (lvl + 1) l with
      | none => none
      | some (e, r) => parseMore k lvl e r
/-- Further operands at one precedence, from left to right. -/
def parseMore : Nat → Nat → Ex → List Tok → Option (Ex × List Tok)
  | 0, _, _, _ => none
  | _ + 1, _, e, [] => some (e, [])
  | k + 1, lvl, e, t :: l =>
    match t.binary with
    | some (p, o) =>
      if p = lvl then
        match parseAt k (lvl + 1) l with
        | none => none
        | some (f, r) => parseMore k lvl (.bin o e f) r
      else some (e, t :: l)
    | none => some (e, t :: l)
/-- A number, a symbol, an expression in parentheses, or one under a unary operator. -/
def parseUnary : Nat → List Tok → Option (Ex × List Tok)
  | 0, _ => none
  | _ + 1, [] => none
  | k + 1, t :: l =>
    match t with
    | .int n _ => some (.num (BitVec.ofNat 64 n), l)
    | .sym s => some (.name s, l)
    | .op '-' => (parseUnary k l).map (fun r => (.neg r.1, r.2))
    | .op '~' => (parseUnary k l).map (fun r => (.inv r.1, r.2))
    | .op '(' =>
      match parseAt k 0 l with
      | some (e, .op ')' :: r) => some (e, r)
      | _ => none
    | _ => none
end

/-- The expression that a whole list of tokens is. -/
def expr (l : List Tok) : Except AsmErr Ex :=
  match parseAt (12 * l.length + 12) 0 l with
  | some (e, []) => .ok e
  | _ => .error .operand

/-- A binary operator on 64-bit two's complement; none for a division by zero or a shift outside 0 to 63 (R291). -/
def BinOp.run (o : BinOp) (a b : Word) : Option Word :=
  match o with
  | .or => some (a ||| b)
  | .xor => some (a ^^^ b)
  | .and => some (a &&& b)
  | .shl => if b.toNat < 64 then some (a <<< b.toNat) else none
  | .shr => if b.toNat < 64 then some (a.sshiftRight b.toNat) else none
  | .add => some (a + b)
  | .sub => some (a - b)
  | .mul => some (a * b)
  | .div => if b = 0#64 then none else some (divS 64 a b)
  | .rem => if b = 0#64 then none else some (remS 64 a b)

/-- The value of an expression with the values of its symbols (R291). -/
def Ex.eval (env : List Char → Except AsmErr Word) : Ex → Except AsmErr Word
  | .num w => .ok w
  | .name s => env s
  | .neg e => (e.eval env).map (fun x => -x)
  | .inv e => (e.eval env).map (fun x => ~~~x)
  | .bin o a b =>
    match a.eval env, b.eval env with
    | .ok x, .ok y => match o.run x y with
      | some z => .ok z
      | none => .error .value
    | .error x, _ => .error x
    | _, .error y => .error y

/-- The value of a symbol: a label's, or that of the expression an .equ gives it; a chain longer than the bound is a cycle (R292). -/
def symbolValue (labels : List (List Char × Word)) (equs : List (List Char × Ex)) : Nat → List Char → Except AsmErr Word
  | 0, _ => .error .symbol
  | k + 1, s =>
    match labels.lookup s with
    | some w => .ok w
    | none => match equs.lookup s with
      | some e => e.eval (symbolValue labels equs k)
      | none => .error .symbol

/-! ## Floating-point literals (R291) -/

/-- The formats of the floating-point directives. -/
inductive FpDir where
  | f32 | b16 | n8
deriving DecidableEq, Repr, Inhabited

/-- Bytes of a value. -/
def FpDir.size : FpDir → Nat
  | .f32 => 4
  | .b16 => 2
  | .n8 => 1

/-- The code of m times 10^e, rounded once to nearest; none where it would be an infinity or set OF (R252, R291). -/
def FpDir.ofDec (f : FpDir) (neg : Bool) (m : Nat) (e : Int) : Option Nat :=
  let q : Nat × Int := if 0 ≤ e then (m * 10 ^ e.toNat, 0) else stickyDiv m (10 ^ (-e).toNat)
  let r : FRes := match f with
    | .f32 => fp32.round .rne false neg q.1 q.2
    | .b16 => bf16.round .rne false neg q.1 q.2
    | .n8 => n8e4.round .rne neg q.1 q.2
  if r.2 &&& fOF ≠ 0#5 then none else some r.1

/-- The code of a literal (R291). -/
def FpDir.lit (f : FpDir) (l : List Tok) : Except AsmErr Nat :=
  let fmt : Fmt := if f = .b16 then bf16 else fp32
  let inf (neg : Bool) : Except AsmErr Nat := if f = .n8 then .error .value else .ok (fmt.sgn neg + fmt.inf)
  let num (neg : Bool) (m : Nat) (e : Int) : Except AsmErr Nat := match f.ofDec neg m e with
    | some c => .ok c
    | none => .error .value
  match l with
  | [.int n true] => if n < 2 ^ (8 * f.size) then .ok n else .error .value
  | [.int n false] => num false n 0
  | [.dec m e] => num false m e
  | [.op '-', .int n false] => num true n 0
  | [.op '-', .dec m e] => num true m e
  | [.sym s] =>
    if lowName s = "inf" then inf false
    else if lowName s = "nan" then .ok (if f = .n8 then 0x80 else fmt.nan) else .error .operand
  | [.op '-', .sym s] => if lowName s = "inf" then inf true else .error .operand
  | _ => .error .operand

end Sys2Proof.Machine
end

