-- ==== Sys2Proof/Machine/AsmForms.lean ====
section
/-! DEFINITION. dmas: what an instruction line assembles to, by the form of its mnemonic (R288 to R290, R299, R300, Tables 10.11 and 10.14,
and the forms that chapters 11 to 14 give). -/

namespace Sys2Proof.Machine

/-! ## What a line assembles to -/

/-- One statement's words, their values still expressions. -/
inductive Gen where
  /-- A word. -/
  | word (w : IWord)
  /-- A word with an unsigned constant in a range of numbers. -/
  | idx (lo hi : Nat) (f : Nat → IWord) (e : Ex)
  /-- A word with an immediate in its low bits, scaled, which an IMMX may widen (R274, R301). -/
  | imm (width scale : Nat) (w : IWord) (e : Ex)
  /-- A word with a distance in instructions to a label, less a number of bytes, in its low bits (R273, R317). -/
  | rel (width less : Nat) (w : IWord) (e : Ex)
  /-- LI (R300). -/
  | li (d : RegNo) (e : Ex)
  /-- A written IMMX (R289). -/
  | immx (e : Ex)
  /-- Another hint word. -/
  | hint (kind : BitVec 3) (p : BitVec 22)

/-- The form of a mnemonic's operands, with the encoding that takes them. -/
inductive Form where
  | bare (w : IWord)
  | ra (f : RegNo → IWord)
  | ab (f : RegNo → RegNo → IWord)
  | da (f : RegNo → RegNo → IWord)
  | dab (f : RegNo → RegNo → RegNo → IWord)
  | imm (f : RegNo → RegNo → BitVec 15 → IWord)
  | movi (f : RegNo → BitVec 15 → IWord)
  | shift (f : RegNo → RegNo → BitVec 6 → IWord)
  | fp3 (f : RegNo → RegNo → RegNo → BitVec 1 → IWord)
  | fp2 (f : RegNo → RegNo → BitVec 1 → IWord)
  | fcvt
  | br (f : RegNo → RegNo → BitVec 15 → IWord)
  | jal
  | jalr
  | loop
  | mem (size : Nat) (f : RegNo → RegNo → BitVec 2 → BitVec 13 → IWord)
  | ldro
  | memEm (f : RegNo → RegNo → BitVec 1 → BitVec 13 → IWord)
  | fence
  | atom (f : RegNo → RegNo → RegNo → BitVec 2 → BitVec 1 → IWord)
  | atom32 (f : RegNo → RegNo → RegNo → BitVec 2 → IWord)
  | amaxrst
  | ship
  | srRead
  | srWrite (f : RegNo → BitVec 12 → IWord)
  | vsetl
  | vsetli
  | vmem (f : RegNo → RegNo → BitVec 1 → BitVec 2 → BitVec 2 → IWord)
  | vmems (f : RegNo → RegNo → RegNo → BitVec 1 → BitVec 2 → BitVec 2 → IWord)
  | vmemx (f : RegNo → RegNo → RegNo → BitVec 1 → BitVec 2 → BitVec 2 → IWord)
  | vv (f g : RegNo → RegNo → RegNo → BitVec 1 → IWord)
  | vvu (f g : RegNo → RegNo → RegNo → BitVec 1 → BitVec 1 → IWord)
  | vvv (f : RegNo → RegNo → RegNo → BitVec 1 → IWord)
  | vvvu (f : RegNo → RegNo → RegNo → BitVec 1 → BitVec 1 → IWord)
  | vvs (f : RegNo → RegNo → RegNo → BitVec 1 → IWord)
  | v2 (f : RegNo → RegNo → BitVec 1 → IWord)
  | v3 (f : RegNo → RegNo → RegNo → IWord)
  | vmerge
  | vmv
  | vext
  | vid
  | vmvxs
  | vmvsx
  | vmnot
  | vpop (f : RegNo → RegNo → BitVec 1 → IWord)
  | vcvt
  | mshape
  | mx (f : RegNo → RegNo → RegNo → BitVec 5 → IWord)
  | mzero
  | mstat
  | sel (n : Nat) (f : RegNo → RegNo → IWord)
  | qstat
  | dpres
  | immx
  | hcache
  | hsched
  | hmod
  | hnop

/-! ## Operands -/

/-- A scalar register. -/
def sreg : List Tok → Option RegNo
  | [.sym s] => scalarNo s
  | _ => none

/-- A vector register. -/
def vreg : List Tok → Option RegNo
  | [.sym s] => vectorNo s
  | _ => none

/-- A keyword without regard to case. -/
def keyword : List Tok → Option String
  | [.sym s] => some (lowName s)
  | _ => none

/-- (a): an address register (Table 10.11). -/
def addrReg : List Tok → Option RegNo
  | [.op '(', .sym s, .op ')'] => scalarNo s
  | _ => none

/-- off(a): an offset and an address register (Table 10.11). -/
def offReg (l : List Tok) : Option (Ex × RegNo) :=
  match l.reverse with
  | .op ')' :: .sym s :: .op '(' :: r =>
    match expr r.reverse, scalarNo s with
    | .ok e, some a => some (e, a)
    | _, _ => none
  | _ => none

/-- Operands at the commas outside parentheses and brackets. -/
def splitOps (l : List Tok) : List (List Tok) :=
  if l = [] then []
  else
    let r := l.foldl (fun (acc : List (List Tok) × List Tok × Nat) t =>
      match t with
      | .op ',' => if acc.2.2 = 0 then (acc.1 ++ [acc.2.1], [], 0) else (acc.1, acc.2.1 ++ [t], acc.2.2)
      | .op '(' => (acc.1, acc.2.1 ++ [t], acc.2.2 + 1)
      | .op '[' => (acc.1, acc.2.1 ++ [t], acc.2.2 + 1)
      | .op ')' => (acc.1, acc.2.1 ++ [t], acc.2.2 - 1)
      | .op ']' => (acc.1, acc.2.1 ++ [t], acc.2.2 - 1)
      | _ => (acc.1, acc.2.1 ++ [t], acc.2.2)) ([], [], 0)
    r.1 ++ [r.2.1]

/-- The operands without a final vm, and the mask bit (R290). -/
def takeVm (ops : List (List Tok)) : List (List Tok) × BitVec 1 :=
  match ops.getLast? with
  | some o => if keyword o = some "vm" then (ops.dropLast, 1#1) else (ops, 0#1)
  | none => (ops, 0#1)

/-- A mnemonic at its dots: its name and its suffixes, in lower case (R287, R290). -/
def splitDots (l : List Char) : List String :=
  (l.foldr (fun c (acc : List (List Char)) => if c == '.' then [] :: acc else match acc with | [] => [[c]] | x :: r => (c :: x) :: r) [[]]).map lowName

/-- The wait suffix (R290). -/
def waitOf : List String → Option (BitVec 2)
  | [] => some 0#2
  | ["wd"] => some 1#2
  | ["wx"] => some 2#2
  | ["wa"] => some 3#2
  | _ => none

/-- The position of a name in a list. -/
def nth (l : List String) (s : String) : Option Nat := l.findIdx? (· == s)

/-- The format suffix of scalar floating point (R311). -/
def fmtSuffix : List String → Option (BitVec 1)
  | ["f32"] => some 0#1
  | ["bf16"] => some 1#1
  | _ => none

/-- The suffix of unsigned forms. -/
def uSuffix : List String → Option (BitVec 1)
  | [] => some 0#1
  | ["u"] => some 1#1
  | _ => none

/-- The element width and wait suffixes of vector memory instructions (R290). -/
def ewSuffix : List String → Option (BitVec 2 × BitVec 2)
  | e :: l => match nth ["e8", "e16", "e32", "e64"] e, waitOf l with
    | some n, some w => some (BitVec.ofNat 2 n, w)
    | _, _ => none
  | [] => none

/-- The code of a conversion by its type names (Table 11.4). -/
def cvtCode (dst src : String) : Option Nat :=
  let ints := ["s32", "s64", "z32", "z64"]
  let narrow := ["n8e4", "n8e5", "n4e2", "t2"]
  let from_ (base : Nat) (l : List String) (s : String) : Option Nat := (nth l s).map (base + ·)
  match dst, src with
  | "bf16", "f32" => some 0x10
  | "f32", "bf16" => some 0x11
  | "s8", "f32" => some 0x1E
  | "f32", "s8" => some 0x1F
  | "f32", s => from_ 0 ints s <|> from_ 0x16 narrow s
  | "bf16", s => from_ 4 ints s <|> from_ 0x1A narrow s
  | d, "f32" => from_ 8 ints d <|> from_ 0x12 narrow d
  | d, "bf16" => from_ 0xC ints d
  | _, _ => none

/-- Whether a conversion takes a scale register (Table 11.4). -/
def cvtScaled (c : Nat) : Bool := decide (0x12 ≤ c) && decide (c ≤ 0x1D)

/-- A conversion's code and the scale register given, if any. -/
def cvtOps (suf : List String) (sc : Option RegNo) : Option (BitVec 5 × RegNo) :=
  match suf with
  | [t, f] => match cvtCode t f with
    | some c => if sc.isSome && !cvtScaled c then none else some (BitVec.ofNat 5 c, sc.getD 0)
    | none => none
  | _ => none

/-- The special registers by name, but for sr.vclock (Table 10.3). -/
def srNames : List (String × BitVec 12) :=
  [("sr.status", 0x000), ("sr.cause", 0x001), ("sr.tval", 0x002), ("sr.epc", 0x003), ("sr.tenant", 0x004), ("sr.heapbase", 0x010),
   ("sr.heaplim", 0x011), ("sr.heapoff", 0x012), ("sr.task", 0x020), ("sr.dom", 0x021), ("sr.cycle", 0x030), ("sr.engretry", 0x031),
   ("sr.lend", 0x040), ("sr.hstat", 0x041), ("vl", 0x080), ("vtype", 0x081), ("vstart", 0x082), ("lc0", 0x083), ("lc1", 0x084),
   ("pend.d", 0x085), ("pend.x", 0x086)]

/-- An instruction of the SYS group on the special register that an operand names (R288, R329). -/
def srGen (f : BitVec 12 → IWord) (o : List Tok) : Option Gen :=
  match o with
  | [.sym s] => (srNames.lookup (lowName s)).map (fun i => .word (f i))
  | .sym s :: .op '[' :: l =>
    match l.getLast?, expr l.dropLast with
    | some (.op ']'), .ok e => if lowName s = "sr.vclock" then some (.idx 0 32 (fun j => f (BitVec.ofNat 12 (0x100 + j))) e) else none
    | _, _ => none
  | _ => none

/-- The configuration that VSETL and VSETLI name: ma, ta, lmul, sew (R290, Table 10.6). -/
def vconf (ops : List (List Tok)) : Option (BitVec 1 × BitVec 1 × BitVec 3 × BitVec 3) :=
  match ops with
  | e :: m :: r => do
    let s ← nth ["e8", "e16", "e32", "e64"] (← keyword e)
    let l ← nth ["m1", "m2", "m4", "m8"] (← keyword m)
    match r.map keyword with
    | [] => some (0#1, 0#1, BitVec.ofNat 3 l, BitVec.ofNat 3 s)
    | [some "ta"] => some (0#1, 1#1, BitVec.ofNat 3 l, BitVec.ofNat 3 s)
    | [some "ma"] => some (1#1, 0#1, BitVec.ofNat 3 l, BitVec.ofNat 3 s)
    | [some "ta", some "ma"] => some (1#1, 1#1, BitVec.ofNat 3 l, BitVec.ofNat 3 s)
    | _ => none
  | _ => none

/-- One operand of HMOD: its bit or field in the payload (R289, Table 10.7). -/
def hmodOp : List Tok → Option (Nat × Nat)
  | [.sym s] => if lowName s = "sat" then some (0x08, 0x08) else none
  | [.sym s, .op '=', .sym v] =>
    if lowName s = "rm" then (nth ["rne", "rtz", "rdn", "rup"] (lowName v)).map (fun n => (0x07, 4 + n))
    else if lowName s = "ord" then (nth ["asc", "desc"] (lowName v)).map (fun n => (0x30, 16 * (n + 1))) else none
  | _ => none

/-- The payload of an HMOD; a field named twice is refused (R289). -/
def hmodPayload : List (List Tok) → Option Nat
  | [] => some 0
  | o :: l => do
    let a ← hmodOp o
    let r ← hmodPayload l
    if r &&& a.1 = 0 && !(l.any (fun x => (hmodOp x).map (·.1) == some a.1)) then some (r ||| a.2) else none

/-- A word with a number as an expression's value. -/
def exprOf (l : List Tok) : Option Ex := (expr l).toOption

/-! ## Forms -/

/-- A two-register vector form whose third operand chooses the vector or the scalar encoding (R351). -/
def vvGen (f g : RegNo → RegNo → RegNo → IWord) (vd a x : List Tok) : Option Gen := do
  let d ← vreg vd
  let s ← vreg a
  match vreg x, sreg x with
  | some b, _ => some (.word (f d s b))
  | _, some b => some (.word (g d s b))
  | _, _ => none

/-- What an instruction line assembles to: its form, its suffixes and its operands (Table 10.11, R290). -/
def Form.gen (m : Form) (suf : List String) (ops : List (List Tok)) : Option Gen :=
  let noSuf : Bool := suf.isEmpty
  let vm := takeVm ops
  match m, ops with
  | .bare w, [] => if noSuf then some (.word w) else none
  | .ra f, [a] => do if noSuf then some (.word (f (← sreg a))) else none
  | .ab f, [a, b] => do if noSuf then some (.word (f (← sreg a) (← sreg b))) else none
  | .da f, [d, a] => do if noSuf then some (.word (f (← sreg d) (← sreg a))) else none
  | .dab f, [d, a, b] => do if noSuf then some (.word (f (← sreg d) (← sreg a) (← sreg b))) else none
  | .imm f, [d, a, e] => do if noSuf then some (.imm 15 1 (f (← sreg d) (← sreg a) 0#15) (← exprOf e)) else none
  | .movi f, [d, e] => do if noSuf then some (.imm 15 1 (f (← sreg d) 0#15) (← exprOf e)) else none
  | .shift f, [d, a, e] => do
    let x ← sreg d
    let y ← sreg a
    if noSuf then some (.idx 0 64 (fun n => f x y (BitVec.ofNat 6 n)) (← exprOf e)) else none
  | .fp3 f, [d, a, b] => do some (.word (f (← sreg d) (← sreg a) (← sreg b) (← fmtSuffix suf)))
  | .fp2 f, [d, a] => do some (.word (f (← sreg d) (← sreg a) (← fmtSuffix suf)))
  | .fcvt, [d, a] => do
    let c ← cvtOps suf none
    some (.word (Enc.fcvt (← sreg d) (← sreg a) c.1 c.2))
  | .fcvt, [d, a, x] => do
    let c ← cvtOps suf (some (← sreg x))
    some (.word (Enc.fcvt (← sreg d) (← sreg a) c.1 c.2))
  | .br f, [a, b, t] => do if noSuf then some (.rel 15 0 (f (← sreg a) (← sreg b) 0#15) (← exprOf t)) else none
  | .jal, [d, t] => do if noSuf then some (.rel 20 0 (Enc.jal (← sreg d) 0#20) (← exprOf t)) else none
  | .jalr, [d, o] => do
    let q ← offReg o
    if noSuf then some (.imm 15 1 (Enc.jalr (← sreg d) q.2 0#15) q.1) else none
  | .loop, [n, a, t] => do
    let k ← nth ["lc0", "lc1"] (← keyword n)
    if noSuf then some (.rel 15 4 (Enc.loop (BitVec.ofNat 1 k) (← sreg a) 0#15) (← exprOf t)) else none
  | .mem z f, [d, o] => do
    let q ← offReg o
    some (.imm 13 z (f (← sreg d) q.2 (← waitOf suf) 0#13) q.1)
  | .ldro, [d, o] => do
    let q ← offReg o
    if noSuf then some (.imm 13 8 (Enc.ldro (← sreg d) q.2 0#13) q.1) else none
  | .memEm f, [d, o] => do
    let q ← offReg o
    let e : BitVec 1 ← (match suf with | [] => some 0#1 | ["em"] => some 1#1 | _ => none)
    some (.imm 13 8 (f (← sreg d) q.2 e 0#13) q.1)
  | .fence, [e] => do if noSuf then some (.idx 1 8 (fun n => Enc.fence (BitVec.ofNat 3 n)) (← exprOf e)) else none
  | .atom f, [d, b, a] => do
    match suf with
    | z :: l => do
      let n ← nth ["32", "64"] z
      some (.word (f (← sreg d) (← addrReg a) (← sreg b) (← waitOf l) (BitVec.ofNat 1 n)))
    | [] => none
  | .atom32 f, [d, b, a] => do
    match suf with
    | "32" :: l => some (.word (f (← sreg d) (← addrReg a) (← sreg b) (← waitOf l)))
    | _ => none
  | .amaxrst, [d, b, a] => do
    match suf with
    | "32" :: l => if (← sreg b) = 0#5 then some (.word (Enc.amaxrst (← sreg d) (← addrReg a) (← waitOf l))) else none
    | _ => none
  | .amaxrst, [d, a] => do
    match suf with
    | "32" :: l => some (.word (Enc.amaxrst (← sreg d) (← addrReg a) (← waitOf l)))
    | _ => none
  | .ship, [d, a, b, e] => do
    let x ← sreg d
    let y ← addrReg a
    let z ← sreg b
    if noSuf then some (.idx 0 1024 (fun n => Enc.ship x y z (BitVec.ofNat 10 n)) (← exprOf e)) else none
  | .srRead, [d, r] => do
    let x ← sreg d
    if noSuf then srGen (fun i => Enc.srrd x i) r else none
  | .srWrite f, [r, d] => do
    let x ← sreg d
    if noSuf then srGen (fun i => f x i) r else none
  | .vsetl, d :: a :: r => do
    let c ← vconf r
    if noSuf then some (.word (Enc.vsetl (← sreg d) (← sreg a) c.1 c.2.1 c.2.2.1 c.2.2.2)) else none
  | .vsetli, d :: e :: r => do
    let c ← vconf r
    let x ← sreg d
    if noSuf then some (.idx 0 32 (fun n => Enc.vsetli x (BitVec.ofNat 5 n) c.1 c.2.1 c.2.2.1 c.2.2.2) (← exprOf e)) else none
  | .vmem f, _ => do
    let e ← ewSuffix suf
    match vm.1 with
    | [d, a] => some (.word (f (← vreg d) (← addrReg a) vm.2 e.2 e.1))
    | _ => none
  | .vmems f, _ => do
    let e ← ewSuffix suf
    match vm.1 with
    | [d, a, b] => some (.word (f (← vreg d) (← addrReg a) (← sreg b) vm.2 e.2 e.1))
    | _ => none
  | .vmemx f, _ => do
    let e ← ewSuffix suf
    match vm.1 with
    | [d, a, b] => some (.word (f (← vreg d) (← addrReg a) (← vreg b) vm.2 e.2 e.1))
    | _ => none
  | .vv f g, _ => match vm.1 with
    | [d, a, x] => if noSuf then vvGen (fun d a b => f d a b vm.2) (fun d a b => g d a b vm.2) d a x else none
    | _ => none
  | .vvu f g, _ => do
    let u ← uSuffix suf
    match vm.1 with
    | [d, a, x] => vvGen (fun d a b => f d a b vm.2 u) (fun d a b => g d a b vm.2 u) d a x
    | _ => none
  | .vvv f, _ => match vm.1 with
    | [d, a, b] => do if noSuf then some (.word (f (← vreg d) (← vreg a) (← vreg b) vm.2)) else none
    | _ => none
  | .vvvu f, _ => match vm.1 with
    | [d, a, b] => do some (.word (f (← vreg d) (← vreg a) (← vreg b) vm.2 (← uSuffix suf)))
    | _ => none
  | .vvs f, _ => match vm.1 with
    | [d, a, b] => do if noSuf then some (.word (f (← vreg d) (← vreg a) (← sreg b) vm.2)) else none
    | _ => none
  | .v2 f, _ => match vm.1 with
    | [d, a] => do if noSuf then some (.word (f (← vreg d) (← vreg a) vm.2)) else none
    | _ => none
  | .v3 f, [d, a, b] => do if noSuf then some (.word (f (← vreg d) (← vreg a) (← vreg b))) else none
  | .vmerge, _ => match vm.1 with
    | [d, a, x] => if noSuf && vm.2 == 1#1 then vvGen Enc.vmergeVv Enc.vmergeVx d a x else none
    | _ => none
  | .vmv, _ => match vm.1 with
    | [d, x] => do
      let r ← vreg d
      match vreg x, sreg x with
      | some a, _ => if noSuf then some (.word (Enc.vmvVv r a vm.2)) else none
      | _, some b => if noSuf then some (.word (Enc.vmvVx r b vm.2)) else none
      | _, _ => none
    | _ => none
  | .vext, _ => match vm.1, suf with
    | [d, a], x :: l => do
      let n ← nth ["x2", "x4", "x8"] x
      some (.word (Enc.vext (← vreg d) (← vreg a) vm.2 (BitVec.ofNat 2 (n + 1)) (← uSuffix l)))
    | _, _ => none
  | .vid, _ => match vm.1 with
    | [d] => do if noSuf then some (.word (Enc.vid (← vreg d) vm.2)) else none
    | _ => none
  | .vmvxs, [d, a] => do if noSuf then some (.word (Enc.vmvxs (← sreg d) (← vreg a))) else none
  | .vmvsx, [d, a] => do if noSuf then some (.word (Enc.vmvsx (← vreg d) (← sreg a))) else none
  | .vmnot, [d, a] => do if noSuf then some (.word (Enc.vmnot (← vreg d) (← vreg a))) else none
  | .vpop f, _ => match vm.1 with
    | [d, a] => do if noSuf then some (.word (f (← sreg d) (← vreg a) vm.2)) else none
    | _ => none
  | .vcvt, _ => match vm.1 with
    | [d, a] => do
      let c ← cvtOps suf none
      some (.word (Enc.vcvt (← vreg d) (← vreg a) c.2 vm.2 c.1))
    | [d, a, x] => do
      let c ← cvtOps suf (some (← sreg x))
      some (.word (Enc.vcvt (← vreg d) (← vreg a) c.2 vm.2 c.1))
    | _ => none
  | .mshape, [d, a, b] => match suf with
    | [x, y, o] => do
      let types := ["bf16", "n8e4", "n8e5", "n4e2", "t2", "i8"]
      let fa ← nth types x
      let fb ← nth types y
      let out ← nth ["f32", "bf16", "i32"] o
      some (.word (Enc.mshape (← sreg d) (← sreg a) (← sreg b) (BitVec.ofNat 2 out) (BitVec.ofNat 3 fb) (BitVec.ofNat 3 fa)))
    | _ => none
  | .mx f, [d, a, b, h] => do
    let r := [← sreg d, ← sreg a, ← sreg b, ← sreg h]
    if noSuf && !r.contains 0#5 then some (.word (f (← sreg d) (← sreg a) (← sreg b) (← sreg h))) else none
  | .mzero, [d, h] => do
    let r := [← sreg d, ← sreg h]
    if noSuf && !r.contains 0#5 then some (.word (Enc.mzero (← sreg d) (← sreg h))) else none
  | .mstat, [d] => do
    let c : BitVec 1 ← (match suf with | [] => some 0#1 | ["clr"] => some 1#1 | _ => none)
    some (.word (Enc.mstat (← sreg d) c))
  | .sel n f, [d, e] => do
    let x ← sreg d
    if noSuf then some (.idx 0 n (fun k => f x (BitVec.ofNat 5 k)) (← exprOf e)) else none
  | .qstat, [d, a, e] => do
    let x ← sreg d
    let y ← sreg a
    if noSuf then some (.idx 0 4 (fun k => Enc.qstat x y (BitVec.ofNat 5 k)) (← exprOf e)) else none
  | .dpres, [a, b] => match suf with
    | ["snap"] => do some (.word (Enc.dpresSnap (← sreg a) (← sreg b)))
    | ["hold"] => do some (.word (Enc.dpresHold (← sreg a) (← sreg b)))
    | _ => none
  | .immx, [e] => do if noSuf then some (.immx (← exprOf e)) else none
  | .hcache, [o] => do
    let n ← nth ["alloc", "stream", "noalloc", "keep"] (← keyword o)
    if noSuf then some (.hint 1#3 (BitVec.ofNat 22 n)) else none
  | .hsched, [] => if noSuf then some (.hint 2#3 0#22) else none
  | .hsched, [o] => if noSuf && keyword o == some "offer" then some (.hint 2#3 1#22) else none
  | .hmod, l => do if noSuf then some (.hint 3#3 (BitVec.ofNat 22 (← hmodPayload l))) else none
  | .hnop, [] => if noSuf then some (.hint 4#3 0#22) else none
  | _, _ => none

/-! ## Mnemonics -/

/-- Integer instructions (R305, R309). -/
def formsScalar : List (String × Form) :=
  [("add", .dab Enc.add), ("sub", .dab Enc.sub), ("and", .dab Enc.and), ("or", .dab Enc.or), ("xor", .dab Enc.xor),
   ("andn", .dab Enc.andn), ("sll", .dab Enc.sll), ("srl", .dab Enc.srl), ("sra", .dab Enc.sra), ("rol", .dab Enc.rol),
   ("ror", .dab Enc.ror), ("slt", .dab Enc.slt), ("sltu", .dab Enc.sltu), ("min", .dab Enc.min), ("max", .dab Enc.max),
   ("minu", .dab Enc.minu), ("maxu", .dab Enc.maxu), ("addw", .dab Enc.addw), ("subw", .dab Enc.subw), ("sllw", .dab Enc.sllw),
   ("srlw", .dab Enc.srlw), ("sraw", .dab Enc.sraw), ("mulw", .dab Enc.mulw), ("mul", .dab Enc.mul), ("mulh", .dab Enc.mulh),
   ("mulhu", .dab Enc.mulhu), ("mulhsu", .dab Enc.mulhsu), ("div", .dab Enc.div), ("divu", .dab Enc.divu), ("rem", .dab Enc.rem),
   ("remu", .dab Enc.remu), ("divw", .dab Enc.divw), ("divuw", .dab Enc.divuw), ("remw", .dab Enc.remw), ("remuw", .dab Enc.remuw),
   ("clz", .da Enc.clz), ("ctz", .da Enc.ctz), ("popc", .da Enc.popc), ("sextb", .da Enc.sextb), ("sexth", .da Enc.sexth),
   ("sextw", .da Enc.sextw), ("zextw", .da Enc.zextw), ("addi", .imm Enc.addi), ("andi", .imm Enc.andi), ("ori", .imm Enc.ori),
   ("xori", .imm Enc.xori), ("slti", .imm Enc.slti), ("sltiu", .imm Enc.sltiu), ("addiw", .imm Enc.addiw), ("movi", .movi Enc.movi),
   ("addpc", .movi Enc.addpc), ("slli", .shift Enc.slli), ("srli", .shift Enc.srli), ("srai", .shift Enc.srai), ("rori", .shift Enc.rori)]

/-- Scalar floating point (R311, R314). -/
def formsFloat : List (String × Form) :=
  [("fadd", .fp3 Enc.fadd), ("fsub", .fp3 Enc.fsub), ("fmul", .fp3 Enc.fmul), ("fdiv", .fp3 Enc.fdiv), ("fmin", .fp3 Enc.fmin),
   ("fmax", .fp3 Enc.fmax), ("feq", .fp3 Enc.feq), ("flt", .fp3 Enc.flt), ("fle", .fp3 Enc.fle), ("fmac", .fp3 Enc.fmac),
   ("fmsac", .fp3 Enc.fmsac), ("fsqrt", .fp2 Enc.fsqrt), ("fclass", .fp2 Enc.fclass), ("fabs", .fp2 Enc.fabs), ("fneg", .fp2 Enc.fneg),
   ("fcvt", .fcvt)]

/-- Branches, jumps and LOOP (R315 to R317). -/
def formsFlow : List (String × Form) :=
  [("beq", .br Enc.beq), ("bne", .br Enc.bne), ("blt", .br Enc.blt), ("bge", .br Enc.bge), ("bltu", .br Enc.bltu), ("bgeu", .br Enc.bgeu),
   ("jal", .jal), ("jalr", .jalr), ("loop", .loop)]

/-- Memory, MEMX, atomics and SHIP (R318 to R328). -/
def formsMem : List (String × Form) :=
  [("ldb", .mem 1 Enc.ldb), ("ldbu", .mem 1 Enc.ldbu), ("ldh", .mem 2 Enc.ldh), ("ldhu", .mem 2 Enc.ldhu), ("ldw", .mem 4 Enc.ldw),
   ("ldwu", .mem 4 Enc.ldwu), ("ldd", .mem 8 Enc.ldd), ("stb", .mem 1 Enc.stb), ("sth", .mem 2 Enc.sth), ("stw", .mem 4 Enc.stw),
   ("std", .mem 8 Enc.std), ("ldro", .ldro), ("ldf", .memEm Enc.ldf), ("stf", .memEm Enc.stf), ("fence", .fence), ("roinv", .ab Enc.roinv),
   ("cflush", .ab Enc.cflush), ("cinv", .ab Enc.cinv), ("mwarm", .ra Enc.mwarm), ("feset", .ra Enc.feset), ("feclr", .ra Enc.feclr),
   ("pref", .ra Enc.pref), ("mwait", .da Enc.mwait), ("fest", .da Enc.fest), ("aadd", .atom Enc.aadd), ("aand", .atom Enc.aand),
   ("aor", .atom Enc.aor), ("axor", .atom Enc.axor), ("amin", .atom Enc.amin), ("amax", .atom Enc.amax), ("aminu", .atom Enc.aminu),
   ("amaxu", .atom Enc.amaxu), ("aswap", .atom Enc.aswap), ("acas", .atom Enc.acas), ("afadd", .atom32 Enc.afadd),
   ("afmaxabs", .atom32 Enc.afmaxabs), ("amaxrst", .amaxrst), ("ship", .ship)]

/-- The SYS group (R329). -/
def formsSys : List (String × Form) :=
  [("trap", .ra Enc.trap), ("eret", .bare Enc.eret), ("srrd", .srRead), ("srwr", .srWrite Enc.srwr), ("srset", .srWrite Enc.srset),
   ("srclr", .srWrite Enc.srclr), ("halt", .bare Enc.halt), ("bkpt", .bare Enc.bkpt), ("ifence", .bare Enc.ifence), ("wfe", .bare Enc.wfe),
   ("tlbinv", .ab Enc.tlbinv), ("ctxres", .dab Enc.ctxres)]

/-- Vector configuration and memory (R342, R344). -/
def formsVmem : List (String × Form) :=
  [("vsetl", .vsetl), ("vsetli", .vsetli), ("vld", .vmem Enc.vld), ("vldff", .vmem Enc.vldff), ("vst", .vmem Enc.vst),
   ("vlds", .vmems Enc.vlds), ("vsts", .vmems Enc.vsts), ("vldx", .vmemx Enc.vldx), ("vstx", .vmemx Enc.vstx)]

/-- Vector integer (R351). -/
def formsVint : List (String × Form) :=
  [("vadd", .vv Enc.vaddVv Enc.vaddVx), ("vsub", .vv Enc.vsubVv Enc.vsubVx), ("vrsub", .vv Enc.vrsubVv Enc.vrsubVx),
   ("vmul", .vv Enc.vmulVv Enc.vmulVx), ("vmacc", .vv Enc.vmaccVv Enc.vmaccVx), ("vnmsac", .vv Enc.vnmsacVv Enc.vnmsacVx),
   ("vand", .vv Enc.vandVv Enc.vandVx), ("vor", .vv Enc.vorVv Enc.vorVx), ("vxor", .vv Enc.vxorVv Enc.vxorVx),
   ("vsll", .vv Enc.vsllVv Enc.vsllVx), ("vsrl", .vv Enc.vsrlVv Enc.vsrlVx), ("vsra", .vv Enc.vsraVv Enc.vsraVx),
   ("vmin", .vv Enc.vminVv Enc.vminVx), ("vmax", .vv Enc.vmaxVv Enc.vmaxVx), ("vminu", .vv Enc.vminuVv Enc.vminuVx),
   ("vmaxu", .vv Enc.vmaxuVv Enc.vmaxuVx), ("vseq", .vv Enc.vseqVv Enc.vseqVx), ("vsne", .vv Enc.vsneVv Enc.vsneVx),
   ("vslt", .vv Enc.vsltVv Enc.vsltVx), ("vsltu", .vv Enc.vsltuVv Enc.vsltuVx), ("vsle", .vv Enc.vsleVv Enc.vsleVx),
   ("vmulh", .vvu Enc.vmulhVv Enc.vmulhVx), ("vsadd", .vvu Enc.vsaddVv Enc.vsaddVx), ("vssub", .vvu Enc.vssubVv Enc.vssubVx),
   ("vnclip", .vvu Enc.vnclipVv Enc.vnclipVx), ("vwadd", .vvu Enc.vwaddVv Enc.vwaddVx), ("vwmul", .vvu Enc.vwmulVv Enc.vwmulVx),
   ("vmerge", .vmerge), ("vmv", .vmv), ("vext", .vext)]

/-- Vector floating point (R355). -/
def formsVfp : List (String × Form) :=
  [("vfadd", .vv Enc.vfaddVv Enc.vfaddVx), ("vfsub", .vv Enc.vfsubVv Enc.vfsubVx), ("vfmul", .vv Enc.vfmulVv Enc.vfmulVx),
   ("vfdiv", .vv Enc.vfdivVv Enc.vfdivVx), ("vfmin", .vv Enc.vfminVv Enc.vfminVx), ("vfmax", .vv Enc.vfmaxVv Enc.vfmaxVx),
   ("vfmacc", .vv Enc.vfmaccVv Enc.vfmaccVx), ("vfnmsac", .vv Enc.vfnmsacVv Enc.vfnmsacVx), ("vfeq", .vv Enc.vfeqVv Enc.vfeqVx),
   ("vflt", .vv Enc.vfltVv Enc.vfltVx), ("vfle", .vv Enc.vfleVv Enc.vfleVx), ("vfsgnj", .vv Enc.vfsgnjVv Enc.vfsgnjVx),
   ("vfsqrt", .v2 Enc.vfsqrt), ("vfabs", .v2 Enc.vfabs), ("vfneg", .v2 Enc.vfneg)]

/-- Reductions, and VGATH (R357, R361). -/
def formsVred : List (String × Form) :=
  [("vredsum", .vvv Enc.vredsum), ("vredand", .vvv Enc.vredand), ("vredor", .vvv Enc.vredor), ("vredxor", .vvv Enc.vredxor),
   ("vfredosum", .vvv Enc.vfredosum), ("vfredtsum", .vvv Enc.vfredtsum), ("vfredmax", .vvv Enc.vfredmax), ("vfredmin", .vvv Enc.vfredmin),
   ("vfamax", .vvv Enc.vfamax), ("vgath", .vvv Enc.vgath), ("vredmax", .vvvu Enc.vredmax), ("vredmin", .vvvu Enc.vredmin)]

/-- Permutations, masks and conversions (R361 to R363). -/
def formsVperm : List (String × Form) :=
  [("vslideup", .vvs Enc.vslideup), ("vslidedn", .vvs Enc.vslidedn), ("vslide1up", .vvs Enc.vslide1up), ("vslide1dn", .vvs Enc.vslide1dn),
   ("vcompress", .v3 Enc.vcompress), ("vmand", .v3 Enc.vmand), ("vmor", .v3 Enc.vmor), ("vmxor", .v3 Enc.vmxor),
   ("vmandn", .v3 Enc.vmandn), ("viota", .v2 Enc.viota), ("vmsbf", .v2 Enc.vmsbf), ("vid", .vid), ("vmvxs", .vmvxs), ("vmvsx", .vmvsx),
   ("vmnot", .vmnot), ("vpopc", .vpop Enc.vpopc), ("vfirst", .vpop Enc.vfirst), ("vcvt", .vcvt)]

/-- The matrix engine (R370 to R381). -/
def formsMx : List (String × Form) :=
  [("mshape", .mshape), ("mma", .mx Enc.mma), ("mmas", .mx Enc.mmas), ("mmat", .mx Enc.mmat), ("mzero", .mzero), ("mstat", .mstat)]

/-- Tasks, domains, harvest and weir (R392). -/
def formsTask : List (String × Form) :=
  [("spawn", .dab Enc.spawn), ("spawnc", .dab Enc.spawnc), ("cntinit", .dab Enc.cntinit), ("qwait", .dab Enc.qwait),
   ("qstart", .dab Enc.qstart), ("qresync", .dab Enc.qresync), ("twait", .bare Enc.twait), ("texit", .bare Enc.texit), ("yield", .bare Enc.yield),
   ("dend", .bare Enc.dend), ("cntdec", .ab Enc.cntdec), ("dchk", .ab Enc.dchk), ("lend", .ab Enc.lend), ("unlend", .ab Enc.unlend),
   ("cntwait", .ra Enc.cntwait), ("dabort", .ra Enc.dabort), ("launchd", .da Enc.launchd), ("dbegin", .da Enc.dbegin),
   ("qpost", .da Enc.qpost), ("tself", .sel 4 Enc.tself), ("dlevel", .sel 5 Enc.dlevel), ("hstat", .sel 6 Enc.hstat), ("qstat", .qstat),
   ("dpres", .dpres)]

/-- Hint words (R289). -/
def formsHint : List (String × Form) :=
  [("immx", .immx), ("hcache", .hcache), ("hsched", .hsched), ("hmod", .hmod), ("hnop", .hnop)]

/-- Every mnemonic with its form. -/
def asmForms : List (String × Form) :=
  formsScalar ++ formsFloat ++ formsFlow ++ formsMem ++ formsSys ++ formsVmem ++ formsVint ++ formsVfp ++ formsVred ++ formsVperm ++ formsMx ++ formsTask ++ formsHint

/-- The pseudo-instructions (R299, Table 10.14). -/
def pseudoGen (name : String) (ops : List (List Tok)) : Option Gen :=
  match name, ops with
  | "li", [d, e] => do some (.li (← sreg d) (← exprOf e))
  | "mv", [d, a] => do some (.word (Enc.or (← sreg d) (← sreg a) 0))
  | "nop", [] => some (.word (Enc.addi 0 0 0#15))
  | "j", [t] => do some (.rel 20 0 (Enc.jal 0 0#20) (← exprOf t))
  | "call", [t] => do some (.rel 20 0 (Enc.jal 1 0#20) (← exprOf t))
  | "ret", [] => some (.word (Enc.jalr 0 1 0#15))
  | "beqz", [a, t] => do some (.rel 15 0 (Enc.beq (← sreg a) 0 0#15) (← exprOf t))
  | "bnez", [a, t] => do some (.rel 15 0 (Enc.bne (← sreg a) 0 0#15) (← exprOf t))
  | _, _ => none

/-- What an instruction line assembles to (R288 to R290, R299). -/
def lineGen (mnem : List Char) (ops : List (List Tok)) : Except AsmErr Gen :=
  match splitDots mnem with
  | [] => .error .mnemonic
  | name :: suf =>
    match asmForms.lookup name with
    | some m => match m.gen suf ops with
      | some g => .ok g
      | none => .error .operand
    | none =>
      if ["li", "mv", "nop", "j", "call", "ret", "beqz", "bnez"].contains name && suf.isEmpty then
        match pseudoGen name ops with
        | some g => .ok g
        | none => .error .operand
      else .error .mnemonic

end Sys2Proof.Machine
end

