-- ==== Sys2Proof/Machine/Asm.lean ====
section
/-! DEFINITION. dmas, the assembler of Damros: statements, sections, blocks, and the passes that place the labels (R287, R289, R292 to R298,
R300, R301). -/

namespace Sys2Proof.Machine

/-! ## Statements -/

/-- A section (Table 10.12). -/
inductive Sec where
  | text | data | basin
deriving DecidableEq, Repr, Inhabited

/-- A block that emits a record (R295 to R298). -/
inductive BlockKind where
  | launch | template | group | steps
deriving DecidableEq, Repr, Inhabited

/-- A statement. -/
inductive AsmStmt where
  /-- A label on a line of its own, or before a statement that emits nothing. -/
  | label (s : List Char)
  /-- An instruction or pseudo-instruction line, with its label. -/
  | line (s : Option (List Char)) (g : Gen)
  /-- .text, .data or .basin. -/
  | sec (x : Sec)
  /-- .align. -/
  | align (e : Ex)
  /-- .byte, .half, .word or .dword. -/
  | ints (s : Option (List Char)) (size : Nat) (l : List Ex)
  /-- .f32, .bf16 or .n8e4, as codes. -/
  | codes (s : Option (List Char)) (size : Nat) (l : List Nat)
  /-- .space. -/
  | space (n fill : Ex)
  /-- .equ. -/
  | equ (s : List Char) (e : Ex)
  /-- .global. -/
  | global (s : List Char)
  /-- .task. -/
  | task (s : List Char)
  /-- .endtask. -/
  | endtask
  /-- A block: what stands after its directive, and its lines. -/
  | block (s : Option (List Char)) (k : BlockKind) (name : List Tok) (body : List (List Tok))

/-- Operands that are each an expression. -/
def exprList (l : List Tok) : Except AsmErr (List Ex) := (splitOps l).mapM expr

/-- A single symbol as an operand. -/
def oneSymbol : List Tok → Except AsmErr (List Char)
  | [.sym s] => .ok s
  | _ => .error .operand

/-- The literals of a floating-point directive (R291). -/
def litList (f : FpDir) (l : List Tok) : Except AsmErr (List Nat) :=
  if l = [] then .error .operand else (splitOps l).mapM f.lit

/-- An integer directive's statement. -/
def intsStmt (s : Option (List Char)) (size : Nat) (l : List Tok) : Except AsmErr (List AsmStmt) :=
  if l = [] then .error .operand else (exprList l).map (fun x => [.ints s size x])

/-- A label alone. -/
def labelStmt (s : Option (List Char)) : List AsmStmt := match s with | some x => [.label x] | none => []

/-- What a statement's line says, block lines apart (R287, Table 10.12). -/
def stmtOf (lab : Option (List Char)) (head : List Char) (l : List Tok) : Except AsmErr (List AsmStmt) :=
  if head.head? = some '.' then
    match lowName head with
    | ".text" => if l = [] then .ok (labelStmt lab ++ [.sec .text]) else .error .operand
    | ".data" => if l = [] then .ok (labelStmt lab ++ [.sec .data]) else .error .operand
    | ".basin" => if l = [] then .ok (labelStmt lab ++ [.sec .basin]) else .error .operand
    | ".align" => (expr l).map (fun e => labelStmt lab ++ [.align e])
    | ".byte" => intsStmt lab 1 l
    | ".half" => intsStmt lab 2 l
    | ".word" => intsStmt lab 4 l
    | ".dword" => intsStmt lab 8 l
    | ".f32" => (litList .f32 l).map (fun x => [.codes lab 4 x])
    | ".bf16" => (litList .b16 l).map (fun x => [.codes lab 2 x])
    | ".n8e4" => (litList .n8 l).map (fun x => [.codes lab 1 x])
    | ".space" => match exprList l with
      | .ok [n] => .ok (labelStmt lab ++ [.space n (.num 0)])
      | .ok [n, f] => .ok (labelStmt lab ++ [.space n f])
      | .ok _ => .error .operand
      | .error e => .error e
    | ".equ" => match splitOps l with
      | [[.sym s], e] => (expr e).map (fun x => labelStmt lab ++ [.equ s x])
      | _ => .error .operand
    | ".global" => (oneSymbol l).map (fun s => labelStmt lab ++ [.global s])
    | ".task" => (oneSymbol l).map (fun s => labelStmt lab ++ [.task s])
    | ".endtask" => if l = [] then .ok (labelStmt lab ++ [.endtask]) else .error .operand
    | _ => .error .mnemonic
  else (lineGen head (splitOps l)).map (fun g => [.line lab g])

/-- The block that a directive opens. -/
def blockOf (s : List Char) : Option BlockKind :=
  match lowName s with
  | ".launch" => some .launch
  | ".template" => some .template
  | ".group" => some .group
  | ".steps" => some .steps
  | _ => none

/-- The directive that closes a block. -/
def BlockKind.closing : BlockKind → String
  | .launch => ".endlaunch"
  | .template => ".endtemplate"
  | .group => ".endgroup"
  | .steps => ".endsteps"

/-- A block that is open: its line, its label, its kind, what stands after the directive, and its lines so far. -/
structure OpenBlock where
  /-- Line of the directive. -/
  line : Nat
  /-- Label before the directive. -/
  lab : Option (List Char)
  /-- Kind. -/
  kind : BlockKind
  /-- Operand. -/
  name : List Tok
  /-- Lines, oldest first. -/
  body : List (List Tok)

/-- A line's label and the rest (R287). -/
def takeLabel : List Tok → Option (List Char) × List Tok
  | .sym s :: .op ':' :: r => (some s, r)
  | l => (none, l)

/-- The statements of a source, each with its line number; or the line refused and why. -/
def asmParse : Nat → Option OpenBlock → List (List Char) → Except (Nat × AsmErr) (List (Nat × AsmStmt))
  | n, some b, [] => let _ := n; .error (b.line, .block)
  | _, none, [] => .ok []
  | n, ob, c :: rest =>
    match lexLine (c.length + 1) c with
    | .error e => .error (n, e)
    | .ok toks =>
      match ob with
      | some b =>
        if toks = [] then asmParse (n + 1) (some b) rest
        else
          let closes : Bool := match toks with | [.sym s] => lowName s == b.kind.closing | _ => false
          if closes then (asmParse (n + 1) none rest).map ((b.line, .block b.lab b.kind b.name b.body) :: ·)
          else asmParse (n + 1) (some { b with body := b.body ++ [toks] }) rest
      | none =>
        let t := takeLabel toks
        match t.2 with
        | [] => (asmParse (n + 1) none rest).map ((labelStmt t.1).map (fun x => (n, x)) ++ ·)
        | .sym h :: l =>
          match blockOf h with
          | some k => asmParse (n + 1) (some { line := n, lab := t.1, kind := k, name := l, body := [] }) rest
          | none =>
            match stmtOf t.1 h l with
            | .ok st => (asmParse (n + 1) none rest).map (st.map (fun x => (n, x)) ++ ·)
            | .error e => .error (n, e)
        | _ => .error (n, .mnemonic)

/-! ## A pass -/

/-- The bytes of a section so far, the newest first, and their number. -/
structure Buf where
  /-- Bytes. -/
  rev : List Byte := []
  /-- Number of bytes. -/
  len : Nat := 0
deriving Inhabited

/-- Bytes added to a section. -/
def Buf.add (b : Buf) (l : List Byte) : Buf := { rev := l.reverse ++ b.rev, len := b.len + l.length }

/-- Zero bytes up to a multiple. -/
def Buf.pad (b : Buf) (n : Nat) : Buf := b.add (List.replicate ((n - b.len % n) % n) 0#8)

/-- The little-endian bytes of a number. -/
def leOf : Nat → Nat → List Byte
  | 0, _ => []
  | k + 1, v => BitVec.ofNat 8 v :: leOf k (v / 256)

/-- What a pass has so far. -/
structure AsmSt where
  /-- Address of .text. -/
  textBase : Word
  /-- Address of .data. -/
  dataBase : Word
  /-- The sections. -/
  text : Buf := {}
  /-- .data. -/
  data : Buf := {}
  /-- .basin. -/
  basin : Buf := {}
  /-- The section that is selected: .text at the start (Table 10.12). -/
  cur : Sec := .text
  /-- Whether .basin was selected. -/
  basinUsed : Bool := false
  /-- Labels of this pass. -/
  labels : List (List Char × Word) := []
  /-- Symbols made visible. -/
  globals : List (List Char) := []
  /-- Hints that wait for their instruction. -/
  chain : List Hint := []
  /-- Whether a task block is open. -/
  task : Bool := false
  /-- The last instruction of the task block. -/
  last : Option IWord := none

/-- What a pass reads: whether values must hold, the values of symbols, and the constants' names. -/
structure AsmEnv where
  /-- The last pass, in which every value must hold. -/
  strict : Bool
  /-- The value of a symbol. -/
  sym : List Char → Except AsmErr Word
  /-- The constants' names. -/
  consts : List (List Char)

/-- The value of an expression; before the last pass, zero where it has none yet. -/
def AsmEnv.val (v : AsmEnv) (e : Ex) : Except AsmErr Word :=
  match e.eval v.sym with
  | .ok w => .ok w
  | .error x => if v.strict then .error x else .ok 0#64

/-- A condition that the last pass asks for. -/
def AsmEnv.need (v : AsmEnv) (c : Bool) (x : AsmErr) : Except AsmErr Unit := if v.strict && !c then .error x else .ok ()

/-- A value as a number in a range. -/
def AsmEnv.num (v : AsmEnv) (lo hi : Nat) (e : Ex) : Except AsmErr Nat := do
  let w ← v.val e
  v.need (decide (lo ≤ w.toNat) && decide (w.toNat ≤ hi)) .value
  .ok w.toNat

/-- The section that is selected. -/
def AsmSt.buf (a : AsmSt) : Buf := match a.cur with | .text => a.text | .data => a.data | .basin => a.basin

/-- The selected section replaced. -/
def AsmSt.putBuf (a : AsmSt) (b : Buf) : AsmSt :=
  match a.cur with
  | .text => { a with text := b }
  | .data => { a with data := b }
  | .basin => { a with basin := b }

/-- The address of the next byte of the selected section (R293). -/
def AsmSt.here (a : AsmSt) : Word :=
  (match a.cur with | .text => a.textBase | .data => a.dataBase | .basin => 0xFFFF800000000000#64) + BitVec.ofNat 64 a.buf.len

/-- A symbol with its value: no register name, and not defined before (R287). -/
def AsmSt.define (a : AsmSt) (v : AsmEnv) (s : List Char) (w : Word) : Except AsmErr AsmSt :=
  if !symbolOk s || (a.labels.lookup s).isSome || v.consts.contains s then .error .symbol
  else .ok { a with labels := (s, w) :: a.labels }

/-- The selected section padded, and a label, if any, at what follows. -/
def AsmSt.start (a : AsmSt) (v : AsmEnv) (lab : Option (List Char)) (n : Nat) : Except AsmErr AsmSt :=
  let b := a.putBuf (a.buf.pad n)
  match lab with
  | some s => b.define v s b.here
  | none => .ok b

/-- Bytes added to the selected section. -/
def AsmSt.emit (a : AsmSt) (l : List Byte) : AsmSt := a.putBuf (a.buf.add l)

/-! ## Instructions (R289, R300, R301) -/

/-- Whether an integer fits a signed field. -/
def fitsS (x : Int) (n : Nat) : Bool := decide (-(2 ^ (n - 1) : Int) ≤ x) && decide (x < 2 ^ (n - 1))

/-- A hint word; a kind that its chain holds already is refused (R277, R289). -/
def AsmSt.hintWord (a : AsmSt) (kind : BitVec 3) (p : BitVec 22) : Except AsmErr AsmSt :=
  if a.chain.any (fun h => h.kind == kind) then .error .hint
  else .ok { a.emit (leOf 4 (0xFE000000 + kind.toNat * 2 ^ 22 + p.toNat)) with chain := a.chain ++ [{ kind := kind, payload := p, addr := 0 }] }

/-- An instruction word; a chain whose hints it does not accept is refused (R276, R289). -/
def AsmSt.instr (a : AsmSt) (v : AsmEnv) (w : IWord) : Except AsmErr AsmSt := do
  v.need (a.chain.all (acceptsHint w)) .hint
  .ok { a.emit (leOf 4 w.toNat) with chain := [], last := some w }

/-- An instruction word with a value in its low bits, and an IMMX before it where one is asked for (R274, R301). -/
def AsmSt.field (a : AsmSt) (v : AsmEnv) (wide : Bool) (width : Nat) (w : IWord) (q : Int) : Except AsmErr AsmSt := do
  let lo : IWord := BitVec.ofInt 32 (q % 2 ^ width)
  if wide then
    v.need (fitsS q (width + 22)) .value
    if a.chain.any (fun h => h.kind == 0#3) then
      v.need false .hint
      a.instr v (w ||| lo)
    else
      let b ← a.hintWord 0#3 (BitVec.ofInt 22 (q / 2 ^ width))
      b.instr v (w ||| lo)
  else a.instr v (w ||| lo)

/-- An instruction with an immediate or offset (R274, R301). -/
def AsmSt.immediate (a : AsmSt) (v : AsmEnv) (width scale : Nat) (w : IWord) (x : Int) : Except AsmErr AsmSt := do
  v.need (decide (x % (scale : Int) = 0)) .value
  a.field v (!fitsS (x / scale) width) width w (x / scale)

/-- An instruction with a distance to a label, counted from its own word (R273, R301). -/
def AsmSt.relative (a : AsmSt) (v : AsmEnv) (width less : Nat) (w : IWord) (t : Word) : Except AsmErr AsmSt := do
  let d : Int := (t - a.here - BitVec.ofNat 64 less).toInt
  v.need (decide (d % 4 = 0)) .value
  if fitsS (d / 4) width then a.field v false width w (d / 4) else a.field v true width w ((d - 4) / 4)

/-- LI (R300). -/
def AsmSt.li (a : AsmSt) (v : AsmEnv) (d : RegNo) (x : Word) : Except AsmErr AsmSt := do
  if fitsS x.toInt 37 then a.immediate v 15 1 (Enc.movi d 0#15) x.toInt
  else
    let l : Int := (x.setWidth 32).toInt
    let b ← a.immediate v 15 1 (Enc.movi d 0#15) ((x.toInt - l) / 2 ^ 32)
    let c ← b.instr v (Enc.slli d d 32#6)
    if l = 0 then .ok c else c.immediate v 15 1 (Enc.addi d d 0#15) l

/-- What an instruction line emits; instructions stand in .text only. -/
def AsmSt.gen (a : AsmSt) (v : AsmEnv) (g : Gen) : Except AsmErr AsmSt := do
  match g with
  | .word w => a.instr v w
  | .idx lo hi f e =>
    let n ← v.num lo (hi - 1) e
    a.instr v (f n)
  | .imm width scale w e =>
    let x ← v.val e
    a.immediate v width scale w x.toInt
  | .rel width less w e =>
    let x ← v.val e
    a.relative v width less w x
  | .li d e =>
    let x ← v.val e
    a.li v d x
  | .immx e =>
    let x ← v.val e
    v.need (decide (-(2 ^ 21 : Int) ≤ x.toInt) && decide (x.toInt < 2 ^ 22)) .value
    a.hintWord 0#3 (x.setWidth 22)
  | .hint k p => a.hintWord k p

/-! ## Blocks (R295 to R298) -/

/-- The key = value lines of a block: each key once, and one of those given. -/
def keyLines (allowed : List String) : List (List Tok) → Except AsmErr (List (String × List Tok))
  | [] => .ok []
  | l :: r =>
    match l with
    | .sym k :: .op '=' :: e => do
      let m ← keyLines allowed r
      if !allowed.contains (lowName k) then .error .mnemonic
      else if (m.lookup (lowName k)).isSome then .error .block
      else .ok ((lowName k, e) :: m)
    | _ => .error .block

/-- A key's number in a range, with a default; a key without one must stand. -/
def AsmEnv.key (v : AsmEnv) (m : List (String × List Tok)) (k : String) (dflt : Option Nat) (lo hi : Nat) : Except AsmErr Nat :=
  match m.lookup k, dflt with
  | some l, _ => do v.num lo hi (← expr l)
  | none, some d => .ok d
  | none, none => .error .block

/-- A key's list of numbers, at most so many, each with a range. -/
def AsmEnv.keyList (v : AsmEnv) (m : List (String × List Tok)) (k : String) (lo hi : Int) : Except AsmErr (List Word) :=
  match m.lookup k with
  | none => .ok []
  | some l => do
    let es ← exprList l
    es.mapM (fun e => do
      let w ← v.val e
      v.need (decide (lo ≤ w.toInt) && decide (w.toInt ≤ hi)) .value
      .ok w)

/-- A key's name among those given, with a default. -/
def keyName (m : List (String × List Tok)) (k : String) (names : List String) (dflt : Option Nat) : Except AsmErr Nat :=
  match m.lookup k, dflt with
  | some l, _ => match (keyword l).bind (nth names) with
    | some n => .ok n
    | none => .error .value
  | none, some d => .ok d
  | none, none => .error .block

/-- The greatest 64-bit number. -/
def maxWord : Nat := 2 ^ 64 - 1

/-- A list filled up to a length with zeros. -/
def fill (n : Nat) (l : List Word) : List Word := l ++ List.replicate (n - l.length) 0#64

/-- The LAUNCH body of a block (R295, Tables 5.4 and 10.13). -/
def AsmEnv.launchBody (v : AsmEnv) (body : List (List Tok)) : Except AsmErr (List Byte) := do
  let m ← keyLines ["entry", "n", "class", "prio", "cohort", "event", "fence", "lturns", "place", "lpages", "argp", "a4", "a5", "a6", "a7",
    "in", "out"] body
  let entry ← v.key m "entry" none 0 maxWord
  let n ← v.key m "n" none 0 (2 ^ 32 - 1)
  let cls ← keyName m "class" ["lc", "normal", "harvest"] (some 1)
  let prio ← v.key m "prio" (some 0) 0 3
  let cohort ← v.key m "cohort" (some 0) 0 1
  let event ← v.key m "event" (some 0) 0 1
  let fence ← v.key m "fence" (some 0) 0 1
  let lturns ← v.key m "lturns" (some 0) 0 255
  let place ← v.key m "place" (some 0xFFFF) 1 0xFFFF
  let lpages ← v.key m "lpages" (some 0) 0 256
  let args ← ["argp", "a4", "a5", "a6", "a7"].mapM (fun k => v.key m k (some 0) 0 maxWord)
  let ins ← v.keyList m "in" (-(2 ^ 63)) (2 ^ 63 - 1)
  let outs ← v.keyList m "out" (-(2 ^ 63)) (2 ^ 63 - 1)
  if 4 < ins.length || 4 < outs.length then .error .value
  else
    let b : List Byte := leOf 8 entry ++ leOf 4 n ++ leOf 1 cls ++ leOf 1 prio ++ leOf 1 (cohort + 2 * event + 4 * fence) ++ leOf 1 lturns
      ++ leOf 2 place ++ leOf 2 lpages ++ leOf 4 0 ++ args.flatMap (leOf 8) ++ leOf 1 ins.length ++ leOf 1 outs.length ++ leOf 6 0
      ++ (fill 4 ins).flatMap (fun w => leOf 8 w.toNat) ++ (fill 4 outs).flatMap (fun w => leOf 8 w.toNat)
    v.need (!(launchReq b).bad) .value
    .ok b

/-- The copy template of a block (R296, Table 13.7). -/
def AsmEnv.templateBody (v : AsmEnv) (body : List (List Tok)) : Except AsmErr (List Byte) := do
  let m ← keyLines ["src", "dst", "stamp", "counter", "esize", "ext", "sstride", "dstride", "xform"] body
  let src ← v.key m "src" none 0 maxWord
  let dst ← v.key m "dst" none 0 maxWord
  let stamp ← v.key m "stamp" (some 0) 0 maxWord
  let counter ← v.key m "counter" (some 0) 0 maxWord
  let es ← v.key m "esize" (some 1) 1 8
  let xf ← keyName m "xform" ["none", "transpose", "reblock_a", "reblock_b", "pad_k"] (some 0)
  let ext ← v.keyList m "ext" 0 0xFFFF
  let ss ← v.keyList m "sstride" (-(2 ^ 31)) (2 ^ 31 - 1)
  let ds ← v.keyList m "dstride" (-(2 ^ 31)) (2 ^ 31 - 1)
  let code := match es with | 1 => some 0 | 2 => some 1 | 4 => some 2 | 8 => some 3 | _ => none
  v.need code.isSome .value
  if 3 < ext.length || 3 < ss.length || 3 < ds.length || (m.lookup "ext" == some []) || (m.lookup "sstride" == some [])
      || (m.lookup "dstride" == some []) then .error .value
  else
    let x (i : Nat) : List Byte := leOf 2 (ext.getD i 1#64).toNat
    let st (l : List Word) (i : Nat) : List Byte := leOf 4 ((l.getD i 0#64).setWidth 32).toNat
    .ok (leOf 8 src ++ leOf 8 dst ++ leOf 8 stamp ++ leOf 8 counter ++ x 0 ++ x 1 ++ x 2 ++ leOf 2 (xf * 4 + code.getD 0)
      ++ st ss 0 ++ st ss 1 ++ st ss 2 ++ st ds 0 ++ st ds 1 ++ st ds 2)

/-- The GROUP CREATE body of a block (R297, Table 14.4). -/
def AsmEnv.groupBody (v : AsmEnv) (body : List (List Tok)) : Except AsmErr (List Byte) := do
  let m ← keyLines ["key", "n", "k", "lag", "rule", "weights", "op", "count", "members"] body
  let key ← v.key m "key" none 0 maxWord
  let n ← v.key m "n" none 1 1024
  let k ← v.key m "k" none 1 n
  let lag ← v.key m "lag" none 0 15
  let rule ← keyName m "rule" ["full", "halve", "table", "drop"] none
  let op ← keyName m "op" ["fsum", "bsum", "isum", "fmax"] none
  let count ← v.key m "count" none 0 (2 ^ 32 - 1)
  let mem ← v.keyList m "members" 0 (2 ^ 32 - 1)
  let ws ← match m.lookup "weights" with
    | none => if rule = 2 then .error .block else .ok (List.replicate 16 0)
    | some l => litList .b16 l
  v.need (mem.length == n) .value
  if ws.length ≠ 16 then .error .value
  else
    .ok (leOf 8 0 ++ leOf 8 key ++ leOf 2 n ++ leOf 2 k ++ leOf 1 lag ++ leOf 1 rule ++ leOf 1 op ++ leOf 1 0 ++ leOf 4 count ++ leOf 4 0
      ++ ws.flatMap (leOf 2) ++ mem.flatMap (fun w => leOf 4 w.toNat))

/-- A peer of a step: its PMODE and PARG (Table 14.6). -/
def AsmEnv.peer (v : AsmEnv) : List Tok → Except AsmErr (Nat × Nat)
  | .op '#' :: l => do .ok (0, ← v.num 0 1023 (← expr l))
  | .op '^' :: l => do .ok (2, ← v.num 0 1023 (← expr l))
  | .op c :: l =>
    if c == '+' || c == '-' then do
      let w ← v.val (← expr l)
      let x : Int := if c == '-' then -w.toInt else w.toInt
      v.need (decide (-1023 ≤ x) && decide (x ≤ 1023)) .value
      .ok (1, (x % 2048).toNat)
    else .error .operand
  | _ => .error .operand

/-- An offset of a step and its chunk mode (Table 14.6). -/
def AsmEnv.chunk (v : AsmEnv) (l : List Tok) : Except AsmErr (Nat × Nat) :=
  let low (s : List Char) (c : Char) : Bool := s.map Char.toLower == [c]
  let p : Nat × List Tok := match l.reverse with
    | .int 1 _ :: .op c :: .sym j :: .op '-' :: .sym r :: .op ':' :: t =>
      if low r 'r' && low j 'j' && c == '-' then (2, t.reverse) else if low r 'r' && low j 'j' && c == '+' then (3, t.reverse) else (0, l)
    | .sym j :: .op '-' :: .sym r :: .op ':' :: t => if low r 'r' && low j 'j' then (1, t.reverse) else (0, l)
    | _ => (0, l)
  do .ok (p.1, ← v.num 0 (2 ^ 20 - 1) (← expr p.2))

/-- A step from its fields (Table 14.6). -/
def stepWords (op : Nat) (peer : Nat × Nat) (src dst : Nat × Nat) (len : Nat) : List Byte :=
  leOf 8 (op * 2 ^ 60 + peer.1 * 2 ^ 58 + peer.2 * 2 ^ 47 + src.1 * 2 ^ 45 + dst.1 * 2 ^ 43 + len * 2 ^ 23) ++ leOf 8 (src.2 * 2 ^ 32 + dst.2)

/-- One step line (R298, Table 14.7). -/
def AsmEnv.step (v : AsmEnv) (l : List Tok) : Except AsmErr (List Byte) :=
  match l with
  | .sym h :: r =>
    let len (e : List Tok) : Except AsmErr Nat := do
      let n ← v.num 0 (2 ^ 20 - 1) (← expr e)
      v.need (decide (n % 4 = 0)) .value
      .ok n
    match lowName h, splitOps r with
    | "end", [] => .ok (stepWords 0 (0, 0) (0, 0) (0, 0) 0)
    | "send", [p, o, n] => do .ok (stepWords 1 (← v.peer p) (← v.chunk o) (0, 0) (← len n))
    | "recv", [p, o, n] => do .ok (stepWords 2 (← v.peer p) (0, 0) (← v.chunk o) (← len n))
    | "rrs", [p, o, n] => do .ok (stepWords 3 (← v.peer p) (0, 0) (← v.chunk o) (← len n))
    | "copy", [d, o, n] => do .ok (stepWords 4 (0, 0) (← v.chunk o) (← v.chunk d) (← len n))
    | "wait", [] => .ok (stepWords 5 (0, 0) (0, 0) (0, 0) 0)
    | "loop", [c] => do .ok (stepWords 6 (0, ← v.num 0 2047 (← expr c)) (0, 0) (0, 0) 0)
    | "endloop", [] => .ok (stepWords 7 (0, 0) (0, 0) (0, 0) 0)
    | "qround", [d, o, n] => do .ok (stepWords 8 (0, 0) (← v.chunk o) (← v.chunk d) (← len n))
    | _, _ => .error .operand
  | _ => .error .operand

/-- Whether a line of a step block is a header key. -/
def keyLine : List Tok → Bool
  | .sym _ :: .op '=' :: _ => true
  | _ => false

/-- Whether a step line is END. -/
def endLine : List Tok → Bool
  | [.sym h] => lowName h == "end"
  | _ => false

/-- The step program of a block: its header, its steps, the last of them END (R298, R420). -/
def AsmEnv.stepsBody (v : AsmEnv) (body : List (List Tok)) : Except AsmErr (List Byte) := do
  let m ← keyLines ["tag", "done"] (body.takeWhile keyLine)
  let steps := body.dropWhile keyLine
  let tag ← v.key m "tag" none 0 (2 ^ 32 - 1)
  let done ← v.key m "done" none 0 (2 ^ 20 - 1)
  v.need (decide (done % 8 = 0)) .value
  let last : Bool := match steps.getLast? with | some l => endLine l | none => false
  if !last || 255 < steps.length then .error .block
  else
    let ws ← steps.mapM v.step
    .ok (leOf 8 tag ++ leOf 8 done ++ ws.flatten)

/-- A block's record in .data, 8-byte aligned under its name (R295 to R298). -/
def AsmSt.block (a : AsmSt) (v : AsmEnv) (lab : Option (List Char)) (k : BlockKind) (name : List Tok) (body : List (List Tok)) :
    Except AsmErr AsmSt := do
  let b := { a with cur := .data }
  let c ← b.start v lab 8
  let named (s : List Char) : Except AsmErr AsmSt := c.define v s c.here
  let out ← match k with
    | .launch => do
      let d ← named (← oneSymbol name)
      .ok (d.emit (← v.launchBody body))
    | .template => do
      let n ← v.num 0 4095 (← expr name)
      let d ← named ("template_".toList ++ (toString n).toList)
      .ok (d.emit (← v.templateBody body))
    | .group => do
      let h ← oneSymbol name
      let d ← named (h ++ "_create".toList)
      let e := d.emit (← v.groupBody body)
      let f ← e.start v (some h) 4
      .ok (f.emit (leOf 4 0))
    | .steps => do
      let d ← named (← oneSymbol name)
      .ok (d.emit (← v.stepsBody body))
  .ok { out with cur := a.cur }

/-! ## Statements in a pass -/

/-- Whether a word may end a task body: TEXIT, an unconditional JAL s0, or JALR s0 (R294). -/
def endsTask (w : IWord) : Bool :=
  w == Enc.texit || ((w >>> 25 == 0x1E#32 || w >>> 25 == 0x1F#32) && (w >>> 20) &&& 31#32 == 0#32)

/-- An integer of a data directive: within the signed or the unsigned range (Table 10.12). -/
def AsmEnv.int (v : AsmEnv) (size : Nat) (e : Ex) : Except AsmErr (List Byte) := do
  let w ← v.val e
  v.need (decide (-(2 ^ (8 * size - 1) : Int) ≤ w.toInt) && decide (w.toInt < 2 ^ (8 * size))) .value
  .ok (leOf size w.toNat)

/-- One statement in a pass (Table 10.12, R292 to R298). -/
def AsmSt.stmt (a : AsmSt) (v : AsmEnv) (x : AsmStmt) : Except AsmErr AsmSt :=
  match x with
  | .label s => a.define v s a.here
  | .line lab g =>
    if a.cur ≠ .text then .error .block
    else do
      let b ← a.start v lab 4
      b.gen v g
  | x =>
    if a.chain ≠ [] then .error .hint
    else match x with
      | .sec s => if a.task && s ≠ .text then .error .block else .ok { a with cur := s, basinUsed := a.basinUsed || s == .basin }
      | .align e => do
        let n ← v.num 1 4096 e
        v.need (decide (n &&& (n - 1) = 0)) .value
        .ok (if n = 0 then a else a.putBuf (a.buf.pad n))
      | .ints lab size l => do
        let b ← a.start v lab size
        let bs ← l.mapM (v.int size)
        .ok (b.emit bs.flatten)
      | .codes lab size l => do
        let b ← a.start v lab size
        .ok (b.emit (l.flatMap (leOf size)))
      | .space n f => do
        let k ← v.num 0 (2 ^ 63 - 1) n
        let b ← v.int 1 f
        .ok (if k < 2 ^ 63 then a.emit (List.replicate k (b.headD 0#8)) else a)
      | .equ _ _ => .ok a
      | .global s => .ok { a with globals := s :: a.globals }
      | .task s =>
        if a.task || a.cur ≠ .text then .error .block
        else do
          let b ← a.start v (some s) 4
          .ok { b with task := true, last := none, globals := s :: b.globals }
      | .endtask =>
        match a.task, a.last with
        | true, some w => if endsTask w then .ok { a with task := false } else .error .block
        | _, _ => .error .block
      | .block lab k name body => a.block v lab k name body
      | _ => .ok a

/-- The end of a source: no open task or hint; the image of .basin in .data under basin_init, and basin_size (R293). -/
def AsmSt.finish (a : AsmSt) (v : AsmEnv) : Except AsmErr AsmSt := do
  if a.chain ≠ [] then .error .hint
  else if a.task then .error .block
  else if !a.basinUsed then .ok a
  else
    v.need (decide (a.basin.len ≤ 2 ^ 20)) .value
    let b ← { a with cur := .data }.start v (some "basin_init".toList) 8
    let c := b.emit a.basin.rev.reverse
    c.define v "basin_size".toList (BitVec.ofNat 64 a.basin.len)

/-- The statements of a pass in order. -/
def AsmSt.run (v : AsmEnv) : AsmSt → List (Nat × AsmStmt) → Except (Nat × AsmErr) AsmSt
  | a, [] => match a.finish v with
    | .ok b => .ok b
    | .error e => .error (0, e)
  | a, (n, x) :: l => match a.stmt v x with
    | .ok b => AsmSt.run v b l
    | .error e => .error (n, e)

/-! ## The assembler -/

/-- The constants of a source; a name that is a register's or stands twice is refused (R287, Table 10.12). -/
def asmConsts : List (Nat × AsmStmt) → Except (Nat × AsmErr) (List (List Char × Ex))
  | [] => .ok []
  | (n, .equ s e) :: l => do
    let r ← asmConsts l
    if !symbolOk s || (r.lookup s).isSome then .error (n, .symbol) else .ok ((s, e) :: r)
  | _ :: l => asmConsts l

/-- What a pass reads, from the labels of the pass before it. -/
def asmEnv (strict : Bool) (consts : List (List Char × Ex)) (labels : List (List Char × Word)) : AsmEnv :=
  { strict := strict, sym := symbolValue labels consts (consts.length + 1), consts := consts.map (·.1) }

/-- What dmas produces: for each section a byte image, and the symbols with those made visible. -/
structure Image where
  /-- .text. -/
  text : List Byte
  /-- .data. -/
  data : List Byte
  /-- Symbols with their values. -/
  symbols : List (List Char × Word)
  /-- Symbols visible to other objects. -/
  globals : List (List Char)
deriving DecidableEq, Repr, Inhabited

/-- Passes until the labels stand where the pass before put them, then the pass in which every value must hold. -/
def asmPasses (a : AsmSt) (consts : List (List Char × Ex)) (prog : List (Nat × AsmStmt)) :
    Nat → List (List Char × Word) → Except (Nat × AsmErr) AsmSt
  | 0, _ => .error (0, .layout)
  | k + 1, labels =>
    match AsmSt.run (asmEnv false consts labels) a prog with
    | .error e => .error e
    | .ok b =>
      if b.labels = labels then AsmSt.run (asmEnv true consts labels) a prog
      else asmPasses a consts prog k b.labels

/-- The values of the constants. -/
def constValues (v : AsmEnv) : List (List Char) → Except (Nat × AsmErr) (List (List Char × Word))
  | [] => .ok []
  | s :: l => match v.sym s with
    | .ok w => (constValues v l).map ((s, w) :: ·)
    | .error e => .error (0, e)

/-- dmas: a source at the addresses given for .text and .data, or the line it refuses and why (R287 to R301). -/
def assembleChars (textBase dataBase : Word) (src : List Char) : Except (Nat × AsmErr) Image :=
  match asmParse 1 none (asmLines src) with
  | .error e => .error e
  | .ok prog =>
    match asmConsts prog with
    | .error e => .error e
    | .ok consts =>
      match asmPasses { textBase := textBase, dataBase := dataBase } consts prog (prog.length + 32) [] with
      | .error e => .error e
      | .ok a =>
        match constValues (asmEnv true consts a.labels) (consts.map (·.1)) with
        | .error e => .error e
        | .ok cv =>
          let syms := a.labels.reverse ++ cv
          if a.globals.any (fun s => (syms.lookup s).isNone) then .error (0, .symbol)
          else .ok { text := a.text.rev.reverse, data := a.data.rev.reverse, symbols := syms, globals := a.globals.reverse }

/-- dmas on a source as one string. -/
def assemble (textBase dataBase : Word) (src : String) : Except (Nat × AsmErr) Image := assembleChars textBase dataBase src.toList

end Sys2Proof.Machine
end

