-- ==== Sys2Proof/Tests/Slice0.lean ====
section
/-! SUPPORT. The model's own tests: the refusal of ill-formed terms, words laid out from the encoding tables, states that meet the
hypotheses of the statements, and single steps on small states.  Expected values come from the spec's tables and worked examples or
are worked out by hand from its rules. -/

namespace Sys2Proof.Tests

open Sys2Proof.Machine Sys2Proof.Claims

set_option Elab.async false

/-! ## Ill-formed terms -/

theorem test_wf_fcvt : (Instr.fcvt 3 1 0x08 5).wf = false ∧ (Instr.fcvt 3 1 0x12 5).wf = true := by decide
theorem test_wf_vcvt : (Instr.vcvt 3 1 5 0 0x10).wf = false ∧ (Instr.vcvt 3 1 5 0 0x1D).wf = true := by decide
theorem test_wf_fence : (Instr.fence 0).wf = false ∧ (Instr.fence 4).wf = true := by decide
theorem test_wf_vext : (Instr.vext 3 1 0 0 0).wf = false ∧ (Instr.vext 3 1 0 3 0).wf = true := by decide
theorem test_wf_mma : (Instr.mma 0 1 2 7).wf = false ∧ (Instr.mma 3 1 2 7).wf = true := by decide
theorem test_wf_mmas : (Instr.mmas 3 0 2 7).wf = false ∧ (Instr.mmas 3 1 2 0).wf = false := by decide
theorem test_wf_mmat : (Instr.mmat 3 1 0 7).wf = false ∧ (Instr.mmat 3 1 2 7).wf = true := by decide
theorem test_wf_vsetl : (Instr.vsetl 3 1 0 0 4 0).wf = false ∧ (Instr.vsetl 3 1 0 0 3 4).wf = false ∧ (Instr.vsetl 3 1 0 0 3 3).wf = true := by decide
theorem test_wf_vsetli : (Instr.vsetli 3 1 0 0 7 0).wf = false ∧ (Instr.vsetli 3 1 0 0 0 3).wf = true := by decide
theorem test_wf_tself : (Instr.tself 3 4).wf = false ∧ (Instr.tself 3 3).wf = true := by decide
theorem test_wf_dlevel : (Instr.dlevel 3 5).wf = false ∧ (Instr.dlevel 3 4).wf = true := by decide
theorem test_wf_hstat : (Instr.hstat 3 6).wf = false ∧ (Instr.hstat 3 5).wf = true := by decide
theorem test_wf_qstat : (Instr.qstat 3 1 4).wf = false ∧ (Instr.qstat 3 1 3).wf = true := by decide
theorem test_wf_hmod : (Instr.hmod 3 0 1 0).wf = false ∧ (Instr.hmod 0 0 0 1).wf = false ∧ (Instr.hmod 2 1 1 3).wf = true := by decide

/-! ## Words of every encoded instruction -/

/-- Format RR of Table 10.5. -/
def rr (m d a b fn : Nat) : IWord := BitVec.ofNat 32 (m * 2 ^ 25 + d * 2 ^ 20 + a * 2 ^ 15 + b * 2 ^ 10 + fn)

/-- Formats RI, BR and VC: a 15-bit field at the end. -/
def ri (m d a i : Nat) : IWord := BitVec.ofNat 32 (m * 2 ^ 25 + d * 2 ^ 20 + a * 2 ^ 15 + i)

/-- Format MEM: w at [14:13], off at [12:0]. -/
def mem (m d a w o : Nat) : IWord := BitVec.ofNat 32 (m * 2 ^ 25 + d * 2 ^ 20 + a * 2 ^ 15 + w * 2 ^ 13 + o)

/-- Format J with JAL's major 0x1E. -/
def jf (d o : Nat) : IWord := BitVec.ofNat 32 (0x1E * 2 ^ 25 + d * 2 ^ 20 + o)

/-- Formats VV and VM: m at [9]. -/
def vv (m d a b k fn : Nat) : IWord := BitVec.ofNat 32 (m * 2 ^ 25 + d * 2 ^ 20 + a * 2 ^ 15 + b * 2 ^ 10 + k * 2 ^ 9 + fn)

/-- Format HW: kind at [24:22], payload at [21:0]. -/
def hw (k p : Nat) : IWord := BitVec.ofNat 32 (0x7F * 2 ^ 25 + k * 2 ^ 22 + p)

/-- Words of R305, R306, Table 11.1. -/
theorem test_decode_alu :
    decodeWord (rr 0x00 3 1 2 0x001) = .ok (.add 3 1 2) ∧ decodeWord (rr 0x00 3 1 2 0x002) = .ok (.sub 3 1 2)
    ∧ decodeWord (rr 0x00 3 1 2 0x003) = .ok (.and 3 1 2) ∧ decodeWord (rr 0x00 3 1 2 0x004) = .ok (.or 3 1 2)
    ∧ decodeWord (rr 0x00 3 1 2 0x005) = .ok (.xor 3 1 2) ∧ decodeWord (rr 0x00 3 1 2 0x006) = .ok (.andn 3 1 2)
    ∧ decodeWord (rr 0x00 3 1 2 0x007) = .ok (.sll 3 1 2) ∧ decodeWord (rr 0x00 3 1 2 0x008) = .ok (.srl 3 1 2)
    ∧ decodeWord (rr 0x00 3 1 2 0x009) = .ok (.sra 3 1 2) ∧ decodeWord (rr 0x00 3 1 2 0x00A) = .ok (.rol 3 1 2)
    ∧ decodeWord (rr 0x00 3 1 2 0x00B) = .ok (.ror 3 1 2) ∧ decodeWord (rr 0x00 3 1 2 0x00C) = .ok (.slt 3 1 2)
    ∧ decodeWord (rr 0x00 3 1 2 0x00D) = .ok (.sltu 3 1 2) ∧ decodeWord (rr 0x00 3 1 2 0x00E) = .ok (.min 3 1 2)
    ∧ decodeWord (rr 0x00 3 1 2 0x00F) = .ok (.max 3 1 2) ∧ decodeWord (rr 0x00 3 1 2 0x010) = .ok (.minu 3 1 2)
    ∧ decodeWord (rr 0x00 3 1 2 0x011) = .ok (.maxu 3 1 2) ∧ decodeWord (rr 0x00 3 1 0 0x012) = .ok (.clz 3 1)
    ∧ decodeWord (rr 0x00 3 1 0 0x013) = .ok (.ctz 3 1) ∧ decodeWord (rr 0x00 3 1 0 0x014) = .ok (.popc 3 1)
    ∧ decodeWord (rr 0x00 3 1 0 0x015) = .ok (.sextb 3 1) ∧ decodeWord (rr 0x00 3 1 0 0x016) = .ok (.sexth 3 1)
    ∧ decodeWord (rr 0x00 3 1 0 0x017) = .ok (.sextw 3 1) ∧ decodeWord (rr 0x00 3 1 0 0x018) = .ok (.zextw 3 1) := by
  decide

/-- Words of R305, R306, Table 11.1. -/
theorem test_decode_aluw_muldiv :
    decodeWord (rr 0x01 3 1 2 0x001) = .ok (.addw 3 1 2) ∧ decodeWord (rr 0x01 3 1 2 0x002) = .ok (.subw 3 1 2)
    ∧ decodeWord (rr 0x01 3 1 2 0x003) = .ok (.sllw 3 1 2) ∧ decodeWord (rr 0x01 3 1 2 0x004) = .ok (.srlw 3 1 2)
    ∧ decodeWord (rr 0x01 3 1 2 0x005) = .ok (.sraw 3 1 2) ∧ decodeWord (rr 0x01 3 1 2 0x006) = .ok (.mulw 3 1 2)
    ∧ decodeWord (rr 0x02 3 1 2 0x001) = .ok (.mul 3 1 2) ∧ decodeWord (rr 0x02 3 1 2 0x002) = .ok (.mulh 3 1 2)
    ∧ decodeWord (rr 0x02 3 1 2 0x003) = .ok (.mulhu 3 1 2) ∧ decodeWord (rr 0x02 3 1 2 0x004) = .ok (.mulhsu 3 1 2)
    ∧ decodeWord (rr 0x02 3 1 2 0x005) = .ok (.div 3 1 2) ∧ decodeWord (rr 0x02 3 1 2 0x006) = .ok (.divu 3 1 2)
    ∧ decodeWord (rr 0x02 3 1 2 0x007) = .ok (.rem 3 1 2) ∧ decodeWord (rr 0x02 3 1 2 0x008) = .ok (.remu 3 1 2)
    ∧ decodeWord (rr 0x02 3 1 2 0x205) = .ok (.divw 3 1 2) ∧ decodeWord (rr 0x02 3 1 2 0x206) = .ok (.divuw 3 1 2)
    ∧ decodeWord (rr 0x02 3 1 2 0x207) = .ok (.remw 3 1 2) ∧ decodeWord (rr 0x02 3 1 2 0x208) = .ok (.remuw 3 1 2) := by
  decide

/-- Words of R309, R310, Table 11.2. -/
theorem test_decode_immediate :
    decodeWord (ri 0x04 3 1 0x7FFE) = .ok (.addi 3 1 0x7FFE) ∧ decodeWord (ri 0x05 3 1 0x7FFE) = .ok (.andi 3 1 0x7FFE)
    ∧ decodeWord (ri 0x06 3 1 0x7FFE) = .ok (.ori 3 1 0x7FFE) ∧ decodeWord (ri 0x07 3 1 0x7FFE) = .ok (.xori 3 1 0x7FFE)
    ∧ decodeWord (ri 0x08 3 1 0x7FFE) = .ok (.slti 3 1 0x7FFE) ∧ decodeWord (ri 0x09 3 1 0x7FFE) = .ok (.sltiu 3 1 0x7FFE)
    ∧ decodeWord (ri 0x0A 3 1 0x0021) = .ok (.slli 3 1 0x21) ∧ decodeWord (ri 0x0A 3 1 0x1021) = .ok (.srli 3 1 0x21)
    ∧ decodeWord (ri 0x0A 3 1 0x2021) = .ok (.srai 3 1 0x21) ∧ decodeWord (ri 0x0A 3 1 0x3021) = .ok (.rori 3 1 0x21)
    ∧ decodeWord (ri 0x0B 3 0 0x4001) = .ok (.movi 3 0x4001) ∧ decodeWord (ri 0x0C 3 0 0x4001) = .ok (.addpc 3 0x4001)
    ∧ decodeWord (ri 0x0D 3 1 0x4001) = .ok (.addiw 3 1 0x4001) := by
  decide

/-- Words of R311 to R314, Tables 11.3, 11.4. -/
theorem test_decode_float :
    decodeWord (rr 0x10 3 1 2 0x101) = .ok (.fadd 3 1 2 1) ∧ decodeWord (rr 0x10 3 1 2 0x102) = .ok (.fsub 3 1 2 1)
    ∧ decodeWord (rr 0x10 3 1 2 0x103) = .ok (.fmul 3 1 2 1) ∧ decodeWord (rr 0x10 3 1 2 0x104) = .ok (.fdiv 3 1 2 1)
    ∧ decodeWord (rr 0x10 3 1 0 0x105) = .ok (.fsqrt 3 1 1) ∧ decodeWord (rr 0x10 3 1 2 0x006) = .ok (.fmin 3 1 2 0)
    ∧ decodeWord (rr 0x10 3 1 2 0x007) = .ok (.fmax 3 1 2 0) ∧ decodeWord (rr 0x10 3 1 2 0x008) = .ok (.feq 3 1 2 0)
    ∧ decodeWord (rr 0x10 3 1 2 0x009) = .ok (.flt 3 1 2 0) ∧ decodeWord (rr 0x10 3 1 2 0x00A) = .ok (.fle 3 1 2 0)
    ∧ decodeWord (rr 0x10 3 1 0 0x00B) = .ok (.fclass 3 1 0) ∧ decodeWord (rr 0x10 3 1 0 0x00C) = .ok (.fabs 3 1 0)
    ∧ decodeWord (rr 0x10 3 1 0 0x00D) = .ok (.fneg 3 1 0) ∧ decodeWord (rr 0x10 3 1 18 0x228) = .ok (.fcvt 3 1 0x12 5)
    ∧ decodeWord (rr 0x10 3 1 31 0x200) = .ok (.fcvt 3 1 0x1F 0) ∧ decodeWord (rr 0x11 3 1 2 0x100) = .ok (.fmac 3 1 2 1)
    ∧ decodeWord (rr 0x12 3 1 2 0x000) = .ok (.fmsac 3 1 2 0) := by
  decide

/-- Words of R315 to R317. -/
theorem test_decode_control :
    decodeWord (ri 0x16 1 1 0x0010) = .ok (.loop 1 1 0x10) ∧ decodeWord (ri 0x18 1 2 0x7FF0) = .ok (.beq 1 2 0x7FF0)
    ∧ decodeWord (ri 0x19 1 2 0x7FF0) = .ok (.bne 1 2 0x7FF0) ∧ decodeWord (ri 0x1A 1 2 0x7FF0) = .ok (.blt 1 2 0x7FF0)
    ∧ decodeWord (ri 0x1B 1 2 0x7FF0) = .ok (.bge 1 2 0x7FF0) ∧ decodeWord (ri 0x1C 1 2 0x7FF0) = .ok (.bltu 1 2 0x7FF0)
    ∧ decodeWord (ri 0x1D 1 2 0x7FF0) = .ok (.bgeu 1 2 0x7FF0) ∧ decodeWord (jf 3 0xFFFF0) = .ok (.jal 3 0xFFFF0)
    ∧ decodeWord (ri 0x1F 3 1 0x7FFC) = .ok (.jalr 3 1 0x7FFC) := by
  decide

/-- Words of R318, R320, R321. -/
theorem test_decode_loadstore :
    decodeWord (mem 0x20 3 1 2 0x1FFF) = .ok (.ldb 3 1 2 0x1FFF) ∧ decodeWord (mem 0x21 3 1 2 0x1FFF) = .ok (.ldbu 3 1 2 0x1FFF)
    ∧ decodeWord (mem 0x22 3 1 2 0x1FFF) = .ok (.ldh 3 1 2 0x1FFF) ∧ decodeWord (mem 0x23 3 1 2 0x1FFF) = .ok (.ldhu 3 1 2 0x1FFF)
    ∧ decodeWord (mem 0x24 3 1 2 0x1FFF) = .ok (.ldw 3 1 2 0x1FFF) ∧ decodeWord (mem 0x25 3 1 2 0x1FFF) = .ok (.ldwu 3 1 2 0x1FFF)
    ∧ decodeWord (mem 0x26 3 1 2 0x1FFF) = .ok (.ldd 3 1 2 0x1FFF) ∧ decodeWord (mem 0x27 3 1 2 0x1FFF) = .ok (.stb 3 1 2 0x1FFF)
    ∧ decodeWord (mem 0x28 3 1 2 0x1FFF) = .ok (.sth 3 1 2 0x1FFF) ∧ decodeWord (mem 0x29 3 1 2 0x1FFF) = .ok (.stw 3 1 2 0x1FFF)
    ∧ decodeWord (mem 0x2A 3 1 2 0x1FFF) = .ok (.std 3 1 2 0x1FFF) ∧ decodeWord (mem 0x2B 3 1 0 0x1FFF) = .ok (.ldro 3 1 0x1FFF)
    ∧ decodeWord (mem 0x2C 3 1 1 0x0005) = .ok (.ldf 3 1 1 5) ∧ decodeWord (mem 0x2D 3 1 0 0x0005) = .ok (.stf 3 1 0 5) := by
  decide

/-- Words of R322, Table 11.5. -/
theorem test_decode_memx :
    decodeWord (rr 0x2E 0 0 5 0x001) = .ok (.fence 5) ∧ decodeWord (rr 0x2E 0 1 2 0x002) = .ok (.roinv 1 2)
    ∧ decodeWord (rr 0x2E 0 1 0 0x003) = .ok (.mwarm 1) ∧ decodeWord (rr 0x2E 3 1 0 0x004) = .ok (.mwait 3 1)
    ∧ decodeWord (rr 0x2E 0 1 0 0x005) = .ok (.feset 1) ∧ decodeWord (rr 0x2E 0 1 0 0x006) = .ok (.feclr 1)
    ∧ decodeWord (rr 0x2E 3 1 0 0x007) = .ok (.fest 3 1) ∧ decodeWord (rr 0x2E 0 1 2 0x008) = .ok (.cflush 1 2)
    ∧ decodeWord (rr 0x2E 0 1 2 0x009) = .ok (.cinv 1 2) ∧ decodeWord (rr 0x2E 0 1 0 0x00A) = .ok (.pref 1) := by
  decide

/-- Words of R325, R328, Table 11.6. -/
theorem test_decode_atomic_ship :
    decodeWord (rr 0x2F 3 1 2 0x281) = .ok (.aadd 3 1 2 2 1) ∧ decodeWord (rr 0x2F 3 1 2 0x282) = .ok (.aand 3 1 2 2 1)
    ∧ decodeWord (rr 0x2F 3 1 2 0x283) = .ok (.aor 3 1 2 2 1) ∧ decodeWord (rr 0x2F 3 1 2 0x284) = .ok (.axor 3 1 2 2 1)
    ∧ decodeWord (rr 0x2F 3 1 2 0x285) = .ok (.amin 3 1 2 2 1) ∧ decodeWord (rr 0x2F 3 1 2 0x286) = .ok (.amax 3 1 2 2 1)
    ∧ decodeWord (rr 0x2F 3 1 2 0x287) = .ok (.aminu 3 1 2 2 1) ∧ decodeWord (rr 0x2F 3 1 2 0x288) = .ok (.amaxu 3 1 2 2 1)
    ∧ decodeWord (rr 0x2F 3 1 2 0x289) = .ok (.aswap 3 1 2 2 1) ∧ decodeWord (rr 0x2F 3 1 2 0x28A) = .ok (.acas 3 1 2 2 1)
    ∧ decodeWord (rr 0x2F 3 1 2 0x10B) = .ok (.afadd 3 1 2 1) ∧ decodeWord (rr 0x2F 3 1 2 0x10C) = .ok (.afmaxabs 3 1 2 1)
    ∧ decodeWord (rr 0x2F 3 1 0 0x10D) = .ok (.amaxrst 3 1 1) ∧ decodeWord (rr 0x30 3 1 2 0x3FF) = .ok (.ship 3 1 2 0x3FF) := by
  decide

/-- Words of R329. -/
theorem test_decode_system :
    decodeWord (rr 0x70 0 1 0 0x001) = .ok (.trap 1) ∧ decodeWord (rr 0x70 0 0 0 0x002) = .ok (.eret)
    ∧ decodeWord (rr 0x70 3 2 1 0x103) = .ok (.srrd 3 0x105) ∧ decodeWord (rr 0x70 3 2 1 0x104) = .ok (.srwr 3 0x105)
    ∧ decodeWord (rr 0x70 3 2 1 0x105) = .ok (.srset 3 0x105) ∧ decodeWord (rr 0x70 3 2 1 0x106) = .ok (.srclr 3 0x105)
    ∧ decodeWord (rr 0x70 0 0 0 0x007) = .ok (.halt) ∧ decodeWord (rr 0x70 0 0 0 0x008) = .ok (.bkpt)
    ∧ decodeWord (rr 0x70 0 0 0 0x009) = .ok (.ifence) ∧ decodeWord (rr 0x70 0 1 2 0x00A) = .ok (.tlbinv 1 2)
    ∧ decodeWord (rr 0x70 3 1 2 0x00B) = .ok (.ctxres 3 1 2) ∧ decodeWord (rr 0x70 0 0 0 0x00C) = .ok (.wfe) := by
  decide

/-- Words of R342, R344, Tables 10.6, 12.1. -/
theorem test_decode_vector_memory :
    decodeWord (ri 0x38 3 1 0x009A) = .ok (.vsetl 3 1 1 0 3 2) ∧ decodeWord (ri 0x39 3 17 0x0049) = .ok (.vsetli 3 17 0 1 1 1)
    ∧ decodeWord (vv 0x3A 3 1 0 1 0x140) = .ok (.vld 3 1 1 2 2) ∧ decodeWord (vv 0x3B 3 1 2 1 0x140) = .ok (.vlds 3 1 2 1 2 2)
    ∧ decodeWord (vv 0x3C 3 1 2 0 0x0A0) = .ok (.vldx 3 1 2 0 1 1) ∧ decodeWord (vv 0x3D 3 1 0 0 0x060) = .ok (.vldff 3 1 0 0 3)
    ∧ decodeWord (vv 0x3E 3 1 0 1 0x180) = .ok (.vst 3 1 1 3 0) ∧ decodeWord (vv 0x3F 3 1 2 1 0x140) = .ok (.vsts 3 1 2 1 2 2)
    ∧ decodeWord (vv 0x40 3 1 2 0 0x0A0) = .ok (.vstx 3 1 2 0 1 1) := by
  decide

/-- Words of R351, Table 12.5. -/
theorem test_decode_vector_integer_vv :
    decodeWord (vv 0x41 3 1 2 1 0x001) = .ok (.vaddVv 3 1 2 1) ∧ decodeWord (vv 0x41 3 1 2 1 0x002) = .ok (.vsubVv 3 1 2 1)
    ∧ decodeWord (vv 0x41 3 1 2 1 0x003) = .ok (.vrsubVv 3 1 2 1) ∧ decodeWord (vv 0x41 3 1 2 1 0x004) = .ok (.vmulVv 3 1 2 1)
    ∧ decodeWord (vv 0x41 3 1 2 1 0x025) = .ok (.vmulhVv 3 1 2 1 1) ∧ decodeWord (vv 0x41 3 1 2 1 0x006) = .ok (.vmaccVv 3 1 2 1)
    ∧ decodeWord (vv 0x41 3 1 2 1 0x007) = .ok (.vnmsacVv 3 1 2 1) ∧ decodeWord (vv 0x41 3 1 2 1 0x008) = .ok (.vandVv 3 1 2 1)
    ∧ decodeWord (vv 0x41 3 1 2 1 0x009) = .ok (.vorVv 3 1 2 1) ∧ decodeWord (vv 0x41 3 1 2 1 0x00A) = .ok (.vxorVv 3 1 2 1)
    ∧ decodeWord (vv 0x41 3 1 2 1 0x00B) = .ok (.vsllVv 3 1 2 1) ∧ decodeWord (vv 0x41 3 1 2 1 0x00C) = .ok (.vsrlVv 3 1 2 1)
    ∧ decodeWord (vv 0x41 3 1 2 1 0x00D) = .ok (.vsraVv 3 1 2 1) ∧ decodeWord (vv 0x41 3 1 2 1 0x00E) = .ok (.vminVv 3 1 2 1)
    ∧ decodeWord (vv 0x41 3 1 2 1 0x00F) = .ok (.vmaxVv 3 1 2 1) ∧ decodeWord (vv 0x41 3 1 2 1 0x010) = .ok (.vminuVv 3 1 2 1)
    ∧ decodeWord (vv 0x41 3 1 2 1 0x011) = .ok (.vmaxuVv 3 1 2 1) ∧ decodeWord (vv 0x41 3 1 2 1 0x012) = .ok (.vseqVv 3 1 2 1)
    ∧ decodeWord (vv 0x41 3 1 2 1 0x013) = .ok (.vsneVv 3 1 2 1) ∧ decodeWord (vv 0x41 3 1 2 1 0x014) = .ok (.vsltVv 3 1 2 1)
    ∧ decodeWord (vv 0x41 3 1 2 1 0x015) = .ok (.vsltuVv 3 1 2 1) ∧ decodeWord (vv 0x41 3 1 2 1 0x016) = .ok (.vsleVv 3 1 2 1)
    ∧ decodeWord (vv 0x41 3 1 2 1 0x039) = .ok (.vsaddVv 3 1 2 1 1) ∧ decodeWord (vv 0x41 3 1 2 1 0x03A) = .ok (.vssubVv 3 1 2 1 1)
    ∧ decodeWord (vv 0x41 3 1 2 1 0x03B) = .ok (.vnclipVv 3 1 2 1 1) ∧ decodeWord (vv 0x41 3 1 2 1 0x03C) = .ok (.vwaddVv 3 1 2 1 1)
    ∧ decodeWord (vv 0x41 3 1 2 1 0x03D) = .ok (.vwmulVv 3 1 2 1 1) ∧ decodeWord (vv 0x41 3 1 2 1 0x017) = .ok (.vmergeVv 3 1 2)
    ∧ decodeWord (vv 0x41 3 1 0 1 0x018) = .ok (.vmvVv 3 1 1) ∧ decodeWord (vv 0x41 3 1 0 0 0x0BE) = .ok (.vext 3 1 0 2 1) := by
  decide

/-- Words of R351, Table 12.5. -/
theorem test_decode_vector_integer_vx :
    decodeWord (vv 0x42 3 1 2 1 0x001) = .ok (.vaddVx 3 1 2 1) ∧ decodeWord (vv 0x42 3 1 2 1 0x002) = .ok (.vsubVx 3 1 2 1)
    ∧ decodeWord (vv 0x42 3 1 2 1 0x003) = .ok (.vrsubVx 3 1 2 1) ∧ decodeWord (vv 0x42 3 1 2 1 0x004) = .ok (.vmulVx 3 1 2 1)
    ∧ decodeWord (vv 0x42 3 1 2 1 0x025) = .ok (.vmulhVx 3 1 2 1 1) ∧ decodeWord (vv 0x42 3 1 2 1 0x006) = .ok (.vmaccVx 3 1 2 1)
    ∧ decodeWord (vv 0x42 3 1 2 1 0x007) = .ok (.vnmsacVx 3 1 2 1) ∧ decodeWord (vv 0x42 3 1 2 1 0x008) = .ok (.vandVx 3 1 2 1)
    ∧ decodeWord (vv 0x42 3 1 2 1 0x009) = .ok (.vorVx 3 1 2 1) ∧ decodeWord (vv 0x42 3 1 2 1 0x00A) = .ok (.vxorVx 3 1 2 1)
    ∧ decodeWord (vv 0x42 3 1 2 1 0x00B) = .ok (.vsllVx 3 1 2 1) ∧ decodeWord (vv 0x42 3 1 2 1 0x00C) = .ok (.vsrlVx 3 1 2 1)
    ∧ decodeWord (vv 0x42 3 1 2 1 0x00D) = .ok (.vsraVx 3 1 2 1) ∧ decodeWord (vv 0x42 3 1 2 1 0x00E) = .ok (.vminVx 3 1 2 1)
    ∧ decodeWord (vv 0x42 3 1 2 1 0x00F) = .ok (.vmaxVx 3 1 2 1) ∧ decodeWord (vv 0x42 3 1 2 1 0x010) = .ok (.vminuVx 3 1 2 1)
    ∧ decodeWord (vv 0x42 3 1 2 1 0x011) = .ok (.vmaxuVx 3 1 2 1) ∧ decodeWord (vv 0x42 3 1 2 1 0x012) = .ok (.vseqVx 3 1 2 1)
    ∧ decodeWord (vv 0x42 3 1 2 1 0x013) = .ok (.vsneVx 3 1 2 1) ∧ decodeWord (vv 0x42 3 1 2 1 0x014) = .ok (.vsltVx 3 1 2 1)
    ∧ decodeWord (vv 0x42 3 1 2 1 0x015) = .ok (.vsltuVx 3 1 2 1) ∧ decodeWord (vv 0x42 3 1 2 1 0x016) = .ok (.vsleVx 3 1 2 1)
    ∧ decodeWord (vv 0x42 3 1 2 1 0x039) = .ok (.vsaddVx 3 1 2 1 1) ∧ decodeWord (vv 0x42 3 1 2 1 0x03A) = .ok (.vssubVx 3 1 2 1 1)
    ∧ decodeWord (vv 0x42 3 1 2 1 0x03B) = .ok (.vnclipVx 3 1 2 1 1) ∧ decodeWord (vv 0x42 3 1 2 1 0x03C) = .ok (.vwaddVx 3 1 2 1 1)
    ∧ decodeWord (vv 0x42 3 1 2 1 0x03D) = .ok (.vwmulVx 3 1 2 1 1) ∧ decodeWord (vv 0x42 3 1 2 1 0x017) = .ok (.vmergeVx 3 1 2)
    ∧ decodeWord (vv 0x42 3 0 2 1 0x018) = .ok (.vmvVx 3 2 1) := by
  decide

/-- Words of R355, Table 12.7. -/
theorem test_decode_vector_float :
    decodeWord (vv 0x43 3 1 2 0 0x001) = .ok (.vfaddVv 3 1 2 0) ∧ decodeWord (vv 0x43 3 1 2 0 0x002) = .ok (.vfsubVv 3 1 2 0)
    ∧ decodeWord (vv 0x43 3 1 2 0 0x003) = .ok (.vfmulVv 3 1 2 0) ∧ decodeWord (vv 0x43 3 1 2 0 0x004) = .ok (.vfdivVv 3 1 2 0)
    ∧ decodeWord (vv 0x43 3 1 2 0 0x006) = .ok (.vfminVv 3 1 2 0) ∧ decodeWord (vv 0x43 3 1 2 0 0x007) = .ok (.vfmaxVv 3 1 2 0)
    ∧ decodeWord (vv 0x43 3 1 2 0 0x008) = .ok (.vfmaccVv 3 1 2 0) ∧ decodeWord (vv 0x43 3 1 2 0 0x009) = .ok (.vfnmsacVv 3 1 2 0)
    ∧ decodeWord (vv 0x43 3 1 2 0 0x00A) = .ok (.vfeqVv 3 1 2 0) ∧ decodeWord (vv 0x43 3 1 2 0 0x00B) = .ok (.vfltVv 3 1 2 0)
    ∧ decodeWord (vv 0x43 3 1 2 0 0x00C) = .ok (.vfleVv 3 1 2 0) ∧ decodeWord (vv 0x43 3 1 2 0 0x00F) = .ok (.vfsgnjVv 3 1 2 0)
    ∧ decodeWord (vv 0x44 3 1 2 0 0x001) = .ok (.vfaddVx 3 1 2 0) ∧ decodeWord (vv 0x44 3 1 2 0 0x002) = .ok (.vfsubVx 3 1 2 0)
    ∧ decodeWord (vv 0x44 3 1 2 0 0x003) = .ok (.vfmulVx 3 1 2 0) ∧ decodeWord (vv 0x44 3 1 2 0 0x004) = .ok (.vfdivVx 3 1 2 0)
    ∧ decodeWord (vv 0x44 3 1 2 0 0x006) = .ok (.vfminVx 3 1 2 0) ∧ decodeWord (vv 0x44 3 1 2 0 0x007) = .ok (.vfmaxVx 3 1 2 0)
    ∧ decodeWord (vv 0x44 3 1 2 0 0x008) = .ok (.vfmaccVx 3 1 2 0) ∧ decodeWord (vv 0x44 3 1 2 0 0x009) = .ok (.vfnmsacVx 3 1 2 0)
    ∧ decodeWord (vv 0x44 3 1 2 0 0x00A) = .ok (.vfeqVx 3 1 2 0) ∧ decodeWord (vv 0x44 3 1 2 0 0x00B) = .ok (.vfltVx 3 1 2 0)
    ∧ decodeWord (vv 0x44 3 1 2 0 0x00C) = .ok (.vfleVx 3 1 2 0) ∧ decodeWord (vv 0x44 3 1 2 0 0x00F) = .ok (.vfsgnjVx 3 1 2 0)
    ∧ decodeWord (vv 0x43 3 1 0 1 0x005) = .ok (.vfsqrt 3 1 1) ∧ decodeWord (vv 0x43 3 1 0 1 0x00D) = .ok (.vfabs 3 1 1)
    ∧ decodeWord (vv 0x43 3 1 0 1 0x00E) = .ok (.vfneg 3 1 1) := by
  decide

/-- Words of R357, Table 12.8. -/
theorem test_decode_vector_reduce :
    decodeWord (vv 0x45 3 1 2 1 0x001) = .ok (.vredsum 3 1 2 1) ∧ decodeWord (vv 0x45 3 1 2 1 0x022) = .ok (.vredmax 3 1 2 1 1)
    ∧ decodeWord (vv 0x45 3 1 2 1 0x003) = .ok (.vredmin 3 1 2 1 0) ∧ decodeWord (vv 0x45 3 1 2 0 0x004) = .ok (.vredand 3 1 2 0)
    ∧ decodeWord (vv 0x45 3 1 2 0 0x005) = .ok (.vredor 3 1 2 0) ∧ decodeWord (vv 0x45 3 1 2 0 0x006) = .ok (.vredxor 3 1 2 0)
    ∧ decodeWord (vv 0x45 3 1 2 0 0x007) = .ok (.vfredosum 3 1 2 0) ∧ decodeWord (vv 0x45 3 1 2 0 0x008) = .ok (.vfredtsum 3 1 2 0)
    ∧ decodeWord (vv 0x45 3 1 2 0 0x009) = .ok (.vfredmax 3 1 2 0) ∧ decodeWord (vv 0x45 3 1 2 0 0x00A) = .ok (.vfredmin 3 1 2 0)
    ∧ decodeWord (vv 0x45 3 1 2 0 0x00B) = .ok (.vfamax 3 1 2 0) := by
  decide

/-- Words of R361 to R363, Tables 12.10, 12.11. -/
theorem test_decode_vector_permute :
    decodeWord (vv 0x46 3 1 2 1 0x001) = .ok (.vslideup 3 1 2 1) ∧ decodeWord (vv 0x46 3 1 2 1 0x002) = .ok (.vslidedn 3 1 2 1)
    ∧ decodeWord (vv 0x46 3 1 2 1 0x003) = .ok (.vslide1up 3 1 2 1) ∧ decodeWord (vv 0x46 3 1 2 1 0x004) = .ok (.vslide1dn 3 1 2 1)
    ∧ decodeWord (vv 0x46 3 1 2 1 0x005) = .ok (.vgath 3 1 2 1) ∧ decodeWord (vv 0x46 3 1 2 0 0x006) = .ok (.vcompress 3 1 2)
    ∧ decodeWord (vv 0x46 3 1 0 1 0x007) = .ok (.viota 3 1 1) ∧ decodeWord (vv 0x46 3 0 0 1 0x008) = .ok (.vid 3 1)
    ∧ decodeWord (vv 0x46 3 1 0 0 0x009) = .ok (.vmvxs 3 1) ∧ decodeWord (vv 0x46 3 0 2 0 0x00A) = .ok (.vmvsx 3 2)
    ∧ decodeWord (vv 0x47 3 1 2 0 0x001) = .ok (.vmand 3 1 2) ∧ decodeWord (vv 0x47 3 1 2 0 0x002) = .ok (.vmor 3 1 2)
    ∧ decodeWord (vv 0x47 3 1 2 0 0x003) = .ok (.vmxor 3 1 2) ∧ decodeWord (vv 0x47 3 1 2 0 0x004) = .ok (.vmandn 3 1 2)
    ∧ decodeWord (vv 0x47 3 1 0 0 0x005) = .ok (.vmnot 3 1) ∧ decodeWord (vv 0x47 3 1 0 1 0x006) = .ok (.vpopc 3 1 1)
    ∧ decodeWord (vv 0x47 3 1 0 1 0x007) = .ok (.vfirst 3 1 1) ∧ decodeWord (vv 0x47 3 1 0 1 0x008) = .ok (.vmsbf 3 1 1)
    ∧ decodeWord (vv 0x48 3 1 5 1 0x01D) = .ok (.vcvt 3 1 5 1 0x1D) := by
  decide

/-- Words of R370, R373, R380, R381. -/
theorem test_decode_matrix :
    decodeWord (rr 0x50 3 1 2 0x0AC) = .ok (.mshape 3 1 2 2 5 4) ∧ decodeWord (rr 0x51 3 1 2 0x0E0) = .ok (.mma 3 1 2 7)
    ∧ decodeWord (rr 0x52 3 1 2 0x0E0) = .ok (.mmas 3 1 2 7) ∧ decodeWord (rr 0x53 3 1 2 0x0E0) = .ok (.mmat 3 1 2 7)
    ∧ decodeWord (rr 0x54 3 0 0 0x0E0) = .ok (.mzero 3 7) ∧ decodeWord (rr 0x55 3 0 0 0x001) = .ok (.mstat 3 1) := by
  decide

/-- Words of R392, Table 14.1. -/
theorem test_decode_task_domain_weir :
    decodeWord (rr 0x60 3 1 2 0x001) = .ok (.spawn 3 1 2) ∧ decodeWord (rr 0x60 3 1 2 0x002) = .ok (.spawnc 3 1 2)
    ∧ decodeWord (rr 0x60 0 0 0 0x003) = .ok (.twait) ∧ decodeWord (rr 0x60 0 0 0 0x004) = .ok (.texit)
    ∧ decodeWord (rr 0x60 0 0 0 0x005) = .ok (.yield) ∧ decodeWord (rr 0x60 3 1 2 0x006) = .ok (.cntinit 3 1 2)
    ∧ decodeWord (rr 0x60 0 1 2 0x007) = .ok (.cntdec 1 2) ∧ decodeWord (rr 0x60 0 1 0 0x008) = .ok (.cntwait 1)
    ∧ decodeWord (rr 0x60 3 1 0 0x009) = .ok (.launchd 3 1) ∧ decodeWord (rr 0x60 3 0 2 0x00A) = .ok (.tself 3 2)
    ∧ decodeWord (rr 0x64 3 1 0 0x001) = .ok (.dbegin 3 1) ∧ decodeWord (rr 0x64 0 1 2 0x002) = .ok (.dpresSnap 1 2)
    ∧ decodeWord (rr 0x64 0 1 2 0x003) = .ok (.dpresHold 1 2) ∧ decodeWord (rr 0x64 0 0 0 0x004) = .ok (.dend)
    ∧ decodeWord (rr 0x64 0 1 2 0x005) = .ok (.dchk 1 2) ∧ decodeWord (rr 0x64 0 1 0 0x006) = .ok (.dabort 1)
    ∧ decodeWord (rr 0x64 3 0 4 0x007) = .ok (.dlevel 3 4) ∧ decodeWord (rr 0x66 0 1 2 0x001) = .ok (.lend 1 2)
    ∧ decodeWord (rr 0x66 0 1 2 0x002) = .ok (.unlend 1 2) ∧ decodeWord (rr 0x66 3 0 5 0x003) = .ok (.hstat 3 5)
    ∧ decodeWord (rr 0x68 3 1 0 0x001) = .ok (.qpost 3 1) ∧ decodeWord (rr 0x68 3 1 2 0x002) = .ok (.qwait 3 1 2)
    ∧ decodeWord (rr 0x68 3 1 2 0x003) = .ok (.qstart 3 1 2) ∧ decodeWord (rr 0x68 3 1 3 0x004) = .ok (.qstat 3 1 3)
    ∧ decodeWord (rr 0x68 3 1 2 0x005) = .ok (.qresync 3 1 2) := by
  decide

/-- Words of R275, Table 10.7. -/
theorem test_decode_hints :
    decodeWord (hw 0 0x3FFFFF) = .ok (.immx 0x3FFFFF) ∧ decodeWord (hw 1 3) = .ok (.hcache 3) ∧ decodeWord (hw 2 1) = .ok (.hsched 1)
    ∧ decodeWord (hw 3 0x2D) = .ok (.hmod 2 1 1 1) ∧ decodeWord (hw 4 0x123456) = .ok (.hnop 0x123456) := by
  decide
/-! ## Single steps: scalar results -/

/-- A task's context in RUN at pc 0 with some scalar registers. -/
def bank (l : List (Nat × Word)) : State := { State.reset with cx := { r := { sregs := l }, st := .run } }

/-- What an execution leaves in a part of the state, when it gives a next state. -/
def left {α : Type} (f : State → α) (i : Instr) (s : State) : Option α :=
  match exec i s with
  | .next t => some (f t)
  | _ => none

/-- s3 afterwards. -/
def s3 : Instr → State → Option Word := left (fun t => t.rd 3)

/-- The cause and tval of the trap that an execution ends in. -/
def trapped : Instr → State → Option (Word × Word) :=
  left (fun t => if t.cx.st = .trapped then (t.cx.r.cause, t.cx.r.tval) else (0#64, 0#64))

/-- s1 = -5, s2 = 3, s4 = 8, s5 = 0x80, s6 = 0x8000, s7 = 0x80000000. -/
def ints : State :=
  bank [(1, 0xFFFFFFFFFFFFFFFB#64), (2, 3#64), (4, 8#64), (5, 0x80#64), (6, 0x8000#64), (7, 0x80000000#64)]

/-- Table 11.1 on -5 and 3, worked out by hand. -/
theorem test_alu : [Instr.add 3 1 2, .sub 3 1 2, .and 3 1 2, .or 3 1 2, .xor 3 1 2, .andn 3 1 2, .sll 3 1 2, .srl 3 1 2, .sra 3 1 2,
    .rol 3 1 2, .ror 3 1 2, .slt 3 1 2, .sltu 3 1 2, .min 3 1 2, .max 3 1 2, .minu 3 1 2, .maxu 3 1 2].map (fun i => s3 i ints)
    = [0xFFFFFFFFFFFFFFFE#64, 0xFFFFFFFFFFFFFFF8#64, 3#64, 0xFFFFFFFFFFFFFFFB#64, 0xFFFFFFFFFFFFFFF8#64, 0xFFFFFFFFFFFFFFF8#64,
       0xFFFFFFFFFFFFFFD8#64, 0x1FFFFFFFFFFFFFFF#64, 0xFFFFFFFFFFFFFFFF#64, 0xFFFFFFFFFFFFFFDF#64, 0x7FFFFFFFFFFFFFFF#64, 1#64, 0#64,
       0xFFFFFFFFFFFFFFFB#64, 3#64, 3#64, 0xFFFFFFFFFFFFFFFB#64].map some := by decide

theorem test_alu_unary : [Instr.clz 3 2, .ctz 3 4, .popc 3 1, .sextb 3 5, .sexth 3 6, .sextw 3 7, .zextw 3 1, .clz 3 0].map (fun i => s3 i ints)
    = [62#64, 3#64, 63#64, 0xFFFFFFFFFFFFFF80#64, 0xFFFFFFFFFFFF8000#64, 0xFFFFFFFF80000000#64, 0xFFFFFFFB#64, 64#64].map some := by decide

theorem test_aluw_muldiv : [Instr.addw 3 1 2, .subw 3 1 2, .sllw 3 1 2, .srlw 3 1 2, .sraw 3 1 2, .mulw 3 1 2, .mul 3 1 2, .mulh 3 1 2,
    .mulhu 3 1 2, .mulhsu 3 1 2, .div 3 1 2, .divu 3 1 2, .rem 3 1 2, .remu 3 1 2, .divw 3 1 2, .divuw 3 1 2, .remw 3 1 2,
    .remuw 3 1 2].map (fun i => s3 i ints)
    = [0xFFFFFFFFFFFFFFFE#64, 0xFFFFFFFFFFFFFFF8#64, 0xFFFFFFFFFFFFFFD8#64, 0x1FFFFFFF#64, 0xFFFFFFFFFFFFFFFF#64, 0xFFFFFFFFFFFFFFF1#64,
       0xFFFFFFFFFFFFFFF1#64, 0xFFFFFFFFFFFFFFFF#64, 2#64, 0xFFFFFFFFFFFFFFFF#64, 0xFFFFFFFFFFFFFFFF#64, 0x5555555555555553#64,
       0xFFFFFFFFFFFFFFFE#64, 2#64, 0xFFFFFFFFFFFFFFFF#64, 0x55555553#64, 0xFFFFFFFFFFFFFFFE#64, 2#64].map some := by decide

/-- Table 9.1: a zero divisor and the most negative dividend by -1. -/
theorem test_division_edges : [Instr.div 3 1 0, .divu 3 1 0, .rem 3 1 0, .remu 3 1 0, .div 3 8 9, .rem 3 8 9, .divuw 3 1 0, .divw 3 7 9].map
    (fun i => s3 i (bank [(1, 0xFFFFFFFFFFFFFFFB#64), (7, 0x80000000#64), (8, 0x8000000000000000#64), (9, 0xFFFFFFFFFFFFFFFF#64)]))
    = [0xFFFFFFFFFFFFFFFF#64, 0xFFFFFFFFFFFFFFFF#64, 0xFFFFFFFFFFFFFFFB#64, 0xFFFFFFFFFFFFFFFB#64, 0x8000000000000000#64, 0#64,
       0xFFFFFFFFFFFFFFFF#64, 0xFFFFFFFF80000000#64].map some := by decide

theorem test_immediates : [Instr.addi 3 1 0x7FFF, .andi 3 1 0x000F, .ori 3 1 4, .xori 3 1 0x7FFF, .slti 3 1 0x7FFC, .sltiu 3 2 0x7FFF, .slli 3 1 4,
    .srli 3 1 60, .srai 3 1 1, .rori 3 1 4, .movi 3 0x4000, .addpc 3 8, .addiw 3 7 0x7FFF].map (fun i => s3 i ints)
    = [0xFFFFFFFFFFFFFFFA#64, 0xB#64, 0xFFFFFFFFFFFFFFFF#64, 4#64, 1#64, 1#64, 0xFFFFFFFFFFFFFFB0#64, 0xF#64, 0xFFFFFFFFFFFFFFFD#64,
       0xBFFFFFFFFFFFFFFF#64, 0xFFFFFFFFFFFFC000#64, 8#64, 0x7FFFFFFF#64].map some := by decide

/-- The context after the hint words given, at pc 4 times their number. -/
def hinted (l : List (Nat × Word)) (h : List Hint) : State :=
  { State.reset with cx := { r := { sregs := l, hints := h, pc := BitVec.ofNat 64 (4 * h.length) }, st := .run } }

/-- R274: payload 0x20 above the field 0x0808 is 0x100808 (Table 13.11); R308: HMOD SAT clamps. -/
theorem test_hints : s3 (.movi 3 0x0808) (hinted [] [⟨0#3, 0x20#22, 0#64⟩]) = some 0x100808#64
    ∧ s3 (.add 3 1 1) (hinted [(1, 0x7000000000000000#64)] [⟨3#3, 8#22, 0#64⟩]) = some 0x7FFFFFFFFFFFFFFF#64
    ∧ s3 (.addw 3 1 1) (hinted [(1, 0x80000000#64)] [⟨3#3, 8#22, 0#64⟩]) = some 0xFFFFFFFF80000000#64
    ∧ trapped (.add 3 1 1) (hinted [] [⟨0#3, 1#22, 0#64⟩]) = some (2#64, 0#64) := by decide

theorem test_hint_words : left (fun t => (t.cx.r.hints, t.cx.r.pc)) (.immx 5) (bank []) = some ([⟨0#3, 5#22, 0#64⟩], 4#64)
    ∧ left (fun t => (t.cx.r.hints, t.cx.r.pc)) (.hcache 3) (bank []) = some ([⟨1#3, 3#22, 0#64⟩], 4#64)
    ∧ left (fun t => (t.cx.r.hints, t.cx.r.pc)) (.hsched 1) (bank []) = some ([⟨2#3, 1#22, 0#64⟩], 4#64)
    ∧ left (fun t => (t.cx.r.hints, t.cx.r.pc)) (.hmod 2 1 1 1) (bank []) = some ([⟨3#3, 0x2D#22, 0#64⟩], 4#64)
    ∧ trapped (.hnop 0) (hinted [] [⟨4#3, 0#22, 0#64⟩]) = some (2#64, 4#64) := by decide

/-- FP32 codes: s1 = 3.0, s2 = 2.0, s4 = signalling NaN, s5 = infinity, s6 = -0, s7 = 1.5 in BF16, s8 = 100 (integer), s9 = 256.0. -/
def floats : State :=
  bank [(1, 0x40400000#64), (2, 0x40000000#64), (4, 0x7F800001#64), (5, 0x7F800000#64), (6, 0x80000000#64), (7, 0x3FC0#64), (8, 100#64),
    (9, 0x43800000#64)]

/-- Table 11.3, worked out by hand: 5, 1, 6, 1.5, sqrt 256 = 16, 2, 3, comparisons, class of +infinity, magnitude, negation. -/
theorem test_float : [Instr.fadd 3 1 2 0, .fsub 3 1 2 0, .fmul 3 1 2 0, .fdiv 3 1 2 0, .fsqrt 3 9 0, .fmin 3 1 2 0, .fmax 3 1 2 0, .feq 3 1 2 0,
    .flt 3 2 1 0, .fle 3 1 1 0, .fclass 3 5 0, .fabs 3 6 0, .fneg 3 1 0, .fadd 3 7 7 1, .fcvt 3 8 0x00 0, .fcvt 3 1 0x08 0].map (fun i => s3 i floats)
    = [0x40A00000#64, 0x3F800000#64, 0x40C00000#64, 0x3FC00000#64, 0x41800000#64, 0x40000000#64, 0x40400000#64, 0#64, 1#64, 1#64, 0x80#64, 0#64,
       0xC0400000#64, 0x4040#64, 0x42C80000#64, 3#64].map some := by decide

/-- s3 = 1.0: 1 + 3 x 2 = 7 and 1 - 3 x 2 = -5. -/
theorem test_fused : s3 (.fmac 3 1 2 0) (bank [(1, 0x40400000#64), (2, 0x40000000#64), (3, 0x3F800000#64)]) = some 0x40E00000#64
    ∧ s3 (.fmsac 3 1 2 0) (bank [(1, 0x40400000#64), (2, 0x40000000#64), (3, 0x3F800000#64)]) = some 0xC0A00000#64 := by decide

/-- R244, R312: a signalling NaN gives the canonical NaN with NV; 3 / 0 gives infinity with DZ; NaN compares false with NV. -/
theorem test_float_flags : left (fun t => (t.rd 3, t.cx.r.fflags)) (.fadd 3 1 4 0) floats = some (0x7FC00000#64, 0x10#5)
    ∧ left (fun t => (t.rd 3, t.cx.r.fflags)) (.fdiv 3 1 0 0) floats = some (0x7F800000#64, 0x08#5)
    ∧ left (fun t => (t.rd 3, t.cx.r.fflags)) (.flt 3 4 1 0) floats = some (0#64, 0x10#5)
    ∧ left (fun t => (t.rd 3, t.cx.r.fflags)) (.fsub 3 5 5 0) floats = some (0x7FC00000#64, 0x10#5) := by decide

/-- The pc afterwards, and s3. -/
def goes : Instr → State → Option (Word × Word) := left (fun t => (t.cx.r.pc, t.rd 3))

/-- pc 0x100, s1 = -5, s2 = 3, s4 = 0x206. -/
def at100 : State := { ints with cx := { ints.cx with r := { sregs := [(1, 0xFFFFFFFFFFFFFFFB#64), (2, 3#64), (4, 0x206#64)], pc := 0x100#64 } } }

theorem test_branches : [Instr.beq 1 1 4, .bne 1 2 0x7FFF, .blt 1 2 4, .bge 1 2 4, .bltu 1 2 4, .bgeu 1 2 4, .beq 1 2 4].map (fun i => (goes i at100).map (·.1))
    = [0x110#64, 0xFC#64, 0x110#64, 0x104#64, 0x104#64, 0x110#64, 0x104#64].map some := by decide

theorem test_jumps : goes (.jal 3 0xFFFFC) at100 = some (0xF0#64, 0x104#64) ∧ goes (.jalr 3 4 0x7FFE) at100 = some (0x204#64, 0x104#64)
    ∧ trapped (.jalr 3 4 0) at100 = some (3#64, 0x206#64) := by decide

theorem test_loop : left (fun t => (t.cx.r.pc, t.cx.r.lc1, t.cx.r.lstart1, t.cx.r.lend1)) (.loop 1 2 2) at100 = some (0x104#64, 3#64, 0x104#64, 0x108#64)
    ∧ left (fun t => (t.cx.r.pc, t.cx.r.lc0)) (.loop 0 0 2) at100 = some (0x10C#64, 0#64)
    ∧ trapped (.loop 0 2 0) at100 = some (1#64, 0x2C010000#64) := by decide

/-! ## Single steps: memory and system -/

/-- A task whose heap range is the first 64 KiB of stack 0, with these bytes at 0x1000. -/
def ram (l : List (Nat × Word)) (b : List Byte) : State := { (bank l).withFetchWord 32 0 with mem := writeMem [] 0x1000 b }

/-- A task that holds page 0 of core 0's basin, with these bytes at its start. -/
def pool (l : List (Nat × Word)) (b : List Byte) : State :=
  { bank l with cores := [(0, { pages := [(0, 1)] })], mem := writeMem [] (basinLoc 0 0 0) b }

/-- The bytes 80 FF 01 02 03 04 05 86. -/
def eight : List Byte := [0x80#8, 0xFF#8, 1#8, 2#8, 3#8, 4#8, 5#8, 0x86#8]

theorem test_loads : [Instr.ldb 3 1 0 0, .ldbu 3 1 0 0, .ldh 3 1 0 0, .ldhu 3 1 0 0, .ldw 3 1 0 1, .ldwu 3 1 0 1, .ldd 3 1 0 0].map (fun i => s3 i (ram [(1, 0x1000#64)] eight))
    = [0xFFFFFFFFFFFFFF80#64, 0x80#64, 0xFFFFFFFFFFFFFF80#64, 0xFF80#64, 0xFFFFFFFF86050403#64, 0x86050403#64, 0x860504030201FF80#64].map some := by decide

/-- The 8 bytes at 0x1000 afterwards, least significant first. -/
def at1000 : Instr → State → Option Nat := left (fun t => t.natAtLoc 0x1000 8)

theorem test_stores : [Instr.stb 2 1 0 2, .sth 2 1 0 1, .stw 2 1 0 1, .std 2 1 0 0].map (fun i => at1000 i (ram [(1, 0x1000#64), (2, 0x1122334455667788#64)] eight))
    = [0x860504030288FF80, 0x860504037788FF80, 0x556677880201FF80, 0x1122334455667788].map some := by decide

/-- R199: an access that crosses a 128-byte sector traps MISALIGNED; Table 7.6: outside the heap with no page table, TRANSLATION; the basin of a page
not held, WINDOW_PROTECTION. -/
theorem test_address_traps : trapped (.ldd 3 1 0 0) (ram [(1, 0x107C#64)] eight) = some (3#64, 0x107C#64)
    ∧ trapped (.stw 3 1 0 0) (ram [(1, 0x800000000000#64)] eight) = some (5#64, 0x800000000000#64)
    ∧ trapped (.ldb 3 1 0 0) (pool [(1, 0xFFFF800000001000#64)] []) = some (5#64, 0xFFFF800000001000#64) := by decide

theorem test_basin : s3 (.ldd 3 1 0 0) (pool [(1, 0xFFFF800000000000#64)] eight) = some 0x860504030201FF80#64
    ∧ left (fun t => t.natAtLoc (basinLoc 0 0 8) 8) (.std 2 1 0 1) (pool [(1, 0xFFFF800000000000#64), (2, 7#64)] eight) = some 7 := by decide

/-- The full/empty bit of the first basin word afterwards, and s3. -/
def fe : Instr → State → Option (Bool × Word) := left (fun t => (t.full (basinLoc 0 0 0 / 8), t.rd 3))

/-- The first basin word full, with the bytes above. -/
def fullPool : State := { pool [(1, 0xFFFF800000000000#64), (2, 7#64)] eight with fe := [basinLoc 0 0 0 / 8] }

theorem test_full_empty : fe (.ldf 3 1 1 0) fullPool = some (false, 0x860504030201FF80#64) ∧ fe (.ldf 3 1 0 0) fullPool = some (true, 0x860504030201FF80#64)
    ∧ fe (.feset 1) (pool [(1, 0xFFFF800000000000#64)] []) = some (true, 0#64) ∧ fe (.feclr 1) fullPool = some (false, 0#64)
    ∧ fe (.fest 3 1) fullPool = some (true, 1#64) := by decide

theorem test_stf : left (fun t => (t.full (basinLoc 0 0 0 / 8), t.natAtLoc (basinLoc 0 0 0) 8)) (.stf 2 1 1 0) (pool [(1, 0xFFFF800000000000#64), (2, 7#64)] [])
      = some (true, 7)
    ∧ left (fun t => (t.cx.st, t.cx.wait)) (.stf 2 1 1 0) fullPool = some (.wait, .retry (.basinWord (basinLoc 0 0 0 / 8)))
    ∧ left (fun t => (t.cx.st, t.cx.wait)) (.ldf 3 1 0 0) (pool [(1, 0xFFFF800000000000#64)] []) = some (.wait, .retry (.basinWord (basinLoc 0 0 0 / 8))) := by
  decide

theorem test_memx : left (fun t => t.cx.r.pc) (.fence 7) (bank []) = some 4#64
    ∧ left (fun t => t.cx.st) (.fence 2) { bank [] with cx := { (bank []).cx with pendD := 1 } } = some .wait
    ∧ left (fun t => t.cx.r.pc) (.fence 1) { bank [] with cx := { (bank []).cx with pendD := 1 } } = some 4#64
    ∧ trapped (.fence 0) (bank []) = some (1#64, 0x5C000001#64)
    ∧ left (fun t => t.cx.r.pc) (.pref 1) (bank [(1, 0x7FFFFFFFFFFF#64)]) = some 4#64 := by decide

theorem test_monitor : left (fun t => (t.cx.monitor, t.cx.r.pc)) (.mwarm 1) (ram [(1, 0x1008#64)] []) = some (some ⟨0x20, false, none⟩, 4#64)
    ∧ s3 (.mwait 3 1) (ram [(1, 0x1000#64)] eight) = some 0x860504030201FF80#64
    ∧ left (fun t => t.cx.wait) (.mwait 3 1)
        { ram [(1, 0x1000#64)] eight with cx := { (ram [(1, 0x1000#64)] eight).cx with monitor := some ⟨0x20, false, none⟩ } } = some (.retry .monitor) := by
  decide

theorem test_cache_control : left (fun t => t.cx.r.pc) (.cflush 1 2) (ram [(1, 0x1000#64), (2, 512#64)] eight) = some 4#64
    ∧ left (fun t => t.cx.r.pc) (.cinv 1 2) (ram [(1, 0x1000#64), (2, 512#64)] eight) = some 4#64
    ∧ left (fun t => (t.myCore.robuf, t.cx.r.pc)) (.roinv 1 2) (ram [(1, 0x1000#64), (2, 512#64)] []) = some ([], 4#64)
    ∧ s3 (.ldro 3 1 0) (ram [(1, 0x1000#64)] eight) = some 0x860504030201FF80#64
    ∧ trapped (.ldro 3 1 0) (ram [(1, 0x1004#64)] eight) = some (3#64, 0x1004#64) := by decide

/-- s3 and the 4 bytes at 0x1000 afterwards. -/
def swapped : Instr → State → Option (Word × Nat) := left (fun t => (t.rd 3, t.natAtLoc 0x1000 4))

/-- The 32-bit word at 0x1000 is -2 (old), s2 = 3; for ACAS s3 is -2. -/
def atoms : State := ram [(1, 0x1000#64), (2, 3#64), (3, 0xFFFFFFFE#64)] (bytesLE 4 0xFFFFFFFE)

/-- Table 11.6 in the 32-bit forms: old values sign-extended but for AMINU and AMAXU. -/
theorem test_atomics : [Instr.aadd 3 1 2 0 0, .aand 3 1 2 0 0, .aor 3 1 2 0 0, .axor 3 1 2 0 0, .amin 3 1 2 0 0, .amax 3 1 2 0 0, .aminu 3 1 2 0 0,
    .amaxu 3 1 2 0 0, .aswap 3 1 2 0 0, .acas 3 1 2 0 0].map (fun i => swapped i atoms)
    = [(0xFFFFFFFFFFFFFFFE#64, 1), (0xFFFFFFFFFFFFFFFE#64, 2), (0xFFFFFFFFFFFFFFFE#64, 0xFFFFFFFF), (0xFFFFFFFFFFFFFFFE#64, 0xFFFFFFFD),
       (0xFFFFFFFFFFFFFFFE#64, 0xFFFFFFFE), (0xFFFFFFFFFFFFFFFE#64, 3), (0xFFFFFFFE#64, 3), (0xFFFFFFFE#64, 0xFFFFFFFE), (0xFFFFFFFFFFFFFFFE#64, 3),
       (0xFFFFFFFFFFFFFFFE#64, 3)].map some := by decide

/-- 1.0 + 2.0 = 3.0; the larger magnitude of 1.0 and -2.0 is 2.0; AMAXRST reads and clears; a failed ACAS writes nothing. -/
theorem test_atomics_float : swapped (.afadd 3 1 2 0) (ram [(1, 0x1000#64), (2, 0x40000000#64)] (bytesLE 4 0x3F800000)) = some (0x3F800000#64, 0x40400000)
    ∧ swapped (.afmaxabs 3 1 2 0) (ram [(1, 0x1000#64), (2, 0xC0000000#64)] (bytesLE 4 0x3F800000)) = some (0x3F800000#64, 0x40000000)
    ∧ swapped (.amaxrst 3 1 0) (ram [(1, 0x1000#64)] (bytesLE 4 0x3F800000)) = some (0x3F800000#64, 0)
    ∧ swapped (.acas 3 1 2 0 1) (ram [(1, 0x1000#64), (2, 3#64), (3, 5#64)] (bytesLE 8 6)) = some (6#64, 6)
    ∧ trapped (.aadd 3 1 2 0 1) (ram [(1, 0x1004#64)] []) = some (3#64, 0x1004#64) := by decide

/-- Supervisor core 0 of die 0 at pc 0x80. -/
def boss (l : List (Nat × Word)) : State :=
  { State.reset with cur := ⟨0, 64, 0, false⟩, cx := { r := { sregs := l, pc := 0x80#64, epc := 0x200#64, tval := 9#64 }, st := .run } }

theorem test_special_registers : s3 (.srrd 3 0x003) (boss []) = some 0x200#64 ∧ s3 (.srrd 3 0x000) (boss []) = some 0x80000000#64
    ∧ left (fun t => t.cx.r.lc0) (.srwr 1 0x083) (boss [(1, 5#64)]) = some 5#64
    ∧ left (fun t => t.cx.r.fflags) (.srset 1 0x000) { bank [(1, 0x21#64)] with cx := { (bank [(1, 0x21#64)]).cx with r := { (bank [(1, 0x21#64)]).cx.r with fflags := 2#5 } } }
        = some 3#5
    ∧ left (fun t => t.cx.r.tval) (.srclr 1 0x002) (boss [(1, 1#64)]) = some 8#64
    ∧ trapped (.srwr 1 0x003) (bank []) = some (0x0E#64, 0xE0100304#64) ∧ trapped (.srrd 3 0x005) (bank []) = some (1#64, 0xE0300503#64) := by decide

theorem test_system : trapped (.trap 1) (bank [(1, 77#64)]) = some (0x10#64, 77#64) ∧ trapped .bkpt (bank []) = some (0x0F#64, 0#64)
    ∧ left (fun t => t.cx.st) .halt (boss []) = some .halted ∧ trapped .halt (bank []) = some (0x10#64, 0#64)
    ∧ left (fun t => t.cx.r.pc) .eret (boss []) = some 0x200#64 ∧ trapped .eret (bank []) = some (0x0E#64, 0xE0000002#64)
    ∧ left (fun t => t.cx.r.pc) .ifence (bank []) = some 4#64 ∧ left (fun t => t.cx.r.pc) .wfe (bank []) = some 4#64
    ∧ left (fun t => t.cx.wait) .wfe (boss []) = some (.retry .supervisorItem)
    ∧ left (fun t => t.cx.r.pc) (.tlbinv 1 2) (boss [(2, 0x80#64)]) = some 0x84#64 := by decide

/-- Context 3 of core 1 is TRAPPED with its sr.epc at 0x40; the supervisor resumes it at its sr.epc, or reads 1 or 2 for one that is not. -/
theorem test_ctxres :
    let s : State := { boss [(1, 0x103#64), (4, 0x104#64), (5, 0x4000#64)] with
      banks := [(CtxId.key ⟨0, 1, 3, false⟩, { r := { epc := 0x40#64, pc := 0x3C#64 }, st := .trapped })] }
    left (fun t => ((t.ctx ⟨0, 1, 3, false⟩).st, (t.ctx ⟨0, 1, 3, false⟩).r.pc, t.rd 3)) (.ctxres 3 1 2) s = some (.run, 0x40#64, 0#64)
    ∧ s3 (.ctxres 3 4 2) s = some 1#64 ∧ s3 (.ctxres 3 5 2) s = some 2#64 := by decide

/-! ## Single steps: the vector unit -/

/-- A vector register of w-bit elements. -/
def elems (w : Nat) (l : List Nat) : VReg := BitVec.ofNat 1024 (l.zipIdx.foldl (fun a e => a + e.1 * 2 ^ (w * e.2)) 0)

/-- A task with a vector configuration, a vector length, scalar and vector registers. -/
def vec (vt vl : Word) (l : List (Nat × Word)) (v : List (Nat × VReg)) : State :=
  { State.reset with cx := { r := { sregs := l, vregs := v, vl := vl, vtype := vt }, st := .run } }

/-- The first four elements of v3 afterwards, of the width of SEW. -/
def v3 : Instr → State → Option (List Nat) := left (fun t => (List.range 4).map (fun i => t.cx.r.elem 3 t.cx.r.sew i))

/-- SEW 32, LMUL 1, vl 3: v1 = 5, -1, 2^31 - 1; v2 = 3, 2, 1; v3 = 9 everywhere; s2 = 3. -/
def vecs : State := vec 2 3 [(2, 3#64)] [(1, elems 32 [5, 0xFFFFFFFF, 0x7FFFFFFF, 77]), (2, elems 32 [3, 2, 1, 77]), (3, elems 32 [9, 9, 9, 9])]

theorem test_vector_integer_vv : [
    Instr.vaddVv 3 1 2 0, .vsubVv 3 1 2 0, .vrsubVv 3 1 2 0, .vmulVv 3 1 2 0, .vmulhVv 3 1 2 0 0, .vmaccVv 3 1 2 0, .vnmsacVv 3 1 2 0,
    .vandVv 3 1 2 0, .vorVv 3 1 2 0, .vxorVv 3 1 2 0, .vsllVv 3 1 2 0, .vsrlVv 3 1 2 0, .vsraVv 3 1 2 0, .vminVv 3 1 2 0, .vmaxVv 3 1 2 0,
    .vminuVv 3 1 2 0, .vmaxuVv 3 1 2 0, .vsaddVv 3 1 2 0 0, .vssubVv 3 1 2 0 0].map (fun i => v3 i vecs)
  = [
    [8, 1, 0x80000000, 9], [2, 0xFFFFFFFD, 0x7FFFFFFE, 9], [0xFFFFFFFE, 3, 0x80000002, 9], [15, 0xFFFFFFFE, 0x7FFFFFFF, 9],
    [0, 0xFFFFFFFF, 0, 9], [24, 7, 0x80000008, 9], [0xFFFFFFFA, 11, 0x8000000A, 9], [1, 2, 1, 9], [7, 0xFFFFFFFF, 0x7FFFFFFF, 9],
    [6, 0xFFFFFFFD, 0x7FFFFFFE, 9], [40, 0xFFFFFFFC, 0xFFFFFFFE, 9], [0, 0x3FFFFFFF, 0x3FFFFFFF, 9], [0, 0xFFFFFFFF, 0x3FFFFFFF, 9],
    [3, 0xFFFFFFFF, 1, 9], [5, 2, 0x7FFFFFFF, 9], [3, 2, 1, 9], [5, 0xFFFFFFFF, 0x7FFFFFFF, 9], [8, 1, 0x7FFFFFFF, 9],
    [2, 0xFFFFFFFD, 0x7FFFFFFE, 9]].map some := by decide +kernel

theorem test_vector_integer_vx : [
    Instr.vaddVx 3 1 2 0, .vsubVx 3 1 2 0, .vrsubVx 3 1 2 0, .vmulVx 3 1 2 0, .vmulhVx 3 1 2 0 0, .vmaccVx 3 1 2 0, .vnmsacVx 3 1 2 0,
    .vandVx 3 1 2 0, .vorVx 3 1 2 0, .vxorVx 3 1 2 0, .vsllVx 3 1 2 0, .vsrlVx 3 1 2 0, .vsraVx 3 1 2 0, .vminVx 3 1 2 0, .vmaxVx 3 1 2 0,
    .vminuVx 3 1 2 0, .vmaxuVx 3 1 2 0, .vsaddVx 3 1 2 0 0, .vssubVx 3 1 2 0 0].map (fun i => v3 i vecs)
  = [
    [8, 2, 0x80000002, 9], [2, 0xFFFFFFFC, 0x7FFFFFFC, 9], [0xFFFFFFFE, 4, 0x80000004, 9], [15, 0xFFFFFFFD, 0x7FFFFFFD, 9],
    [0, 0xFFFFFFFF, 1, 9], [24, 6, 0x80000006, 9], [0xFFFFFFFA, 12, 0x8000000C, 9], [1, 3, 3, 9], [7, 0xFFFFFFFF, 0x7FFFFFFF, 9],
    [6, 0xFFFFFFFC, 0x7FFFFFFC, 9], [40, 0xFFFFFFF8, 0xFFFFFFF8, 9], [0, 0x1FFFFFFF, 0xFFFFFFF, 9], [0, 0xFFFFFFFF, 0xFFFFFFF, 9],
    [3, 0xFFFFFFFF, 3, 9], [5, 3, 0x7FFFFFFF, 9], [3, 3, 3, 9], [5, 0xFFFFFFFF, 0x7FFFFFFF, 9], [8, 2, 0x7FFFFFFF, 9],
    [2, 0xFFFFFFFC, 0x7FFFFFFC, 9]].map some := by decide +kernel
theorem test_vector_compare : [Instr.vseqVv 3 1 2 0, .vsneVv 3 1 2 0, .vsltVv 3 1 2 0, .vsltuVv 3 1 2 0, .vsleVv 3 1 2 0, .vseqVx 3 2 2 0, .vsneVx 3 2 2 0, .vsltVx 3 2 2 0,
    .vsltuVx 3 2 2 0, .vsleVx 3 2 2 0].map (left (fun t => (t.cx.r.vget 3).toNat % 16) · vecs) = [8, 15, 10, 8, 10, 9, 14, 14, 14, 15].map some := by decide +kernel

/-- R337, R338: masked by v0 = 101, an inactive element is kept; below vstart nothing is written and vstart becomes 0. -/
theorem test_vector_mask : v3 (.vaddVv 3 1 2 1) { vecs with cx := { vecs.cx with r := { vecs.cx.r with vregs := (0, 5#1024) :: vecs.cx.r.vregs } } } = some [8, 9, 0x80000000, 9]
    ∧ v3 (.vaddVv 3 1 2 0) { vecs with cx := { vecs.cx with r := { vecs.cx.r with vstart := 2#64 } } } = some [9, 9, 0x80000000, 9]
    ∧ v3 (.vmergeVv 3 1 2) { vecs with cx := { vecs.cx with r := { vecs.cx.r with vregs := (0, 5#1024) :: vecs.cx.r.vregs } } } = some [3, 0xFFFFFFFF, 1, 9]
    ∧ v3 (.vmergeVx 3 1 2) { vecs with cx := { vecs.cx with r := { vecs.cx.r with vregs := (0, 5#1024) :: vecs.cx.r.vregs } } } = some [3, 0xFFFFFFFF, 3, 9]
    ∧ v3 (.vmvVv 3 1 0) vecs = some [5, 0xFFFFFFFF, 0x7FFFFFFF, 9] ∧ v3 (.vmvVx 3 2 0) vecs = some [3, 3, 3, 9] := by decide +kernel

/-- R352, R353: sums and products of twice the width into the group v4, v5; v6 halves of v8 = 7, -7, 2^40 by a shift of 1 to nearest even, clamped. -/
theorem test_vector_widths : left (fun t => (List.range 3).map (fun i => t.cx.r.elem 4 64 i)) (.vwaddVv 4 1 2 0 0) vecs = some [8, 1, 0x80000000]
    ∧ left (fun t => (List.range 3).map (fun i => t.cx.r.elem 4 64 i)) (.vwaddVx 4 1 2 0 1) vecs = some [8, 0x100000002, 0x80000002]
    ∧ left (fun t => (List.range 3).map (fun i => t.cx.r.elem 4 64 i)) (.vwmulVv 4 1 2 0 0) vecs = some [15, 0xFFFFFFFFFFFFFFFE, 0x7FFFFFFF]
    ∧ left (fun t => (List.range 3).map (fun i => t.cx.r.elem 4 64 i)) (.vwmulVx 4 1 2 0 1) vecs = some [15, 0x2FFFFFFFD, 0x17FFFFFFD]
    ∧ v3 (.vnclipVx 3 8 2 0 0) (vec 2 3 [(2, 1#64)] [(8, elems 64 [7, 0xFFFFFFFFFFFFFFF9, 0x10000000000])]) = some [4, 0xFFFFFFFC, 0x7FFFFFFF, 0]
    ∧ v3 (.vnclipVv 3 8 2 0 1) (vec 2 3 [] [(2, elems 32 [1, 2, 0]), (8, elems 64 [7, 6, 0x10000000000])]) = some [4, 2, 0xFFFFFFFF, 0]
    ∧ v3 (.vext 3 1 0 1 0) (vec 2 3 [] [(1, elems 16 [0x8000, 1, 0xFFFF])]) = some [0xFFFF8000, 1, 0xFFFFFFFF, 0]
    ∧ trapped (.vwaddVv 1 1 2 0 0) vecs = some (1#64, 0x8210881C#64) := by decide +kernel

/-- SEW 32: v1 = 3.0, 1.0, signalling NaN; v2 = 2.0, 1.0, 1.0; v3 = 1.0; s2 = 2.0. -/
def fvecs : State :=
  vec 2 3 [(2, 0x40000000#64)] [(1, elems 32 [0x40400000, 0x3F800000, 0x7F800001]), (2, elems 32 [0x40000000, 0x3F800000, 0x3F800000]),
    (3, elems 32 [0x3F800000, 0x3F800000, 0x3F800000])]

/-- The first two elements of v3 and FFLAGS. -/
def fv3 : Instr → State → Option (List Nat × BitVec 5) := left (fun t => ((List.range 2).map (fun i => t.cx.r.elem 3 32 i), t.cx.r.fflags))

theorem test_vector_float_vv : [Instr.vfaddVv 3 1 2 0, .vfsubVv 3 1 2 0, .vfmulVv 3 1 2 0, .vfdivVv 3 1 2 0, .vfminVv 3 1 2 0, .vfmaxVv 3 1 2 0, .vfmaccVv 3 1 2 0,
    .vfnmsacVv 3 1 2 0, .vfsqrt 3 2 0, .vfabs 3 1 0, .vfneg 3 1 0, .vfsgnjVv 3 1 2 0].map (fun i => fv3 i fvecs)
    = [([0x40A00000, 0x40000000], 16#5), ([0x3F800000, 0], 16#5), ([0x40C00000, 0x3F800000], 16#5), ([0x3FC00000, 0x3F800000], 16#5), ([0x40000000, 0x3F800000], 16#5),
       ([0x40400000, 0x3F800000], 16#5), ([0x40E00000, 0x40000000], 16#5), ([0xC0A00000, 0], 16#5), ([0x3FB504F3, 0x3F800000], 1#5), ([0x40400000, 0x3F800000], 16#5),
       ([0xC0400000, 0xBF800000], 16#5), ([0x40400000, 0x3F800000], 16#5)].map some := by decide +kernel

theorem test_vector_float_vx : [Instr.vfaddVx 3 1 2 0, .vfsubVx 3 1 2 0, .vfmulVx 3 1 2 0, .vfdivVx 3 1 2 0, .vfminVx 3 1 2 0, .vfmaxVx 3 1 2 0, .vfmaccVx 3 1 2 0,
    .vfnmsacVx 3 1 2 0, .vfsgnjVx 3 1 2 0].map (fun i => fv3 i fvecs)
    = [([0x40A00000, 0x40400000], 16#5), ([0x3F800000, 0xBF800000], 16#5), ([0x40C00000, 0x40000000], 16#5), ([0x3FC00000, 0x3F000000], 16#5),
       ([0x40000000, 0x3F800000], 16#5), ([0x40400000, 0x40000000], 16#5), ([0x40E00000, 0x40400000], 16#5), ([0xC0A00000, 0xBF800000], 16#5),
       ([0x40400000, 0x3F800000], 16#5)].map some := by decide +kernel

theorem test_vector_float_compare : [Instr.vfeqVv 3 1 2 0, .vfltVv 3 1 2 0, .vfleVv 3 1 2 0, .vfeqVx 3 1 2 0, .vfltVx 3 1 2 0, .vfleVx 3 1 2 0].map
      (left (fun t => (t.cx.r.vget 3).toNat % 8) · fvecs) = [2, 0, 2, 0, 2, 2].map some
    ∧ trapped (.vfaddVv 3 1 2 0) (vec 3 1 [] []) = some (1#64, 0x86308801#64) := by decide +kernel

/-- Element 0 of v3 afterwards. -/
def r3 : Instr → State → Option Nat := left (fun t => t.cx.r.elem 3 t.cx.r.sew 0)

theorem test_reductions : [Instr.vredsum 3 1 2 0, .vredmax 3 1 2 0 0, .vredmin 3 1 2 0 1, .vredand 3 1 2 0, .vredor 3 1 2 0, .vredxor 3 1 2 0].map (fun i => r3 i vecs)
    = [0x80000006, 0x7FFFFFFF, 3, 1, 0xFFFFFFFF, 0x80000006].map some := by decide +kernel

/-- The worked example of chapter 12: v8 = 2^24, 1, 1, 1, 1 and a start of +0 give 0x4B800002 by the tree and 0x4B800000 in order, with NX. -/
theorem test_float_sums :
    let s := vec 2 5 [] [(8, elems 32 [0x4B800000, 0x3F800000, 0x3F800000, 0x3F800000, 0x3F800000])]
    left (fun t => (t.cx.r.elem 10 32 0, t.cx.r.fflags)) (.vfredtsum 10 8 9 0) s = some (0x4B800002, 1#5)
    ∧ left (fun t => (t.cx.r.elem 11 32 0, t.cx.r.fflags)) (.vfredosum 11 8 9 0) s = some (0x4B800000, 1#5)
    ∧ r3 (.vfredmax 3 8 9 0) s = some 0x4B800000 ∧ r3 (.vfredmin 3 8 9 0) s = some 0
    ∧ r3 (.vfamax 3 1 2 0) (vec 2 2 [] [(1, elems 32 [0xC0400000, 0x3F800000])]) = some 0x40400000 := by decide +kernel

theorem test_permutations : [Instr.vslideup 3 1 2 0, .vslidedn 3 1 2 0, .vslide1up 3 1 2 0, .vslide1dn 3 1 2 0, .vgath 3 1 2 0, .vcompress 3 1 4, .viota 3 4 0, .vid 3 0].map
      (fun i => v3 i (vec 2 3 [(2, 1#64)] [(1, elems 32 [5, 6, 7, 8]), (2, elems 32 [2, 0, 99, 0]), (3, elems 32 [9, 9, 9, 9]), (4, 5#1024)]))
    = [[9, 5, 6, 9], [6, 7, 8, 9], [1, 5, 6, 9], [6, 7, 1, 9], [7, 5, 0, 9], [5, 7, 9, 9], [0, 1, 1, 9], [0, 1, 2, 9]].map some := by decide +kernel

theorem test_vector_moves : s3 (.vmvxs 3 1) (vec 2 0 [] [(1, elems 32 [0x80000000, 1])]) = some 0xFFFFFFFF80000000#64
    ∧ v3 (.vmvsx 3 2) vecs = some [3, 9, 9, 9] ∧ v3 (.vmvsx 3 2) { vecs with cx := { vecs.cx with r := { vecs.cx.r with vl := 0#64 } } } = some [9, 9, 9, 9] := by decide +kernel

/-- vl 4 over v1 = 0110, v2 = 0011. -/
theorem test_masks :
    let s := vec 0 4 [] [(1, 6#1024), (2, 3#1024), (3, 0xF0#1024)]
    [Instr.vmand 3 1 2, .vmor 3 1 2, .vmxor 3 1 2, .vmandn 3 1 2, .vmnot 3 1, .vmsbf 3 1 0].map (left (fun t => (t.cx.r.vget 3).toNat) · s)
      = [0xF2, 0xF7, 0xF5, 0xF4, 0xF9, 0xF1].map some
    ∧ s3 (.vpopc 3 1 0) s = some 2#64 ∧ s3 (.vfirst 3 1 0) s = some 1#64 ∧ s3 (.vfirst 3 4 0) s = some 0xFFFFFFFFFFFFFFFF#64 := by decide +kernel

theorem test_vcvt : v3 (.vcvt 3 1 0 0 0x00) (vec 2 3 [] [(1, elems 32 [1, 0xFFFFFFFF, 100])]) = some [0x3F800000, 0xBF800000, 0x42C80000, 0]
    ∧ v3 (.vcvt 3 1 0 0 0x08) (vec 2 2 [] [(1, elems 32 [0x40400000, 0xBF800000])]) = some [3, 0xFFFFFFFF, 0, 0]
    ∧ trapped (.vcvt 3 1 0 0 0x08) (vec 1 2 [] []) = some (1#64, 0x90308008#64) := by decide +kernel

theorem test_vsetl : left (fun t => (t.cx.r.vtype, t.cx.r.vl, t.rd 3)) (.vsetl 3 1 1 0 3 2) (bank [(1, 300#64)]) = some (0x9A#64, 256#64, 256#64)
    ∧ left (fun t => (t.cx.r.vtype, t.cx.r.vl, t.rd 3)) (.vsetl 3 0 0 0 0 0) (bank []) = some (0#64, 128#64, 128#64)
    ∧ left (fun t => (t.cx.r.vtype, t.cx.r.vl, t.rd 3)) (.vsetli 3 17 0 1 1 1) (bank []) = some (0x49#64, 17#64, 17#64)
    ∧ trapped (.vsetli 3 17 0 0 4 0) (bank []) = some (1#64, 0x72388020#64) := by decide +kernel

/-- A task with a basin page, a vector configuration and registers. -/
def vpool (vt vl : Word) (l : List (Nat × Word)) (v : List (Nat × VReg)) (b : List Byte) : State :=
  { vec vt vl l v with cores := [(0, { pages := [(0, 1)] })], mem := writeMem [] (basinLoc 0 0 0) b }

/-- s1 the basin's base, s2 = 8; the bytes are the words 10, 11, 12, 13. -/
def vmem : State :=
  vpool 2 2 [(1, 0xFFFF800000000000#64), (2, 8#64), (4, 0xFFFF800000000FFC#64)] [(2, elems 8 [12, 0]), (3, elems 32 [9, 9, 9, 9])]
    ([10, 11, 12, 13].flatMap (fun n => bytesLE 4 n))

theorem test_vector_loads : [Instr.vld 3 1 0 0 2, .vlds 3 1 2 0 0 2, .vldx 3 1 2 0 0 0, .vldff 3 1 0 0 2].map (fun i => v3 i vmem)
      = [[10, 11, 9, 9], [10, 12, 9, 9], [13, 10, 9, 9], [10, 11, 9, 9]].map some
    ∧ left (fun t => (t.cx.r.vl, t.cx.r.vstart)) (.vldff 3 4 0 0 2) vmem = some (1#64, 0#64)
    ∧ left (fun t => (t.cx.r.cause, t.cx.r.tval, t.cx.r.vstart)) (.vld 3 4 0 0 2) vmem = some (5#64, 0xFFFF800000001000#64, 1#64) := by decide +kernel

/-- The four words at the basin's base afterwards. -/
def stored : Instr → State → Option (List Nat) := left (fun t => (List.range 4).map (fun i => t.natAtLoc (basinLoc 0 0 0 + 4 * i) 4))

theorem test_vector_stores : [Instr.vst 3 1 0 0 2, .vsts 3 1 2 0 0 2, .vstx 3 1 2 0 0 0].map (fun i => stored i vmem)
    = [[9, 9, 12, 13], [9, 11, 9, 13], [9, 11, 12, 9]].map some := by decide +kernel

/-! ## Single steps: the matrix engine -/

/-- BF16 codes of 0 to 22. -/
def small : List Nat :=
  [0, 0x3F80, 0x4000, 0x4040, 0x4080, 0x40A0, 0x40C0, 0x40E0, 0x4100, 0x4110, 0x4120, 0x4130, 0x4140, 0x4150, 0x4160, 0x4170, 0x4180, 0x4188, 0x4190,
    0x4198, 0x41A0, 0x41A8, 0x41B0]

/-- The worked example of chapter 13: A has 1.0 at offsets 18 i and 128 + 18 i, B(k, n) = k + n stands blocked, C is zero. -/
def operands13 : Operands :=
  { a := ((List.range 2).flatMap (fun h => (List.range 64).flatMap (fun e => bytesLE 2 (if e / 8 = e % 8 ∧ h < 2 then 0x3F80 else 0)))).toArray,
    b := ((List.range 128).flatMap (fun e => bytesLE 2 (small.getD (e / 64 * 8 + e % 8 + e / 8 % 8) 0))).toArray, scales := #[], c := #[] }

/-- C[0][0] = 8.0, C[3][5] = 24.0 and C[7][7] = 36.0. -/
theorem test_mma : [(0, 0), (3, 5), (7, 7)].map (fun e => mmaElem (shapeOf 0x0000000008004000#64) 8 false operands13 e.1 e.2) = [0x41000000, 0x41C00000, 0x42100000] := by
  decide +kernel

/-- The example's registers, with its three basin pages. -/
def example13 : State :=
  { bank [(10, 0xFFFF800000000000#64), (23, 0x0000000008004000#64), (25, 0xFFFF800000001000#64), (26, 0xFFFF800000002000#64)] with
    cores := [(0, { pages := [(0, 1), (1, 1), (2, 1)] })] }

theorem test_mma_completes : left (fun t => t.cx.r.pc) (.mma 26 10 25 23) example13 = some 4#64 ∧ left (fun t => t.cx.r.pc) (.mzero 10 23) example13 = some 4#64 := by
  decide +kernel

theorem test_mshape : s3 (.mshape 3 1 0 0 0 0) (bank [(1, 0x100808#64)]) = some 0x0000000008004000#64
    ∧ trapped (.mshape 3 1 0 0 0 0) (bank [(1, 0x10080C#64)]) = some (1#64, 0xA0308000#64) := by decide +kernel

theorem test_mstat : left (fun t => (t.rd 3, t.cx.r.mstat)) (.mstat 3 1) { bank [] with cx := { (bank []).cx with r := { mstat := 5#8 } } } = some (5#64, 0#8) := by decide +kernel

/-- Table 13.6, R259: an MMAT element of 1 x 7 - 1 x 3 + 5 = 9; R257: an MMAS group with a zero scale leaves C as it is. -/
theorem test_mmat_mmas : (mmatElem ⟨8, 8, 16, 2, 4, 5, 2, 0, 0⟩ ⟨#[0x0D#8], #[7#8, 3#8], #[], #[5#8]⟩ 0 0).1 = 9
    ∧ mmaElem ⟨8, 8, 16, 16, 1, 1, 0, 0, 0⟩ 16 true ⟨#[0x38#8], #[0x38#8], #[0#8, 0x7F#8], #[0#8, 0#8, 0x80#8, 0x3F#8]⟩ 0 0 = 0x3F800000 := by decide +kernel

theorem test_mmat_mmas_traps : trapped (.mmat 26 10 25 23) example13 = some (1#64, 0xA7A566E0#64) ∧ trapped (.mmas 26 10 25 23) example13 = some (1#64, 0xA5A566E0#64)
    ∧ trapped (.mma 26 1 25 23) { example13 with cx := { example13.cx with r := { example13.cx.r with sregs := (1, 8#64) :: example13.cx.r.sregs } } } = some (3#64, 8#64) := by
  decide +kernel

/-! ## Single steps: tasks, domains, the weir -/

/-- A bound task of launch 7 with sr.task 0x55. -/
def tasked (l : List (Nat × Word)) : State :=
  { ram l [] with cx := { (ram l []).cx with bound := some { launch := 7, task := 0x55#64, prio := 2 }, r := { sregs := l, task := 0x55#64 } } }

theorem test_spawn : left (fun t => (t.myCore.deque.map (fun k => (k.entry, k.args.take 2, k.parent)), t.cx.r.children)) (.spawn 3 1 2)
      (tasked [(1, 11#64), (2, 22#64), (3, 0x400#64)]) = some ([(0x400#64, [11#64, 22#64], some 0x55#64)], 1)
    ∧ trapped (.spawn 3 1 2) (tasked [(3, 0x402#64)]) = some (3#64, 0x402#64) := by decide

theorem test_tself : s3 (.tself 3 0) (tasked []) = some 0x55#64 ∧ s3 (.tself 3 1) (tasked []) = some 7#64 ∧ s3 (.tself 3 3) (tasked []) = some 0x9FFFF#64
    ∧ s3 (.tself 3 2) { bank [] with cur := ⟨1, 2, 3, false⟩ } = some 0x3FFC423#64 := by decide

theorem test_task_control : left (fun t => t.cx.r.pc) .twait (tasked []) = some 4#64 ∧ left (fun t => (t.ctx ⟨0, 0, 0, false⟩).st) .texit (bank []) = some .idle
    ∧ left (fun t => t.cx.r.pc) .yield (tasked []) = some 4#64
    ∧ left (fun t => t.cx.wait) .twait { tasked [] with cx := { (tasked []).cx with r := { children := 1 } } } = some (.retry .children) := by decide

/-- A counter at 0x1000. -/
theorem test_counters : left (fun t => (t.rd 3, t.natAtLoc 0x1000 8)) (.cntinit 3 1 2) (ram [(1, 0x1000#64), (2, 5#64)] (bytesLE 8 9)) = some (9#64, 5)
    ∧ left (fun t => t.natAtLoc 0x1000 8) (.cntdec 1 2) (ram [(1, 0x1000#64), (2, 5#64)] (bytesLE 8 9)) = some 4
    ∧ trapped (.cntdec 1 2) (ram [(1, 0x1000#64), (2, 5#64)] (bytesLE 8 3)) = some (0x12#64, 0x1000#64)
    ∧ left (fun t => t.cx.r.pc) (.cntwait 1) (ram [(1, 0x1000#64)] []) = some 4#64
    ∧ left (fun t => t.cx.wait) (.cntwait 1) (ram [(1, 0x1000#64)] (bytesLE 8 1)) = some (.retry (.counter 0x1000)) := by decide

theorem test_spawnc_launchd : left (fun t => t.cx.r.children) (.spawnc 3 1 2) (tasked [(1, 0x1000#64), (3, 0x400#64)]) = some 1
    ∧ trapped (.launchd 3 1) (tasked [(1, 0x1004#64)]) = some (3#64, 0x1004#64) := by decide

theorem test_domains : left (fun t => (t.cx.r.depth, t.rd 3 == t.cx.r.dom)) (.dbegin 3 1) (tasked [(1, 4#64)]) = some (1, true)
    ∧ trapped .dend (tasked []) = some (0x0A#64, 6#64) ∧ trapped (.dabort 1) (tasked []) = some (0x0A#64, 6#64)
    ∧ trapped (.dchk 1 2) (tasked [(1, 1#64)]) = some (0x0A#64, 8#64) ∧ left (fun t => t.cx.r.pc) (.dchk 1 2) (tasked []) = some 4#64
    ∧ s3 (.dlevel 3 0) (tasked [(3, 9#64)]) = some 0#64 ∧ trapped (.dpresSnap 1 2) (tasked [(2, 1#64)]) = some (0x0A#64, 6#64)
    ∧ left (fun t => t.cx.r.pc) (.dpresHold 1 2) (tasked []) = some 4#64 := by decide +kernel

theorem test_lending : left (fun t => (t.myCore.lentTurns, t.cx.r.pc)) (.lend 1 2) (tasked [(1, 2#64)]) = some (2#8, 4#64)
    ∧ left (fun t => t.myCore.lentTurns) (.unlend 1 2) { tasked [(1, 2#64)] with cores := [(0, { lentTurns := 6#8 })] } = some 4#8
    ∧ s3 (.hstat 3 1) { tasked [] with cores := [(0, { lentTurns := 6#8, lentPages := [2, 5] })] } = some 0x206000502#64
    ∧ s3 (.hstat 3 2) { tasked [] with cores := [(0, { lentPages := [2, 5] })] } = some 0x24#64 := by decide +kernel

/-- R418: a handle that is no group of the tenant's on this die. -/
theorem test_weir_mismatch : trapped (.qstat 3 1 0) (tasked [(1, 9#64)]) = some (0x0C#64, 9#64) ∧ trapped (.qwait 3 1 2) (tasked [(1, 9#64)]) = some (0x0C#64, 9#64)
    ∧ trapped (.qresync 3 1 2) (tasked [(1, 9#64)]) = some (0x0C#64, 9#64) ∧ trapped (.qpost 3 1) (tasked [(1, 0x1000#64)]) = some (0x0C#64, 0#64)
    ∧ trapped (.qstart 3 1 2) (tasked [(1, 0x1000#64), (2, 9#64)]) = some (0x0C#64, 9#64) := by decide

/-! ## Hashes and ciphers (R6, R119) -/

/-- FIPS 180-4: SHA-384 of "abc". -/
theorem test_sha384 : Crypto.sha384 [0x61#8, 0x62#8, 0x63#8]
    = 0xcb00753f45a35e8bb5a03d699ac65007272c32ab0eded1631a8b605a43ff5bed8086072ba1e7cc2358baeca134c825a7#384 := by decide +kernel

/-- FIPS 197: the S-box of 53 and the product of 57 and 13; the generator lies on brainpoolP384r1. -/
theorem test_aes_tables : Crypto.sbox 0x53#8 = 0xED#8 ∧ Crypto.gmul 0x57#8 0x13#8 = 0xFE#8 ∧ Crypto.onCurve Crypto.bpG.1 Crypto.bpG.2 = true := by decide +kernel

/-! ## States that meet the hypotheses of the statements -/

theorem test_ready (i : Instr) (s : State) (h : s.cx.ahead = none) (k : s.cx.r.hints = []) : Ready i s := ⟨h, by rw [k]; rfl⟩

/-- Whether a step or an execution gives a next state. -/
def goesOn (o : Host.Outcome State Fault Refusal) : Bool := match o with | .next _ => true | _ => false

theorem goesOn_next (o : Host.Outcome State Fault Refusal) (h : goesOn o = true) : ∃ t, o = .next t := by
  cases o with
  | next t => exact ⟨t, rfl⟩
  | fault _ => cases h
  | refused _ => cases h

/-- The access that the checks of an address give. -/
def acc (s : State) (k : AccKind) (va : Word) : Access := match s.tr k va with | .ok x => x | _ => default

/-- Reset with ADD 3, 1, 2 where the next step fetches. -/
def loadedAdd : State := State.reset.withFetchWord 32 (encode (.add 3 1 2)).toNat

theorem test_meets_StepKeepsMemoryCanonical : ∃ s t, Memory.wf s.mem = true ∧ step s = .next t :=
  ⟨loadedAdd, (goesOn_next (step loadedAdd) (by decide +kernel)).imp fun _ h => ⟨by decide +kernel, h⟩⟩

theorem test_meets_EncodedWordsDecode : [Instr.fcvt 31 31 0x12 31, .hmod 2 1 1 3, .std 31 31 3 0x1FFF, .jal 31 0xFFFFF, .vldx 31 31 31 1 3 3].all
    (fun i => i.wf && i.isWord) = true := by decide

theorem test_meets_DecodedWordsEncodeBack : decodeWord 0x17500005#32 = .ok (.movi 21 5) ∧ decodeWord 0xFE3FFFFF#32 = .ok (.immx 0x3FFFFF) := by decide

theorem test_meets_StepRunsDecodedInstruction :
    let s := loadedAdd
    let u := s.toSlot 8 ⟨0, 0, 0, false⟩
    s.inbox = [] ∧ s.pkg.powered = true ∧ s.slot = some (8, ⟨0, 0, 0, false⟩) ∧ (8 ≤ s.cycle.toNat % 8 + 8 → s.due = none)
    ∧ u.cx.ended = false ∧ u.cx.boundaryTrap = none ∧ (∀ r, u.cx.ahead = some r → r.ended = false) ∧ u.tr .ex u.cx.r.pc = .ok (acc u .ex u.cx.r.pc)
    ∧ unmappedPa (acc u .ex u.cx.r.pc).loc = false ∧ (acc u .ex u.cx.r.pc).marked = false ∧ u.poisoned (acc u .ex u.cx.r.pc).loc 4 = false
    ∧ decodeBytes (u.bytesAt (acc u .ex u.cx.r.pc).loc 4) = some (.ok (.add 3 1 2), []) := by
  refine ⟨?_, ?_, ?_, ?_, ?_, ?_, ?_, ?_, ?_, ?_, ?_, ?_⟩ <;> decide +kernel

theorem test_meets_FetchAndUnassignedWords :
    let s := loadedAdd
    s.tr .ex s.cx.r.pc = .ok (acc s .ex s.cx.r.pc) ∧ unmappedPa (acc s .ex s.cx.r.pc).loc = false ∧ (acc s .ex s.cx.r.pc).marked = false
    ∧ s.poisoned (acc s .ex s.cx.r.pc).loc 4 = false ∧ s.cx.ahead = none ∧ ({ s with cx := { s.cx with ended := true } } : State).cx.ended = true
    ∧ decodeWord 0#32 = .error .fn ∧ decodeWord 0xFFC00000#32 = .error .hintKind := by decide +kernel

/-- One set of registers for each clause, at the last word of a body (R317). -/
theorem test_meets_LoopEndCheck :
    let at1 := fun (r : Regs) => decide (r.lc1 ≠ 0#64 ∧ r.lend1 = r.pc)
    let at0 := fun (r : Regs) => decide (r.lc0 ≠ 0#64 ∧ r.lend0 = r.pc)
    let clause := fun (r : Regs) => (at1 r, at0 r, decide (r.lc1 = 1#64), decide (r.lc0 = 1#64))
    [({ pc := 8#64, lend1 := 8#64, lc1 := 2#64 } : Regs), { pc := 8#64, lend1 := 8#64, lc1 := 1#64, lend0 := 12#64, lc0 := 2#64 },
      { pc := 8#64, lend1 := 8#64, lc1 := 1#64, lend0 := 8#64, lc0 := 2#64 }, { pc := 8#64, lend1 := 8#64, lc1 := 1#64, lend0 := 8#64, lc0 := 1#64 },
      { pc := 8#64, lend0 := 8#64, lc0 := 2#64 }, { pc := 8#64, lend0 := 8#64, lc0 := 1#64 }, { pc := 8#64, lend0 := 8#64, lend1 := 8#64 }].map clause
    = [(true, false, false, false), (true, false, true, false), (true, true, true, false), (true, true, true, true), (false, true, false, false),
       (false, true, false, true), (false, false, false, false)] := by decide

theorem test_meets_HintWords : (bank []).cx.ahead = none ∧ (Instr.immx 0x3FFFFF).wf = true ∧ (Instr.hmod 0 0 0 1).wf = false ∧ (bank []).cx.r.lc1 = 0#64
    ∧ (bank []).cx.r.lc0 = 0#64 ∧ (∀ h ∈ (hinted [] [⟨0#3, 1#22, 0#64⟩]).cx.r.hints, h.kind ≠ 1#3)
    ∧ (∃ h ∈ (hinted [] [⟨4#3, 0#22, 0#64⟩]).cx.r.hints, h.kind = 4#3)
    ∧ (let r : Regs := { pc := 8#64, lend1 := 8#64, lc1 := 1#64 }; r.lc1 ≠ 0#64 ∧ r.lend1 = r.pc) := by decide

theorem test_meets_UnacceptedHintTraps : badHint (encode (.add 3 1 1)) (hinted [] [⟨0#3, 1#22, 4#64⟩]).cx.r.hints = some ⟨0#3, 1#22, 4#64⟩
    ∧ (Instr.add 3 1 1).isWord = true ∧ (Instr.add 3 1 1).isHint = false ∧ (hinted [] [⟨0#3, 1#22, 4#64⟩]).cx.ahead = none := by decide

theorem test_meets_ImmediatesWiden : (bank []).cx.r.hints = [] ∧ (hinted [] [⟨0#3, 0x3FFFFF#22, 0#64⟩]).cx.r.hints = [⟨0#3, 0x3FFFFF#22, 0#64⟩] ∧ 0 < 15 := by decide

theorem test_meets_TrapEntry : (⟨15, 63, 7, true⟩ : CtxId).isSup = false ∧ (⟨15, 63, 7, true⟩ : CtxId).turn < 8
    ∧ (bank []).takeTrap ⟨15, 63, 7, true⟩ 1#8 0#64 false false [] 0#32 = (bank []).takeTrap ⟨15, 63, 7, true⟩ 1#8 0#64 false false [] 0#32 := ⟨rfl, by decide, rfl⟩

theorem test_meets_SupervisorTrapEntry : (⟨15, 64, 0, false⟩ : CtxId).isSup = true ∧ (⟨0, 65, 0, false⟩ : CtxId).isSup = true := by decide

theorem test_meets_IntegerRegisterResults (i : Instr) : Ready i ints := test_ready i ints rfl rfl

/-- A zero divisor of 64 and of only 32 bits, and another. -/
theorem test_meets_DivisionResults : Ready (.div 3 1 2) ints ∧ ints.planned = false ∧ ints.rd 0 = 0#64 ∧ ints.rd 2 ≠ 0#64
    ∧ ((bank [(2, 0x100000000#64)]).rd 2).setWidth 32 = 0#32 := ⟨test_ready _ _ rfl rfl, by decide⟩

theorem test_meets_IntegerImmediateResults : Ready (.addi 3 1 0x7FFF) ints ∧ Ready (.srai 3 1 63) ints ∧ Ready (.addpc 3 1) ints :=
  ⟨test_ready _ _ rfl rfl, test_ready _ _ rfl rfl, test_ready _ _ rfl rfl⟩

theorem test_meets_FloatingPointResults : Ready (.fmac 3 1 2 0) floats ∧ Ready (.fdiv 3 1 2 0) floats ∧ floats.planned = false
    ∧ (Instr.fcvt 3 1 0x12 0).wf = true ∧ Ready (.fcvt 3 1 0x12 0) floats := ⟨test_ready _ _ rfl rfl, test_ready _ _ rfl rfl, by decide, by decide, test_ready _ _ rfl rfl⟩

/-- Codes of FP32 for each clause: both NaNs, the infinities, the zeros, the smallest and the largest number. -/
theorem test_meets_FloatingPointSpecialCases : fp32.dec 0x7F800001 = .nan true ∧ fp32.dec 0x7FC00000 = .nan false ∧ fp32.dec 0x7F800000 = .inf false
    ∧ fp32.dec 0xFF800000 = .inf true ∧ (∃ e, fp32.dec 0 = .fin false 0 e) ∧ (∃ e, fp32.dec 0x80000000 = .fin true 0 e)
    ∧ (∃ e, fp32.dec 1 = .fin false 1 e) ∧ (∃ e, fp32.dec 0xFF7FFFFF = .fin true 0xFFFFFF e) ∧ bf16.dec 0x7F80 = .inf false :=
  ⟨by decide, by decide, by decide, by decide, ⟨_, rfl⟩, ⟨_, rfl⟩, ⟨_, rfl⟩, ⟨_, rfl⟩, by decide⟩

theorem test_meets_BranchesAndJumps : Ready (.beq 1 1 4) at100 ∧ decide (at100.rd 1 = at100.rd 1) = true ∧ decide (at100.rd 1 = at100.rd 2) = false
    ∧ Ready (.jalr 3 4 2) at100 ∧ (at100.rd 4 + BitVec.ofInt 64 (at100.cx.r.imm 15 2)).toNat % 4 = 0
    ∧ (at100.rd 4 + BitVec.ofInt 64 (at100.cx.r.imm 15 1)).toNat % 4 ≠ 0 := ⟨test_ready _ _ rfl rfl, by decide, by decide, test_ready _ _ rfl rfl, by decide⟩

/-- Lengths 0 and 1, and a count that is zero and one that is not. -/
theorem test_meets_LoopSetUp : Ready (.loop 0 2 1) at100 ∧ at100.cx.ahead = none ∧ at100.cx.r.imm 15 0 ≤ 0 ∧ 0 < at100.cx.r.imm 15 1 ∧ at100.rd 0 = 0#64
    ∧ at100.rd 2 ≠ 0#64 := ⟨test_ready _ _ rfl rfl, by decide⟩
/-- Whether a read gives bytes. -/
def gave (r : Rd) : Bool := match r with | .val _ _ => true | _ => false

/-- Whether an atomic is done. -/
def doneAt (r : AtomState) : Bool := match r with | .done _ _ => true | _ => false

/-- A word of the heap, and of the basin, as a task reaches them. -/
def heapState : State := ram [(1, 0x1078#64), (2, 3#64), (4, 0x107C#64)] eight

/-- The last 8 bytes of a sector, an access across two, an address no check passes, and bytes read. -/
theorem test_meets_ScalarLoads : Ready (.ldd 3 1 0 0) heapState ∧ heapState.plan = [] ∧ heapState.countsZero 3 = true ∧ InSector 0x1078#64 8
    ∧ ¬ InSector 0x1079#64 8 ∧ heapState.tr .rd 0x800000000000#64 = .fault 5#8 ∧ heapState.tr .rd 0x1078#64 = .ok (acc heapState .rd 0x1078#64)
    ∧ isCtl (acc heapState .rd 0x1078#64).loc = false
    ∧ gave ((tlbd heapState (acc heapState .rd 0x1078#64)).read (acc heapState .rd 0x1078#64) 8 false) = true :=
  ⟨test_ready _ _ rfl rfl, by decide, by decide, by unfold InSector; decide, by unfold InSector; decide, by decide, by decide, by decide, by decide +kernel⟩

/-- A HOLD range over the bytes at 0x1000 of a domain of die 0. -/
def heldState : State := { heapState with dies := [(0, { records := [(0, some
  { id := 1, tenant := 0, parent := 0, depth := 1, creator := none, creatorTask := (0#64, 0), snap := {}, ranges := [⟨false, 0x1000#64, [(0x1000, 8)], [], []⟩],
    limit := 0, count := 0, attempt := 0, cause := 0#8, causeAddr := 0#64, members := 0, acks := 0, deferred := [], joinVec := [], root := none, ran := [],
    stitched := [], restart := false })] })] }

theorem test_meets_ScalarStores : heapState.tr .wr 0x1000#64 = .ok (acc heapState .wr 0x1000#64) ∧ (acc heapState .wr 0x1000#64).fill = none
    ∧ isCtl (acc heapState .wr 0x1000#64).loc = false ∧ unmappedPa (acc heapState .wr 0x1000#64).loc = false
    ∧ heldState.tr .wr 0x1000#64 = .ok (acc heldState .wr 0x1000#64) ∧ heldState.held (acc heldState .wr 0x1000#64).loc 1 = true
    ∧ heapState.held (acc heapState .wr 0x1000#64).loc 8 = false ∧ (heapState.storeAt (acc heapState .wr 0x1000#64) eight).isSome = true := by decide

/-- A basin word clean and poisoned, own memory, and memory homed on die 1 (stack 2). -/
theorem test_meets_ReadsGiveMemory : isBasin (acc fullPool .rd 0xFFFF800000000000#64).loc = true ∧ fullPool.poisoned (acc fullPool .rd 0xFFFF800000000000#64).loc 8 = false
    ∧ ({ fullPool with poison := [basinLoc 0 0 0 / 8] } : State).poisoned (basinLoc 0 0 0) 8 = true ∧ heapState.cx.pendOwn = 0
    ∧ homeDie 0x1000 = some heapState.cur.die ∧ isBasin 0x1000 = false ∧ homeDie (2 ^ 37) = some 1 ∧ unmappedPa (2 ^ 37) = false
    ∧ (1 : Nat) ≠ heapState.cur.die ∧ coversVec (heapState.die 1).k (heapState.die heapState.cur.die).v none = true
    ∧ (heapState.die 1).liveYoung.any (fun y => (sectorsOf (2 ^ 37) 8).contains y.sector) = false := by decide

theorem test_meets_StoresWriteTheirBytes : (fullPool.storeAt (acc fullPool .wr 0xFFFF800000000000#64) eight).isSome = true
    ∧ isBasin (acc fullPool .wr 0xFFFF800000000000#64).loc = true ∧ (heapState.storeAt (acc heapState .wr 0x1000#64) eight).isSome = true
    ∧ isBasin 0x1000 = false ∧ homeDie 0x1000 = some heapState.cur.die ∧ heapState.plan = [] ∧ heapState.net = [] ∧ heapState.migrations = [] := by decide

theorem test_meets_MemoryReadAfterWrite : Memory.wf heapState.mem = true ∧ Memory.wf [] = true := by decide

/-- An address at each end of each range of Table 7.6. -/
theorem test_meets_AddressCheckOrder : fullPool.cur.isSup = false ∧ heapState.cur.isSup = false ∧ (2 : Nat) ^ 47 < 2 ^ 64 - 2 ^ 47
    ∧ fullPool.basinPageOk fullPool.cur fullPool.cx.tn 0 = true ∧ fullPool.basinPageOk fullPool.cur fullPool.cx.tn 255 = false
    ∧ ((0xFFFF#64 - heapState.cx.heapbase).toNat < heapState.cx.heaplim.toNat ∧ heapState.cx.heaplim.toNat ≤ (0x10000#64 - heapState.cx.heapbase).toNat) := by decide

theorem test_meets_FullEmptyWords :
    let va : Word := 0xFFFF800000000000#64
    Ready (.ldf 3 1 1 0) fullPool ∧ fullPool.rd 1 = va ∧ va.toNat % 8 = 0 ∧ fullPool.tr .rd va = .ok (acc fullPool .rd va)
    ∧ fullPool.tr .wr va = .ok (acc fullPool .wr va) ∧ isBasin (acc fullPool .rd va).loc = true ∧ fullPool.full ((acc fullPool .rd va).loc / 8) = true
    ∧ ({ fullPool with fe := [] } : State).full ((acc fullPool .rd va).loc / 8) = false ∧ fullPool.poisoned (acc fullPool .rd va).loc 8 = false
    ∧ fullPool.held (acc fullPool .wr va).loc 8 = false ∧ ((bank [(1, 4#64)]).rd 1).toNat % 8 ≠ 0 := ⟨test_ready _ _ rfl rfl, by decide⟩

/-- Stores in flight of each class, an empty range, one that ends at its page's end, a buffered sector. -/
theorem test_meets_FencesAndCacheControl :
    let s := ram [(1, 0x1800#64), (2, 0x800#64)] []
    let x := acc s .rd 0x1800#64
    let y : RoSector := { tenant := 0, va := 0x20, sector := 0x20, bytes := [] }
    Ready (.fence 7) s ∧ s.cx.pendOwn = 0 ∧ ((bank []).setCtx ⟨0, 0, 0, false⟩ { pendOwn := 1 }).cx.pendOwn ≠ 0 ∧ s.plan = [] ∧ s.rd 0 = 0#64
    ∧ 0 < (s.rd 2).toNat ∧ (s.rd 1).toNat % 4096 + (s.rd 2).toNat ≤ 4096 ∧ s.tr .rd (s.rd 1) = .ok x ∧ isBasin x.loc = false ∧ x.win.ship = false
    ∧ isCtl x.loc = false ∧ ((s.rd 1) + 4#64).toNat % 8 ≠ 0
    ∧ (s.onCore 0 0 (fun k => { k with robuf := [y] })).myCore.roHit 0 0x1000#64 = some y := ⟨test_ready _ _ rfl rfl, by decide⟩

theorem test_meets_Monitors :
    let s := ram [(1, 0x1000#64)] eight
    let x := acc s .rd 0x1000#64
    let t : State := { s with cx := { s.cx with monitor := some ⟨0x20, false, none⟩ } }
    Ready (.mwait 3 1) s ∧ Ready (.mwait 3 1) t ∧ s.plan = [] ∧ s.tr .rd (s.rd 1) = .ok x ∧ x.win.ship = false ∧ x.fill = none ∧ isCtl x.loc = false
    ∧ InSector (s.rd 1) 8 ∧ t.tr .rd (t.rd 1) = .ok x ∧ x.loc / 128 = 0x20 ∧ s.cx.monitor = none
    ∧ gave (s.read x 8 false) = true :=
  ⟨test_ready _ _ rfl rfl, test_ready _ _ rfl rfl, by decide, by decide, by decide, by decide, by decide, by unfold InSector; decide, by decide, by decide, by decide, by decide +kernel⟩

theorem test_meets_Atomics :
    let x := acc atoms .wr 0x1000#64
    Ready (.acas 3 1 2 0 0) atoms ∧ atoms.plan = [] ∧ atoms.countsZero 0 = true ∧ (atoms.rd 1).toNat % 8 = 0 ∧ (0x1004#64).toNat % 8 ≠ 0
    ∧ atoms.tr .wr (atoms.rd 1) = .ok x ∧ atoms.tr .wr 0x800000000000#64 = .fault 5#8 ∧ x.fill = none ∧ x.win.ship = false ∧ isCtl x.loc = false
    ∧ atoms.held x.loc 4 = false ∧ heldState.held x.loc 4 = true := ⟨test_ready _ _ rfl rfl, by decide⟩

theorem test_meets_AtomicsReadAndWriteOnce :
    let x := acc atoms .wr 0x1000#64
    doneAt (atoms.atomic x 4 (fun v => some (v + 1))) = true ∧ doneAt (atoms.atomic x 4 (fun _ => none)) = true
    ∧ homeDie x.loc = some atoms.cur.die ∧ atoms.unordered atoms.cur.die atoms.cur.die x.loc 4 = false
    ∧ isBasin (acc fullPool .wr 0xFFFF800000000000#64).loc = true
    ∧ doneAt (fullPool.atomic (acc fullPool .wr 0xFFFF800000000000#64) 8 some) = true :=
  ⟨by decide +kernel, by decide +kernel, by decide, by decide, by decide, by decide +kernel⟩

/-- The heap's window with SHIP set; the routine table's entry 5 is one ADD, entry 6 is not valid. -/
def shipState : State :=
  let s := ram [(1, 0x1000#64), (2, 3#64)] []
  { s with tenants := s.tenants.map (fun e => (e.1, e.2.map (fun t => { t with windows := t.windows.map (fun w => (w.1, { w.2 with ship := true })) }))),
           hbm := [(0, { routines := [(5, ⟨true, false, 1#6, [encode (.add 10 10 10)]⟩)] })] }

theorem test_meets_ShipRunsRoutine :
    let x := acc shipState .wr 0x1000#64
    Ready (.ship 3 1 2 5) shipState ∧ shipState.plan = [] ∧ (shipState.rd 1).toNat % 8 = 0 ∧ ((bank [(1, 4#64)]).rd 1).toNat % 8 ≠ 0
    ∧ shipState.tr .wr (shipState.rd 1) = .ok x ∧ x.fill = none ∧ x.win.ship = true ∧ (acc heapState .wr 0x1000#64).win.ship = false ∧ isBasin x.loc = false
    ∧ shipState.held (x.loc / 64 * 64) 64 = false ∧ unmappedPa x.loc = false ∧ x.marked = false ∧ homeDie x.loc = some shipState.cur.die ∧ shipState.net = []
    ∧ shipState.migrations = [] ∧ shipState.homeWait shipState.cur.die x.slice (x.loc / 64 * 64) 64 = none ∧ (shipState.shipHome x (shipState.rd 2) (shipState.rd 3) 5).1 = 0
    ∧ (shipState.shipHome x (shipState.rd 2) (shipState.rd 3) 6).1 = 1 := ⟨test_ready _ _ rfl rfl, by decide +kernel⟩

/-- A task, a task of a tenant in debug mode, and a supervisor core. -/
theorem test_meets_SpecialRegisterReads : (∀ k, Ready (.srrd 3 k) (bank [])) ∧ (bank []).cur.isSup = false ∧ (bank []).debugMode = false ∧ (boss []).cur.isSup = true
    ∧ ({ heapState with tenants := heapState.tenants.map (fun e => (e.1, e.2.map (fun t => { t with debug := true }))) } : State).debugMode = true
    ∧ (0x0FF#12).toNat ∉ [0x000, 0x001, 0x002, 0x003, 0x004, 0x010, 0x011, 0x012, 0x020, 0x021, 0x030, 0x031, 0x040, 0x041, 0x080, 0x081, 0x082, 0x083, 0x084,
      0x085, 0x086] ∧ 0x120 ≤ (0x120#12).toNat := ⟨fun _ => test_ready _ _ rfl rfl, by decide⟩

theorem test_meets_SpecialRegisterWrites : (∀ k, Ready (.srwr 3 k) (boss [])) ∧ (∀ k, Ready (.srset 3 k) (bank [])) ∧ (boss []).cur.isSup = true ∧ (bank []).cur.isSup = false
    ∧ (0x9A#64).toNat < 256 ∧ (0x9A#64).getLsbD 5 = false ∧ (0x9A#64).getLsbD 2 = false :=
  ⟨fun _ => test_ready _ _ rfl rfl, fun _ => test_ready _ _ rfl rfl, by decide⟩

/-- Each way WFE and TLBINV can go. -/
theorem test_meets_SystemInstructions :
    let m : State := { bank [] with cx := { (bank []).cx with monitor := some ⟨0, true, none⟩ } }
    let q : State := { boss [] with traps := [default] }
    (∀ i, Ready i (boss [])) ∧ (∀ i, Ready i (bank [])) ∧ (boss []).cur.isSup = true ∧ (bank []).cur.isSup = false ∧ (boss []).cx.r.epc.toNat % 4 = 0
    ∧ (2#64).toNat % 4 ≠ 0 ∧ (bank []).cx.pendOwn = 0 ∧ (bank []).cx.pendD = 0 ∧ (bank []).cx.pendX = 0
    ∧ (∃ x, m.cx.monitor = some x ∧ x.fired = true) ∧ (bank []).cx.monitor = none ∧ q.supervisorItem q.cur.die = true
    ∧ (boss []).supervisorItem (boss []).cur.die = false ∧ (boss [(2, 0x81#64)]).plan = [] ∧ ((boss [(2, 0x81#64)]).rd 2).toNat < 512
    ∧ ((boss [(2, 0x81#64)]).rd 2).toNat / 64 % 4 ≠ 3 :=
  ⟨fun _ => test_ready _ _ rfl rfl, fun _ => test_ready _ _ rfl rfl, by decide, by decide, by decide, by decide, by decide, by decide, by decide, ⟨_, rfl, rfl⟩,
    by decide, by decide +kernel, by decide +kernel, by decide, by decide, by decide⟩

theorem test_meets_ContextResume :
    let s : State := { boss [(1, 0x103#64), (4, 0x104#64), (5, 0x4000#64)] with banks := [(CtxId.key ⟨0, 1, 3, false⟩, { r := { epc := 0x40#64 }, st := .trapped })] }
    Ready (.ctxres 3 1 2) s ∧ (s.rd 2).toNat % 4 ≠ 3 ∧ s.cur.isSup = true ∧ (bank []).cur.isSup = false ∧ ctxresTarget s.cur.die (s.rd 5) = none
    ∧ ctxresTarget s.cur.die (s.rd 4) = some ⟨0, 1, 4, false⟩ ∧ (s.ctx ⟨0, 1, 4, false⟩).st ≠ .trapped ∧ ctxresTarget s.cur.die (s.rd 1) = some ⟨0, 1, 3, false⟩
    ∧ (s.ctx ⟨0, 1, 3, false⟩).st = .trapped ∧ (s.ctx ⟨0, 1, 3, false⟩).spill = none ∧ (s.rd 2).toNat % 8 = 0 := ⟨test_ready _ _ rfl rfl, by decide⟩
theorem test_meets_VectorConfiguration : Ready (.vsetl 3 1 0 0 3 3) (bank []) ∧ (3#3).toNat < 4 ∧ 4 ≤ (4#3).toNat ∧ (bank []).cx.ahead = none := ⟨test_ready _ _ rfl rfl, by decide⟩

/-- Every instruction is ready; SEW 32 at LMUL 1 and 8; legal operands, and operands that are not: an unaligned group, a masked destination over v0. -/
theorem test_meets_VectorIntegerResults :
    let r := vecs.cx.r
    let q := (vec 0x1A 3 [] []).cx.r
    (∀ i, Ready i vecs) ∧ vecs.planned = false ∧ r.lmul = 1 ∧ q.lmul = 8 ∧ groupsOk .plain (r.grp 3 r.sew) [r.grp 1 r.sew, r.grp 2 r.sew] 1#1 = true
    ∧ groupsOk .plain (q.grp 8 q.sew) [q.grp 16 q.sew, q.grp 24 q.sew] 0#1 = true ∧ groupsOk .plain (q.grp 4 q.sew) [q.grp 16 q.sew] 0#1 = false
    ∧ groupsOk .plain (r.grp 0 r.sew) [r.grp 1 r.sew] 1#1 = false ∧ groupsOk .mask (maskGrp 0) [r.grp 1 r.sew] 1#1 = true :=
  ⟨fun _ => test_ready _ _ rfl rfl, by decide +kernel⟩

/-- Widths of 8 to 64 bits with each width change, and 64-bit elements, which nothing widens. -/
theorem test_meets_VectorMovesAndWidths :
    let r := vecs.cx.r
    (∀ i, Ready i vecs) ∧ vecs.planned = false ∧ r.sew = 32 ∧ r.sew ≤ 64 ∧ r.lmul ≠ 8 ∧ groupsOk .apart (r.grp 4 64) [r.grp 1 32, r.grp 2 32] 0#1 = true
    ∧ groupsOk .apart (r.grp 3 32) [r.grp 8 64, r.grp 2 32] 0#1 = true ∧ groupsOk .apart (r.grp 3 32) [r.grp 1 16] 0#1 = true ∧ (vec 3 1 [] []).cx.r.sew = 64 :=
  ⟨fun _ => test_ready _ _ rfl rfl, by decide +kernel⟩

theorem test_meets_VectorFloatResults : (∀ i, Ready i fvecs) ∧ fvecs.planned = false ∧ fvecs.cx.r.sew = 32 ∧ (vec 1 2 [] []).cx.r.sew = 16
    ∧ groupsOk .plain (fvecs.cx.r.grp 3 32) [fvecs.cx.r.grp 1 32, fvecs.cx.r.grp 2 32] 0#1 = true ∧ groupsOk .mask (maskGrp 3) [fvecs.cx.r.grp 1 32] 0#1 = true
    ∧ groupsOk .plain ((vec 9 2 [] []).cx.r.grp 3 16) [] 0#1 = false := ⟨fun _ => test_ready _ _ rfl rfl, by decide +kernel⟩

/-- A body of five elements needs three levels, one of one element none; vstart 0 and not. -/
theorem test_meets_VectorReductions : (∀ i, Ready i vecs) ∧ vecs.planned = false ∧ vecs.cx.r.vstart = 0#64 ∧ (vecs.cx.r.grp 1 32).ok = true
    ∧ ((vec 0x0A 1 [] []).cx.r.grp 1 32).ok = false ∧ (5 ≤ 2 ^ 3 ∧ 2 ^ (3 - 1) < 5) ∧ 1 ≤ 2 ^ 0 := ⟨fun _ => test_ready _ _ rfl rfl, by decide +kernel⟩

theorem test_meets_VectorPermutations :
    let r := vecs.cx.r
    (∀ i, Ready i vecs) ∧ vecs.planned = false ∧ r.vstart = 0#64 ∧ groupsOk .apart (r.grp 3 32) [r.grp 1 32, r.grp 2 32] 0#1 = true
    ∧ groupsOk .apart (r.grp 3 32) [r.grp 1 32, maskGrp 4] 0#1 = true ∧ groupsOk .apart (r.grp 3 32) [r.grp 3 32] 0#1 = false ∧ (r.grp 3 32).ok = true :=
  ⟨fun _ => test_ready _ _ rfl rfl, by decide +kernel⟩

theorem test_meets_VectorMaskOperations : (∀ i, Ready i vecs) ∧ vecs.cx.r.vstart = 0#64 ∧ (1 : RegNo) ≠ 3 ∧ (3 : RegNo) ≠ 0#5
    ∧ ({ vecs.cx.r with vstart := 1#64 } : Regs).vstart ≠ 0#64 := ⟨fun _ => test_ready _ _ rfl rfl, by decide⟩

/-- Codes that narrow, keep and widen, each with the element width that is the larger. -/
theorem test_meets_VectorConversions :
    let legal := fun (s : State) (d a x : RegNo) (c : BitVec 5) =>
      let w := cvtWidths c.toNat
      (Instr.vcvt d a x 0 c).wf && decide (s.cx.r.sew = max w.1 w.2) && groupsOk (if w.1 = w.2 then .plain else .apart) (s.cx.r.grp d w.1) [s.cx.r.grp a w.2] 0
    (∀ i, Ready i vecs) ∧ vecs.planned = false ∧ legal vecs 3 1 0 0x00 = true ∧ legal vecs 3 1 0 0x08 = true ∧ legal (vec 1 2 [] []) 3 1 0 0x08 = false :=
  ⟨fun _ => test_ready _ _ rfl rfl, by decide +kernel⟩

theorem test_meets_VectorOperandRules : (vecs.cx.r.grp 31 32).ok = true ∧ ((vec 0x1A 1 [] []).cx.r.grp 24 32).ok = true ∧ ((vec 0x1A 1 [] []).cx.r.grp 25 32).ok = false := by decide

/-- Two elements at the start of the basin page, then one at its end and one beyond it; a wait; nothing to do. -/
theorem test_meets_VectorMemory :
    let r := vmem.cx.r
    let va := fun (i : Nat) => 0xFFFF800000000000#64 + BitVec.ofNat 64 (4 * i)
    let x := fun (i : Nat) => acc vmem .rd (va i)
    let w := fun (i : Nat) => acc vmem .wr (va i)
    (∀ i, Ready i vmem) ∧ vmem.plan = [] ∧ groupsOk .plain (r.grp 3 32) [] 0#1 = true ∧ groupsOk .plain (r.grp 0 32) [] 1#1 = false ∧ r.vstart.toNat < r.vl.toNat
    ∧ ({ r with vl := 0#64 } : Regs).vl.toNat ≤ r.vstart.toNat ∧ vmem.countsZero 3 = true
    ∧ ({ vmem with cx := { vmem.cx with pendD := 1 } } : State).countsZero 3 = false
    ∧ (∀ i ∈ [0, 1], (va i).toNat % 4 = 0 ∧ vmem.tr .rd (va i) = .ok (x i) ∧ (x i).fill = none ∧ isBasin (x i).loc = true ∧ (x i).loc = basinLoc 0 0 (4 * i)
        ∧ vmem.poisoned (basinLoc 0 0 (4 * i)) 4 = false ∧ vmem.tr .wr (va i) = .ok (w i) ∧ vmem.held (basinLoc 0 0 (4 * i)) 4 = false)
    ∧ vmem.tr .rd 0xFFFF800000001000#64 = .fault 5#8 ∧ vmem.tr .rd 0xFFFF800000100000#64 = .aperture 0 0 ∧ vmem.tr .rd 0x800000000000#64 = .fault 5#8 :=
  ⟨fun _ => test_ready _ _ rfl rfl, by decide +kernel⟩

/-- A shape of each combination of Table 13.3 at its smallest, and at its largest size. -/
theorem test_meets_MatrixShape : ShapeOk ⟨8, 8, 8, 8, 0, 0, 0, 0, 0⟩ .mma ∧ ShapeOk ⟨64, 64, 4096, 4089, 0, 0, 1, 0, 0⟩ .mma ∧ ShapeOk ⟨8, 8, 16, 16, 1, 2, 0, 0xFFF80, 0⟩ .mmas
    ∧ ShapeOk ⟨8, 8, 16, 1, 3, 3, 1, 0, 0⟩ .mmas ∧ ShapeOk ⟨8, 8, 16, 2, 4, 5, 2, 0, 0⟩ .mmat ∧ (∀ i, Ready i (bank [])) ∧ (bank [(1, 0x100808#64)]).cx.ahead = none := by
  refine ⟨⟨8, false, .inl ?_, ?_⟩, ⟨8, false, .inl ?_, ?_⟩, ⟨16, true, .inr (.inl ?_), ?_⟩, ⟨16, true, .inr (.inr (.inl ?_)), ?_⟩, ⟨16, false, .inr (.inr (.inr ?_)), ?_⟩,
    fun _ => test_ready _ _ rfl rfl, rfl⟩ <;> decide

theorem test_meets_MatrixInstructions :
    let s := example13
    let inside := fun (off : Nat) => decide (off % 128 = 0) && decide (off + 256 ≤ 2 ^ 20) && s.basinPageOk s.cur s.cx.tn (off / 4096)
    (∀ i, Ready i s) ∧ (s.plan = [] ∧ s.cur.reserve = false ∧ s.myCore.engine = [] ∧ s.myCore.sboard = []) ∧ shapeOf (s.rd 23) = ⟨8, 8, 16, 16, 0, 0, 0, 0, 0⟩
    ∧ [0, 0x1000, 0x2000].all inside = true ∧ (shapeOf (s.rd 23)).sizes.1 = 256 ∧ (shapeOf (s.rd 23)).sizes.2.1 = 256 ∧ (shapeOf (s.rd 23)).sizes.2.2.2 = 256
    ∧ s.rd 10 = 0xFFFF800000000000#64 ∧ s.rd 25 = 0xFFFF800000001000#64 ∧ s.rd 26 = 0xFFFF800000002000#64
    ∧ s.held (basinLoc 0 0 0x2000) 256 = false ∧ s.poisoned (basinLoc 0 0 0) 256 = false ∧ (8#64).toNat % 128 ≠ 0 ∧ (0x80#64).toNat < 0xFFFF800000000000 :=
  ⟨fun _ => test_ready _ _ rfl rfl, by decide +kernel⟩

/-- An operation of the engine: waiting, running with one block, and with all of them behind it. -/
def engineOp (started : Bool) (blocks : Nat) : MatrixOp :=
  { kind := .mma, owner := ⟨0, 0, 0, false⟩, a := 0, b := 0x1000, c := 0x2000, shape := 0x0000000008004000#64, retry := 0, sb := 1, started := started, blocks := blocks,
    staged := [], flags := 0#8, yielded := false, raced := [] }

/-- The example's core with that operation. -/
def engineState (o : MatrixOp) : State := example13.onCore 0 0 (fun k => { k with engine := [o], sboard := [⟨1, o.owner, [], none⟩] })

theorem test_meets_MatrixEngineSteps :
    let h := shapeOf 0x0000000008004000#64
    (engineState (engineOp false 0)).nextOp 0 0 = some (engineOp false 0) ∧ (engineState (engineOp false 0)).ramping 0 0 = false
    ∧ (engineState (engineOp false 0)).poisoned (basinLoc 0 0 0x2000) 256 = false
    ∧ (engineState (engineOp true 0)).runningOp 0 0 = some (engineOp true 0) ∧ (engineState (engineOp true 0)).mustYield (engineOp true 0) = false
    ∧ (engineState (engineOp true h.blocks)).runningOp 0 0 = some (engineOp true h.blocks) ∧ h.blocks ≤ (engineOp true h.blocks).blocks ∧ (engineOp true 0).retry = 0
    ∧ (engineState (engineOp true 0)).domain (((engineState (engineOp true 0)).ctx ⟨0, 0, 0, false⟩).r.dom.setWidth 32) = none := by decide +kernel

theorem test_meets_MatrixArithmetic : (4 : Nat) ∈ [2, 4, 8, 16, 32] ∧ 64 % 8 = 0 ∧ 63 < 64 ∧ 15 < 16 ∧ 0 < 8 := by decide
/-! ### Tasks, domains, the weir -/

/-- A domain record of die 0, index 0, id 0x10000, of a creator in no launch with sr.task 0x55, changed by a function. -/
def domRec (f : DomRec → DomRec) : DomRec :=
  f { id := 0x10000#32, tenant := 0, parent := 0, depth := 1, creator := some ⟨0, 0, 0, false⟩, creatorTask := (0x55#64, 7), snap := {}, ranges := [], limit := 0, count := 0,
      attempt := 0, cause := 0#8, causeAddr := 0#64, members := 0, acks := 0, deferred := [], joinVec := [], root := none, ran := [], stitched := [], restart := false }

/-- The bound task of `tasked`, inside that domain. -/
def inDomain (l : List (Nat × Word)) (f : DomRec → DomRec) : State :=
  let s := tasked l
  { s with cx := { s.cx with bound := s.cx.bound.map (fun b => { b with task := 0x55#64 }), r := { s.cx.r with dom := 0x10000#64, depth := 1 } },
           dies := [(0, { records := [(0, some (domRec f))], gens := [(0, 1)] })] }

/-- Whether words are read for an instruction. -/
def readsOk {α : Type} (x : Except Res α) : Bool := match x with | .ok _ => true | .error _ => false

/-- A descriptor of one task at 0x400, for every die. -/
def descriptor : List Byte := bytesLE 8 0x400 ++ bytesLE 4 1 ++ bytesLE 1 1 ++ bytesLE 3 0 ++ bytesLE 2 0xFFFF ++ List.replicate 118 0#8

theorem test_meets_TaskInstructions :
    let s := tasked [(1, 0x1000#64), (2, 1#64), (3, 0x400#64)]
    let x := acc s .wr 0x1000#64
    (∀ i, Ready i s) ∧ (bank []).cx.bound = none ∧ s.cx.bound ≠ none ∧ s.cx.r.children = 0 ∧ (s.cx.pendOwn = 0 ∧ s.cx.pendD = 0 ∧ s.cx.pendX = 0)
    ∧ s.myDomain = none ∧ s.programRuns s.cur = false ∧ s.myCore.deque.length < 64 ∧ (s.rd 3).toNat % 4 = 0 ∧ (s.rd 2).toNat % 4 ≠ 0 ∧ s.waitingOn s.cur.die = []
    ∧ (inDomain [] id).myDomain = some (domRec id) ∧ (domRec id).root = none ∧ (domRec id).creatorTask = (inDomain [] id).myTask
    ∧ (s.rd 1).toNat % 8 = 0 ∧ s.tr .wr (s.rd 1) = .ok x ∧ x.fill = none ∧ isBasin x.loc = false ∧ x.win.ship = false ∧ isCtl x.loc = false
    ∧ s.held x.loc 8 = false ∧ homeDie x.loc = some 0 ∧ s.myAttr.place.toNat.testBit 0 = true ∧ s.poolUsed 0 < 16384
    ∧ doneAt (s.atomic x 8 (fun _ => some 5)) = true ∧ doneAt (s.atomic x 8 (fun _ => none)) = true ∧ (s.rd 2).toNat % 2 ^ 32 ≠ 0 :=
  ⟨fun _ => test_ready _ _ rfl rfl, by decide +kernel⟩

/-- A full deque and a full ring; a task that a waiting one may pre-empt where no bank is free; a descriptor. -/
theorem test_meets_TaskInstructions_queues :
    let e : TaskAttr := { prio := 3, place := 1#16 }
    let s : State := { tasked [] with dies := [(0, { ready := [(0, [e])] })], rcv := { fenced := [.dieShared 0] } }
    let q : State := { tasked [(1, 0x1000#64)] with mem := writeMem (tasked []).mem 0x1000 descriptor }
    (64 ≤ (List.replicate 64 e).length ∧ 65536 < (List.replicate 65505 e).length + 32) ∧ (e, none) ∈ s.waitingOn s.cur.die ∧ (∃ b, s.cx.bound = some b ∧ b.cohort = false ∧ b.rank ≤ e.rank)
    ∧ s.hasTaker s.cur.die (e, none) = false ∧ s.cur.reserve = false ∧ s.cur.isSup = false ∧ readsOk (q.readWords 0#32 (q.rd 1) 17) = true
    ∧ q.launchdStatus (launchReq descriptor) = 0 ∧ q.launchdStatus (launchReq []) ≠ 0 := by
  refine ⟨⟨by rw [List.length_replicate], by rw [List.length_replicate]; omega⟩, ?_, ⟨_, rfl, ?_, ?_⟩, ?_, ?_, ?_, ?_, ?_, ?_⟩ <;> decide +kernel

theorem test_meets_DomainAndLendInstructions :
    let s := tasked [(1, 0x1000#64), (2, 64#64)]
    let t := inDomain [(1, 0x1000#64), (2, 64#64)] id
    (∀ i, Ready i s) ∧ (∀ i, Ready i t) ∧ s.cx.r.depth < 8 ∧ s.planned = false ∧ s.freeRecord 0 = some 0 ∧ t.freeRecord 0 = some 1 ∧ s.cur.die < 16
    ∧ (s.newDomainId 0 0).1 = 0x10000#32 ∧ s.myDomain = none ∧ t.myDomain = some (domRec id) ∧ (domRec id).ranges.length < 8
    ∧ 8 ≤ (domRec (fun d => { d with ranges := List.replicate 8 default })).ranges.length ∧ s.rd 0 = 0#64 ∧ t.rd 2 ≠ 0#64
    ∧ (t.rd 1).toNat + (t.rd 2).toNat ≤ 2 ^ 64 ∧ overlaps (t.rd 1).toNat (t.rd 2).toNat basinBase (2 ^ 20) = false
    ∧ readsOk (t.rangeParts (encode (.dpresHold 1 2)) (t.rd 1) 64 2) = true
    ∧ ((t.tenant t.cx.tn).map (·.store)).getD 0 < t.snapBytes t.cx.tn + 64
    ∧ (domRec id).members = 0 ∧ (domRec id).creatorTask = t.myTask ∧ (domRec id).root = none ∧ (t.flushStitch (domRec id).id).domain (domRec id).id = some (domRec id)
    ∧ (domRec id).acks = 0 ∧ (domRec id).deferred = [] ∧ (domRec id).parent = 0#32 ∧ s.rd 1 ≠ s.rd 2 ∧ s.rd 3 = s.rd 4 ∧ s.cur.reserve = false
    ∧ s.lendFault 1#8 0#64 = none ∧ s.lendFault 0#8 0x10000#64 = some 0xFFFF800000000000#64 ∧ namedPages 0#64 = [] :=
  ⟨fun _ => test_ready _ _ rfl rfl, fun _ => test_ready _ _ rfl rfl, by decide +kernel⟩

/-- A group of this package: rank 0 on die 0, rank 1 on die 1, one element, lag 1, open round 4. -/
def grp (f : Group → Group) : Group :=
  f { tenant := 0, key := 0#64, n := 2, k := 1, lag := 1, rule := 0, op := 0, count := 1, weights := [], members := [(0xFFF#12, 0), (0xFFF#12, 1)], poisoned := false,
      openRound := 4#32, cur := ⟨[], [], [], 0⟩, next := ⟨[], [], [], 0⟩, arrived := [], dies := [], messages := [], flight := [], sending := [] }

/-- A task on die 0 with that group as handle 9, a basin page and a step program in slot 0. -/
def weird (l : List (Nat × Word)) (f : Group → Group) (p : Option StepProg) : State :=
  { tasked l with groups := [(9, some (grp f))], cores := [(0, { pages := [(0, 1)] })], dies := [(0, { programs := [(0, p)] })],
                  fab := { groupTables := [(0, [9])] } }

/-- A step program of one step, running. -/
def prog (w : Word × Word) (f : StepProg → StepProg) : StepProg :=
  f { owner := ⟨0, 0, 0, false⟩, handle := 9#32, rank := 0, core := 0, steps := [w], index := 0, loops := [], tag := 4#32, doneOff := 0, state := 1, code := 0#8, posted := 0, span := (0, 64) }

/-- The words of a step: OP, PMODE, PARG and LEN, then SRC and DST (Table 14.6). -/
def stepWords (op pmode parg len src dst : Nat) : Word × Word :=
  (BitVec.ofNat 64 (op * 2 ^ 60 + pmode * 2 ^ 58 + parg * 2 ^ 47 + len * 2 ^ 23), BitVec.ofNat 64 (src * 2 ^ 32 + dst))

theorem test_meets_WeirInstructionsAndStepPrograms :
    let rec_ : ResultRec := ⟨3#32, [], []⟩
    let s := weird [(1, 9#64), (2, 3#64), (3, 0xFFFF800000000000#64)] id none
    let r := weird [(1, 9#64), (2, 3#64), (3, 0xFFFF800000000000#64)] (fun g => { g with dies := [(0, { records := [rec_] })] }) none
    (∀ i, Ready i s) ∧ s.weirEntry 0 0 9#32 = some (grp id) ∧ s.weirEntry 0 0 8#32 = none ∧ (SMap.look {} (grp id).dies 0).records = [] ∧ newestTag [rec_] = some 3#32
    ∧ s.cx.program = none ∧ (s.ranksOf (grp id) 0).contains 0 = true ∧ (grp id).root.1 = s.pkgid ∧ s.planned = false
    ∧ s.rd 3 = BitVec.ofNat 64 basinBase ∧ s.basinHole s.cur s.cx.tn (s.rd 3) (grp id).recordSize = none ∧ s.held (basinLoc 0 0 0) (grp id).recordSize = false
    ∧ tooOld 1 [rec_] 3#32 = false ∧ tooOld 1 [] 3#32 = false ∧ (r.weirEntry 0 0 9#32).isSome = true ∧ [rec_].find? (fun r => r.tag == 3#32) = some rec_
    ∧ (match s.weirSb [] (some (sbRange 0 (grp id).recordSize)) with | .ok _ _ => true | _ => false) = true :=
  ⟨fun _ => test_ready _ _ rfl rfl, by decide +kernel⟩

/-- A descriptor of QPOST for handle 9, tag 4, one element at the basin's base, rank 0; a program of END alone for QSTART. -/
theorem test_meets_WeirInstructionsAndStepPrograms_reads :
    let post : List Byte := bytesLE 4 9 ++ bytesLE 4 4 ++ bytesLE 8 0xFFFF800000000000 ++ bytesLE 8 1 ++ bytesLE 8 0
    let s : State := { weird [(1, 0x1000#64), (2, 9#64)] id none with mem := writeMem [] 0x1000 post }
    let q : State := { weird [(1, 0x1000#64), (2, 9#64)] id none with mem := writeMem [] 0x1000 (List.replicate 32 0#8) }
    (s.rd 1).toNat % 8 = 0 ∧ readsOk (s.readWords 0#32 0x1000#64 4) = true ∧ s.weirEntry 0 0 (BitVec.ofNat 32 (natAt post 0 4)) = some (grp id)
    ∧ (s.ranksOf (grp id) 0).contains (bits (wordAt post 16) 57 48) = true ∧ bits (wordAt post 16) 47 36 = 0 ∧ bits (wordAt post 16) 63 58 = 0 ∧ wordAt post 24 = 0#64
    ∧ bits (wordAt post 16) 31 0 = (grp id).count ∧ bits (wordAt post 16) 35 32 = (grp id).op ∧ (wordAt post 8).toNat % 4 = 0
    ∧ s.basinHole s.cur s.cx.tn (wordAt post 8) 4 = none ∧ s.poisonVa (basinLoc 0 0 0) 4 = none
    ∧ (match s.weirSb [sbRange 0 4] none with | .ok _ _ => true | _ => false) = true
    ∧ (q.rd 1).toNat % 16 = 0 ∧ readsOk (q.readWords 0#32 0x1000#64 2) = true ∧ readsOk (q.readSteps 0#32 0x1010#64 255) = true
    ∧ q.startStatus (grp id) 0 0#64 0#64 [stepOf (0#64, 0#64)] true = 0 ∧ q.freeSlot 0 = some 0 ∧ q.startStatus (grp id) 0 0#64 4#64 [] true = 1 := by decide +kernel

/-- What stands before each happening of the weir. -/
theorem test_meets_WeirInstructionsAndStepPrograms_steps :
    let p : Partial := ⟨(0xFFF#12, 0), 4#32, [0], [], [.ctx ⟨0, 0, 0, false⟩ 0 3 false], [], true, some (0, 4#32)⟩
    let r : ResultRec := ⟨3#32, [], []⟩
    let g := weird [] (fun g => { g with arrived := [p], dies := [(0, { partials := [p] })], sending := [(0, r)], flight := [(1, 0, [1#8])] }) none
    (g.group 9#32).isSome = true ∧ (g.partialOf ⟨0, 0, 0, false⟩).isSome = true
    ∧ ((g.group 9#32).map (fun x => x.arrived.length == 1 && (x.sending.find? (fun e => e.1 == 0 && e.2.tag == 3#32)).isSome
        && (x.flight.find? (fun m => m.1 == 1 && m.2.1 == 0)).isSome && x.members[0]? == some (0xFFF#12, 0))) = some true
    ∧ g.partialMay (grp id) p = true ∧ g.partialMay (grp id) { p with src := (0xFFF#12, 1), vec := [(2, 1#32)] } = false := by decide +kernel

/-- Each kind of step, its peer's message and its basin free. -/
theorem test_meets_WeirInstructionsAndStepPrograms_each :
    let at_ := fun (w : Word × Word) (f : StepProg → StepProg) (op : Nat) => ((weird [] (fun g => { g with messages := [(1, 0, [1#8, 2#8, 3#8, 4#8])] }) (some (prog w f))).stepAt 0 0 op).isSome
    at_ (stepWords 1 0 1 4 0 0) id 1 = true ∧ at_ (stepWords 2 0 1 4 0 0) id 2 = true ∧ at_ (stepWords 3 0 1 4 0 0) id 3 = true ∧ at_ (stepWords 4 0 0 4 0 8) id 4 = true
    ∧ at_ (stepWords 5 0 0 0 0 0) id 5 = true ∧ at_ (stepWords 6 0 3 0 0 0) id 6 = true ∧ at_ (stepWords 7 0 0 0 0 0) (fun p => { p with loops := [(0, 0, 2)] }) 7 = true
    ∧ at_ (stepWords 8 0 0 4 0 0) id 8 = true ∧ at_ (0#64, 0#64) id 0 = true ∧ (stepOf (stepWords 2 0 1 4 0 0)).peer 2 0 = some 1
    ∧ (weird [] id none).progFree 0 (prog (0#64, 0#64) id) [sbRange 0 4] (some (sbRange 8 4)) = true ∧ (weird [] id none).poisonVa (basinLoc 0 0 0) 4 = none
    ∧ (grp id).buffered 0 1 + 4 ≤ 65536 := by decide +kernel
/-! ### What happens without an instruction of a program -/

/-- Reset with port 0 changed by a function, its far end package 1 port 2 greeted and both directions up. -/
def ported (f : PortSt → PortSt) : State :=
  { State.reset with fab := { ports := [(0, f { tx := { state := 2 }, rx := { state := 2 }, far := some (1#12, 2) })] } }

/-- A packet with no CRC, changed by a function. -/
def packet (f : Packet → Packet) : Packet :=
  f { hcrc := 0#32, hseq := 0#16, hack := 0#16, ecrc := 0#32, group := 0#32, addr := 0#56, cvp := false, opx := 0#7, dpkg := 0xFFF#12, ddie := 0#4, spkg := 0xFFF#12,
      sdie := 0#4, txn := 0#16, len := 0#5, vc := 0#3, typ := 1#8, payload := [] }

/-- Reset with another boot status. -/
def booted (b : BitVec 8) : State := { State.reset with pkg := { State.reset.pkg with boot := b } }

/-- A boot report: a number of dies and stacks that passed. -/
def report (dies hbms : Nat) : BootReport := ⟨(List.range dies).map (fun d => (d, List.range 68, 2)), List.range hbms, 0x1000#64, 0x2000#64⟩

/-- A firmware image of a version. -/
def image (v : Word) : Image := ⟨[1#8], v, 0#776, []⟩

/-- Each step of the sequence, but for a slot whose images' signatures verify, which no short evaluation shows; and the counter's advance. -/
theorem test_meets_PowerResetAndFabric :
    let b : State := { State.reset with pkg := { State.reset.pkg with booted0 := [image 1#64], booted1 := [image 1#64] } }
    (State.reset.pkg.powered = true ∧ ({ State.reset.pkg with powered := false } : Package).powered = false)
    ∧ [1#8, 2#8, 3#8, 4#8, 5#8, 6#8, 7#8, 8#8, 9#8].all (fun b => (booted b).pkg.boot == b && (booted b).pkg.powered) = true
    ∧ (0 ∈ (booted 2#8).rcv.sps ∧ (booted 2#8).slotAt 0 = none)
    ∧ (∀ i, i < 4 → SMap.look 0#384 (booted 3#8).pkg.meas i = SMap.look 0#384 (booted 3#8).pkg.meas (8 + i))
    ∧ SMap.look 0#384 [(0, 1#384)] 0 ≠ SMap.look 0#384 [(0, 1#384)] 8 ∧ State.reset.rcv.sps = [0, 1]
    ∧ ((List.range 18).filter ((booted 5#8).usableDie (report 18 34))).length = 18 ∧ ((List.range 18).filter ((booted 5#8).usableDie (report 15 34))).length < 16
    ∧ ((List.range 34).filter (fun h => (report 18 34).stackTests.contains h && !(booted 5#8).retired (.stack h) && !((booted 5#8).stack h).retired)).length = 34
    ∧ ((List.range 34).filter (fun h => (report 18 31).stackTests.contains h && !(booted 5#8).retired (.stack h) && !((booted 5#8).stack h).retired)).length < 32
    ∧ (b.rcv.sps.length = 2 ∧ b.pkg.booted0 ≠ [] ∧ b.pkg.booted0 = b.pkg.booted1 ∧ ∀ m ∈ b.pkg.booted0, (1#64).toNat ≤ m.version.toNat)
    ∧ State.reset.pkg.booted0 = [] := by decide +kernel

/-- A die with a detector event; one whose engine asks while every engine is idle; a guest with its timebase. -/
theorem test_meets_PowerResetAndFabric_power :
    let t : State := { State.reset with dies := [(0, { timingEvents := 1 })] }
    let u : State := { State.reset with cycle := 4000000000#64 }
    let e : State := { engineState (engineOp false 0) with cycle := 1024#64 }
    let g : State := { State.reset with rcv := { guests := [(16, 1#12, 3)] }, dies := [(48, { guestBase := some (5#64, 0) })] }
    115000 ≤ 115000 ∧ 104999 < 105000 ∧ t.cycle.toNat - (t.die 0).timingSince < (t.die 0).timingEvents * 10 ^ 9
    ∧ ((u.die 0).timingEvents * 10 ^ 9 ≤ u.cycle.toNat - (u.die 0).timingSince ∧ (u.die 0).timingEvents * 10 ^ 11 < u.cycle.toNat - (u.die 0).timingSince
      ∧ 4 * 10 ^ 9 ≤ u.cycle.toNat - (u.die 0).timingSince)
    ∧ (State.reset.die 0).timingEvents * 10 ^ 9 ≤ State.reset.cycle.toNat ∧ State.reset.cycle.toNat < 4 * 10 ^ 9
    ∧ ((e.core 0 0).engine.any (fun o => !o.started && o.kind.ramps)) = true ∧ ((List.range 64).all (fun k => (e.core 0 k).engine.all (fun x => !x.started))) = true
    ∧ (e.die 0).lastMatrix + 1024 ≤ e.cycle.toNat ∧ (e.die 0).rampStart = none ∧ (∀ o ∈ (State.reset.core 0 0).engine, o.started = true)
    ∧ (∃ x ∈ g.rcv.guests, x.1 = 16) ∧ (g.die (guestKey 16)).guestBase.isSome = true := by decide +kernel

/-- A port that is up, one that is DOWN, one that trains or waits; the packets that it receives and keeps. -/
theorem test_meets_PowerResetAndFabric_ports :
    let s := ported id
    let w := packet (fun p => { p with hseq := 5#16, vc := 1#3 })
    let q : PortSt := { tx := { state := 2 }, rx := { state := 2 }, far := some (1#12, 2), buffer := [(w, 1)], stalled := [w], unacked := 1, recovery := true }
    s.portLive 0 = true ∧ State.reset.portLive 0 = false ∧ (s.port 0).tx.state = 2 ∧ SMap.look [] s.fab.floods 1 ≠ [(0, 1#12, 2)]
    ∧ (1#12 ≠ s.pkgid) ∧ 2 ≤ (s.port 0).rx.state ∧ (State.reset.port 0).rx.state < 2 ∧ (s.port 0).recovery = false ∧ q.recovery = true
    ∧ w.hseq ≠ (s.port 0).expect ∧ (packet id).hseq = (s.port 0).expect ∧ (s.port 0).unacked = 0 ∧ 0 < q.unacked ∧ (∀ e ∈ (s.port 0).buffer, e.1.hseq ≠ 5#16)
    ∧ q.buffer.findIdx? (fun e => e.1.hseq == 5#16) = some 0 ∧ q.buffer ≠ [] ∧ (s.port 0).buffer = [] ∧ (∃ e ∈ [(w, 8)], 8 ≤ e.2)
    ∧ ({ q with rx := { state := 1 }, tx := { state := 1 }, buffer := [], stalled := [] } : PortSt).rx.state = 1 ∧ (State.reset.port 0).retried = false
    ∧ ({ q with retried := true } : PortSt).retried = true ∧ (State.reset.port 0).stalled = [] ∧ State.reset.fab.pending = [] ∧ s.creditLimit 0 ≤ 10000 ∧ 9999 < s.creditLimit 0
    ∧ (∃ x ∈ q.stalled, SMap.look 0 q.credits x.vc.toNat = 0) ∧ s.fab.change = none ∧ (s.port 40).stalled = []
    ∧ ({ q with tx := { state := 3 } } : PortSt).tx.state ≠ 2 ∧ (5#4 ≠ 0#4) := by decide +kernel

/-- A packet's own hop CRC is one that it can carry, and another is not. -/
theorem test_meets_PowerResetAndFabric_crc :
    ({ packet id with hcrc := (packet id).hopCrc } : Packet).hcrc = (packet id).hopCrc
    ∧ ({ packet id with hcrc := ~~~(packet id).hopCrc } : Packet).hcrc ≠ (packet id).hopCrc :=
  ⟨rfl, fun h => by
    have := congrArg (fun (x : BitVec 32) => x.getLsbD 0) h
    simp at this⟩

/-- A request that a router takes: of its base die, of another package, held for its line, refused by its group, of a parked package. -/
theorem test_meets_PowerResetAndFabric_routes :
    let s := State.reset
    let p := packet id
    let far := packet (fun p => { p with dpkg := 1#12 })
    let coll := packet (fun p => { p with typ := 0x0B#8 })
    let held : State := { s with fab := { heldLines := [(0, 0)] } }
    let pend : State := { s with fab := { pending := [⟨s.requestKey p, p, some ⟨0, 0, 0, false⟩⟩] } }
    p.wellTyped = true ∧ (packet (fun p => { p with typ := 0x13#8 })).wellTyped = false ∧ p.baseForm = true ∧ p.sdie.toNat = stackOf p.pa / 2
    ∧ (packet (fun p => { p with addr := 0x3000000000#56 })).sdie.toNat ≠ stackOf (packet (fun p => { p with addr := 0x3000000000#56 })).pa / 2
    ∧ far.baseForm = false ∧ ({ s with fab := { change := some default } } : State).fab.change.isSome = true ∧ p.maint = false ∧ s.ownSource p = true ∧ p.isRequest = true
    ∧ (∃ e ∈ held.fab.heldLines, e.1 = held.lineOf p) ∧ s.fencedTarget 0 far = false ∧ (match s.hop 0 far with | .lost => true | _ => false) = true
    ∧ (match s.hop 0 p with | .port _ => true | _ => false) = true ∧ s.fencedTarget 0 p = false ∧ coll.collective = true ∧ s.groupOk 0 coll = false
    ∧ held.fab.heldLines.find? (fun e => e.1 == 0) = some (0, 0) ∧ (∀ e ∈ held.fab.pending, held.lineOf e.packet ≠ 0) ∧ held.net = []
    ∧ (∃ e ∈ pend.fab.pending, pend.lineOf e.packet = 0) ∧ (∀ e ∈ s.fab.heldLines, e.1 ≠ 0)
    ∧ pend.fab.pending.find? (fun e => e.key == pend.replyKey p) = some ⟨s.requestKey p, p, some ⟨0, 0, 0, false⟩⟩ ∧ SMap.look 0 pend.fab.resends (s.requestKey p) < 2
    ∧ 2 ≤ SMap.look 0 [(7, 2)] 7 ∧ pend.fab.relays = [] ∧ (pend.ctx ⟨0, 0, 0, false⟩).st = .idle ∧ ((bank []).ctx ⟨0, 0, 0, false⟩).st = .run ∧ (bank []).domain 0#32 = none
    ∧ ((inDomain [] id).domain 0x10000#32).isSome = true ∧ s.badStkmap 0x80FFF000#32 = false ∧ s.badStkmap 0xC0FFF000#32 = true
    ∧ s.pkg.spareDies.contains 16 = true ∧ s.drained = true ∧ ({ s with inbox := [.hopPacketReceive 40 p] } : State).drained = false
    ∧ s.fab.parked = [] ∧ s.fab.queuedFaults = [] ∧ s.fab.queuedDomains = [] ∧ s.fab.tagWait = [] := by decide +kernel

/-- A posted store of die 0 to its own stack, as it waits, is performed, and is refused. -/
def posted (num : Option (BitVec 32)) (performed : Bool) : NetWrite :=
  { id := 1, owner := some ⟨0, 0, 0, false⟩, src := 0, home := some 0, loc := 0x1000, bytes := [1#8], slice := 0, num := num, vec := [], performed := performed, refused := false }

/-- A store of context 0 that another package is to perform, where a later HOLD range finds it. -/
def postedAway : State := { ram [] [] with net := [{ posted none false with home := none, loc := (acc (ram [] []) .wr 0x1000#64).loc }] }

theorem test_meets_HomesAndBaseDies :
    let s : State := { State.reset with net := [posted (some 1#32) false] }
    let t : State := { State.reset with net := [posted none false] }
    let c : CtxId := ⟨0, 0, 0, false⟩
    let old : State := { State.reset with cycle := 65536#64 }
    65536 ≤ old.cycle.toNat - (old.die 0).announcedAt ∧ State.reset.cycle.toNat - (State.reset.die 0).announcedAt < 65536 ∧ (State.reset.die 0).k = (State.reset.die 0).kSent
    ∧ (packet (fun p => { p with opx := 1#7 })).opx = 1#7 ∧ (packet (fun p => { p with opx := 2#7 })).opx ≠ 1#7
    ∧ s.net.find? (fun x => x.id == 1) = some (posted (some 1#32) false) ∧ s.behind (posted (some 1#32) false) = false ∧ s.mayPerform (posted (some 1#32) false) = true
    ∧ t.net.find? (fun x => x.id == 1) = some (posted none false) ∧ t.behind (posted none false) = false ∧ t.mayPerform (posted none false) = true
    ∧ [posted (some 1#32) true].find? (fun x => x.id == 1) = some (posted (some 1#32) true)
    ∧ ({ State.reset with cx := { wait := .retry .causal } } : State).cx.wait = .retry .causal ∧ (State.reset.ctx c).wait ≠ .retry .causal
    ∧ ((({ State.reset with cx := { wait := .result {}, st := .wait } } : State).ctx c).wait = .result {})
    ∧ (State.reset.die 0).rdc = [] ∧ isBasin (2 ^ 72) = true
    ∧ (let w := postedAway
       let x := acc w .wr 0x1000#64
       w.xlate c (w.ctx c).tn ((w.ctx c).heapbase, (w.ctx c).heaplim, (w.ctx c).heapoff) .wr 0x1000#64 = .ok x
       ∧ (w.net.find? (fun y => y.owner == some c && y.home.isNone && !isBasin y.loc && !y.performed && !y.refused && overlaps x.loc 1 y.loc y.bytes.length)).isSome = true)
    := by decide +kernel

/-- An atomic, a decrement and a write of another package that arrive at their home, and what each asks of it. -/
theorem test_meets_HomesAndBaseDies_home :
    let s := State.reset
    let at_ := fun (f : Packet → Packet) => packet (fun p => f { p with addr := 0x1000#56, spkg := 1#12 })
    let a := at_ (fun p => { p with typ := 6#8, opx := 0x41#7, len := 1#5, payload := bytesLE 8 4 ++ bytesLE 8 3 ++ List.replicate 16 0#8 })
    let d := at_ (fun p => { p with typ := 0x0A#8, len := 1#5, payload := bytesLE 4 4 ++ bytesLE 4 1 ++ List.replicate 24 0#8 })
    let w := at_ (fun p => { p with typ := 3#8, opx := 1#7, len := 4#5, payload := List.replicate 128 1#8 })
    let n : State := { s with mem := writeMem [] 0x1000 (bytesLE 4 5 ++ bytesLE 4 1) }
    Packet.target a = 0x1000 ∧ (atomicOp (a.opx &&& 0x3F#7) 8 4 3).isSome = true ∧ homeDie 0x1000 = some 0 ∧ isBasin 0x1000 = false ∧ isOwn 0x1000 = true ∧ unmappedPa 0x1000 = false
    ∧ s.locked 0x1000 8 = false ∧ s.homeWait 0 (Packet.atSlice a) 0x1000 8 = none ∧ s.homeTurn (.homeAtomic none a) a = true ∧ s.fromDie 0 a = false ∧ 0x1000 % 8 = 0
    ∧ isCtl 0x1000 = false ∧ a.len = 1#5 ∧ s.held 0x1000 8 = false ∧ s.sectorPoisoned 0x1000 8 = false ∧ s.unordered 0 (s.strongSrc a) 0x1000 8 = false
    ∧ natAt d.payload 0 4 = 4 ∧ natAt d.payload 4 4 = 1 ∧ (∀ x ∈ d.payload.drop 8, x = 0#8) ∧ s.natAtLoc 0x1000 8 % 2 ^ 32 < 4
    ∧ ¬ (n.natAtLoc 0x1000 8 % 2 ^ 32 < 4 ∨ n.natAtLoc 0x1000 8 / 2 ^ 32 < 1) ∧ Packet.writes w ≠ [] ∧ ((Packet.writes w).all (fun e => !s.held e.1 e.2.length)) = true
    ∧ s.homeWait 0 (Packet.atSlice w) 0x1000 128 = none ∧ isBasin (Packet.target (packet (fun p => { p with addr := 0xF0000000000000#56 }))) = false
    ∧ isOwn (Packet.target (packet (fun p => { p with addr := 0x20000000000#56 }))) = true ∧ unmappedPa (Packet.target (packet (fun p => { p with addr := 0x20000000000#56 }))) = true
    ∧ (∃ g, (weird [] (fun g => { g with members := [(1#12, 0)] }) none).group 9#32 = some g ∧ g.root.1 ≠ (weird [] id none).pkgid) :=
  ⟨by decide +kernel, by decide +kernel, by decide +kernel, by decide +kernel, by decide +kernel, by decide +kernel, by decide +kernel, by decide +kernel, by decide +kernel,
   by decide +kernel, by decide +kernel, by decide +kernel, by decide +kernel, by decide +kernel, by decide +kernel, by decide +kernel, by decide +kernel, by decide +kernel,
   by decide +kernel, by decide +kernel, by decide +kernel, by decide +kernel, by decide +kernel, by decide +kernel, by decide +kernel, by decide +kernel, by decide +kernel,
   ⟨_, rfl, by decide +kernel⟩⟩

/-- A base-die request for line 0 of stack 0: read, write, victim write, masked write, flush, discard, routine, stitched write. -/
theorem test_meets_HomesAndBaseDies_stacks :
    let s := State.reset
    let z := fun (n : Nat) => List.replicate n (0#8 : Byte)
    let rd := packet (fun p => { p with opx := 15#7 })
    let wr := packet (fun p => { p with typ := 3#8, opx := 1#7, len := 4#5, payload := z 128 })
    let vw := packet (fun p => { p with typ := 3#8, opx := 0x1F#7, len := 16#5, payload := z 512 })
    let mk := packet (fun p => { p with typ := 4#8, opx := 0x70#7, len := 1#5, payload := z 32 })
    let fl := packet (fun p => { p with typ := 3#8, opx := 0x20#7 })
    let sh := packet (fun p => { p with typ := 8#8, len := 1#5, payload := z 32 })
    let st := packet (fun p => { p with typ := 3#8, opx := 0x41#7, len := 4#5, payload := z 128 })
    let lk : State := s.onStack 0 (fun t => { t with locks := [(0, mk)] })
    let oc : State := s.onStack 0 (fun t => { t with oc := [(0, 3#4)] })
    let lost : State := { s with poison := [0] }
    s.atStack 0 rd = true ∧ s.atStack 1 rd = false ∧ reservedPa rd.pa = false ∧ reservedPa (packet (fun p => { p with addr := 0xEE6B28000#56 })).pa = true
    ∧ (s.stack 0).mustWait rd = false ∧ (lk.stack 0).mustWait rd = true ∧ rd.opx.toNat < 16 ∧ rd.opx ≠ 0#7 ∧ (s.stack 0).ocMask 0 = none ∧ (oc.stack 0).ocMask 0 = some 3#4
    ∧ wholeSectors wr = true ∧ wr.opx.toNat < 16 ∧ vw.opx.toNat / 16 = 1 ∧ vw.payload.length = 512 ∧ (s.stack 0).ocEn = true
    ∧ mk.maskedAt.1 + mk.maskedAt.2 ≤ 32 ∧ mk.payload.length = 32 ∧ (0, mk) ∈ (lk.stack 0).locks ∧ (lk.stack 0).queue = [] ∧ lk.granulePoison 0 = false ∧ lost.granulePoison 0 = true
    ∧ SMap.look none s.under 0 = none ∧ fl.len = 0#5 ∧ natAt sh.payload 16 2 < 1024 ∧ (∀ x ∈ sh.payload.drop 18, x = 0#8) ∧ st.opx.toNat / 16 = 4 ∧ wholeSectors st = true
    ∧ (∀ i ∈ maskSectors 1, s.dramPoison i = false) ∧ (∃ i ∈ maskSectors 1, lost.dramPoison i = true) ∧ homeDie 0 = some 0
    ∧ (packet (fun p => { p with typ := 9#8 })).typ ≠ 1#8 ∧ s.fab.pending = [] ∧ (s.stack 0).portA = true ∧ (s.stack 0).portB = true
    ∧ routineOk ⟨true, false, 1#6, [encode (.add 10 10 10)]⟩ = true ∧ routineOk ⟨true, false, 0#6, []⟩ = false := by decide +kernel

theorem test_meets_RecoveryAndStitchGroups :
    let u : FUnit := .stack 0
    let r := fun (l : List FUnit) => ({ State.reset with pkg := { State.reset.pkg with fuse0 := { repair := l }, fuse1 := { repair := l } } } : State)
    let p : Proposal := ⟨u, false, 0, [], none, false, []⟩
    let q := fun (p : Proposal) => ({ State.reset with rcv := { proposals := [p] } } : State)
    let n := fun (k : Nat) => ({ State.reset with rcv := { counts := [⟨0, u, 0, k, []⟩, ⟨1, u, 0, k, []⟩] } } : State)
    let live := ported id
    FKind.counts .uncorrectable (unitClass u) = true ∧ (n 1).rcv.sps = [0, 1]
    ∧ (∀ x, x < 2 → ((n 1).countOf x u).count ≠ 0 ∧ (n 1).cycle.toNat - ((n 1).countOf x u).start < ((n 1).faultParams u).2 ∧ ((n 1).countOf x u).count + 1 < ((n 1).faultParams u).1)
    ∧ ((n 2).faultParams u).1 ≤ ((n 2).countOf 0 u).count + 1 ∧ State.reset.retired u = false ∧ State.reset.fab.change = none ∧ State.reset.rcv.proposals = []
    ∧ State.reset.meets u (State.reset.countOf 1 u).events = false ∧ State.reset.meets u [(.noResponse, 0)] = true ∧ State.reset.reach = []
    ∧ live.reach ≠ [] ∧ live.nearestTo live.pkgid ≠ []
    ∧ (q p).rcv.proposals.find? (fun x => x.unit == u) = some p
    ∧ (q { p with peer := true, abstained := [1] }).rcv.proposals.find? (fun x => x.unit == u) = some { p with peer := true, abstained := [1] }
    ∧ ((bank []).ctx ⟨0, 0, 0, false⟩).st = .run ∧ (r [.core 0 0]).retired ((r [.core 0 0]).coreUnit 0 0) = true ∧ (r [.core 0 0]).spareCore 0 64 = true
    ∧ (r [.core 0 0]).rcv.silent.contains ((r [.core 0 0]).coreUnit 0 0) = false
    ∧ (r [u]).retired (.stack ((r [u]).physStack 0)) = true ∧ (r [u]).pkg.spareStacks.contains 32 = true ∧ 32 ≠ (r [u]).physStack 0
    ∧ (r [.dieShared 0]).maySubstitute 0 true = true ∧ (r [.dieShared 0]).pkg.spareDies.contains 16 = true ∧ State.reset.maySubstitute 0 true = false ∧ (1#12 ≠ State.reset.pkgid)
    ∧ (booted 0x82#8).pkg.boot = 0x82#8 ∧ SMap.look 0 State.reset.rcv.missed 1 ≠ 2 ∧ SMap.look 0 [(1, 2)] 1 = 2
    ∧ outvotes .retire .retire = true ∧ outvotes .keep .retire = false ∧ State.reset.rcv.lost.contains 1#12 = false ∧ State.reset.spareFor 1#12 = none := by decide +kernel

/-- A rebuilding stack of a stitched window, a parity holder, and a delta slot waiting for its acknowledgement. -/
theorem test_meets_RecoveryAndStitchGroups_stitch :
    let s : State := { State.reset with
      hbm := [(0, { rebuild := some (0, 0) })], rcv := { stitch := [(3, some ⟨[0xFFF#12, 2#12], [4#12]⟩), (5, some ⟨[1#12, 2#12], [0xFFF#12]⟩)] },
      tenants := (ram [] []).tenants.map (fun e => (e.1, e.2.map (fun t => { t with windows := t.windows.map (fun w => (w.1, { w.2 with stitch := true, sgrp := 3#16 })) }))) }
    let e := fun (n : Nat) (w : List (BitVec 12)) => ({ line := 0, mask := 1#4, delta := [], group := 3#16, dom := 0#32, waiting := w, resends := n } : DeltaSlot)
    let d := fun (x : DeltaSlot) => (s.onCore 0 0 (fun k => { k with deltas := SMap.put none k.deltas 5 (some x) }))
    let g : StitchGroup := ⟨[0xFFF#12, 2#12], [4#12]⟩
    let pk := packet (fun p => { p with typ := 0x0E#8, opx := 1#7, spkg := 1#12, payload := List.replicate 128 1#8 })
    s.rebuilder 0 = some 0 ∧ s.rebuilder (stackOf (32 * 128)) = some 0 ∧ s.stitchOf (32 * 128) = some 3#16 ∧ SMap.look none s.rcv.stitch 3 = some g ∧ s.unrebuilt 32 = true
    ∧ (s.memberOf g).1 = some 0 ∧ (s.memberOf ⟨[1#12, 2#12], [0xFFF#12]⟩).2 = some 0 ∧ (s.nextStitched 0 0).isSome = true ∧ g.solve (some 0) none ⟨[], []⟩ = none
    ∧ g.solve (some 0) none ⟨[(1, List.replicate 128 1#8)], [(0, List.replicate 128 3#8)]⟩ = some (List.replicate 128 2#8)
    ∧ pk.payload.length = 128 * (maskSectors (pk.opx.toNat % 16)).length ∧ reservedPa pk.pa = false ∧ s.rcv.parityLocks = [] ∧ (deltasOf pk).length = 1
    ∧ s.holders 3#16 = [4#12] ∧ s.holders 2#16 = [] ∧ (List.range 256).find? (fun i => (SMap.look none (s.core 0 0).deltas i).isNone) = some 0
    ∧ SMap.look none ((d (e 0 [4#12])).core 0 0).deltas 5 = some (e 0 [4#12]) ∧ (e 0 [4#12]).waiting.filter (fun y => !(y == 4#12)) = []
    ∧ (e 0 [4#12, 5#12]).waiting.filter (fun y => !(y == 4#12)) ≠ [] ∧ (e 1 []).resends < 2 ∧ 2 ≤ (e 2 []).resends := by decide +kernel

/-- A session that has authenticated, a host with it and tenant 0, and a command of it. -/
def session (f : Session → Session) : Session :=
  f { phase := 1, key := some 0, auth := 1, pub := 1#776, ackn := 0, sack := [], sent := 0, unacked := [], replies := [], ackDue := false }

/-- That host, its admission list naming the session's key. -/
def hosted (f : Session → Session) : State :=
  { ram [(1, 0x1000#64)] [] with
    host := { sessions := [(1, some (session f))], auths := 1, nextSid := 2 },
    pkg := { State.reset.pkg with config := ⟨[], [⟨1#776, true, true⟩]⟩ } }

def command : CmdHead := ⟨1, 0, 0, 7#32, 1⟩

/-- A datagram to the host port: a message of a kind, with a session, a SEQ and a body; HELLO bears no tag. -/
def datagram (kind sid seq : Nat) (body : List Byte) : Datagram :=
  let m : ScpMsg := { kind := kind }
  let b := m.header sid seq 0 0 body.length ++ body ++ (if kind = 0 then [] else List.replicate 16 0#8)
  { frame := b.length + 62, pause := false, mac := 0#48, v6 := true, ip := 0#128, fragment := false, port := 5791, bytes := b }

/-- The messages that the port takes and what it discards; what the seal and the signatures decide no short evaluation shows. -/
theorem test_meets_HostSessionsAndCommands :
    let s := hosted id
    let m : Sent := { seq := 3, wire := [], at_ := 0, resends := 12, tenant := 0, records := [] }
    [0, 2, 3, 6, 7].all (fun k => ((s.scpIn (datagram k (if k = 0 then 0 else 1) (if k = 2 then 0 else 1) []) k).map (·.kind)) == some k) = true
    ∧ s.scpIn { datagram 6 1 1 [] with pause := true } 6 = none ∧ s.scpIn { datagram 6 1 1 [] with port := 1 } 6 = none
    ∧ ((s.scpIn (datagram 0 0 0 (List.replicate 226 0#8)) 0).map (fun h => (h.sid, h.len))) = some (0, 226)
    ∧ s.session 1 = some (session id) ∧ s.live 1 = true ∧ s.live 2 = false ∧ s.sessionsHeld < 256 ∧ Crypto.decodePoint 0#776 = none
    ∧ (session (fun y => { y with phase := 0 })).phase ≠ 1 ∧ (s.admitted 1#776).isSome = true ∧ s.admitted 2#776 = none
    ∧ (session (fun y => { y with ackDue := true })).ackDue = true ∧ m.due ≤ 10 ^ 12 ∧ 0 < m.due ∧ 12 ≤ m.resends
    ∧ (session (fun y => { y with unacked := [m] })).unacked.find? (fun e => e.seq == m.seq) = some m
    ∧ (session id).ackn < command.seq ∧ (session id).sack.contains command.seq = false ∧ command.seq ≤ (session id).ackn + 256 ∧ (session id).ackn + 256 < 257
    ∧ s.permitted command 0x10 = true ∧ s.permitted { command with session := 2 } 0x10 = false ∧ s.attachesBusy command .close = false
    ∧ s.attachesBusy command (.openTenant 0 1 1 0 0 false) = false
    ∧ ((s.tenant 0).map (fun t => (t.resetting, t.queues, (SMap.look [] t.cmds 0).length))) = some (false, 1, 0)
    ∧ ({ s with pkg := { s.pkg with fuse0 := { repair := [.hostController 0] }, fuse1 := { repair := [.hostController 0] } } } : State).retired (.hostController 0) = true
    ∧ (s.grant 1).isSome = true ∧ s.mayAddress 1 0 = true ∧ (List.range 64).find? (fun i => (s.tenant i).isNone) = some 1 := by decide +kernel

/-- A window to be mapped and one to be unmapped; a group; a counter word of the tenant's; pages on their way; a launch; routines. -/
theorem test_meets_HostSessionsAndCommands_bodies :
    let s := hosted id
    let b : MapBody := ⟨1, 0x100000#64, 0x1000#64, 3#3, 0#2, 0#12, 0xFFFF#16, 0#44, false, 0#6, 0#64, false, false, 0, 0, []⟩
    let none_ : MapBody := ⟨1, 0#64, 0#64, 0#3, 0#2, 0#12, 0#16, 0#44, false, 0#6, 0#64, false, false, 0, 0, []⟩
    let pl : Placement := ⟨0x100, 12, 0, 0#16⟩
    let g : GroupBody := ⟨0#64, 1, 1, 0, 0, 0, 1, false, List.replicate 16 0#16, [(0xFFF#12, 0)]⟩
    let x : PageXfer := ⟨7, 0x2000#64, 2, 12⟩
    b.bad s.pkgid = false ∧ b.length ≠ 0#64 ∧ none_.bad s.pkgid = false ∧ none_.length = 0#64 ∧ ((s.tenant 0).map (fun t => t.rangeOk b)) = some true
    ∧ (s.firstFit 0 b 0).isSome = true ∧ s.fits 0 b pl = true ∧ s.groupIdOk b pl = true
    ∧ s.firstFit 0 { b with length := 0x400000000000#64 } 0 = none ∧ s.badGroup 0 g = false ∧ (SMap.look [] s.fab.groupTables 0).length < 256 ∧ s.livePkg 1#12 = true
    ∧ (match s.prep 0 .wr [(0x1000, 8)] with | .ok u => (u.pieceLoc 0 0x1000).isSome && !u.locked 0x1000 8 && !u.readsPoison 0 [(0x1000, 8)] | _ => false) = true
    ∧ (match s.prep 0 .rd (splitPages 4 0x1000 16) with | .ok _ => true | _ => false) = true ∧ ({ s with poison := [512] } : State).readsPoison 0 [(0x1000, 8)] = true
    ∧ [x].find? (fun f => f.handle == (7#44).toNat) = some x ∧ 0 + 8 ≤ 2 ^ x.bits ∧ ((s.tenant 0).bind (fun t => t.windowAt 0x2000#64)).isSome = true
    ∧ s.group 9#32 = none ∧ ((weird [] id none).group 9#32).isSome = true ∧ s.poisoned (ownLoc (2 * 4096)) 8 = false ∧ ({ s with poison := [1024] } : State).poisoned (ownLoc (2 * 4096)) 8 = true
    ∧ s.fetching = [] ∧ ((s.tenant 0).map (fun t => (t.waits, t.events))) = some ([], [])
    ∧ descriptor.length = 136 ∧ (launchReq descriptor).bad = false ∧ s.launchDenied 0 (launchReq descriptor) = false ∧ (launchReq descriptor).unplaceable = false
    ∧ (launchReq descriptor).flags.testBit 2 = false ∧ (launchReq (List.replicate 136 0#8)).bad = true ∧ 2500 ≤ 8000 ∧ s.rcv.ckpts = [] := by decide +kernel

/-- A checkpoint of one shard whose one replica lives, reported and acknowledged, and a step that has lost nothing. -/
theorem test_meets_HostSessionsAndCommands_ckpt :
    let b : CkptBody := ⟨1, [1#12, 2#12, 3#12], 1, [⟨5#64, 1, [1#12]⟩]⟩
    let r : CkptReport := ⟨[[[9#8]]], true⟩
    let y : CkptStep := ⟨0, 1, [1#12, 2#12, 3#12], 1, [], [], []⟩
    ckptReported b r = true ∧ ckptReported b ⟨[], false⟩ = false ∧ r.acked = true ∧ (∀ m ∈ b.members, (hosted id).livePkg m = true)
    ∧ ((hosted id).shardRec ⟨5#64, 1, [1#12]⟩ [[9#8]]).isSome = true ∧ y.committed (fun _ => true) = false ∧ (y.rebuild (fun _ => true)).isSome = true :=
  ⟨by decide +kernel, by decide +kernel, rfl, by decide +kernel, rfl, by decide +kernel, by decide +kernel⟩

/-- A trap record of context 0 of core 0. -/
def trapRec (cause : BitVec 8) (insn : IWord) : TrapRec :=
  { ctx := ⟨0, 0, 0, false⟩, cause := cause, flags := 0#8, pages := [], tenant := 0, epc := 0#64, tval := 0x1000#64, task := 0#64, dom := 0#64, vstart := 0#64, launch := 0,
    cycle := 0#64, insn := insn }

/-- A supervisor with that record, its context still TRAPPED. -/
def trappedTask (r : TrapRec) : State :=
  let s := ram [] []
  { s with cx := { s.cx with st := .trapped }, traps := [r] }

theorem test_meets_SupervisorSchedulingAndCopies :
    let s := trappedTask (trapRec 4#8 0#32)
    let c : CtxId := ⟨0, 0, 0, false⟩
    let m := fun (f : Bool) (w : Wait) (t : Option Nat) => ({ bank [] with cx := { (bank []).cx with monitor := some ⟨0, f, t⟩, wait := w } } : State)
    s.traps.map (·.ctx) = [c] ∧ (s.ctx c).st = .trapped ∧ (({ s with cx := { s.cx with st := .run } } : State).ctx c).st ≠ .trapped
    ∧ s.windowed 0 0x1000#64 = true ∧ s.windowed 0 0x7000000000#64 = false ∧ (s.mapPages 0 (trapRec 4#8 0#32).wanted).2 = 0
    ∧ (trapRec 0x12#8 Enc.dend).insn = Enc.dend ∧ (trapRec 1#8 0#32).cause ≠ 0x04#8 ∧ (trapRec 1#8 0#32).cause ≠ 0x0D#8 ∧ (trapRec 1#8 0#32).cause ≠ 0x12#8
    ∧ ((boss []).ctx (supCtx 0 0)).st = .run ∧ (State.reset.ctx (supCtx 0 0)).st = .idle ∧ (0x80#64 &&& 3#64) = 0#64
    ∧ ((m false .none none).ctx c).monitor = some ⟨0, false, none⟩ ∧ ((m false .none none).ctx c).wait ≠ .retry .monitor ∧ ((m false .none none).ctx c).wait ≠ .retry .supervisorItem
    ∧ ((m false (.retry .monitor) none).ctx c).wait = .retry .monitor
    ∧ 0 + 65536 ≤ ({ m false (.retry .monitor) (some 0) with cycle := 65536#64 } : State).cycle.toNat ∧ (m false (.retry .monitor) (some 0)).cycle.toNat < 0 + 65536
    ∧ ((bank []).ctx c).st = .run ∧ (State.reset.ctx c).st ≠ .run
    ∧ (({ bank [] with cx := { (bank []).cx with st := .wait, wait := .walk 0#64 } } : State).ctx c).wait = .walk 0#64 ∧ c.isSup = false := by decide +kernel

/-- A mapped page of a T2 window, which goes back to the host, and of a T0 window with a second one of its size, to which it moves. -/
theorem test_meets_SupervisorSchedulingAndCopies_pages :
    let two := fun (tier : Nat) => ({ ram [] [] with tenants := (ram [] []).tenants.map (fun e => (e.1, e.2.map (fun t => { t with
      windows := t.windows.map (fun w => (w.1, { w.2 with tier := tier })) ++ [(1, { valid := true, pbase := 32, pend := 48, pkg := 0xFFF#12, perms := 7#3, va := 0x10000#64, length := 0x8000 })] }))) } : State).mapPage 0 0x1000 (2 ^ 63 + 2 ^ 62 + 0x1007)
    let page := fun (s : State) => (s.pageAt 0 0x1000#64).map (fun x => x.2.2.2)
    let s := two 2
    let t := two 0
    let m : Migration := ⟨0, 0x1000#64, 0x1000, 40 * 4096, 4096, 0#64⟩
    page s = some 0x1000 ∧ page t = some 0x1000
    ∧ ((s.pageAt 0 0x1000#64).map (fun x => x.2.1.tier == 2 && x.1.evictions.isEmpty && !s.locked (ownLoc (bits x.2.2.1 55 12 * 4096)) (2 ^ x.2.1.bits))) = some true
    ∧ ((t.pageAt 0 0x1000#64).map (fun x =>
        let v := SMap.look {} x.1.windows 1
        v.valid && v.bits == x.2.1.bits && v.tier != 2 && x.2.1.tier != 2 && !t.locked (leafLoc x.2.2.1 x.2.1.bits 0x1000) (2 ^ x.2.1.bits) && t.frameFree x.1 none v 40)) = some true
    ∧ ({ t with migrations := [m] } : State).migrations[0]? = some m ∧ (t.pteOf 0 0x1000).isSome = true ∧ t.poisoned m.src m.size = false
    ∧ ({ t with poison := [512] } : State).poisoned m.src m.size = true ∧ overlaps m.src m.size 0x1008 1 = true := by decide +kernel

/-- An entry to take, one that pre-empts where every bank is taken, a bank to spill, a harvest context to go on, a domain to restart. -/
theorem test_meets_SupervisorSchedulingAndCopies_tasks :
    let c : CtxId := ⟨0, 0, 0, false⟩
    let e : TaskAttr := { prio := 3, place := 1#16 }
    let s : State := { State.reset with dies := [(0, { ready := [(0, [e])] })] }
    let p : State := { tasked [] with dies := [(0, { ready := [(0, [e])] })], rcv := { fenced := [.dieShared 0] }, cycle := 4096#64 }
    let v : State := { tasked [] with cx := { (tasked []).cx with st := .wait, spill := some none } }
    let h : State := { State.reset with cur := ⟨0, 0, 0, true⟩, cx := { st := .parked }, cores := [(0, { lentTurns := 1#8, lentPages := [0] })] }
    let d := domRec (fun x => { x with restart := true, creator := some ⟨0, 0, 0, true⟩, creatorTask := (0#64, 0) })
    let r : State := { h with dies := [(0, { records := [(0, some d)] })] }
    (s.take c).isSome = true ∧ State.reset.take c = none ∧ (s.core 0 0).resume = [] ∧ (p.preemption 0).isSome = true ∧ State.reset.preemption 0 = none
    ∧ v.maySpill c = true ∧ ((v.ctx c).bound.isSome = true ∧ (v.ctx c).program = none) ∧ State.reset.maySpill c = false
    ∧ (h.ctx ⟨0, 0, 0, true⟩).st = .parked ∧ h.turnFree ⟨0, 0, 0, true⟩ = true ∧ h.domain ((h.ctx ⟨0, 0, 0, true⟩).r.dom.setWidth 32) = none
    ∧ r.domain 0x10000#32 = some d ∧ r.mayRestart d = true ∧ r.creatorCtx d = some ⟨0, 0, 0, true⟩ ∧ State.reset.mayRestart (domRec id) = false
    ∧ State.reset.poolUsed 0 < 16384 := by decide +kernel

/-- A template: eight bytes from one basin place to another, or memory to memory. -/
def template (src dst : Word) : List Word := [src, dst, 0#64, 0#64, BitVec.ofNat 64 (3 * 2 ^ 48 + 2 ^ 32 + 2 ^ 16 + 1), 0#64, 0#64, 0#64]

/-- A copy of that template at the head of channel 0, as it waits, runs or is suspended. -/
def copyAt (running suspended : Bool) : Copy :=
  { words := template 0x1000#64 0x2000#64, rep := 1, number := 1#64, owner := ⟨0, 0, 0, false⟩, task := 0#64, launch := 0, dom := 0#32, tenant := 0, heap := (0#64, 0x10000#64, 0#64),
    running := running, suspended := suspended, done := 0, charged := 0, counterLoc := 0, stampLoc := 0, sb := none, raced := [] }

def copying (c : Copy) : State := (ram [] []).onCore 0 0 (fun k => { k with channels := [(0, { state := 1, copies := [c] })] })

theorem test_meets_SupervisorSchedulingAndCopies_sluice :
    let w := template 0x1000#64 0x2000#64
    let s : State := { ram [] [] with tenants := (ram [] []).tenants.map (fun e => (e.1, e.2.map (fun t => { t with templates := [(5, w)] }))) }
    let img := SMap.look [] (((s.tenant s.cx.tn).map (·.templates)).getD []) (bits (5#64) 15 0)
    s.cx.st = .run ∧ s.cx.ahead = none ∧ (SMap.look {} s.myCore.channels (ownChannel s.cur)).copies.length < 4 ∧ 4 ≤ (List.replicate 4 (copyAt false false)).length
    ∧ bits (0x100000000#64) 63 32 ≠ 0 ∧ bits (5#64) 63 32 = 0 ∧ bits (5#64) 15 0 < 4096 ∧ 4096 ≤ bits (4096#64) 15 0 ∧ img = w ∧ (tmplOf img).valid = true
    ∧ (tmplOf img).aligned = true ∧ inBasinWin (tmplOf img).src = false ∧ inBasinWin (tmplOf img).dst = false ∧ (tmplOf []).valid = false
    ∧ (tmplOf (template 0x1001#64 0x2000#64)).valid = true ∧ (tmplOf (template 0x1001#64 0x2000#64)).aligned = false
    ∧ (copying (copyAt false false)).headCopy 0 0 0 = some (copyAt false false) ∧ (copying (copyAt true false)).headCopy 0 0 0 = some (copyAt true false)
    ∧ (copying (copyAt true true)).headCopy 0 0 0 = some (copyAt true true) ∧ (copyAt true true).suspended = true ∧ (tmplOf w).counter = 0#64 ∧ (tmplOf w).stamp = 0#64
    ∧ (copying (copyAt true true)).suspendVa 0 (copyAt true true) = none
    ∧ (copying (copyAt true false)).copyTr { copyAt true false with heap := (0#64, 0#64, 0#64) } true .rd 0x1000#64 = .absent := by decide +kernel

/-! ## dmas -/

/-- The words of .text, or none where dmas refuses. -/
def dmasWords (src : String) : Option (List Nat) :=
  match assemble 0#64 0#64 src with
  | .ok m => some ((List.range (m.text.length / 4)).map (fun i => fieldAt m.text (4 * i) 4))
  | .error _ => none

/-- Table 10.15. -/
theorem test_dmas_fragment : dmasWords ("    LI      s13, 0x0000_2000_0000_0000   ; case 3\n    LI      s15, 100000\nwalk:\n    LDD.wx  s12, 16(s13)\n" ++
    "    ADDI    s13, s13, 65536\n    ADDI    s15, s15, -1\n    BNE     s15, s0, walk\n")
    = some [0x16D02000, 0x14D68020, 0xFE000003, 0x16F006A0, 0x4CC6C002, 0xFE000002, 0x08D68000, 0x08F7FFFF, 0x32F07FFC] := by decide +kernel

/-- The first SEND of the ring_sum program of "Step programs". -/
theorem test_dmas_steps : (match assemble 0#64 0#64 ".steps ring_sum\n tag = 0\n done = 0x8000\n LOOP 0\n SEND +1, 0:r-j, 4096\n ENDLOOP\n END\n.endsteps" with
    | .ok m => some (fieldAt m.data 8 8, fieldAt m.data 32 8, fieldAt m.data 40 8)
    | .error _ => none) = some (0x8000, 0x1400A00800000000, 0) := by decide +kernel

/-- Refusals: a hint that the instruction does not accept, a task body that does not end in TEXIT, a register's name as a symbol. -/
theorem test_dmas_refuses : dmasWords "HCACHE KEEP\nADD s1, s1, s1" = none ∧ dmasWords ".task a\nNOP\n.endtask" = none ∧ dmasWords "s5: NOP" = none := by
  decide +kernel

end Sys2Proof.Tests
end

/-! # Proofs of the scope family -/

namespace Sys2Proof.Machine

/-! ## Memory -/

/-- Settles O27: the three clauses are the laws of `writeMem`. -/
theorem memoryReadAfterWrite : Obligations.MemoryReadAfterWrite := by
  intro m loc b hm
  exact ⟨writeMem_wf loc b hm, fun _ hi => look_writeMem_same m loc b hi, fun _ ha => look_writeMem_other m loc b ha⟩

/-! ## A step runs the decoded instruction -/

/-- The number of two bit strings side by side. -/
theorem toNat_append_eq_add {n m : Nat} (x : BitVec n) (y : BitVec m) : (x ++ y).toNat = x.toNat * 2 ^ m + y.toNat := by
  rw [BitVec.toNat_append, ← Nat.shiftLeft_add_eq_or_of_lt y.isLt, Nat.shiftLeft_eq]

/-- Four bytes decode to the instruction of the little-endian word they hold, with nothing left over. -/
theorem decodeBytes_four {b0 b1 b2 b3 : Byte} :
    decodeBytes [b0, b1, b2, b3] = some (decodeWord (BitVec.ofNat 32 (ofBytes [b0, b1, b2, b3])), []) := by
  have hw : wordOfBytes b0 b1 b2 b3 = BitVec.ofNat 32 (ofBytes [b0, b1, b2, b3]) := by
    apply BitVec.eq_of_toNat_eq
    simp only [wordOfBytes, ofBytes, toNat_append_eq_add, BitVec.toNat_ofNat]
    omega
  rw [decodeBytes, hw]

/-- The word read at a location issues what its four bytes decode to. -/
theorem issueWord_of_decodeBytes {s : State} {loc : Nat} {i : Instr} (h : decodeBytes (s.bytesAt loc 4) = some (.ok i, [])) :
    issueWord (BitVec.ofNat 32 (s.natAtLoc loc 4)) = i := by
  have hd : decodeWord (BitVec.ofNat 32 (s.natAtLoc loc 4)) = .ok i := by
    simpa [State.bytesAt, State.natAtLoc, List.range_succ, decodeBytes_four] using h
  rw [issueWord, hd]

/-- A fetch whose checks pass puts the word at the program counter aside and the translation into the TLBs (R281). -/
theorem execInstructionFetch_ok {s : State} {a : Access} (htr : s.tr .ex s.cx.r.pc = .ok a) (hpa : unmappedPa a.loc = false)
    (hm : a.marked = false) (hp : s.poisoned a.loc 4 = false) :
    exec .instructionFetch s = .next { s.fillTlb s.cur a.fill with
      cx := { (s.fillTlb s.cur a.fill).cx with fetched := some (BitVec.ofNat 32 (s.natAtLoc a.loc 4)) } } := by
  change execInstructionFetch s = _
  simp [execInstructionFetch, htr, hpa, hm, hp]

/-- A slot with nothing owed and a word fetched runs what the word issues. -/
theorem issueSlot_fetched {s t : State} {w : IWord} (hend : s.cx.ended = false) (hb : s.cx.boundaryTrap = none)
    (ha : ∀ r, s.cx.ahead = some r → r.ended = false) (hf : exec .instructionFetch s = .next t) (hw : t.cx.fetched = some w) :
    issueSlot s = exec (issueWord w) { t with cx := { t.cx with fetched := none } } := by
  have hahead : (s.cx.ahead.map (·.ended)).getD false = false := by
    cases h : s.cx.ahead with
    | none => rfl
    | some r => exact ha r h
  simp [issueSlot, hend, hb, hahead, hf, hw]

/-- With nothing waiting outside and nothing due before it, a step is the slot of the rotation's next context (R165). -/
theorem step_slot {s : State} {k : Nat} {c : CtxId} (hin : s.inbox = []) (hpow : s.pkg.powered = true)
    (hslot : s.slot = some (k, c)) (hdue : 8 ≤ s.cycle.toNat % 8 + k → s.due = none) : step s = issueSlot (s.toSlot k c) := by
  have hnone : (if 8 ≤ s.cycle.toNat % 8 + k then s.due else none) = none := ite_eq_right_iff.mpr hdue
  simp [step, hin, hpow, hslot, hnone]

/-- Settles O7: the slot fetches the word of the four bytes, and the word issues what the bytes decode to. -/
theorem stepRunsDecodedInstruction : Obligations.StepRunsDecodedInstruction := by
  rintro s u k c a i hin hpow hslot hdue rfl hend hb hah htr hpa hm hp hdec
  rw [step_slot hin hpow hslot hdue, issueSlot_fetched hend hb hah (execInstructionFetch_ok htr hpa hm hp) rfl,
    issueWord_of_decodeBytes hdec]

/-! ## Scalar stores -/

open Claims

/-- A ready load or store goes straight to its own checks (R285). -/
theorem issueMem_ready {s : State} {w : IWord} {k : AccKind} {bases vbases ds vds : List Nat} {aligned : Bool}
    {addrs : List Word} {body : State → Res} (hah : s.cx.ahead = none) (hh : badHint w s.cx.r.hints = none) :
    s.issueMem w true k bases vbases ds vds aligned addrs body = body s := by
  simp [State.issueMem, hah, hh]

/-- An access stays in its sector exactly where the model's check does not find it to cross. -/
theorem crossesSector_eq_true {va : Word} {n : Nat} : crossesSector va n = true ↔ ¬ InSector va n := by
  simp [crossesSector, InSector]

theorem crossesSector_eq_false {va : Word} {n : Nat} : crossesSector va n = false ↔ InSector va n := by
  simp [crossesSector, InSector]

/-- What `State.store` does meets the claim about stores, whatever instruction it serves and whatever a START word starts. -/
theorem storeDoes_of_store {i : Instr} {d a : RegNo} {w : BitVec 2} {off : BitVec 13} {n : Nat} {start : StartFn}
    (hi : ∀ s, exec i s = s.store (encode i) d a w off n start) : StoreDoes i d a w off n := by
  intro s hready _ hcounts va
  obtain ⟨hah, hh⟩ := hready
  have hva : s.cx.r.memAddr a n off = va := rfl
  have hexec := hi s
  rw [State.store, issueMem_ready hah hh, hva] at hexec
  refine ⟨fun hout => ?_, fun c hin htr => ?_, fun x hin htr hfill hctl hpa hmark => ⟨fun hheld => ?_, fun t hheld hst => ?_⟩⟩
  · simp [Traps, hexec, hcounts, crossesSector_eq_true.mpr hout, State.trap]
  · simp [Traps, hexec, hcounts, crossesSector_eq_false.mpr hin, State.withAccess, htr, State.trap]
  · simp [Traps, hexec, hcounts, crossesSector_eq_false.mpr hin, State.withAccess, htr, hfill, hctl, hpa, hmark, hheld, State.trap]
  · simp [hexec, hcounts, crossesSector_eq_false.mpr hin, State.withAccess, htr, hfill, hctl, hpa, hmark, hheld, lowBytes, hst]

/-- Settles O24: the four stores are one shared operation at four sizes. -/
theorem scalarStores : Obligations.ScalarStores := fun _ _ _ _ =>
  ⟨storeDoes_of_store fun _ => rfl, storeDoes_of_store fun _ => rfl, storeDoes_of_store fun _ => rfl,
    storeDoes_of_store fun _ => rfl⟩

end Sys2Proof.Machine

/-!
# Floating-point special cases

One lemma for each operation on a NaN, then the rounding of a value the format holds, then the statement.
-/

namespace Sys2Proof.Machine

/-! ### NaN operands -/

theorem Fv.isNan_iff {x : Fv} : x.isNan = true ↔ ∃ sg, x = .nan sg := by
  cases x <;> simp [Fv.isNan]

/-- NV is raised for two operands where one of them is a signalling NaN. -/
theorem nvOf_pair (x y : Fv) : nvOf [x, y] = if x = .nan true ∨ y = .nan true then 0x10#5 else 0#5 := by
  simp [nvOf, fNV]

theorem Fv.negate_eq_nan {x : Fv} {sg : Bool} : x.negate = .nan sg ↔ x = .nan sg := by
  cases x <;> simp [Fv.negate]

theorem Fmt.addV_nan {f : Fmt} {rm : Rm} {sat : Bool} {x y : Fv} (h : (∃ sg, x = .nan sg) ∨ ∃ sg, y = .nan sg) :
    f.addV rm sat x y = (f.nan, nvOf [x, y]) := by
  obtain ⟨sg, rfl⟩ | ⟨sg, rfl⟩ := h
  · rfl
  · cases x <;> rfl

section
variable {f : Fmt} {rm : Rm} {sat : Bool} {a b : Nat} (h : (∃ sg, f.dec a = .nan sg) ∨ ∃ sg, f.dec b = .nan sg)
include h

theorem Fmt.isNan_or_of_nan : ((f.dec a).isNan || (f.dec b).isNan) = true := by
  simpa [Fv.isNan_iff] using h

theorem Fmt.add_nan : f.add rm sat a b = (f.nan, nvOf [f.dec a, f.dec b]) := Fmt.addV_nan h

theorem Fmt.sub_nan : (f.sub rm sat a b).1 = f.nan := by
  rw [Fmt.sub, Fmt.addV_nan (by simpa [Fv.negate_eq_nan] using h)]

theorem Fmt.mul_nan : f.mul rm sat a b = (f.nan, nvOf [f.dec a, f.dec b]) := by
  rw [Fmt.mul, if_pos (isNan_or_of_nan h)]

theorem Fmt.div_nan : (f.div rm sat a b).1 = f.nan := by
  unfold Fmt.div
  obtain ⟨sg, hx⟩ | ⟨sg, hy⟩ := h
  · rw [hx]
  · rw [hy]
    cases f.dec a <;> rfl

theorem Fmt.feq_nan : f.feq a b = (false, nvOf [f.dec a, f.dec b]) := by
  have hn := isNan_or_of_nan h
  simp only [Fmt.feq, Prod.mk.injEq, and_true]
  obtain hx | hy := Bool.or_eq_true_iff.mp hn
  · simp [hx]
  · simp [hy]

theorem Fmt.flt_nan : f.flt a b = (false, 0x10#5) := by
  rw [Fmt.flt, if_pos (isNan_or_of_nan h), fNV]

theorem Fmt.fle_nan : f.fle a b = (false, 0x10#5) := by
  rw [Fmt.fle, if_pos (isNan_or_of_nan h), fNV]

end

/-! ### A value of the format rounds to itself -/

/-- Rounding to the exponent a value already has discards nothing. -/
theorem roundTo_self (rm : Rm) (neg : Bool) (m : Nat) (e : Int) : roundTo rm neg m e e = (m, false) := by
  simp [roundTo]

/-- A significand of the format at the exponent of its binade, t binades above the lowest, rounds to its own code. -/
theorem Fmt.round_exact {f : Fmt} {rm : Rm} {sat neg : Bool} {m t : Nat} {e : Int} (hm : m ≠ 0)
    (hlead : max (e + (Nat.log2 m : Nat)) (-126) = (t : Int) - 126) (he : (t : Int) - 126 - (f.p - 1 : Nat) = e)
    (hfin : t * 2 ^ (f.p - 1) + m < f.inf) : f.round rm sat neg m e = (f.sgn neg + (t * 2 ^ (f.p - 1) + m), 0#5) := by
  have htop : ((t : Int) - 126 + 126).toNat = t := by omega
  simp only [Fmt.round, if_neg hm, hlead, he, roundTo_self, htop, if_neg (Nat.not_le.mpr hfin), Bool.false_eq_true, if_false]

/-- A code is its sign's weight and what is below it. -/
theorem Fmt.code_eq_sgn_add (f : Fmt) (c : Nat) (h : c < 2 ^ f.bits) :
    f.sgn (decide (f.sign ≤ c)) + c % f.sign = c := by
  have hb : 2 ^ f.bits = 2 * f.sign := by rw [Fmt.bits, Fmt.sign, Nat.pow_succ']
  unfold Fmt.sgn
  split
  · next hs =>
    have hs : f.sign ≤ c := of_decide_eq_true hs
    rw [Nat.mod_eq_sub_mod hs, Nat.mod_eq_of_lt (by omega)]
    omega
  · next hs =>
    rw [Nat.mod_eq_of_lt (by simpa using hs), Nat.zero_add]

/-- A finite value of a code, by its exponent field: a subnormal or zero is its fraction, another number has the hidden bit (R243). -/
theorem Fmt.dec_eq_fin {f : Fmt} {x : Nat} {n : Bool} {m : Nat} {e : Int} (h : f.dec x = .fin n m e) :
    ∃ t r : Nat, x % 2 ^ f.bits % f.sign = t * 2 ^ (f.p - 1) + r ∧ r < 2 ^ (f.p - 1) ∧ t ≠ 255
      ∧ n = decide (f.sign ≤ x % 2 ^ f.bits)
      ∧ (t = 0 ∧ m = r ∧ e = -126 - (f.p - 1 : Nat)
        ∨ t ≠ 0 ∧ m = r + 2 ^ (f.p - 1) ∧ e = (t : Int) - 127 - (f.p - 1 : Nat)) := by
  refine ⟨x % 2 ^ f.bits % f.sign / 2 ^ (f.p - 1), x % 2 ^ f.bits % f.sign % 2 ^ (f.p - 1), ?_, ?_, ?_⟩
  · rw [Nat.div_add_mod']
  · exact Nat.mod_lt _ (Nat.two_pow_pos _)
  · unfold Fmt.dec at h
    dsimp only at h
    split at h
    · split at h <;> simp at h
    · next h255 =>
      refine ⟨h255, ?_⟩
      split at h
      · next h0 =>
        cases h
        exact ⟨rfl, .inl ⟨h0, rfl, rfl⟩⟩
      · next h0 =>
        cases h
        exact ⟨rfl, .inr ⟨h0, rfl, rfl⟩⟩

/-- What a code below its sign holds rounds to itself: the code's exponent and fraction fields come back as they were. -/
theorem Fmt.round_dec {f : Fmt} {rm : Rm} {sat n : Bool} {x m : Nat} {e : Int} (hp : 1 ≤ f.p) (h : f.dec x = .fin n m e) :
    f.round rm sat n m e = (x % 2 ^ f.bits, 0#5) := by
  obtain ⟨t, r, hx, hr, h255, hn, hme⟩ := Fmt.dec_eq_fin h
  have hcode := Fmt.code_eq_sgn_add f (x % 2 ^ f.bits) (Nat.mod_lt _ (Nat.two_pow_pos _))
  rw [← hn, hx] at hcode
  have hsign : f.sign = 256 * 2 ^ (f.p - 1) := by
    rw [Fmt.sign, show f.p + 7 = 8 + (f.p - 1) by omega, Nat.pow_add]
  have htop : t < 255 := by
    have hlt : t * 2 ^ (f.p - 1) + r < 256 * 2 ^ (f.p - 1) := by
      rw [← hx, ← hsign]
      exact Nat.mod_lt _ (Nat.two_pow_pos _)
    have : t < 256 := Nat.lt_of_mul_lt_mul_right (Nat.lt_of_le_of_lt (Nat.le_add_right _ r) hlt)
    omega
  have hinf : (t + 1) * 2 ^ (f.p - 1) ≤ f.inf := Nat.mul_le_mul_right _ (by omega)
  obtain ⟨rfl, rfl, rfl⟩ | ⟨ht, rfl, rfl⟩ := hme
  · by_cases hm : m = 0
    · subst hm
      rw [Fmt.round, if_pos rfl, ← hcode]
      simp
    · have hlog : Nat.log2 m < f.p - 1 := (Nat.log2_lt hm).mpr hr
      rw [Fmt.round_exact (t := 0) hm (by omega) (by omega) (by omega), hcode]
  · have hlog : Nat.log2 (r + 2 ^ (f.p - 1)) = f.p - 1 :=
      (Nat.log2_eq_iff (by omega)).mpr ⟨by omega, by rw [Nat.pow_succ]; omega⟩
    have hfield : (t - 1) * 2 ^ (f.p - 1) + (r + 2 ^ (f.p - 1)) = t * 2 ^ (f.p - 1) + r := by
      rw [Nat.sub_mul]
      have := Nat.le_mul_of_pos_left (2 ^ (f.p - 1)) (Nat.pos_of_ne_zero ht)
      omega
    have hlead : (t : Int) - 127 - (f.p - 1 : Nat) + (f.p - 1 : Nat) = ((t - 1 : Nat) : Int) - 126 := by omega
    rw [Fmt.round_exact (t := t - 1) (by have := Nat.two_pow_pos (f.p - 1); omega) (by rw [hlog, hlead]; omega) (by omega)
      (by rw [hfield]; rw [Nat.add_mul] at hinf; omega), hfield, hcode]

/-! ### The statement -/

/-- Settles O20, by the operation's case on the decoded operands; the last clause is `Fmt.round_dec`. -/
theorem floatingPointSpecialCases : Obligations.FloatingPointSpecialCases := by
  intro f rm sat a b hf
  have hp : 1 ≤ f.p := by
    obtain rfl | rfl := hf <;> decide
  refine ⟨fun h => ?_, fun n ha hb => ?_, fun n k m e ha hb hm => ?_, fun n k ha hb => ?_, fun n k m e g ha hb hm => ?_,
    fun n k e g ha hb => ?_, fun m e ha hm => ?_, fun n m e ha => Fmt.round_dec hp ha⟩
  · rw [Fmt.add_nan h, Fmt.sub_nan h, Fmt.mul_nan h, Fmt.div_nan h, Fmt.feq_nan h, Fmt.flt_nan h, Fmt.fle_nan h, nvOf_pair]
    exact ⟨rfl, rfl, rfl, rfl, rfl, rfl, rfl, rfl, rfl, rfl⟩
  · simp [Fmt.add, Fmt.addV, ha, hb, fNV]
  · simp [Fmt.mul, Fv.isNan, mulExact, ha, hb, hm, fNV]
  · simp [Fmt.div, ha, hb, fNV]
  · simp [Fmt.div, ha, hb, hm, fDZ]
  · simp [Fmt.div, ha, hb, fNV]
  · simp [Fmt.sqrt, ha, hm, fNV]

end Sys2Proof.Machine

/-!
# Memory keeps its canonical form

`State.Canonical` says that the memory of a state is in its canonical form.  Bytes enter memory by `writeMem` and leave it by `List.filter`
alone, and both keep the form; so there is one lemma for each operation that gives a state, in the order of the model's files, and each
follows from those of the operations it calls.  `exec_canonical` collects them over the dispatch, and `step_canonical` over the slot.
-/

namespace Sys2Proof.Machine

-- The lemmas are many: elaborated side by side they take more memory than the check allows.
set_option Elab.async false

/-! ### The property and how it composes -/

/-- The memory of the state is in canonical form. -/
def State.Canonical (s : State) : Prop := Memory.wf s.mem = true

@[simp] theorem State.mem_wf_iff (s : State) : Memory.wf s.mem = true ↔ s.Canonical := Iff.rfl

@[simp] theorem State.canonical_mk {cx cur banks cycle mem fe poison cores dies counters launches lastLaunch tenants groups lastGroup net
    lastId migrations traps fetching hbm fab rcv host pkg outbox under inbox plan freeCtr} :
    State.Canonical ⟨cx, cur, banks, cycle, mem, fe, poison, cores, dies, counters, launches, lastLaunch, tenants, groups, lastGroup, net,
      lastId, migrations, traps, fetching, hbm, fab, rcv, host, pkg, outbox, under, inbox, plan, freeCtr⟩ ↔ Memory.wf mem = true := Iff.rfl

@[simp] theorem canonical_ite {c : Prop} [Decidable c] {a b : State} :
    (if c then a else b).Canonical ↔ if c then a.Canonical else b.Canonical := by
  split <;> rfl

/-- The state that a step answers, where it answers one, is canonical. -/
def ResCanonical : Res → Prop
  | .next t => t.Canonical
  | _ => True

@[simp] theorem resCanonical_next {t : State} : ResCanonical (.next t) ↔ t.Canonical := Iff.rfl

@[simp] theorem resCanonical_fault {f : Fault} : ResCanonical (.fault f) := trivial

@[simp] theorem resCanonical_ite {c : Prop} [Decidable c] {a b : Res} :
    ResCanonical (if c then a else b) ↔ if c then ResCanonical a else ResCanonical b := by
  split <;> rfl

@[simp] theorem State.Canonical.foldl {α : Type} {l : List α} {f : State → α → State} {s : State} (h : s.Canonical)
    (hf : ∀ t e, t.Canonical → (f t e).Canonical) : (l.foldl f s).Canonical := by
  induction l generalizing s with
  | nil => exact h
  | cons e l ih => exact ih (hf s e h)

theorem State.Canonical.foldl_fst {α β : Type} {l : List α} {f : State × β → α → State × β} {p : State × β} (hp : p.1.Canonical)
    (hf : ∀ q e, q.1.Canonical → (f q e).1.Canonical) : (l.foldl f p).1.Canonical :=
  List.foldlRecOn (motive := fun q => q.1.Canonical) l f hp fun q hq e _ => hf q e hq

theorem State.Canonical.ite {c : Prop} [Decidable c] {a b : State} (ha : a.Canonical) (hb : b.Canonical) :
    (if c then a else b).Canonical := by
  split
  exacts [ha, hb]

theorem ResCanonical.ite {c : Prop} [Decidable c] {a b : Res} (ha : ResCanonical a) (hb : ResCanonical b) :
    ResCanonical (if c then a else b) := by
  split
  exacts [ha, hb]

/-- A change of other fields than the memory keeps the form. -/
theorem State.Canonical.of_mem {s t : State} (hs : s.Canonical) (h : t.mem = s.mem := by dsimp only) : t.Canonical := by
  unfold State.Canonical
  rwa [h]

/-- Taking bytes out of the memory keeps the form. -/
theorem State.Canonical.of_mem_filter {s t : State} (hs : s.Canonical) {p : Nat × Byte → Bool}
    (h : t.mem = s.mem.filter p := by dsimp only) : t.Canonical := by
  unfold State.Canonical
  rw [h]
  exact filter_mem_wf p hs

theorem State.Canonical.next {t : State} (ht : t.Canonical) : ResCanonical (.next t) := ht

@[simp] theorem State.Canonical.filter_mem {s : State} {p} (h : s.Canonical) : Memory.wf (s.mem.filter p) = true :=
  filter_mem_wf p h

@[simp] theorem State.Canonical.putRaw {s : State} (h : s.Canonical) {loc b} : (s.putRaw loc b).Canonical := writeMem_wf _ _ h

@[simp] theorem State.Canonical.setDomain {s : State} (h : s.Canonical) {loc b} : (s.setDomain loc b).Canonical := h

/-! ### Ops -/

@[simp] theorem State.Canonical.setCtx {s : State} (hs : s.Canonical) {c x} : (s.setCtx c x).Canonical :=
  .ite hs.of_mem hs.of_mem

@[simp] theorem State.Canonical.onCtx {s : State} (hs : s.Canonical) {c f} : (s.onCtx c f).Canonical := hs.setCtx

@[simp] theorem State.Canonical.select {s : State} (hs : s.Canonical) {c} : (s.select c).Canonical :=
  .ite hs hs.of_mem

@[simp] theorem State.Canonical.onAll {s : State} (hs : s.Canonical) {p f} : (s.onAll p f).Canonical :=
  hs.foldl fun _ _ ht => .ite ht.setCtx ht

@[simp] theorem State.Canonical.onDie {s : State} (hs : s.Canonical) {d f} : (s.onDie d f).Canonical :=
  hs.of_mem rfl

@[simp] theorem State.Canonical.onCore {s : State} (hs : s.Canonical) {d c f} : (s.onCore d c f).Canonical :=
  hs.of_mem rfl

@[simp] theorem State.Canonical.onTenant {s : State} (hs : s.Canonical) {t f} : (s.onTenant t f).Canonical := by
  unfold State.onTenant
  split
  exacts [hs, hs.of_mem]

@[simp] theorem State.Canonical.onLaunch {s : State} (hs : s.Canonical) {l f} : (s.onLaunch l f).Canonical := by
  unfold State.onLaunch
  split
  exacts [hs, hs.of_mem]

@[simp] theorem State.Canonical.onGroup {s : State} (hs : s.Canonical) {h f} : (s.onGroup h f).Canonical := by
  unfold State.onGroup
  split
  exacts [hs, hs.of_mem]

@[simp] theorem State.Canonical.onCounter {s : State} (hs : s.Canonical) {loc f} : (s.onCounter loc f).Canonical :=
  hs.of_mem rfl

@[simp] theorem State.Canonical.onStack {s : State} (hs : s.Canonical) {h f} : (s.onStack h f).Canonical :=
  hs.of_mem rfl

@[simp] theorem State.Canonical.onPort {s : State} (hs : s.Canonical) {j f} : (s.onPort j f).Canonical :=
  hs.of_mem rfl

@[simp] theorem State.Canonical.onDomain {s : State} (hs : s.Canonical) {id f} : (s.onDomain id f).Canonical := by
  unfold State.onDomain
  split
  exacts [hs, hs.setDomain]

@[simp] theorem State.Canonical.send {s : State} (hs : s.Canonical) {m} : (s.send m).Canonical := hs.of_mem rfl

@[simp] theorem State.Canonical.free {s : State} (hs : s.Canonical) : s.free.2.Canonical := by
  simp [State.free, hs]

@[simp] theorem State.Canonical.replan {s : State} (hs : s.Canonical) : s.replan.Canonical := hs.of_mem rfl

@[simp] theorem State.Canonical.setR {s : State} (hs : s.Canonical) {r} : (s.setR r).Canonical := hs.of_mem rfl

@[simp] theorem State.Canonical.setRouter {s : State} (hs : s.Canonical) {k off v} :
    (s.setRouter k off v).Canonical :=
  hs.of_mem rfl

@[simp] theorem State.Canonical.setRouters {s : State} (hs : s.Canonical) {off v} : (s.setRouters off v).Canonical :=
  hs.foldl fun _ _ ht => ht.setRouter

@[simp] theorem State.Canonical.onPDie {s : State} (hs : s.Canonical) {p f} : (s.onPDie p f).Canonical :=
  hs.of_mem rfl

@[simp] theorem State.Canonical.setFull {s : State} (hs : s.Canonical) {word b} : (s.setFull word b).Canonical :=
  hs.of_mem rfl

@[simp] theorem State.Canonical.setPoison {s : State} (hs : s.Canonical) {loc n b} :
    (s.setPoison loc n b).Canonical :=
  hs.of_mem rfl

@[simp] theorem State.Canonical.mergeV {s : State} (hs : s.Canonical) {d v} : (s.mergeV d v).Canonical := hs.onDie

@[simp] theorem State.Canonical.bump {s : State} (hs : s.Canonical) {d} : (s.bump d).2.Canonical := by
  simp [State.bump, hs]

@[simp] theorem State.Canonical.acked {s : State} (hs : s.Canonical) {d n} : (s.acked d n).Canonical := hs.onDie

@[simp] theorem State.Canonical.retireYoung {s : State} (hs : s.Canonical) {d} : (s.retireYoung d).Canonical :=
  hs.onDie

@[simp] theorem State.Canonical.park {s : State} (hs : s.Canonical) {c} : (s.park c).Canonical :=
  .ite hs.setCtx.onCore hs

@[simp] theorem State.Canonical.ownerReady {s : State} (hs : s.Canonical) {c} : (s.ownerReady c).Canonical :=
  .ite hs.onCtx hs.onCtx.park

@[simp] theorem State.Canonical.ready {s : State} (hs : s.Canonical) {c} : (s.ready c).Canonical :=
  .ite (.ite hs.onCtx hs.onCtx) hs.ownerReady

@[simp] theorem State.Canonical.wake {s : State} (hs : s.Canonical) {c} : (s.wake c).Canonical :=
  .ite hs.onCtx.ready hs

@[simp] theorem State.Canonical.wakeAll {s : State} (hs : s.Canonical) {p} : (s.wakeAll p).Canonical :=
  hs.foldl fun _ _ ht => .ite ht.wake ht

@[simp] theorem State.Canonical.wakeWhy {s : State} (hs : s.Canonical) {w} : (s.wakeWhy w).Canonical := hs.wakeAll

@[simp] theorem State.Canonical.unparkCore {s : State} (hs : s.Canonical) {d c} : (s.unparkCore d c).Canonical := by
  simp +contextual [State.unparkCore, hs]

@[simp] theorem State.Canonical.goWait {s : State} (hs : s.Canonical) {w} : (s.goWait w).Canonical :=
  .ite (State.Canonical.unparkCore (.ite hs.of_mem.onCore hs.of_mem)) hs.of_mem

@[simp] theorem State.Canonical.waitOn {s : State} (hs : s.Canonical) {w} : (s.waitOn w).Canonical := hs.goWait

@[simp] theorem State.Canonical.finish {s : State} (hs : s.Canonical) {r} : (s.finish r).Canonical := hs.setR

@[simp] theorem State.Canonical.finishSet {s : State} (hs : s.Canonical) {d v} : (s.finishSet d v).Canonical :=
  hs.finish

@[simp] theorem State.Canonical.finishLong {s : State} (hs : s.Canonical) {r} : (s.finishLong r).Canonical :=
  .ite hs.replan.goWait hs.replan.finish

@[simp] theorem State.Canonical.wakeSup {s : State} (hs : s.Canonical) {d} : (s.wakeSup d).Canonical := by
  simp [State.wakeSup, hs]

@[simp] theorem State.Canonical.wakeSups {s : State} (hs : s.Canonical) : s.wakeSups.Canonical := by
  simp +contextual [State.wakeSups, hs]

@[simp] theorem State.Canonical.tellSups {s : State} (hs : s.Canonical) : s.tellSups.Canonical := by
  refine hs.foldl (fun _ _ ht => ?_)
  simp [ht]

@[simp] theorem State.Canonical.takeTrap {s : State} (hs : s.Canonical) {c cause tval write exec pages insn} :
    (s.takeTrap c cause tval write exec pages insn).Canonical := by
  simp [State.takeTrap, hs]

@[simp] theorem State.Canonical.trap {s : State} (hs : s.Canonical) {w cause tval write} :
    ResCanonical (s.trap w cause tval write) :=
  hs.takeTrap

@[simp] theorem State.Canonical.illegal {s : State} (hs : s.Canonical) {w} : ResCanonical (s.illegal w) := hs.trap

@[simp] theorem State.Canonical.privilege {s : State} (hs : s.Canonical) {w} : ResCanonical (s.privilege w) :=
  hs.trap

@[simp] theorem State.Canonical.eret {s : State} (hs : s.Canonical) : s.eret.Canonical := hs.setR

@[simp] theorem State.Canonical.resume {s : State} (hs : s.Canonical) {c} : (s.resume c).Canonical := hs.onCtx.ready

/-! ### Dram -/

@[simp] theorem State.Canonical.keepUnder {s : State} (hs : s.Canonical) {c} : (s.keepUnder c).Canonical := by
  unfold State.keepUnder
  split
  exacts [hs, hs.of_mem]

@[simp] theorem State.Canonical.dropUnder {s : State} (hs : s.Canonical) {c} : (s.dropUnder c).Canonical :=
  hs.of_mem rfl

@[simp] theorem State.Canonical.settleSector {s : State} (hs : s.Canonical) {c} : (s.settleSector c).Canonical := by
  unfold State.settleSector
  split
  · exact hs
  · exact (hs.setPoison.foldl fun _ _ ht => by split <;> simp [ht]).dropUnder

@[simp] theorem State.Canonical.revert {s : State} (hs : s.Canonical) {c} : (s.revert c).Canonical := by
  unfold State.revert
  split
  exacts [hs, hs.putRaw.settleSector]

@[simp] theorem State.Canonical.toDram {s : State} (hs : s.Canonical) {h line m} : (s.toDram h line m).Canonical :=
  .ite hs (hs.onStack.foldl fun _ _ ht => ht.dropUnder)

@[simp] theorem State.Canonical.ocWriteBack {s : State} (hs : s.Canonical) {h line skip} :
    (s.ocWriteBack h line skip).Canonical := by
  unfold State.ocWriteBack
  split
  exacts [hs, hs.onStack.toDram.foldl fun _ _ ht => ht.settleSector]

@[simp] theorem State.Canonical.ocFill {s : State} (hs : s.Canonical) {h line dirty} :
    (s.ocFill h line dirty).Canonical := by
  unfold State.ocFill
  split
  · exact hs.toDram
  · refine onStack ?_
    split
    · split
      exacts [hs.onStack.ocWriteBack, hs.onStack]
    · exact hs.onStack

@[simp] theorem State.Canonical.ocDiscard {s : State} (hs : s.Canonical) {h line} :
    (s.ocDiscard h line).Canonical := by
  unfold State.ocDiscard
  split
  exacts [hs, hs.onStack.foldl fun _ _ ht => ht.revert]

@[simp] theorem State.Canonical.stitchDelta {s : State} (hs : s.Canonical) {h slice line m dom old new} :
    (s.stitchDelta h slice line m dom old new).Canonical := by
  unfold State.stitchDelta
  dsimp only
  split
  exacts [hs.toDram.onDie, hs]

@[simp] theorem State.Canonical.stitchWriteBack {s : State} (hs : s.Canonical) {slice line m dom} :
    (s.stitchWriteBack slice line m dom).Canonical := by
  unfold State.stitchWriteBack
  dsimp only
  split
  exacts [hs.onDomain.onStack.send, hs.onDomain.stitchDelta]

@[simp] theorem State.Canonical.setL2 {s : State} (hs : s.Canonical) {d f} : (s.setL2 d f).Canonical := hs.onDie

@[simp] theorem State.Canonical.l2WriteBack {s : State} (hs : s.Canonical) {d x m} :
    (s.l2WriteBack d x m).Canonical := by
  refine onDie ?_
  split
  exacts [hs.foldl fun _ _ ht => ht.stitchWriteBack, hs.toDram]

@[simp] theorem State.Canonical.dropClean {s : State} (hs : s.Canonical) {line dirty} :
    (s.dropClean line dirty).Canonical :=
  hs.foldl fun _ _ ht => ht.settleSector

@[simp] theorem State.Canonical.l2Evict {s : State} (hs : s.Canonical) {d x} : (s.l2Evict d x).Canonical := by
  refine setL2 ?_
  split
  exacts [hs.ocFill, hs.l2WriteBack.dropClean]

@[simp] theorem State.Canonical.l2Put {s : State} (hs : s.Canonical) {d x lru keep} :
    (s.l2Put d x lru keep).Canonical := by
  unfold State.l2Put
  dsimp only
  (repeat' split) <;> simp [hs]

@[simp] theorem State.Canonical.baseRead {s : State} (hs : s.Canonical) {line need} :
    (s.baseRead line need).2.2.Canonical := by
  unfold State.baseRead
  dsimp only
  split <;> simp [hs]

@[simp] theorem State.Canonical.l2Read {s : State} (hs : s.Canonical) {d slice line need pol} :
    (s.l2Read d slice line need pol).Canonical := by
  simp [State.l2Read, hs]

@[simp] theorem State.Canonical.l2Write {s : State} (hs : s.Canonical) {d slice c pol} :
    (s.l2Write d slice c pol).Canonical :=
  hs.l2Read.keepUnder.setL2

@[simp] theorem State.Canonical.cachedPart {s : State} (hs : s.Canonical) {c loc b} :
    (s.cachedPart c loc b).Canonical :=
  .ite hs.putRaw.setPoison (.ite hs.putRaw.setPoison hs.putRaw)

@[simp] theorem State.Canonical.basePart {s : State} (hs : s.Canonical) {slice c loc b} :
    (s.basePart slice c loc b).Canonical := by
  unfold State.basePart
  dsimp only
  split
  · exact hs.ocWriteBack.onStack.putRaw.setPoison.dropUnder
  · split
    · exact hs.keepUnder.onStack.cachedPart
    · exact hs.onStack.foldl fun _ _ ht => by split <;> simp [ht]

@[simp] theorem State.Canonical.l2Clean {s : State} (hs : s.Canonical) {d loc n inv} :
    (s.l2Clean d loc n inv).Canonical := by
  have hback : (((s.die d).l2.filter fun x => overlaps loc n (x.line * 512) 512).foldl (fun t x => t.l2WriteBack d x 15#4) s).Canonical :=
    hs.foldl fun t x ht => ht.l2WriteBack
  refine foldl ?_ fun t h ht => ht.foldl fun _ _ hu => hu.ocWriteBack
  split
  exacts [(hback.foldl fun t x ht => ht.dropClean).setL2, hback]

@[simp] theorem State.Canonical.l2Drain {s : State} (hs : s.Canonical) {d slice} : (s.l2Drain d slice).Canonical :=
  hs.foldl fun _ _ ht => ht.l2Evict

@[simp] theorem State.Canonical.l2Lose {s : State} (hs : s.Canonical) {d slice} : (s.l2Lose d slice).Canonical :=
  (hs.foldl fun _ _ ht => ht.foldl fun _ _ hu => hu.revert).onDie

@[simp] theorem State.Canonical.poisonCached {s : State} (hs : s.Canonical) {c} : (s.poisonCached c).Canonical := by
  unfold State.poisonCached
  split
  exacts [.ite hs hs.keepUnder.setPoison, hs]

/-! ### Mem -/

@[simp] theorem State.Canonical.fillTlb {s : State} (hs : s.Canonical) {c e} : (s.fillTlb c e).Canonical := by
  unfold State.fillTlb
  split
  exacts [hs, hs.onCore.onDie]

@[simp] theorem State.Canonical.fireMonitors {s : State} (hs : s.Canonical) {loc n} :
    (s.fireMonitors loc n).Canonical := by
  refine hs.foldl fun _ _ ht => ?_
  split
  · dsimp only
    split
    · split
      exacts [ht.onCtx.wake, ht.onCtx]
    · exact ht
  · exact ht

@[simp] theorem State.Canonical.loseMonitors {s : State} (hs : s.Canonical) {p} : (s.loseMonitors p).Canonical := by
  refine hs.foldl fun _ _ ht => ?_
  split
  · dsimp only
    split
    · split
      exacts [ht.onCtx.wake, ht.onCtx]
    · exact ht
  · exact ht

@[simp] theorem State.Canonical.noteWrite {s : State} (hs : s.Canonical) {h slice sector f} :
    (s.noteWrite h slice sector f).Canonical := by
  unfold State.noteWrite
  split
  · dsimp only
    split
    exacts [hs.onDie.bump.acked.onDie, hs.onDie]
  · exact hs.onDie

@[simp] theorem State.Canonical.writePart {s : State} (hs : s.Canonical) {slice c loc b f pol} :
    (s.writePart slice c loc b f pol).Canonical := by
  unfold State.writePart
  split
  · exact hs.cachedPart
  · dsimp only
    split
    exacts [hs.noteWrite.basePart, hs.noteWrite.l2Write.cachedPart]

@[simp] theorem State.Canonical.applyWrite {s : State} (hs : s.Canonical) {loc b slice f pol} :
    (s.applyWrite loc b slice f pol).Canonical := by
  refine fireMonitors ?_
  split
  exacts [hs.putRaw, hs.foldl fun _ _ ht => ht.writePart]

@[simp] theorem State.Canonical.dropRdc {s : State} (hs : s.Canonical) {d loc n} : (s.dropRdc d loc n).Canonical :=
  hs.onDie

@[simp] theorem State.Canonical.noteHarvest {s : State} (hs : s.Canonical) {c loc} :
    (s.noteHarvest c loc).Canonical :=
  .ite hs.onCore hs

@[simp] theorem State.Canonical.noteRace {s : State} (hs : s.Canonical) {loc n} : (s.noteRace loc n).Canonical := by
  simp [State.noteRace, hs]

@[simp] theorem State.Canonical.performNet {s : State} (hs : s.Canonical) {w} : (s.performNet w).Canonical := by
  refine applyWrite ?_
  split
  exacts [hs.retireYoung, hs]

@[simp] theorem State.Canonical.releaseChildren {s : State} (hs : s.Canonical) {id src} :
    (s.releaseChildren id src).Canonical := by
  refine foldl hs fun _ _ ht => ?_
  split
  · split
    · dsimp only
      split
      exacts [ht.mergeV.wake, ht.onCtx]
    · exact ht
  · exact ht

@[simp] theorem State.Canonical.ackNet {s : State} (hs : s.Canonical) {w} : (s.ackNet w).Canonical := by
  unfold State.ackNet
  extract_lets own cross s1 s2 s3 s4
  have h2 : s2.Canonical := by
    unfold s2
    split
    exacts [onCtx (s := s1) hs, hs]
  have h3 : s3.Canonical := by
    unfold s3
    split
    exacts [h2.acked, h2]
  have h4 : s4.Canonical := by
    unfold s4
    split
    exacts [ite h3.wake h3, h3]
  exact h4.releaseChildren

@[simp] theorem State.Canonical.postStore {s : State} (hs : s.Canonical) {a b} : (s.postStore a b).Canonical := by
  unfold State.postStore
  extract_lets src home own cross s1 nb s2 w s3
  have h1 : s1.Canonical := ite hs hs.dropRdc
  have h3 : s3.Canonical := by
    have h2 : s2.Canonical := by
      unfold s2 nb
      split
      exacts [h1.bump, h1]
    exact h2
  exact ite h3.replan (ite h3.replan.performNet.ackNet h3.replan)

@[simp] theorem State.Canonical.sliceRead {s : State} (hs : s.Canonical) {h slice loc n pol} :
    (s.sliceRead h slice loc n pol).Canonical :=
  hs.foldl fun _ _ ht => .ite ht.onStack ht.l2Read

@[simp] theorem State.Canonical.ownRead {s : State} (hs : s.Canonical) {h slice loc n pol} :
    (s.ownRead h slice loc n pol).Canonical :=
  hs.sliceRead.onDie

@[simp] theorem State.Canonical.fillRdc {s : State} (hs : s.Canonical) {d h slice loc pol} :
    (s.fillRdc d h slice loc pol).Canonical :=
  hs.onDie.sliceRead.onDie

/-- What a read leaves, where it gives a value. -/
def Rd.Canonical : Rd → Prop
  | .val _ t => t.Canonical
  | _ => True

theorem State.Canonical.rd_readFar {s : State} (hs : s.Canonical) {d a n home pol} :
    (s.readFar d a n home pol).Canonical := by
  unfold State.readFar
  repeat' split
  all_goals simp [Rd.Canonical, hs]

theorem State.Canonical.readFar {s t : State} (hs : s.Canonical) {d a n home pol b} (h : s.readFar d a n home pol = .val b t) :
    t.Canonical := by
  have hr : (s.readFar d a n home pol).Canonical := hs.rd_readFar
  rw [h] at hr
  exact hr

theorem State.Canonical.read {s t : State} (hs : s.Canonical) {a n home b} (h : s.read a n home = .val b t) : t.Canonical := by
  unfold State.read at h
  split at h
  · split at h
    · cases h
    · cases h
      exact hs
  · split at h
    · cases h
    · exact hs.readFar h

/-! ### Sched -/

@[simp] theorem State.Canonical.onSession {s : State} (hs : s.Canonical) {sid f} : (s.onSession sid f).Canonical := by
  unfold State.onSession
  split
  exacts [hs.of_mem, hs]

@[simp] theorem State.Canonical.emit {s : State} (hs : s.Canonical) {sid m records} :
    (s.emit sid m records).Canonical := by
  unfold State.emit
  split
  exacts [hs, hs.send.onSession]

@[simp] theorem State.Canonical.endSession {s : State} (hs : s.Canonical) {sid} : (s.endSession sid).Canonical := by
  simp [State.endSession, hs]

@[simp] theorem State.Canonical.sendOn {s : State} (hs : s.Canonical) {sid m records} :
    (s.sendOn sid m records).Canonical := by
  unfold State.sendOn
  split
  exacts [hs, .ite hs (.ite hs.emit.endSession hs.emit)]

@[simp] theorem State.Canonical.answer {s : State} (hs : s.Canonical) {h op status body} :
    (s.answer h op status body).Canonical :=
  hs.sendOn.onSession

@[simp] theorem State.Canonical.leaveQueue {s : State} (hs : s.Canonical) {h} : (s.leaveQueue h).Canonical := by
  simp [State.leaveQueue, hs]

@[simp] theorem State.Canonical.finishCmd {s : State} (hs : s.Canonical) {h op status body} :
    (s.finishCmd h op status body).Canonical :=
  hs.leaveQueue.answer

@[simp] theorem State.Canonical.sendEvents {s : State} (hs : s.Canonical) {t} : (s.sendEvents t).Canonical := by
  unfold State.sendEvents
  split
  · exact hs
  · split
    exacts [hs, hs.onTenant.foldl fun _ _ hu => hu.sendOn]

@[simp] theorem State.Canonical.serveWaits {s : State} (hs : s.Canonical) {t} : (s.serveWaits t).Canonical := by
  refine foldl hs fun _ _ hu => ?_
  split
  exacts [hu, ite hu hu.onTenant.answer]

@[simp] theorem State.Canonical.sendDue {s : State} (hs : s.Canonical) {t} : (s.sendDue t).Canonical := by
  unfold State.sendDue
  split
  exacts [hs, .ite hs.sendEvents hs]

@[simp] theorem State.Canonical.post {s : State} (hs : s.Canonical) {t code flags cause launch detail} :
    (s.post t code flags cause launch detail).Canonical := by
  unfold State.post
  split
  exacts [hs, hs.onTenant.serveWaits.sendDue]

@[simp] theorem State.Canonical.postAll {s : State} (hs : s.Canonical) {code detail} :
    (s.postAll code detail).Canonical :=
  hs.foldl fun _ _ ht => ht.post

@[simp] theorem State.Canonical.putPte {s : State} (hs : s.Canonical) {pa e} : (s.putPte pa e).Canonical :=
  hs.applyWrite

theorem State.Canonical.leafSlot {s : State} (hs : s.Canonical) {tn va size tbl l} :
    (s.leafSlot tn va size tbl l).1.Canonical := by
  induction l generalizing s tbl with
  | nil => exact hs
  | cons sh rest ih =>
    unfold State.leafSlot
    dsimp only
    split
    exacts [ih hs, ih hs.putPte.onTenant]

@[simp] theorem State.Canonical.mapPage {s : State} (hs : s.Canonical) {tn va pte size} :
    (s.mapPage tn va pte size).Canonical := by
  unfold State.mapPage
  split
  exacts [hs, hs.leafSlot.putPte]

theorem State.Canonical.touchPage {s t : State} (hs : s.Canonical) {tn va} (h : s.touchPage tn va = .mapped t) : t.Canonical := by
  unfold State.touchPage at h
  split at h
  · cases h
  · split at h
    · cases h
    · dsimp only at h
      split at h
      · cases h
      · split at h
        · cases h
        · cases h
          exact hs.mapPage

@[simp] theorem State.Canonical.fetchPage {s : State} (hs : s.Canonical) {tn va handle frame} :
    (s.fetchPage tn va handle frame).Canonical := by
  unfold State.fetchPage
  split
  · exact hs
  · refine ite hs ?_
    extract_lets size keep s0
    have h0 : s0.Canonical := hs.filter_mem
    exact h0.onTenant.post

@[simp] theorem State.Canonical.pushReady {s : State} (hs : s.Canonical) {die cluster t} :
    (s.pushReady die cluster t).Canonical :=
  hs.onDie

@[simp] theorem State.Canonical.distribute {s : State} (hs : s.Canonical) {id l} : (s.distribute id l).Canonical :=
  hs.foldl fun _ _ ht => ht.foldl fun _ _ hu => hu.pushReady

@[simp] theorem State.Canonical.zeroPage {s : State} (hs : s.Canonical) {d c p} : (s.zeroPage d c p).Canonical := by
  simp [State.zeroPage, hs]

@[simp] theorem State.Canonical.setLend {s : State} (hs : s.Canonical) {d c turns pages} :
    (s.setLend d c turns pages).Canonical :=
  hs.onCore

@[simp] theorem State.Canonical.addLend {s : State} (hs : s.Canonical) {d c turns pages} :
    (s.addLend d c turns pages).Canonical :=
  (setLend (hs.foldl fun _ _ ht => ht.zeroPage)).unparkCore

@[simp] theorem State.Canonical.defaultLend {s : State} (hs : s.Canonical) {c id} :
    (s.defaultLend c id).Canonical := by
  unfold State.defaultLend
  split
  exacts [hs, .ite hs hs.onCore.addLend]

@[simp] theorem State.Canonical.bindTask {s : State} (hs : s.Canonical) {c t} : (s.bindTask c t).Canonical := by
  unfold State.bindTask
  extract_lets depth heap lvec needs x change s1 s2 s3 s4
  have h1 : s1.Canonical := ite (hs.foldl fun _ _ hu => hu.zeroPage) hs
  have h3 : s3.Canonical := h1.onCore.setCtx.mergeV.mergeV
  have h4 : s4.Canonical := ite h3.ready h3.onCtx
  exact ite h4 h4.defaultLend

@[simp] theorem State.Canonical.bindCohort {s : State} (hs : s.Canonical) {id l} : (s.bindCohort id l).Canonical :=
  hs.foldl fun _ _ ht => ht.foldl fun _ _ hu => hu.bindTask

@[simp] theorem State.Canonical.takeLend {s : State} (hs : s.Canonical) {d c turns pages} :
    (s.takeLend d c turns pages).Canonical := by
  unfold State.takeLend
  extract_lets k back s0 s1
  have h1 : s1.Canonical := hs.setLend.foldl fun _ _ ht => ite ht.park ht
  exact (h1.foldl fun _ _ ht => ht.zeroPage).onCore

@[simp] theorem State.Canonical.leaveWaits {s : State} (hs : s.Canonical) {c} : (s.leaveWaits c).Canonical :=
  hs.of_mem rfl

@[simp] theorem State.Canonical.dropLoose {s : State} (hs : s.Canonical) {c} : (s.dropLoose c).Canonical := by
  unfold State.dropLoose
  split
  exacts [hs, hs.onCore.wakeAll]

@[simp] theorem State.Canonical.makeIdle {s : State} (hs : s.Canonical) {c} : (s.makeIdle c).Canonical := by
  unfold State.makeIdle
  extract_lets x r s1
  have h1 : s1.Canonical := hs.leaveWaits.dropLoose.setCtx
  exact ite (ite h1.onCore.onCore h1.onCore) h1.unparkCore

@[simp] theorem State.Canonical.dropTasks {s : State} (hs : s.Canonical) {p} : (s.dropTasks p).Canonical :=
  hs.of_mem.wakeWhy

@[simp] theorem State.Canonical.dropEngine {s : State} (hs : s.Canonical) {p} : (s.dropEngine p).Canonical := by
  simp [State.dropEngine, hs]

@[simp] theorem State.Canonical.failLaunch {s : State} (hs : s.Canonical) {id cause detail tell} :
    (s.failLaunch id cause detail tell).Canonical := by
  unfold State.failLaunch
  split
  · exact hs
  · refine ite hs ?_
    extract_lets mine ids s1 s2 s' s3
    have h2 : s2.Canonical := hs.dropTasks.dropEngine.foldl fun _ _ ht => ht.makeIdle
    have h3 : s3.Canonical := h2.onLaunch
    exact ite h3.post h3

@[simp] theorem State.Canonical.setCounter {s : State} (hs : s.Canonical) {loc v vec f} :
    (s.setCounter loc v vec f).Canonical :=
  hs.applyWrite.onCounter

@[simp] theorem State.Canonical.counterDec {s : State} (hs : s.Canonical) {src loc v vec} :
    (s.counterDec src loc v vec).Canonical := by
  unfold State.counterDec
  split
  exacts [ite hs.setCounter hs.dropRdc.bump.retireYoung.setCounter.acked, hs.setCounter]

theorem State.Canonical.defer {s t : State} (hs : s.Canonical) {id loc va n} (h : s.defer id loc va n = some t) : t.Canonical := by
  unfold State.defer at h
  split at h
  · cases h
  · split at h
    · cases h
      exact hs
    · cases h

@[simp] theorem State.Canonical.fireCounter {s : State} (hs : s.Canonical) {loc} :
    (s.fireCounter loc).1.Canonical := by
  unfold State.fireCounter
  split
  · exact hs.onCounter
  · split
    · exact hs
    · extract_lets c h s1 s2 s3 s4
      have h2 : s2.Canonical := hs.onCounter.foldl fun _ _ ht => ht.pushReady
      have h3 : s3.Canonical := h2.foldl fun _ _ ht => ite ht.mergeV.onCtx.wake ht
      exact h3.foldl fun _ _ ht => ht.onLaunch

theorem State.Canonical.outLoc {s : State} (hs : s.Canonical) {tn va p} (h : s.outLoc tn va = some p) : p.1.Canonical := by
  unfold State.outLoc at h
  split at h
  · cases h
    exact hs
  · split at h
    · cases h
      exact hs
    · split at h
      · cases h
        exact hs
      · split at h
        · next hu =>
          cases h
          exact hs.touchPage hu
        · cases h
        · cases h
          exact hs

@[simp] theorem State.Canonical.outDec {s : State} (hs : s.Canonical) {id l va loc} :
    (s.outDec id l va loc).1.Canonical := by
  unfold State.outDec
  split
  · exact hs.onLaunch
  · split
    · split
      · next h => exact hs.defer h
      · exact hs
    · dsimp only
      split
      exacts [hs.onLaunch, hs.setCounter]

theorem State.Canonical.outDecs {s : State} (hs : s.Canonical) {id l vas q} :
    (State.outDecs id l vas s q).1.Canonical := by
  induction vas generalizing s q with
  | nil => exact hs
  | cons va rest ih =>
    unfold State.outDecs
    split
    · refine onLaunch ?_
      split
      exacts [hs.fetchPage, hs]
    · next u hu => exact ih (hs.outLoc hu).outDec

@[simp] theorem State.Canonical.completeLaunch {s : State} (hs : s.Canonical) {id} :
    (s.completeLaunch id).1.Canonical := by
  unfold State.completeLaunch
  split
  · exact hs
  · split
    · exact hs
    · extract_lets r s0 fl s1 s2
      have hr : r.1.Canonical := hs.outDecs
      have h1 : s1.Canonical := ite hr.onLaunch.post hr.onLaunch
      have h2 : s2.Canonical := ite h1.wakeWhy h1
      split
      exacts [hr, h2]

@[simp] theorem State.Canonical.newDomainId {s : State} (hs : s.Canonical) {d i} :
    (s.newDomainId d i).2.Canonical := by
  simp [State.newDomainId, hs]

theorem State.Canonical.openRoot {s t : State} (hs : s.Canonical) {id l} (h : s.openRoot id l = some t) : t.Canonical := by
  unfold State.openRoot at h
  dsimp only at h
  split at h
  · cases h
  · cases h
    exact onLaunch (setDomain hs.newDomainId)

@[simp] theorem State.Canonical.readyLaunch {s : State} (hs : s.Canonical) {id} : (s.readyLaunch id).1.Canonical := by
  unfold State.readyLaunch
  split
  · exact hs
  · split
    · exact hs
    · split
      · dsimp only
        split
        exacts [hs.onLaunch.bindCohort, hs.onLaunch.post]
      · split
        · split
          · exact hs
          · next t ht =>
            split
            · exact hs.openRoot ht
            · dsimp only
              split
              exacts [(hs.openRoot ht).onLaunch.distribute.setDomain, (hs.openRoot ht).onLaunch.distribute]
        · exact hs.onLaunch.distribute

@[simp] theorem State.Canonical.todo {s : State} (hs : s.Canonical) {x1} : (s.todo x1).1.Canonical := by
  unfold State.todo
  split <;> simp [hs]

theorem State.Canonical.work {s : State} (hs : s.Canonical) {k q} : (State.work k s q).1.Canonical := by
  fun_induction State.work k s q with
  | case1 => exact hs
  | case2 => exact hs
  | case3 k s d q r ih => exact ih hs
  | case4 k s t q r h ih => exact ih hs.todo

/-! ### Domain -/

@[simp] theorem State.Canonical.discharge {s : State} (hs : s.Canonical) {c} : (s.discharge c).1.Canonical := by
  unfold State.discharge
  split <;> simp [hs]

@[simp] theorem State.Canonical.stopCopies {s : State} (hs : s.Canonical) {p st} :
    (s.stopCopies p st).1.Canonical := by
  refine wakeWhy (foldl_fst hs fun _ _ hp => foldl_fst hp fun _ _ hq => ?_)
  extract_lets kept gone t1
  split
  · exact hq
  · exact foldl_fst hq fun _ _ ha => ha.discharge

@[simp] theorem State.Canonical.restoreRange {s : State} (hs : s.Canonical) {r} : (s.restoreRange r).Canonical := by
  refine ite hs (foldl_fst hs fun _ _ hp => ?_)
  exact ite (hp.applyWrite.foldl fun _ _ hx => hx.setFull) hp.applyWrite

@[simp] theorem State.Canonical.recordsFreed {s : State} (hs : s.Canonical) : s.recordsFreed.1.Canonical :=
  hs.wakeWhy

@[simp] theorem State.Canonical.dropTags {s : State} (hs : s.Canonical) {id} : (s.dropTags id).Canonical :=
  hs.of_mem rfl

@[simp] theorem State.Canonical.abortMembers {s : State} (hs : s.Canonical) {d} : (s.abortMembers d).Canonical := by
  unfold State.abortMembers
  extract_lets creator mem ctxs others gone queued lost kids s1 r s2 s3 s4 s5 ended dead s6 s7
  have h1 : s1.Canonical := hs.dropTasks.dropEngine
  have h3 : s3.Canonical := h1.stopCopies.work.foldl fun _ _ ht => ht.makeIdle
  have h4 : s4.Canonical := h3.foldl fun _ _ ht => ht.setDomain
  have h6 : s6.Canonical := h4.foldl fun _ _ ht => ht.onLaunch
  have h7 : s7.Canonical := by
    unfold s7
    clear_value creator
    split
    exacts [h6.onCtx, h6]
  exact h7.foldl fun _ r ht => ht.restoreRange

@[simp] theorem State.Canonical.restart {s : State} (hs : s.Canonical) {d revoked} :
    (s.restart d revoked).Canonical := by
  unfold State.restart
  split
  · split
    exacts [hs.onLaunch.distribute, hs]
  · split
    exacts [ite hs.leaveWaits.onCtx.onCtx hs.leaveWaits.onCtx.ready, hs]

theorem State.Canonical.domainFaultN {s : State} (hs : s.Canonical) {k id cause addr atOnce} :
    (State.domainFaultN k s id cause addr atOnce).Canonical := by
  induction k generalizing s id atOnce with
  | zero => exact hs
  | succ k ih =>
    unfold State.domainFaultN
    split
    · exact hs
    · exact ite (ite (ih hs.setDomain).setDomain hs.abortMembers.setDomain.failLaunch)
        hs.abortMembers.dropTags.setDomain.restart

@[simp] theorem State.Canonical.faultCore {s : State} (hs : s.Canonical) {id cause addr atOnce} :
    (s.faultCore id cause addr atOnce).Canonical :=
  hs.domainFaultN.recordsFreed.work

@[simp] theorem State.Canonical.settleCore {s : State} (hs : s.Canonical) {l} : (s.settleCore l).Canonical :=
  hs.work.foldl fun _ _ ht => ht.faultCore

@[simp] theorem State.Canonical.faultProgram {s : State} (hs : s.Canonical) {d slot code} :
    (s.faultProgram d slot code).Canonical := by
  unfold State.faultProgram
  split
  · exact hs
  · refine ite hs ?_
    extract_lets loc v t u
    have hu : u.Canonical := hs.applyWrite.setFull.wakeWhy.onDie
    exact ite hu.wake hu

@[simp] theorem State.Canonical.revokeData {s : State} (hs : s.Canonical) {d c pages} :
    (s.revokeData d c pages).Canonical := by
  unfold State.revokeData
  extract_lets hit s0
  have h0 : s0.Canonical := hs.foldl fun _ _ ht => by
    split
    exacts [ite ht.faultProgram ht, ht]
  exact h0.foldl fun _ h ht => ite ht.onCore.stopCopies.settleCore.faultCore ht.onCore.stopCopies.settleCore

@[simp] theorem State.Canonical.unlend {s : State} (hs : s.Canonical) {d c turns pages} :
    (s.unlend d c turns pages).Canonical :=
  hs.setLend.revokeData.onCore.takeLend

@[simp] theorem State.Canonical.endLends {s : State} (hs : s.Canonical) : s.endLends.Canonical :=
  hs.foldl fun _ _ ht => ite ht ht.onCore.unlend

@[simp] theorem State.Canonical.domainFault {s : State} (hs : s.Canonical) {id cause addr atOnce} :
    (s.domainFault id cause addr atOnce).Canonical :=
  .ite hs.of_mem hs.faultCore.endLends

@[simp] theorem State.Canonical.settle {s : State} (hs : s.Canonical) {l} : (s.settle l).Canonical :=
  hs.settleCore.endLends

@[simp] theorem State.Canonical.faultOr {s : State} (hs : s.Canonical) {w cause tval} :
    ResCanonical (s.faultOr w cause tval) :=
  .ite hs.domainFault hs.trap

@[simp] theorem State.Canonical.consume {s : State} (hs : s.Canonical) {w va} : ResCanonical (s.consume w va) :=
  hs.faultOr

@[simp] theorem State.Canonical.lostAccess {s : State} (hs : s.Canonical) : ResCanonical (s.lostAccess) := by
  simp [State.lostAccess, hs]

@[simp] theorem State.Canonical.flushStitch {s : State} (hs : s.Canonical) {id} : (s.flushStitch id).Canonical := by
  unfold State.flushStitch
  extract_lets s1 far
  have h1 : s1.Canonical := hs.foldl fun _ _ ht => (ht.foldl fun _ _ hv => hv.l2WriteBack).onDie
  exact h1.onDomain.foldl fun _ _ ht => ht.send

@[simp] theorem State.Canonical.performDeferred {s : State} (hs : s.Canonical) {src l vec} :
    (s.performDeferred src l vec).1.Canonical := by
  refine foldl_fst hs fun _ _ hp => ?_
  dsimp only
  split
  · exact hp
  · split
    exacts [hp, hp.counterDec]

@[simp] theorem State.Canonical.handExits {s : State} (hs : s.Canonical) {d} : (s.handExits d).Canonical :=
  .ite hs.onDomain (hs.foldl fun _ _ ht => ht.onLaunch)

@[simp] theorem State.Canonical.rootCommit {s : State} (hs : s.Canonical) {id} : (s.rootCommit id).1.Canonical := by
  unfold State.rootCommit
  split
  · exact hs
  · split
    · exact hs
    · split
      · exact hs
      · extract_lets s1
        have h1 : s1.Canonical := hs.flushStitch
        split
        · exact h1
        · split
          · exact h1
          · extract_lets r s2 f
            have hr : r.1.Canonical := h1.handExits.performDeferred
            have h2 : s2.Canonical := ite hr hr.onLaunch
            exact h2.dropTags.setDomain.recordsFreed

@[simp] theorem State.Canonical.trapArea {s : State} (hs : s.Canonical) {tn b} : (s.trapArea tn b).2.Canonical := by
  simp [State.trapArea, hs]

@[simp] theorem State.Canonical.kill {s : State} (hs : s.Canonical) {c} : (s.kill c).Canonical :=
  hs.failLaunch.makeIdle.recordsFreed.settle

/-! ### Ctl -/

@[simp] theorem State.Canonical.setCount {s : State} (hs : s.Canonical) {c} : (s.setCount c).Canonical :=
  hs.of_mem rfl

@[simp] theorem State.Canonical.countEvent {s : State} (hs : s.Canonical) {u k} : (s.countEvent u k).1.Canonical :=
  foldl_fst hs fun _ _ hq => hq.setCount

@[simp] theorem State.Canonical.tellFault {s : State} (hs : s.Canonical) {u kind} : (s.tellFault u kind).Canonical :=
  hs.send

@[simp] theorem State.Canonical.propose {s : State} (hs : s.Canonical) {u silent proposer} :
    (s.propose u silent proposer).Canonical :=
  .ite hs.of_mem (.ite hs hs.of_mem)

@[simp] theorem State.Canonical.failIn {s : State} (hs : s.Canonical) {c} : ResCanonical (s.failIn c) := by
  simp [State.failIn, hs]

@[simp] theorem State.Canonical.onDir {s : State} (hs : s.Canonical) {port rx f} : (s.onDir port rx f).Canonical :=
  hs.onPort

@[simp] theorem State.Canonical.flood {s : State} (hs : s.Canonical) : s.flood.Canonical := hs.send

@[simp] theorem State.Canonical.portDown {s : State} (hs : s.Canonical) {port rx} : (s.portDown port rx).Canonical :=
  hs.onDir.tellFault.flood

@[simp] theorem State.Canonical.laneFailed {s : State} (hs : s.Canonical) {port lane} :
    (s.laneFailed port lane).Canonical := by
  unfold State.laneFailed
  extract_lets d failed a s1 target s2
  have h1 : s1.Canonical := hs.onDir.tellFault
  exact ite (ite h1.send.portDown h1.send.onDir.flood) h1

@[simp] theorem State.Canonical.remapRow {s : State} (hs : s.Canonical) {h b r} : (s.remapRow h b r).Canonical :=
  ite hs.onStack.tellFault hs.tellFault.countEvent.propose

@[simp] theorem State.Canonical.lasting {s : State} (hs : s.Canonical) {u silent} :
    (s.lasting u silent).Canonical := by
  unfold State.lasting
  split
  exacts [hs.remapRow, .ite hs.laneFailed hs, hs.portDown, hs.propose, hs.propose]

@[simp] theorem State.Canonical.faultEvent {s : State} (hs : s.Canonical) {u k} : (s.faultEvent u k).Canonical :=
  ite hs.tellFault.countEvent.lasting hs.tellFault.countEvent

@[simp] theorem State.Canonical.failover {s : State} (hs : s.Canonical) : s.failover.Canonical :=
  .ite hs hs.of_mem.postAll

@[simp] theorem State.Canonical.bumpMapgen {s : State} (hs : s.Canonical) : s.bumpMapgen.Canonical :=
  hs.setRouters

@[simp] theorem State.Canonical.dropWrite {s : State} (hs : s.Canonical) {die core} :
    (s.dropWrite die core).Canonical :=
  hs.faultEvent

@[simp] theorem State.Canonical.writeTable {s : State} (hs : s.Canonical) {h off v} :
    (s.writeTable h off v).Canonical :=
  hs.onStack

@[simp] theorem State.Canonical.ctlWrite {s : State} (hs : s.Canonical) {a v who} :
    (s.ctlWrite a v who).Canonical := by
  unfold State.ctlWrite
  split
  · split
    exacts [.ite hs hs.setRouter, hs.dropWrite]
  · refine .ite ?_ ?_
    · split
      exacts [hs, hs.writeTable]
    · split
      exacts [hs.dropWrite, hs.dropWrite, hs.onStack, hs.onStack, hs.onStack, hs.onStack, hs.onStack, hs]
  · exact .ite hs.onPort hs
  · exact hs

@[simp] theorem State.Canonical.ctlStore {s : State} (hs : s.Canonical) {a b who} :
    (s.ctlStore a b who).Canonical := by
  simp +contextual [State.ctlStore, hs]

/-! ### Issue -/

@[simp] theorem State.Canonical.endRunahead {s : State} (hs : s.Canonical) {c} : (s.endRunahead c).Canonical := by
  unfold State.endRunahead
  split
  exacts [hs, hs.onCtx.takeTrap]

theorem State.Canonical.aheadStep {s : State} (hs : s.Canonical) {a w body} :
    ResCanonical (s.aheadStep a w body) := by
  refine ResCanonical.ite hs.endRunahead.next ?_
  split
  · exact ResCanonical.ite (next (ite hs.of_mem (endRunahead hs.of_mem))) hs.endRunahead.next
  · exact hs.endRunahead

@[simp] theorem State.Canonical.prefetch {s : State} (hs : s.Canonical) {x} : (s.prefetch x).Canonical := by
  unfold State.prefetch
  split
  · exact hs
  · split
    · next h => exact hs.readFar h
    · exact hs

theorem State.Canonical.aheadAddr {s : State} (hs : s.Canonical) {a k va p} (h : s.aheadAddr a k va = some p) : p.2.Canonical := by
  unfold State.aheadAddr at h
  extract_lets page cand at h
  split at h
  · extract_lets t at h
    have ht : ∀ u : State, u.Canonical → (t u).Canonical := fun u hu => ite hu.prefetch hu
    split at h
    · cases h
      exact ht _ hs.fillTlb
    · cases h
      exact ht _ hs
  · cases h
    exact hs
  · cases h

@[simp] theorem State.Canonical.aheadMem {s : State} (hs : s.Canonical) {w a k bases vbases ds vds legal addrs} :
    ResCanonical (s.aheadMem w a k bases vbases ds vds legal addrs) := by
  unfold State.aheadMem
  refine ResCanonical.ite hs.endRunahead.next ?_
  extract_lets bad r
  have hr : ∀ p, r = some p → p.2.Canonical := by
    unfold r
    split
    · rintro p ⟨⟩
      exact hs
    · refine List.foldlRecOn (motive := fun o => ∀ p : Runahead × State, o = some p → p.2.Canonical) _ _
        (fun p hp => by cases hp; exact hs) fun o ho _ _ p hp => ?_
      split at hp
      · next x t =>
        split at hp
        · exact (ho _ rfl).aheadAddr hp
        · exact ho p hp
      · cases hp
  clear_value r
  split
  · exact hs.endRunahead
  · next x t =>
    have ht : t.Canonical := hr _ rfl
    exact next (ite ht.of_mem (endRunahead ht.of_mem))

@[simp] theorem State.Canonical.startRunahead {s : State} (hs : s.Canonical) {w k va ds vds} :
    ResCanonical (s.startRunahead w k va ds vds) :=
  .ite hs.trap hs.of_mem

@[simp] theorem State.Canonical.issue {s : State} (hs : s.Canonical) {w legal body} (hb : ∀ t, t.Canonical → ResCanonical (body t)) :
    ResCanonical (s.issue w legal body) := by
  unfold State.issue
  split
  · exact ResCanonical.ite hs.aheadStep hs.endRunahead.next
  · refine ResCanonical.ite ?_ hs.illegal
    split
    exacts [hs.trap, hb s hs]

@[simp] theorem State.Canonical.issueMem {s : State} (hs : s.Canonical) {w legal k bases vbases ds vds aligned addrs body}
    (hb : ∀ t, t.Canonical → ResCanonical (body t)) :
    ResCanonical (s.issueMem w legal k bases vbases ds vds aligned addrs body) := by
  unfold State.issueMem
  split
  · exact hs.aheadMem
  · refine ResCanonical.ite ?_ hs.illegal
    split
    exacts [hs.trap, hb s hs]

@[simp] theorem State.Canonical.waitWalk {s : State} (hs : s.Canonical) {va} : (s.waitWalk va).Canonical :=
  hs.goWait

@[simp] theorem State.Canonical.withAccess {s : State} (hs : s.Canonical) {w k va absent aperture ok}
    (habsent : ∀ t, t.Canonical → ResCanonical (absent t)) (haperture : ∀ c o, ResCanonical (aperture c o))
    (hok : ∀ x t, t.Canonical → ResCanonical (ok x t)) : ResCanonical (s.withAccess w k va absent aperture ok) := by
  unfold State.withAccess
  split
  · exact ResCanonical.ite (ResCanonical.ite hs.replan.waitWalk.next (hok _ _ hs.replan.fillTlb)) (hok _ _ hs)
  · exact hs.trap
  · exact haperture _ _
  · exact ResCanonical.ite hs.replan.waitWalk.next (habsent _ hs.replan)

/-! ### Operands -/

@[simp] theorem State.Canonical.load {s : State} (hs : s.Canonical) {w d a wf off n signed} :
    ResCanonical (s.load w d a wf off n signed) := by
  unfold State.load
  extract_lets va
  refine hs.issueMem fun _ ht => ?_
  refine ResCanonical.ite ht.waitOn.next (ResCanonical.ite ht.trap
    (ht.withAccess (fun _ hu => hu.startRunahead) (fun _ _ => ?_) fun _ _ hu => ?_))
  · exact ResCanonical.ite ht.finishSet.next ht.trap
  refine ResCanonical.ite hu.finishSet.next ?_
  split
  · next h => exact ite (hu.read h).finishSet (hu.read h).finishLong
  · exact hu.waitOn
  · exact hu.consume
  · exact hu.lostAccess

theorem State.Canonical.storeAt {s t : State} (hs : s.Canonical) {x b} (h : s.storeAt x b = some t) : t.Canonical := by
  unfold State.storeAt at h
  split at h
  · cases h
    exact hs.noteRace.applyWrite.noteHarvest
  · split at h
    · cases h
    · split at h
      · cases h
      · cases h
        exact hs.postStore

@[simp] theorem State.Canonical.capTags {s : State} (hs : s.Canonical) {h slice} : (s.capTags h slice).Canonical := by
  unfold State.capTags
  dsimp only
  (repeat' split) <;> simp [hs]

@[simp] theorem State.Canonical.noteStitchOf {s : State} (hs : s.Canonical) {id x n} :
    (s.noteStitchOf id x n).Canonical := by
  unfold State.noteStitchOf
  refine .ite hs ?_
  split
  exacts [hs.onDie.capTags, hs.onDomain]

@[simp] theorem State.Canonical.noteStitch {s : State} (hs : s.Canonical) {x n} : (s.noteStitch x n).Canonical :=
  hs.noteStitchOf

@[simp] theorem State.Canonical.store {s : State} (hs : s.Canonical) {w d a wf off n start}
    (hstart : ∀ t v, t.Canonical → ResCanonical (start t v)) : ResCanonical (s.store w d a wf off n start) := by
  unfold State.store
  extract_lets va
  refine hs.issueMem fun _ ht => ?_
  refine ResCanonical.ite ht.waitOn.next (ResCanonical.ite ht.trap
    (ht.withAccess (fun _ hu => hu.startRunahead) (fun _ _ => ?_) fun _ _ hu => ?_))
  · exact ResCanonical.ite (hstart _ _ ht) ht.trap
  refine ResCanonical.ite hu.ctlStore.finish.next (ResCanonical.ite hu.lostAccess
    (ResCanonical.ite hu.consume (ResCanonical.ite hu.trap ?_)))
  split
  · next h => exact (hu.storeAt h).noteStitch.finish
  · exact hu.waitOn

@[simp] theorem State.Canonical.basinWord {s : State} (hs : s.Canonical) {w va write k} (hk : ∀ l, ResCanonical (k l)) :
    ResCanonical (s.basinWord w va write k) := by
  refine ResCanonical.ite hs.trap ?_
  split
  exacts [ResCanonical.ite (hk _) hs.trap, hs.trap]

@[simp] theorem State.Canonical.fullEmpty {s : State} (hs : s.Canonical) {loc b} : (s.fullEmpty loc b).Canonical :=
  hs.setFull.wakeWhy

@[simp] theorem State.Canonical.noteStrong {s : State} (hs : s.Canonical) {h src loc n num} :
    (s.noteStrong h src loc n num).Canonical :=
  hs.onDie

/-- What an atomic leaves, where it is performed. -/
def AtomState.Canonical : AtomState → Prop
  | .done _ t => t.Canonical
  | _ => True

theorem State.Canonical.atomState_atomic {s : State} (hs : s.Canonical) {x n f} : (s.atomic x n f).Canonical := by
  unfold State.atomic
  extract_lets pol put old src
  have hput : ∀ {t : State} {g v}, t.Canonical → (put t g v).Canonical := fun {t g v} ht => by
    cases v
    exacts [ht, ht.applyWrite]
  split
  · split
    exacts [trivial, noteHarvest (hput hs.noteRace)]
  · split
    · trivial
    · split
      · trivial
      · split
        · trivial
        · split
          · split
            · trivial
            · split
              exacts [trivial, hput hs]
          · split
            · trivial
            · split
              · trivial
              · split
                · trivial
                · extract_lets mix was new s0 b d rsp t
                  have h0 : s0.Canonical := ite hs.free hs
                  have ht : t.Canonical := hput h0.dropRdc.bump.retireYoung.sliceRead
                  split
                  · exact noteStrong (hput h0.ownRead)
                  · split
                    exacts [trivial, ht.noteStrong.acked.mergeV]

theorem State.Canonical.atomic {s t : State} (hs : s.Canonical) {x n f old} (h : s.atomic x n f = .done old t) : t.Canonical := by
  have hr : (s.atomic x n f).Canonical := hs.atomState_atomic
  rw [h] at hr
  exact hr

@[simp] theorem State.Canonical.atom {s : State} (hs : s.Canonical) {w d a wf n f ext} :
    ResCanonical (s.atom w d a wf n f ext) := by
  refine hs.issue fun _ ht => ?_
  refine ResCanonical.ite ht.waitOn.next (ResCanonical.ite ht.trap
    (ht.withAccess (fun _ hu => hu.trap) (fun _ _ => ht.trap) fun _ _ hu => ResCanonical.ite hu.trap (ResCanonical.ite hu.trap ?_)))
  split
  · next h => exact ite (hu.atomic h).noteStitch.finish (hu.atomic h).noteStitch.finishLong
  · exact hu.waitOn
  · exact hu.consume
  · exact hu.trap
  · exact hu.lostAccess

/-! ### Alu -/

@[simp] theorem State.Canonical.alu {s : State} (hs : s.Canonical) {w d v} : ResCanonical (s.alu w d v) :=
  hs.issue fun _ ht => ht.finishSet

@[simp] theorem State.Canonical.aluLong {s : State} (hs : s.Canonical) {w d v} : ResCanonical (s.aluLong w d v) :=
  hs.issue fun _ ht => ht.finishLong

/-! ### Pages -/

@[simp] theorem State.Canonical.tlbDrop {s : State} (hs : s.Canonical) {onDie p} : (s.tlbDrop onDie p).Canonical :=
  hs.of_mem rfl

@[simp] theorem State.Canonical.tlbPage {s : State} (hs : s.Canonical) {tn va} : (s.tlbPage tn va).Canonical :=
  hs.tlbDrop

@[simp] theorem State.Canonical.dropLines {s : State} (hs : s.Canonical) {loc n} : (s.dropLines loc n).Canonical :=
  hs.foldl fun _ _ ht => ht.l2Clean

@[simp] theorem State.Canonical.loseInputs {s : State} (hs : s.Canonical) {tn inside} :
    (s.loseInputs tn inside).Canonical := by
  refine hs.foldl fun _ _ ht => ?_
  split
  · exact ite ht (ht.foldl fun _ _ hu => hu.onCounter.onCounter.onLaunch)
  · exact ht

@[simp] theorem State.Canonical.purge {s : State} (hs : s.Canonical) {loc n} : (s.purge loc n).Canonical := by
  simp [State.purge, hs]

@[simp] theorem State.Canonical.unmapWindow {s : State} (hs : s.Canonical) {tn w} :
    (s.unmapWindow tn w).Canonical := by
  unfold State.unmapWindow
  split
  · exact hs
  · refine ite hs ?_
    extract_lets n at_ inside s1 s2 s3 frames gone s4 hit open_
    have h2 : s2.Canonical := hs.loseInputs.dropLines.purge.foldl fun _ _ hu => hu.mapPage
    have h3 : s3.Canonical := h2.tlbDrop
    have h4 : s4.Canonical := (wakeWhy h3.of_mem).onTenant
    exact foldl h4.of_mem fun _ _ hu => ite hu.resume hu

/-! ### Sluice -/

@[simp] theorem State.Canonical.takeSb {s : State} (hs : s.Canonical) {c reads write} :
    (s.takeSb c reads write).1.Canonical := by
  simp [State.takeSb, hs]

@[simp] theorem State.Canonical.freeSb {s : State} (hs : s.Canonical) {d c id} : (s.freeSb d c id).Canonical :=
  hs.onCore.wakeAll

@[simp] theorem State.Canonical.onChannel {s : State} (hs : s.Canonical) {d c chan f} :
    (s.onChannel d c chan f).Canonical :=
  hs.onCore

@[simp] theorem State.Canonical.startFault {s : State} (hs : s.Canonical) {w chan code} :
    ResCanonical (s.startFault w chan code) :=
  hs.onChannel.trap

@[simp] theorem State.Canonical.startCopy {s : State} (hs : s.Canonical) {w data} :
    ResCanonical (s.startCopy w data) := by
  unfold State.startCopy
  extract_lets chan ch img t rep sp dp sIn dIn hole reads write r tk c
  have htk : tk.1.Canonical := by
    unfold tk
    split
    exacts [hs.takeSb, hs]
  refine ResCanonical.ite hs.waitOn.next (ResCanonical.ite hs.startFault (ResCanonical.ite hs.startFault
    (ResCanonical.ite hs.startFault (ResCanonical.ite hs.startFault ?_))))
  clear_value hole
  split
  · exact hs.onChannel.trap
  · exact ResCanonical.ite hs.waitOn.next htk.onChannel.finish

@[simp] theorem execStart_canonical {s : State} (hs : s.Canonical) {data} : ResCanonical (execStart data s) :=
  .ite hs.startCopy hs

@[simp] theorem State.Canonical.onHead {s : State} (hs : s.Canonical) {d c chan f} :
    (s.onHead d c chan f).Canonical :=
  hs.onChannel

theorem State.Canonical.engineWrite {s t : State} (hs : s.Canonical) {d x b} (h : s.engineWrite d x b = some t) : t.Canonical := by
  unfold State.engineWrite at h
  split at h
  · cases h
    exact hs.applyWrite.foldl fun _ _ hu => hu.setFull.wakeWhy
  · split at h
    · cases h
    · split at h
      · split at h
        · cases h
        · cases h
          exact hs.applyWrite
      · split at h
        · split at h
          · cases h
          · cases h
            exact hs.applyWrite
        · dsimp only at h
          split at h
          · cases h
            exact hs.dropRdc.bump.performNet.acked
          · cases h

@[simp] theorem State.Canonical.engineRead {s : State} (hs : s.Canonical) {raced loc n} :
    (s.engineRead raced loc n).2.Canonical := by
  unfold State.engineRead
  split
  · exact hs
  · dsimp only
    refine List.foldlRecOn (motive := fun p : SMap Word × State => p.2.Canonical) _ _ hs fun p hp _ _ => ?_
    split
    exacts [hp.free, hp]

@[simp] theorem State.Canonical.engineKeep {s : State} (hs : s.Canonical) {raced loc b} :
    (s.engineKeep raced loc b).2.Canonical := by
  unfold State.engineKeep
  split
  · exact hs
  · dsimp only
    refine List.foldlRecOn (motive := fun p : List Nat × State => p.2.Canonical) _ _ hs fun p hp _ _ => ?_
    split
    exacts [hp.free, hp]

theorem State.Canonical.moveItems {s : State} (hs : s.Canonical) {d c t dst i items} :
    (State.moveItems d c t dst s i items).1.Canonical := by
  induction items generalizing s dst i with
  | nil => exact hs
  | cons it rest ih =>
    unfold State.moveItems
    extract_lets dIn dva f get
    have hget : get.1.Canonical := by
      unfold get
      split
      · exact hs
      · split
        · exact hs
        · exact hs
        · split
          · exact hs.free
          · split
            · split
              exacts [hs, hs.engineRead]
            · split
              · next h => exact hs.readFar h
              all_goals exact hs
    clear_value get
    split
    · split
      · exact hget
      · exact hget
      · split
        · exact hget
        · split
          · exact hget
          · split
            · exact hget
            · extract_lets kb
              have hkb : kb.2.Canonical := by
                unfold kb
                split
                exacts [hget.engineKeep, hget]
              split
              · exact hget
              · next h => exact ih (hkb.engineWrite h).noteStitchOf.noteHarvest
    · exact hget

@[simp] theorem State.Canonical.copyTrap {s : State} (hs : s.Canonical) {c chan code} :
    (s.copyTrap c chan code).Canonical := by
  unfold State.copyTrap
  extract_lets x bound r q
  exact ite (ite hs.domainFault (ite hs.takeTrap hs.onCtx)) hs.trapArea.post.failLaunch

@[simp] theorem State.Canonical.endCopy {s : State} (hs : s.Canonical) {d c chan code offset} :
    (s.endCopy d c chan code offset).Canonical := by
  unfold State.endCopy
  split
  · exact hs
  · extract_lets all s1 r s2 s3
    have h2 : s2.Canonical := hs.onChannel.discharge.settle
    have h3 : s3.Canonical := h2.foldl fun _ _ ht => by
      split
      exacts [ht.freeSb, ht]
    exact h3.copyTrap.settle.wakeAll

@[simp] theorem State.Canonical.suspendCopy {s : State} (hs : s.Canonical) {d c chan done offset} :
    (s.suspendCopy d c chan done offset).Canonical :=
  hs.onHead.onChannel

@[simp] theorem State.Canonical.acceptCopy {s : State} (hs : s.Canonical) {d c chan cp} :
    (s.acceptCopy d c chan cp).Canonical := by
  unfold State.acceptCopy
  extract_lets t chk size
  split
  · exact hs.suspendCopy
  · exact hs.endCopy
  · split
    · exact hs.suspendCopy
    · exact hs.endCopy
    · extract_lets acc
      have hacc : ∀ {u : State} {n}, u.Canonical → (acc u n).Canonical := fun hu => hu.onHead.onChannel
      exact ite (hacc hs) (ite hs (ite hs.endCopy (hacc hs.counterDec.onCounter)))

@[simp] theorem execCopyAccept_canonical {s : State} (hs : s.Canonical) {die core chan} :
    ResCanonical (execCopyAccept die core chan s) := by
  unfold execCopyAccept
  split
  exacts [hs, .ite hs hs.acceptCopy]

@[simp] theorem State.Canonical.finishCopy {s : State} (hs : s.Canonical) {d c chan cp t} :
    (s.finishCopy d c chan cp t).Canonical := by
  unfold State.finishCopy
  extract_lets stamped
  have hu : stamped.1.Canonical := by
    unfold stamped
    split
    · exact hs
    · split
      · exact hs
      · split
        · exact hs
        · exact hs
        · split
          · exact hs
          · split
            · exact hs
            · split
              · exact hs
              · next h => exact (hs.engineWrite h).noteStitchOf.noteHarvest
  clear_value stamped
  split
  · next u =>
    extract_lets r v y
    have hv : v.Canonical := hu.onChannel.discharge.settle
    have hy : y.Canonical := by
      unfold y
      split
      exacts [hv.freeSb, hv]
    exact hy.settle.wakeAll
  · exact hu
  · exact hu.suspendCopy
  · exact hu.endCopy

@[simp] theorem State.Canonical.runCopy {s : State} (hs : s.Canonical) {d c chan cp} :
    (s.runCopy d c chan cp).Canonical := by
  unfold State.runCopy
  split
  · extract_lets t l r off u
    have hu : u.Canonical := hs.moveItems.onHead
    split
    exacts [hu.finishCopy, hu, hu.suspendCopy, hu.endCopy]
  · exact hs

@[simp] theorem execCopyComplete_canonical {s : State} (hs : s.Canonical) {die core chan} :
    ResCanonical (execCopyComplete die core chan s) := by
  unfold execCopyComplete
  split
  exacts [hs, .ite hs.runCopy hs]

@[simp] theorem execCopySuspend_canonical {s : State} (hs : s.Canonical) {die core chan offset va} :
    ResCanonical (execCopySuspend die core chan offset va s) := by
  unfold execCopySuspend
  split
  · exact hs
  · exact ResCanonical.ite hs.moveItems.suspendCopy.send.next hs

@[simp] theorem execCopyResume_canonical {s : State} (hs : s.Canonical) {die core chan} :
    ResCanonical (execCopyResume die core chan s) := by
  unfold execCopyResume
  split
  · exact hs
  · refine ResCanonical.ite hs ?_
    extract_lets go
    have hgo : ∀ {u : State}, u.Canonical → (go u).Canonical := fun hu => hu.onHead.onChannel
    split
    · exact hgo hs
    · split
      · exact hgo hs
      · next h => exact hgo (hs.touchPage h)
      · exact hs.fetchPage
      · exact hs.endCopy

@[simp] theorem execCopyFaultEnd_canonical {s : State} (hs : s.Canonical) {die core chan code offset} :
    ResCanonical (execCopyFaultEnd die core chan code offset s) := by
  unfold execCopyFaultEnd
  split
  exacts [hs, .ite hs.endCopy hs]

@[simp] theorem execScoreboardEntryFree_canonical {s : State} (hs : s.Canonical) {die core entry} :
    ResCanonical (execScoreboardEntryFree die core entry s) :=
  hs.freeSb

/-! ### LoadStore -/

@[simp] theorem execStb_canonical {s : State} (hs : s.Canonical) {d a w o} : ResCanonical (execStb d a w o s) :=
  hs.store fun _ _ ht => ht.startCopy

@[simp] theorem execSth_canonical {s : State} (hs : s.Canonical) {d a w o} : ResCanonical (execSth d a w o s) :=
  hs.store fun _ _ ht => ht.startCopy

@[simp] theorem execStw_canonical {s : State} (hs : s.Canonical) {d a w o} : ResCanonical (execStw d a w o s) :=
  hs.store fun _ _ ht => ht.startCopy

@[simp] theorem execStd_canonical {s : State} (hs : s.Canonical) {d a w o} : ResCanonical (execStd d a w o s) :=
  hs.store fun _ _ ht => ht.startCopy

@[simp] theorem State.Canonical.fillRo {s : State} (hs : s.Canonical) {tn va loc b} :
    (s.fillRo tn va loc b).Canonical :=
  hs.onCore

@[simp] theorem execLdro_canonical {s : State} (hs : s.Canonical) {d a o} : ResCanonical (execLdro d a o s) := by
  unfold execLdro
  extract_lets va w
  refine hs.issueMem fun _ ht => ?_
  refine ResCanonical.ite ht.trap ?_
  split
  · exact ht.finishSet
  · refine ht.withAccess (fun _ hu => hu.startRunahead) (fun _ _ => ht.trap) fun _ _ hu => ?_
    refine ResCanonical.ite hu.trap ?_
    dsimp only
    split
    · next h => exact (hu.read h).fillRo.finishLong
    · exact hu.waitOn
    · exact hu.consume
    · exact hu.lostAccess

@[simp] theorem execLdf_canonical {s : State} (hs : s.Canonical) {d a m o} : ResCanonical (execLdf d a m o s) := by
  refine hs.issue fun _ ht => ht.basinWord fun _ => ?_
  exact ResCanonical.ite ht.waitOn.next (ResCanonical.ite ht.consume (State.Canonical.finishSet (.ite ht.fullEmpty ht)))

@[simp] theorem execStf_canonical {s : State} (hs : s.Canonical) {d a m o} : ResCanonical (execStf d a m o s) := by
  refine hs.issue fun _ ht => ht.basinWord fun _ => ?_
  exact ResCanonical.ite ht.waitOn.next (ResCanonical.ite ht.trap ht.noteRace.applyWrite.noteHarvest.fullEmpty.finish)

/-! ### Atomic -/

@[simp] theorem execAadd_canonical {s : State} (hs : s.Canonical) {d a b w z} : ResCanonical (execAadd d a b w z s) :=
  hs.atom

@[simp] theorem execAand_canonical {s : State} (hs : s.Canonical) {d a b w z} : ResCanonical (execAand d a b w z s) :=
  hs.atom

@[simp] theorem execAor_canonical {s : State} (hs : s.Canonical) {d a b w z} : ResCanonical (execAor d a b w z s) :=
  hs.atom

@[simp] theorem execAxor_canonical {s : State} (hs : s.Canonical) {d a b w z} : ResCanonical (execAxor d a b w z s) :=
  hs.atom

@[simp] theorem execAmin_canonical {s : State} (hs : s.Canonical) {d a b w z} : ResCanonical (execAmin d a b w z s) :=
  hs.atom

@[simp] theorem execAmax_canonical {s : State} (hs : s.Canonical) {d a b w z} : ResCanonical (execAmax d a b w z s) :=
  hs.atom

@[simp] theorem execAminu_canonical {s : State} (hs : s.Canonical) {d a b w z} :
    ResCanonical (execAminu d a b w z s) :=
  hs.atom

@[simp] theorem execAmaxu_canonical {s : State} (hs : s.Canonical) {d a b w z} :
    ResCanonical (execAmaxu d a b w z s) :=
  hs.atom

@[simp] theorem execAswap_canonical {s : State} (hs : s.Canonical) {d a b w z} :
    ResCanonical (execAswap d a b w z s) :=
  hs.atom

@[simp] theorem execAcas_canonical {s : State} (hs : s.Canonical) {d a b w z} : ResCanonical (execAcas d a b w z s) :=
  hs.atom

@[simp] theorem execAfadd_canonical {s : State} (hs : s.Canonical) {d a b w} : ResCanonical (execAfadd d a b w s) :=
  hs.atom

@[simp] theorem execAfmaxabs_canonical {s : State} (hs : s.Canonical) {d a b w} :
    ResCanonical (execAfmaxabs d a b w s) :=
  hs.atom

@[simp] theorem execAmaxrst_canonical {s : State} (hs : s.Canonical) {d a w} : ResCanonical (execAmaxrst d a w s) :=
  hs.atom

/-! ### Fabric -/

@[simp] theorem State.Canonical.wire {s : State} (hs : s.Canonical) {j p} : (s.wire j p).Canonical :=
  .ite hs.send hs.of_mem

@[simp] theorem State.Canonical.control {s : State} (hs : s.Canonical) {j kind value} :
    (s.control j kind value).Canonical := by
  unfold State.control
  refine .ite hs.send ?_
  split
  exacts [hs.of_mem, hs.of_mem, hs]

@[simp] theorem State.Canonical.sendNow {s : State} (hs : s.Canonical) {j p} : (s.sendNow j p).Canonical :=
  hs.onPort.wire

@[simp] theorem State.Canonical.transmit {s : State} (hs : s.Canonical) {j p} : (s.transmit j p).Canonical :=
  .ite hs.sendNow hs.onPort

@[simp] theorem State.Canonical.drainPort {s : State} (hs : s.Canonical) {j} : (s.drainPort j).Canonical :=
  hs.onPort.foldl fun _ _ ht => ht.transmit

@[simp] theorem State.Canonical.resendFrom {s : State} (hs : s.Canonical) {j n} : (s.resendFrom j n).Canonical := by
  unfold State.resendFrom
  extract_lets late bump
  exact ite hs.portDown (hs.onPort.foldl fun _ _ ht => ht.wire)

@[simp] theorem State.Canonical.replayPort {s : State} (hs : s.Canonical) {j n} : (s.replayPort j n).Canonical :=
  ite hs.portDown (ite hs.onPort.faultEvent.resendFrom hs.onPort.faultEvent)

@[simp] theorem State.Canonical.ackPort {s : State} (hs : s.Canonical) {j hack} : (s.ackPort j hack).Canonical := by
  unfold State.ackPort
  split
  exacts [hs, hs.onPort.drainPort]

@[simp] theorem State.Canonical.seeLost {s : State} (hs : s.Canonical) {pkg} : (s.seeLost pkg).Canonical :=
  .ite hs.send.send hs.send

@[simp] theorem State.Canonical.checkFar {s : State} (hs : s.Canonical) {port} : (s.checkFar port).Canonical := by
  unfold State.checkFar
  split
  exacts [hs, .ite hs (.ite hs.seeLost hs)]

@[simp] theorem State.Canonical.reroute {s : State} (hs : s.Canonical) : s.reroute.Canonical := by
  simp [State.reroute, hs]

@[simp] theorem State.Canonical.dropPending {s : State} (hs : s.Canonical) {key} : (s.dropPending key).Canonical :=
  hs.of_mem rfl

@[simp] theorem State.Canonical.answerUnmapped {s : State} (hs : s.Canonical) {p} : (s.answerUnmapped p).Canonical :=
  .ite hs.of_mem hs.send

@[simp] theorem State.Canonical.hand {s : State} (hs : s.Canonical) {a cv p} : (s.hand a cv p).Canonical := by
  unfold State.hand
  split <;> simp [hs]

theorem State.Canonical.enterNode {s : State} (hs : s.Canonical) {k a cv p} :
    (State.enterNode k s a cv p).Canonical := by
  induction k generalizing s cv p with
  | zero => exact hs
  | succ k ih =>
    unfold State.enterNode
    split
    · split
      exacts [ih hs.send, hs]
    · split
      · exact hs
      · split
        · dsimp only
          refine transmit ?_
          split
          exacts [hs.transmit, hs]
        · exact ite hs hs.answerUnmapped
        · refine ite (ite (ih hs.send) hs.send) (ite hs.hand (ite (ih hs) (ite ?_ hs)))
          split
          · exact hs
          · exact ite hs (ih hs.of_mem)

@[simp] theorem State.Canonical.inject {s : State} (hs : s.Canonical) {a owner cv p} :
    (s.inject a owner cv p).Canonical := by
  unfold State.inject
  extract_lets key c f
  split
  · exact hs
  · split
    · split
      exacts [hs, enterNode hs.of_mem]
    · exact hs.enterNode

@[simp] theorem State.Canonical.sendBase {s : State} (hs : s.Canonical) {a owner p} :
    (s.sendBase a owner p).Canonical := by
  unfold State.sendBase
  dsimp only
  split
  exacts [hs.of_mem, hs.of_mem.inject]

@[simp] theorem State.Canonical.drainTags {s : State} (hs : s.Canonical) : s.drainTags.Canonical :=
  hs.of_mem.foldl fun _ _ ht => ht.sendBase

@[simp] theorem State.Canonical.freeBase {s : State} (hs : s.Canonical) {p key} : (s.freeBase p key).Canonical :=
  hs.dropPending.of_mem.drainTags

@[simp] theorem State.Canonical.unpark {s : State} (hs : s.Canonical) : s.unpark.Canonical :=
  hs.of_mem.foldl fun _ _ ht => ht.inject

@[simp] theorem execRoutePacket_canonical {s : State} (hs : s.Canonical) {router p owner} :
    ResCanonical (execRoutePacket router p owner s) :=
  .ite hs (.ite hs.tellFault (.ite hs.onPort (.ite (.ite hs (hs.foldl fun _ _ ht => ht.sendBase)) hs.onPort.inject)))

@[simp] theorem execUnmappedResponse_canonical {s : State} (hs : s.Canonical) {p} :
    ResCanonical (execUnmappedResponse p s) := by
  unfold execUnmappedResponse
  extract_lets key s1 s2
  have h1 : s1.Canonical := .ite hs.freeBase hs.dropPending
  have h2 : s2.Canonical := by
    unfold s2
    split
    exacts [h1.answerUnmapped, h1]
  split
  · exact hs
  · split
    exacts [h2.failIn, h2]

@[simp] theorem execRouteHoldRelease_canonical {s : State} (hs : s.Canonical) {line} :
    ResCanonical (execRouteHoldRelease line s) := by
  unfold execRouteHoldRelease
  split
  · exact hs
  · extract_lets mine f t
    have ht : t.Canonical := hs
    exact ResCanonical.ite hs (ht.foldl fun _ _ hu => hu.inject).wakeWhy

@[simp] theorem State.Canonical.ackBack {s : State} (hs : s.Canonical) {j} : (s.ackBack j).Canonical :=
  hs.onPort.control

@[simp] theorem State.Canonical.arrive {s : State} (hs : s.Canonical) {j p} : (s.arrive j p).Canonical := by
  unfold State.arrive
  extract_lets a cv t
  have ht : t.Canonical := ite hs.onPort hs
  exact ite hs.onPort (ite ht.of_mem (ite ht.of_mem ht.enterNode))

@[simp] theorem State.Canonical.grantIn {s : State} (hs : s.Canonical) {j p} : (s.grantIn j p).Canonical := by
  unfold State.grantIn
  extract_lets s1
  have h1 : s1.Canonical := ite hs.onPort hs.control
  exact ite h1.onPort.tellFault (ite h1 h1.arrive)

@[simp] theorem execHopPacketReceive_canonical {s : State} (hs : s.Canonical) {port p} :
    ResCanonical (execHopPacketReceive port p s) := by
  unfold execHopPacketReceive
  extract_lets q t s1 s2 s3
  have h2 : s2.Canonical := hs.onPort.ackPort
  have h3 : s3.Canonical := .ite h2.ackBack h2
  exact ResCanonical.ite hs (ResCanonical.ite (ResCanonical.ite hs hs.onPort.control.faultEvent.next) (ResCanonical.ite hs h3.grantIn.next))

@[simp] theorem execRecoveryNakTimeout_canonical {s : State} (hs : s.Canonical) {port} :
    ResCanonical (execRecoveryNakTimeout port s) :=
  .ite hs.control hs

@[simp] theorem execHopAckTimer_canonical {s : State} (hs : s.Canonical) {port} :
    ResCanonical (execHopAckTimer port s) := by
  simp [execHopAckTimer, hs]

@[simp] theorem execAckReceived_canonical {s : State} (hs : s.Canonical) {port hack} :
    ResCanonical (execAckReceived port hack s) :=
  hs.ackPort

@[simp] theorem execNakReceived_canonical {s : State} (hs : s.Canonical) {port hseq} :
    ResCanonical (execNakReceived port hseq s) := by
  unfold execNakReceived
  refine .ite hs ?_
  split
  exacts [hs, hs.replayPort]

@[simp] theorem execReplayTimeout_canonical {s : State} (hs : s.Canonical) {port} :
    ResCanonical (execReplayTimeout port s) :=
  .ite hs hs.replayPort

@[simp] theorem execE2eNak_canonical {s : State} (hs : s.Canonical) {p} : ResCanonical (execE2eNak p s) := by
  unfold execE2eNak
  split
  · exact hs
  · exact ResCanonical.ite (execUnmappedResponse_canonical hs) (State.Canonical.enterNode hs.of_mem)

@[simp] theorem State.Canonical.greet {s : State} (hs : s.Canonical) {j} : (s.greet j).Canonical := by
  simp [State.greet, hs]

@[simp] theorem execMaintGreeting_canonical {s : State} (hs : s.Canonical) {port g} :
    ResCanonical (execMaintGreeting port g s) := by
  unfold execMaintGreeting
  extract_lets sig p t
  have ht : t.Canonical := hs
  exact ResCanonical.ite hs (ResCanonical.ite ht.send.next (ResCanonical.ite hs.onPort.flood.reroute.next hs.portDown.portDown.reroute))

@[simp] theorem execPortListFlood_canonical {s : State} (hs : s.Canonical) {pkg ports} :
    ResCanonical (execPortListFlood pkg ports s) :=
  .ite hs hs.of_mem.send.reroute

@[simp] theorem execPortListFloodTimer_canonical {s : State} (hs : s.Canonical) : ResCanonical (execPortListFloodTimer s) :=
  hs.flood

@[simp] theorem execLaneLockTimeout_canonical {s : State} (hs : s.Canonical) {port lane} :
    ResCanonical (execLaneLockTimeout port lane s) :=
  .ite hs.laneFailed hs

@[simp] theorem execLaneFail_canonical {s : State} (hs : s.Canonical) {port mask target} :
    ResCanonical (execLaneFail port mask target s) :=
  ResCanonical.ite hs (ResCanonical.ite hs.onDir.portDown.next hs.onDir.onDir.flood.next)

@[simp] theorem execTrainComplete_canonical {s : State} (hs : s.Canonical) {port rx} :
    ResCanonical (execTrainComplete port rx s) := by
  unfold execTrainComplete
  extract_lets d s1 up s2 s3 s4
  have h1 : s1.Canonical := hs.onDir
  have h2 : s2.Canonical := .ite h1.onPort h1
  have h3 : s3.Canonical := .ite h2.greet h2
  have h4 : s4.Canonical := .ite h3 h3.resendFrom.drainPort
  exact ResCanonical.ite hs h4.flood.reroute

@[simp] theorem execTrainTimeout_canonical {s : State} (hs : s.Canonical) {port rx} :
    ResCanonical (execTrainTimeout port rx s) :=
  .ite hs.portDown hs

@[simp] theorem State.Canonical.clearPort {s : State} (hs : s.Canonical) {j} : (s.clearPort j).Canonical := by
  simp [State.clearPort, hs]

@[simp] theorem execPortDownReroute_canonical {s : State} (hs : s.Canonical) {port} :
    ResCanonical (execPortDownReroute port s) := by
  unfold execPortDownReroute
  extract_lets ends off left s1 lost s2 s3
  have h2 : s2.Canonical := hs.clearPort.flood.reroute
  have h3 : s3.Canonical := h2.foldl fun _ _ ht => ht.enterNode
  exact ResCanonical.ite hs (h3.foldl fun _ _ ht => ht.enterNode).checkFar

@[simp] theorem execPortRetrainRetry_canonical {s : State} (hs : s.Canonical) {port} :
    ResCanonical (execPortRetrainRetry port s) := by
  simp [execPortRetrainRetry, hs]

@[simp] theorem execCreditReturn_canonical {s : State} (hs : s.Canonical) {port vc credits} :
    ResCanonical (execCreditReturn port vc credits s) :=
  .ite hs hs.onPort.of_mem.drainPort

@[simp] theorem execCreditTimeout_canonical {s : State} (hs : s.Canonical) {port waitedUs} :
    ResCanonical (execCreditTimeout port waitedUs s) :=
  .ite hs.of_mem.faultEvent.checkFar hs

@[simp] theorem execQuiesceNotice_canonical {s : State} (hs : s.Canonical) {pkg limitUs} :
    ResCanonical (execQuiesceNotice pkg limitUs s) :=
  hs.of_mem

@[simp] theorem execResumeNotice_canonical {s : State} (hs : s.Canonical) {pkg} :
    ResCanonical (execResumeNotice pkg s) :=
  hs.of_mem

@[simp] theorem State.Canonical.emptyNet {s : State} (hs : s.Canonical) : s.emptyNet.Canonical :=
  hs.foldl fun _ _ ht => State.Canonical.ackNet (.ite ht ht.performNet)

@[simp] theorem State.Canonical.rebase {s : State} (hs : s.Canonical) : s.rebase.Canonical := by
  simp [State.rebase, hs]

@[simp] theorem State.Canonical.writeMaps {s : State} (hs : s.Canonical) {m} : (s.writeMaps m).Canonical := by
  unfold State.writeMaps
  extract_lets s1 s2 s3 s4 own r p s5 s6 s7
  have h1 : s1.Canonical := hs.foldl fun _ _ ht => ht.setRouters
  have h2 : s2.Canonical := h1.foldl fun _ _ ht => ht.setRouters
  have h3 : s3.Canonical := h2.foldl fun _ _ ht => ht.setRouters
  have h5 : s5.Canonical := by
    have h4 : s4.Canonical := by
      unfold s4
      split
      exacts [h3.setRouters, h3]
    exact h4
  have h6 : s6.Canonical := h5.foldl fun _ _ ht => ht.onPDie
  have h7 : s7.Canonical := h6.foldl fun _ _ ht => ht.onDie
  exact h7.bumpMapgen.reroute

@[simp] theorem State.Canonical.resumePackage {s : State} (hs : s.Canonical) : s.resumePackage.Canonical := by
  unfold State.resumePackage
  extract_lets s1 s2 faults doms f s3 s4 s5
  have h1 : s1.Canonical := hs.foldl fun _ _ ht => (ht.foldl fun _ _ hu => hu.control).onPort
  have h2 : s2.Canonical := h1.foldl fun _ _ ht => ht.onDie
  have h3 : s3.Canonical := h2.of_mem
  have h4 : s4.Canonical := h3.foldl fun _ _ ht => ht.send
  have h5 : s5.Canonical := h4.unpark.foldl fun _ _ ht => ht.propose
  exact h5.foldl fun _ _ ht => ht.domainFault

@[simp] theorem State.Canonical.startChange {s : State} (hs : s.Canonical) {m} : (s.startChange m).Canonical := by
  unfold State.startChange
  extract_lets s1 s2 s3 f
  have h1 : s1.Canonical := (hs.foldl fun _ _ ht => ht.send).emptyNet
  have h2 : s2.Canonical := h1.foldl fun _ _ ht => ht.onDie
  have h3 : s3.Canonical := h2.foldl fun _ _ ht => ht.onPort
  exact h3.of_mem

@[simp] theorem State.Canonical.endChange {s : State} (hs : s.Canonical) {m} : (s.endChange m).Canonical :=
  hs.writeMaps.rebase.loseMonitors.resumePackage

@[simp] theorem State.Canonical.changeStacks {s : State} (hs : s.Canonical) {m ok} :
    (s.changeStacks m ok).Canonical := by
  unfold State.changeStacks
  extract_lets l f s1 s2 f3 s3
  have h1 : s1.Canonical := hs.of_mem
  have h3 : s3.Canonical := drainTags h1.writeMaps.of_mem
  exact ite h1 h3.wakeAll

/-! ### Ship -/

@[simp] theorem State.Canonical.shipHome {s : State} (hs : s.Canonical) {x op0 op1 index} :
    (s.shipHome x op0 op1 index).2.2.Canonical := by
  unfold State.shipHome
  extract_lets h q b put
  have hput : ∀ {t : State} {f}, t.Canonical → (put t f).Canonical := fun {t f} ht => by
    unfold put
    split
    exacts [ht.applyWrite, ht]
  split
  · exact hput hs
  · split
    · exact hput hs.ownRead
    · exact (hput hs.bump.retireYoung.sliceRead).acked.mergeV

@[simp] theorem execShip_canonical {s : State} (hs : s.Canonical) {d a b i} : ResCanonical (execShip d a b i s) := by
  unfold execShip
  extract_lets w
  refine hs.issue fun _ ht => ?_
  refine ResCanonical.ite ht.trap (ht.withAccess (fun _ hu => hu.trap) (fun _ _ => ht.trap) fun _ _ hu => ?_)
  refine ResCanonical.ite hu.trap (ResCanonical.ite hu.trap (ResCanonical.ite hu.lostAccess (ResCanonical.ite hu.waitOn.next
    (ResCanonical.ite hu.waitOn.next (ResCanonical.ite hu.waitOn.next (ResCanonical.ite hu.waitOn.next
    (ResCanonical.ite hu.waitOn.next (ResCanonical.ite hu.consume ?_))))))))
  exact ResCanonical.ite hu.shipHome.finishLong.next (ResCanonical.ite hu.shipHome.illegal hu.shipHome.consume)

/-! ### BaseDie -/

@[simp] theorem State.Canonical.baseSend {s : State} (hs : s.Canonical) {h p} : (s.baseSend h p).Canonical :=
  hs.inject

@[simp] theorem State.Canonical.badForm {s : State} (hs : s.Canonical) {h p} : (s.badForm h p).Canonical :=
  hs.baseSend

@[simp] theorem State.Canonical.writeAck {s : State} (hs : s.Canonical) {h p poison} :
    (s.writeAck h p poison).Canonical :=
  hs.baseSend

@[simp] theorem State.Canonical.dramWrite {s : State} (hs : s.Canonical) {loc b} : (s.dramWrite loc b).Canonical := by
  unfold State.dramWrite
  dsimp only
  generalize (if s.l2Dirty (loc / 128) then SMap.look none s.under (loc / 128) else none) = m
  cases m with
  | some u => exact hs.of_mem
  | none => exact ite hs.putRaw.setPoison.dropUnder hs.putRaw

@[simp] theorem State.Canonical.poisonGranule {s : State} (hs : s.Canonical) {g} : (s.poisonGranule g).Canonical := by
  unfold State.poisonGranule
  split
  exacts [hs.of_mem, hs.setPoison]

@[simp] theorem State.Canonical.eccCheck {s : State} (hs : s.Canonical) {h g e} : (s.eccCheck h g e).Canonical := by
  unfold State.eccCheck
  cases e with
  | clean => exact hs
  | corrected => exact hs.onStack.faultEvent
  | uncorrectable => exact hs.poisonGranule.onStack.faultEvent

@[simp] theorem State.Canonical.eccChecks {s : State} (hs : s.Canonical) {h l} : (s.eccChecks h l).Canonical :=
  hs.foldl fun _ _ ht => ht.eccCheck

@[simp] theorem State.Canonical.serveRead {s : State} (hs : s.Canonical) {h p} : (s.serveRead h p).Canonical := by
  simp [State.serveRead, hs]

@[simp] theorem State.Canonical.dramSectors {s : State} (hs : s.Canonical) {line m payload} :
    (s.dramSectors line m payload).Canonical :=
  hs.foldl fun _ _ ht => ht.dramWrite

@[simp] theorem State.Canonical.serveVictim {s : State} (hs : s.Canonical) {h p} : (s.serveVictim h p).Canonical :=
  (hs.foldl fun _ _ ht => ht.keepUnder.putRaw.setPoison).ocFill.writeAck

@[simp] theorem State.Canonical.serveMasked {s : State} (hs : s.Canonical) {h p} : (s.serveMasked h p).Canonical := by
  unfold State.serveMasked
  dsimp only
  split
  exacts [hs.keepUnder.onStack.cachedPart.writeAck, hs.onStack]

@[simp] theorem State.Canonical.serveShip {s : State} (hs : s.Canonical) {h p} : (s.serveShip h p).Canonical := by
  unfold State.serveShip
  extract_lets b q s1 s2
  have h1 : s1.Canonical := hs.onStack
  have h2 : s2.Canonical := by
    unfold s2
    split
    exacts [h1.dramWrite, h1]
  exact h2.baseSend

@[simp] theorem State.Canonical.stitchPut {s : State} (hs : s.Canonical) {h p dom old} :
    (s.stitchPut h p dom old).Canonical :=
  hs.stitchDelta.dramSectors.writeAck

@[simp] theorem State.Canonical.serveStitch {s : State} (hs : s.Canonical) {h p} : (s.serveStitch h p).Canonical :=
  ite hs.onDomain.ocWriteBack.onStack.send hs.onDomain.ocWriteBack.stitchPut

@[simp] theorem State.Canonical.serve {s : State} (hs : s.Canonical) {h p} : (s.serve h p).Canonical := by
  unfold State.serve
  dsimp only
  split
  · exact hs.serveRead
  · exact hs.serveMasked
  · exact hs.serveShip
  · split
    · exact hs.serveVictim
    · exact hs.ocWriteBack.writeAck
    · exact hs.ocDiscard.writeAck
    · exact hs.serveStitch
    · exact hs.ocWriteBack.onStack.dramSectors.writeAck

@[simp] theorem State.Canonical.baseArrive {s : State} (hs : s.Canonical) {h p} : (s.baseArrive h p).Canonical :=
  .ite hs.onStack hs.serve

@[simp] theorem State.Canonical.baseDrain {s : State} (hs : s.Canonical) {h} : (s.baseDrain h).Canonical :=
  (hs.onStack.foldl fun _ _ ht => ht.baseArrive).wakeWhy

@[simp] theorem State.Canonical.baseRequest {s : State} (hs : s.Canonical) {h p formOk} :
    ResCanonical (s.baseRequest h p formOk) :=
  .ite hs (.ite hs.answerUnmapped (.ite hs.badForm hs.baseArrive))

@[simp] theorem execBaseDieRead_canonical {s : State} (hs : s.Canonical) {stack p ecc} :
    ResCanonical (execBaseDieRead stack p ecc s) :=
  State.Canonical.baseRequest (.ite hs.eccChecks hs)

@[simp] theorem execMaskedMergeComplete_canonical {s : State} (hs : s.Canonical) {stack granule ecc} :
    ResCanonical (execMaskedMergeComplete stack granule ecc s) := by
  unfold execMaskedMergeComplete
  split
  · exact hs
  · extract_lets p s1
    have h1 : s1.Canonical := hs.eccCheck.onStack
    exact .ite h1.writeAck.send.baseDrain.next h1.dramWrite.writeAck.baseDrain.next

@[simp] theorem execStitchWrite_canonical {s : State} (hs : s.Canonical) {stack p rebuilt} :
    ResCanonical (execStitchWrite stack p rebuilt s) := by
  unfold execStitchWrite
  split
  · exact hs.baseRequest
  · split
    · exact hs
    · extract_lets secs s1
      have h1 : s1.Canonical := hs.onStack
      split
      · exact .ite h1.stitchPut.baseDrain.next hs
      · exact State.Canonical.next (State.Canonical.onDomain (h1.foldl fun _ _ ht => ht.revert)).writeAck.domainFault.baseDrain

@[simp] theorem State.Canonical.install {s : State} (hs : s.Canonical) {p} : (s.install p).Canonical := by
  unfold State.install
  extract_lets line d a x
  exact ite hs hs.l2Put

@[simp] theorem execRequesterReply_canonical {s : State} (hs : s.Canonical) {p} :
    ResCanonical (execRequesterReply p s) := by
  unfold execRequesterReply
  extract_lets key
  split
  · exact hs
  · extract_lets s1 s2 s3
    have h1 : s1.Canonical := hs.freeBase
    have h2 : s2.Canonical := State.Canonical.ite h1.install h1
    have h3 : s3.Canonical := by
      unfold s3
      split
      exacts [h2.inject, h2]
    exact h3.wakeWhy.next

@[simp] theorem execBaseDiePortLoss_canonical {s : State} (hs : s.Canonical) {stack portB} :
    ResCanonical (execBaseDiePortLoss stack portB s) := by
  unfold execBaseDiePortLoss
  extract_lets j down s1 mine off s2 s3 t
  have h1 : s1.Canonical := hs.onStack.onPort.onPort.reroute
  have h2 : s2.Canonical := h1.of_mem
  have h3 : s3.Canonical := h2.foldl fun _ _ hu => hu.enterNode
  exact State.Canonical.next (.ite h3 h3.faultEvent)

@[simp] theorem execRefreshWindowStart_canonical {s : State} (hs : s.Canonical) {stack} :
    ResCanonical (execRefreshWindowStart stack s) :=
  hs.onStack

@[simp] theorem execDirectedRefreshDone_canonical {s : State} (hs : s.Canonical) {stack bank} :
    ResCanonical (execDirectedRefreshDone stack bank s) :=
  hs.onStack.baseDrain

@[simp] theorem execPatrolScrub_canonical {s : State} (hs : s.Canonical) {stack granule ecc} :
    ResCanonical (execPatrolScrub stack granule ecc s) :=
  hs.onStack.eccCheck

@[simp] theorem execOcctlWrite_canonical {s : State} (hs : s.Canonical) {stack en} :
    ResCanonical (execOcctlWrite stack en s) :=
  hs.onStack

@[simp] theorem execOverflowDrainDone_canonical {s : State} (hs : s.Canonical) {stack} :
    ResCanonical (execOverflowDrainDone stack s) :=
  .ite hs (hs.foldl fun _ _ ht => ht.ocWriteBack)

@[simp] theorem execRoutineTableWrite_canonical {s : State} (hs : s.Canonical) {stack index r} :
    ResCanonical (execRoutineTableWrite stack index r s) :=
  .ite hs hs.onStack

/-! ### Branch -/

@[simp] theorem State.Canonical.branch {s : State} (hs : s.Canonical) {w o cond} : ResCanonical (s.branch w o cond) :=
  hs.issue fun _ ht => (State.Canonical.ite ht.setR ht.finish).next

@[simp] theorem execJal_canonical {s : State} (hs : s.Canonical) {d o} : ResCanonical (execJal d o s) :=
  hs.issue fun _ ht => ht.setR

@[simp] theorem execJalr_canonical {s : State} (hs : s.Canonical) {d a i} : ResCanonical (execJalr d a i s) := by
  simp +contextual [execJalr, hs]

@[simp] theorem execLoop_canonical {s : State} (hs : s.Canonical) {n a l} : ResCanonical (execLoop n a l s) :=
  hs.issue fun _ ht => .ite ht.setR ht.finish

/-! ### Launch -/

@[simp] theorem State.Canonical.enroll {s : State} (hs : s.Canonical) {id loc va} : (s.enroll id loc va).Canonical :=
  .ite hs.onLaunch.onDie (.ite hs hs.onCounter.onLaunch)

@[simp] theorem State.Canonical.acceptLaunch {s : State} (hs : s.Canonical) {tn q dom vec origin} :
    (s.acceptLaunch tn q dom vec origin).2.Canonical := by
  unfold State.acceptLaunch
  extract_lets id d l s1 s2
  have h1 : s1.Canonical := by
    refine onDomain ?_
    exact hs.of_mem
  have h2 : s2.Canonical := h1.foldl fun _ _ ht => by
    split
    exacts [ht.enroll, ht.onLaunch]
  exact h2.settle

@[simp] theorem State.Canonical.takeEntries {s : State} (hs : s.Canonical) {d} : (s.takeEntries d).1.Canonical := by
  refine foldl_fst hs fun _ _ hq => ?_
  dsimp only
  split
  · exact hq.onDie
  · exact hq.onLaunch.onDie.foldl fun _ _ hu => hu.enroll

@[simp] theorem execWaiterPoolEntryFree_canonical {s : State} (hs : s.Canonical) {die} :
    ResCanonical (execWaiterPoolEntryFree die s) := by
  unfold execWaiterPoolEntryFree
  exact .ite hs.wakeWhy.takeEntries.settle hs

/-! ### Spout -/

@[simp] theorem State.Canonical.unqueue {s : State} (hs : s.Canonical) {t} : (s.unqueue t).Canonical := hs.dropTasks

@[simp] theorem State.Canonical.ownProgram {s : State} (hs : s.Canonical) {d slot old new} :
    (s.ownProgram d slot old new).Canonical :=
  hs.onDie

@[simp] theorem State.Canonical.reload {s : State} (hs : s.Canonical) {c v} : (s.reload c v).Canonical := by
  unfold State.reload
  extract_lets heap needs x s0 s1
  have h0 : s0.Canonical := by
    unfold s0
    split
    exacts [hs.ownProgram, hs]
  have h1 : s1.Canonical := h0.setCtx.onCore
  exact ite h1.ready h1.onCtx

@[simp] theorem execSpoutBind_canonical {s : State} (hs : s.Canonical) {c} : ResCanonical (execSpoutBind c s) := by
  unfold execSpoutBind
  split
  · exact hs
  · split
    exacts [hs.unqueue.reload, hs.unqueue.bindTask]

@[simp] theorem State.Canonical.preempt {s : State} (hs : s.Canonical) {c why} : (s.preempt c why).Canonical := by
  unfold State.preempt
  extract_lets x x1
  cases x.st with
  | run => exact hs.setCtx.unparkCore
  | wait =>
    cases x.wait with
    | retry y =>
      cases y with
      | matrix | verdict | resync | lend => exact hs.setCtx
      | _ => exact hs.leaveWaits.dropLoose.setCtx
    | result | walk => exact hs.setCtx
    | none | release => exact hs.leaveWaits.dropLoose.setCtx
  | _ => exact hs

@[simp] theorem execPreemptionTimer_canonical {s : State} (hs : s.Canonical) {die} :
    ResCanonical (execPreemptionTimer die s) := by
  unfold execPreemptionTimer
  split <;> simp [hs]

@[simp] theorem execSpillStart_canonical {s : State} (hs : s.Canonical) {c} : ResCanonical (execSpillStart c s) := by
  unfold execSpillStart
  refine .ite hs ?_
  extract_lets x s0
  have h0 : s0.Canonical := by
    unfold s0
    split
    exacts [hs.ownProgram, hs]
  clear_value s0
  split
  · exact hs
  · exact h0.onCore.makeIdle.onCtx

@[simp] theorem execHarvestUnpark_canonical {s : State} (hs : s.Canonical) {c} :
    ResCanonical (execHarvestUnpark c s) :=
  .ite hs.onCtx hs

@[simp] theorem execDomainFault_canonical {s : State} (hs : s.Canonical) {dom cause addr} :
    ResCanonical (execDomainFault dom cause addr s) :=
  hs.domainFault

@[simp] theorem execDomainRestart_canonical {s : State} (hs : s.Canonical) {dom} :
    ResCanonical (execDomainRestart dom s) := by
  unfold execDomainRestart
  split
  · exact hs
  · refine .ite hs ?_
    split
    exacts [hs, hs.setDomain.ready]

/-! ### Task -/

@[simp] theorem State.Canonical.child {s : State} (hs : s.Canonical) {entry a0 a1} :
    (s.child entry a0 a1).2.Canonical := by
  unfold State.child
  extract_lets p l serial args t s0 s1 s2
  have h0 : s0.Canonical := hs.of_mem
  exact h0.onLaunch.onDomain.setR

@[simp] theorem execSpawn_canonical {s : State} (hs : s.Canonical) {d a b} : ResCanonical (execSpawn d a b s) := by
  unfold execSpawn
  extract_lets w
  refine hs.issue fun _ ht => .ite ht.trap ?_
  extract_lets c
  split
  exacts [ht.waitOn, ht.child.onCore.finish]

@[simp] theorem State.Canonical.counterAt {s : State} (hs : s.Canonical) {w va write k}
    (hk : ∀ x t, t.Canonical → ResCanonical (k x t)) : ResCanonical (s.counterAt w va write k) :=
  .ite hs.trap (hs.withAccess (fun _ ht => ht.trap) (fun _ _ => hs.trap)
    fun x t ht => .ite ht.trap (.ite ht.trap (hk x t ht)))

@[simp] theorem State.Canonical.counterRmw {s : State} (hs : s.Canonical) {w va write x f k}
    (hk : ∀ old t, t.Canonical → ResCanonical (k old t)) : ResCanonical (s.counterRmw w va write x f k) := by
  unfold State.counterRmw
  split
  · next h => exact hk _ _ (hs.atomic h)
  · exact hs.waitOn
  · exact hs.consume
  · exact hs.trap
  · exact hs.lostAccess

@[simp] theorem execCntinit_canonical {s : State} (hs : s.Canonical) {d a b} :
    ResCanonical (execCntinit d a b s) := by
  unfold execCntinit
  extract_lets w
  exact hs.issue fun _ ht => ht.counterAt fun _ _ hu => hu.counterRmw fun _ _ hv => hv.onCounter.finishLong.settle.next

@[simp] theorem execCntdec_canonical {s : State} (hs : s.Canonical) {a b} : ResCanonical (execCntdec a b s) := by
  unfold execCntdec
  extract_lets w
  refine hs.issue fun _ ht => ht.counterAt fun _ _ hu => ?_
  refine .ite ?_ (.ite hu.waitOn (hu.counterRmw fun _ _ hv => ?_))
  · split
    · next h => exact (hu.defer h).finish
    · exact hu.trap
  · exact .ite hv.trap (.ite hv.finishLong.next hv.onCounter.finishLong.settle.next)

@[simp] theorem execCntwait_canonical {s : State} (hs : s.Canonical) {a} : ResCanonical (execCntwait a s) := by
  unfold execCntwait
  extract_lets w
  refine hs.issue fun _ ht => ht.counterAt fun _ _ hu => ?_
  split
  · exact hu.trap
  · exact hu.counterRmw fun _ _ hv => .ite hv.finishLong.next (.ite hv.waitOn.next hv.onCounter.waitOn.next)

@[simp] theorem execSpawnc_canonical {s : State} (hs : s.Canonical) {d a b} : ResCanonical (execSpawnc d a b s) := by
  unfold execSpawnc
  extract_lets w
  refine hs.issue fun _ ht => ht.counterAt fun _ _ hu => ?_
  split
  · exact hu.trap
  · refine .ite hu.trap (.ite hu.trap (hu.counterRmw fun _ _ hv => ?_))
    exact .ite hv.child.pushReady.finishLong.next (.ite hv.waitOn.next hv.child.onCounter.finishLong.next)

@[simp] theorem execTwait_canonical {s : State} (hs : s.Canonical) : ResCanonical (execTwait s) :=
  hs.issue fun _ ht => .ite ht.makeIdle.next (.ite ht.waitOn.next ht.mergeV.finish.next)

@[simp] theorem State.Canonical.tellParent {s : State} (hs : s.Canonical) {t v} : (s.tellParent t v).Canonical := by
  unfold State.tellParent
  dsimp only
  (repeat' split) <;> simp [hs]

@[simp] theorem State.Canonical.tellDomain {s : State} (hs : s.Canonical) {t v} : (s.tellDomain t v).1.Canonical := by
  unfold State.tellDomain
  split
  · exact hs.onLaunch
  · extract_lets d1 u u1
    have h1 : u1.Canonical := ite hs.setDomain.wakeWhy hs.setDomain
    split
    exacts [h1.rootCommit, h1]

@[simp] theorem execTexit_canonical {s : State} (hs : s.Canonical) : ResCanonical (execTexit s) := by
  unfold execTexit
  refine hs.issue fun _ ht => ?_
  extract_lets creator
  refine .ite ht.trap (.ite ht.waitOn.next ?_)
  split
  · exact ht.makeIdle
  · exact ht.tellParent.onLaunch.makeIdle.tellDomain.settle

@[simp] theorem execYield_canonical {s : State} (hs : s.Canonical) : ResCanonical (execYield s) :=
  hs.issue fun _ ht => .ite ht.finish.preempt.next ht.finish.next

/-- The state in a value that a helper of an instruction gives, or the answer it ends in, is canonical. -/
def ExceptCanonical {α : Type} (f : α → State) : Except Res α → Prop
  | .ok a => (f a).Canonical
  | .error e => ResCanonical e

theorem ExceptCanonical.of_ok {α : Type} {f : α → State} {x : Except Res α} {a : α} (hx : ExceptCanonical f x) (h : x = .ok a) :
    (f a).Canonical := by
  subst h
  exact hx

theorem ExceptCanonical.of_error {α : Type} {f : α → State} {x : Except Res α} {e : Res} (hx : ExceptCanonical f x)
    (h : x = .error e) : ResCanonical e := by
  subst h
  exact hx

theorem State.Canonical.readWords {s : State} (hs : s.Canonical) {w va n} : ExceptCanonical (·.2) (s.readWords w va n) := by
  induction n generalizing s va with
  | zero => exact hs
  | succ n ih =>
    unfold State.readWords
    split
    · exact hs.trap
    · exact hs.trap
    · exact hs.trap
    · split
      · exact hs.waitOn
      · exact hs.consume
      · exact hs.lostAccess
      · next h =>
        have ht := hs.fillTlb.read h
        split
        · next he => exact (ih ht).of_error he
        · next r hr =>
          have hr : r.2.Canonical := (ih ht).of_ok hr
          exact hr

@[simp] theorem execLaunchd_canonical {s : State} (hs : s.Canonical) {d a} : ResCanonical (execLaunchd d a s) := by
  unfold execLaunchd
  extract_lets w
  refine hs.issue fun _ ht => ?_
  refine .ite ht.trap (.ite ht.waitOn ?_)
  split
  · next he => exact ht.readWords.of_error he
  · next b u hr =>
    have hu : u.Canonical := ht.readWords.of_ok hr
    exact .ite hu.finishLong hu.finishLong.acceptLaunch

@[simp] theorem execTself_canonical {s : State} (hs : s.Canonical) {d sel} : ResCanonical (execTself d sel s) :=
  hs.issue fun _ ht => ht.finishSet

/-! ### Weir -/

@[simp] theorem State.Canonical.onGroupDie {s : State} (hs : s.Canonical) {h d f} : (s.onGroupDie h d f).Canonical :=
  hs.onGroup

@[simp] theorem State.Canonical.clearGroup {s : State} (hs : s.Canonical) {h} : (s.clearGroup h).Canonical :=
  hs.of_mem rfl

@[simp] theorem State.Canonical.bindGroup {s : State} (hs : s.Canonical) {h} : (s.bindGroup h).Canonical :=
  hs.foldl fun _ _ ht => ht.of_mem

@[simp] theorem State.Canonical.poisonGroup {s : State} (hs : s.Canonical) {h tell} :
    (s.poisonGroup h tell).Canonical := by
  unfold State.poisonGroup
  split
  · exact hs
  · refine ite hs ?_
    extract_lets s1 s2 s3 s4
    have h3 : s3.Canonical := hs.onGroup.clearGroup.foldl fun _ _ ht => by
      extract_lets hit
      clear_value hit
      split
      exacts [ht.takeTrap, ht]
    have h4 : s4.Canonical := h3.foldl fun _ _ ht => ht.foldl fun _ _ hu => by
      split
      exacts [ite hu.faultProgram hu, hu]
    exact ite h4.post h4

@[simp] theorem State.Canonical.forwardPartial {s : State} (hs : s.Canonical) {d h} :
    (s.forwardPartial d h).Canonical := by
  unfold State.forwardPartial
  split
  · exact hs
  · split
    · exact hs
    · extract_lets near b s1 q s2
      have h1 : s1.Canonical := ite hs.bump.acked hs
      have h2 : s2.Canonical := h1.onGroupDie
      exact ite h2.onGroup h2.send

@[simp] theorem execWeirPartialForward_canonical {s : State} (hs : s.Canonical) {die handle} :
    ResCanonical (execWeirPartialForward die handle s) :=
  hs.forwardPartial

@[simp] theorem State.Canonical.sendRecords {s : State} (hs : s.Canonical) {h g recs} :
    (s.sendRecords h g recs).Canonical :=
  hs.foldl fun _ _ ht => ht.foldl fun _ _ hu => ite hu.onGroup hu.send

@[simp] theorem State.Canonical.arrivePartial {s : State} (hs : s.Canonical) {h g p} :
    (s.arrivePartial h g p).Canonical := by
  unfold State.arrivePartial
  extract_lets r s1 s2
  have h2 : s2.Canonical := hs.mergeV.onGroup.sendRecords
  exact ite h2.onGroupDie h2.send

@[simp] theorem State.Canonical.refuseColl {s : State} (hs : s.Canonical) {die h} : (s.refuseColl die h).Canonical :=
  hs.send.inject

@[simp] theorem execWeirPartialArrival_canonical {s : State} (hs : s.Canonical) {handle remote} :
    ResCanonical (execWeirPartialArrival handle remote s) := by
  unfold execWeirPartialArrival
  split
  · split
    exacts [hs.refuseColl, hs]
  · split
    · refine .ite hs ?_
      split
      exacts [hs, .ite hs hs.onGroup.arrivePartial]
    · exact .ite hs.refuseColl (.ite hs.arrivePartial hs.refuseColl)

@[simp] theorem State.Canonical.tellPoster {s : State} (hs : s.Canonical) {h d st landed p} :
    (s.tellPoster h d st landed p).Canonical := by
  unfold State.tellPoster
  split
  · split
    exacts [.ite hs (.ite hs.takeTrap hs.onCtx.wake), hs]
  · split
    exacts [.ite hs (.ite hs.faultProgram hs.onDie), hs]

@[simp] theorem State.Canonical.giveVerdict {s : State} (hs : s.Canonical) {h d p st landed} :
    (s.giveVerdict h d p st landed).Canonical :=
  hs.onGroupDie.foldl fun _ _ ht => ht.tellPoster

@[simp] theorem State.Canonical.rejectPartial {s : State} (hs : s.Canonical) {h d p} :
    (s.rejectPartial h d p).Canonical := by
  exact hs.onGroupDie.foldl fun _ _ ht => by
    split
    · split
      · exact ite ht.takeTrap ht
      · exact ht
    · exact ht.faultProgram

@[simp] theorem execWeirVerdict_canonical {s : State} (hs : s.Canonical) {c remote} :
    ResCanonical (execWeirVerdict c remote s) := by
  unfold execWeirVerdict
  split
  · exact hs
  · refine .ite ?_ ?_
    · split
      exacts [hs, hs.giveVerdict]
    · split
      · exact hs
      · exact .ite hs.giveVerdict (.ite hs.rejectPartial hs)

/-- The state a scoreboard entry leaves is canonical, where there is one. -/
def WeirSb.Canonical : WeirSb → Prop
  | .ok _ t => t.Canonical
  | .blocked t => t.Canonical
  | .full => True

theorem State.Canonical.weirSb {s : State} (hs : s.Canonical) {reads write} : (s.weirSb reads write).Canonical := by
  unfold State.weirSb
  split
  · split
    exacts [hs, hs]
  · split
    · trivial
    · dsimp only
      split
      exacts [hs.takeSb, hs.takeSb]

@[simp] theorem State.Canonical.weirWrite {s : State} (hs : s.Canonical) {c off b} :
    (s.weirWrite c off b).Canonical :=
  (hs.applyWrite.foldl fun _ _ ht => ht.setFull.wakeWhy).noteHarvest

@[simp] theorem State.Canonical.serveQwait {s : State} (hs : s.Canonical) {c n r w} :
    (s.serveQwait c n r w).Canonical :=
  ite hs.wake hs.weirWrite.mergeV.onCtx.wake

@[simp] theorem State.Canonical.takeRecord {s : State} (hs : s.Canonical) {h d r} :
    (s.takeRecord h d r).Canonical := by
  unfold State.takeRecord
  split
  · exact hs
  · refine ite hs ?_
    extract_lets s1
    have h1 : s1.Canonical := hs.onGroupDie
    exact h1.foldl fun _ _ ht => by
      split
      exacts [ite ht.serveQwait ht, ht]

@[simp] theorem execWeirRecordReceive_canonical {s : State} (hs : s.Canonical) {die handle tag remote} :
    ResCanonical (execWeirRecordReceive die handle tag remote s) := by
  unfold execWeirRecordReceive
  split
  · exact hs
  · refine .ite ?_ ?_
    · split
      exacts [hs, hs.onGroup.takeRecord]
    · split
      exacts [hs, .ite hs.takeRecord hs]

@[simp] theorem State.Canonical.runPost {s : State} (hs : s.Canonical) {h d} : (s.runPost h d).Canonical := by
  unfold State.runPost
  extract_lets s1
  have h1 : s1.Canonical := hs.forwardPartial
  split
  · exact h1
  · split
    · exact h1
    · refine ite h1 ?_
      extract_lets s2 s3 out
      have h2 : s2.Canonical := h1.onGroup.arrivePartial
      have h3 : s3.Canonical := by
        unfold s3
        split
        · split
          exacts [h2.giveVerdict, h2]
        · exact h2
      exact h3.onGroup.foldl fun _ _ ht => ht.takeRecord

@[simp] theorem State.Canonical.retireEnded {s : State} (hs : s.Canonical) : s.retireEnded.Canonical :=
  .ite hs.of_mem hs

@[simp] theorem execQpost_canonical {s : State} (hs : s.Canonical) {d a} : ResCanonical (execQpost d a s) := by
  unfold execQpost
  extract_lets w bad
  refine hs.issue fun _ ht => ?_
  extract_lets va
  have hbad : ∀ {u : State} {c v}, u.Canonical → ResCanonical (bad u c v) := fun hu => hu.dropLoose.trap
  clear_value bad
  refine .ite (hbad ht) ?_
  split
  · next he => exact ht.readWords.of_error he
  · next b u hr =>
    have hu : u.Canonical := ht.readWords.of_ok hr
    extract_lets h tag src w2 rank die v off loc
    split
    · exact hbad hu
    · extract_lets size n gd data
      refine .ite (hbad hu) (.ite (hbad hu) ?_)
      split
      · exact hbad hu
      · refine .ite (hbad hu) ?_
        split
        · exact hu.dropLoose.finishLong
        · have hw := hu.weirSb (reads := [sbRange off n]) (write := none)
          split
          · exact hu.waitOn
          · next hv => rw [hv] at hw; exact hw.waitOn
          · next hv =>
            rw [hv] at hw
            extract_lets y p
            have hy : y.Canonical := hw.freeSb
            have hp : p.Canonical := hy.onGroupDie.waitOn
            split
            · exact hy.consume
            · exact .ite hp.replan.next (.ite hp.replan.runPost.retireEnded.next hp.replan.forwardPartial.next)

@[simp] theorem execQwait_canonical {s : State} (hs : s.Canonical) {d a b} : ResCanonical (execQwait d a b s) := by
  unfold execQwait
  extract_lets w bad
  refine hs.issue fun _ ht => ?_
  extract_lets h tag dst die off
  have hbad : ∀ {u : State} {c v x}, u.Canonical → ResCanonical (bad u c v x) := fun hu => hu.dropLoose.trap
  clear_value bad
  split
  · exact hbad ht
  · extract_lets n recs
    refine .ite (hbad ht) ?_
    split
    · exact hbad ht
    · refine .ite (hbad ht) (.ite (hbad ht) ?_)
      split
      · exact ht.waitOn
      · have hw := ht.weirSb (reads := []) (write := some (sbRange off n))
        split
        · exact ht.waitOn
        · next hv => rw [hv] at hw; exact hw.waitOn
        · next hv => rw [hv] at hw; exact hw.weirWrite.freeSb.mergeV.finishLong

@[simp] theorem State.Canonical.resynced {s : State} (hs : s.Canonical) {c h rank d o} :
    (s.resynced c h rank d o).Canonical :=
  hs.onGroupDie.onCtx.wake

@[simp] theorem execQresync_canonical {s : State} (hs : s.Canonical) {d a b} :
    ResCanonical (execQresync d a b s) := by
  unfold execQresync
  extract_lets w
  refine hs.issue fun _ ht => ?_
  extract_lets h rank
  split
  · exact ht.trap
  · exact .ite ht.trap (.ite ht.replan.onGroupDie.finishSet ht.replan.waitOn.next)

@[simp] theorem execQstat_canonical {s : State} (hs : s.Canonical) {d a sel} :
    ResCanonical (execQstat d a sel s) := by
  unfold execQstat
  extract_lets w
  refine hs.issue fun _ ht => ?_
  extract_lets h
  split
  exacts [ht.trap, ht.finishSet]

/-! ### Causal -/

@[simp] theorem State.Canonical.wakeCausal {s : State} (hs : s.Canonical) : s.wakeCausal.Canonical := hs.wakeAll

@[simp] theorem State.Canonical.liftV {s : State} (hs : s.Canonical) {die} : (s.liftV die).Canonical := hs.onDie

@[simp] theorem execCompletionAnnouncementTimer_canonical {s : State} (hs : s.Canonical) {die} :
    ResCanonical (execCompletionAnnouncementTimer die s) := by
  unfold execCompletionAnnouncementTimer
  extract_lets d t s1
  have h1 : s1.Canonical := hs.onDie.liftV
  exact .ite hs (h1.foldl fun _ _ hu => .ite hu hu.onDie)

@[simp] theorem execCompletionAnnouncement_canonical {s : State} (hs : s.Canonical) {die p} :
    ResCanonical (execCompletionAnnouncement die p s) :=
  .ite hs (.ite hs.tellFault.next hs.onDie.retireYoung.liftV.wakeCausal.next)

@[simp] theorem State.Canonical.markPerformed {s : State} (hs : s.Canonical) {id} : (s.markPerformed id).Canonical :=
  hs.of_mem rfl

@[simp] theorem execCausalWritePerform_canonical {s : State} (hs : s.Canonical) {id} :
    ResCanonical (execCausalWritePerform id s) := by
  unfold execCausalWritePerform
  split
  exacts [hs, .ite hs hs.performNet.markPerformed]

@[simp] theorem execStoreAck_canonical {s : State} (hs : s.Canonical) {id} : ResCanonical (execStoreAck id s) := by
  unfold execStoreAck
  split
  · exact hs
  · exact .ite hs.ackNet.wakeCausal.next (.ite hs hs.performNet.ackNet.wakeCausal.next)

@[simp] theorem execRdcStampAgeDrop_canonical {s : State} (hs : s.Canonical) {die line} :
    ResCanonical (execRdcStampAgeDrop die line s) :=
  hs.onDie

@[simp] theorem execHoldViolationRemote_canonical {s : State} (hs : s.Canonical) {c va} :
    ResCanonical (execHoldViolationRemote c va s) := by
  unfold execHoldViolationRemote
  dsimp only
  (repeat' split) <;> simp [hs]

@[simp] theorem State.Canonical.waitHome {s : State} (hs : s.Canonical) {i} : (s.waitHome i).Canonical :=
  .ite hs hs.of_mem

@[simp] theorem State.Canonical.endWait {s : State} (hs : s.Canonical) {i} : (s.endWait i).Canonical :=
  hs.of_mem rfl

@[simp] theorem State.Canonical.homeAnswer {s : State} (hs : s.Canonical) {h p r v} :
    (s.homeAnswer h p r v).Canonical := by
  unfold State.homeAnswer
  split
  exacts [hs.mergeV.inject, hs.inject]

@[simp] theorem State.Canonical.homeMeets {s : State} (hs : s.Canonical) {i p parts formOk write cv go}
    (hgo : ∀ h t, t.Canonical → ResCanonical (go h t)) : ResCanonical (s.homeMeets i p parts formOk write cv go) := by
  unfold State.homeMeets
  dsimp only
  split
  · exact hs.endWait.answerUnmapped
  · exact .ite hs.endWait.answerUnmapped (.ite hs.endWait.homeAnswer (.ite hs.waitHome (hgo _ _ hs.endWait)))

@[simp] theorem State.Canonical.writeFrom {s : State} (hs : s.Canonical) {h p} : (s.writeFrom h p).2.Canonical := by
  unfold State.writeFrom
  split <;> simp [hs]

@[simp] theorem State.Canonical.ackFrom {s : State} (hs : s.Canonical) {x1} : (s.ackFrom x1).Canonical := by
  unfold State.ackFrom
  split <;> simp [hs]

@[simp] theorem State.Canonical.refuseHome {s : State} (hs : s.Canonical) {p} : (s.refuseHome p).Canonical :=
  hs.send

@[simp] theorem execHomeAtomic_canonical {s : State} (hs : s.Canonical) {cv p} :
    ResCanonical (execHomeAtomic cv p s) := by
  unfold execHomeAtomic
  extract_lets n mask loc op slice
  refine hs.homeMeets fun h _ ht => ?_
  extract_lets mix fv old new b v s1 s2 num s3
  have hb : b.2.Canonical := State.Canonical.writeFrom (.ite ht.free ht)
  have h1 : s1.Canonical := hb.sliceRead
  have h2 : s2.Canonical := by
    unfold s2
    clear_value new
    split
    exacts [h1.applyWrite, h1]
  have h3 : s3.Canonical := h2.noteStrong
  exact .ite ht.refuseHome.next (.ite ht.send.next (.ite ht.send.next h3.ackFrom.homeAnswer.next))

@[simp] theorem execHomeCntdec_canonical {s : State} (hs : s.Canonical) {cv p} :
    ResCanonical (execHomeCntdec cv p s) := by
  unfold execHomeCntdec
  extract_lets loc ack formOk arrival pending
  refine hs.homeMeets fun h _ ht => ?_
  extract_lets v u b vec
  exact .ite ht.refuseHome.next (.ite ht.send.next (.ite ht.homeAnswer.next (.ite ht.homeAnswer.next
    ht.writeFrom.setCounter.ackFrom.settle.homeAnswer.next)))

@[simp] theorem execHomeWrite_canonical {s : State} (hs : s.Canonical) {cv p} :
    ResCanonical (execHomeWrite cv p s) := by
  unfold execHomeWrite
  extract_lets l slice
  refine hs.homeMeets fun h _ ht => ?_
  extract_lets b
  have hb : b.2.Canonical := ht.writeFrom
  exact .ite ht.refuseHome.next (State.Canonical.next (hb.foldl fun _ _ hu => hu.applyWrite).ackFrom.homeAnswer)

@[simp] theorem State.Canonical.homeRead {s : State} (hs : s.Canonical) {cv p} : ResCanonical (s.homeRead cv p) := by
  unfold State.homeRead
  extract_lets m line secs
  refine hs.homeMeets fun h t ht => ?_
  have h1 : (secs.foldl (fun t i => t.sliceRead h (Packet.atSlice p) (line * 512 + 128 * i) 128 0) (t.retireYoung h)).Canonical :=
    ht.retireYoung.foldl fun _ i hu => hu.sliceRead
  exact (State.Canonical.ite h1.onDie h1).homeAnswer

@[simp] theorem execCrossDieReadPerform_canonical {s : State} (hs : s.Canonical) {r} :
    ResCanonical (execCrossDieReadPerform r s) := by
  unfold execCrossDieReadPerform
  split <;> simp [hs]

@[simp] theorem State.Canonical.completeOp {s : State} (hs : s.Canonical) {c} : (s.completeOp c).Canonical := by
  unfold State.completeOp
  split
  exacts [.ite hs.onCtx.wake hs, hs]

@[simp] theorem execLoadDataReturn_canonical {s : State} (hs : s.Canonical) {c} :
    ResCanonical (execLoadDataReturn c s) :=
  hs.completeOp

@[simp] theorem execLongOpComplete_canonical {s : State} (hs : s.Canonical) {c answer} :
    ResCanonical (execLongOpComplete c answer s) := by
  unfold execLongOpComplete
  split
  · split
    · exact hs
    · split
      exacts [hs.resynced, hs]
  · exact hs.completeOp

/-! ### Power -/

@[simp] theorem State.Canonical.clearRouters {s : State} (hs : s.Canonical) : s.clearRouters.Canonical :=
  hs.foldl fun _ _ ht => ht.setRouters

@[simp] theorem State.Canonical.startReset {s : State} (hs : s.Canonical) : s.startReset.Canonical := by
  simp [State.startReset, hs]

@[simp] theorem execColdReset_canonical {s : State} (hs : s.Canonical) : ResCanonical (execColdReset s) :=
  hs.startReset

@[simp] theorem execWarmPackageReset_canonical {s : State} (hs : s.Canonical) : ResCanonical (execWarmPackageReset s) := by
  simp [execWarmPackageReset, hs]

@[simp] theorem State.Canonical.extendMeas {s : State} (hs : s.Canonical) {x i h} : (s.extendMeas x i h).Canonical :=
  hs.of_mem rfl

@[simp] theorem State.Canonical.bootOne {s : State} (hs : s.Canonical) {x l} : (s.bootOne x l).Canonical := by
  simp +contextual [State.bootOne, hs]

@[simp] theorem State.Canonical.bootImages {s : State} (hs : s.Canonical) : s.bootImages.Canonical :=
  .ite hs.of_mem ((hs.foldl fun _ _ hu => hu.bootOne).of_mem)

@[simp] theorem State.Canonical.bootCompare {s : State} (hs : s.Canonical) : s.bootCompare.Canonical :=
  hs.of_mem rfl

@[simp] theorem State.Canonical.measureMaps {s : State} (hs : s.Canonical) : s.measureMaps.Canonical :=
  hs.foldl fun _ _ ht => ht.extendMeas

@[simp] theorem State.Canonical.trainPorts {s : State} (hs : s.Canonical) : s.trainPorts.Canonical :=
  hs.foldl fun _ _ ht => ht.onPort

@[simp] theorem State.Canonical.bootBind {s : State} (hs : s.Canonical) {r} : (s.bootBind r).Canonical := by
  unfold State.bootBind
  extract_lets p s1 dies stks p1 id bound s2 s3 s4 spares s5 s6 p2 s7 s8
  have h1 : s1.Canonical := hs.of_mem
  have h4 : s4.Canonical := (h1.setRouters.foldl fun _ _ ht => ht.setRouters).foldl fun _ _ ht => ht.setRouters.onStack
  have h6 : s6.Canonical := (h4.foldl fun _ h ht => ht.onStack).foldl fun _ _ ht => ht.onPDie
  have h7 : s7.Canonical := h6.of_mem
  have h8 : s8.Canonical := h7.trainPorts
  refine ite ?_ (ite (h8.foldl fun _ _ ht => ht.send) h8.measureMaps)
  refine trainPorts ?_
  exact h1.of_mem

@[simp] theorem State.Canonical.scrub {s : State} (hs : s.Canonical) : s.scrub.Canonical := by
  simp [State.scrub, hs]

@[simp] theorem State.Canonical.startFirmware {s : State} (hs : s.Canonical) {r} : (s.startFirmware r).Canonical := by
  unfold State.startFirmware
  extract_lets s1
  have h1 : s1.Canonical := hs.foldl fun _ _ ht => ht.foldl fun _ _ hu => hu.onCtx
  exact h1.of_mem

@[simp] theorem execResetSequenceStepDone_canonical {s : State} (hs : s.Canonical) {r} :
    ResCanonical (execResetSequenceStepDone r s) := by
  unfold execResetSequenceStepDone
  refine .ite hs ?_
  split
  exacts [hs.of_mem, hs.bootImages, hs.bootCompare, hs.of_mem, hs.bootBind, hs.of_mem, hs.scrub.of_mem, hs.startFirmware, hs.of_mem, hs]

@[simp] theorem execSecurityVersionAdvance_canonical {s : State} (hs : s.Canonical) {version} :
    ResCanonical (execSecurityVersionAdvance version s) := by
  simp [execSecurityVersionAdvance, hs]

@[simp] theorem execThermalSensorSample_canonical {s : State} (hs : s.Canonical) {stack unit milliC} :
    ResCanonical (execThermalSensorSample stack unit milliC s) := by
  unfold execThermalSensorSample
  extract_lets t p was p1 s1 duty s2 s3
  have ht : t.Canonical := State.Canonical.ite hs hs.tellFault.lasting
  have h1 : s1.Canonical := hs.of_mem
  have h2 : s2.Canonical := h1.onDie
  have h3 : s3.Canonical := .ite h2.postAll h2
  exact .ite (State.Canonical.next ht.of_mem) (.ite hs.next (State.Canonical.next (.ite h3.faultEvent h3)))

@[simp] theorem execPowerWindowCheck_canonical {s : State} (hs : s.Canonical) {watts hottest} :
    ResCanonical (execPowerWindowCheck watts hottest s) :=
  hs.foldl fun _ _ ht => ht.onDie

@[simp] theorem execAvsRateCheck_canonical {s : State} (hs : s.Canonical) {die} :
    ResCanonical (execAvsRateCheck die s) := by
  simp [execAvsRateCheck, hs]

@[simp] theorem execGuestTimebaseCorrection_canonical {s : State} (hs : s.Canonical) {pdie owning} :
    ResCanonical (execGuestTimebaseCorrection pdie owning s) :=
  .ite hs.onDie hs

@[simp] theorem execRegisterWrite_canonical {s : State} (hs : s.Canonical) {r} :
    ResCanonical (execRegisterWrite r s) := by
  unfold execRegisterWrite
  split <;> simp +contextual [hs]

/-! ### Recovery -/

@[simp] theorem State.Canonical.poisonUnit {s : State} (hs : s.Canonical) {u loc} :
    (s.poisonUnit u loc).Canonical := by
  unfold State.poisonUnit
  split
  · refine .ite (.ite hs.setPoison hs) ?_
    split
    exacts [.ite hs.poisonCached hs, hs]
  · exact hs.of_mem
  · exact .ite hs.poisonGranule hs
  · exact hs

@[simp] theorem execFaultEvent_canonical {s : State} (hs : s.Canonical) {u kind loc} :
    ResCanonical (execFaultEvent u kind loc s) := by
  unfold execFaultEvent
  split <;> simp [hs]

@[simp] theorem execProbeTimeout_canonical {s : State} (hs : s.Canonical) {u} : ResCanonical (execProbeTimeout u s) :=
  hs.faultEvent

@[simp] theorem State.Canonical.dropOp {s : State} (hs : s.Canonical) {c} : (s.dropOp c).Canonical :=
  hs.onCore.wakeWhy

@[simp] theorem execTimingDetectorReplay_canonical {s : State} (hs : s.Canonical) {c again} :
    ResCanonical (execTimingDetectorReplay c again s) := by
  unfold execTimingDetectorReplay
  extract_lets s1 u s2 x s3
  have h1 : s1.Canonical := hs.onDie
  have h2 : s2.Canonical := h1.faultEvent
  have h3 : s3.Canonical := State.Canonical.ite h2.dropOp h2
  exact .ite h1.tellFault.next (.ite h2.next (.ite h3.domainFault.next h3.leaveWaits.takeTrap.next))

@[simp] theorem State.Canonical.onProposal {s : State} (hs : s.Canonical) {u f} : (s.onProposal u f).Canonical :=
  hs.of_mem rfl

@[simp] theorem State.Canonical.endProposal {s : State} (hs : s.Canonical) {u} : (s.endProposal u).Canonical :=
  hs.of_mem rfl

@[simp] theorem State.Canonical.unfence {s : State} (hs : s.Canonical) {u} : (s.unfence u).Canonical :=
  hs.of_mem.unpark.wakeAll

@[simp] theorem State.Canonical.record {s : State} (hs : s.Canonical) {u} : (s.record u).Canonical := by
  simp [State.record, hs]

@[simp] theorem State.Canonical.commitRetirement {s : State} (hs : s.Canonical) {u} :
    (s.commitRetirement u).Canonical := by
  unfold State.commitRetirement
  extract_lets t p
  have ht : t.Canonical := hs.endProposal.record.tellSups
  clear_value t
  split
  · exact ht.onStack
  · extract_lets v
    have hv : v.Canonical := ht.of_mem
    exact ite hv.failover hv
  · exact ite ht.failover ht
  · exact ite ht.send ht
  · exact ht

@[simp] theorem State.Canonical.keepUnit {s : State} (hs : s.Canonical) {u vote} : (s.keepUnit u vote).Canonical := by
  unfold State.keepUnit
  extract_lets s1
  have h1 : s1.Canonical := hs.endProposal.foldl fun _ _ ht => ht.setCount
  exact ite h1.unfence h1

@[simp] theorem State.Canonical.peerBallot {s : State} (hs : s.Canonical) {u} : (s.peerBallot u).Canonical := by
  unfold State.peerBallot
  split <;> simp +contextual [hs]

@[simp] theorem execRetirementProposal_canonical {s : State} (hs : s.Canonical) {u silent proposer answers} :
    ResCanonical (execRetirementProposal u silent proposer answers s) := by
  unfold execRetirementProposal
  dsimp only
  split
  exacts [hs.propose, .ite hs.propose (.ite hs.propose.peerBallot (.ite hs.propose
    (.ite hs.propose.onProposal.commitRetirement hs.propose.onProposal.peerBallot)))]

@[simp] theorem execVoteAnswerTimeout_canonical {s : State} (hs : s.Canonical) {u} :
    ResCanonical (execVoteAnswerTimeout u s) := by
  unfold execVoteAnswerTimeout
  split
  exacts [.ite hs hs.peerBallot, hs]

@[simp] theorem execPeerVote_canonical {s : State} (hs : s.Canonical) {b} : ResCanonical (execPeerVote b s) := by
  unfold execPeerVote
  dsimp only
  (repeat' split) <;> simp [hs]

@[simp] theorem execPeerVoteTimeout_canonical {s : State} (hs : s.Canonical) {u first} :
    ResCanonical (execPeerVoteTimeout u first s) := by
  unfold execPeerVoteTimeout
  split <;> simp [hs]

@[simp] theorem State.Canonical.loseTenant {s : State} (hs : s.Canonical) {tn hit} :
    (s.loseTenant tn hit).Canonical := by
  unfold State.loseTenant
  split
  · exact hs
  · extract_lets pages recs s1 r
    have h1 : s1.Canonical := hs.onTenant
    have hr : r.2.Canonical := List.foldlRecOn (motive := fun q : Option Nat × State => q.2.Canonical) _ _ h1 fun q hq _ _ => hq.trapArea
    exact ite hs hr.post

@[simp] theorem State.Canonical.loseData {s : State} (hs : s.Canonical) {hit} : (s.loseData hit).Canonical :=
  hs.foldl fun _ _ ht => ht.loseTenant

@[simp] theorem State.Canonical.loseWork {s : State} (hs : s.Canonical) {die lost whole} :
    (s.loseWork die lost whole).Canonical := by
  unfold State.loseWork
  extract_lets on inBasin ctxs mine queued inner doms ordered gone owed c0 s1 s2 s3 s4 s5 s6 left
  have h1 : s1.Canonical := hs.dropEngine.stopCopies.settle
  clear_value s1
  have h2 : s2.Canonical := h1.of_mem_filter
  clear_value s2
  have h4 : s4.Canonical := h2.onDie.foldl fun _ _ ht => ht.domainFault
  have h6 : s6.Canonical := (h4.foldl fun _ _ ht => ht.domainFault).foldl fun _ _ ht => ht.failLaunch
  exact h6.foldl fun _ _ ht => ht.makeIdle

@[simp] theorem State.Canonical.setCore {s : State} (hs : s.Canonical) {die core spare} :
    (s.setCore die core spare).Canonical :=
  hs.onPDie

@[simp] theorem execGracefulCoreRetirement_canonical {s : State} (hs : s.Canonical) {die core spare} :
    ResCanonical (execGracefulCoreRetirement die core spare s) :=
  .ite hs hs.l2Drain.setCore

@[simp] theorem execAbruptCoreRetirement_canonical {s : State} (hs : s.Canonical) {die core spare} :
    ResCanonical (execAbruptCoreRetirement die core spare s) :=
  .ite hs hs.setCore.loseWork.loseData.l2Lose.unfence.next

@[simp] theorem State.Canonical.loseStack {s : State} (hs : s.Canonical) {m} : (s.loseStack m).Canonical := by
  simp [State.loseStack, hs]

@[simp] theorem State.Canonical.losePackage {s : State} (hs : s.Canonical) : s.losePackage.Canonical := by
  unfold State.losePackage
  extract_lets src t
  have ht : t.Canonical := hs.of_mem
  exact ht.send.postAll.foldl fun _ _ hu => hu.failLaunch

@[simp] theorem State.Canonical.resendStack {s : State} (hs : s.Canonical) {l} : (s.resendStack l).Canonical :=
  foldl hs.of_mem fun _ _ ht => ht.enterNode

@[simp] theorem State.Canonical.moveStack {s : State} (hs : s.Canonical) {m h spare} :
    (s.moveStack m h spare).Canonical := by
  unfold State.moveStack
  extract_lets held s1 src s2
  have h1 : s1.Canonical := hs.onStack.onStack
  have h2 : s2.Canonical := h1.of_mem
  exact h2.loseStack.loseData.unfence

@[simp] theorem execStackRetirement_canonical {s : State} (hs : s.Canonical) {stack spare answers} :
    ResCanonical (execStackRetirement stack spare answers s) := by
  unfold execStackRetirement
  extract_lets h e m s1 s2 s3 t1 off
  have h2 : s2.Canonical := hs.onStack.foldl fun _ _ ht => ht.ocWriteBack
  have h3 : s3.Canonical := h2.changeStacks
  have ht1 : t1.Canonical := hs.foldl fun _ _ ht => ht.ocDiscard
  exact .ite hs (.ite (State.Canonical.next (.ite hs hs.losePackage)) (.ite hs
    (.ite (State.Canonical.next (.ite h3.moveStack h3)) ht1.writeMaps.moveStack.resendStack.next)))

@[simp] theorem State.Canonical.markRebuilt {s : State} (hs : s.Canonical) {h m k} :
    (s.markRebuilt h m k).Canonical :=
  hs.onStack

@[simp] theorem State.Canonical.takeDelta {s : State} (hs : s.Canonical) {group p} :
    (s.takeDelta group p).Canonical := by
  unfold State.takeDelta
  split
  · exact hs
  · split
    · extract_lets t
      have ht : t.Canonical := hs.foldl fun _ _ hu => hu.onStack.dramWrite
      exact ht.inject
    · exact hs

@[simp] theorem State.Canonical.drainParity {s : State} (hs : s.Canonical) : s.drainParity.Canonical := by
  simp +contextual [State.drainParity, hs]

@[simp] theorem execStackRebuildSector_canonical {s : State} (hs : s.Canonical) {sector reads} :
    ResCanonical (execStackRebuildSector sector reads s) := by
  unfold execStackRebuildSector
  extract_lets loc q
  split
  · exact hs
  · split
    · exact hs
    · refine .ite hs (.ite (State.Canonical.next hs.of_mem) ?_)
      refine State.Canonical.next (State.Canonical.drainParity ?_)
      exact hs.of_mem
    · refine .ite hs ?_
      extract_lets t u
      have ht : t.Canonical := hs.markRebuilt
      have hu : u.Canonical := by
        unfold u
        split
        · exact ht.onStack.dramWrite
        · exact (ht.foldl fun _ _ hv => hv.poisonGranule).foldl fun _ _ hv => hv.post
      exact hu.wakeWhy

@[simp] theorem execStackRebuildDone_canonical {s : State} (hs : s.Canonical) {stack} :
    ResCanonical (execStackRebuildDone stack s) := by
  unfold execStackRebuildDone
  split
  exacts [hs, .ite hs (hs.onStack.foldl fun _ _ ht => ht.post)]

@[simp] theorem State.Canonical.poisonMembers {s : State} (hs : s.Canonical) {p} : (s.poisonMembers p).Canonical := by
  refine hs.foldl (fun _ _ ht => ?_)
  split <;> simp [ht]

@[simp] theorem State.Canonical.finishChange {s : State} (hs : s.Canonical) {m} : (s.finishChange m).Canonical := by
  unfold State.finishChange
  split
  · exact hs.endChange
  · extract_lets u who f t t1 t2 v t3
    have ht : t.Canonical := by
      refine endChange ?_
      exact hs.of_mem
    have h2 : t2.Canonical := by
      unfold t2
      clear_value u
      split
      exacts [ht.onDie.onPDie, ht.onDie]
    have h3 : t3.Canonical := ite h2 h2.loseWork.loseData.l2Lose.poisonMembers
    exact h3.unfence.foldl fun v _ hv => hv.post

@[simp] theorem execDieMapChange_canonical {s : State} (hs : s.Canonical) {m readbackOk} :
    ResCanonical (execDieMapChange m readbackOk s) := by
  unfold execDieMapChange
  dsimp only
  (repeat' split) <;> simp [hs]

@[simp] theorem State.Canonical.replaceDie {s : State} (hs : s.Canonical) {die entry answers} :
    ResCanonical (s.replaceDie die entry answers) := by
  simp [State.replaceDie, hs]

@[simp] theorem execDieSubstitutionLocal_canonical {s : State} (hs : s.Canonical) {die spare answers selfTestOk} :
    ResCanonical (execDieSubstitutionLocal die spare answers selfTestOk s) :=
  .ite hs (.ite hs.of_mem.onPDie.faultEvent hs.of_mem.onPDie.replaceDie)

@[simp] theorem execDieSubstitutionRemote_canonical {s : State} (hs : s.Canonical) {die pkg pdie selfTestOk} :
    ResCanonical (execDieSubstitutionRemote die pkg pdie selfTestOk s) := by
  unfold execDieSubstitutionRemote
  extract_lets entry all t p answers
  have ht : t.Canonical := hs.setRouters.bumpMapgen
  refine .ite hs (.ite (.ite hs ?_) (.ite hs hs.replaceDie))
  exact State.Canonical.next (.ite ht.measureMaps.of_mem ht)

@[simp] theorem execHeartbeatTimer_canonical {s : State} (hs : s.Canonical) : ResCanonical (execHeartbeatTimer s) :=
  hs.send

@[simp] theorem execHeartbeatMiss_canonical {s : State} (hs : s.Canonical) {pkg missed} :
    ResCanonical (execHeartbeatMiss pkg missed s) := by
  simp [execHeartbeatMiss, hs]

@[simp] theorem State.Canonical.loseForeign {s : State} (hs : s.Canonical) {pkg lostGroups} :
    (s.loseForeign pkg lostGroups).Canonical := by
  simp [State.loseForeign, hs]

@[simp] theorem State.Canonical.dropPackage {s : State} (hs : s.Canonical) {pkg} : (s.dropPackage pkg).Canonical := by
  unfold State.dropPackage
  extract_lets r f s1 lostGroups mapping tray s2 f2 s3 s4
  have h1 : s1.Canonical := hs.of_mem
  have h2 : s2.Canonical := h1.loseForeign
  have h3 : s3.Canonical := h2.of_mem
  exact (State.Canonical.foldl h3.reroute fun _ _ ht => ht.post).poisonMembers.foldl fun _ _ ht => ht.post

@[simp] theorem execPackageLoss_canonical {s : State} (hs : s.Canonical) {pkg a b} :
    ResCanonical (execPackageLoss pkg a b s) := by
  unfold execPackageLoss
  extract_lets r t
  have ht : t.Canonical := hs.dropPackage
  refine .ite (State.Canonical.next hs.of_mem) (.ite hs (.ite hs.losePackage.next (.ite ?_ ht)))
  exact execDieMapChange_canonical (ht.foldl fun _ _ hu => hu.onStack)

@[simp] theorem execStitchDeltaReceive_canonical {s : State} (hs : s.Canonical) {group p} :
    ResCanonical (execStitchDeltaReceive group p s) :=
  .ite hs (.ite hs.of_mem hs.takeDelta)

@[simp] theorem State.Canonical.sendDelta {s : State} (hs : s.Canonical) {die core slot d to_} :
    (s.sendDelta die core slot d to_).Canonical :=
  hs.foldl fun _ _ ht => ht.inject

@[simp] theorem State.Canonical.creditDelta {s : State} (hs : s.Canonical) {d} : (s.creditDelta d).Canonical := by
  unfold State.creditDelta
  extract_lets s1 s2 r
  have h1 : s1.Canonical := hs.send
  have h2 : s2.Canonical := h1.onDomain
  exact ite h1.settle (ite h2.wakeWhy.rootCommit.settle h2)

@[simp] theorem execStitchUnitDelta_canonical {s : State} (hs : s.Canonical) {die core line mask delta group dom} :
    ResCanonical (execStitchUnitDelta die core line mask delta group dom s) := by
  unfold execStitchUnitDelta
  extract_lets q l d t
  have ht : t.Canonical := hs.onDie
  refine .ite hs (.ite ht.creditDelta.next ?_)
  split
  exacts [hs, ht.onCore.sendDelta]

@[simp] theorem execStitchAckReceive_canonical {s : State} (hs : s.Canonical) {die core slot holder} :
    ResCanonical (execStitchAckReceive die core slot holder s) := by
  unfold execStitchAckReceive
  split <;> simp [hs]

@[simp] theorem execStitchResendTimeout_canonical {s : State} (hs : s.Canonical) {die core slot} :
    ResCanonical (execStitchResendTimeout die core slot s) := by
  unfold execStitchResendTimeout
  extract_lets put
  have hput : ∀ {v}, (put v).Canonical := fun {_} => hs.onCore
  clear_value put
  split
  · exact hs
  · exact .ite hput.sendDelta.next
      (State.Canonical.next (State.Canonical.domainFault (hput.onDomain.foldl fun _ _ ht => ht.portDown.portDown)))

/-! ### Scp -/

@[simp] theorem State.Canonical.greetHost {s : State} (hs : s.Canonical) {hello pub secret shared} :
    (s.greetHost hello pub secret shared).Canonical := by
  simp [State.greetHost, hs]

@[simp] theorem State.Canonical.refuseHello {s : State} (hs : s.Canonical) : s.refuseHello.Canonical :=
  hs.free.free.send

@[simp] theorem execScpHello_canonical {s : State} (hs : s.Canonical) {d} : ResCanonical (execScpHello d s) := by
  unfold execScpHello
  split
  · exact hs
  · dsimp only
    refine .ite hs ?_
    refine .ite hs.refuseHello ?_
    split
    exacts [hs.greetHost, hs]

@[simp] theorem State.Canonical.received {s : State} (hs : s.Canonical) {h} : (s.received h).Canonical := by
  unfold State.received
  extract_lets t
  have ht : t.Canonical := hs.onSession
  exact ite ht.emit.endSession ht

@[simp] theorem execScpAuth_canonical {s : State} (hs : s.Canonical) {d} : ResCanonical (execScpAuth d s) := by
  unfold execScpAuth
  split
  · exact hs
  · split
    · exact hs
    · refine .ite hs ?_
      refine .ite hs.onSession ?_
      split
      exacts [hs.of_mem.onSession, hs.emit.of_mem]

@[simp] theorem execScpAck_canonical {s : State} (hs : s.Canonical) {d} : ResCanonical (execScpAck d s) := by
  unfold execScpAck
  split
  · exact hs
  · refine .ite hs ?_
    split
    exacts [hs, hs.received]

@[simp] theorem execScpBye_canonical {s : State} (hs : s.Canonical) {d} : ResCanonical (execScpBye d s) := by
  unfold execScpBye
  split
  · exact hs
  · split
    exacts [hs, hs.endSession]

@[simp] theorem execScpAckTimer_canonical {s : State} (hs : s.Canonical) {session} :
    ResCanonical (execScpAckTimer session s) := by
  unfold execScpAckTimer
  split
  exacts [hs, .ite hs.sendOn hs]

@[simp] theorem execScpResendTimer_canonical {s : State} (hs : s.Canonical) {session seq} :
    ResCanonical (execScpResendTimer session seq s) := by
  unfold execScpResendTimer
  split
  exacts [hs, .ite hs (.ite hs.endSession hs.send.onSession)]

@[simp] theorem execScpIdleTimeout_canonical {s : State} (hs : s.Canonical) {session} :
    ResCanonical (execScpIdleTimeout session s) := by
  unfold execScpIdleTimeout
  split
  exacts [hs, .ite hs.endSession hs]

@[simp] theorem State.Canonical.enterCmd {s : State} (hs : s.Canonical) {h op cmd} :
    (s.enterCmd h op cmd).Canonical := by
  unfold State.enterCmd
  refine .ite hs.answer ?_
  split
  · exact hs.answer
  · refine .ite hs.answer ?_
    refine .ite hs.of_mem.wakeSups ?_
    split
    exacts [hs.answer, .ite hs.answer (.ite hs.answer (.ite hs.answer hs.onTenant.wakeSups))]

@[simp] theorem execScpCommandReceive_canonical {s : State} (hs : s.Canonical) {d} :
    ResCanonical (execScpCommandReceive d s) := by
  unfold execScpCommandReceive
  split
  · exact hs
  · refine .ite hs ?_
    split
    · exact hs
    · refine .ite hs ?_
      dsimp only
      refine .ite hs.received ?_
      refine .ite ?_ hs.received.enterCmd
      split
      exacts [hs.received.send, hs.received]

@[simp] theorem State.Canonical.keepCmd {s : State} (hs : s.Canonical) {h c} : (s.keepCmd h c).Canonical :=
  .ite hs hs.of_mem

@[simp] theorem execPortFailover_canonical {s : State} (hs : s.Canonical) : ResCanonical (execPortFailover s) := by
  simp [execPortFailover, hs]

@[simp] theorem execHostLinkDownTimeout_canonical {s : State} (hs : s.Canonical) {probeOk} :
    ResCanonical (execHostLinkDownTimeout probeOk s) := by
  simp [execHostLinkDownTimeout, hs]

@[simp] theorem execEventDelayExpiry_canonical {s : State} (hs : s.Canonical) {tenant} :
    ResCanonical (execEventDelayExpiry tenant s) :=
  hs.sendDue

/-! ### Commands -/

@[simp] theorem State.Canonical.hostWrite {s : State} (hs : s.Canonical) {tn loc b} :
    (s.hostWrite tn loc b).Canonical := by
  unfold State.hostWrite
  dsimp only
  split
  exacts [.ite hs.applyWrite hs.applyWrite.onTenant, hs.applyWrite]

@[simp] theorem State.Canonical.zeroRange {s : State} (hs : s.Canonical) {tn loc n} :
    (s.zeroRange tn loc n).Canonical := by
  unfold State.zeroRange
  extract_lets keep s1 lines s2 s3
  have h1 : s1.Canonical := hs.filter_mem
  have h2 : s2.Canonical := h1.foldl fun _ _ ht => ht.bump.acked.onDie.onTenant
  have h3 : s3.Canonical := h2.of_mem
  exact h3.loseMonitors

/-- The state that preparing pages for the host leaves is canonical, where it leaves one. -/
def Prep.Canonical : Prep → Prop
  | .ok t => t.Canonical
  | .wait t => t.Canonical
  | .denied => True

theorem State.Canonical.prepPage {s : State} (hs : s.Canonical) {tn va k} : (s.prepPage tn va k).Canonical := by
  unfold State.prepPage
  extract_lets w ok
  have hok : ∀ {u : State}, u.Canonical → (ok u).Canonical := fun {u} hu => by
    unfold ok
    split
    · split
      exacts [hu, trivial]
    · trivial
  clear_value ok
  split
  · trivial
  · split
    · trivial
    · split
      · exact hok hs
      · next h => exact hok (hs.touchPage h)
      · exact hs.fetchPage
      · trivial

theorem State.Canonical.prep {s : State} (hs : s.Canonical) {tn k l} : (s.prep tn k l).Canonical := by
  unfold State.prep
  extract_lets r
  have hr : ∀ q ∈ r, q.1.Canonical := by
    refine List.foldlRecOn (motive := fun q : Option (State × Bool) => ∀ p ∈ q, p.1.Canonical) _ _ ?_ ?_
    · rintro _ ⟨⟩
      exact hs
    · rintro (_ | q) hq e _
      · exact hq
      · have hp : (q.1.prepPage tn e.1 k).Canonical := State.Canonical.prepPage (hq q rfl)
        dsimp only
        split
        · next h => rw [h] at hp; rintro _ ⟨⟩; exact hp
        · next h => rw [h] at hp; rintro _ ⟨⟩; exact hp
        · rintro _ ⟨⟩
  clear_value r
  split
  · trivial
  · exact hr _ rfl
  · exact hr _ rfl

@[simp] theorem State.Canonical.newTenant {s : State} (hs : s.Canonical) {tn key queues evcount evdelay store debug} :
    (s.newTenant tn key queues evcount evdelay store debug).Canonical := by
  simp [State.newTenant, hs]

@[simp] theorem State.Canonical.attach {s : State} (hs : s.Canonical) {tn sid} : (s.attach tn sid).Canonical :=
  hs.onTenant.onTenant.sendDue

@[simp] theorem execOpenTenant_canonical {s : State} (hs : s.Canonical) {h tenant queues evcount evdelay store debug} :
    ResCanonical (execOpenTenant h tenant queues evcount evdelay store debug s) := by
  unfold execOpenTenant
  refine .ite hs.finishCmd ?_
  split
  · exact hs.finishCmd
  · refine .ite (.ite hs.finishCmd ?_) (.ite hs.finishCmd (.ite hs.finishCmd hs.attach.finishCmd))
    split
    exacts [hs.finishCmd, hs.newTenant.attach.finishCmd]

@[simp] theorem State.Canonical.abortCmds {s : State} (hs : s.Canonical) {tn h status} :
    (s.abortCmds tn h status).Canonical := by
  unfold State.abortCmds
  split
  · exact hs
  · exact (hs.onTenant.foldl fun _ _ hu => hu.answer).foldl fun _ _ hu => hu.finishCmd

@[simp] theorem State.Canonical.dropSent {s : State} (hs : s.Canonical) {tn} : (s.dropSent tn).Canonical :=
  hs.of_mem rfl

@[simp] theorem State.Canonical.stopTenant {s : State} (hs : s.Canonical) {tn} : (s.stopTenant tn).Canonical := by
  unfold State.stopTenant
  extract_lets groups s1 turns mine s2 launches s3 s4 r s5 s6 s7 used s8
  have h1 : s1.Canonical := hs.foldl fun _ h ht => ht.poisonGroup
  have h2 : s2.Canonical := h1.foldl fun _ _ ht => ht.setCtx
  have h3 : s3.Canonical := h2.foldl fun _ _ ht => ht.failLaunch
  have h4 : s4.Canonical := h3.dropEngine.foldl fun _ _ ht => ht.makeIdle
  have h5 : s5.Canonical := h4.stopCopies.settle
  have h6 : s6.Canonical := h5.foldl fun _ _ ht => ite ht ht.unlend
  have h7 : s7.Canonical := h6.foldl fun _ _ ht => ht.foldl fun _ _ hu => hu.zeroPage.onCore
  have h8 : s8.Canonical := h7.foldl fun _ _ ht => ht.setCtx
  clear_value s8
  exact h8.of_mem

@[simp] theorem State.Canonical.freeTenant {s : State} (hs : s.Canonical) {tn} : (s.freeTenant tn).Canonical := by
  unfold State.freeTenant
  extract_lets s1 s2 gone
  have h1 : s1.Canonical := State.Canonical.foldl hs.dropSent fun _ _ ht => ht.unmapWindow
  have h2 : s2.Canonical := h1.tlbDrop
  exact h2.of_mem

@[simp] theorem execClose_canonical {s : State} (hs : s.Canonical) {h} : ResCanonical (execClose h s) :=
  .ite hs.finishCmd hs.abortCmds.stopTenant.freeTenant.finishCmd

@[simp] theorem execReset_canonical {s : State} (hs : s.Canonical) {h tenant closing} :
    ResCanonical (execReset h tenant closing s) := by
  unfold execReset
  refine .ite hs.finishCmd ?_
  split
  · exact hs.finishCmd
  · extract_lets s1 s2 s3
    have h3 : s3.Canonical := hs.stopTenant.dropSent.onTenant.post
    exact .ite hs.onTenant.abortCmds.keepCmd (State.Canonical.next (State.Canonical.finishCmd (.ite h3.freeTenant h3)))

@[simp] theorem State.Canonical.unmapAll {s : State} (hs : s.Canonical) {tn w} : (s.unmapAll tn w).Canonical :=
  hs.unmapWindow.foldl fun _ _ ht => ht.endCopy

@[simp] theorem State.Canonical.clearFrames {s : State} (hs : s.Canonical) {tn pkgs w} :
    (s.clearFrames tn pkgs w).Canonical :=
  hs.foldl fun _ _ ht => ht.zeroRange.purge

@[simp] theorem execMapwin_canonical {s : State} (hs : s.Canonical) {h b pl} :
    ResCanonical (execMapwin h b pl s) := by
  unfold execMapwin
  split
  · exact hs.finishCmd
  · refine .ite hs.finishCmd (.ite hs.unmapAll.finishCmd (.ite hs.finishCmd (.ite hs.finishCmd (.ite hs.keepCmd ?_))))
    extract_lets w s2 s3 s4 q s5
    have h3 : s3.Canonical := hs.unmapAll.clearFrames.foldl fun _ _ hu => State.Canonical.ite hu.mapPage hu
    have h4 : s4.Canonical := h3.tlbDrop.onTenant
    have h5 : s5.Canonical := State.Canonical.ite h4.of_mem h4
    exact h5.finishCmd

@[simp] theorem execTemplates_canonical {s : State} (hs : s.Canonical) {h first images} :
    ResCanonical (execTemplates h first images s) := by
  simp [execTemplates, hs]

@[simp] theorem execRoutines_canonical {s : State} (hs : s.Canonical) {h first entries} :
    ResCanonical (execRoutines h first entries s) :=
  .ite hs.finishCmd (State.Canonical.next (hs.foldl fun _ _ ht => ht.onStack).finishCmd)

@[simp] theorem execLaunch_canonical {s : State} (hs : s.Canonical) {h body} :
    ResCanonical (execLaunch h body s) := by
  unfold execLaunch
  split <;> simp [hs]

theorem State.Canonical.cntset {s : State} (hs : s.Canonical) {h c va k}
    (hk : ∀ u loc w, u.Canonical → ResCanonical (k u loc w)) : ResCanonical (s.cntset h c va k) := by
  unfold State.cntset
  refine .ite hs.finishCmd (.ite hs.finishCmd ?_)
  have hp := hs.prep (tn := h.tenant) (k := .wr) (l := [(va.toNat, 8)])
  split
  · exact hs.finishCmd
  · next hu => rw [hu] at hp; exact hp.keepCmd
  · next u hu =>
    rw [hu] at hp
    split
    · exact hp.finishCmd
    · exact .ite hp.keepCmd (.ite hp.finishCmd (hk _ _ _ hp))

@[simp] theorem execCntsetSet_canonical {s : State} (hs : s.Canonical) {h va value} :
    ResCanonical (execCntsetSet h va value s) :=
  hs.cntset fun _ _ _ hu => hu.hostWrite.settle.finishCmd

@[simp] theorem execCntsetDec_canonical {s : State} (hs : s.Canonical) {h va value} :
    ResCanonical (execCntsetDec h va value s) :=
  hs.cntset fun _ _ _ hu => .ite hu.finishCmd (.ite hu.finishCmd hu.hostWrite.settle.finishCmd)

@[simp] theorem execCopyin_canonical {s : State} (hs : s.Canonical) {h va bytes} :
    ResCanonical (execCopyin h va bytes s) := by
  unfold execCopyin
  refine .ite hs.finishCmd (.ite hs.finishCmd ?_)
  extract_lets l whole
  have hp := hs.prep (tn := h.tenant) (k := .wr) (l := l)
  split
  · exact hs.finishCmd
  · next hu => rw [hu] at hp; exact hp.keepCmd
  · next u hu =>
    rw [hu] at hp
    have ht := hp.foldl (l := l) (f := fun v e => match v.pieceLoc h.tenant e.1 with
        | some x => v.hostWrite h.tenant x.1 ((bytes.drop (e.1 - va.toNat)).take e.2)
        | none => v) fun v e hv => by
      split
      exacts [hv.hostWrite, hv]
    exact .ite hp.keepCmd ht.onTenant.finishCmd

@[simp] theorem execCopyout_canonical {s : State} (hs : s.Canonical) {h va length} :
    ResCanonical (execCopyout h va length s) := by
  unfold execCopyout
  refine .ite hs.finishCmd (.ite hs.finishCmd ?_)
  extract_lets l
  have hp := hs.prep (tn := h.tenant) (k := .rd) (l := l)
  split
  · exact hs.finishCmd
  · next hu => rw [hu] at hp; exact hp.keepCmd
  · next u hu => rw [hu] at hp; exact .ite hp.finishCmd hp.finishCmd

@[simp] theorem execWaitev_canonical {s : State} (hs : s.Canonical) {h mask max timeout} :
    ResCanonical (execWaitev h mask max timeout s) := by
  unfold execWaitev
  split
  exacts [hs.finishCmd, .ite hs.finishCmd (.ite hs (.ite hs.onTenant.finishCmd hs.leaveQueue.onTenant))]

@[simp] theorem execWaitevTimeout_canonical {s : State} (hs : s.Canonical) {h} :
    ResCanonical (execWaitevTimeout h s) := by
  unfold execWaitevTimeout
  split
  exacts [hs, .ite hs.onTenant.answer hs]

@[simp] theorem execGroupCreate_canonical {s : State} (hs : s.Canonical) {h b} :
    ResCanonical (execGroupCreate h b s) := by
  simp [execGroupCreate, hs]

@[simp] theorem execGroupPoison_canonical {s : State} (hs : s.Canonical) {h handle} :
    ResCanonical (execGroupPoison h handle s) := by
  unfold execGroupPoison
  split
  exacts [.ite hs.poisonGroup.finishCmd hs.finishCmd, hs.finishCmd]

@[simp] theorem execCkpt_canonical {s : State} (hs : s.Canonical) {h b r} : ResCanonical (execCkpt h b r s) := by
  unfold execCkpt
  refine .ite hs.finishCmd (.ite hs.finishCmd (.ite hs.keepCmd ?_))
  extract_lets recs diverged ok c0 c old f s1
  have h1 : s1.Canonical := hs.of_mem
  clear_value s1 diverged
  refine .ite h1.post.finishCmd ?_
  split
  exacts [h1.post.finishCmd, h1.finishCmd]

@[simp] theorem execRestore_canonical {s : State} (hs : s.Canonical) {h members replacements} :
    ResCanonical (execRestore h members replacements s) := by
  unfold execRestore
  refine .ite hs.finishCmd (.ite hs.finishCmd ?_)
  extract_lets live mine best
  clear_value best
  split
  · exact hs.post.finishCmd
  · extract_lets newer put s1
    have h1 : s1.Canonical := hs.of_mem
    exact State.Canonical.next (h1.foldl fun _ _ ht => ht.send).finishCmd

@[simp] theorem execAttest_canonical {s : State} (hs : s.Canonical) {h nonce} : ResCanonical (execAttest h nonce s) :=
  hs.of_mem.finishCmd

@[simp] theorem execPowercap_canonical {s : State} (hs : s.Canonical) {h watts} :
    ResCanonical (execPowercap h watts s) :=
  .ite hs.finishCmd hs.of_mem.finishCmd

@[simp] theorem State.Canonical.resumeFetched {s : State} (hs : s.Canonical) : s.resumeFetched.Canonical := by
  simp +contextual [State.resumeFetched, hs]

@[simp] theorem execPagedata_canonical {s : State} (hs : s.Canonical) {h handle offset bytes last} :
    ResCanonical (execPagedata h handle offset bytes last s) := by
  unfold execPagedata
  split
  · exact hs.finishCmd
  · split
    · exact hs.finishCmd
    · extract_lets loc s1
      have h1 : s1.Canonical := hs.applyWrite
      clear_value s1
      refine .ite hs.finishCmd (.ite h1.finishCmd ?_)
      split
      · exact h1.finishCmd
      · extract_lets pte s2 s3
        have h3 : s3.Canonical := h1.mapPage.tlbPage.onTenant
        exact h3.resumeFetched.settle.finishCmd

@[simp] theorem execPageout_canonical {s : State} (hs : s.Canonical) {h handle offset length last} :
    ResCanonical (execPageout h handle offset length last s) := by
  unfold execPageout
  split
  · exact hs.finishCmd
  · split
    · exact hs.finishCmd
    · extract_lets loc body s1 ask s2
      have h1 : s1.Canonical := State.Canonical.ite hs.onTenant hs
      have hask : ∀ {u : State} {p}, u.Canonical → (ask u p).Canonical := fun {u p} hu => by
        unfold ask
        split
        exacts [State.Canonical.ite hu.fetchPage hu, hu]
      have h2 : s2.Canonical := .ite (h1.foldl fun u _ hu => hu.foldl fun _ p hv => hask hv) h1
      exact .ite hs.finishCmd (.ite hs.finishCmd h2.finishCmd)

/-! ### Memx -/

@[simp] theorem execFence_canonical {s : State} (hs : s.Canonical) {m} : ResCanonical (execFence m s) :=
  hs.issue fun _ ht => .ite ht.waitOn ht.finish

@[simp] theorem execRoinv_canonical {s : State} (hs : s.Canonical) {a b} : ResCanonical (execRoinv a b s) :=
  hs.issue fun _ ht => ht.onCore.finish

@[simp] theorem State.Canonical.registerMonitor {s : State} (hs : s.Canonical) {c x} :
    (s.registerMonitor c x).Canonical := by
  unfold State.registerMonitor
  generalize (if isBasin x.loc then none else homeDie x.loc) = m
  split
  · exact hs
  · extract_lets l mine drop s1
    clear_value drop
    split
    exacts [hs.onDie, hs.onDie.onCtx.wakeAll]

@[simp] theorem execMwarm_canonical {s : State} (hs : s.Canonical) {a} : ResCanonical (execMwarm a s) := by
  unfold execMwarm
  extract_lets w
  refine hs.issue fun _ ht => ht.withAccess (fun _ hu => hu.trap) (fun _ _ => ht.trap) fun _ _ hu => .ite hu.trap ?_
  extract_lets v cx y
  have hv : v.Canonical := hu.registerMonitor
  have hy : y.Canonical := hv.of_mem
  exact hy.finishLong

@[simp] theorem State.Canonical.waitMonitor {s : State} (hs : s.Canonical) {m w} : (s.waitMonitor m w).Canonical :=
  hs.of_mem.waitOn

@[simp] theorem execMwait_canonical {s : State} (hs : s.Canonical) {d a} : ResCanonical (execMwait d a s) := by
  unfold execMwait
  extract_lets w
  refine hs.issue fun _ ht => .ite ht.trap (ht.withAccess (fun _ hu => hu.trap) (fun _ _ => ht.trap) fun _ _ hu => ?_)
  extract_lets c v go
  have hv : v.Canonical := hu.of_mem
  have hgo : ResCanonical go := by
    refine .ite hv.finishSet ?_
    split
    · next h => exact (hv.read h).finishLong
    · exact hu.waitOn
    · exact hv.consume
    · exact hv.lostAccess
  clear_value go
  split
  exacts [.ite hu.waitMonitor hgo, hgo]

@[simp] theorem execFeset_canonical {s : State} (hs : s.Canonical) {a} : ResCanonical (execFeset a s) :=
  hs.issue fun _ ht => ht.basinWord fun _ => ht.fullEmpty.finish

@[simp] theorem execFeclr_canonical {s : State} (hs : s.Canonical) {a} : ResCanonical (execFeclr a s) :=
  hs.issue fun _ ht => ht.basinWord fun _ => ht.fullEmpty.finish

@[simp] theorem execFest_canonical {s : State} (hs : s.Canonical) {d a} : ResCanonical (execFest d a s) :=
  hs.issue fun _ ht => ht.basinWord fun _ => ht.finishSet

@[simp] theorem execFullEmptyChange_canonical {s : State} (hs : s.Canonical) {die core word full} :
    ResCanonical (execFullEmptyChange die core word full s) :=
  .ite hs.fullEmpty hs

@[simp] theorem State.Canonical.cleanRange {s : State} (hs : s.Canonical) {loc n inv} :
    (s.cleanRange loc n inv).Canonical := by
  unfold State.cleanRange
  dsimp only
  split
  exacts [hs, .ite hs.l2Clean.dropRdc hs.l2Clean]

@[simp] theorem State.Canonical.cleanPages {s : State} (hs : s.Canonical) {w inv k va n} :
    ResCanonical (State.cleanPages w inv k s va n) := by
  induction k generalizing s va n with
  | zero => exact hs.finishLong
  | succ k ih =>
    unfold State.cleanPages
    refine .ite hs.finishLong ?_
    extract_lets a here
    split
    · exact hs.trap
    · exact hs.trap
    · exact hs.trap
    · exact .ite hs.trap (ih (.ite hs.fillTlb hs.fillTlb.cleanRange))

@[simp] theorem execCflush_canonical {s : State} (hs : s.Canonical) {a b} : ResCanonical (execCflush a b s) := by
  simp +contextual [execCflush, hs]

@[simp] theorem execCinv_canonical {s : State} (hs : s.Canonical) {a b} : ResCanonical (execCinv a b s) := by
  simp +contextual [execCinv, hs]

@[simp] theorem execPref_canonical {s : State} (hs : s.Canonical) {a} : ResCanonical (execPref a s) := by
  unfold execPref
  refine hs.issue fun _ ht => ?_
  extract_lets pol u
  have hu : u.Canonical := by
    unfold u
    split
    · refine .ite ht ?_
      split
      · exact ht
      · exact .ite ht.fillTlb (.ite ht.fillTlb.sliceRead (.ite ht.fillTlb.fillRdc ht.fillTlb))
    · exact ht
  exact hu.finish

/-! ### Sys -/

@[simp] theorem State.Canonical.srWrite {s : State} (hs : s.Canonical) {w i f} : ResCanonical (s.srWrite w i f) :=
  hs.issue fun _ ht => .ite ht.of_mem ht.privilege

@[simp] theorem execSrrd_canonical {s : State} (hs : s.Canonical) {d i} : ResCanonical (execSrrd d i s) :=
  hs.issue fun _ ht => .ite ht.finishSet ht.privilege

@[simp] theorem execSrwr_canonical {s : State} (hs : s.Canonical) {d i} : ResCanonical (execSrwr d i s) :=
  hs.srWrite

@[simp] theorem execSrset_canonical {s : State} (hs : s.Canonical) {d i} : ResCanonical (execSrset d i s) :=
  hs.srWrite

@[simp] theorem execSrclr_canonical {s : State} (hs : s.Canonical) {d i} : ResCanonical (execSrclr d i s) :=
  hs.srWrite

@[simp] theorem execTrap_canonical {s : State} (hs : s.Canonical) {a} : ResCanonical (execTrap a s) :=
  hs.issue fun _ ht => ht.trap

@[simp] theorem execBkpt_canonical {s : State} (hs : s.Canonical) : ResCanonical (execBkpt s) :=
  hs.issue fun _ ht => ht.trap

@[simp] theorem execHalt_canonical {s : State} (hs : s.Canonical) : ResCanonical (execHalt s) := by
  simp +contextual [execHalt, hs]

@[simp] theorem execEret_canonical {s : State} (hs : s.Canonical) : ResCanonical (execEret s) :=
  hs.issue fun _ ht => .ite ht.privilege (.ite ht.trap ht.eret)

@[simp] theorem execIfence_canonical {s : State} (hs : s.Canonical) : ResCanonical (execIfence s) :=
  hs.issue fun _ ht => .ite ht.waitOn ht.finish

@[simp] theorem execWfe_canonical {s : State} (hs : s.Canonical) : ResCanonical (execWfe s) := by
  unfold execWfe
  refine hs.issue fun _ ht => ?_
  extract_lets c go
  have hgo : ResCanonical go := ht.of_mem
  clear_value go
  refine .ite (.ite hgo ?_) ?_
  · split
    exacts [.ite hgo ht.waitMonitor, ht.waitOn]
  · split
    exacts [.ite hgo ht.waitMonitor, hgo]

@[simp] theorem execTlbinv_canonical {s : State} (hs : s.Canonical) {a b} : ResCanonical (execTlbinv a b s) := by
  unfold execTlbinv
  extract_lets w sel scope
  exact hs.issue fun _ ht => .ite ht.privilege ht.tlbDrop.finishLong

@[simp] theorem execCtxres_canonical {s : State} (hs : s.Canonical) {d a b} : ResCanonical (execCtxres d a b s) := by
  unfold execCtxres
  extract_lets w act setEpc
  refine hs.issue fun _ ht => .ite ht.privilege ?_
  split
  · exact ht.finishSet
  · refine .ite ht.finishSet (.ite ht.trap ?_)
    extract_lets s0 u v
    have h0 : s0.Canonical := ht.of_mem
    have hu : u.Canonical := State.Canonical.ite h0.onCtx h0
    have hv : v.Canonical := .ite hu.resume (.ite h0.kill h0.domainFault)
    exact hv.finishSet

/-! ### Dom -/

@[simp] theorem State.Canonical.misuse {s : State} (hs : s.Canonical) {w code} : ResCanonical (s.misuse w code) :=
  hs.trap

@[simp] theorem execDbegin_canonical {s : State} (hs : s.Canonical) {d a} : ResCanonical (execDbegin d a s) := by
  unfold execDbegin
  extract_lets w
  refine hs.issue fun _ ht => .ite ht.misuse ?_
  split
  · exact ht.waitOn
  · exact ht.newDomainId.setDomain.finishLong

theorem State.Canonical.rangeParts {s : State} (hs : s.Canonical) {w va n k} : ExceptCanonical (·.2) (s.rangeParts w va n k) := by
  induction k generalizing s va n with
  | zero => exact hs
  | succ k ih =>
    unfold State.rangeParts
    split
    · exact hs
    · split
      · exact hs.trap
      · exact hs.trap
      · exact hs.trap
      · extract_lets m
        split
        · next he => exact (ih hs.fillTlb).of_error he
        · next r hr =>
          have hr : r.2.Canonical := (ih hs.fillTlb).of_ok hr
          exact hr

@[simp] theorem State.Canonical.dpres {s : State} (hs : s.Canonical) {w a b snap} :
    ResCanonical (s.dpres w a b snap) := by
  unfold State.dpres
  refine hs.issue fun _ ht => ?_
  extract_lets va n
  refine .ite ht.finish ?_
  split
  · exact ht.misuse
  · refine .ite ht.misuse (.ite ht.misuse (.ite ht.misuse (.ite ht.waitOn ?_)))
    split
    · next he => exact ht.rangeParts.of_error he
    · next u hr =>
      have hu : u.Canonical := ht.rangeParts.of_ok hr
      exact .ite hu.misuse (.ite hu.consume hu.onDomain.finishLong)

@[simp] theorem State.Canonical.commitDomain {s : State} (hs : s.Canonical) {w d} :
    ResCanonical (s.commitDomain w d) := by
  unfold State.commitDomain
  extract_lets out s1 s2 r f src regs
  have h2 : s2.Canonical := hs.mergeV.handExits.onDomain
  have hr : r.1.Canonical := h2.performDeferred
  have hf : f.1.Canonical := hr.dropTags.setDomain.recordsFreed
  split
  exacts [hf.finishLong.settle, hf.setR.takeTrap.settle]

@[simp] theorem execDend_canonical {s : State} (hs : s.Canonical) : ResCanonical (execDend s) := by
  unfold execDend
  extract_lets w
  refine hs.issue fun _ ht => ?_
  split
  · exact ht.misuse
  · refine .ite ht.misuse (.ite ht.waitOn (.ite ht.waitOn ?_))
    extract_lets u
    have hu : u.Canonical := ht.flushStitch
    clear_value u
    split
    · exact hu
    · exact .ite hu.waitOn (.ite hu.domainFault (.ite hu.waitOn hu.commitDomain))

@[simp] theorem execDchk_canonical {s : State} (hs : s.Canonical) {a b} : ResCanonical (execDchk a b s) := by
  unfold execDchk
  extract_lets w
  refine hs.issue fun _ ht => .ite ht.finish ?_
  split
  exacts [ht.domainFault, ht.misuse]

@[simp] theorem execDabort_canonical {s : State} (hs : s.Canonical) {a} : ResCanonical (execDabort a s) := by
  unfold execDabort
  extract_lets w
  refine hs.issue fun _ ht => ?_
  split
  exacts [ht.domainFault, ht.misuse]

@[simp] theorem execDlevel_canonical {s : State} (hs : s.Canonical) {d sel} : ResCanonical (execDlevel d sel s) :=
  hs.issue fun _ ht => ht.finishSet

@[simp] theorem execLend_canonical {s : State} (hs : s.Canonical) {a b} : ResCanonical (execLend a b s) := by
  unfold execLend
  extract_lets w
  refine hs.issue fun _ ht => ?_
  extract_lets turns pages k fresh busy u
  have hu : u.Canonical := ht.onCore.addLend
  refine .ite ht.privilege ?_
  split
  exacts [ht.trap, .ite ht.waitOn (State.Canonical.next (.ite hu.finish hu.finishLong))]

@[simp] theorem execUnlend_canonical {s : State} (hs : s.Canonical) {a b} : ResCanonical (execUnlend a b s) := by
  unfold execUnlend
  extract_lets w
  refine hs.issue fun _ ht => ?_
  extract_lets turns pages back u v
  have hu : u.Canonical := ht.onCore
  have hv : v.Canonical := State.Canonical.ite hu.finish hu.finishLong
  refine .ite ht.privilege ?_
  split
  exacts [ht.trap, hv.unlend]

@[simp] theorem execHstat_canonical {s : State} (hs : s.Canonical) {d sel} : ResCanonical (execHstat d sel s) :=
  hs.issue fun _ ht => ht.finishSet

/-! ### Fetch -/

@[simp] theorem State.Canonical.fetchFault {s : State} (hs : s.Canonical) {cause va} :
    ResCanonical (s.fetchFault cause va) :=
  .ite hs.endRunahead hs.takeTrap

@[simp] theorem execInstructionFetch_canonical {s : State} (hs : s.Canonical) : ResCanonical (execInstructionFetch s) := by
  unfold execInstructionFetch
  dsimp only
  split
  exacts [hs.fetchFault, hs.fetchFault, hs.fetchFault,
    .ite hs.lostAccess (.ite (.ite hs.endRunahead (.ite hs.domainFault hs.fetchFault)) hs.fillTlb.of_mem)]

@[simp] theorem execUnassignedEncoding_canonical {s : State} (hs : s.Canonical) {word} :
    ResCanonical (execUnassignedEncoding word s) :=
  hs.issue fun _ ht => ht

@[simp] theorem execReservedHintKind_canonical {s : State} (hs : s.Canonical) {word} :
    ResCanonical (execReservedHintKind word s) :=
  .ite hs.endRunahead hs.trap

@[simp] theorem execLoopEndCheck_canonical {s : State} (hs : s.Canonical) : ResCanonical (execLoopEndCheck s) :=
  .ite hs.of_mem hs

@[simp] theorem State.Canonical.toSlot {s : State} (hs : s.Canonical) {k c} : (s.toSlot k c).Canonical := by
  simp [State.toSlot, hs]

@[simp] theorem State.Canonical.takeBoundary {s : State} (hs : s.Canonical) {c} : (s.takeBoundary c).Canonical := by
  simp [State.takeBoundary, hs]

/-! ### Fpu -/

@[simp] theorem State.Canonical.fpu {s : State} (hs : s.Canonical) {w d v} : ResCanonical (s.fpu w d v) :=
  hs.issue fun _ ht => ht.finish

@[simp] theorem State.Canonical.fpuLong {s : State} (hs : s.Canonical) {w d v} : ResCanonical (s.fpuLong w d v) :=
  hs.issue fun _ ht => ht.finishLong

@[simp] theorem execFdiv_canonical {s : State} (hs : s.Canonical) {d a b f} : ResCanonical (execFdiv d a b f s) :=
  hs.fpuLong

@[simp] theorem execFsqrt_canonical {s : State} (hs : s.Canonical) {d a f} : ResCanonical (execFsqrt d a f s) :=
  hs.fpuLong

@[simp] theorem execFcvt_canonical {s : State} (hs : s.Canonical) {d a c sc} : ResCanonical (execFcvt d a c sc s) :=
  hs.issue fun _ ht => ht.finish

/-! ### Hints -/

@[simp] theorem State.Canonical.hintWord {s : State} (hs : s.Canonical) {w ok kind p} :
    ResCanonical (s.hintWord w ok kind p) := by
  unfold State.hintWord
  split <;> simp [hs]

/-! ### Matrix -/

@[simp] theorem execMshape_canonical {s : State} (hs : s.Canonical) {d a b o y x} :
    ResCanonical (execMshape d a b o y x s) :=
  hs.issue fun _ ht => ht.finishSet

@[simp] theorem State.Canonical.onOp {s : State} (hs : s.Canonical) {d c id f} : (s.onOp d c id f).Canonical :=
  hs.onCore

@[simp] theorem State.Canonical.matRelease {s : State} (hs : s.Canonical) {o r} : (s.matRelease o r).Canonical :=
  hs.onCtx.ready

@[simp] theorem State.Canonical.matFault {s : State} (hs : s.Canonical) {o cause tval} :
    (s.matFault o cause tval).Canonical := by
  unfold State.matFault
  extract_lets d c s1 x id
  have h1 : s1.Canonical := hs.onCore.freeSb
  exact ite h1.domainFault h1.takeTrap

@[simp] theorem State.Canonical.startOp {s : State} (hs : s.Canonical) {o} : (s.startOp o).Canonical := by
  unfold State.startOp
  dsimp only
  refine .ite hs.onOp ?_
  split
  exacts [hs.matFault, hs.onOp.onDie]

@[simp] theorem State.Canonical.commitOp {s : State} (hs : s.Canonical) {o} : (s.commitOp o).Canonical := by
  unfold State.commitOp
  extract_lets d c h z scLen poison ra rb rs res cl kb pages s1 s2 s3 x p r
  have ha : ra.2.Canonical := by
    unfold ra
    split
    exacts [hs, hs.engineRead]
  have hb : rb.2.Canonical := by
    unfold rb
    split
    exacts [ha, ha.engineRead]
  have hc : rs.2.Canonical := by
    unfold rs
    split
    exacts [hb.engineRead, hb]
  have h1 : s1.Canonical := hc.engineKeep.applyWrite.foldl fun _ _ ht => ht.setFull.wakeWhy
  have h2 : s2.Canonical := h1.foldl fun _ p ht => ht.noteHarvest
  have h3 : s3.Canonical := h2.onCore.freeSb
  clear_value poison s3
  split
  exacts [hs.matFault, h3.matRelease.onDie]

@[simp] theorem State.Canonical.askRamp {s : State} (hs : s.Canonical) {die} : (s.askRamp die).Canonical :=
  .ite hs.onDie hs

@[simp] theorem execMatrixEngineRamp_canonical {s : State} (hs : s.Canonical) {die} :
    ResCanonical (execMatrixEngineRamp die s) :=
  .ite hs.askRamp hs

@[simp] theorem State.Canonical.runOp {s : State} (hs : s.Canonical) {d c} : (s.runOp d c).Canonical := by
  unfold State.runOp
  split
  · exact hs
  · next o _ =>
    extract_lets t u
    have ht : t.Canonical := State.Canonical.ite hs.askRamp hs
    have hu : u.Canonical := ht.startOp
    refine ite ht ?_
    split
    exacts [hu.commitOp, hu]

@[simp] theorem State.Canonical.matrix {s : State} (hs : s.Canonical) {w kind legal d a b h} :
    ResCanonical (s.matrix w kind legal d a b h) := by
  unfold State.matrix
  extract_lets x sh off rng
  refine hs.issue fun _ ht => ?_
  extract_lets rs co die core fresh go tk
  have hgo : ∀ {u : State}, u.Canonical → ResCanonical (go u) := fun hu =>
    State.Canonical.next (.ite hu.waitOn.replan hu.waitOn.replan.runOp)
  have htk : tk.1.Canonical := ht.takeSb
  clear_value go tk
  split
  · exact ht.trap
  · split
    · exact ht.trap
    · split
      · exact hgo ht.onOp
      · exact .ite ht.waitOn (hgo htk.onCore)

@[simp] theorem execMstat_canonical {s : State} (hs : s.Canonical) {d c} : ResCanonical (execMstat d c s) := by
  simp +contextual [execMstat, hs]

@[simp] theorem execMatrixOpStart_canonical {s : State} (hs : s.Canonical) {die core} :
    ResCanonical (execMatrixOpStart die core s) := by
  unfold execMatrixOpStart
  split <;> simp [hs]

@[simp] theorem State.Canonical.yieldOp {s : State} (hs : s.Canonical) {o} : (s.yieldOp o).Canonical :=
  hs.onOp.matRelease

@[simp] theorem execMatrixBlockEnd_canonical {s : State} (hs : s.Canonical) {die core residue parity} :
    ResCanonical (execMatrixBlockEnd die core residue parity s) := by
  unfold execMatrixBlockEnd
  split
  · exact hs
  · next o _ =>
    extract_lets u t0 t last
    have h0 : t0.Canonical := State.Canonical.ite hs.faultEvent hs
    have ht : t.Canonical := .ite h0.faultEvent h0
    exact .ite hs (.ite (.ite ht.matFault (.ite ht.onOp.startOp ht.onOp)) (.ite hs.yieldOp hs.onOp))

@[simp] theorem execMatrixCommit_canonical {s : State} (hs : s.Canonical) {die core} :
    ResCanonical (execMatrixCommit die core s) := by
  unfold execMatrixCommit
  split
  exacts [hs, .ite hs.commitOp hs]

/-! ### StepProg -/

theorem State.Canonical.readSteps {s : State} (hs : s.Canonical) {w va n} : ExceptCanonical (·.2.2) (s.readSteps w va n) := by
  induction n generalizing s va with
  | zero => exact hs
  | succ n ih =>
    unfold State.readSteps
    split
    · next he => exact hs.readWords.of_error he
    · next b t hr =>
      have ht : t.Canonical := hs.readWords.of_ok hr
      extract_lets p
      split
      · exact ht
      · split
        · next he => exact (ih ht).of_error he
        · next l f u hu =>
          have hu : u.Canonical := (ih ht).of_ok hu
          exact hu

@[simp] theorem execQstart_canonical {s : State} (hs : s.Canonical) {d a b} : ResCanonical (execQstart d a b s) := by
  unfold execQstart
  extract_lets w
  refine hs.issue fun _ ht => ?_
  extract_lets h rank va
  split
  · exact ht.trap
  · refine .ite ht.trap (.ite ht.trap ?_)
    split
    · next he => exact ht.readWords.of_error he
    · next b u hr =>
      have hu : u.Canonical := ht.readWords.of_ok hr
      extract_lets w0 w1
      split
      · next he => exact hu.readSteps.of_error he
      · next raw ended v hv =>
        have hv : v.Canonical := hu.readSteps.of_ok hv
        extract_lets steps st p
        clear_value st
        generalize (if st = 0 then v.freeSlot v.cur.die else none) = m
        split
        · exact hv.finishLong
        · extract_lets v1 cx v2
          have h1 : v1.Canonical := hv.onDie
          have h2 : v2.Canonical := h1.of_mem
          exact h2.finishLong

@[simp] theorem State.Canonical.setProg {s : State} (hs : s.Canonical) {d slot p} : (s.setProg d slot p).Canonical :=
  hs.onDie

@[simp] theorem State.Canonical.progTrap {s : State} (hs : s.Canonical) {p cause tval} :
    (s.progTrap p cause tval).Canonical :=
  .ite hs.takeTrap (.ite hs.onCtx hs)

@[simp] theorem State.Canonical.progPoison {s : State} (hs : s.Canonical) {d p off n} :
    (s.progPoison d p off n).Canonical := by
  unfold State.progPoison
  split
  exacts [hs, .ite hs.domainFault hs.progTrap]

@[simp] theorem State.Canonical.progWrite {s : State} (hs : s.Canonical) {d p off b} :
    (s.progWrite d p off b).Canonical :=
  .ite hs.progTrap hs.weirWrite

@[simp] theorem execSend_canonical {s : State} (hs : s.Canonical) {die slot} :
    ResCanonical (execSend die slot s) := by
  unfold execSend
  split
  · exact hs
  · split
    · exact hs.faultProgram
    · extract_lets off s1 b home n s2 s3 s4
      have h1 : s1.Canonical := hs.progPoison
      have h2 : s2.Canonical := State.Canonical.ite h1.bump.acked h1
      have h3 : s3.Canonical := h2.onGroup
      have h4 : s4.Canonical := .ite h3 h3.send
      exact .ite hs (.ite h1 h4.setProg)

@[simp] theorem execStepMessageWritten_canonical {s : State} (hs : s.Canonical) {die handle src dst bytes remote} :
    ResCanonical (execStepMessageWritten die handle src dst bytes remote s) := by
  unfold execStepMessageWritten
  split
  · exact hs
  · dsimp only
    refine .ite hs ?_
    split
    · exact .ite hs.onGroup (.ite hs hs.onGroup)
    · split
      exacts [hs, .ite hs.refuseColl (.ite hs.onGroup hs)]

@[simp] theorem State.Canonical.recvStep {s : State} (hs : s.Canonical) {die slot op f} :
    ResCanonical (s.recvStep die slot op f) := by
  unfold State.recvStep
  split
  · exact hs
  · split
    · exact hs.faultProgram
    · split
      · exact hs
      · extract_lets off s1 b s2
        have h1 : s1.Canonical := State.Canonical.ite hs.progPoison hs
        have h2 : s2.Canonical := h1.onGroup.progWrite
        exact .ite hs.faultProgram (.ite hs (.ite h1 h2.setProg))

@[simp] theorem execRecv_canonical {s : State} (hs : s.Canonical) {die slot} : ResCanonical (execRecv die slot s) :=
  hs.recvStep

@[simp] theorem execRrs_canonical {s : State} (hs : s.Canonical) {die slot} : ResCanonical (execRrs die slot s) :=
  hs.recvStep

@[simp] theorem execStepCopy_canonical {s : State} (hs : s.Canonical) {die slot} :
    ResCanonical (execStepCopy die slot s) := by
  unfold execStepCopy
  split
  exacts [hs, .ite hs (.ite hs.progPoison hs.progPoison.progWrite.setProg)]

@[simp] theorem execStepWait_canonical {s : State} (hs : s.Canonical) {die slot} :
    ResCanonical (execStepWait die slot s) := by
  unfold execStepWait
  split
  exacts [hs, .ite hs hs.setProg]

@[simp] theorem execStepLoop_canonical {s : State} (hs : s.Canonical) {die slot} :
    ResCanonical (execStepLoop die slot s) := by
  unfold execStepLoop
  split
  exacts [hs, .ite hs.setProg hs.setProg]

@[simp] theorem execStepEndloop_canonical {s : State} (hs : s.Canonical) {die slot} :
    ResCanonical (execStepEndloop die slot s) := by
  unfold execStepEndloop
  split
  · exact hs
  · split
    exacts [hs.setProg, .ite hs.setProg hs.setProg]

@[simp] theorem execQround_canonical {s : State} (hs : s.Canonical) {die slot} :
    ResCanonical (execQround die slot s) := by
  unfold execQround
  split
  · exact hs
  · extract_lets so dof gd s1 data s2
    have h1 : s1.Canonical := hs.progPoison
    have h2 : s2.Canonical := h1.onGroupDie
    refine .ite (.ite hs.faultProgram (.ite hs.setProg (.ite hs (.ite h1 h2.setProg.forwardPartial)))) (.ite (.ite hs.faultProgram ?_) hs)
    split
    · exact hs
    · exact .ite hs hs.progWrite.mergeV.setProg

@[simp] theorem execStepEnd_canonical {s : State} (hs : s.Canonical) {die slot} :
    ResCanonical (execStepEnd die slot s) := by
  unfold execStepEnd
  split
  · exact hs
  · extract_lets t
    have ht : t.Canonical := hs.progWrite.setProg
    exact State.Canonical.next (.ite ht.wake ht)

@[simp] theorem execStepProgramFault_canonical {s : State} (hs : s.Canonical) {die slot code} :
    ResCanonical (execStepProgramFault die slot code s) :=
  .ite hs.faultProgram hs

/-! ### Supervisor -/

@[simp] theorem State.Canonical.tellTrap {s : State} (hs : s.Canonical) {r} : (s.tellTrap r).Canonical := by
  simp [State.tellTrap, hs]

@[simp] theorem State.Canonical.mapPages {s : State} (hs : s.Canonical) {tn l} : (s.mapPages tn l).1.Canonical := by
  refine foldl_fst hs fun _ _ hq => ?_
  split
  · next h => exact hq.touchPage h
  · exact hq.fetchPage
  · exact hq

@[simp] theorem State.Canonical.unresolved {s : State} (hs : s.Canonical) {r} : (s.unresolved r).Canonical :=
  hs.tellTrap.kill

@[simp] theorem State.Canonical.serveTrap {s : State} (hs : s.Canonical) {r} : (s.serveTrap r).Canonical := by
  unfold State.serveTrap
  extract_lets q
  have hq : q.1.Canonical := hs.mapPages
  exact ite (ite (ite hq.resume hq.of_mem) hs.unresolved) (ite hs.tellTrap.onCtx.resume (ite hs.tellTrap.resume hs.unresolved))

@[simp] theorem execTrapResolution_canonical {s : State} (hs : s.Canonical) : ResCanonical (execTrapResolution s) := by
  unfold execTrapResolution
  split <;> simp [hs]

@[simp] theorem execSupervisorTrap_canonical {s : State} (hs : s.Canonical) {die core cause tval} :
    ResCanonical (execSupervisorTrap die core cause tval s) :=
  .ite hs.takeTrap hs

@[simp] theorem execSupervisorCoreRestart_canonical {s : State} (hs : s.Canonical) {die core pc} :
    ResCanonical (execSupervisorCoreRestart die core pc s) :=
  .ite hs.onCtx hs

@[simp] theorem execPageWalkComplete_canonical {s : State} (hs : s.Canonical) {c va} :
    ResCanonical (execPageWalkComplete c va s) :=
  .ite (State.Canonical.wake (.ite hs hs.fillTlb)) hs

@[simp] theorem execRunaheadEnd_canonical {s : State} (hs : s.Canonical) {c} : ResCanonical (execRunaheadEnd c s) :=
  .ite hs.endRunahead hs

@[simp] theorem State.Canonical.fireOne {s : State} (hs : s.Canonical) {c} : (s.fireOne c).Canonical := by
  unfold State.fireOne
  split
  exacts [hs, .ite hs (.ite hs.onCtx.wake hs.onCtx)]

@[simp] theorem execMonitorFire_canonical {s : State} (hs : s.Canonical) {c} : ResCanonical (execMonitorFire c s) :=
  hs.fireOne

@[simp] theorem execMonitorTimeout_canonical {s : State} (hs : s.Canonical) {c} :
    ResCanonical (execMonitorTimeout c s) := by
  unfold execMonitorTimeout
  split
  exacts [.ite hs.fireOne hs, hs]

@[simp] theorem execPageEviction_canonical {s : State} (hs : s.Canonical) {tenant va handle} :
    ResCanonical (execPageEviction tenant va handle s) := by
  unfold execPageEviction
  split
  · exact hs
  · extract_lets k frame s1 s2 s3
    have h1 : s1.Canonical := hs.mapPage.tlbPage
    have h3 : s3.Canonical := h1.dropLines.purge.onTenant
    exact .ite hs h3.post

@[simp] theorem execPageMigration_canonical {s : State} (hs : s.Canonical) {tenant va window dst} :
    ResCanonical (execPageMigration tenant va window dst s) := by
  unfold execPageMigration
  split <;> simp [hs]

@[simp] theorem State.Canonical.moveNames {s : State} (hs : s.Canonical) {m} : (s.moveNames m).Canonical :=
  hs.of_mem.onAll

@[simp] theorem execMigrationSwitch_canonical {s : State} (hs : s.Canonical) {index} :
    ResCanonical (execMigrationSwitch index s) := by
  unfold execMigrationSwitch
  split
  · exact hs
  · split
    · exact hs
    · refine .ite hs ?_
      extract_lets s0 s1 s2 s3 s4
      have h0 : s0.Canonical := hs.of_mem
      have h3 : s3.Canonical := h0.moveNames.applyWrite.mapPage.tlbPage
      exact h3.purge.loseMonitors.wakeWhy

@[simp] theorem execMigrationAbort_canonical {s : State} (hs : s.Canonical) {index addr} :
    ResCanonical (execMigrationAbort index addr s) := by
  unfold execMigrationAbort
  split
  exacts [hs, .ite hs.of_mem.wakeWhy.send hs]

/-! ### Vec -/

@[simp] theorem State.Canonical.vec {s : State} (hs : s.Canonical) {w legal long f} :
    ResCanonical (s.vec w legal long f) := by
  simp +contextual [State.vec, hs]

@[simp] theorem State.Canonical.vecShort {s : State} (hs : s.Canonical) {w legal f} :
    ResCanonical (s.vecShort w legal f) :=
  hs.issue fun _ ht => ht.finish

@[simp] theorem State.Canonical.setVl {s : State} (hs : s.Canonical) {w d m t l sw avl} :
    ResCanonical (s.setVl w d m t l sw avl) := by
  simp +contextual [State.setVl, hs]

@[simp] theorem execVsetl_canonical {s : State} (hs : s.Canonical) {d a m t l sw} :
    ResCanonical (execVsetl d a m t l sw s) :=
  hs.setVl

@[simp] theorem execVsetli_canonical {s : State} (hs : s.Canonical) {d u m t l sw} :
    ResCanonical (execVsetli d u m t l sw s) :=
  hs.setVl

/-! ### VecFp -/

@[simp] theorem State.Canonical.vfp {s : State} (hs : s.Canonical) {w d a b m k long f} :
    ResCanonical (s.vfp w d a b m k long f) := by
  simp [State.vfp, hs]

@[simp] theorem execVfsqrt_canonical {s : State} (hs : s.Canonical) {d a m} : ResCanonical (execVfsqrt d a m s) :=
  hs.vfp

@[simp] theorem execVfabs_canonical {s : State} (hs : s.Canonical) {d a m} : ResCanonical (execVfabs d a m s) :=
  hs.vfp

@[simp] theorem execVfneg_canonical {s : State} (hs : s.Canonical) {d a m} : ResCanonical (execVfneg d a m s) :=
  hs.vfp

/-! ### VecInt -/

@[simp] theorem State.Canonical.vint {s : State} (hs : s.Canonical) {w d a b m k f} :
    ResCanonical (s.vint w d a b m k f) := by
  simp [State.vint, hs]

@[simp] theorem State.Canonical.vwide {s : State} (hs : s.Canonical) {w d a b m ok dw aw f} :
    ResCanonical (s.vwide w d a b m ok dw aw f) := by
  simp [State.vwide, hs]

@[simp] theorem execVmergeVv_canonical {s : State} (hs : s.Canonical) {d a b} :
    ResCanonical (execVmergeVv d a b s) := by
  simp [execVmergeVv, hs]

@[simp] theorem execVmergeVx_canonical {s : State} (hs : s.Canonical) {d a x} :
    ResCanonical (execVmergeVx d a x s) := by
  simp [execVmergeVx, hs]

@[simp] theorem execVmvVv_canonical {s : State} (hs : s.Canonical) {d a m} : ResCanonical (execVmvVv d a m s) := by
  simp [execVmvVv, hs]

@[simp] theorem execVmvVx_canonical {s : State} (hs : s.Canonical) {d x m} : ResCanonical (execVmvVx d x m s) := by
  simp [execVmvVx, hs]

@[simp] theorem execVnclipVv_canonical {s : State} (hs : s.Canonical) {d a b m u} :
    ResCanonical (execVnclipVv d a b m u s) :=
  hs.vwide

@[simp] theorem execVnclipVx_canonical {s : State} (hs : s.Canonical) {d a x m u} :
    ResCanonical (execVnclipVx d a x m u s) :=
  hs.vwide

@[simp] theorem execVwaddVv_canonical {s : State} (hs : s.Canonical) {d a b m u} :
    ResCanonical (execVwaddVv d a b m u s) :=
  hs.vwide

@[simp] theorem execVwaddVx_canonical {s : State} (hs : s.Canonical) {d a x m u} :
    ResCanonical (execVwaddVx d a x m u s) :=
  hs.vwide

@[simp] theorem execVwmulVv_canonical {s : State} (hs : s.Canonical) {d a b m u} :
    ResCanonical (execVwmulVv d a b m u s) :=
  hs.vwide

@[simp] theorem execVwmulVx_canonical {s : State} (hs : s.Canonical) {d a x m u} :
    ResCanonical (execVwmulVx d a x m u s) :=
  hs.vwide

@[simp] theorem execVext_canonical {s : State} (hs : s.Canonical) {d a m f u} :
    ResCanonical (execVext d a m f u s) := by
  simp [execVext, hs]

/-! ### VecMem -/

/-- The state that the checks of a vector element leave is canonical, where they leave one. -/
def ElemTr.Canonical : ElemTr → Prop
  | .ok _ t => t.Canonical
  | .walk t => t.Canonical
  | .absent t => t.Canonical
  | .fault _ => True

theorem State.Canonical.elemTr {s : State} (hs : s.Canonical) {k va n quiet} : (s.elemTr k va n quiet).Canonical := by
  unfold State.elemTr
  split
  · trivial
  · split
    · trivial
    · split
      · split
        · split
          exacts [hs.replan, hs.replan.fillTlb]
        · exact hs.fillTlb
      · split
        · exact hs.replan
        · exact .ite hs hs.replan
      · trivial
      · trivial

/-- The state in which the elements of a vector access end is canonical, where there is one. -/
def VEnd.Canonical : VEnd → Prop
  | .done t _ _ => t.Canonical
  | .wait t _ _ _ => t.Canonical
  | .walk t _ _ _ => t.Canonical
  | .absent t _ _ _ => t.Canonical
  | .trap t _ _ _ _ => t.Canonical
  | .poison t _ _ _ => t.Canonical
  | .lost => True

theorem State.Canonical.vloadElems {s : State} (hs : s.Canonical) {d a k ew atHome ff base r far first l} :
    (State.vloadElems d a k ew atHome ff base s r far first l).Canonical := by
  induction l generalizing s r far first with
  | nil => exact hs
  | cons i l ih =>
    unfold State.vloadElems
    extract_lets n va
    have hx := hs.elemTr (k := .rd) (va := va) (n := n) (quiet := ff && !first)
    split
    · next h => rw [h] at hx; exact hx
    · next h => rw [h] at hx; exact hx
    · exact hs
    · next h =>
      rw [h] at hx
      split
      · exact ih hx
      · split
        · next hr => exact ih (hx.read hr)
        · exact hx
        · exact hx
        · trivial

theorem State.Canonical.vstoreElems {s : State} (hs : s.Canonical) {d a k ew r far l} :
    (State.vstoreElems d a k ew s r far l).Canonical := by
  induction l generalizing s r far with
  | nil => exact hs
  | cons i l ih =>
    unfold State.vstoreElems
    extract_lets n va b
    have hx := hs.elemTr (k := .wr) (va := va) (n := n) (quiet := false)
    split
    · next h => rw [h] at hx; exact hx
    · next h => rw [h] at hx; exact hx
    · exact hs
    · next h =>
      rw [h] at hx
      split
      · exact ih hx.ctlStore
      · split
        · trivial
        · split
          · exact hx
          · split
            · exact hx
            · split
              · next hu => exact ih (hx.storeAt hu).noteStitch
              · exact hx

@[simp] theorem State.Canonical.atElem {s : State} (hs : s.Canonical) {r i} : (s.atElem r i).Canonical := hs.setR

theorem State.Canonical.vmemEnd {s : State} (hs : s.Canonical) {w k emul16 vds keep ff first e} (he : VEnd.Canonical e) :
    ResCanonical (s.vmemEnd w k emul16 vds keep ff first e) := by
  cases e with
  | done t r far => exact State.Canonical.next (.ite he.finishLong he.finish)
  | wait t r i y => exact State.Canonical.waitOn (.ite he.atElem he.setR)
  | walk t r i va => exact State.Canonical.waitWalk (.ite he.atElem he.setR)
  | absent t r i va => exact .ite he.finishLong he.atElem.startRunahead
  | trap t r i c va => exact .ite he.finishLong he.atElem.trap
  | poison t r i va => exact .ite he.finishLong he.atElem.consume
  | lost => exact hs.lostAccess

@[simp] theorem State.Canonical.vload {s : State} (hs : s.Canonical) {w d a k ew m wf ff} :
    ResCanonical (s.vload w d a k ew m wf ff) := by
  unfold State.vload
  extract_lets r dg l n legal addrs
  exact hs.issueMem fun _ ht => .ite ht.finish (.ite ht.waitOn (ht.vmemEnd ht.vloadElems))

@[simp] theorem State.Canonical.vstore {s : State} (hs : s.Canonical) {w d a k ew m wf} :
    ResCanonical (s.vstore w d a k ew m wf) := by
  unfold State.vstore
  extract_lets r dg l n legal addrs
  exact hs.issueMem fun _ ht => .ite ht.finish (.ite ht.waitOn (ht.vmemEnd ht.vstoreElems))

/-! ### VecPerm -/

@[simp] theorem State.Canonical.vperm {s : State} (hs : s.Canonical) {w d src m k up keep f} :
    ResCanonical (s.vperm w d src m k up keep f) := by
  simp [State.vperm, hs]

@[simp] theorem execVslideup_canonical {s : State} (hs : s.Canonical) {d a x m} :
    ResCanonical (execVslideup d a x m s) :=
  hs.vperm

@[simp] theorem execVslidedn_canonical {s : State} (hs : s.Canonical) {d a x m} :
    ResCanonical (execVslidedn d a x m s) :=
  hs.vperm

@[simp] theorem execVslide1up_canonical {s : State} (hs : s.Canonical) {d a x m} :
    ResCanonical (execVslide1up d a x m s) :=
  hs.vperm

@[simp] theorem execVslide1dn_canonical {s : State} (hs : s.Canonical) {d a x m} :
    ResCanonical (execVslide1dn d a x m s) :=
  hs.vperm

@[simp] theorem execVgath_canonical {s : State} (hs : s.Canonical) {d a b m} :
    ResCanonical (execVgath d a b m s) := by
  simp [execVgath, hs]

@[simp] theorem execVcompress_canonical {s : State} (hs : s.Canonical) {d a b} :
    ResCanonical (execVcompress d a b s) := by
  simp [execVcompress, hs]

@[simp] theorem execViota_canonical {s : State} (hs : s.Canonical) {d a m} : ResCanonical (execViota d a m s) :=
  hs.vperm

@[simp] theorem execVid_canonical {s : State} (hs : s.Canonical) {d m} : ResCanonical (execVid d m s) := hs.vperm

@[simp] theorem execVmvxs_canonical {s : State} (hs : s.Canonical) {d a} : ResCanonical (execVmvxs d a s) := by
  simp +contextual [execVmvxs, hs]

@[simp] theorem execVmvsx_canonical {s : State} (hs : s.Canonical) {d x} : ResCanonical (execVmvsx d x s) := by
  simp +contextual [execVmvsx, hs]

@[simp] theorem State.Canonical.vmaskOp {s : State} (hs : s.Canonical) {w d f} : ResCanonical (s.vmaskOp w d f) :=
  hs.vecShort

@[simp] theorem execVmand_canonical {s : State} (hs : s.Canonical) {d a b} : ResCanonical (execVmand d a b s) :=
  hs.vmaskOp

@[simp] theorem execVmor_canonical {s : State} (hs : s.Canonical) {d a b} : ResCanonical (execVmor d a b s) :=
  hs.vmaskOp

@[simp] theorem execVmxor_canonical {s : State} (hs : s.Canonical) {d a b} : ResCanonical (execVmxor d a b s) :=
  hs.vmaskOp

@[simp] theorem execVmandn_canonical {s : State} (hs : s.Canonical) {d a b} : ResCanonical (execVmandn d a b s) :=
  hs.vmaskOp

@[simp] theorem execVmnot_canonical {s : State} (hs : s.Canonical) {d a} : ResCanonical (execVmnot d a s) :=
  hs.vmaskOp

@[simp] theorem execVpopc_canonical {s : State} (hs : s.Canonical) {d a m} : ResCanonical (execVpopc d a m s) :=
  hs.vecShort

@[simp] theorem execVfirst_canonical {s : State} (hs : s.Canonical) {d a m} : ResCanonical (execVfirst d a m s) :=
  hs.vecShort

@[simp] theorem execVmsbf_canonical {s : State} (hs : s.Canonical) {d a m} : ResCanonical (execVmsbf d a m s) :=
  hs.vecShort

@[simp] theorem execVcvt_canonical {s : State} (hs : s.Canonical) {d a x m c} :
    ResCanonical (execVcvt d a x m c s) := by
  simp [execVcvt, hs]

/-! ### VecRed -/

@[simp] theorem State.Canonical.vred {s : State} (hs : s.Canonical) {w d a b m fp long f} :
    ResCanonical (s.vred w d a b m fp long f) := by
  simp [State.vred, hs]

@[simp] theorem execVfredosum_canonical {s : State} (hs : s.Canonical) {d a b m} :
    ResCanonical (execVfredosum d a b m s) :=
  hs.vred

/-! ### The dispatch, the slot and the step -/

/-- Every instruction and every happening keeps memory canonical: an arm of the dispatch is one of the operations above. -/
theorem exec_canonical {s : State} (hs : s.Canonical) (i : Instr) : ResCanonical (exec i s) := by
  cases i with
  | add | sub | and | or | xor | andn | sll | srl | sra | rol | ror | slt | sltu | min | max | minu | maxu | clz | ctz |
    popc | sextb | sexth | sextw | zextw | addw | subw | sllw | srlw | sraw | mulw | mul | mulh | mulhu | mulhsu | addi |
    andi | ori | xori | slti | sltiu | slli | srli | srai | rori | movi | addpc | addiw => exact hs.alu
  | div | divu | rem | remu | divw | divuw | remw | remuw => exact hs.aluLong
  | beq | bne | blt | bge | bltu | bgeu => exact hs.branch
  | ldb | ldbu | ldh | ldhu | ldw | ldwu | ldd => exact hs.load
  | immx | hcache | hsched | hmod | hnop => exact hs.hintWord
  | fadd | fsub | fmul | fmin | fmax | feq | flt | fle | fclass | fabs | fneg | fmac | fmsac => exact hs.fpu
  | vaddVv | vaddVx | vsubVv | vsubVx | vrsubVv | vrsubVx | vmulVv | vmulVx | vmulhVv | vmulhVx | vmaccVv | vmaccVx |
    vnmsacVv | vnmsacVx | vandVv | vandVx | vorVv | vorVx | vxorVv | vxorVx | vsllVv | vsllVx | vsrlVv | vsrlVx | vsraVv |
    vsraVx | vminVv | vminVx | vmaxVv | vmaxVx | vminuVv | vminuVx | vmaxuVv | vmaxuVx | vseqVv | vseqVx | vsneVv | vsneVx
    | vsltVv | vsltVx | vsltuVv | vsltuVx | vsleVv | vsleVx | vsaddVv | vsaddVx | vssubVv | vssubVx => exact hs.vint
  | vfaddVv | vfaddVx | vfsubVv | vfsubVx | vfmulVv | vfmulVx | vfdivVv | vfdivVx | vfminVv | vfminVx | vfmaxVv | vfmaxVx
    | vfmaccVv | vfmaccVx | vfnmsacVv | vfnmsacVx | vfeqVv | vfeqVx | vfltVv | vfltVx | vfleVv | vfleVx | vfsgnjVv |
    vfsgnjVx => exact hs.vfp
  | vredsum | vredmax | vredmin | vredand | vredor | vredxor | vfredtsum | vfredmax | vfredmin | vfamax => exact hs.vred
  | vld | vlds | vldx | vldff => exact hs.vload
  | vst | vsts | vstx => exact hs.vstore
  | mma | mmas | mmat | mzero => exact hs.matrix
  | dpresSnap | dpresHold => exact hs.dpres
  | baseDieWrite | victimWrite | overflowFlush | overflowDiscard | writeMasked | shipRoutine => exact hs.baseRequest
  | coldReset => exact execColdReset_canonical hs
  | warmPackageReset => exact execWarmPackageReset_canonical hs
  | resetSequenceStepDone => exact execResetSequenceStepDone_canonical hs
  | securityVersionAdvance => exact execSecurityVersionAdvance_canonical hs
  | thermalSensorSample => exact execThermalSensorSample_canonical hs
  | powerWindowCheck => exact execPowerWindowCheck_canonical hs
  | avsRateCheck => exact execAvsRateCheck_canonical hs
  | matrixEngineRamp => exact execMatrixEngineRamp_canonical hs
  | guestTimebaseCorrection => exact execGuestTimebaseCorrection_canonical hs
  | maintGreeting => exact execMaintGreeting_canonical hs
  | portListFlood => exact execPortListFlood_canonical hs
  | portListFloodTimer => exact execPortListFloodTimer_canonical hs
  | routePacket => exact execRoutePacket_canonical hs
  | unmappedResponse => exact execUnmappedResponse_canonical hs
  | routeHoldRelease => exact execRouteHoldRelease_canonical hs
  | hopPacketReceive => exact execHopPacketReceive_canonical hs
  | recoveryNakTimeout => exact execRecoveryNakTimeout_canonical hs
  | hopAckTimer => exact execHopAckTimer_canonical hs
  | ackReceived => exact execAckReceived_canonical hs
  | nakReceived => exact execNakReceived_canonical hs
  | replayTimeout => exact execReplayTimeout_canonical hs
  | e2eNak => exact execE2eNak_canonical hs
  | laneLockTimeout => exact execLaneLockTimeout_canonical hs
  | laneFail => exact execLaneFail_canonical hs
  | trainComplete => exact execTrainComplete_canonical hs
  | trainTimeout => exact execTrainTimeout_canonical hs
  | portDownReroute => exact execPortDownReroute_canonical hs
  | portRetrainRetry => exact execPortRetrainRetry_canonical hs
  | creditTimeout => exact execCreditTimeout_canonical hs
  | quiesceNotice => exact execQuiesceNotice_canonical hs
  | resumeNotice => exact execResumeNotice_canonical hs
  | dieMapChange => exact execDieMapChange_canonical hs
  | completionAnnouncementTimer => exact execCompletionAnnouncementTimer_canonical hs
  | completionAnnouncement => exact execCompletionAnnouncement_canonical hs
  | causalWritePerform => exact execCausalWritePerform_canonical hs
  | crossDieReadPerform => exact execCrossDieReadPerform_canonical hs
  | rdcStampAgeDrop => exact execRdcStampAgeDrop_canonical hs
  | homeAtomic => exact execHomeAtomic_canonical hs
  | homeCntdec => exact execHomeCntdec_canonical hs
  | homeWrite => exact execHomeWrite_canonical hs
  | storeAck => exact execStoreAck_canonical hs
  | loadDataReturn => exact execLoadDataReturn_canonical hs
  | longOpComplete => exact execLongOpComplete_canonical hs
  | baseDieRead => exact execBaseDieRead_canonical hs
  | refreshWindowStart => exact execRefreshWindowStart_canonical hs
  | maskedMergeComplete => exact execMaskedMergeComplete_canonical hs
  | stitchWrite => exact execStitchWrite_canonical hs
  | requesterReply => exact execRequesterReply_canonical hs
  | baseDiePortLoss => exact execBaseDiePortLoss_canonical hs
  | patrolScrub => exact execPatrolScrub_canonical hs
  | occtlWrite => exact execOcctlWrite_canonical hs
  | overflowDrainDone => exact execOverflowDrainDone_canonical hs
  | routineTableWrite => exact execRoutineTableWrite_canonical hs
  | registerWrite => exact execRegisterWrite_canonical hs
  | faultEvent => exact execFaultEvent_canonical hs
  | probeTimeout => exact execProbeTimeout_canonical hs
  | timingDetectorReplay => exact execTimingDetectorReplay_canonical hs
  | retirementProposal => exact execRetirementProposal_canonical hs
  | voteAnswerTimeout => exact execVoteAnswerTimeout_canonical hs
  | peerVote => exact execPeerVote_canonical hs
  | peerVoteTimeout => exact execPeerVoteTimeout_canonical hs
  | gracefulCoreRetirement => exact execGracefulCoreRetirement_canonical hs
  | abruptCoreRetirement => exact execAbruptCoreRetirement_canonical hs
  | stackRetirement => exact execStackRetirement_canonical hs
  | stackRebuildSector => exact execStackRebuildSector_canonical hs
  | stackRebuildDone => exact execStackRebuildDone_canonical hs
  | dieSubstitutionLocal => exact execDieSubstitutionLocal_canonical hs
  | dieSubstitutionRemote => exact execDieSubstitutionRemote_canonical hs
  | heartbeatTimer => exact execHeartbeatTimer_canonical hs
  | heartbeatMiss => exact execHeartbeatMiss_canonical hs
  | packageLoss => exact execPackageLoss_canonical hs
  | stitchDeltaReceive => exact execStitchDeltaReceive_canonical hs
  | stitchResendTimeout => exact execStitchResendTimeout_canonical hs
  | stitchUnitDelta => exact execStitchUnitDelta_canonical hs
  | stitchAckReceive => exact execStitchAckReceive_canonical hs
  | scpHello => exact execScpHello_canonical hs
  | scpAuth => exact execScpAuth_canonical hs
  | scpAck => exact execScpAck_canonical hs
  | scpBye => exact execScpBye_canonical hs
  | scpCommandReceive => exact execScpCommandReceive_canonical hs
  | scpDiscard => exact hs
  | scpAckTimer => exact execScpAckTimer_canonical hs
  | scpResendTimer => exact execScpResendTimer_canonical hs
  | scpIdleTimeout => exact execScpIdleTimeout_canonical hs
  | portFailover => exact execPortFailover_canonical hs
  | hostLinkDownTimeout => exact execHostLinkDownTimeout_canonical hs
  | openTenant => exact execOpenTenant_canonical hs
  | close => exact execClose_canonical hs
  | mapwin => exact execMapwin_canonical hs
  | templates => exact execTemplates_canonical hs
  | routines => exact execRoutines_canonical hs
  | launch => exact execLaunch_canonical hs
  | cntsetSet => exact execCntsetSet_canonical hs
  | cntsetDec => exact execCntsetDec_canonical hs
  | copyin => exact execCopyin_canonical hs
  | copyout => exact execCopyout_canonical hs
  | waitev => exact execWaitev_canonical hs
  | waitevTimeout => exact execWaitevTimeout_canonical hs
  | groupCreate => exact execGroupCreate_canonical hs
  | groupPoison => exact execGroupPoison_canonical hs
  | ckpt => exact execCkpt_canonical hs
  | restore => exact execRestore_canonical hs
  | reset => exact execReset_canonical hs
  | attest => exact execAttest_canonical hs
  | powercap => exact execPowercap_canonical hs
  | pagedata => exact execPagedata_canonical hs
  | pageout => exact execPageout_canonical hs
  | eventDelayExpiry => exact execEventDelayExpiry_canonical hs
  | waiterPoolEntryFree => exact execWaiterPoolEntryFree_canonical hs
  | trapResolution => exact execTrapResolution_canonical hs
  | supervisorTrap => exact execSupervisorTrap_canonical hs
  | pageEviction => exact execPageEviction_canonical hs
  | pageMigration => exact execPageMigration_canonical hs
  | migrationSwitch => exact execMigrationSwitch_canonical hs
  | migrationAbort => exact execMigrationAbort_canonical hs
  | spoutBind => exact execSpoutBind_canonical hs
  | preemptionTimer => exact execPreemptionTimer_canonical hs
  | spillStart => exact execSpillStart_canonical hs
  | harvestUnpark => exact execHarvestUnpark_canonical hs
  | domainFault => exact execDomainFault_canonical hs
  | domainRestart => exact execDomainRestart_canonical hs
  | pageWalkComplete => exact execPageWalkComplete_canonical hs
  | runaheadEnd => exact execRunaheadEnd_canonical hs
  | monitorFire => exact execMonitorFire_canonical hs
  | monitorTimeout => exact execMonitorTimeout_canonical hs
  | holdViolationRemote => exact execHoldViolationRemote_canonical hs
  | start => exact execStart_canonical hs
  | copyAccept => exact execCopyAccept_canonical hs
  | copyComplete => exact execCopyComplete_canonical hs
  | copySuspend => exact execCopySuspend_canonical hs
  | copyResume => exact execCopyResume_canonical hs
  | copyFaultEnd => exact execCopyFaultEnd_canonical hs
  | scoreboardEntryFree => exact execScoreboardEntryFree_canonical hs
  | matrixOpStart => exact execMatrixOpStart_canonical hs
  | matrixBlockEnd => exact execMatrixBlockEnd_canonical hs
  | matrixCommit => exact execMatrixCommit_canonical hs
  | weirPartialForward => exact execWeirPartialForward_canonical hs
  | weirPartialArrival => exact execWeirPartialArrival_canonical hs
  | weirVerdict => exact execWeirVerdict_canonical hs
  | weirRecordReceive => exact execWeirRecordReceive_canonical hs
  | send => exact execSend_canonical hs
  | recv => exact execRecv_canonical hs
  | rrs => exact execRrs_canonical hs
  | stepCopy => exact execStepCopy_canonical hs
  | stepWait => exact execStepWait_canonical hs
  | stepLoop => exact execStepLoop_canonical hs
  | stepEndloop => exact execStepEndloop_canonical hs
  | qround => exact execQround_canonical hs
  | stepEnd => exact execStepEnd_canonical hs
  | stepProgramFault => exact execStepProgramFault_canonical hs
  | loopEndCheck => exact execLoopEndCheck_canonical hs
  | fullEmptyChange => exact execFullEmptyChange_canonical hs
  | unassignedEncoding => exact execUnassignedEncoding_canonical hs
  | reservedHintKind => exact execReservedHintKind_canonical hs
  | instructionFetch => exact execInstructionFetch_canonical hs
  | creditReturn => exact execCreditReturn_canonical hs
  | stepMessageWritten => exact execStepMessageWritten_canonical hs
  | supervisorCoreRestart => exact execSupervisorCoreRestart_canonical hs
  | directedRefreshDone => exact execDirectedRefreshDone_canonical hs
  | fdiv => exact execFdiv_canonical hs
  | fsqrt => exact execFsqrt_canonical hs
  | fcvt => exact execFcvt_canonical hs
  | loop => exact execLoop_canonical hs
  | jal => exact execJal_canonical hs
  | jalr => exact execJalr_canonical hs
  | stb => exact execStb_canonical hs
  | sth => exact execSth_canonical hs
  | stw => exact execStw_canonical hs
  | std => exact execStd_canonical hs
  | ldro => exact execLdro_canonical hs
  | ldf => exact execLdf_canonical hs
  | stf => exact execStf_canonical hs
  | fence => exact execFence_canonical hs
  | roinv => exact execRoinv_canonical hs
  | mwarm => exact execMwarm_canonical hs
  | mwait => exact execMwait_canonical hs
  | feset => exact execFeset_canonical hs
  | feclr => exact execFeclr_canonical hs
  | fest => exact execFest_canonical hs
  | cflush => exact execCflush_canonical hs
  | cinv => exact execCinv_canonical hs
  | pref => exact execPref_canonical hs
  | aadd => exact execAadd_canonical hs
  | aand => exact execAand_canonical hs
  | aor => exact execAor_canonical hs
  | axor => exact execAxor_canonical hs
  | amin => exact execAmin_canonical hs
  | amax => exact execAmax_canonical hs
  | aminu => exact execAminu_canonical hs
  | amaxu => exact execAmaxu_canonical hs
  | aswap => exact execAswap_canonical hs
  | acas => exact execAcas_canonical hs
  | afadd => exact execAfadd_canonical hs
  | afmaxabs => exact execAfmaxabs_canonical hs
  | amaxrst => exact execAmaxrst_canonical hs
  | ship => exact execShip_canonical hs
  | trap => exact execTrap_canonical hs
  | eret => exact execEret_canonical hs
  | srrd => exact execSrrd_canonical hs
  | srwr => exact execSrwr_canonical hs
  | srset => exact execSrset_canonical hs
  | srclr => exact execSrclr_canonical hs
  | halt => exact execHalt_canonical hs
  | bkpt => exact execBkpt_canonical hs
  | ifence => exact execIfence_canonical hs
  | tlbinv => exact execTlbinv_canonical hs
  | ctxres => exact execCtxres_canonical hs
  | wfe => exact execWfe_canonical hs
  | vsetl => exact execVsetl_canonical hs
  | vsetli => exact execVsetli_canonical hs
  | vmergeVv => exact execVmergeVv_canonical hs
  | vmergeVx => exact execVmergeVx_canonical hs
  | vmvVv => exact execVmvVv_canonical hs
  | vmvVx => exact execVmvVx_canonical hs
  | vnclipVv => exact execVnclipVv_canonical hs
  | vnclipVx => exact execVnclipVx_canonical hs
  | vwaddVv => exact execVwaddVv_canonical hs
  | vwaddVx => exact execVwaddVx_canonical hs
  | vwmulVv => exact execVwmulVv_canonical hs
  | vwmulVx => exact execVwmulVx_canonical hs
  | vext => exact execVext_canonical hs
  | vfsqrt => exact execVfsqrt_canonical hs
  | vfabs => exact execVfabs_canonical hs
  | vfneg => exact execVfneg_canonical hs
  | vfredosum => exact execVfredosum_canonical hs
  | vslideup => exact execVslideup_canonical hs
  | vslidedn => exact execVslidedn_canonical hs
  | vslide1up => exact execVslide1up_canonical hs
  | vslide1dn => exact execVslide1dn_canonical hs
  | vgath => exact execVgath_canonical hs
  | vcompress => exact execVcompress_canonical hs
  | viota => exact execViota_canonical hs
  | vid => exact execVid_canonical hs
  | vmvxs => exact execVmvxs_canonical hs
  | vmvsx => exact execVmvsx_canonical hs
  | vmand => exact execVmand_canonical hs
  | vmor => exact execVmor_canonical hs
  | vmxor => exact execVmxor_canonical hs
  | vmandn => exact execVmandn_canonical hs
  | vmnot => exact execVmnot_canonical hs
  | vpopc => exact execVpopc_canonical hs
  | vfirst => exact execVfirst_canonical hs
  | vmsbf => exact execVmsbf_canonical hs
  | vcvt => exact execVcvt_canonical hs
  | mshape => exact execMshape_canonical hs
  | mstat => exact execMstat_canonical hs
  | spawn => exact execSpawn_canonical hs
  | spawnc => exact execSpawnc_canonical hs
  | twait => exact execTwait_canonical hs
  | texit => exact execTexit_canonical hs
  | yield => exact execYield_canonical hs
  | cntinit => exact execCntinit_canonical hs
  | cntdec => exact execCntdec_canonical hs
  | cntwait => exact execCntwait_canonical hs
  | launchd => exact execLaunchd_canonical hs
  | tself => exact execTself_canonical hs
  | dbegin => exact execDbegin_canonical hs
  | dend => exact execDend_canonical hs
  | dchk => exact execDchk_canonical hs
  | dabort => exact execDabort_canonical hs
  | dlevel => exact execDlevel_canonical hs
  | lend => exact execLend_canonical hs
  | unlend => exact execUnlend_canonical hs
  | hstat => exact execHstat_canonical hs
  | qpost => exact execQpost_canonical hs
  | qwait => exact execQwait_canonical hs
  | qstart => exact execQstart_canonical hs
  | qstat => exact execQstat_canonical hs
  | qresync => exact execQresync_canonical hs

/-- A slot of the rotation keeps memory canonical: the word it fetches runs as an instruction. -/
theorem issueSlot_canonical {s : State} (hs : s.Canonical) : ResCanonical (issueSlot s) := by
  unfold issueSlot
  refine .ite (exec_canonical hs _) ?_
  split
  · exact hs.takeBoundary
  · refine .ite (exec_canonical hs _) ?_
    have hf := exec_canonical hs .instructionFetch
    split
    · next ht =>
      rw [ht] at hf
      split
      exacts [exec_canonical hf.of_mem _, hf]
    · exact hf

/-- Every step keeps memory canonical, whatever happens in it. -/
theorem step_canonical {s : State} (hs : s.Canonical) : ResCanonical (step s) := by
  unfold step
  split
  · exact .ite (exec_canonical hs.of_mem _) (State.Canonical.next hs.of_mem)
  · refine .ite hs ?_
    split
    · split
      exacts [exec_canonical hs _, State.Canonical.next hs.of_mem]
    · split
      exacts [exec_canonical hs _, issueSlot_canonical hs.toSlot]

/-- Settles O3, by one lemma for every operation of the model that gives a state. -/
theorem stepKeepsMemoryCanonical : Obligations.StepKeepsMemoryCanonical := by
  intro s t hs hst
  have h : ResCanonical (step s) := step_canonical hs
  rwa [hst] at h

end Sys2Proof.Machine

/-!
# The package right after reset
-/

namespace Sys2Proof.Machine

open Claims

/-- Every context of the machine right after reset is in its reset condition. -/
theorem ctx_reset (c : CtxId) : State.reset.ctx c = {} := by
  unfold State.ctx
  split <;> rfl

/-- Settles O1: nothing is listed in the memory, the full/empty bits, the poison marks and the banks of the reset state. -/
theorem resetLeavesZero : Obligations.ResetLeavesZero := by
  refine ⟨rfl, rfl, fun _ => rfl, fun _ => rfl, fun a n => List.any_eq_false.mpr fun _ _ => Bool.false_ne_true, fun c => ?_⟩
  rw [ctx_reset]
  exact ⟨rfl, fun n => ite_self _, fun _ => rfl, rfl⟩

/-- Settles O2. -/
theorem resetMemoryCanonical : Obligations.ResetMemoryCanonical := reset_mem_wf

end Sys2Proof.Machine

/-!
# Reset, power and the fabric

A lemma for each step of the package: what the reset sequence, the sensors, the ports, the routers and a change of the die map do.
The folds of the model over dies, stacks, ports and routers are read one place at a time.
-/

namespace Sys2Proof.Machine

open Claims

/-! ### Folds over lists of places -/

/-- What every step of a fold over the machine leaves unchanged, the fold leaves unchanged. -/
theorem State.foldl_keeps {α β : Type} {g : State → β} {f : State → α → State} {l : List α} {s t : State} (ht : l.foldl f s = t)
    (h : ∀ t, ∀ e ∈ l, g (f t e) = g t := by exact fun _ _ _ => rfl) : g t = g s :=
  ht ▸ List.foldlRecOn (motive := fun t => g t = g s) l f rfl fun t ht e he => (h t e he).trans ht

/-- Where the elements of a list name different places, and each step writes its own place alone, a place reads after the fold as its one
step wrote it. -/
theorem foldl_at {σ ι β : Type} {key : ι → Nat} {f : σ → ι → σ} {g : σ → Nat → β} {w : ι → β → β} {l : List ι}
    (same : ∀ t, ∀ e ∈ l, g (f t e) (key e) = w e (g t (key e)))
    (other : ∀ t, ∀ e ∈ l, ∀ x ∈ l, key x ≠ key e → g (f t e) (key x) = g t (key x))
    (hl : (l.map key).Nodup) {e : ι} (he : e ∈ l) (s : σ) : g (l.foldl f s) (key e) = w e (g s (key e)) := by
  induction l generalizing s with
  | nil => cases he
  | cons a l ih =>
    obtain ⟨ha, hl⟩ := List.nodup_cons.mp hl
    have hne : ∀ x ∈ l, key a ≠ key x := fun x hx h => ha (h ▸ List.mem_map_of_mem hx)
    have hin := fun (x : ι) (hx : x ∈ l) => List.mem_cons_of_mem a hx
    have hmem := List.mem_cons_self (a := a) (l := l)
    rw [List.foldl_cons]
    rcases List.mem_cons.mp he with rfl | he
    · rw [← same _ _ hmem]
      exact List.foldlRecOn (motive := fun t => g t (key e) = g (f s e) (key e)) l f rfl
        fun t ht x hx => (other t x (hin x hx) e hmem (hne x hx)).trans ht
    · rw [ih (fun t x hx => same t x (hin x hx)) (fun t x hx y hy => other t x (hin x hx) y (hin y hy)) hl he,
        other _ _ hmem e (hin e he) (hne e he).symm]

/-- A fold over the first numbers changes what stands at each of them once. -/
theorem foldl_range_at {σ β : Type} {g : σ → Nat → β} {f : σ → Nat → σ} {w : Nat → β → β} {n : Nat}
    (same : ∀ t d, g (f t d) d = w d (g t d)) (other : ∀ t d k, k ≠ d → g (f t d) k = g t k) {d : Nat} (hd : d < n) (s : σ) :
    g ((List.range n).foldl f s) d = w d (g s d) :=
  foldl_at (key := id) (fun t e _ => same t e) (fun t e _ x _ => other t e x) (by simpa using List.nodup_range)
    (List.mem_range.mpr hd) s

/-- A fold over the elements of a list with their indices writes what stands at each index once. -/
theorem foldl_zipIdx_at {σ α β : Type} {g : σ → Nat → β} {f : σ → α × Nat → σ} {w : α → β → β} {l : List α}
    (same : ∀ t a i, l[i]? = some a → g (f t (a, i)) i = w a (g t i))
    (other : ∀ t a, ∀ i < l.length, ∀ k < l.length, k ≠ i → g (f t (a, i)) k = g t k)
    {i : Nat} {a : α} (hi : l[i]? = some a) (s : σ) : g (l.zipIdx.foldl f s) i = w a (g s i) := by
  have hlt : ∀ e ∈ l.zipIdx, e.2 < l.length := fun e he => by simpa using (List.mem_zipIdx he).2.1
  refine foldl_at (key := Prod.snd) (w := fun e => w e.1) (fun t e he => same t e.1 e.2 (List.mem_zipIdx_iff_getElem?.mp he))
    (fun t e he x hx => other t e.1 e.2 (hlt e he) x.2 (hlt x hx)) ?_ (e := (a, i)) (List.mem_zipIdx_iff_getElem?.mpr hi) s
  rw [List.zipIdx_map_snd]
  exact List.nodup_range'

/-! ### Reading beside a write -/

/-- A write leaves every other key as it was, whatever the default read there. -/
theorem SMap.look_put_ne {α : Type} [DecidableEq α] {d d' : α} (m : SMap α) {k i : Nat} (v : α) (h : i ≠ k) :
    SMap.look d' (SMap.put d m k v) i = SMap.look d' m i := by
  induction m with
  | nil =>
    unfold SMap.put
    split
    · rfl
    · simp [SMap.look, h.symm]
  | cons e t ih =>
    obtain ⟨j, x⟩ := e
    unfold SMap.put
    split
    · simp only [SMap.look, ih]
    · split
      · exact SMap.look_drop_other _ h
      · simp only [SMap.look, h.symm, if_false]
        exact SMap.look_drop_other _ h

/-- Taking entries out by their key leaves every other key as it was. -/
theorem SMap.look_filter_fst {α : Type} {d : α} (m : SMap α) (p : Nat → Bool) {k : Nat} (h : p k = true) :
    SMap.look d (m.filter fun e => p e.1) k = SMap.look d m k := by
  induction m with
  | nil => rfl
  | cons e t ih =>
    obtain ⟨j, x⟩ := e
    by_cases hj : p j = true
    · simp only [List.filter_cons_of_pos, hj, SMap.look, ih]
    · have hjk : j ≠ k := fun e => hj (e ▸ h)
      simp [hj, SMap.look, hjk, ih]

/-- A key whose entries are taken out reads as the default. -/
theorem SMap.look_filter_fst_of_not {α : Type} {d : α} (m : SMap α) (p : Nat → Bool) {k : Nat} (h : p k = false) :
    SMap.look d (m.filter fun e => p e.1) k = d :=
  SMap.look_of_above fun e he hk => by simp [hk, h] at he

/-- Another port reads as it was. -/
theorem State.port_onPort_other (s : State) {j k : Nat} (f : PortSt → PortSt) (h : k ≠ j) : (s.onPort j f).port k = s.port k :=
  SMap.look_put_ne _ _ h

/-- A router's register reads as written, but for its reserved bits. -/
theorem State.router_setRouter_same (s : State) (k off : Nat) (v : BitVec 32) :
    (s.setRouter k off v).router k off = v &&& routerMask off :=
  SMap.look_put_same ..

/-- Another place among the registers of the routers reads as it was. -/
theorem State.router_setRouter_other (s : State) {k off j o : Nat} (v : BitVec 32) (h : routerBase j + o ≠ routerBase k + off) :
    (s.setRouter k off v).router j o = s.router j o :=
  SMap.look_put_ne _ _ h

/-- Another context reads as it was. -/
theorem State.ctx_setCtx_other (s : State) {c e : CtxId} (x : Ctx) (hk : e.key ≠ c.key) : (s.setCtx c x).ctx e = s.ctx e := by
  have hne : e ≠ c := fun h => hk (h ▸ rfl)
  by_cases hc : c = s.cur
  · subst hc
    simp [State.setCtx, State.ctx, hne]
  · simp [State.setCtx, State.ctx, hc, SMap.look_put_other _ _ hk]

/-- A list of places with a value each, as a map. -/
theorem SMap.look_map_of_mem {α : Type} {d : α} (f : Nat → α) {l : List Nat} {k : Nat} (hk : k ∈ l) :
    SMap.look d (l.map fun j => (j, f j)) k = f k := by
  induction l with
  | nil => cases hk
  | cons a l ih =>
    rw [List.map_cons, SMap.look]
    split
    · next h => rw [h]
    · next h => exact ih ((List.mem_cons.mp hk).resolve_left (Ne.symm h))

/-! ### Router registers -/

/-- The state with other router registers. -/
def State.withRegs (s : State) (r : SMap (BitVec 32)) : State := { s with fab := { s.fab with regs := r } }

/-- A fold of which each step changes router registers alone changes those alone. -/
theorem foldl_withRegs {α : Type} {f : State → α → State} (h : ∀ t e, ∃ r, f t e = t.withRegs r) (l : List α) (s : State) :
    ∃ r, l.foldl f s = s.withRegs r := by
  induction l generalizing s with
  | nil => exact ⟨s.fab.regs, rfl⟩
  | cons a l ih =>
    obtain ⟨r, hr⟩ := h s a
    obtain ⟨r', hr'⟩ := ih (f s a)
    exact ⟨r', by rw [List.foldl_cons, hr', hr]; rfl⟩

theorem State.setRouters_eq (s : State) (off : Nat) (v : BitVec 32) : ∃ r, s.setRouters off v = s.withRegs r :=
  foldl_withRegs (fun _ _ => ⟨_, rfl⟩) _ _

theorem State.clearRouters_eq (s : State) : ∃ r, s.clearRouters = s.withRegs r :=
  foldl_withRegs (fun t i => t.setRouters_eq (4 * i) 0#32) _ _

/-- What does not look at the router registers is as before a write of one of them. -/
theorem State.setRouters_keeps {β : Type} (g : State → β) (hg : ∀ t r, g (t.withRegs r) = g t) (s : State) (off : Nat) (v : BitVec 32) :
    g (s.setRouters off v) = g s := by
  obtain ⟨r, hr⟩ := s.setRouters_eq off v
  rw [hr, hg]

theorem State.clearRouters_keeps {β : Type} (g : State → β) (hg : ∀ t r, g (t.withRegs r) = g t) (s : State) :
    g s.clearRouters = g s := by
  obtain ⟨r, hr⟩ := s.clearRouters_eq
  rw [hr, hg]

/-- A register written in every router reads so in each of them, but for its reserved bits (R44). -/
theorem State.router_setRouters_same (s : State) (off : Nat) (v : BitVec 32) {k : Nat} (hk : k < 20) :
    (s.setRouters off v).router k off = v &&& routerMask off :=
  foldl_range_at (g := fun t j => t.router j off) (w := fun _ _ => v &&& routerMask off)
    (fun t j => t.router_setRouter_same j off v)
    (fun t j i h => t.router_setRouter_other v (by unfold routerBase; omega)) hk s

/-- The other registers of the routers read as they were. -/
theorem State.router_setRouters_other (s : State) {off o : Nat} (v : BitVec 32) (k : Nat) (h : o ≠ off) (ho : o < 0x100000)
    (hoff : off < 0x100000) : (s.setRouters off v).router k o = s.router k o :=
  State.foldl_keeps (g := (·.router k o)) rfl (fun t _ _ => t.router_setRouter_other v (by unfold routerBase; omega))

/-- A map entry keeps every bit under a mask that has VALID, the package and the unit's bits (Table 2.2). -/
theorem entry_and_mask {w : Nat} (id : BitVec 12) (u : BitVec w) {mask : BitVec 32}
    (hm : ∀ i < 32, i < w ∨ 12 ≤ i ∧ i < 24 ∨ i = 31 → mask.getLsbD i = true) :
    (0x80000000#32 ||| (id.setWidth 32 <<< 12) ||| u.setWidth 32) &&& mask = 0x80000000#32 ||| (id.setWidth 32 <<< 12) ||| u.setWidth 32 := by
  have htop : ∀ i < 32, (0x80000000#32).getLsbD i = true → i = 31 := by decide
  refine BitVec.eq_of_getLsbD_eq fun i hi => ?_
  rw [BitVec.getLsbD_and, Bool.and_eq_left_iff_imp]
  intro h
  simp only [BitVec.getLsbD_or, BitVec.getLsbD_shiftLeft, BitVec.getLsbD_setWidth, Bool.or_eq_true, Bool.and_eq_true] at h
  obtain (h | h) | h := h
  · exact hm i hi (.inr (.inr (htop i hi h)))
  · have := BitVec.lt_of_getLsbD h.2.2
    have : ¬ i < 12 := by simpa using h.1.2
    exact hm i hi (.inr (.inl (by omega)))
  · exact hm i hi (.inl (BitVec.lt_of_getLsbD h.2))

/-- A map entry of this package has none of the reserved bits (Table 2.2). -/
theorem ownEntry_and_routerMask (id : BitVec 12) {unit off : Nat} (hu : unit < 64) (hoff : off < 0xC0) (hdie : off < 0x40 → unit < 32) :
    ownEntry id unit &&& routerMask off = ownEntry id unit := by
  have hval : ∀ w, unit < 2 ^ w → BitVec.ofNat 32 unit = (BitVec.ofNat w unit).setWidth 32 := by
    intro w h
    apply BitVec.eq_of_toNat_eq
    simp [Nat.mod_eq_of_lt h]
  unfold ownEntry routerMask
  rw [if_pos hoff]
  split
  · next h =>
    rw [hval 5 (by omega)]
    exact entry_and_mask _ _ (by decide)
  · rw [hval 6 (by omega)]
    exact entry_and_mask _ _ (by decide)

theorem State.router_onStack (s : State) (h : Nat) (f : StackSt → StackSt) (k off : Nat) :
    (s.onStack h f).router k off = s.router k off := rfl

/-! ### Reset -/

/-- Where every bank of registers is empty, every context is. -/
theorem State.ctx_of_empty {s : State} (hx : s.cx = {}) (hb : s.banks = []) (c : CtxId) : s.ctx c = {} := by
  rw [State.ctx, hx, hb]
  split <;> rfl

theorem State.startReset_mem (s : State) : s.startReset.mem = s.mem.filter (fun c => isForeign c.1) :=
  State.clearRouters_keeps State.mem (fun _ _ => rfl) _

theorem State.startReset_hbm (s : State) : s.startReset.hbm = (List.range 34).map (fun h =>
    (h, ({ remaps := (s.stack h).remaps, retired := (s.stack h).retired, portA := false, portB := false } : StackSt))) :=
  State.clearRouters_keeps State.hbm (fun _ _ => rfl) _

theorem State.startReset_pkg (s : State) : s.startReset.pkg =
    { State.reset.pkg with boot := 0x01#8, fuse0 := s.pkg.fuse0, fuse1 := s.pkg.fuse1, flash0 := s.pkg.flash0, flash1 := s.pkg.flash1,
                           pdies := [], attach := s.pkg.attach, nonces := s.pkg.nonces, spareDies := [], spareStacks := [] } :=
  State.clearRouters_keeps State.pkg (fun _ _ => rfl) _

theorem State.startReset_fe (s : State) : s.startReset.fe = [] := State.clearRouters_keeps State.fe (fun _ _ => rfl) _

theorem State.startReset_cycle (s : State) : s.startReset.cycle = 0#64 := State.clearRouters_keeps State.cycle (fun _ _ => rfl) _

theorem State.startReset_ctx (s : State) (c : CtxId) : s.startReset.ctx c = {} :=
  State.ctx_of_empty (State.clearRouters_keeps State.cx (fun _ _ => rfl) _) (State.clearRouters_keeps State.banks (fun _ _ => rfl) _) c

/-- What COLD_RESET keeps and what it empties (R33, R35, Table 1.3). -/
theorem coldReset_ends (s : State) : Ends .coldReset s (fun t => t.pkg.boot = 0x01#8 ∧ t.pkg.powered = true ∧ t.pkg.fuse0 = s.pkg.fuse0
    ∧ t.pkg.fuse1 = s.pkg.fuse1 ∧ t.pkg.flash0 = s.pkg.flash0 ∧ t.pkg.flash1 = s.pkg.flash1
    ∧ (∀ a, isForeign a = false → t.byteAt a = 0#8) ∧ (∀ a, isForeign a = true → t.byteAt a = s.byteAt a) ∧ t.fe = [] ∧ t.cycle = 0#64
    ∧ (∀ c, t.ctx c = {}) ∧ ∀ h, h < 34 → (t.stack h).remaps = (s.stack h).remaps ∧ (t.stack h).retired = (s.stack h).retired
      ∧ (t.stack h).portA = false ∧ (t.stack h).portB = false) := by
  refine ⟨s.startReset, rfl, ?_⟩
  simp only [State.startReset_pkg, State.byteAt, State.startReset_mem, State.startReset_fe, State.startReset_cycle, State.startReset_ctx,
    State.stack, State.startReset_hbm]
  refine ⟨trivial, rfl, trivial, trivial, trivial, trivial, fun a h => SMap.look_filter_fst_of_not s.mem isForeign h,
    fun a h => SMap.look_filter_fst s.mem isForeign h, trivial, trivial, fun _ => trivial, fun h hh => ?_⟩
  rw [SMap.look_map_of_mem _ (List.mem_range.mpr hh)]
  exact ⟨rfl, rfl, rfl, rfl⟩

theorem warmPackageReset_on {s : State} (h : s.pkg.powered = true) : exec .warmPackageReset s = exec .coldReset s := by
  rw [Laws.exec_warmPackageReset, execWarmPackageReset, if_pos h]
  rfl

theorem warmPackageReset_off {s : State} (h : s.pkg.powered = false) : exec .warmPackageReset s = .next s := by
  simp [Laws.exec_warmPackageReset, execWarmPackageReset, h]

/-! ### Measured boot -/

section
variable {s : State} {r : BootReport} {x i : Nat}

/-- The state after the step of Table 1.4 that a boot status names. -/
def State.bootStep (s : State) (r : BootReport) : Nat → State
  | 1 => { s with pkg := { s.pkg with boot := 0x02#8 } }
  | 2 => s.bootImages
  | 3 => s.bootCompare
  | 4 => { s with pkg := { s.pkg with boot := 0x05#8 } }
  | 5 => s.bootBind r
  | 6 => { s with pkg := { s.pkg with boot := 0x07#8 }, cycle := 0#64 }
  | 7 => { s.scrub with pkg := { s.pkg with boot := 0x08#8 } }
  | 8 => s.startFirmware r
  | 9 => { s with host := { s.host with up := true } }
  | _ => s

/-- With power, the step of the reset sequence is that of the boot status that stands (Table 1.4). -/
theorem resetStep_of_boot {b : BitVec 8} (hp : s.pkg.powered = true) (hb : s.pkg.boot = b) :
    exec (.resetSequenceStepDone r) s = .next (s.bootStep r b.toNat) := by
  rw [Laws.exec_resetSequenceStepDone, execResetSequenceStepDone, if_neg (by simp [hp]), hb]
  generalize b.toNat = n
  match n with
  | 0 | 1 | 2 | 3 | 4 | 5 | 6 | 7 | 8 | 9 => rfl
  | _ + 10 => rfl

/-- A slot that the boot ROM takes holds four images (R29). -/
theorem slotOf_length {d : Flash} {f : Fuses} {l : List Sys2Proof.Image} {c : FwConfig} (h : slotOf d f = some (l, c)) : l.length = 4 := by
  unfold slotOf at h
  dsimp only at h
  split at h
  · next ha =>
    cases h
    simp only [Bool.and_eq_true, decide_eq_true_eq] at ha
    exact ha.1
  · split at h
    · next hb =>
      cases h
      simp only [Bool.and_eq_true, decide_eq_true_eq] at hb
      exact hb.1
    · cases h

theorem State.slotAt_length {l : List Sys2Proof.Image} {c : FwConfig} (h : s.slotAt x = some (l, c)) : l.length = 4 := by
  unfold State.slotAt at h
  split at h
  exacts [slotOf_length h, slotOf_length h]

/-- A measurement register of a service processor. -/
def State.measAt (s : State) (j : Nat) : BitVec 384 := SMap.look 0#384 s.pkg.meas j

/-- What extending a measurement register by a hash leaves in it (R30). -/
def extended (old h : BitVec 384) : BitVec 384 := Crypto.sha384 (Crypto.bytesBE 48 old.toNat ++ Crypto.bytesBE 48 h.toNat)

/-- A measurement register by its service processor and its number. -/
def State.measOf (s : State) (x i : Nat) : BitVec 384 := s.measAt (8 * x + i)

theorem State.measOf_zero (s : State) (i : Nat) : s.measOf 0 i = s.measAt i := by rw [State.measOf, Nat.mul_zero, Nat.zero_add]

theorem State.measAt_extendMeas_same (s : State) (x i : Nat) (h : BitVec 384) :
    (s.extendMeas x i h).measAt (8 * x + i) = extended (s.measAt (8 * x + i)) h := SMap.look_put_same ..

theorem State.measAt_extendMeas_other (s : State) {x i j : Nat} (h : BitVec 384) (hj : j ≠ 8 * x + i) :
    (s.extendMeas x i h).measAt j = s.measAt j := SMap.look_put_other _ _ hj

/-- The images of a service processor are measured into its registers. -/
def State.measureImages (s : State) (x : Nat) (l : List Sys2Proof.Image) : State :=
  l.zipIdx.foldl (fun u e => u.extendMeas x e.2 (Crypto.sha384 e.1.bytes)) s

theorem State.measureImages_at (s : State) (x : Nat) {l : List Sys2Proof.Image} {i : Nat} {m : Sys2Proof.Image} (hi : l[i]? = some m) :
    (s.measureImages x l).measAt (8 * x + i) = extended (s.measAt (8 * x + i)) (Crypto.sha384 m.bytes) :=
  foldl_zipIdx_at (g := fun t j => t.measAt (8 * x + j)) (w := fun m old => extended old (Crypto.sha384 m.bytes))
    (fun t _ j _ => t.measAt_extendMeas_same x j _) (fun t _ j _ k _ hk => t.measAt_extendMeas_other _ (by omega)) hi s

theorem State.measureImages_other (s : State) {x j : Nat} {l : List Sys2Proof.Image} (hj : ∀ i < l.length, j ≠ 8 * x + i) :
    (s.measureImages x l).measAt j = s.measAt j :=
  State.foldl_keeps (g := (·.measAt j)) rfl (fun t e he => t.measAt_extendMeas_other _ (hj e.2 (by simpa using (List.mem_zipIdx he).2.1)))

theorem State.measureImages_booted0 (s : State) (x : Nat) (l : List Sys2Proof.Image) : (s.measureImages x l).pkg.booted0 = s.pkg.booted0 :=
  State.foldl_keeps (g := (·.pkg.booted0)) rfl

/-- Both service processors have verified and measured their images (R29, R30). -/
theorem State.bootImages_both {l0 l1 : List Sys2Proof.Image} {c0 c1 : FwConfig} (hsp : s.rcv.sps = [0, 1]) (h0 : s.slotAt 0 = some (l0, c0))
    (h1 : s.slotAt 1 = some (l1, c1)) : ∃ t, s.bootImages = t ∧ t.pkg.boot = 0x03#8 ∧ t.pkg.booted0 = l0 ∧ t.pkg.booted1 = l1
      ∧ ∀ i, i < 4 → t.measAt i = extended (s.measOf 0 i) (Crypto.sha384 (l0.getD i default).bytes)
        ∧ t.measAt (8 + i) = extended (s.measOf 1 i) (Crypto.sha384 (l1.getD i default).bytes) := by
  have hboot : s.bootImages = let t := (s.bootOne 0 l0).bootOne 1 l1; { t with pkg := { t.pkg with boot := 0x03#8 } } := by
    simp [State.bootImages, hsp, h0, h1]
  have hget : ∀ {l : List Sys2Proof.Image} {i : Nat}, l.length = 4 → i < 4 → l[i]? = some (l.getD i default) := fun hl hi => by
    simp [List.getD, List.getElem?_eq_getElem (hl ▸ hi)]
  have hl0 := State.slotAt_length h0
  have hl1 := State.slotAt_length h1
  refine ⟨_, hboot, rfl, State.measureImages_booted0 (s.bootOne 0 l0) 1 l1, rfl, fun i hi => ⟨?_, ?_⟩⟩
  · have hother : ((s.bootOne 0 l0).measureImages 1 l1).measAt i = (s.bootOne 0 l0).measAt i :=
      State.measureImages_other _ (by omega)
    have hsame : (s.bootOne 0 l0).measOf 0 i = extended (s.measOf 0 i) _ := s.measureImages_at 0 (hget hl0 hi)
    rw [State.measOf_zero] at hsame
    exact hother.trans hsame
  · have hsame := (s.bootOne 0 l0).measureImages_at 1 (hget hl1 hi)
    have hother : (s.bootOne 0 l0).measAt (8 * 1 + i) = s.measOf 1 i := State.measureImages_other s (by omega)
    exact hsame.trans (by rw [hother])

end

/-! ### Binding (R16 to R19) -/

section
variable {s : State}

theorem State.trainPorts_pkg (s : State) : s.trainPorts.pkg = s.pkg :=
  State.foldl_keeps (g := (·.pkg)) rfl

theorem State.trainPorts_regs (s : State) : s.trainPorts.fab.regs = s.fab.regs :=
  State.foldl_keeps (g := (·.fab.regs)) rfl

/-- Both directions of every chip-to-chip port train (R34 step 4). -/
theorem State.trainPorts_port (s : State) {j : Nat} (hj : j < 32) :
    (s.trainPorts.port j).tx.state = 1 ∧ (s.trainPorts.port j).rx.state = 1 := by
  let train (q : PortSt) : PortSt := { q with tx := { state := 1, target := 2 }, rx := { state := 1, target := 2 } }
  have h : s.trainPorts.port j = train (s.port j) := by
    unfold State.trainPorts
    exact foldl_range_at (g := State.port) (w := fun _ => train) (f := fun t j => t.onPort j train)
      (fun t j => t.port_onPort_same j _) (fun t j k h => t.port_onPort_other _ h) hj s
  rw [h]
  exact ⟨rfl, rfl⟩

/-- What is bound is among the free stacks. -/
theorem mem_of_mem_bindStacks {attach : List (Nat × Nat)} {dies : List Nat} {h : Nat} :
    ∀ {k j : Nat} {free : List Nat}, h ∈ bindStacks attach dies k j free → h ∈ free
  | 0, _, _, hm => by cases hm
  | k + 1, j, free, hm => by
    unfold bindStacks at hm
    dsimp only at hm
    split at hm
    · cases hm
    · next x hx =>
      rcases List.mem_cons.mp hm with rfl | hm
      · rcases Option.or_eq_some_iff.mp hx with hx | ⟨-, hx⟩
        · exact List.mem_of_find?_eq_some hx
        · exact List.mem_of_head? hx
      · exact (List.mem_filter.mp (mem_of_mem_bindStacks hm)).1

theorem length_bindStacks_le {attach : List (Nat × Nat)} {dies : List Nat} :
    ∀ {k j : Nat} {free : List Nat}, (bindStacks attach dies k j free).length ≤ k
  | 0, _, _ => Nat.le_refl 0
  | k + 1, j, free => by
    unfold bindStacks
    dsimp only
    split
    · exact Nat.zero_le _
    · exact Nat.succ_le_succ length_bindStacks_le

/-- The dies take their logical identities in every router (R16, R40). -/
def State.mapDies (s : State) (id : BitVec 12) (dies : List Nat) : State :=
  dies.zipIdx.foldl (fun t e => t.setRouters (4 * e.2) (ownEntry id e.1)) s

/-- The stacks take theirs, and their ports come up (R17). -/
def State.mapStacks (s : State) (id : BitVec 12) (stks : List Nat) : State :=
  stks.zipIdx.foldl (fun t e =>
    (t.setRouters (0x40 + 4 * e.2) (ownEntry id e.1)).onStack e.1 (fun x => { x with portA := true, portB := true })) s

/-- The spare stacks are parked (R17). -/
def State.parkStacks (s : State) (spares : List Nat) : State :=
  spares.foldl (fun t h => t.onStack h (fun x => { x with portA := true, portB := true, spare := true, halted := true })) s

/-- The core maps of the usable dies (R16). -/
def State.mapCores (s : State) (cores : Nat → List Nat) (dies : List Nat) : State :=
  dies.zipIdx.foldl (fun t e =>
    t.onPDie e.1 (fun d => { d with map := (cores e.1).take 64, spares := (cores e.1).drop 64, rail := decide (e.2 < 16) })) s

/-- The end of step 5: a package short of dies asks its peers for them, another measures its maps (R30, R99). -/
def State.endBind (s : State) (n : Nat) : State :=
  if n < 16 then ((List.range 16).drop n).foldl (fun t d => t.send (.maint "spare die request" d)) s else s.measureMaps

theorem State.router_mapDies (s : State) (id : BitVec 12) {dies : List Nat} (hlen : dies.length ≤ 16) (hdies : ∀ p ∈ dies, p < 18)
    {d p k : Nat} (hd : dies[d]? = some p) (hk : k < 20) : (s.mapDies id dies).router k (4 * d) = ownEntry id p := by
  unfold State.mapDies
  refine foldl_zipIdx_at (f := fun t e => t.setRouters (4 * e.2) (ownEntry id e.1)) (g := fun t i => t.router k (4 * i))
    (w := fun p _ => ownEntry id p) ?_ ?_ hd s
  · intro t a i h
    have := hdies _ (List.mem_of_getElem? h)
    have := (List.getElem?_eq_some_iff.mp h).1
    exact (t.router_setRouters_same _ _ hk).trans (ownEntry_and_routerMask id (by omega) (by omega) (by omega))
  · intro t a i hi j hj hne
    exact t.router_setRouters_other _ _ (by omega) (by omega) (by omega)

theorem State.mapDies_keeps {β : Type} (g : State → β) (hg : ∀ t r, g (t.withRegs r) = g t) (s : State) (id : BitVec 12)
    (dies : List Nat) : g (s.mapDies id dies) = g s :=
  State.foldl_keeps (g := g) rfl (fun t _ _ => t.setRouters_keeps g hg _ _)

theorem State.router_mapStacks (s : State) (id : BitVec 12) {stks : List Nat} (hlen : stks.length ≤ 32) (hstks : ∀ h ∈ stks, h < 34)
    {m h k : Nat} (hm : stks[m]? = some h) (hk : k < 20) : (s.mapStacks id stks).router k (0x40 + 4 * m) = ownEntry id h := by
  unfold State.mapStacks
  refine foldl_zipIdx_at (g := fun t i => t.router k (0x40 + 4 * i)) (w := fun p _ => ownEntry id p) ?_ ?_ hm s
  · intro t a i h
    have := hstks _ (List.mem_of_getElem? h)
    have := (List.getElem?_eq_some_iff.mp h).1
    dsimp only
    rw [State.router_onStack, t.router_setRouters_same _ _ hk, ownEntry_and_routerMask id (by omega) (by omega) (by omega)]
  · intro t a i hi j hj hne
    dsimp only
    rw [State.router_onStack, t.router_setRouters_other _ _ (by omega) (by omega) (by omega)]

/-- Mapping the stacks leaves the entries of the dies. -/
theorem State.router_mapStacks_die (s : State) (id : BitVec 12) {stks : List Nat} (hlen : stks.length ≤ 32) {d k : Nat} (hd : d < 16) :
    (s.mapStacks id stks).router k (4 * d) = s.router k (4 * d) := by
  unfold State.mapStacks
  refine State.foldl_keeps (g := (·.router k (4 * d))) rfl (fun t e he => ?_)
  have := (List.mem_zipIdx he).2.1
  rw [State.router_onStack, t.router_setRouters_other _ _ (by omega) (by omega) (by omega)]

theorem State.mapStacks_pkg (s : State) (id : BitVec 12) (stks : List Nat) : (s.mapStacks id stks).pkg = s.pkg := by
  unfold State.mapStacks
  refine State.foldl_keeps (g := State.pkg) rfl (fun t e _ => ?_)
  rw [State.onStack_pkg, t.setRouters_keeps State.pkg (fun _ _ => rfl)]

theorem State.parkStacks_pkg (s : State) (l : List Nat) : (s.parkStacks l).pkg = s.pkg :=
  State.foldl_keeps (g := (·.pkg)) rfl

theorem State.parkStacks_regs (s : State) (l : List Nat) : (s.parkStacks l).fab.regs = s.fab.regs :=
  State.foldl_keeps (g := (·.fab.regs)) rfl

theorem State.mapCores_config (s : State) (f : Nat → List Nat) (l : List Nat) : (s.mapCores f l).pkg.config = s.pkg.config :=
  State.foldl_keeps (g := (·.pkg.config)) rfl

theorem State.mapCores_regs (s : State) (f : Nat → List Nat) (l : List Nat) : (s.mapCores f l).fab.regs = s.fab.regs :=
  State.foldl_keeps (g := (·.fab.regs)) rfl

theorem State.measureMaps_fab (s : State) : s.measureMaps.fab = s.fab :=
  State.foldl_keeps (g := (·.fab)) rfl

theorem State.endBind_fab (s : State) (n : Nat) : (s.endBind n).fab = s.fab := by
  unfold State.endBind
  split
  · exact State.foldl_keeps (g := (·.fab)) rfl
  · exact s.measureMaps_fab

/-- The end of step 5 changes nothing of the package but its measurements. -/
theorem State.endBind_pkg {β : Type} (g : Package → β) (hg : ∀ p m, g { p with meas := m } = g p) (s : State) (n : Nat) :
    g (s.endBind n).pkg = g s.pkg := by
  unfold State.endBind
  split
  · exact State.foldl_keeps (g := (g ·.pkg)) rfl
  · exact State.foldl_keeps (g := (g ·.pkg)) rfl (fun t x _ => hg t.pkg _)

end

section
variable {s : State} {r : BootReport}

/-- The configuration that step 5 reads is that of the slot the first working service processor booted (R42). -/
def State.configured (s : State) : State :=
  { s with pkg := { s.pkg with config := ((s.slotAt (s.rcv.sps.headD 0)).map (·.2)).getD ⟨[], []⟩ } }

/-- The usable dies, in ascending order (R16). -/
def State.bootDies (s : State) (r : BootReport) : List Nat := (List.range 18).filter (s.usableDie r)

/-- The usable stacks, in ascending order (R17). -/
def State.bootStacks (s : State) (r : BootReport) : List Nat :=
  (List.range 34).filter (fun h => r.stackTests.contains h && !s.retired (.stack h) && !(s.stack h).retired)

/-- The package id that a state's fabric configuration gives for an identity key (R42). -/
def State.idFor (s : State) (pub : BitVec 776) : BitVec 12 := ((s.fabEntry pub).map (·.id)).getD 0xFFF#12

theorem State.idFor_congr {t : State} (h : t.pkg.config = s.pkg.config) (pub : BitVec 776) : t.idFor pub = s.idFor pub := by
  rw [State.idFor, State.fabEntry, h]
  rfl

/-- A package short of stacks trains its ports and takes no logical identity (R18). -/
theorem State.bootBind_short (h : (s.bootStacks r).length < 32) :
    s.bootBind r = ({ s.configured with pkg := { s.configured.pkg with boot := 0x83#8 } } : State).trainPorts := if_pos h

/-- The stacks bound to M0 to M31 (R17). -/
def State.boundStacks (s : State) (r : BootReport) : List Nat :=
  bindStacks s.pkg.attach ((s.bootDies r).take 16) 32 0 (s.bootStacks r)

/-- The stacks left over (R17). -/
def State.spareStacks (s : State) (r : BootReport) : List Nat := (s.bootStacks r).filter (fun h => !(s.boundStacks r).contains h)

/-- The routers after step 5 has written them. -/
def State.mapped (s : State) (r : BootReport) : State :=
  let id := s.configured.idFor s.identity.2
  ((s.configured.setRouters 0xC8 (id.setWidth 32)).mapDies id ((s.bootDies r).take 16)).mapStacks id (s.boundStacks r)

/-- What step 5 has bound, before the ports train. -/
def State.bound (s : State) (r : BootReport) : State :=
  let t := ((s.mapped r).parkStacks (s.spareStacks r)).mapCores (s.configured.goodCores r) (s.bootDies r)
  { t with pkg := { t.pkg with boot := if (s.bootDies r).length < 16 then 0x82#8 else 0x06#8, spareDies := (s.bootDies r).drop 16,
                               spareStacks := s.spareStacks r } }

/-- A package with its stacks takes its logical identities (R16 to R19, R99). -/
theorem State.bootBind_bound (h : 32 ≤ (s.bootStacks r).length) :
    s.bootBind r = (s.bound r).trainPorts.endBind (s.bootDies r).length := if_neg (Nat.not_lt.mpr h)

theorem State.mapped_pkg (s : State) (r : BootReport) : (s.mapped r).pkg = s.configured.pkg :=
  (State.mapStacks_pkg _ _ _).trans
    ((State.mapDies_keeps State.pkg (fun _ _ => rfl) _ _ _).trans (State.setRouters_keeps State.pkg (fun _ _ => rfl) _ _ _))

theorem State.bound_config (s : State) (r : BootReport) : (s.bound r).pkg.config = s.configured.pkg.config :=
  (State.mapCores_config _ _ _).trans (by rw [State.parkStacks_pkg, State.mapped_pkg])

theorem State.router_congr {t : State} (h : t.fab.regs = s.fab.regs) (k off : Nat) : t.router k off = s.router k off := by
  rw [State.router, h]
  rfl

theorem State.router_bound (s : State) (r : BootReport) (k off : Nat) : (s.bound r).router k off = (s.mapped r).router k off :=
  State.router_congr ((State.mapCores_regs _ _ _).trans (State.parkStacks_regs _ _)) k off

theorem State.lt_of_mem_bootDies {p : Nat} (h : p ∈ s.bootDies r) : p < 18 := List.mem_range.mp (List.mem_filter.mp h).1

theorem State.lt_of_mem_boundStacks {h : Nat} (hm : h ∈ s.boundStacks r) : h < 34 :=
  List.mem_range.mp (List.mem_filter.mp (mem_of_mem_bindStacks hm)).1

/-- Every router has the entries of the dies (R16, R40). -/
theorem State.router_mapped_die {d p k : Nat} (hd : d < 16) (hp : (s.bootDies r)[d]? = some p) (hk : k < 20) :
    (s.mapped r).router k (4 * d) = ownEntry (s.configured.idFor s.identity.2) p :=
  (State.router_mapStacks_die _ _ length_bindStacks_le hd).trans
    (State.router_mapDies _ _ (List.length_take_le ..) (fun _ h => State.lt_of_mem_bootDies (List.mem_of_mem_take h))
      ((List.getElem?_take_of_lt hd).trans hp) hk)

/-- Every router has the entries of the stacks (R17, R40). -/
theorem State.router_mapped_stack {m h k : Nat} (hm : (s.boundStacks r)[m]? = some h) (hk : k < 20) :
    (s.mapped r).router k (0x40 + 4 * m) = ownEntry (s.configured.idFor s.identity.2) h :=
  State.router_mapStacks _ _ length_bindStacks_le (fun _ h => State.lt_of_mem_boundStacks h) hm hk

/-- What a package with its stacks holds after step 5 (R16 to R19). -/
theorem State.bootBind_bound_spec (h : 32 ≤ (s.bootStacks r).length) :
    let t := s.bootBind r
    t.pkg.boot = (if (s.bootDies r).length < 16 then 0x82#8 else 0x06#8) ∧ t.pkg.spareDies = (s.bootDies r).drop 16
    ∧ (∀ d pd k, d < 16 → (s.bootDies r)[d]? = some pd → k < 20 → t.router k (4 * d) = ownEntry (t.idFor s.identity.2) pd)
    ∧ (∀ m h k, m < 32 → (s.boundStacks r)[m]? = some h → k < 20 → t.router k (0x40 + 4 * m) = ownEntry (t.idFor s.identity.2) h)
    ∧ ∀ j, j < 32 → (t.port j).tx.state = 1 ∧ (t.port j).rx.state = 1 := by
  intro t
  have ht : t = (s.bound r).trainPorts.endBind (s.bootDies r).length := State.bootBind_bound h
  have hpkg : ∀ {β} (g : Package → β), (∀ p m, g { p with meas := m } = g p) → g t.pkg = g (s.bound r).pkg := fun g hg => by
    rw [ht, State.endBind_pkg g hg, State.trainPorts_pkg]
  have hrouter : ∀ k off, t.router k off = (s.mapped r).router k off := fun k off => by
    rw [← State.router_bound]
    exact State.router_congr (by rw [ht, State.endBind_fab, State.trainPorts_regs]) k off
  have hid : t.idFor s.identity.2 = s.configured.idFor s.identity.2 :=
    State.idFor_congr ((hpkg Package.config fun _ _ => rfl).trans (State.bound_config s r)) _
  refine ⟨hpkg Package.boot fun _ _ => rfl, hpkg Package.spareDies fun _ _ => rfl, fun d pd k hd hp hk => ?_,
    fun m h k _ hm hk => ?_, fun j hj => ?_⟩
  · rw [hrouter, hid, State.router_mapped_die hd hp hk]
  · rw [hrouter, hid, State.router_mapped_stack hm hk]
  · have hport : t.port j = (s.bound r).trainPorts.port j := by
      rw [State.port, ht, State.endBind_fab]
      rfl
    rw [hport]
    exact State.trainPorts_port _ hj

/-! ### Scrub and start (R34) -/

theorem State.scrub_own (s : State) {a : Nat} (h : isForeign a = false) : s.scrub.byteAt a = 0#8 :=
  SMap.look_filter_fst_of_not s.mem isForeign h

theorem State.scrub_foreign (s : State) {a : Nat} (h : isForeign a = true) : s.scrub.byteAt a = s.byteAt a :=
  SMap.look_filter_fst s.mem isForeign h

theorem State.onCtx_keeps {β : Type} (g : State → β) (hg : ∀ t x b, g ({ t with cx := x, banks := b } : State) = g t) (s : State)
    (c : CtxId) (f : Ctx → Ctx) : g (s.onCtx c f) = g s := by
  unfold State.onCtx State.setCtx
  split
  · exact hg s _ s.banks
  · exact hg s s.cx _

theorem State.ctx_onCtx_same (s : State) (c : CtxId) (f : Ctx → Ctx) : (s.onCtx c f).ctx c = f (s.ctx c) := State.ctx_setCtx_same s c _

theorem State.ctx_onCtx_other (s : State) {c e : CtxId} (f : Ctx → Ctx) (h : e.key ≠ c.key) : (s.onCtx c f).ctx e = s.ctx e :=
  State.ctx_setCtx_other s _ h

/-- A supervisor core of a die. -/
def supCore (d c : Nat) : CtxId := ⟨d, c, 0, false⟩

theorem supCore_key (d c : Nat) : (supCore d c).key = (d * 66 + c) * 16 := by
  simp [supCore, CtxId.key]
  omega

/-- A context starts at an address. -/
def Ctx.started (a : Word) (x : Ctx) : Ctx := { x with st := .run, r := { x.r with pc := a } }

/-- The firmware starts on both supervisor cores of a die (R34). -/
def State.startDie (s : State) (a : Word) (d : Nat) : State := (s.onCtx (supCore d 64) (Ctx.started a)).onCtx (supCore d 65) (Ctx.started a)

/-- The firmware starts on all 32 supervisor cores. -/
def State.startCores (s : State) (a : Word) : State := (List.range 16).foldl (fun t d => t.startDie a d) s

theorem State.startFirmware_eq (s : State) (r : BootReport) : s.startFirmware r = let t := s.startCores r.start
    { t with pkg := { t.pkg with boot := 0x09#8, trapEntry := r.trapEntry }, tenants := [],
             hbm := t.hbm.map (fun e => (e.1, { e.2 with routines := [] })) } := by
  have h : (List.range 16).foldl (fun (t : State) d => ([64, 65] : List Nat).foldl (fun (u : State) c =>
      u.onCtx ⟨d, c, 0, false⟩ (fun x => { x with st := .run, r := { x.r with pc := r.start } })) t) s = s.startCores r.start := rfl
  unfold State.startFirmware
  rw [h]

theorem State.startDie_keeps {β : Type} (g : State → β) (hg : ∀ t x b, g ({ t with cx := x, banks := b } : State) = g t) (s : State)
    (a : Word) (d : Nat) : g (s.startDie a d) = g s :=
  (State.onCtx_keeps g hg _ _ _).trans (State.onCtx_keeps g hg _ _ _)

theorem State.startCores_keeps {β : Type} (g : State → β) (hg : ∀ t x b, g ({ t with cx := x, banks := b } : State) = g t) (s : State)
    (a : Word) : g (s.startCores a) = g s :=
  State.foldl_keeps (g := g) rfl (fun t d _ => t.startDie_keeps g hg a d)

/-- Each supervisor core runs from the start address. -/
theorem State.ctx_startCores (s : State) (a : Word) {d c : Nat} (hd : d < 16) (hc : c = 64 ∨ c = 65) :
    (s.startCores a).ctx (supCore d c) = Ctx.started a (s.ctx (supCore d c)) := by
  have hkey : ∀ {d e c k : Nat}, (c = 64 ∨ c = 65) → (k = 64 ∨ k = 65) → e ≠ d ∨ c ≠ k → (supCore e c).key ≠ (supCore d k).key := by
    intro d e c k hc hk h
    rw [supCore_key, supCore_key]
    omega
  unfold State.startCores
  refine foldl_range_at (g := fun t e => t.ctx (supCore e c)) (w := fun _ => Ctx.started a) ?_ ?_ hd s
  · intro t d
    unfold State.startDie
    rcases hc with rfl | rfl
    · rw [State.ctx_onCtx_other _ _ (hkey (.inl rfl) (.inr rfl) (.inr (by omega))), State.ctx_onCtx_same]
    · rw [State.ctx_onCtx_same, State.ctx_onCtx_other _ _ (hkey (.inr rfl) (.inl rfl) (.inr (by omega)))]
  · intro t d e h
    unfold State.startDie
    rw [State.ctx_onCtx_other _ _ (hkey hc (.inr rfl) (.inl h)), State.ctx_onCtx_other _ _ (hkey hc (.inl rfl) (.inl h))]

end

section
variable {s : State} {r : BootReport}

/-- After a scrub the package's memory reads zero, every basin word is empty and every register bank reads zero (R34, R35). -/
theorem resetStep_scrub (hp : s.pkg.powered = true) (hb : s.pkg.boot = 0x07#8) :
    Ends (.resetSequenceStepDone r) s (fun t => t.pkg = { s.pkg with boot := 0x08#8 } ∧ (∀ a, isForeign a = false → t.byteAt a = 0#8)
      ∧ t.fe = [] ∧ (∀ a, isForeign a = true → t.byteAt a = s.byteAt a) ∧ (∀ c, t.ctx c = {}) ∧ ∀ d c, t.core d c = {}) :=
  ⟨_, resetStep_of_boot hp hb, rfl, fun _ h => State.scrub_own s h, rfl, fun _ h => State.scrub_foreign s h,
    State.ctx_of_empty rfl rfl, fun _ _ => rfl⟩

theorem State.startFirmware_keeps {β : Type} (g : State → β)
    (hg : ∀ (t : State) x b p u h, g { t with cx := x, banks := b, pkg := p, tenants := u, hbm := h } = g t) (s : State) (r : BootReport) :
    g (s.startFirmware r) = g s := by
  rw [State.startFirmware_eq]
  exact (hg _ _ _ _ _ _).trans (State.startCores_keeps g (fun t x b => hg t x b t.pkg t.tenants t.hbm) s r.start)

theorem State.ctx_startFirmware (s : State) (r : BootReport) (c : CtxId) :
    (s.startFirmware r).ctx c = (s.startCores r.start).ctx c := by
  rw [State.startFirmware_eq]
  generalize s.startCores r.start = t
  rfl

theorem resetStep_start (hp : s.pkg.powered = true) (hb : s.pkg.boot = 0x08#8) :
    Ends (.resetSequenceStepDone r) s (fun t => t.pkg.boot = 0x09#8 ∧ t.pkg.trapEntry = r.trapEntry ∧ t.tenants = []
      ∧ SameMemory s t ∧ ∀ d, d < 16 → ∀ c, c = 64 ∨ c = 65 → (t.ctx ⟨d, c, 0, false⟩).st = .run ∧ (t.ctx ⟨d, c, 0, false⟩).r.pc = r.start) := by
  have hstep : s.bootStep r (0x08#8 : BitVec 8).toNat = s.startFirmware r := by
    unfold State.bootStep
    rfl
  refine ⟨s.startFirmware r, hstep ▸ resetStep_of_boot hp hb, rfl, rfl, rfl, ⟨fun a => ?_, ?_, ?_⟩, fun d hd c hc => ?_⟩
  · exact State.startFirmware_keeps (·.byteAt a) (fun _ _ _ _ _ _ => rfl) s r
  · exact State.startFirmware_keeps (·.fe) (fun _ _ _ _ _ _ => rfl) s r
  · exact State.startFirmware_keeps (·.poison) (fun _ _ _ _ _ _ => rfl) s r
  · have h : (s.startFirmware r).ctx ⟨d, c, 0, false⟩ = Ctx.started r.start (s.ctx ⟨d, c, 0, false⟩) :=
      (s.ctx_startFirmware r (supCore d c)).trans (s.ctx_startCores r.start hd hc)
    rw [h]
    exact ⟨rfl, rfl⟩

theorem resetStep_bind_short (hp : s.pkg.powered = true) (hb : s.pkg.boot = 0x05#8) (h : (s.bootStacks r).length < 32) :
    Ends (.resetSequenceStepDone r) s (fun t => t.pkg.boot = 0x83#8 ∧ t.fab.regs = s.fab.regs
      ∧ ∀ j, j < 32 → (t.port j).tx.state = 1 ∧ (t.port j).rx.state = 1) := by
  refine ⟨_, (resetStep_of_boot hp hb).trans (congrArg Host.Outcome.next (State.bootBind_short h)), ?_, ?_, fun j hj => State.trainPorts_port _ hj⟩
  · rw [State.trainPorts_pkg]
  · rw [State.trainPorts_regs]
    rfl

theorem resetStep_images_rejected (hp : s.pkg.powered = true) (hb : s.pkg.boot = 0x02#8) (h : ∃ x ∈ s.rcv.sps, s.slotAt x = none) :
    exec (.resetSequenceStepDone r) s = .next { s with pkg := { s.pkg with boot := 0x80#8 } } := by
  obtain ⟨x, hx, hn⟩ := h
  exact (resetStep_of_boot hp hb).trans (congrArg Host.Outcome.next (if_pos (List.any_eq_true.mpr ⟨x, hx, by rw [hn]; rfl⟩)))

theorem resetStep_compare_agree (hp : s.pkg.powered = true) (hb : s.pkg.boot = 0x03#8)
    (h : (∀ i, i < 4 → s.measOf 0 i = s.measOf 1 i) ∨ s.rcv.sps.length < 2) :
    exec (.resetSequenceStepDone r) s = .next { s with pkg := { s.pkg with boot := 0x04#8 } } := by
  have hok : ((List.range 4).all (fun i => s.measAt i == s.measAt (8 + i)) || decide (s.rcv.sps.length < 2)) = true := by
    simpa [State.measOf] using h
  exact (resetStep_of_boot hp hb).trans (congrArg (fun b : BitVec 8 => Host.Outcome.next { s with pkg := { s.pkg with boot := b } }) (if_pos hok))

theorem resetStep_compare_differ (hp : s.pkg.powered = true) (hb : s.pkg.boot = 0x03#8)
    (h : ∃ i, i < 4 ∧ s.measOf 0 i ≠ s.measOf 1 i) (h2 : 2 ≤ s.rcv.sps.length) :
    exec (.resetSequenceStepDone r) s = .next { s with pkg := { s.pkg with boot := 0x81#8 } } := by
  have hok : ¬ ((List.range 4).all (fun i => s.measAt i == s.measAt (8 + i)) || decide (s.rcv.sps.length < 2)) = true := by
    simpa [State.measOf, Nat.succ_le_iff] using And.intro h h2
  exact (resetStep_of_boot hp hb).trans (congrArg (fun b : BitVec 8 => Host.Outcome.next { s with pkg := { s.pkg with boot := b } }) (if_neg hok))

end

/-! ### Security version, temperature, power and voltage (R20 to R24, R31) -/

section
variable {s : State}

/-- A counter advances to a version that is newer (R31). -/
def Fuses.upTo (f : Fuses) (v : Word) : Fuses := if f.version.toNat < v.toNat then { f with version := v } else f

theorem Fuses.upTo_version (f : Fuses) (v : Word) : (Fuses.upTo f v).version.toNat = max f.version.toNat v.toNat := by
  unfold Fuses.upTo
  split
  · next h => exact (max_eq_right (Nat.le_of_lt h)).symm
  · next h => exact (max_eq_left (Nat.le_of_not_lt h)).symm

theorem Fuses.upTo_repair (f : Fuses) (v : Word) : (Fuses.upTo f v).repair = f.repair := by
  unfold Fuses.upTo
  split <;> rfl

/-- Whether the counters may advance to a version (R31, R32). -/
def State.mayAdvance (s : State) (v : Word) : Prop :=
  s.rcv.sps.length = 2 ∧ s.pkg.booted0 ≠ [] ∧ s.pkg.booted0 = s.pkg.booted1 ∧ ∀ m ∈ s.pkg.booted0, v.toNat ≤ m.version.toNat

theorem securityVersionAdvance_may {v : Word} (h : s.mayAdvance v) : exec (.securityVersionAdvance v) s =
    .next { s with pkg := { s.pkg with fuse0 := s.pkg.fuse0.upTo v, fuse1 := s.pkg.fuse1.upTo v } } := by
  obtain ⟨h2, hne, heq, hv⟩ := h
  exact if_pos ⟨h2, hne, heq, List.all_eq_true.mpr fun m hm => decide_eq_true (hv m hm)⟩

theorem securityVersionAdvance_not {v : Word} (h : ¬ s.mayAdvance v) : exec (.securityVersionAdvance v) s = .next s :=
  if_neg fun ⟨h2, hne, heq, hv⟩ => h ⟨h2, hne, heq, fun m hm => of_decide_eq_true (List.all_eq_true.mp hv m hm)⟩

/-! #### Events to the host leave the dies and the package -/

/-- What the dies and the package hold. -/
def State.plant (s : State) : SMap DieSt × Package := (s.dies, s.pkg)

@[simp] theorem State.send_plant (s : State) (m : OutMsg) : (s.send m).plant = s.plant := rfl

@[simp] theorem State.onTenant_plant (s : State) (t : Nat) (f : TenantSt → TenantSt) : (s.onTenant t f).plant = s.plant := by
  simp [State.plant]

@[simp] theorem State.onSession_plant (s : State) (sid : Nat) (f : Session → Session) : (s.onSession sid f).plant = s.plant := by
  simp [State.plant]

@[simp] theorem State.emit_plant (s : State) (sid : Nat) (m : ScpMsg) (l : List EventRec) : (s.emit sid m l).plant = s.plant := by
  unfold State.emit
  split
  · rfl
  · simp

@[simp] theorem State.endSession_plant (s : State) (sid : Nat) : (s.endSession sid).plant = s.plant :=
  State.onSession_plant s sid _

@[simp] theorem State.sendOn_plant (s : State) (sid : Nat) (m : ScpMsg) (l : List EventRec) : (s.sendOn sid m l).plant = s.plant := by
  unfold State.sendOn
  split
  · rfl
  · split
    · rfl
    · split <;> simp

@[simp] theorem State.answer_plant (s : State) (h : CmdHead) (op st : Nat) (b : List Byte) : (s.answer h op st b).plant = s.plant :=
  (State.onSession_plant _ _ _).trans (State.sendOn_plant _ _ _ _)

@[simp] theorem State.sendEvents_plant (s : State) (t : Nat) : (s.sendEvents t).plant = s.plant := by
  unfold State.sendEvents
  split
  · rfl
  · split
    · rfl
    · exact (State.foldl_keeps (g := State.plant) rfl fun _ _ _ => State.sendOn_plant _ _ _ _).trans (State.onTenant_plant _ _ _)

@[simp] theorem State.serveWaits_plant (s : State) (t : Nat) : (s.serveWaits t).plant = s.plant := by
  unfold State.serveWaits
  refine State.foldl_keeps (g := State.plant) rfl fun u w _ => ?_
  split
  · rfl
  · dsimp only
    split
    · rfl
    · simp

@[simp] theorem State.sendDue_plant (s : State) (t : Nat) : (s.sendDue t).plant = s.plant := by
  unfold State.sendDue
  split
  · rfl
  · split <;> simp

@[simp] theorem State.post_plant (s : State) (t : Nat) (code : BitVec 16) (flags : BitVec 8) (cause : BitVec 32) (launch : Nat)
    (detail : Word) : (s.post t code flags cause launch detail).plant = s.plant := by
  unfold State.post
  split
  · rfl
  · simp

@[simp] theorem State.postAll_plant (s : State) (code : BitVec 16) (detail : Word) : (s.postAll code detail).plant = s.plant :=
  State.foldl_keeps (g := State.plant) rfl fun _ _ _ => State.post_plant _ _ _ _ _ _ _

/-! #### Temperature (Table 1.2) -/

/-- All rails of the package go down. -/
def State.tripped (s : State) : State := { s with pkg := { s.pkg with powered := false } }

theorem thermalSample_stack_trip {u mc : Nat} (h : 115000 ≤ mc) : exec (.thermalSensorSample true u mc) s = .next s.tripped := if_pos h

theorem thermalSample_die_trip {u mc : Nat} (h : 115000 ≤ mc) : exec (.thermalSensorSample false u mc) s =
    .next ((s.tellFault (s.dieUnit u) .thermal).lasting (s.dieUnit u) false).tripped := if_pos h

theorem thermalSample_stack_below {u mc : Nat} (h : mc < 115000) : exec (.thermalSensorSample true u mc) s = .next s :=
  (if_neg (Nat.not_le.mpr h)).trans (if_pos rfl)

/-- The throttle that a reading leaves (Table 1.2). -/
def thermalDuty (mc now : Nat) : Nat :=
  if 105000 ≤ mc then 2 else if 100000 ≤ mc then 1 else if 98000 ≤ mc then min now 1 else 0

/-- A reading of a die below 115 degrees is kept, and sets the throttle. -/
def State.warmed (s : State) (u mc : Nat) : State :=
  ({ s with pkg := { s.pkg with temps := SMap.put 0 s.pkg.temps u mc } } : State).onDie u
    (fun d => { d with throttle := thermalDuty mc d.throttle })

theorem thermalSample_die_below {u mc : Nat} (h : mc < 105000) : exec (.thermalSensorSample false u mc) s =
    .next (if (decide (100000 ≤ mc) && decide (SMap.look 0 s.pkg.temps u < 100000)) = true
      then (s.warmed u mc).postAll 0x0010#16 (BitVec.ofNat 64 u) else s.warmed u mc) := by
  have h15 : ¬ 115000 ≤ mc := by omega
  have h5 : ¬ (decide (105000 ≤ mc) && decide (SMap.look 0 s.pkg.temps u < 105000)) = true := by simp [h]
  exact (if_neg h15).trans ((if_neg Bool.false_ne_true).trans (congrArg Host.Outcome.next (if_neg h5)))

theorem thermalSample_die_ends {u mc : Nat} (h : mc < 105000) : Ends (.thermalSensorSample false u mc) s (fun t =>
    SMap.look 0 t.pkg.temps u = mc ∧ t.pkg.powered = s.pkg.powered ∧ (t.die u).throttleCap = (s.die u).throttleCap
    ∧ (t.die u).throttle = if 100000 ≤ mc then 1 else if 98000 ≤ mc then min (s.die u).throttle 1 else 0) := by
  refine ⟨_, thermalSample_die_below h, ?_⟩
  generalize ht : (if (decide (100000 ≤ mc) && decide (SMap.look 0 s.pkg.temps u < 100000)) = true
    then (s.warmed u mc).postAll 0x0010#16 (BitVec.ofNat 64 u) else s.warmed u mc) = t
  have hplant : t.plant = (s.warmed u mc).plant := by
    rw [← ht]
    split
    · exact State.postAll_plant _ _ _
    · rfl
  have hpkg : t.pkg = (s.warmed u mc).pkg := congrArg Prod.snd hplant
  have hdie : t.die u = { s.die u with throttle := thermalDuty mc (s.die u).throttle } := by
    rw [State.die, show t.dies = (s.warmed u mc).dies from congrArg Prod.fst hplant]
    exact State.die_onDie_same _ u _
  rw [hpkg, hdie]
  exact ⟨SMap.look_put_same .., rfl, rfl, if_neg (by omega)⟩

/-! #### The power cap (R22) -/

theorem powerWindowCheck_ends (w : Nat) (l : List Nat) : Ends (.powerWindowCheck w l) s (fun t => SameMemory s t ∧ ∀ d, d < 16 →
    (t.die d).throttle = (s.die d).throttle ∧ (t.die d).throttleCap = (decide (s.pkg.cap < w) && l.contains d)) := by
  refine ⟨_, rfl, ⟨fun a => ?_, ?_, ?_⟩, fun d hd => ?_⟩
  · exact State.foldl_keeps (g := (·.byteAt a)) rfl
  · exact State.foldl_keeps (g := (·.fe)) rfl
  · exact State.foldl_keeps (g := (·.poison)) rfl
  · have h := foldl_range_at (f := fun (t : State) d => t.onDie d fun x => { x with throttleCap := decide (t.pkg.cap < w) && l.contains d })
      (g := fun t d => (t.pkg.cap, t.die d)) (w := fun d x => (x.1, { x.2 with throttleCap := decide (x.1 < w) && l.contains d }))
      (fun t d => Prod.ext rfl (t.die_onDie_same d _)) (fun t d k h => Prod.ext rfl (t.die_onDie_other _ h)) hd s
    have hdie := congrArg Prod.snd h
    dsimp only at hdie
    rw [hdie]
    exact ⟨rfl, rfl⟩

/-! #### Voltage (R21) -/

/-- A step of the voltage begins a new count. -/
def State.stepVoltage (s : State) (d mv : Nat) : State :=
  s.onDie d (fun x => { x with timingEvents := 0, timingSince := s.cycle.toNat, millivolts := mv })

/-- Cycles since the count of timing-detector events of a die began. -/
def State.countedCycles (s : State) (d : Nat) : Nat := s.cycle.toNat - (s.die d).timingSince

theorem avsRateCheck_up {d : Nat} (h : s.countedCycles d < (s.die d).timingEvents * 10 ^ 9) :
    exec (.avsRateCheck d) s = .next (s.stepVoltage d (min 480 ((s.die d).millivolts + 5))) := if_pos h

theorem avsRateCheck_down {d : Nat} (h : (s.die d).timingEvents * 10 ^ 9 ≤ s.countedCycles d)
    (h1 : (s.die d).timingEvents * 10 ^ 11 < s.countedCycles d) (h4 : 4 * 10 ^ 9 ≤ s.countedCycles d) :
    exec (.avsRateCheck d) s = .next (s.stepVoltage d (max 380 ((s.die d).millivolts - 5))) :=
  (if_neg (Nat.not_lt.mpr h)).trans (if_pos (Bool.and_eq_true_iff.mpr ⟨decide_eq_true h1, decide_eq_true h4⟩))

theorem avsRateCheck_rest {d : Nat} (h : (s.die d).timingEvents * 10 ^ 9 ≤ s.countedCycles d)
    (h1 : s.countedCycles d ≤ (s.die d).timingEvents * 10 ^ 11 ∨ s.countedCycles d < 4 * 10 ^ 9) : exec (.avsRateCheck d) s = .next s :=
  (if_neg (Nat.not_lt.mpr h)).trans (if_neg fun hc => by
    obtain ⟨hc, hc'⟩ := Bool.and_eq_true_iff.mp hc
    have := of_decide_eq_true hc
    have := of_decide_eq_true hc'
    unfold State.countedCycles at h1
    omega)

theorem State.stepVoltage_die (s : State) (d mv : Nat) : (s.stepVoltage d mv).die d =
    { s.die d with timingEvents := 0, timingSince := s.cycle.toNat, millivolts := mv } := State.die_onDie_same s d _

/-! #### The ramp (R23) -/

theorem matrixEngineRamp_ask {d c : Nat} {o : MatrixOp} (hc : c < 64) (ho : o ∈ (s.core d c).engine) (hs : o.started = false)
    (hk : o.kind.ramps = true) : exec (.matrixEngineRamp d) s = .next (s.askRamp d) :=
  if_pos (List.any_eq_true.mpr ⟨c, List.mem_range.mpr hc, List.any_eq_true.mpr ⟨o, ho, by simp [hs, hk]⟩⟩)

theorem matrixEngineRamp_none {d : Nat} (h : ∀ c, c < 64 → ∀ o ∈ (s.core d c).engine, o.kind.ramps = false ∨ o.started = true) :
    exec (.matrixEngineRamp d) s = .next s := by
  refine if_neg fun hany => ?_
  obtain ⟨c, hc, hany⟩ := List.any_eq_true.mp hany
  obtain ⟨o, ho, hask⟩ := List.any_eq_true.mp hany
  rcases h c (List.mem_range.mp hc) o ho with h | h <;> simp [h] at hask

theorem State.askRamp_idle {d : Nat} (hidle : ∀ k, k < 64 → ∀ x ∈ (s.core d k).engine, x.started = false)
    (hlast : (s.die d).lastMatrix + 1024 ≤ s.cycle.toNat) (hramp : (s.die d).rampStart = none) :
    s.askRamp d = s.onDie d (fun x => { x with rampStart := some s.cycle.toNat }) := by
  have hbusy : (List.range 64).any (fun c => (s.core d c).engine.any (·.started)) = false :=
    List.any_eq_false.mpr fun c hc => by
      simpa using hidle c (List.mem_range.mp hc)
  simp [State.askRamp, hbusy, hlast, hramp]

/-! #### The timebase of a guest die (R27) -/

theorem guestTimebaseCorrection_guest {d : Nat} (w : Word) (hg : ∃ g ∈ s.rcv.guests, g.1 = d)
    (hb : (s.die (guestKey d)).guestBase.isSome = true) : Ends (.guestTimebaseCorrection d w) s (fun t =>
      (t.die (guestKey d)).guestBase = some (BitVec.ofNat 64 (s.guestCount d), s.cycle.toNat)
      ∧ (t.die (guestKey d)).lead = (s.guestCount d : Int) - (w.toNat : Int)) := by
  have hany : (s.rcv.guests.any (fun g => g.1 == d) && (s.die (guestKey d)).guestBase.isSome) = true := by
    simpa [hb] using hg
  refine ⟨_, if_pos hany, ?_⟩
  dsimp only
  rw [State.die_onDie_same]
  exact ⟨rfl, rfl⟩

end

/-! ### Greetings and adjacency (R42) -/

section
variable {s : State} {port : Nat} {p : Packet}

theorem maintGreeting_dead {g : Greeting} (h : 32 ≤ port ∨ s.portLive port = false) : exec (.maintGreeting port g) s = .next s :=
  if_pos (by simpa using h)

/-- A port that carries packets and leads to another package. -/
def State.farLive (s : State) (port : Nat) : Prop := port < 32 ∧ s.portLive port = true

theorem State.farLive.not_dead (h : s.farLive port) : ¬ (decide (32 ≤ port) || !s.portLive port) = true := by
  simp [h.1, h.2]

theorem maintGreeting_nonce {g : Greeting} (h : s.farLive port) (hg : g.sig = []) : exec (.maintGreeting port g) s =
    .next (({ s with pkg := { s.pkg with nonces := s.pkg.nonces + 1 } } : State).send (.greeting port
      { pkg := s.pkgid, port := port, nonce := (s.port port).nonce, pub := s.identity.2, certSig := Config.certSig s.pkg.fuse0.seed,
        sig := Crypto.ecdsaSign s.identity.1 (Config.secret s.pkg.nonces) (nonceBytes (s.port port).nonce g.nonce) })) :=
  (if_neg h.not_dead).trans (if_pos hg)

theorem maintGreeting_signed {g : Greeting} (h : s.farLive port) (hg : g.sig ≠ []) (hok : s.greetingOk port g = true) :
    exec (.maintGreeting port g) s = .next ((s.onPort port (fun x => { x with far := some (g.pkg, g.port) })).flood.reroute) :=
  (if_neg h.not_dead).trans ((if_neg hg).trans (if_pos hok))

theorem maintGreeting_refused {g : Greeting} (h : s.farLive port) (hg : g.sig ≠ []) (hok : s.greetingOk port g = false) :
    exec (.maintGreeting port g) s = .next ((s.portDown port true).portDown port false).reroute :=
  (if_neg h.not_dead).trans ((if_neg hg).trans (if_neg (by simp [hok])))

theorem portListFlood_news {g : BitVec 12} {l : List (Nat × BitVec 12 × Nat)} (hg : g ≠ s.pkgid)
    (hl : SMap.look [] s.fab.floods g.toNat ≠ l) : exec (.portListFlood g l) s =
      .next (({ s with fab := { s.fab with floods := SMap.put [] s.fab.floods g.toNat l } } : State).send (.portList g l)).reroute :=
  if_neg (by simp [hg, hl])

theorem portListFlood_known {g : BitVec 12} {l : List (Nat × BitVec 12 × Nat)} (h : g = s.pkgid ∨ SMap.look [] s.fab.floods g.toNat = l) :
    exec (.portListFlood g l) s = .next s :=
  if_pos (by simpa using h)

/-! ### Routers (R43, R48, R51, R54) -/

theorem routePacket_nowhere {r : Nat} {o : Option CtxId} (h : 20 ≤ r) : exec (.routePacket r p o) s = .next s := if_pos h

theorem routePacket_illTyped {r : Nat} {o : Option CtxId} (h : r < 20) (hp : p.wellTyped = false) : exec (.routePacket r p o) s =
    .next (s.tellFault (if r < 18 then .dieShared r else .serviceProcessor (r - 18)) .droppedPacket) :=
  (if_neg (Nat.not_le.mpr h)).trans (if_pos (by simp [hp]))

/-- A packet that is well-typed and no vector on its way ahead of another (R48). -/
def Packet.plain (p : Packet) : Prop := p.wellTyped = true ∧ (p.typ ≠ 0x11#8 ∨ p.opx ≠ 0#7)

theorem routePacket_plain {r : Nat} {o : Option CtxId} (h : r < 20) (hp : Packet.plain p) : exec (.routePacket r p o) s =
    if p.baseForm = true then
      if p.sdie.toNat ≠ stackOf p.pa / 2 then .next s else .next (p.split.foldl (fun t q => t.sendBase r o q) s)
    else
      let cv := if p.cvp then SMap.look none (s.port (localEnd r)).cvec (p.vc.toNat % 4) else none
      .next ((s.onPort (localEnd r) (fun q => { q with cvec := SMap.put none q.cvec (p.vc.toNat % 4) none })).inject r o cv p.sealed) := by
  have hv : ¬ (decide (p.typ = 0x11#8) && decide (p.opx = 0#7)) = true := by
    rw [Bool.and_eq_true, decide_eq_true_eq, decide_eq_true_eq]
    exact fun ⟨ht, ho⟩ => hp.2.elim (· ht) (· ho)
  exact (if_neg (Nat.not_le.mpr h)).trans ((if_neg (by simp [hp.1])).trans (if_neg hv))

theorem inject_parked {a : Nat} {o : Option CtxId} {cv : Option Packet} (h : s.fab.change.isSome = true) (hm : p.maint = false) :
    s.inject a o cv p = { s with fab := { s.fab with parked := s.fab.parked ++ [(a, o, cv, p)] } } :=
  if_pos (by simp [h, hm])

theorem inject_held {a : Nat} {o : Option CtxId} {cv : Option Packet} (h : s.fab.change = none) (hs : s.ownSource p = true)
    (hr : p.isRequest = true) (hl : ∃ e ∈ s.fab.heldLines, e.1 = s.lineOf p) :
    s.inject a o cv p = { s with fab := { s.fab with heldPackets := s.fab.heldPackets ++ [(a, o, cv, p)] } } :=
  (if_neg (by simp [h])).trans ((if_pos (by simp [hs, hr])).trans (if_pos (by simpa using hl)))

/-- A packet that a node neither refuses nor parks is sent on as the routes say (R43). -/
theorem enterNode_hop {a k : Nat} {cv : Option Packet} (hc : p.collective = false) (hf : 20 ≤ a ∨ s.fencedTarget a p = false) :
    (∀ j, s.hop a p = .port j →
      let vc : BitVec 3 := (p.vc &&& 3#3) ||| (if Config.vcSet a j then 4#3 else 0#3)
      State.enterNode (k + 1) s a cv p = ((match cv with | some v => s.transmit j { v with vc := vc } | none => s).transmit j { p with vc := vc }))
    ∧ (s.hop a p = .lost → State.enterNode (k + 1) s a cv p = (if p.maint then s else s.answerUnmapped p)) := by
  have h1 : ¬ (p.collective && decide (a < 20) && !s.groupOk a p) = true := by simp [hc]
  have h2 : ¬ (decide (a < 20) && s.fencedTarget a p) = true := by
    rw [Bool.and_eq_true, decide_eq_true_eq]
    rintro ⟨ha, hft⟩
    rcases hf with hf | hf
    · omega
    · simp [hf] at hft
  constructor
  · intro j hj
    rw [State.enterNode, if_neg h1, if_neg h2, hj] <;> rfl
  · intro hj
    rw [State.enterNode, if_neg h1, if_neg h2, hj]

theorem enterNode_refused {a k : Nat} {cv : Option Packet} (hc : p.collective = true) (ha : a < 20) (hg : s.groupOk a p = false)
    (ht : p.typ ≠ 0x0D#8) : State.enterNode (k + 1) s a cv p
      = State.enterNode k (s.send (.record "rejected contribution" p.group.toNat p.txn.toNat)) a none p.reject.sealed := by
  have h : (p.collective && decide (a < 20) && !s.groupOk a p) = true := by simp [hc, ha, hg]
  rw [State.enterNode, if_pos h, collReply, if_neg ht]

theorem routeHoldRelease_unheld {l : Nat} (h : ∀ e ∈ s.fab.heldLines, e.1 ≠ l) : exec (.routeHoldRelease l) s = .next s := by
  have hf : s.fab.heldLines.find? (fun e => e.1 == l) = none := List.find?_eq_none.mpr fun e he => by simpa using h e he
  rw [Laws.exec_routeHoldRelease, execRouteHoldRelease, hf]

theorem routeHoldRelease_pending {l : Nat} {h : Nat × Nat} (hf : s.fab.heldLines.find? (fun e => e.1 == l) = some h)
    (hp : ∃ e ∈ s.fab.pending, s.lineOf e.packet = l) : exec (.routeHoldRelease l) s = .next s := by
  rw [Laws.exec_routeHoldRelease, execRouteHoldRelease, hf]
  exact if_pos (Bool.or_eq_true_iff.mpr (.inl (by simpa using hp)))

/-- The line is held no more, and what waited for it is taken out. -/
def State.unheld (s : State) (l : Nat) : State :=
  { s with fab := { s.fab with heldLines := s.fab.heldLines.filter (fun x => !(x.1 == l)),
                               heldPackets := s.fab.heldPackets.filter (fun x => !(s.lineOf x.2.2.2 == l)) } }

theorem routeHoldRelease_done {l : Nat} {h : Nat × Nat} (hf : s.fab.heldLines.find? (fun e => e.1 == l) = some h)
    (hp : ∀ e ∈ s.fab.pending, s.lineOf e.packet ≠ l) (hn : ∀ w ∈ s.net, w.loc / 512 = l → h.2 < w.id) :
    exec (.routeHoldRelease l) s = .next (((s.fab.heldPackets.filter (fun x => s.lineOf x.2.2.2 == l)).foldl
      (fun u e => u.inject e.1 e.2.1 e.2.2.1 e.2.2.2) (s.unheld l)).wakeWhy (.route l)) := by
  have hwait : ¬ ((s.fab.pending.any fun e => s.lineOf e.packet == l)
      || s.net.any fun w => decide (w.loc / 512 = l) && decide (w.id ≤ h.2)) = true := by
    rw [Bool.or_eq_true, List.any_eq_true, List.any_eq_true]
    rintro (⟨e, he, hl⟩ | ⟨w, hw, hl⟩)
    · exact hp e he (by simpa using hl)
    · obtain ⟨hl, hid⟩ := Bool.and_eq_true_iff.mp hl
      exact absurd (of_decide_eq_true hid) (Nat.not_le.mpr (hn w hw (of_decide_eq_true hl)))
  rw [Laws.exec_routeHoldRelease, execRouteHoldRelease, hf]
  exact if_neg hwait

/-! ### Hop protection (R48 to R50) -/

theorem hopPacketReceive_down (h : (s.port port).rx.state < 2) : exec (.hopPacketReceive port p) s = .next s := if_pos h

theorem hopPacketReceive_bad_again (h : 2 ≤ (s.port port).rx.state) (hc : p.hcrc ≠ p.hopCrc) (hr : (s.port port).recovery = true) :
    exec (.hopPacketReceive port p) s = .next s :=
  (if_neg (Nat.not_lt.mpr h)).trans ((if_pos hc).trans (if_pos hr))

theorem hopPacketReceive_bad (h : 2 ≤ (s.port port).rx.state) (hc : p.hcrc ≠ p.hopCrc) (hr : (s.port port).recovery = false) :
    exec (.hopPacketReceive port p) s =
      .next (((s.onPort port (fun x => { x with hcrcf := min (x.hcrcf + 1) 0xFFFF, recovery := true })).control port 1
        (s.port port).expect.toNat).faultEvent (.portDir port true) .linkCrc) :=
  (if_neg (Nat.not_lt.mpr h)).trans ((if_pos hc).trans (if_neg (by simp [hr])))

theorem hopPacketReceive_outOfTurn (h : 2 ≤ (s.port port).rx.state) (hc : p.hcrc = p.hopCrc) (he : p.hseq ≠ (s.port port).expect) :
    exec (.hopPacketReceive port p) s = .next s :=
  (if_neg (Nat.not_lt.mpr h)).trans ((if_neg (not_not.mpr hc)).trans (if_pos he))

theorem hopPacketReceive_good (h : 2 ≤ (s.port port).rx.state) (hc : p.hcrc = p.hopCrc) (he : p.hseq = (s.port port).expect) :
    let a := (s.onPort port (fun x => { x with expect := x.expect + 1#16, recovery := false, unacked := x.unacked + 1 })).ackPort port p.hack
    exec (.hopPacketReceive port p) s = .next ((if 32 ≤ (a.port port).unacked ∨ 32 ≤ port then a.ackBack port else a).grantIn port p) := by
  intro a
  have hgo : exec (.hopPacketReceive port p) s =
      .next ((if (decide (32 ≤ (a.port port).unacked) || decide (32 ≤ port)) = true then a.ackBack port else a).grantIn port p) :=
    (if_neg (Nat.not_lt.mpr h)).trans ((if_neg (not_not.mpr hc)).trans (if_neg (not_not.mpr he)))
  rw [hgo]
  simp only [Bool.or_eq_true, decide_eq_true_eq]

theorem recoveryNakTimeout_eq : exec (.recoveryNakTimeout port) s =
    .next (if (s.port port).recovery then s.control port 1 (s.port port).expect.toNat else s) := by
  rw [Laws.exec_recoveryNakTimeout, execRecoveryNakTimeout]
  split <;> rfl

theorem hopAckTimer_none (h : (s.port port).unacked = 0) : exec (.hopAckTimer port) s = .next s :=
  congrArg Host.Outcome.next (if_neg (by omega))

theorem hopAckTimer_some (h : 0 < (s.port port).unacked) : exec (.hopAckTimer port) s =
    .next ((s.onPort port (fun x => { x with unacked := 0 })).control port 0 ((s.port port).expect - 1#16).toNat) :=
  congrArg Host.Outcome.next (if_pos h)

theorem ackReceived_unknown {a : BitVec 16} (h : ∀ e ∈ (s.port port).buffer, e.1.hseq ≠ a) : exec (.ackReceived port a) s = .next s := by
  have hf : (s.port port).buffer.findIdx? (fun e => e.1.hseq == a) = none :=
    List.findIdx?_eq_none_iff.mpr fun e he => by simpa using h e he
  rw [Laws.exec_ackReceived, execAckReceived, State.ackPort, hf]

theorem ackReceived_known {a : BitVec 16} {i : Nat} (h : (s.port port).buffer.findIdx? (fun e => e.1.hseq == a) = some i) :
    exec (.ackReceived port a) s = .next ((s.onPort port (fun x => { x with buffer := x.buffer.drop (i + 1) })).drainPort port) := by
  rw [Laws.exec_ackReceived, execAckReceived, State.ackPort, h]

theorem nakReceived_known {a : BitVec 16} {i : Nat} (ht : (s.port port).tx.state ≠ 0)
    (h : (s.port port).buffer.findIdx? (fun e => e.1.hseq == a) = some i) : exec (.nakReceived port a) s = .next (s.replayPort port i) := by
  rw [Laws.exec_nakReceived, execNakReceived, if_neg ht, h]

theorem replayTimeout_replays (hb : (s.port port).buffer ≠ []) (ht : 2 ≤ (s.port port).tx.state) :
    exec (.replayTimeout port) s = .next (s.replayPort port 0) :=
  if_neg (by simpa [hb, Nat.succ_le_iff] using ht)

theorem replayTimeout_empty (hb : (s.port port).buffer = []) : exec (.replayTimeout port) s = .next s :=
  if_pos (by simp [hb])

theorem replayPort_limit {i : Nat} (h : ∃ e ∈ (s.port port).buffer.drop i, 8 ≤ e.2) : s.replayPort port i = s.portDown port false :=
  if_pos (by simpa using h)

/-! ### End to end (R43, R51) -/

theorem e2eNak_third {r : Pend} (hf : s.fab.pending.find? (fun e => e.key == s.replyKey p) = some r)
    (hk : 2 ≤ SMap.look 0 s.fab.resends r.key) : exec (.e2eNak p) s = exec (.unmappedResponse r.packet) s := by
  rw [Laws.exec_e2eNak, execE2eNak, hf]
  exact if_pos hk

theorem e2eNak_resends {r : Pend} (hf : s.fab.pending.find? (fun e => e.key == s.replyKey p) = some r)
    (hk : SMap.look 0 s.fab.resends r.key < 2) : exec (.e2eNak p) s =
      .next (State.enterNode 4 { s with fab := { s.fab with resends := SMap.put 0 s.fab.resends r.key (SMap.look 0 s.fab.resends r.key + 1) } }
        (s.sourceNode r.packet.spkg r.packet.sdie.toNat) none r.packet) := by
  rw [Laws.exec_e2eNak, execE2eNak, hf]
  exact if_neg (Nat.not_le.mpr hk)

theorem unmappedResponse_unknown (h : ∀ e ∈ s.fab.pending, e.key ≠ s.requestKey p) : exec (.unmappedResponse p) s = .next s := by
  have hf : s.fab.pending.find? (fun e => e.key == s.requestKey p) = none := List.find?_eq_none.mpr fun e he => by simpa using h e he
  rw [Laws.exec_unmappedResponse, execUnmappedResponse]
  dsimp only
  rw [hf]

/-- The transaction of a request is over. -/
def State.closed (s : State) (p : Packet) : State :=
  if p.baseForm then s.freeBase p (s.requestKey p) else s.dropPending (s.requestKey p)

section
variable {r : Pend} (hf : s.fab.pending.find? (fun e => e.key == s.requestKey p) = some r) (hr : ∀ e ∈ s.fab.relays, e.1 ≠ s.requestKey p)
include hf hr

/-- A request that no slice passes on for another is over, and fails in the context it was issued for (R43, R51). -/
theorem unmappedResponse_known : exec (.unmappedResponse p) s = r.owner.elim (.next (s.closed p)) (s.closed p).failIn := by
  have hn : s.fab.relays.find? (fun e => e.1 == s.requestKey p) = none := List.find?_eq_none.mpr fun e he => by simpa using hr e he
  rw [Laws.exec_unmappedResponse, execUnmappedResponse]
  dsimp only
  rw [hf, hn]
  dsimp only
  cases r.owner <;> rfl

theorem unmappedResponse_unowned (ho : r.owner = none) : exec (.unmappedResponse p) s = .next (s.closed p) := by
  rw [unmappedResponse_known hf hr, ho, Option.elim_none]

theorem unmappedResponse_owned {c : CtxId} (ho : r.owner = some c) : exec (.unmappedResponse p) s = (s.closed p).failIn c := by
  rw [unmappedResponse_known hf hr, ho, Option.elim_some]

end

theorem failIn_idle {c : CtxId} (h1 : (s.ctx c).st ≠ .run) (h2 : (s.ctx c).st ≠ .wait) : s.failIn c = .next s := if_pos ⟨h1, h2⟩

theorem failIn_busy {c : CtxId} (h : (s.ctx c).st = .run ∨ (s.ctx c).st = .wait) : s.failIn c =
    if (s.domain ((s.ctx c).r.dom.setWidth 32)).isSome then .next (s.domainFault ((s.ctx c).r.dom.setWidth 32) 0x15#8 0#64)
    else .fault .transportLost :=
  if_neg fun ⟨h1, h2⟩ => h.elim h1 h2

end

/-! ### Lanes, training, port loss (R46, R52, R96) -/

section
variable {s : State} {port : Nat}

theorem laneLockTimeout_live {l : Nat} (hp : port < 32) (hr : 2 ≤ (s.port port).rx.state) (hl : l < 16) :
    exec (.laneLockTimeout port l) s = .next (s.laneFailed port l) := if_pos ⟨hp, hr, hl⟩

theorem laneLockTimeout_dead {l : Nat} (h : 32 ≤ port ∨ (s.port port).rx.state < 2 ∨ 16 ≤ l) :
    exec (.laneLockTimeout port l) s = .next s := if_neg (by omega)

@[simp] theorem State.port_send (s : State) (m : OutMsg) (j : Nat) : (s.send m).port j = s.port j := rfl

@[simp] theorem State.port_flood (s : State) (j : Nat) : s.flood.port j = s.port j := rfl

@[simp] theorem State.port_reroute (s : State) (j : Nat) : s.reroute.port j = s.port j := rfl

theorem State.port_onDir_rx (s : State) (port : Nat) (f : PortDir → PortDir) :
    (s.onDir port true f).port port = { s.port port with rx := f (s.port port).rx } := State.port_onPort_same ..

theorem State.port_onDir_tx (s : State) (port : Nat) (f : PortDir → PortDir) :
    (s.onDir port false f).port port = { s.port port with tx := f (s.port port).tx } := State.port_onPort_same ..

/-- The transmitter of a port that goes DOWN (Table 2.6). -/
theorem State.port_portDown_tx (s : State) (port : Nat) :
    (s.portDown port false).port port = { s.port port with tx := { (s.port port).tx with state := 0, target := 0 } } :=
  State.port_onDir_tx s port (fun d => { d with state := 0, target := 0 })

theorem laneFail_trains {m : BitVec 16} {w : BitVec 4} (h : 2 ≤ (s.port port).tx.state) (hw : w ≠ 0#4) :
    Ends (.laneFail port m w) s (fun t => (t.port port).tx.failed = m ∧ (t.port port).tx.state = 1 ∧ (t.port port).tx.target = w.toNat
      ∧ (t.port port).rx = (s.port port).rx) := by
  refine ⟨_, (if_neg (Nat.not_lt.mpr h)).trans (if_neg hw), ?_⟩
  dsimp only
  rw [State.port_flood, State.port_onDir_tx, State.port_onDir_tx]
  exact ⟨rfl, rfl, rfl, rfl⟩

theorem laneFail_down {m : BitVec 16} (h : 2 ≤ (s.port port).tx.state) :
    Ends (.laneFail port m 0#4) s (fun t => (t.port port).tx.state = 0 ∧ (t.port port).rx = (s.port port).rx) := by
  refine ⟨_, (if_neg (Nat.not_lt.mpr h)).trans (if_pos rfl), ?_⟩
  dsimp only
  rw [State.port_portDown_tx, State.port_onDir_tx]
  exact ⟨rfl, rfl⟩

/-- A direction of a port enters its target state (R52). -/
def State.entered (s : State) (port : Nat) (rx : Bool) : State := s.onDir port rx (fun d => { d with state := d.target })

/-- Whether both directions of a port are up. -/
def State.upAt (s : State) (port : Nat) : Bool := decide (2 ≤ (s.port port).rx.state) && decide (2 ≤ (s.port port).tx.state)

/-- A port that is up again has its retry anew (R96). -/
def State.retryAnew (s : State) (port : Nat) : State :=
  if s.upAt port then s.onPort port (fun q => { q with retried := false }) else s

/-- A chip-to-chip port that is up and does not know its far end is greeted (R42). -/
def State.greetNew (s : State) (port : Nat) (up : Bool) : State :=
  if (decide (port < 32) && up && (s.port port).far.isNone) = true then s.greet port else s

/-- The port after a direction has entered its target state. -/
def State.trained (s : State) (port : Nat) (rx : Bool) : State :=
  ((s.entered port rx).retryAnew port).greetNew port ((s.entered port rx).upAt port)

theorem trainComplete_rx (h : (s.port port).rx.state = 1) : exec (.trainComplete port true) s = .next (s.trained port true).flood.reroute :=
  if_neg (not_not.mpr h)

theorem trainComplete_tx (h : (s.port port).tx.state = 1) : exec (.trainComplete port false) s =
    .next (((s.trained port false).resendFrom port 0).drainPort port).flood.reroute := if_neg (not_not.mpr h)

/-- What training has of a port beside its retry and its nonce. -/
theorem State.trained_keeps {β : Type} (g : PortSt → β) (hg : ∀ q b n, g { q with retried := b, nonce := n } = g q) (rx : Bool) :
    g ((s.trained port rx).port port) = g ((s.entered port rx).port port) := by
  have hretry : g (((s.entered port rx).retryAnew port).port port) = g ((s.entered port rx).port port) := by
    unfold State.retryAnew
    split
    · rw [State.port_onPort_same]
      exact hg _ _ _
    · rfl
  rw [← hretry]
  unfold State.trained State.greetNew
  split
  · rw [State.greet, State.port_send, State.port_onPort_same]
    exact hg _ _ _
  · rfl

theorem State.entered_rx : (s.entered port true).port port = { s.port port with rx := { (s.port port).rx with state := (s.port port).rx.target } } :=
  State.port_onDir_rx s port _

theorem State.entered_tx : (s.entered port false).port port = { s.port port with tx := { (s.port port).tx with state := (s.port port).tx.target } } :=
  State.port_onDir_tx s port _

/-- A port that comes up without a known far end greets it with a nonce alone (R42). -/
theorem State.trained_greets (hp : port < 32) (hr : 2 ≤ (s.port port).rx.target) (ht : 2 ≤ (s.port port).tx.state)
    (hf : (s.port port).far = none) : ∃ g : Greeting, OutMsg.greeting port g ∈ (s.trained port true).outbox ∧ g.sig = [] := by
  have hup : (s.entered port true).upAt port = true := by
    rw [State.upAt, State.entered_rx]
    simp [hr, ht]
  have hfar : (((s.entered port true).retryAnew port).port port).far = none := by
    rw [State.retryAnew, if_pos hup, State.port_onPort_same, State.entered_rx]
    exact hf
  rw [State.trained, State.greetNew, if_pos (by simp [hp, hup, hfar]), State.greet]
  exact ⟨_, List.mem_append_right _ (List.mem_singleton_self _), rfl⟩

theorem trainComplete_rx_ends (h : (s.port port).rx.state = 1) : Ends (.trainComplete port true) s (fun t =>
    (t.port port).rx.state = (s.port port).rx.target ∧ (t.port port).tx = (s.port port).tx
    ∧ (port < 32 → 2 ≤ (s.port port).rx.target → 2 ≤ (s.port port).tx.state → (s.port port).far = none →
      ∃ g : Greeting, OutMsg.greeting port g ∈ t.outbox ∧ g.sig = [])) := by
  refine ⟨_, trainComplete_rx h, ?_, ?_, fun hp hr ht hf => ?_⟩
  · rw [State.port_reroute, State.port_flood, State.trained_keeps (·.rx.state) (fun _ _ _ => rfl), State.entered_rx]
  · rw [State.port_reroute, State.port_flood, State.trained_keeps (·.tx) (fun _ _ _ => rfl), State.entered_rx]
  · obtain ⟨g, hg, hsig⟩ := State.trained_greets hp hr ht hf
    exact ⟨g, List.mem_append_left _ hg, hsig⟩

/-- A port with nothing to resend and nothing that waits keeps its directions (R50). -/
theorem State.drain_idle {t : State} (hb : (t.port port).buffer = []) (hs : (t.port port).stalled = []) :
    (((t.resendFrom port 0).drainPort port).port port).tx = (t.port port).tx
    ∧ (((t.resendFrom port 0).drainPort port).port port).rx = (t.port port).rx := by
  have hres : t.resendFrom port 0 = t.onPort port (fun x => { x with buffer := x.buffer.take 0 ++ (x.buffer.drop 0).map (fun e => (e.1, e.2 + 1)) }) := by
    rw [State.resendFrom, hb]
    rfl
  have hstall : ((t.resendFrom port 0).port port).stalled = [] := by
    rw [hres, State.port_onPort_same]
    exact hs
  rw [State.drainPort, hstall, List.foldl_nil, State.port_onPort_same, hres, State.port_onPort_same]
  exact ⟨rfl, rfl⟩

theorem trainComplete_tx_ends (h : (s.port port).tx.state = 1) (hb : (s.port port).buffer = []) (hs : (s.port port).stalled = []) :
    Ends (.trainComplete port false) s (fun t => (t.port port).tx.state = (s.port port).tx.target ∧ (t.port port).rx = (s.port port).rx) := by
  have hkeep := fun {β : Type} (g : PortSt → β) hg => (State.trained_keeps (s := s) (port := port) g hg false).trans (congrArg g State.entered_tx)
  obtain ⟨htx, hrx⟩ := State.drain_idle (t := s.trained port false) ((hkeep (·.buffer) fun _ _ _ => rfl).trans hb)
    ((hkeep (·.stalled) fun _ _ _ => rfl).trans hs)
  refine ⟨_, trainComplete_tx h, ?_, ?_⟩
  · rw [State.port_reroute, State.port_flood, htx]
    exact hkeep (·.tx.state) fun _ _ _ => rfl
  · rw [State.port_reroute, State.port_flood, hrx]
    exact hkeep (·.rx) fun _ _ _ => rfl

theorem trainTimeout_training {r : Bool} (h : (if r then (s.port port).rx else (s.port port).tx).state = 1) :
    exec (.trainTimeout port r) s = .next (s.portDown port r) := if_pos h

theorem portDownReroute_live (h : s.portLive port = true) : exec (.portDownReroute port) s = .next s := if_pos h

/-- With nothing on its way, the routes are computed without the port (R46, R96). -/
theorem portDownReroute_idle (h : s.portLive port = false) (hs : (s.port port).stalled = [])
    (hf : 32 ≤ port → (s.port (farEnd port)).stalled = []) (hp : s.fab.pending = []) :
    exec (.portDownReroute port) s = .next ((s.clearPort port).flood.reroute.checkFar port) := by
  have hleft : (if port < 32 then [port] else [port, farEnd port]).flatMap (fun j => (s.port j).stalled.map (fun p => (portNode j, p))) = [] := by
    split
    · simp [hs]
    · next hlt => simp [hs, hf (Nat.not_lt.mp hlt)]
  rw [Laws.exec_portDownReroute, execPortDownReroute, if_neg (by simp [h])]
  dsimp only
  rw [hleft, hp]
  simp only [List.filter_nil, List.map_nil, List.append_nil, List.foldl_nil]

end

section
variable {s : State} {port : Nat}

/-- A direction that is retrained whole (R96). -/
def PortDir.whole (d : PortDir) : PortDir := { d with state := 1, target := 2, failed := 0#16 }

/-- A port whose both ends are retrained once after its loss (R96). -/
def PortSt.retrained (q : PortSt) : PortSt :=
  { q with tx := q.tx.whole, rx := q.rx.whole, retried := true, nextSeq := 0#16, expect := 0#16, buffer := [], recovery := false,
           unacked := 0, far := none, cvec := [] }

/-- Both ends of a port are retrained, and the live ports flooded (R42, R96). -/
def State.retrainEnds (s : State) (port : Nat) : State :=
  (if port < 32 then s.onPort port PortSt.retrained
    else (s.onPort port PortSt.retrained).onPort (farEnd port) PortSt.retrained).flood

/-- Whether or not the far end is the port itself, the port has been retrained. -/
theorem State.port_retrainEnds : ∃ q : PortSt, (s.retrainEnds port).port port = q.retrained := by
  rw [State.retrainEnds, State.port_flood]
  split
  · exact ⟨_, State.port_onPort_same s port _⟩
  · by_cases hfar : port = farEnd port
    · rw [← hfar]
      exact ⟨_, State.port_onPort_same _ port _⟩
    · exact ⟨_, (State.port_onPort_other _ _ hfar).trans (State.port_onPort_same s port _)⟩

theorem portRetrainRetry_down_ends (h : s.portLive port = false) (hr : (s.port port).retried = false) :
    Ends (.portRetrainRetry port) s (fun t => (t.port port).tx.state = 1
        ∧ (t.port port).tx.target = 2 ∧ (t.port port).rx.state = 1 ∧ (t.port port).rx.target = 2 ∧ (t.port port).tx.failed = 0#16
        ∧ (t.port port).nextSeq = 0#16 ∧ (t.port port).expect = 0#16 ∧ (t.port port).buffer = [] ∧ (t.port port).far = none
        ∧ (t.port port).retried = true) := by
  refine ⟨s.retrainEnds port, (if_neg (by simp [h])).trans (if_neg (by simp [hr])), ?_⟩
  obtain ⟨q, hq⟩ := State.port_retrainEnds (s := s) (port := port)
  rw [hq]
  exact ⟨rfl, rfl, rfl, rfl, rfl, rfl, rfl, rfl, rfl, rfl⟩

theorem portRetrainRetry_again (h : s.portLive port = false) (hr : (s.port port).retried = true) :
    exec (.portRetrainRetry port) s = .next s := (if_neg (by simp [h])).trans (if_pos hr)

theorem portRetrainRetry_live (h : s.portLive port = true) (hc : s.fab.change = none) : exec (.portRetrainRetry port) s = .next s :=
  (if_pos h).trans (if_neg (by simp [hc]))

theorem portRetrainRetry_widens (h : s.portLive port = true) (hc : s.fab.change.isSome = true)
    (hw : (s.port port).tx.state ≠ 2 ∨ (s.port port).rx.state ≠ 2) :
    Ends (.portRetrainRetry port) s (fun t => (t.port port).tx.state = 1 ∧ (t.port port).tx.target = 2 ∧ (t.port port).rx.state = 1
      ∧ (t.port port).rx.target = 2) := by
  refine ⟨_, (if_pos h).trans (if_pos (by simpa [hc] using hw)), ?_⟩
  dsimp only
  rw [State.port_flood, State.port_onPort_same]
  exact ⟨rfl, rfl, rfl, rfl⟩

/-! ### Credits and notices (R44) -/

theorem creditTimeout_starved {us : Nat} (h : s.creditLimit port ≤ us)
    (hq : ∃ x ∈ (s.port port).stalled, SMap.look 0 (s.port port).credits x.vc.toNat = 0) : exec (.creditTimeout port us) s =
      .next ((({ s with rcv := { s.rcv with starved := insNat s.rcv.starved port } } : State).faultEvent (.portDir port false) .credit).checkFar port) :=
  if_pos ⟨h, by simpa using hq⟩

theorem creditTimeout_early {us : Nat} (h : us < s.creditLimit port) : exec (.creditTimeout port us) s = .next s :=
  if_neg fun hc => Nat.not_le.mpr h hc.1

theorem creditReturn_known {v n : Nat} (h : v < 8) :
    let t := s.onPort port (fun x => { x with credits := SMap.put 0 x.credits v (SMap.look 0 x.credits v + n) })
    exec (.creditReturn port v n) s = .next
      (({ t with rcv := { t.rcv with starved := t.rcv.starved.filter (fun j => !(j == port && decide (0 < n))) } } : State).drainPort port) :=
  if_neg (Nat.not_le.mpr h)

theorem creditReturn_unknown {v n : Nat} (h : 8 ≤ v) : exec (.creditReturn port v n) s = .next s := if_pos h

theorem quiesceNotice_ends (g : BitVec 12) (us : Nat) : Ends (.quiesceNotice g us) s (fun t => (g.toNat, us) ∈ t.fab.notices
    ∧ ∀ e, e.1 ≠ g.toNat → (e ∈ t.fab.notices ↔ e ∈ s.fab.notices)) := by
  refine ⟨_, rfl, List.mem_append_right _ (List.mem_singleton_self _), fun e he => ?_⟩
  have hne : e ≠ (g.toNat, us) := fun h => he (congrArg Prod.fst h)
  simp [enq, without, he, hne]

theorem resumeNotice_ends (g : BitVec 12) : Ends (.resumeNotice g) s (fun t => ∀ e, e ∈ t.fab.notices ↔ e ∈ s.fab.notices ∧ e.1 ≠ g.toNat) :=
  ⟨_, rfl, fun e => by simp [without]⟩

end

/-! ### Change of the die map (R44, R106) -/

section
variable {s : State} {m : MapChange}

/-- The GUEST entries of a change name dies that may realise a foreign identity: parked spares, and guests (R40, R99). -/
def State.guestsFree (s : State) (m : MapChange) : Prop :=
  ∀ e ∈ m.guest, e.2.toNat.testBit 31 = true → e.2.toNat % 32 ∈ s.pkg.spareDies ∨ ∃ g ∈ s.rcv.guests, g.1 = e.2.toNat % 32

/-- A change that this package takes. -/
def State.mayChange (s : State) (m : MapChange) : Prop := (∀ e ∈ m.stkmap, s.badStkmap e.2 = false) ∧ s.guestsFree m

/-- A change of more than STKMAP entries. -/
def wholeChange (m : MapChange) : Prop := m.diemap ≠ [] ∨ m.guest ≠ [] ∨ m.apkg ≠ none

theorem State.guestsFree_iff : s.guestsFree m ↔ ¬ m.guest.any (fun e => e.2.toNat.testBit 31
    && !(s.pkg.spareDies.contains (e.2.toNat % 32) || s.rcv.guests.any (fun g => g.1 == e.2.toNat % 32))) = true := by
  rw [State.guestsFree, Bool.not_eq_true, List.any_eq_false]
  refine forall₂_congr fun e _ => ?_
  cases e.2.toNat.testBit 31 <;> simp [or_iff_not_imp_left]

theorem State.mayChange_iff : s.mayChange m ↔ ¬ (m.stkmap.any (fun e => s.badStkmap e.2) || m.guest.any (fun e => e.2.toNat.testBit 31
    && !(s.pkg.spareDies.contains (e.2.toNat % 32) || s.rcv.guests.any (fun g => g.1 == e.2.toNat % 32)))) = true := by
  rw [Bool.or_eq_true, not_or, ← State.guestsFree_iff, State.mayChange]
  simp

theorem wholeChange.not_stacks (h : wholeChange m) : ¬ (m.diemap.isEmpty && m.guest.isEmpty && m.apkg.isNone) = true := by
  simp only [Bool.and_eq_true, List.isEmpty_iff, Option.isNone_iff_eq_none]
  rintro ⟨⟨hd, hg⟩, ha⟩
  exact h.elim (· hd) (·.elim (· hg) (· ha))

theorem dieMapChange_refused {ok : Bool} (h : ¬ s.mayChange m) : exec (.dieMapChange m ok) s = .next s :=
  if_pos (not_not.mp fun hn => h (State.mayChange_iff.mpr hn))

theorem dieMapChange_starts {ok : Bool} (h : s.mayChange m) (hw : wholeChange m) (hc : s.fab.change = none) :
    exec (.dieMapChange m ok) s =
      .next (if ok = true ∧ (s.startChange m).drained = true then (s.startChange m).finishChange m else s.startChange m) := by
  rw [Laws.exec_dieMapChange, execDieMapChange, if_neg (State.mayChange_iff.mp h), if_neg hw.not_stacks, hc]
  dsimp only
  rw [← apply_ite Host.Outcome.next]
  simp only [Bool.and_eq_true]

theorem dieMapChange_finishes (h : s.mayChange m) (hw : wholeChange m) (hc : s.fab.change = some m) (hd : s.drained = true) :
    exec (.dieMapChange m true) s = .next (s.finishChange m) := by
  rw [Laws.exec_dieMapChange, execDieMapChange, if_neg (State.mayChange_iff.mp h), if_neg hw.not_stacks, hc]
  exact if_pos ⟨rfl, rfl, hd⟩

theorem dieMapChange_waits {ok : Bool} (h : s.mayChange m) (hw : wholeChange m) (hc : s.fab.change.isSome = true)
    (hn : s.fab.change ≠ some m ∨ ok = false ∨ s.drained = false) : exec (.dieMapChange m ok) s = .next s := by
  obtain ⟨c, hc⟩ := Option.isSome_iff_exists.mp hc
  rw [Laws.exec_dieMapChange, execDieMapChange, if_neg (State.mayChange_iff.mp h), if_neg hw.not_stacks, hc]
  refine if_neg ?_
  rintro ⟨rfl, hok, hd⟩
  simp [hc, hok, hd] at hn

/-- Every die of the package is quiesced, or none (R44 steps 3, 6). -/
def State.setQuiesced (s : State) (b : Bool) : State :=
  (List.range 16).foldl (fun t d => t.onDie d (fun x => { x with quiesced := b })) s

theorem State.die_setQuiesced (s : State) (b : Bool) {d : Nat} (hd : d < 16) : ((s.setQuiesced b).die d).quiesced = b := by
  unfold State.setQuiesced
  exact foldl_range_at (g := fun t d => (t.die d).quiesced) (w := fun _ _ => b) (f := fun t d => t.onDie d (fun x => { x with quiesced := b }))
    (fun t d => congrArg DieSt.quiesced (t.die_onDie_same d _)) (fun t d k h => congrArg DieSt.quiesced (t.die_onDie_other _ h)) hd s

/-- Credits of every chip-to-chip port are withheld (R44 step 3). -/
def State.withholdCredits (s : State) : State := (List.range 32).foldl (fun t j => t.onPort j (fun q => { q with withhold := true })) s

theorem State.withholdCredits_dies (s : State) : s.withholdCredits.dies = s.dies := State.foldl_keeps (g := State.dies) rfl

theorem State.die_congr {t : State} (h : t.dies = s.dies) (d : Nat) : t.die d = s.die d := by rw [State.die, State.die, h]

/-- The package before its units stop: its neighbours have notice, and its writes are performed (R44 step 2). -/
def State.noticed (s : State) : State := ((s.links.map (·.2.1)).eraseDups.foldl (fun t q => t.send (.quiesce q 50000)) s).emptyNet

/-- The package holds a change, or none (R44). -/
def State.withChange (s : State) (c : Option MapChange) : State := { s with fab := { s.fab with change := c } }

@[simp] theorem State.withChange_dies (s : State) (c : Option MapChange) : (s.withChange c).dies = s.dies := rfl

@[simp] theorem State.withChange_change (s : State) (c : Option MapChange) : (s.withChange c).fab.change = c := rfl

theorem State.startChange_eq (s : State) (m : MapChange) :
    s.startChange m = ((s.noticed.setQuiesced true).withholdCredits).withChange (some m) := by
  unfold State.startChange State.withholdCredits State.setQuiesced State.noticed State.withChange
  rfl

/-- A package that begins a change holds it, and every die of it is quiesced (R44). -/
theorem State.startChange_spec (s : State) (m : MapChange) :
    (s.startChange m).fab.change = some m ∧ ∀ d, d < 16 → ((s.startChange m).die d).quiesced = true := by
  rw [State.startChange_eq]
  refine ⟨State.withChange_change _ _, fun d hd => ?_⟩
  rw [State.die_congr ((State.withChange_dies _ _).trans (State.withholdCredits_dies _)), State.die_setQuiesced _ _ hd]

end

/-! #### Waking contexts leaves the fabric -/

section
variable {s : State} {m : MapChange}

@[simp] theorem State.park_fab (s : State) (c : CtxId) : (s.park c).fab = s.fab := by
  unfold State.park
  dsimp only
  split
  · simp
  · rfl

@[simp] theorem State.ready_fab (s : State) (c : CtxId) : (s.ready c).fab = s.fab := by
  unfold State.ready State.ownerReady
  split
  · split <;> simp
  · split <;> simp

@[simp] theorem State.wake_fab (s : State) (c : CtxId) : (s.wake c).fab = s.fab := by
  unfold State.wake
  split
  · simp
  · rfl

@[simp] theorem State.wakeAll_fab (s : State) (p : CtxId → Wait → Bool) : (s.wakeAll p).fab = s.fab := by
  unfold State.wakeAll
  refine State.foldl_keeps (g := State.fab) rfl fun t e _ => ?_
  split
  · exact t.wake_fab _
  · rfl

@[simp] theorem State.loseMonitors_fab (s : State) (p : CtxId → Monitor → Bool) : (s.loseMonitors p).fab = s.fab := by
  unfold State.loseMonitors
  refine State.foldl_keeps (g := State.fab) rfl fun t e _ => ?_
  split
  · split
    · dsimp only
      split <;> simp
    · rfl
  · rfl

/-! #### The maps are written (R44 step 4) -/

/-- The packets and the faults that wait for the end of a change, and the requests that wait for a tag. -/
def State.waits (s : State) := (s.fab.parked, s.fab.queuedFaults, s.fab.queuedDomains, s.fab.tagWait)

theorem State.setRouters_waits (s : State) (off : Nat) (v : BitVec 32) : (s.setRouters off v).waits = s.waits :=
  s.setRouters_keeps State.waits (fun _ _ => rfl) off v

theorem State.foldl_setRouters_waits {α : Type} (s : State) (l : List α) (off : α → Nat) (v : α → BitVec 32) :
    (l.foldl (fun t e => t.setRouters (off e) (v e)) s).waits = s.waits :=
  State.foldl_keeps (g := State.waits) rfl fun t _ _ => t.setRouters_waits _ _

theorem State.reroute_waits (s : State) : s.reroute.waits = s.waits := rfl

/-- The entries of a change in every router (R44 step 4). -/
def State.writeEntries (s : State) (m : MapChange) : State :=
  let s1 := m.diemap.foldl (fun t e => t.setRouters (4 * (e.1 % 16)) e.2) s
  let s2 := m.stkmap.foldl (fun t e => t.setRouters (0x40 + 4 * (e.1 % 32)) e.2) s1
  let s3 := m.guest.foldl (fun t e => t.setRouters (0x100 + 4 * (e.1 % 16)) e.2) s2
  match m.apkg with
  | some p => s3.setRouters 0xC4 (0x80000000#32 ||| p.setWidth 32)
  | none => s3

/-- The dies that realise foreign identities are guests, and their rails are up (R41). -/
def State.takeGuests (s : State) : State :=
  let own := s.guestEntries
  own.foldl (fun t g => t.onPDie g.1 (fun d => { d with rail := true }))
    { s with rcv := { s.rcv with guests := own },
             pkg := { s.pkg with spareDies := without s.pkg.spareDies (fun d => own.any (fun g => g.1 == d)) } }

/-- The guests' timebases are loaded (R27). -/
def State.loadTimebases (s : State) (m : MapChange) : State :=
  m.loads.foldl (fun t e =>
    t.onDie (guestKey e.1) (fun d => { d with guestBase := some (e.2.1 + BitVec.ofNat 64 (e.2.2 + 2), t.cycle.toNat), lead := 0 })) s

theorem State.writeMaps_eq (s : State) (m : MapChange) :
    s.writeMaps m = (((s.writeEntries m).takeGuests).loadTimebases m).bumpMapgen.reroute := by
  unfold State.writeMaps State.loadTimebases State.takeGuests State.writeEntries
  rfl

theorem State.takeGuests_fab (s : State) : s.takeGuests.fab = s.fab := by
  unfold State.takeGuests
  exact (State.foldl_keeps (g := State.fab) rfl).trans rfl

theorem State.loadTimebases_fab (s : State) (m : MapChange) : (s.loadTimebases m).fab = s.fab :=
  State.foldl_keeps (g := State.fab) rfl

theorem State.writeEntries_waits (s : State) (m : MapChange) : (s.writeEntries m).waits = s.waits := by
  have h3 : (m.guest.foldl (fun t e => t.setRouters (0x100 + 4 * (e.1 % 16)) e.2) (m.stkmap.foldl (fun t e =>
      t.setRouters (0x40 + 4 * (e.1 % 32)) e.2) (m.diemap.foldl (fun t e => t.setRouters (4 * (e.1 % 16)) e.2) s))).waits = s.waits := by
    rw [State.foldl_setRouters_waits, State.foldl_setRouters_waits, State.foldl_setRouters_waits]
  unfold State.writeEntries
  split
  · exact (State.setRouters_waits _ _ _).trans h3
  · exact h3

theorem State.waits_congr {t : State} (h : t.fab = s.fab) : t.waits = s.waits := by rw [State.waits, h]; rfl

theorem State.writeMaps_waits (s : State) (m : MapChange) : (s.writeMaps m).waits = s.waits := by
  rw [State.writeMaps_eq, State.reroute_waits, State.bumpMapgen, State.setRouters_waits,
    State.waits_congr ((State.loadTimebases_fab _ m).trans (State.takeGuests_fab _)), State.writeEntries_waits]

theorem State.rebase_fab (s : State) : s.rebase.fab = s.fab := rfl

/-! #### The package resumes (R44 step 6) -/

/-- The credits withheld are returned. -/
def State.returnCredits (s : State) : State :=
  (List.range 32).foldl (fun t j =>
    ((t.port j).owed.foldl (fun u v => u.control j 3 v.toNat) t).onPort j (fun q => { q with withhold := false, owed := [] })) s

theorem State.control_waits (s : State) (j k v : Nat) : (s.control j k v).waits = s.waits := by
  unfold State.control
  split
  · rfl
  · split <;> rfl

theorem State.onPort_waits (s : State) (j : Nat) (f : PortSt → PortSt) : (s.onPort j f).waits = s.waits := rfl

theorem State.returnCredits_waits (s : State) : s.returnCredits.waits = s.waits := by
  unfold State.returnCredits
  refine State.foldl_keeps (g := State.waits) rfl fun t j _ => ?_
  rw [State.onPort_waits]
  exact State.foldl_keeps (g := State.waits) rfl fun u v _ => u.control_waits _ _ _

theorem State.setQuiesced_waits (s : State) (b : Bool) : (s.setQuiesced b).waits = s.waits :=
  State.foldl_keeps (g := State.waits) rfl

/-- The change is over, and the faults found meanwhile are no more queued. -/
def State.unqueued (s : State) : State := { s with fab := { s.fab with change := none, queuedFaults := [], queuedDomains := [] } }

/-- The change is over, and the neighbours are told. -/
def State.resumed (s : State) : State :=
  (s.unqueued.links.map (·.2.1)).eraseDups.foldl (fun t q => t.send (.maint "RESUME" q.toNat)) s.unqueued

theorem State.resumed_fab (s : State) : s.resumed.fab = s.unqueued.fab := State.foldl_keeps (g := State.fab) rfl

theorem State.resumed_dies (s : State) : s.resumed.dies = s.dies := (State.foldl_keeps (g := State.dies) rfl).trans rfl

theorem State.resumePackage_eq (s : State) : s.resumePackage =
    let t := s.returnCredits.setQuiesced false
    t.fab.queuedDomains.foldl (fun u d => u.domainFault d.1 d.2.1 d.2.2)
      (t.fab.queuedFaults.foldl (fun u f => u.propose f.1 f.2 (u.rcv.sps.headD 0)) t.resumed.unpark) := by
  unfold State.resumePackage State.resumed State.unqueued State.setQuiesced State.returnCredits
  rfl

theorem State.unpark_idle (h : s.fab.parked = []) : s.unpark.fab.change = s.fab.change ∧ s.unpark.dies = s.dies := by
  rw [State.unpark, h, List.foldl_nil]
  exact ⟨rfl, rfl⟩

/-- A package with nothing that waits for the end of the change resumes, and no die of it is quiesced (R44). -/
theorem State.resumePackage_idle (hp : s.fab.parked = []) (hf : s.fab.queuedFaults = []) (hd : s.fab.queuedDomains = []) :
    s.resumePackage.fab.change = none ∧ ∀ d, d < 16 → (s.resumePackage.die d).quiesced = false := by
  have hwaits : (s.returnCredits.setQuiesced false).waits = s.waits := (State.setQuiesced_waits _ _).trans s.returnCredits_waits
  have hq : ∀ {d}, d < 16 → ((s.returnCredits.setQuiesced false).die d).quiesced = false := fun h => State.die_setQuiesced _ _ h
  rw [State.resumePackage_eq]
  generalize s.returnCredits.setQuiesced false = t at hwaits hq
  obtain ⟨htp, htf, htd, -⟩ : t.fab.parked = s.fab.parked ∧ t.fab.queuedFaults = s.fab.queuedFaults
      ∧ t.fab.queuedDomains = s.fab.queuedDomains ∧ t.fab.tagWait = s.fab.tagWait := by
    simpa [State.waits] using hwaits
  have hpark : t.resumed.fab.parked = [] := by
    rw [State.resumed_fab]
    exact htp.trans hp
  obtain ⟨hchange, hdies⟩ := State.unpark_idle hpark
  dsimp only
  rw [htf, hf, htd, hd, List.foldl_nil, List.foldl_nil, hchange, State.resumed_fab]
  refine ⟨rfl, fun d h => ?_⟩
  rw [State.die_congr (hdies.trans t.resumed_dies)]
  exact hq h

/-- A package with nothing that waits ends its change (R44 steps 4 to 6). -/
theorem State.endChange_spec (m : MapChange) (hp : s.fab.parked = []) (hf : s.fab.queuedFaults = []) (hd : s.fab.queuedDomains = []) :
    (s.endChange m).fab.change = none ∧ ∀ d, d < 16 → ((s.endChange m).die d).quiesced = false := by
  have hwaits : (((s.writeMaps m).rebase).loseMonitors (fun _ m => !isBasin (m.sector * 128))).waits = s.waits :=
    (State.waits_congr ((State.loseMonitors_fab _ _).trans (State.rebase_fab _))).trans (State.writeMaps_waits s m)
  unfold State.endChange
  generalize ((s.writeMaps m).rebase).loseMonitors (fun _ m => !isBasin (m.sector * 128)) = t at hwaits
  obtain ⟨htp, htf, htd, -⟩ : t.fab.parked = s.fab.parked ∧ t.fab.queuedFaults = s.fab.queuedFaults
      ∧ t.fab.queuedDomains = s.fab.queuedDomains ∧ t.fab.tagWait = s.fab.tagWait := by
    simpa [State.waits] using hwaits
  exact State.resumePackage_idle (htp.trans hp) (htf.trans hf) (htd.trans hd)

/-! #### A change of STKMAP entries alone (R44) -/

/-- The change of one STKMAP entry. -/
def stackChange (k : Nat) (v : BitVec 32) : MapChange := { diemap := [], stkmap := [(k, v)], guest := [], apkg := none, loads := [] }

theorem dieMapChange_stack {k : Nat} {v : BitVec 32} (hv : s.badStkmap v = false) (hc : s.fab.change = none) :
    exec (.dieMapChange (stackChange k v) true) s = .next (s.changeStacks (stackChange k v) true) := by
  have hmay : s.mayChange (stackChange k v) := ⟨by simpa [stackChange] using hv, by simp [State.guestsFree, stackChange]⟩
  rw [Laws.exec_dieMapChange, execDieMapChange, if_neg (State.mayChange_iff.mp hmay)]
  refine (if_pos rfl).trans (if_neg ?_)
  simp [stackChange, hc]

/-- The stacks whose entries a change writes. -/
def changedStacks (m : MapChange) : List Nat := m.stkmap.map (fun e => e.1 % 32)

/-- The slices of the stacks' home dies hold new requests to them. -/
def State.holdStacks (s : State) (l : List Nat) : State := { s with fab := { s.fab with heldStacks := l.foldl insNat s.fab.heldStacks } }

/-- They send them again. -/
def State.freeStacks (s : State) (l : List Nat) : State := { s with fab := { s.fab with heldStacks := without s.fab.heldStacks (l.contains ·) } }

/-- With no request to the stacks not yet answered, the entries are written, and what waited goes on. -/
theorem State.changeStacks_done (h : ∀ e ∈ s.fab.pending, e.packet.baseForm = true → stackOf e.packet.pa ∉ changedStacks m) :
    ∃ w, s.changeStacks m true =
      ((((s.holdStacks (changedStacks m)).writeMaps m).freeStacks (changedStacks m)).drainTags).wakeAll w := by
  have hnone : ¬ (s.fab.pending.any (fun r => r.packet.baseForm && (changedStacks m).contains (stackOf r.packet.pa)) || !true) = true := by
    simpa using h
  unfold State.changeStacks
  exact ⟨_, if_neg hnone⟩

theorem State.router_reroute (s : State) (k off : Nat) : s.reroute.router k off = s.router k off := rfl

/-- The register of every router that the change of one STKMAP entry writes, and MAPGEN. -/
theorem State.router_writeMaps_stack (s : State) {k : Nat} (v : BitVec 32) (hk : k < 32) :
    ((s.writeMaps (stackChange k v)).router 0 (0x40 + 4 * k) = v &&& routerMask (0x40 + 4 * k))
    ∧ (s.writeMaps (stackChange k v)).router 0 0xC0 = s.router 0 0xC0 + 1#32 := by
  have hentries : s.writeEntries (stackChange k v) = s.setRouters (0x40 + 4 * k) v := by
    simp only [State.writeEntries, stackChange, List.foldl_nil, List.foldl_cons, Nat.mod_eq_of_lt hk]
  have hfab := (State.loadTimebases_fab (s.setRouters (0x40 + 4 * k) v).takeGuests (stackChange k v)).trans (State.takeGuests_fab _)
  rw [State.writeMaps_eq, hentries, State.router_reroute, State.router_reroute, State.bumpMapgen]
  generalize ((s.setRouters (0x40 + 4 * k) v).takeGuests).loadTimebases (stackChange k v) = t at hfab
  have hrouter : ∀ off, t.router 0 off = (s.setRouters (0x40 + 4 * k) v).router 0 off := fun off => State.router_congr (congrArg Fabric.regs hfab) 0 off
  have hgen : t.router 0 0xC0 = s.router 0 0xC0 :=
    (hrouter _).trans (State.router_setRouters_other _ _ _ (by omega) (by decide) (by omega))
  refine ⟨?_, ?_⟩
  · rw [State.router_setRouters_other _ _ _ (by omega) (by omega) (by decide), hrouter, State.router_setRouters_same _ _ _ (by decide)]
  · rw [State.router_setRouters_same _ _ _ (by decide), hgen]
    exact BitVec.and_allOnes

theorem State.router_drainTags_idle (h : s.fab.tagWait = []) (k off : Nat) : s.drainTags.router k off = s.router k off := by
  rw [State.drainTags, h, List.foldl_nil]
  rfl

theorem State.router_freeStacks (s : State) (l : List Nat) (k off : Nat) : (s.freeStacks l).router k off = s.router k off := rfl

theorem State.freeStacks_tagWait (s : State) (l : List Nat) : (s.freeStacks l).fab.tagWait = s.fab.tagWait := rfl

theorem State.holdStacks_tagWait (s : State) (l : List Nat) : (s.holdStacks l).fab.tagWait = s.fab.tagWait := rfl

theorem State.writeMaps_tagWait (s : State) (m : MapChange) : (s.writeMaps m).fab.tagWait = s.fab.tagWait :=
  congrArg (fun w => w.2.2.2) (s.writeMaps_waits m)

theorem State.router_wakeAll (s : State) (p : CtxId → Wait → Bool) (k off : Nat) : (s.wakeAll p).router k off = s.router k off :=
  State.router_congr (congrArg Fabric.regs (s.wakeAll_fab p)) k off

theorem dieMapChange_stack_ends {k : Nat} {v : BitVec 32} (hv : s.badStkmap v = false) (hc : s.fab.change = none)
    (ht : s.fab.tagWait = []) (hk : k < 32) (hp : ∀ e ∈ s.fab.pending, e.packet.baseForm = true → stackOf e.packet.pa ≠ k) :
    Ends (.dieMapChange (stackChange k v) true) s (fun t =>
      t.router 0 (0x40 + 4 * k) = v &&& routerMask (0x40 + 4 * k) ∧ t.router 0 0xC0 = s.router 0 0xC0 + 1#32) := by
  have hl : changedStacks (stackChange k v) = [k] := by simp [changedStacks, stackChange, Nat.mod_eq_of_lt hk]
  obtain ⟨w, hw⟩ := State.changeStacks_done (s := s) (m := stackChange k v) (by simpa [hl] using hp)
  refine ⟨_, (dieMapChange_stack hv hc).trans (congrArg Host.Outcome.next hw), ?_⟩
  dsimp only
  have htag : (((s.holdStacks (changedStacks (stackChange k v))).writeMaps (stackChange k v)).freeStacks
      (changedStacks (stackChange k v))).fab.tagWait = [] := by
    rw [State.freeStacks_tagWait, State.writeMaps_tagWait, State.holdStacks_tagWait, ht]
  simp only [State.router_wakeAll, State.router_drainTags_idle htag, State.router_freeStacks]
  exact (s.holdStacks _).router_writeMaps_stack v hk

end

/-! ### The clauses of the statement -/

section
variable {s : State} {r : BootReport} {p : Packet}

theorem resetStep_images_measured {l0 l1 : List Sys2Proof.Image} {c0 c1 : FwConfig} (hp : s.pkg.powered = true) (hb : s.pkg.boot = 0x02#8)
    (hsp : s.rcv.sps = [0, 1]) (h0 : s.slotAt 0 = some (l0, c0)) (h1 : s.slotAt 1 = some (l1, c1)) :
    Ends (.resetSequenceStepDone r) s (fun t => t.pkg.boot = 0x03#8 ∧ t.pkg.booted0 = l0 ∧ t.pkg.booted1 = l1
      ∧ ∀ i, i < 4 → t.measAt i = extended (s.measOf 0 i) (Crypto.sha384 (l0.getD i default).bytes)
        ∧ t.measAt (8 + i) = extended (s.measOf 1 i) (Crypto.sha384 (l1.getD i default).bytes)) := by
  obtain ⟨t, ht, h⟩ := State.bootImages_both hsp h0 h1
  exact ⟨t, (resetStep_of_boot hp hb).trans (congrArg Host.Outcome.next ht), h⟩

theorem resetStep_bind (hp : s.pkg.powered = true) (hb : s.pkg.boot = 0x05#8) (h : 32 ≤ (s.bootStacks r).length) :
    Ends (.resetSequenceStepDone r) s (fun t => t.pkg.boot = (if (s.bootDies r).length < 16 then 0x82#8 else 0x06#8)
      ∧ t.pkg.spareDies = (s.bootDies r).drop 16
      ∧ (∀ d pd k, d < 16 → (s.bootDies r)[d]? = some pd → k < 20 → t.router k (4 * d) = ownEntry (t.idFor s.identity.2) pd)
      ∧ (∀ m h k, m < 32 → (s.boundStacks r)[m]? = some h → k < 20 → t.router k (0x40 + 4 * m) = ownEntry (t.idFor s.identity.2) h)
      ∧ ∀ j, j < 32 → (t.port j).tx.state = 1 ∧ (t.port j).rx.state = 1) :=
  ⟨_, resetStep_of_boot hp hb, State.bootBind_bound_spec h⟩

theorem securityVersionAdvance_ends {v : Word} (h : s.mayAdvance v) : Ends (.securityVersionAdvance v) s (fun t =>
    t.pkg.fuse0.version.toNat = max s.pkg.fuse0.version.toNat v.toNat ∧ t.pkg.fuse1.version.toNat = max s.pkg.fuse1.version.toNat v.toNat
    ∧ t.pkg.fuse0.repair = s.pkg.fuse0.repair ∧ SameMemory s t) :=
  ⟨_, securityVersionAdvance_may h, Fuses.upTo_version _ v, Fuses.upTo_version _ v, Fuses.upTo_repair _ v, fun _ => rfl, rfl, rfl⟩

/-- What a step of the voltage leaves (R21). -/
theorem stepVoltage_ends {d mv : Nat} (h : exec (.avsRateCheck d) s = .next (s.stepVoltage d mv)) : Ends (.avsRateCheck d) s (fun t =>
    (t.die d).millivolts = mv ∧ (t.die d).timingEvents = 0 ∧ (t.die d).timingSince = s.cycle.toNat) := by
  refine ⟨_, h, ?_⟩
  dsimp only
  rw [State.stepVoltage_die]
  exact ⟨rfl, rfl, rfl⟩

theorem matrixEngineRamp_ends {d c : Nat} {o : MatrixOp} (hc : c < 64) (ho : o ∈ (s.core d c).engine) (hs : o.started = false)
    (hk : o.kind.ramps = true) (hidle : ∀ k, k < 64 → ∀ x ∈ (s.core d k).engine, x.started = false)
    (hlast : (s.die d).lastMatrix + 1024 ≤ s.cycle.toNat) (hramp : (s.die d).rampStart = none) :
    Ends (.matrixEngineRamp d) s (fun t => (t.die d).rampStart = some s.cycle.toNat ∧ SameMemory s t) := by
  refine ⟨_, (matrixEngineRamp_ask hc ho hs hk).trans (congrArg Host.Outcome.next (State.askRamp_idle hidle hlast hramp)), ?_,
    fun _ => rfl, rfl, rfl⟩
  rw [State.die_onDie_same]

theorem routePacket_base {k : Nat} {o : Option CtxId} (h : k < 20) (hp : Packet.plain p) (hb : p.baseForm = true)
    (hd : p.sdie.toNat = stackOf p.pa / 2) : exec (.routePacket k p o) s = .next (p.split.foldl (fun t x => t.sendBase k o x) s) :=
  (routePacket_plain h hp).trans ((if_pos hb).trans (if_neg (not_not.mpr hd)))

theorem routePacket_base_elsewhere {k : Nat} {o : Option CtxId} (h : k < 20) (hp : Packet.plain p) (hb : p.baseForm = true)
    (hd : p.sdie.toNat ≠ stackOf p.pa / 2) : exec (.routePacket k p o) s = .next s :=
  (routePacket_plain h hp).trans ((if_pos hb).trans (if_pos hd))

theorem routePacket_injects {k : Nat} {o : Option CtxId} (h : k < 20) (hp : Packet.plain p) (hb : p.baseForm = false) :
    let cv := if p.cvp then SMap.look none (s.port (localEnd k)).cvec (p.vc.toNat % 4) else none
    exec (.routePacket k p o) s =
      .next ((s.onPort (localEnd k) (fun x => { x with cvec := SMap.put none x.cvec (p.vc.toNat % 4) none })).inject k o cv p.sealed) :=
  (routePacket_plain h hp).trans (if_neg (by simp [hb]))

theorem failIn_domain {c : CtxId} (h : (s.ctx c).st = .run ∨ (s.ctx c).st = .wait)
    (hd : (s.domain ((s.ctx c).r.dom.setWidth 32)).isSome = true) :
    s.failIn c = .next (s.domainFault ((s.ctx c).r.dom.setWidth 32) 0x15#8 0#64) := (failIn_busy h).trans (if_pos hd)

theorem failIn_lost {c : CtxId} (h : (s.ctx c).st = .run ∨ (s.ctx c).st = .wait) (hd : s.domain ((s.ctx c).r.dom.setWidth 32) = none) :
    s.failIn c = .fault .transportLost := (failIn_busy h).trans (if_neg (by simp [hd]))

end

/-- Settles O56, clause by clause: each names the lemma about its step. -/
theorem powerResetAndFabric : Obligations.PowerResetAndFabric := by
  intro s port p now q boot two
  exact ⟨coldReset_ends s,
    warmPackageReset_on,
    warmPackageReset_off,
    fun r hp => ⟨resetStep_of_boot hp, resetStep_images_rejected hp, fun _ _ _ _ => resetStep_images_measured hp,
      resetStep_compare_agree hp, resetStep_compare_differ hp, resetStep_of_boot hp,
      fun hb => ⟨resetStep_bind_short hp hb, resetStep_bind hp hb⟩,
      resetStep_of_boot hp, resetStep_scrub hp, resetStep_start hp, resetStep_of_boot hp⟩,
    fun _ => ⟨securityVersionAdvance_ends, securityVersionAdvance_not⟩,
    fun _ _ h => ⟨thermalSample_die_trip h, thermalSample_stack_trip h⟩,
    fun _ _ => thermalSample_stack_below,
    fun _ _ => thermalSample_die_ends,
    powerWindowCheck_ends,
    fun _ => ⟨fun h => stepVoltage_ends (avsRateCheck_up h), fun h h1 h4 => stepVoltage_ends (avsRateCheck_down h h1 h4), avsRateCheck_rest⟩,
    fun _ _ _ => matrixEngineRamp_ends,
    fun _ => matrixEngineRamp_none,
    fun _ => guestTimebaseCorrection_guest,
    fun _ => maintGreeting_dead,
    fun _ hp hl => ⟨fun hg => ⟨_, maintGreeting_nonce ⟨hp, hl⟩ hg, rfl⟩, maintGreeting_signed ⟨hp, hl⟩, maintGreeting_refused ⟨hp, hl⟩⟩,
    fun _ _ => portListFlood_news,
    fun _ _ => portListFlood_known,
    rfl,
    fun _ _ => routePacket_nowhere,
    fun _ _ => routePacket_illTyped,
    fun _ _ h hw hv => ⟨routePacket_base h ⟨hw, hv⟩, routePacket_base_elsewhere h ⟨hw, hv⟩, routePacket_injects h ⟨hw, hv⟩⟩,
    fun _ _ _ => inject_parked,
    fun _ _ _ => inject_held,
    fun _ _ _ hc hf hh => (enterNode_hop hc hf).2 hh,
    fun _ _ _ j hc hf hh => (enterNode_hop hc hf).1 j hh,
    fun _ _ _ => enterNode_refused,
    fun _ => routeHoldRelease_unheld,
    fun _ _ hf => ⟨routeHoldRelease_pending hf, routeHoldRelease_done hf⟩,
    hopPacketReceive_down,
    hopPacketReceive_bad_again,
    hopPacketReceive_bad,
    hopPacketReceive_outOfTurn,
    hopPacketReceive_good,
    recoveryNakTimeout_eq,
    hopAckTimer_none,
    hopAckTimer_some,
    fun _ => ackReceived_unknown,
    fun _ _ => ackReceived_known,
    fun _ _ => nakReceived_known,
    replayTimeout_replays,
    replayTimeout_empty,
    fun _ => replayPort_limit,
    fun _ hf => ⟨e2eNak_third hf, e2eNak_resends hf⟩,
    unmappedResponse_unknown,
    fun _ hf hr => ⟨unmappedResponse_unowned hf hr, fun _ ho =>
      ⟨fun h1 h2 => (unmappedResponse_owned hf hr ho).trans (failIn_idle h1 h2), fun h =>
        ⟨fun hd => (unmappedResponse_owned hf hr ho).trans (failIn_domain h hd),
          fun hd => (unmappedResponse_owned hf hr ho).trans (failIn_lost h hd)⟩⟩⟩,
    fun _ => laneLockTimeout_live,
    fun _ => laneLockTimeout_dead,
    fun _ _ => laneFail_trains,
    fun _ => laneFail_down,
    trainComplete_rx_ends,
    trainComplete_tx_ends,
    fun _ => trainTimeout_training,
    portDownReroute_live,
    portDownReroute_idle,
    portRetrainRetry_down_ends,
    portRetrainRetry_again,
    portRetrainRetry_live,
    portRetrainRetry_widens,
    fun _ => creditTimeout_starved,
    fun _ => creditTimeout_early,
    fun _ _ => creditReturn_known,
    fun _ _ => creditReturn_unknown,
    quiesceNotice_ends,
    resumeNotice_ends,
    fun m _ => ⟨dieMapChange_refused, dieMapChange_starts,
      fun h hw hc hok hd => hok ▸ dieMapChange_finishes h hw hc hd, dieMapChange_waits,
      s.startChange_spec m, State.endChange_spec m⟩,
    fun _ _ => dieMapChange_stack_ends⟩

end Sys2Proof.Machine

/-!
# Memory behind the homes

What a slice may do to memory when it reads: it moves lines, writes back and drops copies, and no byte changes.  `State.Settles` says so of
two states, and has a lemma for each operation below the homes.  What a write does follows, part by part.
-/

namespace Sys2Proof.Machine

-- The lemmas are many: elaborated side by side they take more memory than the check allows.
set_option Elab.async false

open Claims

/-! ### Words and poison marks -/

theorem mem_insNat {l : List Nat} {k w : Nat} : w ∈ insNat l k ↔ w = k ∨ w ∈ l := by
  induction l with
  | nil => simp [insNat]
  | cons j t ih =>
    unfold insNat
    split
    · simp
    · split
      · next h => simp [h]
      · simp only [List.mem_cons, ih]
        tauto

theorem mem_without {α : Type} {l : List α} {p : α → Bool} {x : α} : x ∈ without l p ↔ x ∈ l ∧ p x = false := by
  simp [without]

theorem mem_wordsOf {loc n w : Nat} : w ∈ wordsOf loc n ↔ 0 < n ∧ loc / 8 ≤ w ∧ w ≤ (loc + n - 1) / 8 := by
  unfold wordsOf
  split
  · simp; omega
  · simp only [List.mem_map, List.mem_range]
    constructor
    · rintro ⟨i, hi, rfl⟩
      omega
    · rintro ⟨h0, h1, h2⟩
      exact ⟨w - loc / 8, by omega, by omega⟩

/-- The words of an access within a sector lie in that sector. -/
theorem div_of_mem_wordsOf {c loc n w : Nat} (hlo : c * 128 ≤ loc) (hhi : loc + n ≤ c * 128 + 128) (hw : w ∈ wordsOf loc n) : w / 16 = c := by
  have := mem_wordsOf.mp hw
  omega

/-- Setting or clearing the poison of a range leaves the other words alone. -/
theorem State.mem_setPoison_other {s : State} {loc n w : Nat} {b : Bool} (h : w ∉ wordsOf loc n) :
    w ∈ (s.setPoison loc n b).poison ↔ w ∈ s.poison := by
  unfold State.setPoison
  refine List.foldlRecOn (motive := fun l => w ∈ l ↔ w ∈ s.poison) _ _ Iff.rfl fun l hl k hk => ?_
  have hne : w ≠ k := fun e => h (e ▸ hk)
  cases b <;> simp [mem_insNat, mem_without, hne, hl]

theorem State.poisoned_eq_false {s : State} {loc n : Nat} : s.poisoned loc n = false ↔ ∀ w ∈ wordsOf loc n, w ∉ s.poison := by
  simp [State.poisoned]

/-- Another state with the same marks on the words of a range is poisoned there alike. -/
theorem State.poisoned_congr {s t : State} {loc n : Nat} (h : ∀ w ∈ wordsOf loc n, (w ∈ t.poison ↔ w ∈ s.poison)) :
    t.poisoned loc n = s.poisoned loc n := by
  rw [Bool.eq_iff_iff]
  simp only [State.poisoned, List.any_eq_true, List.contains_iff_mem]
  exact exists_congr fun w => and_congr_right (h w)

/-- A part of a sector without poison has none. -/
theorem State.poisoned_part {s : State} {c loc n : Nat} (h : s.poisoned (c * 128) 128 = false) (hlo : c * 128 ≤ loc)
    (hhi : loc + n ≤ c * 128 + 128) : s.poisoned loc n = false := by
  rw [State.poisoned_eq_false] at h ⊢
  intro w hw
  have := mem_wordsOf.mp hw
  exact h w (mem_wordsOf.mpr (by omega))

/-! ### A sector above DRAM -/

/-- Two states differ in poison marks alone, and in those of one sector alone. -/
def State.Repoisons (c : Nat) (s t : State) : Prop :=
  ∃ p, t = { s with poison := p } ∧ ∀ w, w / 16 ≠ c → (w ∈ p ↔ w ∈ s.poison)

theorem State.Repoisons.refl (c : Nat) (s : State) : s.Repoisons c s := ⟨s.poison, rfl, fun _ _ => Iff.rfl⟩

theorem State.Repoisons.setPoison {c loc n : Nat} {s t : State} {b : Bool} (h : s.Repoisons c t) (hlo : c * 128 ≤ loc)
    (hhi : loc + n ≤ c * 128 + 128) : s.Repoisons c (t.setPoison loc n b) := by
  obtain ⟨p, rfl, hp⟩ := h
  exact ⟨_, rfl, fun w hw => (State.mem_setPoison_other fun hm => hw (div_of_mem_wordsOf hlo hhi hm)).trans (hp w hw)⟩

/-- Settling a sector that has another copy below changes marks of that sector alone, and nothing is below it any more. -/
theorem State.settleSector_some {s : State} {c : Nat} {u : Under} (hu : SMap.look none s.under c = some u) :
    ∃ t, s.Repoisons c t ∧ s.settleSector c = t.dropUnder c := by
  unfold State.settleSector
  rw [hu]
  refine ⟨_, ?_, rfl⟩
  refine List.foldlRecOn (motive := fun t => s.Repoisons c t) _ _ ((State.Repoisons.refl c s).setPoison le_rfl le_rfl) fun t ht i hi => ?_
  have hi : i < 4 := List.mem_range.mp hi
  split
  · exact ht.setPoison (by omega) (by omega)
  · exact ht

theorem State.settleSector_none {s : State} {c : Nat} (hu : SMap.look none s.under c = none) : s.settleSector c = s := by
  unfold State.settleSector
  rw [hu]

/-! ### What a read leaves -/

/-- From one state to the other, bytes, full/empty bits, contexts and fabric are the same, and a sector without another copy below it keeps
its marks and has none below it still. -/
structure State.Settles (s t : State) : Prop where
  mem : t.mem = s.mem
  fe : t.fe = s.fe
  cx : t.cx = s.cx
  cur : t.cur = s.cur
  fab : t.fab = s.fab
  sector : ∀ c, SMap.look none s.under c = none →
    SMap.look none t.under c = none ∧ ∀ w, w / 16 = c → (w ∈ t.poison ↔ w ∈ s.poison)

namespace State.Settles

variable {r s : State}

theorem refl (s : State) : s.Settles s := ⟨rfl, rfl, rfl, rfl, rfl, fun _ h => ⟨h, fun _ _ => Iff.rfl⟩⟩

/-- Other fields do not matter. -/
theorem same {t : State} (h : r.Settles s) (hmem : t.mem = s.mem := by rfl) (hfe : t.fe = s.fe := by rfl) (hcx : t.cx = s.cx := by rfl)
    (hcur : t.cur = s.cur := by rfl) (hfab : t.fab = s.fab := by rfl) (hu : t.under = s.under := by rfl)
    (hp : t.poison = s.poison := by rfl) : r.Settles t :=
  ⟨hmem.trans h.mem, hfe.trans h.fe, hcx.trans h.cx, hcur.trans h.cur, hfab.trans h.fab, by rw [hu, hp]; exact h.sector⟩

theorem foldl {α : Type} {l : List α} {f : State → α → State} (h : r.Settles s) (hf : ∀ t e, r.Settles t → r.Settles (f t e)) :
    r.Settles (l.foldl f s) :=
  List.foldlRecOn (motive := fun t => r.Settles t) l f h fun t ht e _ => hf t e ht

theorem ite {c : Prop} [Decidable c] {a b : State} (ha : r.Settles a) (hb : r.Settles b) : r.Settles (if c then a else b) := by
  split
  exacts [ha, hb]

theorem onDie (h : r.Settles s) {d : Nat} {f : DieSt → DieSt} : r.Settles (s.onDie d f) := h.same

theorem onStack (h : r.Settles s) {k : Nat} {f : StackSt → StackSt} : r.Settles (s.onStack k f) := h.same

theorem send (h : r.Settles s) {m : OutMsg} : r.Settles (s.send m) := h.same

theorem setL2 (h : r.Settles s) {d : Nat} {f : List L2Line → List L2Line} : r.Settles (s.setL2 d f) := h.same

theorem mergeV (h : r.Settles s) {d : Nat} {v : SMap (BitVec 32)} : r.Settles (s.mergeV d v) := h.same

theorem retireYoung (h : r.Settles s) {d : Nat} : r.Settles (s.retireYoung d) := h.same

theorem onDomain (h : r.Settles s) {i : BitVec 32} {f : DomRec → DomRec} : r.Settles (s.onDomain i f) :=
  h.same (by simp) (by simp) (by simp) (by simp) (by simp) (by simp) (by simp)

theorem dropUnder (h : r.Settles s) {c : Nat} : r.Settles (s.dropUnder c) where
  mem := h.mem
  fe := h.fe
  cx := h.cx
  cur := h.cur
  fab := h.fab
  sector k hk := by
    refine ⟨?_, (h.sector k hk).2⟩
    by_cases hkc : k = c
    · exact hkc ▸ SMap.look_drop_same _ _
    · exact (SMap.look_drop_other _ hkc).trans (h.sector k hk).1

theorem repoisons {t : State} {c : Nat} (h : r.Settles s) (hr : s.Repoisons c t) (hc : SMap.look none r.under c ≠ none) : r.Settles t := by
  obtain ⟨p, rfl, hp⟩ := hr
  refine ⟨h.mem, h.fe, h.cx, h.cur, h.fab, fun k hk => ⟨(h.sector k hk).1, fun w hw => ?_⟩⟩
  exact (hp w fun e => hc ((hw.symm.trans e) ▸ hk)).trans ((h.sector k hk).2 w hw)

theorem settleSector (h : r.Settles s) {c : Nat} : r.Settles (s.settleSector c) := by
  cases hu : SMap.look none s.under c with
  | none => exact (State.settleSector_none hu).symm ▸ h
  | some u =>
    obtain ⟨t, ht, he⟩ := State.settleSector_some hu
    rw [he]
    exact (h.repoisons ht fun hr => by simp [(h.sector c hr).1] at hu).dropUnder

theorem toDram (h : r.Settles s) {k line : Nat} {m : BitVec 4} : r.Settles (s.toDram k line m) :=
  h.ite (h.onStack.foldl fun _ _ ht => ht.dropUnder)

theorem ocWriteBack (h : r.Settles s) {k line : Nat} {skip : BitVec 4} : r.Settles (s.ocWriteBack k line skip) := by
  unfold State.ocWriteBack
  split
  exacts [h, h.onStack.toDram.foldl fun _ _ ht => ht.settleSector]

theorem ocFill (h : r.Settles s) {k line : Nat} {dirty : BitVec 4} : r.Settles (s.ocFill k line dirty) := by
  unfold State.ocFill
  split
  · exact h.toDram
  · refine onStack ?_
    split
    · exact h.onStack.ocWriteBack.ite h.onStack
    · exact h.onStack

theorem stitchDelta (h : r.Settles s) {k slice line : Nat} {m : BitVec 4} {dom : BitVec 32} {old new : List Byte} :
    r.Settles (s.stitchDelta k slice line m dom old new) := by
  unfold State.stitchDelta
  dsimp only
  split
  exacts [h.toDram.onDie, h]

theorem stitchWriteBack (h : r.Settles s) {slice line : Nat} {m : BitVec 4} {dom : BitVec 32} :
    r.Settles (s.stitchWriteBack slice line m dom) := by
  unfold State.stitchWriteBack
  dsimp only
  split
  exacts [h.onDomain.onStack.send, h.onDomain.stitchDelta]

theorem l2WriteBack (h : r.Settles s) {d : Nat} {x : L2Line} {m : BitVec 4} : r.Settles (s.l2WriteBack d x m) := by
  refine onDie ?_
  split
  exacts [h.foldl fun _ _ ht => ht.stitchWriteBack, h.toDram]

theorem dropClean (h : r.Settles s) {line : Nat} {dirty : BitVec 4} : r.Settles (s.dropClean line dirty) :=
  h.foldl fun _ _ ht => ht.settleSector

theorem l2Evict (h : r.Settles s) {d : Nat} {x : L2Line} : r.Settles (s.l2Evict d x) :=
  (h.ocFill.ite h.l2WriteBack.dropClean).setL2

theorem l2Put (h : r.Settles s) {d : Nat} {x : L2Line} {lru keep : Bool} : r.Settles (s.l2Put d x lru keep) := by
  unfold State.l2Put
  refine setL2 (h.ite ?_)
  split
  exacts [h.l2Evict, h.l2Evict, h]

theorem baseRead (h : r.Settles s) {line : Nat} {need : BitVec 4} : r.Settles (s.baseRead line need).2.2 := by
  unfold State.baseRead
  dsimp only
  split
  exacts [h.onStack, h.onStack]

theorem l2Read (h : r.Settles s) {d slice line : Nat} {need : BitVec 4} {pol : Nat} : r.Settles (s.l2Read d slice line need pol) :=
  h.l2Put.ite (h.baseRead.ite h.baseRead.l2Put)

theorem sliceRead (h : r.Settles s) {d slice loc n pol : Nat} : r.Settles (s.sliceRead d slice loc n pol) :=
  h.foldl fun _ _ ht => ht.onStack.ite ht.l2Read

theorem ownRead (h : r.Settles s) {d slice loc n pol : Nat} : r.Settles (s.ownRead d slice loc n pol) := h.sliceRead.onDie

theorem fillRdc (h : r.Settles s) {e d slice loc pol : Nat} : r.Settles (s.fillRdc e d slice loc pol) := h.onDie.sliceRead.onDie

/-- Such a change leaves the bytes and bits, and every mark of a sector of which no cache holds another copy than DRAM. -/
theorem sameBytes {t : State} (h : s.Settles t) : SameBytes s t :=
  ⟨fun a => byteAt_congr h.mem a, h.fe, fun w hw => (h.sector _ hw).2 w rfl⟩

end State.Settles


/-! ### Reads -/

section
variable {s : State} {x : Access} {n d h pol : Nat} {home : Bool}

/-- Memory answers only where the access is neither to a marked page nor to a poisoned sector (R91, R95). -/
def State.clean (s : State) (x : Access) (n : Nat) : Prop := x.marked = false ∧ s.sectorPoisoned x.loc n = false

theorem State.clean.not_any (hc : s.clean x n) : ¬ (x.marked || s.sectorPoisoned x.loc n) = true := by
  simp [hc.1, hc.2]

theorem State.read_basin_clean (hb : isBasin x.loc = true) (hp : s.poisoned x.loc n = false) :
    s.read x n home = .val (s.bytesAt x.loc n) s := by
  simp [State.read, hb, hp]

theorem State.read_basin_poisoned (hb : isBasin x.loc = true) (hp : s.poisoned x.loc n = true) : s.read x n home = .poison := by
  simp [State.read, hb, hp]

/-- Beyond the basin, with the context's own stores acknowledged, the issuing die reads (R216). -/
theorem State.read_far (hb : isBasin x.loc = false) (hpend : s.cx.pendOwn = 0) :
    s.read x n home = s.readFar s.cur.die x n home s.cx.r.cachePolicy := by
  simp [State.read, hb, hpend]

/-- A die reads its own memory (R223). -/
theorem State.readFar_own (hu : unmappedPa x.loc = false) (hd : homeDie x.loc = some d) (hw : s.homeWait d x.slice x.loc n = none) :
    s.readFar d x n home pol =
      if x.marked || s.sectorPoisoned x.loc n then .poison else .val (s.bytesAt x.loc n) (s.ownRead d x.slice x.loc n pol) := by
  simp [State.readFar, hu, hd, hw]

/-- A die reads another's memory at its home, which the causal order allows (R220, R222). -/
theorem State.readFar_home (hu : unmappedPa x.loc = false) (hd : homeDie x.loc = some h) (hne : h ≠ d)
    (hw : s.homeWait h x.slice x.loc n = none) (hr : s.routeHeld x.loc = false) (hk : coversVec (s.die h).k (s.die d).v none = true)
    (hy : (s.die h).liveYoung.any (fun y => (sectorsOf x.loc n).contains y.sector) = false) (hc : s.clean x n) :
    ∃ t, s.readFar d x n true pol = .val (s.bytesAt x.loc n) t := by
  rw [← Bool.not_eq_true] at hy
  simp only [State.readFar, hu, hd, hne, hw, hr, hk, hy, hc.1, hc.2]
  simp

/-- A die reads the memory of another package, with nothing of the package's in flight (R43). -/
theorem State.readFar_away (hu : unmappedPa x.loc = false) (hd : homeDie x.loc = none) (hn : s.net = []) (hr : s.routeHeld x.loc = false) :
    s.readFar d x n home pol = if x.marked || s.sectorPoisoned x.loc n then .poison else .val (s.bytesAt x.loc n) s := by
  simp [State.readFar, hu, hd, hn, hr]

/-- A read beyond the basin that gives bytes leaves memory settled. -/
theorem State.readFar_settles {t : State} {b : List Byte} (hr : s.readFar d x n home pol = .val b t) : s.Settles t := by
  have hs := State.Settles.refl s
  unfold State.readFar at hr
  repeat' split at hr
  all_goals cases hr
  exacts [hs, hs.ownRead, hs.mergeV, hs.sliceRead.mergeV, hs.retireYoung.fillRdc]

/-- A read that gives bytes leaves memory settled. -/
theorem State.read_settles {t : State} {b : List Byte} (hr : s.read x n home = .val b t) : s.Settles t := by
  unfold State.read at hr
  repeat' split at hr
  · cases hr
  · cases hr
    exact .refl s
  · cases hr
  · exact State.readFar_settles hr

end

/-- Settles O25: what each kind of home answers, and that no slice changes memory by reading. -/
theorem readsGiveMemory : Obligations.ReadsGiveMemory := by
  intro s x n home
  refine ⟨State.read_basin_clean, State.read_basin_poisoned, fun hb hpend hu => ⟨fun h hh hw hr => ⟨fun hm hp => ⟨?own, ?other⟩, ?ownPoison⟩,
    fun hh hn hr => ⟨?away, ?awayPoison⟩⟩, fun b t ht => ?frame⟩
  case own =>
    rintro rfl
    rw [State.read_far hb hpend, State.readFar_own hu hh hw, if_neg (State.clean.not_any ⟨hm, hp⟩)]
    exact ⟨_, rfl⟩
  case other =>
    intro hne hk hy
    rw [State.read_far hb hpend]
    exact State.readFar_home hu hh hne hw (hr hne) hk hy ⟨hm, hp⟩
  case ownPoison =>
    rintro rfl hmp
    rw [State.read_far hb hpend, State.readFar_own hu hh hw, if_pos (by simpa using hmp)]
  case away =>
    intro hm hp
    rw [State.read_far hb hpend, State.readFar_away hu hh hn hr, if_neg (State.clean.not_any ⟨hm, hp⟩)]
  case awayPoison =>
    intro hmp
    rw [State.read_far hb hpend, State.readFar_away hu hh hn hr, if_pos (by simpa using hmp)]
  case frame =>
    have hs := State.read_settles ht
    exact ⟨hs.sameBytes, hs.cx, hs.cur⟩

end Sys2Proof.Machine

/-!
# Writes at the homes

A write reaches memory sector by sector, at the slice or at the base die, and there granule by granule.
-/

namespace Sys2Proof.Machine

open Claims

/-! ### Contexts that wake -/

/-- The state with other contexts and cores. -/
def State.withBanks (s : State) (x : Ctx) (b : SMap Ctx) (k : SMap CoreSt) : State := { s with cx := x, banks := b, cores := k }

/-- Two states differ in contexts and cores alone. -/
def State.Wakes (s t : State) : Prop := ∃ x b k, t = s.withBanks x b k

namespace State.Wakes

variable {r s t : State}

theorem refl (s : State) : s.Wakes s := ⟨s.cx, s.banks, s.cores, rfl⟩

/-- What does not look at contexts and cores is as before. -/
theorem keeps {β : Type} (g : State → β) (h : s.Wakes t) (hg : ∀ t x b k, g (t.withBanks x b k) = g t := by exact fun _ _ _ _ => rfl) :
    g t = g s := by
  obtain ⟨x, b, k, rfl⟩ := h
  exact hg ..

theorem trans (h : r.Wakes s) (h' : s.Wakes t) : r.Wakes t := by
  obtain ⟨x, b, k, rfl⟩ := h
  obtain ⟨x', b', k', rfl⟩ := h'
  exact ⟨x', b', k', rfl⟩

theorem ite {c : Prop} [Decidable c] {a b : State} (ha : r.Wakes a) (hb : r.Wakes b) : r.Wakes (if c then a else b) := by
  split
  exacts [ha, hb]

theorem foldl {α : Type} {l : List α} {f : State → α → State} (h : r.Wakes s) (hf : ∀ (t : State) (e : α), t.Wakes (f t e)) : r.Wakes (l.foldl f s) :=
  List.foldlRecOn (motive := fun t => r.Wakes t) l f h fun t ht e _ => ht.trans (hf t e)

theorem setCtx (s : State) (c : CtxId) (x : Ctx) : s.Wakes (s.setCtx c x) := by
  unfold State.setCtx
  split
  exacts [⟨x, _, _, rfl⟩, ⟨_, _, _, rfl⟩]

theorem onCtx (s : State) (c : CtxId) (f : Ctx → Ctx) : s.Wakes (s.onCtx c f) := setCtx ..

theorem onCore (s : State) (d c : Nat) (f : CoreSt → CoreSt) : s.Wakes (s.onCore d c f) := ⟨_, _, _, rfl⟩

theorem park (s : State) (c : CtxId) : s.Wakes (s.park c) := ite ((setCtx ..).trans (onCore ..)) (refl s)

theorem ready (s : State) (c : CtxId) : s.Wakes (s.ready c) :=
  ite (ite (onCtx ..) (onCtx ..)) (ite (onCtx ..) ((onCtx ..).trans (park ..)))

theorem wake (s : State) (c : CtxId) : s.Wakes (s.wake c) := ite ((onCtx ..).trans (ready ..)) (refl s)

theorem wakeAll (s : State) (p : CtxId → Wait → Bool) : s.Wakes (s.wakeAll p) := (refl s).foldl fun t e => by
  split
  exacts [wake .., refl t]

theorem fireMonitors (s : State) (loc n : Nat) : s.Wakes (s.fireMonitors loc n) := by
  refine (refl s).foldl fun t e => ?_
  dsimp only
  split
  · split
    · split
      exacts [(onCtx ..).trans (wake ..), onCtx ..]
    · exact refl t
  · exact refl t

end State.Wakes

/-! ### Bytes of a part of a write -/

/-- A byte after a write is the one written where the write reaches, and the former one elsewhere. -/
theorem look_writeMem (m : Memory) (loc : Nat) (b : List Byte) (a : Nat) :
    SMap.look memDefault (writeMem m loc b) a =
      if loc ≤ a ∧ a < loc + b.length then b.getD (a - loc) 0#8 else SMap.look memDefault m a := by
  split
  · next h =>
    obtain ⟨i, rfl⟩ := Nat.exists_eq_add_of_le h.1
    have hi : i < b.length := by omega
    rw [look_writeMem_same m loc b hi, Nat.add_sub_cancel_left, List.getD_eq_getElem _ _ hi]
  · exact look_writeMem_other m loc b (by omega)

/-- The bytes of a write that lie from one address to another. -/
def partOf (loc : Nat) (b : List Byte) (lo hi : Nat) : List Byte := (b.drop (lo - loc)).take (hi - lo)

theorem length_partOf {loc lo hi : Nat} {b : List Byte} (hlo : loc ≤ lo) (hhi : hi ≤ loc + b.length) : (partOf loc b lo hi).length = hi - lo := by
  simp [partOf]
  omega

/-- A part of a write puts its bytes where the whole write has them. -/
theorem look_writeMem_partOf (m : Memory) {loc lo hi : Nat} {b : List Byte} (hlo : loc ≤ lo) (hhi : hi ≤ loc + b.length) (a : Nat) :
    SMap.look memDefault (writeMem m lo (partOf loc b lo hi)) a =
      if lo ≤ a ∧ a < hi then b.getD (a - loc) 0#8 else SMap.look memDefault m a := by
  rw [look_writeMem, length_partOf hlo hhi]
  by_cases h : lo ≤ a ∧ a < hi
  · have hidx : lo - loc + (a - lo) = a - loc := by omega
    rw [if_pos h, if_pos (by omega)]
    simp only [partOf, List.getD_eq_getElem?_getD]
    rw [List.getElem?_take_of_lt (by omega), List.getElem?_drop, hidx]
  · rw [if_neg h, if_neg (by omega)]

/-- Every byte outside a range is the same. -/
def State.SameOutside (loc n : Nat) (s t : State) : Prop := ∀ a, a < loc ∨ loc + n ≤ a → t.byteAt a = s.byteAt a

namespace State.SameOutside

variable {loc n : Nat} {r s t : State}

theorem of_mem (h : t.mem = s.mem) : s.SameOutside loc n t := fun a _ => byteAt_congr h a

theorem trans (h : r.SameOutside loc n s) (h' : s.SameOutside loc n t) : r.SameOutside loc n t := fun a ha => (h' a ha).trans (h a ha)

theorem of_write {lo : Nat} {b : List Byte} (h : t.mem = writeMem s.mem lo b) (hlo : b ≠ [] → loc ≤ lo) (hhi : b ≠ [] → lo + b.length ≤ loc + n) :
    s.SameOutside loc n t := by
  intro a ha
  simp only [State.byteAt, h, look_writeMem]
  refine if_neg fun hin => ?_
  have hne : b ≠ [] := fun e => by simp [e] at hin; omega
  have := hlo hne
  have := hhi hne
  omega

theorem mono {loc' n' : Nat} (h : s.SameOutside loc n t) (hlo : loc' ≤ loc) (hhi : loc + n ≤ loc' + n') : s.SameOutside loc' n' t :=
  fun a ha => h a (by omega)

theorem foldl {α : Type} {l : List α} {f : State → α → State} (hf : ∀ (t : State), ∀ e ∈ l, t.SameOutside loc n (f t e)) :
    s.SameOutside loc n (l.foldl f s) :=
  List.foldlRecOn (motive := fun t => s.SameOutside loc n t) l f (of_mem rfl) fun t ht e he => ht.trans (hf t e he)

end State.SameOutside

/-- A fold whose step at one element brings a property about, which no step undoes, ends with the property. -/
theorem foldl_reaches {σ α : Type} {f : σ → α → σ} {l : List α} {I P : σ → Prop} {e : α} (he : e ∈ l) (inv : ∀ t, ∀ x ∈ l, I t → I (f t x))
    (set : ∀ t, I t → P (f t e)) (keep : ∀ t, ∀ x ∈ l, I t → P t → P (f t x)) {s : σ} (hs : I s) : P (l.foldl f s) := by
  induction l generalizing s with
  | nil => cases he
  | cons a l ih =>
    have inv' := fun t (x : α) (hx : x ∈ l) => inv t x (List.mem_cons_of_mem a hx)
    have keep' := fun t (x : α) (hx : x ∈ l) => keep t x (List.mem_cons_of_mem a hx)
    have ha : I (f s a) := inv s a (List.mem_cons_self ..) hs
    rcases List.mem_cons.mp he with rfl | he
    · exact (List.foldlRecOn (motive := fun t => I t ∧ P t) l f ⟨ha, set s hs⟩
        fun t ht x hx => ⟨inv' t x hx ht.1, keep' t x hx ht.1 ht.2⟩).2
    · exact ih he inv' keep' ha

/-! ### A part of a write at a slice -/

theorem State.cachedPart_mem (s : State) (c loc : Nat) (b : List Byte) : (s.cachedPart c loc b).mem = writeMem s.mem loc b := by
  unfold State.cachedPart
  dsimp only
  split
  · rfl
  · split <;> rfl

theorem State.l2Write_mem (s : State) (d slice c pol : Nat) : (s.l2Write d slice c pol).mem = s.mem := by
  simp [State.l2Write, (State.Settles.refl s).l2Read.mem]

/-- The causal bookkeeping of a write changes the home die alone. -/
theorem State.noteWrite_eq (s : State) (h slice c : Nat) (f : WriteFrom) : ∃ d, s.noteWrite h slice c f = { s with dies := d } := by
  unfold State.noteWrite
  split
  · dsimp only
    split
    exacts [⟨_, rfl⟩, ⟨_, rfl⟩]
  · exact ⟨_, rfl⟩

/-! ### A part of a write at the base die -/

/-- What a masked write does to one granule: a poisoned one is reported and stays, another takes its bytes (R59, R66). -/
def State.writeGranule (slice loc : Nat) (b : List Byte) (t : State) (i : Nat) : State :=
  if t.poisoned (32 * i) 32 then t.send (.record "poisoned granule" i slice)
  else t.putRaw (max loc (32 * i)) (partOf loc b (max loc (32 * i)) (min (loc + b.length) (32 * i + 32)))

/-- The granules that a range of bytes meets. -/
def granulesOf (loc n : Nat) : List Nat := (List.range ((loc + n - 1) / 32 - loc / 32 + 1)).map (loc / 32 + ·)

theorem mem_granulesOf {loc n i : Nat} : i ∈ granulesOf loc n ↔ loc / 32 ≤ i ∧ i ≤ max ((loc + n - 1) / 32) (loc / 32) := by
  simp only [granulesOf, List.mem_map, List.mem_range]
  constructor
  · rintro ⟨k, hk, rfl⟩
    omega
  · rintro ⟨h1, h2⟩
    exact ⟨i - loc / 32, by omega, by omega⟩

section
variable {s : State} {slice c loc : Nat} {b : List Byte}

theorem State.basePart_granules (hlen : b.length ≠ 128) (hoc : (s.stack (s.stackAt (c * 128))).ocMask (c / 4) = none) :
    s.basePart slice c loc b =
      (granulesOf loc b.length).foldl (State.writeGranule slice loc b) (s.onStack (s.stackAt (c * 128)) (·.access loc)) := by
  simp only [State.basePart, hlen, if_false, hoc]
  rfl

/-- A whole sector, or a part of a line in the overflow cache, is written as it stands (R66, R70). -/
theorem State.basePart_mem (h : b.length = 128 ∨ (s.stack (s.stackAt (c * 128))).ocMask (c / 4) ≠ none) :
    (s.basePart slice c loc b).mem = writeMem s.mem loc b := by
  unfold State.basePart
  dsimp only
  split
  · simp [(State.Settles.refl s).ocWriteBack.mem]
  · next hlen =>
    split
    · simp [State.cachedPart_mem]
    · next hoc => exact absurd hoc (h.resolve_left hlen)

theorem State.writeGranule_poison (t : State) (i : Nat) : (t.writeGranule slice loc b i).poison = t.poison := by
  unfold State.writeGranule
  split <;> rfl

theorem State.writeGranule_sameOutside (t : State) (i : Nat) : t.SameOutside loc b.length (t.writeGranule slice loc b i) := by
  unfold State.writeGranule
  split
  · exact .of_mem rfl
  · intro a ha
    refine (look_writeMem_partOf t.mem (by omega) (by omega) a).trans (if_neg ?_)
    omega

/-- A granule without poison takes its bytes of the write. -/
theorem State.writeGranule_byteAt {t : State} {i : Nat} (hp : t.poisoned (32 * i) 32 = false) (a : Nat) :
    (t.writeGranule slice loc b i).byteAt a =
      if max loc (32 * i) ≤ a ∧ a < min (loc + b.length) (32 * i + 32) then b.getD (a - loc) 0#8 else t.byteAt a := by
  rw [State.writeGranule, if_neg (by simp [hp])]
  exact look_writeMem_partOf t.mem (by omega) (by omega) a

theorem State.basePart_sameOutside : s.SameOutside loc b.length (s.basePart slice c loc b) := by
  by_cases h : b.length = 128 ∨ (s.stack (s.stackAt (c * 128))).ocMask (c / 4) ≠ none
  · exact .of_write (State.basePart_mem h) (fun _ => le_rfl) fun _ => le_rfl
  · push Not at h
    rw [State.basePart_granules h.1 h.2]
    exact State.SameOutside.trans (.of_mem rfl) (.foldl fun t i _ => State.writeGranule_sameOutside t i)

/-- Bytes that read one by one as a list read together as the list. -/
theorem State.bytesAt_of_byteAt (h : ∀ i < b.length, s.byteAt (loc + i) = b.getD i 0#8) : s.bytesAt loc b.length = b := by
  apply List.ext_getElem
  · simp [State.bytesAt]
  · intro i _ hi
    simp [State.bytesAt, h i hi, hi]

/-- Within a sector without poison the base die writes every byte. -/
theorem State.basePart_bytes (hlo : c * 128 ≤ loc) (hhi : loc + b.length ≤ c * 128 + 128) (hp : s.poisoned (c * 128) 128 = false) :
    (s.basePart slice c loc b).bytesAt loc b.length = b := by
  by_cases h : b.length = 128 ∨ (s.stack (s.stackAt (c * 128))).ocMask (c / 4) ≠ none
  · exact bytesAt_of_write (State.basePart_mem h)
  · push Not at h
    rw [State.basePart_granules h.1 h.2]
    refine State.bytesAt_of_byteAt fun i hi => ?_
    have hclean : ∀ t : State, t.poison = s.poison → ∀ g ∈ granulesOf loc b.length, t.poisoned (32 * g) 32 = false := by
      intro t ht g hg
      have := mem_granulesOf.mp hg
      exact State.poisoned_part (c := c) (by rw [State.poisoned, ht]; exact hp) (by omega) (by omega)
    have hmem : (loc + i) / 32 ∈ granulesOf loc b.length := mem_granulesOf.mpr (by omega)
    refine foldl_reaches (f := State.writeGranule slice loc b) (I := fun t => t.poison = s.poison)
      (P := fun t => t.byteAt (loc + i) = b.getD i 0#8) hmem
      (fun t g _ ht => (State.writeGranule_poison t g).trans ht) (fun t ht => ?_) (fun t g hg ht h => ?_) rfl
    · rw [State.writeGranule_byteAt (hclean t ht _ hmem), if_pos (by omega), Nat.add_sub_cancel_left]
    · rw [State.writeGranule_byteAt (hclean t ht g hg), Nat.add_sub_cancel_left]
      split
      exacts [rfl, h]

/-! ### A part of a write, and a whole write -/

theorem State.writePart_sameOutside {f : WriteFrom} {pol : Nat} : s.SameOutside loc b.length (s.writePart slice c loc b f pol) := by
  unfold State.writePart
  split
  · exact .of_write (State.cachedPart_mem ..) (fun _ => le_rfl) fun _ => le_rfl
  · next h _ =>
    obtain ⟨d, hd⟩ := s.noteWrite_eq h slice c f
    dsimp only
    rw [hd]
    split
    · exact State.SameOutside.trans (.of_mem rfl) State.basePart_sameOutside
    · refine .of_write ?_ (fun _ => le_rfl) fun _ => le_rfl
      rw [State.cachedPart_mem, State.l2Write_mem]

theorem State.writePart_bytes {f : WriteFrom} {pol : Nat} (hlo : c * 128 ≤ loc) (hhi : loc + b.length ≤ c * 128 + 128)
    (hp : s.poisoned (c * 128) 128 = false) : (s.writePart slice c loc b f pol).bytesAt loc b.length = b := by
  unfold State.writePart
  split
  · exact bytesAt_of_write (State.cachedPart_mem ..)
  · next h _ =>
    obtain ⟨d, hd⟩ := s.noteWrite_eq h slice c f
    dsimp only
    rw [hd]
    split
    · exact State.basePart_bytes hlo hhi hp
    · exact bytesAt_of_write (State.cachedPart_mem ..)

theorem mem_sectorsOf {loc n c : Nat} : c ∈ sectorsOf loc n ↔ 0 < n ∧ loc / 128 ≤ c ∧ c ≤ (loc + n - 1) / 128 := by
  unfold sectorsOf
  split
  · simp; omega
  · simp only [List.mem_map, List.mem_range]
    constructor
    · rintro ⟨i, hi, rfl⟩
      omega
    · rintro ⟨h0, h1, h2⟩
      exact ⟨c - loc / 128, by omega, by omega⟩

/-- Every part of a write lies within the write. -/
theorem length_of_mem_partsOf {q : Nat × Nat × List Byte} (hq : q ∈ partsOf loc b) : loc ≤ q.2.1 ∧ q.2.1 + q.2.2.length ≤ loc + b.length := by
  simp only [partsOf, List.mem_map] at hq
  obtain ⟨c, hc, rfl⟩ := hq
  have := mem_sectorsOf.mp hc
  simp
  omega

/-- A write within a sector is one part. -/
theorem partsOf_sector (hb : b ≠ []) (hin : loc % 128 + b.length ≤ 128) : partsOf loc b = [(loc / 128, loc, b)] := by
  have hpos : 0 < b.length := List.length_pos_iff.mpr hb
  have hs : sectorsOf loc b.length = [loc / 128] := by
    have h0 : (loc + b.length - 1) / 128 - loc / 128 = 0 := by omega
    simp [sectorsOf, hb, h0]
  have hlo : max loc (loc / 128 * 128) = loc := by omega
  have hhi : min (loc + b.length) (loc / 128 * 128 + 128) - loc = b.length := by omega
  simp [partsOf, hs, hlo, hhi]

theorem State.applyWrite_sameOutside {f : WriteFrom} {pol : Nat} : s.SameOutside loc b.length (s.applyWrite loc b slice f pol) := by
  refine State.SameOutside.trans ?_ (.of_mem ((State.Wakes.fireMonitors _ loc b.length).keeps State.mem))
  split
  · exact .of_write rfl (fun _ => le_rfl) fun _ => le_rfl
  · refine .foldl fun t q hq => ?_
    obtain ⟨hlo, hhi⟩ := length_of_mem_partsOf hq
    exact State.writePart_sameOutside.mono hlo hhi

/-- A write to a basin is in memory at once (R187). -/
theorem State.applyWrite_basin_mem {f : WriteFrom} {pol : Nat} (h : isBasin loc = true) :
    (s.applyWrite loc b slice f pol).mem = writeMem s.mem loc b := by
  rw [State.applyWrite, if_pos h]
  exact (State.Wakes.fireMonitors _ loc b.length).keeps State.mem

/-- A write within a sector without poison has its bytes in memory (R66, R193). -/
theorem State.applyWrite_bytes {f : WriteFrom} {pol : Nat} (hb : isBasin loc = false) (hin : loc % 128 + b.length ≤ 128)
    (hp : s.sectorPoisoned loc b.length = false) : (s.applyWrite loc b slice f pol).bytesAt loc b.length = b := by
  by_cases hnil : b = []
  · subst hnil
    rfl
  rw [State.applyWrite, if_neg (by simp [hb]), partsOf_sector hnil hin]
  rw [bytesAt_congr ((State.Wakes.fireMonitors _ loc b.length).keeps State.mem)]
  have hpos : 0 < b.length := List.length_pos_iff.mpr hnil
  have hc : loc / 128 ∈ sectorsOf loc b.length := mem_sectorsOf.mpr (by omega)
  have hclean : s.poisoned (loc / 128 * 128) 128 = false := by
    simp only [State.sectorPoisoned, List.any_eq_false, Bool.not_eq_true] at hp
    exact hp _ hc
  have hlo : loc / 128 * 128 ≤ loc := Nat.div_mul_le_self ..
  have hhi : loc + b.length ≤ loc / 128 * 128 + 128 := by omega
  exact State.writePart_bytes hlo hhi hclean

end

/-! ### Writes in flight -/

section
variable {s : State}

theorem State.releaseChildren_mem (s : State) (id src : Nat) : (s.releaseChildren id src).mem = s.mem := by
  unfold State.releaseChildren
  extract_lets v f s1
  refine (State.foldl_keeps (g := State.mem) rfl fun t e _ => ?_).trans (rfl : s1.mem = s.mem)
  dsimp only
  split
  · split
    · split
      · exact (State.Wakes.wake ..).keeps State.mem
      · exact State.onCtx_mem ..
    · rfl
  · rfl

theorem State.ackNet_mem (s : State) (w : NetWrite) : (s.ackNet w).mem = s.mem := by
  unfold State.ackNet
  extract_lets own cross s1 s2 s3 s4
  have h2 : s2.mem = s.mem := by
    unfold s2
    split
    exacts [State.onCtx_mem .., rfl]
  have h3 : s3.mem = s2.mem := by
    unfold s3
    split <;> rfl
  have h4 : s4.mem = s3.mem := by
    unfold s4
    split
    · split
      exacts [(State.Wakes.wake ..).keeps State.mem, rfl]
    · rfl
  exact (State.releaseChildren_mem ..).trans (h4.trans (h3.trans h2))

/-- A write in flight is performed at its home after young entries have retired there (R214, R221). -/
theorem State.performNet_eq (s : State) (w : NetWrite) : ∃ d f, s.performNet w = { s with dies := d }.applyWrite w.loc w.bytes w.slice f w.pol := by
  unfold State.performNet
  dsimp only
  split
  exacts [⟨_, _, rfl⟩, ⟨s.dies, _, rfl⟩]

theorem State.performNet_sameOutside (s : State) (w : NetWrite) : s.SameOutside w.loc w.bytes.length (s.performNet w) := by
  obtain ⟨d, f, h⟩ := s.performNet_eq w
  rw [h]
  exact State.SameOutside.trans (.of_mem rfl) State.applyWrite_sameOutside

theorem State.performNet_bytes {w : NetWrite} (hb : isBasin w.loc = false) (hin : w.loc % 128 + w.bytes.length ≤ 128)
    (hp : s.sectorPoisoned w.loc w.bytes.length = false) : (s.performNet w).bytesAt w.loc w.bytes.length = w.bytes := by
  obtain ⟨d, f, h⟩ := s.performNet_eq w
  rw [h]
  exact State.applyWrite_bytes hb hin hp

/-! ### Stores of a context -/

variable {x : Access} {b : List Byte}

/-- The state in which a posted store is on its way, the context's count of it raised. -/
def State.sendStore (s : State) (x : Access) (b : List Byte) : State × NetWrite :=
  let src := s.cur.die
  let home := homeDie x.loc
  let s1 := if home == some src then s else s.dropRdc src x.loc b.length
  let nb := if home.isSome && !(home == some src) then (some (s1.bump src).1, (s1.bump src).2) else (none, s1)
  let s2 := nb.2
  let w : NetWrite := { id := s2.lastId + 1, owner := some s.cur, src := src, home := home, loc := x.loc, bytes := b,
                        slice := x.slice, num := nb.1, vec := (s2.die src).v, pol := s.cx.r.cachePolicy, performed := false, refused := false }
  ({ s2 with lastId := s2.lastId + 1, net := enq s2.net w, cx := s2.cx.pend (home == some src) home.isSome (fun n => n + 1) }, w)

/-- A posted store is performed and acknowledged at once, or stays in flight (R183, R217). -/
theorem State.postStore_eq (s : State) (x : Access) (b : List Byte) :
    s.postStore x b =
      let u := (s.sendStore x b).1
      let w := (s.sendStore x b).2
      if u.planned then u.replan
      else if !u.behind w && u.replan.mayPerform w then (u.replan.performNet w).ackNet w else u.replan := rfl

theorem State.sendStore_mem (s : State) (x : Access) (b : List Byte) : (s.sendStore x b).1.mem = s.mem := by
  unfold State.sendStore
  dsimp only
  split <;> split <;> rfl

theorem State.postStore_sameOutside : s.SameOutside x.loc b.length (s.postStore x b) := by
  rw [State.postStore_eq]
  have hu : s.SameOutside x.loc b.length (s.sendStore x b).1.replan := .of_mem (s.sendStore_mem x b)
  dsimp only
  split
  · exact hu
  · split
    · exact hu.trans (State.SameOutside.trans (State.performNet_sameOutside _ (s.sendStore x b).2) (.of_mem (State.ackNet_mem ..)))
    · exact hu

/-- A store to memory of the issuing die takes no number (R218). -/
theorem State.sendStore_own (hh : homeDie x.loc = some s.cur.die) : ∃ (u : State) (w : NetWrite), s.sendStore x b = (u, w)
    ∧ u = { s with lastId := s.lastId + 1, net := enq s.net w, cx := s.cx.pend true true (fun n => n + 1) }
    ∧ w.id = s.lastId + 1 ∧ w.owner = some s.cur ∧ w.loc = x.loc ∧ w.bytes = b ∧ w.slice = x.slice ∧ w.num = none := by
  refine ⟨_, _, rfl, ?_⟩
  simp [hh]

/-- A store that nothing keeps in flight is performed and acknowledged in its own step (R183). -/
theorem State.postStore_now {u : State} {w : NetWrite} (h : s.sendStore x b = (u, w)) (hplanned : u.planned = false)
    (hbehind : u.behind w = false) (hmay : u.replan.mayPerform w = true) : s.postStore x b = (u.replan.performNet w).ackNet w := by
  rw [State.postStore_eq, h]
  simp [hplanned, hbehind, hmay]

/-- With nothing planned, in flight, migrating or held, a store to the issuing die's memory whose home can serve it is performed in its own
step (R183, R217). -/
theorem State.postStore_own (hh : homeDie x.loc = some s.cur.die) (hplan : s.plan = []) (hnet : s.net = []) (hmig : s.migrations = [])
    (hheld : s.fab.heldLines = []) (hw : s.homeWait s.cur.die x.slice x.loc b.length = none) :
    ∃ (u : State) (w : NetWrite), s.postStore x b = (u.performNet w).ackNet w ∧ u.poison = s.poison ∧ w.loc = x.loc ∧ w.bytes = b := by
  obtain ⟨u, w, hsend, hu, hid, hown, hloc, hbytes, hslice, hnum⟩ := s.sendStore_own (b := b) hh
  refine ⟨u.replan, w, State.postStore_now hsend ?planned ?behind ?may, by rw [hu]; rfl, hloc, hbytes⟩
  case planned => simp [hu, State.planned, hplan]
  case behind => simp [hu, State.behind, hnet, enq]
  case may =>
    have hwait : u.replan.homeWait s.cur.die x.slice x.loc b.length = none := by
      rw [hu]
      exact hw
    simp only [State.mayPerform, hloc, hbytes, hslice, hnum, hh, hwait]
    simp [hu, State.replan, State.locked, hmig, hheld]

theorem State.noteRace_mem (s : State) (loc n : Nat) : (s.noteRace loc n).mem = s.mem := by
  unfold State.noteRace
  split
  · rfl
  · dsimp only
    split <;> rfl

/-- A basin store is performed at once (R187). -/
theorem State.storeAt_basin {t : State} (hb : isBasin x.loc = true) (ht : s.storeAt x b = some t) : t.mem = writeMem s.mem x.loc b := by
  rw [State.storeAt, if_pos hb] at ht
  cases ht
  rw [State.noteHarvest]
  split
  all_goals exact (State.applyWrite_basin_mem hb).trans (by rw [State.noteRace_mem])

/-- Another store is posted (R183). -/
theorem State.storeAt_far {t : State} (hb : isBasin x.loc = false) (ht : s.storeAt x b = some t) : t = s.postStore x b := by
  rw [State.storeAt, if_neg (by simp [hb])] at ht
  split at ht
  · cases ht
  · split at ht
    · cases ht
    · exact (Option.some.inj ht).symm

end

/-- Settles O26: a basin store is one write to memory; another is posted, and what its home performs lies within its bytes. -/
theorem storesWriteTheirBytes : Obligations.StoresWriteTheirBytes := by
  intro s t x b ht
  refine ⟨?frame, fun hb => bytesAt_of_write (State.storeAt_basin hb ht), fun hb hh hplan hnet hmig hheld hin hp hw => ?own⟩
  case frame =>
    cases hb : isBasin x.loc with
    | true =>
      have h : s.SameOutside x.loc b.length t := .of_write (State.storeAt_basin hb ht) (fun _ => le_rfl) fun _ => le_rfl
      exact h
    | false =>
      rw [State.storeAt_far hb ht]
      exact State.postStore_sameOutside
  case own =>
    obtain ⟨u, w, he, hpu, hloc, hbytes⟩ := State.postStore_own hh hplan hnet hmig hheld hw
    have hclean : u.sectorPoisoned x.loc b.length = false := by simpa only [State.sectorPoisoned, State.poisoned, hpu] using hp
    rw [State.storeAt_far hb ht, he, bytesAt_congr (State.ackNet_mem _ _)]
    rw [← hloc] at hb hin hclean ⊢
    rw [← hbytes] at hin hclean ⊢
    exact State.performNet_bytes hb hin hclean

end Sys2Proof.Machine

/-!
# Causal vectors and requests at a home

A lemma for each happening of the causal order and for each request that arrives at its home as a packet.
-/

namespace Sys2Proof.Machine

open Claims

/-! ### Bytes of numbers -/

theorem ofBytes_bytesLE (k x : Nat) : ofBytes (bytesLE k x) = x % 256 ^ k := by
  induction k generalizing x with
  | zero => simp [bytesLE, ofBytes, Nat.mod_one]
  | succ k ih =>
    calc ofBytes (bytesLE (k + 1) x) = x % 256 + 256 * (x / 256 % 256 ^ k) := by simp [bytesLE, ofBytes, ih]
      _ = x % 256 ^ (k + 1) := by rw [Nat.pow_succ', Nat.mod_mul]

@[simp] theorem length_bytesLE (k x : Nat) : (bytesLE k x).length = k := by
  induction k generalizing x with
  | zero => rfl
  | succ k ih => rw [bytesLE, List.length_cons, ih]

/-- Pieces of one length side by side are found at the multiples of that length. -/
theorem take_drop_flatMap {α β : Type} {f : α → List β} {l : List α} {k i : Nat} {a : α} (hf : ∀ x, (f x).length = k) (hi : l[i]? = some a) :
    ((l.flatMap f).drop (k * i)).take k = f a := by
  induction l generalizing i with
  | nil => simp at hi
  | cons x l ih =>
    rw [List.flatMap_cons]
    cases i with
    | zero =>
      obtain rfl : x = a := by simpa using hi
      rw [Nat.mul_zero, List.drop_zero, List.take_left' (hf x)]
    | succ i =>
      rw [Nat.mul_succ, Nat.add_comm, ← List.drop_drop, List.drop_left' (hf x)]
      exact ih (by simpa using hi)

/-! ### Announcements of K (R219, R221) -/

section
variable {s : State} {p : Packet} {d : Nat}

/-- A vector reads back from the bytes it is sent as (R48). -/
theorem vecAt_vector {v : SMap (BitVec 32)} {i : Nat} (hi : i < 16) (hp : p.payload = vectorBytes v) :
    vecAt (Packet.vector p) i = vecAt v i := by
  have hbytes : natAt p.payload (4 * i) 4 = (vecAt v i).toNat := by
    rw [hp, natAt, vectorBytes, take_drop_flatMap (a := i) (fun _ => length_bytesLE ..) (by simp [hi]), ofBytes_bytesLE]
    exact Nat.mod_eq_of_lt (vecAt v i).isLt
  refine (foldl_range_at (g := vecAt) (w := fun j _ => BitVec.ofNat 32 (natAt p.payload (4 * j) 4)) (fun m j => SMap.look_put_same ..)
    (fun m j k hk => SMap.look_put_other _ _ hk) hi []).trans ?_
  rw [hbytes, BitVec.ofNat_toNat, BitVec.setWidth_eq]

theorem announcement_spec (s : State) (d j : Nat) :
    let a := s.announcement d j
    a.typ = 0x11#8 ∧ a.len = 2#5 ∧ a.opx = 1#7 ∧ a.cvp = false ∧ a.addr = 0#56 ∧ a.ecrc = a.endCrc
      ∧ ∀ i, i < 16 → vecAt (Packet.vector a) i = vecAt (s.die d).k i :=
  ⟨rfl, rfl, rfl, rfl, rfl, rfl, fun _ hi => vecAt_vector hi rfl⟩

/-- K of a die is sent, and V raised with it (R219, R224). -/
def State.sendK (s : State) (d : Nat) : State :=
  (s.onDie d (fun x => { x with kSent := x.k, announcedAt := s.cycle.toNat })).liftV d

/-- The other dies hear an announcement (R219). -/
def State.hearAll (s : State) (d : Nat) (a : Nat → Packet) : State :=
  (List.range 16).foldl (fun u j => if j = d then u else u.onDie j (fun x => { x with heard := enq x.heard (a j) })) s

theorem State.hearAll_own (s : State) (d : Nat) (a : Nat → Packet) : (s.hearAll d a).die d = s.die d := by
  refine State.foldl_keeps (g := fun t => t.die d) rfl fun t j _ => ?_
  split
  · rfl
  · next h => exact State.die_onDie_other _ _ (Ne.symm h)

theorem State.hearAll_other (s : State) {d j : Nat} (a : Nat → Packet) (hj : j < 16) (hne : j ≠ d) :
    ((s.hearAll d a).die j).heard = (s.die j).heard ++ [a j] := by
  refine (foldl_range_at (g := fun t j => (t.die j).heard) (w := fun j l => if j = d then l else l ++ [a j]) ?_ ?_ hj s).trans (if_neg hne)
  · intro t j
    by_cases h : j = d <;> simp [h, enq]
  · intro t j k hk
    split
    · rfl
    · rw [State.die_onDie_other _ _ hk]

theorem completionAnnouncementTimer_ends (hd : d < 16)
    (hdue : 65536 ≤ s.cycle.toNat - (s.die d).announcedAt ∨ ((s.die d).k ≠ (s.die d).kSent ∧ 32 ≤ s.cycle.toNat - (s.die d).announcedAt)) :
    Ends (.completionAnnouncementTimer d) s (fun t => (t.die d).kSent = (s.die d).k ∧ (t.die d).announcedAt = s.cycle.toNat
      ∧ ∀ j, j < 16 → j ≠ d → (t.die j).heard = (s.die j).heard ++ [s.announcement d j]) := by
  refine ⟨(s.sendK d).hearAll d (s.announcement d), if_neg ?_, ?_, ?_, fun j hj hne => ?_⟩
  · simp only [Bool.or_eq_true, Bool.not_eq_true', Bool.or_eq_false_iff, Bool.and_eq_false_iff, decide_eq_true_eq, decide_eq_false_iff_not,
      bne_eq_false_iff_eq]
    have hlt : ¬ 16 ≤ d := Nat.not_le.mpr hd
    tauto
  · rw [State.hearAll_own, State.sendK, State.liftV, State.die_onDie_same, State.die_onDie_same]
  · rw [State.hearAll_own, State.sendK, State.liftV, State.die_onDie_same, State.die_onDie_same]
  · rw [State.hearAll_other _ _ hj hne, State.sendK, State.liftV, State.die_onDie_other _ _ hne, State.die_onDie_other _ _ hne]

theorem completionAnnouncementTimer_quiet (ht : s.cycle.toNat - (s.die d).announcedAt < 65536) (hk : (s.die d).k = (s.die d).kSent) :
    exec (.completionAnnouncementTimer d) s = .next s := by
  refine if_pos ?_
  simp [hk, ht]

theorem completionAnnouncement_raises (hd : d < 16) (h : p.opx = 1#7) : exec (.completionAnnouncement d p) s = .next ((((s.onDie d (fun x =>
    { x with k := mergeVec x.k (Packet.vector p), heard := x.heard.erase p })).retireYoung d).liftV d).wakeCausal) := by
  change execCompletionAnnouncement d p s = _
  simp [execCompletionAnnouncement, h, Nat.not_le.mpr hd]

theorem completionAnnouncement_precedes (h : p.opx = 0#7) : exec (.completionAnnouncement d p) s = .next s := by
  change execCompletionAnnouncement d p s = _
  simp [execCompletionAnnouncement, h]

theorem completionAnnouncement_dropped (hd : d < 16) (h0 : p.opx ≠ 0#7) (h1 : p.opx ≠ 1#7) :
    exec (.completionAnnouncement d p) s = .next (s.tellFault (s.dieUnit d) .droppedPacket) := by
  change execCompletionAnnouncement d p s = _
  simp [execCompletionAnnouncement, h0, h1, Nat.not_le.mpr hd]

end

/-! ### Writes in flight (R217, R218, R220) -/

section
variable {s : State} {w : NetWrite} (hf : s.net.find? (fun x => x.id == w.id) = some w)
include hf

theorem causalWritePerform_performs (hp : w.performed = false) (hr : w.refused = false) (hn : w.num.isSome = true) (hb : s.behind w = false)
    (hm : s.mayPerform w = true) : exec (.causalWritePerform w.id) s = .next ((s.performNet w).markPerformed w.id) := by
  change execCausalWritePerform w.id s = _
  simp [execCausalWritePerform, hf, hp, hr, Option.isNone_eq_false_iff.mpr hn, hb, hm]

theorem storeAck_performed (h : w.performed = true ∨ w.refused = true) : exec (.storeAck w.id) s = .next (s.ackNet w).wakeCausal := by
  change execStoreAck w.id s = _
  simp [execStoreAck, hf, h]

theorem storeAck_performs (hp : w.performed = false) (hr : w.refused = false) (hn : w.num = none) (hb : s.behind w = false)
    (hm : s.mayPerform w = true) : exec (.storeAck w.id) s = .next ((s.performNet w).ackNet w).wakeCausal := by
  change execStoreAck w.id s = _
  simp [execStoreAck, hf, hp, hr, hn, hb, hm]

end

section
variable {s : State}

theorem rdcStampAgeDrop_ends (d l : Nat) : Ends (.rdcStampAgeDrop d l) s (fun t => ∀ r, r ∈ (t.die d).rdc ↔
    r ∈ (s.die d).rdc ∧ ¬ (r.sector / 4 = l ∧ r.filled + 2 ^ 22 < s.cycle.toNat)) := by
  refine ⟨_, rfl, fun r => ?_⟩
  rw [State.die_onDie_same, mem_without]
  simp

theorem holdViolationRemote_ends {c : CtxId} {va : Word} {a : Access} {w : NetWrite}
    (hx : s.xlate c (s.ctx c).tn ((s.ctx c).heapbase, (s.ctx c).heaplim, (s.ctx c).heapoff) .wr va = .ok a)
    (hf : s.net.find? (fun w => w.owner == some c && w.home.isNone && !isBasin w.loc && !w.performed && !w.refused
      && overlaps a.loc 1 w.loc w.bytes.length) = some w) :
    Ends (.holdViolationRemote c va) s (fun t => (t.ctx c).atBoundary = (s.ctx c).atBoundary ++ [(0x09#8, va)] ∧ SameMemory s t) := by
  refine ⟨({ s with net := s.net.map (fun y => if y.id = w.id then { y with refused := true } else y) } : State).onCtx c
    (fun y => { y with atBoundary := enq y.atBoundary (0x09#8, va) }), ?_, ?_, ?_⟩
  · change execHoldViolationRemote c va s = _
    simp only [execHoldViolationRemote, hx, hf]
  · rw [State.ctx_onCtx_same]
    rfl
  · have h := State.Wakes.onCtx ({ s with net := s.net.map (fun y => if y.id = w.id then { y with refused := true } else y) } : State) c
      (fun y => { y with atBoundary := enq y.atBoundary (0x09#8, va) })
    exact ⟨fun a => h.keeps (fun t => t.byteAt a), h.keeps State.fe, h.keeps State.poison⟩

end

end Sys2Proof.Machine

/-!
# Requests that arrive at their home
-/

namespace Sys2Proof.Machine

open Claims

/-! ### A write leaves the fabric -/

section
variable {s : State} {loc : Nat} {b : List Byte}

theorem State.cachedPart_fab (s : State) (c loc : Nat) (b : List Byte) : (s.cachedPart c loc b).fab = s.fab := by
  unfold State.cachedPart
  dsimp only
  split
  · rfl
  · split <;> rfl

theorem State.l2Write_fab (s : State) (d slice c pol : Nat) : (s.l2Write d slice c pol).fab = s.fab := by
  simp [State.l2Write, (State.Settles.refl s).l2Read.fab]

theorem State.writeGranule_fab (s : State) (slice loc : Nat) (b : List Byte) (i : Nat) : (s.writeGranule slice loc b i).fab = s.fab := by
  unfold State.writeGranule
  split <;> rfl

theorem State.basePart_fab (s : State) (slice c loc : Nat) (b : List Byte) : (s.basePart slice c loc b).fab = s.fab := by
  by_cases hlen : b.length = 128
  · simp [State.basePart, hlen, (State.Settles.refl s).ocWriteBack.fab]
  · cases hoc : (s.stack (s.stackAt (c * 128))).ocMask (c / 4) with
    | none =>
      rw [State.basePart_granules hlen hoc]
      exact (State.foldl_keeps (g := State.fab) rfl fun t i _ => t.writeGranule_fab slice loc b i).trans rfl
    | some d => simp [State.basePart, hlen, hoc, State.cachedPart_fab]

theorem State.writePart_fab (s : State) (slice c loc : Nat) (b : List Byte) (f : WriteFrom) (pol : Nat) :
    (s.writePart slice c loc b f pol).fab = s.fab := by
  unfold State.writePart
  split
  · exact s.cachedPart_fab c loc b
  · next h _ =>
    obtain ⟨d, hd⟩ := s.noteWrite_eq h slice c f
    dsimp only
    rw [hd]
    split
    · exact State.basePart_fab ..
    · exact (State.cachedPart_fab ..).trans (State.l2Write_fab ..)

theorem State.applyWrite_fab (s : State) (loc : Nat) (b : List Byte) (slice : Nat) (f : WriteFrom) (pol : Nat) :
    (s.applyWrite loc b slice f pol).fab = s.fab := by
  refine ((State.Wakes.fireMonitors _ loc b.length).keeps State.fab).trans ?_
  split
  · rfl
  · exact State.foldl_keeps (g := State.fab) rfl fun t q _ => t.writePart_fab slice q.1 q.2.1 q.2.2 f pol

end

/-! ### What a request meets (R58, R211, R220, R221) -/

section
variable {s : State} {h : Nat} {p : Packet} {cv : Option Packet} {i : Instr} {parts : List (Nat × Nat)} {ok write : Bool}
  {go : Nat → State → Res}

/-- A request that may be performed now: its bytes are memory of this package that the die homes, none is locked and its home can serve each,
it is its turn, and it comes from another package or the home die itself (R211, R220). -/
def State.HomeMay (s : State) (h : Nat) (p : Packet) (i : Instr) (parts : List (Nat × Nat)) : Prop :=
  homeDie (Packet.target p) = some h ∧ isBasin (Packet.target p) = false ∧ isOwn (Packet.target p) = true
    ∧ unmappedPa (Packet.target p) = false ∧ (∀ r ∈ parts, unmappedPa (r.1 + r.2 - 1) = false)
    ∧ (∀ r ∈ parts, s.locked r.1 r.2 = false ∧ s.homeWait h (Packet.atSlice p) r.1 r.2 = none) ∧ s.homeTurn i p = true
    ∧ s.fromDie h p = false

theorem State.HomeMay.fromDie (hm : s.HomeMay h p i parts) : s.fromDie h p = false := by
  obtain ⟨-, -, -, -, -, -, -, hd⟩ := hm
  exact hd

/-- Such a request in a known form is performed. -/
theorem State.homeMeets_go (hm : s.HomeMay h p i parts) (hok : ok = true) : s.homeMeets i p parts ok write cv go = go h (s.endWait i) := by
  obtain ⟨hh, hb, hown, hu, hparts, hserve, hturn, hdie⟩ := hm
  have hmap : parts.any (fun r => unmappedPa (r.1 + r.2 - 1)) = false := by simpa using hparts
  have hfree : parts.any (fun r => s.locked r.1 r.2 || (s.homeWait h (Packet.atSlice p) r.1 r.2).isSome) = false := by
    simpa [Option.isSome_eq_false_iff] using hserve
  simp only [State.homeMeets, hh, hb, hown, hu, hmap, hfree, hturn, hdie, hok]
  simp

/-- A request to what is no memory of this package is answered UNMAPPED (R58). -/
theorem State.homeMeets_unmapped (hl : isBasin (Packet.target p) = true ∨ isOwn (Packet.target p) = false ∨ unmappedPa (Packet.target p) = true) :
    s.homeMeets i p parts ok write cv go = .next ((s.endWait i).answerUnmapped p) := by
  unfold State.homeMeets
  dsimp only
  split
  · rfl
  · refine if_pos ?_
    rcases hl with h | h | h <;> simp [h]

theorem homeRequests_unmapped (hl : isBasin (Packet.target p) = true ∨ isOwn (Packet.target p) = false ∨ unmappedPa (Packet.target p) = true) :
    ∀ i ∈ [Instr.homeAtomic cv p, .homeCntdec cv p, .homeWrite cv p, .crossDieReadPerform (.packet cv p)],
      exec i s = .next ((s.endWait i).answerUnmapped p) := by
  intro i hi
  simp only [List.mem_cons, List.not_mem_nil, or_false] at hi
  rcases hi with rfl | rfl | rfl | rfl
  · rw [Laws.exec_homeAtomic, execHomeAtomic]
    exact State.homeMeets_unmapped hl
  · rw [Laws.exec_homeCntdec, execHomeCntdec]
    exact State.homeMeets_unmapped hl
  · rw [Laws.exec_homeWrite, execHomeWrite]
    exact State.homeMeets_unmapped hl
  · rw [Laws.exec_crossDieReadPerform, execCrossDieReadPerform, State.homeRead]
    exact State.homeMeets_unmapped hl

/-- A home answers a request: the packet leaves its die. -/
def State.reply (u : State) (h : Nat) (r : Packet) : State := u.inject (u.physDie h) none none r.sealed

theorem State.homeAnswer_none (s : State) (h : Nat) (p r : Packet) : s.homeAnswer h p r none = s.reply h r := by
  simp [State.homeAnswer, State.reply]

theorem State.homeAnswer_away {r : Packet} {v : Option (SMap (BitVec 32))} (hd : s.fromDie h p = false) : s.homeAnswer h p r v = s.reply h r := by
  simp [State.homeAnswer, State.reply, hd]

theorem State.fromDie_congr {t : State} (hf : t.fab.regs = s.fab.regs) : t.fromDie h p = s.fromDie h p := by
  simp only [State.fromDie, State.pkgid, hf]

/-- Another package's write takes no causal number (R218). -/
theorem State.writeFrom_local (hd : s.fromDie h p = false) : s.writeFrom h p = (.local, s) := by
  simp [State.writeFrom, hd]

end

/-! ### Atomics (R234) -/

section
variable {s : State} {h : Nat} {p : Packet} {cv : Option Packet}

/-- The size of an atomic by OPX[6]. -/
def Packet.atomicSize (p : Packet) : Nat := if p.opx.toNat.testBit 6 then 8 else 4

/-- An operand of an atomic, of its size. -/
def Packet.operand (p : Packet) (i : Nat) : Nat := (wordAt p.payload i).toNat % 2 ^ (8 * Packet.atomicSize p)

/-- The new value of an atomic is written, where there is one. -/
def State.writeNew (s : State) (p : Packet) (v : Option Nat) : State :=
  match v with
  | some x => s.applyWrite (Packet.target p) (bytesLE (Packet.atomicSize p) x) (Packet.atSlice p) .local
  | none => s

theorem State.writeNew_fab (s : State) (p : Packet) (v : Option Nat) : (s.writeNew p v).fab = s.fab := by
  cases v
  exacts [rfl, s.applyWrite_fab ..]

/-- An atomic at its home: the location is read, the new value written, and the strong access recorded (R234, R236). -/
def State.swapAt (u : State) (h : Nat) (p : Packet) (v : Option Nat) : State :=
  ((u.sliceRead h (Packet.atSlice p) (Packet.target p) (Packet.atomicSize p) 0).writeNew p v).noteStrong h (u.strongSrc p) (Packet.target p)
    (Packet.atomicSize p) none

theorem State.swapAt_fab (u : State) (h : Nat) (p : Packet) (v : Option Nat) : (u.swapAt h p v).fab = u.fab :=
  (State.writeNew_fab ..).trans (State.Settles.refl u).sliceRead.fab

/-- An atomic of another package is performed at its home in one step, and answered with the old value (R234). -/
theorem homeAtomic_performs {f : Nat → Option Nat}
    (hop : atomicOp (p.opx &&& 0x3F#7) (Packet.atomicSize p) (Packet.operand p 0) (Packet.operand p 8) = some f)
    (hm : s.HomeMay h p (.homeAtomic cv p) [(Packet.target p, Packet.atomicSize p)]) (hal : Packet.target p % Packet.atomicSize p = 0)
    (hctl : isCtl (Packet.target p) = false) (hlen : p.len = 1#5) (hheld : s.held (Packet.target p) (Packet.atomicSize p) = false)
    (hp : s.sectorPoisoned (Packet.target p) (Packet.atomicSize p) = false)
    (hun : s.unordered h (s.strongSrc p) (Packet.target p) (Packet.atomicSize p) = false) {v : Option Nat}
    (hv : f (s.natAtLoc (Packet.target p) (Packet.atomicSize p)) = v) :
    exec (.homeAtomic cv p) s = .next (((s.endWait (.homeAtomic cv p)).swapAt h p v).reply h
      (p.back 7#8 (bytesLE 8 (s.natAtLoc (Packet.target p) (Packet.atomicSize p)) ++ List.replicate 24 0#8))) := by
  obtain ⟨u, hu⟩ : ∃ u, s.endWait (.homeAtomic cv p) = u := ⟨_, rfl⟩
  have hd : u.fromDie h p = false := hu ▸ hm.fromDie
  have hheld' : u.held (Packet.target p) (Packet.atomicSize p) = false := hu ▸ hheld
  have hp' : u.sectorPoisoned (Packet.target p) (Packet.atomicSize p) = false := hu ▸ hp
  have hun' : u.unordered h (u.strongSrc p) (Packet.target p) (Packet.atomicSize p) = false := hu ▸ hun
  have hold : u.natAtLoc (Packet.target p) (Packet.atomicSize p) = s.natAtLoc (Packet.target p) (Packet.atomicSize p) := hu ▸ rfl
  have hanswer : ∀ r k, (u.swapAt h p v).homeAnswer h p r k = (u.swapAt h p v).reply h r := fun r k =>
    State.homeAnswer_away ((State.fromDie_congr (congrArg Fabric.regs (State.swapAt_fab ..))).trans hd)
  have hn : (if p.opx.toNat.testBit 6 = true then 8 else 4) = Packet.atomicSize p := rfl
  have hx : ∀ i, (wordAt p.payload i).toNat % 2 ^ (8 * Packet.atomicSize p) = Packet.operand p i := fun _ => rfl
  rw [Laws.exec_homeAtomic]
  simp only [execHomeAtomic, hn, hx, hop]
  refine (State.homeMeets_go hm (by simp [hal, hctl, hlen])).trans ?_
  rw [hu]
  simp only [hheld', hp', hun', Bool.false_eq_true, if_false, Bool.false_and, State.writeFrom_local hd, Option.getD_some, State.ackFrom, hold, hv]
  cases v
  all_goals exact congrArg Host.Outcome.next (hanswer _ _)

/-! ### Counters (R157) -/

/-- What a CNTDEC packet subtracts from the arrivals. -/
def Packet.arrivals (p : Packet) : Nat := natAt p.payload 0 4

/-- What a CNTDEC packet subtracts from the pendings. -/
def Packet.pendings (p : Packet) : Nat := natAt p.payload 4 4

/-- The acknowledgement of a CNTDEC, with what it tells in OPX. -/
def Packet.counted (p : Packet) (k : Nat) : Packet := { p.back 5#8 [] with opx := BitVec.ofNat 7 k }

/-- A counter has fewer arrivals or pendings than a CNTDEC subtracts. -/
abbrev State.underflows (s : State) (p : Packet) : Prop :=
  s.natAtLoc (Packet.target p) 8 % 2 ^ 32 < Packet.arrivals p ∨ s.natAtLoc (Packet.target p) 8 / 2 ^ 32 < Packet.pendings p

/-- What a CNTDEC leaves of the counter it names. -/
def State.remaining (s : State) (p : Packet) : Nat := s.natAtLoc (Packet.target p) 8 - Packet.arrivals p - Packet.pendings p * 2 ^ 32

/-- What a CNTDEC of another package does at its home: it is refused, asks for nothing, or subtracts (R157). -/
theorem homeCntdec_eq (hm : s.HomeMay h p (.homeCntdec cv p) [(Packet.target p, 8)]) (hal : Packet.target p % 8 = 0) (hlen : p.len = 1#5)
    (hzero : ∀ x ∈ p.payload.drop 8, x = 0#8) (hheld : s.held (Packet.target p) 8 = false)
    (hp : s.sectorPoisoned (Packet.target p) 8 = false) :
    let u := s.endWait (.homeCntdec cv p)
    exec (.homeCntdec cv p) s =
      if s.underflows p then .next (u.reply h (Packet.counted p 1))
      else if Packet.arrivals p = 0 ∧ Packet.pendings p = 0 then .next (u.reply h (Packet.counted p 0))
      else .next (((u.setCounter (Packet.target p) (s.remaining p) [] .local).settle [.fire (Packet.target p)]).reply h
        (Packet.counted p (if s.remaining p = 0 then 2 else 0))) := by
  intro u
  have hok : (Packet.target p % 8 = 0 && p.len = 1#5 && (p.payload.drop 8).all (· == 0#8)) = true := by
    simpa [hal, hlen] using hzero
  have hd : (s.endWait (.homeCntdec cv p)).fromDie h p = false := hm.fromDie
  rw [Laws.exec_homeCntdec, execHomeCntdec]
  refine (State.homeMeets_go hm hok).trans ((if_neg (Bool.not_eq_true _ ▸ hheld)).trans ((if_neg (Bool.not_eq_true _ ▸ hp)).trans ?_))
  simp only [State.homeAnswer_none, State.writeFrom_local hd, State.ackFrom, hd]
  rfl

end

/-! ### Writes of other packages (R218, R319) -/

section
variable {s : State} {h : Nat} {p : Packet} {cv : Option Packet}
  (hm : s.HomeMay h p (.homeWrite cv p) ((Packet.writes p).map (fun e => (e.1, e.2.length)))) (hne : Packet.writes p ≠ [])
  (hctl : isCtl (Packet.target p) = false)
include hm hne hctl

/-- A write of another package whose bytes meet no HOLD range is performed and acknowledged; another is refused. -/
theorem homeWrite_eq : exec (.homeWrite cv p) s =
    if (Packet.writes p).any (fun e => s.held e.1 e.2.length) then .next ((s.endWait (.homeWrite cv p)).refuseHome p)
    else .next (((Packet.writes p).foldl (fun (t : State) e => t.applyWrite e.1 e.2 (Packet.atSlice p) .local) (s.endWait (.homeWrite cv p))).reply h
      (p.back 5#8 [])) := by
  have hok : (!(Packet.writes p).isEmpty && !isCtl (Packet.target p)) = true := by simpa [hctl] using hne
  have hd : (s.endWait (.homeWrite cv p)).fromDie h p = false := hm.fromDie
  rw [Laws.exec_homeWrite, execHomeWrite]
  refine (State.homeMeets_go hm hok).trans ?_
  simp only [State.homeAnswer_none, State.writeFrom_local hd, State.ackFrom]
  rfl

theorem homeWrite_performs (hfree : ∀ e ∈ Packet.writes p, s.held e.1 e.2.length = false) : exec (.homeWrite cv p) s =
    .next (((Packet.writes p).foldl (fun (t : State) e => t.applyWrite e.1 e.2 (Packet.atSlice p) .local) (s.endWait (.homeWrite cv p))).reply h
      (p.back 5#8 [])) :=
  (homeWrite_eq hm hne hctl).trans (if_neg (by simpa using hfree))

theorem homeWrite_refused (hheld : ∃ e ∈ Packet.writes p, s.held e.1 e.2.length = true) :
    exec (.homeWrite cv p) s = .next ((s.endWait (.homeWrite cv p)).refuseHome p) :=
  (homeWrite_eq hm hne hctl).trans (if_pos (List.any_eq_true.mpr hheld))

end

/-! ### Operations that left the rotation (R182, R220, R418) -/

section
variable {s : State} {c : CtxId}

theorem crossDieReadPerform_waits (hw : (s.ctx c).wait = .retry .causal) : exec (.crossDieReadPerform (.ctx c)) s = .next (s.wake c) :=
  congrArg Host.Outcome.next (if_pos hw)

theorem crossDieReadPerform_other (hw : (s.ctx c).wait ≠ .retry .causal) : exec (.crossDieReadPerform (.ctx c)) s = .next s :=
  congrArg Host.Outcome.next (if_neg hw)

theorem State.completeOp_result {r : Regs} (hw : (s.ctx c).wait = .result r) (hst : (s.ctx c).st = .wait) :
    s.completeOp c = (s.onCtx c (fun x => { x with r := r, ended := true })).wake c := by
  simp [State.completeOp, hw, hst]

theorem loadDataReturn_completes {r : Regs} (hw : (s.ctx c).wait = .result r) (hst : (s.ctx c).st = .wait) :
    exec (.loadDataReturn c) s = .next ((s.onCtx c (fun x => { x with r := r, ended := true })).wake c) :=
  congrArg Host.Outcome.next (State.completeOp_result hw hst)

theorem longOpComplete_completes {r : Regs} {o : Option Word} (hw : (s.ctx c).wait = .result r) (hst : (s.ctx c).st = .wait) :
    exec (.longOpComplete c o) s = .next ((s.onCtx c (fun x => { x with r := r, ended := true })).wake c) := by
  rw [Laws.exec_longOpComplete, execLongOpComplete, hw]
  exact congrArg Host.Outcome.next (State.completeOp_result hw hst)

theorem longOpComplete_resyncs {k : BitVec 32} {r : Nat} {d : RegNo} {w : IWord} {g : Group} {o : Word}
    (hw : (s.ctx c).wait = .retry (.resync k r d w)) (hg : s.group k = some g) (hr : g.root.1 ≠ s.pkgid) :
    exec (.longOpComplete c (some o)) s = .next (s.resynced c k r d o) := by
  rw [Laws.exec_longOpComplete, execLongOpComplete, hw]
  simp [hg, hr]

end

end Sys2Proof.Machine

/-!
# Requests at a base die

What the fabric does with an answer touches neither memory nor the stacks; what a base die does is then read off its own steps.
-/

namespace Sys2Proof.Machine

open Claims

/-! ### Packets on their way -/

/-- The state with another fabric, and with other messages in and out. -/
def State.withFabric (s : State) (f : Fabric) (i : List Instr) (o : List OutMsg) : State := { s with fab := f, inbox := i, outbox := o }

/-- Two states differ in the fabric and in messages alone. -/
def State.Sends (s t : State) : Prop := ∃ f i o, t = s.withFabric f i o

namespace State.Sends

variable {r s t : State}

theorem refl (s : State) : s.Sends s := ⟨s.fab, s.inbox, s.outbox, rfl⟩

/-- What does not look at the fabric and at messages is as before. -/
theorem keeps {β : Type} (g : State → β) (h : s.Sends t) (hg : ∀ t f i o, g (t.withFabric f i o) = g t := by exact fun _ _ _ _ => rfl) :
    g t = g s := by
  obtain ⟨f, i, o, rfl⟩ := h
  exact hg ..

theorem trans (h : r.Sends s) (h' : s.Sends t) : r.Sends t := by
  obtain ⟨f, i, o, rfl⟩ := h
  obtain ⟨f', i', o', rfl⟩ := h'
  exact ⟨f', i', o', rfl⟩

theorem ite {c : Prop} [Decidable c] {a b : State} (ha : r.Sends a) (hb : r.Sends b) : r.Sends (if c then a else b) := by
  split
  exacts [ha, hb]

theorem send (s : State) (m : OutMsg) : s.Sends (s.send m) := ⟨_, _, _, rfl⟩

theorem onPort (s : State) (j : Nat) (f : PortSt → PortSt) : s.Sends (s.onPort j f) := ⟨_, _, _, rfl⟩

theorem reroute (s : State) : s.Sends s.reroute := ⟨_, _, _, rfl⟩

theorem wire (s : State) (j : Nat) (p : Packet) : s.Sends (s.wire j p) := ite (send ..) ⟨_, _, _, rfl⟩

theorem transmit (s : State) (j : Nat) (p : Packet) : s.Sends (s.transmit j p) := ite ((onPort ..).trans (wire ..)) (onPort ..)

theorem answerUnmapped (s : State) (p : Packet) : s.Sends (s.answerUnmapped p) := ite ⟨_, _, _, rfl⟩ (send ..)

theorem hand (s : State) (a : Nat) (cv : Option Packet) (p : Packet) : s.Sends (s.hand a cv p) := by
  unfold State.hand
  dsimp only
  split
  case h_10 => exact ite ⟨_, _, _, rfl⟩ (answerUnmapped ..)
  case h_13 => exact ite ⟨_, _, _, rfl⟩ ⟨_, _, _, rfl⟩
  all_goals exact ⟨_, _, _, rfl⟩

theorem enterNode (k : Nat) (s : State) (a : Nat) (cv : Option Packet) (p : Packet) : s.Sends (State.enterNode k s a cv p) := by
  induction k generalizing s a cv p with
  | zero => exact refl s
  | succ k ih =>
    unfold State.enterNode
    refine ite ?collective (ite ⟨_, _, _, rfl⟩ ?hop)
    case collective =>
      split
      exacts [(send ..).trans (ih ..), refl s]
    case hop =>
      split
      · refine trans ?_ (transmit ..)
        split
        exacts [transmit .., refl s]
      · exact ite (refl s) (answerUnmapped ..)
      · refine ite (ite ((send ..).trans (ih ..)) (send ..)) (ite (hand ..) (ite (ih ..) (ite ?_ (refl s))))
        split
        · exact refl s
        · exact ite ⟨_, _, _, rfl⟩ (trans ⟨_, _, _, rfl⟩ (ih ..))

theorem inject (s : State) (a : Nat) (c : Option CtxId) (cv : Option Packet) (p : Packet) : s.Sends (s.inject a c cv p) :=
  ite ⟨_, _, _, rfl⟩ (ite (ite ⟨_, _, _, rfl⟩ (trans ⟨_, _, _, rfl⟩ (enterNode ..))) (enterNode ..))

theorem writeAck (s : State) (h : Nat) (p : Packet) (b : Bool) : s.Sends (s.writeAck h p b) := inject ..

theorem sameMemory (h : s.Sends t) : SameMemory s t := ⟨fun a => h.keeps (fun t => t.byteAt a), h.keeps State.fe, h.keeps State.poison⟩

end State.Sends

/-! ### Arrival (R58, R64, R65) -/

section
variable {s : State} {h : Nat} {p : Packet} {ok : Bool}

/-- The requests that reach a base die as packets (Table 3.2). -/
def basePackets (h : Nat) (p : Packet) : List Instr :=
  [.baseDieRead h p [], .baseDieWrite h p, .victimWrite h p, .overflowFlush h p, .overflowDiscard h p, .writeMasked h p, .shipRoutine h p,
    .stitchWrite h p none]

/-- The request is at the base die that the map names, and not for the base die's own data. -/
def State.AtHome (s : State) (h : Nat) (p : Packet) : Prop := s.atStack h p = true ∧ reservedPa p.pa = false

theorem State.baseRequest_elsewhere (ha : s.atStack h p = false) : s.baseRequest h p ok = .next s := by
  simp [State.baseRequest, ha]

theorem State.baseRequest_reserved (ha : s.atStack h p = true) (hr : reservedPa p.pa = true) :
    s.baseRequest h p ok = .next (s.answerUnmapped p) := by
  simp [State.baseRequest, ha, hr]

theorem State.baseRequest_badForm (hh : s.AtHome h p) (hok : ok = false) :
    s.baseRequest h p ok = .next (s.baseSend h (p.answer 0x10#8 0#7 p.addr [])) := by
  simp [State.baseRequest, hh.1, hh.2, hok, State.badForm]

theorem State.baseRequest_waits (hh : s.AtHome h p) (hok : ok = true) (hw : (s.stack h).mustWait p = true) :
    s.baseRequest h p ok = .next (s.onStack h (fun t => { t with queue := t.queue ++ [p] })) := by
  simp [State.baseRequest, hh.1, hh.2, hok, State.baseArrive, hw, enq]

theorem State.baseRequest_serves (hh : s.AtHome h p) (hok : ok = true) (hw : (s.stack h).mustWait p = false) :
    s.baseRequest h p ok = .next (s.serve h p) := by
  simp [State.baseRequest, hh.1, hh.2, hok, State.baseArrive, hw]

/-- Without outcomes of checks a READ is a request like the others. -/
theorem baseDieRead_eq : exec (.baseDieRead h p []) s =
    s.baseRequest h p (p.typ = 1#8 && decide (p.opx.toNat < 16) && p.opx ≠ 0#7 && p.len = 0#5) := by
  rw [Laws.exec_baseDieRead, execBaseDieRead]
  simp [State.eccChecks]

theorem basePackets_request : ∀ i ∈ basePackets h p, ∃ ok, exec i s = s.baseRequest h p ok
    ∧ (p.typ ≠ 1#8 → p.typ ≠ 3#8 → p.typ ≠ 4#8 → p.typ ≠ 8#8 → ok = false) := by
  intro i hi
  simp only [basePackets, List.mem_cons, List.not_mem_nil, or_false] at hi
  rcases hi with rfl | rfl | rfl | rfl | rfl | rfl | rfl | rfl
  · exact ⟨_, baseDieRead_eq, fun h1 _ _ _ => by simp [h1]⟩
  · exact ⟨_, rfl, fun _ h3 _ _ => by simp [h3]⟩
  · exact ⟨_, rfl, fun _ h3 _ _ => by simp [h3]⟩
  · exact ⟨_, rfl, fun _ h3 _ _ => by simp [h3]⟩
  · exact ⟨_, rfl, fun _ h3 _ _ => by simp [h3]⟩
  · exact ⟨_, rfl, fun _ _ h4 _ => by simp [h4]⟩
  · exact ⟨_, rfl, fun _ _ _ h8 => by simp [h8]⟩
  · exact ⟨_, rfl, fun _ h3 _ _ => by simp [h3]⟩

theorem basePackets_elsewhere (ha : s.atStack h p = false) : ∀ i ∈ basePackets h p, exec i s = .next s := by
  intro i hi
  obtain ⟨ok, he, -⟩ := basePackets_request i hi
  exact he.trans (State.baseRequest_elsewhere ha)

theorem basePackets_reserved (ha : s.atStack h p = true) (hr : reservedPa p.pa = true) :
    ∀ i ∈ basePackets h p, exec i s = .next (s.answerUnmapped p) := by
  intro i hi
  obtain ⟨ok, he, -⟩ := basePackets_request i hi
  exact he.trans (State.baseRequest_reserved ha hr)

theorem basePackets_unlisted (hh : s.AtHome h p) (h1 : p.typ ≠ 1#8) (h3 : p.typ ≠ 3#8) (h4 : p.typ ≠ 4#8) (h8 : p.typ ≠ 8#8) :
    ∀ i ∈ basePackets h p, exec i s = .next (s.baseSend h (p.answer 0x10#8 0#7 p.addr [])) := by
  intro i hi
  obtain ⟨ok, he, hok⟩ := basePackets_request i hi
  exact he.trans (State.baseRequest_badForm hh (hok h1 h3 h4 h8))

/-! ### The forms (Table 3.2) -/

/-- A READ in its form. -/
def Packet.isRead (p : Packet) : Prop := p.typ = 1#8 ∧ p.opx.toNat < 16 ∧ p.opx ≠ 0#7 ∧ p.len = 0#5

theorem baseDieRead_of_form (hp : Packet.isRead p) : exec (.baseDieRead h p []) s = s.baseRequest h p true := by
  obtain ⟨htyp, hopx, hne, hlen⟩ := hp
  rw [baseDieRead_eq]
  simp [htyp, hopx, hne, hlen]

theorem baseDieWrite_of_form (htyp : p.typ = 3#8) (hw : wholeSectors p = true) (hopx : p.opx.toNat < 16) :
    exec (.baseDieWrite h p) s = s.baseRequest h p true := by
  rw [Laws.exec_baseDieWrite, execBaseDieWrite]
  simp [htyp, hw, hopx]

theorem stitchWrite_of_form (htyp : p.typ = 3#8) (hw : wholeSectors p = true) (hopx : p.opx.toNat / 16 = 4) :
    exec (.stitchWrite h p none) s = s.baseRequest h p true := by
  rw [Laws.exec_stitchWrite, execStitchWrite]
  simp [htyp, hw, hopx]

theorem overflowFlush_of_form (htyp : p.typ = 3#8) (hopx : p.opx = 0x20#7) (hlen : p.len = 0#5) :
    exec (.overflowFlush h p) s = s.baseRequest h p true := by
  rw [Laws.exec_overflowFlush, execOverflowFlush]
  simp [htyp, hopx, hlen]

theorem overflowDiscard_of_form (htyp : p.typ = 3#8) (hopx : p.opx = 0x30#7) (hlen : p.len = 0#5) :
    exec (.overflowDiscard h p) s = s.baseRequest h p true := by
  rw [Laws.exec_overflowDiscard, execOverflowDiscard]
  simp [htyp, hopx, hlen]

theorem victimWrite_of_form (htyp : p.typ = 3#8) (hopx : p.opx.toNat / 16 = 1) (hlen : p.len = 16#5) (hpay : p.payload.length = 512) :
    exec (.victimWrite h p) s = s.baseRequest h p true := by
  rw [Laws.exec_victimWrite, execVictimWrite]
  simp [htyp, hopx, hlen, hpay]

theorem writeMasked_of_form (htyp : p.typ = 4#8) (hlen : p.len = 1#5) (hat : p.maskedAt.1 + p.maskedAt.2 ≤ 32) (hpay : p.payload.length = 32) :
    exec (.writeMasked h p) s = s.baseRequest h p true := by
  rw [Laws.exec_writeMasked, execWriteMasked]
  simp [htyp, hlen, hat, hpay]

theorem shipRoutine_of_form (htyp : p.typ = 8#8) (hopx : p.opx = 0#7) (hlen : p.len = 1#5) (hpay : p.payload.length = 32)
    (hidx : natAt p.payload 16 2 < 1024) (hzero : ∀ x ∈ p.payload.drop 18, x = 0#8) :
    exec (.shipRoutine h p) s = s.baseRequest h p true := by
  rw [Laws.exec_shipRoutine, execShipRoutine]
  have hall : (p.payload.drop 18).all (· == 0#8) = true := by simpa using hzero
  simp only [htyp, hopx, hlen, hpay, hidx, hall]
  rfl

/-- What a base die does with a write, by OPX[6:4] (Table 3.2). -/
theorem State.serve_write (htyp : p.typ = 3#8) : s.serve h p =
    match p.opx.toNat / 16 with
    | 1 => s.serveVictim h p
    | 2 => (s.ocWriteBack h (p.pa / 512) 0#4).writeAck h p false
    | 3 => (s.ocDiscard h (p.pa / 512)).writeAck h p false
    | 4 => s.serveStitch h p
    | _ => (((s.ocWriteBack h (p.pa / 512) (BitVec.ofNat 4 (p.opx.toNat % 16))).onStack h (·.access (p.pa / 512 * 512))).dramSectors (p.pa / 512)
        (p.opx.toNat % 16) p.payload).writeAck h p false := by
  unfold State.serve
  rw [htyp]
  rfl

theorem State.serve_masked (htyp : p.typ = 4#8) : s.serve h p = s.serveMasked h p := by
  unfold State.serve
  rw [htyp]
  rfl

theorem State.serve_ship (htyp : p.typ = 8#8) : s.serve h p = s.serveShip h p := by
  unfold State.serve
  rw [htyp]
  rfl

theorem State.serve_read (htyp : p.typ = 1#8) : s.serve h p = s.serveRead h p := by
  unfold State.serve
  rw [htyp]
  rfl

/-! ### READ and WRITE (R64, R65, R70) -/

/-- The line of a request lies in the request's stack. -/
theorem State.stackAt_line (hh : s.AtHome h p) : s.stackAt (p.pa / 512 * 512) = h := by
  have hstack : stackOf (p.pa / 512 * 512) = stackOf p.pa := by
    unfold stackOf
    omega
  rw [State.stackAt, hstack]
  exact of_decide_eq_true hh.1

theorem toNat_maskOf_mod (n : Nat) : (BitVec.ofNat 4 (n % 16)).toNat = n % 16 := by simp

/-- The mask of the poisoned sectors of a list (R64). -/
def poisonMask (f : Nat → Bool) (l : List Nat) : Nat := l.foldl (fun m i => if f i then m + 2 ^ i else m) 0

/-- A READ that misses the overflow cache returns what DRAM holds of its sectors (R64). -/
theorem State.serveRead_miss (hh : s.AtHome h p) (hopx : p.opx.toNat < 16) (hoc : (s.stack h).ocMask (p.pa / 512) = none) :
    let secs := maskSectors (p.opx.toNat % 16)
    s.serveRead h p = (s.onStack h (·.access (p.pa / 512 * 512))).baseSend h (p.answer 2#8 p.opx
      (BitVec.ofNat 56 (p.addr.toNat / 512 * 512 + poisonMask (fun i => s.dramPoison (p.pa / 512 * 4 + i)) secs))
      (secs.flatMap (fun i => s.dramBytes (p.pa / 512 * 4 + i)))) := by
  have hmask : (BitVec.ofNat 4 (p.opx.toNat % 16)).setWidth 7 = p.opx := by
    apply BitVec.eq_of_toNat_eq
    simp
    omega
  simp only [State.serveRead, State.baseRead, State.stackAt_line hh, hoc, hmask, toNat_maskOf_mod, Option.isSome_none,
    Bool.false_eq_true, if_false, BitVec.toNat_zero, Nat.zero_mul, Nat.add_zero]
  rfl

/-- A READ that hits the overflow cache takes the line out of it, whole and with its dirty mask (R70). -/
theorem State.serveRead_hit {d : BitVec 4} (hh : s.AtHome h p) (hoc : (s.stack h).ocMask (p.pa / 512) = some d) :
    s.serveRead h p = (s.onStack h (·.ocDrop (p.pa / 512))).baseSend h (p.answer 2#8 15#7
      (BitVec.ofNat 56 (p.addr.toNat / 512 * 512 + 256 + d.toNat * 16
        + poisonMask (fun i => s.poisoned (p.pa / 512 * 512 + 128 * i) 128) (maskSectors 15)))
      ((maskSectors 15).flatMap (fun i => s.bytesAt (p.pa / 512 * 512 + 128 * i) 128))) := by
  simp only [State.serveRead, State.baseRead, State.stackAt_line hh, hoc, Option.isSome_some, if_true]
  rfl

theorem baseDieRead_miss (hh : s.AtHome h p) (hfree : (s.stack h).mustWait p = false) (hp : Packet.isRead p)
    (hoc : (s.stack h).ocMask (p.pa / 512) = none) :
    let secs := maskSectors (p.opx.toNat % 16)
    exec (.baseDieRead h p []) s = .next ((s.onStack h (·.access (p.pa / 512 * 512))).baseSend h (p.answer 2#8 p.opx
      (BitVec.ofNat 56 (p.addr.toNat / 512 * 512 + poisonMask (fun i => s.dramPoison (p.pa / 512 * 4 + i)) secs))
      (secs.flatMap (fun i => s.dramBytes (p.pa / 512 * 4 + i))))) := by
  intro secs
  rw [baseDieRead_of_form hp, State.baseRequest_serves hh rfl hfree, State.serve_read hp.1, State.serveRead_miss hh hp.2.1 hoc]

theorem baseDieRead_hit {d : BitVec 4} (hh : s.AtHome h p) (hfree : (s.stack h).mustWait p = false) (hp : Packet.isRead p)
    (hoc : (s.stack h).ocMask (p.pa / 512) = some d) :
    exec (.baseDieRead h p []) s = .next ((s.onStack h (·.ocDrop (p.pa / 512))).baseSend h (p.answer 2#8 15#7
      (BitVec.ofNat 56 (p.addr.toNat / 512 * 512 + 256 + d.toNat * 16
        + poisonMask (fun i => s.poisoned (p.pa / 512 * 512 + 128 * i) 128) (maskSectors 15)))
      ((maskSectors 15).flatMap (fun i => s.bytesAt (p.pa / 512 * 512 + 128 * i) 128)))) := by
  rw [baseDieRead_of_form hp, State.baseRequest_serves hh rfl hfree, State.serve_read hp.1, State.serveRead_hit hh hoc]

theorem baseDieWrite_performs (hh : s.AtHome h p) (hfree : (s.stack h).mustWait p = false) (htyp : p.typ = 3#8) (hopx : p.opx.toNat < 16)
    (hw : wholeSectors p = true) : exec (.baseDieWrite h p) s =
      .next ((((s.ocWriteBack h (p.pa / 512) (BitVec.ofNat 4 (p.opx.toNat % 16))).onStack h (·.access (p.pa / 512 * 512))).dramSectors (p.pa / 512)
        (p.opx.toNat % 16) p.payload).writeAck h p false) := by
  have hkind : p.opx.toNat / 16 = 0 := by omega
  rw [baseDieWrite_of_form htyp hw hopx, State.baseRequest_serves hh rfl hfree, State.serve_write htyp, hkind]
  rfl

end

end Sys2Proof.Machine

/-!
# Base dies

What DRAM and the overflow cache hold after a request, and what each happening at a base die leaves.
-/

namespace Sys2Proof.Machine

open Claims

/-! ### The stack behind a request -/

/-- The stack with other row counts, open rows and refreshes. -/
def StackSt.withRows (t : StackSt) (k : SMap RowTracker) (o : SMap Nat) (n : Nat) (r : List (Nat × List Nat)) : StackSt :=
  { t with tracker := k, openRows := o, ratcnt := n, refreshing := r }

/-- An access moves row counts, open rows and refreshes alone (R72, R73). -/
theorem StackSt.access_eq (t : StackSt) (pa : Nat) : ∃ k o n r, t.access pa = t.withRows k o n r := by
  unfold StackSt.access StackSt.activate
  extract_lets
  split
  · exact ⟨_, _, _, _, rfl⟩
  · split
    exacts [⟨_, _, _, _, rfl⟩, ⟨_, _, _, _, rfl⟩]

/-- The state with other bytes, poison marks and copies below. -/
def State.withData (s : State) (m : Memory) (p : List Nat) (u : SMap (Option Under)) : State := { s with mem := m, poison := p, under := u }

/-- Two states differ in memory and in what is below it alone. -/
def State.Rewrites (s t : State) : Prop := ∃ m p u, t = s.withData m p u

namespace State.Rewrites

variable {r s t : State}

theorem refl (s : State) : s.Rewrites s := ⟨s.mem, s.poison, s.under, rfl⟩

/-- What does not look at memory and below it is as before. -/
theorem keeps {β : Type} (g : State → β) (h : s.Rewrites t) (hg : ∀ t m p u, g (t.withData m p u) = g t := by exact fun _ _ _ _ => rfl) :
    g t = g s := by
  obtain ⟨m, p, u, rfl⟩ := h
  exact hg ..

theorem trans (h : r.Rewrites s) (h' : s.Rewrites t) : r.Rewrites t := by
  obtain ⟨m, p, u, rfl⟩ := h
  obtain ⟨m', p', u', rfl⟩ := h'
  exact ⟨m', p', u', rfl⟩

theorem ite {c : Prop} [Decidable c] {a b : State} (ha : r.Rewrites a) (hb : r.Rewrites b) : r.Rewrites (if c then a else b) := by
  split
  exacts [ha, hb]

theorem foldl {α : Type} {l : List α} {f : State → α → State} (hf : ∀ (t : State) (e : α), t.Rewrites (f t e)) : s.Rewrites (l.foldl f s) :=
  List.foldlRecOn (motive := fun t => s.Rewrites t) l f (refl s) fun t ht e _ => ht.trans (hf t e)

theorem putRaw (s : State) (loc : Nat) (b : List Byte) : s.Rewrites (s.putRaw loc b) := ⟨_, _, _, rfl⟩

theorem setPoison (s : State) (loc n : Nat) (b : Bool) : s.Rewrites (s.setPoison loc n b) := ⟨_, _, _, rfl⟩

theorem dropUnder (s : State) (c : Nat) : s.Rewrites (s.dropUnder c) := ⟨_, _, _, rfl⟩

theorem keepUnder (s : State) (c : Nat) : s.Rewrites (s.keepUnder c) := by
  unfold State.keepUnder
  split
  exacts [refl s, ⟨_, _, _, rfl⟩]

theorem settleSector (s : State) (c : Nat) : s.Rewrites (s.settleSector c) := by
  cases hu : SMap.look none s.under c with
  | none => exact (State.settleSector_none hu).symm ▸ refl s
  | some u =>
    obtain ⟨t, ⟨p, rfl, -⟩, he⟩ := State.settleSector_some hu
    exact ⟨_, _, _, he⟩

theorem revert (s : State) (c : Nat) : s.Rewrites (s.revert c) := by
  unfold State.revert
  split
  exacts [refl s, (putRaw ..).trans (settleSector ..)]

theorem cachedPart (s : State) (c loc : Nat) (b : List Byte) : s.Rewrites (s.cachedPart c loc b) :=
  ite ((putRaw ..).trans (setPoison ..)) (ite ((putRaw ..).trans (setPoison ..)) (putRaw ..))

theorem dramWrite (s : State) (loc : Nat) (b : List Byte) : s.Rewrites (s.dramWrite loc b) := by
  unfold State.dramWrite
  dsimp only
  split
  · exact ⟨_, _, _, rfl⟩
  · exact ite (((putRaw ..).trans (setPoison ..)).trans (dropUnder ..)) (putRaw ..)

theorem dramSectors (s : State) (line m : Nat) (b : List Byte) : s.Rewrites (s.dramSectors line m b) := foldl fun _ _ => dramWrite ..

end State.Rewrites

section
variable {s : State} {h line c : Nat} {skip d : BitVec 4}

section
variable {β : Type} {g : StackSt → β} (hg : ∀ t k o n r, g (StackSt.withRows t k o n r) = g t)
include hg

theorem StackSt.access_keeps (t : StackSt) (pa : Nat) : g (t.access pa) = g t := by
  obtain ⟨k, o, n, r, he⟩ := t.access_eq pa
  rw [he, hg]

theorem State.toDram_stack {m : BitVec 4} : g ((s.toDram h line m).stack h) = g (s.stack h) := by
  unfold State.toDram
  split
  · rfl
  · refine (State.foldl_keeps (g := fun t => g (t.stack h)) rfl fun t e _ => ?_).trans ?_
    · rfl
    rw [State.stack_onStack_same]
    exact StackSt.access_keeps hg ..

/-- Writing a line back takes it out of the overflow cache (R69 to R71). -/
theorem State.ocWriteBack_stack : g ((s.ocWriteBack h line skip).stack h) = g ((s.stack h).ocDrop line) := by
  unfold State.ocWriteBack
  split
  · next hoc =>
    have hdrop : (s.stack h).ocDrop line = s.stack h := by
      have hall : ∀ x ∈ (s.stack h).oc, ¬ x.1 = line := by simpa [StackSt.ocMask] using hoc
      have hfilter : without (s.stack h).oc (fun e => e.1 == line) = (s.stack h).oc := by
        simpa [without] using hall
      rw [StackSt.ocDrop, hfilter]
    rw [hdrop]
  · refine (State.foldl_keeps (g := fun t => g (t.stack h)) rfl fun t e _ => ?_).trans ?_
    · exact (State.Rewrites.settleSector ..).keeps (fun t => g (t.stack h))
    · rw [State.toDram_stack hg, State.stack_onStack_same]

end

theorem State.ocWriteBack_oc : ((s.ocWriteBack h line skip).stack h).oc = without (s.stack h).oc (fun e => e.1 == line) :=
  State.ocWriteBack_stack (g := StackSt.oc) fun _ _ _ _ _ => rfl

theorem StackSt.ocMask_eq_none {t : StackSt} : t.ocMask line = none ↔ ∀ e ∈ t.oc, e.1 ≠ line := by
  simp [StackSt.ocMask]

theorem State.ocMask_ocWriteBack : ((s.ocWriteBack h line skip).stack h).ocMask line = none := by
  rw [StackSt.ocMask_eq_none, State.ocWriteBack_oc]
  intro e he
  simpa using (mem_without.mp he).2

/-- A line put behind others in the overflow cache reads with its mask. -/
theorem StackSt.ocMask_enq {t : StackSt} (hno : ∀ e ∈ t.oc, e.1 ≠ line) : ({ t with oc := enq t.oc (line, d) } : StackSt).ocMask line = some d := by
  have hfind : t.oc.find? (fun e => e.1 == line) = none := by simpa using hno
  simp [StackSt.ocMask, enq, List.find?_append, hfind]

/-- A line that enters the overflow cache is there, with its dirty mask (R68, R69). -/
theorem State.ocFill_ocMask (hen : (s.stack h).ocEn = true) : ((s.ocFill h line d).stack h).ocMask line = some d := by
  have hdrop : ∀ e ∈ ((s.onStack h (·.ocDrop line)).stack h).oc, e.1 ≠ line := by
    rw [State.stack_onStack_same]
    intro e he
    simpa using (mem_without.mp he).2
  unfold State.ocFill
  simp only [hen, Bool.not_true, Bool.false_eq_true, if_false]
  rw [State.stack_onStack_same]
  refine StackSt.ocMask_enq fun e he => ?_
  split at he
  · split at he
    · rw [State.ocWriteBack_oc] at he
      exact hdrop e (mem_without.mp he).1
    · exact hdrop e he
  · exact hdrop e he

/-- While the overflow cache is disabled no line enters it (R71). -/
theorem State.ocFill_disabled (hen : (s.stack h).ocEn = false) : ((s.ocFill h line d).stack h).oc = (s.stack h).oc := by
  unfold State.ocFill
  simp only [hen, Bool.not_false, if_true]
  exact State.toDram_stack (g := StackSt.oc) fun _ _ _ _ _ => rfl

end

end Sys2Proof.Machine

/-!
# Writes at a base die

What memory, the overflow cache and the locks hold after each kind of write (R63 to R71, R76, R79).
-/

namespace Sys2Proof.Machine

open Claims

section
variable {s : State} {h : Nat} {p : Packet}

/-! ### Waiting (R65, R66, R73) -/

/-- A request that must wait stands last in the queue of its stack. -/
abbrev State.queued (s : State) (h : Nat) (p : Packet) : State := s.onStack h (fun t => { t with queue := t.queue ++ [p] })

theorem baseDie_waits (hh : s.AtHome h p) (hw : (s.stack h).mustWait p = true) :
    (p.typ = 1#8 → p.opx.toNat < 16 → p.opx ≠ 0#7 → p.len = 0#5 → exec (.baseDieRead h p []) s = .next (s.queued h p))
    ∧ (p.typ = 3#8 → wholeSectors p = true →
        (p.opx.toNat < 16 → exec (.baseDieWrite h p) s = .next (s.queued h p))
        ∧ (p.opx.toNat / 16 = 4 → exec (.stitchWrite h p none) s = .next (s.queued h p)))
    ∧ (p.typ = 3#8 → p.opx = 0x20#7 → p.len = 0#5 → exec (.overflowFlush h p) s = .next (s.queued h p))
    ∧ (p.typ = 3#8 → p.opx = 0x30#7 → p.len = 0#5 → exec (.overflowDiscard h p) s = .next (s.queued h p)) := by
  have hwait : s.baseRequest h p true = .next (s.queued h p) := State.baseRequest_waits hh rfl hw
  refine ⟨fun htyp hopx hne hlen => ?read, fun htyp hsec => ⟨fun hopx => ?write, fun hopx => ?stitch⟩, fun htyp hopx hlen => ?flush,
    fun htyp hopx hlen => ?discard⟩
  case read => exact (baseDieRead_of_form ⟨htyp, hopx, hne, hlen⟩).trans hwait
  case write => exact (baseDieWrite_of_form htyp hsec hopx).trans hwait
  case stitch => exact (stitchWrite_of_form htyp hsec hopx).trans hwait
  case flush => exact (overflowFlush_of_form htyp hopx hlen).trans hwait
  case discard => exact (overflowDiscard_of_form htyp hopx hlen).trans hwait

/-! ### Victim lines (R69, R71) -/

theorem mem_maskSectors {m i : Nat} : i ∈ maskSectors m ↔ i < 4 ∧ m.testBit i = true := by
  simp [maskSectors, setBits]

/-- One dirty sector of a victim line takes its bytes; what DRAM held is kept below. -/
def State.putVictim (t : State) (line : Nat) (b : List Byte) (i : Nat) : State :=
  ((t.keepUnder (line * 4 + i)).putRaw (line * 512 + 128 * i) ((b.drop (128 * i)).take 128)).setPoison (line * 512 + 128 * i) 128 false

theorem State.Rewrites.putVictim (t : State) (line : Nat) (b : List Byte) (i : Nat) : t.Rewrites (t.putVictim line b i) :=
  ((keepUnder ..).trans (putRaw ..)).trans (setPoison ..)

theorem State.putVictim_byteAt {t : State} {line i : Nat} {b : List Byte} (hb : b.length = 512) (hi : i < 4) (a : Nat) :
    (t.putVictim line b i).byteAt a = if a / 128 = line * 4 + i then b.getD (a % 512) 0#8 else t.byteAt a := by
  have hmem : (t.putVictim line b i).mem = writeMem t.mem (line * 512 + 128 * i) ((b.drop (128 * i)).take 128) :=
    congrArg (writeMem · _ _) (t.keepUnder_mem _)
  have hpart : (b.drop (128 * i)).take 128 = partOf (line * 512) b (line * 512 + 128 * i) (line * 512 + 128 * i + 128) := by
    simp [partOf]
  rw [State.byteAt, hmem, hpart, look_writeMem_partOf t.mem (by omega) (by omega) a]
  by_cases hc : a / 128 = line * 4 + i
  · have hoff : a - line * 512 = a % 512 := by omega
    rw [if_pos (by omega), if_pos hc, hoff]
  · rw [if_neg (by omega), if_neg hc]
    rfl

theorem State.putVictims_byteAt {line : Nat} {b : List Byte} (hb : b.length = 512) (a : Nat) :
    ∀ (l : List Nat) (s : State), (∀ i ∈ l, i < 4) →
      (l.foldl (fun t j => t.putVictim line b j) s).byteAt a = if a / 512 = line ∧ a / 128 % 4 ∈ l then b.getD (a % 512) 0#8 else s.byteAt a
  | [], s, _ => by simp
  | i :: l, s, hl => by
    have hi := hl i (List.mem_cons_self ..)
    rw [List.foldl_cons, State.putVictims_byteAt hb a l _ fun j hj => hl j (List.mem_cons_of_mem i hj), State.putVictim_byteAt hb hi]
    by_cases hin : a / 512 = line ∧ a / 128 % 4 ∈ l
    · rw [if_pos hin, if_pos ⟨hin.1, List.mem_cons_of_mem i hin.2⟩]
    · rw [if_neg hin]
      refine if_congr ?_ rfl rfl
      rw [List.mem_cons]
      constructor
      · intro hc
        exact ⟨by omega, Or.inl (by omega)⟩
      · rintro ⟨hline, heq | hmem⟩
        · omega
        · exact absurd ⟨hline, hmem⟩ hin

/-- The state once the dirty sectors of a victim line are in memory. -/
def State.putLine (s : State) (p : Packet) : State :=
  (maskSectors (p.opx.toNat % 16)).foldl (fun t i => t.putVictim (p.pa / 512) p.payload i) s

theorem State.Rewrites.putLine (s : State) (p : Packet) : s.Rewrites (s.putLine p) := foldl fun _ _ => putVictim ..

theorem State.serveVictim_eq (s : State) (h : Nat) (p : Packet) :
    s.serveVictim h p = ((s.putLine p).ocFill h (p.pa / 512) (BitVec.ofNat 4 (p.opx.toNat % 16))).writeAck h p false := rfl

theorem victimWrite_ends (hh : s.AtHome h p) (hfree : (s.stack h).mustWait p = false) (htyp : p.typ = 3#8) (hopx : p.opx.toNat / 16 = 1)
    (hlen : p.len = 16#5) (hpay : p.payload.length = 512) : Ends (.victimWrite h p) s (fun t =>
      ((s.stack h).ocEn = true → (t.stack h).ocMask (p.pa / 512) = some (BitVec.ofNat 4 (p.opx.toNat % 16)))
      ∧ ((s.stack h).ocEn = false → (t.stack h).oc = (s.stack h).oc)
      ∧ t.fe = s.fe ∧ ∀ a, t.byteAt a = if a / 512 = p.pa / 512 ∧ (p.opx.toNat % 16).testBit (a / 128 % 4) = true then p.payload.getD (a % 512) 0#8
          else s.byteAt a) := by
  have hexec : exec (.victimWrite h p) s = .next (s.serveVictim h p) := by
    rw [victimWrite_of_form htyp hopx hlen hpay, State.baseRequest_serves hh rfl hfree, State.serve_write htyp, hopx]
    rfl
  have hput := State.Rewrites.putLine s p
  have hstack : (s.putLine p).stack h = s.stack h := hput.keeps (·.stack h)
  have hfill := (State.Settles.refl (s.putLine p)).ocFill (k := h) (line := p.pa / 512) (dirty := BitVec.ofNat 4 (p.opx.toNat % 16))
  have hsend := State.Sends.writeAck ((s.putLine p).ocFill h (p.pa / 512) (BitVec.ofNat 4 (p.opx.toNat % 16))) h p false
  rw [State.serveVictim_eq] at hexec
  refine ⟨_, hexec, fun hen => ?mask, fun hen => ?off, ?fe, fun a => ?bytes⟩
  case mask =>
    rw [hsend.keeps (·.stack h)]
    exact State.ocFill_ocMask (hstack ▸ hen)
  case off =>
    rw [hsend.keeps (·.stack h), State.ocFill_disabled (hstack ▸ hen), hstack]
  case fe => exact (hsend.keeps State.fe).trans (hfill.fe.trans (hput.keeps State.fe))
  case bytes =>
    rw [byteAt_congr ((hsend.keeps State.mem).trans hfill.mem) a, State.putLine, State.putVictims_byteAt hpay a _ s fun i hi => (mem_maskSectors.mp hi).1]
    have hlt : a / 128 % 4 < 4 := Nat.mod_lt _ (by decide)
    simp only [mem_maskSectors, hlt, true_and]

/-! ### Masked writes (R59, R66) -/

/-- A line of the overflow cache with another mask reads with that mask. -/
theorem StackSt.ocMask_remask {t : StackSt} {line : Nat} {d e : BitVec 4} (hoc : t.ocMask line = some d) :
    ({ t with oc := t.oc.map (fun x => if x.1 = line then (x.1, e) else x) } : StackSt).ocMask line = some e := by
  have hkey : ((fun x : Nat × BitVec 4 => x.1 == line) ∘ fun x => if x.1 = line then (x.1, e) else x) = fun x => x.1 == line := by
    funext x
    by_cases hx : x.1 = line <;> simp [hx]
  obtain ⟨x, hx, -⟩ := Option.map_eq_some_iff.mp hoc
  have hline : x.1 = line := by simpa using List.find?_some hx
  rw [StackSt.ocMask, List.find?_map, hkey, hx]
  simp [hline]

theorem writeMasked_eq (hh : s.AtHome h p) (hfree : (s.stack h).mustWait p = false) (htyp : p.typ = 4#8) (hlen : p.len = 1#5)
    (hat : p.maskedAt.1 + p.maskedAt.2 ≤ 32) (hpay : p.payload.length = 32) : exec (.writeMasked h p) s = .next (s.serveMasked h p) := by
  rw [writeMasked_of_form htyp hlen hat hpay, State.baseRequest_serves hh rfl hfree, State.serve_masked htyp]

/-- A masked write that misses the overflow cache locks its granule. -/
theorem State.serveMasked_miss (hoc : (s.stack h).ocMask (p.pa / 512) = none) :
    (p.pa / 32, p) ∈ ((s.serveMasked h p).stack h).locks ∧ SameMemory s (s.serveMasked h p) := by
  have hline : p.pa / 128 / 4 = p.pa / 512 := by omega
  simp only [State.serveMasked, hline, hoc, State.stack_onStack_same]
  exact ⟨by simp [enq], fun _ => rfl, rfl, rfl⟩

/-- A masked write that hits the overflow cache is performed there, its sector dirty. -/
theorem State.serveMasked_hit {d : BitVec 4} (hoc : (s.stack h).ocMask (p.pa / 512) = some d) :
    (s.serveMasked h p).fe = s.fe
    ∧ ((s.serveMasked h p).stack h).ocMask (p.pa / 512) = some (d ||| sectorBit (p.pa / 128))
    ∧ (s.serveMasked h p).mem = writeMem s.mem (p.pa / 32 * 32 + p.maskedAt.2) (p.payload.take p.maskedAt.1) := by
  have hline : p.pa / 128 / 4 = p.pa / 512 := by omega
  have hkeep := State.Rewrites.keepUnder s (p.pa / 128)
  simp only [State.serveMasked, hline, hoc]
  refine ⟨?fe, ?mask, ?bytes⟩
  case fe => exact ((State.Sends.writeAck ..).keeps State.fe).trans (((State.Rewrites.cachedPart ..).keeps State.fe).trans (hkeep.keeps State.fe))
  case mask =>
    rw [(State.Sends.writeAck ..).keeps (·.stack h), (State.Rewrites.cachedPart ..).keeps (·.stack h), State.stack_onStack_same]
    refine StackSt.ocMask_remask (d := d) ?_
    rw [hkeep.keeps (·.stack h), hoc]
  case bytes =>
    rw [(State.Sends.writeAck ..).keeps State.mem, State.cachedPart_mem]
    exact congrArg (writeMem · _ _) (s.keepUnder_mem _)

theorem writeMasked_ends (hh : s.AtHome h p) (hfree : (s.stack h).mustWait p = false) (htyp : p.typ = 4#8) (hlen : p.len = 1#5)
    (hat : p.maskedAt.1 + p.maskedAt.2 ≤ 32) (hpay : p.payload.length = 32) :
    ((s.stack h).ocMask (p.pa / 512) = none → Ends (.writeMasked h p) s (fun t => (p.pa / 32, p) ∈ (t.stack h).locks ∧ SameMemory s t))
    ∧ (∀ d, (s.stack h).ocMask (p.pa / 512) = some d → Ends (.writeMasked h p) s (fun t => t.fe = s.fe
        ∧ (∃ e, (t.stack h).ocMask (p.pa / 512) = some e ∧ e = d ||| sectorBit (p.pa / 128))
        ∧ t.mem = writeMem s.mem (p.pa / 32 * 32 + p.maskedAt.2) (p.payload.take p.maskedAt.1))) := by
  have hexec := writeMasked_eq hh hfree htyp hlen hat hpay
  refine ⟨fun hoc => ⟨_, hexec, State.serveMasked_miss hoc⟩, fun d hoc => ?_⟩
  obtain ⟨hfe, hmask, hmem⟩ := State.serveMasked_hit hoc
  exact ⟨_, hexec, hfe, ⟨_, hmask, rfl⟩, hmem⟩

/-! ### The merge of a masked write (R59, R66) -/

theorem State.baseDrain_empty (hq : (s.stack h).queue = []) : (s.onStack h (fun t => { t with queue := [] })).Wakes (s.baseDrain h) := by
  rw [State.baseDrain, hq]
  exact State.Wakes.wakeAll ..

/-- The state without the locks of a granule. -/
def State.unlock (s : State) (h g : Nat) : State := s.onStack h (fun t => { t with locks := without t.locks (fun x => x.1 == g) })

theorem State.unlock_locks (s : State) (h g : Nat) : ∀ x ∈ ((s.unlock h g).stack h).locks, x.1 ≠ g := by
  rw [State.unlock, State.stack_onStack_same]
  intro x hx
  simpa using (mem_without.mp hx).2

/-- What a part of a sector below which there is nothing takes in DRAM is in memory. -/
theorem State.dramWrite_part {loc : Nat} {b : List Byte} (hb : b.length ≠ 128) (hu : SMap.look none s.under (loc / 128) = none) :
    s.dramWrite loc b = s.putRaw loc b := by
  simp [State.dramWrite, hu, hb]

/-- After the locked granule is released, with nothing waiting, locks and memory are as the write left them. -/
theorem State.baseDrain_merged {t u : State} {g : Nat} (hq : (s.stack h).queue = []) (hstack : t.stack h = (s.unlock h g).stack h)
    (hsend : t.Sends u) : (∀ x ∈ ((u.baseDrain h).stack h).locks, x.1 ≠ g) ∧ (u.baseDrain h).mem = t.mem ∧ (u.baseDrain h).fe = t.fe
      ∧ (u.baseDrain h).poison = t.poison := by
  have hu : u.stack h = (s.unlock h g).stack h := (hsend.keeps (·.stack h)).trans hstack
  have hwake : (u.onStack h (fun t => { t with queue := [] })).Wakes (u.baseDrain h) := by
    refine State.baseDrain_empty ?_
    rw [hu, State.unlock, State.stack_onStack_same]
    exact hq
  refine ⟨?_, (hwake.keeps State.mem).trans (hsend.keeps State.mem), (hwake.keeps State.fe).trans (hsend.keeps State.fe),
    (hwake.keeps State.poison).trans (hsend.keeps State.poison)⟩
  rw [hwake.keeps (·.stack h), State.stack_onStack_same, hu]
  exact s.unlock_locks h g

theorem maskedMergeComplete_ends {l : Nat × Packet} (hl : (s.stack h).locks.find? (fun x => x.1 == l.1) = some l) (hq : (s.stack h).queue = []) :
    (s.granulePoison l.1 = false → SMap.look none s.under (l.1 / 4) = none → Ends (.maskedMergeComplete h l.1 .clean) s (fun t =>
      (∀ x ∈ (t.stack h).locks, x.1 ≠ l.1) ∧ t.mem = writeMem s.mem (l.1 * 32 + l.2.maskedAt.2) (l.2.payload.take l.2.maskedAt.1)))
    ∧ (s.granulePoison l.1 = true → Ends (.maskedMergeComplete h l.1 .clean) s (fun t =>
      (∀ x ∈ (t.stack h).locks, x.1 ≠ l.1) ∧ SameMemory s t)) := by
  have hexec : exec (.maskedMergeComplete h l.1 .clean) s = if s.granulePoison l.1 then
      .next ((((s.unlock h l.1).writeAck h l.2 true).send (.record "poisoned granule" l.1 (l.2.txn.toNat / 256))).baseDrain h)
      else .next ((((s.unlock h l.1).dramWrite (l.1 * 32 + l.2.maskedAt.2) (l.2.payload.take l.2.maskedAt.1)).writeAck h l.2 false).baseDrain h) := by
    rw [Laws.exec_maskedMergeComplete, execMaskedMergeComplete, hl]
    rfl
  refine ⟨fun hclean hu => ?_, fun hpoison => ?_⟩
  · have hmask : l.2.maskedAt.1 ≤ 8 ∧ l.2.maskedAt.2 < 32 := by
      unfold Packet.maskedAt
      constructor <;> dsimp only <;> omega
    have hsec : (l.1 * 32 + l.2.maskedAt.2) / 128 = l.1 / 4 := by omega
    have hlen : (l.2.payload.take l.2.maskedAt.1).length ≠ 128 := by
      rw [List.length_take]
      omega
    rw [if_neg (by simpa using hclean), State.dramWrite_part hlen (hsec ▸ hu)] at hexec
    obtain ⟨hlocks, hmem, -⟩ := State.baseDrain_merged (t := (s.unlock h l.1).putRaw _ _) hq rfl (State.Sends.writeAck _ h l.2 false)
    exact ⟨_, hexec, hlocks, hmem⟩
  · rw [if_pos hpoison] at hexec
    obtain ⟨hlocks, hmem, hfe, hp⟩ := State.baseDrain_merged hq rfl ((State.Sends.writeAck (s.unlock h l.1) h l.2 true).trans (.send _ _))
    exact ⟨_, hexec, hlocks, byteAt_congr hmem, hfe, hp⟩

end

end Sys2Proof.Machine

/-!
# The overflow cache, routines and stitched writes at a base die
-/

namespace Sys2Proof.Machine

open Claims

section
variable {s : State} {h : Nat} {p : Packet}

/-! ### Flush and discard (R70, R71, Table 3.2) -/

theorem overflowFlush_ends (hh : s.AtHome h p) (hfree : (s.stack h).mustWait p = false) (htyp : p.typ = 3#8) (hopx : p.opx = 0x20#7)
    (hlen : p.len = 0#5) : Ends (.overflowFlush h p) s (fun t => (t.stack h).ocMask (p.pa / 512) = none ∧ SameBytes s t) := by
  have hexec : exec (.overflowFlush h p) s = .next ((s.ocWriteBack h (p.pa / 512) 0#4).writeAck h p false) := by
    rw [overflowFlush_of_form htyp hopx hlen, State.baseRequest_serves hh rfl hfree, State.serve_write htyp, hopx]
    rfl
  have hsend := State.Sends.writeAck (s.ocWriteBack h (p.pa / 512) 0#4) h p false
  have hback : s.Settles (s.ocWriteBack h (p.pa / 512) 0#4) := (State.Settles.refl s).ocWriteBack
  obtain ⟨hbytes, hfe, hp⟩ := hback.sameBytes
  refine ⟨_, hexec, ?_, fun a => ?_, (hsend.keeps State.fe).trans hfe, fun w hw => ?_⟩
  · rw [hsend.keeps (·.stack h)]
    exact State.ocMask_ocWriteBack
  · exact (byteAt_congr (hsend.keeps State.mem) a).trans (hbytes a)
  · rw [hsend.keeps State.poison]
    exact hp w hw

/-- What DRAM holds of a byte. -/
def State.below (s : State) (a : Nat) : Byte :=
  match SMap.look none s.under (a / 128) with
  | some u => u.bytes.getD (a % 128) 0#8
  | none => s.byteAt a

/-- Every copy kept below memory is a whole sector. -/
def State.WholeBelow (s : State) : Prop := ∀ c u, SMap.look none s.under c = some u → u.bytes.length = 128

theorem State.settleSector_under (s : State) (c k : Nat) :
    SMap.look none (s.settleSector c).under k = if k = c then none else SMap.look none s.under k := by
  cases hu : SMap.look none s.under c with
  | none =>
    rw [State.settleSector_none hu]
    split
    · next hk => exact hk ▸ hu
    · rfl
  | some u =>
    obtain ⟨t, ⟨q, rfl, -⟩, he⟩ := State.settleSector_some hu
    rw [he]
    split
    · next hk => exact hk ▸ SMap.look_drop_same _ _
    · next hk => exact SMap.look_drop_other _ hk

theorem State.revert_under (s : State) (c k : Nat) : SMap.look none (s.revert c).under k = if k = c then none else SMap.look none s.under k := by
  unfold State.revert
  split
  · next hu =>
    split
    · next hk => exact hk ▸ hu
    · rfl
  · exact State.settleSector_under ..

/-- A sector that is lost above DRAM reads as DRAM holds it; the others read as before. -/
theorem State.revert_byteAt (hs : s.WholeBelow) (c a : Nat) : (s.revert c).byteAt a = if a / 128 = c then s.below a else s.byteAt a := by
  cases hu : SMap.look none s.under c with
  | none =>
    have hrev : s.revert c = s := by simp [State.revert, hu]
    rw [hrev]
    split
    · next hc => simp [State.below, hc, hu]
    · rfl
  | some u =>
    have hlen := hs c u hu
    have hrev : (s.revert c).mem = writeMem s.mem (c * 128) u.bytes := by
      simp only [State.revert, hu]
      exact (State.Settles.refl (s.putRaw (c * 128) u.bytes)).settleSector.mem
    rw [State.byteAt, hrev, look_writeMem, hlen]
    by_cases hc : a / 128 = c
    · have hoff : a - c * 128 = a % 128 := by omega
      rw [if_pos (by omega), if_pos hc, State.below, hc, hu, hoff]
    · rw [if_neg (by omega), if_neg hc]
      rfl

theorem State.revert_below (hs : s.WholeBelow) (c a : Nat) : (s.revert c).below a = s.below a := by
  unfold State.below
  rw [State.revert_under, State.revert_byteAt hs]
  by_cases hc : a / 128 = c
  · simp [hc, State.below]
  · simp [hc]

theorem State.WholeBelow.revert (hs : s.WholeBelow) (c : Nat) : (s.revert c).WholeBelow := by
  intro k u hu
  rw [State.revert_under] at hu
  split at hu
  · cases hu
  · exact hs k u hu

/-- Sectors of a line that are lost above DRAM read as DRAM holds them. -/
theorem State.reverts_byteAt {line a : Nat} : ∀ (l : List Nat) {s : State}, s.WholeBelow →
    (l.foldl (fun t i => t.revert (line * 4 + i)) s).byteAt a = if ∃ i ∈ l, a / 128 = line * 4 + i then s.below a else s.byteAt a
  | [], s, _ => by simp
  | i :: l, s, hs => by
    rw [List.foldl_cons, State.reverts_byteAt l (hs.revert _), State.revert_below hs, State.revert_byteAt hs]
    by_cases hin : ∃ j ∈ l, a / 128 = line * 4 + j
    · simp [hin]
    · simp [hin]

/-- Dropping an overflow line without write-back leaves what DRAM holds of it. -/
theorem State.ocDiscard_byteAt {line : Nat} {d : BitVec 4} (hs : s.WholeBelow) (hoc : (s.stack h).ocMask line = some d) (a : Nat) :
    (s.ocDiscard h line).byteAt a = if a / 512 = line then s.below a else s.byteAt a := by
  simp only [State.ocDiscard, hoc]
  rw [State.reverts_byteAt _ (s := s.onStack h (·.ocDrop line)) hs]
  have hiff : (∃ i ∈ List.range 4, a / 128 = line * 4 + i) ↔ a / 512 = line := by
    constructor
    · rintro ⟨i, hi, hc⟩
      have := List.mem_range.mp hi
      omega
    · intro hline
      exact ⟨a / 128 % 4, List.mem_range.mpr (by omega), by omega⟩
  exact if_congr hiff rfl rfl

theorem State.ocDiscard_stack {line : Nat} {d : BitVec 4} (hoc : (s.stack h).ocMask line = some d) :
    ((s.ocDiscard h line).stack h).ocMask line = none ∧ (s.ocDiscard h line).fe = s.fe := by
  have hfold : (s.onStack h (·.ocDrop line)).Rewrites (s.ocDiscard h line) := by
    simp only [State.ocDiscard, hoc]
    exact .foldl fun _ _ => .revert ..
  refine ⟨?_, hfold.keeps State.fe⟩
  rw [hfold.keeps (·.stack h), State.stack_onStack_same, StackSt.ocMask_eq_none]
  intro e he
  simpa using (mem_without.mp he).2

theorem overflowDiscard_ends {d : BitVec 4} (hh : s.AtHome h p) (hfree : (s.stack h).mustWait p = false) (htyp : p.typ = 3#8)
    (hopx : p.opx = 0x30#7) (hlen : p.len = 0#5) (hs : s.WholeBelow) (hoc : (s.stack h).ocMask (p.pa / 512) = some d) :
    Ends (.overflowDiscard h p) s (fun t => (t.stack h).ocMask (p.pa / 512) = none ∧ t.fe = s.fe
      ∧ ∀ a, t.byteAt a = match (if a / 512 = p.pa / 512 then SMap.look none s.under (a / 128) else none) with
        | some u => u.bytes.getD (a % 128) 0#8
        | none => s.byteAt a) := by
  have hexec : exec (.overflowDiscard h p) s = .next ((s.ocDiscard h (p.pa / 512)).writeAck h p false) := by
    rw [overflowDiscard_of_form htyp hopx hlen, State.baseRequest_serves hh rfl hfree, State.serve_write htyp, hopx]
    rfl
  have hsend := State.Sends.writeAck (s.ocDiscard h (p.pa / 512)) h p false
  obtain ⟨hmask, hfe⟩ := State.ocDiscard_stack hoc
  refine ⟨_, hexec, ?_, (hsend.keeps State.fe).trans hfe, fun a => ?_⟩
  · rw [hsend.keeps (·.stack h)]
    exact hmask
  · rw [byteAt_congr (hsend.keeps State.mem) a, State.ocDiscard_byteAt hs hoc]
    split
    · rfl
    · rfl

/-! ### Routines (R76, R77) -/

/-- A routine with WB gives eight words. -/
theorem length_routineRun {r : Routine} (hwb : r.wb = true) (a b : Word) (off : Nat) (l : List Word) : (routineRun r a b off l).2.length = 8 := by
  simp [routineRun, hwb]

/-- What a routine writes back is its block, 64 bytes. -/
theorem State.length_shipAt {loc k : Nat} {a b : Word} {l : List Byte} (hl : (s.shipAt h loc a b k).2.2 = some l) : l.length = 64 := by
  unfold State.shipAt at hl
  dsimp only at hl
  split at hl
  · cases hl
  · split at hl
    · cases hl
    · dsimp only at hl
      split at hl
      · next hwb =>
        have hlen := length_routineRun hwb a b (loc % 64) ((List.range 8).map fun i => BitVec.ofNat 64 (s.natAtLoc (loc / 64 * 64 + 8 * i) 8))
        rw [← Option.some.inj hl, List.length_flatMap]
        simp [hlen]
      · cases hl

theorem shipRoutine_ends (hh : s.AtHome h p) (hfree : (s.stack h).mustWait p = false) (htyp : p.typ = 8#8) (hopx : p.opx = 0#7)
    (hlen : p.len = 1#5) (hpay : p.payload.length = 32) (hidx : natAt p.payload 16 2 < 1024) (hzero : ∀ x ∈ p.payload.drop 18, x = 0#8)
    (hu : SMap.look none s.under (p.pa / 128) = none) :
    let r := s.shipAt h p.pa (wordAt p.payload 0) (wordAt p.payload 8) (natAt p.payload 16 2)
    let z := p.answer 9#8 0#7 p.addr (bytesLE 8 r.2.1.toNat ++ bytesLE 1 r.1 ++ List.replicate 23 0#8)
    ∃ u : State, exec (.shipRoutine h p) s = .next (u.baseSend h z) ∧ u.fe = s.fe ∧ u.poison = s.poison
      ∧ u.mem = match r.2.2 with | some b => writeMem s.mem (p.pa / 64 * 64) b | none => s.mem := by
  intro r z
  have hexec : exec (.shipRoutine h p) s = .next (s.serveShip h p) := by
    rw [shipRoutine_of_form htyp hopx hlen hpay hidx hzero, State.baseRequest_serves hh rfl hfree, State.serve_ship htyp]
  refine ⟨_, hexec, ?_⟩
  cases hr : r.2.2 with
  | none => exact ⟨rfl, rfl, rfl⟩
  | some b =>
    have hlen := State.length_shipAt hr
    have hsec : p.pa / 64 * 64 / 128 = p.pa / 128 := by omega
    dsimp only
    rw [State.dramWrite_part (by omega) (by rw [hsec]; exact hu)]
    exact ⟨rfl, rfl, rfl⟩

end

end Sys2Proof.Machine

/-!
# Stitched writes at a base die

The delta of a stitched write is taken against what DRAM holds of its sectors (R79, R80).
-/

namespace Sys2Proof.Machine

open Claims

section
variable {r s t : State} {h line c d : Nat} {p : Packet} {m skip : BitVec 4} {dom : BitVec 32} {f : DomRec → DomRec}

/-! ### What DRAM holds of a sector -/

/-- From one state to the other, memory is the same and DRAM holds the same bytes and poison of a sector. -/
structure State.SameDram (c : Nat) (s t : State) : Prop where
  mem : t.mem = s.mem
  marks : ∀ w, w / 16 = c → (w ∈ t.poison ↔ w ∈ s.poison)
  under : SMap.look none t.under c = SMap.look none s.under c

namespace State.SameDram

theorem of_fields (hmem : t.mem = s.mem := by rfl) (hp : t.poison = s.poison := by rfl) (hu : t.under = s.under := by rfl) : s.SameDram c t :=
  ⟨hmem, by simp [hp], by rw [hu]⟩

theorem trans (h : r.SameDram c s) (h' : s.SameDram c t) : r.SameDram c t :=
  ⟨h'.mem.trans h.mem, fun w hw => (h'.marks w hw).trans (h.marks w hw), h'.under.trans h.under⟩

theorem foldl {α : Type} {l : List α} {f : State → α → State} (hf : ∀ (t : State), ∀ e ∈ l, t.SameDram c (f t e)) : s.SameDram c (l.foldl f s) :=
  List.foldlRecOn (motive := fun t => s.SameDram c t) l f of_fields fun t ht e he => ht.trans (hf t e he)

theorem dropUnder {k : Nat} (hk : c ≠ k) : s.SameDram c (s.dropUnder k) := ⟨rfl, fun _ _ => Iff.rfl, SMap.look_drop_other _ hk⟩

theorem settleSector {k : Nat} (hk : c ≠ k) : s.SameDram c (s.settleSector k) := by
  refine ⟨(State.Settles.refl s).settleSector.mem, ?_, by rw [State.settleSector_under, if_neg hk]⟩
  intro w hw
  cases hu : SMap.look none s.under k with
  | none => rw [State.settleSector_none hu]
  | some u =>
    obtain ⟨t, ⟨q, rfl, hq⟩, he⟩ := State.settleSector_some hu
    rw [he]
    exact hq w (hw ▸ hk)

theorem toDram {i : Nat} (hi : m.toNat.testBit i = false) : s.SameDram (line * 4 + i) (s.toDram h line m) := by
  unfold State.toDram
  split
  · exact of_fields
  · refine trans (of_fields (t := s.onStack h _)) (foldl fun t j hj => dropUnder ?_)
    have hj := mem_maskSectors.mp hj
    have hne : i ≠ j := by
      rintro rfl
      exact absurd (hi.symm.trans hj.2) (by decide)
    omega

/-- Writing a line back leaves what DRAM holds of the sectors left out (R70). -/
theorem ocWriteBack {i : Nat} (hi : skip.toNat.testBit i = true) : s.SameDram (line * 4 + i) (s.ocWriteBack h line skip) := by
  unfold State.ocWriteBack
  split
  · exact of_fields
  · next e _ =>
    have hskip : skip.getLsbD i = true := hi
    have hwrite : (e &&& ~~~skip).toNat.testBit i = false := by
      have hbit : (e &&& ~~~skip).getLsbD i = false := by simp [hskip]
      exact hbit
    refine trans (of_fields (t := s.onStack h _)) (trans (toDram hwrite) (foldl fun t j hj => settleSector ?_))
    have hj := mem_maskSectors.mp hj
    have hsettle : (~~~(e ||| skip)).toNat.testBit i = false := by
      have hbit : (~~~(e ||| skip)).getLsbD i = false := by simp [hskip]
      exact hbit
    have hne : i ≠ j := by
      rintro rfl
      exact absurd (hsettle.symm.trans hj.2) (by decide)
    omega

theorem dramBytes (h : s.SameDram c t) : t.dramBytes c = s.dramBytes c := by
  unfold State.dramBytes
  rw [h.under, bytesAt_congr h.mem]

theorem dramPoison (h : s.SameDram c t) : t.dramPoison c = s.dramPoison c := by
  unfold State.dramPoison
  rw [h.under, State.poisoned_congr fun w hw => h.marks w (div_of_mem_wordsOf le_rfl le_rfl hw)]

end State.SameDram

/-! ### The home die's stitch queue -/

theorem State.toDram_dies (s : State) (h line : Nat) (m : BitVec 4) : (s.toDram h line m).dies = s.dies := by
  unfold State.toDram
  split
  · rfl
  · refine (State.foldl_keeps (g := State.dies) rfl fun t i _ => ?_).trans ?_
    · rfl
    · rfl

theorem State.ocWriteBack_dies (s : State) (h line : Nat) (skip : BitVec 4) : (s.ocWriteBack h line skip).dies = s.dies := by
  unfold State.ocWriteBack
  split
  · rfl
  · exact ((State.Rewrites.foldl fun _ _ => .settleSector ..).keeps State.dies).trans (State.toDram_dies ..)

theorem State.onDomain_stitchQ (s : State) (i : BitVec 32) (f : DomRec → DomRec) (d : Nat) : ((s.onDomain i f).die d).stitchQ = (s.die d).stitchQ := by
  unfold State.onDomain
  split
  · rfl
  · next x _ =>
    by_cases hd : d = i.toNat / 2 ^ 28
    · rw [hd, State.setDomain, State.die_onDie_same]
    · rw [State.setDomain, State.die_onDie_other _ _ hd]

/-- The state in which a stitched write is performed: its domain owes an acknowledgement, and the overflow copy of its line is given up. -/
def State.beforeStitch (s : State) (h : Nat) (p : Packet) : State :=
  (s.onDomain (s.writerOf (p.pa / 512) (p.opx.toNat % 16)) (fun d => { d with acks := d.acks + 1 })).ocWriteBack h (p.pa / 512)
    (BitVec.ofNat 4 (p.opx.toNat % 16))

theorem State.beforeStitch_sameDram {i : Nat} (hi : i ∈ maskSectors (p.opx.toNat % 16)) :
    s.SameDram (p.pa / 512 * 4 + i) (s.beforeStitch h p) := by
  have hbit := (mem_maskSectors.mp hi).2
  exact .trans (.of_fields (by simp) (by simp) (by simp)) (.ocWriteBack (by simpa using hbit))

theorem State.beforeStitch_stitchQ : ((s.beforeStitch h p).die d).stitchQ = (s.die d).stitchQ := by
  unfold State.beforeStitch State.die
  rw [State.ocWriteBack_dies]
  exact State.onDomain_stitchQ ..

theorem State.beforeStitch_stitchHeld : ((s.beforeStitch h p).stack h).stitchHeld = (s.stack h).stitchHeld := by
  refine (State.ocWriteBack_stack (g := StackSt.stitchHeld) fun _ _ _ _ _ => rfl).trans ?_
  simp [State.stack, StackSt.ocDrop]

theorem State.beforeStitch_mem : (s.beforeStitch h p).mem = s.mem :=
  (State.Settles.refl s).onDomain.ocWriteBack.mem

/-- A delta goes last into the queue of the home die. -/
theorem State.stitchDelta_stitchQ {slice : Nat} {old new : List Byte} (hd : homeDie (line * 512) = some d) :
    ∃ x : StitchPkt, ((s.stitchDelta h slice line m dom old new).die d).stitchQ = (s.die d).stitchQ ++ [x] ∧ x.line = line ∧ x.mask = m
      ∧ x.delta = List.zipWith (fun (a b : Byte) => a ^^^ b) old new ∧ x.dom = dom := by
  simp only [State.stitchDelta, hd]
  rw [State.die_onDie_same, State.die, State.toDram_dies]
  exact ⟨_, rfl, rfl, rfl, rfl, rfl⟩

theorem stitchWrite_eq (hh : s.AtHome h p) (hfree : (s.stack h).mustWait p = false) (htyp : p.typ = 3#8) (hopx : p.opx.toNat / 16 = 4)
    (hw : wholeSectors p = true) : exec (.stitchWrite h p none) s = .next (s.serveStitch h p) := by
  rw [stitchWrite_of_form htyp hw hopx, State.baseRequest_serves hh rfl hfree, State.serve_write htyp, hopx]
  rfl

theorem stitchWrite_clean (hh : s.AtHome h p) (hfree : (s.stack h).mustWait p = false) (htyp : p.typ = 3#8) (hopx : p.opx.toNat / 16 = 4)
    (hw : wholeSectors p = true) (hclean : ∀ i ∈ maskSectors (p.opx.toNat % 16), s.dramPoison (p.pa / 512 * 4 + i) = false)
    (hd : homeDie (p.pa / 512 * 512) = some d) : Ends (.stitchWrite h p none) s (fun t =>
      ∃ x : StitchPkt, (t.die d).stitchQ = (s.die d).stitchQ ++ [x] ∧ x.line = p.pa / 512 ∧ x.mask = BitVec.ofNat 4 (p.opx.toNat % 16)
        ∧ x.delta = List.zipWith (fun (a b : Byte) => a ^^^ b) ((maskSectors (p.opx.toNat % 16)).flatMap (fun i => s.dramBytes (p.pa / 512 * 4 + i)))
            p.payload
        ∧ x.dom = s.writerOf (p.pa / 512) (p.opx.toNat % 16)) := by
  have hno : (maskSectors (p.opx.toNat % 16)).any (fun i => (s.beforeStitch h p).dramPoison (p.pa / 512 * 4 + i)) = false := by
    rw [List.any_eq_false]
    intro i hi
    simp [(State.beforeStitch_sameDram hi).dramPoison, hclean i hi]
  have hold : (maskSectors (p.opx.toNat % 16)).flatMap (fun i => (s.beforeStitch h p).dramBytes (p.pa / 512 * 4 + i))
      = (maskSectors (p.opx.toNat % 16)).flatMap (fun i => s.dramBytes (p.pa / 512 * 4 + i)) :=
    List.flatMap_congr fun i hi => (State.beforeStitch_sameDram hi).dramBytes
  have hserve : s.serveStitch h p = (s.beforeStitch h p).stitchPut h p (s.writerOf (p.pa / 512) (p.opx.toNat % 16))
      ((maskSectors (p.opx.toNat % 16)).flatMap (fun i => s.dramBytes (p.pa / 512 * 4 + i))) := by
    rw [← hold]
    exact if_neg (by rw [Bool.not_eq_true]; exact hno)
  refine ⟨_, stitchWrite_eq hh hfree htyp hopx hw, ?_⟩
  beta_reduce
  rw [hserve, State.stitchPut, (State.Sends.writeAck ..).keeps (·.die d), (State.Rewrites.dramSectors ..).keeps (·.die d),
    ← State.beforeStitch_stitchQ (s := s) (h := h) (p := p)]
  exact State.stitchDelta_stitchQ hd

theorem stitchWrite_poisoned (hh : s.AtHome h p) (hfree : (s.stack h).mustWait p = false) (htyp : p.typ = 3#8) (hopx : p.opx.toNat / 16 = 4)
    (hw : wholeSectors p = true) (hbad : ∃ i ∈ maskSectors (p.opx.toNat % 16), s.dramPoison (p.pa / 512 * 4 + i) = true) :
    Ends (.stitchWrite h p none) s (fun t =>
      (t.stack h).stitchHeld = (s.stack h).stitchHeld ++ [(p, s.writerOf (p.pa / 512) (p.opx.toNat % 16))] ∧ ∀ a, t.byteAt a = s.byteAt a) := by
  obtain ⟨i, hi, hpoison⟩ := hbad
  have hyes : (maskSectors (p.opx.toNat % 16)).any (fun i => (s.beforeStitch h p).dramPoison (p.pa / 512 * 4 + i)) = true :=
    List.any_eq_true.mpr ⟨i, hi, (State.beforeStitch_sameDram hi).dramPoison.trans hpoison⟩
  have hserve : s.serveStitch h p = ((s.beforeStitch h p).onStack h (fun t =>
      { t with stitchHeld := enq t.stitchHeld (p, s.writerOf (p.pa / 512) (p.opx.toNat % 16)) })).send
      (.record "poisoned stitch line" (p.pa / 512) (p.opx.toNat % 16)) := if_pos hyes
  refine ⟨_, stitchWrite_eq hh hfree htyp hopx hw, ?_, ?_⟩
  · rw [hserve, (State.Sends.send ..).keeps (·.stack h), State.stack_onStack_same, ← State.beforeStitch_stitchHeld (s := s) (h := h) (p := p)]
    rfl
  · have hmem : (s.serveStitch h p).mem = s.mem := by
      rw [hserve, (State.Sends.send ..).keeps State.mem]
      exact State.beforeStitch_mem (s := s) (h := h) (p := p)
    exact fun a => byteAt_congr hmem a

end

end Sys2Proof.Machine

/-!
# Replies, ports, scrubbing and control of a base die
-/

namespace Sys2Proof.Machine

open Claims

section
variable {s : State} {h : Nat} {p : Packet}

/-! ### Replies (R61, R62, R70) -/

theorem requesterReply_unknown (hno : ∀ e ∈ s.fab.pending, e.key ≠ s.replyKey p) : exec (.requesterReply p) s = .next s := by
  have hfind : s.fab.pending.find? (fun e => e.key == s.replyKey p) = none := by simpa using hno
  rw [Laws.exec_requesterReply, execRequesterReply]
  simp only [hfind]

/-- A reply that no relay waits for frees its tag; a READ's line is installed. -/
theorem requesterReply_eq {r : Pend} (hr : s.fab.pending.find? (fun e => e.key == s.replyKey p) = some r)
    (hno : ∀ e ∈ s.fab.relays, e.1 ≠ s.replyKey p) : exec (.requesterReply p) s =
      .next ((if p.typ = 2#8 then (s.freeBase r.packet (s.replyKey p)).install p else s.freeBase r.packet (s.replyKey p)).wakeWhy
        (.baseDie (s.stackAt p.pa))) := by
  have hfind : s.fab.relays.find? (fun e => e.1 == s.replyKey p) = none := by simpa using hno
  rw [Laws.exec_requesterReply, execRequesterReply]
  simp only [hr, hfind]

theorem requesterReply_replies {r : Pend} (hr : s.fab.pending.find? (fun e => e.key == s.replyKey p) = some r)
    (hno : ∀ e ∈ s.fab.relays, e.1 ≠ s.replyKey p) :
    (p.typ ≠ 2#8 → exec (.requesterReply p) s =
      .next ((s.freeBase r.packet (s.replyKey p)).wakeWhy (.baseDie (s.stackAt p.pa))))
    ∧ (p.typ = 2#8 → exec (.requesterReply p) s =
      .next (((s.freeBase r.packet (s.replyKey p)).install p).wakeWhy (.baseDie (s.stackAt p.pa)))) := by
  rw [requesterReply_eq hr hno]
  exact ⟨fun htyp => by rw [if_neg htyp], fun htyp => by rw [if_pos htyp]⟩

/-! ### Ports (R61, R67) -/

/-- A stack without one of its ports. -/
def StackSt.losePort (t : StackSt) (b : Bool) : StackSt := if b then { t with portB := false } else { t with portA := false }

/-- A direction that is down. -/
def PortSt.dropped (q : PortSt) : PortSt := { q with tx := { q.tx with state := 0 }, rx := { q.rx with state := 0 } }

/-- The state in which a stack has lost a port: both ends of its link are down, and routes go another way. -/
def State.portLost (s : State) (h : Nat) (b : Bool) : State :=
  let j := linkEnd (20 + h) (s.portDie h b)
  (((s.onStack h (·.losePort b)).onPort j (·.dropped)).onPort (farEnd j) (·.dropped)).reroute

theorem State.Sends.portLost (s : State) (h : Nat) (b : Bool) : (s.onStack h (·.losePort b)).Sends (s.portLost h b) :=
  ((onPort ..).trans (onPort ..)).trans (reroute _)

theorem State.portLost_stack (s : State) (h : Nat) (b : Bool) : (s.portLost h b).stack h = (s.stack h).losePort b :=
  ((State.Sends.portLost ..).keeps (·.stack h)).trans (State.stack_onStack_same ..)

/-- With nothing outstanding the loss of a port re-aims the others, and is a lasting fault where it was the last. -/
theorem baseDiePortLoss_eq (b : Bool) (hpend : s.fab.pending = []) : exec (.baseDiePortLoss h b) s =
    .next (if ((s.portLost h b).stack h).portA || ((s.portLost h b).stack h).portB then s.portLost h b
      else (s.portLost h b).faultEvent (.stack h) .portDown) := by
  rw [Laws.exec_baseDiePortLoss, execBaseDiePortLoss]
  simp only [hpend, List.filter_nil, List.map_nil, List.foldl_nil, List.append_nil]
  rfl

theorem baseDiePortLoss_other (b : Bool) (hpend : s.fab.pending = []) (ha : (s.stack h).portA = true) (hb : (s.stack h).portB = true) :
    Ends (.baseDiePortLoss h b) s (fun t => (t.stack h).portA = b ∧ (t.stack h).portB = !b ∧ SameMemory s t) := by
  have hexec := baseDiePortLoss_eq (h := h) b hpend
  have hports : ((s.stack h).losePort b).portA = b ∧ ((s.stack h).losePort b).portB = !b := by
    cases b <;> simp [StackSt.losePort, ha, hb]
  rw [State.portLost_stack, hports.1, hports.2, Bool.or_not_self, if_pos rfl] at hexec
  refine ⟨_, hexec, ?_, ?_, (State.Sends.portLost s h b).sameMemory⟩
  · rw [State.portLost_stack, hports.1]
  · rw [State.portLost_stack, hports.2]

theorem baseDiePortLoss_last (b : Bool) (hpend : s.fab.pending = []) (ha : (s.stack h).portA = b) (hb : (s.stack h).portB = !b) :
    ∃ u : State, SameMemory s u ∧ exec (.baseDiePortLoss h (!b)) s = .next (u.faultEvent (.stack h) .portDown) := by
  have hexec := baseDiePortLoss_eq (h := h) (!b) hpend
  have hports : (((s.stack h).losePort (!b)).portA || ((s.stack h).losePort (!b)).portB) = false := by
    cases b <;> simp [StackSt.losePort, ha, hb]
  rw [State.portLost_stack, hports, if_neg Bool.false_ne_true] at hexec
  exact ⟨_, (State.Sends.portLost s h _).sameMemory, hexec⟩

/-! ### Scrubbing, overflow control and the routine table (R59, R71, R75) -/

theorem patrolScrub_ends (g : Nat) :
    let u := s.onStack h (·.access (g * 32))
    exec (.patrolScrub h g .clean) s = .next u
    ∧ exec (.patrolScrub h g .corrected) s = .next ((u.onStack h (fun t => { t with cecnt := min (t.cecnt + 1) 0xFFFFFFFF })).faultEvent
        (.hbmRow h ((u.stack h).place (g * 32)).1 ((u.stack h).place (g * 32)).2) .corrected)
    ∧ exec (.patrolScrub h g .uncorrectable) s = .next (((u.poisonGranule g).onStack h (fun t =>
        { t with uecnt := min (t.uecnt + 1) 0xFFFFFFFF })).faultEvent (.stack h) .uncorrectable) := by
  intro u
  simp only [Laws.exec_patrolScrub, execPatrolScrub, State.eccCheck]
  exact ⟨rfl, rfl, rfl⟩

theorem occtlWrite_ends (b : Bool) : Ends (.occtlWrite h b) s (fun t => (t.stack h).ocEn = b ∧ (t.stack h).oc = (s.stack h).oc ∧ SameMemory s t) := by
  refine ⟨_, rfl, ?_, ?_, fun _ => rfl, rfl, rfl⟩ <;> rw [State.stack_onStack_same]

/-- Writing back every line of the overflow cache leaves none (R71). -/
theorem State.drained_oc : (((s.stack h).oc.foldl (fun t e => t.ocWriteBack h e.1 0#4) s).stack h).oc = [] := by
  rw [List.eq_nil_iff_forall_not_mem]
  intro x hx
  have hsub : x ∈ (s.stack h).oc :=
    List.foldlRecOn (motive := fun (t : State) => x ∈ (t.stack h).oc → x ∈ (s.stack h).oc) _ _ id
      (fun t ht e _ hmem => ht (mem_without.mp (State.ocWriteBack_oc ▸ hmem)).1) hx
  refine foldl_reaches (f := fun (t : State) (e : Nat × BitVec 4) => t.ocWriteBack h e.1 0#4) (I := fun _ => True)
    (P := fun t => x ∉ (t.stack h).oc) hsub (fun _ _ _ _ => trivial) (fun t _ hmem => ?_) (fun t e _ _ ht hmem => ?_) trivial hx
  · rw [State.ocWriteBack_oc] at hmem
    simpa using (mem_without.mp hmem).2
  · rw [State.ocWriteBack_oc] at hmem
    exact ht (mem_without.mp hmem).1

theorem overflowDrainDone_drains (hen : (s.stack h).ocEn = false) :
    Ends (.overflowDrainDone h) s (fun t => (t.stack h).oc = [] ∧ SameBytes s t) := by
  have hexec : exec (.overflowDrainDone h) s = .next ((s.stack h).oc.foldl (fun t e => t.ocWriteBack h e.1 0#4) s) := by
    rw [Laws.exec_overflowDrainDone, execOverflowDrainDone, if_neg (by simp [hen])]
  exact ⟨_, hexec, State.drained_oc, ((State.Settles.refl s).foldl fun _ _ ht => ht.ocWriteBack).sameBytes⟩

theorem overflowDrainDone_enabled (hen : (s.stack h).ocEn = true) : exec (.overflowDrainDone h) s = .next s := by
  rw [Laws.exec_overflowDrainDone, execOverflowDrainDone, if_pos hen]

section
variable {k : Nat} {r : Routine}

theorem routineTableWrite_eq (hk : k < 1024) : exec (.routineTableWrite h k r) s = .next (s.onStack h (·.writeRoutine k r)) := by
  rw [Laws.exec_routineTableWrite, execRoutineTableWrite, if_neg (by omega)]

theorem routineTableWrite_writes (hk : k < 1024) (hr : r.valid = false ∨ routineOk r = true) :
    Ends (.routineTableWrite h k r) s (fun t => SMap.look {} (t.stack h).routines k = r) := by
  refine ⟨_, routineTableWrite_eq hk, ?_⟩
  have hok : (r.valid && !routineOk r) = false := by
    rcases hr with hr | hr <;> simp [hr]
  simp [StackSt.writeRoutine, hok]

theorem routineTableWrite_refuses (hk : k < 1024) (hv : r.valid = true) (hr : routineOk r = false) :
    Ends (.routineTableWrite h k r) s (fun t => (SMap.look {} (t.stack h).routines k).valid = false) := by
  refine ⟨_, routineTableWrite_eq hk, ?_⟩
  simp [StackSt.writeRoutine, hv, hr]

theorem routineTableWrite_outside (hk : 1024 ≤ k) : exec (.routineTableWrite h k r) s = .next s := by
  rw [Laws.exec_routineTableWrite, execRoutineTableWrite, if_pos hk]

end

/-! ### Other registers (R30, R83) -/

theorem registerWrite_meas {k : Nat} {x : BitVec 384} (hsp : s.rcv.sps = [0, 1]) (hlo : 5 ≤ k) (hhi : k ≤ 7) :
    Ends (.registerWrite (.meas k x)) s (fun t => ∀ j, j < 2 → SMap.look 0#384 t.pkg.meas (8 * j + k)
      = Crypto.sha384 (Crypto.bytesBE 48 (SMap.look 0#384 s.pkg.meas (8 * j + k)).toNat ++ Crypto.bytesBE 48 x.toNat)) := by
  have hexec : exec (.registerWrite (.meas k x)) s = .next ((s.extendMeas 0 k x).extendMeas 1 k x) := by
    rw [Laws.exec_registerWrite, execRegisterWrite]
    simp [hsp, hlo, hhi]
  refine ⟨_, hexec, fun j hj => ?_⟩
  match j, hj with
  | 0, _ =>
    exact (State.measAt_extendMeas_other (s.extendMeas 0 k x) x (by omega)).trans (s.measAt_extendMeas_same 0 k x)
  | 1, _ =>
    refine (State.measAt_extendMeas_same (s.extendMeas 0 k x) 1 k x).trans ?_
    rw [State.measAt_extendMeas_other s x (by omega)]
    rfl

theorem registerWrite_meas_other {k : Nat} {x : BitVec 384} (hk : k < 5 ∨ 7 < k) : exec (.registerWrite (.meas k x)) s = .next s := by
  rw [Laws.exec_registerWrite, execRegisterWrite, if_neg (by omega)]

theorem registerWrite_param {c n w : Nat} (hc : c < 6) (hn : 1 ≤ n ∧ n ≤ 15) (hw : 1 ≤ w ∧ w ≤ 1000) :
    Ends (.registerWrite (.param c n w)) s (fun t => SMap.look (0, 0) t.rcv.params c = (n, w)) := by
  refine ⟨{ s with rcv := { s.rcv with params := SMap.put (0, 0) s.rcv.params c (n, w) } }, ?_, SMap.look_put_same ..⟩
  rw [Laws.exec_registerWrite, execRegisterWrite, if_pos ⟨hc, hn.1, hn.2, hw.1, hw.2⟩]

theorem registerWrite_param_other {c n w : Nat} (hno : 6 ≤ c ∨ n < 1 ∨ 15 < n ∨ w < 1 ∨ 1000 < w) :
    exec (.registerWrite (.param c n w)) s = .next s := by
  rw [Laws.exec_registerWrite, execRegisterWrite, if_neg (by omega)]

/-! ### Refresh (R72, R73) -/

theorem refreshWindowStart_ends :
    Ends (.refreshWindowStart h) s (fun t => (t.stack h).tracker = [] ∧ (t.stack h).openRows = (s.stack h).openRows ∧ SameMemory s t) := by
  refine ⟨_, rfl, ?_, ?_, fun _ => rfl, rfl, rfl⟩ <;> rw [State.stack_onStack_same]

theorem directedRefreshDone_ends (b : Nat) (hq : (s.stack h).queue = []) : Ends (.directedRefreshDone h b) s (fun t => SameMemory s t
    ∧ ∀ x, x ∈ (t.stack h).refreshing ↔ x ∈ (s.stack h).refreshing ∧ x.1 ≠ b) := by
  have hwake := State.baseDrain_empty (s := s.onStack h (fun t => { t with refreshing := without t.refreshing (fun r => r.1 == b) })) (h := h)
    (by rw [State.stack_onStack_same]; exact hq)
  refine ⟨_, rfl, ⟨byteAt_congr (hwake.keeps State.mem), hwake.keeps State.fe, hwake.keeps State.poison⟩, fun x => ?_⟩
  rw [hwake.keeps (·.stack h), State.stack_onStack_same, State.stack_onStack_same, mem_without]
  simp

end

end Sys2Proof.Machine

/-! ## The obligation -/

namespace Sys2Proof.Machine

open Claims

/-- Settles O57, clause by clause: each names the lemma about its happening. -/
theorem homesAndBaseDies : Obligations.HomesAndBaseDies := by
  intro s h p cv now m line secs here free loc slice meets answer packets
  exact ⟨fun _ => completionAnnouncementTimer_ends,
    fun _ => completionAnnouncementTimer_quiet,
    announcement_spec s,
    fun _ hd => ⟨completionAnnouncement_raises hd, completionAnnouncement_precedes, completionAnnouncement_dropped hd⟩,
    fun _ => causalWritePerform_performs,
    fun _ => storeAck_performed,
    fun _ => storeAck_performs,
    fun _ => crossDieReadPerform_waits,
    fun _ => crossDieReadPerform_other,
    rdcStampAgeDrop_ends,
    fun _ _ _ _ => holdViolationRemote_ends,
    fun i hi hl => homeRequests_unmapped hl i hi,
    fun _ hop hm hal hctl hlen hheld hp hun =>
      ⟨fun _ => homeAtomic_performs hop hm hal hctl hlen hheld hp hun, homeAtomic_performs hop hm hal hctl hlen hheld hp hun⟩,
    fun hm hal hlen hzero hheld hp => ⟨fun hu => (homeCntdec_eq hm hal hlen hzero hheld hp).trans (if_pos hu),
      fun hu ha hb => (homeCntdec_eq hm hal hlen hzero hheld hp).trans ((if_neg hu).trans (if_pos ⟨ha, hb⟩)),
      fun hu hab => (homeCntdec_eq hm hal hlen hzero hheld hp).trans ((if_neg hu).trans (if_neg hab))⟩,
    fun hm hne hctl => ⟨homeWrite_performs hm hne hctl, homeWrite_refused hm hne hctl⟩,
    fun _ _ hw hst => ⟨loadDataReturn_completes hw hst, fun _ => longOpComplete_completes hw hst⟩,
    fun _ _ _ _ _ _ _ => longOpComplete_resyncs,
    basePackets_elsewhere,
    basePackets_reserved,
    basePackets_unlisted,
    baseDie_waits,
    fun hh hfree htyp hopx hne hlen => ⟨baseDieRead_miss hh hfree ⟨htyp, hopx, hne, hlen⟩, fun _ => baseDieRead_hit hh hfree ⟨htyp, hopx, hne, hlen⟩⟩,
    baseDieWrite_performs,
    victimWrite_ends,
    writeMasked_ends,
    fun _ _ => maskedMergeComplete_ends,
    overflowFlush_ends,
    fun hh hfree htyp hopx hlen hs _ => overflowDiscard_ends hh hfree htyp hopx hlen hs,
    shipRoutine_ends,
    fun hh hfree htyp hopx hw => ⟨fun hclean _ => stitchWrite_clean hh hfree htyp hopx hw hclean, stitchWrite_poisoned hh hfree htyp hopx hw⟩,
    requesterReply_unknown,
    fun _ => requesterReply_replies,
    baseDiePortLoss_other,
    baseDiePortLoss_last,
    patrolScrub_ends,
    occtlWrite_ends,
    overflowDrainDone_drains,
    overflowDrainDone_enabled,
    fun _ _ => routineTableWrite_writes,
    fun _ _ => routineTableWrite_refuses,
    fun _ _ => routineTableWrite_outside,
    fun _ _ _ => rfl,
    fun _ _ => registerWrite_meas,
    fun _ _ => registerWrite_meas_other,
    fun _ _ _ hc hn1 hn2 hw1 hw2 => registerWrite_param hc ⟨hn1, hn2⟩ ⟨hw1, hw2⟩,
    fun _ _ _ => registerWrite_param_other,
    refreshWindowStart_ends,
    directedRefreshDone_ends⟩

end Sys2Proof.Machine

/-!
# Recovery of stitched data (R108, R110)

The bytes of a stitch group are elements of GF(256) with generator g = 2: multiplying by powers of g is linear, g has order 255, and so one or
two missing members follow from the parity sectors.
-/

namespace Sys2Proof.Machine

open Claims

/-! ### Powers of g -/

theorem gfScale_eq_iterate (k : Nat) (x : Byte) : gfScale k x = gfDouble^[k] x := by
  induction k generalizing x with
  | zero => rfl
  | succ k ih => rw [gfScale, ih, Function.iterate_succ_apply]

theorem gfScale_add (a b : Nat) (x : Byte) : gfScale (a + b) x = gfScale a (gfScale b x) := by
  simp only [gfScale_eq_iterate, Function.iterate_add_apply]

theorem xor_right_comm (a b c : Byte) : a ^^^ b ^^^ c = a ^^^ c ^^^ b := by
  rw [BitVec.xor_assoc, BitVec.xor_comm b, BitVec.xor_assoc]

theorem xor_cancel (a b : Byte) : a ^^^ b ^^^ b = a := by
  rw [BitVec.xor_assoc, BitVec.xor_self, BitVec.xor_zero]

theorem gfDouble_xor (x y : Byte) : gfDouble (x ^^^ y) = gfDouble x ^^^ gfDouble y := by
  have hbit : (x ^^^ y).toNat.testBit 7 = (x.toNat.testBit 7 ^^ y.toNat.testBit 7) := by
    rw [BitVec.toNat_xor, Nat.testBit_xor]
  unfold gfDouble
  rw [hbit, BitVec.shiftLeft_xor_distrib]
  cases x.toNat.testBit 7 <;> cases y.toNat.testBit 7
  · rfl
  · exact (BitVec.xor_assoc ..).symm ▸ rfl
  · exact xor_right_comm ..
  · rw [if_neg (by decide), if_pos rfl, if_pos rfl, ← BitVec.xor_assoc, xor_right_comm (x <<< 1), xor_cancel]

/-- Multiplying by a power of g is linear. -/
theorem gfScale_xor (k : Nat) (x y : Byte) : gfScale k (x ^^^ y) = gfScale k x ^^^ gfScale k y := by
  induction k generalizing x y with
  | zero => rfl
  | succ k ih => rw [gfScale, gfDouble_xor, ih]; rfl

theorem gfScale_zero_byte (k : Nat) : gfScale k 0#8 = 0#8 := by
  have h := gfScale_xor k 0#8 0#8
  rwa [BitVec.xor_self, BitVec.xor_self] at h

/-- The order of g is 255. -/
theorem minimalPeriod_gfDouble : Function.minimalPeriod gfDouble 1#8 = 255 := by
  have hiff : ∀ n, Function.minimalPeriod gfDouble 1#8 ∣ n ↔ gfScale n 1#8 = 1#8 := by
    intro n
    rw [← Function.isPeriodicPt_iff_minimalPeriod_dvd, Function.IsPeriodicPt, Function.IsFixedPt, ← gfScale_eq_iterate]
  have hperiod : gfScale 255 1#8 = 1#8 := by decide +kernel
  have hproper : ∀ n ∈ [15, 51, 85], gfScale n 1#8 ≠ 1#8 := by decide +kernel
  have hdivisors : ∀ n ∈ Nat.divisors 255, n = 255 ∨ ∃ k ∈ [15, 51, 85], n ∣ k := by decide +kernel
  rcases hdivisors _ (Nat.mem_divisors.mpr ⟨(hiff 255).mpr hperiod, by decide⟩) with h | ⟨k, hk, hd⟩
  · exact h
  · exact absurd ((hiff k).mp hd) (hproper k hk)

theorem gfScale_one_inj {i j : Nat} (hi : i < 255) (hj : j < 255) : gfScale i 1#8 = gfScale j 1#8 ↔ i = j := by
  have hinj := Function.iterate_injOn_Iio_minimalPeriod (f := gfDouble) (x := 1#8)
  rw [minimalPeriod_gfDouble] at hinj
  rw [gfScale_eq_iterate, gfScale_eq_iterate]
  exact hinj.eq_iff hi hj

theorem gfScale_one_ne_zero (i : Nat) : gfScale i 1#8 ≠ 0#8 := by
  intro h
  have hback : gfScale (255 * i) 1#8 = 0#8 := by
    rw [show 255 * i = 254 * i + i by omega, gfScale_add, h, gfScale_zero_byte]
  have hper : gfScale (255 * i) 1#8 = 1#8 := by
    rw [gfScale_eq_iterate, ← minimalPeriod_gfDouble]
    exact (Function.isPeriodicPt_minimalPeriod gfDouble 1#8).mul_const i
  exact absurd (hback.symm.trans hper) (by decide)

/-- Every byte but zero is a power of g. -/
theorem exists_gfScale_one {x : Byte} (hx : x ≠ 0#8) : ∃ i < 255, gfScale i 1#8 = x := by
  have himage : (Finset.range 255).image (gfScale · 1#8) = Finset.univ.erase 0#8 := by
    refine Finset.eq_of_subset_of_card_le (fun y hy => ?_) ?_
    · obtain ⟨i, -, rfl⟩ := Finset.mem_image.mp hy
      exact Finset.mem_erase.mpr ⟨gfScale_one_ne_zero i, Finset.mem_univ _⟩
    · rw [Finset.card_image_of_injOn fun i hi j hj h => (gfScale_one_inj (by simpa using hi) (by simpa using hj)).mp h,
        Finset.card_erase_of_mem (Finset.mem_univ _), Finset.card_range, Finset.card_univ, ← FinEnum.card_eq_fintypeCard, FinEnum.card_bitVec]
      decide
  obtain ⟨i, hi, h⟩ := Finset.mem_image.mp (himage ▸ Finset.mem_erase.mpr ⟨hx, Finset.mem_univ x⟩ : x ∈ (Finset.range 255).image (gfScale · 1#8))
  exact ⟨i, by simpa using hi, h⟩

theorem gfScale_255_mul (q : Nat) (x : Byte) : gfScale (255 * q) x = x := by
  by_cases hx : x = 0#8
  · rw [hx, gfScale_zero_byte]
  · obtain ⟨i, -, rfl⟩ := exists_gfScale_one hx
    have hper : gfScale (255 * q) 1#8 = 1#8 := by
      rw [gfScale_eq_iterate, ← minimalPeriod_gfDouble]
      exact (Function.isPeriodicPt_minimalPeriod gfDouble 1#8).mul_const q
    rw [← gfScale_add, Nat.add_comm, gfScale_add, hper]

/-- Dividing by a power of g. -/
theorem gfScale_cancel (n : Nat) (x : Byte) : gfScale (255 - n % 255) (gfScale n x) = x := by
  rw [← gfScale_add, show 255 - n % 255 + n = 255 * (n / 255 + 1) by omega, gfScale_255_mul]

/-- The logarithm of a byte that is not zero. -/
theorem gfScale_gfLog {x : Byte} (hx : x ≠ 0#8) : gfLog x < 255 ∧ gfScale (gfLog x) 1#8 = x := by
  obtain ⟨i, hi, h⟩ := exists_gfScale_one hx
  cases hfind : (List.range 255).find? (fun k => gfScale k 1#8 == x) with
  | none => exact absurd (List.find?_eq_none.mp hfind i (List.mem_range.mpr hi)) (by simp [h])
  | some k =>
    rw [gfLog, hfind]
    exact ⟨List.mem_range.mp (List.mem_of_find?_eq_some hfind), by simpa using List.find?_some hfind⟩

/-- The sum of two powers of g times a byte. -/
theorem gfScale_add_scales {a b : Nat} (ha : a < 255) (hb : b < 255) (hab : a ≠ b) (x : Byte) :
    gfScale a x ^^^ gfScale b x = gfScale (gfLog (gfScale a 1#8 ^^^ gfScale b 1#8)) x := by
  have hne : gfScale a 1#8 ^^^ gfScale b 1#8 ≠ 0#8 := fun h => hab ((gfScale_one_inj ha hb).mp (BitVec.xor_eq_zero_iff.mp h))
  by_cases hx : x = 0#8
  · simp [hx, gfScale_zero_byte]
  · obtain ⟨i, -, rfl⟩ := exists_gfScale_one hx
    have hswap : ∀ n, gfScale n (gfScale i 1#8) = gfScale i (gfScale n 1#8) := fun n => by
      rw [← gfScale_add, Nat.add_comm, gfScale_add]
    rw [hswap, hswap, hswap, ← gfScale_xor, (gfScale_gfLog hne).2]

/-! ### Parity of byte strings -/

theorem gfAdd_right_comm (a b c : List Byte) : gfAdd (gfAdd a b) c = gfAdd (gfAdd a c) b := by
  induction a generalizing b c with
  | nil => simp [gfAdd]
  | cons x a ih =>
    match b, c with
    | [], [] | [], _ :: _ | _ :: _, [] => rfl
    | y :: b, z :: c => exact congrArg₂ List.cons (xor_right_comm x y z) (ih b c)

theorem gfAdd_comm (a b : List Byte) : gfAdd a b = gfAdd b a := List.zipWith_comm_of_comm BitVec.xor_comm

theorem length_gfAdd {a b : List Byte} (h : b.length = a.length) : (gfAdd a b).length = a.length := by simp [gfAdd, h]

theorem length_gfTimes (k : Nat) (b : List Byte) : (gfTimes k b).length = b.length := List.length_map ..

/-- Two byte strings of a length are equal where their bytes are. -/
theorem bytes_ext {n : Nat} {a b : List Byte} (ha : a.length = n) (hb : b.length = n) (h : ∀ i < n, a.getD i 0#8 = b.getD i 0#8) : a = b := by
  refine List.ext_getElem (ha.trans hb.symm) fun i hi hj => ?_
  have := h i (ha ▸ hi)
  rwa [List.getD_eq_getElem _ _ hi, List.getD_eq_getElem _ _ hj] at this

theorem getD_gfAdd {a b : List Byte} (h : b.length = a.length) (i : Nat) : (gfAdd a b).getD i 0#8 = a.getD i 0#8 ^^^ b.getD i 0#8 := by
  by_cases hi : i < a.length
  · have hb : i < b.length := h ▸ hi
    simp [gfAdd, hi, hb]
  · have hb : ¬ i < b.length := h ▸ hi
    simp [gfAdd, List.getD, hi, hb]

theorem getD_gfTimes (k : Nat) (b : List Byte) (i : Nat) : (gfTimes k b).getD i 0#8 = gfScale k (b.getD i 0#8) := by
  rw [gfTimes, ← gfScale_zero_byte k, List.getD_map, gfScale_zero_byte]

theorem gfAdd_cancel {a b : List Byte} (h : b.length = a.length) : gfAdd (gfAdd a b) a = b := by
  have hab := length_gfAdd h
  refine bytes_ext ((length_gfAdd hab.symm).trans hab) h fun i _ => ?_
  rw [getD_gfAdd hab.symm, getD_gfAdd h, xor_right_comm, BitVec.xor_self, BitVec.zero_xor]

theorem gfTimes_cancel (n : Nat) (b : List Byte) : gfTimes (255 - n % 255) (gfTimes n b) = b := by
  simp [gfTimes, Function.comp_def, gfScale_cancel]

theorem gfTimes_zero (b : List Byte) : gfTimes 0 b = b := List.map_id b

/-- What two lost members' parity sectors give of the one with the greater index. -/
theorem gfTimes_solve {a b : Nat} {x y : List Byte} (hxy : y.length = x.length) (ha : a < 255) (hb : b < 255) (hab : a ≠ b) :
    gfTimes (255 - gfLog (gfScale a 1#8 ^^^ gfScale b 1#8)) (gfAdd (gfAdd (gfTimes a x) (gfTimes b y)) (gfTimes a (gfAdd x y))) = y := by
  have hne : gfScale a 1#8 ^^^ gfScale b 1#8 ≠ 0#8 := fun h => hab ((gfScale_one_inj ha hb).mp (BitVec.xor_eq_zero_iff.mp h))
  obtain ⟨hlog, -⟩ := gfScale_gfLog hne
  have hback : ∀ z, gfScale (255 - gfLog (gfScale a 1#8 ^^^ gfScale b 1#8)) (gfScale (gfLog (gfScale a 1#8 ^^^ gfScale b 1#8)) z) = z := fun z => by
    have := gfScale_cancel (gfLog (gfScale a 1#8 ^^^ gfScale b 1#8)) z
    rwa [Nat.mod_eq_of_lt hlog] at this
  have hpair : ∀ u v, gfScale a u ^^^ gfScale b v ^^^ gfScale a (u ^^^ v) = gfScale (gfLog (gfScale a 1#8 ^^^ gfScale b 1#8)) v := fun u v => by
    rw [gfScale_xor, ← BitVec.xor_assoc, xor_right_comm (gfScale a u), BitVec.xor_self, BitVec.zero_xor, BitVec.xor_comm,
      gfScale_add_scales ha hb hab]
  have htimes : (gfTimes b y).length = (gfTimes a x).length := by rw [length_gfTimes, length_gfTimes, hxy]
  have hsum : (gfTimes a (gfAdd x y)).length = (gfAdd (gfTimes a x) (gfTimes b y)).length := by
    rw [length_gfTimes, length_gfAdd hxy, length_gfAdd htimes, length_gfTimes]
  refine bytes_ext (n := y.length) ?_ rfl fun i _ => ?_
  · rw [length_gfTimes, length_gfAdd hsum, length_gfAdd htimes, length_gfTimes, hxy]
  · rw [getD_gfTimes, getD_gfAdd hsum, getD_gfAdd htimes, getD_gfTimes, getD_gfTimes, getD_gfTimes, getD_gfAdd hxy, hpair, hback]

theorem parityOf_append (n j : Nat) (l m : List (Nat × List Byte)) :
    parityOf n j (l ++ m) = m.foldl (fun acc e => gfAdd acc (gfTimes (j * e.1) e.2)) (parityOf n j l) := List.foldl_append

theorem length_parityOf {n j : Nat} {l : List (Nat × List Byte)} (h : ∀ e ∈ l, e.2.length = n) : (parityOf n j l).length = n := by
  unfold parityOf
  refine List.foldlRecOn (motive := fun (acc : List Byte) => acc.length = n) l _ List.length_replicate fun acc hacc e he => ?_
  rw [length_gfAdd (by rw [length_gfTimes, h e he, hacc]), hacc]

/-- Parity does not depend on the order of the members. -/
theorem parityOf_perm {n j : Nat} {l m : List (Nat × List Byte)} (h : l.Perm m) : parityOf n j l = parityOf n j m :=
  h.foldl_eq' (fun _ _ _ _ _ => gfAdd_right_comm ..) _

/-! ### Members that are lost -/

/-- A member by its index. -/
def member (f : Nat → List Byte) (i : Nat) : Nat × List Byte := (i, f i)

/-- The members of a group, in the order of their indices. -/
def membersOf (k : Nat) (f : Nat → List Byte) : List (Nat × List Byte) := (List.range k).map (member f)

theorem exists_membersOf {k : Nat} {all : List (Nat × List Byte)} (h : all.map (·.1) = List.range k) : ∃ f, all = membersOf k f := by
  have hlen : all.length = k := by simpa using congrArg List.length h
  refine ⟨fun i => (all.getD i default).2, List.ext_getElem (by simp [membersOf, hlen]) fun i hi _ => ?_⟩
  have hkey : all[i].1 = i := by
    have := List.getElem_of_eq h (i := i) (by simpa using hi)
    simpa using this
  simp only [membersOf, member, List.getElem_map, List.getElem_range]
  exact Prod.ext hkey (by simp [hi])

section
variable {k j : Nat} {f : Nat → List Byte} {p : Nat → Bool} {lost : List Nat}

/-- The lost members of a group are those of the indices whose members do not survive. -/
def Lost (k : Nat) (p : Nat → Bool) (lost : List Nat) : Prop := lost.SortedLT ∧ ∀ i, i ∈ lost ↔ i < k ∧ p i = false

theorem Lost.filter_range (h : Lost k p lost) : (List.range k).filter (fun i => !p i) = lost := by
  refine List.SortedLT.eq_of_mem_iff ((List.sortedLT_range k).pairwise.filter _).sortedLT h.1 fun i => ?_
  simp [h.2]

/-- The members that survive. -/
def survivors (k : Nat) (f : Nat → List Byte) (p : Nat → Bool) : List (Nat × List Byte) := (membersOf k f).filter fun e => p e.1

theorem mem_survivors {e : Nat × List Byte} : e ∈ survivors k f p ↔ e.1 < k ∧ e = member f e.1 ∧ p e.1 = true := by
  simp only [survivors, membersOf, List.mem_filter, List.mem_map, List.mem_range]
  constructor
  · rintro ⟨⟨i, hi, rfl⟩, hp⟩
    exact ⟨hi, rfl, hp⟩
  · rintro ⟨hk, he, hp⟩
    exact ⟨⟨e.1, hk, he.symm⟩, hp⟩

theorem Lost.missing (h : Lost k p lost) : (List.range k).filter (fun i => !(survivors k f p).any (fun e => e.1 == i)) = lost := by
  rw [← h.filter_range]
  refine List.filter_congr fun i hi => congrArg _ ?_
  rw [Bool.eq_iff_iff, List.any_eq_true]
  constructor
  · rintro ⟨e, he, hi⟩
    rw [← eq_of_beq hi]
    exact (mem_survivors.mp he).2.2
  · intro hp
    exact ⟨member f i, mem_survivors.mpr ⟨List.mem_range.mp hi, rfl, hp⟩, beq_self_eq_true i⟩

theorem Lost.perm (h : Lost k p lost) : (membersOf k f).Perm (survivors k f p ++ lost.map (member f)) := by
  have hgone : (membersOf k f).filter (fun e => !p e.1) = lost.map (member f) := by
    rw [membersOf, List.filter_map, ← h.filter_range]
    rfl
  rw [← hgone]
  exact (List.filter_append_perm (fun e : Nat × List Byte => p e.1) _).symm

theorem Lost.parityOf_eq (h : Lost k p lost) : parityOf 128 j (membersOf k f) =
    (lost.map (member f)).foldl (fun acc e => gfAdd acc (gfTimes (j * e.1) e.2)) (parityOf 128 j (survivors k f p)) := by
  rw [parityOf_perm h.perm, parityOf_append]

/-- Every member is among those that survive and those that are given. -/
theorem Lost.mem_of_perm (h : Lost k p lost) : ∀ e ∈ membersOf k f, e ∈ survivors k f p ++ lost.map (member f) :=
  fun _ he => h.perm.mem_iff.mp he

section
variable (hf : ∀ i < k, (f i).length = 128)
include hf

theorem length_parityOf_survivors : (parityOf 128 j (survivors k f p)).length = 128 :=
  length_parityOf fun e he => by
    obtain ⟨hk, he, -⟩ := mem_survivors.mp he
    rw [he]
    exact hf _ hk

/-- One lost member follows from any parity sector (R108, R110). -/
theorem solveData_one {a : Nat} (h : Lost k p [a]) : solveData k (survivors k f p) [(j, parityOf 128 j (membersOf k f))] =
    some (survivors k f p ++ [member f a]) := by
  have ha : (f a).length = 128 := hf a ((h.2 a).mp (List.mem_singleton_self a)).1
  have hsum : parityOf 128 j (membersOf k f) = gfAdd (parityOf 128 j (survivors k f p)) (gfTimes (j * a) (f a)) := h.parityOf_eq
  have hp := length_parityOf_survivors (p := p) (j := j) hf
  have hall : (parityOf 128 j (membersOf k f)).length = 128 := by
    rw [hsum, length_gfAdd (by rw [length_gfTimes, ha, hp]), hp]
  have hrest : gfAdd (parityOf 128 j (membersOf k f)) (parityOf 128 j (survivors k f p)) = gfTimes (j * a) (f a) := by
    rw [hsum, gfAdd_cancel (by rw [length_gfTimes, ha, hp])]
  unfold solveData
  simp only [h.missing, hall, hrest, gfTimes_cancel]
  rfl

/-- Two lost members follow from both parity sectors (R108, R110). -/
theorem solveData_two {a b : Nat} (hab : a < b) (hk : k ≤ 255) (h : Lost k p [a, b]) :
    solveData k (survivors k f p) [(0, parityOf 128 0 (membersOf k f)), (1, parityOf 128 1 (membersOf k f))] =
      some (survivors k f p ++ [member f a, member f b]) := by
  obtain ⟨hak, -⟩ := (h.2 a).mp (by simp)
  obtain ⟨hbk, -⟩ := (h.2 b).mp (by simp)
  have ha := hf a hak
  have hb := hf b hbk
  have hsum : ∀ j, parityOf 128 j (membersOf k f) =
      gfAdd (gfAdd (parityOf 128 j (survivors k f p)) (gfTimes (j * a) (f a))) (gfTimes (j * b) (f b)) := fun j => h.parityOf_eq
  have hp : ∀ j, (parityOf 128 j (survivors k f p)).length = 128 := fun j => length_parityOf_survivors hf
  have hpa : ∀ j, (gfAdd (parityOf 128 j (survivors k f p)) (gfTimes (j * a) (f a))).length = 128 := fun j => by
    rw [length_gfAdd (by rw [length_gfTimes, ha, hp]), hp]
  have hall : ∀ j, (parityOf 128 j (membersOf k f)).length = 128 := fun j => by
    rw [hsum, length_gfAdd (by rw [length_gfTimes, hb, hpa]), hpa]
  have hrest : ∀ j, gfAdd (parityOf 128 j (membersOf k f)) (parityOf 128 j (survivors k f p)) = gfAdd (gfTimes (j * a) (f a)) (gfTimes (j * b) (f b)) :=
    fun j => by rw [hsum, gfAdd_right_comm, gfAdd_cancel (by rw [length_gfTimes, ha, hp])]
  unfold solveData
  simp only [h.missing, hall, hrest, if_true, Nat.zero_mul, Nat.one_mul, gfTimes_zero]
  rw [gfTimes_solve (hb.trans ha.symm) (by omega) (by omega) (by omega), gfAdd_comm (f a), gfAdd_cancel (ha.trans hb.symm)]
  rfl

end

end

/-- What a group of k data members holds can be solved with one member lost, and with both parity sectors with two (R108, R110). -/
theorem solveData_spec (k j : Nat) (all : List (Nat × List Byte)) (hkey : all.map (·.1) = List.range k) (hlen : ∀ e ∈ all, e.2.length = 128) :
    (∀ a, a < k → ∃ r, solveData k (all.filter (fun e => e.1 != a)) [(j, parityOf 128 j all)] = some r ∧ ∀ e ∈ all, e ∈ r)
    ∧ (∀ a b, a < b → b < k → k ≤ 255 →
        ∃ r, solveData k (all.filter (fun e => e.1 != a && e.1 != b)) [(0, parityOf 128 0 all), (1, parityOf 128 1 all)] = some r
          ∧ ∀ e ∈ all, e ∈ r) := by
  obtain ⟨f, rfl⟩ := exists_membersOf hkey
  have hf : ∀ i < k, (f i).length = 128 := fun i hi => hlen (member f i) (List.mem_map_of_mem (List.mem_range.mpr hi))
  refine ⟨fun a ha => ?_, fun a b hab hb hk => ?_⟩
  · have hlost : Lost k (· != a) [a] := by
      refine ⟨List.sortedLT_iff_pairwise.mpr (List.pairwise_singleton ..), fun i => ?_⟩
      simp only [List.mem_singleton, bne_eq_false_iff_eq]
      omega
    exact ⟨_, solveData_one hf hlost, hlost.mem_of_perm⟩
  · have hlost : Lost k (fun i => i != a && i != b) [a, b] := by
      refine ⟨List.sortedLT_iff_pairwise.mpr (List.pairwise_pair.mpr hab), fun i => ?_⟩
      simp only [List.mem_cons, List.not_mem_nil, or_false, Bool.and_eq_false_iff, bne_eq_false_iff_eq]
      omega
    exact ⟨_, solveData_two hf hab hk hlost, hlost.mem_of_perm⟩

end Sys2Proof.Machine

/-!
# What writes leave of stacks and of the rest of the machine

Below the homes a line moves between slices, overflow caches and DRAM.  `State.Stows` says of two states that nothing else has changed, and of a
stack nothing but its rows, its overflow cache and its held stitched writes.
-/

namespace Sys2Proof.Machine

open Claims

theorem State.stack_onStack_other (s : State) {h k : Nat} (f : StackSt → StackSt) (hk : k ≠ h) : (s.onStack h f).stack k = s.stack k :=
  SMap.look_alter_other _ _ hk

/-- The stack with other rows, another overflow cache and other held writes. -/
def StackSt.restocked (t : StackSt) (k : SMap RowTracker) (o : SMap Nat) (n : Nat) (r : List (Nat × List Nat)) (c : List (Nat × BitVec 4))
    (l : List (Packet × BitVec 32)) : StackSt :=
  { t.withRows k o n r with oc := c, stitchHeld := l }

/-- Two states of a stack differ in rows, overflow cache and held writes alone. -/
def StackSt.Restocks (t u : StackSt) : Prop := ∃ k o n r c l, u = t.restocked k o n r c l

namespace StackSt.Restocks

theorem refl (t : StackSt) : t.Restocks t := ⟨_, _, _, _, _, _, rfl⟩

theorem trans {t u v : StackSt} (h : t.Restocks u) (h' : u.Restocks v) : t.Restocks v := by
  obtain ⟨k, o, n, r, c, l, rfl⟩ := h
  obtain ⟨k', o', n', r', c', l', rfl⟩ := h'
  exact ⟨k', o', n', r', c', l', rfl⟩

/-- What does not look at rows, overflow cache and held writes is as before. -/
theorem keeps {β : Type} {t u : StackSt} (g : StackSt → β) (h : t.Restocks u)
    (hg : ∀ t k o n r c l, g (StackSt.restocked t k o n r c l) = g t := by exact fun _ _ _ _ _ _ _ => rfl) : g u = g t := by
  obtain ⟨k, o, n, r, c, l, rfl⟩ := h
  exact hg ..

theorem access (t : StackSt) (pa : Nat) : t.Restocks (t.access pa) := by
  obtain ⟨k, o, n, r, he⟩ := t.access_eq pa
  exact ⟨k, o, n, r, t.oc, t.stitchHeld, he⟩

theorem ocDrop (t : StackSt) (line : Nat) : t.Restocks (t.ocDrop line) := ⟨_, _, _, _, _, _, rfl⟩

end StackSt.Restocks

/-- The state with other memory, full/empty bits, copies below, stacks, dies and messages out. -/
def State.restowed (s : State) (m : Memory) (f p : List Nat) (u : SMap (Option Under)) (h : SMap StackSt) (d : SMap DieSt) (o : List OutMsg) : State :=
  { s with mem := m, fe := f, poison := p, under := u, hbm := h, dies := d, outbox := o }

/-- Two states differ in memory and what is below it, in dies and messages out alone, and the stacks in rows, overflow cache and held writes. -/
structure State.Stows (s t : State) : Prop where
  rest : ∃ m f p u h d o, t = s.restowed m f p u h d o
  stack : ∀ k, (s.stack k).Restocks (t.stack k)

namespace State.Stows

variable {r s t : State}

theorem keeps {β : Type} (g : State → β) (h : s.Stows t)
    (hg : ∀ t m f p u h d o, g (t.restowed m f p u h d o) = g t := by exact fun _ _ _ _ _ _ _ _ => rfl) : g t = g s := by
  obtain ⟨m, f, p, u, k, d, o, rfl⟩ := h.rest
  exact hg ..

theorem of_hbm {m : Memory} {f p : List Nat} {u : SMap (Option Under)} {d : SMap DieSt} {o : List OutMsg} :
    s.Stows (s.restowed m f p u s.hbm d o) := ⟨⟨m, f, p, u, s.hbm, d, o, rfl⟩, fun _ => .refl _⟩

theorem refl (s : State) : s.Stows s := of_hbm

theorem trans (h : r.Stows s) (h' : s.Stows t) : r.Stows t := by
  refine ⟨?_, fun k => (h.stack k).trans (h'.stack k)⟩
  obtain ⟨m, f, p, u, k, d, o, rfl⟩ := h.rest
  obtain ⟨m', f', p', u', k', d', o', rfl⟩ := h'.rest
  exact ⟨m', f', p', u', k', d', o', rfl⟩

theorem ite {c : Prop} [Decidable c] {a b : State} (ha : r.Stows a) (hb : r.Stows b) : r.Stows (if c then a else b) := by
  split
  exacts [ha, hb]

theorem foldl {α : Type} {l : List α} {f : State → α → State} (h : r.Stows s) (hf : ∀ t e, r.Stows t → r.Stows (f t e)) : r.Stows (l.foldl f s) :=
  List.foldlRecOn (motive := fun t => r.Stows t) l f h fun t ht e _ => hf t e ht

theorem rewrites (h : r.Stows s) (h' : s.Rewrites t) : r.Stows t := by
  obtain ⟨m, p, u, rfl⟩ := h'
  exact h.trans of_hbm

theorem onDie (h : r.Stows s) {d : Nat} {f : DieSt → DieSt} : r.Stows (s.onDie d f) := h.trans of_hbm

theorem setL2 (h : r.Stows s) {d : Nat} {f : List L2Line → List L2Line} : r.Stows (s.setL2 d f) := h.onDie

theorem send (h : r.Stows s) {m : OutMsg} : r.Stows (s.send m) := h.trans of_hbm

theorem onStack (h : r.Stows s) {k : Nat} {f : StackSt → StackSt} (hf : ∀ t, StackSt.Restocks t (f t)) : r.Stows (s.onStack k f) := by
  refine h.trans ⟨⟨_, _, _, _, _, _, _, rfl⟩, fun j => ?_⟩
  by_cases hj : j = k
  · rw [hj, State.stack_onStack_same]
    exact hf _
  · rw [State.stack_onStack_other _ _ hj]
    exact .refl _

theorem onDomain (h : r.Stows s) {i : BitVec 32} {f : DomRec → DomRec} : r.Stows (s.onDomain i f) := by
  unfold State.onDomain
  split
  exacts [h, h.onDie]

theorem toDram (h : r.Stows s) {k line : Nat} {m : BitVec 4} : r.Stows (s.toDram k line m) :=
  h.ite ((h.onStack fun _ => .access ..).foldl fun _ _ ht => ht.rewrites (.dropUnder ..))

theorem ocWriteBack (h : r.Stows s) {k line : Nat} {skip : BitVec 4} : r.Stows (s.ocWriteBack k line skip) := by
  unfold State.ocWriteBack
  split
  exacts [h, (h.onStack fun _ => .ocDrop ..).toDram.foldl fun _ _ ht => ht.rewrites (.settleSector ..)]

theorem ocFill (h : r.Stows s) {k line : Nat} {dirty : BitVec 4} : r.Stows (s.ocFill k line dirty) := by
  have hdrop : r.Stows (s.onStack k (·.ocDrop line)) := h.onStack fun _ => .ocDrop ..
  unfold State.ocFill
  refine h.toDram.ite (onStack ?_ fun _ => ⟨_, _, _, _, _, _, rfl⟩)
  split
  exacts [hdrop.ocWriteBack.ite hdrop, hdrop]

theorem stitchDelta (h : r.Stows s) {k slice line : Nat} {m : BitVec 4} {dom : BitVec 32} {old new : List Byte} :
    r.Stows (s.stitchDelta k slice line m dom old new) := by
  unfold State.stitchDelta
  dsimp only
  split
  exacts [h.toDram.onDie, h]

theorem stitchWriteBack (h : r.Stows s) {slice line : Nat} {m : BitVec 4} {dom : BitVec 32} : r.Stows (s.stitchWriteBack slice line m dom) :=
  ite (onStack h.onDomain fun _ => ⟨_, _, _, _, _, _, rfl⟩).send h.onDomain.stitchDelta

theorem l2WriteBack (h : r.Stows s) {d : Nat} {x : L2Line} {m : BitVec 4} : r.Stows (s.l2WriteBack d x m) := by
  refine onDie ?_
  split
  exacts [h.foldl fun _ _ ht => ht.stitchWriteBack, h.toDram]

theorem dropClean (h : r.Stows s) {line : Nat} {dirty : BitVec 4} : r.Stows (s.dropClean line dirty) :=
  h.foldl fun _ _ ht => ht.rewrites (.settleSector ..)

theorem l2Evict (h : r.Stows s) {d : Nat} {x : L2Line} : r.Stows (s.l2Evict d x) := (h.ocFill.ite h.l2WriteBack.dropClean).setL2

theorem l2Drain (h : r.Stows s) {d : Nat} {slice : Option Nat} : r.Stows (s.l2Drain d slice) := h.foldl fun _ _ ht => ht.l2Evict

theorem l2Put (h : r.Stows s) {d : Nat} {x : L2Line} {lru keep : Bool} : r.Stows (s.l2Put d x lru keep) := by
  unfold State.l2Put
  refine setL2 (h.ite ?_)
  split
  exacts [h.l2Evict, h.l2Evict, h]

theorem baseRead (h : r.Stows s) {line : Nat} {need : BitVec 4} : r.Stows (s.baseRead line need).2.2 := by
  unfold State.baseRead
  dsimp only
  split
  exacts [h.onStack fun _ => .ocDrop .., h.onStack fun _ => .access ..]

theorem l2Read (h : r.Stows s) {d slice line : Nat} {need : BitVec 4} {pol : Nat} : r.Stows (s.l2Read d slice line need pol) :=
  h.l2Put.ite (h.baseRead.ite h.baseRead.l2Put)

theorem l2Write (h : r.Stows s) {d slice c pol : Nat} : r.Stows (s.l2Write d slice c pol) := (h.l2Read.rewrites (.keepUnder ..)).setL2

theorem basePart (h : r.Stows s) {slice c loc : Nat} {b : List Byte} : r.Stows (s.basePart slice c loc b) := by
  unfold State.basePart
  refine ite (((onStack h.ocWriteBack fun _ => .access ..).rewrites (.putRaw ..)).rewrites (.setPoison ..) |>.rewrites (.dropUnder ..)) ?_
  split
  · exact (onStack (h.rewrites (.keepUnder ..)) fun _ => ⟨_, _, _, _, _, _, rfl⟩).rewrites (.cachedPart ..)
  · exact (onStack h fun _ => .access ..).foldl fun _ _ ht => ht.send.ite (ht.rewrites (.putRaw ..))

theorem noteWrite (h : r.Stows s) {d slice c : Nat} {f : WriteFrom} : r.Stows (s.noteWrite d slice c f) := by
  obtain ⟨d', he⟩ := s.noteWrite_eq d slice c f
  rw [he]
  exact h.trans of_hbm

theorem writePart (h : r.Stows s) {slice c loc pol : Nat} {b : List Byte} {f : WriteFrom} : r.Stows (s.writePart slice c loc b f pol) := by
  unfold State.writePart
  split
  exacts [h.rewrites (.cachedPart ..), h.noteWrite.basePart.ite (h.noteWrite.l2Write.rewrites (.cachedPart ..))]

end State.Stows

/-- A write changes what is below the homes, and wakes contexts. -/
theorem State.applyWrite_eq (s : State) (loc : Nat) (b : List Byte) (slice : Nat) (f : WriteFrom) (pol : Nat) :
    ∃ t, s.Stows t ∧ t.Wakes (s.applyWrite loc b slice f pol) :=
  ⟨_, .ite ((State.Stows.refl s).trans .of_hbm) ((State.Stows.refl s).foldl fun _ _ ht => ht.writePart), .fireMonitors ..⟩

end Sys2Proof.Machine

/-!
# Events, traps and losses

What posting an event, taking a trap and poisoning a group leave alone.
-/

namespace Sys2Proof.Machine

open Claims

/-! ### Memory that is the same -/

theorem sameMemory_trans {r s t : State} (h : SameMemory r s) (h' : SameMemory s t) : SameMemory r t :=
  ⟨fun a => (h'.1 a).trans (h.1 a), h'.2.1.trans h.2.1, h'.2.2.trans h.2.2⟩

/-- Other fields than memory, bits and marks do not matter. -/
theorem sameMemory_of_fields {s t : State} (hmem : t.mem = s.mem := by rfl) (hfe : t.fe = s.fe := by rfl)
    (hp : t.poison = s.poison := by rfl) : SameMemory s t := ⟨byteAt_congr hmem, hfe, hp⟩

theorem State.Wakes.sameMemory {s t : State} (h : s.Wakes t) : SameMemory s t :=
  sameMemory_of_fields (h.keeps State.mem) (h.keeps State.fe) (h.keeps State.poison)

/-! ### Contexts that change -/

namespace State.Wakes

theorem wakeSup (s : State) (d : Nat) : s.Wakes (s.wakeSup d) :=
  (refl s).foldl fun t _ => ite (onCtx ..) (refl t)

theorem tellSups (s : State) : s.Wakes s.tellSups :=
  (refl s).foldl fun t _ => (refl t).foldl fun u _ => ite (onCtx ..) (refl u)

end State.Wakes

/-- The state with other trap records. -/
def State.withTraps (s : State) (a b : List TrapRec) : State := { s with traps := a, fetching := b }

/-- A trap changes contexts, cores and trap records. -/
theorem State.takeTrap_eq (s : State) (c : CtxId) (cause : BitVec 8) (tval : Word) (write exec : Bool) (pages : List Word) (insn : IWord) :
    ∃ a b, (s.withTraps a b).Wakes (s.takeTrap c cause tval write exec pages insn) := by
  have hset : ∀ (x : Ctx) (a b : List TrapRec), (s.withTraps a b).Wakes ((s.setCtx c x).withTraps a b) := fun x a b => by
    obtain ⟨y, k, l, he⟩ := State.Wakes.setCtx s c x
    exact ⟨y, k, l, by rw [he]; rfl⟩
  unfold State.takeTrap
  dsimp only
  split
  · obtain ⟨y, k, l, he⟩ := State.Wakes.setCtx s c
      { s.ctx c with r := { (s.ctx c).r.trapped cause tval with pc := s.pkg.trapEntry }, st := .run, wait := .none }
    exact ⟨s.traps, s.fetching, y, k, l, he⟩
  · exact ⟨_, _, (hset _ _ _).trans (.wakeSup ..)⟩

/-! ### Events to the host (R134) -/

/-- The state with other tenants, another host port and other messages out. -/
def State.withHost (s : State) (t : SMap (Option TenantSt)) (h : HostPort) (o : List OutMsg) : State :=
  { s with tenants := t, host := h, outbox := o }

/-- Two states differ in tenants, host port and messages out alone. -/
def State.Tells (s t : State) : Prop := ∃ n h o, t = s.withHost n h o

namespace State.Tells

variable {r s t : State}

theorem refl (s : State) : s.Tells s := ⟨_, _, _, rfl⟩

/-- What does not look at tenants, host port and messages out is as before. -/
theorem keeps {β : Type} (g : State → β) (h : s.Tells t) (hg : ∀ t n h o, g (t.withHost n h o) = g t := by exact fun _ _ _ _ => rfl) :
    g t = g s := by
  obtain ⟨n, h, o, rfl⟩ := h
  exact hg ..

theorem trans (h : r.Tells s) (h' : s.Tells t) : r.Tells t := by
  obtain ⟨n, h, o, rfl⟩ := h
  obtain ⟨n', h', o', rfl⟩ := h'
  exact ⟨n', h', o', rfl⟩

theorem sameMemory (h : s.Tells t) : SameMemory s t := sameMemory_of_fields (h.keeps State.mem) (h.keeps State.fe) (h.keeps State.poison)

theorem ite {c : Prop} [Decidable c] {a b : State} (ha : r.Tells a) (hb : r.Tells b) : r.Tells (if c then a else b) := by
  split
  exacts [ha, hb]

theorem foldl {α : Type} {l : List α} {f : State → α → State} (h : r.Tells s) (hf : ∀ (t : State) (e : α), t.Tells (f t e)) : r.Tells (l.foldl f s) :=
  List.foldlRecOn (motive := fun t => r.Tells t) l f h fun t ht e _ => ht.trans (hf t e)

theorem send (s : State) (m : OutMsg) : s.Tells (s.send m) := ⟨_, _, _, rfl⟩

theorem onTenant (s : State) (n : Nat) (f : TenantSt → TenantSt) : s.Tells (s.onTenant n f) := by
  unfold State.onTenant
  split
  exacts [refl s, ⟨_, _, _, rfl⟩]

theorem onSession (s : State) (n : Nat) (f : Session → Session) : s.Tells (s.onSession n f) := by
  unfold State.onSession
  split
  exacts [⟨_, _, _, rfl⟩, refl s]

theorem emit (s : State) (n : Nat) (m : ScpMsg) (l : List EventRec) : s.Tells (s.emit n m l) := by
  unfold State.emit
  split
  exacts [refl s, (send ..).trans (onSession ..)]

theorem endSession (s : State) (n : Nat) : s.Tells (s.endSession n) := (onSession ..).trans ⟨_, _, _, rfl⟩

theorem sendOn (s : State) (n : Nat) (m : ScpMsg) (l : List EventRec) : s.Tells (s.sendOn n m l) := by
  unfold State.sendOn
  split
  exacts [refl s, ite (refl s) (ite ((emit ..).trans (endSession ..)) (emit ..))]

theorem answer (s : State) (h : CmdHead) (op st : Nat) (b : List Byte) : s.Tells (s.answer h op st b) := (sendOn ..).trans (onSession ..)

theorem sendEvents (s : State) (n : Nat) : s.Tells (s.sendEvents n) := by
  unfold State.sendEvents
  split
  · exact refl s
  · split
    exacts [refl s, (onTenant ..).foldl fun _ _ => sendOn ..]

theorem serveWaits (s : State) (n : Nat) : s.Tells (s.serveWaits n) := (refl s).foldl fun t _ => by
  dsimp only
  split
  exacts [refl t, ite (refl t) ((onTenant ..).trans (answer ..))]

theorem sendDue (s : State) (n : Nat) : s.Tells (s.sendDue n) := by
  unfold State.sendDue
  split
  exacts [refl s, ite (sendEvents ..) (refl s)]

theorem post (s : State) (n : Nat) (code : BitVec 16) (flags : BitVec 8) (cause : BitVec 32) (launch : Nat) (detail : Word) :
    s.Tells (s.post n code flags cause launch detail) := by
  unfold State.post
  split
  exacts [refl s, ((onTenant ..).trans (serveWaits ..)).trans (sendDue ..)]

theorem postAll (s : State) (code : BitVec 16) (detail : Word) : s.Tells (s.postAll code detail) := (refl s).foldl fun _ _ => post ..

theorem failover (s : State) : s.Tells s.failover := ite (refl s) (trans ⟨_, _, _, rfl⟩ (postAll ..))

end State.Tells

/-! ### Groups that are poisoned (R419) -/

/-- The same packages are lost. -/
def State.SameLosses (s t : State) : Prop := t.rcv.lost = s.rcv.lost

namespace State.SameLosses

variable {r s t : State}

theorem trans (h : r.SameLosses s) (h' : s.SameLosses t) : r.SameLosses t := Eq.trans h' h

theorem ite {c : Prop} [Decidable c] {a b : State} (ha : r.SameLosses a) (hb : r.SameLosses b) : r.SameLosses (if c then a else b) := by
  split
  exacts [ha, hb]

theorem foldl {α : Type} {l : List α} {f : State → α → State} (h : r.SameLosses s) (hf : ∀ t e, r.SameLosses t → r.SameLosses (f t e)) :
    r.SameLosses (l.foldl f s) :=
  List.foldlRecOn (motive := fun t => r.SameLosses t) l f h fun t ht e _ => hf t e ht

theorem wakes (h : r.SameLosses s) (h' : s.Wakes t) : r.SameLosses t := h.trans (h'.keeps fun t => t.rcv.lost)

theorem tells (h : r.SameLosses s) (h' : s.Tells t) : r.SameLosses t := h.trans (h'.keeps fun t => t.rcv.lost)

theorem onDie (h : r.SameLosses s) {d : Nat} {f : DieSt → DieSt} : r.SameLosses (s.onDie d f) := h

theorem setFull (h : r.SameLosses s) {w : Nat} {b : Bool} : r.SameLosses (s.setFull w b) := h

theorem onGroup (h : r.SameLosses s) {k : BitVec 32} {f : Group → Group} : r.SameLosses (s.onGroup k f) := by
  unfold State.onGroup
  split
  exacts [h, h]

theorem clearGroup (h : r.SameLosses s) {k : BitVec 32} : r.SameLosses (s.clearGroup k) := h

theorem takeTrap (h : r.SameLosses s) {c : CtxId} {cause : BitVec 8} {tval : Word} {write exec : Bool} {pages : List Word} {insn : IWord} :
    r.SameLosses (s.takeTrap c cause tval write exec pages insn) := by
  obtain ⟨a, b, hwake⟩ := s.takeTrap_eq c cause tval write exec pages insn
  have htraps : r.SameLosses (s.withTraps a b) := h
  exact htraps.wakes hwake

theorem applyWrite (h : r.SameLosses s) {loc slice pol : Nat} {b : List Byte} {f : WriteFrom} : r.SameLosses (s.applyWrite loc b slice f pol) := by
  obtain ⟨t, hstow, hwake⟩ := s.applyWrite_eq loc b slice f pol
  exact (h.trans (hstow.keeps fun t => t.rcv.lost)).wakes hwake

theorem faultProgram (h : r.SameLosses s) {d slot : Nat} {code : BitVec 8} : r.SameLosses (s.faultProgram d slot code) := by
  unfold State.faultProgram
  split
  · exact h
  · refine ite h ?_
    extract_lets loc v t u
    have ht : r.SameLosses t := h.applyWrite.setFull
    have hu : r.SameLosses u := (ht.wakes (.wakeAll ..)).onDie
    exact ite (hu.wakes (.wake ..)) hu

theorem poisonGroup (h : r.SameLosses s) {k : BitVec 32} {tell : Bool} : r.SameLosses (s.poisonGroup k tell) := by
  unfold State.poisonGroup
  split
  · exact h
  · refine ite h ?_
    extract_lets s1 s2 s3 s4
    have h3 : r.SameLosses s3 := h.onGroup.clearGroup.foldl fun t e ht => by
      extract_lets hit
      clear_value hit
      cases hit with
      | some w => exact ht.takeTrap
      | none => exact ht
    have h4 : r.SameLosses s4 := h3.foldl fun t e ht => ht.foldl fun u p hu => by
      split
      exacts [hu.faultProgram.ite hu, hu]
    exact ite (h4.tells (.post ..)) h4

theorem poisonMembers (h : r.SameLosses s) {p : BitVec 12 × Nat → Bool} : r.SameLosses (s.poisonMembers p) := h.foldl fun t e ht => by
  split
  exacts [ht.poisonGroup.ite ht, ht]

/-- Events are posted to a list of tenants. -/
theorem posts (h : r.SameLosses s) {l : List Nat} {code : BitVec 16} {flags : BitVec 8} {cause : BitVec 32} {launch : Nat} {detail : Word} :
    r.SameLosses (l.foldl (fun t n => t.post n code flags cause launch detail) s) := h.foldl fun _ _ ht => ht.tells (.post ..)

end State.SameLosses

/-- A package that is dropped is among the lost ones (R101). -/
theorem State.mem_dropPackage_lost (s : State) (g : BitVec 12) : g ∈ (s.dropPackage g).rcv.lost := by
  let r : State := { s with rcv := { s.rcv with lost := enq s.rcv.lost g } }
  have h : r.SameLosses (s.dropPackage g) := by
    unfold State.dropPackage
    exact .posts (.poisonMembers (.posts ((State.Sends.reroute _).keeps fun t => t.rcv.lost)))
  rw [h]
  exact List.mem_append_right _ (List.mem_singleton_self g)

end Sys2Proof.Machine

/-!
# Faults, votes and retirements

A lemma for each step of recovery: fault events and their counts, proposals and votes, and what retires a core or a stack (R82 to R105).
-/

namespace Sys2Proof.Machine

open Claims

section
variable {s : State} {u : FUnit} {kind : FKind}

/-! ### Fault events (R82, R83, R91) -/

theorem faultEvent_plain {l : Option Nat} (h : kind ≠ .uncorrectable ∨ l = none) : exec (.faultEvent u kind l) s = .next (s.faultEvent u kind) := by
  cases l with
  | none => cases kind <;> rfl
  | some l =>
    have hkind := h.resolve_right (by simp)
    cases kind
    case uncorrectable => exact absurd rfl hkind
    all_goals rfl

/-- Marks that are set are there. -/
theorem mem_setPoison_true {loc n w : Nat} (h : w ∈ wordsOf loc n) : w ∈ (s.setPoison loc n true).poison := by
  refine foldl_reaches (I := fun _ => True) (P := fun l => w ∈ l) h (fun _ _ _ _ => trivial) (fun l _ => ?_) (fun l x _ _ hl => ?_) trivial
  · exact mem_insNat.mpr (.inl rfl)
  · exact mem_insNat.mpr (.inr hl)

/-- An uncorrectable error in a stack stores its granule with the poison syndrome (R59, R91). -/
theorem granulePoison_poisonUnit {h l : Nat} (ho : isOwn l = true) (hs : s.stackAt l = h) :
    (s.poisonUnit (.stack h) l).granulePoison (l / 32) = true := by
  have hunit : s.poisonUnit (.stack h) l = s.poisonGranule (l / 32) := if_pos (by simp [ho, hs])
  have hbit : ∀ (v : BitVec 4), (v ||| BitVec.ofNat 4 (2 ^ (l / 32 % 4))).toNat.testBit (l / 32 % 4) = true := fun v => by
    have hlt : l / 32 % 4 < 4 := Nat.mod_lt _ (by decide)
    have hpow : 2 ^ (l / 32 % 4) < 2 ^ 4 := Nat.pow_lt_pow_right (by decide) hlt
    rw [BitVec.toNat_or, Nat.testBit_or, BitVec.toNat_ofNat, Nat.mod_eq_of_lt hpow, Nat.testBit_two_pow_self, Bool.or_true]
  rw [hunit, State.poisonGranule]
  split
  · next x hx =>
    simp only [State.granulePoison, SMap.look_put_same]
    exact hbit _
  · next hx =>
    have hunder : SMap.look none (s.setPoison (l / 32 * 32) 32 true).under (l / 32 / 4) = none := hx
    simp only [State.granulePoison, hunder]
    exact List.any_eq_true.mpr ⟨l / 32 * 32 / 8, mem_wordsOf.mpr (by omega),
      List.contains_iff_mem.mpr (mem_setPoison_true (mem_wordsOf.mpr (by omega)))⟩

/-- What a service processor keeps of a unit is of that processor and unit. -/
theorem State.countOf_key (s : State) (x : Nat) (u : FUnit) : (s.countOf x u).sp = x ∧ (s.countOf x u).unit = u := by
  unfold State.countOf
  cases h : s.rcv.counts.find? (fun e => e.sp == x && e.unit == u) with
  | none => exact ⟨rfl, rfl⟩
  | some c => simpa using List.find?_some h

theorem State.countOf_setCount_same {c : UnitCount} (h : c.count ≠ 0) : (s.setCount c).countOf c.sp c.unit = c := by
  have hgone : (without s.rcv.counts (fun e => e.sp == c.sp && e.unit == c.unit)).find? (fun e => e.sp == c.sp && e.unit == c.unit) = none :=
    List.find?_eq_none.mpr fun e he => by simpa using (mem_without.mp he).2
  simp [State.countOf, State.setCount, h, enq, List.find?_append, hgone]

theorem State.countOf_setCount_other {c : UnitCount} {x : Nat} (h : x ≠ c.sp) (u : FUnit) : (s.setCount c).countOf x u = s.countOf x u := by
  have hkeep : (without s.rcv.counts (fun e => e.sp == c.sp && e.unit == c.unit)).find? (fun e => e.sp == x && e.unit == u)
      = s.rcv.counts.find? (fun e => e.sp == x && e.unit == u) := by
    rw [without, List.find?_filter]
    refine congrArg (List.find? · _) (funext fun e => ?_)
    by_cases hx : e.sp = x
    · rw [hx]
      simp [h, beq_eq_decide]
    · simp [hx]
  unfold State.countOf State.setCount
  dsimp only
  split
  · rw [hkeep]
  · rw [enq, List.find?_append, hkeep]
    simp [h.symm]

/-- A counted event in a window that is open: one more is counted, and at the threshold the fault is lasting (R83). -/
theorem UnitCount.hear_in_window {c : UnitCount} {k : FKind} {t thresh window : Nat} (hk : k.counts (unitClass c.unit) = true) (hc : c.count ≠ 0)
    (hw : t - c.start < window) : c.hear k t thresh window =
      (⟨c.sp, c.unit, c.start, if thresh ≤ c.count + 1 then 0 else c.count + 1, enq c.events (k, t)⟩, decide (thresh ≤ c.count + 1)) := by
  have hfresh : (decide (c.count = 0) || decide (window ≤ t - c.start)) = false := by simp [hc, hw]
  unfold UnitCount.hear
  simp only [hk, Bool.not_true, Bool.false_eq_true, if_false, hfresh]
  split <;> simp [*]

/-- The first of the two service processors hears of an event. -/
def State.heard (s : State) (u : FUnit) (k : FKind) (x : Nat) : UnitCount × Bool :=
  (s.countOf x u).hear k s.cycle.toNat (s.faultParams u).1 (s.faultParams u).2

theorem State.countEvent_two (hsp : s.rcv.sps = [0, 1]) : s.countEvent u kind =
    (let s1 := s.setCount (s.heard u kind 0).1
     (s1.setCount (s1.heard u kind 1).1, (s.heard u kind 0).2 || (s1.heard u kind 1).2)) := by
  unfold State.countEvent
  rw [hsp]
  rfl

/-- A counted event is of no kind that a silent unit gives (R84). -/
theorem FKind.counts.not_silent {k : FKind} {c : Nat} (h : k.counts c = true) : (k == .noResponse || k == .silent) = false := by
  cases k
  case noResponse => exact absurd h Bool.false_ne_true
  case silent => exact absurd h Bool.false_ne_true
  all_goals rfl

section
variable (hk : kind.counts (unitClass u) = true)
include hk

theorem State.heard_counted {x : Nat} (hc : (s.countOf x u).count ≠ 0) (hw : s.cycle.toNat - (s.countOf x u).start < (s.faultParams u).2) :
    s.heard u kind x = (⟨x, u, (s.countOf x u).start,
      if (s.faultParams u).1 ≤ (s.countOf x u).count + 1 then 0 else (s.countOf x u).count + 1,
      enq (s.countOf x u).events (kind, s.cycle.toNat)⟩, decide ((s.faultParams u).1 ≤ (s.countOf x u).count + 1)) := by
  obtain ⟨hsp, hunit⟩ := s.countOf_key x u
  rw [State.heard, UnitCount.hear_in_window (by rw [hunit]; exact hk) hc hw, hsp, hunit]

/-- What both service processors keep of a unit after an event that both count in an open window (R82, R83). -/
theorem State.countEvent_below (hsp : s.rcv.sps = [0, 1])
    (h : ∀ x, x < 2 → (s.countOf x u).count ≠ 0 ∧ s.cycle.toNat - (s.countOf x u).start < (s.faultParams u).2
      ∧ (s.countOf x u).count + 1 < (s.faultParams u).1) :
    ∃ t, s.countEvent u kind = (t, false) ∧ SameMemory s t
      ∧ ∀ x, x < 2 → (t.countOf x u).count = (s.countOf x u).count + 1 ∧ (t.countOf x u).start = (s.countOf x u).start := by
  have hheard : ∀ t : State, ∀ x, x < 2 → t.countOf x u = s.countOf x u → t.cycle = s.cycle → t.rcv.params = s.rcv.params →
      t.heard u kind x = (⟨x, u, (s.countOf x u).start, (s.countOf x u).count + 1, enq (s.countOf x u).events (kind, s.cycle.toNat)⟩, false) := by
    intro t x hx hcount hcycle hparams
    obtain ⟨hc, hw, hn⟩ := h x hx
    have hlim : t.faultParams u = s.faultParams u := by rw [State.faultParams, hparams]; rfl
    rw [State.heard_counted hk (hcount ▸ hc) (by rw [hcount, hcycle, hlim]; exact hw), hcount, hcycle, hlim, if_neg (by omega),
      decide_eq_false (by omega)]
  have h0 := hheard s 0 (by decide) rfl rfl rfl
  let c (x : Nat) : UnitCount := ⟨x, u, (s.countOf x u).start, (s.countOf x u).count + 1, enq (s.countOf x u).events (kind, s.cycle.toNat)⟩
  have h1 := hheard (s.setCount (c 0)) 1 (by decide) (State.countOf_setCount_other (c := c 0) Nat.one_ne_zero u) rfl rfl
  refine ⟨(s.setCount (c 0)).setCount (c 1), ?_, sameMemory_of_fields, fun x hx => ?_⟩
  · rw [State.countEvent_two hsp, h0]
    simp only [c] at h1
    simp only [h1]
    rfl
  · have hread : ((s.setCount (c 0)).setCount (c 1)).countOf x u = c x := by
      match x, hx with
      | 0, _ =>
        rw [State.countOf_setCount_other (c := c 1) Nat.zero_ne_one]
        exact State.countOf_setCount_same (c := c 0) (Nat.succ_ne_zero _)
      | 1, _ => exact State.countOf_setCount_same (c := c 1) (Nat.succ_ne_zero _)
    rw [hread]
    exact ⟨rfl, rfl⟩

theorem faultEvent_counted_below (hsp : s.rcv.sps = [0, 1])
    (h : ∀ x, x < 2 → (s.countOf x u).count ≠ 0 ∧ s.cycle.toNat - (s.countOf x u).start < (s.faultParams u).2
      ∧ (s.countOf x u).count + 1 < (s.faultParams u).1) :
    Ends (.faultEvent u kind none) s (fun t => SameMemory s t ∧ ∀ x, x < 2 →
      (t.countOf x u).count = (s.countOf x u).count + 1 ∧ (t.countOf x u).start = (s.countOf x u).start) := by
  obtain ⟨t, ht, hmem, hcounts⟩ := State.countEvent_below (s := s.tellFault u kind) hk hsp h
  have hevent : s.faultEvent u kind = t := by
    rw [State.faultEvent, ht]
    rfl
  exact ⟨t, hevent ▸ faultEvent_plain (.inr rfl), hmem, hcounts⟩

/-- At the threshold the fault is lasting (R83, R84). -/
theorem faultEvent_counted_lasting (hsp : s.rcv.sps = [0, 1]) (hc : (s.countOf 0 u).count ≠ 0)
    (hw : s.cycle.toNat - (s.countOf 0 u).start < (s.faultParams u).2) (hn : (s.faultParams u).1 ≤ (s.countOf 0 u).count + 1) :
    exec (.faultEvent u kind none) s = .next (((s.tellFault u kind).countEvent u kind).1.lasting u false) := by
  have hlasting : ((s.tellFault u kind).countEvent u kind).2 = true := by
    have h0 := State.heard_counted (s := s.tellFault u kind) hk hc hw
    rw [State.countEvent_two (s := s.tellFault u kind) hsp, h0, show (s.tellFault u kind).countOf 0 u = s.countOf 0 u from rfl,
      show (s.tellFault u kind).faultParams u = s.faultParams u from rfl, decide_eq_true hn]
    rfl
  rw [faultEvent_plain (.inr rfl), State.faultEvent, if_pos hlasting, FKind.counts.not_silent hk]

end

/-! ### Timing events (R82, R85, R88, R89) -/

theorem State.die_tellFault (s : State) (u : FUnit) (k : FKind) (d : Nat) : (s.tellFault u k).die d = s.die d := rfl

theorem timingDetectorReplay_first (x : CtxId) : Ends (.timingDetectorReplay x false) s (fun t =>
    (t.die x.die).timingEvents = (s.die x.die).timingEvents + 1 ∧ SameMemory s t) := by
  refine ⟨_, rfl, ?_, sameMemory_of_fields⟩
  rw [State.die_tellFault, State.die_onDie_same]

/-- The state in which a replay that is itself flagged has been counted against its core. -/
def State.flagged (s : State) (x : CtxId) : State :=
  let a := s.onDie x.die (fun y => { y with timingEvents := y.timingEvents + 1 })
  a.faultEvent (a.coreUnit x.die x.core) .timing

theorem timingDetectorReplay_again (x : CtxId) :
    let b := s.flagged x
    let e := if (b.ctx x).wait = .retry .matrix then b.dropOp x else b
    ((b.ctx x).st ≠ .run → (b.ctx x).st ≠ .wait → exec (.timingDetectorReplay x true) s = .next b)
    ∧ ((b.ctx x).st = .run ∨ (b.ctx x).st = .wait →
      ((e.domain ((b.ctx x).r.dom.setWidth 32)).isSome = true →
        exec (.timingDetectorReplay x true) s = .next (e.domainFault ((b.ctx x).r.dom.setWidth 32) 0x08#8 0#64))
      ∧ (e.domain ((b.ctx x).r.dom.setWidth 32) = none →
        exec (.timingDetectorReplay x true) s = .next ((e.leaveWaits x).takeTrap x 0x08#8 (b.ctx x).r.pc false false [] 0#32))) := by
  intro b e
  have hexec : exec (.timingDetectorReplay x true) s = if (b.ctx x).st ≠ .run ∧ (b.ctx x).st ≠ .wait then .next b
      else if (e.domain ((b.ctx x).r.dom.setWidth 32)).isSome then .next (e.domainFault ((b.ctx x).r.dom.setWidth 32) 0x08#8 0#64)
      else .next ((e.leaveWaits x).takeTrap x 0x08#8 (b.ctx x).r.pc false false [] 0#32) := rfl
  refine ⟨fun h1 h2 => hexec.trans (if_pos ⟨h1, h2⟩), fun h => ⟨fun hd => ?_, fun hd => ?_⟩⟩
  all_goals rw [hexec, if_neg fun ⟨h1, h2⟩ => h.elim h1 h2]
  · rw [if_pos hd]
  · rw [if_neg (by simp [hd])]

end

end Sys2Proof.Machine

/-!
# Proposals and votes

A lemma for each step of the vote on a retirement (R102 to R105).
-/

namespace Sys2Proof.Machine

open Claims

section
variable {s : State} {u : FUnit}

/-! ### Retirements that commit (R102, R104) -/

theorem State.retired_record (s : State) (u : FUnit) : (s.record u).retired u = true := by
  have hmem : (if s.pkg.fuse0.repair.contains u then s.pkg.fuse0.repair else enq s.pkg.fuse0.repair u).contains u = true := by
    split
    · assumption
    · simp [enq]
  exact Bool.or_eq_true_iff.mpr (.inl hmem)

/-- A unit is retired, its proposal has ended, and memory is as before. -/
structure State.Retires (s : State) (u : FUnit) (t : State) : Prop where
  retired : t.retired u = true
  proposals : t.rcv.proposals = without s.rcv.proposals (fun q => q.unit == u)
  memory : SameMemory s t

theorem State.Retires.tells {t v : State} (h : s.Retires u t) (h' : t.Tells v) : s.Retires u v where
  retired := (h'.keeps fun t => t.retired u).trans h.retired
  proposals := (h'.keeps fun t => t.rcv.proposals).trans h.proposals
  memory := sameMemory_trans h.memory h'.sameMemory

theorem State.retires_tellSups (s : State) (u : FUnit) : s.Retires u ((s.endProposal u).record u).tellSups := by
  have hwake := State.Wakes.tellSups ((s.endProposal u).record u)
  refine ⟨?_, ?_, ?_⟩
  · exact (hwake.keeps fun t => t.retired u).trans (State.retired_record ..)
  · exact hwake.keeps fun t => t.rcv.proposals
  · exact sameMemory_trans sameMemory_of_fields hwake.sameMemory

theorem State.retires_commitRetirement (s : State) (u : FUnit) : s.Retires u (s.commitRetirement u) := by
  have h := s.retires_tellSups u
  unfold State.commitRetirement
  generalize ((s.endProposal u).record u).tellSups = t at h ⊢
  cases u with
  | stack k => exact ⟨h.retired, h.proposals, h.memory⟩
  | serviceProcessor x =>
    have hwork (t : State) (ht : s.Retires (.serviceProcessor x) t) (l : List Nat) :
        s.Retires (.serviceProcessor x) { t with rcv := { t.rcv with sps := l } } := ⟨ht.retired, ht.proposals, ht.memory⟩
    dsimp only
    split
    · exact (hwork _ h _).tells (.failover _)
    · exact hwork _ h _
  | hostController x =>
    dsimp only
    split
    · exact h.tells (.failover _)
    · exact h
  | dieShared x =>
    dsimp only
    split
    · exact h.tells (.send ..)
    · exact h
  | _ => exact h

/-! ### Proposals that go to the peers (R102, R103) -/

theorem State.tells_peerBallot {q : Proposal} (hq : s.proposal u = some q) (hr : s.reach ≠ []) (hn : s.nearestTo s.pkgid ≠ []) :
    (s.onProposal u (fun x => { x with peer := true })).Tells (s.peerBallot u) := by
  unfold State.peerBallot
  rw [hq]
  dsimp only
  rw [if_neg (by simp [hr, hn])]
  exact (State.Tells.refl _).foldl fun _ _ => .send ..

/-- The proposal that goes to the peers is pending there, with the local answer it has. -/
theorem State.peerBallot_pending {q : Proposal} (hq : s.proposal u = some q) (hr : s.reach ≠ []) (hn : s.nearestTo s.pkgid ≠ []) :
    (s.peerBallot u).retired u = s.retired u ∧ ∃ x ∈ (s.peerBallot u).rcv.proposals, x.unit = u ∧ x.peer = true ∧ x.answer = q.answer := by
  have h := State.tells_peerBallot hq hr hn
  have hunit : q.unit = u := by simpa using List.find?_some hq
  refine ⟨h.keeps fun t => t.retired u, { q with peer := true }, ?_, hunit, rfl, rfl⟩
  rw [h.keeps fun t => t.rcv.proposals]
  exact List.mem_map.mpr ⟨q, List.mem_of_find?_eq_some hq, if_pos hunit⟩

/-! ### A retirement is proposed (R102) -/

/-- The proposal of a service processor for a unit, before any answer. -/
def State.newProposal (s : State) (u : FUnit) (b : Bool) (k : Nat) : Proposal :=
  { unit := u, silent := b, proposer := k, events := (s.countOf k u).events, answer := none, peer := false, abstained := [] }

/-- The state with the first proposal. -/
def State.proposed (s : State) (u : FUnit) (b : Bool) (k : Nat) : State :=
  { s with rcv := { s.rcv with proposals := [s.newProposal u b k],
                               silent := if b && !s.rcv.silent.contains u then enq s.rcv.silent u else s.rcv.silent,
                               fenced := if b && !s.rcv.fenced.contains u then enq s.rcv.fenced u else s.rcv.fenced } }

theorem State.propose_first (hchange : s.fab.change = none) (hnone : s.rcv.proposals = []) (hret : s.retired u = false) (b : Bool) (k : Nat) :
    s.propose u b k = s.proposed u b k := by
  unfold State.propose
  rw [hchange, hnone, hret]
  rfl

theorem State.proposal_proposed (s : State) (u : FUnit) (b : Bool) (k : Nat) : (s.proposed u b k).proposal u = some (s.newProposal u b k) :=
  List.find?_cons_of_pos (beq_self_eq_true u)

section
variable (hchange : s.fab.change = none) (hnone : s.rcv.proposals = []) (hret : s.retired u = false) (hsp : s.rcv.sps = [0, 1]) (b : Bool)
  {k : Nat} (hk : k < 2)
include hchange hnone hret hsp hk

theorem retirementProposal_eq (answers : Bool) : exec (.retirementProposal u b k answers) s = (if !answers then .next (s.proposed u b k)
    else if s.meets u (s.countOf (1 - k) u).events then
      .next (((s.proposed u b k).onProposal u (fun q => { q with answer := some true })).commitRetirement u)
    else .next (((s.proposed u b k).onProposal u (fun q => { q with answer := some false })).peerBallot u)) := by
  have hsps : ¬ (s.proposed u b k).rcv.sps.length < 2 := by
    show ¬ s.rcv.sps.length < 2
    rw [hsp]
    decide
  rw [Laws.exec_retirementProposal, execRetirementProposal, Nat.mod_eq_of_lt hk, State.propose_first hchange hnone hret]
  rw [State.proposal_proposed]
  dsimp only
  rw [if_neg (by exact Bool.false_ne_true), if_neg hsps]
  rfl

theorem retirementProposal_spec :
    let evidence := (s.countOf (1 - k) u).events
    Ends (.retirementProposal u b k false) s (fun t => SameMemory s t ∧ ∃ q ∈ t.rcv.proposals, q.unit = u ∧ q.silent = b ∧ q.peer = false
      ∧ q.proposer = k ∧ q.events = (s.countOf k u).events)
    ∧ (s.meets u evidence = true → Ends (.retirementProposal u b k true) s (fun t =>
        t.retired u = true ∧ t.rcv.proposals = [] ∧ SameMemory s t))
    ∧ (s.meets u evidence = false → s.reach ≠ [] → s.nearestTo s.pkgid ≠ [] → Ends (.retirementProposal u b k true) s (fun t =>
        t.retired u = false ∧ ∃ q ∈ t.rcv.proposals, q.unit = u ∧ q.peer = true ∧ q.answer = some false)) := by
  have hexec := retirementProposal_eq hchange hnone hret hsp b hk
  have hanswered (a : Bool) : ((s.proposed u b k).onProposal u (fun q => { q with answer := some a })).rcv.proposals =
      [{ s.newProposal u b k with answer := some a }] := by
    show [if u = u then _ else _] = _
    rw [if_pos rfl]
  refine ⟨?_, fun h => ?_, fun h hr hn => ?_⟩
  · exact ⟨_, hexec false, sameMemory_of_fields, _, List.mem_singleton_self _, rfl, rfl, rfl, rfl, rfl⟩
  · have hcommit := State.retires_commitRetirement ((s.proposed u b k).onProposal u (fun q => { q with answer := some true })) u
    refine ⟨_, ((hexec true).trans (if_neg (by decide))).trans (if_pos h), hcommit.retired, ?_, sameMemory_trans sameMemory_of_fields hcommit.memory⟩
    rw [hcommit.proposals, hanswered]
    simp [without, State.newProposal]
  · have hask : ((s.proposed u b k).onProposal u (fun q => { q with answer := some false })).proposal u =
        some { s.newProposal u b k with answer := some false } := by
      rw [State.proposal, hanswered]
      exact List.find?_cons_of_pos (beq_self_eq_true u)
    obtain ⟨hkept, x, hx, hunit, hpeer, hanswer⟩ := State.peerBallot_pending hask hr hn
    exact ⟨_, ((hexec true).trans (if_neg (by decide))).trans (if_neg (ne_true_of_eq_false h)), hkept.trans hret, x, hx, hunit, hpeer, hanswer⟩

end

/-! ### Answers and votes (R102, R103) -/

/-- RETIRE outnumbers KEEP where one pair votes RETIRE and the other does not vote KEEP (R103). -/
theorem outvotes_iff (a b : Verdict) : outvotes a b = true ↔ (a = .retire ∧ b ≠ .keep) ∨ (b = .retire ∧ a ≠ .keep) := by
  cases a <;> cases b <;> decide

section
variable {q : Proposal} (hq : s.rcv.proposals.find? (fun x => x.unit == u) = some q)
include hq

theorem voteAnswerTimeout_alone (hpeer : q.peer = false) (hr : s.reach = []) : exec (.voteAnswerTimeout u) s = .next (s.keepUnit u false) := by
  have hballot : s.peerBallot u = s.keepUnit u false := by
    unfold State.peerBallot
    rw [State.proposal, hq]
    dsimp only
    rw [if_pos (by simp [hr])]
  rw [Laws.exec_voteAnswerTimeout, execVoteAnswerTimeout, State.proposal, hq]
  dsimp only
  rw [hpeer, if_neg Bool.false_ne_true, hballot]

theorem voteAnswerTimeout_peers (hpeer : q.peer = false) (hr : s.reach ≠ []) (hn : s.nearestTo s.pkgid ≠ []) :
    Ends (.voteAnswerTimeout u) s (fun t => ∃ x ∈ t.rcv.proposals, x.unit = u ∧ x.peer = true) := by
  obtain ⟨-, x, hx, hunit, hpeer', -⟩ := State.peerBallot_pending hq hr hn
  refine ⟨s.peerBallot u, ?_, x, hx, hunit, hpeer'⟩
  rw [Laws.exec_voteAnswerTimeout, execVoteAnswerTimeout, State.proposal, hq]
  dsimp only
  rw [hpeer, if_neg Bool.false_ne_true]

theorem peerVote_cast (hpeer : q.peer = true) (hab : q.abstained = []) (a b : Verdict) : exec (.peerVote (.cast u a b)) s = .next
    (if (a = .retire ∧ b ≠ .keep) ∨ (b = .retire ∧ a ≠ .keep) then s.commitRetirement u else s.keepUnit u true) := by
  rw [Laws.exec_peerVote, execPeerVote, State.proposal, hq]
  dsimp only
  rw [hpeer, hab]
  simp only [List.contains_nil, Bool.not_true, Bool.false_eq_true, if_false, ← outvotes_iff]

theorem peerVoteTimeout_first (hpeer : q.peer = true) (hab : q.abstained = []) (b : Bool) :
    exec (.peerVoteTimeout u b) s = .next (s.onProposal u (fun x => { x with abstained := [if b then 0 else 1] })) := by
  rw [Laws.exec_peerVoteTimeout, execPeerVoteTimeout, State.proposal, hq]
  dsimp only
  rw [hpeer, hab]
  rfl

theorem peerVoteTimeout_second {b : Bool} (hpeer : q.peer = true) (hab : q.abstained = [if b then 1 else 0]) :
    exec (.peerVoteTimeout u b) s = .next (s.keepUnit u true) := by
  have hboth : (insNat [if b then 1 else 0] (if b then 0 else 1)).length = 2 := by cases b <;> rfl
  rw [Laws.exec_peerVoteTimeout, execPeerVoteTimeout, State.proposal, hq]
  dsimp only
  rw [hpeer, hab, if_neg (by decide), if_pos hboth]

end

end

end Sys2Proof.Machine

/-!
# Cores and stacks that retire

A lemma for each step that replaces a core or a stack (R93 to R97).
-/

namespace Sys2Proof.Machine

open Claims

/-! ### Lines that leave the L2 slices -/

/-- Every line of a list is one of another, with other sectors. -/
def FromLines (l m : List L2Line) : Prop := ∀ y ∈ m, ∃ x ∈ l, x.line = y.line ∧ x.slice = y.slice

theorem FromLines.refl (l : List L2Line) : FromLines l l := fun y hy => ⟨y, hy, rfl, rfl⟩

theorem FromLines.trans {l m n : List L2Line} (h : FromLines l m) (h' : FromLines m n) : FromLines l n := fun y hy => by
  obtain ⟨x, hx, hline, hslice⟩ := h' y hy
  obtain ⟨w, hw, hline', hslice'⟩ := h x hx
  exact ⟨w, hw, hline'.trans hline, hslice'.trans hslice⟩

theorem FromLines.without (l : List L2Line) (p : L2Line → Bool) : FromLines l (without l p) := fun y hy => ⟨y, (mem_without.mp hy).1, rfl, rfl⟩

/-- No die's slices have a line that they did not have. -/
def State.Unfills (s t : State) : Prop := ∀ d, FromLines (s.die d).l2 (t.die d).l2

namespace State.Unfills

variable {r s t : State}

theorem refl (s : State) : s.Unfills s := fun _ => .refl _

theorem trans (h : r.Unfills s) (h' : s.Unfills t) : r.Unfills t := fun d => (h d).trans (h' d)

theorem ite {c : Prop} [Decidable c] {a b : State} (ha : r.Unfills a) (hb : r.Unfills b) : r.Unfills (if c then a else b) := by
  split
  exacts [ha, hb]

theorem foldl {α : Type} {l : List α} {f : State → α → State} (h : r.Unfills s) (hf : ∀ t e, r.Unfills t → r.Unfills (f t e)) :
    r.Unfills (l.foldl f s) :=
  List.foldlRecOn (motive := fun t => r.Unfills t) l f h fun t ht e _ => hf t e ht

theorem rewrites (h : r.Unfills s) (h' : s.Rewrites t) : r.Unfills t := fun d => by
  rw [h'.keeps fun t => t.die d]
  exact h d

theorem send (h : r.Unfills s) {m : OutMsg} : r.Unfills (s.send m) := h

theorem onStack (h : r.Unfills s) {k : Nat} {f : StackSt → StackSt} : r.Unfills (s.onStack k f) := h

theorem onDie (h : r.Unfills s) {d : Nat} {f : DieSt → DieSt} (hf : ∀ t, FromLines (DieSt.l2 t) (f t).l2) : r.Unfills (s.onDie d f) :=
  h.trans fun e => by
    by_cases he : e = d
    · rw [he, State.die_onDie_same]
      exact hf _
    · rw [State.die_onDie_other _ _ he]
      exact .refl _

theorem onDomain (h : r.Unfills s) {i : BitVec 32} {f : DomRec → DomRec} : r.Unfills (s.onDomain i f) := by
  unfold State.onDomain
  split
  exacts [h, h.onDie fun _ => .refl _]

theorem toDram (h : r.Unfills s) {k line : Nat} {m : BitVec 4} : r.Unfills (s.toDram k line m) :=
  h.ite (h.onStack.foldl fun _ _ ht => ht.rewrites (.dropUnder ..))

theorem ocWriteBack (h : r.Unfills s) {k line : Nat} {skip : BitVec 4} : r.Unfills (s.ocWriteBack k line skip) := by
  unfold State.ocWriteBack
  split
  exacts [h, h.onStack.toDram.foldl fun _ _ ht => ht.rewrites (.settleSector ..)]

theorem ocFill (h : r.Unfills s) {k line : Nat} {dirty : BitVec 4} : r.Unfills (s.ocFill k line dirty) := by
  unfold State.ocFill
  refine h.toDram.ite (onStack ?_)
  split
  exacts [h.onStack.ocWriteBack.ite h.onStack, h.onStack]

theorem stitchDelta (h : r.Unfills s) {k slice line : Nat} {m : BitVec 4} {dom : BitVec 32} {old new : List Byte} :
    r.Unfills (s.stitchDelta k slice line m dom old new) := by
  unfold State.stitchDelta
  dsimp only
  split
  exacts [h.toDram.onDie fun _ => .refl _, h]

theorem stitchWriteBack (h : r.Unfills s) {slice line : Nat} {m : BitVec 4} {dom : BitVec 32} : r.Unfills (s.stitchWriteBack slice line m dom) :=
  ite h.onDomain.onStack.send h.onDomain.stitchDelta

theorem l2WriteBack (h : r.Unfills s) {d : Nat} {x : L2Line} {m : BitVec 4} : r.Unfills (s.l2WriteBack d x m) := by
  refine onDie ?_ fun t y hy => ?_
  · split
    exacts [h.foldl fun _ _ ht => ht.stitchWriteBack, h.toDram]
  · obtain ⟨z, hz, rfl⟩ := List.mem_map.mp hy
    refine ⟨z, hz, ?_⟩
    split <;> exact ⟨rfl, rfl⟩

theorem dropClean (h : r.Unfills s) {line : Nat} {dirty : BitVec 4} : r.Unfills (s.dropClean line dirty) :=
  h.foldl fun _ _ ht => ht.rewrites (.settleSector ..)

theorem l2Evict (h : r.Unfills s) {d : Nat} {x : L2Line} : r.Unfills (s.l2Evict d x) :=
  (h.ocFill.ite h.l2WriteBack.dropClean).onDie fun t => FromLines.without t.l2 _

theorem l2Drain (h : r.Unfills s) {d : Nat} {slice : Option Nat} : r.Unfills (s.l2Drain d slice) := h.foldl fun _ _ ht => ht.l2Evict

end State.Unfills

/-- A line that is evicted is held no more (R69). -/
theorem State.line_ne_of_l2Evict {s : State} {d : Nat} {x y : L2Line} (hy : y ∈ ((s.l2Evict d x).die d).l2) : y.line ≠ x.line := by
  unfold State.l2Evict State.setL2 at hy
  rw [State.die_onDie_same] at hy
  simpa using (mem_without.mp hy).2

/-- A slice that is drained holds no line (R93). -/
theorem State.slice_ne_of_l2Drain {s : State} {d c : Nat} {y : L2Line} (hy : y ∈ ((s.l2Drain d (some c)).die d).l2) : y.slice ≠ c := fun hc => by
  obtain ⟨x, hx, hline, hslice⟩ := (State.Unfills.refl s).l2Drain d y hy
  have hmine : x ∈ (s.die d).l2.filter (fun z => z.slice == c) := List.mem_filter.mpr ⟨hx, by simp [hslice, hc]⟩
  have hgone : ∀ z ∈ ((s.l2Drain d (some c)).die d).l2, z.line ≠ x.line := by
    refine foldl_reaches (I := fun _ => True) (P := fun t => ∀ z ∈ (State.die t d).l2, z.line ≠ x.line) hmine (fun _ _ _ _ => trivial)
      (fun t _ z hz => State.line_ne_of_l2Evict hz) (fun t e _ _ ht z hz => ?_) trivial
    obtain ⟨w, hw, hwline, -⟩ := (State.Unfills.refl t).l2Evict d z hz
    rw [← hwline]
    exact ht w hw
  exact hgone y hy hline.symm

/-! ### Retirement of a core (R93, R94) -/

section
variable {s : State} {d c x : Nat}

/-- After the map of a die's cores has changed, the logical number is the spare's (R16). -/
theorem State.physCore_setCore (hc : c < 64) : (s.setCore d c x).physCore d c = x := by
  have hdie : (s.setCore d c x).physDie d = s.physDie d := rfl
  rw [State.physCore, hdie, State.pdie, State.setCore, State.onPDie, SMap.look_alter_same]
  simp [PDie.core, hc]

section
variable (hd : d < 16) (hc : c < 64) (hret : s.retired (s.coreUnit d c) = true) (hspare : s.spareCore d x = true)
include hd hc hret hspare

theorem gracefulCoreRetirement_spec (hsilent : s.rcv.silent.contains (s.coreUnit d c) = false) :
    Ends (.gracefulCoreRetirement d c x) s (fun t => t.physCore d c = x ∧ SameBytes s t ∧ (∀ y, t.ctx y = s.ctx y)
      ∧ ∀ y ∈ (t.die d).l2, y.slice ≠ c) := by
  have hstow := (State.Stows.refl s).l2Drain (d := d) (slice := some c)
  have hsettle : s.Settles (s.l2Drain d (some c)) := (State.Settles.refl s).foldl fun _ _ ht => ht.l2Evict
  refine ⟨(s.l2Drain d (some c)).setCore d c x, ?_, State.physCore_setCore hc, hsettle.sameBytes, fun y => ?_, fun y hy => State.slice_ne_of_l2Drain hy⟩
  · rw [Laws.exec_gracefulCoreRetirement, execGracefulCoreRetirement, if_neg]
    simp only [hret, hsilent, hspare, Nat.not_le.mpr hd, Nat.not_le.mpr hc]
    decide
  · exact hstow.keeps fun t => t.ctx y

theorem abruptCoreRetirement_spec (hsilent : s.rcv.silent.contains (s.coreUnit d c) = true) : exec (.abruptCoreRetirement d c x) s = .next
    (((((s.setCore d c x).loseWork d (· == c) false).loseData (s.dirtyPage d (some c))).l2Lose d (some c)).unfence (s.coreUnit d c)) := by
  rw [Laws.exec_abruptCoreRetirement, execAbruptCoreRetirement, if_neg]
  simp only [hret, hsilent, hspare, Nat.not_le.mpr hd, Nat.not_le.mpr hc]
  decide

end

end

/-! ### Retirement of a stack (R97) -/

section
variable {s : State} {d x : Nat} {a : Bool}

theorem stackRetirement_spec (hd : d < 32) (hret : s.retired (.stack (s.physStack d)) = true)
    (ha : a = !s.rcv.silent.contains (.stack (s.physStack d))) (hchange : s.fab.change = none) :
    let h := s.physStack d
    let e : BitVec 32 := 0x80000000#32 ||| (s.pkgid.setWidth 32 <<< 12) ||| BitVec.ofNat 32 x
    let m : MapChange := { diemap := [], stkmap := [(d, e)], guest := [], apkg := none, loads := [] }
    let left := (s.stack h).oc.foldl (fun t y => t.ocDiscard h y.1) s
    (s.pkg.spareStacks = [] → s.pkgid ∉ s.rcv.lost → exec (.stackRetirement d x a) s = .next s.losePackage)
    ∧ (s.pkg.spareStacks.contains x = true → a = false → exec (.stackRetirement d x a) s =
        .next (((left.writeMaps m).moveStack d h x).resendStack (left.fab.pending.filter (fun r => r.packet.baseForm && decide (stackOf r.packet.pa = d)))))
    ∧ (s.pkg.spareStacks.contains x = true → a = true → ∃ v : State, v = (((s.onStack h (fun t => { t with ocEn := false })).stack h).oc.foldl
          (fun t y => t.ocWriteBack h y.1 0#4) (s.onStack h (fun t => { t with ocEn := false }))).changeStacks m true
        ∧ exec (.stackRetirement d x a) s = .next (if v.physStack d = x then v.moveStack d h x else v)) := by
  have hdue : ¬ (decide (32 ≤ d) || !s.retired (.stack (s.physStack d)) || a == s.rcv.silent.contains (.stack (s.physStack d))
      || s.fab.change.isSome) = true := by
    rw [hret, ha, hchange, decide_eq_false (Nat.not_le.mpr hd)]
    cases s.rcv.silent.contains (.stack (s.physStack d)) <;> decide
  have hspares : s.pkg.spareStacks.contains x = true → ¬ s.pkg.spareStacks.isEmpty = true := by
    intro h he
    rw [List.isEmpty_iff.mp he] at h
    exact absurd h (by simp)
  intro h e m left
  rw [Laws.exec_stackRetirement, execStackRetirement, if_neg hdue]
  refine ⟨fun hnone hlost => ?_, fun hx hsilent => ?_, fun hx hanswers => ?_⟩
  · rw [if_pos (List.isEmpty_iff.mpr hnone), if_neg (by simpa using hlost)]
  · rw [if_neg (hspares hx), if_neg (by rw [hx]; decide), hsilent]
    rfl
  · rw [if_neg (hspares hx), if_neg (by rw [hx]; decide), hanswers]
    exact ⟨_, rfl, rfl⟩

/-! ### A stack that has moved (R95, R97) -/

/-- Where no packet is parked none goes on. -/
theorem State.unpark_of_none (h : s.fab.parked = []) : s.unpark = { s with fab := { s.fab with parked := [] } } := by
  unfold State.unpark
  rw [h]
  rfl

theorem State.unfence_of_none (h : s.fab.parked = []) (u : FUnit) :
    ∃ t : State, t.hbm = s.hbm ∧ t.pkg = s.pkg ∧ t.fab.parked = s.fab.parked ∧ t.Wakes (s.unfence u) := by
  unfold State.unfence
  extract_lets v t
  rw [State.unpark_of_none (s := t) h]
  exact ⟨{ t with fab := { t.fab with parked := [] } }, rfl, rfl, h.symm, .wakeAll ..⟩

/-- Between two states the stacks differ in rows, overflow caches and held writes alone, and the package and what is parked are as before. -/
structure State.Restacks (s t : State) : Prop where
  stack : ∀ k, (s.stack k).Restocks (t.stack k)
  pkg : t.pkg = s.pkg
  parked : t.fab.parked = s.fab.parked

namespace State.Restacks

variable {r s t : State}

theorem refl (s : State) : s.Restacks s := ⟨fun _ => .refl _, rfl, rfl⟩

theorem trans (h : r.Restacks s) (h' : s.Restacks t) : r.Restacks t :=
  ⟨fun k => (h.stack k).trans (h'.stack k), h'.pkg.trans h.pkg, h'.parked.trans h.parked⟩

theorem foldl {α : Type} {l : List α} {f : State → α → State} (h : r.Restacks s) (hf : ∀ t e, r.Restacks t → r.Restacks (f t e)) :
    r.Restacks (l.foldl f s) :=
  List.foldlRecOn (motive := fun t => r.Restacks t) l f h fun t ht e _ => hf t e ht

theorem of_fields (hhbm : t.hbm = s.hbm) (hpkg : t.pkg = s.pkg) (hparked : t.fab.parked = s.fab.parked) : s.Restacks t :=
  ⟨fun k => by rw [State.stack, State.stack, hhbm]; exact .refl _, hpkg, hparked⟩

theorem stows (h : r.Restacks s) (h' : s.Stows t) : r.Restacks t := h.trans ⟨h'.stack, h'.keeps State.pkg, h'.keeps fun t => t.fab.parked⟩

theorem wakes (h : r.Restacks s) (h' : s.Wakes t) : r.Restacks t :=
  h.trans (of_fields (h'.keeps State.hbm) (h'.keeps State.pkg) (h'.keeps fun t => t.fab.parked))

theorem tells (h : r.Restacks s) (h' : s.Tells t) : r.Restacks t :=
  h.trans (of_fields (h'.keeps State.hbm) (h'.keeps State.pkg) (h'.keeps fun t => t.fab.parked))

theorem trapArea (h : r.Restacks s) {tn : Nat} {b : List Byte} : r.Restacks (s.trapArea tn b).2 := by
  obtain ⟨t, hstow, hwake⟩ := s.applyWrite_eq (ownLoc (Config.trapAreaPa tn + 256 * ((s.tenant tn).map (·.trapSlot)).getD 0)) b
    (s.homeSlice (ownLoc (Config.trapAreaPa tn + 256 * ((s.tenant tn).map (·.trapSlot)).getD 0))) .local 0
  exact ((h.stows hstow).wakes hwake).tells (.onTenant ..)

theorem loseTenant (h : r.Restacks s) {tn : Nat} {hit : Nat → Bool} : r.Restacks (s.loseTenant tn hit) := by
  unfold State.loseTenant
  split
  · exact h
  · extract_lets pages recs s1 q
    have hs1 : r.Restacks s1 := h.tells (.onTenant ..)
    have hq : r.Restacks q.2 :=
      List.foldlRecOn (motive := fun acc : Option Nat × State => r.Restacks acc.2) recs _ hs1 fun _ ht _ _ => ht.trapArea
    split
    exacts [h, hq.tells (.post ..)]

theorem loseData (h : r.Restacks s) {hit : Nat → Bool} : r.Restacks (s.loseData hit) := h.foldl fun _ _ ht => ht.loseTenant

theorem loseStack (h : r.Restacks s) {m : Nat} : r.Restacks (s.loseStack m) :=
  foldl (h.trans (of_fields rfl rfl rfl)) fun _ _ ht => ht.trans (of_fields rfl rfl rfl)

theorem unfence (h : r.Restacks s) {u : FUnit} (hp : r.fab.parked = []) : r.Restacks (s.unfence u) := by
  obtain ⟨t, hhbm, hpkg, hparked, hwake⟩ := State.unfence_of_none (s := s) (h.parked.trans hp) u
  exact (h.trans (of_fields hhbm hpkg hparked)).wakes hwake

end State.Restacks

/-- The stack that a logical stack has left: it serves nothing any more. -/
def StackSt.left (t : StackSt) : StackSt :=
  { t with lost := true, rebuild := none, rebuilt := [], queue := [], locks := [], stitchHeld := [] }

/-- The spare that takes logical stack `d` over from another: it rebuilds the stitched lines. -/
def StackSt.takesOver (t old : StackSt) (d : Nat) : StackSt :=
  { t with rebuild := some (d, 0), rebuilt := [], spare := false, halted := false, stitchHeld := t.stitchHeld ++ old.stitchHeld,
           routines := old.routines }

/-- The state with a spare in the place of a stack, before what is lost is followed. -/
def State.switchStack (s : State) (d h x : Nat) : State :=
  let t := (s.onStack h StackSt.left).onStack x (·.takesOver (s.stack h) d)
  { t with pkg := { t.pkg with spareStacks := without t.pkg.spareStacks (· == x) } }

theorem State.moveStack_eq (s : State) (d h x : Nat) : s.moveStack d h x =
    (((s.switchStack d h x).loseStack d).loseData (fun loc => decide (stackOf loc = d))).unfence (.stack h) := rfl

theorem State.moveStack_spec {h : Nat} (hx : x ≠ h) (hparked : s.fab.parked = []) :
    let v := s.moveStack d h x
    (v.stack x).rebuild = some (d, 0) ∧ (v.stack x).spare = false ∧ (v.stack x).routines = (s.stack h).routines ∧ (v.stack h).lost = true
    ∧ x ∉ v.pkg.spareStacks := by
  have hmoved : (s.switchStack d h x).Restacks (s.moveStack d h x) := by
    rw [State.moveStack_eq]
    exact (State.Restacks.refl _).loseStack.loseData.unfence hparked
  have hstack (k : Nat) : (s.switchStack d h x).stack k = ((s.onStack h StackSt.left).onStack x (·.takesOver (s.stack h) d)).stack k := rfl
  have hnew := (hstack x).trans (State.stack_onStack_same ..)
  have hold := ((hstack h).trans (State.stack_onStack_other _ _ hx.symm)).trans (State.stack_onStack_same ..)
  refine ⟨?_, ?_, ?_, ?_, ?_⟩
  · rw [(hmoved.stack x).keeps StackSt.rebuild, hnew]
    rfl
  · rw [(hmoved.stack x).keeps StackSt.spare, hnew]
    rfl
  · rw [(hmoved.stack x).keeps StackSt.routines, hnew]
    rfl
  · rw [(hmoved.stack h).keeps StackSt.lost, hold]
    rfl
  · rw [hmoved.pkg]
    exact fun hmem => by simpa using (mem_without.mp hmem).2

end

end Sys2Proof.Machine

/-!
# Rebuilds, substitutions and lost packages

A lemma for each step that rebuilds a stack, replaces a die or loses a package (R97 to R101, R106 to R110).
-/

namespace Sys2Proof.Machine

open Claims

section
variable {s : State}

/-! ### A stack is rebuilt (R97, R110) -/

/-- Where no delta waits none goes on. -/
theorem State.drainParity_of_none (h : s.rcv.parityWait = []) : s.drainParity = s := by
  unfold State.drainParity
  rw [h]
  exact congrArg (fun l => ({ s with rcv := { s.rcv with parityWait := l } } : State)) h.symm

section
variable {n : Nat} {x : BitVec 16} {g : StitchGroup} (hx : s.stitchOf (n * 128) = some x) (hg : SMap.look none s.rcv.stitch x.toNat = some g)
include hx hg

theorem stackRebuildSector_rebuilder {h : Nat} (hh : s.rebuilder (stackOf (n * 128)) = some h) (hn : s.unrebuilt n = true) (r : RebuildReads) :
    let t := s.markRebuilt h (stackOf (n * 128)) (n * 128 % 2 ^ 36 / 128)
    (∀ b, g.solve (s.memberOf g).1 (s.memberOf g).2 r = some b →
      exec (.stackRebuildSector n r) s = .next (((t.onStack h (·.access (n * 128))).dramWrite (n * 128) b).wakeWhy (.rebuild n)))
    ∧ (g.solve (s.memberOf g).1 (s.memberOf g).2 r = none →
      exec (.stackRebuildSector n r) s =
        .next (((s.stitchersOf (n * 128)).foldl (fun v tn => v.post tn 0x0013#16 0#8 0#32 0 (BitVec.ofNat 64 (n * 128)))
          ((List.range 4).foldl (fun v i => v.poisonGranule (n * 4 + i)) t)).wakeWhy (.rebuild n))) := by
  refine ⟨fun b hb => ?_, fun hb => ?_⟩
  all_goals
    rw [Laws.exec_stackRebuildSector]
    unfold execStackRebuildSector
    simp only [hx, hh, hg, hn, Bool.not_true, Bool.false_eq_true, if_false, hb]

section
variable (hh : s.rebuilder (stackOf (n * 128)) = none) (hm : (s.memberOf g).2.isSome = true)
include hh hm

theorem stackRebuildSector_holder (r : RebuildReads) : exec (.stackRebuildSector n r) s =
    if r.data.isEmpty && r.parity.isEmpty then
      .next { s with rcv := { s.rcv with parityLocks := if s.rcv.parityLocks.contains (x.toNat, n) then s.rcv.parityLocks
                                                        else enq s.rcv.parityLocks (x.toNat, n) } }
    else .next ({ s with rcv := { s.rcv with parityLocks := without s.rcv.parityLocks (· == (x.toNat, n)) } } : State).drainParity := by
  rw [Laws.exec_stackRebuildSector]
  unfold execStackRebuildSector
  simp only [hx, hh, hg]
  rw [if_neg (by rw [Option.isNone_eq_false_iff.mpr hm]; exact Bool.false_ne_true)]

theorem stackRebuildSector_lock : Ends (.stackRebuildSector n ⟨[], []⟩) s (fun t => (x.toNat, n) ∈ t.rcv.parityLocks ∧ SameMemory s t) := by
  refine ⟨_, stackRebuildSector_holder hx hg hh hm _, ?_, sameMemory_of_fields⟩
  show (x.toNat, n) ∈ if s.rcv.parityLocks.contains (x.toNat, n) then s.rcv.parityLocks else s.rcv.parityLocks ++ [(x.toNat, n)]
  split
  · next h => exact List.contains_iff_mem.mp h
  · exact List.mem_append_right _ (List.mem_singleton_self _)

theorem stackRebuildSector_unlock (r : RebuildReads) (hr : r.data ≠ [] ∨ r.parity ≠ []) (hwait : s.rcv.parityWait = []) :
    Ends (.stackRebuildSector n r) s (fun t => (x.toNat, n) ∉ t.rcv.parityLocks ∧ SameMemory s t) := by
  have hread : ¬ (r.data.isEmpty && r.parity.isEmpty) = true := by simpa [or_iff_not_imp_left] using hr
  refine ⟨_, ((stackRebuildSector_holder hx hg hh hm r).trans (if_neg hread)).trans (by rw [State.drainParity_of_none (by exact hwait)]), ?_,
    sameMemory_of_fields⟩
  exact fun hmem => by simpa using (mem_without.mp hmem).2

end

end

theorem stackRebuildDone_spec {d h : Nat} (hh : s.rebuilder d = some h) :
    let from_ := (((s.stack h).rebuild).map (·.2)).getD 0
    ((s.nextStitched d from_).isSome = true → exec (.stackRebuildDone d) s = .next s)
    ∧ (s.nextStitched d from_ = none →
        exec (.stackRebuildDone d) s = .next ((s.stitchedOn d).foldl (fun t tn => t.post tn 0x0014#16 0#8 0#32 0 (BitVec.ofNat 64 d))
          (s.onStack h (fun t => { t with rebuild := none, rebuilt := [] })))) := by
  intro from_
  have hexec : exec (.stackRebuildDone d) s = if (s.nextStitched d from_).isSome then .next s
      else .next ((s.stitchedOn d).foldl (fun t tn => t.post tn 0x0014#16 0#8 0#32 0 (BitVec.ofNat 64 d))
        (s.onStack h (fun t => { t with rebuild := none, rebuilt := [] }))) := by
    rw [Laws.exec_stackRebuildDone, execStackRebuildDone, hh]
  refine ⟨fun hnext => hexec.trans (if_pos hnext), fun hnext => hexec.trans (if_neg ?_)⟩
  rw [hnext]
  exact Bool.false_ne_true

/-! ### A die is replaced (R98, R99) -/

theorem dieSubstitutionLocal_spec {d x : Nat} {a : Bool} :
    let e : BitVec 32 := 0x80000000#32 ||| (s.pkgid.setWidth 32 <<< 12) ||| BitVec.ofNat 32 x
    let r (ok : Bool) : State := ({ s with pkg := { s.pkg with spareDies := s.pkg.spareDies.filter (fun y => !(y == x)) } } : State).onPDie x (fun y =>
      { y with rail := ok })
    (s.maySubstitute d a = true → s.pkg.spareDies.contains x = true →
      exec (.dieSubstitutionLocal d x a false) s = .next ((r false).faultEvent (.dieShared x) .selfTest)
      ∧ exec (.dieSubstitutionLocal d x a true) s = (r true).replaceDie d e a)
    ∧ (s.maySubstitute d a = false ∨ s.pkg.spareDies.contains x = false → ∀ ok, exec (.dieSubstitutionLocal d x a ok) s = .next s) := by
  intro e r
  have hexec (ok : Bool) : exec (.dieSubstitutionLocal d x a ok) s = if !s.maySubstitute d a || !s.pkg.spareDies.contains x then .next s
      else if !ok then .next ((r ok).faultEvent (.dieShared x) .selfTest) else (r ok).replaceDie d e a := rfl
  refine ⟨fun hmay hspare => ?_, fun h ok => ?_⟩
  · have hgo : ¬ (!s.maySubstitute d a || !s.pkg.spareDies.contains x) = true := by rw [hmay, hspare]; decide
    exact ⟨(hexec false).trans (if_neg hgo), (hexec true).trans (if_neg hgo)⟩
  · refine (hexec ok).trans (if_pos ?_)
    rcases h with h | h
    · rw [h]
      rfl
    · rw [h]
      exact Bool.or_true _

theorem dieSubstitutionRemote_spec {d x : Nat} {g : BitVec 12} (hd : d < 16) (hg : g ≠ s.pkgid) :
    let e : BitVec 32 := 0xC0000000#32 ||| (g.setWidth 32 <<< 12) ||| BitVec.ofNat 32 (x % 32)
    let t := (s.setRouters (4 * d) e).bumpMapgen
    let a := !s.rcv.silent.contains (s.dieUnit d)
    exec (.dieSubstitutionRemote d g x false) s = .next s
    ∧ (s.pkg.boot ≠ 0x82#8 → s.maySubstitute d a = true → s.pkg.spareDies = [] →
      exec (.dieSubstitutionRemote d g x true) s = s.replaceDie d e a)
    ∧ (s.pkg.boot = 0x82#8 → (s.router 0 (4 * d)).toNat.testBit 31 = false → exec (.dieSubstitutionRemote d g x true) s = .next
        (if (List.range 16).all (fun j => (t.router 0 (4 * j)).toNat.testBit 31) then
          { t.measureMaps with pkg := { t.measureMaps.pkg with boot := 0x06#8 } } else t)) := by
  intro e t a
  have hgo : ¬ (decide (16 ≤ d) || decide (g = s.pkgid) || !true) = true := by simp [hg, hd]
  refine ⟨?_, fun hboot hmay hnone => ?_, fun hboot hfree => ?_⟩
  · rw [Laws.exec_dieSubstitutionRemote]
    exact if_pos (by simp)
  · rw [Laws.exec_dieSubstitutionRemote]
    refine ((if_neg hgo).trans (if_neg hboot)).trans (if_neg ?_)
    rw [hnone, hmay]
    decide
  · rw [Laws.exec_dieSubstitutionRemote]
    refine ((if_neg hgo).trans (if_pos hboot)).trans (if_neg ?_)
    rw [hfree]
    exact Bool.false_ne_true

/-! ### Packages that are lost (R101, R103) -/

theorem heartbeatTimer_spec : Ends .heartbeatTimer s (fun t => t = { s with outbox := s.outbox ++ [.maint "heartbeat" s.pkgid.toNat] }) :=
  ⟨_, rfl, rfl⟩

/-- The state in which so many heartbeats of a package are missed. -/
def State.missing (s : State) (g : BitVec 12) (k : Nat) : State :=
  { s with rcv := { s.rcv with missed := SMap.put 0 s.rcv.missed g.toNat k } }

theorem heartbeatMiss_spec (g : BitVec 12) :
    let k := SMap.look 0 s.rcv.missed g.toNat
    exec (.heartbeatMiss g false) s = .next (s.missing g 0)
    ∧ (k ≠ 2 → exec (.heartbeatMiss g true) s = .next (s.missing g (Nat.min (k + 1) 3)))
    ∧ (k = 2 → s.rcv.lost.contains g = false → exec (.heartbeatMiss g true) s = .next ((s.missing g 3).seeLost g)) := by
  intro k
  have hexec : exec (.heartbeatMiss g true) s = .next (if decide (k + 1 = 3) && !s.rcv.lost.contains g then (s.missing g (Nat.min (k + 1) 3)).seeLost g
      else s.missing g (Nat.min (k + 1) 3)) := rfl
  refine ⟨rfl, fun hk => ?_, fun hk hlost => ?_⟩
  · rw [hexec, decide_eq_false (by omega), Bool.false_and, if_neg Bool.false_ne_true]
  · rw [hexec, hk, hlost]
    rfl

theorem packageLoss_spec (g : BitVec 12) (a b : Verdict) :
    (outvotes a b = false → Ends (.packageLoss g a b) s (fun t => SMap.look 0 t.rcv.missed g.toNat = 0 ∧ t.rcv.lost = s.rcv.lost ∧ SameMemory s t))
    ∧ (outvotes a b = true → s.rcv.lost.contains g = true → exec (.packageLoss g a b) s = .next s)
    ∧ (outvotes a b = true → s.rcv.lost.contains g = false →
      (g = s.pkgid → exec (.packageLoss g a b) s = .next s.losePackage)
      ∧ (g ≠ s.pkgid → (s.spareFor g).map (·.id) ≠ some s.pkgid → exec (.packageLoss g a b) s = .next (s.dropPackage g))
      ∧ (g ≠ s.pkgid → (s.spareFor g).map (·.id) = some s.pkgid → (s.router 0 0xC4).toNat.testBit 31 = false →
          exec (.packageLoss g a b) s = exec (.dieMapChange { diemap := [], stkmap := [], guest := [], apkg := some g, loads := [] } true)
            ((List.range 32).foldl (fun y m => y.onStack (y.physStack m) (fun z => { z with rebuild := some (m, 0), rebuilt := [] }))
              (s.dropPackage g)))) := by
  rw [Laws.exec_packageLoss, Laws.exec_dieMapChange]
  unfold execPackageLoss
  refine ⟨fun hvote => ?_, fun hvote hlost => ?_, fun hvote hlost => ?_⟩
  · refine ⟨_, (Laws.exec_packageLoss ..).trans (if_pos (by rw [hvote]; rfl)), SMap.look_put_same .., rfl, sameMemory_of_fields⟩
  · rw [if_neg (by rw [hvote]; decide), if_pos hlost]
  · rw [if_neg (by rw [hvote]; decide), if_neg (ne_true_of_eq_false hlost)]
    refine ⟨fun hown => ?_, fun hown hspare => ?_, fun hown hspare hfree => ?_⟩
    · rw [if_pos hown]
    · rw [if_neg hown]
      dsimp only
      rw [if_neg (by simp [hspare])]
    · rw [if_neg hown]
      dsimp only
      rw [if_pos (by simp [hspare, hfree])]

end

end Sys2Proof.Machine

/-!
# Stitch groups

A lemma for each step of a stitch unit and of a parity holder (R79, R108, R109, R390, R391).
-/

namespace Sys2Proof.Machine

open Claims

section
variable {s : State}

/-! ### A whole sector written to DRAM that nothing covers -/

section
variable {c : Nat} {b : List Byte} (hb : b.length = 128) (hu : SMap.look none s.under c = none)
include hb hu

theorem State.dramWrite_whole : s.dramWrite (c * 128) b = ((s.putRaw (c * 128) b).setPoison (c * 128) 128 false).dropUnder c := by
  have hc : c * 128 / 128 = c := Nat.mul_div_cancel c (by decide)
  have hcover : (if s.l2Dirty c = true then SMap.look none s.under c else none) = none := by rw [hu, ite_self]
  unfold State.dramWrite
  dsimp only
  rw [hc, hcover]
  exact if_pos hb

theorem State.byteAt_dramWrite_whole (a : Nat) : (s.dramWrite (c * 128) b).byteAt a = if a / 128 = c then b.getD (a % 128) 0#8 else s.byteAt a := by
  rw [State.dramWrite_whole hb hu]
  refine (look_writeMem s.mem (c * 128) b a).trans ?_
  rw [hb]
  by_cases h : a / 128 = c
  · rw [if_pos (by omega), if_pos h, show a - c * 128 = a % 128 by omega]
  · rw [if_neg (by omega), if_neg h]
    rfl

/-- Where no sector had another copy below, none has one now. -/
theorem State.under_dramWrite_whole {k : Nat} (hk : SMap.look none s.under k = none) : SMap.look none (s.dramWrite (c * 128) b).under k = none := by
  rw [State.dramWrite_whole hb hu]
  show SMap.look none (SMap.drop s.under c) k = none
  by_cases h : k = c
  · rw [h, SMap.look_drop_same]
  · rw [SMap.look_drop_other _ h, hk]

end

/-! ### Parity takes a delta (R108, R109) -/

/-- A sector of a line of a parity holder takes a delta, scaled. -/
def State.addDelta (base k : Nat) (t : State) (e : Nat × List Byte) : State :=
  (t.onStack (t.stackAt ((base + e.1) * 128)) (·.access ((base + e.1) * 128))).dramWrite ((base + e.1) * 128)
    (gfAdd (t.dramBytes (base + e.1)) (gfTimes k e.2))

theorem State.takeDelta_eq {x : BitVec 16} {p : Packet} {g : StitchGroup} {j i : Nat} (hg : SMap.look none s.rcv.stitch x.toNat = some g)
    (hj : (s.memberOf g).2 = some j) (hi : g.data.findIdx? (· == p.spkg) = some i) :
    let t := (deltasOf p).foldl (State.addDelta (p.pa / 512 * 4) (j * i)) s
    s.takeDelta x p = t.inject (s.physDie p.ddie.toNat) none none (p.back 0x0F#8 []).sealed := by
  unfold State.takeDelta
  rw [hg]
  dsimp only
  rw [hj, hi]
  rfl

section
variable {base k : Nat}

section
variable {e : Nat × List Byte} (he : e.2.length = 128) (hu : SMap.look none s.under (base + e.1) = none)
include hu

theorem State.dramBytes_of_none : s.dramBytes (base + e.1) = s.bytesAt ((base + e.1) * 128) 128 := by rw [State.dramBytes, hu]

include he

/-- The delta and what DRAM holds of the sector have one length. -/
theorem State.length_delta : (gfTimes k e.2).length = (s.dramBytes (base + e.1)).length := by
  rw [length_gfTimes, he, State.dramBytes_of_none hu]
  simp [State.bytesAt]

theorem State.length_newParity : (gfAdd (s.dramBytes (base + e.1)) (gfTimes k e.2)).length = 128 := by
  have hlen := State.length_delta (k := k) he hu
  rw [length_gfAdd hlen, ← hlen, length_gfTimes, he]

theorem State.byteAt_addDelta (a : Nat) :
    (s.addDelta base k e).byteAt a = if a / 128 = base + e.1 then s.byteAt a ^^^ gfScale k (e.2.getD (a % 128) 0#8) else s.byteAt a := by
  refine (State.byteAt_dramWrite_whole (s := s.onStack _ _) (State.length_newParity he hu) hu a).trans (ite_congr rfl (fun h => ?_) fun _ => rfl)
  have hread : (s.bytesAt ((base + e.1) * 128) 128).getD (a % 128) 0#8 = s.byteAt a := by
    rw [State.bytesAt, List.getD_eq_getElem _ _ (by simpa using Nat.mod_lt a (by decide)), List.getElem_map, List.getElem_range]
    exact congrArg s.byteAt (by omega)
  rw [getD_gfAdd (State.length_delta he hu), getD_gfTimes, State.dramBytes_of_none hu, hread]

theorem State.under_addDelta {c : Nat} (hc : SMap.look none s.under c = none) : SMap.look none (s.addDelta base k e).under c = none :=
  State.under_dramWrite_whole (s := s.onStack _ _) (State.length_newParity he hu) hu hc

end

/-- Deltas to different sectors are each added once. -/
theorem State.byteAt_foldl_addDelta {l : List (Nat × List Byte)} (hl : (l.map (·.1)).Nodup) (hlen : ∀ e ∈ l, e.2.length = 128)
    (hu : ∀ e ∈ l, SMap.look none s.under (base + e.1) = none) (a : Nat) :
    (∀ e ∈ l, a / 128 = base + e.1 → (l.foldl (State.addDelta base k) s).byteAt a = s.byteAt a ^^^ gfScale k (e.2.getD (a % 128) 0#8))
    ∧ ((∀ e ∈ l, a / 128 ≠ base + e.1) → (l.foldl (State.addDelta base k) s).byteAt a = s.byteAt a) := by
  induction l generalizing s with
  | nil => exact ⟨fun e he => absurd he List.not_mem_nil, fun _ => rfl⟩
  | cons e l ih =>
    obtain ⟨hnew, hl⟩ := List.nodup_cons.mp hl
    obtain ⟨he, hlen⟩ := List.forall_mem_cons.mp hlen
    obtain ⟨hue, hu⟩ := List.forall_mem_cons.mp hu
    have hfirst := State.byteAt_addDelta (k := k) he hue a
    obtain ⟨hin, hout⟩ := ih (s := s.addDelta base k e) hl hlen fun f hf => State.under_addDelta he hue (hu f hf)
    have hother : ∀ f ∈ l, f.1 ≠ e.1 := fun f hf h => hnew (List.mem_map.mpr ⟨f, hf, h⟩)
    refine ⟨fun f hf ha => ?_, fun ha => ?_⟩
    · rcases List.mem_cons.mp hf with rfl | hf
      · rw [List.foldl_cons, hout fun f' hf' h => hother f' hf' (by omega), hfirst, if_pos ha]
      · have hne := hother f hf
        rw [List.foldl_cons, hin f hf ha, hfirst, if_neg (by omega)]
    · obtain ⟨hae, ha⟩ := List.forall_mem_cons.mp ha
      rw [List.foldl_cons, hout ha, hfirst, if_neg hae]

end

theorem nodup_deltasOf (p : Packet) : ((deltasOf p).map (·.1)).Nodup := by
  have hkeys : (deltasOf p).map (·.1) = maskSectors (p.opx.toNat % 16) := by
    rw [deltasOf, List.map_map]
    exact List.zipIdx_map_fst ..
  rw [hkeys]
  exact List.nodup_range.filter _

theorem length_deltasOf {p : Packet} (h : p.payload.length = 128 * (maskSectors (p.opx.toNat % 16)).length) : ∀ e ∈ deltasOf p, e.2.length = 128 := by
  intro e he
  obtain ⟨z, hz, rfl⟩ := List.mem_map.mp he
  have hlt : z.2 < (maskSectors (p.opx.toNat % 16)).length := by simpa using List.snd_lt_of_mem_zipIdx hz
  simp only [List.length_take, List.length_drop, h]
  omega

theorem stitchDeltaReceive_spec {p : Packet} (x : BitVec 16) :
    let good := p.typ = 0x0E#8 ∧ p.payload.length = 128 * (maskSectors (p.opx.toNat % 16)).length ∧ p.payload ≠ [] ∧ reservedPa p.pa = false
    let locked := ∃ e ∈ deltasOf p, (x.toNat, p.pa / 512 * 4 + e.1) ∈ s.rcv.parityLocks
    (¬ good → exec (.stitchDeltaReceive x p) s = .next s)
    ∧ (good → locked → exec (.stitchDeltaReceive x p) s = .next { s with rcv := { s.rcv with parityWait := s.rcv.parityWait ++ [(x, p)] } })
    ∧ (good → ¬ locked → ∀ g j i, SMap.look none s.rcv.stitch x.toNat = some g → (s.memberOf g).2 = some j →
        g.data.findIdx? (· == p.spkg) = some i → (∀ e ∈ deltasOf p, SMap.look none s.under (p.pa / 512 * 4 + e.1) = none) →
        Ends (.stitchDeltaReceive x p) s (fun t => ∀ e ∈ deltasOf p, ∀ k, k < 128 →
          let a := (p.pa / 512 * 4 + e.1) * 128 + k
          t.byteAt a = s.byteAt a ^^^ gfScale (j * i) (e.2.getD k 0#8))) := by
  intro good locked
  have hexec : exec (.stitchDeltaReceive x p) s = if ¬ good then .next s
      else if locked then .next { s with rcv := { s.rcv with parityWait := s.rcv.parityWait ++ [(x, p)] } } else .next (s.takeDelta x p) := by
    rw [Laws.exec_stitchDeltaReceive, execStitchDeltaReceive]
    refine if_congr ?_ rfl (if_congr ?_ rfl rfl)
    · simp only [good, Bool.or_eq_true, decide_eq_true_eq, List.isEmpty_iff, Classical.not_and_iff_not_or_not, not_not, Bool.not_eq_false, or_assoc]
    · simp [locked]
  refine ⟨fun hgood => hexec.trans (if_pos hgood), fun hgood hlock => hexec.trans ((if_neg (not_not.mpr hgood)).trans (if_pos hlock)),
    fun hgood hlock g j i hg hj hi hu => ⟨s.takeDelta x p, hexec.trans ((if_neg (not_not.mpr hgood)).trans (if_neg hlock)), fun e he k hk => ?_⟩⟩
  obtain ⟨-, hpay, -, -⟩ := hgood
  intro a
  have ha : a / 128 = p.pa / 512 * 4 + e.1 ∧ a % 128 = k := by omega
  rw [State.takeDelta_eq hg hj hi, byteAt_congr ((State.Sends.inject ..).keeps State.mem) a,
    (State.byteAt_foldl_addDelta (nodup_deltasOf p) (length_deltasOf hpay) hu a).1 e he ha.1, ha.2]

/-! ### A stitch unit sends a delta (R109, R390, R391) -/

section
variable {d c n : Nat}

theorem stitchUnitDelta_spec (l : Nat) (m : BitVec 4) (b : List Byte) (g : BitVec 16) (w : BitVec 32) :
    let put := fun (t : State) (v : Option DeltaSlot) => t.onCore d c (fun x => { x with deltas := SMap.put none x.deltas n v })
    let e : DeltaSlot := { line := l, mask := m, delta := b, group := g, dom := w, waiting := s.holders g, resends := 0 }
    let q : StitchPkt := { core := c, line := l, mask := m, delta := b, group := g, dom := w }
    let t := s.onDie d (fun y => { y with stitchQ := y.stitchQ.erase q })
    (q ∉ (s.die d).stitchQ → exec (.stitchUnitDelta d c l m b g w) s = .next s)
    ∧ (q ∈ (s.die d).stitchQ → s.holders g = [] → exec (.stitchUnitDelta d c l m b g w) s = .next (t.creditDelta e))
    ∧ (q ∈ (s.die d).stitchQ → s.holders g ≠ [] → (List.range 256).find? (fun i => (SMap.look none (s.core d c).deltas i).isNone) = some n →
        exec (.stitchUnitDelta d c l m b g w) s = .next ((put t (some e)).sendDelta d c n e (s.holders g)))
    ∧ (q ∈ (s.die d).stitchQ → s.holders g ≠ [] → (∀ i, i < 256 → (SMap.look none (s.core d c).deltas i).isSome = true) →
        exec (.stitchUnitDelta d c l m b g w) s = .next s) := by
  intro put e q t
  rw [Laws.exec_stitchUnitDelta]
  unfold execStitchUnitDelta
  refine ⟨fun hq => if_pos (by simpa using hq), fun hq hnone => ?_, fun hq hsome hfree => ?_, fun hq hsome hfull => ?_⟩
  all_goals rw [if_neg (by simpa using hq)]
  · exact if_pos (List.isEmpty_iff.mpr hnone)
  · dsimp only
    rw [if_neg (by simpa using hsome), hfree]
  · have hnofree : (List.range 256).find? (fun i => (SMap.look none (s.core d c).deltas i).isNone) = none :=
      List.find?_eq_none.mpr fun i hi => by simp [Option.isSome_iff_ne_none.mp (hfull i (List.mem_range.mp hi))]
    dsimp only
    rw [if_neg (by simpa using hsome), hnofree]

section
variable {e : DeltaSlot} (he : SMap.look none (s.core d c).deltas n = some e)
include he

theorem stitchAckReceive_spec (g : BitVec 12) :
    let put := fun (t : State) (v : Option DeltaSlot) => t.onCore d c (fun x => { x with deltas := SMap.put none x.deltas n v })
    let rest := e.waiting.filter (fun y => !(y == g))
    (rest = [] → exec (.stitchAckReceive d c n g) s = .next ((put s none).creditDelta e))
    ∧ (rest ≠ [] → exec (.stitchAckReceive d c n g) s = .next (put s (some { e with waiting := rest }))) := by
  intro put rest
  rw [Laws.exec_stitchAckReceive]
  unfold execStitchAckReceive
  rw [he]
  exact ⟨fun hnone => if_pos (List.isEmpty_iff.mpr hnone), fun hsome => if_neg (mt List.isEmpty_iff.mp hsome)⟩

theorem stitchResendTimeout_again (hr : e.resends < 2) :
    let put := fun (t : State) (v : Option DeltaSlot) => t.onCore d c (fun x => { x with deltas := SMap.put none x.deltas n v })
    exec (.stitchResendTimeout d c n) s = .next ((put s (some { e with resends := e.resends + 1 })).sendDelta d c n e e.waiting) := by
  intro put
  rw [Laws.exec_stitchResendTimeout]
  unfold execStitchResendTimeout
  rw [he]
  exact if_pos hr

theorem stitchResendTimeout_last (hr : 2 ≤ e.resends) :
    let put := fun (t : State) (v : Option DeltaSlot) => t.onCore d c (fun x => { x with deltas := SMap.put none x.deltas n v })
    exec (.stitchResendTimeout d c n) s = .next
      (((s.fab.ports.filter (fun y => decide (y.1 < 32) && (match y.2.far with | some f => e.waiting.contains f.1 | none => false))).foldl
        (fun t y => (t.portDown y.1 false).portDown y.1 true) ((put s none).onDomain e.dom (fun r => { r with acks := r.acks - 1 }))).domainFault
        e.dom 0x16#8 0#64) := by
  intro put
  rw [Laws.exec_stitchResendTimeout]
  unfold execStitchResendTimeout
  rw [he]
  exact if_neg (Nat.not_lt.mpr hr)

end

end

end

end Sys2Proof.Machine

/-!
# Faults, recovery and stitch groups: the obligation
-/

namespace Sys2Proof.Machine

open Claims

/-- Settles O58, clause by clause: each names the lemma about its step. -/
theorem recoveryAndStitchGroups : Obligations.RecoveryAndStitchGroups := by
  intro s u kind d c n p now lim mine slot put
  exact ⟨fun _ h => faultEvent_plain h,
    fun _ => rfl,
    fun _ _ ho hs => granulePoison_poisonUnit ho hs,
    fun hk hsp h => faultEvent_counted_below hk hsp h,
    fun hk hsp hc hw hn => faultEvent_counted_lasting hk hsp hc hw hn,
    rfl,
    fun x => timingDetectorReplay_first x,
    fun x => timingDetectorReplay_again x,
    fun b _ hchange hnone hret hsp hk => retirementProposal_spec hchange hnone hret hsp b hk,
    fun _ hq hpeer hr => voteAnswerTimeout_alone hq hpeer hr,
    fun _ hq hpeer hr hn => voteAnswerTimeout_peers hq hpeer hr hn,
    fun _ _ _ _ => rfl,
    fun _ a b hq hpeer hab => peerVote_cast hq hpeer hab a b,
    fun _ b hq hpeer hab => peerVoteTimeout_first hq hpeer hab b,
    fun _ _ hq hpeer hab => peerVoteTimeout_second hq hpeer hab,
    fun _ hd hc hret hsilent hspare => gracefulCoreRetirement_spec hd hc hret hspare hsilent,
    fun _ hd hc hret hsilent hspare => abruptCoreRetirement_spec hd hc hret hspare hsilent,
    fun _ _ hd hret ha hchange => stackRetirement_spec hd hret ha hchange,
    fun _ _ hx hparked => State.moveStack_spec hx hparked,
    fun k j all hkey hlen => solveData_spec k j all hkey hlen,
    fun _ _ _ r hx hh hg hn => stackRebuildSector_rebuilder hx hg hh hn r,
    fun _ _ hx hh hg hm => ⟨stackRebuildSector_lock hx hg hh hm, fun r hr hwait => stackRebuildSector_unlock hx hg hh hm r hr hwait⟩,
    fun _ hh => stackRebuildDone_spec hh,
    fun _ _ => dieSubstitutionLocal_spec,
    fun _ _ _ => rfl,
    fun _ _ hd hg => dieSubstitutionRemote_spec hd hg,
    heartbeatTimer_spec,
    fun g => heartbeatMiss_spec g,
    fun g a b => packageLoss_spec g a b,
    fun g => s.mem_dropPackage_lost g,
    fun x => stitchDeltaReceive_spec x,
    fun l m b g w => stitchUnitDelta_spec l m b g w,
    fun _ g he => stitchAckReceive_spec he g,
    fun _ he hr => stitchResendTimeout_again he hr,
    fun _ he hr => stitchResendTimeout_last he hr⟩

end Sys2Proof.Machine

/-!
# Host sessions

A lemma for each step of a session with a host (R116 to R124).
-/

namespace Sys2Proof.Machine

open Claims

section
variable {s : State} {dg : Datagram} {hd : ScpHead}

/-! ### Datagrams that are no messages (R116, R118) -/

theorem scp_ignored {k : Nat} {i : Instr}
    (h : (k, i) ∈ [(0, Instr.scpHello dg), (2, .scpAuth dg), (3, .scpCommandReceive dg), (6, .scpAck dg), (7, .scpBye dg)])
    (hin : s.scpIn dg k = none) : exec i s = .next s := by
  simp only [List.mem_cons, Prod.mk.injEq, List.not_mem_nil, or_false] at h
  obtain ⟨rfl, rfl⟩ | ⟨rfl, rfl⟩ | ⟨rfl, rfl⟩ | ⟨rfl, rfl⟩ | ⟨rfl, rfl⟩ := h
  · rw [Laws.exec_scpHello, execScpHello, hin]
  · rw [Laws.exec_scpAuth, execScpAuth, hin]
  · rw [Laws.exec_scpCommandReceive, execScpCommandReceive, hin]
  · rw [Laws.exec_scpAck, execScpAck, hin]
  · rw [Laws.exec_scpBye, execScpBye, hin]

theorem HostPort.takes_eq_false {p : HostPort} (h : p.up = false ∨ dg.pause = true ∨ 9216 < dg.frame ∨ dg.fragment = true ∨ dg.port ≠ 5791 ∨ dg.mac ≠ p.mac) :
    p.takes dg = false := by
  unfold HostPort.takes
  rcases h with h | h | h | h | h | h <;> simp [h]

theorem scpHead_eq_none {b : List Byte} (h : natAt b 0 2 ≠ 0x5347 ∨ natAt b 2 1 ≠ 1 ∨ natAt b 40 8 ≠ 0 ∨ 8936 < natAt b 32 2 ∨ 9000 < b.length) :
    scpHead b = none := by
  unfold scpHead
  refine if_neg fun hall => ?_
  simp only [Bool.and_eq_true, decide_eq_true_eq] at hall
  omega

theorem State.scpIn_eq_none (k : Nat)
    (h : s.host.up = false ∨ dg.pause = true ∨ 9216 < dg.frame ∨ dg.fragment = true ∨ dg.port ≠ 5791 ∨ dg.mac ≠ s.host.mac
      ∨ natAt dg.bytes 0 2 ≠ 0x5347 ∨ natAt dg.bytes 2 1 ≠ 1 ∨ natAt dg.bytes 40 8 ≠ 0 ∨ 8936 < natAt dg.bytes 32 2 ∨ 9000 < dg.bytes.length) :
    s.scpIn dg k = none := by
  have hcases : s.host.takes dg = false ∨ scpHead dg.bytes = none :=
    Or.imp HostPort.takes_eq_false scpHead_eq_none (by simpa only [or_assoc] using h)
  unfold State.scpIn
  rcases hcases with h | h
  · rw [h]
    rfl
  · rw [h]
    exact ite_self _

/-! ### A session is offered (R120) -/

/-- HELLO_RSP, the session it opens and the transcript that both sides sign. -/
theorem State.greetHost_spec (s : State) (hello : List Byte) (pub : BitVec 776) (secret : Nat) (z : List Byte) :
    (s.greetHost hello pub secret z).host.nextSid = s.host.nextSid + 1 ∧ ∃ b y, (s.greetHost hello pub secret z).outbox = s.outbox ++ [.scp s.host.nextSid b]
      ∧ SMap.look none (s.greetHost hello pub secret z).host.sessions s.host.nextSid = some y ∧ y.phase = 0 ∧ y.pub = pub ∧ y.transcript = hello ++ b := by
  refine ⟨rfl, _, _, rfl, SMap.look_put_same .., rfl, rfl, ?_⟩
  simp only [List.append_assoc, List.drop_left]

section
variable (hin : s.scpIn dg 0 = some hd)
include hin

theorem scpHello_spec :
    let pub := BitVec.ofNat 776 (Crypto.natBE ((dg.bytes.drop 177).take 97))
    let z := Crypto.ecdh (Config.secret s.pkg.nonces) (BitVec.ofNat 776 (Crypto.natBE ((dg.bytes.drop 80).take 97)))
    (hd.sid ≠ 0 ∨ hd.len ≠ 226 → exec (.scpHello dg) s = .next s)
    ∧ (hd.sid = 0 → hd.len = 226 → 256 ≤ s.sessionsHeld → exec (.scpHello dg) s = .next s.refuseHello)
    ∧ (hd.sid = 0 → hd.len = 226 → s.sessionsHeld < 256 → z = none ∨ Crypto.decodePoint pub = none → exec (.scpHello dg) s = .next s)
    ∧ (hd.sid = 0 → hd.len = 226 → s.sessionsHeld < 256 → z ≠ none → Crypto.decodePoint pub ≠ none →
        Ends (.scpHello dg) s (fun t => t.host.nextSid = s.host.nextSid + 1 ∧ ∃ b y, t.outbox = s.outbox ++ [.scp s.host.nextSid b]
          ∧ SMap.look none t.host.sessions s.host.nextSid = some y ∧ y.phase = 0 ∧ y.pub = pub ∧ y.transcript = dg.bytes ++ b)) := by
  have hgo : hd.sid = 0 → hd.len = 226 → ¬ (decide (hd.sid ≠ 0) || decide (hd.len ≠ 226)) = true := fun h0 h1 => by simp [h0, h1]
  intro pub z
  rw [Laws.exec_scpHello]
  unfold execScpHello
  rw [hin]
  refine ⟨fun h => if_pos (by simpa [imp_iff_not_or] using h), fun h0 h1 hfull => (if_neg (hgo h0 h1)).trans (if_pos hfull),
    fun h0 h1 hfree hbad => (if_neg (hgo h0 h1)).trans ((if_neg (Nat.not_le.mpr hfree)).trans ?_), fun h0 h1 hfree hz hp => ?_⟩
  · rcases hbad with h | h
    · rw [show Crypto.ecdh _ _ = none from h]
    · rw [show Crypto.decodePoint _ = none from h]
      cases Crypto.ecdh (Config.secret s.pkg.nonces) (BitVec.ofNat 776 (Crypto.natBE ((dg.bytes.drop 80).take 97))) <;> rfl
  · obtain ⟨z', hz'⟩ := Option.ne_none_iff_exists'.mp hz
    obtain ⟨q, hq⟩ := Option.ne_none_iff_exists'.mp hp
    refine ⟨s.greetHost dg.bytes pub (Config.secret s.pkg.nonces) z', ?_, s.greetHost_spec dg.bytes pub (Config.secret s.pkg.nonces) z'⟩
    rw [Laws.exec_scpHello]
    unfold execScpHello
    rw [hin]
    refine (if_neg (hgo h0 h1)).trans ((if_neg (Nat.not_le.mpr hfree)).trans ?_)
    rw [show Crypto.ecdh _ _ = some z' from hz', show Crypto.decodePoint _ = some q from hq]

end

/-! ### A session is established (R120) -/

theorem scpAuth_spec {x : Session} {body : List Byte} (hin : s.scpIn dg 2 = some hd) :
    let sealed := s.openScp hd dg.bytes = some (x, body)
    (s.openScp hd dg.bytes = none → exec (.scpAuth dg) s = .next s)
    ∧ (sealed → hd.seq ≠ 0 → exec (.scpAuth dg) s = .next s)
    ∧ (sealed → hd.seq = 0 → x.phase = 1 → exec (.scpAuth dg) s = .next (s.onSession hd.sid (fun y => { y with ackDue := true, heard := s.cycle.toNat })))
    ∧ (∀ g, sealed → hd.seq = 0 → x.phase ≠ 1 → s.admitted x.pub = some g → Crypto.ecdsaVerify x.pub x.transcript body = true →
        exec (.scpAuth dg) s = .next (({ s with host := { s.host with auths := s.host.auths + 1 } } : State).onSession hd.sid (fun y =>
          { y with phase := 1, key := some g.1, auth := s.host.auths + 1, ackDue := true, heard := s.cycle.toNat })))
    ∧ (sealed → hd.seq = 0 → x.phase ≠ 1 → s.admitted x.pub = none ∨ Crypto.ecdsaVerify x.pub x.transcript body = false →
        let t := s.emit hd.sid { kind := 7 } []
        exec (.scpAuth dg) s = .next { t with host := { t.host with sessions := SMap.put none t.host.sessions hd.sid none } }) := by
  intro sealed
  rw [Laws.exec_scpAuth]
  unfold execScpAuth
  rw [hin]
  dsimp only
  refine ⟨fun h => ?_, fun h hseq => ?_, fun h hseq hphase => ?_, fun g h hseq hphase hadmit hsig => ?_, fun h hseq hphase hbad => ?_⟩
  · rw [h]
  · rw [h]
    exact if_pos hseq
  · rw [h]
    exact (if_neg (not_not.mpr hseq)).trans (if_pos hphase)
  · rw [h]
    refine (if_neg (not_not.mpr hseq)).trans ((if_neg hphase).trans ?_)
    rw [hadmit, hsig]
  · rw [h]
    refine (if_neg (not_not.mpr hseq)).trans ((if_neg hphase).trans ?_)
    rcases hbad with hbad | hbad
    · rw [hbad]
    · rw [hbad]
      cases s.admitted x.pub <;> rfl

/-! ### Messages, acknowledgements and the end of a session (R119, R121) -/

theorem scpAck_spec {x : Session} {body : List Byte} (hin : s.scpIn dg 6 = some hd) :
    (s.live hd.sid = true → s.openScp hd dg.bytes = some (x, body) → exec (.scpAck dg) s = .next (s.received hd))
    ∧ (s.live hd.sid = false ∨ s.openScp hd dg.bytes = none → exec (.scpAck dg) s = .next s) := by
  rw [Laws.exec_scpAck]
  unfold execScpAck
  rw [hin]
  dsimp only
  refine ⟨fun hlive h => ?_, fun h => ?_⟩
  · rw [hlive, h]
    rfl
  · rcases h with h | h
    · rw [h]
      rfl
    · rw [h]
      exact ite_self _

theorem State.received_of_le (h : hd.seq ≤ 2 ^ 63) : s.received hd = s.onSession hd.sid (fun y => y.receive hd s.cycle.toNat) :=
  if_neg (Nat.not_lt.mpr h)

theorem State.received_of_gt (h : 2 ^ 63 < hd.seq) :
    s.received hd = ((s.onSession hd.sid (fun y => y.receive hd s.cycle.toNat)).emit hd.sid { kind := 7 } []).endSession hd.sid := if_pos h

theorem scpBye_spec {x : Session} {body : List Byte} (hin : s.scpIn dg 7 = some hd) :
    (s.openScp hd dg.bytes = some (x, body) → exec (.scpBye dg) s = .next (s.endSession hd.sid))
    ∧ (s.openScp hd dg.bytes = none → exec (.scpBye dg) s = .next s) := by
  rw [Laws.exec_scpBye]
  unfold execScpBye
  rw [hin]
  dsimp only
  refine ⟨fun h => ?_, fun h => ?_⟩
  all_goals rw [h]

section
variable {sid : Nat} {x : Session} (hx : s.session sid = some x)
include hx

theorem scpIdleTimeout_spec : exec (.scpIdleTimeout sid) s = .next (if x.heard + 240000000000 ≤ s.cycle.toNat then s.endSession sid else s) := by
  rw [Laws.exec_scpIdleTimeout, execScpIdleTimeout, hx]
  exact (apply_ite _ _ _ _).symm

theorem scpAckTimer_spec : exec (.scpAckTimer sid) s = .next (if x.ackDue then s.sendOn sid { kind := 6 } [] else s) := by
  rw [Laws.exec_scpAckTimer, execScpAckTimer, hx]
  exact (apply_ite _ _ _ _).symm

theorem scpResendTimer_spec (m : Sent) (hm : x.unacked.find? (fun e => e.seq == m.seq) = some m) :
    (s.cycle.toNat < m.due → exec (.scpResendTimer sid m.seq) s = .next s)
    ∧ (m.due ≤ s.cycle.toNat → 12 ≤ m.resends → exec (.scpResendTimer sid m.seq) s = .next (s.endSession sid))
    ∧ (m.due ≤ s.cycle.toNat → m.resends < 12 → exec (.scpResendTimer sid m.seq) s = .next ((s.send (.scp sid m.wire)).onSession sid (fun y =>
        { y with unacked := y.unacked.map (fun q => if q.seq = m.seq then { q with resends := q.resends + 1, at_ := s.cycle.toNat } else q) }))) := by
  rw [Laws.exec_scpResendTimer]
  unfold execScpResendTimer
  rw [hx, Option.bind_some, hm]
  exact ⟨fun h => if_pos h, fun h h' => (if_neg (Nat.not_lt.mpr h)).trans (if_pos h'),
    fun h h' => (if_neg (Nat.not_lt.mpr h)).trans (if_neg (Nat.not_le.mpr h'))⟩

end

/-! ### A command is received (R121, R122 to R126) -/

theorem scpCommandReceive_spec {x : Session} {body : List Byte} (hin : s.scpIn dg 3 = some hd) :
    let t := s.received hd
    (s.live hd.sid = false ∨ s.openScp hd dg.bytes = none → exec (.scpCommandReceive dg) s = .next s)
    ∧ (s.live hd.sid = true → s.openScp hd dg.bytes = some (x, body) →
      (x.ackn + 256 < hd.seq → exec (.scpCommandReceive dg) s = .next s)
      ∧ (hd.seq ≤ x.ackn + 256 → 2 ^ 63 < hd.seq → exec (.scpCommandReceive dg) s = .next t)
      ∧ (hd.seq ≤ x.ackn + 256 → hd.seq ≤ 2 ^ 63 → hd.seq ≤ x.ackn ∨ hd.seq ∈ x.sack → exec (.scpCommandReceive dg) s = .next
          (match x.replies.find? (fun r => r.1 == hd.seq) with | some r => t.send (.scp hd.sid r.2) | none => t))
      ∧ (hd.seq ≤ x.ackn + 256 → hd.seq ≤ 2 ^ 63 → x.ackn < hd.seq → hd.seq ∉ x.sack →
          exec (.scpCommandReceive dg) s = .next (t.enterCmd hd.cmd (natAt body 0 2) (parseCmd body)))) := by
  intro t
  rw [Laws.exec_scpCommandReceive]
  unfold execScpCommandReceive
  rw [hin]
  dsimp only
  refine ⟨fun h => ?_, fun hlive hopen => ?_⟩
  · rcases h with h | h
    · rw [h]
      rfl
    · rw [h]
      exact ite_self _
  · rw [hlive, hopen, if_neg (by decide)]
    dsimp only
    refine ⟨fun h => if_pos h, fun h hlast => ?_, fun h hlast hold => ?_, fun h hlast hnew hsack => ?_⟩
    all_goals rw [if_neg (Nat.not_lt.mpr h)]
    · rw [if_pos hlast]
    · rw [if_neg (Nat.not_lt.mpr hlast), if_pos (by simpa using hold)]
      cases x.replies.find? (fun r => r.1 == hd.seq) <;> rfl
    · rw [if_neg (Nat.not_lt.mpr hlast), if_neg (by simp [hsack, Nat.not_le.mpr hnew])]

theorem State.enterCmd_spec {h : CmdHead} {te : TenantSt} (op : Nat) (c : Option Cmd) :
    (s.permitted h op = false → s.enterCmd h op c = s.answer h op 2 [])
    ∧ (s.permitted h op = true → c = none → s.enterCmd h op c = s.answer h op 1 [])
    ∧ (∀ k, s.permitted h op = true → c = some k → s.attachesBusy h k = true → s.enterCmd h op c = s.answer h op 8 [])
    ∧ (∀ k, s.permitted h op = true → c = some k → s.attachesBusy h k = false → op ≠ 1 → h.tenant ≠ 0xFF → s.tenant h.tenant = some te →
        let q := SMap.look [] te.cmds h.queue
        (te.resetting = true → s.enterCmd h op c = s.answer h op 8 [])
        ∧ (te.resetting = false → te.queues ≤ h.queue → s.enterCmd h op c = s.answer h op 1 [])
        ∧ (te.resetting = false → h.queue < te.queues → 64 ≤ q.length → s.enterCmd h op c = s.answer h op 4 [])
        ∧ (te.resetting = false → h.queue < te.queues → q.length < 64 → s.enterCmd h op c
            = (s.onTenant h.tenant (fun y => { y with cmds := SMap.put [] y.cmds h.queue (q ++ [(h, k)]) })).wakeSups)) := by
  unfold State.enterCmd
  refine ⟨fun hp => ?_, fun hp hc => ?_, fun k hp hc hbusy => ?_, fun k hp hc hbusy hop hall hown => ?_⟩
  · rw [hp]
    rfl
  · rw [hp, hc]
    rfl
  · rw [hp, hc]
    exact if_pos hbusy
  · intro q
    rw [hp, hc, if_neg (by decide)]
    dsimp only
    rw [if_neg (ne_true_of_eq_false hbusy), if_neg (by simp [hop, hall]), hown]
    dsimp only
    refine ⟨fun hr => if_pos hr, fun hr hq => ?_, fun hr hq hl => ?_, fun hr hq hl => ?_⟩
    all_goals rw [if_neg (ne_true_of_eq_false hr)]
    · rw [if_pos hq]
    · rw [if_neg (Nat.not_le.mpr hq), if_pos hl]
    · rw [if_neg (Nat.not_le.mpr hq), if_neg (Nat.not_le.mpr hl)]
      rfl

/-! ### The host port (R117) -/

theorem portFailover_spec : exec .portFailover s = .next (if s.retired (.hostController 0) = true ∨ s.retired (.serviceProcessor 0) = true then s.failover else s) := by
  rw [Laws.exec_portFailover, execPortFailover]
  simp only [Bool.or_eq_true]

end

end Sys2Proof.Machine

/-!
# Commands about tenants, windows and launches

A lemma for each command of a host that changes a tenant or what it may use (R122 to R129, R137, R384, R430).
-/

namespace Sys2Proof.Machine

open Claims

section
variable {s : State} {h : CmdHead} {te : TenantSt}

theorem State.tenant_onTenant_same (s : State) (n : Nat) (f : TenantSt → TenantSt) : (s.onTenant n f).tenant n = (s.tenant n).map f := by
  unfold State.onTenant
  cases ht : s.tenant n with
  | none => exact ht
  | some t => exact SMap.look_put_same ..

/-! ### OPEN, CLOSE and RESET (R122, R123, R137) -/

section
variable {q ec ed st : Nat} (hq : 0 < q) (hq8 : q ≤ 8) (hec : 0 < ec) (hec64 : ec ≤ 64) (hed : ed ≤ 1000)
include hq hq8 hec hec64 hed

/-- The limits of the counts of OPEN hold. -/
theorem openTenant_counts {n : Nat} (hn : n < 64 ∨ n = 0xFF) :
    ¬ (decide (q = 0) || decide (8 < q) || decide (ec = 0) || decide (64 < ec) || decide (1000 < ed)
      || (decide (64 ≤ n) && decide (n ≠ 0xFF))) = true := by
  simp only [Bool.or_eq_true, Bool.and_eq_true, decide_eq_true_eq]
  omega

section
variable {g : Nat × Bool × Bool} {dbg : Bool} (hg : s.grant h.session = some g) (hdbg : dbg = true → g.2.2 = true)
include hg hdbg

theorem openTenant_new {n : Nat} (hn : (List.range 64).find? (fun i => (s.tenant i).isNone) = some n) :
    exec (.openTenant h 0xFF q ec ed st dbg) s =
      .next (((s.newTenant n g.1 q ec ed st dbg).attach n h.session).finishCmd h 1 0 (openBody n)) := by
  have hdebug : ¬ (dbg && !g.2.2) = true := by simpa using hdbg
  rw [Laws.exec_openTenant]
  unfold execOpenTenant
  rw [if_neg (openTenant_counts hq hq8 hec hec64 hed (.inr rfl)), hg]
  refine (if_pos rfl).trans ((if_neg hdebug).trans ?_)
  rw [hn]

theorem openTenant_full (hfull : ∀ i, i < 64 → (s.tenant i).isSome = true) : exec (.openTenant h 0xFF q ec ed st dbg) s = .next (s.finishCmd h 1 3 []) := by
  have hdebug : ¬ (dbg && !g.2.2) = true := by simpa using hdbg
  have hnone : (List.range 64).find? (fun i => (s.tenant i).isNone) = none :=
    List.find?_eq_none.mpr fun i hi => by simp [Option.isSome_iff_ne_none.mp (hfull i (List.mem_range.mp hi))]
  rw [Laws.exec_openTenant]
  unfold execOpenTenant
  rw [if_neg (openTenant_counts hq hq8 hec hec64 hed (.inr rfl)), hg]
  refine (if_pos rfl).trans ((if_neg hdebug).trans ?_)
  rw [hnone]

end

theorem openTenant_attach {n : Nat} {y : TenantSt} (hn : n < 64) (hmay : s.mayAddress h.session n = true) (hy : s.tenant n = some y) :
    (y.resetting = false → exec (.openTenant h n q ec ed st false) s = .next ((s.attach n h.session).finishCmd h 1 0 (openBody n)))
    ∧ (y.resetting = true → exec (.openTenant h n q ec ed st false) s = .next (s.finishCmd h 1 8 [])) := by
  obtain ⟨g, hg⟩ : ∃ g, s.grant h.session = some g := by
    cases hg : s.grant h.session with
    | some g => exact ⟨g, rfl⟩
    | none =>
      rw [State.mayAddress, hy, hg] at hmay
      exact absurd hmay Bool.false_ne_true
  rw [Laws.exec_openTenant]
  unfold execOpenTenant
  rw [if_neg (openTenant_counts hq hq8 hec hec64 hed (.inl hn)), hg]
  dsimp only
  rw [if_neg (show n ≠ 0xFF by omega), hmay, hy, if_neg (by decide)]
  exact ⟨fun hr => if_neg (ne_true_of_eq_false hr), fun hr => if_pos hr⟩

end

theorem close_spec (hown : s.tenant h.tenant = some te) :
    exec (.close h) s = .next ((((s.abortCmds h.tenant h 2).stopTenant h.tenant).freeTenant h.tenant).finishCmd h 2 0 []) := by
  rw [Laws.exec_close, execClose, hown]
  rfl

theorem reset_spec {n : Nat} {y : TenantSt} (b : Bool) (hn : h.tenant = n ∨ h.tenant = 0xFF) (hy : s.tenant n = some y) :
    (y.resetting = false → exec (.reset h n b) s =
      .next (((s.onTenant n (fun y => { y with resetting := true })).abortCmds n h 7).keepCmd h (.reset n b)))
    ∧ (y.resetting = true →
      let u := (((s.stopTenant n).dropSent n).onTenant n (fun y => { y with events := [], dropped := false, resetting := false })).post n
        0x0008#16 0#8 0#32 0 0#64
      exec (.reset h n b) s = .next ((if b then u.freeTenant n else u).finishCmd h 0x0E 0 [])) := by
  have hmay : ¬ (decide (h.tenant ≠ n) && decide (h.tenant ≠ 0xFF)) = true := by
    simp only [Bool.and_eq_true, decide_eq_true_eq]
    omega
  rw [Laws.exec_reset]
  unfold execReset
  rw [if_neg hmay, hy]
  exact ⟨fun hr => if_pos (by rw [hr]; rfl), fun hr => if_neg (by rw [hr]; decide)⟩

/-! ### MAPWIN (R430) -/

section
variable {b : MapBody} {pl : Placement} (hown : s.tenant h.tenant = some te) (hbad : b.bad s.pkgid = false)
include hown hbad

theorem mapwin_unmap (hlen : b.length = 0#64) : exec (.mapwin h b pl) s = .next ((s.unmapAll h.tenant b.window).finishCmd h 3 0 []) := by
  rw [Laws.exec_mapwin]
  unfold execMapwin
  rw [hown]
  exact (if_neg (ne_true_of_eq_false hbad)).trans (if_pos hlen)

theorem mapwin_map (hlen : b.length ≠ 0#64) (hrange : te.rangeOk b = true) :
    (s.firstFit h.tenant b 0 = none → exec (.mapwin h b pl) s = .next (s.finishCmd h 3 3 []))
    ∧ (s.firstFit h.tenant b 0 ≠ none → s.fits h.tenant b pl = true → s.groupIdOk b pl = true →
      ∃ u : State, exec (.mapwin h b pl) s = .next (u.finishCmd h 3 0 [])
        ∧ ∀ y, u.tenant h.tenant = some y → SMap.look {} y.windows b.window = b.entry s.pkgid pl) := by
  rw [Laws.exec_mapwin]
  unfold execMapwin
  rw [hown]
  dsimp only
  rw [if_neg (ne_true_of_eq_false hbad), if_neg hlen, hrange, if_neg (by decide)]
  refine ⟨fun hfit => if_pos (by rw [hfit]; rfl), fun hfit hplace hid => ?_⟩
  refine ⟨_, (if_neg (by simpa using hfit)).trans (if_neg (by rw [hplace, hid]; decide)), fun y hy => ?_⟩
  have htenant : ∀ (t : State) (g : SMap (Option StitchGroup)), (if b.stitch = true then { t with rcv := { t.rcv with stitch := g } } else t).tenant h.tenant =
      t.tenant h.tenant := fun t g => by split <;> rfl
  rw [htenant, State.tenant_onTenant_same] at hy
  obtain ⟨z, -, rfl⟩ := Option.map_eq_some_iff.mp hy
  exact SMap.look_put_same ..

end

/-! ### TEMPLATES, ROUTINES and LAUNCH (R74, R75, R125, R129, R384) -/

theorem templates_spec {n : Nat} {im : List (List Word)} (hown : s.tenant h.tenant = some te) (hne : im ≠ []) (hlen : im.length ≤ 128)
    (hn : n + im.length ≤ 4096) (hwords : ∀ i ∈ im, i.length = 8) : exec (.templates h n im) s =
      .next ((s.onTenant h.tenant (fun t => { t with templates := (im.zipIdx).foldl (fun m e =>
        SMap.put [] m (n + e.2) (if e.1.all (· == 0#64) then [] else e.1)) t.templates })).finishCmd h 4 0 []) := by
  have hgood : ¬ (im.isEmpty || decide (128 < im.length) || decide (4096 < n + im.length) || im.any (fun i => decide (i.length ≠ 8))) = true := by
    simp only [Bool.or_eq_true, List.isEmpty_iff, decide_eq_true_eq, List.any_eq_true]
    rintro (((h | h) | h) | ⟨i, hi, h⟩)
    exacts [hne h, absurd h (by omega), absurd h (by omega), h (hwords i hi)]
  rw [Laws.exec_templates]
  unfold execTemplates
  rw [hown, if_neg (by simp), if_neg hgood]

section
variable {n : Nat} {l : List Routine} (hne : l ≠ []) (hlen : l.length ≤ 32) (hn : n + l.length ≤ 1024)
include hne hlen hn

theorem routines_eq : exec (.routines h n l) s = .next (((List.range 34).foldl (fun t k => t.onStack k (fun y =>
    l.zipIdx.foldl (fun z e => z.writeRoutine (n + e.2) e.1) y)) s).finishCmd h 5 0
      (bytesLE 2 (((l.zipIdx.find? (fun e => e.1.valid && !routineOk e.1)).map (fun e => n + e.2)).getD 0xFFFF))) := by
  have hgood : ¬ (l.isEmpty || decide (32 < l.length) || decide (1024 < n + l.length)) = true := by
    simp only [Bool.or_eq_true, List.isEmpty_iff, decide_eq_true_eq]
    rintro ((h | h) | h)
    exacts [hne h, absurd h (by omega), absurd h (by omega)]
  rw [Laws.exec_routines]
  unfold execRoutines
  exact if_neg hgood

theorem routines_spec :
    ∃ u : State, u = (List.range 34).foldl (fun t k => t.onStack k (fun y => l.zipIdx.foldl (fun z e => z.writeRoutine (n + e.2) e.1) y)) s
      ∧ ((∀ r ∈ l, r.valid = false ∨ routineOk r = true) → exec (.routines h n l) s = .next (u.finishCmd h 5 0 (bytesLE 2 0xFFFF)))
      ∧ ∀ k r, l[k]? = some r → r.valid = true → routineOk r = false → (∀ j q, j < k → l[j]? = some q → q.valid = false ∨ routineOk q = true) →
        exec (.routines h n l) s = .next (u.finishCmd h 5 0 (bytesLE 2 (n + k))) := by
  have hfine : ∀ r : Routine, r.valid = false ∨ routineOk r = true → (r.valid && !routineOk r) = false := by
    rintro r (h | h) <;> simp [h]
  refine ⟨_, rfl, fun hall => ?_, fun k r hk hvalid hbad hbefore => ?_⟩
  · have hnone : l.zipIdx.find? (fun e => e.1.valid && !routineOk e.1) = none :=
      List.find?_eq_none.mpr fun e he => by simp [hfine e.1 (hall e.1 (List.fst_mem_of_mem_zipIdx he))]
    rw [routines_eq hne hlen hn, hnone]
    rfl
  · obtain ⟨hlt, hget⟩ := List.getElem?_eq_some_iff.mp hk
    have hfirst : l.zipIdx.find? (fun e => e.1.valid && !routineOk e.1) = some (r, k) := by
      refine List.find?_eq_some_iff_getElem.mpr ⟨by simp [hvalid, hbad], k, by simpa using hlt, by simp [hget], fun j hj => ?_⟩
      have hj' := hbefore j l[j] hj (List.getElem?_eq_getElem (by omega))
      simp [hfine _ hj']
    rw [routines_eq hne hlen hn, hfirst]
    rfl

end

section
variable {b : List Byte} (hown : s.tenant h.tenant = some te)
include hown

theorem launch_spec (hlen : b.length = 136) (hbad : (launchReq b).bad = false) (hdenied : s.launchDenied h.tenant (launchReq b) = false)
    (hplace : (launchReq b).unplaceable = false) (hfence : (launchReq b).flags.testBit 2 = false) :
    let r := s.acceptLaunch h.tenant (launchReq b) 0#32 te.hostVec (some (h.queue, h.seq))
    exec (.launch h b) s = .next (r.2.finishCmd h 6 0 (bytesLE 8 (s.lastLaunch + 1))) := by
  intro r
  rw [Laws.exec_launch]
  unfold execLaunch
  rw [hown]
  dsimp only
  rw [hlen, hbad, hdenied, hplace, hfence, if_neg (by decide), if_neg (by decide), if_neg (by decide), Bool.false_and, if_neg (by decide)]
  rfl

theorem launch_bad (hbad : b.length ≠ 136 ∨ (launchReq b).bad = true) : exec (.launch h b) s = .next (s.finishCmd h 6 1 []) := by
  rw [Laws.exec_launch]
  unfold execLaunch
  rw [hown]
  exact if_pos (by simpa [imp_iff_not_or] using hbad)

end

end

end Sys2Proof.Machine

/-!
# Commands about counters, bytes and events

A lemma for each command of a host that reads or writes memory or takes event records (R125, R128, R134, R210).
-/

namespace Sys2Proof.Machine

open Claims

section
variable {s u : State} {h : CmdHead} {te : TenantSt} (hown : s.tenant h.tenant = some te)
include hown

/-! ### CNTSET (R128) -/

section
variable {va : Word} {loc : Nat} (hword : va.toNat % 8 = 0 ∧ s.prep h.tenant .wr [(va.toNat, 8)] = .ok u
  ∧ (∃ w, u.pieceLoc h.tenant va.toNat = some (loc, w)) ∧ u.locked loc 8 = false ∧ u.readsPoison h.tenant [(va.toNat, 8)] = false)
include hword

/-- The checks of CNTSET pass on a word that can be written and read. -/
theorem State.cntset_of_word (c : Cmd) (k : State → Nat → Res) : s.cntset h c va (fun u loc _ => k u loc) = k u loc := by
  obtain ⟨halign, hprep, ⟨w, hpiece⟩, hlock, hpoison⟩ := hword
  unfold State.cntset
  rw [hown, if_neg (by simp), if_neg (not_not.mpr halign), hprep]
  dsimp only
  rw [hpiece]
  dsimp only
  rw [if_neg (ne_true_of_eq_false hlock), if_neg (ne_true_of_eq_false hpoison)]

theorem cntsetSet_spec (v : Word) : exec (.cntsetSet h va v) s =
    .next (((u.hostWrite h.tenant loc (bytesLE 8 v.toNat)).settle [.fire loc]).finishCmd h 7 0 (bytesLE 8 (u.natAtLoc loc 8))) := by
  rw [Laws.exec_cntsetSet]
  exact State.cntset_of_word hown hword _ (fun u loc =>
    .next (((u.hostWrite h.tenant loc (bytesLE 8 v.toNat)).settle [.fire loc]).finishCmd h 7 0 (bytesLE 8 (u.natAtLoc loc 8))))

theorem cntsetDec_spec (v : Word) :
    let old := u.natAtLoc loc 8
    let n := v.toNat % 2 ^ 32
    (old % 2 ^ 32 < n → exec (.cntsetDec h va v) s = .next (u.finishCmd h 7 1 []))
    ∧ (n = 0 → exec (.cntsetDec h va v) s = .next (u.finishCmd h 7 0 (bytesLE 8 old)))
    ∧ (n ≤ old % 2 ^ 32 → n ≠ 0 → exec (.cntsetDec h va v) s =
        .next (((u.hostWrite h.tenant loc (bytesLE 8 (old - n))).settle [.fire loc]).finishCmd h 7 0 (bytesLE 8 old))) := by
  intro old n
  have hexec : exec (.cntsetDec h va v) s = if old % 2 ^ 32 < n then .next (u.finishCmd h 7 1 [])
      else if n = 0 then .next (u.finishCmd h 7 0 (bytesLE 8 old))
      else .next (((u.hostWrite h.tenant loc (bytesLE 8 (old - n))).settle [.fire loc]).finishCmd h 7 0 (bytesLE 8 old)) := by
    rw [Laws.exec_cntsetDec]
    exact State.cntset_of_word hown hword _ (fun u loc =>
      if u.natAtLoc loc 8 % 2 ^ 32 < n then .next (u.finishCmd h 7 1 [])
      else if n = 0 then .next (u.finishCmd h 7 0 (bytesLE 8 (u.natAtLoc loc 8)))
      else .next (((u.hostWrite h.tenant loc (bytesLE 8 (u.natAtLoc loc 8 - n))).settle [.fire loc]).finishCmd h 7 0 (bytesLE 8 (u.natAtLoc loc 8))))
  refine ⟨fun hlt => hexec.trans (if_pos hlt), fun hn => hexec.trans ((if_neg (by omega)).trans (if_pos hn)),
    fun hle hn => hexec.trans ((if_neg (Nat.not_lt.mpr hle)).trans (if_neg hn))⟩

end

/-! ### COPYIN and COPYOUT (R125) -/

theorem copyin_spec {va : Word} {b : List Byte} (hne : b ≠ []) (hlen : b.length ≤ 8192)
    (hprep : s.prep h.tenant .wr (splitPages 4 va.toNat b.length) = .ok u)
    (hfree : ∀ e ∈ splitPages 4 va.toNat b.length, ∀ y, u.pieceLoc h.tenant e.1 = some y → u.locked y.1 e.2 = false) :
    let l := splitPages 4 va.toNat b.length
    exec (.copyin h va b) s = .next (((l.foldl (fun v e => match v.pieceLoc h.tenant e.1 with
      | some y => v.hostWrite h.tenant y.1 ((b.drop (e.1 - va.toNat)).take e.2)
      | none => v) u).onTenant h.tenant (fun y => { y with marked := y.marked.filter (fun p =>
        !((l.filter (fun e => e.2 == 4096)).map (·.1)).contains p) })).finishCmd h 8 0 []) := by
  intro l
  have hgood : ¬ (b.isEmpty || decide (8192 < b.length)) = true := by
    simp only [Bool.or_eq_true, List.isEmpty_iff, decide_eq_true_eq]
    exact not_or.mpr ⟨hne, by omega⟩
  have hunlocked : ¬ (l.any fun e => match u.pieceLoc h.tenant e.1 with | some x => u.locked x.1 e.2 | none => false) = true := by
    rw [List.any_eq_true]
    rintro ⟨e, he, hlock⟩
    cases hp : u.pieceLoc h.tenant e.1 with
    | none => rw [hp] at hlock; exact Bool.false_ne_true hlock
    | some y =>
      rw [hp] at hlock
      exact Bool.false_ne_true ((hfree e he y hp).symm.trans hlock)
  rw [Laws.exec_copyin]
  unfold execCopyin
  rw [hown, if_neg (by simp), if_neg hgood]
  dsimp only
  rw [hprep]
  exact if_neg hunlocked

theorem copyout_spec {va : Word} {n : Nat} (hn : 0 < n) (hlen : n ≤ 8192) (hprep : s.prep h.tenant .rd (splitPages 4 va.toNat n) = .ok u) :
    (u.readsPoison h.tenant (splitPages 4 va.toNat n) = true → exec (.copyout h va n) s = .next (u.finishCmd h 9 6 []))
    ∧ (u.readsPoison h.tenant (splitPages 4 va.toNat n) = false → exec (.copyout h va n) s = .next (u.finishCmd h 9 0
        ((splitPages 4 va.toNat n).flatMap (fun e => match u.pieceLoc h.tenant e.1 with | some y => u.bytesAt y.1 e.2 | none => [])))) := by
  have hgood : ¬ (decide (n = 0) || decide (8192 < n)) = true := by
    simp only [Bool.or_eq_true, decide_eq_true_eq]
    omega
  rw [Laws.exec_copyout]
  unfold execCopyout
  rw [hown, if_neg (by simp), if_neg hgood]
  dsimp only
  rw [hprep]
  exact ⟨fun hp => if_pos hp, fun hp => if_neg (ne_true_of_eq_false hp)⟩

/-! ### WAITEV (R134) -/

theorem waitev_spec {m : Word} {n us : Nat} (hn : 0 < n) (hn64 : n ≤ 64) (hus : us ≤ 10000000) (hnew : ∀ w ∈ te.waits, w.head ≠ h) :
    let hit := (te.events.filter (fun e => m.toNat.testBit (e.code.toNat % 64))).take n
    (hit ≠ [] ∨ us = 0 → exec (.waitev h m n us) s = .next ((s.onTenant h.tenant (fun y =>
      { y with events := y.events.filter (fun e => !hit.contains e) })).finishCmd h 0x0A 0 (hit.flatMap (·.bytes))))
    ∧ (hit = [] → us ≠ 0 → exec (.waitev h m n us) s = .next ((s.leaveQueue h).onTenant h.tenant (fun y => { y with waits := y.waits ++
        [{ head := h, mask := m, max := n, ends := s.cycle.toNat + 4000 * us }] }))) := by
  intro hit
  have hgood : ¬ (decide (n = 0) || decide (64 < n) || decide (10000000 < us)) = true := by
    simp only [Bool.or_eq_true, decide_eq_true_eq]
    omega
  have hfirst : ¬ (te.waits.any fun w => w.head == h) = true := by simpa using hnew
  have hexec : exec (.waitev h m n us) s = if (!hit.isEmpty || decide (us = 0)) = true then
        .next ((s.onTenant h.tenant (fun y => { y with events := y.events.filter (fun e => !hit.contains e) })).finishCmd h 0x0A 0 (hit.flatMap (·.bytes)))
      else .next ((s.leaveQueue h).onTenant h.tenant (fun y => { y with waits := y.waits ++
        [{ head := h, mask := m, max := n, ends := s.cycle.toNat + 4000 * us }] })) := by
    rw [Laws.exec_waitev]
    unfold execWaitev
    rw [hown]
    dsimp only
    rw [if_neg hgood, if_neg hfirst]
    rfl
  refine ⟨fun hnow => hexec.trans (if_pos ?_), fun hnone hwait => hexec.trans (if_neg ?_)⟩
  · rcases hnow with hsome | hzero
    · rw [List.isEmpty_eq_false_iff.mpr hsome]
      rfl
    · rw [hzero]
      exact Bool.or_true _
  · rw [hnone, decide_eq_false hwait]
    decide

theorem waitevTimeout_spec (hover : ∃ w ∈ te.waits, w.head = h ∧ w.ends ≤ s.cycle.toNat) :
    exec (.waitevTimeout h) s = .next ((s.onTenant h.tenant (fun y => { y with waits := y.waits.filter (fun w => !(w.head == h)) })).answer h 0x0A 0 []) := by
  have hany : (te.waits.any fun w => w.head == h && decide (w.ends ≤ s.cycle.toNat)) = true := by simpa using hover
  rw [Laws.exec_waitevTimeout]
  unfold execWaitevTimeout
  rw [hown]
  exact if_pos hany

/-! ### PAGEDATA and PAGEOUT (R210) -/

theorem pagedata_spec {k : BitVec 44} {o : Nat} {b : List Byte} {f : PageXfer} (hf : te.fetches.find? (fun f => f.handle == k.toNat) = some f) (hne : b ≠ [])
    (hlen : b.length ≤ 8192) (hfit : o + b.length ≤ 2 ^ f.bits) :
    let loc := ownLoc (f.frame * 4096 + o)
    let u := s.applyWrite loc b (s.homeSlice loc) .local
    exec (.pagedata h k o b false) s = .next (u.finishCmd h 0x11 0 [])
    ∧ ∀ w, te.windowAt f.va = some w →
      let v := (((u.mapPage h.tenant f.va.toNat ((({ w with tier := 0, pbase := f.frame, va := f.va } : Window).pte f.va.toNat).toNat) f.bits).tlbPage
        h.tenant f.va.toNat).onTenant h.tenant (fun y => { y with fetches := y.fetches.filter (fun g => !(g.handle == k.toNat)) }))
      exec (.pagedata h k o b true) s = .next ((v.resumeFetched.settle (v.completions h.tenant)).finishCmd h 0x11 0 []) := by
  have hgood : ¬ (b.isEmpty || decide (8192 < b.length) || decide (2 ^ f.bits < o + b.length)) = true := by
    simp only [Bool.or_eq_true, List.isEmpty_iff, decide_eq_true_eq]
    rintro ((h | h) | h)
    exacts [hne h, absurd h (by omega), absurd h (by omega)]
  intro loc u
  refine ⟨?_, fun w hw => ?_⟩
  · rw [Laws.exec_pagedata]
    unfold execPagedata
    rw [hown]
    dsimp only
    rw [hf]
    exact if_neg hgood
  · rw [Laws.exec_pagedata]
    unfold execPagedata
    rw [hown]
    dsimp only
    rw [hf]
    dsimp only
    rw [if_neg hgood, if_neg (by decide), hw]
    rfl

theorem pageout_spec {k : BitVec 44} {o n : Nat} {e : PageXfer} (he : te.evictions.find? (fun e => e.handle == k.toNat) = some e) (hn : 0 < n)
    (hlen : n ≤ 8192) (hfit : o + n ≤ 2 ^ e.bits) :
    let loc := ownLoc (e.frame * 4096 + o)
    (s.poisoned loc n = true → ∀ b, exec (.pageout h k o n b) s = .next (s.finishCmd h 0x12 6 []))
    ∧ (s.poisoned loc n = false → exec (.pageout h k o n false) s = .next (s.finishCmd h 0x12 0 (s.bytesAt loc n)))
    ∧ (s.poisoned loc n = false → ∃ u : State, exec (.pageout h k o n true) s = .next (u.finishCmd h 0x12 0 (s.bytesAt loc n))
        ∧ (s.fetching = [] → u = s.onTenant h.tenant (fun y => { y with evictions := y.evictions.filter (fun g => !(g.handle == k.toNat)) }))) := by
  have hgood : ¬ (decide (n = 0) || decide (8192 < n) || decide (2 ^ e.bits < o + n)) = true := by
    simp only [Bool.or_eq_true, decide_eq_true_eq]
    omega
  intro loc
  refine ⟨fun hp b => ?_, fun hp => ?_, fun hp => ?_⟩
  · rw [Laws.exec_pageout]
    unfold execPageout
    rw [hown]
    dsimp only
    rw [he]
    exact (if_neg hgood).trans (if_pos hp)
  · rw [Laws.exec_pageout]
    unfold execPageout
    rw [hown]
    dsimp only
    rw [he]
    exact (if_neg hgood).trans (if_neg (ne_true_of_eq_false hp))
  · rw [Laws.exec_pageout]
    unfold execPageout
    rw [hown]
    dsimp only
    rw [he]
    refine ⟨_, (if_neg hgood).trans (if_neg (ne_true_of_eq_false hp)), fun hnone => ?_⟩
    have hfetching : (s.onTenant h.tenant (fun y => { y with evictions := y.evictions.filter (fun g => !(g.handle == k.toNat)) })).fetching = [] :=
      ((State.Tells.onTenant ..).keeps State.fetching).trans hnone
    rw [if_pos rfl, if_pos rfl]
    exact congrArg (List.foldl _ _) (congrArg (List.filter _) hfetching)

end

end Sys2Proof.Machine

/-!
# Commands about groups, checkpoints and the package

A lemma for each command of a host about collective groups, checkpoints, attestation and power (R22, R111 to R115, R138, R410, R419).
-/

namespace Sys2Proof.Machine

open Claims

section
variable {s : State} {h : CmdHead}

/-! ### GROUP (R54, R410, R419) -/

/-- A group that is bound is among the entries of every router (R54). -/
theorem State.mem_bindGroup (s : State) (g : BitVec 32) {k : Nat} (hk : k < 20) : g.toNat ∈ SMap.look [] (s.bindGroup g).fab.groupTables k := by
  have hread : SMap.look [] (s.bindGroup g).fab.groupTables k = insNat (SMap.look [] s.fab.groupTables k) g.toNat :=
    foldl_range_at (g := fun (t : State) k => SMap.look [] t.fab.groupTables k) (w := fun _ l => insNat l g.toNat)
      (fun t k => SMap.look_alter_same t.fab.groupTables k (fun l => insNat l g.toNat))
      (fun t _ _ hne => SMap.look_alter_other t.fab.groupTables (fun l => insNat l g.toNat) hne) hk s
  rw [hread]
  exact mem_insNat.mpr (.inl rfl)

/-- A new group of a tenant, as GROUP CREATE makes it (R410). -/
def newGroup (b : GroupBody) (tn : Nat) : Group :=
  { tenant := tn, key := b.key, n := b.n, k := b.k, lag := b.lag, rule := b.rule, op := b.op, count := b.count, weights := b.weights,
    members := b.members, poisoned := false, openRound := 0#32, cur := Round.empty b.count, next := Round.empty b.count, arrived := [],
    dies := [], messages := [], flight := [], sending := [] }

/-- The state with a new group that is not bound yet. -/
def State.withGroup (s : State) (b : GroupBody) (tn : Nat) : State :=
  { s with lastGroup := s.lastGroup + 1, groups := SMap.put none s.groups (s.lastGroup + 1) (some (newGroup b tn)) }

section
variable {te : TenantSt} (hown : s.tenant h.tenant = some te)
include hown

theorem groupCreate_eq {b : GroupBody} (hgood : s.badGroup h.tenant b = false)
    (hroom : ∀ m ∈ b.members, m.1 = s.pkgid → (SMap.look [] s.fab.groupTables (s.physDie m.2)).length < 256) : exec (.groupCreate h b) s =
    .next (((s.withGroup b h.tenant).bindGroup (BitVec.ofNat 32 (s.lastGroup + 1))).finishCmd h 0x0B 0 (bytesLE 4 (s.lastGroup + 1))) := by
  have hfree : ¬ (((b.members.filter (fun m => m.1 == s.pkgid)).map (·.2)).eraseDups.any
      fun d => decide (256 ≤ (SMap.look [] s.fab.groupTables (s.physDie d)).length)) = true := by
    rw [List.any_eq_true]
    rintro ⟨d, hd, hfull⟩
    obtain ⟨m, hm, rfl⟩ := List.mem_map.mp (List.mem_eraseDups.mp hd)
    obtain ⟨hm, hmine⟩ := List.mem_filter.mp hm
    exact absurd (hroom m hm (eq_of_beq hmine)) (Nat.not_lt.mpr (of_decide_eq_true hfull))
  rw [Laws.exec_groupCreate]
  unfold execGroupCreate
  rw [hown, if_neg (by simp), if_neg (ne_true_of_eq_false hgood)]
  exact if_neg hfree

theorem groupCreate_spec {b : GroupBody} (hgood : s.badGroup h.tenant b = false)
    (hroom : ∀ m ∈ b.members, m.1 = s.pkgid → (SMap.look [] s.fab.groupTables (s.physDie m.2)).length < 256) :
    ∃ u : State, exec (.groupCreate h b) s = .next (u.finishCmd h 0x0B 0 (bytesLE 4 (s.lastGroup + 1))) ∧ u.lastGroup = s.lastGroup + 1
      ∧ (∀ k, k < 20 → (s.lastGroup + 1) % 2 ^ 32 ∈ SMap.look [] u.fab.groupTables k)
      ∧ ∃ g, SMap.look none u.groups (s.lastGroup + 1) = some g ∧ g.tenant = h.tenant ∧ g.members = b.members ∧ g.n = b.n ∧ g.k = b.k
        ∧ g.lag = b.lag ∧ g.rule = b.rule ∧ g.op = b.op ∧ g.count = b.count ∧ g.openRound = 0#32 ∧ g.poisoned = false := by
  refine ⟨_, groupCreate_eq hown hgood hroom, State.foldl_keeps (g := State.lastGroup) rfl, fun k hk => ?_, newGroup b h.tenant, ?_, rfl, rfl, rfl, rfl, rfl,
    rfl, rfl, rfl, rfl, rfl⟩
  · have hmem := State.mem_bindGroup (s.withGroup b h.tenant) (BitVec.ofNat 32 (s.lastGroup + 1)) hk
    rwa [BitVec.toNat_ofNat] at hmem
  · have hgroups : ((s.withGroup b h.tenant).bindGroup (BitVec.ofNat 32 (s.lastGroup + 1))).groups = (s.withGroup b h.tenant).groups :=
      State.foldl_keeps (g := State.groups) rfl
    rw [hgroups]
    exact SMap.look_put_same ..

end

theorem groupPoison_spec {k : BitVec 32} {g : Group} (hg : s.group k = some g) (hmine : g.tenant = h.tenant) :
    exec (.groupPoison h k) s = .next ((s.poisonGroup k true).finishCmd h 0x0B 0 (bytesLE 4 k.toNat)) := by
  rw [Laws.exec_groupPoison]
  unfold execGroupPoison
  rw [hg]
  exact if_pos hmine

/-! ### CKPT (R111 to R114, R127) -/

/-- What a function gives for each pair of two lists of one length stands beside the first of the pair. -/
theorem zip_filterMap_zip {α β γ : Type} {f : α × β → Option γ} : ∀ {xs : List α} {ys : List β}, ys.length = xs.length →
    (∀ e ∈ xs.zip ys, ∃ y, f e = some y) → ((xs.zip ys).filterMap f).length = xs.length
      ∧ ∀ z ∈ ((xs.zip ys).filterMap f).zip xs, ∃ e ∈ xs.zip ys, e.1 = z.2 ∧ f e = some z.1
  | [], _, _, _ => ⟨by simp, by simp⟩
  | _ :: _, [], hlen, _ => absurd hlen (by simp)
  | x :: xs, y :: ys, hlen, hall => by
    obtain ⟨⟨v, hv⟩, hrest⟩ := List.forall_mem_cons.mp hall
    obtain ⟨hlength, hzip⟩ := zip_filterMap_zip (Nat.succ.inj hlen) hrest
    rw [List.zip_cons_cons, List.filterMap_cons, hv]
    refine ⟨congrArg Nat.succ hlength, fun z hz => ?_⟩
    rcases List.mem_cons.mp hz with rfl | hz
    · exact ⟨(x, y), List.mem_cons_self .., rfl, hv⟩
    · obtain ⟨e, he, hfst, hsome⟩ := hzip z hz
      exact ⟨e, List.mem_cons_of_mem _ he, hfst, hsome⟩

/-- A step that has just entered is not reclaimed (R114). -/
theorem mem_reclaim {l : List CkptStep} {c : CkptStep} (h : c ∈ l) : c ∈ reclaim l c :=
  mem_without.mpr ⟨h, by simp⟩

section
variable {te : TenantSt} {b : CkptBody} {r : CkptReport} (hown : s.tenant h.tenant = some te) (h3 : 3 ≤ b.members.length) (h64 : b.members.length ≤ 64)
  (hq : b.q = 1 ∨ b.q = 2) (hshards : ∀ y ∈ b.shards, y.replicas ≠ [])

include h3 h64 hq hshards in
/-- The limits of a checkpoint hold. -/
theorem ckpt_limits :
    ¬ (decide (b.members.length < 3) || decide (64 < b.members.length) || decide (b.q = 0) || decide (2 < b.q)
      || b.shards.any (fun x => x.replicas.isEmpty)) = true := by
  simp only [Bool.or_eq_true, decide_eq_true_eq, List.any_eq_true, List.isEmpty_iff]
  rintro ((((h | h) | h) | h) | ⟨y, hy, h⟩)
  exacts [absurd h (by omega), absurd h (by omega), absurd h (by omega), absurd h (by omega), hshards y hy h]

/-- The records of a step's shards. -/
def State.ckptRecs (s : State) (b : CkptBody) (r : CkptReport) : List (ShardRec × List Byte) :=
  (b.shards.zip r.copies).filterMap (fun e => s.shardRec e.1 e.2)

/-- A step with its commit records at every member (R113). -/
def State.ckptStep (s : State) (tn : Nat) (b : CkptBody) (r : CkptReport) : CkptStep :=
  let c0 : CkptStep :=
    { tenant := tn, step := b.step, members := b.members, q := b.q, shards := (s.ckptRecs b r).map (·.1),
      units := (ckptUnits b.members.length b.q ((s.ckptRecs b r).flatMap (·.2))).filter (fun u => s.livePkg (b.members.getD u.slot 0#12)), records := [] }
  { c0 with records := b.members.map (fun m => (m, c0.recordHash)) }

/-- The hash of a commit record does not cover who holds it (R113). -/
theorem CkptStep.recordHash_withRecords (c : CkptStep) (l : List (BitVec 12 × BitVec 384)) : ({ c with records := l } : CkptStep).recordHash = c.recordHash := rfl

include h3 in
theorem State.committed_ckptStep : (s.ckptStep h.tenant b r).committed (fun _ => true) = true := by
  obtain ⟨m, hm⟩ := List.exists_mem_of_length_pos (show 0 < b.members.length by omega)
  unfold State.ckptStep CkptStep.committed
  rw [CkptStep.recordHash_withRecords]
  exact List.any_eq_true.mpr ⟨_, List.mem_map_of_mem hm, by simp⟩

include hown h3 h64 hq hshards

theorem ckpt_waits (hreport : ckptReported b r = false) : exec (.ckpt h b r) s = .next (s.keepCmd h (.ckpt b)) := by
  rw [Laws.exec_ckpt]
  unfold execCkpt
  rw [hown, if_neg (by simp), if_neg (ckpt_limits h3 h64 hq hshards)]
  exact if_pos (by rw [hreport]; rfl)

theorem ckpt_commits (hreport : ckptReported b r = true) (hack : r.acked = true) (hlive : ∀ m ∈ b.members, s.livePkg m = true)
    (hagree : ∀ e ∈ b.shards.zip r.copies, ∃ y, s.shardRec e.1 e.2 = some y ∧ y.1.diverging e.1.replicas = 0) :
    ∃ u : State, exec (.ckpt h b r) s = .next ((u.post h.tenant 0x0004#16 0#8 0#32 0 (BitVec.ofNat 64 b.step)).finishCmd h 0x0C 0 [])
      ∧ ∃ y ∈ u.rcv.ckpts, y.tenant = h.tenant ∧ y.step = b.step ∧ y.members = b.members ∧ y.q = b.q ∧ y.committed (fun _ => true) = true := by
  have hcopies : r.copies.length = b.shards.length := of_decide_eq_true (Bool.and_eq_true_iff.mp hreport).1
  obtain ⟨hlength, hzip⟩ := zip_filterMap_zip (f := fun e : Shard × List (List Byte) => s.shardRec e.1 e.2) hcopies fun e he =>
    (hagree e he).imp fun _ hy => hy.1
  have hnone : (((s.ckptRecs b r).zip b.shards).zipIdx).find? (fun e => e.1.1.1.diverging e.1.2.replicas != 0) = none := by
    refine List.find?_eq_none.mpr fun e he => ?_
    obtain ⟨f, hf, hfst, hsome⟩ := hzip e.1 (List.fst_mem_of_mem_zipIdx he)
    obtain ⟨y, hy, hsame⟩ := hagree f hf
    rw [hsome] at hy
    rw [← hfst, Option.some.inj hy, hsame]
    decide
  have hok : ((((s.ckptRecs b r).zip b.shards).zipIdx.find? (fun e => e.1.1.1.diverging e.1.2.replicas != 0)).isNone && r.acked
      && decide ((s.ckptRecs b r).length = b.shards.length) && b.members.all s.livePkg) = true := by
    rw [hnone, hack, decide_eq_true (show (s.ckptRecs b r).length = b.shards.length from hlength), List.all_eq_true.mpr hlive]
    rfl
  let old := without s.rcv.ckpts (fun x => x.tenant == h.tenant && x.step == b.step)
  let u : State := { s with rcv := { s.rcv with ckpts := reclaim (enq old (s.ckptStep h.tenant b r)) (s.ckptStep h.tenant b r) } }
  refine ⟨u, ?_, s.ckptStep h.tenant b r, mem_reclaim (List.mem_append_right _ (List.mem_singleton_self _)), rfl, rfl, rfl, rfl, State.committed_ckptStep h3⟩
  rw [Laws.exec_ckpt]
  unfold execCkpt
  rw [hown, if_neg (by simp), if_neg (ckpt_limits h3 h64 hq hshards), if_neg (by rw [hreport]; decide)]
  extract_lets recs diverged ok c0 c old' v s1
  have hok' : ok = true := hok
  have hc : c = s.ckptStep h.tenant b r := if_pos hok'
  have hold : old' = old := by
    simp only [old', old, hok', Bool.true_or, Bool.and_true]
  have hs1 : s1 = u := by
    show ({ s with rcv := { s.rcv with ckpts := if ok = true then reclaim (enq old' c) c else enq old' c } } : State) = u
    rw [hold, hc, if_pos hok']
  rw [hs1]
  exact if_pos hok'

end

/-! ### RESTORE (R115) -/

/-- A step that can be rebuilt is the only one of its list that can. -/
theorem rebuilt_only {y : CkptStep} {live : BitVec 12 → Bool} {d : List (List (Nat × List Byte))} (hbuild : y.rebuild live = some d) :
    [y].filterMap (fun c => (c.rebuild live).map (fun d => (c, d))) = [(y, d)] :=
  List.filterMap_cons_some (congrArg (Option.map _) hbuild)

section
variable {te : TenantSt} {m : List (BitVec 12)} {r : List (Nat × BitVec 12)} (hown : s.tenant h.tenant = some te) (hne : m ≠ []) (hlen : m.length ≤ 64)
include hown hne hlen

theorem restore_none (hnone : ∀ y ∈ s.rcv.ckpts, y.tenant = h.tenant →
      y.committed (fun p => m.contains p && s.livePkg p) = false ∨ y.rebuild (fun p => m.contains p && s.livePkg p) = none) :
    exec (.restore h m r) s = .next ((s.post h.tenant 0x0006#16 0#8 0#32 0 0#64).finishCmd h 0x0D 6 []) := by
  have hgood : ¬ (m.isEmpty || decide (64 < m.length)) = true := by
    simp only [Bool.or_eq_true, List.isEmpty_iff, decide_eq_true_eq]
    exact not_or.mpr ⟨hne, by omega⟩
  rw [Laws.exec_restore]
  unfold execRestore
  rw [hown, if_neg (by simp), if_neg hgood]
  extract_lets live mine best
  have hmine : mine.filterMap (fun c => (c.rebuild live).map (fun d => (c, d))) = [] := by
    refine List.filterMap_eq_nil_iff.mpr fun c hc => ?_
    obtain ⟨hc, hcommit⟩ := List.mem_filter.mp hc
    obtain ⟨htenant, hcommit⟩ := Bool.and_eq_true_iff.mp hcommit
    rcases hnone c hc (eq_of_beq htenant) with hbad | hbad
    · exact absurd (hbad.symm.trans hcommit) Bool.false_ne_true
    · exact congrArg (Option.map _) hbad
  have hbest : best = none := by
    show List.foldl _ _ _ = _
    rw [hmine]
    rfl
  rw [hbest]

theorem restore_only {y : CkptStep} {d : List (List (Nat × List Byte))} (hall : s.rcv.ckpts = [y]) (hy : y.tenant = h.tenant)
    (hcommit : y.committed (fun p => m.contains p && s.livePkg p) = true) (hbuild : y.rebuild (fun p => m.contains p && s.livePkg p) = some d) :
    let live := fun (p : BitVec 12) => m.contains p && s.livePkg p
    exec (.restore h m r) s = .next (((y.handOut live r (d.flatMap (fun l => l.flatMap (·.2)))).foldl State.send
      { s with rcv := { s.rcv with ckpts := [y.restored live r d] } }).finishCmd h 0x0D 0 (bytesLE 8 y.step)) := by
  have hgood : ¬ (m.isEmpty || decide (64 < m.length)) = true := by
    simp only [Bool.or_eq_true, List.isEmpty_iff, decide_eq_true_eq]
    exact not_or.mpr ⟨hne, by omega⟩
  rw [Laws.exec_restore]
  unfold execRestore
  rw [hown, if_neg (by simp), if_neg hgood]
  extract_lets live mine best live'
  have hmine : mine = [y] := by
    show s.rcv.ckpts.filter _ = _
    rw [hall]
    exact List.filter_cons_of_pos (by rw [hy, beq_self_eq_true, Bool.true_and]; exact hcommit)
  have hbuilt : mine.filterMap (fun c => (c.rebuild live).map (fun d => (c, d))) = [(y, d)] := by
    rw [hmine]
    exact rebuilt_only hbuild
  have hbest : best = some (y, d) := by
    show List.foldl _ _ (mine.filterMap _) = _
    rw [hbuilt]
    rfl
  rw [hbest]
  have hckpts : (without s.rcv.ckpts (fun x => x.tenant == h.tenant && decide (y.step < x.step) && !x.committed live
      && x.members.any (y.members.contains ·))).map (fun x => if x = y then y.restored live r d else x) = [y.restored live r d] := by
    rw [hall]
    simp [without]
  dsimp only
  rw [hckpts]

end

/-! ### ATTEST and POWERCAP (R22, R138) -/

theorem attest_spec (n : BitVec 256) :
    let q := Crypto.bytesBE 32 n.toNat ++ (List.range 16).flatMap (fun i => Crypto.bytesBE 48 (SMap.look 0#384 s.pkg.meas i).toNat)
      ++ bytesLE 8 s.pkg.fuse0.version.toNat ++ s.pkg.fuse0.repair.flatMap unitBytes ++ bytesLE 4 (s.router 0 0xC0).toNat ++ s.mapBytes
      ++ bytesLE 8 s.cycle.toNat
    exec (.attest h n) s = .next (({ s with pkg := { s.pkg with nonces := s.pkg.nonces + 1 } } : State).finishCmd h 0x0F 0
      (q ++ Crypto.ecdsaSign s.identity.1 (Config.secret s.pkg.nonces) q ++ Crypto.keyBytes s.identity.2 ++ Config.certSig s.pkg.fuse0.seed)) := by
  intro q
  have hquote : s.quote n = q := by rw [State.quote]
  rw [← hquote, Laws.exec_attest, execAttest]

theorem powercap_spec (w : Nat) :
    (2500 ≤ w → w ≤ 8000 → exec (.powercap h w) s = .next (({ s with pkg := { s.pkg with cap := w } } : State).finishCmd h 0x10 0 []))
    ∧ (w < 2500 ∨ 8000 < w → exec (.powercap h w) s = .next (s.finishCmd h 0x10 1 [])) := by
  rw [Laws.exec_powercap]
  unfold execPowercap
  refine ⟨fun hlo hhi => if_neg ?_, fun hout => if_pos ?_⟩
  all_goals
    simp only [Bool.or_eq_true, decide_eq_true_eq]
    omega

end

end Sys2Proof.Machine

/-!
# Host sessions and commands: the obligation
-/

namespace Sys2Proof.Machine

open Claims

/-- Settles O59, clause by clause: each names the lemma about its step or command. -/
theorem hostSessionsAndCommands : Obligations.HostSessionsAndCommands := by
  intro s h x te sid dg hd body now sess own sealed word
  exact ⟨fun _ _ hi hin => scp_ignored hi hin,
    fun k hbad => State.scpIn_eq_none k hbad,
    rfl,
    fun hin => scpHello_spec hin,
    fun hin => scpAuth_spec hin,
    fun hin => scpAck_spec hin,
    State.received_of_le,
    State.received_of_gt,
    fun hin => scpBye_spec hin,
    fun hx => scpIdleTimeout_spec hx,
    fun hx => scpAckTimer_spec hx,
    fun m hx hm => scpResendTimer_spec hx m hm,
    fun hin => scpCommandReceive_spec hin,
    fun op c => State.enterCmd_spec op c,
    portFailover_spec,
    ⟨rfl, rfl⟩,
    fun _ => rfl,
    fun _ _ _ _ _ hq hq8 hec hec64 hed => ⟨fun _ _ hg hdbg hn => openTenant_new hq hq8 hec hec64 hed hg hdbg hn,
      fun _ hg hdbg hfull => openTenant_full hq hq8 hec hec64 hed hg hdbg hfull,
      fun _ _ hn hmay hy => openTenant_attach hq hq8 hec hec64 hed hn hmay hy⟩,
    close_spec,
    fun _ b _ hn hy => reset_spec b hn hy,
    fun _ _ hown hbad hlen => mapwin_unmap hown hbad hlen,
    fun _ _ hown hbad hlen hrange => mapwin_map hown hbad hlen hrange,
    fun _ _ hown hne hlen hn hwords => templates_spec hown hne hlen hn hwords,
    fun _ _ hne hlen hn => routines_spec hne hlen hn,
    fun _ hown hlen hbad hdenied hplace hfence => launch_spec hown hlen hbad hdenied hplace hfence,
    fun _ hown hbad => launch_bad hown hbad,
    fun _ v _ _ hown hword => cntsetSet_spec hown hword v,
    fun _ v _ _ hown hword => cntsetDec_spec hown hword v,
    fun _ _ _ hown hne hlen hprep hfree => copyin_spec hown hne hlen hprep hfree,
    fun _ _ _ hown hn hlen hprep => copyout_spec hown hn hlen hprep,
    fun _ _ _ hown hn hn64 hus hnew => waitev_spec hown hn hn64 hus hnew,
    fun hown hover => waitevTimeout_spec hown hover,
    fun _ hown hgood hroom => groupCreate_spec hown hgood hroom,
    fun _ _ hg hmine => groupPoison_spec hg hmine,
    fun _ _ hown h3 h64 hq hshards => ⟨ckpt_waits hown h3 h64 hq hshards, ckpt_commits hown h3 h64 hq hshards⟩,
    fun _ _ hown hne hlen => ⟨restore_none hown hne hlen, fun _ _ hall hy hcommit hbuild => restore_only hown hne hlen hall hy hcommit hbuild⟩,
    attest_spec,
    fun w hlo hhi => (powercap_spec w).1 hlo hhi,
    fun w hout => (powercap_spec w).2 hout,
    fun _ _ _ _ hown hf hne hlen hfit => pagedata_spec hown hf hne hlen hfit,
    fun _ _ _ _ hown he hn hlen hfit => pageout_spec hown he hn hlen hfit⟩

end Sys2Proof.Machine

/-!
# The supervisor

A lemma for each step of the supervisor: trap records, its own cores, eviction and migration of pages, page walks, the end of runahead and monitors
(R135, R202, R207, R210 to R213, R323, R332, R335).
-/

namespace Sys2Proof.Machine

open Claims

/-! ### Lines of a range are dropped (R70, R211) -/

theorem State.Settles.l2Clean {r s : State} (h : r.Settles s) {d loc n : Nat} {inv : Bool} : r.Settles (s.l2Clean d loc n inv) := by
  have hback : r.Settles (((s.die d).l2.filter (fun x => overlaps loc n (x.line * 512) 512)).foldl (fun t x => t.l2WriteBack d x 15#4) s) :=
    h.foldl fun _ _ ht => ht.l2WriteBack
  exact (ite (hback.foldl fun _ _ ht => ht.dropClean).setL2 hback).foldl fun _ _ ht => ht.foldl fun _ _ hu => hu.ocWriteBack

theorem State.Settles.dropLines {r s : State} (h : r.Settles s) {loc n : Nat} : r.Settles (s.dropLines loc n) := h.foldl fun _ _ ht => ht.l2Clean

section
variable {s : State}

/-! ### Trap records (R135) -/

section
variable {q : TrapRec}

theorem State.serveTrap_mapped (hc : q.cause = 0x04#8) (hw : s.windowed q.tenant q.tval = true) (h0 : (s.mapPages q.tenant q.wanted).2 = 0) :
    s.serveTrap q = (s.mapPages q.tenant q.wanted).1.resume q.ctx := by
  rw [State.serveTrap, if_pos hc, if_pos hw]
  exact if_pos h0

theorem State.serveTrap_fetching (hc : q.cause = 0x04#8) (hw : s.windowed q.tenant q.tval = true) (h0 : (s.mapPages q.tenant q.wanted).2 ≠ 0) :
    let v := (s.mapPages q.tenant q.wanted).1
    s.serveTrap q = { v with fetching := v.fetching ++ [{ q with pages := q.wanted }] } := by
  rw [State.serveTrap, if_pos hc, if_pos hw]
  exact if_neg h0

theorem State.serveTrap_outside (hc : q.cause = 0x04#8) (hw : s.windowed q.tenant q.tval = false) : s.serveTrap q = (s.tellTrap q).kill q.ctx := by
  rw [State.serveTrap, if_pos hc, if_neg (ne_true_of_eq_false hw), State.unresolved]

theorem State.serveTrap_breakpoint (hc : q.cause = 0x0D#8) : s.serveTrap q =
    ((s.tellTrap q).onCtx q.ctx (fun x => { x with r := { x.r with epc := s.pastChain q.ctx 6 x.r.epc } })).resume q.ctx := by
  rw [State.serveTrap, if_neg (by rw [hc]; decide), if_pos hc]

theorem State.serveTrap_dend (hc : q.cause = 0x12#8) (hi : q.insn = Enc.dend) : s.serveTrap q = (s.tellTrap q).resume q.ctx := by
  rw [State.serveTrap, if_neg (by rw [hc]; decide), if_neg (by rw [hc]; decide), if_pos (by simp [hc, hi])]

theorem State.serveTrap_unresolved (h4 : q.cause ≠ 0x04#8) (hd : q.cause ≠ 0x0D#8) (h12 : q.cause ≠ 0x12#8 ∨ q.insn ≠ Enc.dend) :
    s.serveTrap q = (s.tellTrap q).kill q.ctx := by
  rw [State.serveTrap, if_neg h4, if_neg hd, if_neg (by simpa [Classical.or_iff_not_imp_left] using h12), State.unresolved]

variable {l : List TrapRec} (hq : s.traps = q :: l)
include hq

theorem trapResolution_stale (hst : (s.ctx q.ctx).st ≠ .trapped) : exec .trapResolution s = .next { s with traps := l } := by
  rw [Laws.exec_trapResolution, execTrapResolution, hq]
  exact congrArg _ (if_neg hst)

theorem trapResolution_served (hst : (s.ctx q.ctx).st = .trapped) : exec .trapResolution s = .next (State.serveTrap { s with traps := l } q) := by
  rw [Laws.exec_trapResolution, execTrapResolution, hq]
  exact congrArg _ (if_pos hst)

theorem trapResolution_spec (hst : (s.ctx q.ctx).st = .trapped) :
    let u : State := { s with traps := l }
    (q.cause = 0x04#8 → s.windowed q.tenant q.tval = true → (u.mapPages q.tenant q.wanted).2 = 0 →
      exec .trapResolution s = .next ((u.mapPages q.tenant q.wanted).1.resume q.ctx))
    ∧ (q.cause = 0x04#8 → s.windowed q.tenant q.tval = true → (u.mapPages q.tenant q.wanted).2 ≠ 0 →
        let v := (u.mapPages q.tenant q.wanted).1
        exec .trapResolution s = .next { v with fetching := v.fetching ++ [{ q with pages := q.wanted }] })
    ∧ (q.cause = 0x04#8 → s.windowed q.tenant q.tval = false → exec .trapResolution s = .next ((u.tellTrap q).kill q.ctx))
    ∧ (q.cause = 0x0D#8 → exec .trapResolution s = .next (((u.tellTrap q).onCtx q.ctx (fun x =>
        { x with r := { x.r with epc := u.pastChain q.ctx 6 x.r.epc } })).resume q.ctx))
    ∧ (q.cause = 0x12#8 → q.insn = Enc.dend → exec .trapResolution s = .next ((u.tellTrap q).resume q.ctx))
    ∧ (q.cause ≠ 0x04#8 → q.cause ≠ 0x0D#8 → q.cause ≠ 0x12#8 ∨ q.insn ≠ Enc.dend →
        exec .trapResolution s = .next ((u.tellTrap q).kill q.ctx)) := by
  intro u
  rw [trapResolution_served hq hst]
  exact ⟨fun hc hw h0 => congrArg _ (State.serveTrap_mapped hc hw h0), fun hc hw h0 => congrArg _ (State.serveTrap_fetching hc hw h0),
    fun hc hw => congrArg _ (State.serveTrap_outside hc hw), fun hc => congrArg _ (State.serveTrap_breakpoint hc),
    fun hc hi => congrArg _ (State.serveTrap_dend hc hi), fun h4 hd h12 => congrArg _ (State.serveTrap_unresolved h4 hd h12)⟩

end

/-! ### Supervisor cores (R332, R335) -/

theorem supervisorTrap_spec {d co : Nat} (k : BitVec 8) (v : Word) (hst : (s.ctx (supCtx d co)).st = .run ∨ (s.ctx (supCtx d co)).st = .wait) :
    exec (.supervisorTrap d co k v) s = .next (s.takeTrap (supCtx d co) k v false false [] 0#32) := by
  rw [Laws.exec_supervisorTrap, execSupervisorTrap]
  exact if_pos (by simpa using hst)

theorem supervisorCoreRestart_spec {d co : Nat} {p : Word} (hst : (s.ctx (supCtx d co)).st = .halted ∨ (s.ctx (supCtx d co)).st = .idle)
    (hp : p &&& 3#64 = 0#64) : Ends (.supervisorCoreRestart d co p) s (fun t =>
      (t.ctx (supCtx d co)).st = .run ∧ (t.ctx (supCtx d co)).r.pc = p ∧ SameMemory s t) := by
  refine ⟨s.onCtx (supCtx d co) (fun x => { x with st := .run, wait := .none, r := { x.r with pc := p, hints := [] } }), ?_, ?_, ?_,
    (State.Wakes.onCtx ..).sameMemory⟩
  · rw [Laws.exec_supervisorCoreRestart, execSupervisorCoreRestart]
    exact if_pos (by simpa [hp] using hst)
  all_goals rw [State.ctx_onCtx_same]

/-! ### Eviction and migration of pages (R209 to R213) -/

theorem pageEviction_spec {tn p : Nat} {va e : Word} {k : BitVec 44} {t : TenantSt} {w : Window} (hpage : s.pageAt tn va = some (t, w, e, p))
    (htier : w.tier = 2) (hk : k.toNat = bits (w.pte p) 55 12) (hnew : ∀ x ∈ t.evictions, x.handle ≠ k.toNat)
    (hfree : s.locked (ownLoc (bits e 55 12 * 4096)) (2 ^ w.bits) = false) :
    let f := ownLoc (bits e 55 12 * 4096)
    let n := 2 ^ w.bits
    exec (.pageEviction tn va k) s = .next ((((((s.mapPage tn p (w.pte p).toNat w.bits).tlbPage tn p).dropLines f n).purge f n).onTenant tn (fun x =>
      { x with evictions := x.evictions ++ [⟨k.toNat, BitVec.ofNat 64 p, bits e 55 12, w.bits⟩] })).post tn 0x0019#16 0#8 0#32 0
        (xferDetail k.toNat w.bits)) := by
  intro f n
  rw [Laws.exec_pageEviction, execPageEviction, hpage]
  dsimp only
  rw [← hk]
  exact if_neg (by simpa [htier, hfree] using hnew)

theorem Window.takes_of {w v : Window} (hvalid : v.valid = true) (hbits : v.bits = w.bits) (hship : w.ship = false) (hstitch : w.stitch = false)
    (hship' : v.ship = false) (hstitch' : v.stitch = false) (hown : v = w ∨ (v.tier ≠ 2 ∧ w.tier ≠ 2)) : w.takes v = true := by
  simpa [Window.takes, hvalid, hbits, hship, hstitch, hship', hstitch'] using hown

/-- A page whose lines are dropped for its migration, which is entered. -/
def State.migrating (s : State) (m : Migration) : State := { s.dropLines m.src m.size with migrations := s.migrations ++ [m] }

theorem pageMigration_eq {tn p wn : Nat} {va e : Word} {f : BitVec 44} {t : TenantSt} {w : Window} (hpage : s.pageAt tn va = some (t, w, e, p))
    (htakes : w.takes (SMap.look {} t.windows wn) = true) (hlock : s.locked (leafLoc e w.bits p) (2 ^ w.bits) = false)
    (hfree : s.frameFree t (if SMap.look {} t.windows wn = w then some (w.frame (w.pageOf p)) else none) (SMap.look {} t.windows wn) f.toNat = true) :
    let entry := (SMap.look {} t.windows wn).moved f.toNat e
    exec (.pageMigration tn va wn f) s =
      .next (s.migrating ⟨tn, BitVec.ofNat 64 p, leafLoc e w.bits p, leafLoc entry w.bits p, 2 ^ w.bits, entry⟩) := by
  intro entry
  rw [Laws.exec_pageMigration, execPageMigration, hpage]
  dsimp only
  rw [if_neg (by simpa [htakes, hlock] using hfree)]
  rfl

theorem State.Settles.withMigrations {r s : State} (h : r.Settles s) {l : List Migration} : r.Settles { s with migrations := l } := h.same

theorem State.migrating_spec (s : State) (m : Migration) : SameBytes s (s.migrating m) ∧ (s.migrating m).migrations = s.migrations ++ [m] :=
  ⟨(State.Settles.refl s).dropLines.withMigrations.sameBytes, rfl⟩

theorem pageMigration_spec {tn p wn : Nat} {va e : Word} {f : BitVec 44} {t : TenantSt} {w : Window} (hpage : s.pageAt tn va = some (t, w, e, p)) :
    let v := SMap.look {} t.windows wn
    let src := leafLoc e w.bits p
    let entry := v.moved f.toNat e
    v.valid = true → v.bits = w.bits → w.ship = false → w.stitch = false → v.ship = false → v.stitch = false →
    (v = w ∨ (v.tier ≠ 2 ∧ w.tier ≠ 2)) → s.locked src (2 ^ w.bits) = false →
    s.frameFree t (if v = w then some (w.frame (w.pageOf p)) else none) v f.toNat = true →
    Ends (.pageMigration tn va wn f) s (fun x => SameBytes s x ∧ x.migrations = s.migrations ++
      [⟨tn, BitVec.ofNat 64 p, src, leafLoc entry w.bits p, 2 ^ w.bits, entry⟩]) := by
  intro v src entry hvalid hbits hship hstitch hship' hstitch' hown hlock hfree
  exact ⟨_, pageMigration_eq hpage (Window.takes_of hvalid hbits hship hstitch hship' hstitch' hown) hlock hfree, s.migrating_spec _⟩

section
variable {n : Nat} {m : Migration} (hm : s.migrations[n]? = some m)
include hm

theorem migrationSwitch_spec {e : Word} (hpte : s.pteOf m.tenant m.va.toNat = some e) (hp : s.poisoned m.src m.size = false) :
    let u := (({ s with migrations := s.migrations.eraseIdx n } : State).moveNames m).applyWrite m.dst (s.bytesAt m.src m.size)
      (hashSlice (m.dst % 2 ^ 56) 0#64) .local
    exec (.migrationSwitch n) s = .next (((((u.mapPage m.tenant m.va.toNat m.entry.toNat (Nat.log2 m.size)).tlbPage m.tenant m.va.toNat).purge m.src
      m.size).loseMonitors (fun _ x => overlaps m.src m.size (x.sector * 128) 128)).wakeWhy .migration) := by
  intro u
  rw [Laws.exec_migrationSwitch, execMigrationSwitch, hm]
  dsimp only
  rw [hpte]
  exact if_neg (ne_true_of_eq_false hp)

theorem migrationSwitch_poisoned {e : Word} (hpte : s.pteOf m.tenant m.va.toNat = some e) (hp : s.poisoned m.src m.size = true) :
    exec (.migrationSwitch n) s = .next s := by
  rw [Laws.exec_migrationSwitch, execMigrationSwitch, hm]
  dsimp only
  rw [hpte]
  exact if_pos hp

theorem migrationAbort_spec {a : Nat} (ha : overlaps m.src m.size a 1 = true) : exec (.migrationAbort n a) s =
    .next ((({ s with migrations := s.migrations.eraseIdx n } : State).wakeWhy .migration).send (.record "COPY_FAULT" m.va.toNat a)) := by
  rw [Laws.exec_migrationAbort, execMigrationAbort, hm]
  exact if_pos ha

end

/-! ### Page walks, runahead and monitors (R202, R207, R323) -/

section
variable {c : CtxId}

theorem pageWalkComplete_spec {va : Word} (hst : (s.ctx c).st = .wait) (hwait : (s.ctx c).wait = .walk va) (hsup : c.isSup = false) :
    exec (.pageWalkComplete c va) s = .next ((s.fillTlb c (s.walkEntry (s.ctx c).tn va.toNat)).wake c) := by
  rw [Laws.exec_pageWalkComplete, execPageWalkComplete, hsup]
  exact if_pos (by simp [hst, hwait])

theorem runaheadEnd_run (hst : (s.ctx c).st = .run) : exec (.runaheadEnd c) s = .next (s.endRunahead c) := by
  rw [Laws.exec_runaheadEnd, execRunaheadEnd, if_pos hst]

theorem runaheadEnd_other (hst : (s.ctx c).st ≠ .run) : exec (.runaheadEnd c) s = .next s := by
  rw [Laws.exec_runaheadEnd, execRunaheadEnd, if_neg hst]

section
variable {m : Monitor} (hm : (s.ctx c).monitor = some m)

/-- The state with a context's monitor fired. -/
def State.withFired (s : State) (c : CtxId) (m : Monitor) : State := s.onCtx c (fun x => { x with monitor := some { m with fired := true } })

include hm

theorem State.fireOne_eq (hf : m.fired = false) : s.fireOne c =
    if (s.ctx c).wait = .retry .monitor ∨ (s.ctx c).wait = .retry .supervisorItem then (s.withFired c m).wake c else s.withFired c m := by
  unfold State.fireOne
  rw [hm]
  simp [hf, State.withFired, State.ctx_onCtx_same]

theorem monitorFire_alone (hf : m.fired = false) (hmon : (s.ctx c).wait ≠ .retry .monitor) (hsup : (s.ctx c).wait ≠ .retry .supervisorItem) :
    Ends (.monitorFire c) s (fun t => (t.ctx c).monitor = some { m with fired := true } ∧ SameMemory s t) := by
  refine ⟨s.withFired c m, ?_, ?_, (State.Wakes.onCtx ..).sameMemory⟩
  · rw [Laws.exec_monitorFire, execMonitorFire, State.fireOne_eq hm hf, if_neg (not_or.mpr ⟨hmon, hsup⟩)]
  · rw [State.withFired, State.ctx_onCtx_same]

theorem monitorFire_wakes (hf : m.fired = false) (hwait : (s.ctx c).wait = .retry .monitor ∨ (s.ctx c).wait = .retry .supervisorItem) :
    exec (.monitorFire c) s = .next ((s.withFired c m).wake c) := by
  rw [Laws.exec_monitorFire, execMonitorFire, State.fireOne_eq hm hf, if_pos hwait]

theorem monitorTimeout_eq {t : Nat} (hsince : m.since = some t) :
    exec (.monitorTimeout c) s = if t + 65536 ≤ s.cycle.toNat then exec (.monitorFire c) s else .next s := by
  rw [Laws.exec_monitorTimeout, execMonitorTimeout, hm, Option.bind_some, hsince, Laws.exec_monitorFire, execMonitorFire]

theorem monitorTimeout_over {t : Nat} (hsince : m.since = some t) (ht : t + 65536 ≤ s.cycle.toNat) :
    exec (.monitorTimeout c) s = exec (.monitorFire c) s := by
  rw [monitorTimeout_eq hm hsince, if_pos ht]

theorem monitorTimeout_early {t : Nat} (hsince : m.since = some t) (ht : s.cycle.toNat < t + 65536) : exec (.monitorTimeout c) s = .next s := by
  rw [monitorTimeout_eq hm hsince, if_neg (Nat.not_le.mpr ht)]

end

end

end

end Sys2Proof.Machine

/-!
# The spouts

A lemma for each step of the spouts and the scheduler (R130, R145, R149 to R151, R156 to R160, R167, R168, R175, R176).
-/

namespace Sys2Proof.Machine

open Claims

section
variable {s : State} {c : CtxId}

/-! ### Binding and reload (R145, R151, R160) -/

section
variable {o : Offer} (ho : s.take c = some o)
include ho

theorem spoutBind_reloads {v : Saved}
    (hv : (s.core c.die c.core).resume.find? (fun v => v.task.task == o.task.task && v.task.launch == o.task.launch) = some v) :
    exec (.spoutBind c) s = .next ((s.unqueue o.task).reload c v) := by
  rw [Laws.exec_spoutBind, execSpoutBind, ho]
  dsimp only
  rw [hv]

theorem spoutBind_binds
    (hv : (s.core c.die c.core).resume.find? (fun v => v.task.task == o.task.task && v.task.launch == o.task.launch) = none) :
    exec (.spoutBind c) s = .next ((s.unqueue o.task).bindTask c { o.task with preempted := false }) := by
  rw [Laws.exec_spoutBind, execSpoutBind, ho]
  dsimp only
  rw [hv]

end

theorem spoutBind_none (ho : s.take c = none) : exec (.spoutBind c) s = .next s := by
  rw [Laws.exec_spoutBind, execSpoutBind, ho]

/-! ### Pre-emption and spill (R158 to R160) -/

theorem preemptionTimer_spec {d : Nat} {k : TaskAttr} {v : CtxId} (hp : s.preemption d = some (k, v)) :
    let mark := fun (x : TaskAttr) => if x.task == k.task && x.launch == k.launch then { x with preempted := true } else x
    let u : State := { s with
      cores := s.cores.map (fun e => (e.1, { e.2 with deque := e.2.deque.map mark, overflow := e.2.overflow.map mark,
                                                      resume := e.2.resume.map (fun v => { v with task := mark v.task }) })),
      dies := s.dies.map (fun e => (e.1, { e.2 with ready := e.2.ready.map (fun q => (q.1, q.2.map mark)) })) }
    exec (.preemptionTimer d) s = .next (u.preempt v (some k)) := by
  rw [Laws.exec_preemptionTimer, execPreemptionTimer, hp]

theorem preemptionTimer_none {d : Nat} (hp : s.preemption d = none) : exec (.preemptionTimer d) s = .next s := by
  rw [Laws.exec_preemptionTimer, execPreemptionTimer, hp]

theorem spillStart_spec {t : TaskAttr} (hmay : s.maySpill c = true) (hbound : (s.ctx c).bound = some t) (hprog : (s.ctx c).program = none) :
    let r := s.ctx c
    let v : Saved := { r := if r.ended then r.r.advance else r.r, task := { t with since := s.cycle.toNat, preempted := false },
                       seq := (SMap.look {} (s.core c.die c.core).channels c.turn).seq, yielded := r.spill == some none, program := none }
    exec (.spillStart c) s = .next (((s.onCore c.die c.core (fun k => { k with resume := k.resume ++ [v] })).makeIdle c).onCtx c (fun y =>
      { y with st := .spilled, spill := match r.spill with | some (some t) => some (some t) | _ => none })) := by
  rw [Laws.exec_spillStart, execSpillStart, hmay]
  dsimp only
  rw [hbound, hprog]
  rfl

theorem spillStart_not (hmay : s.maySpill c = false) : exec (.spillStart c) s = .next s := by
  rw [Laws.exec_spillStart, execSpillStart, hmay]
  rfl

/-! ### Harvest contexts and domains (R167, R168, R175, R176) -/

theorem harvestUnpark_spec (hres : c.reserve = true) (hst : (s.ctx c).st = .parked) (hturn : s.turnFree c = true)
    (hdom : s.domain ((s.ctx c).r.dom.setWidth 32) = none) :
    Ends (.harvestUnpark c) s (fun t => (t.ctx c).st = .run ∧ (t.ctx c).r = (s.ctx c).r ∧ SameMemory s t) := by
  refine ⟨s.onCtx c (fun x => { x with st := .run }), ?_, ?_, ?_, (State.Wakes.onCtx ..).sameMemory⟩
  · rw [Laws.exec_harvestUnpark, execHarvestUnpark]
    exact if_pos (by simp [hres, hst, hturn, hdom])
  all_goals rw [State.ctx_onCtx_same]

theorem domainRestart_spec {m : BitVec 32} {e : DomRec} (hdom : s.domain m = some e) (hmay : s.mayRestart e = true)
    (hcreator : s.creatorCtx e = some c) : exec (.domainRestart m) s = .next ((s.setDomain m (some { e with restart := false })).ready c) := by
  rw [Laws.exec_domainRestart, execDomainRestart, hdom]
  dsimp only
  rw [hmay, hcreator]
  rfl

theorem domainRestart_not {m : BitVec 32} {e : DomRec} (hdom : s.domain m = some e) (hmay : s.mayRestart e = false) :
    exec (.domainRestart m) s = .next s := by
  rw [Laws.exec_domainRestart, execDomainRestart, hdom]
  dsimp only
  rw [hmay]
  rfl

/-! ### The waiter pools (R130, R156) -/

theorem waiterPoolEntryFree_room {d : Nat} (hroom : s.poolUsed d < 16384) :
    let q := (s.wakeWhy (.waiterPool d)).takeEntries d
    exec (.waiterPoolEntryFree d) s = .next (q.1.settle q.2) := by
  rw [Laws.exec_waiterPoolEntryFree, execWaiterPoolEntryFree]
  exact if_pos hroom

theorem waiterPoolEntryFree_full {d : Nat} (hfull : 16384 ≤ s.poolUsed d) : exec (.waiterPoolEntryFree d) s = .next s := by
  rw [Laws.exec_waiterPoolEntryFree, execWaiterPoolEntryFree]
  exact if_neg (Nat.not_lt.mpr hfull)

end

end Sys2Proof.Machine

/-!
# The sluice

A lemma for each step of a copy: START, acceptance, payload, suspension, resumption, its end by a code, and the scoreboard (R190, R382 to R389).
-/

namespace Sys2Proof.Machine

open Claims

/-! ### Channels -/

theorem State.channel_onChannel_same (s : State) (d c ch : Nat) (f : Channel → Channel) :
    SMap.look {} ((s.onChannel d c ch f).core d c).channels ch = f (SMap.look {} (s.core d c).channels ch) := by
  rw [State.onChannel, State.core_onCore_same, SMap.look_alter_same]

theorem State.Wakes.onChannel (s : State) (d c ch : Nat) (f : Channel → Channel) : s.Wakes (s.onChannel d c ch f) := onCore ..

theorem State.headCopy_onHead {s : State} {d c ch : Nat} {cp : Copy} (h : s.headCopy d c ch = some cp) (f : Copy → Copy) :
    (s.onHead d c ch f).headCopy d c ch = some (f cp) := by
  obtain ⟨l, hl⟩ := List.head?_eq_some_iff.mp h
  rw [State.headCopy, State.onHead, State.channel_onChannel_same, hl, List.head?_cons]

theorem State.headCopy_onChannel {s : State} {d c ch : Nat} {f : Channel → Channel} (hf : ∀ x, (f x).copies = x.copies) :
    (s.onChannel d c ch f).headCopy d c ch = s.headCopy d c ch := by
  rw [State.headCopy, State.channel_onChannel_same, hf, State.headCopy]

@[simp] theorem Channel.cleared_copies (x : Channel) : x.cleared.copies = x.copies := rfl

/-! ### START (R382, R383) -/

section
variable {s : State} {v : IWord} {w : Word}

theorem start_eq (hst : s.cx.st = .run) (hahead : s.cx.ahead = none) : exec (.start w) s = s.startCopy s.pcWord w := by
  rw [Laws.exec_start, execStart]
  exact if_pos (by simp [hst, hahead])

/-- The channel of the issuing context. -/
def State.ownCh (s : State) : Channel := SMap.look {} s.myCore.channels (ownChannel s.cur)

/-- The template that a START word names (R383). -/
def State.startImage (s : State) (w : Word) : List Word := SMap.look [] (((s.tenant s.cx.tn).map (·.templates)).getD []) (bits w 15 0)

/-- The copy that a START without a basin end queues (R383). -/
def State.startedCopy (s : State) (w : Word) : Copy :=
  { words := s.startImage w, rep := bits w 31 16 + 1, number := s.ownCh.seq + 1#64 + BitVec.ofNat 64 s.ownCh.copies.length, owner := s.cur,
    task := s.cx.r.task, launch := (s.cx.bound.map (·.launch)).getD 0, dom := s.cx.r.dom.setWidth 32, tenant := s.cx.tn,
    heap := (s.cx.heapbase, s.cx.heaplim, s.cx.heapoff), running := false, suspended := false, done := 0, charged := 0,
    counterLoc := 0, stampLoc := 0, sb := none, raced := [] }

/-- A channel that a START has added a copy to (R382, R388). -/
def Channel.queued (x : Channel) (y : Copy) : Channel :=
  { x.cleared with copies := x.copies ++ [y], state := if x.cleared.state = 0 then 1 else x.cleared.state }

theorem State.startCopy_full (hfull : 4 ≤ s.ownCh.copies.length) : s.startCopy v w = .next (s.waitOn .channel) := if_pos hfull

section
variable (hroom : s.ownCh.copies.length < 4)
include hroom

theorem State.startCopy_reserved (hres : bits w 63 32 ≠ 0) : s.startCopy v w = s.startFault v (ownChannel s.cur) 1#8 :=
  (if_neg (Nat.not_le.mpr hroom)).trans (if_pos hres)

variable (hres : bits w 63 32 = 0)
include hres

theorem State.startCopy_number (hnum : 4096 ≤ bits w 15 0) : s.startCopy v w = s.startFault v (ownChannel s.cur) 2#8 :=
  (if_neg (Nat.not_le.mpr hroom)).trans ((if_neg (not_not.mpr hres)).trans (if_pos hnum))

variable (hnum : bits w 15 0 < 4096)
include hnum

theorem State.startCopy_invalid (hvalid : (tmplOf (s.startImage w)).valid = false) : s.startCopy v w = s.startFault v (ownChannel s.cur) 3#8 :=
  (if_neg (Nat.not_le.mpr hroom)).trans ((if_neg (not_not.mpr hres)).trans ((if_neg (Nat.not_le.mpr hnum)).trans (if_pos (congrArg not hvalid))))

variable (hvalid : (tmplOf (s.startImage w)).valid = true)
include hvalid

theorem State.startCopy_misaligned (hal : (tmplOf (s.startImage w)).aligned = false) : s.startCopy v w = s.startFault v (ownChannel s.cur) 9#8 :=
  (if_neg (Nat.not_le.mpr hroom)).trans ((if_neg (not_not.mpr hres)).trans ((if_neg (Nat.not_le.mpr hnum)).trans
    ((if_neg (ne_true_of_eq_false (congrArg not hvalid))).trans (if_pos (congrArg not hal)))))

theorem State.startCopy_queues (hal : (tmplOf (s.startImage w)).aligned = true) (hsrc : inBasinWin (tmplOf (s.startImage w)).src = false)
    (hdst : inBasinWin (tmplOf (s.startImage w)).dst = false) : s.startCopy v w =
      .next ((s.onChannel s.cur.die s.cur.core (ownChannel s.cur) (·.queued (s.startedCopy w))).finish s.cx.r) := by
  refine (if_neg (Nat.not_le.mpr hroom)).trans ((if_neg (not_not.mpr hres)).trans ((if_neg (Nat.not_le.mpr hnum)).trans
    ((if_neg (ne_true_of_eq_false (congrArg not hvalid))).trans ((if_neg (ne_true_of_eq_false (congrArg not hal))).trans ?_))))
  extract_lets sp dp sIn dIn hole reads write k tk y
  have hsIn : sIn = false := hsrc
  have hdIn : dIn = false := hdst
  have hhole : hole = none := by simp only [hole, hsIn, hdIn]; rfl
  rw [hhole]
  refine (if_neg (by simp [hsIn, hdIn])).trans ?_
  have htk : tk = (s, none) := by simp only [tk, hsIn, hdIn]; rfl
  have hy : y = s.startedCopy w := by simp only [y, htk]; rfl
  rw [htk, hy]
  rfl

end

/-- What a START without a basin end leaves (R382, R383). -/
theorem start_queues (hst : s.cx.st = .run) (hahead : s.cx.ahead = none) (hstart : s.startCopy s.pcWord w =
      .next ((s.onChannel s.cur.die s.cur.core (ownChannel s.cur) (·.queued (s.startedCopy w))).finish s.cx.r)) :
    Ends (.start w) s (fun t => (SMap.look {} t.myCore.channels (ownChannel s.cur)).copies.dropLast = s.ownCh.copies ∧ SameMemory s t
      ∧ t.cx.r = s.cx.r.advance ∧ ∃ y, (SMap.look {} t.myCore.channels (ownChannel s.cur)).copies.getLast? = some y ∧ y.words = s.startImage w
        ∧ y.rep = bits w 31 16 + 1 ∧ y.number = s.ownCh.seq + 1#64 + BitVec.ofNat 64 s.ownCh.copies.length ∧ y.owner = s.cur
        ∧ y.running = false) := by
  let t := s.onChannel s.cur.die s.cur.core (ownChannel s.cur) (·.queued (s.startedCopy w))
  have hcopies : (SMap.look {} (t.finish s.cx.r).myCore.channels (ownChannel s.cur)).copies = s.ownCh.copies ++ [s.startedCopy w] :=
    congrArg Channel.copies (State.channel_onChannel_same s ..)
  refine ⟨t.finish s.cx.r, (start_eq hst hahead).trans hstart, ?_, sameMemory_of_fields, rfl, s.startedCopy w, ?_, rfl, rfl, rfl, rfl, rfl⟩
  · rw [hcopies, List.dropLast_concat]
  · rw [hcopies, List.getLast?_concat]

theorem start_spec (hst : s.cx.st = .run) (hahead : s.cx.ahead = none) :
    let n := ownChannel s.cur
    let q := SMap.look {} s.myCore.channels n
    let img := SMap.look [] (((s.tenant s.cx.tn).map (·.templates)).getD []) (bits w 15 0)
    let k := tmplOf img
    let rep := bits w 31 16 + 1
    let bad := fun (e : BitVec 8) => exec (.start w) s = (s.onChannel s.cur.die s.cur.core n (fun x => { x.cleared with code := e })).trap s.pcWord
      0x11#8 (startAddr n)
    (4 ≤ q.copies.length → exec (.start w) s = .next (s.waitOn .channel))
    ∧ (q.copies.length < 4 → bits w 63 32 ≠ 0 → bad 1#8)
    ∧ (q.copies.length < 4 → bits w 63 32 = 0 → 4096 ≤ bits w 15 0 → bad 2#8)
    ∧ (q.copies.length < 4 → bits w 63 32 = 0 → bits w 15 0 < 4096 → k.valid = false → bad 3#8)
    ∧ (q.copies.length < 4 → bits w 63 32 = 0 → bits w 15 0 < 4096 → k.valid = true → k.aligned = false → bad 9#8)
    ∧ (q.copies.length < 4 → bits w 63 32 = 0 → bits w 15 0 < 4096 → k.valid = true → k.aligned = true →
        inBasinWin k.src = false → inBasinWin k.dst = false → Ends (.start w) s (fun t =>
          (SMap.look {} t.myCore.channels n).copies.dropLast = q.copies ∧ SameMemory s t ∧ t.cx.r = s.cx.r.advance
          ∧ ∃ y, (SMap.look {} t.myCore.channels n).copies.getLast? = some y ∧ y.words = img ∧ y.rep = rep
            ∧ y.number = q.seq + 1#64 + BitVec.ofNat 64 q.copies.length ∧ y.owner = s.cur ∧ y.running = false)) := by
  have hexec := start_eq (w := w) hst hahead
  exact ⟨fun hfull => hexec.trans (State.startCopy_full hfull),
    fun hroom hres => hexec.trans (State.startCopy_reserved hroom hres),
    fun hroom hres hnum => hexec.trans (State.startCopy_number hroom hres hnum),
    fun hroom hres hnum hvalid => hexec.trans (State.startCopy_invalid hroom hres hnum hvalid),
    fun hroom hres hnum hvalid hal => hexec.trans (State.startCopy_misaligned hroom hres hnum hvalid hal),
    fun hroom hres hnum hvalid hal hsrc hdst => start_queues hst hahead (State.startCopy_queues hroom hres hnum hvalid hal hsrc hdst)⟩

end

/-! ### The copy at the head of a channel (R386, R387) -/

section
variable {s : State} {d co ch : Nat} {cp : Copy} (hhead : s.headCopy d co ch = some cp)
include hhead

section
variable (hrun : cp.running = false) (hsus : cp.suspended = false)
include hrun hsus

theorem copyAccept_spec : exec (.copyAccept d co ch) s = .next (s.acceptCopy d co ch cp) := by
  rw [Laws.exec_copyAccept, execCopyAccept, hhead]
  exact if_neg (by simp [hrun, hsus])

/-- A copy that is accepted without a charge (R386). -/
def Copy.accepted (y : Copy) : Copy := { y with running := true, suspended := false, charged := 0, counterLoc := 0, stampLoc := 0 }

omit hhead hrun hsus in
/-- A copy that has neither a counter nor a stamp is accepted without a check (R386). -/
theorem State.acceptCopy_bare (hcounter : (tmplOf cp.words).counter = 0#64) (hstamp : (tmplOf cp.words).stamp = 0#64) : s.acceptCopy d co ch cp =
    (s.onHead d co ch Copy.accepted).onChannel d co ch (fun x => { x with state := 1 }) := by
  simp only [State.acceptCopy, hcounter, hstamp, if_true]
  rfl

theorem copyAccept_bare (hcounter : (tmplOf cp.words).counter = 0#64) (hstamp : (tmplOf cp.words).stamp = 0#64) :
    Ends (.copyAccept d co ch) s (fun t => (∃ y, t.headCopy d co ch = some y ∧ y.running = true ∧ y.charged = 0 ∧ y.words = cp.words)
      ∧ (SMap.look {} (t.core d co).channels ch).state = 1 ∧ SameMemory s t) := by
  refine ⟨_, (copyAccept_spec hhead hrun hsus).trans (congrArg _ (State.acceptCopy_bare hcounter hstamp)), ⟨cp.accepted, ?_, rfl, rfl, rfl⟩, ?_,
    ((State.Wakes.onChannel ..).trans (.onChannel ..)).sameMemory⟩
  · exact (State.headCopy_onChannel (by intro; rfl)).trans (State.headCopy_onHead hhead _)
  · rw [State.channel_onChannel_same]

end

section
variable (hrun : cp.running = true) (hsus : cp.suspended = false)
include hrun hsus

theorem copyComplete_spec : exec (.copyComplete d co ch) s = .next (s.runCopy d co ch cp) := by
  rw [Laws.exec_copyComplete, execCopyComplete, hhead]
  exact if_pos (by simp [hrun, hsus])

theorem copySuspend_spec (n : Nat) {va : Word} (habsent : s.copyTr cp true .rd va = .absent) :
    let k := tmplOf cp.words
    let q := State.moveItems d cp k (s.movedDst cp k (k.items cp.rep)) s cp.done (((k.items cp.rep).drop cp.done).take (n / k.esize - cp.done))
    exec (.copySuspend d co ch n va) s =
      .next ((q.1.suspendCopy d co ch q.2.1 (q.2.1 * k.esize)).send (.record "COPY_SUSPEND" q.2.1 va.toNat)) := by
  rw [Laws.exec_copySuspend, execCopySuspend, hhead]
  exact if_pos (by simp [hrun, hsus, habsent])

end

/-- A copy that is suspended goes on (R387). -/
def State.goOn (s : State) (d co ch : Nat) : State :=
  (s.onHead d co ch (fun x => { x with suspended := false })).onChannel d co ch (fun x => { x with state := 1 })

theorem copyResume_spec (hsus : cp.suspended = true) :
    (s.suspendVa d cp = none → exec (.copyResume d co ch) s = .next (s.goOn d co ch))
    ∧ (∀ va, s.suspendVa d cp = some va →
        (s.touchPage cp.tenant va = .present → exec (.copyResume d co ch) s = .next (s.goOn d co ch))
        ∧ (∀ u, s.touchPage cp.tenant va = .mapped u → exec (.copyResume d co ch) s = .next (u.goOn d co ch))
        ∧ (∀ k f, s.touchPage cp.tenant va = .t2 k f → exec (.copyResume d co ch) s = .next (s.fetchPage cp.tenant va k f))
        ∧ (s.touchPage cp.tenant va = .none →
            exec (.copyResume d co ch) s = .next (s.endCopy d co ch 5#8 (cp.done * (tmplOf cp.words).esize)))) := by
  rw [Laws.exec_copyResume, execCopyResume, hhead]
  dsimp only
  rw [hsus, if_neg (by decide)]
  refine ⟨fun hva => by rw [hva]; rfl, fun va hva => ?_⟩
  rw [hva]
  dsimp only
  exact ⟨fun ht => by rw [ht]; rfl, fun u ht => by rw [ht]; rfl, fun k f ht => by rw [ht], fun ht => by rw [ht]⟩

theorem copyFaultEnd_spec (k : BitVec 8) (n : Nat) (hbusy : cp.running = true ∨ cp.suspended = true) :
    exec (.copyFaultEnd d co ch k n) s = .next (s.endCopy d co ch k n) := by
  rw [Laws.exec_copyFaultEnd, execCopyFaultEnd, hhead]
  exact if_pos (by simpa using hbusy)

end

/-! ### The scoreboard (R190) -/

/-- What a change of cores keeps of any core is the same on every core after it. -/
theorem State.core_onCore_keeps {β : Type} (g : CoreSt → β) {f : CoreSt → CoreSt} (hf : ∀ k, g (f k) = g k) (s : State) (d c e k : Nat) :
    g ((s.onCore d c f).core e k) = g (s.core e k) := by
  by_cases h : 66 * e + k = 66 * d + c
  · rw [State.core, State.onCore, h, SMap.look_alter_same, hf, State.core, h]
  · rw [State.core_onCore_other s f h]

section
variable (s : State) (e k : Nat)

@[simp] theorem State.core_onCtx (c : CtxId) (f : Ctx → Ctx) : (s.onCtx c f).core e k = s.core e k :=
  congrArg (fun m => SMap.look ({} : CoreSt) m (66 * e + k)) (State.onCtx_cores s c f)

theorem State.core_setCtx (c : CtxId) (x : Ctx) : (s.setCtx c x).core e k = s.core e k :=
  congrArg (fun m => SMap.look ({} : CoreSt) m (66 * e + k)) (State.setCtx_cores s c x)

@[simp] theorem State.sboard_park (c : CtxId) : ((s.park c).core e k).sboard = (s.core e k).sboard := by
  unfold State.park
  dsimp only
  split
  · exact (State.core_onCore_keeps CoreSt.sboard (by intro; rfl) ..).trans (congrArg _ (State.core_setCtx ..))
  · rfl

@[simp] theorem State.sboard_ready (c : CtxId) : ((s.ready c).core e k).sboard = (s.core e k).sboard := by
  unfold State.ready State.ownerReady
  repeat' split
  all_goals simp

@[simp] theorem State.sboard_wake (c : CtxId) : ((s.wake c).core e k).sboard = (s.core e k).sboard := by
  unfold State.wake
  split
  · rw [State.sboard_ready, State.core_onCtx]
  · rfl

theorem State.sboard_wakeAll (p : CtxId → Wait → Bool) : ((s.wakeAll p).core e k).sboard = (s.core e k).sboard :=
  List.foldlRecOn (motive := fun t => (State.core t e k).sboard = (s.core e k).sboard) _ _ rfl fun t ht _ _ => by
    split
    · rw [State.sboard_wake, ht]
    · exact ht

theorem State.sboard_freeSb (n : Nat) : ((s.freeSb e k n).core e k).sboard = without (s.core e k).sboard (fun x => x.id == n) := by
  rw [State.freeSb, State.sboard_wakeAll, State.core_onCore_same]

end

theorem scoreboardEntryFree_spec (s : State) (d co n : Nat) : Ends (.scoreboardEntryFree d co n) s (fun t =>
    (∀ e ∈ (t.core d co).sboard, e.id ≠ n) ∧ ∀ e ∈ (s.core d co).sboard, e.id ≠ n → e ∈ (t.core d co).sboard) := by
  refine ⟨s.freeSb d co n, Laws.exec_scoreboardEntryFree .., fun e he => ?_, fun e he hne => ?_⟩
  · rw [State.sboard_freeSb, mem_without] at he
    exact ne_of_beq_false he.2
  · rw [State.sboard_freeSb, mem_without]
    exact ⟨he, beq_false_of_ne hne⟩

end Sys2Proof.Machine

/-!
# The supervisor, the spouts and the sluice: the obligation
-/

namespace Sys2Proof.Machine

open Claims

/-- Settles O60, clause by clause: each names the lemma about its step. -/
theorem supervisorSchedulingAndCopies : Obligations.SupervisorSchedulingAndCopies := by
  intro s c d co ch cp now r head chan
  exact ⟨fun _ _ hq hst => trapResolution_stale hq hst,
    fun _ _ hq hst => trapResolution_spec hq hst,
    fun k v hst => supervisorTrap_spec k v hst,
    fun _ hst hp => supervisorCoreRestart_spec hst hp,
    fun _ _ _ _ _ _ _ hpage htier hk hnew hfree => pageEviction_spec hpage htier hk hnew hfree,
    fun _ _ _ _ _ _ _ _ hpage => pageMigration_spec hpage,
    fun _ _ _ hm hpte hp => migrationSwitch_spec hm hpte hp,
    fun _ _ _ hm hpte hp => migrationSwitch_poisoned hm hpte hp,
    fun _ _ _ hm ha => migrationAbort_spec hm ha,
    fun _ hst hwait hsup => pageWalkComplete_spec hst hwait hsup,
    runaheadEnd_run,
    runaheadEnd_other,
    fun _ hm hf hmon hsup => monitorFire_alone hm hf hmon hsup,
    fun _ hm hf hwait => monitorFire_wakes hm hf hwait,
    fun _ _ hm hsince ht => monitorTimeout_over hm hsince ht,
    fun _ _ hm hsince ht => monitorTimeout_early hm hsince ht,
    fun _ ho => ⟨fun _ hv => spoutBind_reloads ho hv, spoutBind_binds ho⟩,
    spoutBind_none,
    fun _ _ hp => preemptionTimer_spec hp,
    preemptionTimer_none,
    fun _ hmay hbound hprog => spillStart_spec hmay hbound hprog,
    spillStart_not,
    harvestUnpark_spec,
    fun _ _ _ => rfl,
    fun _ _ hdom hmay hcreator => domainRestart_spec hdom hmay hcreator,
    fun _ _ hdom hmay => domainRestart_not hdom hmay,
    waiterPoolEntryFree_room,
    waiterPoolEntryFree_full,
    fun _ hst hahead => start_spec hst hahead,
    copyAccept_spec,
    copyAccept_bare,
    copyComplete_spec,
    fun n _ hhead hrun hsus habsent => copySuspend_spec hhead hrun hsus n habsent,
    copyResume_spec,
    fun k n hhead hbusy => copyFaultEnd_spec hhead k n hbusy,
    fun n => scoreboardEntryFree_spec s d co n⟩

end Sys2Proof.Machine

/-!
# Tasks: rules the TASK, DOM and HV groups share

What issue comes to for an instruction that nothing stands before, what an access to a counter's word passes, and what counting a child
leaves alone (R157, R285, R394, R396).
-/

namespace Sys2Proof.Machine

open Claims

/-! ### Issue (R285) -/

section
variable {s : State} {i : Instr} {body : State → Res}

/-- A ready instruction goes straight to its own checks. -/
theorem exec_eq_body (hi : exec i s = s.issue (encode i) true body) (hr : Ready i s) : exec i s = body s := by
  obtain ⟨hahead, hhint⟩ := hr
  rw [hi, State.issue, hahead, hhint]
  rfl

/-- An instruction whose selector is reserved is illegal (R280). -/
theorem traps_illegal {legal : Bool} (hi : exec i s = s.issue (encode i) legal body) (hl : legal = false) (ha : s.cx.ahead = none) :
    Traps i s 0x01#8 ((encode i).setWidth 64) := by
  rw [hl, State.issue, ha] at hi
  exact hi

/-- A ready instruction that writes a register from a selector that is not reserved. -/
theorem gives_selected {legal : Bool} {d : RegNo} {f : State → Word} {v : Word}
    (hi : exec i s = s.issue (encode i) legal (fun t => .next (t.finishSet d (f t)))) (hl : legal = true) (hr : Ready i s) (hv : f s = v) :
    Gives i s d v := by
  subst hl hv
  exact exec_eq_body hi hr

end

/-! ### Checks -/

section
variable {s : State} {va : Word} {n : Nat}

theorem alignedTo_eq_true : alignedTo va n = true ↔ va.toNat % n = 0 := decide_eq_true_iff

theorem alignedTo_eq_false : alignedTo va n = false ↔ va.toNat % n ≠ 0 := decide_eq_false_iff_not

/-- No store of the issuing context is unacknowledged (R183, R230). -/
abbrev State.Quiet (s : State) : Prop := s.cx.pendOwn = 0 ∧ s.cx.pendD = 0 ∧ s.cx.pendX = 0

theorem State.storesOut_eq_false : s.storesOut = false ↔ s.Quiet := by
  simp [State.storesOut, State.Quiet, and_assoc]

theorem State.storesOut_eq_true : s.storesOut = true ↔ ¬ s.Quiet := by
  rw [← State.storesOut_eq_false, Bool.not_eq_false]

theorem State.finishLong_done (hp : s.planned = false) (r : Regs) : s.finishLong r = s.replan.finish r :=
  if_neg (ne_true_of_eq_false hp)

/-- No domain has the id 0 (R170). -/
theorem State.domain_zero (s : State) : s.domain 0#32 = none := if_pos rfl

/-- A record written under its own id is the domain's. -/
theorem State.domain_setDomain {id : BitVec 32} {r : DomRec} (hid : id ≠ 0#32) (hr : r.id = id) : (s.setDomain id (some r)).domain id = some r := by
  simp [State.domain, State.setDomain, hid, hr]

theorem State.domain_congr {t : State} {id : BitVec 32} (h : t.dies = s.dies) : t.domain id = s.domain id := by
  simp only [State.domain, State.die, h]

theorem State.onDomain_none {id : BitVec 32} (h : s.domain id = none) (f : DomRec → DomRec) : s.onDomain id f = s := by
  rw [State.onDomain, h]

end

/-! ### The word of a counter (R157, R394) -/

section
variable {s : State} {w : IWord} {va : Word} {x : Access} {k : AccKind} {go : Access → State → Res}

/-- An aligned word in mapped memory, not in a basin, a SHIP window or a control block; one to be written meets no HOLD range (R394). -/
def State.CounterWord (s : State) (va : Word) (k : AccKind) (x : Access) : Prop :=
  va.toNat % 8 = 0 ∧ s.tr k va = .ok x ∧ x.fill = none ∧ isBasin x.loc = false ∧ x.win.ship = false ∧ isCtl x.loc = false
    ∧ (k = .wr → s.held x.loc 8 = false)

theorem State.withAccess_ok {onAbsent : State → Res} {onAperture : Nat → Nat → Res} (htr : s.tr k va = .ok x) (hfill : x.fill = none) :
    s.withAccess w k va onAbsent onAperture go = go x s := by
  rw [State.withAccess, htr]
  exact if_neg (by simp [hfill])

/-- Such a word passes the checks of an instruction that names a counter. -/
theorem State.counterAt_word {write : Bool} (h : s.CounterWord va (if write then .wr else .rd) x) : s.counterAt w va write go = go x s := by
  obtain ⟨hal, htr, hfill, hbasin, hship, hctl, hheld⟩ := h
  have hfree : (write && s.held x.loc 8) = false := by
    cases write
    case false => rfl
    case true => exact hheld rfl
  refine (if_neg (by simp [alignedTo_eq_true.mpr hal])).trans ((State.withAccess_ok htr hfill).trans ((if_neg ?_).trans (if_neg ?_)))
  · simp [hbasin, hship, hctl]
  · exact ne_true_of_eq_false hfree

theorem State.counterRmw_done {write : Bool} {f : Nat → Option Nat} {go : Nat → State → Res} {old : Nat} {t : State}
    (h : s.atomic x 8 f = .done old t) : s.counterRmw w va write x f go = go old t := by
  rw [State.counterRmw, h]

end

/-! ### A child (R139, R396) -/

section
variable (s : State) (entry a0 a1 : Word)

theorem State.child_cx : (s.child entry a0 a1).2.cx = { s.cx with r := { s.cx.r with children := s.cx.r.children + 1 } } := by
  simp [State.child]

theorem State.child_cur : (s.child entry a0 a1).2.cur = s.cur := by simp [State.child]

theorem State.child_sameMemory : SameMemory s (s.child entry a0 a1).2 :=
  sameMemory_of_fields (by simp [State.child]) (by simp [State.child]) (by simp [State.child])

theorem CoreSt.push_room {k : CoreSt} (h : k.deque.length < 64) (t : TaskAttr) : k.push t = some { k with deque := k.deque ++ [t] } := if_pos h

theorem CoreSt.push_full {k : CoreSt} (h : 64 ≤ k.deque.length) (hring : 65536 < k.overflow.length + 32) (t : TaskAttr) : k.push t = none :=
  (if_neg (Nat.not_lt.mpr h)).trans (if_pos hring)

end

end Sys2Proof.Machine

/-!
# The TASK group

A lemma for each case of each instruction (R394 to R401).
-/

namespace Sys2Proof.Machine

open Claims

section
variable {s : State} {d a b : RegNo}

/-! ### TSELF (R401) -/

theorem tself_gives {n : BitVec 5} {v : Word} (hn : n.toNat < 4) (hv : s.selfWord n.toNat = v) (hr : Ready (.tself d n) s) :
    Gives (.tself d n) s d v := gives_selected (f := fun t => t.selfWord n.toNat) rfl (decide_eq_true hn) hr hv

theorem tself_reserved {n : BitVec 5} (hn : 4 ≤ n.toNat) (ha : s.cx.ahead = none) :
    Traps (.tself d n) s 0x01#8 ((encode (.tself d n)).setWidth 64) := traps_illegal rfl (decide_eq_false (Nat.not_lt.mpr hn)) ha

/-- What TSELF gives of a bound task (Table 14.3). -/
theorem State.selfWord_attr {t : TaskAttr} (ht : s.cx.bound = some t) : s.selfWord 3 = BitVec.ofNat 64
    (t.place.toNat + t.cls % 4 * 2 ^ 16 + t.prio % 4 * 2 ^ 18 + if t.cohort then 2 ^ 20 else 0) := by
  simp only [State.selfWord, ht]

/-! ### SPAWN (R396) -/

section
variable (hr : Ready (.spawn d a b) s)
include hr

theorem spawn_misaligned (hal : (s.rd d).toNat % 4 ≠ 0) : Traps (.spawn d a b) s 0x03#8 (s.rd d) :=
  (exec_eq_body rfl hr).trans (if_pos (by simp [alignedTo_eq_false.mpr hal]))

variable (hal : (s.rd d).toNat % 4 = 0)
include hal

theorem spawn_pushes {k : CoreSt} (hk : s.myCore.push (s.child (s.rd d) (s.rd a) (s.rd b)).1 = some k) :
    let c := s.child (s.rd d) (s.rd a) (s.rd b)
    exec (.spawn d a b) s = .next ((c.2.onCore s.cur.die s.cur.core (fun _ => k)).finish c.2.cx.r) := by
  refine (exec_eq_body rfl hr).trans ((if_neg (by simp [alignedTo_eq_true.mpr hal])).trans ?_)
  dsimp only
  rw [hk]

theorem spawn_child (hroom : s.myCore.deque.length < 64) : Ends (.spawn d a b) s (fun t => ∃ k, t.myCore.deque = s.myCore.deque ++ [k]
    ∧ k.entry = s.rd d ∧ k.args.take 2 = [s.rd a, s.rd b] ∧ k.parent = some s.cx.r.task ∧ k.dom = s.cx.r.dom.setWidth 32
    ∧ k.vec = (s.die s.cur.die).v ∧ t.cx.r = ({ s.cx.r with children := s.cx.r.children + 1 } : Regs).advance ∧ SameMemory s t) := by
  refine ⟨_, spawn_pushes hr hal (CoreSt.push_room hroom _), (s.child (s.rd d) (s.rd a) (s.rd b)).1, ?_, rfl, rfl, rfl, rfl, rfl, ?_, ?_⟩
  · simp [State.myCore, State.finish, State.child_cur, State.core, State.onCore]
  · simp [State.finish, State.child_cx]
  · exact sameMemory_trans (s.child_sameMemory (s.rd d) (s.rd a) (s.rd b)) sameMemory_of_fields

theorem spawn_waits (hfull : 64 ≤ s.myCore.deque.length) (hring : 65536 < s.myCore.overflow.length + 32) :
    exec (.spawn d a b) s = .next (s.waitOn .overflowRing) := by
  refine (exec_eq_body rfl hr).trans ((if_neg (by simp [alignedTo_eq_true.mpr hal])).trans ?_)
  dsimp only
  rw [CoreSt.push_full hfull hring]

end

/-! ### TWAIT (R397) -/

section
variable (hr : Ready .twait s)
include hr

theorem twait_untasked (hb : s.cx.bound = none) : exec .twait s = .next (s.makeIdle s.cur) :=
  (exec_eq_body rfl hr).trans (if_pos (by rw [hb]; rfl))

variable (hb : s.cx.bound ≠ none)
include hb

theorem twait_waits (hc : s.cx.r.children ≠ 0) : exec .twait s = .next (s.waitOn .children) :=
  (exec_eq_body rfl hr).trans ((if_neg (by simpa using hb)).trans (if_pos hc))

theorem twait_joins (hc : s.cx.r.children = 0) : Ends .twait s (fun t => (t.die s.cur.die).v = mergeVec (s.die s.cur.die).v s.cx.r.joinVec
    ∧ t.cx.r = ({ s.cx.r with joinVec := [] } : Regs).advance ∧ SameMemory s t) :=
  ⟨(s.mergeV s.cur.die s.cx.r.joinVec).finish { s.cx.r with joinVec := [] },
    (exec_eq_body rfl hr).trans ((if_neg (by simpa using hb)).trans (if_neg (not_not.mpr hc))),
    congrArg DieSt.v (s.die_onDie_same s.cur.die fun x => { x with v := mergeVec x.v s.cx.r.joinVec }), rfl, sameMemory_of_fields⟩

end

/-! ### YIELD (R399) -/

section
variable (hr : Ready .yield s)
include hr

theorem yield_nothing (h : s.cur.reserve = true ∨ s.waitingOn s.cur.die = []) : Done .yield s s.cx.r := by
  refine (exec_eq_body rfl hr).trans (if_neg ?_)
  rcases h with h | h <;> simp [h]

theorem yield_spills {e k : TaskAttr} (hres : s.cur.reserve = false) (hsup : s.cur.isSup = false) (hb : s.cx.bound = some k)
    (hk : k.cohort = false) (he : (e, none) ∈ s.waitingOn s.cur.die) (hrank : k.rank ≤ e.rank)
    (htaker : s.hasTaker s.cur.die (e, none) = false) : exec .yield s = .next ((s.finish s.cx.r).preempt s.cur none) := by
  have hmine : s.myAttr = k := by rw [State.myAttr, hb]; rfl
  have hwaits : (s.waitingOn s.cur.die).any (fun e => (e.2.isNone || e.2 == some s.cur.core) && decide (k.rank ≤ e.1.rank)
      && !s.hasTaker s.cur.die e) = true :=
    List.any_eq_true.mpr ⟨_, he, by simp [hrank, htaker]⟩
  refine (exec_eq_body rfl hr).trans (if_pos ?_)
  simp only [hmine, hwaits, hres, hsup, hb, hk]
  rfl

end

/-! ### TEXIT (R398) -/

/-- The issuing context's task ends: its parent is told, its launch counts it off, the context is IDLE, its domain is told, and the launch
completes with its last live task (R131, R398). -/
def State.endTask (s : State) (k : TaskAttr) : State :=
  let v := (s.die s.cur.die).v
  let u := (((s.tellParent k v).onLaunch k.launch (fun l => { l with live := l.live - 1, outVec := mergeVec l.outVec v })).makeIdle
    s.cur).tellDomain k v
  u.1.settle (u.2 ++ [.complete k.launch])

section
variable (hr : Ready .texit s)
include hr

theorem texit_creator {r : DomRec} (hd : s.myDomain = some r) (hroot : r.root = none) (hmine : r.creatorTask = s.myTask) :
    Traps .texit s 0x0A#8 2#64 := by
  refine (exec_eq_body rfl hr).trans (if_pos ?_)
  simp [hd, hroot, hmine]

variable (hd : s.myDomain = none)
include hd

/-- A context in no domain creates none that is open. -/
theorem texit_outside : exec .texit s =
    if s.storesOut || s.programRuns s.cur then .next (s.waitOn .texit)
    else .next (s.cx.bound.elim (s.makeIdle s.cur) s.endTask) := by
  refine (exec_eq_body rfl hr).trans ((if_neg ?_).trans ?_)
  · simp [hd]
  · cases s.cx.bound <;> rfl

theorem texit_waits (hq : ¬ s.Quiet) : exec .texit s = .next (s.waitOn .texit) :=
  (texit_outside hr hd).trans (if_pos (by simp [State.storesOut_eq_true.mpr hq]))

variable (hq : s.Quiet) (hp : s.programRuns s.cur = false)
include hq hp

theorem texit_untasked (hb : s.cx.bound = none) : exec .texit s = .next (s.makeIdle s.cur) := by
  refine (texit_outside hr hd).trans ((if_neg (by simp [State.storesOut_eq_false.mpr hq, hp])).trans ?_)
  rw [hb]
  rfl

theorem texit_ends {k : TaskAttr} (hb : s.cx.bound = some k) :
    exec .texit s = .next (s.endTask k) := by
  refine (texit_outside hr hd).trans ((if_neg (by simp [State.storesOut_eq_false.mpr hq, hp])).trans ?_)
  rw [hb]
  rfl

end

/-! ### Arrival counters (R154, R157, R394, R395) -/

section
variable {x : Access} {old : Nat} {t : State}

theorem cntinit_writes (hr : Ready (.cntinit d a b) s) (hw : s.CounterWord (s.rd a) .wr x)
    (ht : s.atomic x 8 (fun _ => some (s.rd b).toNat) = .done old t) :
    let u := t.onCounter x.loc (fun c => { c with tag := s.myDomain.map (fun r => (r.id, r.attempt)) })
    exec (.cntinit d a b) s = .next ((u.finishLong (u.cx.r.set d (BitVec.ofNat 64 old))).settle [.fire x.loc]) := by
  intro u
  have hexec := exec_eq_body (i := .cntinit d a b) rfl hr
  rw [State.counterAt_word (write := true) hw, State.counterRmw_done ht] at hexec
  exact hexec

/-- A CNTDEC of a context in no domain that has no store out is performed at the counter (R395). -/
theorem cntdec_performs (hr : Ready (.cntdec a b) s) (hw : s.CounterWord (s.rd a) .wr x) (hd : s.myDomain = none) (hq : s.Quiet)
    (hn : (s.rd b).toNat % 2 ^ 32 ≠ 0)
    (ht : s.atomic x 8 (fun v => if v % 2 ^ 32 < (s.rd b).toNat % 2 ^ 32 then none else some (v - (s.rd b).toNat % 2 ^ 32)) = .done old t) :
    (old % 2 ^ 32 < (s.rd b).toNat % 2 ^ 32 → exec (.cntdec a b) s = t.trap (encode (.cntdec a b)) 0x12#8 (s.rd a))
    ∧ ((s.rd b).toNat % 2 ^ 32 ≤ old % 2 ^ 32 →
        let u := t.onCounter x.loc (fun c => { c with vec := mergeVec c.vec (t.die t.cur.die).v })
        exec (.cntdec a b) s = .next ((u.finishLong u.cx.r).settle [.fire x.loc])) := by
  have hrmw : s.atomic x 8 (fun v => if v % 2 ^ 32 < (s.rd b).toNat % 2 ^ 32 ∨ (s.rd b).toNat % 2 ^ 32 = 0 then none
      else some (v - (s.rd b).toNat % 2 ^ 32)) = .done old t := by
    simpa only [hn, or_false] using ht
  have hexec := exec_eq_body (i := .cntdec a b) rfl hr
  rw [State.counterAt_word (write := true) hw, if_neg (by simp [hd]), State.storesOut_eq_false.mpr hq, if_neg Bool.false_ne_true,
    State.counterRmw_done hrmw] at hexec
  exact ⟨fun hlt => hexec.trans (if_pos hlt), fun hle => hexec.trans ((if_neg (Nat.not_lt.mpr hle)).trans (if_neg hn))⟩

section
variable {h : Nat} (hh : homeDie x.loc = some h) (ht : s.atomic x 8 (fun _ => none) = .done old t)
include hh ht

theorem cntwait_reads (hr : Ready (.cntwait a) s) (hw : s.CounterWord (s.rd a) .rd x) :
    (old = 0 → exec (.cntwait a) s = .next (t.finishLong t.cx.r))
    ∧ (old ≠ 0 → t.poolUsed h < 16384 →
        exec (.cntwait a) s = .next ((t.onCounter x.loc (fun c => { c with waiters := c.waiters ++ [t.cur] })).waitOn (.counter x.loc)))
    ∧ (old ≠ 0 → 16384 ≤ t.poolUsed h → exec (.cntwait a) s = .next (t.waitOn (.waiterPool h))) := by
  have hexec := exec_eq_body (i := .cntwait a) rfl hr
  rw [State.counterAt_word (write := false) hw, hh] at hexec
  replace hexec := hexec.trans (State.counterRmw_done ht)
  exact ⟨fun h0 => hexec.trans (if_pos h0), fun h0 hroom => hexec.trans ((if_neg h0).trans (if_neg (Nat.not_le.mpr hroom))),
    fun h0 hfull => hexec.trans ((if_neg h0).trans (if_pos hfull))⟩

theorem spawnc_binds (hr : Ready (.spawnc d a b) s) (hw : s.CounterWord (s.rd a) .rd x) (hplace : s.myAttr.place.toNat.testBit h = true)
    (hal : (s.rd d).toNat % 4 = 0) :
    let c := t.child (s.rd d) (s.rd b) (s.rd a)
    (old = 0 → exec (.spawnc d a b) s = .next ((c.2.pushReady h (s.clusterOf x.loc) c.1).finishLong c.2.cx.r))
    ∧ (old ≠ 0 → t.poolUsed h < 16384 →
        exec (.spawnc d a b) s = .next ((c.2.onCounter x.loc (fun k => { k with bound := k.bound ++ [c.1] })).finishLong c.2.cx.r)) := by
  have hexec := exec_eq_body (i := .spawnc d a b) rfl hr
  rw [State.counterAt_word (write := false) hw, hh] at hexec
  dsimp only at hexec
  rw [if_neg (by simp [hplace]), if_neg (by simp [alignedTo_eq_true.mpr hal]), State.counterRmw_done ht] at hexec
  exact ⟨fun h0 => hexec.trans (if_pos h0), fun h0 hroom => hexec.trans ((if_neg h0).trans (if_neg (Nat.not_le.mpr hroom)))⟩

end

end

/-! ### LAUNCHD (R400) -/

theorem launchd_answers {v : List Byte} {t : State} (hr : Ready (.launchd d a) s) (hal : (s.rd a).toNat % 8 = 0) (hq : s.Quiet)
    (hv : s.readWords (encode (.launchd d a)) (s.rd a) 17 = .ok (v, t)) :
    (t.launchdStatus (launchReq v) ≠ 0 →
      exec (.launchd d a) s = .next (t.finishLong (t.cx.r.set d (BitVec.ofNat 64 (2 ^ 64 - t.launchdStatus (launchReq v))))))
    ∧ (t.launchdStatus (launchReq v) = 0 →
        exec (.launchd d a) s = .next ((t.finishLong (t.cx.r.set d (BitVec.ofNat 64 (t.lastLaunch + 1)))).acceptLaunch t.cx.tn (launchReq v)
          (t.cx.r.dom.setWidth 32) (mergeVec (t.die t.cur.die).v (((t.tenant t.cx.tn).map (·.hostVec)).getD [])) none).2) := by
  have hexec := (exec_eq_body rfl hr).trans ((if_neg (by simp [alignedTo_eq_true.mpr hal])).trans
    (if_neg (ne_true_of_eq_false (State.storesOut_eq_false.mpr hq))))
  rw [Laws.encode_launchd] at hv
  dsimp only at hexec
  rw [hv] at hexec
  exact ⟨fun hst => hexec.trans (if_pos hst), fun hst => hexec.trans (if_neg (not_not.mpr hst))⟩

end

/-- Settles O53, instruction by instruction: each clause names the lemma about its case. -/
theorem taskInstructions : Obligations.TaskInstructions := by
  intro s d a b word quiet
  exact ⟨tself_gives (by decide) rfl,
    tself_gives (by decide) rfl,
    tself_gives (by decide) rfl,
    fun _ hr ht => tself_gives (by decide) (State.selfWord_attr ht) hr,
    fun _ hn ha => tself_reserved hn ha,
    spawn_misaligned,
    spawn_child,
    spawn_waits,
    twait_untasked,
    twait_waits,
    twait_joins,
    yield_nothing,
    fun _ _ hr hres hsup hb hk he hrank htaker => yield_spills hr hres hsup hb hk he hrank htaker,
    fun _ hr hd hroot hmine => texit_creator hr hd hroot hmine,
    texit_untasked,
    fun _ hr hd hq hp hb => texit_ends hr hd hq hp hb,
    texit_waits,
    fun _ _ _ hr hw ht => cntinit_writes hr hw ht,
    fun _ _ _ hr hw hd hq hn ht => cntdec_performs hr hw hd hq hn ht,
    fun _ _ _ _ hr hw hh ht => cntwait_reads hh ht hr hw,
    fun _ _ _ _ hr hw hh hplace hal ht => spawnc_binds hh ht hr hw hplace hal,
    fun _ _ hr hal hq hv => launchd_answers hr hal hq hv⟩

end Sys2Proof.Machine

/-!
# The DOM and HV groups

A lemma for each case of each instruction (R162, R170, R171, R174, R402 to R409).
-/

namespace Sys2Proof.Machine

open Claims

section
variable {s : State} {d a b : RegNo} {r : DomRec}

/-! ### DBEGIN (R170, R171, R402) -/

/-- The record of a domain that the issuing context opens (R171, R402). -/
def State.openedRecord (s : State) (d a : RegNo) (id : BitVec 32) : DomRec :=
  { id := id, tenant := s.cx.tn, parent := s.cx.r.dom.setWidth 32, depth := s.cx.r.depth + 1, creator := some s.cur,
    creatorTask := s.myTask, snap := s.cx.r.snapshot d id, ranges := [], limit := (s.rd a).toNat % 16, count := 0, attempt := 0,
    cause := 0#8, causeAddr := 0#64, members := 0, acks := 0, deferred := [], joinVec := [], root := none, ran := [],
    stitched := [], restart := false }

/-- The state with that record at a free index of the context's die. -/
def State.opened (s : State) (d a : RegNo) (i : Nat) : State :=
  let n := s.newDomainId s.cur.die i
  n.2.setDomain n.1 (some (s.openedRecord d a n.1))

/-- The registers inside a domain that has just been opened. -/
def Regs.inside (r : Regs) (d : RegNo) (id : BitVec 32) : Regs :=
  { r.set d (id.setWidth 64) with dom := id.setWidth 64, depth := r.depth + 1 }

section
variable (hr : Ready (.dbegin d a) s)
include hr

theorem dbegin_deep (hdepth : 8 ≤ s.cx.r.depth) : Traps (.dbegin d a) s 0x0A#8 1#64 := (exec_eq_body rfl hr).trans (if_pos hdepth)

variable (hdepth : s.cx.r.depth < 8)
include hdepth

theorem dbegin_waits (hfree : s.freeRecord s.cur.die = none) : exec (.dbegin d a) s = .next (s.waitOn .domainRecord) := by
  refine (exec_eq_body rfl hr).trans ((if_neg (Nat.not_le.mpr hdepth)).trans ?_)
  dsimp only
  rw [hfree]

theorem dbegin_eq {i : Nat} (hfree : s.freeRecord s.cur.die = some i) :
    exec (.dbegin d a) s = .next ((s.opened d a i).finishLong (s.cx.r.inside d (s.newDomainId s.cur.die i).1)) := by
  refine (exec_eq_body rfl hr).trans ((if_neg (Nat.not_le.mpr hdepth)).trans ?_)
  dsimp only
  rw [hfree]
  rfl

theorem dbegin_opens {i : Nat} (hplan : s.planned = false) (hfree : s.freeRecord s.cur.die = some i) :
    let id := (s.newDomainId s.cur.die i).1
    id ≠ 0#32 →
    Ends (.dbegin d a) s (fun t => t.cx.r = ({ s.cx.r.set d (id.setWidth 64) with dom := id.setWidth 64, depth := s.cx.r.depth + 1 } : Regs).advance
      ∧ SameMemory s t ∧ ∃ r, t.domain id = some r ∧ r.limit = (s.rd a).toNat % 16 ∧ r.parent = s.cx.r.dom.setWidth 32
        ∧ r.depth = s.cx.r.depth + 1 ∧ r.creator = some s.cur ∧ r.ranges = [] ∧ r.members = 0 ∧ r.count = 0
        ∧ r.snap.sregs = (s.cx.r.set d (id.setWidth 64)).sregs ∧ r.snap.pc = s.cx.r.pc + 4#64 ∧ r.snap.fflags = s.cx.r.fflags) := by
  intro id hid
  have hexec := dbegin_eq hr hdepth hfree
  rw [State.finishLong_done (s := s.opened d a i) hplan] at hexec
  have hrec : (s.opened d a i).domain id = some (s.openedRecord d a id) := State.domain_setDomain hid rfl
  exact ⟨_, hexec, rfl, sameMemory_of_fields, s.openedRecord d a id, (State.domain_congr rfl).trans hrec, rfl, rfl, rfl, rfl, rfl, rfl, rfl,
    rfl, rfl, rfl⟩

end

/-! ### DPRES (R171, R403) -/

/-- What a SNAP or HOLD range over these parts keeps (R403). -/
def State.rangeOver (t : State) (snap : Bool) (va : Word) (parts : List (Nat × Nat)) : DRange :=
  { snap := snap, va := va, parts := parts, bytes := if snap then parts.flatMap (fun p => t.bytesAt p.1 p.2) else [],
    full := if snap then (parts.flatMap (fun p => if isBasin p.1 then wordsOf p.1 p.2 else [])).filter (t.full ·) else [] }

/-- A range without a basin page keeps no full/empty bits. -/
theorem State.rangeOver_noBasin {parts : List (Nat × Nat)} (t : State) (va : Word) (h : ∀ p ∈ parts, isBasin p.1 = false) :
    t.rangeOver true va parts = ⟨true, va, parts, parts.flatMap (fun p => t.bytesAt p.1 p.2), []⟩ := by
  have hwords : parts.flatMap (fun p => if isBasin p.1 then wordsOf p.1 p.2 else []) = [] :=
    List.flatMap_eq_nil_iff.mpr fun p hp => if_neg (ne_true_of_eq_false (h p hp))
  simp only [State.rangeOver, hwords]
  rfl

/-- A range is added to a domain, and DPRES completes. -/
def State.preserve (t : State) (id : BitVec 32) (e : DRange) : State :=
  let u := t.onDomain id (fun x => { x with ranges := x.ranges ++ [e] })
  u.finishLong u.cx.r

theorem dpres_empty {i : Instr} {snap : Bool} (hi : exec i s = s.dpres (encode i) a b snap) (hr : Ready i s) (hn : s.rd b = 0#64) :
    Done i s s.cx.r := (exec_eq_body hi hr).trans (if_pos (congrArg BitVec.toNat hn))

section
variable (hn : s.rd b ≠ 0#64)
include hn

theorem dpres_outside {i : Instr} {snap : Bool} (hi : exec i s = s.dpres (encode i) a b snap) (hr : Ready i s) (hd : s.myDomain = none) :
    Traps i s 0x0A#8 6#64 := by
  refine (exec_eq_body hi hr).trans ((if_neg (fun h => hn (BitVec.eq_of_toNat_eq h))).trans ?_)
  rw [hd]
  rfl

variable (hd : s.myDomain = some r)
include hd

theorem dpres_many {i : Instr} {snap : Bool} (hi : exec i s = s.dpres (encode i) a b snap) (hr : Ready i s) (hmany : 8 ≤ r.ranges.length) :
    Traps i s 0x0A#8 4#64 := by
  refine (exec_eq_body hi hr).trans ((if_neg (fun h => hn (BitVec.eq_of_toNat_eq h))).trans ?_)
  rw [hd]
  exact if_pos hmany

variable {parts : List (Nat × Nat)} {t : State} (hfew : r.ranges.length < 8) (hq : s.Quiet)
  (hend : (s.rd a).toNat + (s.rd b).toNat ≤ 2 ^ 64) (hout : overlaps (s.rd a).toNat (s.rd b).toNat basinBase (2 ^ 20) = false)
include hfew hq hend hout

/-- What is left to check once a range's pages are known: room for a snapshot, and its poison. -/
theorem dpres_eq {i : Instr} {snap : Bool} (hi : exec i s = s.dpres (encode i) a b snap) (hr : Ready i s)
    (hparts : s.rangeParts (encode i) (s.rd a) (s.rd b).toNat ((s.rd b).toNat / 4096 + 2) = .ok (parts, t)) :
    exec i s =
      if snap && decide (((t.tenant t.cx.tn).map (·.store)).getD 0 < t.snapBytes t.cx.tn + (s.rd b).toNat) then t.misuse (encode i) 3
      else if snap && parts.any (fun p => t.poisoned p.1 p.2) then t.consume (encode i) (s.rd a)
      else .next (t.preserve r.id (t.rangeOver snap (s.rd a) parts)) := by
  refine (exec_eq_body hi hr).trans ((if_neg (fun h => hn (BitVec.eq_of_toNat_eq h))).trans ?_)
  rw [hd]
  refine (if_neg (Nat.not_le.mpr hfew)).trans ((if_neg (Nat.not_lt.mpr hend)).trans ((if_neg (by simp only [hout, Bool.false_and]; decide)).trans
    ((if_neg (ne_true_of_eq_false (State.storesOut_eq_false.mpr hq))).trans ?_)))
  rw [hparts]
  rfl

theorem dpresHold_adds (hr : Ready (.dpresHold a b) s)
    (hparts : s.rangeParts (encode (.dpresHold a b)) (s.rd a) (s.rd b).toNat ((s.rd b).toNat / 4096 + 2) = .ok (parts, t)) :
    exec (.dpresHold a b) s = .next (t.preserve r.id ⟨false, s.rd a, parts, [], []⟩) :=
  dpres_eq (snap := false) hn hd hfew hq hend hout rfl hr hparts

theorem dpresSnap_adds (hr : Ready (.dpresSnap a b) s)
    (hparts : s.rangeParts (encode (.dpresSnap a b)) (s.rd a) (s.rd b).toNat ((s.rd b).toNat / 4096 + 2) = .ok (parts, t))
    (hp : ∀ p ∈ parts, isBasin p.1 = false ∧ t.poisoned p.1 p.2 = false) :
    (((t.tenant t.cx.tn).map (·.store)).getD 0 < t.snapBytes t.cx.tn + (s.rd b).toNat →
      exec (.dpresSnap a b) s = t.trap (encode (.dpresSnap a b)) 0x0A#8 3#64)
    ∧ (t.snapBytes t.cx.tn + (s.rd b).toNat ≤ ((t.tenant t.cx.tn).map (·.store)).getD 0 →
        exec (.dpresSnap a b) s = .next (t.preserve r.id ⟨true, s.rd a, parts, parts.flatMap (fun p => t.bytesAt p.1 p.2), []⟩)) := by
  have hexec := dpres_eq (snap := true) hn hd hfew hq hend hout rfl hr hparts
  have hclean : parts.any (fun p => t.poisoned p.1 p.2) = false := by simpa using fun x y h => (hp (x, y) h).2
  rw [State.rangeOver_noBasin t _ fun p h => (hp p h).1, hclean] at hexec
  exact ⟨fun hlt => hexec.trans (if_pos (by simpa using hlt)), fun hle => hexec.trans ((if_neg (by simpa using hle)).trans (if_neg (by decide)))⟩

end

/-! ### DEND (R174, R404) -/

/-- The commit of a domain with no parent and no deferred decrements (R174). -/
theorem State.commitDomain_bare {v : State} {w : IWord} (hdef : r.deferred = []) (hpar : r.parent = 0#32) :
    let u := ((v.mergeV v.cur.die r.joinVec).handExits r).dropTags r.id
    let f := (u.setDomain r.id none).recordsFreed
    v.commitDomain w r = .next ((f.1.finishLong { f.1.cx.r with dom := 0#64, depth := f.1.cx.r.depth - 1 }).settle f.2) := by
  simp only [State.commitDomain, hdef, hpar, State.onDomain_none (State.domain_zero _)]
  rfl

section
variable (hr : Ready .dend s)
include hr

theorem dend_outside (hd : s.myDomain = none) : Traps .dend s 0x0A#8 6#64 := by
  refine (exec_eq_body rfl hr).trans ?_
  dsimp only
  rw [hd]
  rfl

variable (hd : s.myDomain = some r)
include hd

theorem dend_notMine (h : r.root ≠ none ∨ r.creatorTask ≠ s.myTask) : Traps .dend s 0x0A#8 7#64 := by
  refine (exec_eq_body rfl hr).trans ?_
  dsimp only
  rw [hd]
  refine if_pos ?_
  rcases h with h | h
  · simp [Option.isSome_iff_ne_none.mpr h]
  · simp [h]

/-- The creator of a domain joins its members, waits for its stores, flushes, and commits when every acknowledgement has arrived. -/
theorem dend_creator (hroot : r.root = none) (hmine : r.creatorTask = s.myTask) :
    (r.members ≠ 0 → exec .dend s = .next (s.waitOn .domain))
    ∧ (r.members = 0 → ¬ s.Quiet → exec .dend s = .next (s.waitOn .stores))
    ∧ (∀ e, r.members = 0 → s.Quiet → (s.flushStitch r.id).domain r.id = some e →
        (e.acks ≠ 0 → exec .dend s = .next ((s.flushStitch r.id).waitOn .domain))
        ∧ (e.acks = 0 → e.deferred = [] → e.parent = 0#32 → exec .dend s = (s.flushStitch r.id).commitDomain (encode .dend) e)) := by
  have hexec := exec_eq_body (i := .dend) rfl hr
  dsimp only at hexec
  rw [hd] at hexec
  replace hexec := hexec.trans (if_neg (by simp [hroot, hmine]))
  refine ⟨fun hm => hexec.trans (if_pos hm),
    fun hm hq => hexec.trans ((if_neg (not_not.mpr hm)).trans (if_pos (State.storesOut_eq_true.mpr hq))), fun e hm hq he => ?_⟩
  replace hexec := hexec.trans ((if_neg (not_not.mpr hm)).trans (if_neg (ne_true_of_eq_false (State.storesOut_eq_false.mpr hq))))
  rw [he] at hexec
  refine ⟨fun hacks => hexec.trans (if_pos hacks), fun hacks hdef hpar => hexec.trans ((if_neg (not_not.mpr hacks)).trans
    ((if_neg ?_).trans (if_neg ?_)))⟩
  · simp [hpar, State.domain_zero]
  · simp [hdef]

end

/-! ### DCHK and DABORT (R405) -/

section
variable (hr : Ready (.dchk a b) s)
include hr

theorem dchk_equal (hab : s.rd a = s.rd b) : Done (.dchk a b) s s.cx.r := (exec_eq_body rfl hr).trans (if_pos hab)

variable (hab : s.rd a ≠ s.rd b)
include hab

theorem dchk_outside (hd : s.myDomain = none) : Traps (.dchk a b) s 0x0A#8 8#64 := by
  refine (exec_eq_body rfl hr).trans ((if_neg hab).trans ?_)
  rw [hd]
  rfl

theorem dchk_faults (hd : s.myDomain = some r) :
    exec (.dchk a b) s = .next (s.domainFault r.id 0x0A#8 s.cx.r.chainStart) := by
  refine (exec_eq_body rfl hr).trans ((if_neg hab).trans ?_)
  rw [hd]

end

section
variable (hr : Ready (.dabort a) s)
include hr

theorem dabort_outside (hd : s.myDomain = none) : Traps (.dabort a) s 0x0A#8 6#64 := by
  refine (exec_eq_body rfl hr).trans ?_
  rw [hd]
  rfl

theorem dabort_faults (hd : s.myDomain = some r) :
    exec (.dabort a) s = .next (s.domainFault r.id 0x0A#8 s.cx.r.chainStart ((s.rd a).toNat.testBit 0)) := by
  refine (exec_eq_body rfl hr).trans ?_
  rw [hd]

end

/-! ### DLEVEL (R406) -/

theorem State.levelWord_outside (hd : s.myDomain = none) (n : Nat) : s.levelWord n = 0#64 := by
  rw [State.levelWord, hd]

section
variable (hd : s.myDomain = some r)
include hd

theorem State.levelWord_depth : s.levelWord 0 = BitVec.ofNat 64 s.cx.r.depth := by simp only [State.levelWord, hd]

theorem State.levelWord_id : s.levelWord 1 = s.cx.r.dom := by simp only [State.levelWord, hd]

theorem State.levelWord_count : s.levelWord 2 = BitVec.ofNat 64 r.count := by simp only [State.levelWord, hd]

theorem State.levelWord_cause : s.levelWord 3 = r.cause.setWidth 64 := by simp only [State.levelWord, hd]

theorem State.levelWord_limit : s.levelWord 4 = BitVec.ofNat 64 r.limit := by simp only [State.levelWord, hd]

end

theorem dlevel_gives {n : BitVec 5} {v : Word} (hn : n.toNat < 5) (hv : s.levelWord n.toNat = v) (hr : Ready (.dlevel d n) s) :
    Gives (.dlevel d n) s d v := gives_selected (f := fun t => t.levelWord n.toNat) rfl (decide_eq_true hn) hr hv

theorem dlevel_reserved {n : BitVec 5} (hn : 5 ≤ n.toNat) (ha : s.cx.ahead = none) :
    Traps (.dlevel d n) s 0x01#8 ((encode (.dlevel d n)).setWidth 64) := traps_illegal rfl (decide_eq_false (Nat.not_lt.mpr hn)) ha

/-! ### LEND and UNLEND (R162, R164, R407, R408) -/

/-- A range of a basin meets no page of an empty list. -/
theorem meetsPages_nil (off n : Nat) : meetsPages [] off n = false := rfl

theorem lends_reserve {i : Instr} (hi : i = .lend a b ∨ i = .unlend a b) (hr : Ready i s) (hres : s.cur.reserve = true) :
    Traps i s 0x0E#8 ((encode i).setWidth 64) := by
  rcases hi with rfl | rfl
  all_goals exact (exec_eq_body rfl hr).trans (if_pos hres)

theorem lends_denied {i : Instr} {v : Word} (hi : i = .lend a b ∨ i = .unlend a b) (hr : Ready i s) (hres : s.cur.reserve = false)
    (hv : s.lendFault ((s.rd a).setWidth 8) (s.rd b) = some v) : Traps i s 0x05#8 v := by
  rcases hi with rfl | rfl
  all_goals
    refine (exec_eq_body rfl hr).trans ((if_neg (ne_true_of_eq_false hres)).trans ?_)
    dsimp only
    rw [hv]
    rfl

theorem lend_turns (hr : Ready (.lend a b) s) (hres : s.cur.reserve = false) (hv : s.lendFault ((s.rd a).setWidth 8) (s.rd b) = none)
    (hp : namedPages (s.rd b) = []) :
    let t := (s.onCore s.cur.die s.cur.core CoreSt.replaceDefaults).addLend s.cur.die s.cur.core ((s.rd a).setWidth 8) []
    exec (.lend a b) s = .next (t.finish t.cx.r) := by
  dsimp only
  refine (exec_eq_body rfl hr).trans ((if_neg (ne_true_of_eq_false hres)).trans ?_)
  dsimp only
  rw [hv, hp]
  simp only [List.filter_nil, meetsPages_nil, if_true]
  refine if_neg ?_
  rw [Bool.not_eq_true, List.any_eq_false]
  intro e _
  cases e.write
  all_goals simp

theorem unlend_turns (hr : Ready (.unlend a b) s) (hres : s.cur.reserve = false) (hv : s.lendFault ((s.rd a).setWidth 8) (s.rd b) = none)
    (hp : namedPages (s.rd b) = []) :
    let t := s.onCore s.cur.die s.cur.core CoreSt.replaceDefaults
    exec (.unlend a b) s = .next ((t.finish t.cx.r).unlend s.cur.die s.cur.core ((s.rd a).setWidth 8) []) := by
  intro t
  refine (exec_eq_body rfl hr).trans ((if_neg (ne_true_of_eq_false hres)).trans ?_)
  dsimp only
  rw [hv, hp]
  rfl

/-! ### HSTAT (R409) -/

theorem hstat_gives {n : BitVec 5} {v : Word} (hn : n.toNat < 6) (hv : s.harvestWord n.toNat = v) (hr : Ready (.hstat d n) s) :
    Gives (.hstat d n) s d v := gives_selected (f := fun t => t.harvestWord n.toNat) rfl (decide_eq_true hn) hr hv

theorem hstat_reserved {n : BitVec 5} (hn : 6 ≤ n.toNat) (ha : s.cx.ahead = none) :
    Traps (.hstat d n) s 0x01#8 ((encode (.hstat d n)).setWidth 64) := traps_illegal rfl (decide_eq_false (Nat.not_lt.mpr hn)) ha

/-- From selector 2 on, HSTAT gives the lent pages, 64 to a word. -/
theorem State.harvestWord_pages {n : Nat} (hn : 2 ≤ n) : s.harvestWord n = BitVec.ofNat 64
    ((s.myCore.lentPages.filter (fun p => decide (p / 64 = n - 2))).foldl (fun m p => m + 2 ^ (p % 64)) 0) := by
  obtain ⟨k, rfl⟩ := Nat.exists_eq_add_of_le' hn
  rfl

end

/-- Settles O54, instruction by instruction: each clause names the lemma about its case. -/
theorem domainAndLendInstructions : Obligations.DomainAndLendInstructions := by
  intro s d a b
  dsimp only
  refine ⟨dbegin_deep,
    dbegin_waits,
    fun _ hr hdepth hplan hfree _ => dbegin_opens hr hdepth hplan hfree,
    ?dpres,
    fun _ _ _ hr hn hd hfew hq hend hout hparts => dpresHold_adds hn hd hfew hq hend hout hr hparts,
    fun _ _ _ hr hn hd hfew hq hend hout hparts hp => dpresSnap_adds hn hd hfew hq hend hout hr hparts hp,
    dend_outside,
    ?dend,
    dchk_equal,
    dchk_outside,
    fun _ hr hab hd => dchk_faults hr hab hd,
    dabort_outside,
    fun _ hr hd => dabort_faults hr hd,
    fun n hr hn hd => dlevel_gives hn (State.levelWord_outside hd _) hr,
    fun _ hr hd => dlevel_gives (by decide) (State.levelWord_depth hd) hr,
    fun _ hr hd => dlevel_gives (by decide) (State.levelWord_id hd) hr,
    fun _ hr hd => dlevel_gives (by decide) (State.levelWord_count hd) hr,
    fun _ hr hd => dlevel_gives (by decide) (State.levelWord_cause hd) hr,
    fun _ hr hd => dlevel_gives (by decide) (State.levelWord_limit hd) hr,
    fun _ ha hn => dlevel_reserved hn ha,
    ?lends,
    lend_turns,
    unlend_turns,
    hstat_gives (by decide) rfl,
    hstat_gives (by decide) rfl,
    fun _ hr hn hlt => hstat_gives hlt (State.harvestWord_pages hn) hr,
    fun _ ha hn => hstat_reserved hn ha⟩
  case dpres =>
    rintro i (rfl | rfl) hr
    all_goals exact ⟨dpres_empty rfl hr, fun hn hd => dpres_outside hn rfl hr hd, fun _ hn hd hmany => dpres_many hn hd rfl hr hmany⟩
  case dend =>
    refine fun r hr hd => ⟨dend_notMine hr hd, fun hroot hmine => ?_⟩
    obtain ⟨hjoin, hstores, hflush⟩ := dend_creator hr hd hroot hmine
    exact ⟨hjoin, hstores, fun e hm hq he => (hflush e hm hq he).1,
      fun e hm hq he hacks hdef hpar => ((hflush e hm hq he).2 hacks hdef hpar).trans (State.commitDomain_bare hdef hpar)⟩
  case lends => exact fun i hi hr => ⟨lends_reserve hi hr, fun _ => lends_denied hi hr⟩

end Sys2Proof.Machine

/-!
# Cores: the address checks and the scalar loads

What each range of addresses comes to (Table 7.6), what a read leaves of the plan, and the load that is shared by all sizes.
-/

namespace Sys2Proof.Machine

open Claims

/-! ### The address checks, range by range (Table 7.6) -/

section
variable {s : State} {c : CtxId} {tn : Nat} {heap : Word × Word × Word} {k : AccKind} {va : Word}

theorem canonical_iff : canonical va = true ↔ va.toNat < 2 ^ 47 ∨ 2 ^ 64 - 2 ^ 47 ≤ va.toNat := by
  simp [canonical]

theorem inBasinWin_iff : inBasinWin va = true ↔ basinBase ≤ va.toNat ∧ va.toNat < basinBase + 2 ^ 20 := by
  simp [inBasinWin]

theorem State.xlate_noncanonical (h : ¬ canonical va = true) : s.xlate c tn heap k va = .fault 0x05#8 :=
  if_pos (by simpa using h)

theorem State.xlate_basin (hsup : c.isSup = false) (hc : canonical va = true) (hwin : inBasinWin va = true) :
    s.xlate c tn heap k va =
      if s.basinPageOk c tn ((va.toNat - basinBase) / 4096) then
        .ok { loc := basinLoc c.die c.core (va.toNat - basinBase), win := { valid := true, perms := 3#3 }, slice := 0, marked := false,
              fill := none }
      else .fault 0x05#8 := by
  simp [State.xlate, hsup, hc, hwin]

/-- Above the basin window lie the aperture and addresses that are no one's. -/
theorem State.xlate_above (hsup : c.isSup = false) (h : apertureBase ≤ va.toNat) :
    s.xlate c tn heap k va =
      if va.toNat < apertureBase + 1024 then .aperture ((va.toNat - apertureBase) / 64) ((va.toNat - apertureBase) % 64)
      else .fault 0x05#8 := by
  have hlt := va.isLt
  have hc : canonical va = true := canonical_iff.mpr (by unfold apertureBase at h; omega)
  have hwin : inBasinWin va = false := by
    rw [← Bool.not_eq_true, inBasinWin_iff]
    unfold apertureBase at h
    unfold basinBase
    omega
  have hbit : va.toNat.testBit 47 = true := by
    rw [Nat.testBit_eq_decide_div_mod_eq, decide_eq_true_iff]
    unfold apertureBase at h
    omega
  simp [State.xlate, hsup, hc, hwin, h, hbit]

/-- The lower half is the heap's and the page tables'. -/
theorem State.xlate_lower (hsup : c.isSup = false) (h : va.toNat < 2 ^ 47) :
    s.xlate c tn heap k va =
      if (va - heap.1).toNat < heap.2.1.toNat then s.heapTr false tn heap.2.2 k va else s.pageTr c tn k va.toNat := by
  have hc : canonical va = true := canonical_iff.mpr (.inl h)
  have hwin : inBasinWin va = false := by
    rw [← Bool.not_eq_true, inBasinWin_iff]
    unfold basinBase
    omega
  have haper : ¬ apertureBase ≤ va.toNat := by
    unfold apertureBase
    omega
  simp [State.xlate, hsup, hc, hwin, haper, Nat.testBit_lt_two_pow h]

end

/-- Settles O28: each clause is one range of the addresses. -/
theorem addressCheckOrder : Obligations.AddressCheckOrder := by
  intro s k va hsup n off
  refine ⟨fun hlo hhi => ?noncanonical, fun hlo hhi => ?basin, fun hlo hhi => ?aperture, fun hlo => ?upper, fun hlow hin => ?heap,
    fun hlow hout => ?pages⟩
  case noncanonical => exact State.xlate_noncanonical (by rw [canonical_iff]; omega)
  case basin =>
    have hwindow := State.xlate_basin (s := s) (tn := s.cx.tn) (heap := (s.cx.heapbase, s.cx.heaplim, s.cx.heapoff)) (k := k) hsup
      (canonical_iff.mpr (by omega)) (inBasinWin_iff.mpr ⟨hlo, hhi⟩)
    exact ⟨fun hok => ⟨_, hwindow.trans (if_pos hok), rfl, rfl⟩, fun hno => hwindow.trans (if_neg (ne_true_of_eq_false hno))⟩
  case aperture => exact (State.xlate_above hsup hlo).trans (if_pos hhi)
  case upper => exact (State.xlate_above hsup (Nat.le_trans (by decide) hlo)).trans (if_neg (Nat.not_lt.mpr hlo))
  case heap => exact (State.xlate_lower hsup hlow).trans (if_pos hin)
  case pages => exact (State.xlate_lower hsup hlow).trans (if_neg (Nat.not_lt.mpr hout))

/-! ### An empty plan (R182) -/

section
variable {s t : State} {x : Access} {n : Nat}

theorem State.planned_empty (h : s.plan = []) : s.planned = false := by
  rw [State.planned, h]
  rfl

theorem State.replan_empty (h : s.plan = []) : s.replan = s := by
  rw [State.replan, h]
  exact congrArg (fun p => { s with plan := p }) h.symm

theorem State.finishLong_empty (h : s.plan = []) (r : Regs) : s.finishLong r = s.finish r := by
  rw [State.finishLong_done (State.planned_empty h), State.replan_empty h]

/-! ### What a read leaves of the plan -/

namespace State.Stows

variable {r : State}

theorem mergeV (h : r.Stows s) {d : Nat} {v : SMap (BitVec 32)} : r.Stows (s.mergeV d v) := h.onDie

theorem retireYoung (h : r.Stows s) {d : Nat} : r.Stows (s.retireYoung d) := h.onDie

theorem sliceRead (h : r.Stows s) {d slice loc n pol : Nat} : r.Stows (s.sliceRead d slice loc n pol) :=
  h.foldl fun _ _ ht => (ht.onStack fun _ => .access ..).ite ht.l2Read

theorem ownRead (h : r.Stows s) {d slice loc n pol : Nat} : r.Stows (s.ownRead d slice loc n pol) := h.sliceRead.onDie

theorem fillRdc (h : r.Stows s) {e d slice loc pol : Nat} : r.Stows (s.fillRdc e d slice loc pol) := h.onDie.sliceRead.onDie

end State.Stows

/-- A read beyond the basin changes what is below the homes alone. -/
theorem State.readFar_stows {d pol : Nat} {home : Bool} {b : List Byte} (hr : s.readFar d x n home pol = .val b t) : s.Stows t := by
  have hs := State.Stows.refl s
  unfold State.readFar at hr
  repeat' split at hr
  all_goals cases hr
  exacts [hs, hs.ownRead, hs.mergeV, hs.sliceRead.mergeV, hs.retireYoung.fillRdc]

/-- A read uses no entry of the plan. -/
theorem State.read_plan {home : Bool} {b : List Byte} (hr : s.read x n home = .val b t) : t.plan = s.plan := by
  unfold State.read at hr
  repeat' split at hr
  · cases hr
  · cases hr
    rfl
  · cases hr
  · exact (State.readFar_stows hr).keeps State.plan

/-! ### Access checks that nothing keeps waiting -/

theorem tlbd_plan : (tlbd s x).plan = s.plan := by
  unfold tlbd State.fillTlb
  split <;> rfl

section
variable {w : IWord} {k : AccKind} {va : Word} {onAbsent : State → Res} {onAperture : Nat → Nat → Res} {go : Access → State → Res}

theorem State.withAccess_fault {c : BitVec 8} (htr : s.tr k va = .fault c) :
    s.withAccess w k va onAbsent onAperture go = s.trap w c va (k == .wr) := by
  rw [State.withAccess, htr]

/-- With nothing kept in flight, a translated access goes on with its translation in the TLBs (R202). -/
theorem State.withAccess_tlbd (hplan : s.plan = []) (htr : s.tr k va = .ok x) :
    s.withAccess w k va onAbsent onAperture go = go x (tlbd s x) := by
  cases hfill : x.fill with
  | none => rw [State.withAccess_ok htr hfill, tlbd, hfill]; rfl
  | some e => simp [State.withAccess, htr, hfill, State.planned_empty hplan, State.replan_empty hplan, tlbd]

end

end

/-! ### Loads (R318) -/

/-- What `State.load` does meets the claim about loads, whatever instruction it serves. -/
theorem loadDoes_of_load {i : Instr} {d a : RegNo} {w : BitVec 2} {off : BitVec 13} {n : Nat} {signed : Bool}
    (hi : ∀ s, exec i s = s.load (encode i) d a w off n signed) : LoadDoes i d a w off n signed := by
  intro s hready hplan hcounts va
  obtain ⟨hahead, hhint⟩ := hready
  have hva : s.cx.r.memAddr a n off = va := rfl
  have hexec := hi s
  rw [State.load, issueMem_ready hahead hhint, hva, if_neg (by simp [hcounts])] at hexec
  refine ⟨fun hout => ?crosses, fun c hin htr => ?fault, fun x b t hin htr hctl hread => ?loads⟩
  case crosses => exact hexec.trans (if_pos (crossesSector_eq_true.mpr hout))
  all_goals rw [if_neg (ne_true_of_eq_false (crossesSector_eq_false.mpr hin))] at hexec
  case fault => exact hexec.trans (State.withAccess_fault htr)
  case loads =>
    have hempty : t.plan = [] := (State.read_plan hread).trans (tlbd_plan.trans hplan)
    rw [hexec, State.withAccess_tlbd hplan htr, if_neg (ne_true_of_eq_false hctl), hread]
    dsimp only
    rw [State.finishLong_empty hempty]
    exact congrArg Host.Outcome.next (ite_self _)

/-- Settles O23: the seven loads are one shared operation at four sizes. -/
theorem scalarLoads : Obligations.ScalarLoads := fun _ _ _ _ =>
  ⟨loadDoes_of_load fun _ => rfl, loadDoes_of_load fun _ => rfl, loadDoes_of_load fun _ => rfl, loadDoes_of_load fun _ => rfl,
    loadDoes_of_load fun _ => rfl, loadDoes_of_load fun _ => rfl, loadDoes_of_load fun _ => rfl⟩

end Sys2Proof.Machine

/-!
# Atomics

What an atomic that is performed comes to, home by home (R234): `State.AtomicEnds`.  From it, what the thirteen instructions do, and that memory
sees one read and one write.
-/

namespace Sys2Proof.Machine

open Claims

/-! ### An atomic, home by home (R234, R236) -/

/-- The new value of an atomic is written at its location, where there is one (R326). -/
def State.putNew (s : State) (x : Access) (n : Nat) (g : WriteFrom) (v : Option Nat) (pol : Nat) : State :=
  match v with
  | some v => s.applyWrite x.loc (bytesLE n v) x.slice g pol
  | none => s

/-- What an atomic of the own package goes by: the old value, the new one and the state; an unordered access of another size leaves the value
undefined (R236). -/
def State.atomicValues (s : State) (h : Nat) (x : Access) (n : Nat) (f : Nat → Option Nat) : Nat × Option Nat × State :=
  if s.unordered h s.cur.die x.loc n then (s.free.1.toNat % 2 ^ (8 * n), some s.free.1.toNat, s.free.2)
  else (s.natAtLoc x.loc n, f (s.natAtLoc x.loc n), s)

/-- What an atomic that is performed gives: the old value and the state, by the home of its location. -/
inductive State.AtomicEnds (s : State) (x : Access) (n : Nat) (f : Nat → Option Nat) : Nat → State → Prop
  /-- A word of a basin. -/
  | basin (hb : isBasin x.loc = true) : s.AtomicEnds x n f (s.natAtLoc x.loc n)
      (((s.noteRace x.loc n).putNew x n .local (f (s.natAtLoc x.loc n)) s.cx.r.cachePolicy).noteHarvest s.cur x.loc)
  /-- Memory of another package. -/
  | away (hb : isBasin x.loc = false) (hh : homeDie x.loc = none) :
      s.AtomicEnds x n f (s.natAtLoc x.loc n) (s.putNew x n .local (f (s.natAtLoc x.loc n)) s.cx.r.cachePolicy)
  /-- Memory homed on the issuing die. -/
  | own {o : Nat × Option Nat × State} (ho : o = s.atomicValues s.cur.die x n f) (hb : isBasin x.loc = false) (hh : homeDie x.loc = some s.cur.die)
      (hp : s.sectorPoisoned x.loc n = false) : s.AtomicEnds x n f o.1
      (((o.2.2.ownRead s.cur.die x.slice x.loc n s.cx.r.cachePolicy).putNew x n .local o.2.1 s.cx.r.cachePolicy).noteStrong
        s.cur.die s.cur.die x.loc n none)
  /-- Memory homed on another die of the package: `num` numbers the causal write, `v` is what the response merges. -/
  | causal {h : Nat} {o : Nat × Option Nat × State} {u : State} (num : BitVec 32) (v : SMap (BitVec 32)) (ho : o = s.atomicValues h x n f)
      (hu : u = (((o.2.2.dropRdc s.cur.die x.loc n).bump s.cur.die).2.retireYoung h).sliceRead h x.slice x.loc n s.cx.r.cachePolicy)
      (hb : isBasin x.loc = false) (hh : homeDie x.loc = some h) (hne : h ≠ s.cur.die) : s.AtomicEnds x n f o.1
      ((((u.putNew x n (.die s.cur.die num) o.2.1 s.cx.r.cachePolicy).noteStrong h s.cur.die x.loc n (some num)).acked s.cur.die num).mergeV
        s.cur.die v)

section
variable {s t : State} {x : Access} {n old : Nat} {f : Nat → Option Nat}

theorem State.atomicValues_eq (h : Nat) : s.atomicValues h x n f =
    (if s.unordered h s.cur.die x.loc n then s.free.1.toNat % 2 ^ (8 * n) else s.natAtLoc x.loc n,
      if s.unordered h s.cur.die x.loc n then some s.free.1.toNat else f (s.natAtLoc x.loc n),
      if s.unordered h s.cur.die x.loc n then s.free.2 else s) := by
  unfold State.atomicValues
  split <;> rfl

theorem State.atomicValues_ordered {h : Nat} (ho : s.unordered h s.cur.die x.loc n = false) :
    s.atomicValues h x n f = (s.natAtLoc x.loc n, f (s.natAtLoc x.loc n), s) := if_neg (by simp [ho])

theorem State.atomicValues_plan (h : Nat) : (s.atomicValues h x n f).2.2.plan = s.plan := by
  unfold State.atomicValues
  split <;> rfl

/-- An atomic that is performed ends in one of these ways. -/
theorem State.atomic_ends (hdone : s.atomic x n f = .done old t) : s.AtomicEnds x n f old t := by
  unfold State.atomic at hdone
  extract_lets pol put was src at hdone
  cases hb : isBasin x.loc with
  | true =>
    rw [if_pos hb] at hdone
    split at hdone
    · cases hdone
    injection hdone with hold ht
    rw [← hold, ← ht]
    exact .basin hb
  | false =>
    rw [if_neg (by simp [hb])] at hdone
    split at hdone
    · cases hdone
    split at hdone
    · cases hdone
    split at hdone
    · cases hdone
    split at hdone
    · next hh =>
      split at hdone
      · cases hdone
      split at hdone
      · cases hdone
      injection hdone with hold ht
      rw [← hold, ← ht]
      exact .away hb hh
    · next h hh =>
      split at hdone
      · cases hdone
      split at hdone
      · cases hdone
      next hclean =>
      split at hdone
      · cases hdone
      extract_lets mix was' new s0 b d rsp t' at hdone
      have ho : (was', new, s0) = s.atomicValues h x n f := (s.atomicValues_eq h).symm
      split at hdone
      · next hsrc =>
        have hown : h = s.cur.die := hsrc
        have hp : s.sectorPoisoned x.loc n = false := (Bool.or_eq_false_iff.mp (eq_false_of_ne_true hclean)).2
        injection hdone with hold ht
        rw [← hold, ← ht, hown]
        rw [hown] at ho hh
        exact .own ho hb hh hp
      · next hsrc =>
        split at hdone
        · cases hdone
        injection hdone with hold ht
        rw [← hold, ← ht]
        exact .causal b.1 rsp ho rfl hb hh hsrc

/-! ### The plan (R182) -/

theorem State.noteRace_wakes (s : State) (loc n : Nat) : s.Wakes (s.noteRace loc n) := by
  unfold State.noteRace
  split
  · exact .refl s
  · dsimp only
    split
    exacts [.refl s, .onCore ..]

theorem State.noteHarvest_wakes (s : State) (c : CtxId) (loc : Nat) : s.Wakes (s.noteHarvest c loc) := .ite (.onCore ..) (.refl s)

theorem State.putNew_plan (s : State) (x : Access) (n : Nat) (g : WriteFrom) (v : Option Nat) (pol : Nat) : (s.putNew x n g v pol).plan = s.plan := by
  cases v with
  | none => rfl
  | some v =>
    obtain ⟨u, hstow, hwake⟩ := s.applyWrite_eq x.loc (bytesLE n v) x.slice g pol
    exact (hwake.keeps State.plan).trans (hstow.keeps State.plan)

/-- An atomic uses no entry of the plan. -/
theorem State.AtomicEnds.plan (h : s.AtomicEnds x n f old t) : t.plan = s.plan := by
  cases h with
  | basin =>
    calc _ = ((s.noteRace x.loc n).putNew x n .local _ _).plan := (State.noteHarvest_wakes ..).keeps State.plan
      _ = (s.noteRace x.loc n).plan := State.putNew_plan ..
      _ = s.plan := (s.noteRace_wakes ..).keeps State.plan
  | away => exact State.putNew_plan ..
  | @own o ho =>
    calc _ = (o.2.2.ownRead s.cur.die x.slice x.loc n s.cx.r.cachePolicy).plan := State.putNew_plan ..
      _ = o.2.2.plan := (State.Stows.refl _).ownRead.keeps State.plan
      _ = s.plan := ho ▸ s.atomicValues_plan _
  | @causal h o u num v ho hu =>
    calc _ = u.plan := State.putNew_plan ..
      _ = (((o.2.2.dropRdc s.cur.die x.loc n).bump s.cur.die).2.retireYoung h).plan := hu ▸ (State.Stows.refl _).sliceRead.keeps State.plan
      _ = o.2.2.plan := rfl
      _ = s.plan := ho ▸ s.atomicValues_plan _

namespace State.Stows

variable {r : State}

theorem capTags (h : r.Stows s) {d slice : Nat} : r.Stows (s.capTags d slice) := by
  unfold State.capTags
  dsimp only
  refine h.ite ?_
  split
  · exact h
  · refine onDie ?_
    split
    exacts [h.l2WriteBack, h]

theorem noteStitch (h : r.Stows s) : r.Stows (s.noteStitch x n) := by
  unfold State.noteStitch State.noteStitchOf
  refine h.ite ?_
  split
  exacts [h.onDie.capTags, h.onDomain]

end State.Stows

/-! ### The instructions (R325 to R327) -/

theorem extS_eq (n old : Nat) : extS n old = if n = 4 then (BitVec.ofNat 32 old).signExtend 64 else BitVec.ofNat 64 old := by
  rw [extS, sextW, BitVec.setWidth_ofNat_of_le (by decide)]

/-- What `State.atom` does meets the claim about atomics, whatever instruction it serves. -/
theorem atomicDoes_of_atom {i : Instr} {d a : RegNo} {w : BitVec 2} {g : State → Nat → Option Nat} {ext : Nat → Word} {signed : Bool}
    (hi : ∀ s, exec i s = s.atom (encode i) d a w n (g s) ext)
    (hext : ∀ old, ext old = if signed ∧ n = 4 then (BitVec.ofNat 32 old).signExtend 64 else BitVec.ofNat 64 old) :
    AtomicDoes i d a w n g signed := by
  intro s hready hplan hcounts
  dsimp only
  have hexec := exec_eq_body (hi s) hready
  rw [if_neg (by simp [hcounts])] at hexec
  refine ⟨fun hodd => ?misaligned, fun c hal htr => ?fault, fun x hal htr hfill hship hctl =>
    ⟨fun hheld => ?held, fun old t hheld hdone => ?done⟩⟩
  case misaligned => exact hexec.trans (if_pos (by simp [alignedTo_eq_false.mpr hodd]))
  all_goals rw [if_neg (by simp [alignedTo_eq_true.mpr hal])] at hexec
  case fault => exact hexec.trans (State.withAccess_fault htr)
  all_goals rw [State.withAccess_ok htr hfill, if_neg (by simp [hship, hctl])] at hexec
  case held => exact hexec.trans (if_pos hheld)
  case done =>
    have hempty : (t.noteStitch x n).plan = [] :=
      ((State.Stows.refl t).noteStitch.keeps State.plan).trans ((State.atomic_ends hdone).plan.trans hplan)
    rw [hexec, if_neg (by simp [hheld]), hdone]
    dsimp only
    rw [State.finishLong_empty hempty, ite_self, hext]

/-- An atomic whose 4-byte result is sign-extended (R326). -/
theorem atomicDoes_signed {i : Instr} {d a : RegNo} {w : BitVec 2} {g : State → Nat → Option Nat}
    (hi : ∀ s, exec i s = s.atom (encode i) d a w n (g s) (extS n)) : AtomicDoes i d a w n g true :=
  atomicDoes_of_atom hi fun old => by simp [extS_eq]

/-- An atomic whose result is zero-extended (R326). -/
theorem atomicDoes_unsigned {i : Instr} {d a : RegNo} {w : BitVec 2} {g : State → Nat → Option Nat}
    (hi : ∀ s, exec i s = s.atom (encode i) d a w n (g s) extU) : AtomicDoes i d a w n g false :=
  atomicDoes_of_atom hi fun old => by simp [extU]

end

/-- Settles O32: the thirteen atomics are one shared operation with thirteen new values. -/
theorem atomics : Obligations.Atomics := fun _ _ _ _ _ =>
  ⟨atomicDoes_signed fun _ => rfl, atomicDoes_signed fun _ => rfl, atomicDoes_signed fun _ => rfl, atomicDoes_signed fun _ => rfl,
    atomicDoes_signed fun _ => rfl, atomicDoes_signed fun _ => rfl, atomicDoes_unsigned fun _ => rfl, atomicDoes_unsigned fun _ => rfl,
    atomicDoes_signed fun _ => rfl, atomicDoes_signed fun _ => rfl, atomicDoes_unsigned fun _ => rfl, atomicDoes_unsigned fun _ => rfl,
    atomicDoes_unsigned fun _ => rfl⟩

/-! ### A sector that its home slice has read (R193, R195) -/

section
variable {s : State} {d slice line loc n pol c : Nat} {need : BitVec 4}

/-- A line is held where it has been put. -/
theorem State.l2Line_l2Put (x : L2Line) (lru keep : Bool) : ∃ k, (s.l2Put d x lru keep).l2Line d x.line = some { x with kept := k } := by
  unfold State.l2Put
  extract_lets set others s1 kept
  refine ⟨kept, ?_⟩
  have hgone : (without (s1.die d).l2 (fun y => y.line == x.line)).find? (fun y => y.line == x.line) = none := by
    simp [without, List.find?_eq_none]
  rw [State.l2Line, State.setL2, State.die_onDie_same]
  cases lru
  case true => simp
  case false => simp [enq, hgone]

theorem State.l2Misses_l2Put (x : L2Line) (lru keep : Bool) : (s.l2Put d x lru keep).l2Misses d x.line need = (need &&& ~~~x.valid != 0#4) := by
  obtain ⟨k, hk⟩ := s.l2Line_l2Put (d := d) x lru keep
  rw [State.l2Misses, hk]
  rfl

theorem State.l2Or_line : (s.l2Or d slice line).line = line := by
  unfold State.l2Or
  cases hl : s.l2Line d line with
  | none => rfl
  | some x => simpa using List.find?_some hl

theorem State.baseRead_poison : (s.baseRead line need).2.2.poison = s.poison := by
  unfold State.baseRead
  dsimp only
  split <;> rfl

/-- The base die answers with the sectors that were asked for, or with the whole line. -/
theorem State.baseRead_covers : need &&& ~~~(s.baseRead line need).1 = 0#4 := by
  unfold State.baseRead
  dsimp only
  split
  · simp
  · exact BitVec.and_not_self _

/-- What is needed is there once what was missing has been added. -/
theorem and_not_or_eq_zero {v r : BitVec 4} (h : (need &&& ~~~v) &&& ~~~r = 0#4) : need &&& ~~~(v ||| r) = 0#4 := by
  rw [BitVec.not_or, ← BitVec.and_assoc, h]

/-- A slice that reads puts a line with all that is needed in its place, or nothing is put and no mark changes. -/
theorem State.l2Read_cases : (s.l2Read d slice line need pol).poison = s.poison
    ∨ ∃ (u : State) (x : L2Line) (lru keep : Bool), s.l2Read d slice line need pol = u.l2Put d x lru keep ∧ x.line = line
      ∧ need &&& ~~~x.valid = 0#4 := by
  obtain ⟨t, ht⟩ : ∃ t, s.l2Read d slice line need pol = t := ⟨_, rfl⟩
  rw [ht]
  unfold State.l2Read at ht
  extract_lets x miss r at ht
  split at ht
  · next hmiss => exact .inr ⟨_, _, _, _, ht.symm, State.l2Or_line, hmiss⟩
  · split at ht
    · exact .inl (ht ▸ State.baseRead_poison)
    · exact .inr ⟨_, _, _, _, ht.symm, State.l2Or_line, and_not_or_eq_zero State.baseRead_covers⟩

/-- A slice that still misses what it has read has changed no mark. -/
theorem State.l2Read_poison (h : (s.l2Read d slice line need pol).l2Misses d line need = true) :
    (s.l2Read d slice line need pol).poison = s.poison := by
  refine s.l2Read_cases.resolve_right ?_
  rintro ⟨u, x, lru, keep, hput, rfl, hvalid⟩
  rw [hput, State.l2Misses_l2Put, hvalid] at h
  exact absurd h (by decide)

/-- An own read of a sector that leaves the base die to be written changes no mark. -/
theorem State.ownRead_poison (hc : sectorsOf loc n = [c])
    (h : (s.ownRead d slice loc n pol).isShip loc = true ∨ (s.ownRead d slice loc n pol).bypasses d c pol = true) :
    (s.ownRead d slice loc n pol).poison = s.poison := by
  have hship : (s.ownRead d slice loc n pol).isShip loc = s.isShip loc := (State.Stows.refl s).ownRead.keeps fun t => t.isShip loc
  have hread : (s.ownRead d slice loc n pol).poison = (s.sliceRead d slice loc n pol).poison := rfl
  have hmiss : (s.ownRead d slice loc n pol).l2Misses d (c / 4) (sectorBit c) = (s.sliceRead d slice loc n pol).l2Misses d (c / 4) (sectorBit c) := by
    simp only [State.l2Misses, State.l2Line, State.ownRead, State.die_onDie_same]
  rw [State.sliceRead, hc, List.foldl_cons, List.foldl_nil] at hread hmiss
  rw [hship] at h
  cases hs : s.isShip loc with
  | true =>
    rw [hread, if_pos hs]
    rfl
  | false =>
    rw [hs] at h
    rw [if_neg (by simp [hs])] at hread hmiss
    have hbypass := h.resolve_left (by decide)
    rw [State.bypasses, hmiss] at hbypass
    simp only [Bool.and_eq_true] at hbypass
    rw [hread]
    exact State.l2Read_poison hbypass.1.2

/-! ### Writes that the slice takes (R193, R195) -/

theorem State.noteWrite_l2 (h e : Nat) (g : WriteFrom) : ((s.noteWrite h slice c g).die e).l2 = (s.die e).l2 := by
  have hdie (u : State) (f : DieSt → DieSt) (hf : ∀ k, (f k).l2 = k.l2) : ((u.onDie h f).die e).l2 = (u.die e).l2 := by
    by_cases he : e = h
    · rw [he, State.die_onDie_same, hf]
    · rw [State.die_onDie_other _ _ he]
  unfold State.noteWrite State.acked State.bump
  split
  · dsimp only
    split <;> simp only [hdie, implies_true]
  · exact hdie _ _ fun _ => rfl

/-- The causal bookkeeping of a write does not matter to whether the base die takes it. -/
theorem State.noteWrite_bypasses (h e : Nat) (g : WriteFrom) : (s.noteWrite h slice c g).bypasses e c pol = s.bypasses e c pol := by
  have hstitch : (s.noteWrite h slice c g).stitchOf (c * 128) = s.stitchOf (c * 128) :=
    (State.Stows.refl s).noteWrite.keeps fun t => t.stitchOf (c * 128)
  simp only [State.bypasses, State.l2Misses, State.l2Line, State.noteWrite_l2, hstitch]

variable {b : List Byte} {g : WriteFrom}

/-- The slice takes every byte of a part that the base die is not left to write. -/
theorem State.writePart_mem (h : ∀ e, homeDie (c * 128) = some e → ¬ (s.isShip loc = true ∨ s.bypasses e c pol = true)) :
    (s.writePart slice c loc b g pol).mem = writeMem s.mem loc b := by
  unfold State.writePart
  split
  · exact State.cachedPart_mem ..
  · next e he =>
    have hship : (s.noteWrite e slice c g).isShip loc = s.isShip loc := (State.Stows.refl s).noteWrite.keeps fun t => t.isShip loc
    have hmem : (s.noteWrite e slice c g).mem = s.mem := by
      obtain ⟨k, hk⟩ := s.noteWrite_eq e slice c g
      rw [hk]
    dsimp only
    rw [if_neg (by simpa [hship, State.noteWrite_bypasses] using h e he), State.cachedPart_mem, State.l2Write_mem, hmem]

/-- A sector has one home. -/
theorem homeDie_sector (hb : isBasin loc = false) : homeDie (loc / 128 * 128) = homeDie loc := by
  have hlow : loc < 2 ^ 72 := by simpa [isBasin] using hb
  have hb' : isBasin (loc / 128 * 128) = false := by
    simp only [isBasin, decide_eq_false_iff_not]
    omega
  have hown : isOwn (loc / 128 * 128) = isOwn loc := by
    simp only [isOwn, decide_eq_decide]
    omega
  have hstack : stackOf (loc / 128 * 128) = stackOf loc := by
    simp only [stackOf]
    omega
  simp [homeDie, hb, hb', hown, hstack]

/-- A write within a sector that the base die is not left to write is in memory, whatever the sector's marks. -/
theorem State.applyWrite_slice_mem (hb : isBasin loc = false) (hnil : b ≠ []) (hin : loc % 128 + b.length ≤ 128)
    (h : ∀ e, homeDie loc = some e → ¬ (s.isShip loc = true ∨ s.bypasses e (loc / 128) pol = true)) :
    (s.applyWrite loc b slice g pol).mem = writeMem s.mem loc b := by
  rw [State.applyWrite, if_neg (by simp [hb]), partsOf_sector hnil hin]
  exact ((State.Wakes.fireMonitors _ loc b.length).keeps State.mem).trans (State.writePart_mem (by rwa [homeDie_sector hb]))

end

/-! ### One read and one write (R234) -/

section
variable {s t : State} {x : Access} {n old d : Nat} {f : Nat → Option Nat}

/-- An aligned access of 4 or 8 bytes meets one sector. -/
theorem sectorsOf_aligned {loc : Nat} (hn : n = 4 ∨ n = 8) (hal : loc % n = 0) : sectorsOf loc n = [loc / 128] := by
  have h0 : (loc + n - 1) / 128 - loc / 128 = 0 := by rcases hn with rfl | rfl <;> omega
  have hpos : n ≠ 0 := by omega
  simp [sectorsOf, hpos, h0]

/-- The new value is in memory once the home slice has read its sector, found without poison, and written it. -/
theorem State.ownRead_putNew_bytes {v pol : Nat} (hn : n = 4 ∨ n = 8) (hal : x.loc % n = 0) (hb : isBasin x.loc = false)
    (hh : homeDie x.loc = some d) (hp : s.sectorPoisoned x.loc n = false) :
    ((s.ownRead d x.slice x.loc n pol).putNew x n .local (some v) pol).bytesAt x.loc n = bytesLE n v := by
  have hlen : (bytesLE n v).length = n := length_bytesLE ..
  have hin : x.loc % 128 + (bytesLE n v).length ≤ 128 := by
    rw [hlen]
    rcases hn with rfl | rfl <;> omega
  have hnil : bytesLE n v ≠ [] := List.length_pos_iff.mp (by omega)
  suffices h : ((s.ownRead d x.slice x.loc n pol).putNew x n .local (some v) pol).bytesAt x.loc (bytesLE n v).length = bytesLE n v by rwa [hlen] at h
  by_cases hbase : (s.ownRead d x.slice x.loc n pol).isShip x.loc = true ∨ (s.ownRead d x.slice x.loc n pol).bypasses d (x.loc / 128) pol = true
  · have hclean : (s.ownRead d x.slice x.loc n pol).sectorPoisoned x.loc (bytesLE n v).length = false := by
      rw [hlen, ← hp]
      simp only [State.sectorPoisoned, State.poisoned, State.ownRead_poison (sectorsOf_aligned hn hal) hbase]
    exact State.applyWrite_bytes hb hin hclean
  · refine bytesAt_of_write (State.applyWrite_slice_mem hb hnil hin fun e he => ?_)
    obtain rfl : d = e := Option.some.inj (hh.symm.trans he)
    exact hbase

theorem State.putNew_sameOutside {g : WriteFrom} {v : Option Nat} {pol : Nat} : s.SameOutside x.loc n (s.putNew x n g v pol) := by
  cases v with
  | none => exact .of_mem rfl
  | some v => exact State.applyWrite_sameOutside.mono le_rfl (by rw [length_bytesLE])

/-- Where a number's bytes are written they are read. -/
theorem State.bytesAt_bytesLE {loc v : Nat} (h : t.mem = writeMem s.mem loc (bytesLE n v)) : t.bytesAt loc n = bytesLE n v := by
  simpa using bytesAt_of_write h

end

/-- Settles O33: in a basin, and at the own die's home, what is put is the new value of what was read, and nothing else is written. -/
theorem atomicsReadAndWriteOnce : Obligations.AtomicsReadAndWriteOnce := by
  intro s t x n old f hdone hn hal hhome
  cases State.atomic_ends hdone with
  | basin hb =>
    have hrace : (s.noteRace x.loc n).mem = s.mem := s.noteRace_mem ..
    have hharvest (u : State) : (u.noteHarvest s.cur x.loc).mem = u.mem := (u.noteHarvest_wakes ..).keeps State.mem
    refine ⟨rfl, fun v hv => ?new, fun hv => ?none, ?frame⟩
    case new =>
      rw [hv]
      exact State.bytesAt_bytesLE ((hharvest _).trans ((State.applyWrite_basin_mem hb).trans (by rw [hrace])))
    case none =>
      rw [hv]
      exact (hharvest _).trans hrace
    case frame => exact State.SameOutside.trans (.of_mem hrace) (State.putNew_sameOutside.trans (.of_mem (hharvest _)))
  | away hb hh => simp [hb, hh] at hhome
  | own ho hb hh hp =>
    obtain ⟨-, hordered⟩ := hhome.resolve_left (by simp [hb])
    rw [State.atomicValues_ordered hordered] at ho
    subst ho
    have hread : (s.ownRead s.cur.die x.slice x.loc n s.cx.r.cachePolicy).mem = s.mem := (State.Settles.refl s).ownRead.mem
    refine ⟨rfl, fun v hv => ?new, fun hv => ?none, ?frame⟩
    case new =>
      dsimp only
      rw [hv]
      exact State.ownRead_putNew_bytes hn hal hb hh hp
    case none =>
      dsimp only
      rw [hv]
      exact hread
    case frame => exact State.SameOutside.trans (.of_mem hread) State.putNew_sameOutside
  | causal num v ho hu hb hh hne =>
    exact absurd (Option.some.inj (hh.symm.trans (hhome.resolve_left (by simp [hb])).1)) hne

end Sys2Proof.Machine

/-!
# Numbers: divisions, scalar floating point, matrix arithmetic

The integer division functions of chapter 9 are the quotient and remainder operations of `BitVec` away from a zero divisor (R242), an issued
scalar instruction completes with what its body computes (R303, R307, R312, R313), and an element of C is the fold of the engine's steps
(R256, R257, R259) over operands whose elements stand in places of their own (R367, R368).
-/

namespace Sys2Proof.Machine

open Claims

/-! ### Integer division (R242, Table 9.1) -/

/-- Minus one is the number of all ones. -/
theorem ofInt_neg_one {n : Nat} : BitVec.ofInt n (-1) = ~~~0#n := by
  simp [BitVec.ofInt_neg, BitVec.neg_one_eq_allOnes]

theorem divS_eq {n : Nat} (a b : BitVec n) : divS n a b = if b = 0#n then ~~~0#n else a.sdiv b := by
  have hquot : BitVec.ofInt n (a.toInt.tdiv b.toInt) = a.sdiv b :=
    BitVec.toInt_inj.mp (by rw [BitVec.toInt_ofInt, BitVec.toInt_sdiv])
  rw [divS, hquot, ofInt_neg_one]
  rfl

theorem divU_eq {n : Nat} (a b : BitVec n) : divU n a b = if b = 0#n then ~~~0#n else a / b := by
  rw [divU, ofInt_neg_one, BitVec.udiv_def]
  rfl

theorem remS_eq {n : Nat} (a b : BitVec n) : remS n a b = if b = 0#n then a else a.srem b := by
  rw [remS, ← BitVec.toInt_srem, BitVec.ofInt_toInt]
  rfl

theorem remU_eq {n : Nat} (a b : BitVec n) : remU n a b = if b = 0#n then a else a % b := by
  rw [remU, BitVec.umod_def]
  rfl

/-- A 32-bit quotient of all ones stays all ones when it is sign-extended. -/
theorem sxW_ite_ones {p : Prop} [Decidable p] (x : BitVec 32) :
    sxW (if p then ~~~0#32 else x) = if p then ~~~0#64 else x.signExtend 64 :=
  apply_ite sxW p _ x

/-! ### Instructions that write one result (R303, R307, R311 to R314) -/

section
variable {s : State} {i : Instr} {d : RegNo}

/-- An instruction of the DIV class that nothing stands before gives its value after leaving the rotation. -/
theorem givesLong_of_aluLong {v : State → Word} {x : Word} (hi : exec i s = s.aluLong (encode i) d v) (hp : s.planned = false) (hv : v s = x)
    (hr : Ready i s) : GivesLong i s d x := by
  rw [← hv, GivesLong, DoneLong, exec_eq_body hi hr, State.finishLong_done hp]

/-- The result of a scalar floating-point instruction, written out: the code in s[d], the flags in FFLAGS, nothing else. -/
theorem Regs.fres_eq (r : Regs) (d : RegNo) (x : FRes) :
    r.fres d x = { r.set d (BitVec.ofNat 64 x.1) with fflags := r.fflags ||| x.2 } := by
  simp only [Regs.fres, Regs.flag, Regs.set]
  split <;> rfl

theorem done_of_fpu {v : State → FRes} {x : FRes} (hi : exec i s = s.fpu (encode i) d v) (hv : v s = x) (hr : Ready i s) :
    Done i s { s.cx.r.set d (BitVec.ofNat 64 x.1) with fflags := s.cx.r.fflags ||| x.2 } := by
  rw [← hv, Done, exec_eq_body hi hr, Regs.fres_eq]

theorem doneLong_of_fpuLong {v : State → FRes} {x : FRes} (hi : exec i s = s.fpuLong (encode i) d v) (hv : v s = x) (hr : Ready i s)
    (hp : s.planned = false) : DoneLong i s { s.cx.r.set d (BitVec.ofNat 64 x.1) with fflags := s.cx.r.fflags ||| x.2 } := by
  rw [← hv, DoneLong, exec_eq_body hi hr, State.finishLong_done hp, Regs.fres_eq]

/-- A well-formed FCVT issues as the other scalar floating-point instructions do. -/
theorem execFcvt_eq_fpu {d a sc : RegNo} {c : BitVec 5} (hw : (Instr.fcvt d a c sc).wf = true) :
    exec (.fcvt d a c sc) s = s.fpu (encode (.fcvt d a c sc)) d
      (fun t => convertCode t.cx.r.rm t.cx.r.sat c.toNat (t.rdN sc) (t.rdN a)) := by
  have hok : okConvert c sc = true := hw
  rw [Laws.exec_fcvt, execFcvt, hok]
  rfl

end

/-- Settles O17: each of the eight is the operation of the DIV class with one of the four division functions, at 64 bits or at 32. -/
theorem divisionResults : Obligations.DivisionResults := by
  intro s d a b hp A B A32 B32 gives
  refine ⟨givesLong_of_aluLong rfl hp (divS_eq A B), givesLong_of_aluLong rfl hp (divU_eq A B), givesLong_of_aluLong rfl hp (remS_eq A B),
    givesLong_of_aluLong rfl hp (remU_eq A B), givesLong_of_aluLong rfl hp ?divw, givesLong_of_aluLong rfl hp ?divuw,
    givesLong_of_aluLong rfl hp ?remw, givesLong_of_aluLong rfl hp ?remuw⟩
  case divw =>
    rw [divS_eq, sxW_ite_ones]
    rfl
  case divuw =>
    rw [divU_eq, sxW_ite_ones]
    rfl
  case remw =>
    rw [remS_eq, apply_ite sxW]
    rfl
  case remuw =>
    rw [remU_eq, apply_ite sxW]
    rfl

/-- Settles O19: all but FDIV and FSQRT complete within the rotation, FCVT once its fields are well-formed. -/
theorem floatingPointResults : Obligations.FloatingPointResults := by
  intro s d a b sc f c A B D F rm sat with_ gives givesLong
  exact ⟨done_of_fpu rfl rfl, done_of_fpu rfl rfl, done_of_fpu rfl rfl, doneLong_of_fpuLong rfl rfl, doneLong_of_fpuLong rfl rfl,
    done_of_fpu rfl rfl, done_of_fpu rfl rfl, done_of_fpu rfl rfl, done_of_fpu rfl rfl, done_of_fpu rfl rfl, done_of_fpu rfl rfl,
    done_of_fpu rfl rfl, done_of_fpu rfl rfl, done_of_fpu rfl rfl, done_of_fpu rfl rfl,
    fun hw => done_of_fpu (execFcvt_eq_fpu hw) rfl⟩

/-! ### An element of C by MMAT (R259) -/

/-- A sum that is wrapped after every addition is, at its width, the exact sum. -/
theorem ofInt_foldl_wrapped {w : Nat} {step : Int × Bool → Nat → Int × Bool} {x : Nat → Int}
    (hstep : ∀ a k, (step a k).1 = (BitVec.ofInt w (a.1 + x k)).toInt) (l : List Nat) (a : Int × Bool) :
    BitVec.ofInt w (l.foldl step a).1 = BitVec.ofInt w (a.1 + (l.map x).sum) := by
  induction l generalizing a with
  | nil => simp
  | cons k l ih => rw [List.foldl_cons, ih, hstep, BitVec.ofInt_add, BitVec.ofInt_toInt, ← BitVec.ofInt_add, List.map_cons, List.sum_cons, Int.add_assoc]

/-- The integer a T2 code stands for (R250). -/
def ternary (c : Nat) : Int := match c with | 1 => 1 | 3 => -1 | _ => 0

/-- The choice the engine makes on a ternary code is the product with it. -/
theorem ternary_mul (c : Nat) (x : Int) : (if c = 1 then x else if c = 3 then -x else 0) = ternary c * x := by
  split_ifs with h1 h3
  · simp [ternary, h1]
  · simp [ternary, h3]
  · simp [ternary]

theorem mmatElem_eq (h : Shape) (op : Operands) (i j : Nat) :
    (mmatElem h op i j).1 = elemOf 32 (sint 32 (operandElem op.c h.n 32 i j)
      + ((List.range h.kv).map (fun k => ternary (operandElem op.a h.k 2 i k) * sint 8 (operandElem op.b h.k 8 j k))).sum) :=
  congrArg BitVec.toNat (ofInt_foldl_wrapped (fun a k => by rw [← ternary_mul]; rfl) _ _)

/-! ### Where operands stand (R367, R368, Table 13.1) -/

/-- Two numbers written with a digit below n are equal only digit by digit. -/
theorem digits_inj {n a b a' b' : Nat} (hb : b < n) (hb' : b' < n) (h : a * n + b = a' * n + b') : a = a' ∧ b = b' := by
  have hn : 0 < n := Nat.zero_lt_of_lt hb
  obtain ⟨hquot, hrem⟩ := (Nat.div_mod_unique hn).mpr ⟨show b + n * a = a * n + b by ring, hb⟩
  obtain ⟨hquot', hrem'⟩ := (Nat.div_mod_unique hn).mpr ⟨show b' + n * a' = a * n + b by rw [h]; ring, hb'⟩
  exact ⟨hquot.symm.trans hquot', hrem.symm.trans hrem'⟩

/-- The position, in elements, of element (r, c) of an operand whose rows of blocks hold nb blocks of 8 rows and W columns. -/
def blockSlot (W nb r c : Nat) : Nat := (r / 8 * nb + c / W) * (8 * W) + (r % 8 * W + c % W)

section
variable {W nb rows r c r' c' : Nat} (hW : 0 < W)
include hW

theorem inBlock_lt (r c : Nat) : r % 8 * W + c % W < 8 * W := by
  have hc : c % W < W := Nat.mod_lt _ hW
  calc r % 8 * W + c % W < (r % 8 + 1) * W := by rw [Nat.succ_mul]; omega
    _ ≤ 8 * W := Nat.mul_le_mul_right W (Nat.mod_lt _ (by omega))

/-- An element stands inside the blocks of its operand. -/
theorem blockSlot_lt (hrows : rows % 8 = 0) (hr : r < rows) (hc : c / W < nb) : blockSlot W nb r c < rows * (nb * W) := by
  have hblock : r / 8 * nb + c / W + 1 ≤ rows / 8 * nb :=
    calc r / 8 * nb + c / W + 1 ≤ (r / 8 + 1) * nb := by rw [Nat.succ_mul]; omega
      _ ≤ rows / 8 * nb := Nat.mul_le_mul_right nb (by omega)
  calc blockSlot W nb r c < (r / 8 * nb + c / W) * (8 * W) + 8 * W := Nat.add_lt_add_left (inBlock_lt hW r c) _
    _ = (r / 8 * nb + c / W + 1) * (8 * W) := (Nat.succ_mul ..).symm
    _ ≤ rows / 8 * nb * (8 * W) := Nat.mul_le_mul_right _ hblock
    _ = rows / 8 * 8 * (nb * W) := by ring
    _ = rows * (nb * W) := by rw [Nat.div_mul_cancel (Nat.dvd_of_mod_eq_zero hrows)]

/-- Two elements of an operand do not share a position: the block's row and column and the place in it are the position's digits. -/
theorem blockSlot_inj (hc : c / W < nb) (hc' : c' / W < nb) (h : blockSlot W nb r c = blockSlot W nb r' c') : r = r' ∧ c = c' := by
  obtain ⟨hblock, hin⟩ := digits_inj (inBlock_lt hW r c) (inBlock_lt hW r' c') h
  obtain ⟨hrdiv, hcdiv⟩ := digits_inj hc hc' hblock
  obtain ⟨hrmod, hcmod⟩ := digits_inj (Nat.mod_lt _ hW) (Nat.mod_lt _ hW) hin
  exact ⟨by omega, by rw [← Nat.div_add_mod c W, hcdiv, hcmod, Nat.div_add_mod]⟩

end

/-- Blocks in one row of blocks of an operand of q columns of w bits. -/
def blocksAcross (q w : Nat) : Nat := (q + (blockGeom w).1 - 1) / (blockGeom w).1

theorem blockGeom_pos (w : Nat) : 0 < (blockGeom w).1 := by
  unfold blockGeom
  split <;> decide

/-- A block of an element width of Table 13.1 is exactly 8 rows of its width in columns. -/
theorem blockGeom_bits {w : Nat} (hw : w ∈ [2, 4, 8, 16, 32]) : (blockGeom w).2 * 8 = 8 * (blockGeom w).1 * w := by
  revert w
  decide

theorem col_div_lt_blocksAcross {q c : Nat} (w : Nat) (hc : c < q) : c / (blockGeom w).1 < blocksAcross q w := by
  have hW := blockGeom_pos w
  calc c / (blockGeom w).1 < (c + (blockGeom w).1) / (blockGeom w).1 := by rw [Nat.add_div_right _ hW]; omega
    _ ≤ blocksAcross q w := Nat.div_le_div_right (by omega)

theorem operandBit_eq {w : Nat} (hw : w ∈ [2, 4, 8, 16, 32]) (q r c : Nat) :
    operandBit q w r c = blockSlot (blockGeom w).1 (blocksAcross q w) r c * w := by
  have hnb : roundUp q (blockGeom w).1 / (blockGeom w).1 = blocksAcross q w := Nat.mul_div_cancel _ (blockGeom_pos w)
  simp only [operandBit, blockSlot, hnb, blockGeom_bits hw]
  ring

theorem operandSize_bits {rows : Nat} (hrows : rows % 8 = 0) (q w : Nat) :
    8 * operandSize rows q w = rows * (blocksAcross q w * (blockGeom w).1) * w :=
  Nat.mul_div_cancel' (Nat.dvd_mul_right_of_dvd (Nat.dvd_mul_right_of_dvd (Nat.dvd_of_mod_eq_zero hrows) _) _)

theorem operandBit_inside {w q rows r c : Nat} (hw : w ∈ [2, 4, 8, 16, 32]) (hrows : rows % 8 = 0) (hr : r < rows) (hc : c < q) :
    operandBit q w r c + w ≤ 8 * operandSize rows q w := by
  have hslot := blockSlot_lt (blockGeom_pos w) hrows hr (col_div_lt_blocksAcross w hc)
  rw [operandBit_eq hw, operandSize_bits hrows, ← Nat.succ_mul]
  exact Nat.mul_le_mul_right w hslot

/-- Two elements whose bits overlap are one element. -/
theorem operandBit_apart {w q r c r' c' : Nat} (hw : w ∈ [2, 4, 8, 16, 32]) (hc : c < q) (hc' : c' < q)
    (h : operandBit q w r c < operandBit q w r' c' + w) (h' : operandBit q w r' c' < operandBit q w r c + w) : r = r' ∧ c = c' := by
  rw [operandBit_eq hw, operandBit_eq hw, ← Nat.succ_mul] at h h'
  have hle := Nat.le_of_lt_succ (Nat.lt_of_mul_lt_mul_right h)
  have hge := Nat.le_of_lt_succ (Nat.lt_of_mul_lt_mul_right h')
  exact blockSlot_inj (blockGeom_pos w) (col_div_lt_blocksAcross w hc) (col_div_lt_blocksAcross w hc') (Nat.le_antisymm hle hge)

/-! ### An element of C by MMA and MMAS (R256, R257) -/

/-- A fold over 0, 1, 2 and so on that starts from the first of a sequence and goes on as it does comes to its n-th. -/
theorem foldl_range_eq {σ : Type} {f : σ → Nat → σ} {acc : Nat → σ} (hstep : ∀ q, acc (q + 1) = f (acc q) q) (n : Nat) :
    (List.range n).foldl f (acc 0) = acc n := by
  induction n with
  | zero => rfl
  | succ n ih => rw [List.range_succ, List.foldl_concat, ih, hstep]

section
variable (h : Shape) (g : Nat) (scaled : Bool) (op : Operands) (i j : Nat)

/-- The scale codes of group q of row i of A and of row j of B (R369). -/
def scaleCodes (q : Nat) : Nat × Nat :=
  ((op.scales.getD (i * (h.k / 16) + q) 0#8).toNat, (op.scales.getD (h.m * (h.k / 16) + j * (h.k / 16) + q) 0#8).toNat)

/-- The product of the two scales of group q, and 1 where the combination has none. -/
def groupScale (q : Nat) : Nat × Int :=
  let s := scaleCodes h op i j q
  if scaled then ((s8val s.1).1 * (s8val s.2).1, (s8val s.1).2 + (s8val s.2).2) else (1, 0)

/-- The exact product at position k. -/
def matProduct (k : Nat) : Option Fv :=
  mulExact (matElem h.fa (operandElem op.a h.k (typeBits h.fa) i k)) (matElem h.fb (operandElem op.b h.k (typeBits h.fb) j k))

/-- The sum so far before group q: the former element in FP32, and each group's result added with one rounding (R256, R257). -/
def mmaAcc : Nat → Nat
  | 0 =>
    let former := operandElem op.c h.n (outBits h.out) i j
    if h.out = 1 then (bf16.convert fp32 .rne false former).1 else former
  | q + 1 =>
    let s := scaleCodes h op i j q
    if scaled = true ∧ (s.1 = 0 ∨ s.2 = 0) then mmaAcc q
    else (fp32.add .rne false (mmaAcc q) (groupRes ((List.range (min g (h.kv - q * g))).map (fun t => matProduct h op i j (q * g + t)))
      (groupScale h scaled op i j q))).1

/-- MMA and MMAS give the sum after the last group, rounded once to BF16 where C is BF16. -/
theorem mmaElem_eq : mmaElem h g scaled op i j =
    if h.out = 1 then (fp32.convert bf16 .rne false (mmaAcc h g scaled op i j ((h.kv + g - 1) / g))).1
    else mmaAcc h g scaled op i j ((h.kv + g - 1) / g) := by
  refine congrArg (fun x => if h.out = 1 then (fp32.convert bf16 .rne false x).1 else x)
    (foldl_range_eq (acc := mmaAcc h g scaled op i j) (fun q => ?step) _)
  case step => simp [mmaAcc, scaleCodes, groupScale, matProduct, Function.comp_def]

end

/-- Settles O52: MMAT's fold is the exact sum wrapped, positions are digits, and MMA's accumulator before group q is `mmaAcc`. -/
theorem matrixArithmetic : Obligations.MatrixArithmetic :=
  ⟨mmatElem_eq, fun _ _ _ _ _ _ _ hw hrows hr hc _ hc' => ⟨operandBit_inside hw hrows hr hc, operandBit_apart hw hc hc'⟩,
    fun h g scaled op i j _ => ⟨mmaAcc h g scaled op i j, rfl, fun _ => rfl, mmaElem_eq h g scaled op i j⟩⟩

end Sys2Proof.Machine

/-!
# Words and instructions: encode, then decode

The word of each instruction decodes to it (`Laws.Trip`), one lemma for each row of the table; a happening has no word.
-/

namespace Sys2Proof.Laws

/-- Every instruction and every happening: a well-formed one that has a word is what its word decodes to (R272, R279). -/
theorem decodeWord_encode (i : Instr) : Trip.Statement i := by
  cases i with
  | add => apply Trip.add | sub => apply Trip.sub | and => apply Trip.and | or => apply Trip.or | xor => apply Trip.xor
  | andn => apply Trip.andn | sll => apply Trip.sll | srl => apply Trip.srl | sra => apply Trip.sra | rol => apply Trip.rol
  | ror => apply Trip.ror | slt => apply Trip.slt | sltu => apply Trip.sltu | min => apply Trip.min | max => apply Trip.max
  | minu => apply Trip.minu | maxu => apply Trip.maxu | clz => apply Trip.clz | ctz => apply Trip.ctz | popc => apply Trip.popc
  | sextb => apply Trip.sextb | sexth => apply Trip.sexth | sextw => apply Trip.sextw | zextw => apply Trip.zextw
  | addw => apply Trip.addw | subw => apply Trip.subw | sllw => apply Trip.sllw | srlw => apply Trip.srlw | sraw => apply Trip.sraw
  | mulw => apply Trip.mulw | mul => apply Trip.mul | mulh => apply Trip.mulh | mulhu => apply Trip.mulhu | mulhsu => apply Trip.mulhsu
  | div => apply Trip.div | divu => apply Trip.divu | rem => apply Trip.rem | remu => apply Trip.remu | divw => apply Trip.divw
  | divuw => apply Trip.divuw | remw => apply Trip.remw | remuw => apply Trip.remuw | addi => apply Trip.addi | andi => apply Trip.andi
  | ori => apply Trip.ori | xori => apply Trip.xori | slti => apply Trip.slti | sltiu => apply Trip.sltiu | slli => apply Trip.slli
  | srli => apply Trip.srli | srai => apply Trip.srai | rori => apply Trip.rori | movi => apply Trip.movi | addpc => apply Trip.addpc
  | addiw => apply Trip.addiw | fadd => apply Trip.fadd | fsub => apply Trip.fsub | fmul => apply Trip.fmul | fdiv => apply Trip.fdiv
  | fsqrt => apply Trip.fsqrt | fmin => apply Trip.fmin | fmax => apply Trip.fmax | feq => apply Trip.feq | flt => apply Trip.flt
  | fle => apply Trip.fle | fclass => apply Trip.fclass | fabs => apply Trip.fabs | fneg => apply Trip.fneg | fcvt => apply Trip.fcvt
  | fmac => apply Trip.fmac | fmsac => apply Trip.fmsac | loop => apply Trip.loop | beq => apply Trip.beq | bne => apply Trip.bne
  | blt => apply Trip.blt | bge => apply Trip.bge | bltu => apply Trip.bltu | bgeu => apply Trip.bgeu | jal => apply Trip.jal
  | jalr => apply Trip.jalr | ldb => apply Trip.ldb | ldbu => apply Trip.ldbu | ldh => apply Trip.ldh | ldhu => apply Trip.ldhu
  | ldw => apply Trip.ldw | ldwu => apply Trip.ldwu | ldd => apply Trip.ldd | stb => apply Trip.stb | sth => apply Trip.sth
  | stw => apply Trip.stw | std => apply Trip.std | ldro => apply Trip.ldro | ldf => apply Trip.ldf | stf => apply Trip.stf
  | fence => apply Trip.fence | roinv => apply Trip.roinv | mwarm => apply Trip.mwarm | mwait => apply Trip.mwait
  | feset => apply Trip.feset | feclr => apply Trip.feclr | fest => apply Trip.fest | cflush => apply Trip.cflush
  | cinv => apply Trip.cinv | pref => apply Trip.pref | aadd => apply Trip.aadd | aand => apply Trip.aand | aor => apply Trip.aor
  | axor => apply Trip.axor | amin => apply Trip.amin | amax => apply Trip.amax | aminu => apply Trip.aminu | amaxu => apply Trip.amaxu
  | aswap => apply Trip.aswap | acas => apply Trip.acas | afadd => apply Trip.afadd | afmaxabs => apply Trip.afmaxabs
  | amaxrst => apply Trip.amaxrst | ship => apply Trip.ship | trap => apply Trip.trap | eret => apply Trip.eret | srrd => apply Trip.srrd
  | srwr => apply Trip.srwr | srset => apply Trip.srset | srclr => apply Trip.srclr | halt => apply Trip.halt | bkpt => apply Trip.bkpt
  | ifence => apply Trip.ifence | tlbinv => apply Trip.tlbinv | ctxres => apply Trip.ctxres | wfe => apply Trip.wfe
  | vsetl => apply Trip.vsetl | vsetli => apply Trip.vsetli | vld => apply Trip.vld | vlds => apply Trip.vlds | vldx => apply Trip.vldx
  | vldff => apply Trip.vldff | vst => apply Trip.vst | vsts => apply Trip.vsts | vstx => apply Trip.vstx | vaddVv => apply Trip.vaddVv
  | vaddVx => apply Trip.vaddVx | vsubVv => apply Trip.vsubVv | vsubVx => apply Trip.vsubVx | vrsubVv => apply Trip.vrsubVv
  | vrsubVx => apply Trip.vrsubVx | vmulVv => apply Trip.vmulVv | vmulVx => apply Trip.vmulVx | vmulhVv => apply Trip.vmulhVv
  | vmulhVx => apply Trip.vmulhVx | vmaccVv => apply Trip.vmaccVv | vmaccVx => apply Trip.vmaccVx | vnmsacVv => apply Trip.vnmsacVv
  | vnmsacVx => apply Trip.vnmsacVx | vandVv => apply Trip.vandVv | vandVx => apply Trip.vandVx | vorVv => apply Trip.vorVv
  | vorVx => apply Trip.vorVx | vxorVv => apply Trip.vxorVv | vxorVx => apply Trip.vxorVx | vsllVv => apply Trip.vsllVv
  | vsllVx => apply Trip.vsllVx | vsrlVv => apply Trip.vsrlVv | vsrlVx => apply Trip.vsrlVx | vsraVv => apply Trip.vsraVv
  | vsraVx => apply Trip.vsraVx | vminVv => apply Trip.vminVv | vminVx => apply Trip.vminVx | vmaxVv => apply Trip.vmaxVv
  | vmaxVx => apply Trip.vmaxVx | vminuVv => apply Trip.vminuVv | vminuVx => apply Trip.vminuVx | vmaxuVv => apply Trip.vmaxuVv
  | vmaxuVx => apply Trip.vmaxuVx | vseqVv => apply Trip.vseqVv | vseqVx => apply Trip.vseqVx | vsneVv => apply Trip.vsneVv
  | vsneVx => apply Trip.vsneVx | vsltVv => apply Trip.vsltVv | vsltVx => apply Trip.vsltVx | vsltuVv => apply Trip.vsltuVv
  | vsltuVx => apply Trip.vsltuVx | vsleVv => apply Trip.vsleVv | vsleVx => apply Trip.vsleVx | vmergeVv => apply Trip.vmergeVv
  | vmergeVx => apply Trip.vmergeVx | vmvVv => apply Trip.vmvVv | vmvVx => apply Trip.vmvVx | vsaddVv => apply Trip.vsaddVv
  | vsaddVx => apply Trip.vsaddVx | vssubVv => apply Trip.vssubVv | vssubVx => apply Trip.vssubVx | vnclipVv => apply Trip.vnclipVv
  | vnclipVx => apply Trip.vnclipVx | vwaddVv => apply Trip.vwaddVv | vwaddVx => apply Trip.vwaddVx | vwmulVv => apply Trip.vwmulVv
  | vwmulVx => apply Trip.vwmulVx | vext => apply Trip.vext | vfaddVv => apply Trip.vfaddVv | vfaddVx => apply Trip.vfaddVx
  | vfsubVv => apply Trip.vfsubVv | vfsubVx => apply Trip.vfsubVx | vfmulVv => apply Trip.vfmulVv | vfmulVx => apply Trip.vfmulVx
  | vfdivVv => apply Trip.vfdivVv | vfdivVx => apply Trip.vfdivVx | vfsqrt => apply Trip.vfsqrt | vfminVv => apply Trip.vfminVv
  | vfminVx => apply Trip.vfminVx | vfmaxVv => apply Trip.vfmaxVv | vfmaxVx => apply Trip.vfmaxVx | vfmaccVv => apply Trip.vfmaccVv
  | vfmaccVx => apply Trip.vfmaccVx | vfnmsacVv => apply Trip.vfnmsacVv | vfnmsacVx => apply Trip.vfnmsacVx | vfeqVv => apply Trip.vfeqVv
  | vfeqVx => apply Trip.vfeqVx | vfltVv => apply Trip.vfltVv | vfltVx => apply Trip.vfltVx | vfleVv => apply Trip.vfleVv
  | vfleVx => apply Trip.vfleVx | vfabs => apply Trip.vfabs | vfneg => apply Trip.vfneg | vfsgnjVv => apply Trip.vfsgnjVv
  | vfsgnjVx => apply Trip.vfsgnjVx | vredsum => apply Trip.vredsum | vredmax => apply Trip.vredmax | vredmin => apply Trip.vredmin
  | vredand => apply Trip.vredand | vredor => apply Trip.vredor | vredxor => apply Trip.vredxor | vfredosum => apply Trip.vfredosum
  | vfredtsum => apply Trip.vfredtsum | vfredmax => apply Trip.vfredmax | vfredmin => apply Trip.vfredmin | vfamax => apply Trip.vfamax
  | vslideup => apply Trip.vslideup | vslidedn => apply Trip.vslidedn | vslide1up => apply Trip.vslide1up
  | vslide1dn => apply Trip.vslide1dn | vgath => apply Trip.vgath | vcompress => apply Trip.vcompress | viota => apply Trip.viota
  | vid => apply Trip.vid | vmvxs => apply Trip.vmvxs | vmvsx => apply Trip.vmvsx | vmand => apply Trip.vmand | vmor => apply Trip.vmor
  | vmxor => apply Trip.vmxor | vmandn => apply Trip.vmandn | vmnot => apply Trip.vmnot | vpopc => apply Trip.vpopc
  | vfirst => apply Trip.vfirst | vmsbf => apply Trip.vmsbf | vcvt => apply Trip.vcvt | mshape => apply Trip.mshape
  | mma => apply Trip.mma | mmas => apply Trip.mmas | mmat => apply Trip.mmat | mzero => apply Trip.mzero | mstat => apply Trip.mstat
  | spawn => apply Trip.spawn | spawnc => apply Trip.spawnc | twait => apply Trip.twait | texit => apply Trip.texit
  | yield => apply Trip.yield | cntinit => apply Trip.cntinit | cntdec => apply Trip.cntdec | cntwait => apply Trip.cntwait
  | launchd => apply Trip.launchd | tself => apply Trip.tself | dbegin => apply Trip.dbegin | dpresSnap => apply Trip.dpresSnap
  | dpresHold => apply Trip.dpresHold | dend => apply Trip.dend | dchk => apply Trip.dchk | dabort => apply Trip.dabort
  | dlevel => apply Trip.dlevel | lend => apply Trip.lend | unlend => apply Trip.unlend | hstat => apply Trip.hstat
  | qpost => apply Trip.qpost | qwait => apply Trip.qwait | qstart => apply Trip.qstart | qstat => apply Trip.qstat
  | qresync => apply Trip.qresync | immx => apply Trip.immx | hcache => apply Trip.hcache | hsched => apply Trip.hsched
  | hmod => apply Trip.hmod | hnop => apply Trip.hnop
  | _ => exact fun _ h => Bool.noConfusion (show false = true from h)

/-- Settles O4: `decodeWord_encode` at the table's numbering of bits. -/
theorem encodedWordsDecode : Obligations.EncodedWordsDecode := by
  intro i hwf hword
  have hdec : decodeWord (encode i) = .ok i := decodeWord_encode i hwf hword
  rw [decodeTableWord, if_pos ⟨le_rfl, (encode i).isLt⟩, BitVec.ofNat_toNat, BitVec.setWidth_eq, hdec]

end Sys2Proof.Laws

/-!
# Words and instructions: decode, then encode

The fields of a word, joined from its top bit down, are the word.  So an instruction that a major opcode's decoder gives encodes back to the
word: the operands stand where the decoder read them, and the constant bits are those it checked.
-/

namespace Sys2Proof.Laws

section
variable {w : IWord}

/-! ### Joining the fields of a word (R272) -/

/-- The bits x stand in the word from bit lo up. -/
def At (w : IWord) (lo : Nat) {n : Nat} (x : BitVec n) : Prop := fld w lo n = x

theorem At.of_toNat {lo n k : Nat} (h : (fld w lo n).toNat = k) : At w lo (BitVec.ofNat n k) := by
  rw [At, ← h, BitVec.ofNat_toNat, BitVec.setWidth_eq]

/-- Bits that stand right below others go on with them. -/
theorem At.const {hi lo n m : Nat} {x : BitVec n} {y : BitVec m} (hx : At w hi x) (hy : At w lo y) (h : hi = lo + m) :
    At w lo (x ++ y) := by
  subst hx hy
  exact (BitVec.extractLsb'_append_extractLsb'_eq_extractLsb' h).symm

/-- The field right below goes on with the bits. -/
theorem At.field {n : Nat} {x : BitVec n} (lo m : Nat) (hx : At w (lo + m) x) : At w lo (x ++ fld w lo m) :=
  hx.const rfl rfl

theorem At.whole {x : IWord} (h : At w 0 x) : x = w := by
  rw [← h, fld, BitVec.extractLsb'_eq_self]

section
variable {m : BitVec 7} (hm : At w 25 m)
include hm

/-- A major opcode and two register fields. -/
theorem At.rr : At w 15 (m ++ fld w 20 5 ++ fld w 15 5) := hm.field 20 5 |>.field 15 5

/-- A major opcode and three register fields. -/
theorem At.rrr : At w 10 (m ++ fld w 20 5 ++ fld w 15 5 ++ fld w 10 5) := hm.rr.field 10 5

/-- A major opcode, three register fields and the mask bit. -/
theorem At.rrrm : At w 9 (m ++ fld w 20 5 ++ fld w 15 5 ++ fld w 10 5 ++ fld w 9 1) := hm.rrr.field 9 1

end

/-! ### What a decoder gives -/

/-- What the decoding gives, if anything, is an instruction with a word, and its word is this one. -/
def Back (w : IWord) (r : Except Reject Instr) : Prop := ∀ i, r = .ok i → encode i = w ∧ i.isWord = (encode i != 0#32)

section
variable {i : Instr}

theorem Back.ok (hi : i.isWord = (encode i != 0#32)) (h : encode i = w) : Back w (.ok i) := by
  rintro _ ⟨⟩
  exact ⟨h, hi⟩

theorem Back.error {e : Reject} : Back w (.error e) := by
  rintro _ ⟨⟩

theorem Back.must_of {c : Bool} (h : c = true → Back w (.ok i)) : Back w (must c i) := by
  cases c with
  | false => exact .error
  | true => exact h rfl

/-- The last field that must have a value has it. -/
theorem Back.must {lo n : Nat} {x : BitVec n} (hi : i.isWord = (encode i != 0#32)) (h : At w lo x → encode i = w) :
    Back w (must (fld w lo n == x) i) :=
  .must_of fun hc => .ok hi (h (beq_iff_eq.mp hc))

/-- One of several fields that must have a value has it. -/
theorem Back.must_and {c : Bool} {lo n : Nat} {x : BitVec n} (h : At w lo x → Back w (Sys2Proof.must c i)) :
    Back w (Sys2Proof.must (c && fld w lo n == x) i) :=
  .must_of fun hc => by
    obtain ⟨hothers, hx⟩ := Bool.and_eq_true_iff.mp hc
    rw [hothers] at h
    exact h (beq_iff_eq.mp hx)

/-- A hint's payload is checked as other fields are. -/
theorem Back.hint {c : Bool} (h : Back w (Sys2Proof.must c i)) : Back w (mustHint c i) := by
  cases c with
  | false => exact .error
  | true => exact h

end

/-! ### Integer and scalar floating-point majors (R303, R311) -/

theorem decode00_back (hm : At w 25 0x00#7) : Back w (decode00 w) := by
  unfold decode00
  split
  iterate 17 next h => exact .ok rfl (hm.rrr.const (.of_toNat h) rfl).whole
  iterate 7 next h => exact .must rfl fun hb => (hm.rr.const (hb.const (.of_toNat h) rfl) rfl).whole
  exact .error

theorem decode01_back (hm : At w 25 0x01#7) : Back w (decode01 w) := by
  unfold decode01
  split
  iterate 6 next h => exact .ok rfl (hm.rrr.const (.of_toNat h) rfl).whole
  exact .error

theorem decode02_back (hm : At w 25 0x02#7) : Back w (decode02 w) := by
  unfold decode02
  split
  iterate 12 next h => exact .ok rfl (hm.rrr.const (.of_toNat h) rfl).whole
  exact .error

theorem decode0A_back (hm : At w 25 0x0A#7) : Back w (decode0A w) := by
  unfold decode0A
  split
  iterate 4 next h =>
    exact .must_and fun h6 => .must_and fun h9 => .must rfl fun h10 =>
      (hm.rr.const (At.of_toNat h |>.const h10 rfl |>.const h9 rfl |>.const h6 rfl) rfl |>.field 0 6).whole
  exact .error

theorem decode10_back (hm : At w 25 0x10#7) : Back w (decode10 w) := by
  unfold decode10
  split
  · next h =>
    exact .must_and fun h0 => .must rfl fun h8 => (hm.rrr.const (At.const (beq_iff_eq.mp h) h8 rfl) rfl |>.field 3 5 |>.const h0 rfl).whole
  · next h =>
    have h9 : At w 9 0#1 := (BitVec.eq_zero_or_eq_one _).resolve_right fun h1 => h (beq_iff_eq.mpr h1)
    split
    case h_5 | h_11 | h_12 | h_13 =>
      next h => exact .must rfl fun hb => (hm.rr.const (hb.const h9 rfl) rfl |>.field 8 1 |>.const (.of_toNat h) rfl).whole
    case h_14 => exact .error
    all_goals next h => exact .ok rfl (hm.rrr.const h9 rfl |>.field 8 1 |>.const (.of_toNat h) rfl).whole

/-! ### Memory majors (R318 to R326) -/

theorem decode2E_back (hm : At w 25 0x2E#7) : Back w (decode2E w) := by
  unfold decode2E
  split
  case h_1 h =>
    exact .must_and fun h13 => .must_and fun ha => .must rfl fun hd =>
      (hm.const hd rfl |>.const ha rfl |>.const h13 rfl |>.field 10 3 |>.const (.of_toNat h) rfl).whole
  case h_2 | h_8 | h_9 =>
    next h => exact .must rfl fun hd => (hm.const hd rfl |>.field 15 5 |>.field 10 5 |>.const (.of_toNat h) rfl).whole
  case h_3 | h_5 | h_6 | h_10 =>
    next h => exact .must_and fun hb => .must rfl fun hd => (hm.const hd rfl |>.field 15 5 |>.const (hb.const (.of_toNat h) rfl) rfl).whole
  case h_4 | h_7 => next h => exact .must rfl fun hb => (hm.rr.const (hb.const (.of_toNat h) rfl) rfl).whole
  case h_11 => exact .error

theorem decode2F_back (hm : At w 25 0x2F#7) : Back w (decode2F w) := by
  unfold decode2F
  split
  iterate 10 next h => exact .ok rfl (hm.rrr.field 8 2 |>.field 7 1 |>.const (.of_toNat h) rfl).whole
  iterate 2 next h => exact .must rfl fun h7 => (hm.rrr.field 8 2 |>.const (h7.const (.of_toNat h) rfl) rfl).whole
  · next h =>
    exact .must_and fun h7 => .must rfl fun hb => (hm.rr.const hb rfl |>.field 8 2 |>.const (h7.const (.of_toNat h) rfl) rfl).whole
  · exact .error

/-! ### Vector majors (R351 to R362) -/

theorem decode41_back (hm : At w 25 0x41#7) : Back w (decode41 w) := by
  unfold decode41
  split
  case h_5 | h_25 | h_26 | h_27 | h_28 | h_29 =>
    next h => exact .must rfl fun h6 => (hm.rrrm.const h6 rfl |>.field 5 1 |>.const (.of_toNat h) rfl).whole
  case h_23 h => exact .must_and fun h5 => .must rfl fun h9 => (hm.rrr.const (h9.const h5 rfl |>.const (.of_toNat h) rfl) rfl).whole
  case h_24 h =>
    exact .must_and fun h5 => .must rfl fun hb =>
      (hm.rr.const hb rfl |>.field 9 1 |>.const (h5.const (.of_toNat h) rfl) rfl).whole
  case h_30 h =>
    exact .must_and fun h8 => .must rfl fun hb =>
      (hm.rr.const hb rfl |>.field 9 1 |>.const h8 rfl |>.field 6 2 |>.field 5 1 |>.const (.of_toNat h) rfl).whole
  case h_31 => exact .error
  all_goals next h => exact .must rfl fun h5 => (hm.rrrm.const (h5.const (.of_toNat h) rfl) rfl).whole

theorem decode42_back (hm : At w 25 0x42#7) : Back w (decode42 w) := by
  unfold decode42
  split
  case h_5 | h_25 | h_26 | h_27 | h_28 | h_29 =>
    next h => exact .must rfl fun h6 => (hm.rrrm.const h6 rfl |>.field 5 1 |>.const (.of_toNat h) rfl).whole
  case h_23 h => exact .must_and fun h5 => .must rfl fun h9 => (hm.rrr.const (h9.const h5 rfl |>.const (.of_toNat h) rfl) rfl).whole
  case h_24 h =>
    exact .must_and fun h5 => .must rfl fun ha =>
      (hm.field 20 5 |>.const ha rfl |>.field 10 5 |>.field 9 1 |>.const (h5.const (.of_toNat h) rfl) rfl).whole
  case h_30 => exact .error
  all_goals next h => exact .must rfl fun h5 => (hm.rrrm.const (h5.const (.of_toNat h) rfl) rfl).whole

theorem decode43_back (hm : At w 25 0x43#7) : Back w (decode43 w) := by
  unfold decode43
  split
  case h_5 | h_13 | h_14 => next h => exact .must rfl fun hb => (hm.rr.const hb rfl |>.field 9 1 |>.const (.of_toNat h) rfl).whole
  case h_16 => exact .error
  all_goals next h => exact .ok rfl (hm.rrrm.const (.of_toNat h) rfl).whole

theorem decode44_back (hm : At w 25 0x44#7) : Back w (decode44 w) := by
  unfold decode44
  split
  iterate 12 next h => exact .ok rfl (hm.rrrm.const (.of_toNat h) rfl).whole
  exact .error

theorem decode45_back (hm : At w 25 0x45#7) : Back w (decode45 w) := by
  unfold decode45
  split
  case h_2 | h_3 => next h => exact .must rfl fun h6 => (hm.rrrm.const h6 rfl |>.field 5 1 |>.const (.of_toNat h) rfl).whole
  case h_12 => exact .error
  all_goals next h => exact .must rfl fun h5 => (hm.rrrm.const (h5.const (.of_toNat h) rfl) rfl).whole

theorem decode46_back (hm : At w 25 0x46#7) : Back w (decode46 w) := by
  unfold decode46
  split
  case h_6 h => exact .must rfl fun h9 => (hm.rrr.const (h9.const (.of_toNat h) rfl) rfl).whole
  case h_7 h => exact .must rfl fun hb => (hm.rr.const hb rfl |>.field 9 1 |>.const (.of_toNat h) rfl).whole
  case h_8 h =>
    exact .must_and fun hb => .must rfl fun ha =>
      (hm.field 20 5 |>.const (ha.const hb rfl) rfl |>.field 9 1 |>.const (.of_toNat h) rfl).whole
  case h_9 h => exact .must_and fun h9 => .must rfl fun hb => (hm.rr.const (hb.const h9 rfl |>.const (.of_toNat h) rfl) rfl).whole
  case h_10 h =>
    exact .must_and fun h9 => .must rfl fun ha =>
      (hm.field 20 5 |>.const ha rfl |>.field 10 5 |>.const (h9.const (.of_toNat h) rfl) rfl).whole
  case h_11 => exact .error
  all_goals next h => exact .ok rfl (hm.rrrm.const (.of_toNat h) rfl).whole

theorem decode47_back (hm : At w 25 0x47#7) : Back w (decode47 w) := by
  unfold decode47
  split
  iterate 4 next h => exact .must rfl fun h9 => (hm.rrr.const (h9.const (.of_toNat h) rfl) rfl).whole
  · next h => exact .must_and fun h9 => .must rfl fun hb => (hm.rr.const (hb.const h9 rfl |>.const (.of_toNat h) rfl) rfl).whole
  iterate 3 next h => exact .must rfl fun hb => (hm.rr.const hb rfl |>.field 9 1 |>.const (.of_toNat h) rfl).whole
  exact .error

/-! ### Task, domain, lending, weir and system majors (R329 to R334, R395 to R422) -/

theorem decode60_back (hm : At w 25 0x60#7) : Back w (decode60 w) := by
  unfold decode60
  split
  case h_1 | h_2 | h_6 => next h => exact .ok rfl (hm.rrr.const (.of_toNat h) rfl).whole
  case h_3 | h_4 | h_5 =>
    next h =>
      exact .must_and fun hb => .must_and fun ha => .must rfl fun hd =>
        (hm.const hd rfl |>.const ha rfl |>.const hb rfl |>.const (.of_toNat h) rfl).whole
  case h_7 h => exact .must rfl fun hd => (hm.const hd rfl |>.field 15 5 |>.field 10 5 |>.const (.of_toNat h) rfl).whole
  case h_8 h =>
    exact .must_and fun hb => .must rfl fun hd =>
      (hm.const hd rfl |>.field 15 5 |>.const (hb.const (.of_toNat h) rfl) rfl).whole
  case h_9 h => exact .must rfl fun hb => (hm.rr.const (hb.const (.of_toNat h) rfl) rfl).whole
  case h_10 h => exact .must rfl fun ha => (hm.field 20 5 |>.const ha rfl |>.field 10 5 |>.const (.of_toNat h) rfl).whole
  case h_11 => exact .error

theorem decode64_back (hm : At w 25 0x64#7) : Back w (decode64 w) := by
  unfold decode64
  split
  case h_1 h => exact .must rfl fun hb => (hm.rr.const (hb.const (.of_toNat h) rfl) rfl).whole
  case h_2 | h_3 | h_5 =>
    next h => exact .must rfl fun hd => (hm.const hd rfl |>.field 15 5 |>.field 10 5 |>.const (.of_toNat h) rfl).whole
  case h_4 h =>
    exact .must_and fun hb => .must_and fun ha => .must rfl fun hd =>
      (hm.const hd rfl |>.const ha rfl |>.const hb rfl |>.const (.of_toNat h) rfl).whole
  case h_6 h =>
    exact .must_and fun hb => .must rfl fun hd =>
      (hm.const hd rfl |>.field 15 5 |>.const (hb.const (.of_toNat h) rfl) rfl).whole
  case h_7 h => exact .must rfl fun ha => (hm.field 20 5 |>.const ha rfl |>.field 10 5 |>.const (.of_toNat h) rfl).whole
  case h_8 => exact .error

theorem decode66_back (hm : At w 25 0x66#7) : Back w (decode66 w) := by
  unfold decode66
  split
  iterate 2 next h => exact .must rfl fun hd => (hm.const hd rfl |>.field 15 5 |>.field 10 5 |>.const (.of_toNat h) rfl).whole
  · next h => exact .must rfl fun ha => (hm.field 20 5 |>.const ha rfl |>.field 10 5 |>.const (.of_toNat h) rfl).whole
  · exact .error

theorem decode68_back (hm : At w 25 0x68#7) : Back w (decode68 w) := by
  unfold decode68
  split
  · next h => exact .must rfl fun hb => (hm.rr.const (hb.const (.of_toNat h) rfl) rfl).whole
  iterate 4 next h => exact .ok rfl (hm.rrr.const (.of_toNat h) rfl).whole
  exact .error

theorem decode70_back (hm : At w 25 0x70#7) : Back w (decode70 w) := by
  unfold decode70
  split
  case h_1 h =>
    exact .must_and fun h8 => .must_and fun h9 => .must_and fun hb => .must rfl fun hd =>
      (hm.const hd rfl |>.field 15 5 |>.const (hb.const h9 rfl |>.const h8 rfl |>.const (.of_toNat h) rfl) rfl).whole
  case h_2 | h_7 | h_8 | h_9 | h_12 =>
    next h =>
      exact .must_and fun h8 => .must_and fun h9 => .must_and fun hb => .must_and fun ha => .must rfl fun hd =>
        (hm.const hd rfl |>.const ha rfl |>.const hb rfl |>.const h9 rfl |>.const h8 rfl |>.const (.of_toNat h) rfl).whole
  case h_3 | h_4 | h_5 | h_6 => next h => exact .ok rfl (hm.field 20 5 |>.field 8 12 |>.const (.of_toNat h) rfl).whole
  case h_10 h =>
    exact .must_and fun h8 => .must_and fun h9 => .must rfl fun hd =>
      (hm.const hd rfl |>.field 15 5 |>.field 10 5 |>.const (h9.const h8 rfl |>.const (.of_toNat h) rfl) rfl).whole
  case h_11 h => exact .must_and fun h8 => .must rfl fun h9 => (hm.rrr.const (h9.const h8 rfl |>.const (.of_toNat h) rfl) rfl).whole
  case h_13 => exact .error

/-! ### Hint words (R275) -/

theorem decode7F_back (hm : At w 25 0x7F#7) : Back w (decode7F w) := by
  unfold decode7F
  split
  case h_1 | h_5 => next h => exact .ok rfl (hm.const (.of_toNat h) rfl |>.field 0 22).whole
  case h_2 h =>
    exact .hint (.must_and fun h2 => .must_and fun h9 => .must_and fun hb => .must_and fun ha => .must rfl fun h20 =>
      (hm.const (.of_toNat h) rfl |>.const h20 rfl |>.const ha rfl |>.const hb rfl |>.const h9 rfl |>.const h2 rfl |>.field 0 2).whole)
  case h_3 h =>
    exact .hint (.must_and fun h1 => .must_and fun h9 => .must_and fun hb => .must_and fun ha => .must rfl fun h20 =>
      (hm.const (.of_toNat h) rfl |>.const h20 rfl |>.const ha rfl |>.const hb rfl |>.const h9 rfl |>.const h1 rfl |>.field 0 1).whole)
  case h_4 h =>
    exact .hint (.must_and fun h6 => .must_and fun h9 => .must_and fun hb => .must_and fun ha => .must rfl fun h20 =>
      (hm.const (.of_toNat h) rfl |>.const h20 rfl |>.const ha rfl |>.const hb rfl |>.const h9 rfl |>.const h6 rfl
        |>.field 4 2 |>.field 3 1 |>.field 2 1 |>.field 0 2).whole)
  case h_6 => exact .error

/-! ### The word by its major opcode (Table 10.9a) -/

/-- An instruction that any major's decoder gives encodes back to the word: the majors of one instruction here, by their form. -/
theorem decodeMajor_back : Back w (decodeMajor w) := by
  unfold decodeMajor
  split
  case h_4 | h_5 | h_6 | h_7 | h_8 | h_9 | h_13 | h_18 | h_19 | h_20 | h_21 | h_22 | h_23 | h_25 =>
    next h => exact .ok rfl ((At.of_toNat h).rr.field 0 15).whole
  case h_11 | h_12 => next h => exact .must rfl fun ha => (At.of_toNat h |>.field 20 5 |>.const ha rfl |>.field 0 15).whole
  case h_15 | h_16 =>
    next h =>
      exact .must_and fun h0 => .must rfl fun h9 =>
        ((At.of_toNat h).rrr.const h9 rfl |>.field 8 1 |>.const h0 rfl).whole
  case h_17 h => exact .must rfl fun h21 => (At.of_toNat h |>.const h21 rfl |>.field 20 1 |>.field 15 5 |>.field 0 15).whole
  case h_24 h => exact .ok rfl (At.of_toNat h |>.field 20 5 |>.field 0 20).whole
  case h_26 | h_27 | h_28 | h_29 | h_30 | h_31 | h_32 | h_33 | h_34 | h_35 | h_36 =>
    next h => exact .ok rfl ((At.of_toNat h).rr.field 13 2 |>.field 0 13).whole
  case h_37 h => exact .must rfl fun h13 => ((At.of_toNat h).rr.const h13 rfl |>.field 0 13).whole
  case h_38 | h_39 => next h => exact .must rfl fun h14 => ((At.of_toNat h).rr.const h14 rfl |>.field 13 1 |>.field 0 13).whole
  case h_42 h => exact .ok rfl ((At.of_toNat h).rrr.field 0 10).whole
  case h_43 | h_44 =>
    next h =>
      exact .must_and fun h8 => .must_and fun h9 => .must rfl fun hb =>
        ((At.of_toNat h).rr.const (hb.const h9 rfl |>.const h8 rfl) rfl |>.field 7 1 |>.field 6 1 |>.field 3 3 |>.field 0 3).whole
  case h_45 | h_48 | h_49 =>
    next h =>
      exact .must_and fun h0 => .must rfl fun hb =>
        ((At.of_toNat h).rr.const hb rfl |>.field 9 1 |>.field 7 2 |>.field 5 2 |>.const h0 rfl).whole
  case h_46 | h_47 | h_50 | h_51 => next h => exact .must rfl fun h0 => ((At.of_toNat h).rrrm.field 7 2 |>.field 5 2 |>.const h0 rfl).whole
  case h_59 h => exact .must rfl fun h5 => ((At.of_toNat h).rrrm.const h5 rfl |>.field 0 5).whole
  case h_60 h =>
    exact .must_and fun h8 => .must rfl fun h9 =>
      ((At.of_toNat h).rrr.const (h9.const h8 rfl) rfl |>.field 6 2 |>.field 3 3 |>.field 0 3).whole
  case h_61 | h_62 | h_63 => next h => exact .must rfl fun h0 => ((At.of_toNat h).rrr.field 5 5 |>.const h0 rfl).whole
  case h_64 h =>
    exact .must_and fun h0 => .must_and fun hb => .must rfl fun ha =>
      (At.of_toNat h |>.field 20 5 |>.const (ha.const hb rfl) rfl |>.field 5 5 |>.const h0 rfl).whole
  case h_65 h =>
    exact .must_and fun h1 => .must_and fun h9 => .must_and fun hb => .must rfl fun ha =>
      (At.of_toNat h |>.field 20 5 |>.const (ha.const hb rfl |>.const h9 rfl |>.const h1 rfl) rfl |>.field 0 1).whole
  case h_1 h => exact decode00_back (.of_toNat h)
  case h_2 h => exact decode01_back (.of_toNat h)
  case h_3 h => exact decode02_back (.of_toNat h)
  case h_10 h => exact decode0A_back (.of_toNat h)
  case h_14 h => exact decode10_back (.of_toNat h)
  case h_40 h => exact decode2E_back (.of_toNat h)
  case h_41 h => exact decode2F_back (.of_toNat h)
  case h_52 h => exact decode41_back (.of_toNat h)
  case h_53 h => exact decode42_back (.of_toNat h)
  case h_54 h => exact decode43_back (.of_toNat h)
  case h_55 h => exact decode44_back (.of_toNat h)
  case h_56 h => exact decode45_back (.of_toNat h)
  case h_57 h => exact decode46_back (.of_toNat h)
  case h_58 h => exact decode47_back (.of_toNat h)
  case h_66 h => exact decode60_back (.of_toNat h)
  case h_67 h => exact decode64_back (.of_toNat h)
  case h_68 h => exact decode66_back (.of_toNat h)
  case h_69 h => exact decode68_back (.of_toNat h)
  case h_70 h => exact decode70_back (.of_toNat h)
  case h_71 h => exact decode7F_back (.of_toNat h)
  case h_72 => exact .error

end

/-- A word that decodes is the word of what its major's decoder gives, which is well-formed (R280). -/
theorem decodeMajor_of_decodeWord {w : IWord} {i : Instr} (h : decodeWord w = .ok i) : decodeMajor w = .ok i ∧ i.wf = true := by
  unfold decodeWord at h
  split at h
  · next j hj =>
    split at h
    · next hwf =>
      cases h
      exact ⟨hj, hwf⟩
    · split at h <;> cases h
  · cases h

/-- Settles O5: the decoder of each major gives back the word (`decodeMajor_back`), and the word 0 does not decode. -/
theorem decodedWordsEncodeBack : Obligations.DecodedWordsEncodeBack := by
  intro w i h
  obtain ⟨hmajor, hwf⟩ := decodeMajor_of_decodeWord h
  obtain ⟨hencode, hword⟩ := decodeMajor_back i hmajor
  have hw : w ≠ 0#32 := by
    rintro rfl
    exact nomatch h.symm.trans (show decodeWord 0#32 = .error .fn from rfl)
  exact ⟨hwf, by rw [hword, hencode, bne_iff_ne]; exact hw, hencode⟩

end Sys2Proof.Laws

/-!
# Hints an instruction does not accept

Every instruction with a word passes through `State.issue` or `State.issueMem`, where the causes of R285 that come before its own checks
stand.
-/

namespace Sys2Proof.Machine

open Claims

/-- With an unaccepted hint pending outside runahead, the outcome is the trap of the first such hint or that of an illegal instruction. -/
def Screened (s : State) (w : IWord) (r : Res) : Prop :=
  ∀ h, s.cx.ahead = none → badHint w s.cx.r.hints = some h → r = s.trap w 0x02#8 h.addr ∨ r = s.illegal w

section
variable {s : State} {w : IWord}

theorem issue_screened {legal : Bool} {body : State → Res} : Screened s w (s.issue w legal body) := by
  intro h ha hh
  rw [State.issue, ha]
  cases legal with
  | false => exact .inr rfl
  | true =>
    simp only [hh]
    exact .inl rfl

theorem issueMem_screened {legal : Bool} {k : AccKind} {bases vbases ds vds : List Nat} {aligned : Bool} {addrs : List Word}
    {body : State → Res} : Screened s w (s.issueMem w legal k bases vbases ds vds aligned addrs body) := by
  intro h ha hh
  rw [State.issueMem, ha]
  cases legal with
  | false => exact .inr rfl
  | true =>
    simp only [hh]
    exact .inl rfl

theorem load_screened {d a : RegNo} {wf : BitVec 2} {off : BitVec 13} {n : Nat} {signed : Bool} :
    Screened s w (s.load w d a wf off n signed) := by
  unfold State.load
  exact issueMem_screened

theorem store_screened {d a : RegNo} {wf : BitVec 2} {off : BitVec 13} {n : Nat} :
    Screened s w (s.store w d a wf off n fun t x => t.startCopy w x) := by
  unfold State.store
  exact issueMem_screened

theorem ldro_screened {d a : RegNo} {o : BitVec 13} : Screened s (Enc.ldro d a o) (execLdro d a o s) := by
  unfold execLdro
  exact issueMem_screened

theorem vload_screened {d a : RegNo} {k : VAddr} {ew : Nat} {m : BitVec 1} {wf : BitVec 2} {ff : Bool} :
    Screened s w (s.vload w d a k ew m wf ff) := by
  unfold State.vload
  exact issueMem_screened

theorem vstore_screened {d a : RegNo} {k : VAddr} {ew : Nat} {m : BitVec 1} {wf : BitVec 2} : Screened s w (s.vstore w d a k ew m wf) := by
  unfold State.vstore
  exact issueMem_screened

end

/-- Every instruction with a word that is no hint word is screened: loads and stores by the form that runahead follows, the others by the
plain one. -/
theorem exec_screened {i : Instr} (s : State) (hword : i.isWord = true) (hhint : i.isHint = false) : Screened s (encode i) (exec i s) := by
  cases i with
  | ldb | ldbu | ldh | ldhu | ldw | ldwu | ldd => exact load_screened
  | stb | sth | stw | std => exact store_screened
  | ldro => exact ldro_screened
  | vld | vlds | vldx | vldff => exact vload_screened
  | vst | vsts | vstx => exact vstore_screened
  | immx | hcache | hsched | hmod | hnop => cases hhint
  | add | sub | and | or | xor | andn | sll | srl | sra | rol | ror | slt | sltu | min | max | minu | maxu | clz | ctz | popc | sextb |
    sexth | sextw | zextw | addw | subw | sllw | srlw | sraw | mulw | mul | mulh | mulhu | mulhsu | div | divu | rem | remu | divw |
    divuw | remw | remuw | addi | andi | ori | xori | slti | sltiu | slli | srli | srai | rori | movi | addpc | addiw | fadd | fsub |
    fmul | fdiv | fsqrt | fmin | fmax | feq | flt | fle | fclass | fabs | fneg | fcvt | fmac | fmsac | loop | beq | bne | blt | bge |
    bltu | bgeu | jal | jalr | ldf | stf | fence | roinv | mwarm | mwait | feset | feclr | fest | cflush | cinv | pref | aadd | aand |
    aor | axor | amin | amax | aminu | amaxu | aswap | acas | afadd | afmaxabs | amaxrst | ship | trap | eret | srrd | srwr | srset |
    srclr | halt | bkpt | ifence | tlbinv | ctxres | wfe | vsetl | vsetli | vaddVv | vaddVx | vsubVv | vsubVx | vrsubVv | vrsubVx |
    vmulVv | vmulVx | vmulhVv | vmulhVx | vmaccVv | vmaccVx | vnmsacVv | vnmsacVx | vandVv | vandVx | vorVv | vorVx | vxorVv | vxorVx |
    vsllVv | vsllVx | vsrlVv | vsrlVx | vsraVv | vsraVx | vminVv | vminVx | vmaxVv | vmaxVx | vminuVv | vminuVx | vmaxuVv | vmaxuVx |
    vseqVv | vseqVx | vsneVv | vsneVx | vsltVv | vsltVx | vsltuVv | vsltuVx | vsleVv | vsleVx | vmergeVv | vmergeVx | vmvVv | vmvVx |
    vsaddVv | vsaddVx | vssubVv | vssubVx | vnclipVv | vnclipVx | vwaddVv | vwaddVx | vwmulVv | vwmulVx | vext | vfaddVv | vfaddVx |
    vfsubVv | vfsubVx | vfmulVv | vfmulVx | vfdivVv | vfdivVx | vfsqrt | vfminVv | vfminVx | vfmaxVv | vfmaxVx | vfmaccVv | vfmaccVx |
    vfnmsacVv | vfnmsacVx | vfeqVv | vfeqVx | vfltVv | vfltVx | vfleVv | vfleVx | vfabs | vfneg | vfsgnjVv | vfsgnjVx | vredsum |
    vredmax | vredmin | vredand | vredor | vredxor | vfredosum | vfredtsum | vfredmax | vfredmin | vfamax | vslideup | vslidedn |
    vslide1up | vslide1dn | vgath | vcompress | viota | vid | vmvxs | vmvsx | vmand | vmor | vmxor | vmandn | vmnot | vpopc | vfirst |
    vmsbf | vcvt | mshape | mma | mmas | mmat | mzero | mstat | spawn | spawnc | twait | texit | yield | cntinit | cntdec | cntwait |
    launchd | tself | dbegin | dpresSnap | dpresHold | dend | dchk | dabort | dlevel | lend | unlend | hstat | qpost | qwait | qstart |
    qstat | qresync => exact issue_screened
  | _ => cases hword

/-- Settles O12: the trap of an unaccepted hint or of an illegal instruction is what `Screened` leaves. -/
theorem unacceptedHintTraps : Obligations.UnacceptedHintTraps :=
  fun _ s h hword hhint hahead hbad => exec_screened s hword hhint h hahead hbad

end Sys2Proof.Machine

/-!
# Fetch, registers, hints and traps

The words the spec writes out, the steps around an instruction's own, the register file, the loop end check, the pending hint state and
the entry of a trap.
-/

namespace Sys2Proof.Machine

open Claims

/-- Settles O6: each of the words is the word of the instruction it decodes to. -/
theorem writtenWordsDecode : Obligations.WrittenWordsDecode :=
  have h := Laws.decodeWord_encode
  ⟨h (.movi 21 5) rfl rfl, h (.slli 13 13 32) rfl rfl, h (.addi 15 15 0x7FFF) rfl rfl, h (.bne 15 0 0x7FFC) rfl rfl,
    h (.ldd 12 13 2 2) rfl rfl, h (.std 21 20 0 0) rfl rfl, h (.immx 3) rfl rfl, h (.mwarm 10) rfl rfl, h (.mwait 13 10) rfl rfl,
    h (.bgeu 13 11 3) rfl rfl, h (.jal 0 0xFFFFC) rfl rfl⟩

/-! ### Fetch and words that encode nothing (R275, R280, R281) -/

theorem reservedHintKind_traps {s : State} (w : IWord) (ha : s.cx.ahead = none) : Traps (.reservedHintKind w) s 0x02#8 s.cx.r.pc := by
  have hrun : ¬ s.cx.ahead.isSome = true := by simp [ha]
  exact if_neg hrun

theorem issueWord_of_error {w : IWord} {e : Reject} (h : decodeWord w = .error e) :
    issueWord w = if e = .hintKind ∨ e = .hintPayload then .reservedHintKind w else .unassignedEncoding w := by
  rw [issueWord, h]
  cases e <;> rfl

/-- Settles O8. -/
theorem fetchAndUnassignedWords : Obligations.FetchAndUnassignedWords :=
  ⟨fun _ _ htr hpa hm hp => execInstructionFetch_ok htr hpa hm hp,
    fun _ w ha => ⟨traps_illegal (i := .unassignedEncoding w) rfl rfl ha, reservedHintKind_traps w ha⟩,
    fun _ hended => if_pos hended, fun _ _ h => issueWord_of_error h⟩

/-! ### The register file (R262, R265) -/

theorem Regs.get_set_same (r : Regs) {d : RegNo} (v : Word) (h : d ≠ 0#5) : (r.set d v).get d = v := by
  rw [Regs.get, if_neg h, Regs.set, if_neg h]
  exact SMap.look_put_same ..

theorem Regs.get_set (r : Regs) (d n : RegNo) (v : Word) : (r.set d v).get n = if n = d ∧ d ≠ 0#5 then v else r.get n := by
  split
  · next h =>
    obtain ⟨rfl, hn⟩ := h
    exact r.get_set_same v hn
  · next h =>
    by_cases hn : n = d
    · have hd : d = 0#5 := by simpa [hn] using h
      rw [hd, Regs.set_zero]
    · exact r.get_set_other v hn

theorem Regs.vget_vset (r : Regs) (k m : Nat) (x : VReg) : (r.vset k x).vget m = if m = k then x else r.vget m := by
  split
  · next h => rw [h, Regs.vget_vset_same]
  · next h => exact r.vget_vset_other x h

/-- A write to a scalar register changes no vector register. -/
theorem Regs.vget_set (r : Regs) (d : RegNo) (v : Word) (j : Nat) : (r.set d v).vget j = r.vget j := by
  unfold Regs.set
  split <;> rfl

/-- Settles O9. -/
theorem registersReadBack : Obligations.RegistersReadBack :=
  fun r d n v k m x => ⟨r.get_zero, fun h => h ▸ r.set_zero v, r.get_set d n v, r.vget_vset k m x, r.vget_set d v, fun _ => rfl⟩

/-! ### The loop end check (R317) -/

theorem sub_one_eq_zero_iff {c : Word} : c - 1#64 = 0#64 ↔ c = 1#64 := by
  constructor
  · intro h
    simpa using congrArg (· + 1#64) h
  · rintro rfl
    rfl

/-- Settles O10, by the count of lc1 and, where lc1 does not loop, that of lc0. -/
theorem loopEndCheck : Obligations.LoopEndCheck := by
  intro r
  dsimp only
  refine ⟨fun h1 hn => ?_, fun h1 he h0 => ?_, fun h1 he h0 hn => ?_, fun h1 he h0 he0 => ?_, fun h1 h0 hn => ?_, fun h1 h0 he => ?_,
    fun h1 h0 => ?_⟩
  all_goals simp [Regs.advance, Regs.loopEnd, sub_one_eq_zero_iff, *]

/-! ### Hint words (R275, R277, R278) -/

/-- The word at the program counter is the last one of an active loop's body (R277, R317). -/
abbrev Regs.AtLoopEnd (r : Regs) : Prop := (r.lc1 ≠ 0#64 ∧ r.lend1 = r.pc) ∨ (r.lc0 ≠ 0#64 ∧ r.lend0 = r.pc)

theorem Regs.loopLast_iff {r : Regs} : r.loopLast = true ↔ r.AtLoopEnd := by
  simp [Regs.loopLast, Regs.AtLoopEnd]

section
variable {s : State} {i : Instr} {kind : BitVec 3} {p : BitVec 22}

/-- What a hint word of a kind and payload does outside runahead, for any of the five. -/
theorem hintWord_spec (hi : exec i s = s.hintWord (encode i) i.wf kind p) (ha : s.cx.ahead = none) :
    (i.wf = true → ¬ s.cx.r.AtLoopEnd → (∀ h ∈ s.cx.r.hints, h.kind ≠ kind) →
      exec i s = .next (s.setR { s.cx.r with pc := s.cx.r.pc + 4#64, hints := s.cx.r.hints ++ [⟨kind, p, s.cx.r.pc⟩] }))
    ∧ (i.wf = false ∨ s.cx.r.AtLoopEnd ∨ (∃ h ∈ s.cx.r.hints, h.kind = kind) → Traps i s 0x02#8 s.cx.r.pc) := by
  rw [State.hintWord, ha] at hi
  constructor
  · intro hwf hlast hkind
    have hdup : s.cx.r.hints.any (fun h => h.kind == kind) = false := by simpa using hkind
    have hend : s.cx.r.loopLast = false := Bool.eq_false_iff.mpr fun h => hlast (Regs.loopLast_iff.mp h)
    simpa [hwf, hdup, hend, enq] using hi
  · intro hbad
    have hbad : (!i.wf || s.cx.r.hints.any (fun h => h.kind == kind) || s.cx.r.loopLast) = true := by
      rw [Bool.or_eq_true, Bool.or_eq_true, Regs.loopLast_iff]
      simpa [or_assoc, or_comm (a := s.cx.r.AtLoopEnd)] using hbad
    exact hi.trans (if_pos hbad)

end

/-- Settles O11: the five hint words are one operation. -/
theorem hintWords : Obligations.HintWords := fun _ _ _ _ _ _ _ _ ha =>
  ⟨hintWord_spec rfl ha, hintWord_spec rfl ha, hintWord_spec rfl ha, hintWord_spec rfl ha, hintWord_spec rfl ha⟩

/-! ### Immediates (R273, R274) -/

theorem Regs.imm_of_no_hints {r : Regs} (h : r.hints = []) {n : Nat} (f : BitVec n) : r.imm n f = f.toInt := by
  rw [Regs.imm, Regs.hint, h]
  rfl

theorem Regs.imm_of_immx {r : Regs} {p : BitVec 22} {a : Word} (h : r.hints = [⟨0#3, p, a⟩]) {n : Nat} (f : BitVec n) :
    r.imm n f = p.toInt * 2 ^ n + f.toNat := by
  rw [Regs.imm, Regs.hint, h]
  exact (BitVec.toInt_append (x := p) (y := f)).trans (by rw [if_neg (by decide), Int.mul_comm])

/-- Settles O13. -/
theorem immediatesWiden : Obligations.ImmediatesWiden := fun _ _ f _ _ =>
  ⟨fun h => Regs.imm_of_no_hints h f, fun h _ => Regs.imm_of_immx h f⟩

/-! ### Taking a trap (R278, R284, R286) -/

/-- Waking the cores of a die's supervisor changes their contexts alone (R331). -/
theorem State.wakeSup_keeps {β : Type} {g : State → β} (s : State) (d : Nat)
    (hg : ∀ (t : State) (k : Nat) (f : Ctx → Ctx), k = 64 ∨ k = 65 → g (t.onCtx ⟨d, k, 0, false⟩ f) = g t) :
    g (s.wakeSup d) = g s :=
  State.foldl_keeps (g := g) rfl fun t k hk => by
    dsimp only
    split
    · exact hg t k _ (by simpa using hk)
    · rfl

/-- A compute core's context is not a supervisor core's. -/
theorem CtxId.key_ne_supervisor {c : CtxId} (hc : c.isSup = false) (ht : c.turn < 8) {k : Nat} (hk : k = 64 ∨ k = 65) :
    c.key ≠ (⟨c.die, k, 0, false⟩ : CtxId).key := by
  have hcore : c.core < 64 := by simpa [CtxId.isSup] using hc
  unfold CtxId.key
  dsimp only
  split <;> simp only [Bool.false_eq_true, if_false] <;> omega

/-- The state a compute core's context traps into, before its die's supervisor wakes. -/
theorem State.takeTrap_compute (s : State) {c : CtxId} (hc : c.isSup = false) (cause : BitVec 8) (tval : Word) (wr ex : Bool)
    (pages : List Word) (insn : IWord) :
    ∃ old fetching, s.takeTrap c cause tval wr ex pages insn =
      State.wakeSup ((s.setCtx c { s.ctx c with
        r := (s.ctx c).r.trapped cause tval, st := .trapped, wait := .none, offered := false, ahead := none }).withTraps
          (old ++ [mkTrap c (s.ctx c) cause tval wr ex pages insn s.cycle]) fetching) c.die :=
  ⟨_, _, if_neg (ne_true_of_eq_false hc)⟩

section
variable {s : State} {c : CtxId} (hc : c.isSup = false) {cause : BitVec 8} {tval : Word} {wr ex : Bool} {pages : List Word} {insn : IWord}
include hc

/-- What neither a context nor the trap records hold, a trap leaves alone. -/
theorem State.takeTrap_keeps {β : Type} {g : State → β} (hset : ∀ (t : State) (e : CtxId) (x : Ctx), g (t.setCtx e x) = g t)
    (htraps : ∀ (t : State) (a b : List TrapRec), g (t.withTraps a b) = g t := by exact fun _ _ _ => rfl) :
    g (s.takeTrap c cause tval wr ex pages insn) = g s := by
  obtain ⟨old, fetching, ht⟩ := s.takeTrap_compute hc cause tval wr ex pages insn
  rw [ht, State.wakeSup_keeps _ _ fun t k f _ => hset t _ _, htraps, hset]

theorem State.takeTrap_traps : ∃ old, (s.takeTrap c cause tval wr ex pages insn).traps
    = old ++ [mkTrap c (s.ctx c) cause tval wr ex pages insn s.cycle] := by
  obtain ⟨old, fetching, ht⟩ := s.takeTrap_compute hc cause tval wr ex pages insn
  exact ⟨old, by rw [ht, State.wakeSup_keeps (g := State.traps) _ _ fun t k f _ => State.onCtx_traps t _ _]; rfl⟩

/-- The trapped context reads as written: the supervisor's contexts that wake are others. -/
theorem State.ctx_takeTrap (hturn : c.turn < 8) : (s.takeTrap c cause tval wr ex pages insn).ctx c = { s.ctx c with
    r := (s.ctx c).r.trapped cause tval, st := .trapped, wait := .none, offered := false, ahead := none } := by
  obtain ⟨old, fetching, ht⟩ := s.takeTrap_compute hc cause tval wr ex pages insn
  rw [ht, State.wakeSup_keeps (g := fun t => t.ctx c) _ _ fun t k f hk =>
    State.ctx_onCtx_other t f (CtxId.key_ne_supervisor hc hturn hk)]
  exact State.ctx_setCtx_same ..

end

/-- Settles O14: the trapped context, its record, and what a trap keeps. -/
theorem trapEntry : Obligations.TrapEntry := by
  rintro s t c cause tval wr ex pages insn hc hturn rfl r first
  obtain ⟨old, htraps⟩ : ∃ old, (s.takeTrap c cause tval wr ex pages insn).traps = old ++ [_] := State.takeTrap_traps hc
  rw [State.ctx_takeTrap hc hturn]
  exact ⟨rfl, rfl, rfl, ⟨old, _, htraps, rfl, rfl, rfl, rfl, rfl, rfl, rfl, rfl, rfl, rfl, rfl, rfl, rfl⟩,
    sameMemory_of_fields (State.takeTrap_keeps hc State.setCtx_mem) (State.takeTrap_keeps hc State.setCtx_fe)
      (State.takeTrap_keeps hc State.setCtx_poison),
    State.takeTrap_keeps hc State.setCtx_cycle, State.takeTrap_keeps hc State.setCtx_counters,
    State.takeTrap_keeps hc State.setCtx_dies, State.takeTrap_keeps hc State.setCtx_cores⟩

end Sys2Proof.Machine

/-!
# Immediates, branches and special registers

What the shared operations `State.alu`, `State.branch`, `State.srWrite` come to for an instruction that nothing stands before, and from them
the integer immediate instructions, the branches, jumps and LOOP, and the reads and writes of the special registers.
-/

namespace Sys2Proof.Machine

open Claims

/-! ### Integer immediate instructions (R273, R308 to R310) -/

theorem satInt_64 (x : Int) : satInt 64 x = max (-2 ^ 63) (min (2 ^ 63 - 1) x) := by
  unfold satInt
  split_ifs <;> omega

theorem satInt_32 (x : Int) : satInt 32 x = max (-2 ^ 31) (min (2 ^ 31 - 1) x) := by
  unfold satInt
  split_ifs <;> omega

section
variable {s : State} {i : Instr} {d : RegNo}

/-- An exact result in 64 bits: what it wraps to, or under HMOD SAT the clamped value (R308). -/
theorem res64_eq_fit64 {x : Int} {wrapped : Word} (h : wrapped = BitVec.ofInt 64 x) : s.res64 x = fit64 s wrapped x := by
  rw [State.res64, intRes, satInt_64, fit64, h]
  exact apply_ite ..

/-- An exact result in 32 bits, sign-extended: what it wraps to, or under HMOD SAT the clamped value (R308). -/
theorem res32_eq_fit32 {x : Int} {wrapped : BitVec 32} (h : wrapped = BitVec.ofInt 32 x) : s.res32 x = fit32 s wrapped x := by
  rw [State.res32, intRes, satInt_32, fit32, h]
  exact congrArg sxW (apply_ite ..)

/-- An integer instruction that nothing stands before gives its value. -/
theorem gives_of_alu {v : State → Word} {x : Word} (hi : exec i s = s.alu (encode i) d v) (hv : v s = x) (hr : Ready i s) :
    Gives i s d x := by
  rw [← hv]
  exact exec_eq_body hi hr

end

/-- Settles O18: each is the operation of the ALU with the value of Table 11.2. -/
theorem integerImmediateResults : Obligations.IntegerImmediateResults := by
  intro s d a m n A A32 I W gives
  have hadd : A + W = BitVec.ofInt 64 (A.toInt + I) := by rw [BitVec.ofInt_add, BitVec.ofInt_toInt]
  have haddw : A32 + BitVec.ofInt 32 I = BitVec.ofInt 32 (A32.toInt + I) := by rw [BitVec.ofInt_add, BitVec.ofInt_toInt]
  exact ⟨gives_of_alu rfl (res64_eq_fit64 hadd), gives_of_alu rfl (res32_eq_fit32 haddw), gives_of_alu rfl rfl, gives_of_alu rfl rfl,
    gives_of_alu rfl rfl, gives_of_alu rfl rfl, gives_of_alu rfl rfl, gives_of_alu rfl rfl, gives_of_alu rfl rfl, gives_of_alu rfl rfl,
    gives_of_alu rfl rfl, gives_of_alu rfl rfl, gives_of_alu rfl rfl⟩

/-! ### Branches and jumps (R273, R281, R315 to R317) -/

/-- The low two bits are those of a multiple of 4. -/
theorem and_three_eq_zero_iff (t : Word) : t &&& 3#64 = 0#64 ↔ t.toNat % 4 = 0 := by
  rw [← BitVec.toNat_inj, BitVec.toNat_and]
  exact Eq.congr_left (Nat.and_two_pow_sub_one_eq_mod t.toNat 2)

section
variable {s : State} {i : Instr}

/-- A branch that nothing stands before goes to its target when its condition holds, and otherwise completes. -/
theorem branch_spec {o : BitVec 15} {cond : State → Bool} {c : Bool} (hi : exec i s = s.branch (encode i) o cond) (hc : cond s = c)
    (hr : Ready i s) :
    (c = true → exec i s = .next (s.setR { s.cx.r with pc := s.cx.r.pc + BitVec.ofInt 64 (4 * s.cx.r.imm 15 o), hints := [] }))
    ∧ (c = false → Done i s s.cx.r) := by
  have hexec := exec_eq_body hi hr
  rw [hc] at hexec
  exact ⟨fun h => hexec.trans (congrArg _ (if_pos h)), fun h => hexec.trans (congrArg _ (if_neg (ne_true_of_eq_false h)))⟩

end

/-- Settles O21: the six branches are one operation with six conditions. -/
theorem branchesAndJumps : Obligations.BranchesAndJumps := by
  intro s d a b o m j A B pc goTo target branch
  refine ⟨branch_spec rfl rfl, branch_spec rfl (decide_not ..).symm, branch_spec rfl rfl, branch_spec rfl ?bge, branch_spec rfl rfl,
    branch_spec rfl ?bgeu, fun hr => ?jal, fun hr => ?jalr⟩
  case bge => exact (decide_not ..).symm.trans (decide_eq_decide.mpr Int.not_lt)
  case bgeu => exact (decide_not ..).symm.trans (decide_eq_decide.mpr Nat.not_lt)
  case jal => exact (exec_eq_body (i := .jal d j) (s := s) rfl hr).trans rfl
  case jalr =>
    have hexec := exec_eq_body (i := .jalr d a m) (s := s) rfl hr
    exact ⟨fun h => hexec.trans (if_neg (not_not.mpr ((and_three_eq_zero_iff _).mpr h))),
      fun h => hexec.trans (if_pos fun h0 => h ((and_three_eq_zero_iff _).mp h0))⟩

/-- Settles O22: the length decides whether LOOP is legal, the count whether the body is skipped. -/
theorem loopSetUp : Obligations.LoopSetUp := by
  intro s n a l len pc i
  have hissue : exec i s = s.issue (encode i) (decide (0 < len)) (fun s =>
    if s.rd a = 0#64 then .next (s.setR (s.cx.r.jump (s.cx.r.pc + wordI (4 * (len + 1)))))
    else .next (s.finish (s.cx.r.setLoop n (s.rd a) len))) := rfl
  have hready : 0 < len → Ready i s → exec i s = _ := fun h hr =>
    exec_eq_body (hissue.trans (by rw [decide_eq_true h])) hr
  refine ⟨fun h ha => traps_illegal hissue (decide_eq_false (not_lt.mpr h)) ha, fun h hr h0 => (hready h hr).trans (if_pos h0),
    fun h hr h0 => ⟨?_, ?_⟩⟩
  all_goals
    rintro rfl
    exact (hready h hr).trans (if_neg h0)

end Sys2Proof.Machine

/-!
# Special registers

What the shared paths of SRRD and of the three writes come to, from the place that `State.srGet` reads and `Ctx.srPut` writes.
-/

namespace Sys2Proof.Machine

open Claims

/-! ### Reads (R267 to R270, R330) -/

section
variable {s : State} {d : RegNo} {k : BitVec 12}

/-- What a read of a listed register does, by the mode. -/
theorem exec_srrd {v : Word} (hget : s.srGet k.toNat = some v) (hr : Ready (.srrd d k) s) :
    exec (.srrd d k) s = if s.srMayRead k.toNat then .next (s.finishSet d v) else s.privilege (Enc.srrd d k) := by
  have hissue : exec (.srrd d k) s = s.issue (encode (.srrd d k)) (s.srGet k.toNat).isSome (fun s =>
    if s.srMayRead k.toNat then .next (s.finishSet d ((s.srGet k.toNat).getD 0#64)) else s.privilege (Enc.srrd d k)) := rfl
  rw [hget] at hissue
  rw [exec_eq_body hissue hr, hget]
  rfl

/-- A read that the mode allows gives the register's value. -/
theorem srrd_gives {v : Word} (hget : s.srGet k.toNat = some v) (hmay : s.srMayRead k.toNat = true) (hr : Ready (.srrd d k) s) :
    Gives (.srrd d k) s d v :=
  (exec_srrd hget hr).trans (if_pos hmay)

/-- A read that the mode refuses traps PRIVILEGE (R282). -/
theorem srrd_refused {v : Word} (hget : s.srGet k.toNat = some v) (hmay : s.srMayRead k.toNat = false) (hr : Ready (.srrd d k) s) :
    Traps (.srrd d k) s 0x0E#8 ((encode (.srrd d k)).setWidth 64) :=
  (exec_srrd hget hr).trans (if_neg (ne_true_of_eq_false hmay))

/-- An index that the table does not list is illegal (R268, R280). -/
theorem srrd_unlisted (hget : s.srGet k.toNat = none) (ha : s.cx.ahead = none) :
    Traps (.srrd d k) s 0x01#8 ((encode (.srrd d k)).setWidth 64) :=
  traps_illegal rfl (by rw [hget]; rfl) ha

/-- The indices of Table 10.3 below those of the two clocks. -/
def srListed : List Nat :=
  [0x000, 0x001, 0x002, 0x003, 0x004, 0x010, 0x011, 0x012, 0x020, 0x021, 0x030, 0x031, 0x040, 0x041, 0x080, 0x081, 0x082, 0x083, 0x084,
    0x085, 0x086]

theorem State.srGet_isSome (s : State) {i : Nat} (h : i ∈ srListed) : (s.srGet i).isSome = true := by
  have hall : srListed.all (fun k => (s.srGet k).isSome) = true := rfl
  exact List.all_eq_true.mp hall i h

/-- Above them stand the entries of the two clocks, and nothing else. -/
theorem State.srGet_of_not_listed (s : State) {i : Nat} (h : i ∉ srListed) : s.srGet i =
    if 0x100 ≤ i ∧ i < 0x110 then some ((vecAt (s.die s.cur.die).v (i - 0x100)).setWidth 64)
    else if 0x110 ≤ i ∧ i < 0x120 then some ((vecAt (s.die s.cur.die).k (i - 0x110)).setWidth 64)
    else none := by
  unfold State.srGet
  split
  case h_22 => rfl
  all_goals exact absurd (by decide) h

theorem not_mem_srListed {i : Nat} (h : 0x100 ≤ i) : i ∉ srListed := by
  intro hi
  have : ∀ k ∈ srListed, k < 0x100 := by decide
  exact absurd (this i hi) (not_lt.mpr h)

theorem State.srGet_vclock (s : State) {j : Nat} (hj : j < 16) :
    s.srGet (0x100 + j) = some ((vecAt (s.die s.cur.die).v j).setWidth 64) := by
  rw [s.srGet_of_not_listed (not_mem_srListed (by omega)), if_pos (by omega), Nat.add_sub_cancel_left]

theorem State.srGet_kclock (s : State) {j : Nat} (hj : j < 16) :
    s.srGet (0x110 + j) = some ((vecAt (s.die s.cur.die).k j).setWidth 64) := by
  rw [s.srGet_of_not_listed (not_mem_srListed (by omega)), if_neg (by omega), if_pos (by omega), Nat.add_sub_cancel_left]

end

section
variable {s : State} {d : RegNo}

theorem srrd_gives_listed {k : BitVec 12} {v : Word} (hget : s.srGet k.toNat = some v) (hlow : k.toNat < 0x100) (hr : Ready (.srrd d k) s) :
    Gives (.srrd d k) s d v :=
  srrd_gives hget (by simp [State.srMayRead, hlow]) hr

/-- The fields of sr.status, each in its place (Table 10.4). -/
theorem State.srStatus_fields (s : State) :
    s.srStatus.toNat < 2 ^ 32 ∧ s.srStatus.toNat % 2 ^ 20 = s.cx.r.fflags.toNat
    ∧ s.srStatus.toNat / 2 ^ 20 % 4 = ((s.cx.bound.map (·.prio)).getD 0) % 4
    ∧ s.srStatus.toNat / 2 ^ 22 % 4 = ((s.cx.bound.map (·.cls)).getD 0) % 4
    ∧ s.srStatus.toNat / 2 ^ 24 % 16 = s.cx.r.depth % 16 ∧ s.srStatus.toNat / 2 ^ 29 % 2 = (if s.cur.reserve then 1 else 0)
    ∧ s.srStatus.toNat / 2 ^ 30 % 2 = (if !s.cur.isSup && s.debugMode then 1 else 0)
    ∧ s.srStatus.toNat / 2 ^ 31 % 2 = (if s.cur.isSup then 1 else 0) := by
  have bit : ∀ (c : Bool) (n : Nat), (if c then 2 ^ n else 0) = 2 ^ n * if c then 1 else 0 := by simp
  have hbit : ∀ c : Bool, (if c then 1 else 0) < 2 := by decide
  have hflags := s.cx.r.fflags.isLt
  have hreserve := hbit s.cur.reserve
  have hdebug := hbit (!s.cur.isSup && s.debugMode)
  have hsup := hbit s.cur.isSup
  simp only [State.srStatus, BitVec.toNat_ofNat, bit]
  generalize (if s.cur.reserve then 1 else 0) = reserve, (if !s.cur.isSup && s.debugMode then 1 else 0) = debug,
    (if s.cur.isSup then 1 else 0) = sup at *
  omega

/-- An entry of a clock is read by the supervisor and in debug mode, and refused to a task otherwise. -/
theorem srrd_clock {i : Nat} {v : Word} (hlow : 0x100 ≤ i) (hlt : i < 2 ^ 12) (hget : s.srGet i = some v) :
    (s.cur.isSup = true ∨ s.debugMode = true → Ready (.srrd d (BitVec.ofNat 12 i)) s → Gives (.srrd d (BitVec.ofNat 12 i)) s d v)
    ∧ (s.cur.isSup = false → s.debugMode = false → Ready (.srrd d (BitVec.ofNat 12 i)) s →
      Traps (.srrd d (BitVec.ofNat 12 i)) s 0x0E#8 ((encode (.srrd d (BitVec.ofNat 12 i))).setWidth 64)) := by
  have hi : (BitVec.ofNat 12 i).toNat = i := Nat.mod_eq_of_lt hlt
  have hmay : s.srMayRead i = (s.cur.isSup || s.debugMode) := by simp [State.srMayRead, not_lt.mpr hlow]
  refine ⟨fun h hr => srrd_gives (by rw [hi, hget]) ?_ hr, fun hsup hdebug hr => srrd_refused (by rw [hi, hget]) ?_ hr⟩
  · rw [hi, hmay, Bool.or_eq_true]
    exact h
  · rw [hi, hmay, hsup, hdebug]
    rfl

end

/-- Settles O35: each index reads its own place. -/
theorem specialRegisterReads : Obligations.SpecialRegisterReads := by
  intro s d c reads
  have hlisted : ∀ {k : Nat} {v : Word}, s.srGet (BitVec.ofNat 12 k).toNat = some v → (BitVec.ofNat 12 k).toNat < 0x100 → reads k v :=
    fun hget hlow hr => srrd_gives_listed hget hlow hr
  refine ⟨hlisted rfl (by decide), hlisted rfl (by decide), hlisted rfl (by decide), hlisted rfl (by decide), hlisted rfl (by decide),
    hlisted rfl (by decide), hlisted rfl (by decide), hlisted rfl (by decide), hlisted rfl (by decide), hlisted rfl (by decide),
    hlisted rfl (by decide), hlisted rfl (by decide), hlisted rfl (by decide), hlisted rfl (by decide), hlisted rfl (by decide),
    hlisted rfl (by decide), hlisted rfl (by decide), hlisted rfl (by decide), hlisted rfl (by decide), hlisted rfl (by decide),
    fun hr => ⟨_, srrd_gives_listed rfl (by decide) hr, s.srStatus_fields⟩, fun j hj => ?clocks, fun k ha hk hrange => ?unlisted⟩
  case clocks =>
    have hv := srrd_clock (d := d) (by omega) (by omega) (s.srGet_vclock hj)
    have hk := srrd_clock (d := d) (by omega) (by omega) (s.srGet_kclock hj)
    exact ⟨fun h => ⟨hv.1 h, hk.1 h⟩, hv.2⟩
  case unlisted =>
    refine srrd_unlisted ?_ ha
    rw [s.srGet_of_not_listed hk, if_neg (by omega), if_neg (by omega)]

/-! ### Writes (R267, R268, R330) -/

section
variable {s : State} {i : Instr} {k : BitVec 12} {f : Word → Word} (hi : exec i s = s.srWrite (encode i) k f) (hr : Ready i s)
include hi hr

/-- A write that the mode allows changes the register's place alone. -/
theorem srWrite_puts {v : Word} (hv : f ((s.srGet k.toNat).getD 0#64) = v) (hget : (s.srGet k.toNat).isSome = true)
    (hmay : srMayWrite s.cur.isSup k.toNat = true) (hvtype : s.cur.isSup = true → k.toNat = 0x081 → badVtype v = false) :
    exec i s = .next { s with cx := { s.cx.srPut k.toNat v with r := (s.cx.srPut k.toNat v).r.advance } } := by
  have hok : ((s.srGet k.toNat).isSome && (srMayWrite s.cur.isSup k.toNat || !s.cur.isSup)
      && !(s.cur.isSup && k.toNat = 0x081 && badVtype v)) = true := by
    simpa [hget, hmay, or_iff_not_imp_left] using hvtype
  subst hv
  rw [State.srWrite, hok] at hi
  rw [exec_eq_body hi hr, if_pos hmay]

/-- A write that is the supervisor's alone traps PRIVILEGE in a task (R282). -/
theorem srWrite_refused (hget : (s.srGet k.toNat).isSome = true) (hsup : s.cur.isSup = false) (hmay : srMayWrite false k.toNat = false) :
    Traps i s 0x0E#8 ((encode i).setWidth 64) := by
  rw [State.srWrite, hget, hsup, hmay] at hi
  rw [Traps, exec_eq_body hi hr, hsup, hmay]
  rfl

end

/-- The listed indices below those of the clocks that a task may not write. -/
def srReadOnly : List Nat :=
  [0x001, 0x002, 0x003, 0x004, 0x010, 0x011, 0x012, 0x020, 0x021, 0x030, 0x040, 0x041, 0x080, 0x081, 0x085, 0x086]

theorem srReadOnly_listed : ∀ n ∈ srReadOnly, n ∈ srListed ∧ srMayWrite false n = false := by decide

/-- What SRWR, SRSET and SRCLR do is one operation, by the value that each computes from the old one. -/
theorem srPuts_of_srWrite {s : State} {i : Instr} {k : BitVec 12} {f : Word → Word} (hi : exec i s = s.srWrite (encode i) k f)
    (hr : Ready i s) : SrPuts i k.toNat (f ((s.srGet k.toNat).getD 0#64)) s := by
  have hput := srWrite_puts hi hr rfl
  have hrefuse := srWrite_refused hi hr
  generalize f ((s.srGet k.toNat).getD 0#64) = v at hput ⊢
  generalize k.toNat = n at hput hrefuse ⊢
  have puts : ∀ {m : Nat}, (s.srGet m).isSome = true → srMayWrite s.cur.isSup m = true → m ≠ 0x081 → n = m →
      exec i s = .next { s with cx := { s.cx.srPut m v with r := (s.cx.srPut m v).r.advance } } := by
    rintro m hget hmay hm rfl
    exact hput hget hmay fun _ h => absurd h hm
  refine ⟨puts rfl rfl (by decide), puts rfl rfl (by decide), puts rfl rfl (by decide), puts rfl rfl (by decide),
    puts rfl rfl (by decide), fun hsup => ?supervisor, fun hsup hn => ?task⟩
  case supervisor =>
    rw [hsup] at puts hput
    refine ⟨puts rfl rfl (by decide), puts rfl rfl (by decide), puts rfl rfl (by decide), puts rfl rfl (by decide),
      puts rfl rfl (by decide), puts rfl rfl (by decide), puts rfl rfl (by decide), puts rfl rfl (by decide), puts rfl rfl (by decide),
      puts rfl rfl (by decide), fun hn hv h5 h2 => ?_⟩
    have hvtype : badVtype v = false := by
      rw [badVtype, decide_eq_false (not_le.mpr hv)]
      exact Bool.or_eq_false_iff.mpr ⟨h5, h2⟩
    subst hn
    exact hput rfl rfl fun _ _ => hvtype
  case task =>
    obtain ⟨hlisted, hmay⟩ := srReadOnly_listed n hn
    exact hrefuse (s.srGet_isSome hlisted) hsup hmay

/-- Settles O36: the three instructions differ in the value they compute. -/
theorem specialRegisterWrites : Obligations.SpecialRegisterWrites := fun s d _ =>
  ⟨srPuts_of_srWrite (f := fun _ => s.rd d) rfl, srPuts_of_srWrite (f := fun old => old ||| s.rd d) rfl,
    srPuts_of_srWrite (f := fun old => old &&& ~~~(s.rd d)) rfl⟩

end Sys2Proof.Machine
